-- ==== Sys2Proof/Word.lean ====
section
/-! DEFINITION. The word types of the UL9640 model (R8, R9): a register is 32 bits wide at a byte address. -/

namespace Sys2Proof

/-- A register value (R8: every register is 32 bits wide). -/
abbrev Word := BitVec 32

/-- One byte of a buffer, capsule or medium. -/
abbrev Byte := BitVec 8

end Sys2Proof
end

