-- ==== Sys2Proof/Syntax.lean ====
section
/-! DEFINITION. The commands and events of the part, one constructor per row of spec/opcode_table.json. The table gives
no bits and no operands; the operands here are what a step needs from outside the block: which actuator, port, channel
or register it concerns, the words a host sends, the samples and measurements a pin or a sensor delivers. -/

namespace Sys2Proof

/-- The fields of an NVMe command a host sends (R362 to R366): the association and queue it came by, its command
identifier, namespace, SQE bytes 8 to 23 where a vendor command uses them, command dwords 10 to 15, the length of
its data buffer, whether it uses PRPs (PSDT 00b), and the data it transfers to the device. -/
structure Cmd where
  assoc : Nat
  qid : Nat
  cid : Nat
  nsid : Word
  mid : List Byte
  len : Nat
  prp : Bool
  cdw10 : Word
  cdw11 : Word
  cdw12 : Word
  cdw13 : Word
  cdw14 : Word
  cdw15 : Word
  data : List Byte
deriving DecidableEq, Repr

/-- One 32 bit register access: byte address and value. -/
structure RegPair where
  addr : Nat
  value : Word
deriving DecidableEq, Repr

/-- The path a register access comes by (R11, R29). -/
inductive Path where
  | pcie
  | regCmd
  | snapshot
deriving DecidableEq, Repr

/-- A foreign master of PTP (R200): its clockIdentity and the data set its Announce carries, in the order in which data sets are
compared, and the UTC offset and leap flags it gives. -/
structure Master where
  ident : Nat
  key : List Nat
  utcOffset : Int
  utcValid : Bool
  leap61 : Bool
  leap59 : Bool
deriving DecidableEq, Repr

/-- How a PTP message reaches a port (R200): the port, domainNumber, transport (0 IEEE 802.3, 1 UDP over IPv4, 2 UDP over IPv6) and VLAN ID, 0 untagged. -/
structure PtpHeader where
  port : Nat
  domain : Nat
  transport : Nat
  vlan : Nat
deriving DecidableEq, Repr

/-- What a background scan finds in a sector (R250): decoded after some global iterations, not decoded, a course or truss parity
that does not match, or the end of a pass. -/
inductive Scanned where
  | decoded (iterations : Nat)
  | failed
  | courseMismatch
  | trussMismatch
  | passEnd
deriving DecidableEq, Repr

/-- An Ethernet frame as a port's receive path sees it (R332, R333): its VLAN tag, its length in bytes, whether its FCS is good, and
what it carries. -/
inductive Payload where
  | arp (ip : Nat)
  | neighbour (ip : Nat)
  | echo (v6 : Bool) (src dst : Nat) (body : List Byte)
  | routerAdvert (router lifetime : Nat)
  | tcp (v6 : Bool) (dst localPort : Nat) (conn : Option Nat) (syn : Bool)
  | fragment
  | ptp
  | other
deriving DecidableEq, Repr

/-- The VLAN tagging of a frame: none, one 802.1Q tag, or a tag that is dropped (TPID 0x88A8, or two tags). -/
inductive Tag where
  | none
  | vlan (id : Nat)
  | dropped
deriving DecidableEq, Repr

/-- A received frame. -/
structure Frame where
  tag : Tag
  len : Nat
  fcsOk : Bool
  payload : Payload
deriving DecidableEq, Repr

/-- What an uncorrectable word is read for (R410, R423 to R425): a command's data path, a channel's program fetch or scratch, a loop
engine (an actuator's or the spindle's), a patch memory, a control core, a prefetch or the scrubber, a mirrored region with its
second copy good or bad, a clean L2 line, a dirty L2 line that is written back, a read-modify-write. -/
inductive BusUser where
  | dataPath (assoc qid cid : Nat)
  | programFetch (chan : Fin 128)
  | scratch (chan : Fin 128)
  | actuatorLoop (a : Fin 4)
  | spindleLoop (standby : Option (Fin 3))
  | patch (a : Fin 4) (follow : Bool)
  | core
  | background
  | mirrored (secondGood : Bool)
  | cleanLine
  | dirtyLine
  | partialWrite
deriving DecidableEq, Repr

/-- What start-up finds: TESTEN high, a sensor below 0 degrees at step 3, the firmware slots that pass their checks, the DRAM channels
that train, the pages the memory test retires by channel, whether the key slots unseal, and the park statuses of the actuators. -/
structure Boot where
  testen : Bool
  cold : Bool
  slots : Nat
  keysOk : Bool
  train0 : Bool
  train1 : Bool
  badPages : List (Nat × Nat)
  parked : Nat
deriving DecidableEq, Repr, Inhabited

/-- What calibration measures of a head (R51, R56, R89, R133): its surface, 8 x actuator + head; the batten reader's width in 1/16 %
of track pitch; the offset of the surface from the spindle index in rafter cells; x_cal zone by zone in 1/256 % of track pitch; and the
burst means by radius band: band, A and B. -/
structure HeadCal where
  surface : Fin 32
  width : Nat
  offset : Int
  xcal : List Int
  bursts : List (Nat × Nat × Nat)
deriving DecidableEq, Repr

/-- The four products a batten demodulator has integrated over a sample period, in converter codes, and the part of its 3,906,250 ps that lay
outside a rafter (R89). -/
structure Integrals where
  aI : Int
  aQ : Int
  bI : Int
  bQ : Int
  window : Nat
deriving DecidableEq, Repr

inductive Instr where
  -- registers and functions (01_architecture.md)
  | plainRegisterWrite (path : Path) (assoc : Nat) (addr : Nat) (nbytes : Nat) (value : Word)
  | lowWordRead (path : Path) (addr : Nat)
  | clearOnRead (path : Path) (addr : Nat)
  | regionAccessTimeout (region : Nat)
  | funcStop (assoc : Nat) (func : Nat)
  | funcRestart (assoc : Nat) (func : Nat)
  | funcAbandon (assoc : Nat) (func : Nat)
  | funcStopped (func : Nat)
  | funcCommit (func : Nat)
  | pauseBoundExpiry (func : Nat)
  | stopLimitExpiry (func : Nat)
  | cfgStore (assoc : Nat)
  | cfgCapture (assoc : Nat) (func : Nat)
  | cfgRemove (assoc : Nat)
  | cfgStoreDone (ok : Bool)
  -- read and write channel (03_read_write_channel.md)
  | preampFault (a : Fin 4)
  | preampFaultClear (a : Fin 4)
  | pfltPersistTimeout (a : Fin 4)
  | pscFrameGo (assoc : Nat) (a : Fin 4) (value : Word)
  | pscFrameDone (a : Fin 4) (rdata : Byte)
  | clockAcquired (a : Fin 4)
  | holdTimeout (a : Fin 4)
  | clockLostTimeout (a : Fin 4)
  | rafterSyncCheck (a : Fin 4) (count : Nat)
  | rafterAccepted (a : Fin 4) (window : List Bool) (cells : List (Bool × Bool)) (burstA burstB : Nat)
  | burstPhaseCheck (a : Fin 4) (err : Int)
  | rafterLost (a : Fin 4) (window : List Bool)
  | reacqCheck (a : Fin 4) (diff : Int)
  -- servo (05_servo_control.md)
  | servoSample (a : Fin 4) (x : Integrals) (isns rvx rvy : Int)
  | battenGainStep (a : Fin 4)
  | invalidWindowEnd (a : Fin 4)
  | settled (a : Fin 4)
  | followingErrorTrip (a : Fin 4)
  | oscillationTrip (a : Fin 4)
  | isnsMismatch (a : Fin 4)
  | rvSensorDrop (a : Fin 4) (y : Bool)
  | seekRequest (a : Fin 4) (track : Nat)
  | seekHandover (a : Fin 4)
  | reidentTimeout (a : Fin 4)
  | loopEngineFault (a : Fin 4)
  -- formatter sequencer (04_formatter_sequencer.md)
  | microword (a : Fin 4) (cell : Nat) (patchCorrected : Bool)
  | sequencerAbortRequest (a : Fin 4)
  | sequencerInterruptRequest (a : Fin 4)
  | waitLimitExpiry (a : Fin 4)
  | abortPointMonitor (a : Fin 4)
  | leadFault (a : Fin 4)
  | followFault (a : Fin 4)
  | syncDecided (a : Fin 4) (pre : List (Int × Int)) (window : List Bool)
  | fragmentDone (a : Fin 4)
  | partDone (a : Fin 4) (samples : List (Int × Int))
  | sectorDecoded (a : Fin 4) (media : Nat) (iterations : Nat) (errors : List Nat)
  | ldpcNoConvergence (a : Fin 4) (media : Nat)
  -- spindle (06_spindle_motor.md)
  | pwmPeriod (u v w : Int)
  | overcurrentCoast
  | fwFloor
  | vbusRead (mv : Nat)
  | spindleEngineFault (standby : Option (Fin 3))
  | atSpeed
  | spindleStart (assoc : Nat) (value : Word) (parked : Nat)
  | spindleStop (assoc : Nat) (value : Word)
  | spindleCoast (assoc : Nat) (value : Word)
  | parkRetractWaitEnd (parked : Bool)
  | rockPairDone (parked : Bool)
  | prestartSensingDone (rpm : Int) (theta : Nat)
  | brakeHoldEnd
  | positionSensingDone (theta : Nat)
  | startHandover
  | handoverTimeout
  | spindownBrakeChange
  | isnsCal (assoc : Nat) (rpm : Int)
  | isnsCalDone (samples : List (Int × Int × Int))
  | isnsGainWrite (assoc : Nat) (gain : Fin 4)
  | retractInputChange (aOn bOn : Bool)
  | retractDiscrepancy
  | retractRearm
  | retractWaitTimeout (assoc qid cid : Nat)
  -- time base (07_timebase_and_phase_lock.md)
  | ptpAnnounce (h : PtpHeader) (m : Master)
  | ptpSync (h : PtpHeader) (ident seq : Nat) (interval : Int) (origin : Option Int)
  | ptpFollowUp (h : PtpHeader) (ident seq : Nat) (origin : Int)
  | ptpDelayResp (h : PtpHeader) (ident seq : Nat) (receipt : Int)
  | ptpAnnounceTimeout (ident : Nat)
  | gerynMarker
  | gerynWord (bytes : List Byte)
  | gerynMarkerMissing
  | holdoverExpiry
  | glkClaim (assoc : Nat)
  | glkRelease (assoc : Nat)
  | dbgTrcClaim (assoc : Nat) (en : Bool)
  | dbgTrcRelease (assoc : Nat)
  | phaseMeasurement (a : Fin 4) (instant : Nat)
  | phaseMeasurementTimeout
  | approachRequest (assoc : Nat)
  | approachEnd
  | launchRelease (assoc qid cid : Nat)
  | class0BoundMiss (assoc qid cid window : Nat)
  | alarmClaim (assoc : Nat) (k : Fin 8) (value : Word)
  | alarmRelease (assoc : Nat) (k : Fin 8)
  | alarmFire (k : Fin 8)
  -- media integrity (08_media_integrity.md)
  | courseRecovery (media : Nat) (lost : List Nat)
  | readRetry (media : Nat) (delivered : List (Nat × Nat))
  | trussRecovery (media : Nat) (helpersOk : Bool)
  | recoveryLimitExpiry (assoc qid cid : Nat)
  | unavailReconstruct (assoc qid cid : Nat)
  | recoveredRewrite (media : Nat) (readBack : Option Nat)
  | writeRetry (media : Nat) (ok : Bool)
  | courseOpenTimeout (surface track course : Nat)
  | courseCloseDone (surface track course : Nat) (failed : List Nat)
  | trailTimeout (truss : Nat)
  | trussParityWritten (truss : Nat)
  | rebuildUnit
  | scanSector (a : Fin 4) (head track sector : Nat) (found : Scanned)
  -- Cast, recipes and compression (09 to 11)
  | mouldWrite (c : Cmd)
  | mouldCommit (c : Cmd)
  | mouldWithdrawDone (assoc qid cid : Nat)
  | cast (c : Cmd)
  | castDispatch
  | pourDone (c : Fin 128)
  | castComplete (assoc qid cid : Nat)
  | castEngineFault (e : Fin 128)
  | stagingClaim (assoc : Nat) (value : Word)
  | stagingRelease (assoc : Nat) (value : Word)
  | move (c : Fin 128) (despiteFull : Bool)
  | loop (c : Fin 128)
  | wait (c : Fin 128)
  | signal (c : Fin 128)
  | waitEnd (c : Fin 128)
  | recipeWaitTimeout (c : Fin 128)
  | pacingResume (c : Fin 128)
  | programLineArrive (c : Fin 128) (ok : Bool)
  | compressionJobStart
  | compressionJobDone (u : Fin 4)
  | decompressError (u : Fin 4)
  | verifierMismatch (u : Fin 4)
  | verifierDisable (u : Fin 4)
  | verifiedUnitWaitTimeout (assoc qid cid : Nat)
  -- host fabric (12_host_fabric_and_ownership.md)
  | linkUp (p : Fin 2)
  | linkDown (p : Fin 2)
  | linkLossTimeout (p : Fin 2)
  | portFault (p : Fin 2)
  | frameReceive (p : Fin 2) (f : Frame)
  | tcpConnect (p : Fin 2) (i : Fin 4) (v6 : Bool) (localPort : Nat)
  | connectionClose (conn : Nat)
  | icreq (conn : Nat) (pfv hpda : Nat) (hdgst ddgst : Bool)
  | capsuleReceive (conn : Nat) (cid : Nat) (bytes : Nat) (headerOk dataOk despiteFull : Bool)
  | h2cData (conn : Nat) (cid : Nat) (headerOk dataOk : Bool)
  | refusedConnectionTimeout (conn : Nat)
  | keepAliveExpiry (assoc : Nat)
  | sqTailDoorbell (qid tail : Nat) (cids : List Nat)
  | controllerEnable (acqs : Nat)
  | controllerDisable
  | pcieEnWrite (assoc : Nat) (value : Word)
  | perstAssert
  | perstRise (boot : Boot)
  | functionLevelReset (f : Fin 2)
  | readNvmeMiDataStructure (dtyp : Nat) (which : Nat) (boot : Boot)
  | subsystemHealthStatusPoll (clear : Bool) (boot : Boot)
  | controllerHealthStatusPoll (ctrl : Nat) (boot : Boot)
  | configurationGet (ident : Nat) (boot : Boot)
  | configurationSet (ident : Nat) (value : Nat) (boot : Boot)
  | vpdRead (off len : Nat) (boot : Boot)
  | miTunnelledAdmin (opcode : Nat) (c : Cmd) (boot : Boot)
  | egressShareRecompute
  | commandFetch
  | leaseExpiry
  | successorWindowLapse
  | rangeLockGrant (assoc qid cid : Nat)
  | trailingBufferSpace (assoc qid cid : Nat)
  -- commands (13_command_set.md)
  | deleteIoSubmissionQueue (c : Cmd)
  | createIoSubmissionQueue (c : Cmd)
  | getLogPage (c : Cmd)
  | deleteIoCompletionQueue (c : Cmd)
  | createIoCompletionQueue (c : Cmd)
  | identify (c : Cmd)
  | abort (c : Cmd)
  | setFeatures (c : Cmd)
  | getFeatures (c : Cmd)
  | asynchronousEventRequest (c : Cmd)
  | namespaceManagement (c : Cmd)
  | namespaceDeleteDone (assoc qid cid : Nat)
  | firmwareCommit (c : Cmd)
  | firmwareImageDownload (c : Cmd)
  | namespaceAttachment (c : Cmd)
  | keepAlive (c : Cmd)
  | fabricsConnect (c : Cmd)
  | propertyGet (c : Cmd)
  | propertySet (c : Cmd)
  | authenticationSend (c : Cmd)
  | authenticationReceive (c : Cmd)
  | claimOwnership (c : Cmd)
  | yieldOwnership (c : Cmd)
  | loadContentKey (c : Cmd)
  | loadCastProfile (c : Cmd)
  | loadRecipe (c : Cmd)
  | readPatina (c : Cmd)
  | clearPatina (c : Cmd)
  | registerWrite (c : Cmd)
  | registerRead (c : Cmd)
  | reconfigureFunction (c : Cmd)
  | constellationStatus (c : Cmd)
  | flush (c : Cmd)
  | write (c : Cmd)
  | read (c : Cmd)
  | writeZeroes (c : Cmd)
  | datasetManagement (c : Cmd)
  | timedRead (c : Cmd)
  | transform (c : Cmd)
  | mediaWriteDone (assoc qid cid : Nat)
  | tcpTimerExpiry (conn : Nat) (timer : Fin 3)
  | cqHeadDoorbell (qid head : Nat)
  -- memory (14_memory_and_cache.md)
  | eccCorrected (instNo : Fin 128) (addr : Nat)
  | bucketLeak
  | targetedScrub (rewritten : Bool)
  | eccUncorrectable (instNo : Fin 128) (addr : Nat) (user : BusUser)
  | checkLineWriteback (chan : Fin 2) (group : Nat)
  | scrubGroup (chan : Fin 2) (group : Nat)
  | dramChannelFail (chan : Fin 2)
  | eccModeWrite (assoc : Nat) (value : Word)
  | eccInjArm (assoc : Nat) (value : Word)
  | eccInject
  | pageRetire (chan : Fin 2) (page : Nat) (uncorrectable : List Nat)
  -- faults and the patina (15_faults_and_patina.md)
  | faultEvent (block : Fin 38) (event detail detail64 : Nat)
  | escalationExpiry (region : Fin 7)
  | fltAckHandled (region : Fin 8)
  | fltAckRestart (region : Fin 8)
  | fltAckFatal (region : Fin 8)
  | regionRunning (region : Fin 7) (passed parked : Nat)
  | regionRestartTimeout (region : Fin 7)
  | quietPeriodExpiry
  | errTest (assoc : Nat) (value : Word)
  | errTestEnd
  | controlCoreFail (core : Fin 16)
  | patinaStore
  | patinaJournalWrite (ok : Bool)
  | patinaLock (assoc : Nat)
  -- power, clocks, reset, firmware and pins (16 to 18)
  | xtal32Valid
  | xtal32Stop
  | xtal32Timeout
  | rtcSet
  | rtcSave
  | pllLockTimeout (k : Fin 6)
  | powerEntryComplete (durationDs : Nat)
  | powerExitComplete (durationDs : Nat)
  | ps5PowerOff
  | wakeNAssert (boot : Boot)
  | wakeAlarmFire (boot : Boot)
  | porRelease (boot : Boot)
  | deviceReady (cal : List HeadCal)
  | pwrGoodFall
  | supplyResetRelease (boot : Boot)
  | deviceReset (assoc : Nat) (value : Word) (subsystem : Bool) (boot : Boot)
  | jtagReset
  | norCounterIncrement (c : Fin 9) (ok : Bool)
  | activationStepDone (pauseMs : Nat)
  | activationRetry (ok : Bool) (pauseMs : Nat)
  | activationEnd
  | supplyOutOfLimits (core sram : Bool)
  | overtempFatal (sensor : Fin 8) (temp : Int)
  | coldStartHoldEnd (boot : Boot)
  | porAssert
  | xtal50Stable (late : Bool)
  | wakeNRelease
  | temperatureThresholdCrossed (temps : List Int)
  -- crystal-clock and late rows of the table
  | actuatorReload (a : Fin 4) (ok : Bool)
  | predictedRafterStart (a : Fin 4)
  | rafterPassed (a : Fin 4)
  | sectorBoundary (a : Fin 4)
  | writeDataReady (a : Fin 4)
deriving DecidableEq, Repr

end Sys2Proof
end

