-- ==== Sys2Proof/Config.lean ====
section
/-! DEFINITION. What the part's maker fixes and what the spec leaves open: constants without a body, so that nothing can
be proved of their values. -/

namespace Sys2Proof

/-- A free value of 64 bits, one for each value of the model's counter State.fresh. -/
opaque Config.free : Nat → BitVec 64

/-- VDD_CORE target in mV fused at test, before it is held in 720 to 800 (R506). -/
opaque Config.avs : Nat

/-- ROM microwords of the formatter sequencers, by micro address (R105); the spec gives only the split-sector read routine. -/
opaque Config.romMicro : Nat → BitVec 24

/-- ROM nano-words, by nano index (R105). -/
opaque Config.romNano : Nat → BitVec 128

/-- What TS conversion gives of a sample whose NAL lengths do not fit its size (R261: unpredictable). -/
opaque Config.misread : List Byte → List Byte

/-- Byte reversal of the bytes left over when a length is no multiple of the swap group (R296 states none). -/
opaque Config.partialSwap : List Byte → List Byte

/-- The key of a channel that holds none, for an initialisation segment under protection 3 (R270 and R282 state none). -/
opaque Config.noKey : List Byte

/-- The chain or counter block of a chain or keystream that continues across an SN advance in a pour, from the one before it and OC (R304:
unpredictable). -/
opaque Config.strayChain : List Byte → Nat → List Byte

/-- The DEFLATE stream the compressor gives for an input at a level, when it is a valid one (R316). -/
opaque Config.deflate : Nat → List Byte → List Byte

/-- The bytes of a SMART page, a PCIe notice and an Identify structure that the spec does not state, by page and size. -/
opaque Config.unstated : Nat → Nat → List (BitVec 8)

/-- The two public keys of the boot ROM, points of P-384 (R485). -/
opaque Config.fwPublicKey : Nat → Nat × Nat

/-- The AES-256 key in the fuses that code blocks are encrypted under (R483). -/
opaque Config.fwKey : List (BitVec 8)

/-- The word that the text of an image's code blocks gives for a register of the patch memory, the match registers or FSQ_PCRC (R493
states no place). -/
opaque Config.patchWord : List (BitVec 8) → Nat → BitVec 32

/-- A batten amplitude normalised by a burst mean of zero (R89 states none), as a numerator and a denominator less one. -/
opaque Config.unscaled : Nat → Nat × Nat

/-- The gain an AGC reaches over samples at a divisor of its acquisition bandwidth, from a target and the gain before (R80 states no
bandwidth). -/
opaque Config.agc : Nat → Nat → List Int → Nat → Nat

/-- The phase a read timing loop reaches over samples from the phase before (R81 states no law). -/
opaque Config.timing : List Int → Nat → Nat

/-- The unit of a log-likelihood ratio, less one (R83 states none). -/
opaque Config.llrUnit : Nat

/-- The target of the unnormalised A + B of the batten AGC (R91 states none). -/
opaque Config.battenTarget : Nat

/-- What a meter of the L2, of DRAM or of the clock gates shows: by its register address, the count of free values and the running time. -/
opaque Config.meter : Nat → Nat → Nat → BitVec 32

/-- What a start-up finds when no operand of the command that starts it says so. -/
opaque Config.boot : Nat → Boot

end Sys2Proof
end

