-- ==== Sys2Proof/Machine/EventTable.lean ====
section
/-! DEFINITION. The event IDs of the chapters' event tables and the class of each (R32, R33, R433). -/

namespace Sys2Proof.Machine

/-- The three event classes of R433. -/
inductive EvClass where
  | corrected
  | uncorrected
  | fatal
deriving DecidableEq, Repr

/-- Events of one actuator, by offset from the base of R33 (R59, R102, R127, R163, R251). -/
def actuatorEvents : List (Nat × Nat × EvClass) := [
  (0x001, 0x006, .corrected),
  (0x007, 0x009, .uncorrected),
  (0x00A, 0x00A, .corrected),
  (0x030, 0x030, .corrected),
  (0x040, 0x044, .corrected),
  (0x045, 0x047, .uncorrected),
  (0x048, 0x048, .corrected),
  (0x049, 0x04A, .uncorrected),
  (0x060, 0x062, .uncorrected),
  (0x063, 0x063, .corrected),
  (0x064, 0x064, .uncorrected),
  (0x065, 0x067, .corrected),
  (0x070, 0x073, .corrected),
  (0x074, 0x074, .uncorrected),
  (0x075, 0x077, .corrected)]

/-- Chip events below 0x400, with their class: runs first, last. -/
def chipEventsLow : List (Nat × Nat × EvClass) := [
  (0x001, 0x005, .corrected),
  (0x006, 0x006, .uncorrected),
  (0x010, 0x011, .corrected),
  (0x013, 0x013, .corrected),
  (0x020, 0x020, .corrected),
  (0x021, 0x021, .uncorrected),
  (0x030, 0x030, .corrected),
  (0x031, 0x031, .uncorrected),
  (0x0E0, 0x0E0, .corrected),
  (0x0F0, 0x0F0, .corrected),
  (0x0F1, 0x0F2, .fatal),
  (0x300, 0x303, .corrected),
  (0x304, 0x307, .uncorrected),
  (0x308, 0x30A, .corrected),
  (0x30B, 0x30C, .uncorrected),
  (0x30D, 0x30E, .corrected),
  (0x310, 0x310, .uncorrected),
  (0x311, 0x311, .fatal),
  (0x312, 0x312, .uncorrected),
  (0x313, 0x313, .corrected),
  (0x340, 0x341, .corrected),
  (0x342, 0x342, .uncorrected),
  (0x343, 0x34E, .corrected),
  (0x350, 0x357, .corrected),
  (0x380, 0x380, .corrected),
  (0x381, 0x381, .uncorrected),
  (0x382, 0x384, .corrected),
  (0x385, 0x385, .uncorrected),
  (0x386, 0x38B, .corrected)]

/-- Chip events from 0x400, with their class: runs first, last. -/
def chipEventsHigh : List (Nat × Nat × EvClass) := [
  (0x400, 0x401, .corrected),
  (0x402, 0x402, .uncorrected),
  (0x403, 0x404, .corrected),
  (0x405, 0x405, .uncorrected),
  (0x406, 0x407, .corrected),
  (0x420, 0x423, .corrected),
  (0x424, 0x424, .uncorrected),
  (0x440, 0x440, .corrected),
  (0x441, 0x442, .uncorrected),
  (0x443, 0x444, .corrected),
  (0x445, 0x445, .uncorrected),
  (0x600, 0x604, .corrected),
  (0x605, 0x605, .uncorrected),
  (0x606, 0x60A, .corrected),
  (0x620, 0x623, .corrected),
  (0x640, 0x640, .corrected),
  (0x680, 0x685, .corrected),
  (0x6C1, 0x6C1, .corrected),
  (0x6C2, 0x6C3, .uncorrected),
  (0x6C4, 0x6C6, .corrected),
  (0x6C7, 0x6C8, .uncorrected),
  (0x6C9, 0x6C9, .fatal),
  (0x6CA, 0x6CA, .corrected),
  (0x6CB, 0x6CC, .uncorrected),
  (0x6CE, 0x6CE, .corrected),
  (0x6D0, 0x6D0, .corrected),
  (0x780, 0x781, .corrected),
  (0x782, 0x782, .fatal),
  (0x783, 0x787, .corrected),
  (0x788, 0x788, .uncorrected),
  (0x789, 0x789, .fatal),
  (0x7A0, 0x7A3, .corrected),
  (0x7C0, 0x7C2, .corrected),
  (0x7C3, 0x7C3, .uncorrected),
  (0x7C4, 0x7C7, .corrected),
  (0x7C9, 0x7C9, .uncorrected),
  (0x7E0, 0x7E4, .corrected)]

/-- The class of the run that holds e. -/
def classIn (l : List (Nat × Nat × EvClass)) (e : Nat) : Option EvClass :=
  match l with
  | [] => none
  | (a, b, c) :: r => if a ≤ e ∧ e ≤ b then some c else classIn r e

/-- The base of actuator n's event IDs (R32). -/
def actEventBase (n : Nat) : Nat := 0x100 + 0x80 * n

/-- The class of an event ID; none for an ID that no chapter lists and that is therefore never raised (R32). -/
def eventClass (e : Nat) : Option EvClass :=
  if 0x100 ≤ e ∧ e < 0x300 then classIn actuatorEvents ((e - 0x100) % 0x80)
  else if e < 0x400 then classIn chipEventsLow e
  else classIn chipEventsHigh e

end Sys2Proof.Machine
end

