-- ==== Sys2Proof/Machine/RegTable.lean ====
section
/-! DEFINITION. The register map of the spec (R2, R8 to R10, R27, R28), row by row from the register tables of its
chapters: an address and the fields of every register, the table of rows, and the access codes. -/

namespace Sys2Proof.Machine

/-- The access codes of R10. -/
inductive Access where
  | rw | ro | rc | w1c | w1s | wo
deriving DecidableEq, Repr

/-- What a field reads as where its table says that some values read as others. -/
inductive Clamp where
  | none
  | atLeast (n : Nat)
  | atMost (n : Nat)
  | within (lo hi : Nat)
  | map (l : List (Nat × Nat))
deriving DecidableEq, Repr

/-- One field of a register table: its bit range, access code and reading rule. -/
structure FieldRow where
  hi : Nat
  lo : Nat
  acc : Access
  clamp : Clamp
deriving DecidableEq, Repr

/-- Which function of R35 a register belongs to; format and servo are per actuator, port is per port. -/
inductive FuncOf where
  | none
  | format
  | servo
  | port
  | fixed (k : Nat)
deriving DecidableEq, Repr

/-- One register (or register array) of the map: name, address of element 0, the counts and strides of its indices,
reset value (0 where the spec says fused or from NOR: such a register is filled from State.nor), function, fields. -/
structure RegRow where
  name : String
  base : Nat
  dims : List (Nat × Nat)
  reset : Nat
  func : FuncOf
  fields : List FieldRow
deriving DecidableEq, Repr

/-- A bit range [hi:lo] of a register. -/
structure Fld where
  hi : Nat
  lo : Nat
deriving DecidableEq, Repr

/-- Address of FUNC_CTRL. -/
def Adr.FUNC_CTRL (a : Nat) : Nat := 0x0000C000 + 0x4 * a
/-- Address of FUNC_STOPTIME. -/
def Adr.FUNC_STOPTIME : Nat := 0x0000C040
/-- Address of FUNC_SUMMARY. -/
def Adr.FUNC_SUMMARY : Nat := 0x0000C044
/-- Address of CFG_CMD. -/
def Adr.CFG_CMD : Nat := 0x0000D000
/-- Address of CFG_KEY. -/
def Adr.CFG_KEY : Nat := 0x0000D004
/-- Address of CFG_KIND. -/
def Adr.CFG_KIND : Nat := 0x0000D008
/-- Address of CFG_STATUS. -/
def Adr.CFG_STATUS : Nat := 0x0000D00C
/-- Address of CFG_WIN. -/
def Adr.CFG_WIN (a : Nat) : Nat := 0x0000E000 + 0x4 * a
/-- Address of ZT_STATUS. -/
def Adr.ZT_STATUS (a : Nat) : Nat := 0x01003F00 + 0x40000 * a
/-- Address of CHN_CTRL. -/
def Adr.CHN_CTRL (a : Nat) : Nat := 0x01000000 + 0x40000 * a
/-- Address of CHN_PSC_CFG. -/
def Adr.CHN_PSC_CFG (a : Nat) : Nat := 0x01000004 + 0x40000 * a
/-- Address of CHN_PSC_ACC. -/
def Adr.CHN_PSC_ACC (a : Nat) : Nat := 0x01000008 + 0x40000 * a
/-- Address of CHN_WRCFG. -/
def Adr.CHN_WRCFG (a : Nat) : Nat := 0x0100000C + 0x40000 * a
/-- Address of CHN_STATUS. -/
def Adr.CHN_STATUS (a : Nat) : Nat := 0x01000010 + 0x40000 * a
/-- Address of CHN_ERR. -/
def Adr.CHN_ERR (a : Nat) : Nat := 0x01000014 + 0x40000 * a
/-- Address of CHN_ERRLOC0. -/
def Adr.CHN_ERRLOC0 (a : Nat) : Nat := 0x01000018 + 0x40000 * a
/-- Address of CHN_ERRLOC1. -/
def Adr.CHN_ERRLOC1 (a : Nat) : Nat := 0x0100001C + 0x40000 * a
/-- Address of CHN_DECSTAT. -/
def Adr.CHN_DECSTAT (a : Nat) : Nat := 0x01000020 + 0x40000 * a
/-- Address of BTN_CTRL. -/
def Adr.BTN_CTRL (a : Nat) : Nat := 0x01008000 + 0x40000 * a
/-- Address of BTN_CLK. -/
def Adr.BTN_CLK (a : Nat) : Nat := 0x01008004 + 0x40000 * a
/-- Address of BTN_POS. -/
def Adr.BTN_POS (a : Nat) : Nat := 0x01008008 + 0x40000 * a
/-- Address of BTN_AMP. -/
def Adr.BTN_AMP (a : Nat) : Nat := 0x0100800C + 0x40000 * a
/-- Address of BTN_INVAL. -/
def Adr.BTN_INVAL (a : Nat) : Nat := 0x01008010 + 0x40000 * a
/-- Address of BTN_RAFTER. -/
def Adr.BTN_RAFTER (a : Nat) : Nat := 0x01008014 + 0x40000 * a
/-- Address of BTN_RFCNT. -/
def Adr.BTN_RFCNT (a : Nat) : Nat := 0x01008018 + 0x40000 * a
/-- Address of BTN_WIDTH. -/
def Adr.BTN_WIDTH (a : Nat) (b : Nat) : Nat := 0x01008040 + 0x40000 * a + 0x4 * b
/-- Address of FSQ_CTRL. -/
def Adr.FSQ_CTRL (a : Nat) : Nat := 0x01020000 + 0x40000 * a
/-- Address of FSQ_STATUS. -/
def Adr.FSQ_STATUS (a : Nat) : Nat := 0x01020004 + 0x40000 * a
/-- Address of FSQ_RESUME. -/
def Adr.FSQ_RESUME (a : Nat) : Nat := 0x01020008 + 0x40000 * a
/-- Address of FSQ_CKPT. -/
def Adr.FSQ_CKPT (a : Nat) : Nat := 0x0102000C + 0x40000 * a
/-- Address of FSQ_ERR. -/
def Adr.FSQ_ERR (a : Nat) : Nat := 0x01020010 + 0x40000 * a
/-- Address of FSQ_PATCH. -/
def Adr.FSQ_PATCH (a : Nat) : Nat := 0x01020014 + 0x40000 * a
/-- Address of FSQ_PCRC. -/
def Adr.FSQ_PCRC (a : Nat) : Nat := 0x01020018 + 0x40000 * a
/-- Address of FSQ_MATCH. -/
def Adr.FSQ_MATCH (a : Nat) (b : Nat) : Nat := 0x01020100 + 0x40000 * a + 0x4 * b
/-- Address of SRV_STATUS. -/
def Adr.SRV_STATUS (a : Nat) : Nat := 0x01010000 + 0x40000 * a
/-- Address of SRV_PES. -/
def Adr.SRV_PES (a : Nat) : Nat := 0x01010004 + 0x40000 * a
/-- Address of SRV_TRACK. -/
def Adr.SRV_TRACK (a : Nat) : Nat := 0x01010008 + 0x40000 * a
/-- Address of SRV_TARGET. -/
def Adr.SRV_TARGET (a : Nat) : Nat := 0x0101000C + 0x40000 * a
/-- Address of SRV_OUT. -/
def Adr.SRV_OUT (a : Nat) : Nat := 0x01010010 + 0x40000 * a
/-- Address of SRV_ISNS. -/
def Adr.SRV_ISNS (a : Nat) : Nat := 0x01010014 + 0x40000 * a
/-- Address of SRV_STICKY. -/
def Adr.SRV_STICKY (a : Nat) : Nat := 0x01010018 + 0x40000 * a
/-- Address of SRV_SATLOC. -/
def Adr.SRV_SATLOC (a : Nat) : Nat := 0x0101001C + 0x40000 * a
/-- Address of SRV_CNT. -/
def Adr.SRV_CNT (a : Nat) : Nat := 0x01010020 + 0x40000 * a
/-- Address of SRV_RAFCHK. -/
def Adr.SRV_RAFCHK (a : Nat) : Nat := 0x01010024 + 0x40000 * a
/-- Address of SRV_LOOPCFG. -/
def Adr.SRV_LOOPCFG (a : Nat) : Nat := 0x01010040 + 0x40000 * a
/-- Address of SRV_GMA. -/
def Adr.SRV_GMA (a : Nat) : Nat := 0x01010044 + 0x40000 * a
/-- Address of SRV_VINT. -/
def Adr.SRV_VINT (a : Nat) : Nat := 0x01010048 + 0x40000 * a
/-- Address of SRV_MINT. -/
def Adr.SRV_MINT (a : Nat) : Nat := 0x0101004C + 0x40000 * a
/-- Address of SRV_MALIM. -/
def Adr.SRV_MALIM (a : Nat) : Nat := 0x01010050 + 0x40000 * a
/-- Address of SRV_WINH. -/
def Adr.SRV_WINH (a : Nat) : Nat := 0x01010054 + 0x40000 * a
/-- Address of SRV_SETTLE. -/
def Adr.SRV_SETTLE (a : Nat) : Nat := 0x01010058 + 0x40000 * a
/-- Address of SRV_FELIM. -/
def Adr.SRV_FELIM (a : Nat) : Nat := 0x0101005C + 0x40000 * a
/-- Address of SRV_OSC. -/
def Adr.SRV_OSC (a : Nat) : Nat := 0x01010060 + 0x40000 * a
/-- Address of SRV_SEEKI. -/
def Adr.SRV_SEEKI (a : Nat) : Nat := 0x01010064 + 0x40000 * a
/-- Address of SRV_SEEKK. -/
def Adr.SRV_SEEKK (a : Nat) : Nat := 0x01010068 + 0x40000 * a
/-- Address of SRV_SEEKV. -/
def Adr.SRV_SEEKV (a : Nat) : Nat := 0x0101006C + 0x40000 * a
/-- Address of SRV_SEEKKV. -/
def Adr.SRV_SEEKKV (a : Nat) : Nat := 0x01010070 + 0x40000 * a
/-- Address of SRV_SEEKTOL. -/
def Adr.SRV_SEEKTOL (a : Nat) : Nat := 0x01010074 + 0x40000 * a
/-- Address of SRV_IOCFG. -/
def Adr.SRV_IOCFG (a : Nat) : Nat := 0x01010078 + 0x40000 * a
/-- Address of SRV_ISNSCFG. -/
def Adr.SRV_ISNSCFG (a : Nat) : Nat := 0x0101007C + 0x40000 * a
/-- Address of SPN_CMD. -/
def Adr.SPN_CMD : Nat := 0x01100000
/-- Address of SPN_STATUS. -/
def Adr.SPN_STATUS : Nat := 0x01100004
/-- Address of SPN_SPEED. -/
def Adr.SPN_SPEED : Nat := 0x01100008
/-- Address of SPN_ANGLE. -/
def Adr.SPN_ANGLE : Nat := 0x0110000C
/-- Address of SPN_IDQ. -/
def Adr.SPN_IDQ : Nat := 0x01100010
/-- Address of SPN_VBUS. -/
def Adr.SPN_VBUS : Nat := 0x01100014
/-- Address of SPN_PRESTART. -/
def Adr.SPN_PRESTART : Nat := 0x01100018
/-- Address of SPN_RETRACT. -/
def Adr.SPN_RETRACT : Nat := 0x0110001C
/-- Address of SPN_STICKY. -/
def Adr.SPN_STICKY : Nat := 0x01100020
/-- Address of SPN_ISNSCFG. -/
def Adr.SPN_ISNSCFG : Nat := 0x01100024
/-- Address of SPN_IOFS. -/
def Adr.SPN_IOFS : Nat := 0x01100028
/-- Address of SPN_PWMCFG. -/
def Adr.SPN_PWMCFG : Nat := 0x01100040
/-- Address of SPN_LIM. -/
def Adr.SPN_LIM : Nat := 0x01100044
/-- Address of SPN_MOTOR. -/
def Adr.SPN_MOTOR : Nat := 0x01100048
/-- Address of SPN_MOTOR2. -/
def Adr.SPN_MOTOR2 : Nat := 0x0110004C
/-- Address of SPN_FW. -/
def Adr.SPN_FW : Nat := 0x01100050
/-- Address of SPN_START. -/
def Adr.SPN_START : Nat := 0x01100054
/-- Address of SPN_VLIM. -/
def Adr.SPN_VLIM : Nat := 0x01100058
/-- Address of SPN_ROCK. -/
def Adr.SPN_ROCK : Nat := 0x0110005C
/-- Address of SPN_IOCFG. -/
def Adr.SPN_IOCFG : Nat := 0x01100060
/-- Address of SPN_ACCRATE. -/
def Adr.SPN_ACCRATE : Nat := 0x01100064
/-- Address of SPN_SPDLIM. -/
def Adr.SPN_SPDLIM : Nat := 0x01100068
/-- Address of TMB_NS_LO. -/
def Adr.TMB_NS_LO : Nat := 0x01200000
/-- Address of TMB_NS_HI. -/
def Adr.TMB_NS_HI : Nat := 0x01200004
/-- Address of TMB_FRAC. -/
def Adr.TMB_FRAC : Nat := 0x01200008
/-- Address of TMB_STATUS. -/
def Adr.TMB_STATUS : Nat := 0x0120000C
/-- Address of TMB_OFFSET. -/
def Adr.TMB_OFFSET : Nat := 0x01200010
/-- Address of TMB_PDELAY. -/
def Adr.TMB_PDELAY : Nat := 0x01200014
/-- Address of TMB_UTC. -/
def Adr.TMB_UTC : Nat := 0x01200018
/-- Address of TMB_SRCCFG. -/
def Adr.TMB_SRCCFG : Nat := 0x01200040
/-- Address of TMB_HOLD. -/
def Adr.TMB_HOLD : Nat := 0x01200044
/-- Address of TMB_PLAN_T0_LO. -/
def Adr.TMB_PLAN_T0_LO : Nat := 0x01200048
/-- Address of TMB_PLAN_T0_HI. -/
def Adr.TMB_PLAN_T0_HI : Nat := 0x0120004C
/-- Address of TMB_PLAN. -/
def Adr.TMB_PLAN : Nat := 0x01200050
/-- Address of TMB_MEMBER. -/
def Adr.TMB_MEMBER : Nat := 0x01200054
/-- Address of TMB_PHOFS. -/
def Adr.TMB_PHOFS : Nat := 0x01200058
/-- Address of TMB_PLCTL. -/
def Adr.TMB_PLCTL : Nat := 0x01200060
/-- Address of TMB_PLGAIN. -/
def Adr.TMB_PLGAIN : Nat := 0x01200064
/-- Address of TMB_PHASE. -/
def Adr.TMB_PHASE : Nat := 0x01200080
/-- Address of TMB_PLSTAT. -/
def Adr.TMB_PLSTAT : Nat := 0x01200084
/-- Address of TMB_LAUNCH. -/
def Adr.TMB_LAUNCH : Nat := 0x01200088
/-- Address of GLK_CFG. -/
def Adr.GLK_CFG : Nat := 0x01208000
/-- Address of GLK_CLAIM. -/
def Adr.GLK_CLAIM : Nat := 0x01208004
/-- Address of GLK_STATUS. -/
def Adr.GLK_STATUS : Nat := 0x01208008
/-- Address of MDI_RCTL. -/
def Adr.MDI_RCTL (a : Nat) : Nat := 0x01030000 + 0x40000 * a
/-- Address of MDI_RSTEP. -/
def Adr.MDI_RSTEP (a : Nat) (b : Nat) : Nat := 0x01030040 + 0x40000 * a + 0x4 * b
/-- Address of MDI_SCAN. -/
def Adr.MDI_SCAN (a : Nat) : Nat := 0x01030004 + 0x40000 * a
/-- Address of MDI_SCANPOS. -/
def Adr.MDI_SCANPOS (a : Nat) : Nat := 0x01030008 + 0x40000 * a
/-- Address of MDI_SCANSTAT. -/
def Adr.MDI_SCANSTAT (a : Nat) : Nat := 0x0103000C + 0x40000 * a
/-- Address of MDI_CNT0. -/
def Adr.MDI_CNT0 (a : Nat) : Nat := 0x01030010 + 0x40000 * a
/-- Address of MDI_CNT1. -/
def Adr.MDI_CNT1 (a : Nat) : Nat := 0x01030014 + 0x40000 * a
/-- Address of MDI_SURF. -/
def Adr.MDI_SURF (a : Nat) : Nat := 0x01030018 + 0x40000 * a
/-- Address of MDI_SPARE. -/
def Adr.MDI_SPARE (a : Nat) (b : Nat) : Nat := 0x01030100 + 0x40000 * a + 0x4 * b
/-- Address of MDI_TRAIL. -/
def Adr.MDI_TRAIL : Nat := 0x01038000
/-- Address of MDI_OPEN. -/
def Adr.MDI_OPEN : Nat := 0x01038004
/-- Address of MDI_RLIM. -/
def Adr.MDI_RLIM : Nat := 0x01038008
/-- Address of MDI_UNAV. -/
def Adr.MDI_UNAV : Nat := 0x0103800C
/-- Address of MDI_REBUILD. -/
def Adr.MDI_REBUILD : Nat := 0x01038010
/-- Address of MDI_RBLEFT. -/
def Adr.MDI_RBLEFT : Nat := 0x01038014
/-- Address of MDI_TSTAT. -/
def Adr.MDI_TSTAT : Nat := 0x01038018
/-- Address of CST_BSTAT. -/
def Adr.CST_BSTAT (a : Nat) : Nat := 0x02000000 + 0x10000 * a
/-- Address of CST_BCNT. -/
def Adr.CST_BCNT (a : Nat) : Nat := 0x02000004 + 0x10000 * a
/-- Address of CST_CTRL. -/
def Adr.CST_CTRL : Nat := 0x02008000
/-- Address of CST_STATUS. -/
def Adr.CST_STATUS : Nat := 0x02008004
/-- Address of CST_QUEUE. -/
def Adr.CST_QUEUE : Nat := 0x02008008
/-- Address of CST_STAGE. -/
def Adr.CST_STAGE : Nat := 0x0200800C
/-- Address of CST_STGCLAIM. -/
def Adr.CST_STGCLAIM : Nat := 0x02008010
/-- Address of CST_KEYSTAT. -/
def Adr.CST_KEYSTAT : Nat := 0x02008014
/-- Address of CST_ERR. -/
def Adr.CST_ERR : Nat := 0x02008018
/-- Address of CST_PROF_LO. -/
def Adr.CST_PROF_LO : Nat := 0x0200801C
/-- Address of CST_PROF_HI. -/
def Adr.CST_PROF_HI : Nat := 0x02008020
/-- Address of MVR_CTRL. -/
def Adr.MVR_CTRL : Nat := 0x02400000
/-- Address of MVR_PACE. -/
def Adr.MVR_PACE : Nat := 0x02400004
/-- Address of MVR_STATUS. -/
def Adr.MVR_STATUS : Nat := 0x02400008
/-- Address of MVR_STORE. -/
def Adr.MVR_STORE : Nat := 0x0240000C
/-- Address of MVR_PIN. -/
def Adr.MVR_PIN : Nat := 0x02400010
/-- Address of MVR_FAULT. -/
def Adr.MVR_FAULT : Nat := 0x02400014
/-- Address of MVR_CNT. -/
def Adr.MVR_CNT : Nat := 0x02400018
/-- Address of MVR_LOADED. -/
def Adr.MVR_LOADED (a : Nat) : Nat := 0x02400040 + 0x4 * a
/-- Address of MVR_PINNED. -/
def Adr.MVR_PINNED (a : Nat) : Nat := 0x02400060 + 0x4 * a
/-- Address of MVR_CHSTAT. -/
def Adr.MVR_CHSTAT (a : Nat) : Nat := 0x02401000 + 0x10 * a
/-- Address of MVR_CHOC. -/
def Adr.MVR_CHOC (a : Nat) : Nat := 0x02401004 + 0x10 * a
/-- Address of MVR_CHSN. -/
def Adr.MVR_CHSN (a : Nat) : Nat := 0x02401008 + 0x10 * a
/-- Address of MVR_CHEV. -/
def Adr.MVR_CHEV (a : Nat) : Nat := 0x0240100C + 0x10 * a
/-- Address of CMP_CTRL. -/
def Adr.CMP_CTRL : Nat := 0x02800000
/-- Address of CMP_STATUS. -/
def Adr.CMP_STATUS : Nat := 0x02800004
/-- Address of CMP_CNT0. -/
def Adr.CMP_CNT0 : Nat := 0x02800008
/-- Address of CMP_CNT1. -/
def Adr.CMP_CNT1 : Nat := 0x0280000C
/-- Address of CMP_ERR. -/
def Adr.CMP_ERR : Nat := 0x02800010
/-- Address of CMP_ERRCODE. -/
def Adr.CMP_ERRCODE : Nat := 0x02800014
/-- Address of NET_CFG. -/
def Adr.NET_CFG (a : Nat) : Nat := 0x03000000 + 0x10000 * a
/-- Address of NET_STATUS. -/
def Adr.NET_STATUS (a : Nat) : Nat := 0x03000004 + 0x10000 * a
/-- Address of NET_CNT0. -/
def Adr.NET_CNT0 (a : Nat) : Nat := 0x03000008 + 0x10000 * a
/-- Address of NET_CNT1. -/
def Adr.NET_CNT1 (a : Nat) : Nat := 0x0300000C + 0x10000 * a
/-- Address of NET_MAC_LO. -/
def Adr.NET_MAC_LO (a : Nat) : Nat := 0x03000010 + 0x10000 * a
/-- Address of NET_MAC_HI. -/
def Adr.NET_MAC_HI (a : Nat) : Nat := 0x03000014 + 0x10000 * a
/-- Address of HIF_CTRL. -/
def Adr.HIF_CTRL : Nat := 0x03100000
/-- Address of HIF_STATUS. -/
def Adr.HIF_STATUS : Nat := 0x03100004
/-- Address of HIF_CNT. -/
def Adr.HIF_CNT : Nat := 0x03100008
/-- Address of HIF_ASTAT. -/
def Adr.HIF_ASTAT (a : Nat) : Nat := 0x03101000 + 0x4 * a
/-- Address of OWN_STATUS. -/
def Adr.OWN_STATUS : Nat := 0x03400000
/-- Address of OWN_LEASE. -/
def Adr.OWN_LEASE : Nat := 0x03400004
/-- Address of OWN_CFG. -/
def Adr.OWN_CFG : Nat := 0x03400008
/-- Address of OWN_CNT. -/
def Adr.OWN_CNT : Nat := 0x0340000C
/-- Address of CPL_STATUS. -/
def Adr.CPL_STATUS : Nat := 0x03800000
/-- Address of CPL_SHARE. -/
def Adr.CPL_SHARE : Nat := 0x03800004
/-- Address of CPL_ERR. -/
def Adr.CPL_ERR : Nat := 0x03800008
/-- Address of CPL_QSTAT. -/
def Adr.CPL_QSTAT (a : Nat) : Nat := 0x03801000 + 0x4 * a
/-- Address of MEM_CFG. -/
def Adr.MEM_CFG : Nat := 0x04000000
/-- Address of MEM_STATUS. -/
def Adr.MEM_STATUS : Nat := 0x04000004
/-- Address of MEM_SPACE. -/
def Adr.MEM_SPACE : Nat := 0x04000008
/-- Address of MEM_RETIRE. -/
def Adr.MEM_RETIRE : Nat := 0x0400000C
/-- Address of MEM_BW. -/
def Adr.MEM_BW : Nat := 0x04000010
/-- Address of L2C_STATUS. -/
def Adr.L2C_STATUS : Nat := 0x04100000
/-- Address of L2C_PIN. -/
def Adr.L2C_PIN : Nat := 0x04100004
/-- Address of L2C_HIT. -/
def Adr.L2C_HIT : Nat := 0x04100010
/-- Address of L2C_MISS. -/
def Adr.L2C_MISS : Nat := 0x04100014
/-- Address of L2C_PF. -/
def Adr.L2C_PF : Nat := 0x04100018
/-- Address of ECC_MODE. -/
def Adr.ECC_MODE : Nat := 0x04200000
/-- Address of ECC_BUCKET. -/
def Adr.ECC_BUCKET : Nat := 0x04200004
/-- Address of ECC_IRQ. -/
def Adr.ECC_IRQ : Nat := 0x04200008
/-- Address of ECC_CNT. -/
def Adr.ECC_CNT : Nat := 0x0420000C
/-- Address of ECC_UE_LO. -/
def Adr.ECC_UE_LO : Nat := 0x04200010
/-- Address of ECC_UE_HI. -/
def Adr.ECC_UE_HI : Nat := 0x04200014
/-- Address of ECC_SCRUB. -/
def Adr.ECC_SCRUB : Nat := 0x04200018
/-- Address of ECC_SCRUBPOS. -/
def Adr.ECC_SCRUBPOS : Nat := 0x0420001C
/-- Address of ECC_INJ. -/
def Adr.ECC_INJ : Nat := 0x04200020
/-- Address of ECC_INJADDR_LO. -/
def Adr.ECC_INJADDR_LO : Nat := 0x04200024
/-- Address of ECC_INJADDR_HI. -/
def Adr.ECC_INJADDR_HI : Nat := 0x04200028
/-- Address of ECC_LVL. -/
def Adr.ECC_LVL (a : Nat) : Nat := 0x04200100 + 0x4 * a
/-- Address of FLT_CHIP. -/
def Adr.FLT_CHIP : Nat := 0x05000000
/-- Address of FLT_STATE. -/
def Adr.FLT_STATE : Nat := 0x05000004
/-- Address of FLT_CTRL. -/
def Adr.FLT_CTRL : Nat := 0x05000008
/-- Address of FLT_ACK. -/
def Adr.FLT_ACK : Nat := 0x0500000C
/-- Address of FLT_RECOV_COUNT. -/
def Adr.FLT_RECOV_COUNT : Nat := 0x05000010
/-- Address of FLT_QUIET. -/
def Adr.FLT_QUIET : Nat := 0x05000014
/-- Address of FLT_CNT. -/
def Adr.FLT_CNT : Nat := 0x05000018
/-- Address of FLT_ERRTEST. -/
def Adr.FLT_ERRTEST : Nat := 0x0500001C
/-- Address of PAT_CTRL. -/
def Adr.PAT_CTRL : Nat := 0x05100000
/-- Address of PAT_STATUS. -/
def Adr.PAT_STATUS : Nat := 0x05100004
/-- Address of PAT_COUNT. -/
def Adr.PAT_COUNT : Nat := 0x05100008
/-- Address of PAT_DROP. -/
def Adr.PAT_DROP : Nat := 0x0510000C
/-- Address of PAT_LOST. -/
def Adr.PAT_LOST : Nat := 0x05100010
/-- Address of PAT_TRIG. -/
def Adr.PAT_TRIG (a : Nat) : Nat := 0x05101000 + 0x4 * a
/-- Address of PLN_STATUS. -/
def Adr.PLN_STATUS : Nat := 0x00000000
/-- Address of PLN_RTC_LO. -/
def Adr.PLN_RTC_LO : Nat := 0x00000004
/-- Address of PLN_RTC_HI. -/
def Adr.PLN_RTC_HI : Nat := 0x00000008
/-- Address of PLN_WAKECFG. -/
def Adr.PLN_WAKECFG : Nat := 0x0000000C
/-- Address of PLN_WALM_LO. -/
def Adr.PLN_WALM_LO : Nat := 0x00000010
/-- Address of PLN_WALM_HI. -/
def Adr.PLN_WALM_HI : Nat := 0x00000014
/-- Address of PLN_WAKE. -/
def Adr.PLN_WAKE : Nat := 0x00000018
/-- Address of PLN_RESET. -/
def Adr.PLN_RESET : Nat := 0x0000001C
/-- Address of PWR_STATE. -/
def Adr.PWR_STATE : Nat := 0x00004000
/-- Address of PWR_REGION. -/
def Adr.PWR_REGION : Nat := 0x00004004
/-- Address of PWR_LAT. -/
def Adr.PWR_LAT : Nat := 0x00004008
/-- Address of CLK_STATUS. -/
def Adr.CLK_STATUS : Nat := 0x00008000
/-- Address of FWU_STATUS. -/
def Adr.FWU_STATUS : Nat := 0x00100000
/-- Address of FWU_DL. -/
def Adr.FWU_DL : Nat := 0x00100004
/-- Address of FWU_CHECK. -/
def Adr.FWU_CHECK : Nat := 0x00100008
/-- Address of FWU_PAUSE. -/
def Adr.FWU_PAUSE : Nat := 0x0010000C
/-- Address of PIN_ID. -/
def Adr.PIN_ID : Nat := 0x06000000
/-- Address of PIN_AVS. -/
def Adr.PIN_AVS : Nat := 0x06000004
/-- Address of PIN_TEMP. -/
def Adr.PIN_TEMP : Nat := 0x06000008
/-- Address of PIN_SUPPLY. -/
def Adr.PIN_SUPPLY : Nat := 0x0600000C
/-- Address of PIN_TEMPS. -/
def Adr.PIN_TEMPS (a : Nat) : Nat := 0x06000040 + 0x4 * a
/-- Address of DBG_TRC. -/
def Adr.DBG_TRC : Nat := 0x06008000
/-- Address of ZT0. -/
def Adr.ZT0 (a : Nat) (b : Nat) (c : Nat) : Nat := 0x01004000 + 0x40000 * a + 0x800 * b + 0x20 * c
/-- Address of ZT1. -/
def Adr.ZT1 (a : Nat) (b : Nat) (c : Nat) : Nat := 0x01004004 + 0x40000 * a + 0x800 * b + 0x20 * c
/-- Address of ZT2. -/
def Adr.ZT2 (a : Nat) (b : Nat) (c : Nat) : Nat := 0x01004008 + 0x40000 * a + 0x800 * b + 0x20 * c
/-- Address of ZT3. -/
def Adr.ZT3 (a : Nat) (b : Nat) (c : Nat) : Nat := 0x0100400C + 0x40000 * a + 0x800 * b + 0x20 * c
/-- Address of ZT4. -/
def Adr.ZT4 (a : Nat) (b : Nat) (c : Nat) : Nat := 0x01004010 + 0x40000 * a + 0x800 * b + 0x20 * c
/-- Address of ZT5. -/
def Adr.ZT5 (a : Nat) (b : Nat) (c : Nat) : Nat := 0x01004014 + 0x40000 * a + 0x800 * b + 0x20 * c
/-- Address of ZT6. -/
def Adr.ZT6 (a : Nat) (b : Nat) (c : Nat) : Nat := 0x01004018 + 0x40000 * a + 0x800 * b + 0x20 * c
/-- Address of ZT7. -/
def Adr.ZT7 (a : Nat) (b : Nat) (c : Nat) : Nat := 0x0100401C + 0x40000 * a + 0x800 * b + 0x20 * c
/-- Address of EQ_D0. -/
def Adr.EQ_D0 (a : Nat) (b : Nat) (c : Nat) : Nat := 0x01001000 + 0x40000 * a + 0x100 * b + 0x4 * c
/-- Address of EQ_D1. -/
def Adr.EQ_D1 (a : Nat) (b : Nat) (c : Nat) : Nat := 0x01001040 + 0x40000 * a + 0x100 * b + 0x4 * c
/-- Address of EQ_TGT. -/
def Adr.EQ_TGT (a : Nat) (b : Nat) : Nat := 0x01001080 + 0x40000 * a + 0x100 * b
/-- Address of EQ_CFG. -/
def Adr.EQ_CFG (a : Nat) (b : Nat) : Nat := 0x01001084 + 0x40000 * a + 0x100 * b
/-- Address of EQ_MAP. -/
def Adr.EQ_MAP (a : Nat) (b : Nat) : Nat := 0x01003000 + 0x40000 * a + 0x4 * b
/-- Address of FSQ_PMEM. -/
def Adr.FSQ_PMEM (a : Nat) (b : Nat) : Nat := 0x01028000 + 0x40000 * a + 0x4 * b
/-- Address of SRV_VCM. -/
def Adr.SRV_VCM (a : Nat) (b : Nat) (c : Nat) : Nat := 0x01010100 + 0x40000 * a + 0x20 * b + 0x4 * c
/-- Address of SRV_MA. -/
def Adr.SRV_MA (a : Nat) (b : Nat) (c : Nat) : Nat := 0x01010300 + 0x40000 * a + 0x20 * b + 0x4 * c
/-- Address of SRV_RV. -/
def Adr.SRV_RV (a : Nat) (b : Nat) (c : Nat) : Nat := 0x01010500 + 0x40000 * a + 0x20 * b + 0x4 * c
/-- Address of SRV_RVGAIN. -/
def Adr.SRV_RVGAIN (a : Nat) (b : Nat) : Nat := 0x01010600 + 0x40000 * a + 0x4 * b
/-- Address of SRV_XAGAIN. -/
def Adr.SRV_XAGAIN (a : Nat) (b : Nat) : Nat := 0x01010610 + 0x40000 * a + 0x4 * b
/-- Address of SRV_XA. -/
def Adr.SRV_XA (a : Nat) (b : Nat) (c : Nat) : Nat := 0x01010700 + 0x40000 * a + 0x20 * b + 0x4 * c
/-- Address of SRV_XCAL. -/
def Adr.SRV_XCAL (a : Nat) (b : Nat) : Nat := 0x01011000 + 0x40000 * a + 0x4 * b
/-- Address of SPN_GAIN. -/
def Adr.SPN_GAIN (a : Nat) : Nat := 0x01100100 + 0x4 * a
/-- Address of TMB_ALM_LO. -/
def Adr.TMB_ALM_LO (a : Nat) : Nat := 0x01200100 + 0x10 * a
/-- Address of TMB_ALM_HI. -/
def Adr.TMB_ALM_HI (a : Nat) : Nat := 0x01200104 + 0x10 * a
/-- Address of TMB_ALM_CTL. -/
def Adr.TMB_ALM_CTL (a : Nat) : Nat := 0x01200108 + 0x10 * a
/-- Address of NET_IF0. -/
def Adr.NET_IF0 (a : Nat) (b : Nat) : Nat := 0x03000100 + 0x10000 * a + 0x20 * b
/-- Address of NET_IFIP4. -/
def Adr.NET_IFIP4 (a : Nat) (b : Nat) : Nat := 0x03000104 + 0x10000 * a + 0x20 * b
/-- Address of NET_IFGW4. -/
def Adr.NET_IFGW4 (a : Nat) (b : Nat) : Nat := 0x03000108 + 0x10000 * a + 0x20 * b
/-- Address of NET_IFIP6. -/
def Adr.NET_IFIP6 (a : Nat) (b : Nat) (c : Nat) : Nat := 0x0300010C + 0x10000 * a + 0x20 * b + 0x4 * c
/-- Address of L2C_ATTR0. -/
def Adr.L2C_ATTR0 (a : Nat) : Nat := 0x04100100 + 0x8 * a
/-- Address of L2C_ATTR1. -/
def Adr.L2C_ATTR1 (a : Nat) : Nat := 0x04100104 + 0x8 * a
/-- Address of FLT_REG. -/
def Adr.FLT_REG (a : Nat) : Nat := 0x05000100 + 0x10 * a
/-- Address of FLT_ESC. -/
def Adr.FLT_ESC (a : Nat) : Nat := 0x05000104 + 0x10 * a
/-- Address of FLT_RST. -/
def Adr.FLT_RST (a : Nat) : Nat := 0x05000108 + 0x10 * a
/-- Address of FLT_BLK. -/
def Adr.FLT_BLK (a : Nat) : Nat := 0x05001000 + 0x4 * a
/-- Address of PAT_LISTA. -/
def Adr.PAT_LISTA (a : Nat) (b : Nat) : Nat := 0x05104000 + 0x100 * a + 0x4 * b
/-- Address of PAT_LISTN. -/
def Adr.PAT_LISTN (a : Nat) : Nat := 0x051040C0 + 0x100 * a
/-- Address of PLN_CNT_LO. -/
def Adr.PLN_CNT_LO (a : Nat) : Nat := 0x00000100 + 0x8 * a
/-- Address of PLN_CNT_HI. -/
def Adr.PLN_CNT_HI (a : Nat) : Nat := 0x00000104 + 0x8 * a
/-- Address of FWU_REV_LO. -/
def Adr.FWU_REV_LO (a : Nat) : Nat := 0x00100010 + 0x8 * a
/-- Address of FWU_REV_HI. -/
def Adr.FWU_REV_HI (a : Nat) : Nat := 0x00100014 + 0x8 * a

def Fld.FUNC_CTRL_pause_exceeded : Fld := ⟨17, 17⟩
def Fld.FUNC_CTRL_revert_seen : Fld := ⟨16, 16⟩
def Fld.FUNC_CTRL_write_refused : Fld := ⟨10, 10⟩
def Fld.FUNC_CTRL_state : Fld := ⟨9, 8⟩
def Fld.FUNC_CTRL_cmd : Fld := ⟨1, 0⟩
def Fld.FUNC_STOPTIME_func : Fld := ⟨19, 16⟩
def Fld.FUNC_STOPTIME_elapsed_ms : Fld := ⟨15, 0⟩
def Fld.FUNC_SUMMARY_not_running : Fld := ⟨14, 0⟩
def Fld.CFG_CMD_func : Fld := ⟨11, 8⟩
def Fld.CFG_CMD_cmd : Fld := ⟨1, 0⟩
def Fld.CFG_KEY_key : Fld := ⟨31, 0⟩
def Fld.CFG_KIND_kind : Fld := ⟨15, 0⟩
def Fld.CFG_STATUS_busy : Fld := ⟨31, 31⟩
def Fld.CFG_STATUS_refused : Fld := ⟨30, 30⟩
def Fld.CFG_STATUS_reason : Fld := ⟨26, 24⟩
def Fld.CFG_STATUS_records : Fld := ⟨10, 0⟩
def Fld.CFG_WIN_data : Fld := ⟨31, 0⟩
def Fld.ZT_STATUS_check : Fld := ⟨31, 28⟩
def Fld.ZT_STATUS_head : Fld := ⟨26, 24⟩
def Fld.ZT_STATUS_zone : Fld := ⟨21, 16⟩
def Fld.ZT_STATUS_rejected : Fld := ⟨0, 0⟩
def Fld.CHN_CTRL_sync_tol : Fld := ⟨27, 24⟩
def Fld.CHN_CTRL_sync_win : Fld := ⟨23, 17⟩
def Fld.CHN_CTRL_hs_settle : Fld := ⟨16, 12⟩
def Fld.CHN_CTRL_rafter_src : Fld := ⟨11, 10⟩
def Fld.CHN_CTRL_adapt_en : Fld := ⟨9, 9⟩
def Fld.CHN_CTRL_rd1_en : Fld := ⟨8, 8⟩
def Fld.CHN_CTRL_ldpc_local : Fld := ⟨7, 5⟩
def Fld.CHN_CTRL_max_global : Fld := ⟨4, 0⟩
def Fld.CHN_PSC_CFG_head_base : Fld := ⟨31, 24⟩
def Fld.CHN_PSC_CFG_head_shift : Fld := ⟨18, 16⟩
def Fld.CHN_PSC_CFG_head_addr : Fld := ⟨14, 8⟩
def Fld.CHN_PSC_CFG_pflt_pol : Fld := ⟨6, 6⟩
def Fld.CHN_PSC_CFG_psc_div : Fld := ⟨5, 0⟩
def Fld.CHN_PSC_ACC_busy : Fld := ⟨31, 31⟩
def Fld.CHN_PSC_ACC_refused : Fld := ⟨30, 30⟩
def Fld.CHN_PSC_ACC_go : Fld := ⟨29, 29⟩
def Fld.CHN_PSC_ACC_rw : Fld := ⟨23, 23⟩
def Fld.CHN_PSC_ACC_addr : Fld := ⟨22, 16⟩
def Fld.CHN_PSC_ACC_rdata : Fld := ⟨15, 8⟩
def Fld.CHN_PSC_ACC_wdata : Fld := ⟨7, 0⟩
def Fld.CHN_WRCFG_pc2 : Fld := ⟨25, 22⟩
def Fld.CHN_WRCFG_pc1 : Fld := ⟨21, 18⟩
def Fld.CHN_WRCFG_wg_lag : Fld := ⟨17, 9⟩
def Fld.CHN_WRCFG_wg_lead : Fld := ⟨8, 0⟩
def Fld.CHN_STATUS_wg_clamped : Fld := ⟨14, 14⟩
def Fld.CHN_STATUS_pflt : Fld := ⟨13, 13⟩
def Fld.CHN_STATUS_wg_pin : Fld := ⟨12, 12⟩
def Fld.CHN_STATUS_writing : Fld := ⟨11, 11⟩
def Fld.CHN_STATUS_reading : Fld := ⟨10, 10⟩
def Fld.CHN_STATUS_zone : Fld := ⟨9, 4⟩
def Fld.CHN_STATUS_head : Fld := ⟨2, 0⟩
def Fld.CHN_ERR_budget : Fld := ⟨13, 13⟩
def Fld.CHN_ERR_last_where : Fld := ⟨12, 11⟩
def Fld.CHN_ERR_last_code : Fld := ⟨10, 8⟩
def Fld.CHN_ERR_seen : Fld := ⟨7, 1⟩
def Fld.CHN_ERRLOC0_head : Fld := ⟨26, 24⟩
def Fld.CHN_ERRLOC0_track : Fld := ⟨23, 0⟩
def Fld.CHN_ERRLOC1_rafter : Fld := ⟨22, 16⟩
def Fld.CHN_ERRLOC1_sector : Fld := ⟨15, 0⟩
def Fld.CHN_DECSTAT_multi : Fld := ⟨31, 16⟩
def Fld.CHN_DECSTAT_first : Fld := ⟨15, 0⟩
def Fld.BTN_CTRL_gain_auto : Fld := ⟨21, 21⟩
def Fld.BTN_CTRL_oob_thresh : Fld := ⟨20, 16⟩
def Fld.BTN_CTRL_reacq_cycles : Fld := ⟨15, 8⟩
def Fld.BTN_CTRL_hold_err_max : Fld := ⟨7, 0⟩
def Fld.BTN_CLK_last_err : Fld := ⟨31, 16⟩
def Fld.BTN_CLK_slip : Fld := ⟨3, 3⟩
def Fld.BTN_CLK_wg_permit : Fld := ⟨2, 2⟩
def Fld.BTN_CLK_state : Fld := ⟨1, 0⟩
def Fld.BTN_POS_seq : Fld := ⟨31, 24⟩
def Fld.BTN_POS_cause : Fld := ⟨19, 18⟩
def Fld.BTN_POS_oob : Fld := ⟨17, 17⟩
def Fld.BTN_POS_valid : Fld := ⟨16, 16⟩
def Fld.BTN_POS_ratio : Fld := ⟨15, 0⟩
def Fld.BTN_AMP_amp_b : Fld := ⟨31, 16⟩
def Fld.BTN_AMP_amp_a : Fld := ⟨15, 0⟩
def Fld.BTN_INVAL_windows : Fld := ⟨31, 16⟩
def Fld.BTN_INVAL_gain_code : Fld := ⟨12, 8⟩
def Fld.BTN_INVAL_remaining : Fld := ⟨5, 0⟩
def Fld.BTN_RAFTER_index : Fld := ⟨30, 24⟩
def Fld.BTN_RAFTER_track : Fld := ⟨23, 0⟩
def Fld.BTN_RFCNT_lost_total : Fld := ⟨31, 16⟩
def Fld.BTN_RFCNT_consec : Fld := ⟨7, 0⟩
def Fld.BTN_WIDTH_failed : Fld := ⟨8, 8⟩
def Fld.BTN_WIDTH_width : Fld := ⟨7, 0⟩
def Fld.FSQ_CTRL_wait_limit : Fld := ⟨23, 16⟩
def Fld.FSQ_CTRL_follow_en : Fld := ⟨0, 0⟩
def Fld.FSQ_STATUS_idle : Fld := ⟨7, 7⟩
def Fld.FSQ_STATUS_in_irq : Fld := ⟨6, 6⟩
def Fld.FSQ_STATUS_abort_pend : Fld := ⟨5, 5⟩
def Fld.FSQ_STATUS_irq_pend : Fld := ⟨4, 4⟩
def Fld.FSQ_STATUS_seq1 : Fld := ⟨3, 2⟩
def Fld.FSQ_STATUS_seq0 : Fld := ⟨1, 0⟩
def Fld.FSQ_RESUME_cause : Fld := ⟨31, 30⟩
def Fld.FSQ_RESUME_addr : Fld := ⟨12, 0⟩
def Fld.FSQ_CKPT_entry : Fld := ⟨31, 20⟩
def Fld.FSQ_CKPT_part : Fld := ⟨18, 18⟩
def Fld.FSQ_CKPT_frag : Fld := ⟨17, 14⟩
def Fld.FSQ_CKPT_addr : Fld := ⟨12, 0⟩
def Fld.FSQ_ERR_first : Fld := ⟨23, 16⟩
def Fld.FSQ_ERR_seen : Fld := ⟨7, 0⟩
def Fld.FSQ_PATCH_patch_en : Fld := ⟨31, 31⟩
def Fld.FSQ_PATCH_crc_fail : Fld := ⟨30, 30⟩
def Fld.FSQ_PATCH_dup : Fld := ⟨29, 29⟩
def Fld.FSQ_PATCH_patch_id : Fld := ⟨15, 0⟩
def Fld.FSQ_PCRC_crc : Fld := ⟨31, 0⟩
def Fld.FSQ_MATCH_en : Fld := ⟨31, 31⟩
def Fld.FSQ_MATCH_patch_addr : Fld := ⟨28, 16⟩
def Fld.FSQ_MATCH_rom_addr : Fld := ⟨12, 0⟩
def Fld.SRV_STATUS_sb_id : Fld := ⟨11, 9⟩
def Fld.SRV_STATUS_on_standby : Fld := ⟨8, 8⟩
def Fld.SRV_STATUS_clamp_v : Fld := ⟨7, 7⟩
def Fld.SRV_STATUS_clamp_m : Fld := ⟨6, 6⟩
def Fld.SRV_STATUS_wr_permit : Fld := ⟨5, 5⟩
def Fld.SRV_STATUS_settled : Fld := ⟨4, 4⟩
def Fld.SRV_STATUS_in_band : Fld := ⟨3, 3⟩
def Fld.SRV_STATUS_mode : Fld := ⟨2, 0⟩
def Fld.SRV_PES_valid : Fld := ⟨31, 31⟩
def Fld.SRV_PES_oob : Fld := ⟨30, 30⟩
def Fld.SRV_PES_pes : Fld := ⟨23, 0⟩
def Fld.SRV_TRACK_head : Fld := ⟨26, 24⟩
def Fld.SRV_TRACK_track : Fld := ⟨23, 0⟩
def Fld.SRV_TARGET_target : Fld := ⟨23, 0⟩
def Fld.SRV_OUT_vcm : Fld := ⟨31, 16⟩
def Fld.SRV_OUT_ma : Fld := ⟨13, 0⟩
def Fld.SRV_ISNS_code : Fld := ⟨11, 0⟩
def Fld.SRV_STICKY_imismatch : Fld := ⟨9, 9⟩
def Fld.SRV_STICKY_rv_fault : Fld := ⟨8, 8⟩
def Fld.SRV_STICKY_reident : Fld := ⟨7, 7⟩
def Fld.SRV_STICKY_wrong_track : Fld := ⟨6, 6⟩
def Fld.SRV_STICKY_osc_trip : Fld := ⟨5, 5⟩
def Fld.SRV_STICKY_fe_trip : Fld := ⟨4, 4⟩
def Fld.SRV_STICKY_inhibit : Fld := ⟨3, 3⟩
def Fld.SRV_STICKY_clamp_hit : Fld := ⟨2, 2⟩
def Fld.SRV_STICKY_clip : Fld := ⟨1, 1⟩
def Fld.SRV_STICKY_sat : Fld := ⟨0, 0⟩
def Fld.SRV_SATLOC_stage : Fld := ⟨5, 4⟩
def Fld.SRV_SATLOC_section : Fld := ⟨3, 0⟩
def Fld.SRV_CNT_inhibits : Fld := ⟨31, 16⟩
def Fld.SRV_CNT_trips : Fld := ⟨15, 0⟩
def Fld.SRV_RAFCHK_discard : Fld := ⟨31, 16⟩
def Fld.SRV_RAFCHK_mismatch : Fld := ⟨15, 0⟩
def Fld.SRV_LOOPCFG_xa_en : Fld := ⟨14, 14⟩
def Fld.SRV_LOOPCFG_rv_en : Fld := ⟨13, 13⟩
def Fld.SRV_LOOPCFG_sup_sel : Fld := ⟨12, 11⟩
def Fld.SRV_LOOPCFG_ma_en : Fld := ⟨10, 10⟩
def Fld.SRV_LOOPCFG_int_en_ma : Fld := ⟨9, 9⟩
def Fld.SRV_LOOPCFG_int_en_vcm : Fld := ⟨8, 8⟩
def Fld.SRV_LOOPCFG_n_ma : Fld := ⟨7, 4⟩
def Fld.SRV_LOOPCFG_n_vcm : Fld := ⟨3, 0⟩
def Fld.SRV_GMA_g_ma : Fld := ⟨23, 0⟩
def Fld.SRV_VINT_int_hi : Fld := ⟨31, 16⟩
def Fld.SRV_VINT_int_lo : Fld := ⟨15, 0⟩
def Fld.SRV_MINT_int_hi : Fld := ⟨31, 16⟩
def Fld.SRV_MINT_int_lo : Fld := ⟨15, 0⟩
def Fld.SRV_MALIM_ma_lim : Fld := ⟨15, 0⟩
def Fld.SRV_WINH_oob_pes : Fld := ⟨15, 8⟩
def Fld.SRV_WINH_wi_thresh : Fld := ⟨7, 0⟩
def Fld.SRV_SETTLE_settle_cnt : Fld := ⟨15, 8⟩
def Fld.SRV_SETTLE_settle_win : Fld := ⟨7, 0⟩
def Fld.SRV_FELIM_fe_time : Fld := ⟨31, 16⟩
def Fld.SRV_FELIM_fe_limit : Fld := ⟨7, 0⟩
def Fld.SRV_OSC_osc_win : Fld := ⟨31, 16⟩
def Fld.SRV_OSC_osc_count : Fld := ⟨15, 8⟩
def Fld.SRV_OSC_osc_amp : Fld := ⟨7, 0⟩
def Fld.SRV_SEEKI_i_pk : Fld := ⟨23, 0⟩
def Fld.SRV_SEEKK_k_acc : Fld := ⟨31, 0⟩
def Fld.SRV_SEEKV_v_max : Fld := ⟨31, 0⟩
def Fld.SRV_SEEKKV_kv : Fld := ⟨23, 0⟩
def Fld.SRV_SEEKTOL_seek_tol : Fld := ⟨15, 0⟩
def Fld.SRV_IOCFG_pic_unload : Fld := ⟨31, 24⟩
def Fld.SRV_IOCFG_pic_addr : Fld := ⟨23, 16⟩
def Fld.SRV_IOCFG_pic_cs : Fld := ⟨1, 0⟩
def Fld.SRV_ISNSCFG_i_err : Fld := ⟨27, 16⟩
def Fld.SRV_ISNSCFG_i_scale : Fld := ⟨15, 0⟩
def Fld.SPN_CMD_spd_ref : Fld := ⟨31, 16⟩
def Fld.SPN_CMD_gate_en : Fld := ⟨2, 2⟩
def Fld.SPN_CMD_cmd : Fld := ⟨1, 0⟩
def Fld.SPN_STATUS_sb_id : Fld := ⟨9, 8⟩
def Fld.SPN_STATUS_on_standby : Fld := ⟨7, 7⟩
def Fld.SPN_STATUS_fw_active : Fld := ⟨6, 6⟩
def Fld.SPN_STATUS_at_speed : Fld := ⟨5, 5⟩
def Fld.SPN_STATUS_isns_valid : Fld := ⟨4, 4⟩
def Fld.SPN_STATUS_state : Fld := ⟨3, 0⟩
def Fld.SPN_SPEED_speed : Fld := ⟨31, 0⟩
def Fld.SPN_ANGLE_trim : Fld := ⟨31, 16⟩
def Fld.SPN_ANGLE_theta : Fld := ⟨15, 0⟩
def Fld.SPN_IDQ_iq : Fld := ⟨31, 16⟩
def Fld.SPN_IDQ_id : Fld := ⟨15, 0⟩
def Fld.SPN_VBUS_vmag : Fld := ⟨31, 16⟩
def Fld.SPN_VBUS_vbus : Fld := ⟨15, 0⟩
def Fld.SPN_PRESTART_result : Fld := ⟨17, 16⟩
def Fld.SPN_PRESTART_reverse : Fld := ⟨15, 15⟩
def Fld.SPN_PRESTART_rpm : Fld := ⟨14, 0⟩
def Fld.SPN_RETRACT_short_cnt : Fld := ⟨31, 16⟩
def Fld.SPN_RETRACT_named : Fld := ⟨5, 4⟩
def Fld.SPN_RETRACT_retracted : Fld := ⟨3, 3⟩
def Fld.SPN_RETRACT_armed : Fld := ⟨2, 2⟩
def Fld.SPN_RETRACT_b_asserted : Fld := ⟨1, 1⟩
def Fld.SPN_RETRACT_a_asserted : Fld := ⟨0, 0⟩
def Fld.SPN_STICKY_spdmax_refused : Fld := ⟨6, 6⟩
def Fld.SPN_STICKY_cmd_refused : Fld := ⟨5, 5⟩
def Fld.SPN_STICKY_cal_refused : Fld := ⟨4, 4⟩
def Fld.SPN_STICKY_vbus_low : Fld := ⟨3, 3⟩
def Fld.SPN_STICKY_fw_floor : Fld := ⟨2, 2⟩
def Fld.SPN_STICKY_sat : Fld := ⟨1, 1⟩
def Fld.SPN_STICKY_oc : Fld := ⟨0, 0⟩
def Fld.SPN_ISNSCFG_cal : Fld := ⟨31, 31⟩
def Fld.SPN_ISNSCFG_isns_gain : Fld := ⟨17, 16⟩
def Fld.SPN_ISNSCFG_isns_scale : Fld := ⟨15, 0⟩
def Fld.SPN_IOFS_ofs_w : Fld := ⟨29, 20⟩
def Fld.SPN_IOFS_ofs_v : Fld := ⟨19, 10⟩
def Fld.SPN_IOFS_ofs_u : Fld := ⟨9, 0⟩
def Fld.SPN_PWMCFG_t_smin : Fld := ⟨31, 16⟩
def Fld.SPN_PWMCFG_min_pulse : Fld := ⟨15, 8⟩
def Fld.SPN_PWMCFG_dead_ns : Fld := ⟨7, 0⟩
def Fld.SPN_LIM_oc_limit : Fld := ⟨31, 16⟩
def Fld.SPN_LIM_i_max : Fld := ⟨15, 0⟩
def Fld.SPN_MOTOR_pole_pairs : Fld := ⟨31, 28⟩
def Fld.SPN_MOTOR_l_phase : Fld := ⟨27, 16⟩
def Fld.SPN_MOTOR_ke : Fld := ⟨15, 0⟩
def Fld.SPN_MOTOR2_spd_fly_min : Fld := ⟨31, 16⟩
def Fld.SPN_MOTOR2_r_phase : Fld := ⟨15, 0⟩
def Fld.SPN_FW_id_min : Fld := ⟨31, 16⟩
def Fld.SPN_FW_fw_thresh : Fld := ⟨15, 8⟩
def Fld.SPN_FW_v_lim : Fld := ⟨7, 0⟩
def Fld.SPN_START_start_acc : Fld := ⟨31, 16⟩
def Fld.SPN_START_i_start : Fld := ⟨15, 0⟩
def Fld.SPN_VLIM_vbus_max : Fld := ⟨31, 16⟩
def Fld.SPN_VLIM_vbus_low : Fld := ⟨15, 0⟩
def Fld.SPN_ROCK_rock_i0 : Fld := ⟨31, 24⟩
def Fld.SPN_ROCK_rock_step : Fld := ⟨23, 16⟩
def Fld.SPN_ROCK_rock_max : Fld := ⟨15, 8⟩
def Fld.SPN_ROCK_rock_cycles : Fld := ⟨7, 0⟩
def Fld.SPN_IOCFG_park_addr : Fld := ⟨31, 24⟩
def Fld.SPN_IOCFG_vbus_addr : Fld := ⟨23, 16⟩
def Fld.SPN_IOCFG_spn_cs : Fld := ⟨1, 0⟩
def Fld.SPN_ACCRATE_acc_rpm : Fld := ⟨15, 0⟩
def Fld.SPN_SPDLIM_spd_max : Fld := ⟨31, 16⟩
def Fld.TMB_NS_LO_ns_lo : Fld := ⟨31, 0⟩
def Fld.TMB_NS_HI_ns_hi : Fld := ⟨31, 0⟩
def Fld.TMB_FRAC_frac : Fld := ⟨15, 0⟩
def Fld.TMB_STATUS_cfg_rejected : Fld := ⟨9, 9⟩
def Fld.TMB_STATUS_stepped : Fld := ⟨8, 8⟩
def Fld.TMB_STATUS_ptp_port : Fld := ⟨6, 6⟩
def Fld.TMB_STATUS_src_used : Fld := ⟨5, 4⟩
def Fld.TMB_STATUS_state : Fld := ⟨2, 0⟩
def Fld.TMB_OFFSET_offset : Fld := ⟨31, 0⟩
def Fld.TMB_PDELAY_delay : Fld := ⟨31, 0⟩
def Fld.TMB_UTC_valid : Fld := ⟨18, 18⟩
def Fld.TMB_UTC_leap61 : Fld := ⟨17, 17⟩
def Fld.TMB_UTC_leap59 : Fld := ⟨16, 16⟩
def Fld.TMB_UTC_utc_offset : Fld := ⟨15, 0⟩
def Fld.TMB_SRCCFG_vlan : Fld := ⟨24, 13⟩
def Fld.TMB_SRCCFG_domain : Fld := ⟨12, 6⟩
def Fld.TMB_SRCCFG_transport : Fld := ⟨5, 4⟩
def Fld.TMB_SRCCFG_ptp_port : Fld := ⟨3, 2⟩
def Fld.TMB_SRCCFG_src_sel : Fld := ⟨1, 0⟩
def Fld.TMB_HOLD_holdover_max : Fld := ⟨15, 0⟩
def Fld.TMB_PLAN_T0_LO_t0_lo : Fld := ⟨31, 0⟩
def Fld.TMB_PLAN_T0_HI_t0_hi : Fld := ⟨31, 0⟩
def Fld.TMB_PLAN_stride : Fld := ⟨31, 16⟩
def Fld.TMB_PLAN_rpm_p : Fld := ⟨15, 0⟩
def Fld.TMB_MEMBER_en : Fld := ⟨31, 31⟩
def Fld.TMB_MEMBER_member_id : Fld := ⟨15, 0⟩
def Fld.TMB_PHOFS_po : Fld := ⟨15, 0⟩
def Fld.TMB_PLCTL_approach_max : Fld := ⟨15, 8⟩
def Fld.TMB_PLCTL_refused : Fld := ⟨1, 1⟩
def Fld.TMB_PLCTL_approach : Fld := ⟨0, 0⟩
def Fld.TMB_PLGAIN_ki : Fld := ⟨31, 16⟩
def Fld.TMB_PLGAIN_kp : Fld := ⟨15, 0⟩
def Fld.TMB_PHASE_e : Fld := ⟨31, 0⟩
def Fld.TMB_PLSTAT_in_bound : Fld := ⟨31, 16⟩
def Fld.TMB_PLSTAT_state : Fld := ⟨3, 0⟩
def Fld.TMB_LAUNCH_late : Fld := ⟨31, 24⟩
def Fld.TMB_LAUNCH_c0_miss : Fld := ⟨23, 16⟩
def Fld.TMB_LAUNCH_pending : Fld := ⟨12, 0⟩
def Fld.GLK_CFG_comp_ns : Fld := ⟨31, 16⟩
def Fld.GLK_CFG_rep_en : Fld := ⟨0, 0⟩
def Fld.GLK_CLAIM_held : Fld := ⟨3, 3⟩
def Fld.GLK_CLAIM_conflict : Fld := ⟨2, 2⟩
def Fld.GLK_CLAIM_release : Fld := ⟨1, 1⟩
def Fld.GLK_CLAIM_claim : Fld := ⟨0, 0⟩
def Fld.GLK_STATUS_crc_err : Fld := ⟨31, 16⟩
def Fld.GLK_STATUS_last_hop : Fld := ⟨15, 8⟩
def Fld.GLK_STATUS_word_ok : Fld := ⟨1, 1⟩
def Fld.GLK_STATUS_pps : Fld := ⟨0, 0⟩
def Fld.MDI_RCTL_weak_iter : Fld := ⟨23, 16⟩
def Fld.MDI_RCTL_realloc_en : Fld := ⟨9, 9⟩
def Fld.MDI_RCTL_course_en : Fld := ⟨8, 8⟩
def Fld.MDI_RCTL_wr_retry : Fld := ⟨7, 4⟩
def Fld.MDI_RCTL_retry_max : Fld := ⟨3, 0⟩
def Fld.MDI_RSTEP_offset : Fld := ⟨15, 8⟩
def Fld.MDI_RSTEP_rdsel : Fld := ⟨7, 6⟩
def Fld.MDI_RSTEP_adapt_rst : Fld := ⟨5, 5⟩
def Fld.MDI_RSTEP_max_global : Fld := ⟨4, 0⟩
def Fld.MDI_SCAN_scan_en : Fld := ⟨31, 31⟩
def Fld.MDI_SCAN_scan_pct : Fld := ⟨23, 16⟩
def Fld.MDI_SCAN_scan_days : Fld := ⟨15, 0⟩
def Fld.MDI_SCANPOS_head : Fld := ⟨26, 24⟩
def Fld.MDI_SCANPOS_track : Fld := ⟨23, 0⟩
def Fld.MDI_SCANSTAT_passes : Fld := ⟨31, 16⟩
def Fld.MDI_SCANSTAT_progress : Fld := ⟨9, 0⟩
def Fld.MDI_CNT0_retry_ok : Fld := ⟨31, 16⟩
def Fld.MDI_CNT0_course_ok : Fld := ⟨15, 0⟩
def Fld.MDI_CNT1_realloc : Fld := ⟨31, 16⟩
def Fld.MDI_CNT1_unrecovered : Fld := ⟨15, 0⟩
def Fld.MDI_SURF_act_state : Fld := ⟨25, 24⟩
def Fld.MDI_SURF_spare_out : Fld := ⟨23, 16⟩
def Fld.MDI_SURF_lost : Fld := ⟨15, 8⟩
def Fld.MDI_SURF_present : Fld := ⟨7, 0⟩
def Fld.MDI_SPARE_used : Fld := ⟨31, 16⟩
def Fld.MDI_SPARE_free : Fld := ⟨15, 0⟩
def Fld.MDI_TRAIL_trail_s : Fld := ⟨31, 16⟩
def Fld.MDI_TRAIL_trail_max : Fld := ⟨15, 0⟩
def Fld.MDI_OPEN_forced : Fld := ⟨31, 16⟩
def Fld.MDI_OPEN_open : Fld := ⟨8, 0⟩
def Fld.MDI_RLIM_recov_ms : Fld := ⟨31, 16⟩
def Fld.MDI_RLIM_recov_c0_ms : Fld := ⟨15, 0⟩
def Fld.MDI_UNAV_recon_unav : Fld := ⟨16, 16⟩
def Fld.MDI_UNAV_unavail_ms : Fld := ⟨15, 0⟩
def Fld.MDI_REBUILD_rb_en : Fld := ⟨31, 31⟩
def Fld.MDI_REBUILD_rb_pct : Fld := ⟨23, 16⟩
def Fld.MDI_REBUILD_surface : Fld := ⟨7, 0⟩
def Fld.MDI_RBLEFT_units : Fld := ⟨31, 0⟩
def Fld.MDI_TSTAT_trailing : Fld := ⟨31, 16⟩
def Fld.MDI_TSTAT_oldest_s : Fld := ⟨15, 0⟩
def Fld.CST_BSTAT_busy : Fld := ⟨23, 16⟩
def Fld.CST_BSTAT_eng_state : Fld := ⟨15, 0⟩
def Fld.CST_BCNT_done : Fld := ⟨31, 0⟩
def Fld.CST_CTRL_stage_mib : Fld := ⟨15, 0⟩
def Fld.CST_STATUS_failed : Fld := ⟨23, 16⟩
def Fld.CST_STATUS_reserve : Fld := ⟨15, 8⟩
def Fld.CST_STATUS_scheduled : Fld := ⟨7, 0⟩
def Fld.CST_QUEUE_stage_wait : Fld := ⟨31, 16⟩
def Fld.CST_QUEUE_waiting : Fld := ⟨15, 0⟩
def Fld.CST_STAGE_used_mib : Fld := ⟨31, 16⟩
def Fld.CST_STAGE_size_mib : Fld := ⟨15, 0⟩
def Fld.CST_STGCLAIM_req_mib : Fld := ⟨31, 16⟩
def Fld.CST_STGCLAIM_held : Fld := ⟨3, 3⟩
def Fld.CST_STGCLAIM_conflict : Fld := ⟨2, 2⟩
def Fld.CST_STGCLAIM_release : Fld := ⟨1, 1⟩
def Fld.CST_STGCLAIM_claim : Fld := ⟨0, 0⟩
def Fld.CST_KEYSTAT_expired : Fld := ⟨28, 16⟩
def Fld.CST_KEYSTAT_valid : Fld := ⟨12, 0⟩
def Fld.CST_ERR_commit_refused : Fld := ⟨5, 5⟩
def Fld.CST_ERR_restore_fail : Fld := ⟨4, 4⟩
def Fld.CST_ERR_discard_sent : Fld := ⟨3, 3⟩
def Fld.CST_ERR_engine_fault : Fld := ⟨2, 2⟩
def Fld.CST_ERR_unwrap_fail : Fld := ⟨1, 1⟩
def Fld.CST_ERR_dup_kid : Fld := ⟨0, 0⟩
def Fld.CST_PROF_LO_loaded_lo : Fld := ⟨31, 0⟩
def Fld.CST_PROF_HI_loaded_hi : Fld := ⟨31, 0⟩
def Fld.MVR_CTRL_wait_ms : Fld := ⟨31, 16⟩
def Fld.MVR_CTRL_alm_sel : Fld := ⟨12, 10⟩
def Fld.MVR_CTRL_pkt_cells : Fld := ⟨9, 0⟩
def Fld.MVR_PACE_hi : Fld := ⟨31, 16⟩
def Fld.MVR_PACE_lo : Fld := ⟨15, 0⟩
def Fld.MVR_STATUS_loaded : Fld := ⟨23, 16⟩
def Fld.MVR_STATUS_alm_held : Fld := ⟨3, 3⟩
def Fld.MVR_STATUS_alm_conflict : Fld := ⟨2, 2⟩
def Fld.MVR_STORE_used_kib : Fld := ⟨31, 16⟩
def Fld.MVR_STORE_size_kib : Fld := ⟨15, 0⟩
def Fld.MVR_PIN_pin_cap_kib : Fld := ⟨31, 16⟩
def Fld.MVR_PIN_pin_used_kib : Fld := ⟨15, 0⟩
def Fld.MVR_FAULT_latched : Fld := ⟨31, 31⟩
def Fld.MVR_FAULT_overflow : Fld := ⟨30, 30⟩
def Fld.MVR_FAULT_cause : Fld := ⟨29, 26⟩
def Fld.MVR_FAULT_channel : Fld := ⟨25, 19⟩
def Fld.MVR_FAULT_pc : Fld := ⟨11, 0⟩
def Fld.MVR_CNT_faults : Fld := ⟨31, 16⟩
def Fld.MVR_CNT_irqs : Fld := ⟨15, 0⟩
def Fld.MVR_LOADED_loaded : Fld := ⟨31, 0⟩
def Fld.MVR_PINNED_pinned : Fld := ⟨31, 0⟩
def Fld.MVR_CHSTAT_state : Fld := ⟨31, 29⟩
def Fld.MVR_CHSTAT_recipe : Fld := ⟨28, 21⟩
def Fld.MVR_CHSTAT_depth : Fld := ⟨14, 12⟩
def Fld.MVR_CHSTAT_pc : Fld := ⟨11, 0⟩
def Fld.MVR_CHOC_oc : Fld := ⟨31, 0⟩
def Fld.MVR_CHSN_sn : Fld := ⟨23, 0⟩
def Fld.MVR_CHEV_evf : Fld := ⟨15, 0⟩
def Fld.CMP_CTRL_work_mib : Fld := ⟨31, 16⟩
def Fld.CMP_CTRL_crc_always : Fld := ⟨0, 0⟩
def Fld.CMP_STATUS_busy : Fld := ⟨19, 16⟩
def Fld.CMP_STATUS_single : Fld := ⟨9, 9⟩
def Fld.CMP_STATUS_work_held : Fld := ⟨8, 8⟩
def Fld.CMP_STATUS_unit_state : Fld := ⟨7, 0⟩
def Fld.CMP_CNT0_comp_jobs : Fld := ⟨31, 16⟩
def Fld.CMP_CNT0_decomp_jobs : Fld := ⟨15, 0⟩
def Fld.CMP_CNT1_derr : Fld := ⟨31, 16⟩
def Fld.CMP_CNT1_vmis : Fld := ⟨15, 0⟩
def Fld.CMP_ERR_in_ofs : Fld := ⟨24, 0⟩
def Fld.CMP_ERRCODE_status : Fld := ⟨7, 0⟩
def Fld.NET_CFG_mtu : Fld := ⟨31, 16⟩
def Fld.NET_CFG_fec : Fld := ⟨9, 8⟩
def Fld.NET_CFG_an_en : Fld := ⟨7, 7⟩
def Fld.NET_CFG_port_en : Fld := ⟨3, 3⟩
def Fld.NET_CFG_mode : Fld := ⟨2, 0⟩
def Fld.NET_STATUS_link : Fld := ⟨8, 8⟩
def Fld.NET_STATUS_an_done : Fld := ⟨7, 7⟩
def Fld.NET_STATUS_failed : Fld := ⟨3, 3⟩
def Fld.NET_STATUS_mode_up : Fld := ⟨2, 0⟩
def Fld.NET_CNT0_fcs_err : Fld := ⟨31, 16⟩
def Fld.NET_CNT0_oversize : Fld := ⟨15, 0⟩
def Fld.NET_CNT1_hdgst_err : Fld := ⟨31, 16⟩
def Fld.NET_CNT1_ddgst_err : Fld := ⟨15, 0⟩
def Fld.NET_MAC_LO_mac_lo : Fld := ⟨31, 0⟩
def Fld.NET_MAC_HI_mac_hi : Fld := ⟨15, 0⟩
def Fld.HIF_CTRL_auth_req : Fld := ⟨1, 1⟩
def Fld.HIF_CTRL_pcie_en : Fld := ⟨0, 0⟩
def Fld.HIF_STATUS_ctx_used : Fld := ⟨31, 16⟩
def Fld.HIF_STATUS_assoc : Fld := ⟨10, 0⟩
def Fld.HIF_CNT_refused : Fld := ⟨31, 16⟩
def Fld.HIF_CNT_ctx_full : Fld := ⟨15, 0⟩
def Fld.HIF_ASTAT_conn : Fld := ⟨31, 31⟩
def Fld.HIF_ASTAT_auth : Fld := ⟨30, 30⟩
def Fld.HIF_ASTAT_port : Fld := ⟨29, 29⟩
def Fld.HIF_ASTAT_class : Fld := ⟨28, 27⟩
def Fld.HIF_ASTAT_ctx : Fld := ⟨12, 0⟩
def Fld.OWN_STATUS_state : Fld := ⟨25, 24⟩
def Fld.OWN_STATUS_owner : Fld := ⟨10, 0⟩
def Fld.OWN_LEASE_lease_s : Fld := ⟨31, 16⟩
def Fld.OWN_LEASE_left_ds : Fld := ⟨15, 0⟩
def Fld.OWN_CFG_pcie_auth : Fld := ⟨0, 0⟩
def Fld.OWN_CNT_expiries : Fld := ⟨31, 24⟩
def Fld.OWN_CNT_yields : Fld := ⟨23, 16⟩
def Fld.OWN_CNT_claims : Fld := ⟨15, 8⟩
def Fld.OWN_CNT_refused : Fld := ⟨7, 0⟩
def Fld.CPL_STATUS_free : Fld := ⟨17, 0⟩
def Fld.CPL_SHARE_eg_max : Fld := ⟨31, 16⟩
def Fld.CPL_SHARE_eg_min : Fld := ⟨15, 0⟩
def Fld.CPL_ERR_overrun : Fld := ⟨31, 31⟩
def Fld.CPL_ERR_overflow : Fld := ⟨30, 30⟩
def Fld.CPL_ERR_queue : Fld := ⟨12, 0⟩
def Fld.CPL_QSTAT_full : Fld := ⟨31, 31⟩
def Fld.CPL_QSTAT_overrun : Fld := ⟨30, 30⟩
def Fld.CPL_QSTAT_cells : Fld := ⟨17, 0⟩
def Fld.MEM_CFG_trail_mib : Fld := ⟨31, 19⟩
def Fld.MEM_CFG_rate : Fld := ⟨18, 16⟩
def Fld.MEM_CFG_ranks2 : Fld := ⟨13, 13⟩
def Fld.MEM_CFG_phys_gib : Fld := ⟨7, 0⟩
def Fld.MEM_STATUS_single : Fld := ⟨3, 3⟩
def Fld.MEM_STATUS_ch1_failed : Fld := ⟨2, 2⟩
def Fld.MEM_STATUS_ch0_failed : Fld := ⟨1, 1⟩
def Fld.MEM_STATUS_trained : Fld := ⟨0, 0⟩
def Fld.MEM_SPACE_dev_mib : Fld := ⟨31, 16⟩
def Fld.MEM_SPACE_mir_mib : Fld := ⟨15, 0⟩
def Fld.MEM_RETIRE_spare1 : Fld := ⟨21, 11⟩
def Fld.MEM_RETIRE_spare0 : Fld := ⟨10, 0⟩
def Fld.MEM_BW_wr : Fld := ⟨31, 16⟩
def Fld.MEM_BW_rd : Fld := ⟨15, 0⟩
def Fld.L2C_STATUS_check : Fld := ⟨19, 16⟩
def Fld.L2C_STATUS_refused : Fld := ⟨15, 15⟩
def Fld.L2C_STATUS_preload : Fld := ⟨12, 12⟩
def Fld.L2C_STATUS_locked_ways : Fld := ⟨4, 0⟩
def Fld.L2C_PIN_pin_ways : Fld := ⟨3, 0⟩
def Fld.L2C_HIT_hits : Fld := ⟨31, 0⟩
def Fld.L2C_MISS_misses : Fld := ⟨31, 0⟩
def Fld.L2C_PF_pf_used : Fld := ⟨31, 16⟩
def Fld.L2C_PF_pf_issued : Fld := ⟨15, 0⟩
def Fld.ECC_MODE_mode : Fld := ⟨1, 0⟩
def Fld.ECC_BUCKET_leak_ms : Fld := ⟨23, 8⟩
def Fld.ECC_BUCKET_threshold : Fld := ⟨7, 0⟩
def Fld.ECC_IRQ_latched : Fld := ⟨31, 31⟩
def Fld.ECC_IRQ_overflow : Fld := ⟨30, 30⟩
def Fld.ECC_IRQ_instance : Fld := ⟨6, 0⟩
def Fld.ECC_CNT_uncorr : Fld := ⟨31, 16⟩
def Fld.ECC_CNT_corr : Fld := ⟨15, 0⟩
def Fld.ECC_UE_LO_addr_lo : Fld := ⟨31, 0⟩
def Fld.ECC_UE_HI_instance : Fld := ⟨30, 24⟩
def Fld.ECC_UE_HI_addr_hi : Fld := ⟨3, 0⟩
def Fld.ECC_SCRUB_en : Fld := ⟨31, 31⟩
def Fld.ECC_SCRUB_scrub_h : Fld := ⟨7, 0⟩
def Fld.ECC_SCRUBPOS_passes : Fld := ⟨31, 16⟩
def Fld.ECC_SCRUBPOS_progress : Fld := ⟨9, 0⟩
def Fld.ECC_INJ_go : Fld := ⟨31, 31⟩
def Fld.ECC_INJ_armed : Fld := ⟨8, 8⟩
def Fld.ECC_INJ_kind : Fld := ⟨1, 0⟩
def Fld.ECC_INJADDR_LO_addr_lo : Fld := ⟨31, 0⟩
def Fld.ECC_INJADDR_HI_addr_hi : Fld := ⟨3, 0⟩
def Fld.ECC_LVL_level : Fld := ⟨7, 0⟩
def Fld.FLT_CHIP_latched : Fld := ⟨31, 31⟩
def Fld.FLT_CHIP_overflow : Fld := ⟨30, 30⟩
def Fld.FLT_CHIP_class : Fld := ⟨29, 28⟩
def Fld.FLT_CHIP_event : Fld := ⟨10, 0⟩
def Fld.FLT_STATE_recov_24h : Fld := ⟨9, 8⟩
def Fld.FLT_STATE_held : Fld := ⟨7, 7⟩
def Fld.FLT_STATE_recovering : Fld := ⟨6, 6⟩
def Fld.FLT_STATE_err : Fld := ⟨5, 5⟩
def Fld.FLT_STATE_fault_state : Fld := ⟨1, 0⟩
def Fld.FLT_CTRL_quiet_s : Fld := ⟨27, 16⟩
def Fld.FLT_CTRL_esc_ms : Fld := ⟨9, 0⟩
def Fld.FLT_ACK_action : Fld := ⟨5, 4⟩
def Fld.FLT_ACK_region : Fld := ⟨2, 0⟩
def Fld.FLT_RECOV_COUNT_count : Fld := ⟨31, 0⟩
def Fld.FLT_QUIET_left_ds : Fld := ⟨15, 0⟩
def Fld.FLT_CNT_fatal : Fld := ⟨31, 24⟩
def Fld.FLT_CNT_uncorr : Fld := ⟨23, 12⟩
def Fld.FLT_CNT_corr : Fld := ⟨11, 0⟩
def Fld.FLT_ERRTEST_busy : Fld := ⟨1, 1⟩
def Fld.FLT_ERRTEST_go : Fld := ⟨0, 0⟩
def Fld.PAT_CTRL_locked : Fld := ⟨0, 0⟩
def Fld.PAT_STATUS_jfail : Fld := ⟨31, 31⟩
def Fld.PAT_STATUS_jlag : Fld := ⟨22, 16⟩
def Fld.PAT_STATUS_entries : Fld := ⟨12, 0⟩
def Fld.PAT_COUNT_record : Fld := ⟨31, 0⟩
def Fld.PAT_DROP_dropped : Fld := ⟨31, 0⟩
def Fld.PAT_LOST_lost : Fld := ⟨6, 0⟩
def Fld.PAT_TRIG_en : Fld := ⟨31, 31⟩
def Fld.PAT_TRIG_snap : Fld := ⟨12, 12⟩
def Fld.PAT_TRIG_severity : Fld := ⟨10, 8⟩
def Fld.PAT_TRIG_list : Fld := ⟨4, 0⟩
def Fld.PLN_STATUS_cause : Fld := ⟨31, 29⟩
def Fld.PLN_STATUS_rtc_valid : Fld := ⟨12, 12⟩
def Fld.PLN_STATUS_ready : Fld := ⟨11, 11⟩
def Fld.PLN_STATUS_rc_mode : Fld := ⟨10, 10⟩
def Fld.PLN_STATUS_step : Fld := ⟨7, 4⟩
def Fld.PLN_RTC_LO_rtc_lo : Fld := ⟨31, 0⟩
def Fld.PLN_RTC_HI_rtc_hi : Fld := ⟨31, 0⟩
def Fld.PLN_WAKECFG_alm_fallback : Fld := ⟨15, 15⟩
def Fld.PLN_WAKECFG_alm_sel : Fld := ⟨14, 12⟩
def Fld.PLN_WAKECFG_alarm_en : Fld := ⟨3, 3⟩
def Fld.PLN_WAKECFG_wake_n_en : Fld := ⟨2, 2⟩
def Fld.PLN_WAKECFG_pcie_en : Fld := ⟨1, 1⟩
def Fld.PLN_WAKECFG_smbus_en : Fld := ⟨0, 0⟩
def Fld.PLN_WALM_LO_t_lo : Fld := ⟨31, 0⟩
def Fld.PLN_WALM_HI_t_hi : Fld := ⟨31, 0⟩
def Fld.PLN_WAKE_alarm : Fld := ⟨4, 4⟩
def Fld.PLN_WAKE_wake_n : Fld := ⟨3, 3⟩
def Fld.PLN_WAKE_pcie : Fld := ⟨2, 2⟩
def Fld.PLN_WAKE_smbus : Fld := ⟨1, 1⟩
def Fld.PLN_WAKE_cmd : Fld := ⟨0, 0⟩
def Fld.PLN_RESET_key : Fld := ⟨15, 8⟩
def Fld.PLN_RESET_go : Fld := ⟨0, 0⟩
def Fld.PWR_STATE_target : Fld := ⟨10, 8⟩
def Fld.PWR_STATE_exiting : Fld := ⟨5, 5⟩
def Fld.PWR_STATE_entering : Fld := ⟨4, 4⟩
def Fld.PWR_STATE_ps : Fld := ⟨2, 0⟩
def Fld.PWR_REGION_gated : Fld := ⟨14, 8⟩
def Fld.PWR_REGION_powered : Fld := ⟨6, 0⟩
def Fld.PWR_LAT_exit_ds : Fld := ⟨31, 16⟩
def Fld.PWR_LAT_entry_ds : Fld := ⟨15, 0⟩
def Fld.CLK_STATUS_lock_fail : Fld := ⟨13, 8⟩
def Fld.CLK_STATUS_osc50_ok : Fld := ⟨7, 7⟩
def Fld.CLK_STATUS_xtal32_ok : Fld := ⟨6, 6⟩
def Fld.CLK_STATUS_locked : Fld := ⟨5, 0⟩
def Fld.FWU_STATUS_act_step : Fld := ⟨19, 16⟩
def Fld.FWU_STATUS_activating : Fld := ⟨15, 15⟩
def Fld.FWU_STATUS_boot_mark : Fld := ⟨11, 10⟩
def Fld.FWU_STATUS_active : Fld := ⟨9, 8⟩
def Fld.FWU_STATUS_slot_b : Fld := ⟨6, 4⟩
def Fld.FWU_STATUS_slot_a : Fld := ⟨2, 0⟩
def Fld.FWU_DL_crc_fail : Fld := ⟨31, 31⟩
def Fld.FWU_DL_received : Fld := ⟨25, 0⟩
def Fld.FWU_CHECK_sig_ok : Fld := ⟨7, 6⟩
def Fld.FWU_CHECK_check : Fld := ⟨2, 0⟩
def Fld.FWU_PAUSE_max_ms : Fld := ⟨15, 0⟩
def Fld.PIN_ID_part : Fld := ⟨31, 16⟩
def Fld.PIN_ID_stepping : Fld := ⟨7, 0⟩
def Fld.PIN_AVS_vcore_mv : Fld := ⟨9, 0⟩
def Fld.PIN_TEMP_sensor : Fld := ⟨18, 16⟩
def Fld.PIN_TEMP_temp : Fld := ⟨15, 0⟩
def Fld.PIN_SUPPLY_now : Fld := ⟨17, 16⟩
def Fld.PIN_SUPPLY_seen : Fld := ⟨1, 0⟩
def Fld.PIN_TEMPS_temp : Fld := ⟨15, 0⟩
def Fld.DBG_TRC_en : Fld := ⟨4, 4⟩
def Fld.DBG_TRC_held : Fld := ⟨3, 3⟩
def Fld.DBG_TRC_conflict : Fld := ⟨2, 2⟩
def Fld.DBG_TRC_release : Fld := ⟨1, 1⟩
def Fld.DBG_TRC_claim : Fld := ⟨0, 0⟩
def Fld.ZT0_valid : Fld := ⟨31, 31⟩
def Fld.ZT0_first_track : Fld := ⟨23, 0⟩
def Fld.ZT1_band : Fld := ⟨31, 28⟩
def Fld.ZT1_track_count : Fld := ⟨23, 0⟩
def Fld.ZT2_cells_per_rev : Fld := ⟨31, 0⟩
def Fld.ZT3_m : Fld := ⟨31, 16⟩
def Fld.ZT3_n : Fld := ⟨15, 0⟩
def Fld.ZT4_spt : Fld := ⟨31, 16⟩
def Fld.ZT4_track_skew : Fld := ⟨15, 8⟩
def Fld.ZT4_meta_code : Fld := ⟨7, 0⟩
def Fld.ZT5_spare_tracks : Fld := ⟨23, 0⟩
def Fld.ZT6_n_a : Fld := ⟨31, 0⟩
def Fld.ZT7_n_b : Fld := ⟨31, 0⟩
def Fld.EQ_D0_tap_hi : Fld := ⟨27, 16⟩
def Fld.EQ_D0_tap_lo : Fld := ⟨11, 0⟩
def Fld.EQ_D1_tap_hi : Fld := ⟨27, 16⟩
def Fld.EQ_D1_tap_lo : Fld := ⟨11, 0⟩
def Fld.EQ_TGT_g4 : Fld := ⟨29, 24⟩
def Fld.EQ_TGT_g3 : Fld := ⟨23, 18⟩
def Fld.EQ_TGT_g2 : Fld := ⟨17, 12⟩
def Fld.EQ_TGT_g1 : Fld := ⟨11, 6⟩
def Fld.EQ_TGT_g0 : Fld := ⟨5, 0⟩
def Fld.EQ_CFG_agc1 : Fld := ⟨31, 24⟩
def Fld.EQ_CFG_agc0 : Fld := ⟨23, 16⟩
def Fld.EQ_CFG_ctf_boost : Fld := ⟨15, 12⟩
def Fld.EQ_CFG_ctf_fc : Fld := ⟨11, 8⟩
def Fld.EQ_CFG_d1_delay : Fld := ⟨4, 0⟩
def Fld.EQ_MAP_set3 : Fld := ⟨28, 24⟩
def Fld.EQ_MAP_set2 : Fld := ⟨20, 16⟩
def Fld.EQ_MAP_set1 : Fld := ⟨12, 8⟩
def Fld.EQ_MAP_set0 : Fld := ⟨4, 0⟩
def Fld.FSQ_PMEM_word : Fld := ⟨31, 0⟩
def Fld.SRV_VCM_coef : Fld := ⟨23, 0⟩
def Fld.SRV_MA_coef : Fld := ⟨23, 0⟩
def Fld.SRV_RV_coef : Fld := ⟨23, 0⟩
def Fld.SRV_RVGAIN_coef : Fld := ⟨23, 0⟩
def Fld.SRV_XAGAIN_coef : Fld := ⟨23, 0⟩
def Fld.SRV_XA_coef : Fld := ⟨23, 0⟩
def Fld.SRV_XCAL_xcal : Fld := ⟨15, 0⟩
def Fld.SPN_GAIN_gain : Fld := ⟨23, 0⟩
def Fld.TMB_ALM_LO_t_lo : Fld := ⟨31, 0⟩
def Fld.TMB_ALM_HI_t_hi : Fld := ⟨31, 0⟩
def Fld.TMB_ALM_CTL_irq : Fld := ⟨7, 6⟩
def Fld.TMB_ALM_CTL_conflict : Fld := ⟨5, 5⟩
def Fld.TMB_ALM_CTL_fired : Fld := ⟨4, 4⟩
def Fld.TMB_ALM_CTL_holder : Fld := ⟨3, 2⟩
def Fld.TMB_ALM_CTL_release : Fld := ⟨1, 1⟩
def Fld.TMB_ALM_CTL_claim : Fld := ⟨0, 0⟩
def Fld.NET_IF0_en : Fld := ⟨31, 31⟩
def Fld.NET_IF0_pfx6 : Fld := ⟨30, 24⟩
def Fld.NET_IF0_pfx4 : Fld := ⟨23, 18⟩
def Fld.NET_IF0_vlan : Fld := ⟨11, 0⟩
def Fld.NET_IFIP4_ip4 : Fld := ⟨31, 0⟩
def Fld.NET_IFGW4_gw4 : Fld := ⟨31, 0⟩
def Fld.NET_IFIP6_ip6 : Fld := ⟨31, 0⟩
def Fld.L2C_ATTR0_size_mib : Fld := ⟨31, 16⟩
def Fld.L2C_ATTR0_base_mib : Fld := ⟨15, 0⟩
def Fld.L2C_ATTR1_en : Fld := ⟨31, 31⟩
def Fld.L2C_ATTR1_lock : Fld := ⟨7, 7⟩
def Fld.L2C_ATTR1_pf : Fld := ⟨6, 6⟩
def Fld.L2C_ATTR1_policy : Fld := ⟨5, 4⟩
def Fld.FLT_REG_latched : Fld := ⟨31, 31⟩
def Fld.FLT_REG_overflow : Fld := ⟨30, 30⟩
def Fld.FLT_REG_class : Fld := ⟨29, 28⟩
def Fld.FLT_REG_event : Fld := ⟨10, 0⟩
def Fld.FLT_ESC_running : Fld := ⟨31, 31⟩
def Fld.FLT_ESC_pending : Fld := ⟨30, 29⟩
def Fld.FLT_ESC_left_ms : Fld := ⟨9, 0⟩
def Fld.FLT_RST_restarting : Fld := ⟨31, 31⟩
def Fld.FLT_RST_restarts : Fld := ⟨15, 0⟩
def Fld.FLT_BLK_latched : Fld := ⟨31, 31⟩
def Fld.FLT_BLK_overflow : Fld := ⟨30, 30⟩
def Fld.FLT_BLK_class : Fld := ⟨29, 28⟩
def Fld.FLT_BLK_event : Fld := ⟨10, 0⟩
def Fld.PAT_LISTA_addr : Fld := ⟨26, 2⟩
def Fld.PAT_LISTN_n : Fld := ⟨5, 0⟩
def Fld.PLN_CNT_LO_value_lo : Fld := ⟨31, 0⟩
def Fld.PLN_CNT_HI_value_hi : Fld := ⟨31, 0⟩
def Fld.FWU_REV_LO_rev_lo : Fld := ⟨31, 0⟩
def Fld.FWU_REV_HI_rev_hi : Fld := ⟨31, 0⟩

/-- Register rows of 01_architecture.md. -/
def regRows0_0 : List RegRow := [
  ⟨"FUNC_CTRL", 0x0000C000, [(15, 0x4)], 0x00000000, .none,
    [⟨17, 17, .w1c, .none⟩, ⟨16, 16, .w1c, .none⟩, ⟨10, 10, .w1c, .none⟩, ⟨9, 8, .ro, .none⟩, ⟨1, 0, .wo, .none⟩]⟩,
  ⟨"FUNC_STOPTIME", 0x0000C040, [], 0x00000000, .none,
    [⟨19, 16, .rw, .map [(15, 0)]⟩, ⟨15, 0, .ro, .none⟩]⟩,
  ⟨"FUNC_SUMMARY", 0x0000C044, [], 0x00000000, .none,
    [⟨14, 0, .ro, .none⟩]⟩,
  ⟨"CFG_CMD", 0x0000D000, [], 0x00000000, .none,
    [⟨11, 8, .wo, .none⟩, ⟨1, 0, .wo, .none⟩]⟩,
  ⟨"CFG_KEY", 0x0000D004, [], 0x00000000, .none,
    [⟨31, 0, .rw, .none⟩]⟩,
  ⟨"CFG_KIND", 0x0000D008, [], 0x00000000, .none,
    [⟨15, 0, .rw, .none⟩]⟩,
  ⟨"CFG_STATUS", 0x0000D00C, [], 0x00000000, .none,
    [⟨31, 31, .ro, .none⟩, ⟨30, 30, .w1c, .none⟩, ⟨26, 24, .ro, .none⟩, ⟨10, 0, .ro, .none⟩]⟩,
  ⟨"CFG_WIN", 0x0000E000, [(1024, 0x4)], 0x00000000, .none,
    [⟨31, 0, .rw, .none⟩]⟩]

/-- Register rows of 02_media_layout.md. -/
def regRows1_0 : List RegRow := [
  ⟨"ZT_STATUS", 0x01003F00, [(4, 0x40000)], 0x00000000, .none,
    [⟨31, 28, .ro, .none⟩, ⟨26, 24, .ro, .none⟩, ⟨21, 16, .ro, .none⟩, ⟨0, 0, .w1c, .none⟩]⟩]

/-- Register rows of 03_read_write_channel.md. -/
def regRows2_0 : List RegRow := [
  ⟨"CHN_CTRL", 0x01000000, [(4, 0x40000)], 0x08602374, .format,
    [⟨27, 24, .rw, .none⟩, ⟨23, 17, .rw, .atLeast 8⟩, ⟨16, 12, .rw, .none⟩, ⟨11, 10, .rw, .map [(3, 0)]⟩, ⟨9, 9, .rw, .none⟩, ⟨8, 8, .rw, .none⟩, ⟨7, 5, .rw, .atLeast 1⟩, ⟨4, 0, .rw, .within 1 20⟩]⟩,
  ⟨"CHN_PSC_CFG", 0x01000004, [(4, 0x40000)], 0x00000004, .format,
    [⟨31, 24, .rw, .none⟩, ⟨18, 16, .rw, .atMost 5⟩, ⟨14, 8, .rw, .none⟩, ⟨6, 6, .rw, .none⟩, ⟨5, 0, .rw, .atLeast 4⟩]⟩,
  ⟨"CHN_PSC_ACC", 0x01000008, [(4, 0x40000)], 0x00000000, .none,
    [⟨31, 31, .ro, .none⟩, ⟨30, 30, .w1c, .none⟩, ⟨29, 29, .wo, .none⟩, ⟨23, 23, .rw, .none⟩, ⟨22, 16, .rw, .none⟩, ⟨15, 8, .ro, .none⟩, ⟨7, 0, .rw, .none⟩]⟩,
  ⟨"CHN_WRCFG", 0x0100000C, [(4, 0x40000)], 0x00904040, .format,
    [⟨25, 22, .rw, .none⟩, ⟨21, 18, .rw, .none⟩, ⟨17, 9, .rw, .none⟩, ⟨8, 0, .rw, .none⟩]⟩,
  ⟨"CHN_STATUS", 0x01000010, [(4, 0x40000)], 0x00000000, .none,
    [⟨14, 14, .ro, .none⟩, ⟨13, 13, .ro, .none⟩, ⟨12, 12, .ro, .none⟩, ⟨11, 11, .ro, .none⟩, ⟨10, 10, .ro, .none⟩, ⟨9, 4, .ro, .none⟩, ⟨2, 0, .ro, .none⟩]⟩,
  ⟨"CHN_ERR", 0x01000014, [(4, 0x40000)], 0x00001800, .none,
    [⟨13, 13, .ro, .none⟩, ⟨12, 11, .ro, .none⟩, ⟨10, 8, .ro, .none⟩, ⟨7, 1, .w1c, .none⟩]⟩,
  ⟨"CHN_ERRLOC0", 0x01000018, [(4, 0x40000)], 0x00000000, .none,
    [⟨26, 24, .ro, .none⟩, ⟨23, 0, .ro, .none⟩]⟩,
  ⟨"CHN_ERRLOC1", 0x0100001C, [(4, 0x40000)], 0x00000000, .none,
    [⟨22, 16, .ro, .none⟩, ⟨15, 0, .ro, .none⟩]⟩,
  ⟨"CHN_DECSTAT", 0x01000020, [(4, 0x40000)], 0x00000000, .none,
    [⟨31, 16, .rc, .none⟩, ⟨15, 0, .rc, .none⟩]⟩,
  ⟨"BTN_CTRL", 0x01008000, [(4, 0x40000)], 0x00241040, .format,
    [⟨21, 21, .rw, .none⟩, ⟨20, 16, .rw, .none⟩, ⟨15, 8, .rw, .atLeast 4⟩, ⟨7, 0, .rw, .none⟩]⟩,
  ⟨"BTN_CLK", 0x01008004, [(4, 0x40000)], 0x00000000, .none,
    [⟨31, 16, .ro, .none⟩, ⟨3, 3, .w1c, .none⟩, ⟨2, 2, .ro, .none⟩, ⟨1, 0, .ro, .none⟩]⟩,
  ⟨"BTN_POS", 0x01008008, [(4, 0x40000)], 0x00000000, .none,
    [⟨31, 24, .ro, .none⟩, ⟨19, 18, .ro, .none⟩, ⟨17, 17, .ro, .none⟩, ⟨16, 16, .ro, .none⟩, ⟨15, 0, .ro, .none⟩]⟩]

/-- Register rows of 03_read_write_channel.md. -/
def regRows2_1 : List RegRow := [
  ⟨"BTN_AMP", 0x0100800C, [(4, 0x40000)], 0x00000000, .none,
    [⟨31, 16, .ro, .none⟩, ⟨15, 0, .ro, .none⟩]⟩,
  ⟨"BTN_INVAL", 0x01008010, [(4, 0x40000)], 0x00000000, .none,
    [⟨31, 16, .rc, .none⟩, ⟨12, 8, .ro, .none⟩, ⟨5, 0, .ro, .none⟩]⟩,
  ⟨"BTN_RAFTER", 0x01008014, [(4, 0x40000)], 0x00000000, .none,
    [⟨30, 24, .ro, .none⟩, ⟨23, 0, .ro, .none⟩]⟩,
  ⟨"BTN_RFCNT", 0x01008018, [(4, 0x40000)], 0x00000000, .none,
    [⟨31, 16, .rc, .none⟩, ⟨7, 0, .ro, .none⟩]⟩,
  ⟨"BTN_WIDTH", 0x01008040, [(4, 0x40000), (8, 0x4)], 0x00000000, .none,
    [⟨8, 8, .ro, .none⟩, ⟨7, 0, .ro, .none⟩]⟩]

/-- Register rows of 04_formatter_sequencer.md. -/
def regRows3_0 : List RegRow := [
  ⟨"FSQ_CTRL", 0x01020000, [(4, 0x40000)], 0x00190001, .format,
    [⟨23, 16, .rw, .atLeast 1⟩, ⟨0, 0, .rw, .none⟩]⟩,
  ⟨"FSQ_STATUS", 0x01020004, [(4, 0x40000)], 0x00000084, .none,
    [⟨7, 7, .ro, .none⟩, ⟨6, 6, .ro, .none⟩, ⟨5, 5, .ro, .none⟩, ⟨4, 4, .ro, .none⟩, ⟨3, 2, .ro, .none⟩, ⟨1, 0, .ro, .none⟩]⟩,
  ⟨"FSQ_RESUME", 0x01020008, [(4, 0x40000)], 0x00000000, .none,
    [⟨31, 30, .ro, .none⟩, ⟨12, 0, .ro, .none⟩]⟩,
  ⟨"FSQ_CKPT", 0x0102000C, [(4, 0x40000)], 0x00000000, .none,
    [⟨31, 20, .ro, .none⟩, ⟨18, 18, .ro, .none⟩, ⟨17, 14, .ro, .none⟩, ⟨12, 0, .ro, .none⟩]⟩,
  ⟨"FSQ_ERR", 0x01020010, [(4, 0x40000)], 0x00000000, .none,
    [⟨23, 16, .ro, .none⟩, ⟨7, 0, .w1c, .none⟩]⟩,
  ⟨"FSQ_PATCH", 0x01020014, [(4, 0x40000)], 0x00000000, .none,
    [⟨31, 31, .ro, .none⟩, ⟨30, 30, .ro, .none⟩, ⟨29, 29, .ro, .none⟩, ⟨15, 0, .ro, .none⟩]⟩,
  ⟨"FSQ_PCRC", 0x01020018, [(4, 0x40000)], 0x00000000, .format,
    [⟨31, 0, .ro, .none⟩]⟩,
  ⟨"FSQ_MATCH", 0x01020100, [(4, 0x40000), (32, 0x4)], 0x00000000, .format,
    [⟨31, 31, .ro, .none⟩, ⟨28, 16, .ro, .none⟩, ⟨12, 0, .ro, .none⟩]⟩]

/-- Register rows of 05_servo_control.md. -/
def regRows4_0 : List RegRow := [
  ⟨"SRV_STATUS", 0x01010000, [(4, 0x40000)], 0x00000000, .none,
    [⟨11, 9, .ro, .none⟩, ⟨8, 8, .ro, .none⟩, ⟨7, 7, .ro, .none⟩, ⟨6, 6, .ro, .none⟩, ⟨5, 5, .ro, .none⟩, ⟨4, 4, .ro, .none⟩, ⟨3, 3, .ro, .none⟩, ⟨2, 0, .ro, .none⟩]⟩,
  ⟨"SRV_PES", 0x01010004, [(4, 0x40000)], 0x00000000, .none,
    [⟨31, 31, .ro, .none⟩, ⟨30, 30, .ro, .none⟩, ⟨23, 0, .ro, .none⟩]⟩,
  ⟨"SRV_TRACK", 0x01010008, [(4, 0x40000)], 0x00000000, .none,
    [⟨26, 24, .ro, .none⟩, ⟨23, 0, .ro, .none⟩]⟩,
  ⟨"SRV_TARGET", 0x0101000C, [(4, 0x40000)], 0x00000000, .none,
    [⟨23, 0, .ro, .none⟩]⟩,
  ⟨"SRV_OUT", 0x01010010, [(4, 0x40000)], 0x00000000, .none,
    [⟨31, 16, .ro, .none⟩, ⟨13, 0, .ro, .none⟩]⟩,
  ⟨"SRV_ISNS", 0x01010014, [(4, 0x40000)], 0x00000000, .none,
    [⟨11, 0, .ro, .none⟩]⟩,
  ⟨"SRV_STICKY", 0x01010018, [(4, 0x40000)], 0x00000000, .none,
    [⟨9, 9, .w1c, .none⟩, ⟨8, 8, .w1c, .none⟩, ⟨7, 7, .w1c, .none⟩, ⟨6, 6, .w1c, .none⟩, ⟨5, 5, .w1c, .none⟩, ⟨4, 4, .w1c, .none⟩, ⟨3, 3, .w1c, .none⟩, ⟨2, 2, .w1c, .none⟩, ⟨1, 1, .w1c, .none⟩, ⟨0, 0, .w1c, .none⟩]⟩,
  ⟨"SRV_SATLOC", 0x0101001C, [(4, 0x40000)], 0x00000000, .none,
    [⟨5, 4, .ro, .none⟩, ⟨3, 0, .ro, .none⟩]⟩,
  ⟨"SRV_CNT", 0x01010020, [(4, 0x40000)], 0x00000000, .none,
    [⟨31, 16, .rc, .none⟩, ⟨15, 0, .rc, .none⟩]⟩,
  ⟨"SRV_RAFCHK", 0x01010024, [(4, 0x40000)], 0x00000000, .none,
    [⟨31, 16, .rc, .none⟩, ⟨15, 0, .rc, .none⟩]⟩,
  ⟨"SRV_LOOPCFG", 0x01010040, [(4, 0x40000)], 0x00000011, .servo,
    [⟨14, 14, .rw, .none⟩, ⟨13, 13, .rw, .none⟩, ⟨12, 11, .rw, .map [(3, 0)]⟩, ⟨10, 10, .rw, .none⟩, ⟨9, 9, .rw, .none⟩, ⟨8, 8, .rw, .none⟩, ⟨7, 4, .rw, .within 1 12⟩, ⟨3, 0, .rw, .within 1 12⟩]⟩,
  ⟨"SRV_GMA", 0x01010044, [(4, 0x40000)], 0x00000000, .servo,
    [⟨23, 0, .rw, .none⟩]⟩]

/-- Register rows of 05_servo_control.md. -/
def regRows4_1 : List RegRow := [
  ⟨"SRV_VINT", 0x01010048, [(4, 0x40000)], 0x7FFF8000, .servo,
    [⟨31, 16, .rw, .none⟩, ⟨15, 0, .rw, .none⟩]⟩,
  ⟨"SRV_MINT", 0x0101004C, [(4, 0x40000)], 0x7FFF8000, .servo,
    [⟨31, 16, .rw, .none⟩, ⟨15, 0, .rw, .none⟩]⟩,
  ⟨"SRV_MALIM", 0x01010050, [(4, 0x40000)], 0x00007FFF, .servo,
    [⟨15, 0, .rw, .none⟩]⟩,
  ⟨"SRV_WINH", 0x01010054, [(4, 0x40000)], 0x00006460, .servo,
    [⟨15, 8, .rw, .none⟩, ⟨7, 0, .rw, .atLeast 8⟩]⟩,
  ⟨"SRV_SETTLE", 0x01010058, [(4, 0x40000)], 0x00001018, .servo,
    [⟨15, 8, .rw, .atLeast 1⟩, ⟨7, 0, .rw, .none⟩]⟩,
  ⟨"SRV_FELIM", 0x0101005C, [(4, 0x40000)], 0x00400050, .servo,
    [⟨31, 16, .rw, .atLeast 1⟩, ⟨7, 0, .rw, .none⟩]⟩,
  ⟨"SRV_OSC", 0x01010060, [(4, 0x40000)], 0x01000820, .servo,
    [⟨31, 16, .rw, .atLeast 1⟩, ⟨15, 8, .rw, .atLeast 1⟩, ⟨7, 0, .rw, .none⟩]⟩,
  ⟨"SRV_SEEKI", 0x01010064, [(4, 0x40000)], 0x00000000, .servo,
    [⟨23, 0, .rw, .none⟩]⟩,
  ⟨"SRV_SEEKK", 0x01010068, [(4, 0x40000)], 0x00000000, .servo,
    [⟨31, 0, .rw, .none⟩]⟩,
  ⟨"SRV_SEEKV", 0x0101006C, [(4, 0x40000)], 0x00080000, .servo,
    [⟨31, 0, .rw, .atLeast 1⟩]⟩,
  ⟨"SRV_SEEKKV", 0x01010070, [(4, 0x40000)], 0x00000000, .servo,
    [⟨23, 0, .rw, .none⟩]⟩,
  ⟨"SRV_SEEKTOL", 0x01010074, [(4, 0x40000)], 0x00000040, .servo,
    [⟨15, 0, .rw, .atLeast 1⟩]⟩]

/-- Register rows of 05_servo_control.md. -/
def regRows4_2 : List RegRow := [
  ⟨"SRV_IOCFG", 0x01010078, [(4, 0x40000)], 0x00000000, .servo,
    [⟨31, 24, .rw, .none⟩, ⟨23, 16, .rw, .none⟩, ⟨1, 0, .rw, .none⟩]⟩,
  ⟨"SRV_ISNSCFG", 0x0101007C, [(4, 0x40000)], 0x00000000, .servo,
    [⟨27, 16, .rw, .none⟩, ⟨15, 0, .rw, .none⟩]⟩]

/-- Register rows of 06_spindle_motor.md. -/
def regRows5_0 : List RegRow := [
  ⟨"SPN_CMD", 0x01100000, [], 0x1C200000, .none,
    [⟨31, 16, .rw, .atLeast 5400⟩, ⟨2, 2, .rw, .none⟩, ⟨1, 0, .wo, .none⟩]⟩,
  ⟨"SPN_STATUS", 0x01100004, [], 0x00000000, .none,
    [⟨9, 8, .ro, .none⟩, ⟨7, 7, .ro, .none⟩, ⟨6, 6, .ro, .none⟩, ⟨5, 5, .ro, .none⟩, ⟨4, 4, .ro, .none⟩, ⟨3, 0, .ro, .none⟩]⟩,
  ⟨"SPN_SPEED", 0x01100008, [], 0x00000000, .none,
    [⟨31, 0, .ro, .none⟩]⟩,
  ⟨"SPN_ANGLE", 0x0110000C, [], 0x00000000, .none,
    [⟨31, 16, .ro, .none⟩, ⟨15, 0, .ro, .none⟩]⟩,
  ⟨"SPN_IDQ", 0x01100010, [], 0x00000000, .none,
    [⟨31, 16, .ro, .none⟩, ⟨15, 0, .ro, .none⟩]⟩,
  ⟨"SPN_VBUS", 0x01100014, [], 0x00000000, .none,
    [⟨31, 16, .ro, .none⟩, ⟨15, 0, .ro, .none⟩]⟩,
  ⟨"SPN_PRESTART", 0x01100018, [], 0x00000000, .none,
    [⟨17, 16, .ro, .none⟩, ⟨15, 15, .ro, .none⟩, ⟨14, 0, .ro, .none⟩]⟩,
  ⟨"SPN_RETRACT", 0x0110001C, [], 0x00000004, .none,
    [⟨31, 16, .rc, .none⟩, ⟨5, 4, .ro, .none⟩, ⟨3, 3, .ro, .none⟩, ⟨2, 2, .ro, .none⟩, ⟨1, 1, .ro, .none⟩, ⟨0, 0, .ro, .none⟩]⟩,
  ⟨"SPN_STICKY", 0x01100020, [], 0x00000000, .none,
    [⟨6, 6, .w1c, .none⟩, ⟨5, 5, .w1c, .none⟩, ⟨4, 4, .w1c, .none⟩, ⟨3, 3, .w1c, .none⟩, ⟨2, 2, .w1c, .none⟩, ⟨1, 1, .w1c, .none⟩, ⟨0, 0, .w1c, .none⟩]⟩,
  ⟨"SPN_ISNSCFG", 0x01100024, [], 0x00000100, .none,
    [⟨31, 31, .wo, .none⟩, ⟨17, 16, .rw, .none⟩, ⟨15, 0, .rw, .none⟩]⟩,
  ⟨"SPN_IOFS", 0x01100028, [], 0x00000000, .none,
    [⟨29, 20, .ro, .none⟩, ⟨19, 10, .ro, .none⟩, ⟨9, 0, .ro, .none⟩]⟩,
  ⟨"SPN_PWMCFG", 0x01100040, [], 0x01901428, .fixed 0x08,
    [⟨31, 16, .rw, .none⟩, ⟨15, 8, .rw, .atLeast 4⟩, ⟨7, 0, .rw, .within 4 192⟩]⟩]

/-- Register rows of 06_spindle_motor.md. -/
def regRows5_1 : List RegRow := [
  ⟨"SPN_LIM", 0x01100044, [], 0x0BB80640, .fixed 0x08,
    [⟨31, 16, .rw, .none⟩, ⟨15, 0, .rw, .none⟩]⟩,
  ⟨"SPN_MOTOR", 0x01100048, [], 0x00000000, .fixed 0x08,
    [⟨31, 28, .rw, .none⟩, ⟨27, 16, .rw, .none⟩, ⟨15, 0, .rw, .none⟩]⟩,
  ⟨"SPN_MOTOR2", 0x0110004C, [], 0x00000000, .fixed 0x08,
    [⟨31, 16, .rw, .none⟩, ⟨15, 0, .rw, .none⟩]⟩,
  ⟨"SPN_FW", 0x01100050, [], 0xF830E6E6, .fixed 0x08,
    [⟨31, 16, .rw, .none⟩, ⟨15, 8, .rw, .none⟩, ⟨7, 0, .rw, .none⟩]⟩,
  ⟨"SPN_START", 0x01100054, [], 0x00280640, .fixed 0x08,
    [⟨31, 16, .rw, .atLeast 1⟩, ⟨15, 0, .rw, .none⟩]⟩,
  ⟨"SPN_VLIM", 0x01100058, [], 0x35E82AF8, .none,
    [⟨31, 16, .rw, .none⟩, ⟨15, 0, .rw, .none⟩]⟩,
  ⟨"SPN_ROCK", 0x0110005C, [], 0x08101008, .none,
    [⟨31, 24, .rw, .none⟩, ⟨23, 16, .rw, .none⟩, ⟨15, 8, .rw, .atLeast 1⟩, ⟨7, 0, .rw, .atLeast 1⟩]⟩,
  ⟨"SPN_IOCFG", 0x01100060, [], 0x00000000, .fixed 0x08,
    [⟨31, 24, .rw, .none⟩, ⟨23, 16, .rw, .none⟩, ⟨1, 0, .rw, .none⟩]⟩,
  ⟨"SPN_ACCRATE", 0x01100064, [], 0x00000064, .none,
    [⟨15, 0, .rw, .atLeast 1⟩]⟩,
  ⟨"SPN_SPDLIM", 0x01100068, [], 0x1C200000, .fixed 0x08,
    [⟨31, 16, .rw, .within 5400 10000⟩]⟩]

/-- Register rows of 07_timebase_and_phase_lock.md. -/
def regRows6_0 : List RegRow := [
  ⟨"TMB_NS_LO", 0x01200000, [], 0x00000000, .none,
    [⟨31, 0, .ro, .none⟩]⟩,
  ⟨"TMB_NS_HI", 0x01200004, [], 0x00000000, .none,
    [⟨31, 0, .ro, .none⟩]⟩,
  ⟨"TMB_FRAC", 0x01200008, [], 0x00000000, .none,
    [⟨15, 0, .ro, .none⟩]⟩,
  ⟨"TMB_STATUS", 0x0120000C, [], 0x00000000, .none,
    [⟨9, 9, .w1c, .none⟩, ⟨8, 8, .w1c, .none⟩, ⟨6, 6, .ro, .none⟩, ⟨5, 4, .ro, .none⟩, ⟨2, 0, .ro, .none⟩]⟩,
  ⟨"TMB_OFFSET", 0x01200010, [], 0x00000000, .none,
    [⟨31, 0, .ro, .none⟩]⟩,
  ⟨"TMB_PDELAY", 0x01200014, [], 0x00000000, .none,
    [⟨31, 0, .ro, .none⟩]⟩,
  ⟨"TMB_UTC", 0x01200018, [], 0x00000000, .none,
    [⟨18, 18, .ro, .none⟩, ⟨17, 17, .ro, .none⟩, ⟨16, 16, .ro, .none⟩, ⟨15, 0, .ro, .none⟩]⟩,
  ⟨"TMB_SRCCFG", 0x01200040, [], 0x00000008, .fixed 0x09,
    [⟨24, 13, .rw, .none⟩, ⟨12, 6, .rw, .none⟩, ⟨5, 4, .rw, .map [(3, 0)]⟩, ⟨3, 2, .rw, .map [(3, 2)]⟩, ⟨1, 0, .rw, .map [(3, 2)]⟩]⟩,
  ⟨"TMB_HOLD", 0x01200044, [], 0x00000E10, .fixed 0x09,
    [⟨15, 0, .rw, .atLeast 1⟩]⟩,
  ⟨"TMB_PLAN_T0_LO", 0x01200048, [], 0x00000000, .fixed 0x09,
    [⟨31, 0, .rw, .none⟩]⟩,
  ⟨"TMB_PLAN_T0_HI", 0x0120004C, [], 0x00000000, .fixed 0x09,
    [⟨31, 0, .rw, .none⟩]⟩,
  ⟨"TMB_PLAN", 0x01200050, [], 0x00001C20, .fixed 0x09,
    [⟨31, 16, .rw, .none⟩, ⟨15, 0, .rw, .none⟩]⟩]

/-- Register rows of 07_timebase_and_phase_lock.md. -/
def regRows6_1 : List RegRow := [
  ⟨"TMB_MEMBER", 0x01200054, [], 0x00000000, .fixed 0x09,
    [⟨31, 31, .rw, .none⟩, ⟨15, 0, .rw, .none⟩]⟩,
  ⟨"TMB_PHOFS", 0x01200058, [], 0x00000000, .none,
    [⟨15, 0, .rw, .none⟩]⟩,
  ⟨"TMB_PLCTL", 0x01200060, [], 0x00003200, .none,
    [⟨15, 8, .rw, .within 1 100⟩, ⟨1, 1, .w1c, .none⟩, ⟨0, 0, .wo, .none⟩]⟩,
  ⟨"TMB_PLGAIN", 0x01200064, [], 0x00400200, .fixed 0x09,
    [⟨31, 16, .rw, .none⟩, ⟨15, 0, .rw, .none⟩]⟩,
  ⟨"TMB_PHASE", 0x01200080, [], 0x00000000, .none,
    [⟨31, 0, .ro, .none⟩]⟩,
  ⟨"TMB_PLSTAT", 0x01200084, [], 0x00000000, .none,
    [⟨31, 16, .ro, .none⟩, ⟨3, 0, .ro, .none⟩]⟩,
  ⟨"TMB_LAUNCH", 0x01200088, [], 0x00000000, .none,
    [⟨31, 24, .rc, .none⟩, ⟨23, 16, .rc, .none⟩, ⟨12, 0, .ro, .none⟩]⟩,
  ⟨"GLK_CFG", 0x01208000, [], 0x00000000, .fixed 0x09,
    [⟨31, 16, .rw, .none⟩, ⟨0, 0, .rw, .none⟩]⟩,
  ⟨"GLK_CLAIM", 0x01208004, [], 0x00000000, .none,
    [⟨3, 3, .ro, .none⟩, ⟨2, 2, .w1c, .none⟩, ⟨1, 1, .wo, .none⟩, ⟨0, 0, .wo, .none⟩]⟩,
  ⟨"GLK_STATUS", 0x01208008, [], 0x00000000, .none,
    [⟨31, 16, .rc, .none⟩, ⟨15, 8, .ro, .none⟩, ⟨1, 1, .ro, .none⟩, ⟨0, 0, .ro, .none⟩]⟩]

/-- Register rows of 08_media_integrity.md. -/
def regRows7_0 : List RegRow := [
  ⟨"MDI_RCTL", 0x01030000, [(4, 0x40000)], 0x000C0344, .none,
    [⟨23, 16, .rw, .none⟩, ⟨9, 9, .rw, .none⟩, ⟨8, 8, .rw, .none⟩, ⟨7, 4, .rw, .none⟩, ⟨3, 0, .rw, .atMost 8⟩]⟩,
  ⟨"MDI_RSTEP", 0x01030040, [(4, 0x40000), (8, 0x4)], 0x00000014, .none,
    [⟨15, 8, .rw, .none⟩, ⟨7, 6, .rw, .map [(3, 0)]⟩, ⟨5, 5, .rw, .none⟩, ⟨4, 0, .rw, .atLeast 1⟩]⟩,
  ⟨"MDI_SCAN", 0x01030004, [(4, 0x40000)], 0x800A000E, .none,
    [⟨31, 31, .rw, .none⟩, ⟨23, 16, .rw, .atLeast 1⟩, ⟨15, 0, .rw, .atLeast 1⟩]⟩,
  ⟨"MDI_SCANPOS", 0x01030008, [(4, 0x40000)], 0x00000000, .none,
    [⟨26, 24, .ro, .none⟩, ⟨23, 0, .ro, .none⟩]⟩,
  ⟨"MDI_SCANSTAT", 0x0103000C, [(4, 0x40000)], 0x00000000, .none,
    [⟨31, 16, .ro, .none⟩, ⟨9, 0, .ro, .none⟩]⟩,
  ⟨"MDI_CNT0", 0x01030010, [(4, 0x40000)], 0x00000000, .none,
    [⟨31, 16, .rc, .none⟩, ⟨15, 0, .rc, .none⟩]⟩,
  ⟨"MDI_CNT1", 0x01030014, [(4, 0x40000)], 0x00000000, .none,
    [⟨31, 16, .rc, .none⟩, ⟨15, 0, .rc, .none⟩]⟩,
  ⟨"MDI_SURF", 0x01030018, [(4, 0x40000)], 0x00000000, .none,
    [⟨25, 24, .ro, .none⟩, ⟨23, 16, .ro, .none⟩, ⟨15, 8, .ro, .none⟩, ⟨7, 0, .ro, .none⟩]⟩,
  ⟨"MDI_SPARE", 0x01030100, [(4, 0x40000), (8, 0x4)], 0x00000000, .none,
    [⟨31, 16, .ro, .none⟩, ⟨15, 0, .ro, .none⟩]⟩,
  ⟨"MDI_TRAIL", 0x01038000, [], 0x001E0400, .none,
    [⟨31, 16, .rw, .within 1 600⟩, ⟨15, 0, .rw, .atLeast 1⟩]⟩,
  ⟨"MDI_OPEN", 0x01038004, [], 0x00000000, .none,
    [⟨31, 16, .rc, .none⟩, ⟨8, 0, .ro, .none⟩]⟩,
  ⟨"MDI_RLIM", 0x01038008, [], 0x07D00014, .none,
    [⟨31, 16, .rw, .atLeast 1⟩, ⟨15, 0, .rw, .atLeast 1⟩]⟩]

/-- Register rows of 08_media_integrity.md. -/
def regRows7_1 : List RegRow := [
  ⟨"MDI_UNAV", 0x0103800C, [], 0x00010032, .none,
    [⟨16, 16, .rw, .none⟩, ⟨15, 0, .rw, .atLeast 1⟩]⟩,
  ⟨"MDI_REBUILD", 0x01038010, [], 0x801900FF, .none,
    [⟨31, 31, .rw, .none⟩, ⟨23, 16, .rw, .atLeast 1⟩, ⟨7, 0, .ro, .none⟩]⟩,
  ⟨"MDI_RBLEFT", 0x01038014, [], 0x00000000, .none,
    [⟨31, 0, .ro, .none⟩]⟩,
  ⟨"MDI_TSTAT", 0x01038018, [], 0x00000000, .none,
    [⟨31, 16, .ro, .none⟩, ⟨15, 0, .ro, .none⟩]⟩]

/-- Register rows of 09_cast_packaging.md. -/
def regRows8_0 : List RegRow := [
  ⟨"CST_BSTAT", 0x02000000, [(16, 0x10000)], 0x00000000, .none,
    [⟨23, 16, .ro, .none⟩, ⟨15, 0, .ro, .none⟩]⟩,
  ⟨"CST_BCNT", 0x02000004, [(16, 0x10000)], 0x00000000, .none,
    [⟨31, 0, .rc, .none⟩]⟩,
  ⟨"CST_CTRL", 0x02008000, [], 0x00000100, .none,
    [⟨15, 0, .rw, .atLeast 256⟩]⟩,
  ⟨"CST_STATUS", 0x02008004, [], 0x00000878, .none,
    [⟨23, 16, .ro, .none⟩, ⟨15, 8, .ro, .none⟩, ⟨7, 0, .ro, .none⟩]⟩,
  ⟨"CST_QUEUE", 0x02008008, [], 0x00000000, .none,
    [⟨31, 16, .ro, .none⟩, ⟨15, 0, .ro, .none⟩]⟩,
  ⟨"CST_STAGE", 0x0200800C, [], 0x00000000, .none,
    [⟨31, 16, .ro, .none⟩, ⟨15, 0, .ro, .none⟩]⟩,
  ⟨"CST_STGCLAIM", 0x02008010, [], 0x00000000, .none,
    [⟨31, 16, .rw, .none⟩, ⟨3, 3, .ro, .none⟩, ⟨2, 2, .w1c, .none⟩, ⟨1, 1, .wo, .none⟩, ⟨0, 0, .wo, .none⟩]⟩,
  ⟨"CST_KEYSTAT", 0x02008014, [], 0x00000000, .none,
    [⟨28, 16, .ro, .none⟩, ⟨12, 0, .ro, .none⟩]⟩,
  ⟨"CST_ERR", 0x02008018, [], 0x00000000, .none,
    [⟨5, 5, .w1c, .none⟩, ⟨4, 4, .w1c, .none⟩, ⟨3, 3, .w1c, .none⟩, ⟨2, 2, .w1c, .none⟩, ⟨1, 1, .w1c, .none⟩, ⟨0, 0, .w1c, .none⟩]⟩,
  ⟨"CST_PROF_LO", 0x0200801C, [], 0x00000000, .none,
    [⟨31, 0, .ro, .none⟩]⟩,
  ⟨"CST_PROF_HI", 0x02008020, [], 0x00000000, .none,
    [⟨31, 0, .ro, .none⟩]⟩]

/-- Register rows of 10_recipes_and_mover.md. -/
def regRows9_0 : List RegRow := [
  ⟨"MVR_CTRL", 0x02400000, [], 0x03E81D00, .fixed 0x0B,
    [⟨31, 16, .rw, .atLeast 1⟩, ⟨12, 10, .rw, .none⟩, ⟨9, 0, .rw, .atLeast 16⟩]⟩,
  ⟨"MVR_PACE", 0x02400004, [], 0x01000080, .fixed 0x0B,
    [⟨31, 16, .rw, .atLeast 1⟩, ⟨15, 0, .rw, .none⟩]⟩,
  ⟨"MVR_STATUS", 0x02400008, [], 0x00000000, .none,
    [⟨23, 16, .ro, .none⟩, ⟨3, 3, .ro, .none⟩, ⟨2, 2, .w1c, .none⟩]⟩,
  ⟨"MVR_STORE", 0x0240000C, [], 0x00002000, .none,
    [⟨31, 16, .ro, .none⟩, ⟨15, 0, .ro, .none⟩]⟩,
  ⟨"MVR_PIN", 0x02400010, [], 0x08000000, .none,
    [⟨31, 16, .ro, .none⟩, ⟨15, 0, .ro, .none⟩]⟩,
  ⟨"MVR_FAULT", 0x02400014, [], 0x00000000, .none,
    [⟨31, 31, .w1c, .none⟩, ⟨30, 30, .w1c, .none⟩, ⟨29, 26, .ro, .none⟩, ⟨25, 19, .ro, .none⟩, ⟨11, 0, .ro, .none⟩]⟩,
  ⟨"MVR_CNT", 0x02400018, [], 0x00000000, .none,
    [⟨31, 16, .rc, .none⟩, ⟨15, 0, .rc, .none⟩]⟩,
  ⟨"MVR_LOADED", 0x02400040, [(8, 0x4)], 0x00000000, .none,
    [⟨31, 0, .ro, .none⟩]⟩,
  ⟨"MVR_PINNED", 0x02400060, [(8, 0x4)], 0x00000000, .none,
    [⟨31, 0, .ro, .none⟩]⟩,
  ⟨"MVR_CHSTAT", 0x02401000, [(128, 0x10)], 0x00000000, .none,
    [⟨31, 29, .ro, .none⟩, ⟨28, 21, .ro, .none⟩, ⟨14, 12, .ro, .none⟩, ⟨11, 0, .ro, .none⟩]⟩,
  ⟨"MVR_CHOC", 0x02401004, [(128, 0x10)], 0x00000000, .none,
    [⟨31, 0, .ro, .none⟩]⟩,
  ⟨"MVR_CHSN", 0x02401008, [(128, 0x10)], 0x00000000, .none,
    [⟨23, 0, .ro, .none⟩]⟩]

/-- Register rows of 10_recipes_and_mover.md. -/
def regRows9_1 : List RegRow := [
  ⟨"MVR_CHEV", 0x0240100C, [(128, 0x10)], 0x00000000, .none,
    [⟨15, 0, .ro, .none⟩]⟩]

/-- Register rows of 11_compression.md. -/
def regRows10_0 : List RegRow := [
  ⟨"CMP_CTRL", 0x02800000, [], 0x00300000, .none,
    [⟨31, 16, .rw, .none⟩, ⟨0, 0, .rw, .none⟩]⟩,
  ⟨"CMP_STATUS", 0x02800004, [], 0x00000000, .none,
    [⟨19, 16, .ro, .none⟩, ⟨9, 9, .ro, .none⟩, ⟨8, 8, .ro, .none⟩, ⟨7, 0, .ro, .none⟩]⟩,
  ⟨"CMP_CNT0", 0x02800008, [], 0x00000000, .none,
    [⟨31, 16, .rc, .none⟩, ⟨15, 0, .rc, .none⟩]⟩,
  ⟨"CMP_CNT1", 0x0280000C, [], 0x00000000, .none,
    [⟨31, 16, .rc, .none⟩, ⟨15, 0, .rc, .none⟩]⟩,
  ⟨"CMP_ERR", 0x02800010, [], 0x00000000, .none,
    [⟨24, 0, .ro, .none⟩]⟩,
  ⟨"CMP_ERRCODE", 0x02800014, [], 0x00000000, .none,
    [⟨7, 0, .ro, .none⟩]⟩]

/-- Register rows of 12_host_fabric_and_ownership.md. -/
def regRows11_0 : List RegRow := [
  ⟨"NET_CFG", 0x03000000, [(2, 0x10000)], 0x05DC0088, .port,
    [⟨31, 16, .rw, .within 1500 9000⟩, ⟨9, 8, .rw, .map [(3, 0)]⟩, ⟨7, 7, .rw, .none⟩, ⟨3, 3, .rw, .none⟩, ⟨2, 0, .rw, .map [(6, 0), (7, 0)]⟩]⟩,
  ⟨"NET_STATUS", 0x03000004, [(2, 0x10000)], 0x00000000, .none,
    [⟨8, 8, .ro, .none⟩, ⟨7, 7, .ro, .none⟩, ⟨3, 3, .ro, .none⟩, ⟨2, 0, .ro, .none⟩]⟩,
  ⟨"NET_CNT0", 0x03000008, [(2, 0x10000)], 0x00000000, .none,
    [⟨31, 16, .rc, .none⟩, ⟨15, 0, .rc, .none⟩]⟩,
  ⟨"NET_CNT1", 0x0300000C, [(2, 0x10000)], 0x00000000, .none,
    [⟨31, 16, .rc, .none⟩, ⟨15, 0, .rc, .none⟩]⟩,
  ⟨"NET_MAC_LO", 0x03000010, [(2, 0x10000)], 0x00000000, .none,
    [⟨31, 0, .ro, .none⟩]⟩,
  ⟨"NET_MAC_HI", 0x03000014, [(2, 0x10000)], 0x00000000, .none,
    [⟨15, 0, .ro, .none⟩]⟩,
  ⟨"HIF_CTRL", 0x03100000, [], 0x00000001, .none,
    [⟨1, 1, .rw, .none⟩, ⟨0, 0, .rw, .none⟩]⟩,
  ⟨"HIF_STATUS", 0x03100004, [], 0x00000000, .none,
    [⟨31, 16, .ro, .none⟩, ⟨10, 0, .ro, .none⟩]⟩,
  ⟨"HIF_CNT", 0x03100008, [], 0x00000000, .none,
    [⟨31, 16, .rc, .none⟩, ⟨15, 0, .rc, .none⟩]⟩,
  ⟨"HIF_ASTAT", 0x03101000, [(1025, 0x4)], 0x00000000, .none,
    [⟨31, 31, .ro, .none⟩, ⟨30, 30, .ro, .none⟩, ⟨29, 29, .ro, .none⟩, ⟨28, 27, .ro, .none⟩, ⟨12, 0, .ro, .none⟩]⟩,
  ⟨"OWN_STATUS", 0x03400000, [], 0x000007FF, .none,
    [⟨25, 24, .ro, .none⟩, ⟨10, 0, .ro, .none⟩]⟩,
  ⟨"OWN_LEASE", 0x03400004, [], 0x000A0000, .none,
    [⟨31, 16, .ro, .none⟩, ⟨15, 0, .ro, .none⟩]⟩]

/-- Register rows of 12_host_fabric_and_ownership.md. -/
def regRows11_1 : List RegRow := [
  ⟨"OWN_CFG", 0x03400008, [], 0x00000001, .none,
    [⟨0, 0, .rw, .none⟩]⟩,
  ⟨"OWN_CNT", 0x0340000C, [], 0x00000000, .none,
    [⟨31, 24, .rc, .none⟩, ⟨23, 16, .rc, .none⟩, ⟨15, 8, .rc, .none⟩, ⟨7, 0, .rc, .none⟩]⟩,
  ⟨"CPL_STATUS", 0x03800000, [], 0x00013F94, .none,
    [⟨17, 0, .ro, .none⟩]⟩,
  ⟨"CPL_SHARE", 0x03800004, [], 0x04000040, .none,
    [⟨31, 16, .rw, .atLeast 64⟩, ⟨15, 0, .ro, .none⟩]⟩,
  ⟨"CPL_ERR", 0x03800008, [], 0x00000000, .none,
    [⟨31, 31, .w1c, .none⟩, ⟨30, 30, .w1c, .none⟩, ⟨12, 0, .ro, .none⟩]⟩,
  ⟨"CPL_QSTAT", 0x03801000, [(8192, 0x4)], 0x00000000, .none,
    [⟨31, 31, .ro, .none⟩, ⟨30, 30, .w1c, .none⟩, ⟨17, 0, .ro, .none⟩]⟩]

/-- Register rows of 14_memory_and_cache.md. -/
def regRows12_0 : List RegRow := [
  ⟨"MEM_CFG", 0x04000000, [], 0x00000000, .none,
    [⟨31, 19, .ro, .none⟩, ⟨18, 16, .ro, .none⟩, ⟨13, 13, .ro, .none⟩, ⟨7, 0, .ro, .none⟩]⟩,
  ⟨"MEM_STATUS", 0x04000004, [], 0x00000000, .none,
    [⟨3, 3, .ro, .none⟩, ⟨2, 2, .ro, .none⟩, ⟨1, 1, .ro, .none⟩, ⟨0, 0, .ro, .none⟩]⟩,
  ⟨"MEM_SPACE", 0x04000008, [], 0x00000000, .none,
    [⟨31, 16, .ro, .none⟩, ⟨15, 0, .ro, .none⟩]⟩,
  ⟨"MEM_RETIRE", 0x0400000C, [], 0x00000000, .none,
    [⟨21, 11, .ro, .none⟩, ⟨10, 0, .ro, .none⟩]⟩,
  ⟨"MEM_BW", 0x04000010, [], 0x00000000, .none,
    [⟨31, 16, .ro, .none⟩, ⟨15, 0, .ro, .none⟩]⟩,
  ⟨"L2C_STATUS", 0x04100000, [], 0x00000002, .none,
    [⟨19, 16, .ro, .none⟩, ⟨15, 15, .w1c, .none⟩, ⟨12, 12, .ro, .none⟩, ⟨4, 0, .ro, .none⟩]⟩,
  ⟨"L2C_PIN", 0x04100004, [], 0x00000002, .fixed 0x0E,
    [⟨3, 0, .rw, .none⟩]⟩,
  ⟨"L2C_HIT", 0x04100010, [], 0x00000000, .none,
    [⟨31, 0, .rc, .none⟩]⟩,
  ⟨"L2C_MISS", 0x04100014, [], 0x00000000, .none,
    [⟨31, 0, .rc, .none⟩]⟩,
  ⟨"L2C_PF", 0x04100018, [], 0x00000000, .none,
    [⟨31, 16, .rc, .none⟩, ⟨15, 0, .rc, .none⟩]⟩,
  ⟨"ECC_MODE", 0x04200000, [], 0x00000001, .none,
    [⟨1, 0, .rw, .none⟩]⟩,
  ⟨"ECC_BUCKET", 0x04200004, [], 0x0003E810, .none,
    [⟨23, 8, .rw, .atLeast 1⟩, ⟨7, 0, .rw, .atLeast 1⟩]⟩]

/-- Register rows of 14_memory_and_cache.md. -/
def regRows12_1 : List RegRow := [
  ⟨"ECC_IRQ", 0x04200008, [], 0x00000000, .none,
    [⟨31, 31, .w1c, .none⟩, ⟨30, 30, .w1c, .none⟩, ⟨6, 0, .ro, .none⟩]⟩,
  ⟨"ECC_CNT", 0x0420000C, [], 0x00000000, .none,
    [⟨31, 16, .rc, .none⟩, ⟨15, 0, .rc, .none⟩]⟩,
  ⟨"ECC_UE_LO", 0x04200010, [], 0x00000000, .none,
    [⟨31, 0, .ro, .none⟩]⟩,
  ⟨"ECC_UE_HI", 0x04200014, [], 0x00000000, .none,
    [⟨30, 24, .ro, .none⟩, ⟨3, 0, .ro, .none⟩]⟩,
  ⟨"ECC_SCRUB", 0x04200018, [], 0x80000018, .none,
    [⟨31, 31, .rw, .none⟩, ⟨7, 0, .rw, .within 1 168⟩]⟩,
  ⟨"ECC_SCRUBPOS", 0x0420001C, [], 0x00000000, .none,
    [⟨31, 16, .ro, .none⟩, ⟨9, 0, .ro, .none⟩]⟩,
  ⟨"ECC_INJ", 0x04200020, [], 0x00000000, .none,
    [⟨31, 31, .wo, .none⟩, ⟨8, 8, .ro, .none⟩, ⟨1, 0, .rw, .map [(0, 1), (3, 1)]⟩]⟩,
  ⟨"ECC_INJADDR_LO", 0x04200024, [], 0x00000000, .none,
    [⟨31, 0, .rw, .none⟩]⟩,
  ⟨"ECC_INJADDR_HI", 0x04200028, [], 0x00000000, .none,
    [⟨3, 0, .rw, .none⟩]⟩,
  ⟨"ECC_LVL", 0x04200100, [(128, 0x4)], 0x00000000, .none,
    [⟨7, 0, .ro, .none⟩]⟩]

/-- Register rows of 15_faults_and_patina.md. -/
def regRows13_0 : List RegRow := [
  ⟨"FLT_CHIP", 0x05000000, [], 0x00000000, .none,
    [⟨31, 31, .w1c, .none⟩, ⟨30, 30, .w1c, .none⟩, ⟨29, 28, .ro, .none⟩, ⟨10, 0, .ro, .none⟩]⟩,
  ⟨"FLT_STATE", 0x05000004, [], 0x00000000, .none,
    [⟨9, 8, .ro, .none⟩, ⟨7, 7, .ro, .none⟩, ⟨6, 6, .ro, .none⟩, ⟨5, 5, .ro, .none⟩, ⟨1, 0, .ro, .none⟩]⟩,
  ⟨"FLT_CTRL", 0x05000008, [], 0x000A0032, .none,
    [⟨27, 16, .rw, .within 1 3600⟩, ⟨9, 0, .rw, .within 1 1000⟩]⟩,
  ⟨"FLT_ACK", 0x0500000C, [], 0x00000000, .none,
    [⟨5, 4, .wo, .none⟩, ⟨2, 0, .wo, .none⟩]⟩,
  ⟨"FLT_RECOV_COUNT", 0x05000010, [], 0x00000000, .none,
    [⟨31, 0, .ro, .none⟩]⟩,
  ⟨"FLT_QUIET", 0x05000014, [], 0x00000000, .none,
    [⟨15, 0, .ro, .none⟩]⟩,
  ⟨"FLT_CNT", 0x05000018, [], 0x00000000, .none,
    [⟨31, 24, .rc, .none⟩, ⟨23, 12, .rc, .none⟩, ⟨11, 0, .rc, .none⟩]⟩,
  ⟨"FLT_ERRTEST", 0x0500001C, [], 0x00000000, .none,
    [⟨1, 1, .ro, .none⟩, ⟨0, 0, .wo, .none⟩]⟩,
  ⟨"PAT_CTRL", 0x05100000, [], 0x00000000, .none,
    [⟨0, 0, .w1s, .none⟩]⟩,
  ⟨"PAT_STATUS", 0x05100004, [], 0x00000000, .none,
    [⟨31, 31, .ro, .none⟩, ⟨22, 16, .ro, .none⟩, ⟨12, 0, .ro, .none⟩]⟩,
  ⟨"PAT_COUNT", 0x05100008, [], 0x00000000, .none,
    [⟨31, 0, .ro, .none⟩]⟩,
  ⟨"PAT_DROP", 0x0510000C, [], 0x00000000, .none,
    [⟨31, 0, .ro, .none⟩]⟩]

/-- Register rows of 15_faults_and_patina.md. -/
def regRows13_1 : List RegRow := [
  ⟨"PAT_LOST", 0x05100010, [], 0x00000000, .none,
    [⟨6, 0, .ro, .none⟩]⟩,
  ⟨"PAT_TRIG", 0x05101000, [(2048, 0x4)], 0x00000000, .none,
    [⟨31, 31, .rw, .none⟩, ⟨12, 12, .rw, .none⟩, ⟨10, 8, .rw, .none⟩, ⟨4, 0, .rw, .none⟩]⟩]

/-- Register rows of 16_power_clocks_reset.md. -/
def regRows14_0 : List RegRow := [
  ⟨"PLN_STATUS", 0x00000000, [], 0x00000000, .none,
    [⟨31, 29, .ro, .none⟩, ⟨12, 12, .ro, .none⟩, ⟨11, 11, .ro, .none⟩, ⟨10, 10, .ro, .none⟩, ⟨7, 4, .ro, .none⟩]⟩,
  ⟨"PLN_RTC_LO", 0x00000004, [], 0x00000000, .none,
    [⟨31, 0, .ro, .none⟩]⟩,
  ⟨"PLN_RTC_HI", 0x00000008, [], 0x00000000, .none,
    [⟨31, 0, .ro, .none⟩]⟩,
  ⟨"PLN_WAKECFG", 0x0000000C, [], 0x0000600F, .none,
    [⟨15, 15, .w1c, .none⟩, ⟨14, 12, .rw, .none⟩, ⟨3, 3, .rw, .none⟩, ⟨2, 2, .rw, .none⟩, ⟨1, 1, .rw, .none⟩, ⟨0, 0, .rw, .none⟩]⟩,
  ⟨"PLN_WALM_LO", 0x00000010, [], 0x00000000, .none,
    [⟨31, 0, .rw, .none⟩]⟩,
  ⟨"PLN_WALM_HI", 0x00000014, [], 0x00000000, .none,
    [⟨31, 0, .rw, .none⟩]⟩,
  ⟨"PLN_WAKE", 0x00000018, [], 0x00000000, .none,
    [⟨4, 4, .w1c, .none⟩, ⟨3, 3, .w1c, .none⟩, ⟨2, 2, .w1c, .none⟩, ⟨1, 1, .w1c, .none⟩, ⟨0, 0, .w1c, .none⟩]⟩,
  ⟨"PLN_RESET", 0x0000001C, [], 0x00000000, .none,
    [⟨15, 8, .wo, .none⟩, ⟨0, 0, .wo, .none⟩]⟩,
  ⟨"PWR_STATE", 0x00004000, [], 0x00000000, .none,
    [⟨10, 8, .ro, .none⟩, ⟨5, 5, .ro, .none⟩, ⟨4, 4, .ro, .none⟩, ⟨2, 0, .ro, .none⟩]⟩,
  ⟨"PWR_REGION", 0x00004004, [], 0x00000001, .none,
    [⟨14, 8, .ro, .none⟩, ⟨6, 0, .ro, .none⟩]⟩,
  ⟨"PWR_LAT", 0x00004008, [], 0x00000000, .none,
    [⟨31, 16, .ro, .none⟩, ⟨15, 0, .ro, .none⟩]⟩,
  ⟨"CLK_STATUS", 0x00008000, [], 0x00000000, .none,
    [⟨13, 8, .w1c, .none⟩, ⟨7, 7, .ro, .none⟩, ⟨6, 6, .ro, .none⟩, ⟨5, 0, .ro, .none⟩]⟩]

/-- Register rows of 17_firmware_update.md. -/
def regRows15_0 : List RegRow := [
  ⟨"FWU_STATUS", 0x00100000, [], 0x00000000, .none,
    [⟨19, 16, .ro, .none⟩, ⟨15, 15, .ro, .none⟩, ⟨11, 10, .ro, .none⟩, ⟨9, 8, .ro, .none⟩, ⟨6, 4, .ro, .none⟩, ⟨2, 0, .ro, .none⟩]⟩,
  ⟨"FWU_DL", 0x00100004, [], 0x00000000, .none,
    [⟨31, 31, .w1c, .none⟩, ⟨25, 0, .ro, .none⟩]⟩,
  ⟨"FWU_CHECK", 0x00100008, [], 0x00000000, .none,
    [⟨7, 6, .ro, .none⟩, ⟨2, 0, .ro, .none⟩]⟩,
  ⟨"FWU_PAUSE", 0x0010000C, [], 0x00000000, .none,
    [⟨15, 0, .ro, .none⟩]⟩]

/-- Register rows of 18_pins_electrical_package.md. -/
def regRows16_0 : List RegRow := [
  ⟨"PIN_ID", 0x06000000, [], 0x96400001, .none,
    [⟨31, 16, .ro, .none⟩, ⟨7, 0, .ro, .none⟩]⟩,
  ⟨"PIN_AVS", 0x06000004, [], 0x00000000, .none,
    [⟨9, 0, .ro, .none⟩]⟩,
  ⟨"PIN_TEMP", 0x06000008, [], 0x00008000, .none,
    [⟨18, 16, .ro, .none⟩, ⟨15, 0, .ro, .none⟩]⟩,
  ⟨"PIN_SUPPLY", 0x0600000C, [], 0x00000000, .none,
    [⟨17, 16, .ro, .none⟩, ⟨1, 0, .w1c, .none⟩]⟩,
  ⟨"PIN_TEMPS", 0x06000040, [(8, 0x4)], 0x00008000, .none,
    [⟨15, 0, .ro, .none⟩]⟩,
  ⟨"DBG_TRC", 0x06008000, [], 0x00000000, .none,
    [⟨4, 4, .rw, .none⟩, ⟨3, 3, .ro, .none⟩, ⟨2, 2, .w1c, .none⟩, ⟨1, 1, .wo, .none⟩, ⟨0, 0, .wo, .none⟩]⟩]

/-- Register rows of R57. -/
def regRows17_0 : List RegRow := [
  ⟨"ZT0", 0x01004000, [(4, 0x40000), (8, 0x800), (64, 0x20)], 0x00000000, .format,
    [⟨31, 31, .rw, .none⟩, ⟨23, 0, .rw, .none⟩]⟩,
  ⟨"ZT1", 0x01004004, [(4, 0x40000), (8, 0x800), (64, 0x20)], 0x00000000, .format,
    [⟨31, 28, .rw, .none⟩, ⟨23, 0, .rw, .none⟩]⟩,
  ⟨"ZT2", 0x01004008, [(4, 0x40000), (8, 0x800), (64, 0x20)], 0x00000000, .format,
    [⟨31, 0, .rw, .none⟩]⟩,
  ⟨"ZT3", 0x0100400C, [(4, 0x40000), (8, 0x800), (64, 0x20)], 0x00000000, .format,
    [⟨31, 16, .rw, .none⟩, ⟨15, 0, .rw, .none⟩]⟩,
  ⟨"ZT4", 0x01004010, [(4, 0x40000), (8, 0x800), (64, 0x20)], 0x00000000, .format,
    [⟨31, 16, .rw, .none⟩, ⟨15, 8, .rw, .none⟩, ⟨7, 0, .rw, .none⟩]⟩,
  ⟨"ZT5", 0x01004014, [(4, 0x40000), (8, 0x800), (64, 0x20)], 0x00000000, .format,
    [⟨23, 0, .rw, .none⟩]⟩,
  ⟨"ZT6", 0x01004018, [(4, 0x40000), (8, 0x800), (64, 0x20)], 0x00000000, .format,
    [⟨31, 0, .rw, .none⟩]⟩,
  ⟨"ZT7", 0x0100401C, [(4, 0x40000), (8, 0x800), (64, 0x20)], 0x00000000, .format,
    [⟨31, 0, .rw, .none⟩]⟩]

/-- Register rows of R104. -/
def regRows18_0 : List RegRow := [
  ⟨"EQ_D0", 0x01001000, [(4, 0x40000), (32, 0x100), (16, 0x4)], 0x00000000, .format,
    [⟨27, 16, .rw, .none⟩, ⟨11, 0, .rw, .none⟩]⟩,
  ⟨"EQ_D1", 0x01001040, [(4, 0x40000), (32, 0x100), (16, 0x4)], 0x00000000, .format,
    [⟨27, 16, .rw, .none⟩, ⟨11, 0, .rw, .none⟩]⟩,
  ⟨"EQ_TGT", 0x01001080, [(4, 0x40000), (32, 0x100)], 0x00000000, .format,
    [⟨29, 24, .rw, .none⟩, ⟨23, 18, .rw, .none⟩, ⟨17, 12, .rw, .none⟩, ⟨11, 6, .rw, .none⟩, ⟨5, 0, .rw, .none⟩]⟩,
  ⟨"EQ_CFG", 0x01001084, [(4, 0x40000), (32, 0x100)], 0x00000000, .format,
    [⟨31, 24, .rw, .none⟩, ⟨23, 16, .rw, .none⟩, ⟨15, 12, .rw, .none⟩, ⟨11, 8, .rw, .none⟩, ⟨4, 0, .rw, .none⟩]⟩,
  ⟨"EQ_MAP", 0x01003000, [(4, 0x40000), (32, 0x4)], 0x00000000, .format,
    [⟨28, 24, .rw, .none⟩, ⟨20, 16, .rw, .none⟩, ⟨12, 8, .rw, .none⟩, ⟨4, 0, .rw, .none⟩]⟩]

/-- Register rows of R129. -/
def regRows19_0 : List RegRow := [
  ⟨"FSQ_PMEM", 0x01028000, [(4, 0x40000), (2048, 0x4)], 0x00000000, .format,
    [⟨31, 0, .ro, .none⟩]⟩]

/-- Register rows of R165. -/
def regRows20_0 : List RegRow := [
  ⟨"SRV_VCM", 0x01010100, [(4, 0x40000), (12, 0x20), (5, 0x4)], 0x00000000, .servo,
    [⟨23, 0, .rw, .none⟩]⟩,
  ⟨"SRV_MA", 0x01010300, [(4, 0x40000), (12, 0x20), (5, 0x4)], 0x00000000, .servo,
    [⟨23, 0, .rw, .none⟩]⟩,
  ⟨"SRV_RV", 0x01010500, [(4, 0x40000), (8, 0x20), (5, 0x4)], 0x00000000, .servo,
    [⟨23, 0, .rw, .none⟩]⟩,
  ⟨"SRV_RVGAIN", 0x01010600, [(4, 0x40000), (2, 0x4)], 0x00000000, .servo,
    [⟨23, 0, .rw, .none⟩]⟩,
  ⟨"SRV_XAGAIN", 0x01010610, [(4, 0x40000), (4, 0x4)], 0x00000000, .servo,
    [⟨23, 0, .rw, .none⟩]⟩,
  ⟨"SRV_XA", 0x01010700, [(4, 0x40000), (2, 0x20), (5, 0x4)], 0x00000000, .servo,
    [⟨23, 0, .rw, .none⟩]⟩,
  ⟨"SRV_XCAL", 0x01011000, [(4, 0x40000), (512, 0x4)], 0x00000000, .none,
    [⟨15, 0, .ro, .none⟩]⟩]

/-- Register rows of R194. -/
def regRows21_0 : List RegRow := [
  ⟨"SPN_GAIN", 0x01100100, [(10, 0x4)], 0x00000000, .fixed 0x08,
    [⟨23, 0, .rw, .none⟩]⟩]

/-- Register rows of R225. -/
def regRows22_0 : List RegRow := [
  ⟨"TMB_ALM_LO", 0x01200100, [(8, 0x10)], 0x00000000, .none,
    [⟨31, 0, .rw, .none⟩]⟩,
  ⟨"TMB_ALM_HI", 0x01200104, [(8, 0x10)], 0x00000000, .none,
    [⟨31, 0, .rw, .none⟩]⟩,
  ⟨"TMB_ALM_CTL", 0x01200108, [(8, 0x10)], 0x00000000, .none,
    [⟨7, 6, .rw, .none⟩, ⟨5, 5, .w1c, .none⟩, ⟨4, 4, .w1c, .none⟩, ⟨3, 2, .ro, .none⟩, ⟨1, 1, .wo, .none⟩, ⟨0, 0, .wo, .none⟩]⟩]

/-- Register rows of R361. -/
def regRows23_0 : List RegRow := [
  ⟨"NET_IF0", 0x03000100, [(2, 0x10000), (4, 0x20)], 0x00000000, .port,
    [⟨31, 31, .rw, .none⟩, ⟨30, 24, .rw, .none⟩, ⟨23, 18, .rw, .none⟩, ⟨11, 0, .rw, .none⟩]⟩,
  ⟨"NET_IFIP4", 0x03000104, [(2, 0x10000), (4, 0x20)], 0x00000000, .port,
    [⟨31, 0, .rw, .none⟩]⟩,
  ⟨"NET_IFGW4", 0x03000108, [(2, 0x10000), (4, 0x20)], 0x00000000, .port,
    [⟨31, 0, .rw, .none⟩]⟩,
  ⟨"NET_IFIP6", 0x0300010C, [(2, 0x10000), (4, 0x20), (4, 0x4)], 0x00000000, .port,
    [⟨31, 0, .rw, .none⟩]⟩]

/-- Register rows of R432. -/
def regRows24_0 : List RegRow := [
  ⟨"L2C_ATTR0", 0x04100100, [(64, 0x8)], 0x00000000, .fixed 0x0E,
    [⟨31, 16, .rw, .none⟩, ⟨15, 0, .rw, .none⟩]⟩,
  ⟨"L2C_ATTR1", 0x04100104, [(64, 0x8)], 0x00000000, .fixed 0x0E,
    [⟨31, 31, .rw, .none⟩, ⟨7, 7, .rw, .none⟩, ⟨6, 6, .rw, .none⟩, ⟨5, 4, .rw, .map [(3, 0)]⟩]⟩]

/-- Register rows of R460. -/
def regRows25_0 : List RegRow := [
  ⟨"FLT_REG", 0x05000100, [(7, 0x10)], 0x00000000, .none,
    [⟨31, 31, .w1c, .none⟩, ⟨30, 30, .w1c, .none⟩, ⟨29, 28, .ro, .none⟩, ⟨10, 0, .ro, .none⟩]⟩,
  ⟨"FLT_ESC", 0x05000104, [(7, 0x10)], 0x00000000, .none,
    [⟨31, 31, .ro, .none⟩, ⟨30, 29, .ro, .none⟩, ⟨9, 0, .ro, .none⟩]⟩,
  ⟨"FLT_RST", 0x05000108, [(7, 0x10)], 0x00000000, .none,
    [⟨31, 31, .ro, .none⟩, ⟨15, 0, .ro, .none⟩]⟩,
  ⟨"FLT_BLK", 0x05001000, [(38, 0x4)], 0x00000000, .none,
    [⟨31, 31, .w1c, .none⟩, ⟨30, 30, .w1c, .none⟩, ⟨29, 28, .ro, .none⟩, ⟨10, 0, .ro, .none⟩]⟩]

/-- Register rows of R461. -/
def regRows26_0 : List RegRow := [
  ⟨"PAT_LISTA", 0x05104000, [(32, 0x100), (48, 0x4)], 0x00000000, .none,
    [⟨26, 2, .rw, .none⟩]⟩,
  ⟨"PAT_LISTN", 0x051040C0, [(32, 0x100)], 0x00000000, .none,
    [⟨5, 0, .rw, .atMost 48⟩]⟩]

/-- Register rows of R481. -/
def regRows27_0 : List RegRow := [
  ⟨"PLN_CNT_LO", 0x00000100, [(9, 0x8)], 0x00000000, .none,
    [⟨31, 0, .ro, .none⟩]⟩,
  ⟨"PLN_CNT_HI", 0x00000104, [(9, 0x8)], 0x00000000, .none,
    [⟨31, 0, .ro, .none⟩]⟩]

/-- Register rows of R498. -/
def regRows28_0 : List RegRow := [
  ⟨"FWU_REV_LO", 0x00100010, [(2, 0x8)], 0x00000000, .none,
    [⟨31, 0, .ro, .none⟩]⟩,
  ⟨"FWU_REV_HI", 0x00100014, [(2, 0x8)], 0x00000000, .none,
    [⟨31, 0, .ro, .none⟩]⟩]

/-- Every register the spec lists. -/
def regTable : List RegRow :=
  regRows0_0 ++
  regRows1_0 ++
  regRows2_0 ++
  regRows2_1 ++
  regRows3_0 ++
  regRows4_0 ++
  regRows4_1 ++
  regRows4_2 ++
  regRows5_0 ++
  regRows5_1 ++
  regRows6_0 ++
  regRows6_1 ++
  regRows7_0 ++
  regRows7_1 ++
  regRows8_0 ++
  regRows9_0 ++
  regRows9_1 ++
  regRows10_0 ++
  regRows11_0 ++
  regRows11_1 ++
  regRows12_0 ++
  regRows12_1 ++
  regRows13_0 ++
  regRows13_1 ++
  regRows14_0 ++
  regRows15_0 ++
  regRows16_0 ++
  regRows17_0 ++
  regRows18_0 ++
  regRows19_0 ++
  regRows20_0 ++
  regRows21_0 ++
  regRows22_0 ++
  regRows23_0 ++
  regRows24_0 ++
  regRows25_0 ++
  regRows26_0 ++
  regRows27_0 ++
  regRows28_0

end Sys2Proof.Machine
end

