-- ==== Sys2Proof/Machine/State.lean ====
section
/-! DEFINITION. The state of the part as plain data, and State.reset: the part with POR_N low, every field at the value the
spec gives for reset (a field of a structure below carries its reset value as its default). -/

namespace Sys2Proof.Machine

open Sys2Proof

/-- Why a step stops with a fault. -/
inductive Fault where
  /-- No step of this model raises it: the spec gives every command an effect. Safe. -/
  | unreachable
deriving DecidableEq, Repr

/-- Why a step is refused. -/
inductive Refusal where
  /-- Raised by an arm of exec whose meaning is not written: says nothing of the hardware. Safe. -/
  | notModelled (mnemonic : String)
deriving DecidableEq, Repr

/-- A sparse register file: address and value, addresses strictly rising; an address not listed holds its reset value. -/
abbrev RegFile := List (Nat × Word)

/-! ## Functions and configuration records (R34 to R45) -/

/-- What waits for a function (R37). -/
inductive HeldReq where
  | stop
  | restart
  | abandon
deriving DecidableEq, Repr

/-- What a function holds beside its FUNC_CTRL word: its shadow set (the registers of the shadow set that differ from the
active set since the stop copied it, R34), the requests held under R37, when it left the running state, whether the restart in
progress is an abandon, and whether the stop is a load command's own (R382). -/
structure FuncAux where
  shadow : RegFile := []
  held : List HeldReq := []
  since : Nat := 0
  abandon : Bool := false
  byLoad : Bool := false
deriving DecidableEq, Repr

/-- A configuration record of R41 in NOR; check is the CRC-32C stored in its header, body holds the bytes from byte 16 on. -/
structure CfgRec where
  kind : Nat
  key : Nat
  seq : Nat
  check : Nat
  body : List Byte
deriving DecidableEq, Repr

/-- What a store, capture or removal in progress will do to the records (R44). -/
inductive CfgOp where
  | store (r : CfgRec)
  | remove (kind key : Nat)
deriving DecidableEq, Repr

/-! ## Faults and the patina (R433 to R461) -/

/-- One patina entry (R453). -/
structure PatEntry where
  record : Nat := 0
  ns : Nat := 0
  frac : Nat := 0
  event : Nat := 0
  severity : Nat := 0
  cls : Nat := 0
  list : Nat := 0xFF
  snap : List Word := []
  flags : Nat := 0
  detail : Nat := 0
  detail64 : Nat := 0
  powerOn : Nat := 0
deriving DecidableEq, Repr

/-- A character of 8b/10b coding: a control character K, or a data byte (R504). -/
structure Symbol where
  control : Bool := false
  byte : Byte
deriving DecidableEq, Repr

/-- The trace output: the frames sent, oldest first, and the running time at which the last one ends (R504). -/
structure Trace where
  frames : List (List Symbol) := []
  busyTo : Nat := 0
deriving DecidableEq, Repr

/-- The patina: the capture queue, the store by place, the entries stored but not yet journalled (record number and
place), and the slots written in the journal (R451 to R457). -/
structure Patina where
  queue : List PatEntry := []
  store : List (Nat × PatEntry) := []
  unjournalled : List Nat := []
  clockAt : Nat := 0
  inClock : Nat := 0
deriving DecidableEq, Repr

/-- Fault handling beside the FLT registers: when each running escalation timer expires, the regions whose restart is in
progress and those whose restart waits (R440), the instant each collector was latched (R18), the instant the quiet period runs from, the instants of the recovery
restarts, the end of the ERR test, the levels of the ERR pair, and the control cores that have failed. -/
structure Flt where
  escAt : List (Nat × Nat) := []
  latchAt : List (Nat × Nat) := []
  restarting : List Nat := []
  queued : List Nat := []
  quietFrom : Nat := 0
  recoveries : List Nat := []
  errTest : Bool := false
  errDriven : Bool := false
  errFault : Bool := true
  failedCores : List Nat := []
deriving DecidableEq, Repr

/-! ## Time (R195 to R222) -/

/-- The PTP exchange in progress (R200), instants in 1/65,536 ns: sequence number, Sync receipt, Sync origin once known, and the
departure of the Delay_Req. -/
structure Exchange where
  seq : Nat
  t2 : Nat
  t1 : Option Int := none
  t3 : Nat := 0
deriving DecidableEq, Repr

/-- An approach (R213): the phase is late (offset positive) or early, the speed-loop updates it lasts and has had. -/
structure Approach where
  late : Bool
  len : Nat
  done : Nat := 0
deriving DecidableEq, Repr

/-- The time base and what follows it (R195 to R222). tb is the time in 1/65,536 ns, freq the correction of one 2 ns step in
1/65,536 ns; hist the corrections since LOCKED was entered with the running time each began, newest first. acqFrom is the state
ACQUIRING was entered from, stepFirst marks that its first measurement steps, good counts measurements below 200 ns, holdUsed and
holdFrom measure the holdover time and holdFreq is its correction, under is the state the stop of the time base function covers. ptpOffset is the last
offset PTP gave; gSec, gEdge and gLast are the seconds of the last Geryn marker, its edge while its word is not in, and the running time it came or
was due at. loadDue marks that the next loading of the heads is the first after a spin-up or on an exit from PS2 to PS4 (R213); spent lists the alarm
comparators that have fired for the time they hold (R222). -/
structure Time where
  tb : Nat := 0
  freq : Int := 0
  hist : List (Nat × Int) := []
  acqFrom : Nat := 0
  stepFirst : Bool := false
  good : Nat := 0
  holdUsed : Nat := 0
  holdFrom : Nat := 0
  holdFreq : Int := 0
  under : Option Nat := none
  masters : List Master := []
  best : Option Nat := none
  ptpOk : Bool := false
  exchange : Option Exchange := none
  ptpOffset : Option Int := none
  gSec : Option Nat := none
  gEdge : Option Nat := none
  gLast : Option Nat := none
  gMissing : Nat := 0
  gDisagree : Nat := 0
  glkOut : List (List Byte) := []
  loadDue : Bool := false
  approachDue : Bool := false
  approach : Option Approach := none
  sumE : Int := 0
  errBad : Nat := 0
  errGood : Nat := 0
  lastIndex : Option Nat := none
  trev : Nat := 0
  steps : Nat := 0
  lockLosses : Nat := 0
  late : Nat := 0
  c0Miss : Nat := 0
  gerynErr : Nat := 0
  masterChanges : Nat := 0
  spent : List Nat := []
deriving DecidableEq, Repr

/-! ## Spindle (R166 to R194) -/

/-- The gate commands of a leg at a count of the present period: their levels, and the counts since each last fell (R166). -/
structure Leg where
  hi : Bool := false
  lo : Bool := false
  hiAgo : Nat := 4000
  loAgo : Nat := 4000
  at_ : Nat := 0
deriving DecidableEq, Repr

/-- The loop states of the spindle in its state mirror, as the last completed period left them (R160, R168). -/
structure SpnMirror where
  ia : Int := 0
  ib : Int := 0
  iaPrev : Int := 0
  ibPrev : Int := 0
  id : Int := 0
  iq : Int := 0
  va : Int := 0
  vb : Int := 0
  vaOn : Int := 0
  vbOn : Int := 0
  idRef : Int := 0
  iqSpd : Int := 0
  integD : Int := 0
  integQ : Int := 0
  integS : Int := 0
  wInt : Int := 0
  w : Int := 0
  theta : Nat := 0
  ref : Nat := 0
deriving DecidableEq, Repr

/-- What the spindle loop engine and the spindle block hold beside the SPN registers. Currents are in 2^-23 of i_max, voltages in
2^-23 of V_max, speeds in 2^-23 of 10,000 rpm, angles in 2^-32 of an electrical turn, the reference in 1/3,000 rpm. va and vb
are the voltages computed last, vaOn and vbOn those applied in the period before; periodAt is when the period began, senseAt when position sensing
did; retrying marks the brake before another start (R185). -/
structure Spn where
  period : Nat := 0
  cmp : List Nat := [0, 0, 0]
  cmpNext : List Nat := [0, 0, 0]
  cut : Bool := false
  winLeft : Nat := 0
  ia : Int := 0
  ib : Int := 0
  iaPrev : Int := 0
  ibPrev : Int := 0
  id : Int := 0
  iq : Int := 0
  va : Int := 0
  vb : Int := 0
  vaOn : Int := 0
  vbOn : Int := 0
  periodAt : Nat := 0
  senseAt : Nat := 0
  legs : List Leg := [{}, {}, {}]
  mirror : SpnMirror := {}
  retrying : Bool := false
  idRef : Int := 0
  iqSpd : Int := 0
  integD : Int := 0
  integQ : Int := 0
  integS : Int := 0
  wInt : Int := 0
  w : Int := 0
  theta : Nat := 0
  ref : Nat := 0
  rN : Int := 0
  lN : Int := 0
  lT : Int := 0
  kN : Int := 0
  brakeCut : Nat := 0
  atLimit : Bool := false
  atRun : Nat := 0
  handRun : Nat := 0
  fwRun : Nat := 0
  fwSaid : Bool := false
  forced : Nat := 0
  theta0 : Nat := 0
  ocAt : List Nat := []
  vlow : Bool := false
  stopping : Bool := false
  startHeld : Bool := false
  attempts : Nat := 0
  parking : List (Fin 4) := []
  rockMag : Nat := 0
  rockPairs : Nat := 0
  calibrating : Bool := false
  pool : List Nat := [0, 1, 2]
  pairReported : Bool := false
deriving DecidableEq, Repr

/-! ## Host fabric, ownership and commands (R330 to R403) -/

/-- A completion posted to a host (R362): its command, status code type and code, Do Not Retry, the two result dwords and
the data returned. -/
structure Completion where
  assoc : Nat
  qid : Nat
  cid : Nat
  sct : Nat
  sc : Nat
  dnr : Bool
  dw0 : Nat := 0
  dw1 : Nat := 0
  data : List Byte := []
deriving DecidableEq, Repr

/-- What a command that holds a context is waiting for. -/
inductive Wait where
  /-- fetched, its fields not yet performed -/
  | fetched
  /-- an exit to PS0 (R403, R470) -/
  | powerExit
  /-- the power state change it asked for (R468) -/
  | powerState
  /-- a register access to a restarting region (R31), with the pairs or words that remain and the data read so far -/
  | region (r : Nat) (pairs : List RegPair) (got : List Word)
  /-- a function that is not running (R35) -/
  | func (k : Nat)
  /-- the end of a Reconfigure Function action of its own (R384); action coded as cmd -/
  | reconf (k action : Nat)
  /-- the commit of its own load (R382), with the NVMe opcode or feature it is -/
  | load (k : Nat)
  /-- its turn to load (R382) -/
  | loadTurn (k : Nat)
  /-- its launch instant L in ns and, with ap, the launch angle (R217, R218) -/
  | launch (l : Nat) (theta : Option Nat)
  /-- its range lock (R398) -/
  | lock
  /-- room in the trailing buffer (R409) -/
  | trailing
  /-- its sectors to reach the medium (R375) -/
  | mediaWrite
  /-- its sectors to reach DRAM (R86, R374) -/
  | mediaRead
  /-- recovery of erased sectors (R226) -/
  | recovery
  /-- an actuator that is not available (R231) -/
  | actuator (a : Nat)
  /-- the retract pair to re-arm, or heads to load (R177, R188) -/
  | retract
  /-- the end of an approach (R213) -/
  | approach
  /-- a free Cast engine and staging space (R284) -/
  | castQueue
  /-- its pours and packets (R303) -/
  | casting
  /-- a compression or decompression job (R326) -/
  | job
  /-- the commands before the delete of its namespace (R371) -/
  | nsDelete
  /-- the Casts of the mould it withdraws (R260) -/
  | withdraw
  /-- an asynchronous event (R364) -/
  | asyncEvent
  /-- an earlier Mould Write or Mould Commit of its mould (R401) -/
  | mouldTurn
  /-- an activation without reset (R492) -/
  | activation
deriving DecidableEq, Repr

/-- A command context (R350): the command, the NVMe command it holds once performed, its arrival time, whether it was
permitted at its arrival (R402), the class of its queue at its fetch, and what it waits for. launched marks a class-0 command past its launch instant,
staged that its data was in DRAM then, and delayed that it has met what no bounded command meets (R220). recovFrom is when its first erased sector was reported (R230). pats are the patina's entries
as they stood at the fetch of a Read Patina that has to wait (R383). -/
structure Ctx where
  assoc : Nat
  qid : Nat
  cid : Nat
  arrival : Nat
  permitted : Bool
  cls : Nat
  instr : Option Instr := none
  wait : Wait := .fetched
  since : Nat := 0
  late : Bool := false
  order : Nat := 0
  launch : Nat := 0
  bad : Bool := false
  launched : Bool := false
  staged : Bool := false
  delayed : Bool := false
  recovFrom : Option Nat := none
  pats : List PatEntry := []
deriving DecidableEq, Repr

/-- A capsule that has arrived in its command queue and is not fetched (R350), with the order of its arrival. -/
structure Capsule where
  assoc : Nat
  qid : Nat
  cid : Nat
  arrival : Nat
  permitted : Bool
  order : Nat := 0
  bad : Bool := false
  cells : Nat := 0
deriving DecidableEq, Repr

/-- A transaction of DH-HMAC-CHAP (R339): its identifier, hash and DH group. -/
structure AuthTr where
  tid : Nat := 0
  hash : Nat := 1
  group : Nat := 0
deriving DecidableEq, Repr

/-- The state of DH-HMAC-CHAP on an admin queue (R339). -/
inductive AuthState where
  | idle
  | negotiated (t : AuthTr)
  | challenged (t : AuthTr) (seq power : Nat) (challenge : List Byte)
  | replied (t : AuthTr) (response : Option (List Byte))
  | confirming (tid : Nat)
  | failed (tid reason : Nat)
deriving DecidableEq, Repr

/-- A PCIe completion queue (R341): its size, the interrupt vector it raises, and where the device and the host stand in it. -/
structure Cq where
  id : Nat
  size : Nat
  vector : Option Nat
  tail : Nat := 0
  head : Nat := 0
deriving DecidableEq, Repr

/-- One association (R335, R339, R341). -/
structure Assoc where
  port : Nat := 0
  auth : Bool := false
  hostNqn : List Byte := []
  authState : AuthState := .idle
  kato : Nat := 0
  katoFrom : Nat := 0
  ioQueue : Bool := false
  classes : List (Nat × Nat) := []
  cqs : List Cq := []
  sqs : List (Nat × Nat) := []
  aers : List Nat := []
  aec : Word := 0
  cc : Word := 0
  csts : Word := 0
  lastServed : Bool := false
deriving DecidableEq, Repr

/-- One TCP connection of a port (R334 to R338); r2t lists the commands that have an R2T outstanding. -/
structure Conn where
  port : Nat
  localPort : Nat
  established : Bool := true
  icDone : Bool := false
  hdgst : Bool := false
  ddgst : Bool := false
  assoc : Option Nat := none
  qid : Nat := 0
  refused : Bool := false
  iface : Nat := 0
  mss : Nat := 1460
  rto : Nat := 1000
  cwnd : Nat := 3
  ssthresh : Nat := 65535
  r2t : List Nat := []
deriving DecidableEq, Repr

/-- A packet linked into a cell-pool queue (R347), with the command it belongs to and its bytes. -/
structure Packet where
  level : Nat
  cells : Nat
  qid : Nat
  cid : Nat
  bytes : List Byte := []
deriving DecidableEq, Repr

/-- One cell-pool queue: the packets linked, the cells of packets still open, and its overrun bit (R344 to R348). -/
structure Queue where
  packets : List Packet := []
  openCells : Nat := 0
  overrun : Bool := false
deriving DecidableEq, Repr

/-- A request of the range-lock table, over LBAs lo to hi of a namespace (R398). -/
structure Lock where
  ns : Nat
  lo : Nat
  hi : Nat
  excl : Bool
  assoc : Nat
  qid : Nat
  cid : Nat
  granted : Bool
deriving DecidableEq, Repr

/-- What a port sends of its own accord (R333, R334, R337, R338). -/
inductive NetOut where
  | arpReply (port iface : Nat) (ip : Nat)
  | neighbourAdvert (port iface : Nat) (ip : Nat)
  | echoReply (port iface : Nat) (v6 : Bool) (hop : Nat) (payload : List Byte)
  | unreachable (port iface : Nat) (v6 : Bool)
  | tcpReset (port conn : Nat)
  | icResp (conn : Nat) (bytes : List Byte)
  | termReq (conn fes fei : Nat)
  | r2t (conn cid : Nat)
  | retransmit (conn : Nat)
  | windowProbe (conn : Nat)
  | packet (assoc : Nat) (bytes : List Byte)
  | ptp (port kind : Nat)
deriving DecidableEq, Repr

/-- A frame that was sent, with its 802.1Q tag: VLAN ID and PCP (R332). -/
structure Sent where
  out : NetOut
  tag : Option (Nat × Nat) := none
deriving DecidableEq, Repr

/-- What is in force on a port's link: its lanes and its FEC, 0 RS(528,514), 1 none, 2 BASE-R, as NET_CFG.fec has them, 3 RS(544,514)
(R330, R360). -/
structure Link where
  lanes : Nat
  fec : Nat
deriving DecidableEq, Repr

/-- One entry of the Error Information page (R393). -/
structure ErrorEntry where
  count : Nat
  qid : Nat
  cid : Nat
  status : Nat
  lba : Nat
  nsid : Nat
deriving DecidableEq, Repr

/-- The host interface. -/
structure HostState where
  assocs : List (Nat × Assoc) := []
  conns : List (Nat × Conn) := []
  capsules : List Capsule := []
  ctxs : List Ctx := []
  completions : List Completion := []
  sent : List Sent := []
  links : List (Nat × Link) := []
  routers : List (Nat × Nat) := []
  queues : List (Nat × Queue) := []
  locks : List Lock := []
  lockFullSeen : Bool := false
  ctxFullSeen : Bool := false
  seq : Nat := 0
  nextConn : Nat := 0
  heldCpl : List Completion := []
  share : Nat := 1024
  lastServed : Nat := 1024
  errors : List ErrorEntry := []
  errorCount : Nat := 0
  linkDownAt : List (Nat × Nat) := []
  pcieEnabled : Bool := false
  perstLow : Bool := true
  msix : List Nat := []
  doorbells : List (Nat × Nat) := []
  irqs : List Nat := []
deriving DecidableEq, Repr

/-- Ownership beside OWN_STATUS and OWN_LEASE: when the lease or the successor window ends, and the successor's NQN. -/
structure Own where
  endsAt : Nat := 0
  successor : List Byte := []
deriving DecidableEq, Repr

/-- The MI endpoint (R343). -/
structure Mi where
  changed : Bool := false
  alert : Bool := false
  freq : Nat := 1
  unit : Nat := 64
  response : List Byte := []
  status : Nat := 0
deriving DecidableEq, Repr

/-- A namespace (R368, R369): its kind and trusses in ascending order. -/
structure Namespace where
  mould : Bool
  nsze : Nat
  trusses : List Nat
deriving DecidableEq, Repr

/-- The features of R392 that belong to the device: power management is PWR_STATE, the rest here. -/
structure Features where
  tempOver : Nat := 383
  tempUnder : Nat := 0
  savedC4 : Nat := 0
  savedC5 : Nat := 0x0003E810
  savedC6 : Nat := 0x000A0032
  savedC7 : List Byte := List.replicate 32 0
deriving DecidableEq, Repr

/-! ## Actuator slices (R47 to R165) -/

/-- The two states of a section, in units of 2^-45 (R139). -/
structure Sect where
  s1 : Int := 0
  s2 : Int := 0
deriving DecidableEq, Repr

/-- A seek in progress (R147, R148): the track it began on, its distance and direction, the half period and cruise in samples,
the current scale k_acc it was computed with, the next profile sample, and the correction e in 1/65,536 track. -/
structure Seek where
  start : Nat
  dist : Nat
  neg : Bool
  th : Nat
  tc : Nat
  kacc : Nat
  j : Nat := 0
  e : Int := 0
deriving DecidableEq, Repr

/-- The section and integrator states and mode in the state mirror (R160). -/
structure Mirror where
  vcm : List Sect := List.replicate 12 {}
  ma : List Sect := List.replicate 12 {}
  rv : List Sect := List.replicate 8 {}
  xa : List Sect := List.replicate 2 {}
  mode : Nat := 0
deriving DecidableEq, Repr

/-- What a loop engine of an actuator holds (R130 to R162). failedSeek is the target of the last request returned failed (R147), reloading tells
that the re-identification in hand follows a reload (R137), inhibit that the off-track inhibit is in force (R152). -/
structure Servo where
  vcm : List Sect := List.replicate 12 {}
  ma : List Sect := List.replicate 12 {}
  rv : List Sect := List.replicate 8 {}
  xa : List Sect := List.replicate 2 {}
  mirror : Mirror := {}
  lastPes : Int := 0
  lastValidPes : Int := 0
  inBandSeen : Bool := false
  uVcm : Int := 0
  uMa : Int := 0
  ff : Int := 0
  demand : Int := 0
  preset : Option (Int × Int) := none
  seek : Option Seek := none
  heldSeek : Option Nat := none
  reseek : Bool := false
  predicted : Int := 0
  predictedPrev : Int := 0
  settleRun : Nat := 0
  feRun : Nat := 0
  oscSamples : Nat := 0
  oscCount : Nat := 0
  oscSign : Int := 0
  trips : List Nat := []
  imRun : Nat := 0
  rvRunX : Nat := 0
  rvRunY : Nat := 0
  rvDropX : Bool := false
  rvDropY : Bool := false
  wrongTrack : Option Nat := none
  discards : Nat := 0
  firstAfterSwitch : Bool := false
  reidentLast : Option (Nat × Nat) := none
  reloads : Nat := 0
  reloading : Bool := false
  failedSeek : Option Nat := none
  inhibit : Bool := false
deriving DecidableEq, Repr

/-- What an AGC does (R80). -/
inductive Agc where
  | acquire
  | hold
  | track
deriving DecidableEq, Repr

/-- The front end of a data reader (R80, R81): its AGC's state and gain in 0.25 dB, and the phase of its interpolator in 1/64 cell. -/
structure Reader where
  agc : Agc := .acquire
  gain : Nat := 0
  phase : Nat := 0
deriving DecidableEq, Repr

/-- A preamplifier serial frame (R75): what it does, the 16 bits sent, and the time it takes with its opening and closing periods. -/
structure PscFrame where
  head : Option Nat
  read : Bool
  addr : Nat
  data : Nat
  word : Nat := 0
  ns : Nat := 0
deriving DecidableEq, Repr

/-- What the batten demodulator and the clock synthesis hold (R89 to R100), and what calibration stored for them: burst means by
16 x head + band, and the index offsets of the heads' surfaces (R56). cell is the data-cell count of the interval as last counted (R94),
clockFix the phase error last corrected in 1/256 cell (R95); gainRun counts the samples in a row whose amplitude is off its target to one side,
upward when gainUp, and gainSince the samples since the last gain step (R91). -/
structure Batten where
  bursts : List (Nat × Nat) := []
  stored : List (Nat × Nat × Nat) := []
  lastRatio : Nat := 0
  winHead : Nat := 0
  winGain : Nat := 0
  winFilter : Nat := 0
  order : List Nat := []
  needRafters : Nat := 0
  needValid : Bool := false
  needBoundary : Bool := false
  index : Nat := 0
  noPermit : Bool := false
  accepted : Bool := false
  zoneMove : Option Nat := none
  band : Nat := 0
  offsets : List (Nat × Int) := []
  cell : Nat := 0
  clockFix : Int := 0
  gainRun : Nat := 0
  gainUp : Bool := false
  gainSince : Nat := 0
  hsUntil : Nat := 0
deriving DecidableEq, Repr

/-- The kinds of power-IC frame, in the order in which they are sent when several are due (R181). -/
inductive PicKind where
  | retract
  | vcm
  | vbus
  | park
deriving DecidableEq, Repr

/-- A frame of the power-IC port (R511): its kind, its actuator where it has one, the chip select, and its 24 bits, address first. -/
structure PicFrame where
  kind : PicKind
  act : Nat
  cs : Nat
  word : Nat
deriving DecidableEq, Repr

/-- The power-IC port (R181, R511): the frame in progress and the instant it ends, the frames that wait in the order they go, those sent, the
end of the last servo sample period, and whether a V_bus read is due. -/
structure Pic where
  busy : Option PicFrame := none
  until_ : Nat := 0
  waiting : List PicFrame := []
  sent : List PicFrame := []
  sampleEnd : Nat := 0
  vbusDue : Bool := false
deriving DecidableEq, Repr

/-- One sector of a sector list (R60 to R66): where it lies, with the rafter interval of its first cell and that cell's count, the lengths of
its parts, the user and metadata to write, the first channel code posted and its instant, and its outcome: none while unfinished, 0 done,
1 to 7 the channel code it failed with, 8 failed with none. -/
structure Entry where
  media : Nat
  write : Bool
  head : Nat
  track : Nat
  sector : Nat
  interval : Nat
  tgt : Nat
  len1 : Nat
  len2 : Nat
  data : List Byte := []
  code : Nat := 0
  codeAt : Nat := 0
  outcome : Option Nat := none
  returned : Bool := false
  assoc : Nat := 0
  qid : Nat := 0
  cid : Nat := 0
deriving DecidableEq, Repr

/-- A channel operation of R108 and R109: 1 sector search, 2 resync search, 3 read part, 4 write part; its entry and part, 0 or 1. -/
structure ChanOp where
  op : Nat
  entry : Nat
  started : Bool
  part : Nat := 0
deriving DecidableEq, Repr

/-- What the lead held at its last abort point (R117). -/
structure Ckpt where
  addr : Nat := 0
  cntA : Nat := 0
  tgt : Nat := 0
  flags : Nat := 0
  cur : Option Nat := none
  look : Option Nat := none
  list : List Entry := []
  part : Nat := 0
  frag : Nat := 0
  running : Option ChanOp := none
  armed : Option ChanOp := none
  latches : Nat := 0
  syncFound : Bool := false
deriving DecidableEq, Repr

/-- The formatter sequencers of a slice (R105 to R129): the lead's address, counter, target, flags, list and event latches;
the channel operation that runs and the one armed behind it; the follow's copy.
part and frag are those of the part begun last; nextPart is the part the next part operation of the current entry concerns. -/
structure Sequencer where
  pc : Nat := 0
  cntA : Nat := 0
  tgt : Nat := 0
  flags : Nat := 0
  list : List Entry := []
  cur : Option Nat := none
  look : Option Nat := none
  part : Nat := 0
  frag : Nat := 0
  nextPart : Nat := 0
  latches : Nat := 0
  running : Option ChanOp := none
  armed : Option ChanOp := none
  stopAtFragment : Bool := false
  searchWhere : Nat := 3
  syncFound : Bool := false
  dataReady : Bool := false
  irqCc : Bool := false
  waitSince : Option Nat := none
  ckpt : Ckpt := {}
deriving DecidableEq, Repr

/-- A sector held by the decoder (R87): its entry, the global iterations and the layered decoder iterations completed, and the
log-likelihood ratios of its codeword bits. -/
structure DecPlace where
  media : Nat
  head : Nat
  track : Nat
  sector : Nat
  iters : Nat
  layered : Nat := 0
  llr : List Int := []
deriving DecidableEq, Repr

/-- One actuator slice. equal is the equaliser's working copy, taps0 and taps1 its taps in 2^-22 as they adapt (R82); llr gathers the
ratios of the sector that is read; wd holds the transitions of the part last written, cell and delay (R88); gate the cells of the interval
between which the write gate of the fragment in hand is raised (R78). -/
structure Act where
  servo : Servo := {}
  batten : Batten := {}
  seq : Sequencer := {}
  decoder : List DecPlace := []
  psc : Option PscFrame := none
  pscHead : Option PscFrame := none
  pscFirmware : Option PscFrame := none
  preamp : List (Nat × Nat) := []
  equal : List Word := []
  taps0 : List Int := []
  taps1 : List Int := []
  rd0 : Reader := {}
  rd1 : Reader := {}
  llr : List Int := []
  wd : List (Nat × Nat) := []
  ended : Bool := false
  pfltHeld : Bool := false
  lost : Bool := false
  gate : Option (Nat × Nat) := none
deriving DecidableEq, Repr

/-! ## The medium and its integrity (R57 to R73, R226 to R254) -/

/-- A valid zone of a head (R57). -/
structure Zone where
  first : Nat
  count : Nat
  band : Nat
  cells : Nat
  m : Nat
  n : Nat
  spt : Nat
  skew : Nat
  metaCode : Nat
  spare : Nat
  nA : Nat
  nB : Nat
deriving DecidableEq, Repr

/-- The truss layout recorded in NOR (R70 to R72): the surface list Q, T_max, and the zones of each surface. -/
structure Layout where
  q : List Nat
  tmax : Nat
  zones : List (Nat × List Zone)
deriving DecidableEq, Repr

/-- An open course (R235): surface, track and course, the positions written since it opened, when it opened, whether it has
started to close. -/
structure OpenCourse where
  surface : Nat
  track : Nat
  course : Nat
  written : List Nat
  since : Nat
  closing : Bool := false
deriving DecidableEq, Repr

/-- A trailing truss (R237, R238): its stale positions, and when it began to trail. -/
structure Trail where
  truss : Nat
  stale : List Nat
  since : Nat
deriving DecidableEq, Repr

/-- An erased sector in recovery (R226): the next layer to try, the retry reached, when it was reported, and the reader selection and offset in 1/8 %
of its last retry (R228). -/
structure Erased where
  media : Nat
  layer : Nat := 2
  retry : Nat := 0
  since : Nat := 0
  rdsel : Nat := 0
  offset : Int := 0
deriving DecidableEq, Repr

/-- An entry of the unrecovered list (R232). -/
structure Unrec where
  ns : Nat
  lba : Nat
  surface : Nat
  since : Nat
deriving DecidableEq, Repr

/-- A sector moved to spare tracks (R239): its media address, surface, zone and spare position. -/
structure Moved where
  media : Nat
  surface : Nat
  zone : Nat
  pos : Nat
deriving DecidableEq, Repr

/-- A unit rebuilt into spare tracks (R243): truss, unit, the surface and the first of its 64 spare positions. -/
structure Rebuilt where
  truss : Nat
  unit : Nat
  surface : Nat
  zone : Nat
  pos : Nat
deriving DecidableEq, Repr

/-- A write whose data is wholly in DRAM and whose sectors are not all on the medium (R23, R375): its LBAs and their data (zeros where
it is empty), the units it deallocates, the places in that list still to be written, and whether trail_max or the course limit holds it. -/
structure PendWrite where
  assoc : Nat
  qid : Nat
  cid : Nat
  ns : Nat
  lbas : List Nat
  data : List Byte
  dealloc : List Nat := []
  todo : List Nat := []
  held : Bool := false
  orphan : Bool := false
  dw0 : Nat := 0
  dw1 : Nat := 0
deriving DecidableEq, Repr

/-- The medium and what NOR and DRAM hold about it. sectors holds the recorded codewords by physical address (R60, R62), in rising order of
it: a sector not listed has never been written; units lists the data units that are not clean; dram the sectors delivered to DRAM,
by media address; rewrites those recovered that wait for their rewrite in place (R233). -/
structure Media where
  sectors : List (Nat × List Byte) := []
  units : List Nat := []
  layout : Option Layout := none
  wsn : Nat := 0
  wsnBlock : Nat := 0
  lostSurfaces : List Nat := []
  lostActs : List Nat := []
  unrec : List Unrec := []
  moved : List Moved := []
  rebuilt : List Rebuilt := []
  courses : List OpenCourse := []
  trailing : List Trail := []
  buffered : List Nat := []
  writes : List PendWrite := []
  tries : List (Nat × Nat) := []
  erased : List Erased := []
  dram : List (Nat × List Byte) := []
  rewrites : List (Nat × List Byte) := []
  rebuildQueue : List Nat := []
  rebuildNext : Nat := 0
  rebuildLock : Option Nat := none
  owedTrusses : List Nat := []
  owedCourses : List (Nat × Nat × Nat) := []
  noEligible : Bool := false
  byRetry : Nat := 0
  byCourse : Nat := 0
  byTruss : Nat := 0
  unrecovered : Nat := 0
  reallocated : Nat := 0
  scanPasses : Vector Nat 4 := Vector.replicate 4 0
  timerCloses : Nat := 0
  forcedCloses : Nat := 0
  recomputed : Nat := 0
deriving DecidableEq, Repr

/-! ## Moulds, Casts, recipes and compression (R255 to R329) -/

/-- A part of a mould (R255, R259): its written length, and its bytes that are not 0. -/
structure MouldPart where
  written : Nat := 0
  cells : List Host.Cell := []
deriving DecidableEq, Repr

/-- A mould of a mould store (R255, R260): its parts, and the arrival order after which it is committed and from which it is
withdrawn. -/
structure Mould where
  ns : Nat
  id : Nat
  parts : List MouldPart := List.replicate 4 {}
  committed : Option Nat := none
  withdrawn : Option Nat := none
deriving DecidableEq, Repr

/-- A loaded recipe (R295, R307). -/
structure Recipe where
  id : Nat
  pin : Bool
  image : List Byte
deriving DecidableEq, Repr

/-- A content key slot (R265). -/
structure Key where
  kid : List Byte
  key : List Byte
  expiry : Nat
deriving DecidableEq, Repr

/-- The AES unit of a channel (R302): whether a restart has been met, the chain value or the IV of the keystream, the keystream bytes
used or the block's place in the pattern, the bytes gathered toward a block, each with its place in scratch or none for the
output, and whether SN has advanced since (R304). -/
structure AesState where
  started : Bool := false
  chain : List Byte := []
  used : Nat := 0
  gather : List (Option Nat × Byte) := []
  crossed : Bool := false
deriving DecidableEq, Repr

/-- An active loop (R299): its first body instruction, body length, remaining iterations, and its advances. -/
structure LoopState where
  start : Nat
  body : Nat
  left : Nat
  advSn : Bool
  advSb : Bool
  advA : Option (Nat × Int)
deriving DecidableEq, Repr

/-- A wait of a channel (R300): 0 fill level, 1 event, 2 time; its argument; consume; and the time it began. -/
structure ChanWait where
  kind : Nat
  arg : Nat
  consume : Bool
  since : Nat
deriving DecidableEq, Repr

/-- The run of a channel (R290): the Cast it serves, the pour and its first byte, the channel state, the bytes moved that have not
entered a packet, the packet being filled, and its state as MVR_CHSTAT codes it. -/
structure Run where
  assoc : Nat
  qid : Nat
  cid : Nat
  pour : Nat
  first : Nat
  count : Nat
  pc : Nat := 0
  oc : Nat := 0
  aregs : List (Nat × Nat) := []
  sn : Nat := 0
  sb : Nat := 0
  sc : Nat := 0
  loops : List LoopState := []
  scratch : List Host.Cell := []
  aes : AesState := {}
  lines : List Nat := []
  state : Nat := 1
  wait : Option ChanWait := none
  buf : List Byte := []
  packet : List Byte := []
  ended : Bool := false
deriving DecidableEq, Repr

/-- A pour (R283): its first byte, its length, whether a channel runs it, and whether it is done. -/
structure Pour where
  first : Nat
  len : Nat
  running : Bool := false
  done : Bool := false
deriving DecidableEq, Repr

/-- A Cast from its launch on (R283 to R287): what it names, and from its dispatch on the profile, recipe, key, output length, built-in
output, pours, staging space in 64 KiB, staged bytes by pour, event flags, bytes sent and failure; stopped by a restart of its region (R439). -/
structure CastJob where
  assoc : Nat
  qid : Nat
  cid : Nat
  order : Nat
  cls : Nat
  launch : Nat
  cmd : Cmd
  dispatched : Bool := false
  profile : List Byte := []
  recipe : Option Recipe := none
  key : Option (List Byte) := none
  total : Nat := 0
  out : List Byte := []
  pours : List Pour := []
  staging : Nat := 0
  staged : List (Nat × List Byte) := []
  notices : List (Nat × Nat) := []
  evf : Nat := 0
  sent : Nat := 0
  failed : Option (Nat × Nat) := none
  stopped : Bool := false
deriving DecidableEq, Repr

/-- The Compute region's Cast blocks and mover: tables, jobs, channel runs, and the engines by state. -/
structure CastState where
  moulds : List Mould := []
  profiles : List (Nat × List Byte) := []
  recipes : List Recipe := []
  kept : List Recipe := []
  jobs : List CastJob := []
  runs : List (Nat × Run) := []
  failedEngines : List Nat := []
  reserves : List Nat := [120, 121, 122, 123, 124, 125, 126, 127]
  claim : Option Nat := none
deriving DecidableEq, Repr

/-- A compression or decompression job (R315 to R327): the command it belongs to, its operation, level, input and output space, the
unit it runs on, units it must not run on after a mismatch, whether it may run unverified, and whether a restart of its region stopped
it (R439). -/
structure CmpJob where
  assoc : Nat
  qid : Nat
  cid : Nat
  cls : Nat
  op : Nat
  level : Nat
  input : List Byte
  space : Nat
  unit : Option Nat := none
  mismatched : List Nat := []
  mayUnverified : Bool := false
  stopped : Bool := false
deriving DecidableEq, Repr

/-! ## Power, memory and firmware (R405 to R520) -/

/-- What the plinth holds beside its registers: the real-time counter's last loaded value (1/32,768 s) and the running time of that
load, POR_N low, a supply loss in force, the hold below 0 degrees, WAKE_N ready to wake again, an exit due at the end of an entry,
the 100 ms before PS5, the recovery loader, the JTAG logic in reset, the PLLs restarted once (R465), ready without media, the configuration records that
the last start-up read (R43), and what a start-up that waits for the 50 MHz crystal will find. -/
structure Plinth where
  rtcBase : Nat := 0
  rtcAt : Nat := 0
  porLow : Bool := true
  supplyLost : Bool := false
  coldHold : Bool := false
  wakeArmed : Bool := true
  exitDue : Bool := false
  ps5Due : Bool := false
  loader : Bool := false
  jtagReset : Bool := true
  pllRestarted : List Nat := []
  noMedia : Bool := false
  started : List CfgRec := []
  bootDue : Option Boot := none
deriving DecidableEq, Repr

/-- A DRAM page moved to a spare (R428): channel, page, the spare's number and the time of retirement. -/
structure Retired where
  chan : Nat
  page : Nat
  spare : Nat
  at_ : Nat
deriving DecidableEq, Repr

/-- A line the L2 holds outside its locked ways (R413, R415, R417): device address / 128, its way, whether DRAM still lacks what was written
to it, and whether a prefetch brought it and nothing has hit it yet. -/
structure L2Line where
  line : Nat
  way : Nat
  dirty : Bool
  ahead : Bool
deriving DecidableEq, Repr

/-- A way that was locked and is not any more: it goes on holding the lines of its MiB of device address, but those gone since (R419). -/
structure L2Range where
  way : Nat
  mib : Nat
  gone : List Nat
deriving DecidableEq, Repr

/-- What the memory controller and the L2 hold (R405 to R428): words known to hold a correctable error and words poisoned, by instance and
address; targeted scrubs queued; check lines changed and not written, by channel and group; the instants of uncorrectable errors by
channel; the channels whose spares are reported used up; and the lines of the L2 outside its locked ways, with the pseudo-LRU tree of
each set that was used and the ranges that were locked; the words a targeted scrub rewrote, each with its instance and time, and the pages, by
channel, that are due for retirement (R428); and the time of the last leak (R422). -/
structure Dram where
  bad : List (Nat × Nat) := []
  poison : List (Nat × Nat) := []
  scrubs : List (Nat × Nat) := []
  checkLines : List (Nat × Nat) := []
  errAt : List (Nat × Nat) := []
  noSpare : List Nat := []
  lines : List L2Line := []
  trees : List (Nat × Nat) := []
  freed : List L2Range := []
  rewrote : List (Nat × Nat × Nat) := []
  retireDue : List (Nat × Nat) := []
  leakAt : Nat := 0
deriving DecidableEq, Repr

/-- A firmware slot (R482, R486): its state as FWU_STATUS codes it, the bytes downloaded or held, and whether a block failed its check. -/
structure Slot where
  state : Nat := 0
  image : List Byte := []
  crcBad : Bool := false
deriving DecidableEq, Repr

/-- An activation in progress (R492 to R494): the commit that asked for it, the slot, the step, whether the step missed its bound, whether
the units go back, and the patch registers of the actuators already changed as they were. -/
structure Activation where
  assoc : Nat
  qid : Nat
  cid : Nat
  slot : Nat
  step : Nat := 1
  retried : Bool := false
  back : Bool := false
  saved : RegFile := []
deriving DecidableEq, Repr

/-- A namespace delete that waits for the commands before it (R371). -/
structure Deleting where
  assoc : Nat
  qid : Nat
  cid : Nat
  order : Nat
  spaces : List (Nat × Namespace)
deriving DecidableEq, Repr

/-- A body of a DRAM configuration record: the reference drive's 32 GiB, one rank, 8,533 MT/s, trail_mib 1,024. -/
def dramRecord : List Byte := [32, 0, 2, 0, 0, 4, 0, 0]


/-- The upper words latched by the last low word read of one access path (R11): upper address and value. -/
structure Latches where
  pcie : RegFile := []
  regCmd : RegFile := []
  snapshot : RegFile := []
deriving DecidableEq, Repr

/-- A register access that waits for a region to run again, or behind an access of its path that does (R29, R31): a write of a value by
an association, or a read. -/
structure HeldReg where
  path : Path
  assoc : Nat
  addr : Nat
  value : Word
  write : Bool
deriving DecidableEq, Repr

/-- What NOR holds and no reset changes (R475). counters are the counters as they count in service; counterOld and counterNew hold the 16-byte records
of the sector that was filled before and of the one being filled (R478). -/
structure Nor where
  records : List CfgRec := [⟨3, 0, 0, 1071735546, dramRecord⟩]
  recSeq : Nat := 0
  counters : Vector Nat 9 := Vector.replicate 9 0
  counterOld : List (List Byte) := []
  counterNew : List (List Byte) := []
  rtc : Nat := 0
  patLocked : Bool := false
  patCount : Nat := 0
  patJournal : List (Nat × PatEntry) := []
  features : Features := {}
  keys : List (Nat × Key) := []
  slots : List Slot := [{ state := 4 }, {}]
  bootMark : Option Nat := none
  prevActive : Option Nat := none
  retired : List Retired := []
  patLost : Nat := 0
  patHigh : Nat := 0
  corrTotal : Nat := 0
  uncorrTotal : Nat := 0
  fatalTotal : Nat := 0
  restartTotal : Nat := 0
  loaderRan : Bool := false
deriving DecidableEq, Repr

/-- The state of the part. pending is the queue of commands that wait, first in first out; now is the running time in ns
since POR_N release, fresh the model's own counter of free values, readData what the last register read returned. -/
structure State where
  pending : List Instr := []
  now : Nat := 0
  fresh : Nat := 0
  readData : Word := 0
  regs : RegFile := []
  latches : Latches := {}
  heldRegs : List HeldReg := []
  funcs : Vector FuncAux 15 := Vector.replicate 15 {}
  cfgOp : Option CfgOp := none
  pat : Patina := {}
  flt : Flt := {}
  nor : Nor := {}
  time : Time := {}
  trace : Trace := {}
  host : HostState := {}
  own : Own := {}
  mi : Mi := {}
  spaces : List (Nat × Namespace) := []
  acts : Vector Act 4 := Vector.replicate 4 {}
  media : Media := {}
  spn : Spn := {}
  pic : Pic := {}
  cast : CastState := {}
  cmp : List CmpJob := []
  pln : Plinth := {}
  dram : Dram := {}
  activation : Option Activation := none
  deleting : List Deleting := []
deriving DecidableEq, Repr

/-- The three outcomes of a step. -/
abbrev Res := Host.Outcome State Fault Refusal

/-- The part right after power-on reset: every field at its reset value. -/
def State.reset : State := {}

end Sys2Proof.Machine
end

