-- ==== Sys2Proof/Machine/Ops.lean ====
section
/-! DEFINITION. The named operations over registers and bytes: the sparse register file, bit fields, rows of the register
table and their access codes, and little-endian byte strings and check codes. -/

namespace Sys2Proof.Machine

open Sys2Proof

/-! ## Bit fields -/

/-- Width of a field. -/
def Fld.width (f : Fld) : Nat := f.hi + 1 - f.lo

/-- The bits of a field, in place. -/
def Fld.mask (f : Fld) : Word := BitVec.ofNat 32 (2 ^ f.width - 1) <<< f.lo

/-- The value of a field of a word. -/
def getBits (w : Word) (f : Fld) : Nat := (w.toNat >>> f.lo) % 2 ^ f.width

/-- A word with a field replaced by a value, taken modulo the field's width. -/
def setBits (w : Word) (f : Fld) (v : Nat) : Word :=
  (w &&& ~~~f.mask) ||| BitVec.ofNat 32 ((v % 2 ^ f.width) <<< f.lo)

/-- A value as a two's complement number of w bits. -/
def signed (w : Nat) (v : Nat) : Int :=
  let m := v % 2 ^ w
  if m < 2 ^ (w - 1) then (m : Int) else (m : Int) - 2 ^ w

/-- An integer as w bits of two's complement. -/
def unsigned (w : Nat) (i : Int) : Nat := (i % (2 ^ w : Int)).toNat

/-- Bit k of a number. -/
def bitOf (v k : Nat) : Bool := v.testBit k

/-- A Bool as a bit. -/
def b2n (b : Bool) : Nat := if b then 1 else 0

/-! ## The sparse register file -/

/-- The value listed for an address. -/
def RegFile.find (f : RegFile) (a : Nat) : Option Word :=
  match f with
  | [] => none
  | (b, v) :: r => if a = b then some v else RegFile.find r a

/-- List a value for an address, keeping the addresses rising. -/
def RegFile.put (f : RegFile) (a : Nat) (v : Word) : RegFile :=
  match f with
  | [] => [(a, v)]
  | (b, w) :: r =>
    if a < b then (a, v) :: (b, w) :: r
    else if a = b then (a, v) :: r
    else (b, w) :: RegFile.put r a v

/-- List every pair of g in f. -/
def RegFile.putAll (f g : RegFile) : RegFile := g.foldl (fun acc p => acc.put p.1 p.2) f

/-- The addresses listed rise strictly. -/
def RegFile.sorted : RegFile → Bool
  | [] => true
  | [_] => true
  | p :: q :: r => decide (p.1 < q.1) && RegFile.sorted (q :: r)

/-! ## Rows of the register table -/

/-- The indices of an offset into a register array, outermost first. -/
def matchDims (off : Nat) (dims : List (Nat × Nat)) : Option (List Nat) :=
  match dims with
  | [] => if off = 0 then some [] else none
  | (n, st) :: r =>
    if off / st < n then (matchDims (off % st) r).map (fun l => (off / st) :: l) else none

/-- The indices at which an address lies in a row. -/
def RegRow.indices (r : RegRow) (a : Nat) : Option (List Nat) :=
  if a < r.base then none else matchDims (a - r.base) r.dims

/-- The row and indices of an address; none for a reserved address (R2). -/
def findRow (l : List RegRow) (a : Nat) : Option (RegRow × List Nat) :=
  match l with
  | [] => none
  | r :: t =>
    match r.indices a with
    | some ix => some (r, ix)
    | none => findRow t a

/-- The row of an address in the whole map. -/
def rowAt (a : Nat) : Option (RegRow × List Nat) := findRow regTable a

/-- What a field value reads as (the reading rules of the field tables). -/
def Clamp.apply (c : Clamp) (v : Nat) : Nat :=
  match c with
  | .none => v
  | .atLeast n => if v < n then n else v
  | .atMost n => if n < v then n else v
  | .within lo hi => if v < lo then lo else if hi < v then hi else v
  | .map l => match l.find? (fun p => p.1 == v) with | some p => p.2 | Option.none => v

/-- A word as it reads: each field under its reading rule. -/
def clampWord (fs : List FieldRow) (w : Word) : Word :=
  match fs with
  | [] => w
  | f :: r => clampWord r (setBits w ⟨f.hi, f.lo⟩ (f.clamp.apply (getBits w ⟨f.hi, f.lo⟩)))

/-- The bits of the fields with a given access code. -/
def accMask (fs : List FieldRow) (p : Access → Bool) : Word :=
  match fs with
  | [] => 0
  | f :: r => (if p f.acc then Fld.mask ⟨f.hi, f.lo⟩ else 0) ||| accMask r p

/-- What a software write leaves in a register: RW fields take the value, a 1 clears a W1C bit and sets a W1S bit, other
fields keep theirs (R10); then the fields read under their rules. -/
def writeMerge (fs : List FieldRow) (old new : Word) : Word :=
  let rw := accMask fs (fun a => a == .rw)
  let w1c := accMask fs (fun a => a == .w1c)
  let w1s := accMask fs (fun a => a == .w1s)
  clampWord fs ((((old &&& ~~~rw) ||| (new &&& rw)) &&& ~~~(new &&& w1c)) ||| (new &&& w1s))

/-- The reset value of a PAT_TRIG word: enabled, with the severity of the event's class (R451); an ID that no chapter
lists has no class and takes severity 2. -/
def patTrigReset (e : Nat) : Word :=
  let sev := match eventClass e with | some .uncorrected => 5 | some .fatal => 7 | _ => 2
  setBits (setBits 0 Fld.PAT_TRIG_en 1) Fld.PAT_TRIG_severity sev

/-- The reset value of the register at an address; 0 where no register is listed. -/
def resetWord (a : Nat) : Word :=
  match rowAt a with
  | none => 0
  | some (r, ix) =>
    if r.name = "PAT_TRIG" then patTrigReset (ix.getD 0 0)
    else clampWord r.fields (BitVec.ofNat 32 r.reset)

/-- The stored value of a register. -/
def State.reg (s : State) (a : Nat) : Word :=
  match s.regs.find a with
  | some v => v
  | none => resetWord a

/-- Store a register's value. -/
def State.setReg (s : State) (a : Nat) (v : Word) : State := { s with regs := s.regs.put a v }

/-- A field of a register. -/
def State.fld (s : State) (a : Nat) (f : Fld) : Nat := getBits (s.reg a) f

/-- A one-bit field of a register. -/
def State.flag (s : State) (a : Nat) (f : Fld) : Bool := s.fld a f != 0

/-- A field read as two's complement. -/
def State.sfld (s : State) (a : Nat) (f : Fld) : Int := signed f.width (s.fld a f)

/-- Set a field of a register. -/
def State.setFld (s : State) (a : Nat) (f : Fld) (v : Nat) : State := s.setReg a (setBits (s.reg a) f v)

/-- Set a field to a Bool. -/
def State.setFlag (s : State) (a : Nat) (f : Fld) (b : Bool) : State := s.setFld a f (b2n b)

/-- Set a field to an integer in two's complement. -/
def State.setSFld (s : State) (a : Nat) (f : Fld) (i : Int) : State := s.setFld a f (unsigned f.width i)

/-- Add 1 to a counting field, saturating at its largest value. -/
def State.countFld (s : State) (a : Nat) (f : Fld) : State :=
  s.setFld a f (min (s.fld a f + 1) (2 ^ f.width - 1))

/-- Drop every listed register of an address range, which puts them at their reset values. -/
def State.resetRegs (s : State) (lo hi : Nat) : State :=
  { s with regs := s.regs.filter (fun p => p.1 < lo || hi ≤ p.1) }

/-! ## Byte strings (little-endian unless said otherwise) -/

/-- n bytes of a number, least significant first. -/
def leBytes (n v : Nat) : List Byte :=
  match n with
  | 0 => []
  | k + 1 => BitVec.ofNat 8 v :: leBytes k (v / 256)

/-- n bytes of a number, most significant first. -/
def beBytes (n v : Nat) : List Byte := (leBytes n v).reverse

/-- The number a byte string spells, least significant first. -/
def ofLe (l : List Byte) : Nat := l.foldr (fun b acc => b.toNat + 256 * acc) 0

/-- The number a byte string spells, most significant first. -/
def ofBe (l : List Byte) : Nat := ofLe l.reverse

/-- n bytes at an offset; bytes past the end read as 0. -/
def slice (l : List Byte) (off n : Nat) : List Byte :=
  let t := (l.drop off).take n
  t ++ List.replicate (n - t.length) 0

/-- The little-endian number of n bytes at an offset. -/
def leAt (l : List Byte) (off n : Nat) : Nat := ofLe (slice l off n)

/-- A byte string replaced from an offset on. -/
def patchBytes (l : List Byte) (off : Nat) (d : List Byte) : List Byte :=
  l.take off ++ d ++ l.drop (off + d.length)

/-- A byte string cut or filled with zeros to n bytes. -/
def fitBytes (l : List Byte) (n : Nat) : List Byte := slice l 0 n

/-- n bytes with fields of an offset, a width and a value each; a value above the width's largest saturates. -/
def layFields (base : List Byte) (fs : List (Nat × Nat × Nat)) : List Byte :=
  fs.foldl (fun p f => patchBytes p f.1 (leBytes f.2.1 (min f.2.2 (256 ^ f.2.1 - 1)))) base

/-! ## Check codes -/

/-- One bit step of a reflected CRC of 32 bits. -/
def crc32cBit (c : BitVec 32) : BitVec 32 :=
  if c.getLsbD 0 then (c >>> 1) ^^^ 0x82F63B78#32 else c >>> 1

/-- One byte step of CRC-32C. -/
def crc32cByte (c : BitVec 32) (b : Byte) : BitVec 32 :=
  let x := c ^^^ b.setWidth 32
  crc32cBit (crc32cBit (crc32cBit (crc32cBit (crc32cBit (crc32cBit (crc32cBit (crc32cBit x)))))))

/-- CRC-32C of a byte string (Castagnoli, reflected, initial value and final inversion all ones). -/
def crc32c (l : List Byte) : BitVec 32 := ~~~(l.foldl crc32cByte 0xFFFFFFFF#32)

/-! ## Lists used as tables -/

/-- The entry of a table by its number. -/
def lookupKey {α : Type} (l : List (Nat × α)) (k : Nat) : Option α :=
  match l with
  | [] => none
  | (a, v) :: r => if a = k then some v else lookupKey r k

/-- Put an entry of a table, keeping the numbers rising. -/
def insertKey {α : Type} (l : List (Nat × α)) (k : Nat) (v : α) : List (Nat × α) :=
  match l with
  | [] => [(k, v)]
  | (a, w) :: r =>
    if k < a then (k, v) :: (a, w) :: r
    else if k = a then (k, v) :: r
    else (a, w) :: insertKey r k v

/-- Remove an entry of a table. -/
def eraseKey {α : Type} (l : List (Nat × α)) (k : Nat) : List (Nat × α) := l.filter (fun p => p.1 != k)

/-- The first number from i on, below i + n, that p holds of. -/
def firstFrom (i n : Nat) (p : Nat → Bool) : Option Nat :=
  match n with
  | 0 => none
  | k + 1 => if p i then some i else firstFrom (i + 1) k p

end Sys2Proof.Machine
end

