-- ==== Sys2Proof/Machine/Flags.lean ====
section
/-! DEFINITION. Events: the counters, the patina capture queue and trace, the fault collectors and the escalation timers
(R18, R32, R433 to R436, R451, R452, R504), and the regions and blocks they belong to. -/

namespace Sys2Proof.Machine

open Sys2Proof

/-! ## Regions and blocks -/

/-- The region of a block of R434. -/
def blockRegion (b : Nat) : Nat :=
  if b = 0 then 0 else if b ≤ 5 then 1 else if b ≤ 7 then 2 else if b ≤ 25 then 3
  else if b ≤ 30 then 4 else if b ≤ 33 then 5 else 6

/-- The lowest-numbered block of a region. -/
def firstBlock (r : Nat) : Nat :=
  match r with
  | 0 => 0 | 1 => 1 | 2 => 6 | 3 => 8 | 4 => 26 | 5 => 31 | _ => 34

/-- The region that owns a register address (R27); none outside every window. -/
def regionOf (a : Nat) : Option Nat :=
  if a < 0x10000 then some 0
  else if 0x100000 ≤ a ∧ a < 0x200000 then some 0
  else if 0x1000000 ≤ a ∧ a < 0x1200000 then some 1
  else if 0x1200000 ≤ a ∧ a < 0x1300000 then some 2
  else if 0x2000000 ≤ a ∧ a < 0x2100000 then some 3
  else if 0x2400000 ≤ a ∧ a < 0x2500000 then some 3
  else if 0x2800000 ≤ a ∧ a < 0x2900000 then some 3
  else if 0x3000000 ≤ a ∧ a < 0x3020000 then some 4
  else if 0x3100000 ≤ a ∧ a < 0x3200000 then some 4
  else if 0x3400000 ≤ a ∧ a < 0x3500000 then some 4
  else if 0x3800000 ≤ a ∧ a < 0x3900000 then some 4
  else if 0x4000000 ≤ a ∧ a < 0x4300000 then some 5
  else if 0x5000000 ≤ a ∧ a < 0x5100000 then some 0
  else if 0x5100000 ≤ a ∧ a < 0x5200000 then some 6
  else if 0x6000000 ≤ a ∧ a < 0x6100000 then some 0
  else none

/-- Whether region r is powered. -/
def State.powered (s : State) (r : Nat) : Bool := bitOf (s.fld Adr.PWR_REGION Fld.PWR_REGION_powered) r

/-- Whether the restart of region r is in progress. -/
def State.restarting (s : State) (r : Nat) : Bool := s.flt.restarting.contains r

/-- The FLT block and the PAT block keep running through a restart (R439). -/
def survivesRestart (a : Nat) : Bool := decide (0x5000000 ≤ a ∧ a < 0x5200000)

/-- The block an event arises in when its raiser names none (R32 to R34, R434). -/
def eventBlock (id : Nat) : Nat :=
  if 0x100 ≤ id ∧ id < 0x300 then 1 + (id - 0x100) / 0x80
  else if 0x300 ≤ id ∧ id < 0x340 then 5
  else if 0x345 ≤ id ∧ id ≤ 0x346 then 7
  else if 0x340 ≤ id ∧ id < 0x380 then 6
  else if 0x380 ≤ id ∧ id < 0x400 then 1
  else if 0x400 ≤ id ∧ id < 0x420 then 8
  else if 0x420 ≤ id ∧ id < 0x440 then 25
  else if 0x440 ≤ id ∧ id < 0x600 then 24
  else if 0x600 ≤ id ∧ id < 0x6C0 then 29
  else if 0x6C0 ≤ id ∧ id < 0x780 then 31
  else if 0x788 ≤ id ∧ id ≤ 0x789 then 34
  else 0

/-! ## Cells of the pool (R344, R345) -/

/-- The reserve of a queue in cells (R344). -/
def queueReserve (q : Nat) : Nat :=
  if 6150 ≤ q then 0
  else match q % 6 with
    | 0 => 16 | 1 => 2 | 2 => 8 | 3 => 16 | 4 => 2 | _ => 64

/-- The limit of a queue in cells (R344, R346). -/
def State.queueLimit (s : State) (q : Nat) : Nat :=
  if 6150 ≤ q then 0
  else match q % 6 with
    | 0 => 64 | 1 => 16 | 2 => 64 | 3 => 64 | 4 => 16 | _ => s.host.share

/-- The queue of a number. -/
def State.queue (s : State) (q : Nat) : Queue := (lookupKey s.host.queues q).getD {}

/-- Cells of a queue, linked or in open packets. -/
def Queue.cells (k : Queue) : Nat := k.packets.foldl (fun n p => n + p.cells) k.openCells

/-- Free cells of the shared part (R345). -/
def State.sharedFree (s : State) : Nat :=
  81812 - s.host.queues.foldl (fun n p => n + (p.2.cells - queueReserve p.1)) 0

/-- A queue is full (R345). -/
def State.queueFull (s : State) (q : Nat) : Bool :=
  let n := (s.queue q).cells
  decide (s.queueLimit q ≤ n) || (decide (queueReserve q < n) && s.sharedFree == 0)

/-! ## Registers whose value is computed -/

/-- The value of a NOR counter (R478). -/
def State.counter (s : State) (c : Nat) : Nat := s.nor.counters.toList.getD c 0

/-- Add 1 to a NOR counter; the record in NOR follows by its own step (R478). -/
def State.bump (s : State) (c : Nat) : State :=
  if h : c < 9 then { s with nor := { s.nor with counters := s.nor.counters.set c (s.nor.counters[c] + 1) } } else s

/-- The RTC now, in 1/32,768 s (R463). -/
def State.rtc (s : State) : Nat := (s.pln.rtcBase + (s.now - s.pln.rtcAt) * 32768 / 1000000000) % 2 ^ 64

/-- Whole milliseconds of a span in ns, rounded up. -/
def msUp (ns : Nat) : Nat := (ns + 999999) / 1000000

/-- Bits of the functions that are not running. -/
def State.notRunning (s : State) : Nat :=
  (List.range 15).foldl
    (fun acc k => if s.fld (Adr.FUNC_CTRL k) Fld.FUNC_CTRL_state = 0 then acc else acc + 2 ^ k) 0

/-- The milliseconds since function k left the running state, saturating; 0 while it runs. -/
def State.stopTime (s : State) (k : Nat) : Nat :=
  if s.fld (Adr.FUNC_CTRL k) Fld.FUNC_CTRL_state = 0 then 0
  else min ((s.now - (s.funcs.toList.getD k {}).since) / 1000000) 65535

/-- The function a register configures, with the indices of its address (R35); none for a register of no function. -/
def rowFunc (r : RegRow) (ix : List Nat) : Option Nat :=
  match r.func with
  | .none => none
  | .format => some (ix.getD 0 0 % 4)
  | .servo => some (4 + ix.getD 0 0 % 4)
  | .port => some (12 + ix.getD 0 0 % 2)
  | .fixed k => some k

/-- The function of an address. -/
def funcOf (a : Nat) : Option Nat := (rowAt a).bind (fun p => rowFunc p.1 p.2)

/-- What a function holds beside its control word. -/
def State.func (s : State) (k : Nat) : FuncAux := s.funcs.toList.getD k {}

/-- The shadow value of a configuration register of function k (R34). -/
def State.shadow (s : State) (k a : Nat) : Word := ((s.func k).shadow.find a).getD (s.reg a)

/-- An L2 attribute entry: base and size in MiB, and its flags. -/
structure L2Entry where
  base : Nat
  size : Nat
  en : Bool
  lock : Bool
  pf : Bool
  policy : Nat
deriving DecidableEq, Repr

/-- Entry i of a set of L2 attributes. -/
def l2Entry (rd : Nat → Word) (i : Nat) : L2Entry :=
  { base := getBits (rd (Adr.L2C_ATTR0 i)) Fld.L2C_ATTR0_base_mib, size := getBits (rd (Adr.L2C_ATTR0 i)) Fld.L2C_ATTR0_size_mib
    en := getBits (rd (Adr.L2C_ATTR1 i)) Fld.L2C_ATTR1_en == 1, lock := getBits (rd (Adr.L2C_ATTR1 i)) Fld.L2C_ATTR1_lock == 1
    pf := getBits (rd (Adr.L2C_ATTR1 i)) Fld.L2C_ATTR1_pf == 1, policy := getBits (rd (Adr.L2C_ATTR1 i)) Fld.L2C_ATTR1_policy }

/-- The ways locked under a set of L2 attributes: the pinned area's, and each enabled locked entry's (R418). -/
def lockedWays (rd : Nat → Word) : Nat :=
  ((List.range 64).map (l2Entry rd)).foldl (fun n e => if e.en && e.lock then n + e.size else n) (getBits (rd Adr.L2C_PIN) Fld.L2C_PIN_pin_ways)

/-- The highest spindle speed (R193). -/
def State.spdMax (s : State) : Nat := s.fld Adr.SPN_SPDLIM Fld.SPN_SPDLIM_spd_max

/-- The speed reference: at least 5,400 rpm and at most spd_max (R192, R193). -/
def State.spdRef (s : State) : Nat := min (max (s.fld Adr.SPN_CMD Fld.SPN_CMD_spd_ref) 5400) s.spdMax

/-- The region sensor k lies in (R517). -/
def sensorRegion (k : Nat) : Nat := if k = 7 then 3 else k

/-- What sensor k shows: no reading while its region is unpowered (R517, R520). -/
def State.tempWord (s : State) (k : Nat) : Nat :=
  if s.powered (sensorRegion k) then s.fld (Adr.PIN_TEMPS k) Fld.PIN_TEMPS_temp else 0x8000

/-- PIN_TEMP: the highest reading, of the lowest sensor that has it (R520). -/
def State.hottest (s : State) : Word :=
  let best : Option (Nat × Int) := (List.range 8).foldl (fun (b : Option (Nat × Int)) k =>
    let w := s.tempWord k
    let t := signed 16 w
    if w = 0x8000 then b
    else match b with
      | some (_, u) => if u < t then some (k, t) else b
      | none => some (k, t)) none
  match best with
  | some (k, t) => setBits (setBits 0 Fld.PIN_TEMP_sensor k) Fld.PIN_TEMP_temp (unsigned 16 t)
  | none => 0x8000

/-- The value a register holds: for the registers that follow other state, that state; for a configuration register of a function that
is not running, its shadow value (R34); for the rest, the stored word. -/
def State.readReg (s : State) (a : Nat) : Word :=
  let meter := Config.meter a s.fresh s.now
  match rowAt a with
  | none => 0
  | some (r, ix) =>
    let i := ix.getD 0 0
    match r.name with
    | "FUNC_SUMMARY" => setBits 0 Fld.FUNC_SUMMARY_not_running s.notRunning
    | "FUNC_STOPTIME" =>
      setBits (s.reg a) Fld.FUNC_STOPTIME_elapsed_ms (s.stopTime (s.fld a Fld.FUNC_STOPTIME_func))
    | "SPN_CMD" => setBits (s.reg a) Fld.SPN_CMD_spd_ref s.spdRef
    | "TMB_NS_LO" => BitVec.ofNat 32 (s.time.tb / 65536)
    | "TMB_NS_HI" => BitVec.ofNat 32 (s.time.tb / 65536 / 2 ^ 32)
    | "TMB_FRAC" => BitVec.ofNat 32 (s.time.tb % 65536)
    | "PLN_RTC_LO" => BitVec.ofNat 32 s.rtc
    | "PLN_RTC_HI" => BitVec.ofNat 32 (s.rtc / 2 ^ 32)
    | "PLN_CNT_LO" => BitVec.ofNat 32 (s.counter i)
    | "PLN_CNT_HI" => BitVec.ofNat 32 (s.counter i / 2 ^ 32)
    | "FLT_RECOV_COUNT" => BitVec.ofNat 32 (s.counter 7)
    | "PAT_CTRL" => BitVec.ofNat 32 (b2n s.nor.patLocked)
    | "PAT_COUNT" => BitVec.ofNat 32 s.nor.patCount
    | "PIN_AVS" => BitVec.ofNat 32 ((Clamp.within 720 800).apply Config.avs)
    | "PIN_TEMP" => s.hottest
    | "PIN_TEMPS" => BitVec.ofNat 32 (s.tempWord i)
    | "FLT_ESC" =>
      match lookupKey s.flt.escAt i with
      | some t => setBits (s.reg a) Fld.FLT_ESC_left_ms (msUp (t - s.now))
      | none => s.reg a
    | "FLT_STATE" =>
      setBits (s.reg a) Fld.FLT_STATE_recov_24h (min 3 (s.flt.recoveries.filter (fun t => decide (s.now < t + 86400000000000))).length)
    | "FLT_QUIET" =>
      if s.fld Adr.FLT_STATE Fld.FLT_STATE_fault_state ≥ 2 ∧ s.flt.restarting = [] then
        BitVec.ofNat 32 ((s.flt.quietFrom + s.fld Adr.FLT_CTRL Fld.FLT_CTRL_quiet_s * 1000000000 - s.now
          + 99999999) / 100000000)
      else 0
    | "MDI_OPEN" => setBits (s.reg a) Fld.MDI_OPEN_open s.media.courses.length
    | "MDI_TSTAT" =>
      let oldest := match s.media.trailing with | t :: _ => min ((s.now - t.since) / 1000000000) 65535 | [] => 0
      setBits (setBits 0 Fld.MDI_TSTAT_trailing (min s.media.trailing.length 65535)) Fld.MDI_TSTAT_oldest_s oldest
    | "MDI_SURF" =>
      let st := s.fld a Fld.MDI_SURF_act_state
      let held := s.fld (Adr.FUNC_CTRL (i % 4)) Fld.FUNC_CTRL_state != 0 || s.fld (Adr.FUNC_CTRL (4 + i % 4)) Fld.FUNC_CTRL_state != 0
        || s.fld Adr.TMB_PLSTAT Fld.TMB_PLSTAT_state == 2 || s.restarting 1
      setBits (s.reg a) Fld.MDI_SURF_act_state (if st = 0 ∧ held then 1 else st)
    | "PAT_STATUS" =>
      setBits (setBits (s.reg a) Fld.PAT_STATUS_entries s.pat.store.length) Fld.PAT_STATUS_jlag (min s.pat.unjournalled.length 64)
    | "PAT_LOST" => setBits 0 Fld.PAT_LOST_lost (min s.nor.patLost 64)
    | "TMB_LAUNCH" =>
      setBits (s.reg a) Fld.TMB_LAUNCH_pending
        (s.host.ctxs.filter (fun x => match x.wait with | .launch _ _ => true | _ => false)).length
    | "HIF_STATUS" =>
      setBits (setBits 0 Fld.HIF_STATUS_ctx_used s.host.ctxs.length) Fld.HIF_STATUS_assoc s.host.assocs.length
    | "HIF_ASTAT" =>
      match lookupKey s.host.assocs i with
      | some x =>
        let w := setBits (setBits 0 Fld.HIF_ASTAT_conn 1) Fld.HIF_ASTAT_auth
          (b2n (if i = 1024 then s.flag Adr.OWN_CFG Fld.OWN_CFG_pcie_auth else x.auth))
        setBits (setBits (setBits w Fld.HIF_ASTAT_port x.port) Fld.HIF_ASTAT_class ((lookupKey x.classes 1).getD 2)) Fld.HIF_ASTAT_ctx
          (s.host.ctxs.filter (fun c => c.assoc == i)).length
      | none => 0
    | "OWN_LEASE" =>
      setBits (s.reg a) Fld.OWN_LEASE_left_ds
        (if s.fld Adr.OWN_STATUS Fld.OWN_STATUS_state = 0 then 0 else min ((s.own.endsAt - s.now + 99999999) / 100000000) 65535)
    | "CPL_STATUS" => setBits 0 Fld.CPL_STATUS_free s.sharedFree
    | "CPL_QSTAT" =>
      let q := (lookupKey s.host.queues i).getD {}
      setBits (setBits (setBits 0 Fld.CPL_QSTAT_cells q.cells) Fld.CPL_QSTAT_overrun (b2n q.overrun)) Fld.CPL_QSTAT_full (b2n (s.queueFull i))
    | "CST_PROF_LO" => BitVec.ofNat 32 (s.cast.profiles.foldl (fun n p => n + 2 ^ p.1) 0)
    | "CST_PROF_HI" => BitVec.ofNat 32 (s.cast.profiles.foldl (fun n p => n + 2 ^ p.1) 0 / 2 ^ 32)
    | "CST_BSTAT" =>
      let eng := fun (e : Nat) => if s.cast.failedEngines.contains e then 2 else if s.cast.reserves.contains e then 1 else 0
      let busy := (List.range 8).foldl (fun n e => if (lookupKey s.cast.runs (8 * i + e)).isSome then n + 2 ^ e else n) 0
      setBits (setBits 0 Fld.CST_BSTAT_busy busy) Fld.CST_BSTAT_eng_state
        ((List.range 8).foldl (fun n e => n + eng (8 * i + e) * 4 ^ e) 0)
    | "CST_STATUS" =>
      let f := s.cast.failedEngines.length
      let r := s.cast.reserves.length
      setBits (setBits (setBits 0 Fld.CST_STATUS_failed f) Fld.CST_STATUS_reserve r) Fld.CST_STATUS_scheduled (128 - f - r)
    | "CST_QUEUE" =>
      let w := s.cast.jobs.foldl (fun n j => n + (if j.dispatched then (j.pours.filter (fun p => !p.running && !p.done)).length else 1)) 0
      let st := s.cast.jobs.foldl (fun n j => if j.dispatched then n else
        match lookupKey s.cast.profiles (j.cmd.cdw10.toNat / 65536 % 64) with
        | some p => if bitOf (leAt p 3 1) 0 then n + 1 else n
        | none => n) 0
      setBits (setBits 0 Fld.CST_QUEUE_waiting (min w 65535)) Fld.CST_QUEUE_stage_wait (min st 65535)
    | "CST_STAGE" =>
      setBits (s.reg a) Fld.CST_STAGE_used_mib
        (((s.cast.jobs.foldl (fun n j => n + j.staging) 0) + 15) / 16 + s.cast.claim.getD 0)
    | "CST_KEYSTAT" =>
      let gone := s.nor.keys.filter (fun p => p.2.expiry != 0 && decide (p.2.expiry ≤ s.time.tb / 65536))
      setBits (setBits 0 Fld.CST_KEYSTAT_expired gone.length) Fld.CST_KEYSTAT_valid (s.nor.keys.length - gone.length)
    | "MVR_LOADED" =>
      BitVec.ofNat 32 (s.cast.recipes.foldl (fun n r => if r.id / 32 = i then n + 2 ^ (r.id % 32) else n) (if i = 0 then 1 else 0))
    | "MVR_PINNED" =>
      BitVec.ofNat 32 (s.cast.recipes.foldl (fun n r => if r.id / 32 = i && r.pin then n + 2 ^ (r.id % 32) else n) 0)
    | "MVR_CHSTAT" =>
      match lookupKey s.cast.runs i with
      | some r =>
        let j := s.cast.jobs.find? (fun j => j.assoc == r.assoc && j.qid == r.qid && j.cid == r.cid)
        let id := match j with | some j => (match j.recipe with | some x => x.id | none => 0) | none => 0
        setBits (setBits (setBits (setBits 0 Fld.MVR_CHSTAT_state r.state) Fld.MVR_CHSTAT_recipe id) Fld.MVR_CHSTAT_pc r.pc)
          Fld.MVR_CHSTAT_depth r.loops.length
      | none => 0
    | "MVR_CHOC" => match lookupKey s.cast.runs i with | some r => BitVec.ofNat 32 r.oc | none => 0
    | "MVR_CHSN" => match lookupKey s.cast.runs i with | some r => BitVec.ofNat 32 r.sn | none => 0
    | "MVR_CHEV" =>
      match lookupKey s.cast.runs i with
      | some r =>
        match s.cast.jobs.find? (fun j => j.assoc == r.assoc && j.qid == r.qid && j.cid == r.cid) with
        | some j => setBits 0 Fld.MVR_CHEV_evf j.evf
        | none => 0
      | none => 0
    | "PWR_REGION" =>
      if s.fld Adr.PWR_STATE Fld.PWR_STATE_ps ≤ 1 then
        setBits (s.reg a) Fld.PWR_REGION_gated (s.fld a Fld.PWR_REGION_powered &&& meter.toNat)
      else s.reg a
    | "MEM_BW" => meter
    | "L2C_STATUS" =>
      let w := setBits (s.reg a) Fld.L2C_STATUS_locked_ways (lockedWays s.reg)
      if s.fld (Adr.FUNC_CTRL 14) Fld.FUNC_CTRL_state = 3 then setBits w Fld.L2C_STATUS_preload (meter.toNat % 2) else w
    | "L2C_HIT" => BitVec.ofNat 32 (min ((s.reg a).toNat + meter.toNat) (2 ^ 32 - 1))
    | "L2C_MISS" => BitVec.ofNat 32 (min ((s.reg a).toNat + meter.toNat) (2 ^ 32 - 1))
    | "L2C_PF" =>
      let more (f : Fld) : Nat := min (s.fld a f + getBits meter f) (2 ^ 16 - 1)
      setBits (setBits 0 Fld.L2C_PF_pf_used (more Fld.L2C_PF_pf_used)) Fld.L2C_PF_pf_issued (more Fld.L2C_PF_pf_issued)
    | "CMP_STATUS" =>
      setBits (s.reg a) Fld.CMP_STATUS_busy (s.cmp.foldl (fun n j => match j.unit with | some u => n ||| 2 ^ u | none => n) 0)
    | _ =>
      match rowFunc r ix with
      | some k => if s.fld (Adr.FUNC_CTRL k) Fld.FUNC_CTRL_state = 0 then s.reg a else s.shadow k a
      | none => s.reg a

/-! ## Capture -/

/-- The class number of R453. -/
def EvClass.num (c : EvClass) : Nat :=
  match c with
  | .corrected => 0
  | .uncorrected => 1
  | .fatal => 2

/-- The upper words a read of a low word latches (R11). Words 3 to 6 of an interface, the 128 bits of ip6, are not among them: each is
read live, since R361 names no latch for them (log entry 122). -/
def upperWords (a : Nat) : List Nat :=
  match rowAt a with
  | none => []
  | some (r, _) =>
    if r.name = "TMB_NS_LO" then [Adr.TMB_NS_HI, Adr.TMB_FRAC]
    else if ["TMB_PLAN_T0_LO", "CST_PROF_LO", "NET_MAC_LO", "ECC_UE_LO", "ECC_INJADDR_LO", "PLN_RTC_LO", "PLN_WALM_LO", "TMB_ALM_LO",
        "PLN_CNT_LO"].contains r.name then [a + 4]
    else []

/-- Whether an address is an upper word, read through a latch (R11). -/
def isUpper (a : Nat) : Bool :=
  match rowAt a with
  | none => false
  | some (r, _) =>
    ["TMB_NS_HI", "TMB_FRAC", "TMB_PLAN_T0_HI", "CST_PROF_HI", "NET_MAC_HI", "ECC_UE_HI", "ECC_INJADDR_HI", "PLN_RTC_HI",
      "PLN_WALM_HI", "TMB_ALM_HI", "PLN_CNT_HI"].contains r.name

/-- One read on a path whose latch is l: the value, and the latch after it (R11). -/
def State.latchRead (s : State) (l : RegFile) (a : Nat) : Word × RegFile :=
  if isUpper a then ((l.find a).getD 0, l)
  else (s.readReg a, (upperWords a).foldl (fun (f : RegFile) u => f.put u (s.readReg u)) l)

/-- One read of the snapshot engine: it waits for no region and clears nothing (R452). -/
def State.snapRead (s : State) (l : RegFile) (a : Nat) : Word × RegFile :=
  match regionOf a with
  | some r => if s.powered r && (!s.restarting r || survivesRestart a) then s.latchRead l a else (0, l)
  | none => (0, l)

/-- The words of snapshot list l, and the engine's latch after them (R452, R461). -/
def State.snapshot (s : State) (l : Nat) : List Word × RegFile :=
  (List.range (s.fld (Adr.PAT_LISTN l) Fld.PAT_LISTN_n)).foldl (fun (p : List Word × RegFile) i =>
    let v := s.snapRead p.2 (s.reg (Adr.PAT_LISTA l i)).toNat
    (p.1 ++ [v.1], v.2)) ([], s.latches.snapshot)

/-- The entry an event makes when its trigger is enabled, and the latch its snapshot leaves (R451, R453). -/
def State.capture (s : State) (id : Nat) (c : EvClass) (detail detail64 flags : Nat) : PatEntry × RegFile :=
  let t := Adr.PAT_TRIG id
  let snap := s.flag t Fld.PAT_TRIG_snap
  let l := s.fld t Fld.PAT_TRIG_list
  let w := if snap then s.snapshot l else ([], s.latches.snapshot)
  ({ record := 0
     ns := s.time.tb / 65536
     frac := s.time.tb % 65536
     event := id
     severity := s.fld t Fld.PAT_TRIG_severity
     cls := c.num
     list := if snap then l else 0xFF
     snap := w.1
     flags := flags + (if s.fld Adr.FLT_STATE Fld.FLT_STATE_fault_state ≥ 2 then 2 else 0)
     detail := detail
     detail64 := detail64
     powerOn := s.counter 1 }, w.2)

/-- Count an entry dropped. -/
def State.patDrop (s : State) : State := s.countFld Adr.PAT_DROP Fld.PAT_DROP_dropped

/-- The 256 bytes of an entry (R453). -/
def PatEntry.bytes (e : PatEntry) : List Byte :=
  let p := layFields (List.replicate 256 0)
    ([(0, 4, e.record), (4, 8, e.ns), (12, 2, e.frac), (14, 2, e.event), (16, 1, e.severity), (17, 1, e.cls), (18, 1, e.list),
      (19, 1, e.snap.length), (20, 4, e.flags), (24, 4, e.detail), (28, 8, e.detail64), (36, 4, e.powerOn)]
      ++ e.snap.zipIdx.map (fun w => (64 + 4 * w.2, 4, w.1.toNat)))
  patchBytes p 60 (leBytes 4 (crc32c (p.take 60 ++ p.drop 64)).toNat)

/-- The frame of an entry: K28.5, its bytes, K28.1 (R504). -/
def PatEntry.frame (e : PatEntry) : List Symbol :=
  ⟨true, 0xBC⟩ :: (e.bytes.map (fun b => ⟨false, b⟩) ++ [⟨true, 0x3C⟩])

/-- The trace output sends an entry: a frame takes 6,450 ns, and one that cannot start within 10 µs is not sent (R504). An entry has no
record number until it takes a place (R454), so its frame carries 0 there (log entry 153). -/
def Trace.send (t : Trace) (now : Nat) (e : PatEntry) : Trace :=
  let start := max now t.busyTo
  if now + 10000 < start then t else { frames := t.frames ++ [e.frame], busyTo := start + 6450 }

/-- The queue with one more entry: entries of one clock stand in the order of their event IDs (R451). -/
def Patina.put (p : Patina) (now : Nat) (e : PatEntry) : Patina :=
  let n := if p.clockAt = now then p.inClock else 0
  let old := p.queue.take (p.queue.length - n)
  let new := p.queue.drop (p.queue.length - n)
  { p with
    queue := old ++ new.filter (fun x => decide (x.event ≤ e.event)) ++ e :: new.filter (fun x => decide (e.event < x.event))
    clockAt := now
    inClock := n + 1 }

/-- Capture to the 64 entry queue, dropping when it is full; an accepted entry is sent as one trace frame while the trace
output holds its balls and is enabled (R451, R504). -/
def State.patCapture (s : State) (e : PatEntry) : State :=
  if s.pat.queue.length < 64 then
    let s1 := { s with pat := s.pat.put s.now e }
    if s.flag Adr.DBG_TRC Fld.DBG_TRC_held && s.flag Adr.DBG_TRC Fld.DBG_TRC_en then
      { s1 with trace := s.trace.send s.now e }
    else s1
  else s.patDrop

/-! ## Collectors and escalation -/

/-- Name an event in one collector as the one latched (R18). -/
def State.nameEvent (s : State) (a : Nat) (id : Nat) (c : EvClass) : State :=
  (s.setFld a Fld.FLT_CHIP_class c.num).setFld a Fld.FLT_CHIP_event id

/-- Latch an event in one collector, or set its overflow bit; of two events of one clock the lower ID is the one latched (R18; the clock
of two commands is one when the running time is: log entry 123). -/
def State.collect (s : State) (a : Nat) (id : Nat) (c : EvClass) : State :=
  if s.flag a Fld.FLT_CHIP_latched then
    let s1 := s.setFlag a Fld.FLT_CHIP_overflow true
    if lookupKey s.flt.latchAt a = some s.now ∧ id < s.fld a Fld.FLT_CHIP_event then s1.nameEvent a id c else s1
  else
    { (s.setFlag a Fld.FLT_CHIP_latched true).nameEvent a id c with flt := { s.flt with latchAt := insertKey s.flt.latchAt a s.now } }

/-- The event enters the collectors of block b, of its region and of the chip (R434). -/
def State.latchEvent (s : State) (b id : Nat) (c : EvClass) : State :=
  ((s.collect (Adr.FLT_BLK b) id c).collect (Adr.FLT_REG (blockRegion b)) id c).collect Adr.FLT_CHIP id c

/-- Start the escalation timer of region r, or raise the pending action of a running one (R436); while firmware handles the event the
ECC logic is in recovery mode (R420). -/
def State.escalate (s : State) (r : Nat) (c : EvClass) : State :=
  let e := Adr.FLT_ESC r
  if s.flag e Fld.FLT_ESC_running then
    if c = .fatal then s.setFld e Fld.FLT_ESC_pending 2 else s
  else
    let s1 := (s.setFlag e Fld.FLT_ESC_running true).setFld e Fld.FLT_ESC_pending (if c = .fatal then 2 else 1)
    let s2 := { s1 with flt := { s1.flt with
      escAt := insertKey s1.flt.escAt r (s.now + s.fld Adr.FLT_CTRL Fld.FLT_CTRL_esc_ms * 1000000) } }
    let s3 := if s.fld Adr.FLT_STATE Fld.FLT_STATE_fault_state = 0 then s2.setFld Adr.FLT_STATE Fld.FLT_STATE_fault_state 1 else s2
    if s.fld Adr.ECC_MODE Fld.ECC_MODE_mode = 0 then s3.setFld Adr.ECC_MODE Fld.ECC_MODE_mode 3 else s3

/-- Count an event by its class, since reset and since manufacture, and offer it to the patina (R396, R433, R451). -/
def State.noteEvent (s : State) (id : Nat) (c : EvClass) (detail detail64 flags : Nat) : State :=
  let f := match c with | .corrected => Fld.FLT_CNT_corr | .uncorrected => Fld.FLT_CNT_uncorr | .fatal => Fld.FLT_CNT_fatal
  let s0 := s.countFld Adr.FLT_CNT f
  let s1 := { s0 with nor := match c with
    | .corrected => { s0.nor with corrTotal := s0.nor.corrTotal + 1 }
    | .uncorrected => { s0.nor with uncorrTotal := s0.nor.uncorrTotal + 1 }
    | .fatal => { s0.nor with fatalTotal := s0.nor.fatalTotal + 1 } }
  if s.flag (Adr.PAT_TRIG id) Fld.PAT_TRIG_en then
    let e := s.capture id c detail detail64 flags
    ({ s1 with latches := { s1.latches with snapshot := e.2 } }).patCapture e.1
  else s1

/-- Record an event that arises in block b, without starting a timer. -/
def State.eventAt (s : State) (b id : Nat) (detail detail64 : Nat) : State :=
  match eventClass id with
  | none => s
  | some .corrected => s.noteEvent id .corrected detail detail64 0
  | some c =>
    let s1 := (s.noteEvent id c detail detail64 0).latchEvent b id c
    { s1 with flt := { s1.flt with quietFrom := s.now } }

/-- Record an event that arises in block b: an event that is not corrected enters the collectors and starts or raises the
escalation timer of its region (R433 to R436). -/
def State.eventIn (s : State) (b id : Nat) (detail : Nat := 0) (detail64 : Nat := 0) : State :=
  let s1 := s.eventAt b id detail detail64
  match eventClass id with
  | some .uncorrected => s1.escalate (blockRegion b) .uncorrected
  | some .fatal => s1.escalate (blockRegion b) .fatal
  | _ => s1

/-- Record an event in the block its ID names. -/
def State.event (s : State) (id : Nat) (detail : Nat := 0) (detail64 : Nat := 0) : State :=
  s.eventIn (eventBlock id) id detail detail64

/-- Record actuator a's event at an offset of R33. -/
def State.actEvent (s : State) (a off : Nat) (detail : Nat := 0) (detail64 : Nat := 0) : State :=
  s.eventIn (1 + a) (actEventBase a + off) detail detail64

/-! ## Who may write a register (R30, R31) -/

/-- Whether an association is the owner (R353). -/
def State.isOwner (s : State) (a : Nat) : Bool :=
  s.fld Adr.OWN_STATUS Fld.OWN_STATUS_state == 1 && s.fld Adr.OWN_STATUS Fld.OWN_STATUS_owner == a

/-- The path of an association's register accesses: BAR0 for the PCIe association, register commands for every other (R11, R29). -/
def pathOf (assoc : Nat) : Path := if assoc = 1024 then .pcie else .regCmd

/-- An access of a path to an address must wait: its region restarts, or an earlier access of the path waits (R29, R31). -/
def State.accessWaits (s : State) (p : Path) (addr : Nat) : Bool :=
  s.heldRegs.any (fun h => h.path == p) ||
    (match regionOf addr with | some r => s.powered r && s.restarting r && !survivesRestart addr | none => false)

/-- A register write that comes from an association: discarded with event 0x640 when it is not the owner; held while its region restarts
or an earlier access of its path waits; ignored with event 0x0E0 in an unpowered region; otherwise its effect f (R29 to R31). -/
def State.ownerReg (s : State) (assoc addr : Nat) (value : Word) (f : State → State) : State :=
  if !s.isOwner assoc then s.event 0x640
  else
    match regionOf addr with
    | none => s
    | some r =>
      if s.accessWaits (pathOf assoc) addr then { s with heldRegs := s.heldRegs ++ [⟨pathOf assoc, assoc, addr, value, true⟩] }
      else if !s.powered r then s.event 0x0E0
      else f s

end Sys2Proof.Machine
end

