-- ==== Sys2Proof/Machine/Code.lean ====
section
/-! DEFINITION. The codes of a recorded sector: its tag, scrambler, low-density parity-check code and course parity (R61, R62, R64, R68,
R69, R84 to R86), and the cells it is recorded as (R60, R66, R88). -/

namespace Sys2Proof.Machine

open Sys2Proof

/-! ## The internal tag (R62) -/

/-- One bit step of CRC-16 with polynomial 0x1021. -/
def crc16Bit (c : BitVec 16) : BitVec 16 := if c.getLsbD 15 then (c <<< 1) ^^^ 0x1021#16 else c <<< 1

/-- One byte step of that CRC-16. -/
def crc16Byte (c : BitVec 16) (b : Byte) : BitVec 16 :=
  let x := c ^^^ (b.setWidth 16 <<< 8)
  crc16Bit (crc16Bit (crc16Bit (crc16Bit (crc16Bit (crc16Bit (crc16Bit (crc16Bit x)))))))

/-- CRC-16 of a tag (R62). -/
def crc16 (l : List Byte) : BitVec 16 := l.foldl crc16Byte 0xFFFF#16

/-- The internal tag of a sector (R62). -/
def tagBytes (seed wsn kind index : Nat) : List Byte :=
  let h := beBytes 6 seed ++ beBytes 6 wsn ++ [BitVec.ofNat 8 kind, BitVec.ofNat 8 index]
  h ++ beBytes 2 (crc16 h).toNat

/-- The physical address of a sector position, the lba_seed of a course parity sector (R62). -/
def physOf (surface track sector : Nat) : Nat := surface * 2 ^ 40 + track * 2 ^ 16 + sector

/-- A tag is whole, and its lba_seed and kind are those expected for the location (R62, R86). -/
def tagMatches (seed kind : Nat) (tag : List Byte) : Bool :=
  tag.length == 16 && ofBe (tag.take 6) == seed && ofBe ((tag.drop 12).take 1) == kind
    && ofBe (tag.drop 14) == (crc16 (tag.take 14)).toNat

/-! ## The scrambler (R64) -/

/-- One step of the scrambler register x^31 + x^28 + 1: the output bit and the next register. DESIGN CHOICE (log entry 149): the output
is the feedback bit 30 xor 27, which enters at bit 0 as the register shifts left. -/
def scrambleStep (r : Nat) : Bool × Nat :=
  let b := r.testBit 30 != r.testBit 27
  (b, (2 * r + b2n b) % 2 ^ 31)

/-- n scrambler bits as a number, first bit highest, and the register after them. -/
def scrambleBits (n r acc : Nat) : Nat × Nat :=
  match n with
  | 0 => (acc, r)
  | k + 1 => let p := scrambleStep r; scrambleBits k p.2 (2 * acc + b2n p.1)

/-- A byte string scrambled from a register value. -/
def scrambleFrom (r : Nat) (l : List Byte) : List Byte :=
  match l with
  | [] => []
  | b :: t => let p := scrambleBits 8 r 0; (b ^^^ BitVec.ofNat 8 p.1) :: scrambleFrom p.2 t

/-- User data and metadata scrambled, or descrambled, with the register seeded from lba_seed (R64). -/
def scramble (seed : Nat) (l : List Byte) : List Byte :=
  let r := (seed % 2 ^ 31) ^^^ 0x5A5A5A5A
  scrambleFrom (if r = 0 then 1 else r) l

/-! ## Course parity (R68) -/

/-- Multiply by x in GF(2^8) of R68. -/
def gfX (a : Byte) : Byte := if a.getLsbD 7 then (a <<< 1) ^^^ 0x1D#8 else a <<< 1

/-- Product in GF(2^8) of R68, over the bits of b from bit n - 1 down. -/
def gfMulBits (a b : Byte) (n : Nat) : Byte :=
  match n with
  | 0 => 0
  | k + 1 => gfX (gfMulBits a (b >>> 1) k) ^^^ (if b.getLsbD 0 then a else 0)

/-- Product in GF(2^8) of R68. -/
def gfMul (a b : Byte) : Byte := gfMulBits a b 8

/-- A power in GF(2^8). -/
def gfPow (a : Byte) (n : Nat) : Byte :=
  match n with
  | 0 => 1
  | k + 1 => gfMul a (gfPow a k)

/-- The inverse in GF(2^8) of an element other than 0. -/
def gfInv (a : Byte) : Byte := gfPow a 254

/-- The four parity bytes of one column: the remainder of the 60 data bytes, position 0 first, by
(x + 1)(x + a)(x + a^2)(x + a^3) = x^4 + 0F x^3 + 36 x^2 + 78 x + 40 (R68). -/
def courseParityColumn (col : List Byte) : List Byte :=
  col.foldl (fun p d =>
    match p with
    | [p0, p1, p2, p3] =>
      let f := d ^^^ p0
      [p1 ^^^ gfMul f 0x0F, p2 ^^^ gfMul f 0x36, p3 ^^^ gfMul f 0x78, gfMul f 0x40]
    | q => q) [0, 0, 0, 0]

/-- Byte-wise exclusive OR of two strings. -/
def xorBytes (a b : List Byte) : List Byte := List.zipWith (· ^^^ ·) a b

/-- The root that position p of a column stands at: its byte is the coefficient of x^(63 - p) (R68). -/
def courseLocator (p : Nat) : Byte := gfPow 2 (63 - p)

/-- The value of a column, position 0 first, at α^j. -/
def courseSyndrome (col : List Byte) (j : Nat) : Byte := col.foldl (fun acc c => gfMul acc (gfPow 2 j) ^^^ c) 0

/-- The product of z + x over a list of x, lowest coefficient first. -/
def rootProduct (xs : List Byte) : List Byte :=
  xs.foldl (fun q x => xorBytes (0 :: q) (q.map (gfMul x) ++ [0])) [1]

/-- The byte of position p of a column of 64, of which the positions of l, p among them, are erased and stand as 0: by interpolation over the
syndromes, which the erased bytes alone make (R68). -/
def courseErased (col : List Byte) (l : List Nat) (p : Nat) : Byte :=
  let xs := (l.filter (· != p)).map courseLocator
  let s := (List.range (xs.length + 1)).map (courseSyndrome col)
  let num := (List.zipWith gfMul (rootProduct xs) s).foldl (· ^^^ ·) 0
  gfMul num (gfInv (xs.foldl (fun d x => gfMul d (courseLocator p ^^^ x)) 1))

/-- Column j of a list of fields, field 0 first. -/
def columnOf (fields : List (List Byte)) (j : Nat) : List Byte := fields.map (fun f => f.getD j 0)

/-- The parity field of index k of a course of 60 data fields of n bytes (R68). -/
def courseParityField (fields : List (List Byte)) (n k : Nat) : List Byte :=
  (List.range n).map (fun j => (courseParityColumn (columnOf fields j)).getD k 0)

/-- The field of position p of a course, from its 64 fields of n bytes with the erased positions of l as zeros (R68). -/
def courseRebuild (fields : List (List Byte)) (n : Nat) (l : List Nat) (p : Nat) : List Byte :=
  (List.range n).map (fun j => courseErased (columnOf fields j) l p)

/-! ## The low-density parity-check code (R61, R84, R85) -/

/-- The circulants of column j: their row and shift (R84). -/
def circulants (j : Nat) : List (Nat × Nat) :=
  if j < 87 then [j % 8, (j + 2) % 8, (j + 5) % 8, (j + 7) % 8].map (fun i => (i, (13 * i * j + 7 * j + 29 * i) % 384))
  else if j = 87 then [(0, 1), (3, 0), (7, 1)]
  else [(j - 88, 0), (j - 87, 0)]

/-- P^s times a column of 384 bits, bit x of it at weight 2^(383 - x): row x takes bit (x + s) mod 384 (R84). -/
def circulate (s x : Nat) : Nat := (x * 2 ^ s) % 2 ^ 384 + x / 2 ^ (384 - s)

/-- Circulant column j of a codeword as a number, codeword bit 0 highest of 36,480 bits (R85). -/
def codeColumn (w j : Nat) : Nat := w / 2 ^ (384 * (94 - j)) % 2 ^ 384

/-- Row i of the array times the first n columns of a codeword. -/
def codeRow (w n i : Nat) : Nat :=
  (List.range n).foldl (fun acc j => (circulants j).foldl (fun acc p => if p.1 = i then acc ^^^ circulate p.2 (codeColumn w j) else acc) acc) 0

/-- The syndrome H × c is zero (R84, R86). -/
def codeOk (w : Nat) : Bool := (List.range 8).all (fun i => codeRow w 95 i == 0)

/-- The parity columns 88 on that follow column 87 row by row, from row i and the column before (R84). -/
def parityChain (w c87 before : Nat) (rows : List Nat) : List Nat :=
  match rows with
  | [] => []
  | i :: r =>
    let c := codeRow w 87 i ^^^ (if i = 0 then circulate 1 c87 else if i = 3 then c87 else 0) ^^^ before
    c :: parityChain w c87 c r

/-- The 3,072 parity bits of a number of information bits (R84): column 87 is the sum over all rows. -/
def codeParity (info : Nat) : Nat :=
  let w := info * 2 ^ 3072
  let c87 := (List.range 8).foldl (fun acc i => acc ^^^ codeRow w 87 i) 0
  (c87 :: parityChain w c87 0 (List.range 7)).foldl (fun acc c => acc * 2 ^ 384 + c) 0

/-- The recorded codeword: its field and tag, whose bits are the information bits after the zeros that are not recorded, and the 384 parity
bytes (R60, R61, R85). -/
def codeword (field tag : List Byte) : List Byte :=
  let d := field ++ tag
  d ++ beBytes 384 (codeParity (ofBe d))

/-- What the decoder makes of a codeword of n recorded bits with decision errors at some of its codeword bit numbers (R85). -/
def decided (rec : List Byte) (errors : List Nat) : Nat :=
  errors.foldl (fun w b => if b < 36480 ∧ 36480 ≤ b + 8 * rec.length then w ^^^ 2 ^ (36479 - b) else w) (ofBe rec)

/-! ## The cells of a sector (R60, R66, R88) -/

/-- A number's n bits, highest first. -/
def bitsHigh (n v : Nat) : List Bool := (List.range n).map (fun k => v.testBit (n - 1 - k))

/-- The pattern 0b1100 repeated. -/
def preamblePattern (n : Nat) : List Bool := (List.replicate n [true, true, false, false]).flatten

/-- The sector sync mark (R60). -/
def sectorMark : List Bool := bitsHigh 32 0x8F5C3A69

/-- The resync mark: the complement of the sector sync mark (R65). -/
def resyncMark : List Bool := bitsHigh 32 0x70A3C596

/-- The cells written of a sector: preamble, sync mark, codeword and postamble; the 64 cells of the gap are not written (R60). -/
def sectorPattern (rec : List Byte) : List Bool :=
  preamblePattern 24 ++ sectorMark ++ rec.flatMap (fun b => bitsHigh 8 b.toNat) ++ preamblePattern 8

/-- The resync field that opens part 2 (R65). -/
def resyncField : List Bool := preamblePattern 16 ++ resyncMark

/-- The cells written of one part of a sector whose part 1, or the whole of it, is n cells long (R60, R65). -/
def partPattern (rec : List Byte) (part n : Nat) : List Bool :=
  if part = 1 then resyncField ++ (sectorPattern rec).drop n else (sectorPattern rec).take n

/-- Cell k of a string of written levels holds a transition: its level differs from that of the cell before, the first cell's from low. -/
def hasTransition (cells : List Bool) (k : Nat) : Bool :=
  cells.getD k false != (if k = 0 then false else cells.getD (k - 1) false)

/-- The delay of a transition at cell k in 1/64 cell: pc1 after a transition one cell before, pc2 more after one two cells before, 24 at most
(R88). -/
def precomp (pc1 pc2 : Nat) (cells : List Bool) (k : Nat) : Nat :=
  let one := 1 ≤ k ∧ hasTransition cells (k - 1)
  let two := 2 ≤ k ∧ hasTransition cells (k - 2)
  min 24 ((if one then pc1 else 0) + (if two then pc2 else 0))

/-- The written transitions of a string of cells: cell and delay (R88). -/
def transitions (pc1 pc2 : Nat) (cells : List Bool) : List (Nat × Nat) :=
  ((List.range cells.length).filter (hasTransition cells)).map (fun k => (k, precomp pc1 pc2 cells k))

/-- The first place in a window where a mark matches with at most n cells in error (R94, R101). -/
def markIn (mark window : List Bool) (n : Nat) : Option Nat :=
  firstFrom 0 (window.length + 1 - mark.length) (fun k =>
    decide ((((window.drop k).zip mark).filter (fun p => p.1 != p.2)).length ≤ n))

end Sys2Proof.Machine
end

