-- ==== Sys2Proof/Machine/Layout.lean ====
section
/-! DEFINITION. The recorded format (02_media_layout.md): codes of rafters and sectors, zones and their checks, placement of
sectors, trusses, and the location of a media address. -/

namespace Sys2Proof.Machine

open Sys2Proof

/-! ## Access to a slice -/

/-- The slice of actuator a. -/
def State.act (s : State) (a : Fin 4) : Act := s.acts[a]

/-- Replace the slice of actuator a. -/
def State.setAct (s : State) (a : Fin 4) (x : Act) : State := { s with acts := s.acts.set a x }

/-- Change the slice of actuator a. -/
def State.modAct (s : State) (a : Fin 4) (f : Act → Act) : State := s.setAct a (f (s.act a))

/-- Change the servo of actuator a. -/
def State.modServo (s : State) (a : Fin 4) (f : Servo → Servo) : State :=
  s.modAct a (fun x => { x with servo := f x.servo })

/-- Change the demodulator of actuator a. -/
def State.modBatten (s : State) (a : Fin 4) (f : Batten → Batten) : State :=
  s.modAct a (fun x => { x with batten := f x.batten })

/-- Change the sequencers of actuator a. -/
def State.modSeq (s : State) (a : Fin 4) (f : Sequencer → Sequencer) : State :=
  s.modAct a (fun x => { x with seq := f x.seq })

/-- Do something to each actuator in ascending order. -/
def State.forActs (s : State) (f : State → Fin 4 → State) : State := f (f (f (f s 0) 1) 2) 3

/-! ## Codes of the rafters (R54) -/

/-- The Gray code of a track number. -/
def grayOf (t : Nat) : Nat := t ^^^ (t >>> 1)

/-- The binary number of a Gray code of n bits, from bit n - 1 down (R134). -/
def grayDecodeFrom (g : Nat) (n : Nat) (carry : Bool) : Nat :=
  match n with
  | 0 => 0
  | k + 1 =>
    let b := carry != g.testBit k
    b2n b * 2 ^ k + grayDecodeFrom g k b

/-- The track number of a 24 bit Gray code (R134). -/
def grayDecode (g : Nat) : Nat := grayDecodeFrom g 24 false

/-- The value a string of Manchester cell pairs spells; none when a pair is neither 0b10 nor 0b01. -/
def manchester (pairs : List (Bool × Bool)) : Option Nat :=
  pairs.foldl (fun acc p => match acc with
    | some v => if p.1 != p.2 then some (2 * v + b2n p.1) else none
    | none => none) (some 0)

/-- One bit step of CRC-8 with polynomial x^8 + x^2 + x + 1. -/
def crc8Bit (c : Byte) : Byte := if c.getLsbD 7 then (c <<< 1) ^^^ 0x07#8 else c <<< 1

/-- One byte step of that CRC-8. -/
def crc8Byte (c b : Byte) : Byte :=
  crc8Bit (crc8Bit (crc8Bit (crc8Bit (crc8Bit (crc8Bit (crc8Bit (crc8Bit (c ^^^ b))))))))

/-- CRC-8 of R54. -/
def crc8 (l : List Byte) : Byte := l.foldl crc8Byte 0

/-- The surface check of a rafter (R54). -/
def surfaceCheck (surface track index : Nat) : Byte :=
  crc8 (BitVec.ofNat 8 surface :: (beBytes 3 track ++ [BitVec.ofNat 8 index]))

/-! ## Zones (R57, R58, R65) -/

/-- The zone entry z of head h of actuator a as a register reader shows it; none when it is not valid. -/
def zoneAt (rd : Nat → Word) (a h z : Nat) : Option Zone :=
  if getBits (rd (Adr.ZT0 a h z)) Fld.ZT0_valid = 0 then none
  else some
    { first := getBits (rd (Adr.ZT0 a h z)) Fld.ZT0_first_track
      count := getBits (rd (Adr.ZT1 a h z)) Fld.ZT1_track_count
      band := getBits (rd (Adr.ZT1 a h z)) Fld.ZT1_band
      cells := getBits (rd (Adr.ZT2 a h z)) Fld.ZT2_cells_per_rev
      m := getBits (rd (Adr.ZT3 a h z)) Fld.ZT3_m
      n := getBits (rd (Adr.ZT3 a h z)) Fld.ZT3_n
      spt := getBits (rd (Adr.ZT4 a h z)) Fld.ZT4_spt
      skew := getBits (rd (Adr.ZT4 a h z)) Fld.ZT4_track_skew
      metaCode := getBits (rd (Adr.ZT4 a h z)) Fld.ZT4_meta_code
      spare := getBits (rd (Adr.ZT5 a h z)) Fld.ZT5_spare_tracks
      nA := getBits (rd (Adr.ZT6 a h z)) Fld.ZT6_n_a
      nB := getBits (rd (Adr.ZT7 a h z)) Fld.ZT7_n_b }

/-- The valid zones of a head, with their numbers. -/
def zonesOf (rd : Nat → Word) (a h : Nat) : List (Nat × Zone) :=
  (List.range 64).filterMap (fun z => (zoneAt rd a h z).map (fun x => (z, x)))

/-- Metadata bytes of a meta_code. -/
def metaBytes (code : Nat) : Nat := if code = 1 then 8 else if code = 2 then 64 else 0

/-- Sector length in data cells (R60). -/
def sectorCells (metaCode : Nat) : Nat := 36192 + 8 * metaBytes metaCode

/-- Where a sector lies: rafter interval from r0, first cell, cells of part 1, and cells of part 2 counted from its resync
field (0 when whole). -/
structure Place where
  interval : Nat
  pos : Nat
  len1 : Nat
  len2 : Nat
deriving DecidableEq, Repr

/-- Placement of sectors from a position on (R65): the places of n sectors and the rafter intervals used. -/
def placeFrom (rc span len : Nat) (n used pos : Nat) : List Place × Nat :=
  match n with
  | 0 => ([], used)
  | k + 1 =>
    let room := span - pos
    let skip := decide (room < len) && decide (room < 4096)
    let used1 := if skip then used + 1 else used
    let pos1 := if skip then rc else pos
    let room1 := if skip then span - rc else room
    if len ≤ room1 then
      let t := placeFrom rc span len k used1 (pos1 + len)
      (⟨used1, pos1, len, 0⟩ :: t.1, t.2)
    else
      let t := placeFrom rc span len k (used1 + 1) (rc + 96 + len - room1)
      (⟨used1, pos1, room1, 96 + len - room1⟩ :: t.1, t.2)

/-- The places of a zone's sectors and the rafter intervals they use (R65). -/
def Zone.places (z : Zone) : List Place × Nat :=
  let rc := z.cells * 7 / 51200
  placeFrom rc (z.cells / 128) (sectorCells z.metaCode) z.spt 0 rc

/-- The fragments of a part of a given length (R66). -/
def fragments (len : Nat) : Nat := (len + 4095) / 4096

/-- The spare tracks check 8 asks for: 4 % of the tracks, rounded up. -/
def spareFloor (count : Nat) : Nat := (count * 4 + 99) / 100

/-- Check 1 of R58 for one head: the first zone that breaks the run of zones. -/
def zoneCheck1 (zs : List (Nat × Zone)) (expect track : Nat) : Option Nat :=
  match zs with
  | [] => none
  | (z, x) :: r => if z = expect ∧ x.first = track then zoneCheck1 r (expect + 1) (track + x.count) else some z

/-- Whether a zone fails check k of R58 on its own values, for the checks 2 to 8 and 10 that look at one entry. -/
def zoneFails (k : Nat) (x : Zone) (spdMax : Nat) : Bool :=
  match k with
  | 2 => x.spt == 0 || x.spt % 64 != 0
  | 3 => x.n == 0 || x.nA == 0 || x.m == 0 || x.cells == 0 || x.cells * x.n != x.nA * x.m || x.cells % 51200 != 0
  | 4 => x.nA % 128 != 0 || x.nB % 128 != 0 || decide (4 * x.nB < 5 * x.nA) || decide (3 * x.nA < 2 * x.nB)
  | 6 => decide (7200000000 * 60 < x.cells * spdMax) || decide (x.cells * 5400 < 2000000000 * 60)
  | 7 => decide (x.metaCode ≤ 2) && decide (127 < x.places.2)
  | 8 => decide (x.spare < spareFloor x.count)
  | _ => false

/-- All valid zones of an actuator in head and zone order: head, zone number, zone. -/
def actZones (rd : Nat → Word) (a : Nat) : List (Nat × Nat × Zone) :=
  (List.range 8).flatMap (fun h => (zonesOf rd a h).map (fun p => (h, p.1, p.2)))

/-- Check 5: an entry whose band an earlier entry of its head names with other tones. DESIGN CHOICE (log entry 121): of the two
entries that disagree, the later one is the failing entry of ZT_STATUS. -/
def zoneCheck5 (zs : List (Nat × Nat × Zone)) : Option (Nat × Nat) :=
  (zs.find? (fun p => zs.any (fun q => q.1 == p.1 && decide (q.2.1 < p.2.1) && q.2.2.band == p.2.2.band
    && (q.2.2.nA != p.2.2.nA || q.2.2.nB != p.2.2.nB)))).map (fun p => (p.1, p.2.1))

/-- The meta_code of the other actuators' active tables, when one has a valid entry. -/
def otherMeta (rd : Nat → Word) (a : Nat) : Option Nat :=
  ((List.range 4).filter (· != a)).findSome? (fun b => (actZones rd b).head?.map (fun p => p.2.2.metaCode))

/-- Check 9: the head and zone it names. DESIGN CHOICE (log entry 121): for a mismatch with another actuator the head is that of the
first valid entry. -/
def zoneCheck9 (zs : List (Nat × Nat × Zone)) (other : Option Nat) : Option (Nat × Nat) :=
  match zs.find? (fun p => decide (2 < p.2.2.metaCode)) with
  | some p => some (p.1, p.2.1)
  | none =>
    match zs with
    | [] => none
    | p0 :: _ =>
      match zs.find? (fun p => p.2.2.metaCode != p0.2.2.metaCode) with
      | some p => some (p.1, p.2.1)
      | none =>
        match other with
        | some m => if m = p0.2.2.metaCode then none else some (p0.1, 0)
        | none => none

/-- The surfaces a truss takes, q = 0 to 8 (R70). -/
def trussSurfaces (q : List Nat) (t : Nat) : List Nat :=
  (List.range 9).map (fun i => q.getD ((9 * t + i) % q.length) 0)

/-- The q position of unit j of truss T: the parity unit at T mod 9, the data units in the rest in ascending order (R70). -/
def unitPos (t j : Nat) : Nat := if j = 8 then t % 9 else if j < t % 9 then j else j + 1

/-- The unit of truss T at q position i (R70). -/
def posUnit (t i : Nat) : Nat := if i = t % 9 then 8 else if i < t % 9 then i else i - 1

/-- The surface of unit j of truss T. -/
def unitSurface (q : List Nat) (t j : Nat) : Nat := (trussSurfaces q t).getD (unitPos t j) 0

/-- The unit number truss T takes on its surface at q position i: the earlier uses of that entry of Q (R70). -/
def unitNumber (q : List Nat) (t i : Nat) : Nat := (9 * t + i) / q.length

/-- The trusses that namespaces hold, those of a namespace whose delete is not done among them (R371). -/
def State.heldTrusses (s : State) : List Nat :=
  s.spaces.flatMap (fun p => p.2.trusses) ++ s.deleting.flatMap (fun d => d.spaces.flatMap (fun p => p.2.trusses))

/-- Whether a truss that a namespace holds has a unit on surface x: by the layout, or rebuilt or moved there (R239, R243). -/
def State.surfaceAllocated (s : State) (x : Nat) : Bool :=
  match s.media.layout with
  | none => false
  | some l => s.heldTrusses.any (fun t => (trussSurfaces l.q t).contains x
      || s.media.rebuilt.any (fun r => r.truss == t && r.surface == x) || s.media.moved.any (fun m => m.media / 576 == t && m.surface == x))

/-- The eight words of a zone table entry. -/
def zoneWords (rd : Nat → Word) (a h z : Nat) : List Word := (List.range 8).map (fun w => rd (Adr.ZT0 a h z + 4 * w))

/-- Check 11: the first entry of an allocated head that differs in a word from that head's active entry. -/
def State.zoneCheck11 (s : State) (rd : Nat → Word) (a : Nat) : Option (Nat × Nat) :=
  (List.range 8).findSome? (fun h =>
    if s.surfaceAllocated (8 * a + h) then
      ((List.range 64).find? (fun z => decide (zoneWords rd a h z ≠ zoneWords s.reg a h z))).map (fun z => (h, z))
    else none)

/-- The checks of R58 over a shadow table: the check that fails first, with its head and zone. -/
def State.zoneTableCheck (s : State) (rd : Nat → Word) (a : Nat) : Option (Nat × Nat × Nat) :=
  let zs := actZones rd a
  let spd := s.fld Adr.SPN_SPDLIM Fld.SPN_SPDLIM_spd_max
  let one (k : Nat) : Option (Nat × Nat × Nat) := (zs.find? (fun p => zoneFails k p.2.2 spd)).map (fun p => (k, p.1, p.2.1))
  let c1 : Option (Nat × Nat × Nat) := (List.range 8).findSome? (fun h => (zoneCheck1 (zonesOf rd a h) 0 0).map (fun z => (1, h, z)))
  let c5 : Option (Nat × Nat × Nat) := (zoneCheck5 zs).map (fun p => (5, p.1, p.2))
  let c9 : Option (Nat × Nat × Nat) := (zoneCheck9 zs (otherMeta s.reg a)).map (fun p => (9, p.1, p.2))
  let c10 : Option (Nat × Nat × Nat) := (List.range 8).findSome? (fun h =>
    match (zonesOf rd a h).getLast? with
    | some (z, x) => if 0x1000000 < x.first + x.count then some (10, h, z) else none
    | none => none)
  let c11 : Option (Nat × Nat × Nat) := (s.zoneCheck11 rd a).map (fun p => (11, p.1, p.2))
  (((((((((c1.or (one 2)).or (one 3)).or (one 4)).or c5).or (one 6)).or (one 7)).or (one 8)).or c9).or c10).or c11

/-! ## Format (R70 to R72) -/

/-- The head of a surface has a valid zone entry. -/
def State.headPresent (s : State) (x : Nat) : Bool := !(zonesOf s.reg (x / 8) (x % 8)).isEmpty

/-- A present surface: its head has a valid zone entry, and neither it nor its actuator is lost (R72). -/
def State.surfacePresent (s : State) (x : Nat) : Bool :=
  !(s.media.lostSurfaces.contains x || s.media.lostActs.contains (x / 8)) && s.headPresent x

/-- The surfaces that are present and not lost, in the order of Q (R70, R72). -/
def State.presentSurfaces (s : State) : List Nat :=
  ((List.range 8).flatMap (fun h => (List.range 4).map (fun a => 8 * a + h))).filter s.surfacePresent

/-- Data slots of a zone: its tracks but the spare ones, 60 of every 64 sectors. -/
def Zone.slots (z : Zone) : Nat := (z.count - z.spare) * (z.spt / 64 * 60)

/-- Surface units a list of zones offers. -/
def unitsOf (zs : List Zone) : Nat := (zs.foldl (fun n z => n + z.slots) 0) / 64

/-- The largest number of trusses that fit (R71). -/
def trussMax (q : List Nat) (units : List Nat) : Nat :=
  if q.length < 9 then 0
  else ((List.range q.length).map (fun p => (units.getD p 0 * q.length + p) / 9)).foldl min (2 ^ 40)

/-- The layout the present surfaces and their active zone tables give (R70, R71). -/
def State.computeLayout (s : State) : Layout :=
  let q := s.presentSurfaces
  let zs := q.map (fun x => (x, (zonesOf s.reg (x / 8) (x % 8)).map (fun p => p.2)))
  { q := q, tmax := trussMax q (zs.map (fun p => unitsOf p.2)), zones := zs }

/-- Format the drive: record the layout and mark every unit clean (R72, R379). -/
def State.format (s : State) : State :=
  let l := s.computeLayout
  { s with media := { s.media with layout := some l, units := [] } }.event 0x38B l.tmax

/-- Format when no layout is recorded, or no namespace exists, none whose delete is not done either (R371), and the layout differs (R72). -/
def State.formatIfDue (s : State) : State :=
  match s.media.layout with
  | none => s.format
  | some l => if s.spaces.isEmpty && s.deleting.isEmpty && decide (l ≠ s.computeLayout) then s.format else s

/-! ## Where a media address lies -/

/-- A physical position: surface, track, sector position in the track. -/
structure Locus where
  surface : Nat
  track : Nat
  sector : Nat
deriving DecidableEq, Repr

/-- The track and sector of data slot n of a surface's zones. -/
def slotAt (zs : List Zone) (n : Nat) : Option (Nat × Nat) :=
  match zs with
  | [] => none
  | z :: r =>
    if n < z.slots then
      let per := z.spt / 64 * 60
      let i := n % per
      some (z.first + n / per, i / 60 * 64 + i % 60)
    else slotAt r (n - z.slots)

/-- The zones of a surface in a layout. -/
def Layout.surfaceZones (l : Layout) (x : Nat) : List Zone := (lookupKey l.zones x).getD []

/-- Spare position n of a zone: its track and sector. -/
def Zone.spareAt (z : Zone) (n : Nat) : Nat × Nat :=
  let per := z.spt / 64 * 60
  (z.first + (z.count - z.spare) + n / per, n % per / 60 * 64 + n % per % 60)

/-- Where media address x lies, as formatted, rebuilt or reallocated (R69, R70, R239, R243). -/
def State.locate (s : State) (x : Nat) : Option Locus :=
  match s.media.layout with
  | none => none
  | some l =>
    let t := x / 576
    let j := x % 576 / 64
    match s.media.moved.find? (fun m => m.media == x) with
    | some m =>
      ((l.surfaceZones m.surface)[m.zone]?).map (fun z => let p := z.spareAt m.pos; ⟨m.surface, p.1, p.2⟩)
    | none =>
      match s.media.rebuilt.find? (fun r => r.truss == t && r.unit == j) with
      | some r =>
        ((l.surfaceZones r.surface)[r.zone]?).map
          (fun z => let p := z.spareAt (r.pos + x % 64); ⟨r.surface, p.1, p.2⟩)
      | none =>
        let sf := unitSurface l.q t j
        (slotAt (l.surfaceZones sf) (64 * unitNumber l.q t (unitPos t j) + x % 64)).map
          (fun p => ⟨sf, p.1, p.2⟩)

/-- The zone of a track, with its number. -/
def zoneOfTrack (zs : List Zone) (track : Nat) : Option (Nat × Zone) :=
  (zs.zipIdx.find? (fun p => decide (p.1.first ≤ track) && decide (track < p.1.first + p.1.count))).map
    (fun p => (p.2, p.1))

/-- The surface of media address x by its truss, whether or not it has been rebuilt. -/
def State.homeSurface (s : State) (x : Nat) : Nat :=
  match s.media.layout with
  | none => 0
  | some l => unitSurface l.q (x / 576) (x % 576 / 64)

/-- The actuator of a surface. -/
def surfaceAct (x : Nat) : Fin 4 := ⟨x / 8 % 4, Nat.mod_lt _ (by decide)⟩

/-! ## Contents of the medium (R60 to R64, R67 to R69, R379) -/

/-- Put a byte into a memory kept in address order with no zero listed. -/
def cellPut (l : List Host.Cell) (a : Nat) (v : Byte) : List Host.Cell :=
  match l with
  | [] => if v = 0 then [] else [(a, v)]
  | (b, w) :: r =>
    if a < b then (if v = 0 then (b, w) :: r else (a, v) :: (b, w) :: r)
    else if a = b then (if v = 0 then r else (a, v) :: r)
    else (b, w) :: cellPut r a v

/-- The byte at an address; 0 when none is listed. -/
def cellGet (l : List Host.Cell) (a : Nat) : Byte :=
  match l with
  | [] => 0
  | (b, w) :: r => if a = b then w else cellGet r a

/-- Put a byte string from an address on. -/
def cellPuts (l : List Host.Cell) (a : Nat) (d : List Byte) : List Host.Cell :=
  match d with
  | [] => l
  | b :: r => cellPuts (cellPut l a b) (a + 1) r

/-- n bytes from an address on. -/
def cellGets (l : List Host.Cell) (a n : Nat) : List Byte :=
  match n with
  | 0 => []
  | k + 1 => cellGet l a :: cellGets l (a + 1) k

/-- The canonical form of a memory of bytes: addresses strictly rising, no zero listed. -/
def cellsWf : List Host.Cell → Bool
  | [] => true
  | [p] => p.2 != 0
  | p :: q :: r => decide (p.1 < q.1) && p.2 != 0 && cellsWf (q :: r)

/-- The canonical form of a table: its numbers rise strictly. -/
def keysRise {α : Type} : List (Nat × α) → Bool
  | [] => true
  | [_] => true
  | p :: q :: r => decide (p.1 < q.1) && keysRise (q :: r)

/-- Metadata bytes per LBA of the drive. -/
def State.metaSize (s : State) : Nat :=
  match s.media.layout with
  | none => 0
  | some l => match l.zones.findSome? (fun p => p.2.head?) with | some z => metaBytes z.metaCode | none => 0

/-- Bytes of an LBA with its metadata. -/
def State.lbaSize (s : State) : Nat := 4096 + s.metaSize

/-- The kind of a data or truss parity sector (R62). -/
def kindOf (x : Nat) : Nat := if 512 ≤ x % 576 then 2 else 1

/-- The physical address of a place. -/
def Locus.phys (p : Locus) : Nat := physOf p.surface p.track p.sector

/-- The codeword recorded at a physical address; none where nothing has been written. -/
def State.recordedAt (s : State) (k : Nat) : Option (List Byte) := lookupKey s.media.sectors k

/-- The user and metadata field recorded at a physical address, as it stands on the medium; zeros where nothing has been written (log entry
141). -/
def State.fieldAt (s : State) (k : Nat) : List Byte := fitBytes ((s.recordedAt k).getD []) s.lbaSize

/-- Record a codeword at a physical address: field, tag of the write pass in hand, and parity (R60, R62, R63, R85). -/
def State.recordAt (s : State) (k : Nat) (field : List Byte) (seed kind index : Nat) : State :=
  { s with media := { s.media with
    sectors := insertKey s.media.sectors k (codeword field (tagBytes seed s.media.wsn kind index)) } }

/-- Record data at the place of media address x, scrambled and under its own tag (R62, R64). -/
def State.recordSector (s : State) (x : Nat) (d : List Byte) : State :=
  match s.locate x with
  | none => s
  | some p => s.recordAt p.phys (scramble x (fitBytes d s.lbaSize)) x (kindOf x) 0

/-- The user data and metadata on the medium at the place of media address x, descrambled; a sector of a clean unit reads as zeros (R64, R379). -/
def State.onMedium (s : State) (x : Nat) : List Byte :=
  if kindOf x = 1 ∧ !s.media.units.contains (x / 64) then List.replicate s.lbaSize 0
  else match s.locate x with | some p => scramble x (s.fieldAt p.phys) | none => List.replicate s.lbaSize 0

/-- Sector i of the units of truss t other than unit j, combined by exclusive OR (R69, R229). -/
def State.restOfTruss (s : State) (t j i : Nat) : List Byte :=
  ((List.range 9).filter (fun n => n != j)).foldl (fun acc n => xorBytes acc (s.onMedium (t * 576 + n * 64 + i)))
    (List.replicate s.lbaSize 0)

/-- The truss parity of position i of truss t: the exclusive OR of its 8 data units' sectors (R69). -/
def State.trussParity (s : State) (t i : Nat) : List Byte := s.restOfTruss t 8 i

/-- A pass of the formatter: the write sequence number advances, and NOR records each block begun (R63). -/
def Media.pass (m : Media) : Media := { m with wsn := m.wsn + 1, wsnBlock := max m.wsnBlock ((m.wsn + 1) / 2 ^ 20) }

/-- A pass of the formatter begins (R63). -/
def State.writePass (s : State) : State := { s with media := s.media.pass }

/-- The physical address of a media address or of a course parity sector's number, with the lba_seed and kind expected there (R62, R86). -/
def State.expectedAt (s : State) (x : Nat) : Option (Nat × Nat × Nat) :=
  if 2 ^ 64 ≤ x then some (x - 2 ^ 64, x - 2 ^ 64, 3) else (s.locate x).map (fun p => (p.phys, x, kindOf x))

/-- A sector is delivered to DRAM: it is no longer erased (R86, R226). DESIGN CHOICE (log entry 135): the copy stays in the hot set until the
sector is written, made clean or lost with DRAM. -/
def State.deliver (s : State) (x : Nat) (d : List Byte) : State :=
  { s with media := { s.media with
    erased := s.media.erased.filter (fun e => e.media != x)
    dram := insertKey s.media.dram x d } }

/-- What DRAM holds of sector x, and a rewrite of it that waits, no longer stand. -/
def State.forget (s : State) (x : Nat) : State :=
  { s with media := { s.media with dram := eraseKey s.media.dram x, rewrites := eraseKey s.media.rewrites x } }

/-- The unit of media address x is no longer clean (R379). -/
def State.unclean (s : State) (x : Nat) : State :=
  { s with media := { s.media with
    units := if s.media.units.contains (x / 64) then s.media.units else s.media.units ++ [x / 64] } }

/-- Make a unit clean: it reads as zeros (R379). -/
def State.cleanUnit (s : State) (u : Nat) : State := { s with media := { s.media with units := s.media.units.filter (· != u) } }

/-- The media address of LBA l of a namespace (R369). -/
def Namespace.mediaOf (n : Namespace) (l : Nat) : Option Nat :=
  (n.trusses[l / 512]?).map (fun t => t * 576 + l % 512)

/-- The namespace a command of an arrival order finds: one whose delete arrived later, which it may still finish on, else one that
exists (R371). -/
def State.spaceFor (s : State) (order ns : Nat) : Option Namespace :=
  match s.deleting.findSome? (fun (d : Deleting) => if order < d.order then lookupKey d.spaces ns else none) with
  | some sp => some sp
  | none => lookupKey s.spaces ns

/-- The namespace and LBA of a media address of a data unit, of a namespace whose delete is not done too (R371). -/
def State.lbaOf (s : State) (x : Nat) : Option (Nat × Nat) :=
  (s.spaces ++ s.deleting.flatMap (fun d => d.spaces)).findSome? (fun p =>
    match p.2.trusses.idxOf? (x / 576) with
    | some i => if x % 576 < 512 then some (p.1, i * 512 + x % 576) else none
    | none => none)

end Sys2Proof.Machine
end

