-- ==== Sys2Proof/Machine/Operands.lean ====
section
/-! DEFINITION. The arithmetic the loop engines share: fixed-point formats and second-order sections (R138 to R143), and the
square root, sine and seek profile computed to 160 binary places (R147). -/

namespace Sys2Proof.Machine

open Sys2Proof

/-! ## Fixed point (R138) -/

/-- An integer limited to a range. -/
def limit (lo hi x : Int) : Int := if x < lo then lo else if hi < x then hi else x

/-- Full scale of Q1.23. -/
def q123Max : Int := 8388607
/-- Negative full scale of Q1.23. -/
def q123Min : Int := -8388608

/-- Saturation to Q1.23. -/
def satQ123 (x : Int) : Int := limit q123Min q123Max x

/-- An accumulator value rounded to Q1.23: nearest, ties toward positive infinity (R139). -/
def roundAcc (acc : Int) : Int := (acc + 2097152) / 4194304

/-- Whether a sum leaves the 56 bit accumulator (R141). -/
def guardOverflow (x : Int) : Bool := decide (x < -(2 ^ 55)) || decide (2 ^ 55 ≤ x)

/-- The sign of an integer, + for 0. -/
def signOf (x : Int) : Int := if x < 0 then -1 else 1

/-- The five coefficients of a section, Q2.22. -/
structure Coef where
  b0 : Int
  b1 : Int
  b2 : Int
  a1 : Int
  a2 : Int
deriving DecidableEq, Repr

/-- Coefficients from five register words. -/
def coefOf (rd : Nat → Word) : Coef :=
  { b0 := signed 24 (rd 0).toNat, b1 := signed 24 (rd 1).toNat, b2 := signed 24 (rd 2).toNat
    a1 := signed 24 (rd 3).toNat, a2 := signed 24 (rd 4).toNat }

/-- What one section gives in a sample: its output and states, whether it clipped, and with a guard overflow the sign of the
sum that left the range; inAcc tells that it was the sum that forms y. -/
structure SectOut where
  y : Int
  st : Sect
  clip : Bool
  sat : Option Int
  inAcc : Bool
deriving DecidableEq, Repr

/-- One section for one sample (R139 to R141). After a guard overflow both states are 0. -/
def sectStep (c : Coef) (s : Sect) (x : Int) : SectOut :=
  let acc := c.b0 * x + s.s1
  let over0 := guardOverflow acc || guardOverflow (acc + 2097152)
  let r := roundAcc acc
  let y := if over0 then (if acc < 0 then q123Min else q123Max) else satQ123 r
  let clip := !over0 && decide (r ≠ satQ123 r)
  let t1 := c.b1 * x - c.a1 * y
  let n1 := t1 + s.s2
  let n2 := c.b2 * x - c.a2 * y
  let sat : Option Int :=
    if over0 then some (signOf acc)
    else if guardOverflow t1 then some (signOf t1)
    else if guardOverflow n1 then some (signOf n1)
    else if guardOverflow n2 then some (signOf n2)
    else none
  { y := y, st := if sat.isSome then {} else ⟨n1, n2⟩, clip := clip, sat := sat, inAcc := over0 }

/-- The limits of an integrator section in accumulator format (R143): words int_lo and int_hi of SRV_VINT or SRV_MINT. -/
def integLimits (w : Word) : Int × Int :=
  let lo := signed 16 (w.toNat % 65536)
  let hi := signed 16 (w.toNat / 65536)
  (lo * 256 * 4194304, (hi * 256 + 255) * 4194304)

/-- What a stage gives in a sample: output, states, and the flags of its sections with the sections that overflowed, in order. -/
structure StageOut where
  y : Int
  st : List Sect
  clip : Bool
  satAt : List Nat
  clamped : Bool
deriving DecidableEq, Repr

/-- Sections i onward of a stage, with the coefficients of section i by cf, the integrator section's limits at its number,
and whether the integrator holds its states this sample (R139 to R143, R146). DEDUCED (log entry 133): an overflow of the sum that
forms y counts in a held integrator section too, and sets its states as R141 says. -/
def stageFrom (cf : Nat → Coef) (integ : Option (Nat × Int × Int)) (hold : Bool) (i : Nat) (st : List Sect) (x : Int) :
    StageOut :=
  match st with
  | [] => { y := x, st := [], clip := false, satAt := [], clamped := false }
  | s :: r =>
    let o := sectStep (cf i) s x
    let isInt := match integ with | some (k, _, _) => k == i | none => false
    let p : Sect × Bool :=
      match integ with
      | some (k, lo, hi) =>
        if k = i then
          if hold && !o.inAcc then (s, false)
          else
            match o.sat with
            | some sg => (⟨if sg < 0 then lo else hi, 0⟩, true)
            | none => (⟨limit lo hi o.st.s1, o.st.s2⟩, decide (limit lo hi o.st.s1 ≠ o.st.s1))
        else (o.st, false)
      | none => (o.st, false)
    let t := stageFrom cf integ hold (i + 1) r o.y
    { y := t.y
      st := p.1 :: t.st
      clip := o.clip || t.clip
      satAt := if o.sat.isSome && (!(isInt && hold) || o.inAcc) then i :: t.satAt else t.satAt
      clamped := p.2 || t.clamped }

/-- A stage of n sections of the states it holds; the rest are not computed. -/
def runStage (cf : Nat → Coef) (integ : Option (Nat × Int × Int)) (hold : Bool) (n : Nat) (st : List Sect) (x : Int) :
    StageOut :=
  let o := stageFrom cf integ hold 0 (st.take n) x
  { o with st := o.st ++ st.drop n }

/-- The preset of R144 over sections i onward: non-integrator states to 0, the integrator's s1 to (u0 << 22) - b0 * x with x its
input in this sample. -/
def presetFrom (cf : Nat → Coef) (integ : Option Nat) (u0 : Int) (i : Nat) (st : List Sect) (x : Int) : List Sect :=
  match st with
  | [] => []
  | _ :: r =>
    let z : Sect := if integ = some i then ⟨u0 * 4194304 - (cf i).b0 * x, 0⟩ else {}
    let o := sectStep (cf i) z x
    z :: presetFrom cf integ u0 (i + 1) r o.y

/-! ## Square root, sine and the seek profile (R147) -/

/-- π × 2^160. -/
def piFix : Nat := 4591442807048218921384805199743311128454155024418

/-- Bits k - 1 down of the integer square root. -/
def isqrtBits (n r k : Nat) : Nat :=
  match k with
  | 0 => r
  | j + 1 => if (r + 2 ^ j) * (r + 2 ^ j) ≤ n then isqrtBits n (r + 2 ^ j) j else isqrtBits n r j

/-- The integer square root of a number below 2^256. -/
def isqrt (n : Nat) : Nat := isqrtBits n 0 128

/-- The least number whose square is at least n. -/
def ceilSqrt (n : Nat) : Nat := let r := isqrt n; if r * r = n then r else r + 1

/-- The quotient rounded up; 0 for a divisor of 0. -/
def ceilDiv (n d : Nat) : Nat := if d = 0 then 0 else (n + d - 1) / d

/-- The quotient rounded to nearest, ties up. -/
def roundDiv (n d : Nat) : Nat := if d = 0 then 0 else (2 * n + d) / (2 * d)

/-- k further terms of the sine series at an angle whose square is x2, from a term and its index. -/
def sinTerms (x2 term : Int) (i k : Nat) : Int :=
  match k with
  | 0 => 0
  | j + 1 => term + sinTerms x2 (-(term * x2 / (2 ^ 160)) / ((2 * i + 2) * (2 * i + 3) : Nat)) (i + 1) j

/-- sin(π n / d) × 2^160 for n ≤ d. -/
def sinPi (n d : Nat) : Int :=
  let m := if d < 2 * n then d - n else n
  let x : Int := (piFix * m / d : Nat)
  sinTerms (x * x / 2 ^ 160) x 0 48

/-- The half period and cruise of a seek of d tracks (R147), with i_pk in 2^-23, k_acc and v_max in 2^-16; i_pk and k_acc not 0. -/
def seekTimes (d ipk kacc vmax : Nat) : Nat × Nat :=
  let a2 := 2 * ipk * kacc
  let th := ceilSqrt (ceilDiv (piFix * d * 2 ^ 39) (a2 * 2 ^ 160))
  if a2 * th * 2 ^ 160 * 2 ^ 16 ≤ vmax * piFix * 2 ^ 39 then (th, 0)
  else
    let th2 := ceilDiv (piFix * vmax * 2 ^ 23) (a2 * 2 ^ 160)
    (th2, ceilDiv (d * 2 ^ 16 - vmax * th2) vmax)

/-- The magnitude of profile current j before its sign in Q1.23, ties away from zero, saturated. -/
def seekMag (k : Seek) (j : Nat) : Int :=
  let s := sinPi (2 * j + 1) (2 * k.th)
  min q123Max (roundDiv (piFix * s.toNat * k.dist * 2 ^ 39) (2 * k.th * (k.th + k.tc) * k.kacc * 2 ^ 320) : Nat)

/-- Profile current i[j] of a seek: 0 past its end (R147). -/
def seekCurrent (k : Seek) (j : Nat) : Int :=
  let m : Int :=
    if j < k.th then seekMag k j
    else if j < k.th + k.tc then 0
    else if j < 2 * k.th + k.tc then -(seekMag k (j - k.th - k.tc))
    else 0
  if k.neg then -m else m

/-- Distance in 1/65,536 track that a seek has run after t samples of its first half. -/
def seekRise (k : Seek) (t : Nat) : Nat :=
  if t ≤ k.th then
    roundDiv (k.dist * 65536 * (t * piFix - k.th * (sinPi t k.th).toNat)) (2 * (k.th + k.tc) * piFix)
  else
    roundDiv (k.dist * 65536 * (2 * t - k.th)) (2 * (k.th + k.tc))

/-- x_ref[j] in 1/65,536 track: the position at the end of profile sample j (R147). -/
def seekRef (k : Seek) (j : Nat) : Int :=
  let n := 2 * k.th + k.tc
  let t := min (j + 1) n
  let run : Nat := if t ≤ k.th + k.tc then seekRise k t else k.dist * 65536 - seekRise k (n - t)
  (k.start * 65536 : Nat) + (if k.neg then -(run : Int) else run)

end Sys2Proof.Machine
end

