-- ==== Sys2Proof/Machine/Cache.lean ====
section
/-! DEFINITION. What the L2 holds: sets, ways, policies, replacement, locking and prefetch (R413, R415, R417 to R419), and what a write that
reaches DRAM leaves in its controller (R407, R408, R425). Lines of locked ways are always held (R418), so only the other lines are listed. -/

namespace Sys2Proof.Machine

open Sys2Proof

/-- Change what the memory controller and the L2 hold. -/
def State.modDram (s : State) (f : Dram → Dram) : State := { s with dram := f s.dram }

/-! ## DRAM (R407, R408) -/

/-- The channel and group of a device address (R407). -/
def groupOf (d : Nat) : Nat × Nat :=
  let g := d / 896
  (((g ^^^ (g >>> 9)) ^^^ (g >>> 17)) % 2, g / 2)

/-- A write of the aligned 64-bit words l reaches DRAM: each takes a new check byte, which ends its poison, and its check line has changed
(R408, R425). -/
def State.dramWrite (s : State) (l : List Nat) : State :=
  let gone (p : Nat × Nat) : Bool := l.any (fun d => p == ((groupOf d).1, d))
  let changed := ((l.map groupOf).eraseDups).filter (fun g => !s.dram.checkLines.contains g)
  s.modDram (fun m => { m with
    bad := m.bad.filter (fun p => !gone p), poison := m.poison.filter (fun p => !gone p), checkLines := m.checkLines ++ changed })

/-- The words of a 128-byte line. -/
def lineWords (line : Nat) : List Nat := (List.range 16).map (fun k => 128 * line + 8 * k)

/-! ## Where a line may stand (R413, R418) -/

/-- The set of a device address (R413). -/
def lineSet (d : Nat) : Nat := (((d >>> 7) ^^^ (d >>> 20)) ^^^ (d >>> 33)) % 8192

/-- The bank of a device address (R413). -/
def lineBank (d : Nat) : Nat := lineSet d % 16

/-- The ways that are locked, each with the MiB of device address it holds: the pinned area first, at the start of the recipe store, then each
locked entry in ascending number (R409, R418). -/
def lockedMibs (rd : Nat → Word) : List Nat :=
  (List.range (getBits (rd Adr.L2C_PIN) Fld.L2C_PIN_pin_ways)).map (256 + ·)
    ++ ((List.range 64).map (l2Entry rd)).flatMap (fun e => if e.en && e.lock then (List.range e.size).map (e.base + ·) else [])

/-- The locked way of a device address. -/
def lockedWay (rd : Nat → Word) (d : Nat) : Option Nat := (lockedMibs rd).findIdx? (· == d / 2 ^ 20)

/-- The attribute entry that governs a device address: the lowest-numbered enabled one whose range holds it (R415). -/
def governing (rd : Nat → Word) (d : Nat) : Option (Nat × L2Entry) :=
  (((List.range 64).map (fun i => (i, l2Entry rd i))).find? (fun p =>
    p.2.en && decide (p.2.base * 2 ^ 20 ≤ d ∧ d < (p.2.base + p.2.size) * 2 ^ 20)))

/-- A device address of a mirrored region: the first ones (R409, R410). -/
def State.mirroredAt (s : State) (d : Nat) : Bool := decide (d < s.fld Adr.MEM_SPACE Fld.MEM_SPACE_mir_mib * 2 ^ 20)

/-- The policy of a device address, as L2C_ATTR1.policy codes it: write-back 0, write-through 1, no-allocate 2. Mirrored and locked lines are
always write-through (R410, R415, R418). -/
def State.policyAt (s : State) (d : Nat) : Nat :=
  if s.mirroredAt d || (lockedWay s.reg d).isSome then 1
  else match governing s.reg d with | some p => (if p.2.policy = 3 then 0 else p.2.policy) | none => 0

/-- A demand miss on a device address prefetches the next line: the entry's pf, and an address no entry holds (R415, R417). -/
def State.prefetchAt (s : State) (d : Nat) : Bool := match governing s.reg d with | some p => p.2.pf | none => true

/-! ## Replacement: tree pseudo-LRU over the unlocked ways (R413) -/

/-- A way below node n of the tree, whose l lower levels remain, is free to be taken; the leaves 16 to 31 are the ways. -/
def freeBelow (free : Nat → Bool) (l n : Nat) : Bool := (List.range (2 ^ l)).any (fun k => free (n * 2 ^ l + k - 16))

/-- The way the tree points to: each node's bit names the half less recently used, unless no way of that half is free. -/
def treeWay (tree : Nat) (free : Nat → Bool) : (levels node : Nat) → Nat
  | 0, n => n - 16
  | l + 1, n =>
    let c := 2 * n + (tree >>> n) % 2
    treeWay tree free l (if freeBelow free l c then c else c ^^^ 1)

/-- An access to a way turns every node above it to the other half. -/
def treeTouch (way : Nat) : (levels : Nat) → (tree : Nat) → Nat
  | 0, t => t
  | l + 1, t =>
    let c := (16 + way) >>> l
    let n := c / 2
    treeTouch way l (if c % 2 = 1 then t - (t &&& 2 ^ n) else t ||| 2 ^ n)

/-- The tree of a set. -/
def Dram.tree (m : Dram) (set : Nat) : Nat := (lookupKey m.trees set).getD 0

/-- A set's tree after an access to a way. -/
def Dram.touch (m : Dram) (set way : Nat) : Dram := { m with trees := insertKey m.trees set (treeTouch way 4 (m.tree set)) }

/-- The way that holds a line outside the locked ways: a listed line, or one of a range that was locked (R419). -/
def Dram.wayOf (m : Dram) (line : Nat) : Option Nat :=
  match m.lines.find? (·.line == line) with
  | some x => some x.way
  | none => (m.freed.find? (fun r => r.mib == line / 8192 && !r.gone.contains line)).map (·.way)

/-- The line a way holds in a set, outside the locked ways. -/
def Dram.lineIn (m : Dram) (set way : Nat) : Option L2Line :=
  match m.lines.find? (fun x => x.way == way && lineSet (128 * x.line) == set) with
  | some x => some x
  | none =>
    (m.freed.find? (fun r => r.way == way)).bind (fun r =>
      ((List.range 8192).find? (fun k => lineSet (128 * (8192 * r.mib + k)) == set && !r.gone.contains (8192 * r.mib + k))).map (fun k =>
        { line := 8192 * r.mib + k, way := way, dirty := false, ahead := false }))

/-- A line leaves the L2. -/
def Dram.without (m : Dram) (line : Nat) : Dram :=
  { m with
    lines := m.lines.filter (fun x => x.line != line)
    freed := m.freed.map (fun r => if r.mib = line / 8192 then { r with gone := r.gone ++ [line] } else r) }

/-- The L2 holds a device address. -/
def State.l2Holds (s : State) (d : Nat) : Bool := (lockedWay s.reg d).isSome || (s.dram.wayOf (d / 128)).isSome

/-- A line is evicted, written to DRAM first when it is dirty (R415). -/
def State.evict (s : State) (x : L2Line) : State :=
  (if x.dirty then s.dramWrite (lineWords x.line) else s).modDram (fun m => m.without x.line)

/-- A line is allocated: into an unlocked way of its set that holds nothing, the lowest, else into the one the tree points to, whose line is
evicted (R413, R415, R418). DESIGN CHOICE (log entry 137): an empty way goes first, the tree's bit 0 points to the lower ways, and it
starts at 0. -/
def State.l2Fill (s : State) (d : Nat) (dirty ahead : Bool) : State :=
  let set := lineSet d
  let free (w : Nat) : Bool := decide ((lockedMibs s.reg).length ≤ w ∧ w < 16)
  let way := match (List.range 16).find? (fun w => free w && (s.dram.lineIn set w).isNone) with
    | some w => w
    | none => treeWay (s.dram.tree set) free 4 1
  let s1 := match s.dram.lineIn set way with | some x => s.evict x | none => s
  s1.modDram (fun m => ({ m with lines := m.lines ++ [(⟨d / 128, way, dirty, ahead⟩ : L2Line)] }).touch set way)

/-- A demand miss on line L fetches L + 1 too when it is absent, in the same 4 KiB and governed by the same entry (R417). The queue of class
IC4 is taken to have room (log entry 137). -/
def State.prefetchNext (s : State) (d : Nat) : State :=
  let n := (d / 128 + 1) * 128
  let entry (x : Nat) : Option Nat := (governing s.reg x).map (·.1)
  if s.prefetchAt d ∧ n / 4096 = d / 4096 ∧ entry n = entry d ∧ !s.l2Holds n then
    (s.countFld Adr.L2C_PF Fld.L2C_PF_pf_issued).l2Fill n false true
  else s

/-- A hit: counted, and as a prefetch used when it is the first one on a line fetched ahead (R431). -/
def State.l2Hit (s : State) (d : Nat) (dirties : Bool) : State :=
  let s1 := s.countFld Adr.L2C_HIT Fld.L2C_HIT_hits
  let line := d / 128
  match s.dram.wayOf line with
  | none => s1
  | some w =>
    let first := s.dram.lines.any (fun x => x.line == line && x.ahead)
    let s2 := if first then s1.countFld Adr.L2C_PF Fld.L2C_PF_pf_used else s1
    let x : L2Line := ⟨line, w, dirties || s.dram.lines.any (fun x => x.line == line && x.dirty), false⟩
    s2.modDram (fun m => ({ (m.without line) with lines := (m.without line).lines ++ [x] }).touch (lineSet d) w)

/-- A demand read of a device address passes through the L2 (R414, R415). -/
def State.l2Read (s : State) (d : Nat) : State :=
  if s.l2Holds d then s.l2Hit d false
  else
    let s1 := s.countFld Adr.L2C_MISS Fld.L2C_MISS_misses
    (if s.policyAt d = 2 then s1 else s1.l2Fill d false false).prefetchNext d

/-- A write of the aligned word at a device address passes through the L2: write-back allocates and leaves the line dirty, write-through
updates a line present and always writes DRAM, and no-allocate updates a line present, else writes DRAM (R414, R415). -/
def State.l2Write (s : State) (d : Nat) : State :=
  let p := s.policyAt d
  if s.l2Holds d then
    let s1 := s.l2Hit d (decide (p ≠ 1))
    if p = 1 then s1.dramWrite [d] else s1
  else
    let s1 := s.countFld Adr.L2C_MISS Fld.L2C_MISS_misses
    (if p = 0 then s1.l2Fill d true false else s1.dramWrite [d]).prefetchNext d

/-! ## The attributes change (R419) -/

/-- The commit of an L2 attribute restart over the active set old: dirty lines whose governing entry changes are written back; what else
stands in a way that becomes locked is written back and goes; a line of a newly locked range moves into its way; lines of a way that
becomes unlocked stay (R419). -/
def State.l2Commit (s : State) (old : Nat → Word) : State :=
  let was := lockedMibs old
  let now := lockedMibs s.reg
  let changed (x : L2Line) : Bool := x.dirty && governing old (128 * x.line) != governing s.reg (128 * x.line)
  let leaves (x : L2Line) : Bool := decide (x.way < now.length) || now.contains (x.line / 8192)
  let s1 := s.dram.lines.foldl (fun s x => if x.dirty && (changed x || leaves x) then s.dramWrite (lineWords x.line) else s) s
  s1.modDram (fun m => { m with
    lines := (m.lines.filter (fun x => !leaves x)).map (fun x => if changed x then { x with dirty := false } else x)
    freed := (m.freed ++ was.zipIdx.map (fun p => (⟨p.2, p.1, []⟩ : L2Range))).filter (fun r => decide (now.length ≤ r.way) && !now.contains r.mib) })

/-- The Memory region restarts: dirty lines are written back where their DRAM is kept, and the L2 holds nothing but its locked ways (R439). -/
def State.l2Flush (s : State) : State :=
  (s.dram.lines.foldl (fun s x => if x.dirty then s.dramWrite (lineWords x.line) else s) s).modDram (fun m =>
    { m with lines := [], trees := [], freed := [] })

end Sys2Proof.Machine
end

