-- ==== Sys2Proof/Machine/Crypto.lean ====
section
/-! DEFINITION. The published algorithms the spec names: AES (FIPS 197) with CTR and CBC and key wrap (RFC 3394), SHA-2 and HMAC
(FIPS 180-4, RFC 2104), CRC-32 of MPEG-2 sections and Adler-32. PRESUMED: taken from those publications. -/

namespace Sys2Proof.Machine

open Sys2Proof

/-! ## The field of AES -/

/-- Multiplication by x. -/
def aesDouble (b : Byte) : Byte := if b.getLsbD 7 then (b <<< 1) ^^^ 0x1B#8 else b <<< 1

/-- The product of two field elements, over k bits of the second. -/
def aesMulBits (a b : Byte) (k : Nat) : Byte :=
  match k with
  | 0 => 0
  | j + 1 => (if b.getLsbD 0 then a else 0) ^^^ aesMulBits (aesDouble a) (b >>> 1) j

/-- The product of two field elements. -/
def aesMul (a b : Byte) : Byte := aesMulBits a b 8

/-- The inverse of a field element, 0 for 0: its 254th power. -/
def aesInv (a : Byte) : Byte :=
  let a2 := aesMul a a
  let a4 := aesMul a2 a2
  let a8 := aesMul a4 a4
  let a16 := aesMul a8 a8
  let a32 := aesMul a16 a16
  let a64 := aesMul a32 a32
  let a128 := aesMul a64 a64
  aesMul (aesMul (aesMul a2 a4) (aesMul a8 a16)) (aesMul (aesMul a32 a64) a128)

/-- The S-box. -/
def aesSub (a : Byte) : Byte :=
  let b := aesInv a
  b ^^^ b.rotateLeft 1 ^^^ b.rotateLeft 2 ^^^ b.rotateLeft 3 ^^^ b.rotateLeft 4 ^^^ 0x63#8

/-- The inverse S-box. -/
def aesSubInv (a : Byte) : Byte := aesInv (a.rotateLeft 1 ^^^ a.rotateLeft 3 ^^^ a.rotateLeft 6 ^^^ 0x05#8)

/-- The exclusive or of two byte strings. -/
def xorList (a b : List Byte) : List Byte := List.zipWith (· ^^^ ·) a b

/-- A byte string in groups of n. -/
def groupsOf (n fuel : Nat) (l : List Byte) : List (List Byte) :=
  match fuel with
  | 0 => []
  | k + 1 => if l.isEmpty then [] else l.take n :: groupsOf n k (l.drop n)

/-- The round keys' words from the words so far, newest first: n of them to make, nk words of key, i the next index. -/
def aesExpand (nk n i : Nat) (rcon : Byte) (acc : List (List Byte)) : List (List Byte) :=
  match n with
  | 0 => acc
  | k + 1 =>
    let prev := acc.headD []
    let t :=
      if i % nk = 0 then xorList ((prev.drop 1 ++ prev.take 1).map aesSub) [rcon, 0, 0, 0]
      else if 6 < nk ∧ i % nk = 4 then prev.map aesSub
      else prev
    aesExpand nk k (i + 1) (if i % nk = 0 then aesDouble rcon else rcon) (xorList ((acc.drop (nk - 1)).headD []) t :: acc)

/-- The round keys of a key of 16 or 32 bytes, 16 bytes each. -/
def aesKeys (key : List Byte) : List (List Byte) :=
  let nk := key.length / 4
  let words := (aesExpand nk (4 * (nk + 7) - nk) nk 1 (groupsOf 4 nk key).reverse).reverse
  groupsOf 16 (nk + 7) words.flatten

/-- The state bytes by a permutation of indices. -/
def permute (p : List Nat) (l : List Byte) : List Byte := p.map (fun i => l.getD i 0)

/-- ShiftRows. -/
def aesShift : List Nat := [0, 5, 10, 15, 4, 9, 14, 3, 8, 13, 2, 7, 12, 1, 6, 11]
/-- The inverse of ShiftRows. -/
def aesShiftInv : List Nat := [0, 13, 10, 7, 4, 1, 14, 11, 8, 5, 2, 15, 12, 9, 6, 3]

/-- One column through a circulant matrix with a first row. -/
def mixColumn (row : List Byte) (c : List Byte) : List Byte :=
  (List.range 4).map (fun i => (List.range 4).foldl (fun (x : Byte) j =>
    x ^^^ aesMul (row.getD ((j + 4 - i) % 4) 0) (c.getD j 0)) 0)

/-- All four columns. -/
def mixColumns (row : List Byte) (l : List Byte) : List Byte := ((groupsOf 4 4 l).map (mixColumn row)).flatten

/-- One block encrypted. -/
def aesEncrypt (key block : List Byte) : List Byte :=
  match aesKeys key with
  | [] => block
  | k0 :: ks =>
    let step (l k : List Byte) : List Byte := xorList (mixColumns [2, 3, 1, 1] (permute aesShift (l.map aesSub))) k
    let mid := ks.dropLast.foldl step (xorList block k0)
    xorList (permute aesShift (mid.map aesSub)) (ks.getLastD [])

/-- One block decrypted. -/
def aesDecrypt (key block : List Byte) : List Byte :=
  match (aesKeys key).reverse with
  | [] => block
  | k0 :: ks =>
    let step (l k : List Byte) : List Byte :=
      mixColumns [14, 11, 13, 9] (xorList ((permute aesShiftInv l).map aesSubInv) k)
    let mid := ks.dropLast.foldl step (xorList block k0)
    xorList ((permute aesShiftInv mid).map aesSubInv) (ks.getLastD [])

/-- CBC encryption of whole blocks: the output and the last block. -/
def cbcBlocks (key : List Byte) (blocks : List (List Byte)) (iv : List Byte) : List Byte × List Byte :=
  blocks.foldl (fun acc b => let c := aesEncrypt key (xorList b acc.2); (acc.1 ++ c, c)) ([], iv)

/-- The counter block n blocks after an IV: the low 64 bits count modulo 2^64. -/
def ctrBlock (iv : List Byte) (n : Nat) : List Byte :=
  iv.take 8 ++ beBytes 8 ((ofBe (iv.drop 8) + n) % 2 ^ 64)

/-- n keystream bytes from byte offset off of the keystream of an IV. -/
def ctrStream (key iv : List Byte) (off n : Nat) : List Byte :=
  let first := off / 16
  let blocks := (List.range ((off + n + 15) / 16 - first)).map (fun i => aesEncrypt key (ctrBlock iv (first + i)))
  (blocks.flatten.drop (off % 16)).take n

/-- One step of key unwrapping: A, the registers, index t (RFC 3394). -/
def unwrapStep (key : List Byte) (n : Nat) (st : List Byte × List (List Byte)) (t : Nat) : List Byte × List (List Byte) :=
  let i := (t - 1) % n
  let a := xorList st.1 (beBytes 8 t)
  let b := aesDecrypt key (a ++ st.2.getD i [])
  (b.take 8, st.2.set i (b.drop 8))

/-- The key a wrapped key holds; none when its integrity check fails (RFC 3394, default initial value). -/
def aesUnwrap (kek wrapped : List Byte) : Option (List Byte) :=
  let n := wrapped.length / 8 - 1
  let r := groupsOf 8 n (wrapped.drop 8)
  let st := ((List.range (6 * n)).map (fun k => 6 * n - k)).foldl (unwrapStep kek n) (wrapped.take 8, r)
  if st.1 = List.replicate 8 0xA6#8 then some st.2.flatten else none

/-! ## SHA-2 and HMAC -/

/-- The largest root whose k-th power is at most n, found bit by bit: root so far r, the bits below b still to find. -/
def rootFrom (k n b r : Nat) : Nat :=
  match b with
  | 0 => r
  | c + 1 => rootFrom k n c (if (r + 2 ^ c) ^ k ≤ n then r + 2 ^ c else r)

/-- The first w bits of the fraction of a k-th root, from which FIPS 180-4 takes its constants. -/
def rootFraction (w k p : Nat) : BitVec w := BitVec.ofNat w (rootFrom k (p * 2 ^ (w * k)) (w + 5) 0)

/-- The primes below 410: the first 80. -/
def smallPrimes : List Nat :=
  (List.range 410).filter (fun n => decide (1 < n) && (List.range 21).all (fun d => decide (d < 2) || decide (n ≤ d) || n % d != 0))

/-- A function of the SHA-2 family over words of w bits: its rounds, the rotations of each mixing function (the last number of the schedule's two is a
shift), its initial hash value and the bytes of its digest. -/
structure Sha2 (w : Nat) where
  rounds : Nat
  high : List Nat
  low : List Nat
  old : List Nat × Nat
  new : List Nat × Nat
  init : List (BitVec w)
  bytes : Nat

/-- The exclusive or of a word's rotations by each of some amounts. -/
def rotations {w : Nat} (x : BitVec w) (amounts : List Nat) : BitVec w := amounts.foldl (fun (y : BitVec w) n => y ^^^ x.rotateRight n) 0

/-- The mixing of a word of the message schedule. -/
def shaMix {w : Nat} (p : List Nat × Nat) (x : BitVec w) : BitVec w := rotations x p.1 ^^^ x >>> p.2

/-- n further words of the message schedule, newest first. -/
def shaSchedule {w : Nat} (h : Sha2 w) (n : Nat) (l : List (BitVec w)) : List (BitVec w) :=
  match n with
  | 0 => l
  | k + 1 => shaSchedule h k ((l.getD 15 0 + l.getD 6 0 + shaMix h.old (l.getD 14 0) + shaMix h.new (l.getD 1 0)) :: l)

/-- The bits of y where x has ones, and those of z where it has zeros. -/
def shaPick {w : Nat} (x y z : BitVec w) : BitVec w := z ^^^ (x &&& (y ^^^ z))
/-- The majority of three words, bit by bit. -/
def shaMost {w : Nat} (x y z : BitVec w) : BitVec w := (x &&& y) ||| (z &&& (x ||| y))

/-- One round: the eight words move down one place, and the first and fifth take what is mixed in. -/
def shaRound {w : Nat} (h : Sha2 w) (s : List (BitVec w)) (kw : BitVec w × BitVec w) : List (BitVec w) :=
  let v (i : Nat) : BitVec w := s.getD i 0
  let low := v 7 + kw.1 + kw.2 + rotations (v 4) h.low + shaPick (v 4) (v 5) (v 6)
  let high := rotations (v 0) h.high + shaMost (v 0) (v 1) (v 2)
  (low + high) :: (s.take 3 ++ ((v 3 + low) :: (s.drop 4).take 3))

/-- One block of 16 words; the constants of the rounds come from the cube roots of the primes. -/
def shaBlock {w : Nat} (h : Sha2 w) (s : List (BitVec w)) (block : List Byte) : List (BitVec w) :=
  let words := (groupsOf (w / 8) 16 block).map (fun l => BitVec.ofNat w (ofBe l))
  let k := (smallPrimes.take h.rounds).map (rootFraction w 3)
  List.zipWith (· + ·) s ((k.zip (shaSchedule h (h.rounds - 16) words.reverse).reverse).foldl (shaRound h) s)

/-- The digest of a byte string: it is padded with a one, zeros and its length in bits to whole blocks. -/
def Sha2.digest {w : Nat} (h : Sha2 w) (l : List Byte) : List Byte :=
  let block := 2 * w
  let pad := (2 * block - 1 - w / 4 - l.length % block) % block
  let m := l ++ [0x80#8] ++ List.replicate pad 0 ++ beBytes (w / 4) (8 * l.length)
  (((groupsOf block (m.length / block) m).foldl (shaBlock h) h.init).flatMap (fun x => beBytes (w / 8) x.toNat)).take h.bytes

/-- The HMAC of a message under a key (RFC 2104). -/
def Sha2.hmac {w : Nat} (h : Sha2 w) (key msg : List Byte) : List Byte :=
  let k := fitBytes (if 2 * w < key.length then h.digest key else key) (2 * w)
  h.digest (k.map (· ^^^ 0x5C#8) ++ h.digest (k.map (· ^^^ 0x36#8) ++ msg))

/-- SHA-256, from the square roots of the first 8 primes. -/
def sha256 : Sha2 32 :=
  { rounds := 64, high := [2, 13, 22], low := [6, 11, 25], old := ([7, 18], 3), new := ([17, 19], 10)
    init := (smallPrimes.take 8).map (rootFraction 32 2), bytes := 32 }

/-- SHA-512. -/
def sha512 : Sha2 64 :=
  { rounds := 80, high := [28, 34, 39], low := [14, 18, 41], old := ([1, 8], 7), new := ([19, 61], 6)
    init := (smallPrimes.take 8).map (rootFraction 64 2), bytes := 64 }

/-- SHA-384, from the square roots of the ninth to sixteenth primes. -/
def sha384 : Sha2 64 := { sha512 with init := ((smallPrimes.drop 8).take 8).map (rootFraction 64 2), bytes := 48 }

/-- HMAC-SHA-256. -/
def hmacSha256 (key msg : List Byte) : List Byte := sha256.hmac key msg

/-! ## Check codes -/

/-- CRC-32 of an MPEG-2 section. -/
def crcMpeg (l : List Byte) : BitVec 32 :=
  l.foldl (fun (c : BitVec 32) (b : Byte) =>
    (List.range 8).foldl (fun (c : BitVec 32) k =>
      if (c.getLsbD 31) != (b.getLsbD (7 - k)) then (c <<< 1) ^^^ 0x04C11DB7#32 else c <<< 1) c) 0xFFFFFFFF#32

/-- Adler-32. -/
def adler32 (l : List Byte) : Nat :=
  let p := l.foldl (fun (p : Nat × Nat) b => let a := (p.1 + b.toNat) % 65521; (a, (p.2 + a) % 65521)) (1, 0)
  p.2 * 65536 + p.1

end Sys2Proof.Machine
end

