-- ==== Sys2Proof/Machine/Slice.lean ====
section
/-! DEFINITION. Operations on an actuator slice that several chapters share: modes and permits, ending media operations,
re-identification, unloading, losing a surface or an actuator, and the channel's error report. -/

namespace Sys2Proof.Machine

open Sys2Proof

/-- Whether function k is running (R34). -/
def State.funcRunning (s : State) (k : Nat) : Bool := s.fld (Adr.FUNC_CTRL k) Fld.FUNC_CTRL_state == 0

/-- The mode of an actuator's loop: 0 unloaded, 1 following, 2 seeking, 3 re-identifying. -/
def State.mode (s : State) (a : Fin 4) : Nat := s.fld (Adr.SRV_STATUS a) Fld.SRV_STATUS_mode

/-- Set the mode. -/
def State.setMode (s : State) (a : Fin 4) (m : Nat) : State := s.setFld (Adr.SRV_STATUS a) Fld.SRV_STATUS_mode m

/-- Withdraw the servo write permit. -/
def State.noPermit (s : State) (a : Fin 4) : State := s.setFlag (Adr.SRV_STATUS a) Fld.SRV_STATUS_wr_permit false

/-- The loop is no longer settled, and the settle count starts again (R149). -/
def State.unsettle (s : State) (a : Fin 4) : State :=
  (s.setFlag (Adr.SRV_STATUS a) Fld.SRV_STATUS_settled false).modServo a (fun x => { x with settleRun := 0 })

/-- Request an abort of the lead sequencer (R117). -/
def State.requestAbort (s : State) (a : Fin 4) : State := s.setFlag (Adr.FSQ_STATUS a) Fld.FSQ_STATUS_abort_pend true

/-- The slice ends its media operations: the lead aborts and nothing further starts. -/
def State.endMediaOps (s : State) (a : Fin 4) : State := (s.requestAbort a).modAct a (fun x => { x with ended := true })

/-- The selected head. -/
def State.head (s : State) (a : Fin 4) : Nat := s.fld (Adr.CHN_STATUS a) Fld.CHN_STATUS_head

/-- The surface of the selected head (R47). -/
def State.surface (s : State) (a : Fin 4) : Nat := 8 * a + s.head a

/-- The present track. -/
def State.track (s : State) (a : Fin 4) : Nat := s.fld (Adr.SRV_TRACK a) Fld.SRV_TRACK_track

/-- The active zones of the selected head. -/
def State.headZones (s : State) (a : Fin 4) : List Zone := (zonesOf s.reg a (s.head a)).map (fun p => p.2)

/-- The present zone of the selected head. -/
def State.presentZone (s : State) (a : Fin 4) : Option Zone :=
  zoneAt s.reg a (s.head a) (s.fld (Adr.CHN_STATUS a) Fld.CHN_STATUS_zone)

/-- Data cells per revolution of the present zone; 0 without one. -/
def State.cellsPerRev (s : State) (a : Fin 4) : Nat := match s.presentZone a with | some z => z.cells | none => 0

/-- The clock state: 0 LOST, 1 LOCK, 2 RHOLD, 3 HOLD (R93). -/
def State.clock (s : State) (a : Fin 4) : Nat := s.fld (Adr.BTN_CLK a) Fld.BTN_CLK_state

/-- Set the clock state. The interval's own permission stays: LOST permits no write by the state (R93). -/
def State.setClock (s : State) (a : Fin 4) (c : Nat) : State := s.setFld (Adr.BTN_CLK a) Fld.BTN_CLK_state c

/-- The interval that the last rafter opened is not write-permitted any more (R94 to R97). -/
def State.forbidInterval (s : State) (a : Fin 4) : State :=
  (s.setFlag (Adr.BTN_CLK a) Fld.BTN_CLK_wg_permit false).modBatten a (fun b => { b with noPermit := true })

/-- The restrictions of R98 and R99 no longer apply. -/
def State.headSettled (s : State) (a : Fin 4) : Bool :=
  let b := (s.act a).batten
  b.needRafters == 0 && !b.needValid && !b.needBoundary

/-- The clock state permits writing (R93, R95). -/
def State.clockPermits (s : State) (a : Fin 4) : Bool :=
  (s.clock a == 1 || s.clock a == 2) && s.flag (Adr.BTN_CLK a) Fld.BTN_CLK_wg_permit

/-- Every condition of R79 but the sequencer's request. -/
def State.writePermitted (s : State) (a : Fin 4) : Bool :=
  s.clockPermits a && !s.flag (Adr.CHN_STATUS a) Fld.CHN_STATUS_pflt && !(s.act a).pfltHeld
    && s.flag (Adr.SRV_STATUS a) Fld.SRV_STATUS_wr_permit && s.headSettled a && !(s.act a).ended
    && s.fld Adr.FLT_STATE Fld.FLT_STATE_fault_state != 3

/-- Drop ACTn_WG: what is being written ends (R77, R152, R190). -/
def State.dropGate (s : State) (a : Fin 4) : State :=
  ((s.setFlag (Adr.CHN_STATUS a) Fld.CHN_STATUS_wg_pin false).setFlag (Adr.CHN_STATUS a) Fld.CHN_STATUS_writing false).modAct a
    (fun x => { x with gate := none })

/-- Latch a sequencer event condition (R110). -/
def State.latchCond (s : State) (a : Fin 4) (k : Nat) : State :=
  s.modSeq a (fun q => { q with latches := q.latches ||| 2 ^ k })

/-- The entry of the sector list that the running channel operation serves. -/
def State.runningEntry (s : State) (a : Fin 4) : Option Entry :=
  (s.act a).seq.running.bind (fun o => (s.act a).seq.list[o.entry]?)

/-- Post a channel code to entry i at an instant: an entry carries the first error that occurred, of one clock the highest (R102). -/
def Sequencer.post (q : Sequencer) (i code now : Nat) : Sequencer :=
  { q with list := q.list.modify i (fun e =>
      if e.code = 0 ∨ (e.codeAt = now ∧ e.code < code) then { e with code := code, codeAt := now } else e) }

/-- Mark entry i finished with an outcome. -/
def Sequencer.finish (q : Sequencer) (i outcome : Nat) : Sequencer :=
  { q with list := q.list.modify i (fun e => if e.outcome.isSome then e else { e with outcome := some outcome }) }

/-- Entry i of the list stays when the entries that meet a test leave: one that does not meet it, and one that a channel operation serves or is armed
for. -/
def Sequencer.stays (q : Sequencer) (gone : Entry → Bool) (i : Nat) : Bool :=
  match q.list[i]? with
  | some e => !gone e || (q.running.toList ++ q.armed.toList).any (fun o => o.entry == i)
  | none => true

/-- The entries that meet a test leave the list and its copy at the last abort point, or are returned while a channel operation is for them; the slots
that name the other entries follow them. -/
def Sequencer.dropEntries (q : Sequencer) (gone : Entry → Bool) : Sequencer :=
  let ok := q.stays gone
  let at_ (i : Nat) : Option Nat := if ok i then some ((List.range i).filter ok).length else none
  let op (o : ChanOp) : Option ChanOp := (at_ o.entry).map (fun i => { o with entry := i })
  let cut (l : List Entry) : List Entry :=
    (l.zipIdx.filter (fun p => ok p.2)).map (fun p => if gone p.1 then { p.1 with returned := true } else p.1)
  { q with
    list := cut q.list, cur := q.cur.bind at_, look := q.look.bind at_, running := q.running.bind op, armed := q.armed.bind op
    ckpt := { q.ckpt with
      list := cut q.ckpt.list, cur := q.ckpt.cur.bind at_, look := q.ckpt.look.bind at_
      running := q.ckpt.running.bind op, armed := q.ckpt.armed.bind op } }

/-- An entry of a command, for a write or for a read. -/
def Entry.isOf (e : Entry) (write : Bool) (a q c : Nat) : Bool := e.write == write && e.assoc == a && e.qid == q && e.cid == c

/-- The write or the read entries of a command leave the sector lists. -/
def State.dropList (s : State) (write : Bool) (a q c : Nat) : State :=
  s.forActs (fun s n =>
    if (s.act n).seq.list.any (fun e => e.isOf write a q c) then s.modSeq n (fun r => r.dropEntries (fun e => e.isOf write a q c)) else s)

/-- The channel reports an error: its sticky bit, the last code and its place, and the event of R102. wh is the sync concerned
for codes 1 and 5 (0 sector, 1 resync, 2 rafter, 3 where no sync is concerned); last_where keeps that of the last of these two. -/
def State.chanError (s : State) (a : Fin 4) (code wh : Nat) (budget : Bool) (head track sector : Nat) : State :=
  let e := Adr.CHN_ERR a
  let s1 := s.setReg e (setBits (setBits (setBits (s.reg e ||| BitVec.ofNat 32 (2 ^ code)) Fld.CHN_ERR_last_code code)
    Fld.CHN_ERR_last_where (if code = 1 ∨ code = 5 then wh else s.fld e Fld.CHN_ERR_last_where))
    Fld.CHN_ERR_budget (if code = 3 then b2n budget else s.fld e Fld.CHN_ERR_budget))
  let s2 := (s1.setFld (Adr.CHN_ERRLOC0 a) Fld.CHN_ERRLOC0_head head).setFld (Adr.CHN_ERRLOC0 a) Fld.CHN_ERRLOC0_track track
  let s3 := (s2.setFld (Adr.CHN_ERRLOC1 a) Fld.CHN_ERRLOC1_rafter (s.act a).batten.index).setFld (Adr.CHN_ERRLOC1 a)
    Fld.CHN_ERRLOC1_sector sector
  s3.actEvent a code

/-- A sector becomes erased and passes to recovery (R226), unless it already is. -/
def State.erase (s : State) (x : Nat) : State :=
  if s.media.erased.any (fun e => e.media == x) then s
  else { s with media := { s.media with erased := s.media.erased ++ [{ media := x, since := s.now }] } }

/-- The channel reports an error of the sector it is running, and posts its code to that entry; a sector that is read becomes erased by codes
1 and 5 (R102, R226). DESIGN CHOICE (log entry 142): with no sector in hand CHN_ERRLOC1.sector takes 0. -/
def State.sectorError (s : State) (a : Fin 4) (code wh : Nat) : State :=
  let q := (s.act a).seq
  let i := match q.running with | some o => o.entry | none => q.cur.getD q.list.length
  match q.list[i]? with
  | some e =>
    let s1 := (s.chanError a code wh false e.head e.track e.sector).modSeq a (fun q => q.post i code s.now)
    if !e.write ∧ (code = 1 ∨ code = 5) then s1.erase e.media else s1
  | none => s.chanError a code wh false (s.head a) (s.track a) 0

/-- Enter re-identification (R137). -/
def State.enterReident (s : State) (a : Fin 4) : State :=
  let s1 := ((s.setMode a 3).noPermit a).unsettle a
  let s2 := s1.modServo a (fun x => { x with seek := none, reseek := false, uVcm := 0, uMa := 0, preset := none
                                             reidentLast := none, predicted := 0, discards := 0, firstAfterSwitch := false
                                             wrongTrack := none })
  let s3 := s2.setFld (Adr.SRV_OUT a) Fld.SRV_OUT_ma 0
  (s3.setFlag (Adr.SRV_STICKY a) Fld.SRV_STICKY_reident true).setFld (Adr.MDI_SURF a) Fld.MDI_SURF_act_state 1

/-! ## The power-IC port (R181, R511) -/

/-- The place of a frame's kind in the order of R181. -/
def PicKind.rank (k : PicKind) : Nat :=
  match k with
  | .retract => 0
  | .vcm => 1
  | .vbus => 2
  | .park => 3

/-- A frame goes before another: by its kind, then in ascending actuator order (R181). -/
def PicFrame.before (f g : PicFrame) : Bool :=
  decide (f.kind.rank < g.kind.rank) || (f.kind == g.kind && decide (f.act < g.act))

/-- A frame joins those that wait, behind every one that does not go after it. -/
def picQueue (l : List PicFrame) (f : PicFrame) : List PicFrame :=
  match l with
  | [] => [f]
  | g :: r => if f.before g then f :: g :: r else g :: picQueue r f

/-- A frame may start now: a VCM demand or retract frame at once; another only from 1.0 µs after the end of a servo sample period, and only if its
120 ns end within the period of 3.90625 µs (R511), counted in quarters of a ns. -/
def State.picMay (s : State) (f : PicFrame) : Bool :=
  let d := (s.now - s.pic.sampleEnd) * 4 % 15625
  f.kind == .retract || f.kind == .vcm || (decide (4000 ≤ d) && decide (d + 480 ≤ 15625))

/-- The port ends a frame whose time is over, and starts the next that may start; a frame in progress is never cut (R181, R511). -/
def State.picGo (s : State) : State :=
  let p := match s.pic.busy with
    | some f => if s.pic.until_ ≤ s.now then { s.pic with busy := none, sent := s.pic.sent ++ [f] } else s.pic
    | none => s.pic
  match p.busy, p.waiting with
  | none, f :: r => if s.picMay f then { s with pic := { p with busy := some f, until_ := s.now + 120, waiting := r } } else { s with pic := p }
  | _, _ => { s with pic := p }

/-- Send a frame: 8 bits of address and 16 of data, to a chip select (R181, R511). -/
def State.picSend (s : State) (kind : PicKind) (a cs addr data : Nat) : State :=
  { s with pic := { s.pic with waiting := picQueue s.pic.waiting ⟨kind, a, cs, addr % 256 * 65536 + data % 65536⟩ } }.picGo

/-- Send a retract or unload frame to an actuator's power IC, at its address pic_unload (R137, R162, R183, R190); an unload frame keeps the
precedence of a retract frame (log entry 154). -/
def State.picFrame (s : State) (a : Fin 4) (data : Nat) : State :=
  s.picSend .retract a (s.fld (Adr.SRV_IOCFG a) Fld.SRV_IOCFG_pic_cs) (s.fld (Adr.SRV_IOCFG a) Fld.SRV_IOCFG_pic_unload) data

/-- Send a VCM demand frame: the demand's upper 16 bits, to an actuator's power IC (R145, R183). -/
def State.picDemand (s : State) (a : Fin 4) (demand : Int) : State :=
  s.picSend .vcm a (s.fld (Adr.SRV_IOCFG a) Fld.SRV_IOCFG_pic_cs) (s.fld (Adr.SRV_IOCFG a) Fld.SRV_IOCFG_pic_addr) (unsigned 16 demand)

/-- Send a read of an actuator's park status (R183). -/
def State.picParkRead (s : State) (a : Fin 4) : State :=
  s.picSend .park a (s.fld (Adr.SRV_IOCFG a) Fld.SRV_IOCFG_pic_cs) (s.fld Adr.SPN_IOCFG Fld.SPN_IOCFG_park_addr) 0

/-- Every frame of the port: sent, in progress, waiting. -/
def Pic.frames (p : Pic) : List PicFrame := p.sent ++ p.busy.toList ++ p.waiting

/-- Unload: the mode becomes unloaded, and no seek, held seek or permit stands. -/
def State.unloaded (s : State) (a : Fin 4) : State :=
  (((s.setMode a 0).noPermit a).unsettle a).modServo a
    (fun x => { x with seek := none, heldSeek := none, reseek := false, predicted := 0, predictedPrev := 0, preset := none, uVcm := 0, uMa := 0
                       firstAfterSwitch := false })

/-- Send the power-IC unload frame of SRV_IOCFG and unload (R137, R162). -/
def State.unloadFrame (s : State) (a : Fin 4) : State := (s.picFrame a 1).unloaded a

/-! ## Missing units, lost surfaces and lost actuators (R241 to R246) -/

/-- Whether surface x counts as lost. -/
def Media.surfaceGone (m : Media) (x : Nat) : Bool := m.lostSurfaces.contains x || m.lostActs.contains (x / 8)

/-- Whether unit j of truss T is missing: its surface is lost and no rebuild stands on a surface that is not (R244). -/
def Media.missing (m : Media) (l : Layout) (t j : Nat) : Bool :=
  match m.rebuilt.find? (fun r => r.truss == t && r.unit == j) with
  | some r => m.surfaceGone r.surface
  | none => m.surfaceGone (unitSurface l.q t j)

/-- Data unit j of truss t is clean: it counts as zeros in parity and is not read (R72, R379). -/
def Media.isClean (m : Media) (t j : Nat) : Bool := decide (j < 8) && !m.units.contains (9 * t + j)

/-- Units of truss T that are missing. -/
def Media.missingCount (m : Media) (l : Layout) (t : Nat) : Nat := ((List.range 9).filter (m.missing l t)).length

/-- Whether truss T is broken: two or more units missing at once (R244). -/
def Media.isBroken (m : Media) (l : Layout) (t : Nat) : Bool := decide (2 ≤ m.missingCount l t)

/-- Trusses below tmax that satisfy p, where p of a medium without rebuilt units repeats with 9 times the length of Q. -/
def Media.countTrusses (m : Media) (l : Layout) (p : Media → Nat → Bool) : Nat :=
  let n := 9 * l.q.length
  let special := (m.rebuilt.map (fun r => r.truss)).eraseDups
  let plain : Media := { m with rebuilt := [] }
  let base := ((List.range n).filter (p plain)).foldl (fun acc r => acc + (if r < l.tmax then (l.tmax - 1 - r) / n + 1 else 0)) 0
  base + (special.filter (p m)).length - (special.filter (p plain)).length

/-- Broken trusses. -/
def Media.brokenCount (m : Media) : Nat :=
  match m.layout with
  | none => 0
  | some l => m.countTrusses l (fun m => m.isBroken l)

/-- The surface unit j of truss t lies on: where it was rebuilt, else where the layout puts it (R70, R243). -/
def Media.unitOn (m : Media) (l : Layout) (t j : Nat) : Nat :=
  match m.rebuilt.find? (fun r => r.truss == t && r.unit == j) with | some r => r.surface | none => unitSurface l.q t j

/-- The data unit of truss t that is to be rebuilt for surface x: it lies there, the surface is lost, and the truss is not broken (R243, R244). -/
def Media.toRebuild (m : Media) (l : Layout) (x t : Nat) : Option Nat :=
  (List.range 8).find? (fun j => m.unitOn l t j == x && m.missing l t j && !m.isBroken l t)

/-- MDI_RBLEFT follows the units still to be rebuilt, of all queued surfaces. -/
def State.syncRebuild (s : State) : State :=
  let n := match s.media.layout with
    | some l => s.media.rebuildQueue.foldl (fun n x => n + s.media.countTrusses l (fun m t => (m.toRebuild l x t).isSome)) 0
    | none => 0
  s.setFld Adr.MDI_RBLEFT Fld.MDI_RBLEFT_units (min n (2 ^ 32 - 1))

/-- Record the trusses a loss newly broke, as event 0x385 (R244). -/
def State.noteBroken (before : State) (s : State) : State :=
  let n := s.media.brokenCount - before.media.brokenCount
  if n = 0 then s.syncRebuild else s.syncRebuild.event 0x385 n

/-- Surfaces of an actuator with a valid zone entry. -/
def State.actSurfaces (s : State) (a : Nat) : List Nat :=
  ((List.range 8).filter (fun h => !(zonesOf s.reg a h).isEmpty)).map (fun h => 8 * a + h)

/-- An actuator is lost (R245, R246). -/
def State.actuatorLost (s : State) (a : Fin 4) : State :=
  if s.media.lostActs.contains a.val then s
  else
    let s1 := { s with media := { s.media with
      lostActs := s.media.lostActs ++ [a.val]
      rebuildQueue := s.media.rebuildQueue ++ (s.actSurfaces a).filter (fun x => !s.media.lostSurfaces.contains x) } }
    let s2 := ((s1.endMediaOps a).unloaded a).modAct a (fun x => { x with lost := true })
    let s3 := (s2.setFld (Adr.MDI_SURF a) Fld.MDI_SURF_act_state 2).event 0x381
    State.noteBroken s s3

/-- A surface is lost (R241); an actuator every surface of which is lost is lost with it (R245). -/
def State.surfaceLost (s : State) (x : Nat) : State :=
  if s.media.lostSurfaces.contains x then s
  else
    let a := surfaceAct x
    let s1 := { s with media := { s.media with
      lostSurfaces := s.media.lostSurfaces ++ [x]
      rebuildQueue := s.media.rebuildQueue ++ [x]
      unrec := s.media.unrec } }
    let lost := s.fld (Adr.MDI_SURF a) Fld.MDI_SURF_lost
    let s2 := (s1.setFld (Adr.MDI_SURF a) Fld.MDI_SURF_lost (lost ||| 2 ^ (x % 8))).actEvent a 0x74
    let s3 := State.noteBroken s s2
    if (s.actSurfaces a).all (fun y => s3.media.lostSurfaces.contains y) then s3.actuatorLost a else s3

/-- Add an LBA to the unrecovered list (R232), with its surface, and count it (R252); a full list first loses its fullest head, and more than 256
entries of a surface within 24 h lose that surface (R241). -/
def State.addUnrec (s : State) (ns lba x : Nat) : State :=
  if s.media.unrec.any (fun u => u.ns == ns && u.lba == lba) then s
  else
    let counts := (List.range 32).map (fun y => (s.media.unrec.filter (fun u => u.surface == y)).length)
    let worst := (List.range 32).foldl (fun b y => if counts.getD b 0 < counts.getD y 0 then y else b) 0
    let full := decide (16384 ≤ s.media.unrec.length)
    let s1 := if full then
        let t := s.surfaceLost worst
        { t with media := { t.media with unrec := t.media.unrec.filter (fun u => u.surface != worst) } }
      else s
    let s2 := if full && x == worst then s1
      else { s1 with media := { s1.media with
        unrec := s1.media.unrec ++ [⟨ns, lba, x, s.now⟩], unrecovered := s1.media.unrecovered + 1 } }
    let s3 := s2.countFld (Adr.MDI_CNT1 (x / 8)) Fld.MDI_CNT1_unrecovered
    if 256 < (s3.media.unrec.filter (fun u => u.surface == x && decide (s.now < u.since + 86400000000000))).length
    then s3.surfaceLost x else s3

end Sys2Proof.Machine
end

