-- ==== Sys2Proof/Machine/TimeBase.lean ====
section
/-! DEFINITION. The Time region (R195 to R222): the time base and its sources, the phase plan and the phase loop, and the claims
of the GLK_OUT balls. Instants are in 1/65,536 ns. -/

namespace Sys2Proof.Machine

open Sys2Proof

/-- The next free value, modulo n, and the state with it used. -/
def State.free (s : State) (n : Nat) : Nat × State :=
  ((Config.free s.fresh).toNat % n, { s with fresh := s.fresh + 1 })

/-- Change the time block. -/
def State.modTime (s : State) (f : Time → Time) : State := { s with time := f s.time }

/-- Change the spindle block. -/
def State.modSpn (s : State) (f : Spn → Spn) : State := { s with spn := f s.spn }

/-! ## Speeds and heads -/

/-- The spindle's state: 0 stopped, 1 park check, 2 sensing, 3 braking, 4 position sensing, 5 forced, 6 running, 7 spinning down,
8 coast. -/
def State.spin (s : State) : Nat := s.fld Adr.SPN_STATUS Fld.SPN_STATUS_state

/-- SPN_STATUS.at_speed. -/
def State.atSpeed (s : State) : Bool := s.flag Adr.SPN_STATUS Fld.SPN_STATUS_at_speed

/-- Whether any actuator's heads are loaded. -/
def State.loaded (s : State) : Bool := (List.finRange 4).any (fun a => s.mode a != 0)

/-! ## The time base (R195 to R199) -/

/-- The time base in ns. -/
def State.ns (s : State) : Nat := s.time.tb / 65536

/-- The state of the time base: 0 FREE, 1 ACQUIRING, 2 LOCKED, 3 HOLDOVER, 4 UNLOCKED. -/
def State.tbState (s : State) : Nat := s.fld Adr.TMB_STATUS Fld.TMB_STATUS_state

/-- Set it. -/
def State.setTb (s : State) (n : Nat) : State := s.setFld Adr.TMB_STATUS Fld.TMB_STATUS_state n

/-- One 500 MHz clock: 2 ns and the frequency correction (R195); the power-IC port goes on (R181). -/
def State.tick (s : State) : State :=
  let step := if s.restarting 2 then 0 else (131072 + s.time.freq).toNat
  { s with now := s.now + 2, time := { s.time with tb := (s.time.tb + step) % 2 ^ 80 } }.picGo

/-- The phase loop's state: 0 OFF, 1 WAIT, 2 APPROACH, 3 PULL, 4 LOCKED, 5 MISMATCH, 6 HOLD. -/
def State.phase (s : State) : Nat := s.fld Adr.TMB_PLSTAT Fld.TMB_PLSTAT_state

/-- Set it. -/
def State.setPhase (s : State) (n : Nat) : State := s.setFld Adr.TMB_PLSTAT Fld.TMB_PLSTAT_state n

/-- The applied trim, in 1/65,536 % of spd_ref. -/
def State.trim (s : State) : Int := s.sfld Adr.SPN_ANGLE Fld.SPN_ANGLE_trim

/-- Set it. -/
def State.setTrim (s : State) (t : Int) : State := s.setSFld Adr.SPN_ANGLE Fld.SPN_ANGLE_trim t

/-- Whether the phase loop can leave WAIT: the time base LOCKED or HOLDOVER, at speed, a head loaded (R212). -/
def State.canPull (s : State) : Bool := (s.tbState == 2 || s.tbState == 3) && s.atSpeed && s.loaded

/-- The speed the spindle is set to: in PS3 5,400 rpm, else spd_ref (R210, R467). -/
def State.spdNow (s : State) : Nat :=
  if s.fld Adr.PWR_STATE Fld.PWR_STATE_ps = 3 ∧ !s.flag Adr.PWR_STATE Fld.PWR_STATE_exiting then 5400 else s.spdRef

/-- Nothing of an approach stands: none runs and none is due. -/
def Time.noApproach (t : Time) : Time := { t with approach := none, approachDue := false }

/-- The phase loop's state follows what it depends on (R210, R212); an approach, and one due, end with PULL and LOCKED (R213, R216). -/
def State.phaseCheck (s : State) : State :=
  if !s.flag Adr.TMB_MEMBER Fld.TMB_MEMBER_en then
    if s.phase = 0 then s else ((s.setPhase 0).setTrim 0).modTime Time.noApproach
  else if !s.funcRunning 8 then s.setPhase 6
  else if s.fld Adr.TMB_PLAN Fld.TMB_PLAN_rpm_p ≠ s.spdNow then
    if s.phase = 5 then s
    else (((s.setPhase 5).setTrim 0).modTime Time.noApproach).event 0x34A
  else if !s.canPull then (s.setPhase 1).modTime Time.noApproach
  else if s.phase = 2 ∨ s.phase = 3 ∨ s.phase = 4 then s
  else (s.setPhase 3).modTime (fun t => { t with sumE := 0, errBad := 0, errGood := 0 })

/-- Which sources are selected: PTP, Geryn (R207). -/
def State.srcSelected (s : State) : Bool × Bool :=
  let v := s.fld Adr.TMB_SRCCFG Fld.TMB_SRCCFG_src_sel
  (v == 0 || v == 2, v == 1 || v == 2)

/-- Which selected sources are present. -/
def State.srcUsed (s : State) : Nat :=
  b2n (s.srcSelected.1 && s.time.ptpOk) + 2 * b2n (s.srcSelected.2 && s.flag Adr.GLK_STATUS Fld.GLK_STATUS_pps)

/-- The average correction of the last 64 s of LOCKED, or of the whole of it when shorter: sums over the pieces of hist, newest
first, from the time t down to lo (R197). -/
def averageFrom (hist : List (Nat × Int)) (t lo : Nat) : Int × Nat :=
  match hist with
  | [] => (0, 0)
  | (at_, f) :: r =>
    let from_ := max at_ lo
    let d := t - from_
    let rest := if at_ ≤ lo then (0, 0) else averageFrom r at_ lo
    (f * d + rest.1, d + rest.2)

/-- The holdover frequency correction (R197). -/
def State.holdFreq (s : State) : Int :=
  let p := averageFrom s.time.hist s.now (s.now - 64000000000)
  if p.2 = 0 then (match s.time.hist with | (_, f) :: _ => f | [] => s.time.freq) else p.1 / (p.2 : Int)

/-- Enter HOLDOVER from LOCKED (R197). -/
def State.enterHoldover (s : State) : State :=
  let f := s.holdFreq
  ((s.setTb 3).modTime (fun t => { t with freq := f, holdFreq := f, holdUsed := 0, holdFrom := s.now })).event 0x341

/-- Enter ACQUIRING: the holdover time pauses (R197). -/
def State.enterAcquiring (s : State) : State :=
  let was := s.tbState
  (s.setTb 1).modTime (fun t => { t with
    acqFrom := was, good := 0, stepFirst := was == 0 || was == 4
    holdUsed := if was = 3 then t.holdUsed + (s.now - t.holdFrom) else t.holdUsed })

/-- The frequency correction of a state entered without a source: none in FREE, else that of the last holdover (R197). -/
def Time.freeRun (t : Time) (st : Nat) : Time := { t with freq := if st = 0 then 0 else t.holdFreq }

/-- Every selected source is lost (R197, R223). -/
def State.sourcesGone (s : State) : State :=
  if s.tbState = 2 then s.enterHoldover
  else if s.tbState = 1 then
    let s1 := (s.setTb s.time.acqFrom).modTime (fun t => { t.freeRun t.acqFrom with holdFrom := s.now, stepFirst := false })
    if s.time.acqFrom = 3 then s1.event 0x341 else s1
  else s

/-- The set of present sources has changed: TMB_STATUS.src_used follows it, a received source starts acquisition, and the loss of
every selected source ends it. Nothing moves the state while the time base function is not running (R197, R207). -/
def State.sourcesChanged (s : State) : State :=
  let used := s.srcUsed
  let s1 := s.setFld Adr.TMB_STATUS Fld.TMB_STATUS_src_used used
  if !s.funcRunning 9 then s1
  else if used = 0 then s1.sourcesGone.phaseCheck
  else if s1.tbState = 0 ∨ s1.tbState = 3 ∨ s1.tbState = 4 then s1.enterAcquiring.phaseCheck
  else s1

/-- An offset saturated to whole ns for a 32 bit register. -/
def nsSat (e : Int) : Int := limit (-2147483648) 2147483647 (e / 65536)

/-- The greatest correction of one step, ±200 ppm of 2 ns, in 1/65,536 ns (R198). -/
def freqMax : Int := 26

/-- The time base steps by an offset: instants kept on it that lie in the present move with it, so that a launch angle keeps its index (R198, R219). -/
def Time.stepBy (t : Time) (off : Int) : Time :=
  let moved (x : Nat) : Nat := ((x : Int) - off).toNat
  { t with
    tb := moved t.tb % 2 ^ 80, lastIndex := t.lastIndex.map moved, gEdge := t.gEdge.map moved, ptpOffset := t.ptpOffset.map (· - off)
    exchange := t.exchange.map (fun e => { e with t2 := moved e.t2, t3 := moved e.t3 })
    stepFirst := false, steps := min (t.steps + 1) (2 ^ 32 - 1) }

/-- TIME_MEASUREMENT: a measurement of an offset (time base minus source): a step or a slew, and the state machine (R197, R198). While
the time base function is not running it only updates TMB_OFFSET (R207). -/
def State.measure (s : State) (off : Int) : State :=
  let s0 := s.setSFld Adr.TMB_OFFSET Fld.TMB_OFFSET_offset (nsSat off)
  if !s.funcRunning 9 then s0
  else
    let stepping := s0.time.stepFirst || decide (65536000000 < off.natAbs)
    let s1 :=
      if stepping then
        ((s0.modTime (fun t => t.stepBy off)).setFlag Adr.TMB_STATUS Fld.TMB_STATUS_stepped true).event 0x34D
      else
        let r := s0.free 53
        let f : Int := r.1 - freqMax
        r.2.modTime (fun t => { t with freq := f, hist := if s0.tbState = 2 then (s.now, f) :: t.hist else t.hist })
    if s1.tbState = 1 then
      let n := if off.natAbs < 200 * 65536 then s1.time.good + 1 else 0
      if 16 ≤ n then ((s1.setTb 2).modTime (fun t => { t with good := n, hist := [(s.now, t.freq)] })).event 0x340 |>.phaseCheck
      else s1.modTime (fun t => { t with good := n })
    else s1

/-- The holdover time in ns: what was used before ACQUIRING, and since (R197). -/
def State.holdTime (s : State) : Nat := s.time.holdUsed + (s.now - s.time.holdFrom)

/-- HOLDOVER_EXPIRY: holdover_max seconds of HOLDOVER have passed, be it that of a stop (R197, R207). -/
def execHoldoverExpiry (s : State) : Res :=
  if s.tbState = 3 ∧ s.fld Adr.TMB_HOLD Fld.TMB_HOLD_holdover_max * 1000000000 ≤ s.holdTime then
    .next ((((s.setTb 4).modTime (fun t => { t with under := t.under.map (fun _ => 4) })).event 0x342).phaseCheck)
  else .next s

/-! ## PTP (R200, R201) -/

/-- Whether a data set is better than another: the first difference decides, the lower value is better. -/
def keyLess (a b : List Nat) : Bool :=
  match a, b with
  | x :: r, y :: t => decide (x < y) || (x == y && keyLess r t)
  | _, _ => false

/-- The best of the foreign masters. -/
def bestOf (l : List Master) : Option Master :=
  l.foldl (fun b m => match b with | some c => if keyLess m.key c.key then some m else some c | none => some m) none

/-- Whether a PTP message is one the device uses: on its port, with the link up, in its domain, on its transport, untagged or of its VLAN (R200,
R201). -/
def State.ptpHeard (s : State) (h : PtpHeader) : Bool :=
  let c := Adr.TMB_SRCCFG
  h.port == s.fld Adr.TMB_STATUS Fld.TMB_STATUS_ptp_port && h.domain == s.fld c Fld.TMB_SRCCFG_domain
    && h.transport == s.fld c Fld.TMB_SRCCFG_transport && (h.vlan == 0 || h.vlan == s.fld c Fld.TMB_SRCCFG_vlan)
    && s.flag (Adr.NET_STATUS h.port) Fld.NET_STATUS_link

/-- A hardware timestamp of the present: 1 ns of resolution (R200). -/
def State.stamp (s : State) : Nat := s.time.tb / 65536 * 65536

/-- Take the UTC offset and leap flags a source supplies (R195). -/
def State.takeUtc (s : State) (off : Int) (l61 l59 : Bool) : State :=
  let a := Adr.TMB_UTC
  (((s.setFlag a Fld.TMB_UTC_valid true).setFlag a Fld.TMB_UTC_leap61 l61).setFlag a Fld.TMB_UTC_leap59 l59).setSFld a
    Fld.TMB_UTC_utc_offset off

/-- Select the best master anew: a change from one master to another records event 0x343; without a master PTP is lost (R201). -/
def State.selectMaster (s : State) : State :=
  let b := (bestOf s.time.masters).map (fun m => m.ident)
  if b = s.time.best then s
  else
    let s1 := s.modTime (fun t => { t with best := b, ptpOk := false, ptpOffset := none, exchange := none })
    let s2 := if s.time.best.isSome && b.isSome then
        (s1.modTime (fun t => { t with masterChanges := min (t.masterChanges + 1) (2 ^ 32 - 1) })).event 0x343
      else s1
    s2.sourcesChanged

/-- PTP_ANNOUNCE: a foreign master is heard or refreshed; the best is selected, and its UTC offset and leap flags reported while PTP is a selected
source (R195, R200). -/
def execPtpAnnounce (h : PtpHeader) (m : Master) (s : State) : Res :=
  if !s.ptpHeard h then .next s
  else
    let s1 := (s.modTime (fun t => { t with masters := t.masters.filter (fun x => x.ident != m.ident) ++ [m] })).selectMaster
    .next (if s1.time.best = some m.ident ∧ m.utcValid ∧ s1.srcSelected.1 then s1.takeUtc m.utcOffset m.leap61 m.leap59 else s1)

/-- PTP_ANNOUNCE_TIMEOUT: a foreign master is no longer heard. -/
def execPtpAnnounceTimeout (ident : Nat) (s : State) : Res :=
  .next ((s.modTime (fun t => { t with masters := t.masters.filter (fun x => x.ident != ident) })).selectMaster)

/-- The device answers a known Sync with Delay_Req on the PTP VLAN (R200); its PCP is not stated, and is that of transport control (log entry 144). -/
def State.delayReq (s : State) (e : Exchange) (t1 : Int) : State :=
  let p := s.fld Adr.TMB_STATUS Fld.TMB_STATUS_ptp_port
  let v := s.fld Adr.TMB_SRCCFG Fld.TMB_SRCCFG_vlan
  let s1 := s.modTime (fun t => { t with exchange := some { e with t1 := some t1, t3 := s.stamp } })
  { s1 with host := { s1.host with sent := s1.host.sent ++ [{ out := .ptp p e.seq, tag := if v = 0 then none else some (v, 7) }] } }

/-- PTP_SYNC: a Sync from the best master, at an accepted interval of 2 to the power interval seconds, is timestamped; a one-step Sync carries its
origin time, corrected, and a two-step one waits for its Follow_Up (R200). -/
def execPtpSync (h : PtpHeader) (ident seq : Nat) (interval : Int) (origin : Option Int) (s : State) : Res :=
  if !s.ptpHeard h || s.time.best != some ident || decide (interval < -7) || decide (1 < interval) then .next s
  else
    let e : Exchange := { seq := seq, t2 := s.stamp }
    let s1 := (s.modTime (fun t => { t with ptpOk := true, exchange := some e })).sourcesChanged
    .next (match origin with | some o => s1.delayReq e o | none => s1)

/-- PTP_FOLLOW_UP: the origin time of the two-step Sync before it, corrected (R200). -/
def execPtpFollowUp (h : PtpHeader) (ident seq : Nat) (origin : Int) (s : State) : Res :=
  match s.time.exchange with
  | some e =>
    if s.ptpHeard h && s.time.best == some ident && e.seq == seq && e.t1.isNone then .next (s.delayReq e origin)
    else .next s
  | none => .next s

/-- PTP_DELAY_RESP: the exchange is complete: mean path delay and offset; the measurement steers the time base when PTP gives the
phase (R198, R200, R207). receipt is the master's receipt of Delay_Req, corrected. -/
def execPtpDelayResp (h : PtpHeader) (ident seq : Nat) (receipt : Int) (s : State) : Res :=
  match s.time.exchange with
  | some { seq := q, t2 := t2, t1 := some t1, t3 := t3 } =>
    if s.ptpHeard h && s.time.best == some ident && q == seq then
      let delay : Int := ((t2 - t1) + (receipt - t3)) / 2
      let off : Int := t2 - t1 - delay
      let s1 := (s.modTime (fun t => { t with exchange := none, ptpOffset := some off })).setFld Adr.TMB_PDELAY Fld.TMB_PDELAY_delay
        (limit 0 4294967295 (delay / 65536)).toNat
      if s.srcSelected.1 ∧ s.srcUsed < 2 then .next (s1.measure off) else .next s1
    else .next s
  | _ => .next s

/-- PTP moves to the other port when the link of its port goes down and the setting is auto; it counts as lost meanwhile (R201). -/
def State.ptpLinkDown (s : State) (p : Nat) : State :=
  if s.fld Adr.TMB_STATUS Fld.TMB_STATUS_ptp_port ≠ p then s
  else
    let s1 := (s.modTime (fun t => { t with masters := [], best := none, ptpOk := false, ptpOffset := none, exchange := none })).sourcesChanged
    if 2 ≤ s.fld Adr.TMB_SRCCFG Fld.TMB_SRCCFG_ptp_port then
      (s1.setFld Adr.TMB_STATUS Fld.TMB_STATUS_ptp_port (1 - p)).event 0x344
    else s1

/-- A port's link ends with its function's stop or its region: it goes down, and PTP on it is lost, as on any link down, but no time of link loss runs
(R35, R201, R331, R340). -/
def State.linkGone (s : State) (p : Nat) : State :=
  let st := Adr.NET_STATUS p
  let s1 := (s.setFlag st Fld.NET_STATUS_link false).setFlag st Fld.NET_STATUS_an_done false
  let s2 := { s1 with host := { s1.host with linkDownAt := eraseKey s1.host.linkDownAt p, links := eraseKey s1.host.links p } }
  if s.flag st Fld.NET_STATUS_link then (s2.event 0x603).ptpLinkDown p else s2

/-! ## The Geryn link (R203 to R206) -/

/-- Whether accepted input is repeated on GLK_OUT (R205). -/
def State.repeating (s : State) : Bool :=
  s.flag Adr.GLK_CFG Fld.GLK_CFG_rep_en && s.flag Adr.GLK_CLAIM Fld.GLK_CLAIM_held

/-- Send on GLK_OUT: an empty list is a marker, else the bytes of a word. -/
def State.glkSend (s : State) (l : List Byte) : State := s.modTime (fun t => { t with glkOut := t.glkOut ++ [l] })

/-- The measurement of a Geryn marker, once its word has come: its on-time point is the edge less comp_ns and 40 ns a hop. Under both sources its seconds
are the PTP time at it rounded to a second, while PTP has given an offset; else those of the word, or the previous seconds + 1 (R204, R207). -/
def State.markerMeasured (s0 : State) (hop : Nat) : State :=
  match s0.time.gEdge with
  | none => s0
  | some edge =>
    let s := s0.modTime (fun t => { t with gEdge := none })
    let local_ : Int := (edge : Int) - ((s.fld Adr.GLK_CFG Fld.GLK_CFG_comp_ns + hop * 40) * 65536 : Nat)
    let second : Int := 65536000000000
    if !s.srcSelected.2 then s
    else
      match (if s.srcSelected.1 && s.time.ptpOk then s.time.ptpOffset else none), s.time.gSec with
      | some o, _ =>
        let ptp := local_ - o
        let k := (ptp + second / 2) / second
        let n := if 65536000 < (ptp - k * second).natAbs then s.time.gDisagree + 1 else 0
        let s1 := s.modTime (fun t => { t with gDisagree := if n = 16 then 0 else n })
        (if n = 16 then s1.event 0x347 else s1).measure (local_ - k * second)
      | none, some k => s.measure (local_ - k * second)
      | none, none => s

/-- A marker is missing: two in a row lose the Geryn source (R204). -/
def State.markerMissing (s : State) : State :=
  let n := s.time.gMissing + 1
  let s1 := s.modTime (fun t => { t with gMissing := n, gSec := t.gSec.map (fun k => k + 1), gLast := t.gLast.map (fun l => l + 1000000000) })
  if n = 2 ∧ s.flag Adr.GLK_STATUS Fld.GLK_STATUS_pps then
    (((s1.setFlag Adr.GLK_STATUS Fld.GLK_STATUS_pps false).modTime (fun t => { t with gLast := none, gEdge := none })).event 0x346).sourcesChanged
  else s1

/-- GERYN_MARKER: an edge is received and, where it is accepted, repeated; its word follows it. An edge outside 1 s ± 10 µs of the previous marker
counts as a missing one, and the next is expected a second after it (R203 to R205; log entry 132). -/
def execGerynMarker (s : State) : Res :=
  let fits := match s.time.gLast with
    | some l => decide (l + 999990000 ≤ s.now) && decide (s.now ≤ l + 1000010000)
    | none => true
  if !fits then .next ((s.markerMissing).modTime (fun t => { t with gLast := t.gLast.map (fun _ => s.now) }))
  else
    let s1 := (s.setFlag Adr.GLK_STATUS Fld.GLK_STATUS_pps true).modTime (fun t => { t with
      gSec := t.gSec.map (fun n => n + 1), gMissing := 0, gEdge := some t.tb, gLast := some s.now })
    .next (if s.repeating then s1.glkSend [] else s1).sourcesChanged

/-- The check of a Geryn word: CRC-16, polynomial 0x1021, initial value 0xFFFF (R203). -/
def gerynCheck (l : List Byte) : Nat :=
  (l.foldl (fun (c : BitVec 16) (b : Byte) =>
    (List.range 8).foldl (fun (c : BitVec 16) k =>
      if (c.getLsbD 15) != (b.getLsbD (7 - k)) then (c <<< 1) ^^^ 0x1021#16 else c <<< 1) c) 0xFFFF#16).toNat

/-- GERYN_WORD: the time-of-day word of the marker before it, which is then measured; a word with a bad check, another type or a hop of 16 or more is
discarded, and its marker used with the hop of the word before (R203 to R205; log entry 132). -/
def execGerynWord (bytes : List Byte) (s : State) : Res :=
  let w := fitBytes bytes 13
  let hop := (w.getD 10 0).toNat
  let st := Adr.GLK_STATUS
  if gerynCheck (w.take 11) ≠ ofBe (slice w 11 2) ∨ (w.getD 0 0).toNat ≠ 1 ∨ 16 ≤ hop then
    .next (((((s.setFlag st Fld.GLK_STATUS_word_ok false).countFld st Fld.GLK_STATUS_crc_err).modTime
      (fun t => { t with gerynErr := min (t.gerynErr + 1) (2 ^ 32 - 1) })).event 0x345).markerMeasured (s.fld st Fld.GLK_STATUS_last_hop))
  else
    let s1 := ((s.setFlag st Fld.GLK_STATUS_word_ok true).setFld st Fld.GLK_STATUS_last_hop hop).modTime
      (fun t => { t with gSec := some (ofBe (slice w 1 6)) })
    let fl := (w.getD 9 0).toNat
    let s2 := if s.srcSelected.2 && !(s.srcSelected.1 && s.time.ptpOk) then
        s1.takeUtc (signed 16 (ofBe (slice w 7 2))) (bitOf fl 1) (bitOf fl 2) else s1
    if s.repeating ∧ hop < 15 then
      let body := patchBytes (w.take 11) 10 [BitVec.ofNat 8 (hop + 1)]
      .next ((s2.glkSend (body ++ beBytes 2 (gerynCheck body))).markerMeasured hop)
    else .next (s2.markerMeasured hop)

/-- GERYN_MARKER_MISSING: no marker has come within 1 s ± 10 µs of the previous one (R204). -/
def execGerynMarkerMissing (s : State) : Res := .next s.markerMissing

/-- The effect of a write of GLK_CLAIM: a release, then a claim, refused while the trace output holds the balls (R206, R503). -/
def State.glkWrite (s : State) (v : Word) : State :=
  let a := Adr.GLK_CLAIM
  let s0 := if v.getLsbD 2 then s.setFlag a Fld.GLK_CLAIM_conflict false else s
  let s1 := if v.getLsbD 1 then s0.setFlag a Fld.GLK_CLAIM_held false else s0
  if !v.getLsbD 0 then s1
  else if s1.flag Adr.DBG_TRC Fld.DBG_TRC_held then (s1.setFlag a Fld.GLK_CLAIM_conflict true).event 0x34C
  else s1.setFlag a Fld.GLK_CLAIM_held true

/-- The effect of a write of DBG_TRC (R503, R504). -/
def State.traceWrite (s : State) (v : Word) : State :=
  let a := Adr.DBG_TRC
  let s0 := (if v.getLsbD 2 then s.setFlag a Fld.DBG_TRC_conflict false else s).setFlag a Fld.DBG_TRC_en (v.getLsbD 4)
  let s1 := if v.getLsbD 1 then s0.setFlag a Fld.DBG_TRC_held false else s0
  if !v.getLsbD 0 then s1
  else if s1.flag Adr.GLK_CLAIM Fld.GLK_CLAIM_held then (s1.setFlag a Fld.DBG_TRC_conflict true).event 0x34C
  else s1.setFlag a Fld.DBG_TRC_held true

/-- GLK_CLAIM: the owner writes claim. -/
def execGlkClaim (assoc : Nat) (s : State) : Res :=
  .next (s.ownerReg assoc Adr.GLK_CLAIM 1 (fun s => s.glkWrite 1))

/-- GLK_RELEASE: the owner writes release. -/
def execGlkRelease (assoc : Nat) (s : State) : Res :=
  .next (s.ownerReg assoc Adr.GLK_CLAIM 2 (fun s => s.glkWrite 2))

/-- DBG_TRC_CLAIM: the owner writes claim, with en as given. -/
def execDbgTrcClaim (assoc : Nat) (en : Bool) (s : State) : Res :=
  let v : Word := BitVec.ofNat 32 (1 + 16 * b2n en)
  .next (s.ownerReg assoc Adr.DBG_TRC v (fun s => s.traceWrite v))

/-- DBG_TRC_RELEASE: the owner writes release. -/
def execDbgTrcRelease (assoc : Nat) (s : State) : Res :=
  .next (s.ownerReg assoc Adr.DBG_TRC 2 (fun s => s.traceWrite 2))

/-- Comparator k holds a new alarm time, for which it has not fired (R222). -/
def State.alarmSet (s : State) (k : Nat) : State := s.modTime (fun t => { t with spent := t.spent.filter (· != k) })

/-! ## Phase plan and phase loop (R208 to R216) -/

/-- The plan revolution in 1/65,536 ns (R209). -/
def State.trevPlan (s : State) : Nat := 60000000000 * 65536 / s.fld Adr.TMB_PLAN Fld.TMB_PLAN_rpm_p

/-- The plan epoch T0 in ns. -/
def State.planEpoch (s : State) : Nat := (s.reg Adr.TMB_PLAN_T0_LO).toNat + 2 ^ 32 * (s.reg Adr.TMB_PLAN_T0_HI).toNat

/-- The plan's offset off_u of this member (R209). -/
def State.planOffset (s : State) : Nat :=
  (s.fld Adr.TMB_MEMBER Fld.TMB_MEMBER_member_id * s.fld Adr.TMB_PLAN Fld.TMB_PLAN_stride
    + s.fld Adr.TMB_PHOFS Fld.TMB_PHOFS_po) % 65536

/-- The plan instant of revolution k (R209). -/
def State.planInstant (s : State) (k : Int) : Int :=
  (s.planEpoch * 65536 : Nat) + k * s.trevPlan + (s.planOffset * s.trevPlan / 65536 : Nat)

/-- The phase error of an index instant: that instant minus the nearest plan instant, in (-Trev / 2, Trev / 2] (R211). -/
def State.phaseError (s : State) (idx : Nat) : Int :=
  let r := ((idx : Int) - s.planInstant 0) % (s.trevPlan : Int)
  if (s.trevPlan : Int) < 2 * r then r - s.trevPlan else r

/-- The trim's limit: ±100 ppm, and with a head loaded ±1 / (12 × spd_ref) (R214). -/
def State.trimLimit (s : State) : Int := if s.loaded then min 655 (6553600 / (12 * s.spdRef) : Nat) else 655

/-- The trim of a measurement in PULL and LOCKED, with Σe held while it is at a limit (R214). -/
def State.trimFor (s : State) (e : Int) : State :=
  let kp := s.fld Adr.TMB_PLGAIN Fld.TMB_PLGAIN_kp
  let ki := s.fld Adr.TMB_PLGAIN Fld.TMB_PLGAIN_ki
  let sum := s.time.sumE + e
  let raw : Int := (16 * kp * e + ki * sum + 20480000000) / 40960000000
  let lim := s.trimLimit
  let t := limit (-lim) lim raw
  let s1 := s.setTrim t
  if t = raw then s1.modTime (fun x => { x with sumE := sum }) else s1

/-- The speed-loop updates an approach over |e| lasts: it rises and falls at acc_rpm rpm/s to at most approach_max of spd_ref (R213).
In 1/65,536 ns of phase: x = |e| × spd_ref in rpm·s times 65,536 × 10^9. -/
def State.approachLength (s : State) (e : Int) : Nat :=
  let acc := s.fld Adr.SPN_ACCRATE Fld.SPN_ACCRATE_acc_rpm
  let pk := s.fld Adr.TMB_PLCTL Fld.TMB_PLCTL_approach_max * s.spdRef
  let x := e.natAbs * s.spdRef
  let unit := 65536 * 1000000000
  if x * acc * 100000000 ≤ pk * pk * unit then
    -- a triangle: 2 sqrt (x / acc) seconds
    ceilSqrt (ceilDiv (4 * 9000000 * x) (acc * unit))
  else
    -- a plateau at the peak: peak / acc + x / peak seconds
    ceilDiv (3000 * pk) (acc * 10000) + ceilDiv (3000 * x * 10000) (pk * unit)

/-- Start an approach over an error, unless its length exceeds 3 s (R213). -/
def State.startApproach (s : State) (e : Int) : State :=
  let n := s.approachLength e
  if 9000 < n then s.setFlag Adr.TMB_PLCTL Fld.TMB_PLCTL_refused true
  else ((s.setPhase 2).setTrim 0).modTime (fun t => { t with approach := some { late := decide (0 < e), len := n } })

/-- A measurement in PULL or LOCKED: the trim, and the counts that take the loop into and out of LOCKED (R212, R214). -/
def State.phaseMeasured (s : State) (e : Int) : State :=
  let good := decide (e.natAbs ≤ 65536000)
  let bad := decide (131072000 < e.natAbs)
  let s1 := (s.trimFor e).modTime (fun t => { t with errGood := if good then t.errGood + 1 else 0
                                                     errBad := if bad then t.errBad + 1 else 0 })
  if s.phase = 3 ∧ 16 ≤ s1.time.errGood then (s1.setPhase 4).event 0x348
  else if s.phase = 4 ∧ 8 ≤ s1.time.errBad then
    ((s1.setPhase 3).modTime (fun t => { t with errBad := 0, lockLosses := min (t.lockLosses + 1) (2 ^ 32 - 1) })).event 0x349
  else s1

/-- The index offset of a surface from the spindle index, in rafter cells: that of the lowest-numbered working surface is 0 (R56, R211). -/
def State.indexOffset (s : State) (x : Nat) : Int :=
  let of (y : Nat) : Int := (lookupKey (s.act (surfaceAct y)).batten.offsets (y % 8)).getD 0
  of x - (match (List.range 32).find? s.surfacePresent with | some y => of y | none => 0)

/-- A revolution at the speed the spindle is set to, in 1/65,536 ns. -/
def State.trevSet (s : State) : Nat := 60000000000 * 65536 / s.spdNow

/-- The index instant that an accepted rafter 0 of actuator a at an instant gives: without its surface's offset, of 1,638,400 rafter cells a revolution
(R53, R56, R211; log entry 145). -/
def State.indexInstant (s : State) (a : Fin 4) (instant : Nat) : Nat :=
  let t := if s.time.trev = 0 then s.trevSet else s.time.trev
  ((instant : Int) - s.indexOffset (s.surface a) * t / 1638400).toNat

/-- The period of a revolution that two measured indexes give: the time between them over the whole revolutions in it (R218; log entry 147). -/
def State.periodOf (s : State) (before idx : Nat) : Nat :=
  let d := idx - before
  d / max 1 ((d + s.trevSet / 2) / s.trevSet)

/-- No index has been measured in the last 16 revolutions (R218). -/
def State.noIndex (s : State) : Bool :=
  match s.time.lastIndex with | some i => s.time.trev == 0 || decide (i + 16 * s.time.trev < s.time.tb) | none => true

/-- The launches at an angle that waited for an index launch at the next instant that meets their rule (R218). -/
def State.launchesFrom (s : State) : State :=
  { s with host := { s.host with ctxs := s.host.ctxs.map (fun (x : Ctx) =>
    match x.wait with
    | .launch l (some th) => { x with wait := .launch (max l ((s.time.tb + 65535) / 65536)) (some th) }
    | _ => x) } }

/-- An index has been measured: the index, the period and the launches that waited for it (R211, R218). -/
def State.indexed (s : State) (idx : Nat) : State :=
  let s1 := if s.noIndex then s.launchesFrom else s
  s1.modTime (fun t => { t with
    lastIndex := some idx, trev := match t.lastIndex with | some p => if p < idx then s.periodOf p idx else t.trev | none => t.trev })

/-- PHASE_MEASUREMENT: the first accepted rafter 0 of a revolution, by actuator a at an instant, gives the index instant: the revolution period, the
phase error, and the phase loop's state, approach and trim (R209 to R214). -/
def execPhaseMeasurement (a : Fin 4) (instant : Nat) (s : State) : Res :=
  let b := (s.act a).batten
  let idx := s.indexInstant a instant
  let again := match s.time.lastIndex with | some p => decide (idx < p + s.trevSet / 2) | none => false
  if !b.accepted || b.index != 0 || again then .next s
  else
    let s1 := (s.indexed idx).phaseCheck
    if s1.fld Adr.TMB_PLAN Fld.TMB_PLAN_rpm_p = 0 then .next s1
    else
      let e := s1.phaseError idx
      let r := Adr.TMB_PLSTAT
      let s2 := s1.setSFld Adr.TMB_PHASE Fld.TMB_PHASE_e (nsSat e)
      let s3 := if e.natAbs ≤ 65536000 then s2.countFld r Fld.TMB_PLSTAT_in_bound else s2.setFld r Fld.TMB_PLSTAT_in_bound 0
      let s4 := if s3.phase = 3 ∧ s3.time.approachDue then
          let s5 := s3.modTime (fun t => { t with approachDue := false })
          if e.natAbs ≤ 50000 * 65536 then s5 else s5.startApproach e
        else s3
      .next (if s4.phase = 3 ∨ s4.phase = 4 then s4.phaseMeasured e else s4)

/-- PHASE_MEASUREMENT_TIMEOUT: 128 revolutions without a measurement take LOCKED to PULL; the trim is held (R211). -/
def execPhaseMeasurementTimeout (s : State) : Res :=
  let s0 := s.modTime (fun t => { t with lastIndex := none })
  if s.phase = 4 then .next ((s0.setPhase 3).modTime (fun t => { t with errGood := 0, errBad := 0 })) else .next s0

/-- The effect of a write of TMB_PLCTL with approach set: an approach over the last phase error while the loop is in PULL or LOCKED
(R213). -/
def State.requestApproach (s : State) : State :=
  if s.phase = 3 ∨ s.phase = 4 then s.startApproach (s.sfld Adr.TMB_PHASE Fld.TMB_PHASE_e * 65536) else s

/-- APPROACH_REQUEST: the owner writes TMB_PLCTL.approach. -/
def execApproachRequest (assoc : Nat) (s : State) : Res :=
  .next (s.ownerReg assoc Adr.TMB_PLCTL (s.reg Adr.TMB_PLCTL ||| 1) (fun s => s.requestApproach))

/-- The approach offset in 1/3,000 rpm at the present speed-loop update (R213). -/
def State.approachOffset (s : State) : Int :=
  match s.time.approach with
  | none => 0
  | some p =>
    let acc := s.fld Adr.SPN_ACCRATE Fld.SPN_ACCRATE_acc_rpm
    let pk := s.fld Adr.TMB_PLCTL Fld.TMB_PLCTL_approach_max * s.spdRef * 3000 / 10000
    let m : Int := min (min (acc * p.done) (acc * (p.len - p.done))) pk
    if p.late then m else -m

/-- The stop of the time base function has reached its clock: holdover (R35, R207). -/
def State.timeStopped (s : State) : State :=
  let was := s.tbState
  let from_ := if was = 1 then s.time.acqFrom else was
  let s1 := s.modTime (fun t => { t with under := some from_, good := 0 })
  let s2 := if was = 2 then s1.enterHoldover
    else if was = 3 then s1
    else ((s1.setTb 3).modTime (fun t => { t.freeRun from_ with holdFrom := s.now, holdUsed := if from_ = 3 then t.holdUsed else 0 })).event 0x341
  s2.phaseCheck

/-- PTP runs on the port that a fixed setting names (R201). -/
def State.ptpPort (s : State) : State :=
  let port := s.fld Adr.TMB_SRCCFG Fld.TMB_SRCCFG_ptp_port
  if port < 2 ∧ s.fld Adr.TMB_STATUS Fld.TMB_STATUS_ptp_port ≠ port then
    (s.setFld Adr.TMB_STATUS Fld.TMB_STATUS_ptp_port port).modTime (fun t => { t with
      masters := [], best := none, ptpOk := false, ptpOffset := none, exchange := none })
  else s

/-- The time base function runs again: acquisition begins anew from the sources present (R207, R197). -/
def State.timeRestarted (s : State) : State :=
  let was := match s.time.under with | some 2 => 3 | some n => n | none => s.tbState
  let s1 := (s.ptpPort.setTb was).modTime (fun t => { t with under := none, stepFirst := false, freq := if was = 0 then 0 else t.freq })
  s1.sourcesChanged.phaseCheck

end Sys2Proof.Machine
end

