-- ==== Sys2Proof/Machine/Spindle.lean ====
section
/-! DEFINITION. The spindle drive (R166 to R194): the gate commands, the loops of one PWM period, start and spin-down, the park
check, the retract pair, emergency retract, and the standby loop engines (R160 to R162, R168). -/

namespace Sys2Proof.Machine

open Sys2Proof

/-! ## Gate commands (R166, R167) -/

/-- What a leg is driven to do in a period. -/
inductive LegDrive where
  /-- both commands low -/
  | off
  /-- one command high throughout -/
  | fixed (hi : Bool)
  /-- centre-aligned pulses about a compare value -/
  | pulse (cmp : Nat)
deriving DecidableEq, Repr

/-- All six gate commands are low: gate_en is 0, or the state is stopped, park check, sensing or coast (R166). -/
def State.gatesLow (s : State) : Bool :=
  !s.flag Adr.SPN_CMD Fld.SPN_CMD_gate_en || s.spin == 0 || s.spin == 1 || s.spin == 2 || s.spin == 8

/-- The drive of a leg with a compare value: a pulse shorter than the least is not issued (R166, R167). -/
def pulseDrive (cmp dead least : Nat) : LegDrive :=
  if 2 * cmp - dead < least then .fixed false
  else if (4000 - 2 * cmp) - dead < least then .fixed true
  else .pulse cmp

/-- The running time at count t of the present period, in ns. -/
def State.countTime (s : State) (t : Nat) : Nat := s.spn.periodAt + t * 125 / 24

/-- Whether leg x is high in vector n of the six active directions: U, U V, V, V W, W, W U. -/
def vectorHigh (n x : Nat) : Bool := bitOf ([1, 3, 2, 6, 4, 5].getD (n % 6) 0) x

/-- The drive of leg x at a time after position sensing began: 12 pulses of 50 µs with 100 µs of decay between, over the six directions in both
polarities (R185). DESIGN CHOICE (log entry 150): each direction is followed by its reverse, and the commands are low in the decay. -/
def senseDrive (x ns : Nat) : LegDrive :=
  let n := ns / 150000
  if n < 12 ∧ ns % 150000 < 50000 then .fixed (vectorHigh (n / 2) x != (n % 2 == 1)) else .off

/-- The drive of leg x at count t of the present period, but for a cut of the period. -/
def State.legDrive (s : State) (x t : Nat) : LegDrive :=
  if s.gatesLow then .off
  else if s.spin = 3 then .fixed false
  else if s.spin = 4 then senseDrive x (s.countTime t - s.spn.senseAt)
  else pulseDrive (s.spn.cmp.getD x 0) (s.fld Adr.SPN_PWMCFG Fld.SPN_PWMCFG_dead_ns) (s.fld Adr.SPN_PWMCFG Fld.SPN_PWMCFG_min_pulse)

/-- The levels a drive asks of a leg at count t, each rise after the fall of the other within the period by the dead time (R167). -/
def LegDrive.wanted (d : LegDrive) (dead t : Nat) : Bool × Bool :=
  match d with
  | .off => (false, false)
  | .fixed h => (h, !h)
  | .pulse cmp => (decide (t < cmp) || decide (4000 - cmp + dead ≤ t), decide (cmp + dead ≤ t) && decide (t < 4000 - cmp))

/-- The levels of a leg at count t, given what it was at an earlier count: neither command rises within the dead time of the other's fall, whatever
period or state that fall was in (R166). -/
def Leg.levels (p : Leg) (d : LegDrive) (dead t : Nat) : Bool × Bool :=
  let w := d.wanted dead t
  let since (on : Bool) (ago : Nat) : Nat := (t - p.at_) + (if on then 0 else ago)
  (w.1 && decide (dead ≤ since p.lo p.loAgo), w.2 && decide (dead ≤ since p.hi p.hiAgo))

/-- A leg as it is at count t. -/
def Leg.to (p : Leg) (d : LegDrive) (dead t : Nat) : Leg :=
  let l := p.levels d dead t
  let ago (on : Bool) (before : Nat) : Nat := (t - p.at_) + (if on then 0 else before)
  { hi := l.1, lo := l.2, at_ := t
    hiAgo := match d with | .pulse cmp => if cmp ≤ t then t - cmp else ago p.hi p.hiAgo | _ => ago p.hi p.hiAgo
    loAgo := match d with | .pulse cmp => if 4000 - cmp ≤ t then t - (4000 - cmp) else ago p.lo p.loAgo | _ => ago p.lo p.loAgo }

/-- The drive of leg x at count t: off for the rest of a period that was cut at its sample (R172, R182). -/
def State.driveNow (s : State) (x t : Nat) : LegDrive := if s.spn.cut ∧ 2000 ≤ t then .off else s.legDrive x t

/-- The levels of the gate commands of leg x at count t of the present period (R166, R167). -/
def State.gateLevels (s : State) (x t : Nat) : Bool × Bool :=
  (s.spn.legs.getD x {}).levels (s.driveNow x t) (s.fld Adr.SPN_PWMCFG Fld.SPN_PWMCFG_dead_ns) t

/-- The legs as they are at count t of the present period, before what drives them changes. -/
def State.markLegs (s : State) (t : Nat) : State :=
  let dead := s.fld Adr.SPN_PWMCFG Fld.SPN_PWMCFG_dead_ns
  let l := [0, 1, 2].map (fun x => (s.spn.legs.getD x {}).to (s.driveNow x t) dead t)
  s.modSpn (fun p => { p with legs := l })

/-- The count of the present period now. -/
def State.countNow (s : State) : Nat := min 3999 ((s.now - s.spn.periodAt) * 24 / 125)

/-- Set the spindle's state; at_speed is 0 outside running (R177). -/
def State.setSpin (s : State) (n : Nat) : State :=
  let s1 := (s.markLegs s.countNow).setFld Adr.SPN_STATUS Fld.SPN_STATUS_state n
  if n = 6 then s1
  else ((s1.setFlag Adr.SPN_STATUS Fld.SPN_STATUS_at_speed false).modSpn (fun p => { p with atRun := 0 }))

/-- The low-side on-time of leg x in the present period, in counts (R169). -/
def State.lowOn (s : State) (x : Nat) : Nat :=
  let n := match s.legDrive x 2000 with
    | .off => 0
    | .fixed hi => if hi then 0 else 4000
    | .pulse cmp => (4000 - 2 * cmp) - s.fld Adr.SPN_PWMCFG Fld.SPN_PWMCFG_dead_ns
  if s.spn.cut then n / 2 else n

/-! ## Constants (R178) -/

/-- The square root of 3, times 2^120. -/
def sqrt3 : Nat := isqrt (3 * 2 ^ 240)

/-- A Q2.22 constant n / d, saturated; a divisor of 0 saturates. -/
def q222 (n d : Nat) : Int × Bool :=
  let v := if d = 0 then 8388608 else roundDiv (n * 2 ^ 22) d
  if 8388607 < v then (8388607, true) else (v, false)

/-- Form the constants of R178 for the last V_bus read, with SPN_STICKY.sat set when one saturates. -/
def State.formConstants (s : State) : State :=
  let r := s.fld Adr.SPN_MOTOR2 Fld.SPN_MOTOR2_r_phase
  let l := s.fld Adr.SPN_MOTOR Fld.SPN_MOTOR_l_phase
  let ke := s.fld Adr.SPN_MOTOR Fld.SPN_MOTOR_ke
  let pp := s.fld Adr.SPN_MOTOR Fld.SPN_MOTOR_pole_pairs
  let i := s.fld Adr.SPN_LIM Fld.SPN_LIM_i_max
  -- V_max in mV is v × vb / (256 √3)
  let v := s.fld Adr.SPN_FW Fld.SPN_FW_v_lim * s.fld Adr.SPN_VBUS Fld.SPN_VBUS_vbus
  let rN := q222 (r * i * 256 * sqrt3) (v * 1000 * 2 ^ 120)
  let lN := q222 (l * pp * i * 20000 * piFix * 256 * sqrt3) (60 * v * 1000000 * 2 ^ 280)
  let lT := q222 (l * i * 48000 * 256 * sqrt3) (v * 1000000 * 2 ^ 120)
  let kN := q222 (ke * 20000 * piFix * 256 * sqrt3) (60 * v * 1000 * 2 ^ 280)
  let s1 := s.modSpn (fun p => { p with rN := rN.1, lN := lN.1, lT := lT.1, kN := kN.1 })
  if rN.2 || lN.2 || lT.2 || kN.2 then s1.setFlag Adr.SPN_STICKY Fld.SPN_STICKY_sat true else s1

/-- c_θ: the angle a full-scale speed turns in one period, in 2^-32 turn (R178). -/
def State.cTheta (s : State) : Nat := roundDiv (s.fld Adr.SPN_MOTOR Fld.SPN_MOTOR_pole_pairs * 2 ^ 32) 288

/-! ## Arithmetic (R178) -/

/-- An integer quotient rounded to nearest, ties toward positive infinity; saturated to Q1.23, by sign for a divisor of 0. -/
def divQ (n : Int) (d : Nat) : Int :=
  if d = 0 then (if n < 0 then q123Min else if n = 0 then 0 else q123Max) else satQ123 ((2 * n + d) / (2 * d : Nat))

/-- The product of two Q1.23 quantities, rounded and saturated. -/
def mulQ (a b : Int) : Int := divQ (a * b) 8388608

/-- A sum of Q1.23 by Q1.23 products and a Q1.23 value, rounded and saturated (R139, R178). -/
def accQ46 (products value : Int) : Int := satQ123 ((products + value * 8388608 + 4194304) / 8388608)

/-- A sum of Q2.22 by Q1.23 products and a Q1.23 value, rounded and saturated (R139). -/
def accQ (products value : Int) : Int := satQ123 (roundAcc (products + value * 4194304))

/-- sin of a table angle k of 4,096, Q1.23. -/
def sinTable (k : Nat) : Int :=
  let j := k % 4096
  let m : Int := (sinPi (j % 2048) 2048 + 2 ^ 136) / 2 ^ 137
  satQ123 (if j < 2048 then m else -m)

/-- sin and cos of an angle in 2^-32 turn, by its upper 12 bits (R178). -/
def sinCos (theta : Nat) : Int × Int :=
  let k := theta / 2 ^ 20 % 4096
  (sinTable k, sinTable (k + 1024))

/-- The largest Q1.23 value whose square with x's is at most 1. -/
def restOf (x : Int) : Int := min q123Max (isqrt (2 ^ 46 - x.natAbs * x.natAbs) : Nat)

/-- Spindle gain g (R194). -/
def State.gain (s : State) (g : Nat) : Int := signed 24 (s.reg (Adr.SPN_GAIN g)).toNat

/-! ## Current sensing (R169 to R172) -/

/-- A raw code in mA, times 256 × gain: code × isns_scale. -/
def State.codeMa (s : State) (code : Int) : Int := code * s.fld Adr.SPN_ISNSCFG Fld.SPN_ISNSCFG_isns_scale

/-- The gain in force, 1, 2, 4 or 8. -/
def State.isnsGain (s : State) : Nat := 2 ^ s.fld Adr.SPN_ISNSCFG Fld.SPN_ISNSCFG_isns_gain

/-- A phase's current as a fraction of i_max, with the offset subtracted. -/
def State.phaseCurrent (s : State) (code ofs : Int) : Int :=
  divQ (s.codeMa (code - ofs) * 8388608) (256 * s.isnsGain * s.fld Adr.SPN_LIM Fld.SPN_LIM_i_max)

/-- The three phase currents of a period; none when fewer than two phases are usable (R169). -/
def State.reconstruct (s : State) (u v w : Int) : Option (Int × Int × Int) :=
  let ok (x : Nat) : Bool := decide (s.fld Adr.SPN_PWMCFG Fld.SPN_PWMCFG_t_smin ≤ s.lowOn x)
  let cu := s.phaseCurrent u (s.sfld Adr.SPN_IOFS Fld.SPN_IOFS_ofs_u)
  let cv := s.phaseCurrent v (s.sfld Adr.SPN_IOFS Fld.SPN_IOFS_ofs_v)
  let cw := s.phaseCurrent w (s.sfld Adr.SPN_IOFS Fld.SPN_IOFS_ofs_w)
  match ok 0, ok 1, ok 2 with
  | true, true, true => some (cu, cv, cw)
  | true, true, false => some (cu, cv, satQ123 (-(cu + cv)))
  | true, false, true => some (cu, satQ123 (-(cu + cw)), cw)
  | false, true, true => some (satQ123 (-(cv + cw)), cv, cw)
  | _, _, _ => none

/-- The overcurrent check of a period: the gates go low for its rest, SPN_STICKY.oc is set, and the period is remembered (R172). -/
def State.overcurrent (s : State) (u v w : Int) : State :=
  let lim : Int := (s.fld Adr.SPN_LIM Fld.SPN_LIM_oc_limit * 256 * s.isnsGain : Nat)
  if [u, v, w].any (fun c => decide (lim < (s.codeMa c).natAbs)) then
    (s.setFlag Adr.SPN_STICKY Fld.SPN_STICKY_oc true).modSpn (fun p => { p with
      cut := true, ocAt := (p.ocAt ++ [p.period]).filter (fun k => decide (p.period < k + 48)) })
  else s

/-! ## The loops of a period (R173 to R180) -/

/-- A limited value, and whether the limit applied. -/
def clampAbs (lim x : Int) : Int × Bool := let y := limit (-lim) lim x; (y, y != x)

/-- The sum of the actuators' predicted currents (R159, R176). -/
def State.predictedSum (s : State) : Int := ((List.finRange 4).map (fun a => (s.act a).servo.predicted)).foldl (· + ·) 0

/-- i_q_ref of a period: in forced commutation i_start; else the speed loop's output with the feed-forward, limited (R175, R176). -/
def State.iqRef (s : State) : Int :=
  if s.spin = 5 then
    divQ (s.fld Adr.SPN_START Fld.SPN_START_i_start * 8388608) (s.fld Adr.SPN_LIM Fld.SPN_LIM_i_max)
  else
    (clampAbs (restOf s.spn.idRef) (accQ (s.gain 9 * s.predictedSum) s.spn.iqSpd)).1

/-- The angle of forced commutation n periods after its start, in 2^-32 of an electrical turn: start_acc rad/s² (R185). -/
def State.forcedAngle (s : State) (n : Nat) : Nat :=
  let acc := s.fld Adr.SPN_START Fld.SPN_START_start_acc * s.fld Adr.SPN_MOTOR Fld.SPN_MOTOR_pole_pairs
  (s.spn.theta0 + acc * n * n * 2 ^ 192 / (2 * 48000 * 48000 * 2 * piFix)) % 2 ^ 32

/-- The forced speed after n periods, in 2^-23 of 10,000 rpm. -/
def State.forcedSpeed (s : State) (n : Nat) : Nat :=
  s.fld Adr.SPN_START Fld.SPN_START_start_acc * n * 60 * 2 ^ 183 / (48000 * 10000 * 2 * piFix)

/-- The angle the current loops use: the forced angle in forced commutation, else the observer's. -/
def State.loopAngle (s : State) : Nat := if s.spin = 5 then s.forcedAngle s.spn.forced else s.spn.theta

/-- The reference of the speed loop, in rpm times 1/(3,000 × 6,553,600): the slewed reference, the trim and the approach offset
(R175, R213); in spinning down the reference alone, which is 0 (R186). -/
def State.refTotal (s : State) : Int :=
  if s.spin = 7 then (s.spn.ref : Int) * 6553600
  else ((s.spn.ref : Int) + s.approachOffset) * 6553600 + s.spdRef * s.trim * 3000

/-- What the current loops give: i_d, i_q, the voltage vector limited, its unlimited magnitude, and whether it was limited. -/
structure Loops where
  id : Int
  iq : Int
  ia : Int
  ib : Int
  vd : Int
  vq : Int
  vmag : Int
  limited : Bool
  valid : Bool
  integD : Int
  integQ : Int
deriving DecidableEq, Repr

/-- The current loops of R178 on a sample; without a valid one they run on the last valid currents with their integrators held
(R170). -/
def State.currentLoops (s : State) (m : Option (Int × Int × Int)) : Loops :=
  let p := s.spn
  let sc := sinCos s.loopAngle
  let ab := match m with
    | some (u, v, w) => (divQ (2 * u - v - w) 3, mulQ (v - w) 4843165)
    | none => (p.ia, p.ib)
  let id := match m with | some _ => divQ (ab.1 * sc.2 + ab.2 * sc.1) 8388608 | none => p.id
  let iq := match m with | some _ => divQ (ab.2 * sc.2 - ab.1 * sc.1) 8388608 | none => p.iq
  let ed := p.idRef - id
  let eq := s.iqRef - iq
  let wl := accQ (p.w * p.lN) 0
  let vd := accQ46 (-(wl * iq)) (accQ (s.gain 0 * ed) p.integD)
  let vq := accQ46 (wl * id + 2 * (p.w * p.kN)) (accQ (s.gain 2 * eq) p.integQ)
  let vmag : Int := (isqrt (vd.natAbs * vd.natAbs + vq.natAbs * vq.natAbs) : Nat)
  let q := clampAbs (restOf vd) vq
  let hold := q.2 || m.isNone
  { id := id, iq := iq, ia := ab.1, ib := ab.2, vd := vd, vq := q.1, vmag := vmag, limited := q.2, valid := m.isSome
    integD := if hold then p.integD else accQ (s.gain 1 * ed) p.integD
    integQ := if hold then p.integQ else accQ (s.gain 3 * eq) p.integQ }

/-- Field weakening: i_d_ref moves toward id_min above the threshold and back below it (R179). -/
def State.weaken (s : State) (o : Loops) : Int :=
  let imax := s.fld Adr.SPN_LIM Fld.SPN_LIM_i_max
  let idMin := min 0 (divQ (s.sfld Adr.SPN_FW Fld.SPN_FW_id_min * 8388608) imax)
  let above := o.vmag - (s.fld Adr.SPN_FW Fld.SPN_FW_fw_thresh * 32768 : Nat)
  limit idMin 0 (s.spn.idRef - roundAcc (s.gain 8 * above))

/-- The observer, on the voltages applied in the period before (R174, R178). -/
def State.observe (s : State) (o : Loops) : State :=
  let p := s.spn
  let ea := accQ (-(p.rN * o.ia) - p.lT * (o.ia - p.iaPrev)) p.vaOn
  let eb := accQ (-(p.rN * o.ib) - p.lT * (o.ib - p.ibPrev)) p.vbOn
  let sc := sinCos p.theta
  let eps := signOf p.w * divQ (-(ea * sc.2) - eb * sc.1) 8388608
  let wInt := accQ (s.gain 7 * eps) p.wInt
  let w := accQ (s.gain 6 * eps) wInt
  let th := (((p.theta : Int) + (2 * w * s.cTheta + 8388608) / 16777216) % (2 ^ 32 : Int)).toNat
  s.modSpn (fun p => { p with wInt := wInt, w := w, theta := th, iaPrev := o.ia, ibPrev := o.ib })

/-- The duties of a voltage vector: inverse Park, min-max injection, clamped to 0 to 1, as compare values (R173). -/
def State.compareFor (s : State) (va vb : Int) : List Nat :=
  let r := mulQ vb 7264751
  let u := va
  let v := (r * 2 - va) / 2
  let w := (-(r * 2) - va) / 2
  let n := -((max u (max v w)) + (min u (min v w))) / 2
  let vl := s.fld Adr.SPN_FW Fld.SPN_FW_v_lim
  [u, v, w].map (fun x =>
    -- cmp = 2,000 × (1/2 + (x + n) × v_lim / (256 √3))
    let d : Int := 1000 + ((x + n) * vl * 2000 * 2 ^ 121 / (256 * 8388608 * sqrt3 : Nat) + 1) / 2
    (limit 0 2000 d).toNat)

/-- The speed loop, in every 16th period (R175, R178): the slewed reference, the loop, the bus-voltage limit of braking (R180) and
the field-weakening floor (R179). -/
def State.speedLoop (s : State) (o : Loops) : State :=
  let p := s.spn
  let goal := if s.spin = 7 then 0 else s.spdNow * 3000
  let acc := s.fld Adr.SPN_ACCRATE Fld.SPN_ACCRATE_acc_rpm
  let ref := if s.spin = 7 then 0 else if p.ref < goal then min goal (p.ref + acc) else max goal (p.ref - acc)
  let s1 := s.modSpn (fun p => { p with ref := ref })
  let e := divQ (s1.refTotal * 8388608) 196608000000000 - p.w
  let cut := if s.spin = 7 ∧ s.fld Adr.SPN_VLIM Fld.SPN_VLIM_vbus_max < s.fld Adr.SPN_VBUS Fld.SPN_VBUS_vbus
    then min 16 (p.brakeCut + 1) else p.brakeCut
  let q := clampAbs (min (restOf p.idRef) (8388608 * (16 - cut : Nat) / 16)) (accQ (s.gain 4 * e) p.integS)
  let integ := if q.2 then p.integS else accQ (s.gain 5 * e) p.integS
  let imax := s.fld Adr.SPN_LIM Fld.SPN_LIM_i_max
  let idMin := min 0 (divQ (s.sfld Adr.SPN_FW Fld.SPN_FW_id_min * 8388608) imax)
  let floor := decide (p.idRef = idMin) && decide (idMin < 0) && o.limited
  s1.modSpn (fun p => { p with
    iqSpd := q.1, integS := integ, brakeCut := cut
    fwRun := if floor then p.fwRun + 1 else 0, fwSaid := p.fwSaid && floor })
  |>.modTime (fun t => { t with approach := t.approach.map (fun a => { a with done := min (a.done + 1) a.len }) })

/-- The registers that show the loops (R192). -/
def State.showLoops (s : State) : State :=
  let p := s.spn
  let imax : Int := s.fld Adr.SPN_LIM Fld.SPN_LIM_i_max
  let s1 := s.setReg Adr.SPN_SPEED (BitVec.ofInt 32 (p.w * 10000 / 128))
  let s2 := s1.setFld Adr.SPN_ANGLE Fld.SPN_ANGLE_theta (p.theta / 65536)
  let s3 := (s2.setSFld Adr.SPN_IDQ Fld.SPN_IDQ_iq (p.iq * imax / 8388608)).setSFld Adr.SPN_IDQ Fld.SPN_IDQ_id
    (p.id * imax / 8388608)
  s3.setFlag Adr.SPN_STATUS Fld.SPN_STATUS_fw_active (decide (p.idRef < 0))

/-- The reference that at_speed judges, as refTotal: the one the speed moves toward, not the slewed one, so that the 0.5 s come after a slew (R177, R467;
log entry 127). -/
def State.speedGoal (s : State) : Int :=
  if s.spin = 7 then 0 else ((s.spdNow : Int) * 3000 + s.approachOffset) * 6553600 + s.spdRef * s.trim * 3000

/-- at_speed and its count (R177): within 0.1 % counts toward it, outside 0.5 % clears it. -/
def State.superviseSpeed (s : State) : State :=
  let ref := s.speedGoal
  -- both sides in rpm × 19,660,800,000 × 2^23
  let diff := (s.spn.w * 196608000000000 - ref * 8388608).natAbs
  let near := decide (diff * 1000 ≤ ref.natAbs * 8388608)
  let s1 := s.modSpn (fun p => { p with atRun := if s.spin = 6 ∧ near then p.atRun + 1 else 0 })
  if s.atSpeed ∧ ref.natAbs * 8388608 * 5 < diff * 1000 then (s1.setFlag Adr.SPN_STATUS Fld.SPN_STATUS_at_speed false).phaseCheck else s1

/-- The count of periods in which the observer speed lies within 10 % of the forced speed (R185). -/
def State.countHandover (s : State) : State :=
  let f : Int := s.forcedSpeed s.spn.forced
  let ok := decide ((s.spn.w - f).natAbs * 10 ≤ f.natAbs)
  s.modSpn (fun p => { p with handRun := if ok then p.handRun + 1 else 0, forced := p.forced + 1 })

/-! ## Emergency retract (R190) -/

/-- Every channel operation of a slice ends at once, and a sector that is being written is failed with no code (R190). -/
def Sequencer.cutOff (q : Sequencer) : Sequencer :=
  let r := match q.running with | some o => if o.op = 4 then q.finish o.entry 8 else q | none => q
  { r with running := none, armed := none, stopAtFragment := false }

/-- An emergency retract: every write gate falls, every lead is aborted, every loop is unloaded, and retract frames go out in
ascending order; a retract in force absorbs a further cause. -/
def State.emergencyRetract (s : State) : State :=
  if s.flag Adr.SPN_RETRACT Fld.SPN_RETRACT_retracted then s
  else
    ((s.forActs (fun s a => ((((s.dropGate a).setFlag (Adr.CHN_STATUS a) Fld.CHN_STATUS_reading false).modSeq a Sequencer.cutOff).requestAbort
      a).unloaded a)).forActs (fun s a => s.picFrame a 2)).bump 8

/-- With heads loaded, a speed below spd_fly_min retracts every actuator (R184). -/
def State.flySpeed (s : State) : State :=
  let min_ := s.fld Adr.SPN_MOTOR2 Fld.SPN_MOTOR2_spd_fly_min
  if s.loaded && min_ != 0 && decide ((s.spn.w * 10000) < (min_ * 8388608 : Nat)) then ((s.emergencyRetract).event 0x307).phaseCheck else s

/-- The state mirror is written at the end of a completed period (R160). -/
def Spn.save (p : Spn) : Spn :=
  { p with mirror :=
    { ia := p.ia, ib := p.ib, iaPrev := p.iaPrev, ibPrev := p.ibPrev, id := p.id, iq := p.iq, va := p.va, vb := p.vb, vaOn := p.vaOn
      vbOn := p.vbOn, idRef := p.idRef, iqSpd := p.iqSpd, integD := p.integD, integQ := p.integQ, integS := p.integS, wInt := p.wInt
      w := p.w, theta := p.theta, ref := p.ref } }

/-- A standby engine loads the state mirror (R168). -/
def Spn.load (p : Spn) : Spn :=
  let m := p.mirror
  { p with ia := m.ia, ib := m.ib, iaPrev := m.iaPrev, ibPrev := m.ibPrev, id := m.id, iq := m.iq, va := m.va, vb := m.vb, vaOn := m.vaOn,
           vbOn := m.vbOn, idRef := m.idRef, iqSpd := m.iqSpd, integD := m.integD, integQ := m.integQ, integS := m.integS, wInt := m.wInt,
           w := m.w, theta := m.theta, ref := m.ref }

/-- A period begins: the compare values computed before take effect, and in every 16th the V_bus read is due (R167, R180). -/
def State.beginPeriod (s : State) : State :=
  let s1 := (s.markLegs 4000).modSpn (fun p => { p.save with
    period := p.period + 1, cmp := p.cmpNext, cut := false, periodAt := s.now, legs := p.legs.map (fun l => { l with at_ := 0 }) })
  if s1.spn.period % 16 = 0 then
    ({ s1 with pic := { s1.pic with vbusDue := true } }).picSend .vbus 0 (s.fld Adr.SPN_IOCFG Fld.SPN_IOCFG_spn_cs)
      (s.fld Adr.SPN_IOCFG Fld.SPN_IOCFG_vbus_addr) 0
  else s1

/-- A shunt sample of a phase with its offset subtracted, in mA times 256 × gain (R171). -/
def State.shuntMa (s : State) (u v w : Int) : List Int :=
  let ofs (f : Fld) : Int := s.sfld Adr.SPN_IOFS f
  [s.codeMa (u - ofs Fld.SPN_IOFS_ofs_u), s.codeMa (v - ofs Fld.SPN_IOFS_ofs_v), s.codeMa (w - ofs Fld.SPN_IOFS_ofs_w)]

/-- PWM_PERIOD: one 48 kHz period. The compare values computed before take effect, the shunts are sampled and checked, and while the
drive turns the spindle the loops compute the next compare values (R166 to R180). -/
def execPwmPeriod (u v w : Int) (s : State) : Res :=
  let s0 := s.beginPeriod
  let s1 := s0.overcurrent u v w
  let m := if 0 < s1.spn.winLeft then none else s1.reconstruct u v w
  let s2 := (s1.modSpn (fun p => { p with winLeft := p.winLeft - 1 })).setFlag Adr.SPN_STATUS Fld.SPN_STATUS_isns_valid m.isSome
  if s2.spin = 3 then
    let lim : Int := (s2.fld Adr.SPN_START Fld.SPN_START_i_start * 256 * s2.isnsGain : Nat)
    if (s2.shuntMa u v w).any (fun c => decide (lim < c.natAbs)) then .next (s2.modSpn (fun p => { p with cut := true }))
    else .next s2
  else if s2.spin = 5 ∨ s2.spin = 6 ∨ s2.spin = 7 then
    let o := s2.currentLoops m
    let low := s2.gatesLow || s2.spn.cut
    let sc := sinCos s2.loopAngle
    let va := divQ (o.vd * sc.2 - o.vq * sc.1) 8388608
    let vb := divQ (o.vd * sc.1 + o.vq * sc.2) 8388608
    let idRef := s2.weaken o
    let s3 := (s2.modSpn (fun p => { p with id := o.id, iq := o.iq, ia := o.ia, ib := o.ib, integD := o.integD, integQ := o.integQ,
                                            idRef := idRef, atLimit := o.limited })).observe o
    let s4 := s3.modSpn (fun p => { p with vaOn := if low then 0 else p.va, vbOn := if low then 0 else p.vb, va := va, vb := vb,
                                            cmpNext := s3.compareFor va vb })
    let s5 := s4.setFld Adr.SPN_VBUS Fld.SPN_VBUS_vmag (limit 0 65535 (o.vmag / 128)).toNat
    let s6 := if s5.spin = 5 then s5.countHandover
      else if s5.spn.period % 16 = 0 then s5.speedLoop o else s5
    .next (s6.superviseSpeed.showLoops.flySpeed)
  else .next s2

/-- OVERCURRENT_COAST: 8 overcurrent periods within 1 ms coast the spindle and retract every actuator (R172). -/
def execOvercurrentCoast (s : State) : Res :=
  if 8 ≤ s.spn.ocAt.length then
    .next ((((s.setSpin 8).modSpn (fun p => { p with ocAt := [] })).emergencyRetract).event 0x306 |>.phaseCheck)
  else .next s

/-- FW_FLOOR: 16 speed-loop updates at id_min with the vector at its limit (R179). -/
def execFwFloor (s : State) : Res :=
  if 16 ≤ s.spn.fwRun ∧ !s.spn.fwSaid then
    .next (((s.setFlag Adr.SPN_STICKY Fld.SPN_STICKY_fw_floor true).modSpn (fun p => { p with fwSaid := true })).event 0x308)
  else .next s

/-- The frames that read V_bus are done. -/
def Pic.vbusDone (p : Pic) : Pic :=
  let read (f : PicFrame) : Bool := f.kind == .vbus
  { p with vbusDue := false, busy := p.busy.filter (fun f => !read f), waiting := p.waiting.filter (fun f => !read f),
           sent := p.sent ++ p.busy.toList.filter read ++ p.waiting.filter read }

/-- VBUS_READ: the power IC answers the V_bus read that is due with mv millivolts; the constants follow it (R178, R180). -/
def execVbusRead (mv : Nat) (s0 : State) : Res :=
  if !s0.pic.vbusDue then .next s0
  else
  let s := { s0 with pic := s0.pic.vbusDone }.picGo
  let v := min mv 65535
  let low := decide (v < s.fld Adr.SPN_VLIM Fld.SPN_VLIM_vbus_low)
  let s1 := ((s.setFld Adr.SPN_VBUS Fld.SPN_VBUS_vbus v).formConstants).modSpn (fun p => { p with vlow := low })
  .next (if low && !s.spn.vlow then (s1.setFlag Adr.SPN_STICKY Fld.SPN_STICKY_vbus_low true).event 0x309 else s1)

/-! ## Standby engines (R160 to R162, R168) -/

/-- SPINDLE_ENGINE_FAULT without the fatal actions of a recovery restart: the PWM repeats the compare values, and the lowest free standby
takes over on the mirror of the period before; without one the spindle coasts and every actuator retracts (R168). With standby given, a free standby engine is faulty. -/
def State.spindleFault (s : State) (standby : Option (Fin 3)) : State :=
  match standby with
  | some k =>
    if s.spn.pool.contains k.val then
      (s.modSpn (fun p => { p with pool := p.pool.filter (fun x => x != k.val) })).event 0x312
    else s
  | none =>
    match s.spn.pool with
    | k :: r =>
      let s1 := s.modSpn (fun p => { p.load with pool := r, cmpNext := p.cmp })
      ((s1.setFlag Adr.SPN_STATUS Fld.SPN_STATUS_on_standby true).setFld Adr.SPN_STATUS Fld.SPN_STATUS_sb_id k).event 0x310
    | [] => (((s.setSpin 8).emergencyRetract).event 0x311).phaseCheck

/-- The loops whose fault of this sample goes before actuator a's: the spindle, then lower actuators (R161). -/
def faultBefore (a : Fin 4) (i : Instr) : Bool :=
  match i with
  | .spindleEngineFault none => true
  | .loopEngineFault b => decide (b < a)
  | _ => false

/-- A loop engine is reported faulty. -/
def isLoopFault (i : Instr) : Bool :=
  match i with
  | .spindleEngineFault none => true
  | .loopEngineFault _ => true
  | _ => false

/-- The loop faults of this sample that go before actuator a's: those reported at the front of the queue (R161, log entry 148). -/
def State.faultsBefore (s : State) (a : Fin 4) : Nat :=
  (((s.pending.takeWhile isLoopFault).filter (faultBefore a)).eraseDups).length

/-- The loop engine of actuator a is faulty during a sample, for which nothing is sent. The lowest standby engine that no fault before it takes
serves it from the state mirror; without one the heads are unloaded and the actuator is lost (R161, R162). -/
def State.loopFault (s0 : State) (a : Fin 4) : State :=
  let s := s0.setFld (Adr.BTN_POS a) Fld.BTN_POS_seq (s0.fld (Adr.BTN_POS a) Fld.BTN_POS_seq + 1)
  match s.spn.pool[s.faultsBefore a]? with
  | some k =>
    let s1 := s.modSpn (fun p => { p with pool := p.pool.filter (· != k) })
    let s2 := s1.modServo a (fun x => { x with
      vcm := x.mirror.vcm, ma := x.mirror.ma, rv := x.mirror.rv, xa := x.mirror.xa
      seek := x.seek.map (fun q => { q with j := q.j + 1 })
      predictedPrev := x.predicted
      predicted := match x.seek with | some q => seekCurrent q (q.j + 1) | none => 0 })
    let s3 := ((s2.unsettle a).noPermit a).requestAbort a
    ((s3.setFlag (Adr.SRV_STATUS a) Fld.SRV_STATUS_on_standby true).setFld (Adr.SRV_STATUS a) Fld.SRV_STATUS_sb_id k).actEvent a 0x46
  | none => ((s.unloadFrame a).actEvent a 0x47).actuatorLost a

/-- LOOP_ENGINE_FAULT (R161). -/
def execLoopEngineFault (a : Fin 4) (s : State) : Res := .next (s.loopFault a)

/-! ## Start and spin-down (R182 to R186) -/

/-- Heads load once at_speed is 1 and the retract pair is armed: each actuator with a present head that is not lost re-identifies; after a spin-up and
on an exit from PS2 to PS4 an approach is due where the phase loop can leave WAIT now (R177, R188, R213). -/
def State.loadHeads (s : State) : State :=
  if !s.atSpeed || !s.flag Adr.SPN_RETRACT Fld.SPN_RETRACT_armed || s.flag Adr.SPN_RETRACT Fld.SPN_RETRACT_retracted
      || (s.fld Adr.FLT_STATE Fld.FLT_STATE_fault_state == 3 && !s.flag Adr.FLT_STATE Fld.FLT_STATE_recovering) then s
  else
    let s1 := s.forActs (fun s a =>
      if s.mode a != 0 || (s.act a).lost || (s.actSurfaces a).isEmpty || 3 ≤ (s.act a).servo.reloads then s
      else (s.enterReident a).bump (3 + a))
    if s1.loaded && !s.loaded then
      let s2 := (s1.modTime (fun t => { t with loadDue := false })).phaseCheck
      s2.modTime (fun t => { t with approachDue := s.time.loadDue && s2.phase == 3 })
    else s1

/-- AT_SPEED: the speed has stayed within 0.1 % of the reference for 0.5 s (R177). -/
def execAtSpeed (s : State) : Res :=
  if s.spin = 6 ∧ 24000 ≤ s.spn.atRun ∧ !s.atSpeed then
    let s1 := { s with pln := { s.pln with noMedia := false } }
    .next (((s1.setFlag Adr.SPN_STATUS Fld.SPN_STATUS_at_speed true).bump 2).phaseCheck.loadHeads)
  else .next s

/-- The park check goes on to the next actuator off the ramp with a retract frame, or to back-EMF sensing (R182, R183). -/
def State.parkNext (s : State) : State :=
  match s.spn.parking with
  | a :: _ => s.picFrame a 2
  | [] => s.setSpin 2

/-- Spin-up is refused and the spindle stays stopped. -/
def State.spinRefused (s : State) : State :=
  ((s.setSpin 0).setFld Adr.SPN_PRESTART Fld.SPN_PRESTART_result 3).modSpn (fun p => { p with
    parking := [], rockPairs := 0, attempts := 0, stopping := false, retrying := false })

/-- The pre-start check: the park status of every actuator with a present head is read, bit a of parked being the answer of actuator a (R182, R183). -/
def State.preStart (s : State) (parked : Nat) : State :=
  if s.fld Adr.SPN_MOTOR Fld.SPN_MOTOR_pole_pairs = 0 then s.spinRefused
  else
    let there : List (Fin 4) := (List.finRange 4).filter (fun a => !(s.actSurfaces a).isEmpty)
    let s1 := there.foldl (fun (s : State) a => s.picParkRead a) (s.setSpin 1)
    (s1.modSpn (fun p => { p with parking := there.filter (fun a => !bitOf parked a), rockPairs := 0, stopping := false, retrying := false })).parkNext

/-- The park statuses the power ICs answer when no operand gives them: a free value. -/
def State.parkFree (s : State) : Nat × State := s.free 16

/-- What cmd of SPN_CMD does (R182, R186); park gives the park statuses for a start. -/
def State.spinCommand (s : State) (cmd : Nat) (park : Option Nat) : State :=
  if cmd = 1 then
    if s.spin = 0 ∨ s.spin = 8 then
      match park with
      | some p => s.preStart p
      | none => let f := s.parkFree; f.2.preStart f.1
    else if s.spin = 7 ∨ s.spn.stopping then s.modSpn (fun p => { p with startHeld := true })
    else s
  else if cmd = 2 then
    if s.spin = 0 then s
    else
      let s1 := s.forActs (fun s a => if s.mode a = 0 then s else s.unloadFrame a)
      ((s1.setSpin 7).modSpn (fun p => { p with stopping := true, startHeld := false, brakeCut := 0, ref := 0 })).phaseCheck
  else if cmd = 3 then
    if s.loaded then s.setFlag Adr.SPN_STICKY Fld.SPN_STICKY_cmd_refused true
    else ((s.setSpin 8).modSpn (fun p => { p with stopping := false, startHeld := false })).phaseCheck
  else s

/-- The effect of a write of SPN_CMD: the reference, limited to 5,400 rpm and spd_max, gate_en, then the command (R166, R193). -/
def State.writeSpnCmd (s : State) (v : Word) (park : Option Nat) : State :=
  let r := min (max (getBits v Fld.SPN_CMD_spd_ref) 5400) s.spdMax
  let s0 := if v.getLsbD 2 = s.flag Adr.SPN_CMD Fld.SPN_CMD_gate_en then s else s.markLegs s.countNow
  let s1 := (s0.setFld Adr.SPN_CMD Fld.SPN_CMD_spd_ref r).setFlag Adr.SPN_CMD Fld.SPN_CMD_gate_en (v.getLsbD 2)
  s1.phaseCheck.spinCommand (getBits v Fld.SPN_CMD_cmd) park

/-- A value of SPN_CMD with its cmd replaced. -/
def spnCmdWord (v : Word) (cmd : Nat) : Word := setBits v Fld.SPN_CMD_cmd cmd

/-- SPINDLE_START: the owner writes cmd start; bit a of parked is the park status that actuator a's power IC answers. -/
def execSpindleStart (assoc : Nat) (value : Word) (parked : Nat) (s : State) : Res :=
  .next (s.ownerReg assoc Adr.SPN_CMD (spnCmdWord value 1) (fun s => s.writeSpnCmd (spnCmdWord value 1) (some parked)))

/-- SPINDLE_STOP: the owner writes cmd stop (R186). -/
def execSpindleStop (assoc : Nat) (value : Word) (s : State) : Res :=
  .next (s.ownerReg assoc Adr.SPN_CMD (spnCmdWord value 2) (fun s => s.writeSpnCmd (spnCmdWord value 2) none))

/-- SPINDLE_COAST: the owner writes cmd coast (R186). -/
def execSpindleCoast (assoc : Nat) (value : Word) (s : State) : Res :=
  .next (s.ownerReg assoc Adr.SPN_CMD (spnCmdWord value 3) (fun s => s.writeSpnCmd (spnCmdWord value 3) none))

/-- The actuator being parked is parked. -/
def State.parkedNow (s : State) (id : Nat) : State :=
  ((s.modSpn (fun p => { p with parking := p.parking.tail, rockPairs := 0 })).event id).parkNext

/-- Rock the actuator being parked: a pair of VCM demands of alternating sign, then a retract frame (R183). -/
def State.rock (s : State) (a : Fin 4) (mag : Nat) : State :=
  let m := min mag (s.fld Adr.SPN_ROCK Fld.SPN_ROCK_rock_max * 4)
  let d : Int := (min (m * 128) 32767 : Nat)
  let s1 := (s.modSpn (fun p => { p with rockMag := m })).setSFld (Adr.SRV_OUT a) Fld.SRV_OUT_vcm (-d)
  let fr (i : Int) : PicFrame :=
    ⟨.vcm, a, s.fld (Adr.SRV_IOCFG a) Fld.SRV_IOCFG_pic_cs, s.fld (Adr.SRV_IOCFG a) Fld.SRV_IOCFG_pic_addr * 65536 + unsigned 16 i⟩
  ({ s1 with pic := { s1.pic with sent := s1.pic.sent ++ [fr d, fr (-d)] } }).picFrame a 2

/-- PARK_RETRACT_WAIT_END: 20 ms after the first retract frame the park status is read again (R183). -/
def execParkRetractWaitEnd (parked : Bool) (s : State) : Res :=
  match s.spn.parking with
  | a :: _ =>
    if s.spin ≠ 1 ∨ s.spn.rockPairs ≠ 0 then .next s
    else
      let t := s.picParkRead a
      if parked then .next (t.parkedNow 0x302)
      else .next ((t.modSpn (fun p => { p with rockPairs := 1 })).rock a (s.fld Adr.SPN_ROCK Fld.SPN_ROCK_rock_i0))
  | [] => .next s

/-- ROCK_PAIR_DONE: the park status after a pair and its retract frame (R183). -/
def execRockPairDone (parked : Bool) (s : State) : Res :=
  match s.spn.parking with
  | a :: _ =>
    if s.spin ≠ 1 ∨ s.spn.rockPairs = 0 then .next s
    else
      let s0 := (s.picParkRead a).setSFld (Adr.SRV_OUT a) Fld.SRV_OUT_vcm 0
      if parked then .next (s0.parkedNow 0x303)
      else if s.fld Adr.SPN_ROCK Fld.SPN_ROCK_rock_cycles ≤ s.spn.rockPairs then .next ((s0.event 0x304).spinRefused)
      else
        .next ((s0.modSpn (fun p => { p with rockPairs := p.rockPairs + 1 })).rock a
          (s.spn.rockMag + s.fld Adr.SPN_ROCK Fld.SPN_ROCK_rock_step))
  | [] => .next s

/-- The running state is entered with an observer state (R182, R185). -/
def State.enterRunning (s : State) (f : Spn → Spn) : State :=
  (((s.setSpin 6).modSpn (fun p => { f p with ref := s.spdNow * 3000, attempts := 0, stopping := false })).modTime
    (fun t => { t with loadDue := true })).phaseCheck

/-- PRESTART_SENSING_DONE: 50 ms of back-EMF sensing gave a signed speed in rpm and an angle (R182). -/
def execPrestartSensingDone (rpm : Int) (theta : Nat) (s : State) : Res :=
  if s.spin ≠ 2 then .next s
  else
    let n := rpm.natAbs
    let res := if 300 ≤ rpm then 1 else if 60 ≤ n then 2 else 0
    let a := Adr.SPN_PRESTART
    let s1 := ((s.setFld a Fld.SPN_PRESTART_result res).setFlag a Fld.SPN_PRESTART_reverse (decide (rpm < 0))).setFld a
      Fld.SPN_PRESTART_rpm (min n 32767)
    let s2 := s1.setReg Adr.SPN_SPEED (BitVec.ofInt 32 (rpm * 65536))
    if res = 1 then
      let w := divQ (rpm * 8388608) 10000
      .next ((s2.enterRunning (fun p => { p with
        theta := theta % 2 ^ 32, wInt := w, w := w, integD := 0, integQ := 0, integS := 0, ia := 0, ib := 0, iaPrev := 0
        ibPrev := 0, id := 0, iq := 0, va := 0, vb := 0, vaOn := 0, vbOn := 0, idRef := 0, iqSpd := 0 })).event 0x300)
    else if res = 2 then .next ((s2.setSpin 3).event 0x301)
    else .next (s2.setSpin 3)

/-- BRAKE_HOLD_END: the 100 ms brake hold ends: position sensing before a start; stopped after a spin-down, where a held start then
runs; the pre-start check again after a failed hand-over (R182, R185, R186). -/
def execBrakeHoldEnd (s : State) : Res :=
  if s.spin ≠ 3 then .next s
  else if s.spn.stopping then
    let s1 := (s.setSpin 0).modSpn (fun p => { p with stopping := false, startHeld := false })
    if s.spn.startHeld then .next (s1.spinCommand 1 none) else .next s1
  else if s.spn.retrying then let f := s.parkFree; .next (f.2.preStart f.1)
  else .next ((s.setSpin 4).modSpn (fun p => { p with senseAt := s.now }))

/-- POSITION_SENSING_DONE: the electrical angle is known to ±30°; forced commutation begins (R185). -/
def execPositionSensingDone (theta : Nat) (s : State) : Res :=
  if s.spin ≠ 4 then .next s
  else .next ((s.setSpin 5).modSpn (fun p => { p with
    theta0 := theta % 2 ^ 32, theta := theta % 2 ^ 32, forced := 0, handRun := 0, integD := 0, integQ := 0, integS := 0 }))

/-- START_HANDOVER: the forced speed has reached 300 rpm and the observer has followed it for 32 periods (R185). -/
def execStartHandover (s : State) : Res :=
  if s.spin = 5 ∧ 32 ≤ s.spn.handRun ∧ 300 * 8388608 ≤ s.forcedSpeed s.spn.forced * 10000 then
    .next (s.enterRunning (fun p => { p with integS := p.iq, iqSpd := p.iq }))
  else .next s

/-- HANDOVER_TIMEOUT: 3 s of forced commutation without hand-over: the drive brakes before it tries again from the pre-start check; the third failure
refuses the spin-up (R185). -/
def execHandoverTimeout (s : State) : Res :=
  if s.spin ≠ 5 then .next s
  else
    let n := s.spn.attempts + 1
    if 3 ≤ n then .next ((s.event 0x305).spinRefused)
    else .next (((s.setSpin 3).modSpn (fun p => { p with attempts := n, retrying := true, cmpNext := [0, 0, 0] })).event 0x305)

/-- SPINDOWN_BRAKE_CHANGE: at 300 rpm spin-down changes to braking (R186). -/
def execSpindownBrakeChange (s : State) : Res :=
  if s.spin = 7 then .next ((s.setSpin 3).modSpn (fun p => { p with cmpNext := [0, 0, 0] })) else .next s

/-! ## Offset calibration (R170, R171) -/

/-- The effect of a write of SPN_ISNSCFG: a changed gain opens a window of 4 invalid periods; cal starts a calibration or is refused;
rpm is the speed the pre-start check finds. -/
def State.writeIsns (s : State) (v : Word) (rpm : Option Int) : State :=
  let a := Adr.SPN_ISNSCFG
  let g := getBits v Fld.SPN_ISNSCFG_isns_gain
  let s1 := if g = s.fld a Fld.SPN_ISNSCFG_isns_gain then s
    else (s.setFld a Fld.SPN_ISNSCFG_isns_gain g).modSpn (fun p => { p with winLeft := 4 })
  let s2 := s1.setFld a Fld.SPN_ISNSCFG_isns_scale (getBits v Fld.SPN_ISNSCFG_isns_scale)
  if !v.getLsbD 31 then s2
  else
    let f := s2.free 32768
    let r := match rpm with | some r => (r, s2) | none => ((f.1 : Int), f.2)
    if s2.flag Adr.SPN_CMD Fld.SPN_CMD_gate_en || s2.spin != 0 || decide (60 ≤ r.1.natAbs) then
      r.2.setFlag Adr.SPN_STICKY Fld.SPN_STICKY_cal_refused true
    else r.2.modSpn (fun p => { p with calibrating := true })

/-- ISNS_CAL: the owner writes SPN_ISNSCFG.cal, and the pre-start check finds a speed (R171). -/
def execIsnsCal (assoc : Nat) (rpm : Int) (s : State) : Res :=
  let v := s.reg Adr.SPN_ISNSCFG ||| 0x80000000
  .next (s.ownerReg assoc Adr.SPN_ISNSCFG v (fun s => s.writeIsns v (some rpm)))

/-- The average of 64 samples, to nearest (R171, log entry 136). -/
def averageOf (l : List Int) : Int := (l.foldl (· + ·) 0 + 32) / 64

/-- ISNS_CAL_DONE: the 64 samples of each phase are averaged and the averages stored (R171). -/
def execIsnsCalDone (samples : List (Int × Int × Int)) (s : State) : Res :=
  if s.spn.calibrating ∧ samples.length = 64 then
    let a := Adr.SPN_IOFS
    let u := averageOf (samples.map (fun p => p.1))
    let v := averageOf (samples.map (fun p => p.2.1))
    let w := averageOf (samples.map (fun p => p.2.2))
    .next ((((s.setSFld a Fld.SPN_IOFS_ofs_u u).setSFld a Fld.SPN_IOFS_ofs_v v).setSFld a Fld.SPN_IOFS_ofs_w w).modSpn
      (fun p => { p with calibrating := false }))
  else .next s

/-- ISNS_GAIN_WRITE: the owner writes isns_gain (R170). -/
def execIsnsGainWrite (assoc : Nat) (gain : Fin 4) (s : State) : Res :=
  let v := setBits (s.reg Adr.SPN_ISNSCFG) Fld.SPN_ISNSCFG_isns_gain gain
  .next (s.ownerReg assoc Adr.SPN_ISNSCFG v (fun s => s.writeIsns v none))

/-! ## Retract pair (R187 to R189) -/

/-- A retract by the pair: an emergency retract that stays in force until re-armed. -/
def State.pairRetract (s : State) : State :=
  let a := Adr.SPN_RETRACT
  ((s.emergencyRetract).setFlag a Fld.SPN_RETRACT_retracted true).setFlag a Fld.SPN_RETRACT_armed false

/-- The power state. -/
def State.ps (s : State) : Nat := s.fld Adr.PWR_STATE Fld.PWR_STATE_ps

/-- RETRACT_INPUT_CHANGE: the filtered levels of the pair change (R187); in PS4 and PS5 an assertion only blocks loading (R189). -/
def execRetractInputChange (aOn bOn : Bool) (s : State) : Res :=
  let r := Adr.SPN_RETRACT
  let a0 := s.flag r Fld.SPN_RETRACT_a_asserted
  let b0 := s.flag r Fld.SPN_RETRACT_b_asserted
  let s1 := ((s.setFlag r Fld.SPN_RETRACT_a_asserted aOn).setFlag r Fld.SPN_RETRACT_b_asserted bOn).modSpn
    (fun p => { p with pairReported := false })
  if 4 ≤ s.ps then .next (if aOn || bOn then s1.setFlag r Fld.SPN_RETRACT_armed false else s1)
  else if aOn && bOn then
    .next (if a0 && b0 then s1 else if s.flag r Fld.SPN_RETRACT_retracted then s1.event 0x30A else (s1.pairRetract.phaseCheck).event 0x30A)
  else if (a0 != b0) && !s.flag r Fld.SPN_RETRACT_retracted && !(aOn == a0 && bOn == b0) then
    .next (s1.countFld r Fld.SPN_RETRACT_short_cnt)
  else .next s1

/-- RETRACT_DISCREPANCY: one channel has been asserted alone for 10 µs: a retract that names the other channel; when already
retracted, a fault that names the channel still asserted (R187). -/
def execRetractDiscrepancy (s : State) : Res :=
  let r := Adr.SPN_RETRACT
  let a := s.flag r Fld.SPN_RETRACT_a_asserted
  let b := s.flag r Fld.SPN_RETRACT_b_asserted
  if a == b || s.spn.pairReported || decide (4 ≤ s.ps) then .next s
  else
    let was := s.flag r Fld.SPN_RETRACT_retracted
    let nameA := if was then a else !a
    let s1 := (if was then s else (s.pairRetract).phaseCheck).modSpn (fun p => { p with pairReported := true })
    .next ((s1.setFld r Fld.SPN_RETRACT_named (if nameA then 1 else 2)).event (if nameA then 0x30B else 0x30C))

end Sys2Proof.Machine
end

