-- ==== Sys2Proof/Machine/Integrity.lean ====
section
/-! DEFINITION. Media integrity (R226 to R254): courses and trailing trusses, spare tracks and reallocation, the recovery layers of a
sector, rebuild and the background scan. -/

namespace Sys2Proof.Machine

open Sys2Proof

/-- Change the media block. -/
def State.modMedia (s : State) (f : Media → Media) : State := { s with media := f s.media }

/-! ## What may be read and written now -/

/-- The actuator of a media address may serve media operations: in service, no preamplifier fault held, its media operations not ended, its format and
servo functions running (R36, R77, R231). -/
def State.actServes (s : State) (a : Fin 4) : Bool :=
  s.mode a != 0 && s.mode a != 3 && !(s.act a).lost && !(s.act a).pfltHeld && !(s.act a).ended && s.funcRunning a && s.funcRunning (4 + a) && s.phase != 2
    && s.flag Adr.SPN_RETRACT Fld.SPN_RETRACT_armed && s.powered 1 && !s.restarting 1

/-- The device may write on a surface now: its actuator serves and its head is settled (R99, R231). -/
def State.mayPlace (s : State) (x : Nat) : Bool := s.actServes (surfaceAct x) && s.headSettled (surfaceAct x)

/-- The unit of a media address is missing (R242). -/
def State.missingAt (s : State) (x : Nat) : Bool :=
  match s.media.layout with
  | some l => s.media.missing l (x / 576) (x % 576 / 64)
  | none => false

/-- The other units of truss t that are read to rebuild unit j lie on actuators that serve; a clean unit is not read (R72, R229). -/
def State.helpersUp (s : State) (l : Layout) (t j : Nat) : Bool :=
  ((List.range 9).filter (fun n => n != j && !s.media.isClean t n)).all (fun n => s.actServes (surfaceAct (s.media.unitOn l t n)))

/-! ## Spare tracks and reallocation (R239, R240) -/

/-- Data positions of the spare tracks of a zone. -/
def Zone.spareSlots (z : Zone) : Nat := z.spare * (z.spt / 64 * 60)

/-- Whether spare position n of a zone of a surface is taken. -/
def Media.spareTaken (m : Media) (surface zone n : Nat) : Bool :=
  m.moved.any (fun r => r.surface == surface && r.zone == zone && r.pos == n)
    || m.rebuilt.any (fun r => r.surface == surface && r.zone == zone && decide (r.pos ≤ n) && decide (n < r.pos + 64))

/-- Spare positions of a surface in use. -/
def Media.spareUsed (m : Media) (surface : Nat) : Nat :=
  (m.moved.filter (fun r => r.surface == surface)).length + 64 * (m.rebuilt.filter (fun r => r.surface == surface)).length

/-- The zones of a surface as formatted. -/
def State.surfZones (s : State) (x : Nat) : List Zone :=
  match s.media.layout with | some l => l.surfaceZones x | none => []

/-- Spare positions of a surface. -/
def State.spareTotal (s : State) (x : Nat) : Nat := (s.surfZones x).foldl (fun n z => n + z.spareSlots) 0

/-- Free spare positions of a surface. -/
def State.spareFree (s : State) (x : Nat) : Nat := s.spareTotal x - s.media.spareUsed x

/-- MDI_SPARE of a surface follows its spare positions, in units of 64. -/
def State.syncSpare (s : State) (x : Nat) : State :=
  let r := Adr.MDI_SPARE (x / 8) (x % 8)
  (s.setFld r Fld.MDI_SPARE_used (min ((s.media.spareUsed x + 63) / 64) 65535)).setFld r Fld.MDI_SPARE_free
    (min (s.spareFree x / 64) 65535)

/-- The first free spare position of a zone. -/
def State.freeIn (s : State) (x zone : Nat) : Option Nat :=
  match (s.surfZones x)[zone]? with
  | some z => firstFrom 0 z.spareSlots (fun n => !s.media.spareTaken x zone n)
  | none => none

/-- The zones of a surface by distance from one, the outer first between equals (R239). -/
def zoneOrder (n home : Nat) : List Nat :=
  (List.range n).foldl (fun acc d =>
    acc ++ (if d = 0 then [home] else (if d ≤ home then [home - d] else []) ++ (if home + d < n then [home + d] else []))) []

/-- A place for a reallocated sector of a surface: the zone that holds it, else the nearest with a free position. -/
def State.sparePlace (s : State) (x home : Nat) : Option (Nat × Nat) :=
  (zoneOrder (s.surfZones x).length home).findSome? (fun z => (s.freeIn x z).map (fun p => (z, p)))

/-- SECTOR_REALLOCATE: move a sector to a spare position of its surface; false when that is not possible (R239, R240). -/
def State.reallocate (s : State) (x : Nat) : Bool × State :=
  match s.locate x with
  | none => (false, s)
  | some p =>
    let a := surfaceAct p.surface
    let home := match zoneOfTrack (s.surfZones p.surface) p.track with | some (k, _) => k | none => 0
    let place := if s.flag (Adr.MDI_RCTL a) Fld.MDI_RCTL_realloc_en then s.sparePlace p.surface home else none
    match place with
    | some (z, n) =>
      let s1 := s.modMedia (fun m => { m with
        moved := m.moved.filter (fun r => r.media != x) ++ [⟨x, p.surface, z, n⟩], reallocated := m.reallocated + 1 })
      (true, ((s1.countFld (Adr.MDI_CNT1 a) Fld.MDI_CNT1_realloc).syncSpare p.surface).actEvent a 0x72)
    | none =>
      let r := Adr.MDI_SURF a
      (false, (s.setFld r Fld.MDI_SURF_spare_out (s.fld r Fld.MDI_SURF_spare_out ||| 2 ^ (p.surface % 8))).actEvent a 0x75
        p.surface)

/-! ## Courses and trusses after a write (R235 to R238) -/

/-- The course of a media address: its surface, its track and the group of 64 sectors of the track (R67). -/
def State.courseOf (s : State) (x : Nat) : Option (Nat × Nat × Nat) :=
  (s.locate x).map (fun p => (p.surface, p.track, p.sector / 64))

/-- The open course of a key. -/
def Media.openCourse (m : Media) (k : Nat × Nat × Nat) : Option OpenCourse :=
  m.courses.find? (fun c => c.surface == k.1 && c.track == k.2.1 && c.course == k.2.2)

/-- Trusses or courses that a power loss left are not made good yet; no background work begins before (R238). -/
def Media.afterLoss (m : Media) : Bool :=
  m.owedTrusses.any (fun t => m.trailing.any (fun r => r.truss == t)) || m.owedCourses.any (fun k => (m.openCourse k).isSome)

/-- Whether position i of truss t is stale (R238). -/
def Media.isStale (m : Media) (t i : Nat) : Bool := m.trailing.any (fun r => r.truss == t && r.stale.contains i)

/-- The sectors that would open a course beyond 256 make the oldest open course start to close, as ACTn base + 0x77 (R235). -/
def State.forceClose (s : State) : State :=
  match s.media.courses.find? (fun c => !c.closing) with
  | none => s
  | some c =>
    let s1 := s.modMedia (fun m => { m with
      forcedCloses := m.forcedCloses + 1
      courses := m.courses.map (fun d => if d.surface = c.surface ∧ d.track = c.track ∧ d.course = c.course then
        { d with closing := true } else d) })
    (s1.countFld Adr.MDI_OPEN Fld.MDI_OPEN_forced).actEvent (c.surface / 8) 0x77

/-- Background work that waits to open a course makes the oldest close, unless one closes already (R235). -/
def State.makeRoom (s : State) : State := if s.media.courses.any (fun c => c.closing) then s else s.forceClose

/-- Whether sector x may be written without opening a 257th course. -/
def State.courseRoom (s : State) (x : Nat) : Bool :=
  match s.courseOf x with
  | none => true
  | some k => (s.media.openCourse k).isSome || decide (s.media.courses.length < 256)

/-- The open courses after position pos of a course is written at an instant (R235). -/
def Media.writeCourse (m : Media) (k : Nat × Nat × Nat) (pos now : Nat) : List OpenCourse :=
  match m.openCourse k with
  | some _ => m.courses.map (fun c =>
      if c.surface = k.1 ∧ c.track = k.2.1 ∧ c.course = k.2.2 then
        let w := if c.written.contains pos then c.written else c.written ++ [pos]
        { c with written := w, closing := c.closing || decide (60 ≤ w.length) }
      else c)
  | none => m.courses ++ [⟨k.1, k.2.1, k.2.2, [pos], now, false⟩]

/-- Sectors that would open courses beyond 256 may not be written yet (R235). -/
def State.roomFor (s : State) (xs : List Nat) : Bool :=
  let new := ((xs.filterMap s.courseOf).filter (fun k => (s.media.openCourse k).isNone)).eraseDups
  decide (s.media.courses.length + new.length ≤ 256)

/-- The course of sector x opens, or stays open (R235). -/
def State.noteCourse (s : State) (x : Nat) : State :=
  match s.courseOf x, s.locate x with
  | some k, some p => s.modMedia (fun m => { m with courses := m.writeCourse k (p.sector % 64) s.now })
  | _, _ => s

/-- The trailing trusses become those of a list; a count that reaches trail_max is recorded as event 0x387 (R237). -/
def State.nowTrails (s : State) (l : List Trail) : State :=
  let most := s.fld Adr.MDI_TRAIL Fld.MDI_TRAIL_trail_max
  let s1 := s.modMedia (fun m => { m with trailing := l })
  if s.media.trailing.length < most ∧ most ≤ l.length then s1.event 0x387 else s1

/-- Sector x has been written: its course opens or stays open, starting to close once all 60 positions are written, its truss
trails with its position stale, and it stays in the trailing buffer (R235, R237, R238). A sector of a missing unit is recorded in
its truss parity only (R242). -/
def State.noteWritten (s : State) (x : Nat) : State :=
  let t := x / 576
  let i := x % 64
  let missing := match s.media.layout with | some l => s.media.missing l t (x % 576 / 64) | none => false
  let broken := match s.media.layout with | some l => s.media.isBroken l t | none => false
  let s1 := if broken || missing then s
    else (s.nowTrails (if s.media.trailing.any (fun r => r.truss == t) then
          s.media.trailing.map (fun r => if r.truss = t ∧ !r.stale.contains i then { r with stale := r.stale ++ [i] } else r)
        else s.media.trailing ++ [⟨t, [i], s.now⟩])).modMedia (fun m => { m with
      buffered := if m.buffered.contains x then m.buffered else m.buffered ++ [x] })
  if missing then s1.noteCourse (t * 576 + 512 + i) else s1.noteCourse x

/-- The sectors that leave the trailing buffer: their course is closed and their truss does not trail (R237). -/
def State.trimBuffer (s : State) : State :=
  s.modMedia (fun m => { m with buffered := m.buffered.filter (fun x =>
    m.trailing.any (fun r => r.truss == x / 576)
      || (match s.courseOf x with | some k => (m.openCourse k).isSome | none => false)) })

/-- Remove the unrecovered entry of an LBA: a write of it has completed (R232). -/
def State.clearUnrec (s : State) (ns lba : Nat) : State :=
  s.modMedia (fun m => { m with unrec := m.unrec.filter (fun u => !(u.ns == ns && u.lba == lba)) })

/-- A sector that holds no LBA is unrecovered: it is only counted (R252). -/
def State.countUnrec (s : State) (x : Nat) : State :=
  let a := match s.locate x with | some p => surfaceAct p.surface | none => surfaceAct (s.homeSurface x)
  (s.countFld (Adr.MDI_CNT1 a) Fld.MDI_CNT1_unrecovered).modMedia (fun m => { m with unrecovered := m.unrecovered + 1 })

/-- A sector is unrecovered: its LBA enters the unrecovered list (R232). -/
def State.unrecover (s : State) (x : Nat) : State :=
  match s.lbaOf x with
  | some (ns, lba) => s.addUnrec ns lba (match s.locate x with | some p => p.surface | none => s.homeSurface x)
  | none => s.countUnrec x

/-- COURSE_OPEN_TIMEOUT: a course open for 2 s since the first write that opened it starts to close (R235). -/
def execCourseOpenTimeout (surface track course : Nat) (s : State) : Res :=
  match s.media.openCourse (surface, track, course) with
  | some c =>
    if c.closing ∨ s.now < c.since + 2000000000 then .next s
    else .next (s.modMedia (fun m => { m with
      timerCloses := m.timerCloses + 1
      courses := m.courses.map (fun d => if d = c then { d with closing := true } else d) }))
  | none => .next s

/-- The data slot of a track and sector position of a surface's zones. -/
def slotOf (zs : List Zone) (track sector base : Nat) : Option Nat :=
  match zs with
  | [] => none
  | z :: r =>
    if z.first ≤ track ∧ track < z.first + (z.count - z.spare) then
      if sector % 64 < 60 ∧ sector < z.spt / 64 * 64 then
        some (base + (track - z.first) * (z.spt / 64 * 60) + sector / 64 * 60 + sector % 64)
      else none
    else slotOf r track sector (base + z.slots)

/-- The media address whose sector lies at a place: moved and rebuilt sectors there, else the one the layout puts there. -/
def State.mediaAt (s : State) (surface track sector : Nat) : Option Nat :=
  let hit (x : Nat) : Bool := s.locate x == some ⟨surface, track, sector⟩
  let home := match s.media.layout with
    | none => none
    | some l =>
      match l.q.idxOf? surface, slotOf (l.surfaceZones surface) track sector 0 with
      | some i, some n =>
        let k := n / 64 * l.q.length + i
        some (k / 9 * 576 + posUnit (k / 9) (k % 9) * 64 + n % 64)
      | _, _ => none
  let units : List Nat := s.media.rebuilt.flatMap (fun (r : Rebuilt) =>
    (List.range 64).map (fun i => r.truss * 576 + r.unit * 64 + i))
  (s.media.moved.map (fun (m : Moved) => m.media) ++ units ++ home.toList).find? hit

/-- The physical address of position p of a course (R62, R67). -/
def coursePhys (k : Nat × Nat × Nat) (p : Nat) : Nat := physOf k.1 k.2.1 (k.2.2 * 64 + p)

/-- The 64 fields of a course as they are recorded. -/
def State.courseFields (s : State) (k : Nat × Nat × Nat) : List (List Byte) := (List.range 64).map (fun p => s.fieldAt (coursePhys k p))

/-- A pass writes the four parity sectors of a course, under their own tags (R62, R68, R235). -/
def State.writeCourseParity (s : State) (k : Nat × Nat × Nat) : State :=
  let fields := (s.courseFields k).take 60
  (List.range 4).foldl (fun (t : State) i =>
    t.recordAt (coursePhys k (60 + i)) (courseParityField fields s.lbaSize i) (coursePhys k (60 + i)) 3 i) s.writePass

/-- The parity positions of a course at which no sector of that tag is recorded (R62). -/
def State.parityLost (s : State) (k : Nat × Nat × Nat) : List Nat :=
  [60, 61, 62, 63].filter (fun p => match s.recordedAt (coursePhys k p) with
    | some r => !tagMatches (coursePhys k p) 3 ((r.drop s.lbaSize).take 16)
    | none => true)

/-- COURSE_CLOSE_DONE: the parity of a closing course is written and its close recorded in the NOR journal; failed gives the media
addresses of data positions that could not be read, which are rewritten with zeros and enter the unrecovered list (R235, R236). -/
def execCourseCloseDone (surface track course : Nat) (failed : List Nat) (s : State) : Res :=
  match s.media.openCourse (surface, track, course) with
  | some c =>
    if !c.closing || !s.mayPlace surface then .next s
    else
      let s0 := failed.foldl (fun (s : State) x =>
        if s.courseOf x = some (surface, track, course) then
          (s.recordSector x []).unrecover x else s) (if failed.isEmpty then s else s.writePass)
      let s1 := s0.writeCourseParity (surface, track, course)
      .next ((s1.modMedia (fun m => { m with
        courses := m.courses.filter (fun d => !(d.surface == surface && d.track == track && d.course == course))
        owedCourses := m.owedCourses.filter (fun k => k != (surface, track, course))
        writes := m.writes.map (fun w => { w with held := false }) })).trimBuffer)
  | none => .next s

/-- A truss has trailed for trail_s (R237). -/
def State.trailOver (s : State) (r : Trail) : Bool :=
  decide (r.since + s.fld Adr.MDI_TRAIL Fld.MDI_TRAIL_trail_s * 1000000000 ≤ s.now)

/-- TRAIL_TIMEOUT: a truss has trailed for trail_s; it is recomputed next (R237). -/
def execTrailTimeout (truss : Nat) (s : State) : Res :=
  if s.media.trailing.any (fun r => r.truss == truss && s.trailOver r) then .next (s.event 0x387) else .next s

/-! ## The recovery layers (R226 to R233) -/

/-- The erased sectors of the course of x. -/
def State.erasedWith (s : State) (x : Nat) : List Nat :=
  (s.media.erased.filter (fun e => s.courseOf e.media == s.courseOf x)).map (fun e => e.media)

/-- The erased sector at a media address. -/
def Media.erasedAt (m : Media) (x : Nat) : Option Erased := m.erased.find? (fun e => e.media == x)

/-- The recovery of the sectors of a list goes on at a layer. -/
def State.atLayer (s : State) (l : List Nat) (layer : Nat) : State :=
  s.modMedia (fun m => { m with erased := m.erased.map (fun e => if l.contains e.media then { e with layer := layer } else e) })

/-- A sector is delivered by layer 2, 3 or 4, and waits for its rewrite (R226, R233). -/
def State.delivered (s : State) (x : Nat) (d : List Byte) : State :=
  (s.deliver x d).modMedia (fun m => { m with rewrites := insertKey m.rewrites x d })

/-- A sector is recovered by layer 2 or 3: delivered, counted, and recorded as its actuator's event (R233). -/
def State.recovered (s : State) (x : Nat) (course : Bool) (d : List Byte) : State :=
  let a := match s.locate x with | some p => surfaceAct p.surface | none => 0
  let s1 := (s.delivered x d).modMedia (fun m =>
    if course then { m with byCourse := m.byCourse + 1 } else { m with byRetry := m.byRetry + 1 })
  (s1.countFld (Adr.MDI_CNT0 a) (if course then Fld.MDI_CNT0_course_ok else Fld.MDI_CNT0_retry_ok)).actEvent a
    (if course then 0x71 else 0x70)
/-- Layer 2 may be applied to the course of x: enabled, and the course is closed (R226, R235). -/
def State.courseApplies (s : State) (x : Nat) : Bool :=
  match s.courseOf x, s.locate x with
  | some k, some p => s.flag (Adr.MDI_RCTL (p.surface / 8)) Fld.MDI_RCTL_course_en && (s.media.openCourse k).isNone
  | _, _ => false

/-- The position of x in its course. -/
def State.coursePos (s : State) (x : Nat) : Nat := match s.locate x with | some p => p.sector % 64 | none => 0

/-- The positions of the course of x that count as erased: its erased sectors, those of a list that the channel does not deliver, and the parity
sectors that are not there (R227). -/
def State.lostPositions (s : State) (x : Nat) (lost : List Nat) : List Nat :=
  match s.courseOf x with
  | some k => (((s.erasedWith x).map s.coursePos) ++ lost.filter (fun p => decide (p < 64)) ++ s.parityLost k).eraseDups
  | none => []

/-- The data of sector y of a course, rebuilt from the positions that do not count as erased (R64, R68). -/
def State.rebuiltFrom (s : State) (k : Nat × Nat × Nat) (l : List Nat) (y : Nat) : List Byte :=
  let fields := (s.courseFields k).zipIdx.map (fun p => if l.contains p.2 then List.replicate s.lbaSize 0 else p.1)
  scramble y (courseRebuild fields s.lbaSize l (s.coursePos y))

/-- Layer 2 on the course of x, with more positions of it that the channel does not deliver: with 4 or fewer erased, its erased sectors are rebuilt
(R227). -/
def State.courseLayer (s : State) (x : Nat) (lost : List Nat) : Bool × State :=
  let l := s.lostPositions x lost
  match s.courseOf x with
  | some k =>
    if s.courseApplies x && decide (l.length ≤ 4) then
      (true, (s.erasedWith x).foldl (fun (t : State) y => t.recovered y true (s.rebuiltFrom k l y)) s)
    else (false, s)
  | none => (false, s)

/-- What a decoded read of sector x gives: its data, where the sector recorded at its place carries its tag (R62, R86). -/
def State.readable (s : State) (x : Nat) : Option (List Byte) :=
  match s.expectedAt x with
  | some (phys, seed, kind) => (s.recordedAt phys).bind (fun r =>
      if tagMatches seed kind ((r.drop s.lbaSize).take 16) then some (scramble seed (r.take s.lbaSize)) else none)
  | none => none

/-- Whether recovery of x may go on now. -/
def State.recoverable (s : State) (x : Nat) : Bool :=
  match s.locate x with | some p => s.actServes (surfaceAct p.surface) | none => false

/-- Read retries set for the actuator of x. -/
def State.retryMax (s : State) (x : Nat) : Nat :=
  match s.locate x with | some p => min (s.fld (Adr.MDI_RCTL (p.surface / 8)) Fld.MDI_RCTL_retry_max) 8 | none => 0

/-- The unit of x can be rebuilt at its position: its truss is not broken, no other unit is missing but a clean one, and the position is not stale
(R229, R238). -/
def State.trussApplies (s : State) (x : Nat) : Bool :=
  match s.media.layout with
  | none => false
  | some l =>
    let t := x / 576
    !s.media.isBroken l t && !s.media.isStale t (x % 64)
      && (List.range 9).all (fun j => j == x % 576 / 64 || !s.media.missing l t j || s.media.isClean t j)

/-- A pass rewrites sector x with data; a sector that must move is first reallocated, as far as that is possible (R63, R233, R239). -/
def State.rewriteAt (s : State) (x : Nat) (d : List Byte) : State := (s.writePass.recordSector x d).noteCourse x

/-- RECOVERED_REWRITE: a sector that layer 2, 3 or 4 has delivered is rewritten in place and read back; it is reallocated, and written at its new
place, when weak or failing (R233). It waits while a course could not be opened for it (R235). -/
def execRecoveredRewrite (media : Nat) (readBack : Option Nat) (s : State) : Res :=
  match s.locate media, lookupKey s.media.rewrites media with
  | some p, some d =>
    let s0 := s.modMedia (fun m => { m with rewrites := eraseKey m.rewrites media })
    if s.media.surfaceGone p.surface then .next s0
    else if !s.mayPlace p.surface then .next s
    else if !s.roomFor [media] then .next s.makeRoom
    else
      let weak := s.fld (Adr.MDI_RCTL (p.surface / 8)) Fld.MDI_RCTL_weak_iter
      let bad := match readBack with | some n => decide (weak < n) | none => true
      let s1 := s0.rewriteAt media d
      let t := s1.reallocate media
      .next (if !bad then s1 else if t.1 then t.2.rewriteAt media d else t.2)
  | _, _ => .next s

/-! ## Rebuild (R243, R244) -/

/-- Units of truss t on each actuator, counting those not missing. -/
def State.unitsOn (s : State) (l : Layout) (t a : Nat) : Nat :=
  ((List.range 9).filter (fun j => !s.media.missing l t j
    && (match s.media.rebuilt.find? (fun r => r.truss == t && r.unit == j) with
        | some r => r.surface / 8 == a
        | none => unitSurface l.q t j / 8 == a))).length

/-- Surfaces that hold a unit of truss t. -/
def State.trussHas (s : State) (l : Layout) (t x : Nat) : Bool :=
  (List.range 9).any (fun j =>
    match s.media.rebuilt.find? (fun r => r.truss == t && r.unit == j) with
    | some r => r.surface == x
    | none => unitSurface l.q t j == x)

/-- The first of 64 free spare positions in a row on a surface: its zone and position. -/
def State.spareRun (s : State) (x : Nat) : Option (Nat × Nat) :=
  (List.range (s.surfZones x).length).findSome? (fun z =>
    match (s.surfZones x)[z]? with
    | some zn =>
      if zn.spareSlots < 64 then none
      else (firstFrom 0 (zn.spareSlots - 63) (fun n => (List.range 64).all (fun k => !s.media.spareTaken x z (n + k)))).map
        (fun n => (z, n))
    | none => none)

/-- The surface a unit of truss t is rebuilt on (R243): fewest units of the truss on its actuator, then most free spare positions,
then the lowest number. -/
def State.rebuildTarget (s : State) (l : Layout) (t : Nat) : Option Nat :=
  let ok := l.q.filter (fun x => !s.media.surfaceGone x && !s.trussHas l t x && (s.spareRun x).isSome)
  let rank (x : Nat) : List Nat := [s.unitsOn l t (x / 8), 2 ^ 48 - s.spareFree x, x]
  ok.foldl (fun b x => match b with | some y => if keyLess (rank x) (rank y) then some x else some y | none => some x) none

/-- The next truss from t on that has a unit of surface x to rebuild; the truss layout repeats with the length of Q times 9. -/
def State.nextRebuild (s : State) (l : Layout) (x t : Nat) : Option Nat :=
  firstFrom t (min (l.tmax - t) (9 * l.q.length + s.media.rebuilt.length)) (fun u => (s.media.toRebuild l x u).isSome)

/-- REBUILD_UNIT: the rebuild of the surface at the head of the queue takes its next unit, whose 64 sectors a pass writes from the other units of the
truss, or ends (R229, R243, R244). -/
def execRebuildUnit (s : State) : Res :=
  match s.media.rebuildQueue, s.media.layout with
  | x :: rest, some l =>
    if !s.flag Adr.MDI_REBUILD Fld.MDI_REBUILD_rb_en || s.media.afterLoss then .next s
    else
      let s0 := if s.fld Adr.MDI_REBUILD Fld.MDI_REBUILD_surface = x then s
        else ((s.setFld Adr.MDI_REBUILD Fld.MDI_REBUILD_surface x).modMedia (fun m => { m with rebuildNext := 0 })).event 0x382
      match s0.nextRebuild l x s0.media.rebuildNext with
      | none =>
        let s1 := s0.modMedia (fun m => { m with rebuildQueue := rest, rebuildNext := 0, rebuildLock := none })
        .next ((s1.setFld Adr.MDI_REBUILD Fld.MDI_REBUILD_surface 0xFF).syncRebuild.event 0x383)
      | some t =>
        match s0.media.toRebuild l x t, s0.rebuildTarget l t with
        | some j, some y =>
          match s0.spareRun y with
          | some (z, n) =>
            if s0.media.trailing.any (fun r => r.truss == t) then .next (s0.modMedia (fun m => { m with rebuildLock := some t }))
            else if !s0.mayPlace y || !s0.helpersUp l t j then .next s0
            else
              let u := s0.modMedia (fun m => { m with
                rebuilt := m.rebuilt.filter (fun r => !(r.truss == t && r.unit == j)) ++ [⟨t, j, y, z, n⟩]
                rebuildNext := t + 1, rebuildLock := none })
              let xs := (List.range 64).map (fun i => t * 576 + j * 64 + i)
              if !u.roomFor xs then .next s0.makeRoom
              else
                .next ((xs.foldl (fun (v : State) x => (v.recordSector x (if s0.media.isClean t j then [] else s0.restOfTruss t j (x % 64))).noteCourse x)
                  u.writePass).syncSpare y).syncRebuild
          | none => .next s0
        | _, _ =>
          let s1 := s0.modMedia (fun m => { m with rebuildNext := t + 1, noEligible := true })
          .next (if s0.media.noEligible then s1 else s1.event 0x384)
  | _, _ => .next s

/-! ## Background scan (R249, R250) -/

/-- The scan of an actuator may read: it yields to every host media operation there, is suspended while a class-0 command is on the actuator, and
waits for what a power loss left (R238, R249). -/
def State.mayScan (s : State) (a : Fin 4) : Bool :=
  s.flag (Adr.MDI_SCAN a) Fld.MDI_SCAN_scan_en && s.actServes a && s.headSettled a && !s.media.afterLoss
    && (s.act a).seq.list.all (fun e => e.returned || e.outcome.isSome)

/-- Surface surf of the scan's actuator is present and not lost (R249). -/
def State.scansSurface (s : State) (surf : Nat) : Bool := s.surfacePresent surf

/-- No position of the truss of x is stale (R238, R250). -/
def State.trussCurrent (s : State) (x : Nat) : Bool := !s.media.trailing.any (fun r => r.truss == x / 576)

/-- SCAN_SECTOR: the scan of an actuator reads a sector of a present surface (R249, R250). -/
def execScanSector (a : Fin 4) (head track sector : Nat) (found : Scanned) (s : State) : Res :=
  if !s.mayScan a || !s.scansSurface (8 * a.val + head) then .next s
  else
    let surf := 8 * a.val + head
    let zs := fun h => s.surfZones (8 * a.val + h)
    let count := fun h => (zs h).foldl (fun n z => n + z.count) 0
    let total := (List.range 8).foldl (fun n h => n + count h) 0
    let before := (List.range (min head 8)).foldl (fun n h => n + count h) 0
    let s1 := ((s.setFld (Adr.MDI_SCANPOS a) Fld.MDI_SCANPOS_head head).setFld (Adr.MDI_SCANPOS a) Fld.MDI_SCANPOS_track track).setFld
      (Adr.MDI_SCANSTAT a) Fld.MDI_SCANSTAT_progress (if total = 0 then 0 else min ((before + track) * 1000 / total) 1000)
    match found with
    | .decoded n =>
      if n ≤ s.fld (Adr.MDI_RCTL a) Fld.MDI_RCTL_weak_iter then .next s1
      else match s.mediaAt surf track sector with
        | some x =>
          match s.readable x with
          | some d => if s.roomFor [x] then .next ((s1.rewriteAt x d).actEvent a 0x73) else .next s1.makeRoom
          | none => .next s1
        | none => .next s1
    | .failed =>
      match s.mediaAt surf track sector with
      | some x => .next (s1.erase x)
      | none => .next s1
    | .courseMismatch =>
      if (s.media.openCourse (surf, track, sector / 64)).isSome then .next s1
      else .next ((s1.writeCourseParity (surf, track, sector / 64)).actEvent a 0x76)
    | .trussMismatch =>
      match s.mediaAt surf track sector with
      | some x =>
        let y := x / 576 * 576 + 512 + x % 64
        if !s.trussCurrent x || s.missingAt y then .next s1
        else if s.roomFor [y] then .next ((s1.rewriteAt y (s1.trussParity (x / 576) (x % 64))).event 0x386) else .next s1.makeRoom
      | none => .next s1
    | .passEnd =>
      .next (((s1.countFld (Adr.MDI_SCANSTAT a) Fld.MDI_SCANSTAT_passes).setFld (Adr.MDI_SCANSTAT a)
        Fld.MDI_SCANSTAT_progress 0).modMedia (fun m => { m with scanPasses := m.scanPasses.set a (m.scanPasses[a] + 1) }))

end Sys2Proof.Machine
end

