-- ==== Sys2Proof/Machine/Host.lean ====
section
/-! DEFINITION. The host interface's own operations (12_host_fabric_and_ownership.md, 13_command_set.md): statuses and completions,
contexts and their fetch, associations, range locks, and the cell pool. -/

namespace Sys2Proof.Machine

open Sys2Proof

/-- Change the host interface. -/
def State.modHost (s : State) (f : HostState → HostState) : State := { s with host := f s.host }

/-! ## Frames that are sent (R332, R347) -/

/-- The PCP of a packet of a priority level: 7 for transport control, else 7 less the class of its queue. Admin packets have no class (log entry 144):
theirs follows from their level in the same way. -/
def pcpOf (level : Nat) : Nat := 7 - (level - 1)

/-- The 802.1Q tag of what interface i of port p sends at a priority level; VLAN ID 0 is untagged. -/
def State.tagOf (s : State) (p i level : Nat) : Option (Nat × Nat) :=
  let v := s.fld (Adr.NET_IF0 p i) Fld.NET_IF0_vlan
  if v = 0 then none else some (v, pcpOf level)

/-- Interface i of port p sends something at a priority level. -/
def State.sendOn (s : State) (p i level : Nat) (o : NetOut) : State :=
  s.modHost (fun h => { h with sent := h.sent ++ [{ out := o, tag := s.tagOf p i level }] })

/-- A connection sends something at a priority level; one that is gone sends without a tag. -/
def State.sendConn (s : State) (k level : Nat) (o : NetOut) : State :=
  match lookupKey s.host.conns k with
  | some c => s.sendOn c.port c.iface level o
  | none => s.modHost (fun h => { h with sent := h.sent ++ [{ out := o }] })

/-! ## Statuses (R362) -/

/-- A status: its code type and code. -/
structure Status where
  sct : Nat
  sc : Nat
deriving DecidableEq, Repr

/-- A vendor status of R362. -/
def Status.vendor (c : Nat) : Status := ⟨7, c⟩

/-- Successful Completion. -/
def Status.ok : Status := ⟨0, 0⟩
/-- Invalid Command Opcode. -/
def Status.opcode : Status := ⟨0, 1⟩
/-- Invalid Field in Command. -/
def Status.field : Status := ⟨0, 2⟩
/-- Internal Error. -/
def Status.internal : Status := ⟨0, 6⟩
/-- Invalid Namespace or Format. -/
def Status.ns : Status := ⟨0, 0x0B⟩
/-- Command Sequence Error. -/
def Status.sequence : Status := ⟨0, 0x0C⟩
/-- Transient Transport Error. -/
def Status.transport : Status := ⟨0, 0x22⟩
/-- LBA Out of Range. -/
def Status.range : Status := ⟨0, 0x80⟩
/-- Capacity Exceeded. -/
def Status.capacity : Status := ⟨0, 0x81⟩
/-- Namespace Not Ready. -/
def Status.notReady : Status := ⟨0, 0x82⟩
/-- Authentication Required. -/
def Status.authRequired : Status := ⟨0, 0x91⟩
/-- Access Denied. -/
def Status.denied : Status := ⟨2, 0x86⟩
/-- Write Fault. -/
def Status.writeFault : Status := ⟨2, 0x80⟩
/-- Unrecovered Read Error. -/
def Status.unrecovered : Status := ⟨2, 0x81⟩
/-- 80h Not Owner. -/
def Status.notOwner : Status := .vendor 0x80
/-- 91h Function Stopped. -/
def Status.stopped : Status := .vendor 0x91
/-- 89h Extent Lost. -/
def Status.lost : Status := .vendor 0x89
/-- 93h Internal Data Error. -/
def Status.data : Status := .vendor 0x93

/-- The Do Not Retry bit of a completion (R362). -/
def Status.dnr (t : Status) : Bool :=
  !(t == .ok || t == .vendor 0x8B || t == .stopped || t == .vendor 0x94 || t == .transport || t == .notReady || t == .internal)

/-! ## Range locks (R398, R399) -/

/-- SLBA of a command that carries it in CDW10 and CDW11. -/
def slbaOf (c : Cmd) : Nat := c.cdw10.toNat + c.cdw11.toNat * 2 ^ 32

/-- The block count of a command that carries NLB in CDW12 (0-based). -/
def nlbOf (c : Cmd) : Nat := c.cdw12.toNat % 65536 + 1

/-- The ranges of Dataset Management: first LBA and count of each of the NR + 1 entries of 16 bytes. -/
def rangesOf (c : Cmd) : List (Nat × Nat) :=
  (List.range (c.cdw10.toNat % 256 + 1)).map (fun k => (leAt c.data (16 * k + 8) 8, leAt c.data (16 * k + 4) 4))

/-- The block count of a Transform. -/
def xfBlocks (c : Cmd) : Nat := c.cdw14.toNat % 8192

/-- SLBA of a Transform. -/
def xfSlba (c : Cmd) : Nat := c.cdw12.toNat + c.cdw13.toNat * 2 ^ 32

/-- The namespace, first and last LBA and kind of the lock a command requests (R398). -/
def lockOf (i : Instr) : Option (Nat × Nat × Nat × Bool) :=
  match i with
  | .read c => some (c.nsid.toNat, slbaOf c, slbaOf c + nlbOf c - 1, false)
  | .timedRead c => some (c.nsid.toNat, slbaOf c, slbaOf c + nlbOf c - 1, false)
  | .write c => some (c.nsid.toNat, slbaOf c, slbaOf c + nlbOf c - 1, true)
  | .writeZeroes c => some (c.nsid.toNat, slbaOf c, slbaOf c + nlbOf c - 1, true)
  | .datasetManagement c =>
    let r := (rangesOf c).filter (fun p => p.2 != 0)
    match r with
    | [] => none
    | p :: t =>
      some (c.nsid.toNat, t.foldl (fun m q => min m q.1) p.1, t.foldl (fun m q => max m (q.1 + q.2 - 1)) (p.1 + p.2 - 1), true)
  | .transform c =>
    some (c.nsid.toNat, xfSlba c, xfSlba c + xfBlocks c - 1, !bitOf c.cdw10.toNat 8)
  | _ => none

/-- Two requests conflict: their ranges overlap and one is exclusive. -/
def Lock.conflicts (a b : Lock) : Bool :=
  a.ns == b.ns && decide (a.lo ≤ b.hi) && decide (b.lo ≤ a.hi) && (a.excl || b.excl)

/-- The requests before the one of a command. -/
def locksBefore (l : List Lock) (a q c : Nat) : List Lock :=
  l.takeWhile (fun k => !(k.assoc == a && k.qid == q && k.cid == c))

/-- The request of a command. -/
def HostState.lockAt (h : HostState) (a q c : Nat) : Option Lock :=
  h.locks.find? (fun k => k.assoc == a && k.qid == q && k.cid == c)

/-- The waiting request of a command has no earlier conflicting request. -/
def HostState.lockFree (h : HostState) (k : Lock) : Bool :=
  (locksBefore h.locks k.assoc k.qid k.cid).all (fun e => !e.conflicts k)

/-- Put a command's request into the table, granted when nothing conflicts; a full table makes it wait for an entry, and is found full for the first
time since it had a free one (R399). -/
def State.addLock (s : State) (a q c : Nat) (r : Nat × Nat × Nat × Bool) : State :=
  if s.host.locks.length < 256 then
    let k : Lock := { ns := r.1, lo := r.2.1, hi := r.2.2.1, excl := r.2.2.2, assoc := a, qid := q, cid := c, granted := false }
    s.modHost (fun h => { h with locks := h.locks ++ [{ k with granted := h.locks.all (fun e => !e.conflicts k) }] })
  else if s.host.lockFullSeen then s
  else (s.modHost (fun h => { h with lockFullSeen := true })).event 0x620

/-- The contexts that wait for an entry of a full lock table, in order-point order: by the time they came to wait, which is that of their order
point, and then in the order of their fetch (R397, R399). -/
def HostState.lockQueue (h : HostState) : List Ctx :=
  let waits (x : Ctx) : Bool := x.wait == .lock && (h.lockAt x.assoc x.qid x.cid).isNone
  (h.ctxs.filter waits).foldl (fun l x => l.takeWhile (fun y => decide (y.since ≤ x.since)) ++ x :: l.dropWhile (fun y => decide (y.since ≤ x.since))) []

/-- They take the entries that are free. -/
def State.fillLocks (s : State) : State :=
  s.host.lockQueue.foldl (fun s x =>
    if s.host.locks.length < 256 then
      match x.instr.bind lockOf with
      | some r => s.addLock x.assoc x.qid x.cid r
      | none => s
    else s) s

/-- Release the lock of a command. -/
def State.releaseLock (s : State) (a q c : Nat) : State :=
  let s1 := (s.modHost (fun h => { h with locks := h.locks.filter (fun k => !(k.assoc == a && k.qid == q && k.cid == c)) })).fillLocks
  s1.modHost (fun h => { h with lockFullSeen := h.lockFullSeen && decide (256 ≤ h.locks.length) })

/-! ## Contexts and completions (R350, R362) -/

/-- Whether a context is that of a command. -/
def Ctx.is (x : Ctx) (a q c : Nat) : Bool := x.assoc == a && x.qid == q && x.cid == c

/-- The context of a command. -/
def State.ctx (s : State) (a q c : Nat) : Option Ctx := s.host.ctxs.find? (fun x => x.is a q c)

/-- Change the context of a command. -/
def State.modCtx (s : State) (a q c : Nat) (f : Ctx → Ctx) : State :=
  s.modHost (fun h => { h with ctxs := h.ctxs.map (fun x => if x.is a q c then f x else x) })

/-- A wait that takes a class-0 command its bound (R220, R400). -/
def Wait.delays (w : Wait) : Bool :=
  match w with
  | .powerExit => true
  | .region _ _ _ => true
  | .func _ => true
  | .lock => true
  | .recovery => true
  | .actuator _ => true
  | .retract => true
  | .approach => true
  | _ => false

/-- Make a command wait. -/
def State.waitFor (s : State) (x : Ctx) (w : Wait) : State :=
  s.modCtx x.assoc x.qid x.cid (fun y => { y with
    wait := w, since := s.now, delayed := y.delayed || w.delays
    recovFrom := if w = .recovery then y.recovFrom.or (some s.now) else y.recovFrom })

/-- Free the context of a command and release its lock. -/
def State.dropCtx (s : State) (a q c : Nat) : State :=
  let s1 := s.modHost (fun h =>
    let l := h.ctxs.filter (fun x => !x.is a q c)
    { h with ctxs := l, ctxFullSeen := h.ctxFullSeen && decide (4096 ≤ l.length) })
  (s1.releaseLock a q c).dropList false a q c

/-- Change an association. -/
def State.modAssoc (s : State) (a : Nat) (f : Assoc → Assoc) : State :=
  s.modHost (fun h => { h with assocs := h.assocs.map (fun p => if p.1 = a then (p.1, f p.2) else p) })

/-- The association of a number. -/
def State.assoc (s : State) (a : Nat) : Option Assoc := lookupKey s.host.assocs a

/-- The PCIe completion queue that a submission queue posts to. -/
def Assoc.cqOf (x : Assoc) (qid : Nat) : Option Cq :=
  match lookupKey x.sqs qid with
  | some k => x.cqs.find? (fun c => c.id == k)
  | none => x.cqs.find? (fun c => c.id == 0)

/-- Post a completion: to the association's completion queue, or, on PCIe, to its queue in host memory, where a full queue holds it
until its head doorbell moves (R341). A command whose association has ended gets none (R340). -/
def State.post (s : State) (c : Completion) : State :=
  if 1024 < c.assoc then s
  else if c.assoc ≠ 1024 then s.modHost (fun h => { h with completions := h.completions ++ [c] })
  else
    match (s.assoc 1024).bind (fun x => x.cqOf c.qid) with
    | some k =>
      if (k.tail + 1) % k.size = k.head ∨ s.host.heldCpl.any (fun d => (s.assoc 1024).bind (fun x => x.cqOf d.qid) == some k) then
        s.modHost (fun h => { h with heldCpl := h.heldCpl ++ [c] })
      else
        (s.modAssoc 1024 (fun x => { x with cqs := x.cqs.map (fun d =>
          if d.id = k.id then { d with tail := (d.tail + 1) % d.size } else d) })).modHost
          (fun h => { h with completions := h.completions ++ [c], msix := h.msix ++ k.vector.toList })
    | none => s.modHost (fun h => { h with completions := h.completions ++ [c] })

/-- An entry of the Error Information page for a failed command; 64 are kept (R393). -/
def State.noteError (s : State) (qid cid : Nat) (t : Status) (lba nsid : Nat) : State :=
  s.modHost (fun h => { h with
    errorCount := h.errorCount + 1
    errors := (⟨h.errorCount + 1, qid, cid, t.sct * 256 + t.sc, lba, nsid⟩ :: h.errors).take 64 })

/-- Complete a command: its completion is posted, its context freed, its lock released. -/
def State.complete (s : State) (x : Ctx) (t : Status) (dw0 : Nat := 0) (dw1 : Nat := 0) (data : List Byte := []) (lba : Nat := 0)
    (nsid : Nat := 0) : State :=
  let s1 := s.post { assoc := x.assoc, qid := x.qid, cid := x.cid, sct := t.sct, sc := t.sc, dnr := t.dnr, dw0 := dw0, dw1 := dw1,
                     data := data }
  let s2 := if t = .ok then s1 else s1.noteError x.qid x.cid t lba nsid
  s2.dropCtx x.assoc x.qid x.cid

/-- Change a queue; an empty one is not listed. -/
def State.modQueue (s : State) (q : Nat) (f : Queue → Queue) : State :=
  let k := f (s.queue q)
  s.modHost (fun h => { h with queues := if k = {} then eraseKey h.queues q else insertKey h.queues q k })

/-! ## Arrival and fetch (R350, R351, R355, R402) -/

/-- The time base in ns. -/
def State.tbNs (s : State) : Nat := s.time.tb / 65536

/-- The class of a queue (R352). -/
def State.queueClass (s : State) (a q : Nat) : Nat :=
  match s.assoc a with
  | some x => (lookupKey x.classes q).getD 2
  | none => 2

/-- Whether an association is authenticated (R339, R342). -/
def State.authed (s : State) (a : Nat) : Bool :=
  if a = 1024 then s.flag Adr.OWN_CFG Fld.OWN_CFG_pcie_auth
  else match s.assoc a with | some x => x.auth | none => false

/-- The lease runs from now (R355). -/
def State.renewLease (s : State) : State :=
  { s with own := { s.own with endsAt := s.now + s.fld Adr.OWN_LEASE Fld.OWN_LEASE_lease_s * 1000000000 } }

/-- The lease of the owner has run out, or the successor window of a yield has; its row has not been commanded yet (R353, R355). -/
def State.ownOver (s : State) : Bool :=
  s.fld Adr.OWN_STATUS Fld.OWN_STATUS_state != 0 && decide (s.own.endsAt ≤ s.now)

/-- A capsule arrives: it takes the next place in the arrival order, its permission is decided, an admin command of the owner renews
the lease unless it has run out, and the keep-alive timer starts again (R350, R355, R402). -/
def State.arrive (s : State) (a q c cells : Nat) (bad : Bool) : State :=
  let k : Capsule := { assoc := a, qid := q, cid := c, arrival := s.tbNs, permitted := s.isOwner a && !s.ownOver, order := s.host.seq
                       bad := bad, cells := cells }
  let s1 := if q = 0 ∧ k.permitted then s.renewLease else s
  (s1.modHost (fun h => { h with capsules := h.capsules ++ [k], seq := h.seq + 1 })).modAssoc a
    (fun x => { x with katoFrom := s.now })

/-- Whether a capsule may take a context: one is free, and for an I/O command more than 64 are (R350). -/
def State.contextFor (s : State) (q : Nat) : Bool :=
  if q = 0 then decide (s.host.ctxs.length < 4096) else decide (s.host.ctxs.length + 64 < 4096)

/-- The command queue of an association's queue (R344). -/
def commandQueue (a q : Nat) : Nat := 6 * a + (if q = 0 then 0 else 3)

/-- A capsule is fetched: it leaves its queue and takes a context (R350, R351). -/
def State.fetch (s : State) (k : Capsule) : State :=
  let x : Ctx := { assoc := k.assoc, qid := k.qid, cid := k.cid, arrival := k.arrival, permitted := k.permitted
                   cls := s.queueClass k.assoc k.qid, order := k.order, bad := k.bad, since := s.now, launch := k.arrival }
  let s0 := if k.cells = 0 then s else s.modQueue (commandQueue k.assoc k.qid) (fun q => { q with openCells := q.openCells - k.cells })
  let s1 := s0.modHost (fun h => { h with
    capsules := h.capsules.filter (fun j => j.order != k.order)
    ctxs := h.ctxs ++ [x]
    lastServed := if k.qid = 0 then h.lastServed else k.assoc })
  if s1.host.ctxs.length = 4096 ∧ !s.host.ctxFullSeen then
    ((s1.modHost (fun h => { h with ctxFullSeen := true })).countFld Adr.HIF_CNT Fld.HIF_CNT_ctx_full).event 0x607
  else s1

/-- The first of a list by a rank, smaller first. -/
def leastBy {α : Type} (rank : α → List Nat) (l : List α) : Option α :=
  l.foldl (fun b x => match b with
    | some y => if keyLess (rank x) (rank y) then some x else some y
    | none => some x) none

/-- The capsule fetched next (R351). -/
def State.nextCapsule (s : State) : Option Capsule :=
  let ready := s.host.capsules.filter (fun k => s.contextFor k.qid)
  leastBy (fun (k : Capsule) =>
    if k.qid = 0 then [0, k.order]
    else [1, s.queueClass k.assoc k.qid, (k.assoc + 1025 - (s.host.lastServed + 1) % 1025) % 1025, k.order]) ready

/-- COMMAND_FETCH: a waiting capsule takes a free command context in fetch order (R351). -/
def execCommandFetch (s : State) : Res :=
  match s.nextCapsule with
  | some k => .next (s.fetch k)
  | none => .next s

/-- The state once a command's row finds its command: the context fetched for it, else the capsule fetched now, else a command that
arrives and is fetched now; with its context. none when its association does not exist or no context is free. -/
def State.takeContext (s : State) (a q c : Nat) : State × Option Ctx :=
  match s.host.ctxs.find? (fun x => x.is a q c && x.wait == .fetched && x.instr.isNone) with
  | some x => (s, some x)
  | none =>
    let s1 := if s.host.capsules.any (fun k => k.assoc == a && k.qid == q && k.cid == c) || (s.assoc a).isNone
        || (s.ctx a q c).isSome then s
      else s.arrive a q c 0 false
    match s1.host.capsules.find? (fun k => k.assoc == a && k.qid == q && k.cid == c) with
    | some k =>
      if s1.contextFor q then
        let s2 := s1.fetch k
        (s2, s2.ctx a q c)
      else (s1, none)
    | none => (s1, none)

/-! ## The cell pool (R344 to R348) -/

/-- A write to a full queue is ignored: the overrun bits are set and event 0x606 is recorded (R348). -/
def State.overrun (s : State) (q : Nat) : State :=
  let e := Adr.CPL_ERR
  let s1 := s.modQueue q (fun k => { k with overrun := true })
  let s2 := if s.flag e Fld.CPL_ERR_overrun then s1.setFlag e Fld.CPL_ERR_overflow true
    else (s1.setFlag e Fld.CPL_ERR_overrun true).setFld e Fld.CPL_ERR_queue q
  s2.event 0x606

/-- Cells that n bytes take. -/
def cellsOf (n : Nat) : Nat := (n + 255) / 256

/-- The I/O egress queue of an association. -/
def egressOf (a : Nat) : Nat := 6 * a + 5

/-- EGRESS_SHARE_RECOMPUTE (R346). An egress queue that holds no cell and has no writer is not counted; with none counted the share is
taken as for one. -/
def execEgressShareRecompute (s : State) : Res :=
  let writes (a : Nat) : Bool := s.cast.runs.any (fun p => p.2.assoc == a && !p.2.ended)
  let n := (s.host.assocs.filter (fun p => decide (0 < (s.queue (egressOf p.1)).cells) || writes p.1)).length
  let share := min (s.fld Adr.CPL_SHARE Fld.CPL_SHARE_eg_max) (64 + s.sharedFree / max n 1)
  .next (s.modHost (fun h => { h with share := max share 64 }))

end Sys2Proof.Machine
end

