-- ==== Sys2Proof/Machine/Package.lean ====
section
/-! DEFINITION. What a Cast produces, byte by byte (R255 to R282): the mould's parts, its segments, initialisation and media segments,
encryption, and MPEG-2 TS. -/

namespace Sys2Proof.Machine

open Sys2Proof

/-! ## Moulds (R255 to R259) -/

/-- A part of a mould. -/
def Mould.part (m : Mould) (p : Nat) : MouldPart := m.parts.getD p {}

/-- n bytes of a part; a byte that has not been written reads as 0. -/
def Mould.bytes (m : Mould) (p off n : Nat) : List Byte := cellGets (m.part p).cells off n

/-- A little-endian number of a part. -/
def Mould.le (m : Mould) (p off n : Nat) : Nat := ofLe (m.bytes p off n)

/-- Length of the stored sample entry. -/
def Mould.entryLen (m : Mould) : Nat := m.le 0 2 2
/-- The handler's four characters. -/
def Mould.handler (m : Mould) : List Byte := m.bytes 0 4 4
/-- Ticks per second. -/
def Mould.timescale (m : Mould) : Nat := m.le 0 8 4
/-- track_ID. -/
def Mould.trackId (m : Mould) : Nat := m.le 0 12 4
/-- Nominal segment duration. -/
def Mould.segDur (m : Mould) : Nat := m.le 0 16 4
/-- Decode time of sample 0. -/
def Mould.baseDts (m : Mould) : Nat := m.le 0 20 8
/-- Length of the parameter-set bytes. -/
def Mould.psLen (m : Mould) : Nat := m.le 0 36 2
/-- TS conversion. -/
def Mould.tsConv (m : Mould) : Nat := m.le 0 35 1
/-- The parameter-set bytes. -/
def Mould.psBytes (m : Mould) : List Byte := m.bytes 0 (128 + m.entryLen) m.psLen

/-- A string's characters as bytes. -/
def ascii (t : String) : List Byte := t.toList.map (fun c => BitVec.ofNat 8 c.toNat)

/-- The track is video. -/
def Mould.isVide (m : Mould) : Bool := m.handler == ascii "vide"
/-- The track is sound. -/
def Mould.isSoun (m : Mould) : Bool := m.handler == ascii "soun"
/-- The track is one that is ever encrypted by recipe 0 (R273, R279). -/
def Mould.isAv (m : Mould) : Bool := m.isVide || m.isSoun

/-- A sample map entry (R257). -/
structure MapSample where
  off : Nat
  size : Nat
  dur : Nat
  cts : Int
  subFirst : Nat
  subCount : Nat
  sync : Bool
deriving DecidableEq, Repr

/-- Sample i of a mould. -/
def Mould.sample (m : Mould) (i : Nat) : MapSample :=
  let b := 32 * i
  { off := m.le 1 b 8, size := m.le 1 (b + 8) 4, dur := m.le 1 (b + 12) 4, cts := signed 32 (m.le 1 (b + 16) 4)
    subFirst := m.le 1 (b + 20) 4, subCount := m.le 1 (b + 24) 2, sync := bitOf (m.le 1 (b + 26) 1) 0 }

/-- Samples in the map. -/
def Mould.count (m : Mould) : Nat := (m.part 1).written / 32

/-- The samples from a decode time on, each with its own. -/
def timed (d : Nat) (l : List MapSample) : List (Nat × MapSample) :=
  match l with
  | [] => []
  | x :: r => (d, x) :: timed (d + x.dur) r

/-- All samples with their decode times (R257). -/
def Mould.samples (m : Mould) : List (Nat × MapSample) := timed m.baseDts ((List.range m.count).map m.sample)

/-- Clear and protected byte counts of subsample entry j. -/
def Mould.sub (m : Mould) (j : Nat) : Nat × Nat := (m.le 2 (8 * j) 2, m.le 2 (8 * j + 2) 4)

/-- The stored subsample entries of a sample. -/
def Mould.subs (m : Mould) (x : MapSample) : List (Nat × Nat) := (List.range x.subCount).map (fun i => m.sub (x.subFirst + i))

/-- The check of R259 that refuses the commit. -/
def Mould.check (m : Mould) : Option Nat :=
  let w (p : Nat) : Nat := (m.part p).written
  let l := (List.range m.count).map m.sample
  if m.le 0 0 2 ≠ 1 ∨ m.entryLen < 16 ∨ 4096 < m.entryLen
      ∨ !([ascii "vide", ascii "soun", ascii "text", ascii "subt"].contains m.handler)
      ∨ m.timescale = 0 ∨ m.trackId = 0 ∨ m.segDur = 0 ∨ 1024 < m.psLen ∨ w 0 < 128 + m.entryLen + m.psLen then some 1
  else if w 1 = 0 ∨ w 1 % 32 ≠ 0 ∨ 16777216 < w 1 / 32 then some 2
  else if !(m.sample 0).sync then some 3
  else if l.any (fun x => x.size == 0 || decide (16777216 < x.size) || decide (w 3 < x.off + x.size)) then some 4
  else if l.any (fun x => decide (w 2 / 8 < x.subFirst + x.subCount)
      || (x.subCount != 0 && (m.subs x).foldl (fun n p => n + p.1 + p.2) 0 != x.size)) then some 5
  else if ofBe (m.bytes 0 128 4) ≠ m.entryLen then some 6
  else if 2 < m.tsConv ∨ (m.tsConv = 2 ∧ m.psLen ≠ 2) then some 7
  else none

/-! ## Segments (R258) -/

/-- The first sync sample, from the start of a list, that p holds of. -/
def firstSync (l : List (Nat × MapSample)) (p : Nat → Bool) : Option Nat := l.findIdx? (fun x => x.2.sync && p x.1)

/-- The samples a Cast takes: the first, their number, and the segment number. -/
structure Chosen where
  first : Nat
  n : Nat
  seg : Nat
deriving DecidableEq, Repr

/-- Segment k; none when it has no samples. -/
def Mould.segment (m : Mould) (k : Nat) : Option Chosen :=
  let l := m.samples
  let start (k : Nat) : Option Nat := firstSync l (fun d => decide (m.baseDts + k * m.segDur ≤ d))
  match start k with
  | none => none
  | some a =>
    let b := (start (k + 1)).getD l.length
    if b ≤ a then none else some ⟨a, b - a, k⟩

/-- The samples of a time range [t0, t1), times from base_dts; none when t1 is not above t0. -/
def Mould.timeRange (m : Mould) (t0 t1 : Nat) : Option Chosen :=
  if t1 ≤ t0 then none
  else
    let l := m.samples
    let at0 := l.zipIdx.foldl (fun b p => if p.1.2.sync ∧ p.1.1 ≤ m.baseDts + t0 then p.2 else b) 0
    let b := (firstSync l (fun d => decide (m.baseDts + t1 ≤ d))).getD l.length
    if b ≤ at0 then none
    else
      let d := match l[at0]? with | some p => p.1 | none => 0
      some ⟨at0, b - at0, if m.segDur = 0 then 0 else (d - m.baseDts) / m.segDur⟩

/-- The samples of a choice. -/
def Mould.taken (m : Mould) (c : Chosen) : List (Nat × MapSample) := (m.samples.drop c.first).take c.n

/-! ## Boxes (R272 to R275) -/

/-- A box. -/
def box (t : String) (body : List Byte) : List Byte := beBytes 4 (8 + body.length) ++ ascii t ++ body

/-- A full box with a version and flags. -/
def fullBox (t : String) (version flags : Nat) (body : List Byte) : List Byte :=
  box t (beBytes 1 version ++ beBytes 3 flags ++ body)

/-- n zero bytes. -/
def zeros (n : Nat) : List Byte := List.replicate n 0

/-- The unity matrix. -/
def unityMatrix : List Byte :=
  beBytes 4 0x10000 ++ zeros 12 ++ beBytes 4 0x10000 ++ zeros 12 ++ beBytes 4 0x40000000

/-- A little-endian number of a profile record (R262). -/
def profLe (p : List Byte) (off n : Nat) : Nat := leAt p off n
/-- Container of a profile. -/
def profContainer (p : List Byte) : Nat := profLe p 1 1
/-- Protection of a profile. -/
def profProtection (p : List Byte) : Nat := profLe p 2 1
/-- A flag of a profile: 0 atomic, 1 sidx, 2 styp. -/
def profFlag (p : List Byte) (k : Nat) : Bool := bitOf (profLe p 3 1) k
/-- Recipe of a profile. -/
def profRecipe (p : List Byte) : Nat := profLe p 4 2
/-- Template of a profile. -/
def profTemplate (p : List Byte) : List Byte := slice p 64 (profLe p 6 2)

/-- The compatible brands of ftyp and styp: those of the profile up to an all-zero one, and 'cmfc' for CMAF (R275). -/
def profBrands (p : List Byte) : List (List Byte) :=
  let l := ((List.range 4).map (fun i => slice p (16 + 4 * i) 4)).takeWhile (fun b => b != zeros 4)
  if profContainer p = 1 ∧ !l.contains (ascii "cmfc") then l ++ [ascii "cmfc"] else l

/-- The body of ftyp and styp. -/
def brandBody (p : List Byte) : List Byte := slice p 8 4 ++ beBytes 4 (profLe p 12 4) ++ (profBrands p).flatten

/-- tenc (R276, R277). -/
def tencBox (m : Mould) (protection : Nat) (kid : List Byte) : List Byte :=
  if protection = 1 then fullBox "tenc" 0 0 (zeros 2 ++ [1, 16] ++ kid)
  else fullBox "tenc" 1 0 ([0, if m.isVide then 0x19 else 0, 1, 0] ++ kid ++ [16] ++ m.bytes 0 48 16)

/-- The sample entry as stsd holds it: as stored, or wrapped when protected (R273). -/
def sampleEntry (m : Mould) (protection : Nat) (kid : List Byte) : List Byte :=
  let e := m.bytes 0 128 m.entryLen
  if (protection = 1 ∨ protection = 2) ∧ m.isAv then
    let scheme := if protection = 1 then "cenc" else "cbcs"
    let sinf := box "sinf" (box "frma" (slice e 4 4) ++ fullBox "schm" 0 0 (ascii scheme ++ beBytes 4 0x10000)
      ++ box "schi" (tencBox m protection kid))
    beBytes 4 (ofBe (e.take 4) + sinf.length) ++ ascii (if m.isVide then "encv" else "enca") ++ e.drop 8 ++ sinf
  else e

/-- An initialisation segment (R272). -/
def initSegment (m : Mould) (p : List Byte) (kid : List Byte) : List Byte :=
  let soun := m.isSoun
  let volume := beBytes 2 (if soun then 0x100 else 0)
  let mvhd := fullBox "mvhd" 0 0 (zeros 8 ++ beBytes 4 m.timescale ++ zeros 4 ++ beBytes 4 0x10000 ++ beBytes 2 0x100 ++ zeros 10
    ++ unityMatrix ++ zeros 24 ++ beBytes 4 (m.trackId + 1))
  let dim (off : Nat) : List Byte := beBytes 4 (if m.isVide then m.le 0 off 2 * 65536 else 0)
  let tkhd := fullBox "tkhd" 0 3 (zeros 8 ++ beBytes 4 m.trackId ++ zeros 4 ++ zeros 4 ++ zeros 8 ++ zeros 4 ++ volume ++ zeros 2
    ++ unityMatrix ++ dim 28 ++ dim 30)
  let mdhd := fullBox "mdhd" 0 0 (zeros 8 ++ beBytes 4 m.timescale ++ zeros 4 ++ beBytes 2 (m.le 0 32 2) ++ zeros 2)
  let hdlr := fullBox "hdlr" 0 0 (zeros 4 ++ m.handler ++ zeros 12 ++ [0])
  let head := if m.isVide then fullBox "vmhd" 0 1 (zeros 8)
    else if soun then fullBox "smhd" 0 0 (zeros 4)
    else if m.handler == ascii "text" then fullBox "nmhd" 0 0 [] else fullBox "sthd" 0 0 []
  let dinf := box "dinf" (fullBox "dref" 0 0 (beBytes 4 1 ++ fullBox "url " 0 1 []))
  let stbl := box "stbl" (fullBox "stsd" 0 0 (beBytes 4 1 ++ sampleEntry m (profProtection p) kid)
    ++ fullBox "stts" 0 0 (zeros 4) ++ fullBox "stsc" 0 0 (zeros 4) ++ fullBox "stsz" 0 0 (zeros 8) ++ fullBox "stco" 0 0 (zeros 4))
  let trak := box "trak" (tkhd ++ box "mdia" (mdhd ++ hdlr ++ box "minf" (head ++ dinf ++ stbl)))
  let mvex := box "mvex" (fullBox "trex" 0 0 (beBytes 4 m.trackId ++ beBytes 4 1 ++ zeros 12))
  box "ftyp" (brandBody p) ++ box "moov" (mvhd ++ trak ++ mvex ++ profTemplate p)

/-! ## Protection (R276, R277) -/

/-- The IV of sample n of segment k under 'cenc' (R276). -/
def cencIv (m : Mould) (k n : Nat) : List Byte :=
  m.bytes 0 40 8 ++ beBytes 3 (k % 2 ^ 24) ++ beBytes 2 (n % 65536) ++ zeros 3

/-- A 'cenc' subsample entry as written: the remainder of the protected count moved to the clear count, and a clear count above 65,535
split (R276). -/
def cencEntry (p : Nat × Nat) : List (Nat × Nat) :=
  let c := p.1 + p.2 % 16
  let q := p.2 - p.2 % 16
  if 65535 < c then [(65535, 0), (c - 65535, q)] else [(c, q)]

/-- The subsample entries written for a sample: 'cenc' video adjusted, with one range for a sample that has none; 'cbcs' video as
stored; sound none. -/
def writtenSubs (m : Mould) (protection : Nat) (x : MapSample) : List (Nat × Nat) :=
  if !m.isVide then []
  else if protection = 1 then
    ((if x.subCount = 0 then [(0, x.size)] else m.subs x).map cencEntry).flatten
  else m.subs x

/-- Bytes with the ranges of a list of entries passed through a keystream that runs on from one range to the next. -/
def ctrRanges (key iv : List Byte) (ranges : List (Nat × Nat)) (used : Nat) (l : List Byte) : List Byte :=
  match ranges with
  | [] => l
  | (c, p) :: r =>
    let body := (l.drop c).take p
    l.take c ++ xorList body (ctrStream key iv used body.length) ++ ctrRanges key iv r (used + p) (l.drop (c + p))

/-- Whole blocks of a range encrypted one in ten from the first, as one chain; the rest clear (R277). -/
def pattern19 (key : List Byte) (blocks : List (List Byte)) (i : Nat) (chain : List Byte) : List Byte :=
  match blocks with
  | [] => []
  | b :: r =>
    if i % 10 = 0 ∧ b.length = 16 then
      let c := aesEncrypt key (xorList b chain)
      c ++ pattern19 key r (i + 1) c
    else b ++ pattern19 key r (i + 1) chain

/-- The blocks of 16 bytes of a string, with what is left over last. -/
def blocksOf (l : List Byte) : List (List Byte) :=
  groupsOf 16 (l.length / 16) l ++ (if l.length % 16 = 0 then [] else [l.drop (l.length / 16 * 16)])

/-- Bytes with the protected ranges of a list of entries under the 1:9 pattern, each its own chain from the constant IV. -/
def cbcsRanges (key iv : List Byte) (ranges : List (Nat × Nat)) (l : List Byte) : List Byte :=
  match ranges with
  | [] => l
  | (c, p) :: r =>
    l.take c ++ pattern19 key (blocksOf ((l.drop c).take p)) 0 iv ++ cbcsRanges key iv r (l.drop (c + p))

/-- A sample as mdat holds it: sample n of segment k. -/
def protectSample (m : Mould) (protection : Nat) (key : List Byte) (k n : Nat) (x : MapSample) : List Byte :=
  let d := m.bytes 3 x.off x.size
  if !m.isAv then d
  else if protection = 1 then
    ctrRanges key (cencIv m k n) (if m.isVide then writtenSubs m 1 x else [(0, x.size)]) 0 d
  else if protection = 2 then
    let iv := m.bytes 0 48 16
    if m.isVide then cbcsRanges key iv (if x.subCount = 0 then [(0, x.size)] else m.subs x) d
    else (cbcBlocks key (groupsOf 16 (d.length / 16) d) iv).1 ++ d.drop (d.length / 16 * 16)
  else d

/-! ## Media segments (R274) -/

/-- What a Cast outputs: the bytes before the first sample, then one run of bytes per sample. -/
structure Output where
  head : List Byte
  runs : List (List Byte)
deriving DecidableEq, Repr

/-- All bytes of an output. -/
def Output.bytes (o : Output) : List Byte := o.head ++ o.runs.flatten

/-- A senc sample entry. -/
def sencEntry (m : Mould) (protection : Nat) (withSubs : Bool) (k n : Nat) (x : MapSample) : List Byte :=
  let subs := writtenSubs m protection x
  (if protection = 1 then cencIv m k n else [])
    ++ (if withSubs then beBytes 2 subs.length ++ (subs.map (fun p => beBytes 2 p.1 ++ beBytes 4 p.2)).flatten else [])

/-- Sample flags of R274. -/
def sampleFlags (x : MapSample) : Nat := if x.sync then 0x02000000 else 0x01010000

/-- The media segment of a choice (R274). -/
def mediaSegment (m : Mould) (p : List Byte) (key : List Byte) (c : Chosen) : Output :=
  let l := m.taken c
  let prot := if m.isAv then profProtection p else 0
  let xs := (l.map (fun q => q.2)).zipIdx
  let runs := xs.map (fun q => protectSample m prot key c.seg q.2 q.1)
  let payload := runs.foldl (fun n r => n + r.length) 0
  let styp := if profFlag p 2 ∨ profContainer p = 1 then box "styp" (brandBody p) else []
  let mfhd := fullBox "mfhd" 0 0 (beBytes 4 (c.seg + 1))
  let tfhd := fullBox "tfhd" 0 0x020000 (beBytes 4 m.trackId)
  let d0 := match l.head? with | some q => q.1 | none => 0
  let tfdt := fullBox "tfdt" 1 0 (beBytes 8 d0)
  let withSubs := xs.any (fun q => (writtenSubs m prot q.1).length != 0)
  let entries := xs.map (fun q => sencEntry m prot withSubs c.seg q.2 q.1)
  let sizes := entries.map (fun e => e.length)
  let common := match sizes with | [] => 0 | z :: r => if z ≠ 0 ∧ r.all (· == z) then z else 0
  let saiz := fullBox "saiz" 0 0 (beBytes 1 common ++ beBytes 4 sizes.length
    ++ (if common = 0 then (sizes.map (fun z => beBytes 1 z)).flatten else []))
  let before := 8 + mfhd.length + 8 + tfhd.length + tfdt.length + saiz.length + 20 + 16
  let saio := fullBox "saio" 0 0 (beBytes 4 1 ++ beBytes 4 before)
  let senc := fullBox "senc" 0 (if withSubs then 2 else 0) (beBytes 4 sizes.length ++ entries.flatten)
  let aux := if prot = 1 ∨ prot = 2 then saiz ++ saio ++ senc else []
  let cts := xs.any (fun q => q.1.cts != 0)
  let per (x : MapSample) : List Byte := beBytes 4 x.dur ++ beBytes 4 x.size ++ beBytes 4 (sampleFlags x)
    ++ (if cts then beBytes 4 (unsigned 32 x.cts) else [])
  let trunLen := 20 + (if cts then 16 else 12) * xs.length
  let moofLen := 8 + mfhd.length + 8 + tfhd.length + tfdt.length + aux.length + trunLen
  let trun := fullBox "trun" (if cts then 1 else 0) (if cts then 0xF01 else 0x701)
    (beBytes 4 xs.length ++ beBytes 4 (moofLen + 8) ++ (xs.map (fun q => per q.1)).flatten)
  let moof := box "moof" (mfhd ++ box "traf" (tfhd ++ tfdt ++ aux ++ trun))
  let first : Int := match l with
    | [] => 0
    | q :: r => r.foldl (fun (b : Int) z => min b ((z.1 : Int) + z.2.cts)) ((q.1 : Int) + q.2.cts)
  let dur := l.foldl (fun n q => n + q.2.dur) 0
  let sidx := if profFlag p 1 then
      fullBox "sidx" 1 0 (beBytes 4 m.trackId ++ beBytes 4 m.timescale ++ beBytes 8 (unsigned 64 first) ++ zeros 8 ++ zeros 2
        ++ beBytes 2 1 ++ beBytes 4 (moof.length + 8 + payload) ++ beBytes 4 dur ++ beBytes 4 0x90000000)
    else []
  { head := styp ++ sidx ++ moof ++ beBytes 4 (8 + payload) ++ ascii "mdat", runs := runs }

/-- A sample of a media segment whose senc entry exceeds 255 bytes (check 4 of R270). -/
def sencTooLong (m : Mould) (p : List Byte) (c : Chosen) : Bool :=
  let prot := profProtection p
  (prot == 1 || prot == 2) && m.isAv && (m.taken c).any (fun q =>
    decide ((if prot = 1 then 39 else 42) < (writtenSubs m prot q.2).length))

/-! ## MPEG-2 TS (R280 to R282) -/

/-- A section's packet: sync, PID, pointer field, the section with its CRC, and 0xFF to the end. -/
def sectionPacket (pid : Nat) (sect : List Byte) : List Byte :=
  let l := [0x47] ++ beBytes 2 (0x4000 + pid) ++ [0x10, 0x00] ++ sect ++ beBytes 4 (crcMpeg sect).toNat
  l ++ List.replicate (188 - l.length) 0xFF

/-- The PAT. -/
def patPacket (tsId pmtPid : Nat) : List Byte :=
  sectionPacket 0 ([0x00] ++ beBytes 2 (0xB000 + 13) ++ beBytes 2 tsId ++ [0xC1, 0, 0] ++ beBytes 2 1 ++ beBytes 2 (0xE000 + pmtPid))

/-- The PMT. -/
def pmtPacket (pmtPid esPid streamType : Nat) : List Byte :=
  sectionPacket pmtPid ([0x02] ++ beBytes 2 (0xB000 + 18) ++ beBytes 2 1 ++ [0xC1, 0, 0] ++ beBytes 2 (0xE000 + esPid)
    ++ beBytes 2 0xF000 ++ beBytes 1 streamType ++ beBytes 2 (0xE000 + esPid) ++ beBytes 2 0xF000)

/-- A 33 bit time stamp in its five bytes, with its four-bit prefix. -/
def stampBytes (tag v : Nat) : List Byte :=
  beBytes 1 (tag * 16 + v / 2 ^ 30 % 8 * 2 + 1) ++ beBytes 2 (v / 2 ^ 15 % 2 ^ 15 * 2 + 1) ++ beBytes 2 (v % 2 ^ 15 * 2 + 1)

/-- A time in ticks as a 33 bit value on the 90 kHz clock (R280). -/
def stamp90 (t : Int) (timescale offset : Nat) : Nat :=
  (((t * 90000) / (max timescale 1 : Nat) + offset) % (2 ^ 33 : Int)).toNat

/-- NAL units with four-byte lengths as units with start codes; none when the lengths do not fit. -/
def startCodes (l : List Byte) (fuel : Nat) : Option (List Byte) :=
  match fuel with
  | 0 => none
  | k + 1 =>
    if l.isEmpty then some []
    else if l.length < 4 then none
    else
      let n := ofBe (l.take 4)
      if l.length < 4 + n then none
      else (startCodes (l.drop (4 + n)) k).map (fun t => [0, 0, 0, 1] ++ (l.drop 4).take n ++ t)

/-- The ADTS header of an AAC frame, from the two bytes of its AudioSpecificConfig (R281). -/
def adtsHeader (asc : Nat) (size : Nat) : List Byte :=
  let profile := (asc / 2048 + 31) % 32 % 4
  let freq := asc / 128 % 16
  let chan := asc / 8 % 8
  let len := (size + 7) % 8192
  [0xFF, 0xF1] ++ beBytes 1 (profile * 64 + freq * 4 + chan / 4) ++ beBytes 1 (chan % 4 * 64 + len / 2048)
    ++ beBytes 1 (len / 8 % 256) ++ beBytes 1 (len % 8 * 32 + 0x1F) ++ [0xFC]

/-- A sample converted for its PES packet (R281). -/
def tsSample (m : Mould) (x : MapSample) : List Byte :=
  let d := m.bytes 3 x.off x.size
  if m.tsConv = 1 then
    [0, 0, 0, 1, 9, 0xF0] ++ (if x.sync then m.psBytes else []) ++ (startCodes d (d.length + 1)).getD (Config.misread d)
  else if m.tsConv = 2 then adtsHeader (ofBe m.psBytes) x.size ++ d
  else d

/-- An adaptation field of n bytes in all with what it carries first, filled with stuffing. -/
def adaptation (n : Nat) (flags : Nat) (body : List Byte) : List Byte :=
  if n = 0 then []
  else if n = 1 then [0]
  else beBytes 1 (n - 1) ++ beBytes 1 flags ++ body ++ List.replicate (n - 2 - body.length) 0xFF

/-- A packet of a PES packet: start flag, PID, continuity, adaptation field and payload. -/
def pesTsPacket (start : Bool) (pid cc : Nat) (af payload : List Byte) : List Byte :=
  [0x47] ++ beBytes 2 ((if start then 0x4000 else 0) + pid) ++ beBytes 1 ((if af.isEmpty then 0x10 else 0x30) + cc % 16) ++ af ++ payload

/-- The packets after the first of a PES packet. -/
def pesRest (pid : Nat) (fuel cc : Nat) (l : List Byte) : List Byte × Nat :=
  match fuel with
  | 0 => ([], cc)
  | k + 1 =>
    if l.isEmpty then ([], cc)
    else
      let body := l.take 184
      let t := pesRest pid k (cc + 1) (l.drop 184)
      (pesTsPacket false pid cc (adaptation (184 - body.length) 0 []) body ++ t.1, t.2)

/-- The packets of one sample, and the continuity counter after them (R280). -/
def pesPackets (m : Mould) (p : List Byte) (cc : Nat) (d : Nat) (x : MapSample) : List Byte × Nat :=
  let offset := profLe p 38 4
  let pts := stamp90 ((d : Int) + x.cts) m.timescale offset
  let dts := stamp90 d m.timescale offset
  let both := decide (pts ≠ dts)
  let head := if both then stampBytes 3 pts ++ stampBytes 1 dts else stampBytes 2 pts
  let data := tsSample m x
  let n := 3 + head.length + data.length
  let id := if m.isVide then 0xE0 else if m.isSoun then 0xC0 else 0xBD
  let pes := [0, 0, 1] ++ beBytes 1 id ++ beBytes 2 (if n ≤ 65535 then n else 0)
    ++ [0x80, if both then 0xC0 else 0x80] ++ beBytes 1 head.length ++ head ++ data
  let pcr := (dts + 2 ^ 33 - profLe p 42 4 % 2 ^ 33) % 2 ^ 33
  let pcrBytes := beBytes 6 (pcr * 2 ^ 15 + 0x7E00)
  let body := pes.take 176
  let pid := profLe p 34 2
  let flags := if x.sync then 0x50 else 0x10
  let t := pesRest pid (pes.length + 1) (cc + 1) (pes.drop 176)
  (pesTsPacket true pid cc (adaptation (184 - body.length) flags pcrBytes) body ++ t.1, t.2)

/-- The packets of all samples, one run each. -/
def pesRuns (m : Mould) (p : List Byte) (cc : Nat) (l : List (Nat × MapSample)) : List (List Byte) :=
  match l with
  | [] => []
  | (d, x) :: r => let t := pesPackets m p cc d x; t.1 :: pesRuns m p t.2 r

/-- A TS segment before any encryption (R280). -/
def tsSegment (m : Mould) (p : List Byte) (c : Chosen) : Output :=
  { head := patPacket (profLe p 36 2) (profLe p 32 2) ++ pmtPacket (profLe p 32 2) (profLe p 34 2) (m.le 0 34 1)
    runs := pesRuns m p 0 (m.taken c) }

/-- PKCS#7 padding of 1 to 16 bytes for a length. -/
def pkcs7 (n : Nat) : List Byte := List.replicate (16 - n % 16) (BitVec.ofNat 8 (16 - n % 16))

/-- A whole segment encrypted as one CBC chain (R282). -/
def encryptWhole (key iv l : List Byte) : List Byte :=
  let t := l ++ pkcs7 l.length
  (cbcBlocks key (groupsOf 16 (t.length / 16) t) iv).1

/-! ## Pours (R283) -/

/-- Pours of the runs that follow: each as many whole samples as keep it at most 1 MiB, a larger one on its own. first and len are those
of the open pour. -/
def poursFrom (first len : Nat) (runs : List Nat) : List Pour :=
  match runs with
  | [] => [{ first := first, len := len }]
  | r :: t =>
    if len = 0 ∨ len + r ≤ 1048576 then poursFrom first (len + r) t
    else { first := first, len := len } :: poursFrom (first + len) r t

/-- The pours of an output from the bytes before its first sample and the length of each sample's run (R283). -/
def poursOf (head : Nat) (runs : List Nat) : List Pour := poursFrom 0 head runs

end Sys2Proof.Machine
end

