-- ==== Sys2Proof/Machine/Recipe.lean ====
section
/-! DEFINITION. Recipes (10_recipes_and_mover.md): the image and its load checks, parameters and value sources, and what one
instruction does to a channel. -/

namespace Sys2Proof.Machine

open Sys2Proof

/-! ## The image (R295) -/

/-- Instructions of an image. -/
def imgInstrs (im : List Byte) : Nat := leAt im 4 2
/-- Literal pool bytes of an image. -/
def imgLit (im : List Byte) : Nat := leAt im 6 2
/-- Word j of instruction i. -/
def imgWord (im : List Byte) (i j : Nat) : Nat := leAt im (320 + imgLit im + 16 * i + 4 * j) 4
/-- Bits hi to lo of a number. -/
def bitsOf (w hi lo : Nat) : Nat := w / 2 ^ lo % 2 ^ (hi + 1 - lo)
/-- A value source of R298 that is reserved. -/
def vsrcReserved (v : Nat) : Bool := decide (0x1F ≤ v)

/-- Check 2 of R312: reserved header bytes and window codes. -/
def imgCheck2 (im : List Byte) : Bool :=
  leAt im 8 8 == 0 && leAt im 272 48 == 0
    && (List.range 8).all (fun k => decide (leAt im (144 + 16 * k) 4 ≤ 6) && leAt im (148 + 16 * k) 4 == 0)

/-- Check 3 of R312 on one instruction: reserved codes and bits. A value source that is not used is not looked at. -/
def instrCheck3 (w0 w1 w2 w3 : Nat) : Bool :=
  match bitsOf w0 31 28 with
  | 1 =>
    let src := bitsOf w0 27 25
    let used := src == 2 || bitsOf w0 13 13 == 1
    decide (src ≤ 4) && decide (bitsOf w0 19 18 ≤ 2) && !(used && vsrcReserved (bitsOf w0 12 7)) && bitsOf w0 3 0 == 0 && w3 == 0
  | 2 =>
    !(bitsOf w0 27 27 == 1 && vsrcReserved (bitsOf w0 26 21)) && bitsOf w0 13 12 == 0 && bitsOf w1 31 25 == 0 && w3 == 0
  | 3 =>
    let kind := bitsOf w0 27 26
    decide (kind ≤ 2) && bitsOf w0 23 0 == 0 && w3 == 0 && (kind == 2 || w2 == 0) && (kind != 1 || decide (w1 < 16))
  | 4 => bitsOf w0 24 0 == 0 && decide (w1 < 16) && w2 == 0 && w3 == 0
  | _ => false

/-- Check 4 of R312 on one instruction. -/
def instrCheck4 (lit w0 w1 w2 : Nat) : Bool :=
  if bitsOf w0 31 28 = 1 then
    let src := bitsOf w0 27 25
    let lreg := bitsOf w0 13 13 == 1
    !(!lreg && src != 2 && (w1 == 0 || decide (16777216 < w1)))
      && !(src == 2 && (lreg || bitsOf w0 21 20 != 0))
      && !(src == 3 && !lreg && decide (lit < w2 + w1))
  else true

/-- Check 5 of R312: loops from instruction i on, with the ends of the bodies that enclose it, innermost first. -/
def loopsCheck (im : List Byte) (n i fuel : Nat) (ends : List Nat) : Bool :=
  match fuel with
  | 0 => true
  | k + 1 =>
    if n ≤ i then true
    else
      let e := ends.dropWhile (fun x => decide (x ≤ i))
      let w0 := imgWord im i 0
      if bitsOf w0 31 28 = 2 then
        let body := bitsOf w0 11 0
        let stop := i + 1 + body
        let outer := match e with | x :: _ => x | [] => n
        if (bitsOf w0 27 27 = 0 ∧ 16777216 < bitsOf (imgWord im i 1) 24 0) ∨ body = 0 ∨ outer < stop ∨ 4 ≤ e.length then false
        else loopsCheck im n (i + 1) k (stop :: e)
      else loopsCheck im n (i + 1) k e

/-- KiB of a length, rounded up. -/
def kibUp (n : Nat) : Nat := (n + 1023) / 1024

/-- The recipe store in use, in bytes: the table's recipes and those kept for running Casts. -/
def State.storeUsed (s : State) : Nat := (s.cast.recipes ++ s.cast.kept).foldl (fun n r => n + r.image.length) 0

/-- Pinned bytes. -/
def State.pinUsed (s : State) : Nat := (s.cast.recipes.filter (fun r => r.pin)).foldl (fun n r => n + r.image.length) 0

/-- The recipe of an ID. -/
def State.recipe (s : State) (id : Nat) : Option Recipe := s.cast.recipes.find? (fun r => r.id == id)

/-- A running Cast was dispatched with a recipe. -/
def State.recipeBusy (s : State) (id : Nat) : Bool :=
  s.cast.jobs.any (fun j => j.dispatched && (match j.recipe with | some r => r.id == id | none => false))

/-- A profile of the active table names a recipe. -/
def State.recipeNamed (s : State) (id : Nat) : Bool := s.cast.profiles.any (fun p => profRecipe p.2 == id)

/-- The checks of R312 on an image: the first that fails. -/
def State.recipeCheck (s : State) (pin : Bool) (im : List Byte) : Option Nat :=
  let n := imgInstrs im
  let lit := imgLit im
  let id := leAt im 2 2
  let w (i j : Nat) : Nat := imgWord im i j
  if leAt im 0 2 ≠ 1 ∨ id = 0 ∨ 255 < id ∨ n = 0 ∨ 4096 < n ∨ 16384 < lit ∨ lit % 16 ≠ 0 ∨ im.length ≠ 320 + lit + 16 * n then some 1
  else if !imgCheck2 im then some 2
  else if (List.range n).any (fun i => !instrCheck3 (w i 0) (w i 1) (w i 2) (w i 3)) then some 3
  else if (List.range n).any (fun i => !instrCheck4 lit (w i 0) (w i 1) (w i 2)) then some 4
  else if !loopsCheck im n 0 n [] then some 5
  else
    let old := s.recipe id
    let freed := match old with | some r => if s.recipeBusy id then 0 else r.image.length | none => 0
    if 8388608 < s.storeUsed - freed + im.length then some 6
    else
      let unpinned := match old with | some r => if r.pin then r.image.length else 0 | none => 0
      if pin ∧ 1024 * s.fld Adr.MVR_PIN Fld.MVR_PIN_pin_cap_kib < s.pinUsed - unpinned + im.length then some 7
      else if (match old with | some r => r.pin && !pin | none => false) && s.recipeNamed id then some 8
      else none

/-! ## A Cast's parameters (R291, R292, R298) -/

/-- What a program of a Cast reads: its mould, the samples it takes (none for an initialisation segment), the segment number, the
profile, recipe image, key, and IV request under protection 3. -/
structure CastView where
  m : Mould
  samples : Option (List (Nat × MapSample))
  seg : Nat
  profile : List Byte
  image : List Byte
  key : List Byte
deriving DecidableEq, Repr

/-- The Cast's samples. -/
def CastView.list (v : CastView) : List (Nat × MapSample) := v.samples.getD []

/-- Total sample bytes. -/
def CastView.b (v : CastView) : Nat := v.list.foldl (fun n q => n + q.2.size) 0
/-- Total subsample entries. -/
def CastView.subs (v : CastView) : Nat := v.list.foldl (fun n q => n + q.2.subCount) 0

/-- Derived parameter slot k = 0 to 7 in 64 bits (R291). -/
def CastView.derived (v : CastView) (k : Nat) : Nat :=
  let c (j : Nat) : Nat := leAt v.image (16 + 16 * k + 4 * j) 4
  (c 0 + c 1 * v.list.length + c 2 * v.b + c 3 * v.subs) % 2 ^ 64

/-- Parameter slot i in 32 bits (R291). -/
def CastView.param (v : CastView) (i : Nat) : Nat :=
  let d := match v.list.head? with | some q => q.1 | none => 0
  match i with
  | 0 => v.list.length % 2 ^ 32
  | 1 => v.b % 2 ^ 32
  | 2 => v.subs % 2 ^ 32
  | 3 => if v.samples.isNone then 0 else (v.seg + 1) % 2 ^ 32
  | 4 => d % 2 ^ 32
  | 5 => d / 2 ^ 32 % 2 ^ 32
  | 6 => v.m.trackId
  | 7 => v.list.foldl (fun n q => n + q.2.dur) 0 % 2 ^ 32
  | _ => v.derived (i - 8) % 2 ^ 32

/-- The auxiliary information size S7 of a sample. -/
def CastView.auxSize (v : CastView) (x : MapSample) : Nat :=
  let f := v.list.any (fun q => q.2.subCount != 0)
  match profProtection v.profile with
  | 1 => if f then 18 + 6 * x.subCount else 16
  | 2 => if f then 2 + 6 * x.subCount else 0
  | _ => 0

/-- The present sample of a run; none when SN is not below P0. -/
def CastView.present (v : CastView) (r : Run) : Option MapSample := (v.list[r.sn]?).map (fun q => q.2)

/-- A sample value S0 to S7. -/
def CastView.sval (v : CastView) (x : MapSample) (k : Nat) : Nat :=
  match k with
  | 0 => x.size
  | 1 => x.dur
  | 2 => unsigned 32 x.cts
  | 3 => sampleFlags x
  | 4 => x.subCount
  | 5 => x.off % 2 ^ 32
  | 6 => x.off / 2 ^ 32 % 2 ^ 32
  | _ => v.auxSize x

/-- A value source, with wide for a width of 8 (R298); a recipe fault cause when it may not be used (R311). -/
def CastView.value (v : CastView) (r : Run) (src : Nat) (wide : Bool) : Except Nat Nat :=
  if src < 16 then
    .ok (if wide ∧ src % 2 = 0 then v.param src + 2 ^ 32 * v.param (src + 1) else v.param src)
  else if src = 0x18 then .ok r.oc
  else if src = 0x19 then .ok r.sn
  else if src = 0x1A then .ok r.sb
  else
    match v.present r with
    | none => .error 4
    | some x =>
      if src < 0x18 then
        let k := src - 16
        .ok (if wide ∧ k = 5 then v.sval x 5 + 2 ^ 32 * v.sval x 6 else v.sval x k)
      else if src = 0x1D then .ok (ofBe ((cencIv v.m v.seg r.sn).take 8))
      else if src = 0x1E then .ok (ofBe ((cencIv v.m v.seg r.sn).drop 8))
      else if x.subCount ≤ r.sb then .error 4
      else
        let e := v.m.sub (x.subFirst + r.sb)
        .ok (if src = 0x1B then e.1 else e.2)

/-! ## Windows (R293, R294) -/

/-- The length of a window. -/
def CastView.winLen (v : CastView) (w : Nat) : Nat :=
  match w with
  | 0 => (v.m.part 0).written
  | 1 => (v.m.part 1).written
  | 2 => (v.m.part 2).written
  | 3 => (v.m.part 3).written
  | 4 => profLe v.profile 6 2
  | 5 => imgLit v.image
  | _ => 65536

/-- One byte of a window; an offset beyond it is taken modulo its length (R294). -/
def CastView.winByte (v : CastView) (r : Run) (w off : Nat) : Byte :=
  let n := v.winLen w
  if n = 0 then 0
  else
    let o := off % n
    if w ≤ 3 then cellGet (v.m.part w).cells o
    else if w = 4 then v.profile.getD (64 + o) 0
    else if w = 5 then v.image.getD (320 + o) 0
    else cellGet r.scratch o

/-- n bytes of a window. -/
def CastView.winBytes (v : CastView) (r : Run) (w off n : Nat) : List Byte :=
  (List.range n).map (fun i => v.winByte r w (off + i))

/-- Byte reversal within groups of g bytes (R296). -/
def swapGroups (g : Nat) (l : List Byte) : List Byte :=
  if g ≤ 1 then l
  else ((groupsOf g (l.length / g) l).map List.reverse).flatten
    ++ (if l.length % g = 0 then [] else Config.partialSwap (l.drop (l.length / g * g)))

/-! ## One instruction on a channel (R296 to R303) -/

/-- The end of an iteration of the innermost loop when the next instruction lies past its body: the advances in order, then the next
iteration or the code after the loop (R299). ocs records OC at each SN advance. -/
def loopEnd (fuel : Nat) (r : Run) (ocs : List Nat) : Run × List Nat :=
  match fuel with
  | 0 => (r, ocs)
  | k + 1 =>
    match r.loops.getLast? with
    | none => (r, ocs)
    | some l =>
      if r.pc ≠ l.start + l.body then (r, ocs)
      else
        let r1 := if l.advSb then { r with sb := (r.sb + 1) % 65536 } else r
        let r2 := if l.advSn then { r1 with sn := (r1.sn + 1) % 2 ^ 24, sb := 0, sc := 0, aes := { r1.aes with crossed := true } } else r1
        let o2 := if l.advSn then ocs ++ [r.oc] else ocs
        let r3 := match l.advA with
          | some (a, step) => { r2 with aregs := r2.aregs.modify a (fun p => (p.1, unsigned 64 ((p.2 : Int) + step))) }
          | none => r2
        if 1 < l.left then
          ({ r3 with pc := l.start, loops := r3.loops.dropLast ++ [{ l with left := l.left - 1 }] }, o2)
        else loopEnd k { r3 with loops := r3.loops.dropLast } o2

/-- The channel goes to its next instruction. -/
def advance (r : Run) (ocs : List Nat) : Run × List Nat := loopEnd 5 { r with pc := r.pc + 1 } ocs

/-- A loop instruction (R299). -/
def CastView.stepLoop (v : CastView) (r : Run) (w0 w1 w2 : Nat) (ocs : List Nat) : Except Nat (Run × List Nat) :=
  let count : Except Nat Nat :=
    if bitsOf w0 27 27 = 1 then v.value r (bitsOf w0 26 21) false else .ok (bitsOf w1 24 0)
  match count with
  | .error c => .error c
  | .ok n =>
    let body := bitsOf w0 11 0
    if 16777216 < n then .error 3
    else if n = 0 then .ok (loopEnd 5 { r with pc := r.pc + 1 + body } ocs)
    else
      let r1 := if bitsOf w0 14 14 = 1 then { r with sn := 0, sb := 0, sc := 0 } else r
      let l : LoopState :=
        { start := r.pc + 1, body := body, left := n, advSn := bitsOf w0 20 20 == 1, advSb := bitsOf w0 15 15 == 1
          advA := if bitsOf w0 19 19 = 1 then some (bitsOf w0 18 16, signed 32 w2) else none }
      .ok ({ r1 with pc := r.pc + 1, loops := r1.loops ++ [l] }, ocs)

/-- The bytes an AES unit gives out of a list of placed bytes under 'cbcs' with blocks of 16, one in period encrypted (period 1:
every block), and its state after them. -/
def cbcFeed (key : List Byte) (period : Nat) (fuel : Nat) (a : AesState) (l : List (Option Nat × Byte)) (out : List (Option Nat × Byte)) :
    AesState × List (Option Nat × Byte) :=
  match fuel with
  | 0 => (a, out)
  | k + 1 =>
    let g := a.gather ++ l.take (16 - a.gather.length)
    let rest := l.drop (16 - a.gather.length)
    if g.length < 16 then ({ a with gather := g }, out)
    else
      let clear := g.map (fun p => p.2)
      if a.used % period = 0 then
        let c := aesEncrypt key (xorList clear a.chain)
        cbcFeed key period k { a with gather := [], chain := c, used := a.used + 1 } rest (out ++ (g.map (fun p => p.1)).zip c)
      else cbcFeed key period k { a with gather := [], used := a.used + 1 } rest (out ++ g)

/-- Placed bytes reach their places: the output buffer, or scratch. -/
def Run.place (r : Run) (l : List (Option Nat × Byte)) : Run :=
  { r with
    buf := r.buf ++ l.filterMap (fun p => if p.1.isNone then some p.2 else none)
    scratch := l.foldl (fun m p => match p.1 with | some o => cellPut m o p.2 | none => m) r.scratch }

/-- Bytes gathered toward a block are written clear (R302). -/
def Run.flushGather (r : Run) : Run := { r.place r.aes.gather with aes := { r.aes with gather := [] } }

/-- Moved bytes pass through the AES unit (R302): aes 0 clear, 1 continue, 2 restart. -/
def CastView.cipher (v : CastView) (r : Run) (aes : Nat) (l : List (Option Nat × Byte)) : Run :=
  match profProtection v.profile with
  | 1 =>
    if aes = 0 then r.place l
    else
      let a : AesState := if aes = 2 then { started := true, chain := cencIv v.m v.seg r.sn } else r.aes
      let c := xorList (l.map (fun p => p.2)) (ctrStream v.key a.chain a.used l.length)
      { r.place ((l.map (fun p => p.1)).zip c) with aes := { a with used := a.used + l.length } }
  | 2 =>
    if aes = 0 then r.flushGather.place l
    else
      let r1 := if aes = 2 then { r.flushGather with aes := { started := true, chain := v.m.bytes 0 48 16 } } else r
      let t := cbcFeed v.key (if v.m.isVide then 10 else 1) (l.length + 1) r1.aes l []
      { r1.place t.2 with aes := t.1 }
  | 3 =>
    let outs := l.filter (fun p => p.1.isNone)
    let t := cbcFeed v.key 1 (l.length + 1) r.aes outs []
    { (r.place (l.filter (fun p => p.1.isSome))).place t.2 with aes := t.1 }
  | _ => r.place l

/-- OC has reached count: what was gathered is written, with the padding under protection 3 (R302, R303). -/
def CastView.endRun (v : CastView) (r : Run) : Run :=
  if profProtection v.profile = 3 then
    let t := cbcFeed v.key 1 3 r.aes ((pkcs7 r.oc).map (fun b => (none, b))) []
    { r.place t.2 with aes := t.1 }
  else r.flushGather

/-- The run belongs to one of several pours (R283). -/
def CastView.poured (v : CastView) (r : Run) : Bool := r.first != 0 || r.count != v.derived 0 % 2 ^ 32

/-- The AES unit before a move: one that continues across an SN advance in a pour is unpredictable (R304). -/
def CastView.strayed (v : CastView) (r : Run) (aes : Nat) : Run :=
  if aes = 1 ∧ r.aes.crossed ∧ v.poured r then
    { r with aes := { r.aes with chain := Config.strayChain r.aes.chain r.oc, crossed := false } }
  else r

/-- A move instruction (R296, R297, R302, R303); dry moves no data (R304). -/
def CastView.stepMove (v : CastView) (r : Run) (dry : Bool) (w0 w1 w2 : Nat) (ocs : List Nat) : Except Nat (Run × List Nat) :=
  let src := bitsOf w0 27 25
  let sreg := bitsOf w0 24 22
  let aes := bitsOf w0 19 18
  let dst := bitsOf w0 17 17
  let dreg := bitsOf w0 16 14
  let width := 2 ^ bitsOf w0 6 5
  let prot := profProtection v.profile
  let value : Except Nat Nat :=
    if src = 2 ∨ bitsOf w0 13 13 = 1 then v.value r (bitsOf w0 12 7) (src = 2 ∧ width = 8) else .ok 0
  match value with
  | .error c => .error c
  | .ok x =>
    let len := if src = 2 then width else if bitsOf w0 13 13 = 1 then x else w1
    if 16777216 < len then .error 3
    else if len = 0 then .ok (advance r ocs)
    else if src = 1 ∧ (v.present r).isNone then .error 4
    else if dst = 1 ∧ (r.aregs.getD dreg (0, 0)).1 ≠ 6 then .error 6
    else if aes ≠ 0 ∧ (prot = 0 ∨ (v.samples.isNone ∧ prot ≠ 3)) then .error 5
    else if aes = 1 ∧ (prot = 1 ∨ prot = 2) ∧ !r.aes.started then .error 9
    else if dst = 0 ∧ r.count < r.oc + len then .error 1
    else
      let skip := dst = 0 ∧ r.oc + len ≤ r.first
      let off : Nat × Nat :=
        match src with
        | 0 => let a := r.aregs.getD sreg (0, 0); (a.1, (a.2 + w2) % 2 ^ 64)
        | 1 => (3, (match v.present r with | some s => s.off | none => 0) + r.sc + w2)
        | 3 => (5, w2)
        | _ => (4, w2)
      let bytes : List Byte := if dry ∨ skip then []
        else if src = 2 then beBytes width x
        else swapGroups (2 ^ bitsOf w0 21 20) (v.winBytes r off.1 off.2 len)
      let base := (r.aregs.getD dreg (0, 0)).2
      let placed : List (Option Nat × Byte) :=
        if dst = 1 then bytes.zipIdx.map (fun q => (some ((base + q.2) % 65536), q.1))
        else (bytes.drop (r.first - r.oc)).map (fun b => (none, b))
      let r1 := if dry ∨ skip then
          (if aes = 2 then { r with aes := { r.aes with started := true, crossed := false } } else r)
        else v.cipher (v.strayed r aes) aes placed
      let r2 := if src = 1 then { r1 with sc := (r1.sc + len) % 2 ^ 24 } else r1
      let r3 := if src = 0 ∧ bitsOf w0 4 4 = 1 then
          { r2 with aregs := r2.aregs.modify sreg (fun p => (p.1, (p.2 + len) % 2 ^ 64)) } else r2
      let r4 := if dst = 1 then { r3 with aregs := r3.aregs.modify dreg (fun p => (p.1, (p.2 + len) % 2 ^ 64)) }
        else { r3 with oc := r3.oc + len }
      let t := advance r4 ocs
      if dst = 0 ∧ r4.oc = r4.count ∧ !dry then .ok (v.endRun t.1, t.2) else .ok t

/-- The run a channel starts with (R290). -/
def startRun (a q c pour first count : Nat) (image : List Byte) : Run :=
  { assoc := a, qid := q, cid := c, pour := pour, first := first, count := count
    aregs := (List.range 8).map (fun k => (leAt image (144 + 16 * k) 4, leAt image (152 + 16 * k) 8)) }

/-- The dry run of R304: the values of OC at the SN advances, a recipe fault with its instruction, or none when fuel is not enough. Waits and signals do
nothing in it. -/
def CastView.dryRun (v : CastView) (fuel : Nat) (r : Run) (ocs : List Nat) : Option (Except (Nat × Nat) (List Nat)) :=
  match fuel with
  | 0 => none
  | k + 1 =>
    if r.oc = r.count then some (.ok ocs)
    else if imgInstrs v.image ≤ r.pc then some (.error (2, r.pc))
    else
      let w (j : Nat) : Nat := imgWord v.image r.pc j
      let t : Except Nat (Run × List Nat) :=
        match bitsOf (w 0) 31 28 with
        | 1 => v.stepMove r true (w 0) (w 1) (w 2) ocs
        | 2 => v.stepLoop r (w 0) (w 1) (w 2) ocs
        | _ => .ok (advance r ocs)
      match t with
      | .error c => some (.error (c, r.pc))
      | .ok (r1, o1) => v.dryRun k r1 o1

/-- The lengths of the runs between boundaries, up to a total. -/
def gaps (from_ total : Nat) (l : List Nat) : List Nat :=
  match l with
  | [] => if from_ < total then [total - from_] else []
  | b :: r => (b - from_) :: gaps b total r

end Sys2Proof.Machine
end

