-- ==== Sys2Proof/Machine/Detect.lean ====
section
/-! DEFINITION. The read front end and detector of one reader pair (R80 to R83): AGC, filter, timing, equaliser, target, max-log-MAP
detector and adaptation, as functions of the ADC samples of a string of data cells. -/

namespace Sys2Proof.Machine

open Sys2Proof

/-! ## Front end (R80, R81) -/

/-- A 7 bit ADC code (R81). -/
def adcCode (x : Int) : Int := if x < -64 then -64 else if 63 < x then 63 else x

/-- A reader's gain, in 0.25 dB from 0 to 36 dB, after its AGC has acted on samples at a divisor of its acquisition bandwidth (R80). The
bandwidth is stated nowhere: the gain it reaches is a free value within the range (log entry 125). -/
def agcGain (divisor target : Nat) (samples : List Int) (gain : Nat) : Nat := min 144 (Config.agc divisor target samples gain)

/-- The phase a read timing loop reaches over samples, in 1/64 cell (R81); its law is stated nowhere (log entry 125). -/
def timingPhase (samples : List Int) (phase : Nat) : Nat := Config.timing samples phase % 64

/-- The AGC acquires on the first cells of a preamble, with the timing loop, and then holds (R80, R81). -/
def Reader.acquire (r : Reader) (target : Nat) (samples : List Int) : Reader :=
  { agc := .hold, gain := agcGain 1 target samples r.gain, phase := timingPhase samples r.phase }

/-- The AGC tracks through codeword cells at one sixteenth of the acquisition bandwidth, with the timing loop, and then holds (R80, R81). -/
def Reader.track (r : Reader) (target : Nat) (samples : List Int) : Reader :=
  { agc := .hold, gain := agcGain 16 target samples r.gain, phase := timingPhase samples r.phase }

/-- Filter cutoff in hundredths of the channel rate (R80). -/
def ctfCutoff (w33 : Word) : Nat := 20 + 2 * getBits w33 ⟨11, 8⟩

/-- Filter boost in dB (R80). -/
def ctfBoost (w33 : Word) : Nat := getBits w33 ⟨15, 12⟩

/-- agc_target of reader r: the rms ADC code it drives toward, 8 to 48 (R80, R104). -/
def agcTarget (w33 : Word) (r : Nat) : Nat := (Clamp.within 8 48).apply (getBits w33 ⟨23 + 8 * r, 16 + 8 * r⟩)

/-! ## Equaliser (R82) -/

/-- Taps of a reader of an equaliser set, in 2^-22: a working copy keeps 12 bits below a tap's field. -/
def tapsOf (set : List Word) (reader : Nat) : List Int :=
  (List.range 32).map (fun i =>
    signed 12 ((set.getD (16 * reader + i / 2) 0).toNat / 2 ^ (16 * (i % 2))) * 4096)

/-- The sample of cell k; 0 outside the samples. -/
def sampleAt (x : List Int) (k : Int) : Int := if k < 0 then 0 else x.getD k.toNat 0

/-- One reader's sum of the equaliser at cell k, in 1/1,024 (R82). -/
def tapSum (taps x : List Int) (k : Int) : Int :=
  (taps.zipIdx.map (fun p => p.1 / 4096 * sampleAt x (k - p.2))).foldl (· + ·) 0

/-- y of cells 0 to n - 1 in 1/1,024 (R82). -/
def equalise (h0 h1 : List Int) (d1 : Int) (x0 x1 : List Int) (n : Nat) : List Int :=
  (List.range n).map (fun (k : Nat) => tapSum h0 x0 k + tapSum h1 x1 ((k : Int) - d1))

/-! ## Detector (R83) -/

/-- The five taps of the target of an equaliser set, in 1/16. -/
def targetOf (w32 : Word) : List Int := (List.range 5).map (fun i => signed 6 (w32.toNat / 2 ^ (6 * i)))

/-- A bit as a level. -/
def levelOf (b : Nat) : Int := if b % 2 = 1 then 1 else -1

/-- The target's output, in 1/1,024, for bit b after the four bits of a state, the latest lowest (R83). -/
def targetOut (g : List Int) (state b : Nat) : Int :=
  64 * (g.zipIdx.map (fun p => p.1 * (if p.2 = 0 then levelOf b else levelOf (state / 2 ^ (p.2 - 1))))).foldl (· + ·) 0

/-- The metric of a branch: the squared distance of y from the target, negated. -/
def branchMetric (g : List Int) (y : Int) (state b : Nat) : Int := -((y - targetOut g state b) * (y - targetOut g state b))

/-- The 16 forward metrics after a cell. -/
def forwardStep (g alpha : List Int) (y : Int) : List Int :=
  (List.range 16).map (fun t =>
    max (alpha.getD (t / 2) 0 + branchMetric g y (t / 2) (t % 2)) (alpha.getD (t / 2 + 8) 0 + branchMetric g y (t / 2 + 8) (t % 2)))

/-- The 16 backward metrics before a cell. -/
def backwardStep (g beta : List Int) (y : Int) : List Int :=
  (List.range 16).map (fun s =>
    max (branchMetric g y s 0 + beta.getD (2 * s % 16) 0) (branchMetric g y s 1 + beta.getD ((2 * s + 1) % 16) 0))

/-- The best path metric through a cell with a bit. -/
def bestWith (g alpha beta : List Int) (y : Int) (b : Nat) : Int :=
  (List.range 16).foldl (fun m s => max m (alpha.getD s 0 + branchMetric g y s b + beta.getD ((2 * s + b) % 16) 0))
    (alpha.getD 0 0 + branchMetric g y 0 b + beta.getD (b % 16) 0)

/-- A log-likelihood ratio of 6 bits: the difference of the best paths with 1 and with 0, saturated at 31 (R83); its unit is stated nowhere
(log entry 138). -/
def llrOf (one zero : Int) : Int :=
  let d := (one - zero) / ((Config.llrUnit : Int) + 1)
  if d < -31 then -31 else if 31 < d then 31 else d

/-- The backward metrics before the cells of y and the ratio of each cell, from the forward metrics. -/
def detectFrom (g alpha : List Int) (y : List Int) : List Int × List Int :=
  match y with
  | [] => (List.replicate 16 0, [])
  | v :: r =>
    let t := detectFrom g (forwardStep g alpha v) r
    (backwardStep g t.1 v, llrOf (bestWith g alpha t.1 v 1) (bestWith g alpha t.1 v 0) :: t.2)

/-- The detector: one 6 bit log-likelihood ratio for each cell, over 16 states and a target of five taps (R83). -/
def detect (g y : List Int) : List Int := (detectFrom g (List.replicate 16 0) y).2

/-! ## Adaptation (R82) -/

/-- The error of the equaliser at cell k against the target of the decisions, in 1/1,024. -/
def decisionError (g llr y : List Int) (k : Nat) : Int :=
  let bit (i : Nat) : Nat := if k < i then 0 else b2n (decide (0 < llr.getD (k - i) 0))
  64 * (g.zipIdx.map (fun p => p.1 * levelOf (bit p.2))).foldl (· + ·) 0 - y.getD k 0

/-- Taps after least mean squares over n cells: each moves by 2^-12 of error times sample and saturates at its field (R82, log entry 139). -/
def adaptTaps (taps x : List Int) (shift : Int) (err : Nat → Int) (n : Nat) : List Int :=
  taps.zipIdx.map (fun p =>
    let w := (List.range n).foldl (fun (acc : Int) (k : Nat) => acc + err k * sampleAt x ((k : Int) - p.2 - shift)) p.1
    if w < -2048 * 4096 then -2048 * 4096 else if 2047 * 4096 < w then 2047 * 4096 else w)

end Sys2Proof.Machine
end

