-- ==== Sys2Proof/Machine/Servo.lean ====
section
/-! DEFINITION. The actuator loops (05_servo_control.md): position samples, stages, seeks, re-identification, permits,
supervisors, feed-forward and standby takeover. -/

namespace Sys2Proof.Machine

open Sys2Proof

/-! ## Demodulation (R89, R90, R131, R132) -/

/-- The sums and count the amplitudes are normalised by: the bursts since the last head switch, band change or reset, else the
means stored at calibration, else half of the converter's full scale (R89). -/
def State.fullScale (s : State) (a : Fin 4) : Nat × Nat × Nat :=
  let b := (s.act a).batten
  match b.bursts with
  | [] =>
    match b.stored.find? (fun p => p.1 == 16 * s.head a + b.band) with
    | some (_, x, y) => (x, y, 1)
    | none => (2048, 2048, 1)
  | l => (l.foldl (fun n p => n + p.1) 0, l.foldl (fun n p => n + p.2) 0, l.length)

/-- An amplitude over the mean sum / n, as a fraction; over a mean of zero it is a free value, of which the spec states none. -/
def normAmp (amp sum n : Nat) : Nat × Nat :=
  if sum = 0 then ((Config.unscaled amp).1, (Config.unscaled amp).2 + 1) else (amp * n, sum)

/-- Normalised amplitudes over a common denominator: numerators of a and b, and the denominator. -/
def normAmps (ampA ampB sumA sumB n : Nat) : Nat × Nat × Nat :=
  let a := normAmp ampA sumA n
  let b := normAmp ampB sumB n
  (a.1 * b.2, b.1 * a.2, a.2 * b.2)

/-- PES of an in-band sample in Q1.23, nearest (R131): numerators of a and b over den, the width w in 1/16 %, x_cal in 1/256 %. -/
def inBandPes (an bn den w : Nat) (xcal : Int) : Int :=
  let sn := an + bn
  let xNum : Int × Nat :=
    if den ≤ sn then ((w : Int) * (2 * an - sn) * 256, 32 * sn * 256)
    else
      let m : Int := (9 * den * 16 + w * den - 2 * w * sn : Int)
      ((if an < bn then -m else m) * 256, 32 * den * 256)
  let num := xNum.1 - xcal * (xNum.2 / 256 : Nat)
  satQ123 ((2 * num * 8388608 + 100 * xNum.2) / (200 * xNum.2 : Nat))

/-! ## Calibration (R51, R56, R89, R133) -/

/-- The width lies outside 5 % to 8 % of track pitch (R51). -/
def badWidth (c : HeadCal) : Bool := decide (c.width < 80) || decide (128 < c.width)

/-- |x_cal| exceeds (9 - w) / 2 percent in some zone (R133). -/
def offCentre (c : HeadCal) : Bool := (c.xcal.take 64).any (fun x => decide (2304 < 2 * x.natAbs + 16 * c.width))

/-- The calibration of a head that is not lost: its width, x_cal, burst means and index offset are stored; a width or x_cal out of
bounds, or an index offset above 256 rafter cells, marks it failed and loses its surface (R51, R56, R133, R241). -/
def State.calibrateHead (s : State) (c : HeadCal) : State :=
  if s.media.lostSurfaces.contains c.surface.val then s
  else
    let a := surfaceAct c.surface.val
    let h := c.surface.val % 8
    let s1 := s.setReg (Adr.BTN_WIDTH a h) (setBits (setBits 0 Fld.BTN_WIDTH_width c.width) Fld.BTN_WIDTH_failed (b2n (badWidth c)))
    let s2 := (c.xcal.take 64).zipIdx.foldl (fun s p => s.setReg (Adr.SRV_XCAL a (64 * h + p.2)) (BitVec.ofNat 32 (unsigned 16 p.1))) s1
    let s3 := s2.modBatten a (fun b => { b with
      stored := b.stored.filter (fun q => q.1 / 16 != h) ++ c.bursts.map (fun q => (16 * h + q.1, q.2.1, q.2.2))
      offsets := insertKey b.offsets h c.offset })
    let s4 := if badWidth c || offCentre c then s3.actEvent a 0x09 else s3
    if badWidth c || offCentre c || decide (256 < c.offset.natAbs) then s4.surfaceLost c.surface.val else s4

/-- A limit in 1/8 % of track pitch against |PES| (R164): whether |PES| × 800 exceeds it. -/
def pesOver (pes : Int) (lim : Nat) : Bool := decide (lim * 8388608 < pes.natAbs * 800)

/-- Whether |PES| × 800 reaches a limit. -/
def pesAtLeast (pes : Int) (lim : Nat) : Bool := decide (lim * 8388608 ≤ pes.natAbs * 800)

/-- Any invalid window open (R100). -/
def Batten.windowOpen (b : Batten) : Bool := b.winHead != 0 || b.winGain != 0 || b.winFilter != 0

/-- The latest open window: 1 head switch, 2 gain step, 3 filter change; 0 none. -/
def Batten.cause (b : Batten) : Nat :=
  (b.order.find? (fun c => (c == 1 && b.winHead != 0) || (c == 2 && b.winGain != 0) || (c == 3 && b.winFilter != 0))).getD 0

/-- Invalid samples still to come. -/
def Batten.remaining (b : Batten) : Nat := max b.winHead (max b.winGain b.winFilter)

/-- Open an invalid window of cause c and n samples (R100). -/
def State.openWindow (s : State) (a : Fin 4) (c n : Nat) : State :=
  let s1 := s.modBatten a (fun b =>
    let b1 := { b with order := c :: b.order.filter (· != c) }
    if c = 1 then { b1 with winHead := n } else if c = 2 then { b1 with winGain := n } else { b1 with winFilter := n })
  let s2 := s1.countFld (Adr.BTN_INVAL a) Fld.BTN_INVAL_windows
  let b := (s2.act a).batten
  (s2.setFld (Adr.BTN_INVAL a) Fld.BTN_INVAL_remaining b.remaining).setFld (Adr.BTN_POS a) Fld.BTN_POS_cause b.cause

/-- The equaliser's working copy is loaded from the set the map names, at a head switch, a band change and a restart of the function (R82, R98). -/
def State.loadEqualiser (s : State) (a : Fin 4) : State :=
  let i := 16 * s.head a + (s.act a).batten.band
  let w := (s.reg (Adr.EQ_MAP a (i / 4))).toNat / 2 ^ (8 * (i % 4)) % 32
  let l := (List.range 34).map (fun k => s.reg (Adr.EQ_D0 a w k))
  s.modAct a (fun x => { x with equal := l, taps0 := tapsOf l 0, taps1 := tapsOf l 1 })

/-- Enter a zone: its number is shown, and the write-gate lead and lag limits of R78 are judged. -/
def State.enterZone (s : State) (a : Fin 4) (z : Nat) : State :=
  let s1 := s.setFld (Adr.CHN_STATUS a) Fld.CHN_STATUS_zone z
  let c := s1.cellsPerRev a
  let clamped := decide (c * 12 / 1638400 < s1.fld (Adr.CHN_WRCFG a) Fld.CHN_WRCFG_wg_lead)
    || decide (c * 4 / 1638400 < s1.fld (Adr.CHN_WRCFG a) Fld.CHN_WRCFG_wg_lag)
  let s2 := s1.setFlag (Adr.CHN_STATUS a) Fld.CHN_STATUS_wg_clamped clamped
  if clamped then s2.actEvent a 0x0A else s2

/-- Effective write-gate lead and lag in data cells (R78). -/
def State.gateTimes (s : State) (a : Fin 4) : Nat × Nat :=
  let c := s.cellsPerRev a
  (min (s.fld (Adr.CHN_WRCFG a) Fld.CHN_WRCFG_wg_lead) (c * 12 / 1638400),
   min (s.fld (Adr.CHN_WRCFG a) Fld.CHN_WRCFG_wg_lag) (c * 4 / 1638400))

/-- A move to a track (R98): its zone is taken at once when it is the present one, at the next rafter in the same band, and with a
retuned filter, a lost clock and a reloaded equaliser in another band. -/
def State.moveToTrack (s : State) (a : Fin 4) (t : Nat) : State :=
  let s1 := s.setFld (Adr.SRV_TRACK a) Fld.SRV_TRACK_track t
  match zoneOfTrack (s.headZones a) t with
  | none => s1
  | some (z, x) =>
    if z = s.fld (Adr.CHN_STATUS a) Fld.CHN_STATUS_zone ∧ x.band = (s.act a).batten.band then
      s1.modBatten a (fun b => { b with zoneMove := none })
    else if x.band = (s.act a).batten.band then
      s1.modBatten a (fun b => { b with zoneMove := some z, needRafters := max b.needRafters 1, needBoundary := true })
    else
      let s2 := (s1.setClock a 0).modBatten a (fun b =>
        { b with zoneMove := none, band := x.band, bursts := [], needRafters := 2, needValid := true, needBoundary := true })
      ((s2.openWindow a 3 12).loadEqualiser a).enterZone a z

/-! ## Seeks (R147 to R150) -/

/-- What a seek to a target does now. -/
inductive SeekStart where
  | none
  | failed
  | start (k : Seek)
deriving DecidableEq, Repr

/-- The profile of a seek from the present track to a target (R147). -/
def State.seekPlan (s : State) (a : Fin 4) (target : Nat) : SeekStart :=
  let here := s.track a
  let d := if here ≤ target then target - here else here - target
  let ipk := s.fld (Adr.SRV_SEEKI a) Fld.SRV_SEEKI_i_pk % 2 ^ 23
  let kacc := s.fld (Adr.SRV_SEEKK a) Fld.SRV_SEEKK_k_acc
  let vmax := max (s.fld (Adr.SRV_SEEKV a) Fld.SRV_SEEKV_v_max) 1
  if ipk = 0 ∨ kacc = 0 then .failed
  else if d = 0 then .none
  else
    let p := seekTimes d ipk kacc vmax
    .start { start := here, dist := d, neg := decide (target < here), th := p.1, tc := p.2, kacc := kacc }

/-- Enter following with both stages preset from an output (R144, R149). -/
def State.enterFollowing (s : State) (a : Fin 4) (uVcm uMa : Int) : State :=
  let s1 := ((s.setMode a 1).unsettle a).noPermit a
  let s2 := s1.modServo a (fun x =>
    { x with seek := none, reseek := false, preset := some (uVcm, uMa), predicted := 0, feRun := 0, oscSamples := 0
             oscCount := 0, oscSign := 0, wrongTrack := none })
  s2.setFld (Adr.MDI_SURF a) Fld.MDI_SURF_act_state 0

/-- Begin a seek to a target at the next sample: held while the servo function is not running; a seek of no distance keeps a following loop
following, one that cannot start is returned failed and leaves the target of the last seek, and both let a re-identified loop follow (R137,
R147, R148). -/
def State.beginSeek (s : State) (a : Fin 4) (target : Nat) : State :=
  if !s.funcRunning (4 + a) then s.modServo a (fun x => { x with heldSeek := some target })
  else
    let s0 := s.setFld (Adr.SRV_TARGET a) Fld.SRV_TARGET_target target
    match s.seekPlan a target with
    | .start k =>
      let s1 := ((s0.setMode a 2).unsettle a).noPermit a
      s1.modServo a (fun x => { x with seek := some k, heldSeek := none, failedSeek := none, discards := 0, predicted := seekCurrent k 0
                                       firstAfterSwitch := false, wrongTrack := none })
    | .none => if s.mode a = 3 then s0.enterFollowing a 0 0 else s0
    | .failed =>
      let s1 := s.modServo a (fun x => { x with failedSeek := some target })
      if s.mode a = 3 then s1.enterFollowing a 0 0 else s1

/-- A seek request (R147, R148): held during a seek, and during a re-identification, whose seek it then is (log entry 134); failed for
heads that are unloaded. -/
def State.seekRequested (s : State) (a : Fin 4) (target : Nat) : State :=
  if s.mode a = 2 ∨ s.mode a = 3 then s.modServo a (fun x => { x with heldSeek := some target })
  else if s.mode a = 0 then s.modServo a (fun x => { x with failedSeek := some target })
  else s.beginSeek a target

/-- SEEK_REQUEST. -/
def execSeekRequest (a : Fin 4) (track : Nat) (s : State) : Res := .next (s.seekRequested a track)

/-- The seek profile has run its last sample. -/
def Seek.over (k : Seek) : Bool := decide (2 * k.th + k.tc ≤ k.j)

/-- SEEK_HANDOVER: the present track becomes the target and both stages are preset into following, or the held seek begins (R148,
R149). -/
def execSeekHandover (a : Fin 4) (s : State) : Res :=
  match (s.act a).servo.seek with
  | none => .next s
  | some k =>
    if k.over then
      let target := if k.neg then k.start - k.dist else k.start + k.dist
      let s1 := s.moveToTrack a target
      let v := (s1.act a).servo
      let s2 := s1.enterFollowing a (v.demand - v.ff) 0
      match v.heldSeek with
      | some t => .next ((s2.modServo a (fun x => { x with heldSeek := none })).beginSeek a t)
      | none => .next s2
    else .next s

/-! ## Rafters (R134 to R137) -/

/-- The first of an accepted rafter's checks against the target while following (R135). -/
def State.followRafter (s : State) (a : Fin 4) (t : Nat) : State :=
  let target := s.fld (Adr.SRV_TARGET a) Fld.SRV_TARGET_target
  let v := (s.act a).servo
  if v.firstAfterSwitch then
    let s1 := (s.modServo a (fun x => { x with firstAfterSwitch := false })).moveToTrack a t
    if t = target then s1
    else (s1.countFld (Adr.SRV_RAFCHK a) Fld.SRV_RAFCHK_mismatch).beginSeek a target
  else if t = target then s.modServo a (fun x => { x with wrongTrack := none })
  else
    let s1 := s.countFld (Adr.SRV_RAFCHK a) Fld.SRV_RAFCHK_mismatch
    match v.wrongTrack with
    | none => s1.modServo a (fun x => { x with wrongTrack := some t })
    | some _ =>
      let s2 := ((s1.noPermit a).requestAbort a).setFlag (Adr.SRV_STICKY a) Fld.SRV_STICKY_wrong_track true
      let s3 := ((s2.modServo a (fun x => { x with wrongTrack := none })).moveToTrack a t).actEvent a 0x43
      s3.beginSeek a target

/-- An accepted rafter while seeking: the correction e, or a discard, three of which in a row end the seek (R136, R148). -/
def State.seekRafter (s : State) (a : Fin 4) (k : Seek) (t : Nat) : State :=
  let ref : Int := if k.j = 0 then ((k.start * 65536 : Nat) : Int) else seekRef k (k.j - 1)
  let e : Int := ref - (t * 65536 : Nat)
  if (s.fld (Adr.SRV_SEEKTOL a) Fld.SRV_SEEKTOL_seek_tol) * 65536 < e.natAbs then
    let n := (s.act a).servo.discards + 1
    let s1 := (s.countFld (Adr.SRV_RAFCHK a) Fld.SRV_RAFCHK_discard).modServo a (fun x => { x with discards := n })
    if 3 ≤ n then (s1.actEvent a 0x44).enterReident a else s1
  else s.modServo a (fun x => { x with seek := some { k with e := e }, discards := 0, firstAfterSwitch := false })

/-- An accepted rafter while re-identifying: two with consecutive indices and tracks within 2 give the present track (R137). -/
def State.reidentRafter (s : State) (a : Fin 4) (index t : Nat) : State :=
  match (s.act a).servo.reidentLast with
  | some (i, u) =>
    if (i + 1) % 128 = index ∧ t ≤ u + 2 ∧ u ≤ t + 2 then
      let s1 := (s.moveToTrack a t).modServo a (fun x => { x with reidentLast := none, heldSeek := none, reloads := 0, reloading := false })
      let s2 := s1.modAct a (fun x => { x with ended := x.pfltHeld })
      s2.beginSeek a ((s.act a).servo.heldSeek.getD (s.fld (Adr.SRV_TARGET a) Fld.SRV_TARGET_target))
    else s.modServo a (fun x => { x with reidentLast := some (index, t) })
  | none => s.modServo a (fun x => { x with reidentLast := some (index, t) })

/-- What the loop does with an accepted rafter of index and track, given the predicted index (R134 to R137). -/
def State.loopRafter (s : State) (a : Fin 4) (predicted index t : Nat) : State :=
  if s.mode a = 3 then s.reidentRafter a index t
  else if index ≠ predicted then s.countFld (Adr.SRV_RAFCHK a) Fld.SRV_RAFCHK_mismatch
  else if s.mode a = 1 then s.followRafter a t
  else if s.mode a = 2 then
    match (s.act a).servo.seek with
    | some k => s.seekRafter a k t
    | none => s
  else s

/-- A reload was unsuccessful: the third loses the actuator (R137, R245). -/
def State.reloadFailed (s : State) (a : Fin 4) : State :=
  let n := (s.act a).servo.reloads + 1
  let s1 := s.modServo a (fun x => { x with reloads := n, reloading := false })
  if 3 ≤ n then s1.actuatorLost a else s1

/-- REIDENT_TIMEOUT: the heads are unloaded, and a reload that this follows was unsuccessful (R137). -/
def execReidentTimeout (a : Fin 4) (s : State) : Res :=
  if s.mode a = 3 then
    let s1 := (s.unloadFrame a).actEvent a 0x45
    .next (if (s.act a).servo.reloading then s1.reloadFailed a else s1)
  else .next s

/-- Whether heads may load: the spindle at speed, the retract pair armed, and no retract in force (R177, R188). -/
def State.mayLoad (s : State) : Bool :=
  s.flag Adr.SPN_STATUS Fld.SPN_STATUS_at_speed && s.flag Adr.SPN_RETRACT Fld.SPN_RETRACT_armed
    && !s.flag Adr.SPN_RETRACT Fld.SPN_RETRACT_retracted

/-- ACTUATOR_RELOAD: once heads may load, firmware reloads them and they re-identify; ok is whether the heads loaded (R137, R177, R188). -/
def execActuatorReload (a : Fin 4) (ok : Bool) (s : State) : Res :=
  if s.mode a ≠ 0 ∨ (s.act a).lost ∨ !s.mayLoad then .next s
  else if ok then .next ((s.enterReident a).modServo a (fun x => { x with reloading := true }))
  else .next (s.reloadFailed a)

/-! ## Feed-forward (R157, R158) -/

/-- A guard overflow of a section: its place where none is latched, and its event (R141). -/
def State.guardAt (s : State) (a : Fin 4) (stage k : Nat) : State :=
  let s1 := if s.flag (Adr.SRV_STICKY a) Fld.SRV_STICKY_sat then s
    else (s.setFld (Adr.SRV_SATLOC a) Fld.SRV_SATLOC_stage stage).setFld (Adr.SRV_SATLOC a) Fld.SRV_SATLOC_section k
  (s1.setFlag (Adr.SRV_STICKY a) Fld.SRV_STICKY_sat true).actEvent a 0x42

/-- Note a stage's flags: clip, and each guard overflow (R140, R141). -/
def State.stageFlags (s : State) (a : Fin 4) (stage : Nat) (o : StageOut) : State :=
  let s1 := if o.clip then s.setFlag (Adr.SRV_STICKY a) Fld.SRV_STICKY_clip true else s
  o.satAt.foldl (fun s k => s.guardAt a stage k) s1

/-- The predicted current of actuator m for the sample actuator a computes (R158): the grid is one, so a slice that has computed
this sample already shows the value it published before it. -/
def State.predictedFor (s : State) (q : Nat) (m : Fin 4) : Int :=
  if s.fld (Adr.BTN_POS m) Fld.BTN_POS_seq = q then (s.act m).servo.predictedPrev else (s.act m).servo.predicted

/-- The feed-forward of a sample in accumulator format, with the states after it (R157, R158). -/
def State.feedForward (s : State) (a : Fin 4) (q : Nat) (rvx rvy : Int) : Int × State :=
  let v := (s.act a).servo
  let cfg := Adr.SRV_LOOPCFG a
  let rv := s.flag cfg Fld.SRV_LOOPCFG_rv_en
  let xa := s.flag cfg Fld.SRV_LOOPCFG_xa_en
  let cf (e : Nat) (j : Nat) : Coef := coefOf (fun c => s.reg (Adr.SRV_RV a (4 * e + j) c))
  let ox := runStage (cf 0) none false 4 (v.rv.take 4) (rvx * 2048)
  let oy := runStage (cf 1) none false 4 (v.rv.drop 4) (rvy * 2048)
  let g (e : Nat) : Int := signed 24 (s.reg (Adr.SRV_RVGAIN a e)).toNat
  let termX : Int := if v.rvDropX then 0 else g 0 * ox.y
  let termY : Int := if v.rvDropY then 0 else g 1 * oy.y
  let sum : Int := [0, 1, 2, 3].foldl (fun acc (m : Fin 4) =>
    if m = a then acc else acc + signed 24 (s.reg (Adr.SRV_XAGAIN a m)).toNat * s.predictedFor q m) 0
  let oa := runStage (fun j => coefOf (fun c => s.reg (Adr.SRV_XA a j c))) none false 2 v.xa (satQ123 (roundAcc sum))
  let s1 := if rv then
      (((s.modServo a (fun x => { x with rv := ox.st ++ oy.st })).stageFlags a 2 ox).stageFlags a 2
        { oy with satAt := oy.satAt.map (· + 4) })
    else s
  let s2 := if xa then (s1.modServo a (fun x => { x with xa := oa.st })).stageFlags a 3 oa else s1
  ((if rv then termX + termY else 0) + (if xa then oa.y * 4194304 else 0), s2)

/-! ## One sample (R130) -/

/-- What a sample's demodulation gave: VALID, out of band, and the PES used. -/
structure Sample where
  valid : Bool
  oob : Bool
  pes : Int
deriving DecidableEq, Repr

/-- An integral scaled by the period over the window length and converted to 12 bits (R89), rounded down (log entry 146). -/
def integralCode (x : Int) (window : Nat) : Int := limit (-2048) 2047 (x * 3906250 / (window : Int))

/-- The amplitude of a tone: the root of the sum of the squares of its two products, rounded down (R89, log entry 146). -/
def toneAmp (i q : Int) (window : Nat) : Nat :=
  let ic := integralCode i window
  let qc := integralCode q window
  isqrt (ic * ic + qc * qc).toNat

/-- Count a sample for the batten AGC: how long A + B has been more than 1.5 dB, a factor of 1.188502, from its target (R91). -/
def Batten.gainCount (b : Batten) (sum : Nat) : Batten :=
  let low := decide (sum * 1188502 < Config.battenTarget * 1000000)
  let high := decide (Config.battenTarget * 1188502 < sum * 1000000)
  { b with gainRun := if low || high then b.gainRun + 1 else 0, gainUp := low, gainSince := b.gainSince + 1 }

/-- Demodulate one sample: BTN and SRV_PES registers, the windows and the clock's hold (R89 to R93, R100, R131, R132, R146). DESIGN CHOICE (log
entry 124): a sample with a + b = 0 is out of band whatever oob_thresh is, its ratio being 0 / 0. -/
def State.demodulate (s : State) (a : Fin 4) (i : Integrals) : Sample × State :=
  let ampA := toneAmp i.aI i.aQ i.window
  let ampB := toneAmp i.bI i.bQ i.window
  let f := s.fullScale a
  let n := normAmps ampA ampB f.1 f.2.1 f.2.2
  let an := n.1
  let bn := n.2.1
  let den := n.2.2
  let oob := decide ((an + bn) * 32 < s.fld (Adr.BTN_CTRL a) Fld.BTN_CTRL_oob_thresh * den) || an + bn == 0
  let b := (s.act a).batten
  let valid := !b.windowOpen
  let ratio := if oob then b.lastRatio else min 65535 (an * 65536 / (an + bn))
  let v := (s.act a).servo
  let w := s.fld (Adr.BTN_WIDTH a (s.head a)) Fld.BTN_WIDTH_width
  let xcal := signed 16 (s.reg (Adr.SRV_XCAL a (64 * s.head a + s.fld (Adr.CHN_STATUS a) Fld.CHN_STATUS_zone))).toNat
  let oobPes : Int := (s.fld (Adr.SRV_WINH a) Fld.SRV_WINH_oob_pes) * 8388608 / 800
  let raw : Int := if oob then satQ123 (if v.inBandSeen && decide (v.lastPes < 0) then -oobPes else oobPes)
    else inBandPes an bn den w xcal
  let pes := if valid then raw else v.lastValidPes
  let g := b.gainCount (ampA + ampB)
  let b1 := { g with winHead := b.winHead - 1, winGain := b.winGain - 1, winFilter := b.winFilter - 1, lastRatio := ratio
                     needValid := b.needValid && !valid }
  let s1 := s.modAct a (fun x => { x with batten := b1, servo := { x.servo with
    lastPes := if oob then x.servo.lastPes else raw
    inBandSeen := x.servo.inBandSeen || !oob
    lastValidPes := pes } })
  let pos := Adr.BTN_POS a
  let s2 := s1.setReg pos (setBits (setBits (setBits (setBits (setBits (s1.reg pos)
    Fld.BTN_POS_seq (s1.fld pos Fld.BTN_POS_seq + 1)) Fld.BTN_POS_cause b.cause) Fld.BTN_POS_oob (b2n oob))
    Fld.BTN_POS_valid (b2n valid)) Fld.BTN_POS_ratio ratio)
  let amp := Adr.BTN_AMP a
  let s3 := (s2.setFld amp Fld.BTN_AMP_amp_a (min 65535 (an * 4096 / den))).setFld amp Fld.BTN_AMP_amp_b
    (min 65535 (bn * 4096 / den))
  let s4 := s3.setFld (Adr.BTN_INVAL a) Fld.BTN_INVAL_remaining b1.remaining
  let p := Adr.SRV_PES a
  let s5 := ((s4.setFlag p Fld.SRV_PES_valid valid).setFlag p Fld.SRV_PES_oob oob).setSFld p Fld.SRV_PES_pes pes
  let s6 := s5.setFlag (Adr.SRV_STATUS a) Fld.SRV_STATUS_in_band (!oob)
  let held := oob || decide (an * 8 < den)
  let s7 := if s.clock a = 1 ∧ held then s6.setClock a 3 else if s.clock a = 3 ∧ !held then s6.setClock a 1 else s6
  (⟨valid, oob, pes⟩, s7)

/-- The integrator section's number and limits, when the stage has one (R143). -/
def integOf (on : Bool) (n : Nat) (w : Word) : Option (Nat × Int × Int) :=
  if on then some (n - 1, integLimits w) else none

/-- The stages in the following mode (R142 to R144, R146): the demand before feed-forward in Q1.23. -/
def State.runStages (s : State) (a : Fin 4) (m : Sample) : Int × State :=
  let cfg := Adr.SRV_LOOPCFG a
  let nm := s.fld cfg Fld.SRV_LOOPCFG_n_ma
  let nv := s.fld cfg Fld.SRV_LOOPCFG_n_vcm
  let cm (j : Nat) : Coef := coefOf (fun c => s.reg (Adr.SRV_MA a j c))
  let cv (j : Nat) : Coef := coefOf (fun c => s.reg (Adr.SRV_VCM a j c))
  let im := integOf (s.flag cfg Fld.SRV_LOOPCFG_int_en_ma) nm (s.reg (Adr.SRV_MINT a))
  let iv := integOf (s.flag cfg Fld.SRV_LOOPCFG_int_en_vcm) nv (s.reg (Adr.SRV_VINT a))
  let v := (s.act a).servo
  let mst := match v.preset with
    | some (_, u) => presetFrom cm (im.map (·.1)) u 0 (v.ma.take nm) m.pes ++ v.ma.drop nm
    | none => v.ma
  let lim : Int := (s.fld (Adr.SRV_MALIM a) Fld.SRV_MALIM_ma_lim) * 256 + 255
  let on := s.flag cfg Fld.SRV_LOOPCFG_ma_en
  let om := runStage cm im (!m.valid) nm mst m.pes
  let um : Int := if on then limit (-lim) lim om.y else 0
  let x := satQ123 (roundAcc (m.pes * 4194304 + signed 24 (s.reg (Adr.SRV_GMA a)).toNat * um))
  let vst := match v.preset with
    | some (u, _) => presetFrom cv (iv.map (·.1)) u 0 (v.vcm.take nv) x ++ v.vcm.drop nv
    | none => v.vcm
  let ov := runStage cv iv (!m.valid) nv vst x
  let s1 := s.modServo a (fun z => { z with vcm := ov.st, ma := if on then om.st else z.ma, preset := none
                                            uVcm := ov.y, uMa := um })
  let s2 := (if on then s1.stageFlags a 1 om else s1).stageFlags a 0 ov
  let st := Adr.SRV_STATUS a
  let s3 := if m.valid then
      (s2.setFlag st Fld.SRV_STATUS_clamp_v ov.clamped).setFlag st Fld.SRV_STATUS_clamp_m (on && om.clamped)
    else s2
  let s4 := if m.valid && (ov.clamped || (on && om.clamped)) then
      s3.setFlag (Adr.SRV_STICKY a) Fld.SRV_STICKY_clamp_hit true else s3
  (ov.y, s4)

/-- The stage or profile part of the demand in accumulator format, by mode (R137, R142, R148). -/
def State.modeDemand (s : State) (a : Fin 4) (m : Sample) : Int × State :=
  if s.mode a = 1 then
    let p := s.runStages a m
    (p.1 * 4194304, p.2)
  else if s.mode a = 2 then
    match (s.act a).servo.seek with
    | some k =>
      let kv := signed 24 (s.reg (Adr.SRV_SEEKKV a)).toNat
      let k1 := { k with j := k.j + 1 }
      (seekCurrent k k.j * 4194304 + kv * k.e * 128,
        s.modServo a (fun x => { x with seek := some k1 }))
    | none => (0, s)
  else (0, s)

/-- Send the outputs of a sample (R142, R145): SRV_OUT, ACTn_MA 0 while ma_en is 0, and the VCM demand frame. -/
def State.sendOutputs (s : State) (a : Fin 4) (demand ff : Int) : State :=
  let um := if s.flag (Adr.SRV_LOOPCFG a) Fld.SRV_LOOPCFG_ma_en then (s.act a).servo.uMa else 0
  let vcm := limit (-32768) 32767 ((demand + 128) / 256)
  let ma := limit (-8192) 8191 ((um + 512) / 1024)
  let s1 := (s.setSFld (Adr.SRV_OUT a) Fld.SRV_OUT_vcm vcm).setSFld (Adr.SRV_OUT a) Fld.SRV_OUT_ma ma
  (s1.modServo a (fun x => { x with demand := demand, ff := ff, uMa := um })).picDemand a vcm

/-- The off-track inhibit (R152): the permit is withdrawn, a fragment being written is cut with code 6, settled is cleared. -/
def State.offTrack (s : State) (a : Fin 4) : State :=
  let was := s.flag (Adr.SRV_STATUS a) Fld.SRV_STATUS_settled
  let writing := s.flag (Adr.CHN_STATUS a) Fld.CHN_STATUS_writing
  let s1 := (((s.noPermit a).unsettle a).setFlag (Adr.SRV_STICKY a) Fld.SRV_STICKY_inhibit true).modServo a (fun x => { x with inhibit := true })
  let s2 := if was then s1.countFld (Adr.SRV_CNT a) Fld.SRV_CNT_inhibits else s1
  if writing then (s2.dropGate a).sectorError a 6 3 else s2

/-- The supervisors' counts in the following mode (R153, R154). -/
def State.supervise (s : State) (a : Fin 4) (m : Sample) : State :=
  if !m.valid || s.mode a != 1 then s
  else
    let sel := s.fld (Adr.SRV_LOOPCFG a) Fld.SRV_LOOPCFG_sup_sel
    let s1 := if sel = 1 then s
      else s.modServo a (fun x => { x with
        feRun := if pesOver m.pes (s.fld (Adr.SRV_FELIM a) Fld.SRV_FELIM_fe_limit) then x.feRun + 1 else 0 })
    if sel = 1 ∨ sel = 2 then
      s1.modServo a (fun x =>
        let fresh := decide (s.fld (Adr.SRV_OSC a) Fld.SRV_OSC_osc_win ≤ x.oscSamples)
        let c := if fresh then 0 else x.oscCount
        let g := if fresh then 0 else x.oscSign
        let large := pesOver m.pes (s.fld (Adr.SRV_OSC a) Fld.SRV_OSC_osc_amp)
        { x with
          oscSamples := if fresh then 1 else x.oscSamples + 1
          oscCount := if large && g != 0 && g != signOf m.pes then c + 1 else c
          oscSign := if large then signOf m.pes else g })
    else s1

/-- The VCM current check (R156). -/
def State.checkIsns (s : State) (a : Fin 4) (isns inForce : Int) : State :=
  let err := s.fld (Adr.SRV_ISNSCFG a) Fld.SRV_ISNSCFG_i_err
  let scale := s.fld (Adr.SRV_ISNSCFG a) Fld.SRV_ISNSCFG_i_scale
  let s1 := s.setSFld (Adr.SRV_ISNS a) Fld.SRV_ISNS_code isns
  if err = 0 ∨ s.flag (Adr.SRV_STICKY a) Fld.SRV_STICKY_imismatch then s1.modServo a (fun x => { x with imRun := 0 })
  else
    let diff := isns * 2 ^ 29 - inForce * scale
    let wide := decide ((err * 2 ^ 29 : Nat) < diff.natAbs)
    s1.modServo a (fun x => { x with imRun := if wide then x.imRun + 1 else 0 })

/-- The vibration sensors' runs at the ADC limit, and the end of a drop once rv_fault is cleared (R157). -/
def State.checkRv (s : State) (a : Fin 4) (rvx rvy : Int) : State :=
  let at_ (c : Int) : Bool := decide (2047 ≤ c) || decide (c ≤ -2048)
  let on := s.flag (Adr.SRV_STICKY a) Fld.SRV_STICKY_rv_fault
  s.modServo a (fun x => { x with
    rvRunX := if at_ rvx then x.rvRunX + 1 else 0
    rvRunY := if at_ rvy then x.rvRunY + 1 else 0
    rvDropX := x.rvDropX && on
    rvDropY := x.rvDropY && on })

/-- The servo write permit of R151 for a sample. -/
def State.permitFor (s : State) (a : Fin 4) (m : Sample) : Bool :=
  s.mode a == 1 && s.flag (Adr.SRV_STATUS a) Fld.SRV_STATUS_settled && m.valid
    && !pesAtLeast m.pes (s.fld (Adr.SRV_WINH a) Fld.SRV_WINH_wi_thresh) && s.funcRunning (4 + a)

/-- The state mirror is written at the end of a completed sample (R160). -/
def State.writeMirror (s : State) (a : Fin 4) : State :=
  s.modServo a (fun x => { x with mirror := { vcm := x.vcm, ma := x.ma, rv := x.rv, xa := x.xa, mode := s.mode a } })

/-- The demand of a sample: the mode's current and the feed-forward, limited, sent, and published for the other actuators (R142, R145, R158). -/
def State.sampleDemand (s : State) (a : Fin 4) (m : Sample) (rvx rvy : Int) : State :=
  let f := s.feedForward a (s.fld (Adr.BTN_POS a) Fld.BTN_POS_seq) rvx rvy
  let g := f.2.modeDemand a m
  let raw := roundAcc (g.1 + f.1)
  let demand := satQ123 raw
  let s2 := if raw = demand then g.2 else g.2.setFlag (Adr.SRV_STICKY a) Fld.SRV_STICKY_clip true
  let s3 := s2.sendOutputs a demand (satQ123 (roundAcc f.1))
  let pub : Int := match (s3.act a).servo.seek with | some k => seekCurrent k k.j | none => 0
  s3.modServo a (fun x => { x with predictedPrev := x.predicted, predicted := pub })

/-- What a sample's position decides: the run of the settle window, the off-track cut and the supervisors (R149, R152 to R154). -/
def State.judgeSample (s : State) (a : Fin 4) (m : Sample) : State :=
  let inWin := m.valid && !m.oob && !pesOver m.pes (s.fld (Adr.SRV_SETTLE a) Fld.SRV_SETTLE_settle_win)
  let s1 := if m.valid && s.mode a == 1 then s.modServo a (fun x => { x with settleRun := if inWin then x.settleRun + 1 else 0 }) else s
  let s2 := if m.valid && pesAtLeast m.pes (s.fld (Adr.SRV_WINH a) Fld.SRV_WINH_wi_thresh) then s1.offTrack a else s1
  s2.supervise a m

/-- A sample's end on the actuators' ports: the frames due go (R181). -/
def State.sampleEnds (s : State) : State := ({ s with pic := { s.pic with sampleEnd := s.now } }).picGo

/-- SERVO_SAMPLE: the batten sample is demodulated and the loop engine computes PES and one loop update with its outputs. -/
def execServoSample (a : Fin 4) (x : Integrals) (isns rvx rvy : Int) (s : State) : Res :=
  let inForce := s.sfld (Adr.SRV_OUT a) Fld.SRV_OUT_vcm
  let d := s.sampleEnds.demodulate a x
  let m := d.1
  let s1 := (d.2.checkIsns a isns inForce).checkRv a rvx rvy
  if s1.mode a = 0 then .next ((s1.modServo a (fun x => { x with predictedPrev := x.predicted, predicted := 0 })).writeMirror a)
  else
    let s2 := (s1.sampleDemand a m rvx rvy).judgeSample a m
    .next ((s2.setFlag (Adr.SRV_STATUS a) Fld.SRV_STATUS_wr_permit (s2.permitFor a m)).writeMirror a)

/-- SETTLED: settle_cnt consecutive samples within settle_win make the loop settled (R149, R151). -/
def execSettled (a : Fin 4) (s : State) : Res :=
  if s.mode a = 1 ∧ s.fld (Adr.SRV_SETTLE a) Fld.SRV_SETTLE_settle_cnt ≤ (s.act a).servo.settleRun then
    let s1 := (s.setFlag (Adr.SRV_STATUS a) Fld.SRV_STATUS_settled true).modServo a (fun x => { x with inhibit := false })
    let v := (s.act a).servo
    .next (s1.setFlag (Adr.SRV_STATUS a) Fld.SRV_STATUS_wr_permit
      (s1.permitFor a ⟨s.flag (Adr.SRV_PES a) Fld.SRV_PES_valid, s.flag (Adr.SRV_PES a) Fld.SRV_PES_oob, v.lastValidPes⟩))
  else .next s

/-- BATTEN_GAIN_STEP: with gain_auto set, once A + B has been off its target for 16 samples and 16 samples after the last step, the batten AGC
steps toward it by one code of 1.5 dB, within 0 to 31, and 6 samples are invalid (R91, R100). -/
def execBattenGainStep (a : Fin 4) (s : State) : Res :=
  let c := s.fld (Adr.BTN_INVAL a) Fld.BTN_INVAL_gain_code
  let b := (s.act a).batten
  if !s.flag (Adr.BTN_CTRL a) Fld.BTN_CTRL_gain_auto || decide (b.gainRun < 16) || decide (b.gainSince < 16)
      || (b.gainUp && c == 31) || (!b.gainUp && c == 0) then .next s
  else
    let s1 := s.modBatten a (fun x => { x with gainRun := 0, gainSince := 0 })
    .next ((s1.setFld (Adr.BTN_INVAL a) Fld.BTN_INVAL_gain_code (if b.gainUp then c + 1 else c - 1)).openWindow a 2 6)

/-- INVALID_WINDOW_END: no invalid window is open any more (R100). -/
def execInvalidWindowEnd (a : Fin 4) (s : State) : Res :=
  let s1 := s.modBatten a (fun b => { b with winHead := 0, winGain := 0, winFilter := 0, order := [] })
  .next ((s1.setFld (Adr.BTN_INVAL a) Fld.BTN_INVAL_remaining 0).setFld (Adr.BTN_POS a) Fld.BTN_POS_cause 0)

/-! ## Supervisors (R153 to R157) -/

/-- What a trip of either supervisor does (R155). -/
def State.supervisorTrip (s : State) (a : Fin 4) : State :=
  let s1 := (((s.unsettle a).noPermit a).requestAbort a).countFld (Adr.SRV_CNT a) Fld.SRV_CNT_trips
  let recent := ((s.act a).servo.trips.filter (fun t => decide (s.now < t + 1000000000))) ++ [s.now]
  if 8 ≤ recent.length then (s1.modServo a (fun x => { x with trips := [] })).actEvent a 0x49
  else s1.modServo a (fun x => { x with trips := recent })

/-- FOLLOWING_ERROR_TRIP (R153). -/
def execFollowingErrorTrip (a : Fin 4) (s : State) : Res :=
  if s.mode a = 1 ∧ s.fld (Adr.SRV_LOOPCFG a) Fld.SRV_LOOPCFG_sup_sel ≠ 1
      ∧ s.fld (Adr.SRV_FELIM a) Fld.SRV_FELIM_fe_time ≤ (s.act a).servo.feRun then
    let s1 := (s.modServo a (fun x => { x with feRun := 0 })).setFlag (Adr.SRV_STICKY a) Fld.SRV_STICKY_fe_trip true
    .next ((s1.actEvent a 0x40).supervisorTrip a)
  else .next s

/-- OSCILLATION_TRIP (R154). -/
def execOscillationTrip (a : Fin 4) (s : State) : Res :=
  let sel := s.fld (Adr.SRV_LOOPCFG a) Fld.SRV_LOOPCFG_sup_sel
  if s.mode a = 1 ∧ (sel = 1 ∨ sel = 2) ∧ s.fld (Adr.SRV_OSC a) Fld.SRV_OSC_osc_count ≤ (s.act a).servo.oscCount then
    let s1 := (s.modServo a (fun x => { x with oscCount := 0 })).setFlag (Adr.SRV_STICKY a) Fld.SRV_STICKY_osc_trip true
    .next ((s1.actEvent a 0x41).supervisorTrip a)
  else .next s

/-- ISNS_MISMATCH (R156). -/
def execIsnsMismatch (a : Fin 4) (s : State) : Res :=
  if 64 ≤ (s.act a).servo.imRun then
    let s1 := (s.noPermit a).setFlag (Adr.SRV_STICKY a) Fld.SRV_STICKY_imismatch true
    .next ((s1.modServo a (fun x => { x with imRun := 0 })).actEvent a 0x4A)
  else .next s

/-- RV_SENSOR_DROP (R157). -/
def execRvSensorDrop (a : Fin 4) (y : Bool) (s : State) : Res :=
  let v := (s.act a).servo
  if 256 ≤ (if y then v.rvRunY else v.rvRunX) then
    let s1 := s.modServo a (fun x => if y then { x with rvDropY := true, rvRunY := 0 } else { x with rvDropX := true, rvRunX := 0 })
    .next ((s1.setFlag (Adr.SRV_STICKY a) Fld.SRV_STICKY_rv_fault true).actEvent a 0x48)
  else .next s

end Sys2Proof.Machine
end

