-- ==== Sys2Proof/Machine/Channel.lean ====
section
/-! DEFINITION. The read and write channel and the clock (03_read_write_channel.md): preamplifier faults and serial frames, clock
states, rafters, sync searches, fragments and parts, and decoded sectors. -/

namespace Sys2Proof.Machine

open Sys2Proof

/-! ## Preamplifier (R74 to R77) -/

/-- A serial frame: 16 bits, read bit, address and data, most significant first, and the time of its 16 clocks with one period of PSC_CLK
before and one after, PSC_CLK being 400 MHz ÷ (2 × (psc_div + 1)) (R75). -/
def State.pscFrame (s : State) (a : Fin 4) (head : Option Nat) (read : Bool) (addr data : Nat) : PscFrame :=
  { head := head, read := read, addr := addr, data := data
    word := b2n read * 32768 + addr % 128 * 256 + (if read then 0 else data % 256)
    ns := 90 * (s.fld (Adr.CHN_PSC_CFG a) Fld.CHN_PSC_CFG_psc_div + 1) }

/-- PREAMP_FAULT: write gate drops, the sectors in hand fail with code 7, the slice's media operations end (R77). -/
def execPreampFault (a : Fin 4) (s : State) : Res :=
  let s1 := (s.dropGate a).setFlag (Adr.CHN_STATUS a) Fld.CHN_STATUS_pflt true
  let s2 := s1.modAct a (fun x => { x with pfltHeld := true })
  let s3 := (s2.sectorError a 7 3).setFlag (Adr.CHN_STATUS a) Fld.CHN_STATUS_reading false
  .next ((s3.modSeq a (fun q => { q with running := none, armed := none })).endMediaOps a)

/-- PREAMP_FAULT_CLEAR: 1 ms after deassertion media operations may resume (R77), unless the track is being re-identified. -/
def execPreampFaultClear (a : Fin 4) (s : State) : Res :=
  let s1 := s.setFlag (Adr.CHN_STATUS a) Fld.CHN_STATUS_pflt false
  .next (s1.modAct a (fun x => { x with pfltHeld := false, ended := if s.mode a = 3 ∨ x.lost then x.ended else false }))

/-- PFLT_PERSIST_TIMEOUT: the actuator is lost (R245). -/
def execPfltPersistTimeout (a : Fin 4) (s : State) : Res :=
  if s.flag (Adr.CHN_STATUS a) Fld.CHN_STATUS_pflt then .next (s.actuatorLost a) else .next s

/-- Start a firmware frame, or let it wait behind the frame in progress and any head-select frame (R76). -/
def State.startFirmwareFrame (s : State) (a : Fin 4) (f : PscFrame) : State :=
  let s1 := s.setFlag (Adr.CHN_PSC_ACC a) Fld.CHN_PSC_ACC_busy true
  s1.modAct a (fun x => if x.psc.isNone then { x with psc := some f } else { x with pscFirmware := some f })

/-- A write of CHN_PSC_ACC: its RW and W1C fields, then go; refused while busy or for head_addr (R76). -/
def State.writePscAcc (s : State) (a : Fin 4) (v : Word) : State :=
  let adr := Adr.CHN_PSC_ACC a
  let busy := s.flag adr Fld.CHN_PSC_ACC_busy
  let s1 := match rowAt adr with | some (r, _) => s.setReg adr (writeMerge r.fields (s.reg adr) v) | none => s
  if getBits v Fld.CHN_PSC_ACC_go = 0 then s1
  else if busy || s1.fld adr Fld.CHN_PSC_ACC_addr == s1.fld (Adr.CHN_PSC_CFG a) Fld.CHN_PSC_CFG_head_addr then
    s1.setFlag adr Fld.CHN_PSC_ACC_refused true
  else
    s1.startFirmwareFrame a (s1.pscFrame a none (s1.flag adr Fld.CHN_PSC_ACC_rw) (s1.fld adr Fld.CHN_PSC_ACC_addr)
      (s1.fld adr Fld.CHN_PSC_ACC_wdata))

/-- PSC_FRAME_GO: a write of CHN_PSC_ACC with go set requests one frame (R76). -/
def execPscFrameGo (assoc : Nat) (a : Fin 4) (value : Word) (s : State) : Res :=
  let v := setBits value Fld.CHN_PSC_ACC_go 1
  .next (s.ownerReg assoc (Adr.CHN_PSC_ACC a) v (fun t => t.writePscAcc a v))

/-- The data byte of a head-select frame: head_base with the head field replaced (R76). -/
def State.headSelectData (s : State) (a : Fin 4) (h : Nat) : Nat :=
  let sh := s.fld (Adr.CHN_PSC_CFG a) Fld.CHN_PSC_CFG_head_shift
  (setBits (BitVec.ofNat 32 (s.fld (Adr.CHN_PSC_CFG a) Fld.CHN_PSC_CFG_head_base)) ⟨sh + 2, sh⟩ h).toNat

/-- The sequencer requests a head-select frame: it follows the frame in progress, ahead of any firmware frame that waits (R76). -/
def State.requestHead (s : State) (a : Fin 4) (h : Nat) : State :=
  let f := s.pscFrame a (some h) false (s.fld (Adr.CHN_PSC_CFG a) Fld.CHN_PSC_CFG_head_addr) (s.headSelectData a h)
  s.modAct a (fun x => if x.psc.isNone then { x with psc := some f } else { x with pscHead := some f })

/-- A head switch takes effect: the clock is lost, the AGCs acquire, no interval of the new surface is permitted yet, and a following loop takes
its track from the next rafter (R76, R80, R82, R93, R99, R132, R135, R149). -/
def State.headSwitch (s : State) (a : Fin 4) (h : Nat) : State :=
  let s1 := (s.setFld (Adr.CHN_STATUS a) Fld.CHN_STATUS_head h).setFld (Adr.SRV_TRACK a) Fld.SRV_TRACK_head h
  let s2 := (((s1.setClock a 0).forbidInterval a).unsettle a).noPermit a
  let zb := zoneOfTrack (s2.headZones a) (s2.track a)
  let s3 := s2.modAct a (fun x => { x with
    batten := { x.batten with bursts := [], needRafters := 2, needValid := true, needBoundary := true, zoneMove := none
                              hsUntil := s.now + 1000 * s.fld (Adr.CHN_CTRL a) Fld.CHN_CTRL_hs_settle
                              band := match zb with | some (_, z) => z.band | none => x.batten.band }
    rd0 := { x.rd0 with agc := .acquire }
    rd1 := { x.rd1 with agc := .acquire }
    servo := { x.servo with inBandSeen := false, firstAfterSwitch := s.mode a == 1, wrongTrack := none } })
  let s4 := match zb with | some (z, _) => s3.enterZone a z | none => s3
  (s4.openWindow a 1 48).loadEqualiser a

/-- Start the frame that goes next: head select first, then firmware (R76). -/
def State.nextFrame (s : State) (a : Fin 4) : State :=
  s.modAct a (fun x =>
    match x.pscHead with
    | some f => { x with psc := some f, pscHead := none }
    | none => { x with psc := x.pscFirmware, pscFirmware := none })

/-- PSC_FRAME_DONE: the frame in progress ends; read data is latched, a head-select frame takes effect (R75, R76). -/
def execPscFrameDone (a : Fin 4) (rdata : Byte) (s : State) : Res :=
  match (s.act a).psc with
  | none => .next s
  | some f =>
    let s1 := match f.head with
      | some h => (s.modAct a (fun x => { x with preamp := insertKey x.preamp f.addr f.data })).headSwitch a h
      | none =>
        let adr := Adr.CHN_PSC_ACC a
        let t := s.setFlag adr Fld.CHN_PSC_ACC_busy false
        if f.read then t.setFld adr Fld.CHN_PSC_ACC_rdata rdata.toNat
        else t.modAct a (fun x => { x with preamp := insertKey x.preamp f.addr f.data })
    .next (s1.nextFrame a)

/-! ## Clock states (R92 to R97) -/

/-- CLOCK_ACQUIRED: the PLL acquires, not before hs_settle after a head switch has passed, and the state enters LOCK (R93, R100). -/
def execClockAcquired (a : Fin 4) (s : State) : Res :=
  if s.clock a = 0 ∧ (s.act a).batten.hsUntil ≤ s.now then .next (s.setClock a 1) else .next s

/-- HOLD_TIMEOUT: a hold outside rafters of more than 8 µs makes the state LOST (R93). -/
def execHoldTimeout (a : Fin 4) (s : State) : Res :=
  if s.clock a = 3 then .next (s.setClock a 0) else .next s

/-- The slice ends its media operations under R97, and a loaded loop re-identifies (R137). -/
def State.rafterFailure (s : State) (a : Fin 4) : State :=
  let s1 := (s.endMediaOps a).actEvent a 0x08
  if s.mode a = 0 then s1 else s1.enterReident a

/-- CLOCK_LOST_TIMEOUT: LOST persists for one revolution (R97). -/
def execClockLostTimeout (a : Fin 4) (s : State) : Res :=
  if s.clock a = 0 then .next (s.rafterFailure a) else .next s

/-- PREDICTED_RAFTER_START: rafter cell 0 of a predicted rafter: no write gate stands over it, the data-cell count begins again, the clock
enters RHOLD, the interval's permission is open again, and a zone change in the same band applies (R53, R93 to R95, R98). -/
def execPredictedRafterStart (a : Fin 4) (s : State) : Res :=
  let s0 := s.dropGate a
  let s1 := if s.clock a = 1 ∨ s.clock a = 3 then s0.setClock a 2 else s0
  let s2 := s1.setFlag (Adr.BTN_CLK a) Fld.BTN_CLK_wg_permit false
  let mv := (s.act a).batten.zoneMove
  let s3 := s2.modBatten a (fun b =>
    { b with index := (b.index + 1) % 128, noPermit := false, accepted := false, zoneMove := none, cell := 0 })
  .next (match mv with | some z => s3.enterZone a z | none => s3)

/-- RAFTER_SYNC_CHECK: at rafter cell 64 the data-cell count is compared with C ÷ 25,600, and takes that value; a difference is a slip, reported of
the sector in hand (R94, R102). -/
def execRafterSyncCheck (a : Fin 4) (count : Nat) (s : State) : Res :=
  let due := s.cellsPerRev a / 25600
  let s0 := s.modBatten a (fun b => { b with cell := due })
  if count = due then .next s0
  else
    let s1 := ((s0.setFlag (Adr.BTN_CLK a) Fld.BTN_CLK_slip true).setClock a 0).forbidInterval a
    .next (s1.sectorError a 5 2)

/-- A rafter is not accepted (R97): counted, its interval not write-permitted; the third in a row ends media operations. sync says
whether its sync mark was found. -/
def State.rafterRejected (s : State) (a : Fin 4) (sync : Bool) : State :=
  let s1 := if sync then s else s.chanError a 1 2 false (s.head a) (s.track a) 0
  let s2 := s1.chanError a 2 3 false (s.head a) (s.track a) 0
  let cnt := Adr.BTN_RFCNT a
  let s3 := (s2.countFld cnt Fld.BTN_RFCNT_lost_total).countFld cnt Fld.BTN_RFCNT_consec
  let s4 := (s3.forbidInterval a).modBatten a (fun b => { b with accepted := false })
  if s4.fld cnt Fld.BTN_RFCNT_consec = 3 then s4.rafterFailure a else s4

/-- The rafter sync mark (R53). -/
def rafterMark : List Bool := bitsHigh 16 0xE591

/-- A rafter's sync mark is found in a window of cells that opens 24 cells before its expected place: within 24 cells of it, or anywhere while
re-identifying, with at most 2 cells in error (R55, R94, R137). -/
def State.rafterSynced (s : State) (a : Fin 4) (window : List Bool) : Bool :=
  match markIn rafterMark window 2 with
  | some k => decide (k ≤ 48) || s.mode a == 3
  | none => false

/-- RAFTER_LOST: the window of a rafter that is not accepted. -/
def execRafterLost (a : Fin 4) (window : List Bool) (s : State) : Res := .next (s.rafterRejected a (s.rafterSynced a window))

/-- The track, index and check of a rafter's 39 Manchester pairs (R54). -/
def rafterFields (cells : List (Bool × Bool)) : Option (Nat × Nat × Nat) :=
  if cells.length = 39 then (manchester cells).map (fun v => (grayDecode (v / 2 ^ 15), v / 2 ^ 8 % 128, v % 256)) else none

/-- A rafter is accepted: its track and index are taken, its bursts join the normalisation, and the loop uses it (R55, R89, R98,
R99, R134 to R137). -/
def State.acceptRafter (s : State) (a : Fin 4) (track index ba bb : Nat) : State :=
  let r := Adr.BTN_RAFTER a
  let predicted := (s.act a).batten.index
  let s1 := (s.setFld r Fld.BTN_RAFTER_track track).setFld r Fld.BTN_RAFTER_index index
  let s2 := s1.setFld (Adr.BTN_RFCNT a) Fld.BTN_RFCNT_consec 0
  let s3 := s2.modBatten a (fun b => { b with
    accepted := true
    bursts := (b.bursts ++ [(ba, bb)]).drop (b.bursts.length - 7)
    needRafters := b.needRafters - 1
    index := if s.mode a = 3 then index else b.index })
  let s4 := s3.latchCond a 2
  s4.loopRafter a predicted index track

/-- RAFTER_ACCEPTED: a rafter's sync window, Manchester cells and bursts; one that fails a check of R55 is not accepted. -/
def execRafterAccepted (a : Fin 4) (window : List Bool) (cells : List (Bool × Bool)) (burstA burstB : Nat) (s : State) : Res :=
  let synced := s.rafterSynced a window
  match rafterFields cells with
  | some (t, k, c) =>
    if synced ∧ c = (surfaceCheck (s.surface a) t k).toNat then .next (s.acceptRafter a t k burstA burstB)
    else .next (s.rafterRejected a synced)
  | none => .next (s.rafterRejected a synced)

/-- BURST_PHASE_CHECK: at rafter cell 174 the phase error of an accepted rafter is corrected and the interval's write permission settled (R95). -/
def execBurstPhaseCheck (a : Fin 4) (err : Int) (s : State) : Res :=
  let c := Adr.BTN_CLK a
  let s1 := s.setSFld c Fld.BTN_CLK_last_err err
  let b := (s.act a).batten
  if err.natAbs ≤ s.fld (Adr.BTN_CTRL a) Fld.BTN_CTRL_hold_err_max ∧ b.accepted then
    .next ((s1.setFlag c Fld.BTN_CLK_wg_permit (!b.noPermit)).modBatten a (fun b => { b with clockFix := err }))
  else .next ((s1.setClock a 0).forbidInterval a)

/-- REACQ_CHECK: the PLL phase is compared with the held phase; a large difference forces LOST, ends a part that is written at the end of
the fragment in hand, writes no further fragment of the interval and reports code 5, otherwise the rafter's hold ends (R93, R96). -/
def execReacqCheck (a : Fin 4) (diff : Int) (s : State) : Res :=
  if s.fld (Adr.BTN_CTRL a) Fld.BTN_CTRL_hold_err_max < diff.natAbs then
    let s1 := ((s.setClock a 0).forbidInterval a).modSeq a (fun q => { q with
      stopAtFragment := q.stopAtFragment || (match q.running with | some o => o.op == 4 && o.started | none => false) })
    .next (s1.sectorError a 5 3)
  else if s.clock a = 2 then .next (s.setClock a 1) else .next s

/-! ## Searches, fragments, parts (R60, R65, R66, R78, R79, R101, R109) -/

/-- Data may be accessed: no restriction of R98 or R99 applies, no preamplifier fault is held, media operations have not ended (R77, R98, R99). -/
def State.mayAccess (s : State) (a : Fin 4) : Bool := s.headSettled a && !(s.act a).pfltHeld && !(s.act a).ended

/-- A search of one kind starts, whether the channel's operation or armed behind it (R109). -/
def Sequencer.startSearch (q : Sequencer) (op : Nat) : Sequencer :=
  let go (o : ChanOp) : ChanOp := if o.op = op then { o with started := true } else o
  { q with running := q.running.map go, armed := q.armed.map go }

/-- RAFTER_PASSED: rafter cell 224; an armed resync search starts where data may be accessed (R99, R109, R110). -/
def execRafterPassed (a : Fin 4) (s : State) : Res :=
  let s1 := s.latchCond a 3
  .next (if s.mayAccess a then s1.modSeq a (fun q => q.startSearch 2) else s1)

/-- SECTOR_BOUNDARY: the data-cell count reaches TGT; the restriction of R99 that waits for a boundary ends, and an armed sector search starts where
data may be accessed (R98, R99, R109, R110). -/
def execSectorBoundary (a : Fin 4) (s : State) : Res :=
  let s1 := (s.latchCond a 5).modBatten a (fun b => { b with needBoundary := b.needBoundary && !(b.needRafters == 0 && !b.needValid) })
  .next (if s1.mayAccess a then s1.modSeq a (fun q => q.startSearch 1) else s1)

/-- WRITE_DATA_READY: the next fragment's write data is in the sequencer buffer (R110). -/
def execWriteDataReady (a : Fin 4) (s : State) : Res := .next (s.modSeq a (fun q => { q with dataReady := true }))

/-- Cells of part p of an entry: part 2 counts from its resync field (R65, R66). -/
def Entry.partLen (e : Entry) (p : Nat) : Nat := if p = 1 then e.len2 else e.len1

/-- Cells written of part p of an entry: the 64 cells of the gap at its sector's end are not (R60). -/
def Entry.written (e : Entry) (p : Nat) : Nat :=
  if e.len2 = 0 then e.len1 - 64 else if p = 1 then e.len2 - 64 else min e.len1 (e.len1 + e.len2 - 160)

/-- The cells of the interval between which the write gate of fragment f of a part is raised: from the lead before its first cell, for the first
fragment of the part, to the lag after the last cell written (R60, R66, R78). -/
def State.gateSpan (s : State) (a : Fin 4) (e : Entry) (p f : Nat) : Nat × Nat :=
  let first := if p = 1 then s.cellsPerRev a * 7 / 51200 else e.tgt
  let t := s.gateTimes a
  (first + 4096 * f - (if f = 0 then t.1 else 0), first + min (4096 * (f + 1)) (e.written p) + t.2)

/-- Raise write gate for a fragment when every condition of R79 holds; otherwise report what stops it. DESIGN CHOICE (log entry 131): a
fragment refused for a reason to which the spec gives no code is reported with 7 for a preamplifier fault, else 6 where the clock permits, else 5,
and the part ends with it. -/
def State.gateFragment (s : State) (a : Fin 4) : State :=
  if s.writePermitted a then
    let s1 := (s.setFlag (Adr.CHN_STATUS a) Fld.CHN_STATUS_wg_pin true).setFlag (Adr.CHN_STATUS a) Fld.CHN_STATUS_writing true
    let q := (s.act a).seq
    s1.modAct a (fun x => { x with gate := (s.runningEntry a).map (fun e => s.gateSpan a e q.part q.frag) })
  else
    let t := (s.dropGate a).modSeq a (fun q => { q with stopAtFragment := true })
    if s.flag (Adr.CHN_STATUS a) Fld.CHN_STATUS_pflt then t.sectorError a 7 3
    else if s.clockPermits a then t.sectorError a 6 3
    else t.sectorError a 5 3

/-- A channel operation becomes the running one. A search waits for its cell; a part that is read starts where data may be accessed, and one that
is written raises its gate (R77, R79, R99, R109). -/
def State.startOp (s : State) (a : Fin 4) (o : ChanOp) : State :=
  let go := o.started || o.op == 4 || (o.op == 3 && s.mayAccess a)
  let s1 := s.modSeq a (fun q => { q with
    running := some { o with started := go }
    stopAtFragment := false
    part := if 3 ≤ o.op then o.part else q.part
    frag := if 3 ≤ o.op then 0 else q.frag
    dataReady := if o.op = 4 then false else q.dataReady })
  if o.op = 3 ∧ go then
    (s1.setFlag (Adr.CHN_STATUS a) Fld.CHN_STATUS_reading true).modAct a (fun x => { x with llr := if o.part = 0 then [] else x.llr })
  else if o.op = 4 then s1.gateFragment a
  else s1

/-- The running operation ends: the armed one starts. -/
def State.endOp (s : State) (a : Fin 4) : State :=
  let s1 := (s.dropGate a).setFlag (Adr.CHN_STATUS a) Fld.CHN_STATUS_reading false
  match (s.act a).seq.armed with
  | none => s1.modSeq a (fun q => { q with running := none, stopAtFragment := false })
  | some o => (s1.modSeq a (fun q => { q with running := none, armed := none })).startOp a o

/-- The word of the equaliser's working copy that holds its filter and targets. -/
def State.eqCfg (s : State) (a : Fin 4) : Word := (s.act a).equal.getD 33 0

/-- ADC codes of reader r of a list of cells; D1 gives 0 while rd1_en is 0 (R81). -/
def State.readerCodes (s : State) (a : Fin 4) (r : Nat) (l : List (Int × Int)) : List Int :=
  if r = 0 then l.map (fun p => adcCode p.1)
  else if s.flag (Adr.CHN_CTRL a) Fld.CHN_CTRL_rd1_en then l.map (fun p => adcCode p.2) else l.map (fun _ => 0)

/-- Both readers act on the samples of some cells (R80, R81). -/
def State.readers (s : State) (a : Fin 4) (f : Reader → Nat → List Int → Reader) (l : List (Int × Int)) : State :=
  s.modAct a (fun x => { x with
    rd0 := f x.rd0 (agcTarget (s.eqCfg a) 0) (s.readerCodes a 0 l)
    rd1 := f x.rd1 (agcTarget (s.eqCfg a) 1) (s.readerCodes a 1 l) })

/-- SYNC_DECIDED: a search that has started closes its window, which opens sync_win cells before the expected place, over the cells of a preamble on
which AGC and timing acquired (R80, R81, R101, R109). -/
def execSyncDecided (a : Fin 4) (pre : List (Int × Int)) (window : List Bool) (s : State) : Res :=
  match (s.act a).seq.running with
  | none => .next s
  | some o =>
    if 3 ≤ o.op ∨ !o.started then .next s
    else
      let wh := if o.op = 1 then 0 else 1
      let win := s.fld (Adr.CHN_CTRL a) Fld.CHN_CTRL_sync_win
      let tol := s.fld (Adr.CHN_CTRL a) Fld.CHN_CTRL_sync_tol
      let s0 := s.readers a Reader.acquire (pre.take (if o.op = 1 then 64 else 48))
      let mark := (markIn (if o.op = 1 then sectorMark else resyncMark) window 4).filter (fun k => decide (k ≤ 2 * win))
      let found := match mark with | some k => decide (((k : Int) - win).natAbs ≤ tol) | none => false
      let s1 := if found then s0 else s0.sectorError a (if mark.isSome then 5 else 1) wh
      let s2 := s1.endOp a
      .next ((s2.modSeq a (fun q => { q with syncFound := found, searchWhere := wh })).latchCond a 7)

/-- FRAGMENT_DONE: a fragment of the running part ends; a stop asked for ends the part here, and another fragment of a part that is written raises its
own gate (R66, R79, R110, R119). -/
def execFragmentDone (a : Fin 4) (s : State) : Res :=
  let q := (s.act a).seq
  match q.running with
  | none => .next s
  | some o =>
    if o.op ≤ 2 ∨ !o.started then .next s
    else
      let s1 := s.modSeq a (fun q => { q with frag := min (q.frag + 1) 15 })
      if q.stopAtFragment then .next ((((s1.modSeq a (fun q => { q with armed := none })).endOp a).latchCond a 9).latchCond a 10)
      else if o.op ≠ 4 then .next (s1.latchCond a 9)
      else
        let more := match s.runningEntry a with | some e => decide (q.frag + 1 < fragments (e.partLen o.part)) | none => false
        let s2 := s1.modSeq a (fun q => { q with dataReady := false })
        .next ((if more then s2.gateFragment a else s2.dropGate a).latchCond a 9)

/-- The codeword cells of a part are read: AGC and timing track, the equaliser and the detector give the ratios of its bits, and the working copy
adapts while adapt_en is 1 (R80 to R83). -/
def State.readCells (s : State) (a : Fin 4) (l : List (Int × Int)) : State :=
  let x := s.act a
  let w := s.eqCfg a
  let x0 := s.readerCodes a 0 l
  let x1 := s.readerCodes a 1 l
  let d1 := signed 5 (getBits w Fld.EQ_CFG_d1_delay)
  let y := equalise x.taps0 x.taps1 d1 x0 x1 l.length
  let g := targetOf (x.equal.getD 32 0)
  let llr := detect g y
  let err := decisionError g llr y
  let s1 := (s.readers a Reader.track l).modAct a (fun x => { x with llr := x.llr ++ llr })
  if s.flag (Adr.CHN_CTRL a) Fld.CHN_CTRL_adapt_en then
    s1.modAct a (fun z => { z with taps0 := adaptTaps x.taps0 x0 0 err l.length, taps1 := adaptTaps x.taps1 x1 d1 err l.length })
  else s1

/-- The codeword that a write entry records: its data scrambled, its tag, and parity (R60 to R64). -/
def State.entryCodeword (s : State) (e : Entry) : List Byte :=
  codeword (scramble e.media (fitBytes e.data s.lbaSize)) (tagBytes e.media s.media.pass.wsn (kindOf e.media) 0)

/-- PART_DONE: the running sector part ends, over the samples of its codeword cells where it is read (R60, R66, R80 to R83, R88, R110). -/
def execPartDone (a : Fin 4) (samples : List (Int × Int)) (s : State) : Res :=
  match (s.act a).seq.running with
  | none => .next s
  | some o =>
    if o.op ≤ 2 ∨ !o.started then .next s
    else
      let w := s.fld (Adr.CHN_WRCFG a)
      let s1 := if o.op = 3 then s.readCells a samples
        else match s.runningEntry a with
          | some e => s.modAct a (fun x => { x with
              wd := transitions (w Fld.CHN_WRCFG_pc1) (w Fld.CHN_WRCFG_pc2) (partPattern (s.entryCodeword e) o.part e.len1) })
          | none => s
      .next ((s1.endOp a).latchCond a 10)

/-! ## Decoded sectors (R62, R86, R87) -/

/-- Take the sector of media address x out of the decoder. -/
def State.leaveDecoder (s : State) (a : Fin 4) (x : Nat) : State :=
  s.modAct a (fun y => { y with decoder := y.decoder.filter (fun p => p.media != x) })

/-- The number that stands for the course parity sector at a physical address where a media address is asked for. -/
def parityNo (phys : Nat) : Nat := 2 ^ 64 + phys

/-- The sector of media address x that the decoder works on: one it holds, or one that a read entry of the list has read. -/
def State.decoding (s : State) (a : Fin 4) (x : Nat) : Option DecPlace :=
  match (s.act a).decoder.find? (fun p => p.media == x) with
  | some p => some p
  | none => ((s.act a).seq.list.find? (fun e => !e.write && e.media == x && !e.returned && (e.outcome == none || e.outcome == some 0))).map
      (fun e => { media := x, head := e.head, track := e.track, sector := e.sector, iters := 0 })

/-- The global iterations a sector may have (R87). -/
def State.maxGlobal (s : State) (a : Fin 4) : Nat := s.fld (Adr.CHN_CTRL a) Fld.CHN_CTRL_max_global

/-- SECTOR_DECODED: after some global iterations the decided bits, in error at some codeword bits, have a zero syndrome; the tag is checked and the data
delivered, or code 4 reported (R84 to R87, R226). -/
def execSectorDecoded (a : Fin 4) (media iterations : Nat) (errors : List Nat) (s : State) : Res :=
  match s.decoding a media, s.expectedAt media with
  | some p, some (phys, seed, kind) =>
    match s.recordedAt phys with
    | none => .next s
    | some r =>
      let w := decided r errors
      if iterations = 0 ∨ s.maxGlobal a < iterations ∨ !codeOk w then .next s
      else
        let bytes := beBytes r.length w
        let s1 := (s.leaveDecoder a media).countFld (Adr.CHN_DECSTAT a)
          (if iterations ≤ 1 then Fld.CHN_DECSTAT_first else Fld.CHN_DECSTAT_multi)
        if tagMatches seed kind ((bytes.drop s.lbaSize).take 16) then .next (s1.deliver media (scramble seed (bytes.take s.lbaSize)))
        else .next ((s1.chanError a 4 3 false p.head p.track p.sector).erase media)
  | _, _ => .next s

/-- A held sector does not converge, by max_global or by a budget stop: code 3, and its samples pass to recovery (R87, R226). -/
def State.noConvergence (s : State) (a : Fin 4) (p : DecPlace) (budget : Bool) : State :=
  ((s.leaveDecoder a p.media).chanError a 3 3 budget p.head p.track p.sector).erase p.media

/-- LDPC_NO_CONVERGENCE: a held sector reaches max_global (R87). -/
def execLdpcNoConvergence (a : Fin 4) (media : Nat) (s : State) : Res :=
  match s.decoding a media with
  | none => .next s
  | some p => .next (s.noConvergence a p false)

/-- A held sector after a sector time: 4 more global iterations, as far as max_global, each with ldpc_local layered ones (R87). -/
def State.iterate (s : State) (a : Fin 4) (p : DecPlace) : DecPlace :=
  let n := min (p.iters + 4) (s.maxGlobal a)
  { p with iters := n, layered := p.layered + (n - p.iters) * s.fld (Adr.CHN_CTRL a) Fld.CHN_CTRL_ldpc_local }

/-- A sector that was read is handed to the decoder, but one reported with code 1, 5 or 7 is not decoded (R102): with all 16 places taken the held
sector with most iterations, the oldest between equals, is stopped (R87). -/
def State.handToDecoder (s : State) (a : Fin 4) (e : Entry) : State :=
  if e.write ∨ e.code = 1 ∨ e.code = 5 ∨ e.code = 7 then s
  else
    let l := (s.act a).decoder
    let s1 := if l.length < 16 then s
      else
        match l.foldl (fun (b : Option DecPlace) p => match b with
          | none => some p
          | some q => if q.iters < p.iters then some p else some q) none with
        | some p => s.noConvergence a p true
        | none => s
    s1.modAct a (fun x => { x with decoder := x.decoder.map (s.iterate a) ++
      [{ media := e.media, head := e.head, track := e.track, sector := e.sector, iters := 0, llr := x.llr }] })

end Sys2Proof.Machine
end

