-- ==== Sys2Proof/Machine/Sequencer.lean ====
section
/-! DEFINITION. The formatter sequencers (04_formatter_sequencer.md): the control store, one microword, aborts, interrupts, and
the takeover by the follow. -/

namespace Sys2Proof.Machine

open Sys2Proof

/-! ## Control store (R105 to R108, R114, R116) -/

/-- The fields of a nano-word (R108). -/
structure Nano where
  seq : Nat := 0
  ways : Nat := 0
  c3 : Nat := 0
  c2 : Nat := 0
  c1 : Nat := 0
  c0 : Nat := 0
  waitEn : Bool := false
  waitPol : Bool := false
  waitSel : Nat := 0
  abortPt : Bool := false
  chnOp : Nat := 0
  cntOp : Nat := 0
  listOp : Nat := 0
  code : Nat := 0
  irqCc : Bool := false
  flagSet : Nat := 0
  flagClr : Nat := 0
  literal : Nat := 0
deriving DecidableEq, Repr

/-- Bits hi to lo of a nano-word. -/
def nanoBits (w : BitVec 128) (hi lo : Nat) : Nat := w.toNat / 2 ^ lo % 2 ^ (hi + 1 - lo)

/-- A nano-word's fields. -/
def decodeNano (w : BitVec 128) : Nano :=
  { seq := nanoBits w 127 126, ways := nanoBits w 125 124, c3 := nanoBits w 123 119, c2 := nanoBits w 118 114
    c1 := nanoBits w 113 109, c0 := nanoBits w 108 104, waitEn := nanoBits w 103 103 == 1, waitPol := nanoBits w 102 102 == 1
    waitSel := nanoBits w 101 97, abortPt := nanoBits w 96 96 == 1, chnOp := nanoBits w 95 92, cntOp := nanoBits w 91 89
    listOp := nanoBits w 88 86, code := nanoBits w 85 82, irqCc := nanoBits w 81 81 == 1, flagSet := nanoBits w 80 77
    flagClr := nanoBits w 76 73, literal := nanoBits w 63 32 }

/-- Whether an op code is reserved (R108). -/
def Nano.reserved (n : Nano) : Bool := decide (8 ≤ n.chnOp) || decide (5 ≤ n.cntOp) || decide (5 ≤ n.listOp)

/-- The ROM routine for split read entries: nano-word and next address of each of its microwords (R108, the split-sector read
routine table). -/
def splitRead (pc : Nat) : Option (Nano × Nat) :=
  match pc with
  | 0x400 => some ({ seq := 2, c0 := 8, waitEn := true, waitPol := true, waitSel := 7, abortPt := true }, 0x402)
  | 0x402 => some ({ seq := 1, code := 1, listOp := 3 }, 0x380)
  | 0x403 => some ({ chnOp := 3, cntOp := 2 }, 0)
  | 0x404 => some ({ waitEn := true, waitPol := true, waitSel := 9, abortPt := true, cntOp := 3 }, 0)
  | 0x405 => some ({ seq := 2, c0 := 11 }, 0x406)
  | 0x406 => some ({ seq := 1 }, 0x404)
  | 0x407 => some ({ waitEn := true, waitPol := true, waitSel := 3, abortPt := true, chnOp := 2 }, 0)
  | 0x408 => some ({ seq := 2, c0 := 8, waitEn := true, waitPol := true, waitSel := 7, abortPt := true }, 0x40A)
  | 0x40A => some ({ seq := 1, code := 1, listOp := 3 }, 0x380)
  | 0x40B => some ({ chnOp := 3, cntOp := 2 }, 0)
  | 0x40C => some ({ listOp := 1, cntOp := 4, chnOp := 1 }, 0)
  | 0x40D => some ({ waitEn := true, waitPol := true, waitSel := 9, abortPt := true, cntOp := 3 }, 0)
  | 0x40E => some ({ seq := 2, c0 := 11 }, 0x410)
  | 0x410 => some ({ seq := 1 }, 0x40D)
  | 0x411 => some ({ seq := 1, chnOp := 5, listOp := 2 }, 0x400)
  | _ => none

/-- A patch memory word of the active set. -/
def State.patchWord (s : State) (a : Fin 4) (w : Nat) : Nat := (s.reg (Adr.FSQ_PMEM a w)).toNat

/-- The address a fetch from pc goes to: the patch of the lowest-numbered match register that names it (R116). -/
def State.matched (s : State) (a : Fin 4) (pc : Nat) : Nat :=
  if 0x1800 ≤ pc then pc
  else
    match (List.range 32).find? (fun m => s.flag (Adr.FSQ_MATCH a m) Fld.FSQ_MATCH_en
        && s.fld (Adr.FSQ_MATCH a m) Fld.FSQ_MATCH_rom_addr == pc) with
    | some m => s.fld (Adr.FSQ_MATCH a m) Fld.FSQ_MATCH_patch_addr
    | none => pc

/-- The nano-word of an index: ROM, patch, or reserved (R105, R114). -/
def State.nanoAt (s : State) (a : Fin 4) (i : Nat) : Option Nano :=
  if i < 0x400 then some (decodeNano (Config.romNano i))
  else if i < 0x480 then
    let w (j : Nat) : Nat := s.patchWord a (1536 + 4 * (i - 0x400) + j)
    some (decodeNano (BitVec.ofNat 128 (w 0 + w 1 * 2 ^ 32 + w 2 * 2 ^ 64 + w 3 * 2 ^ 96)))
  else none

/-- The nano-word and next-address field a fetch gives; none from a reserved address or index (R105). -/
def State.fetchMicro (s : State) (a : Fin 4) (pc : Nat) : Option (Nano × Nat) :=
  let p := s.matched a pc
  if p < 0x1800 then
    match splitRead p with
    | some r => some r
    | none =>
      let w := (Config.romMicro p).toNat
      (s.nanoAt a (w / 2 ^ 13)).map (fun n => (n, w % 2 ^ 13))
  else if p < 0x1E00 then
    let w := s.patchWord a (p - 0x1800)
    (s.nanoAt a (w / 2 ^ 13 % 2 ^ 11)).map (fun n => (n, w % 2 ^ 13))
  else none

/-! ## Conditions (R110) -/

/-- The current entry. -/
def Sequencer.current (q : Sequencer) : Option Entry := q.cur.bind (fun i => q.list[i]?)

/-- Whether a condition select names an event (R110). -/
def isEventCond (k : Nat) : Bool := k == 2 || k == 3 || k == 5 || k == 7 || k == 9 || k == 10

/-- The value of a condition select (R110). -/
def State.condition (s : State) (a : Fin 4) (k : Nat) : Bool :=
  let q := (s.act a).seq
  let st := Adr.FSQ_STATUS a
  if isEventCond k then bitOf q.latches k
  else
    match k with
    | 1 => true
    | 4 => s.clock a == 1 || s.clock a == 2
    | 6 => s.writePermitted a
    | 8 => q.syncFound
    | 11 => q.cntA == 0
    | 12 => q.list.all (fun e => e.outcome.isSome || e.returned)
    | 13 => match q.current with | some e => e.write | none => false
    | 14 => match q.current with | some e => e.len2 != 0 | none => false
    | 15 => s.headSettled a
    | 16 => s.clock a == 0
    | 17 => s.flag (Adr.CHN_STATUS a) Fld.CHN_STATUS_pflt
    | 18 => (s.act a).servo.inhibit
    | 19 => decide ((s.act a).decoder.length < 16)
    | 20 => q.dataReady
    | 21 => s.flag st Fld.FSQ_STATUS_irq_pend
    | 22 => s.flag st Fld.FSQ_STATUS_abort_pend
    | 23 => bitOf q.flags 0
    | 24 => bitOf q.flags 1
    | 25 => bitOf q.flags 2
    | 26 => bitOf q.flags 3
    | _ => false

/-! ## Events, aborts and takeover (R117 to R126) -/

/-- Record a sequencer event: FSQ_ERR and the event at base + 0x60 + k (R127). -/
def State.seqEvent (s : State) (a : Fin 4) (k : Nat) : State :=
  let e := Adr.FSQ_ERR a
  let s1 := s.setReg e (s.reg e ||| BitVec.ofNat 32 (2 ^ k))
  let s2 := if s1.fld e Fld.FSQ_ERR_first = 0 then s1.setFld e Fld.FSQ_ERR_first (0x60 + k) else s1
  s2.actEvent a (0x60 + k)

/-- The state at an abort point is copied to the follow and shown in FSQ_CKPT (R117). -/
def State.checkpoint (s : State) (a : Fin 4) : State :=
  let q := (s.act a).seq
  let k := Adr.FSQ_CKPT a
  let w := setBits (setBits (setBits (setBits 0 Fld.FSQ_CKPT_entry (q.cur.getD 0)) Fld.FSQ_CKPT_part q.part)
    Fld.FSQ_CKPT_frag (min q.frag 9)) Fld.FSQ_CKPT_addr q.pc
  (s.setReg k w).modSeq a (fun q => { q with ckpt :=
    { addr := q.pc, cntA := q.cntA, tgt := q.tgt, flags := q.flags, cur := q.cur, look := q.look, list := q.list
      part := q.part, frag := q.frag, running := q.running, armed := q.armed, latches := q.latches, syncFound := q.syncFound } })

/-- Save where a request was taken (R117). -/
def State.saveResume (s : State) (a : Fin 4) (cause addr : Nat) : State :=
  (s.setFld (Adr.FSQ_RESUME a) Fld.FSQ_RESUME_cause cause).setFld (Adr.FSQ_RESUME a) Fld.FSQ_RESUME_addr addr

/-- chn_op 0x7: the part in hand ends with its fragment, and nothing else starts. -/
def Sequencer.stopChannel (q : Sequencer) : Sequencer :=
  { q with
    armed := none
    running := q.running.bind (fun o => if o.op ≤ 2 ∨ !o.started then none else some o)
    stopAtFragment := match q.running with | some o => decide (3 ≤ o.op) && o.started | none => false }

/-- Every unfinished entry goes back to the control core. -/
def Sequencer.returnAll (q : Sequencer) : Sequencer :=
  { q with list := q.list.map (fun e => if e.outcome.isSome then e else { e with returned := true }), cur := none, look := none }

/-- The outcome of an entry marked failed: its posted code, or 8 where none is posted. -/
def Entry.failure (e : Entry) : Nat := if e.code = 0 then 8 else e.code

/-- Mark the current entry failed with its posted code. -/
def Sequencer.failCurrent (q : Sequencer) : Sequencer :=
  match q.cur with
  | none => q
  | some i => { q with list := q.list.modify i (fun e =>
      if e.outcome.isSome then e else { e with outcome := some e.failure, returned := true }) }

/-- What the ROM routines at the abort and takeover vectors do: the channel stops at the end of its fragment, the entry in progress fails, the
unfinished ones go back, and the idle loop is entered (R119, R125). -/
def Sequencer.giveUp (q : Sequencer) : Sequencer := { (q.failCurrent.returnAll).stopChannel with pc := 0 }

/-- The lead goes to a vector: a patch that a match register names runs from it (R106, R116); the ROM routine has its effect f at once, which ends
in the idle loop (log entry 155). -/
def State.enterVector (s : State) (a : Fin 4) (vector : Nat) : State :=
  let st := Adr.FSQ_STATUS a
  if s.matched a vector = vector then (s.setFlag st Fld.FSQ_STATUS_idle true).modSeq a Sequencer.giveUp
  else (s.setFlag st Fld.FSQ_STATUS_idle false).modSeq a (fun q => { q with pc := vector, waitSince := none })

/-- An abort is taken at the present microword: the lead goes to the abort vector (R117, R119). -/
def State.takeAbort (s : State) (a : Fin 4) : State :=
  let s1 := (s.checkpoint a).saveResume a 2 (s.act a).seq.pc
  ((s1.setFlag (Adr.FSQ_STATUS a) Fld.FSQ_STATUS_abort_pend false).setFlag (Adr.FSQ_STATUS a) Fld.FSQ_STATUS_in_irq false).enterVector a 0x18

/-- An interrupt is taken: the lead goes to the interrupt vector, whose ROM routine issues no channel operation and returns to the microword at which
it was taken (R117, R120); of a patch there the routine runs until its return. -/
def State.takeInterrupt (s : State) (a : Fin 4) : State :=
  let st := Adr.FSQ_STATUS a
  let s1 := ((s.checkpoint a).saveResume a 1 (s.act a).seq.pc).setFlag st Fld.FSQ_STATUS_irq_pend false
  if s.matched a 0x10 = 0x10 then s1
  else ((s1.setFlag st Fld.FSQ_STATUS_in_irq true).setFlag st Fld.FSQ_STATUS_idle false).modSeq a (fun q => { q with pc := 0x10, waitSince := none })

/-- A return from an interrupt routine, to the address in FSQ_RESUME (R108, R120). -/
def State.returnIrq (s : State) (a : Fin 4) : State :=
  let pc := s.fld (Adr.FSQ_RESUME a) Fld.FSQ_RESUME_addr
  ((s.setFlag (Adr.FSQ_STATUS a) Fld.FSQ_STATUS_in_irq false).setFlag (Adr.FSQ_STATUS a) Fld.FSQ_STATUS_idle (pc == 0)).modSeq a
    (fun q => { q with pc := pc })

/-- The status field of sequencer i: 0 lead, 1 follow, 2 failed, 3 off. -/
def seqField (i : Nat) : Fld := if i = 0 then Fld.FSQ_STATUS_seq0 else Fld.FSQ_STATUS_seq1

/-- A restart of the format function is refused for its patch (R115). -/
def State.patchRefused (s : State) (a : Fin 4) : State := (s.setFlag (Adr.FSQ_PATCH a) Fld.FSQ_PATCH_crc_fail true).seqEvent a 3

/-- Two enabled match registers hold the same rom_addr (R116). -/
def State.patchTwice (s : State) (a : Fin 4) : Bool :=
  let on (m : Nat) : Bool := s.flag (Adr.FSQ_MATCH a m) Fld.FSQ_MATCH_en
  let addr (m : Nat) : Nat := s.fld (Adr.FSQ_MATCH a m) Fld.FSQ_MATCH_rom_addr
  (List.range 32).any (fun m => (List.range m).any (fun n => on m && on n && addr m == addr n))

/-- FSQ_PATCH.patch_en and dup follow the match registers of the active set. -/
def State.syncPatch (s : State) (a : Fin 4) : State :=
  let on := (List.range 32).any (fun m => s.flag (Adr.FSQ_MATCH a m) Fld.FSQ_MATCH_en)
  (s.setFlag (Adr.FSQ_PATCH a) Fld.FSQ_PATCH_patch_en on).setFlag (Adr.FSQ_PATCH a) Fld.FSQ_PATCH_dup (s.patchTwice a)

/-- follow_en turns a follow off, or a follow that is off on (R123). -/
def State.syncFollow (s : State) (a : Fin 4) : State :=
  let on := s.flag (Adr.FSQ_CTRL a) Fld.FSQ_CTRL_follow_en
  let st := Adr.FSQ_STATUS a
  let step (s : State) (i : Nat) : State :=
    let q := s.fld st (seqField i)
    if on && q == 3 then s.setFld st (seqField i) 1 else if !on && q == 1 then s.setFld st (seqField i) 3 else s
  step (step s 0) 1

/-- The sequencer that is the lead. -/
def State.lead (s : State) (a : Fin 4) : Option Nat :=
  if s.fld (Adr.FSQ_STATUS a) Fld.FSQ_STATUS_seq0 = 0 then some 0
  else if s.fld (Adr.FSQ_STATUS a) Fld.FSQ_STATUS_seq1 = 0 then some 1 else none

/-- The lead is faulty: the channel ends with its fragment and the follow takes over at the takeover vector with the state of the last abort point,
or the actuator is lost (R125, R126). -/
def State.leadFaulty (s : State) (a : Fin 4) : State :=
  match s.lead a with
  | none => s
  | some i =>
    let s1 := s.setFld (Adr.FSQ_STATUS a) (seqField i) 2
    if s.fld (Adr.FSQ_STATUS a) (seqField (1 - i)) = 1 then
      let k := (s.act a).seq.ckpt
      let s2 := (s1.setFld (Adr.FSQ_STATUS a) (seqField (1 - i)) 0).saveResume a 3 k.addr
      let s3 := s2.modSeq a (fun q =>
        { q with cntA := k.cntA, tgt := k.tgt, flags := k.flags, cur := k.cur, look := k.look, latches := k.latches
                 syncFound := k.syncFound, list := k.list ++ q.list.drop k.list.length, part := k.part, frag := k.frag }.stopChannel)
      ((s3.setFlag (Adr.FSQ_STATUS a) Fld.FSQ_STATUS_in_irq false).enterVector a 0x20).seqEvent a 0
    else
      ((s1.endMediaOps a).seqEvent a 2).actuatorLost a

/-- LEAD_FAULT. -/
def execLeadFault (a : Fin 4) (s : State) : Res := .next (s.leadFaulty a)

/-- FOLLOW_FAULT: service continues without a spare (R126). -/
def execFollowFault (a : Fin 4) (s : State) : Res :=
  match s.lead a with
  | none => .next s
  | some i =>
    if s.fld (Adr.FSQ_STATUS a) (seqField (1 - i)) = 1 then
      .next ((s.setFld (Adr.FSQ_STATUS a) (seqField (1 - i)) 2).seqEvent a 1)
    else .next s

/-- SEQUENCER_ABORT_REQUEST (R117). -/
def execSequencerAbortRequest (a : Fin 4) (s : State) : Res := .next (s.requestAbort a)

/-- SEQUENCER_INTERRUPT_REQUEST (R117). -/
def execSequencerInterruptRequest (a : Fin 4) (s : State) : Res :=
  .next (s.setFlag (Adr.FSQ_STATUS a) Fld.FSQ_STATUS_irq_pend true)

/-- WAIT_LIMIT_EXPIRY: a wait has lasted longer than wait_limit ms, and an abort is taken at the microword that waits (R113). -/
def execWaitLimitExpiry (a : Fin 4) (s : State) : Res :=
  let limit := s.fld (Adr.FSQ_CTRL a) Fld.FSQ_CTRL_wait_limit * 1000000
  match (s.act a).seq.waitSince with
  | some t => .next (if t + limit ≤ s.now then (s.takeAbort a).seqEvent a 5 else s)
  | none => .next s

/-- ABORT_POINT_MONITOR: no abort point came within 2.2 µs of a pending request; the lead is faulty (R122, R124). -/
def execAbortPointMonitor (a : Fin 4) (s : State) : Res :=
  let st := Adr.FSQ_STATUS a
  if s.flag st Fld.FSQ_STATUS_abort_pend ∨ s.flag st Fld.FSQ_STATUS_irq_pend then .next ((s.seqEvent a 4).leadFaulty a)
  else .next s

/-! ## One microword (R111, R112) -/

/-- list_op 0b001: the next unfinished entry goes to the look-ahead slot; with no current entry it is the current one too. -/
def Sequencer.fetchNext (q : Sequencer) : Sequencer :=
  let from_ := match q.cur with | some i => i + 1 | none => 0
  let open_ (i : Nat) : Bool := match q.list[i]? with | some e => e.outcome.isNone && !e.returned | none => false
  let k := firstFrom from_ q.list.length open_
  { q with look := k, cur := match q.cur with | some i => some i | none => k }

/-- The part a microword counts: the one it begins, else the one begun or armed last (R108). -/
def Sequencer.countedPart (q : Sequencer) (n : Nano) : Nat :=
  if n.chnOp = 3 ∨ n.chnOp = 4 then q.nextPart
  else match q.armed, q.running with
    | some o, r => if 3 ≤ o.op then o.part else (match r with | some p => if 3 ≤ p.op then p.part else q.part | none => q.part)
    | none, some p => if 3 ≤ p.op then p.part else q.part
    | none, none => q.part

/-- The length of a part of the current entry (R66). -/
def Sequencer.partLen (q : Sequencer) (p : Nat) : Nat := match q.current with | some e => e.partLen p | none => 0

/-- cnt_op (R108). -/
def Sequencer.count (q : Sequencer) (n : Nano) : Sequencer :=
  match n.cntOp with
  | 1 => { q with cntA := n.literal }
  | 2 => { q with cntA := fragments (q.partLen (q.countedPart n)) }
  | 3 => { q with cntA := q.cntA - 1 }
  | 4 => { q with tgt := match q.look.bind (fun i => q.list[i]?) with | some e => e.tgt | none => q.tgt }
  | _ => q

/-- The look-ahead entry becomes the current one. -/
def Sequencer.promote (q : Sequencer) : Sequencer :=
  { q with cur := if q.look = q.cur then none else q.look, look := none, part := 0, frag := 0, nextPart := 0 }

/-- list_op 0b010 to 0b100, with the code posted before any promotion (R111). -/
def Sequencer.listOp (q : Sequencer) (n : Nano) (now : Nat) : Sequencer :=
  let i := q.cur.getD q.list.length
  let q1 := if n.code = 0 then q else q.post i n.code now
  match n.listOp with
  | 2 => (q1.finish i 0).promote
  | 3 => (q1.finish i (match q1.list[i]? with | some e => e.failure | none => n.code)).promote
  | 4 => q1.returnAll
  | _ => q1

/-- The channel operation a microword starts or arms: the latches of its events are cleared (R110), and it is the channel's at once when none runs. A
sector search armed after its TGT has passed in the present interval is not started (R109). A resync search, and a part that is written, leave the
entry's second part to the part operation that follows. -/
def State.armOp (s : State) (a : Fin 4) (op cell : Nat) : State :=
  let q := (s.act a).seq
  let i := if op = 1 then (match q.look with | some k => k | none => q.cur.getD q.list.length) else q.cur.getD q.list.length
  let clear := if op ≤ 2 then 2 ^ 7 else 2 ^ 9 + 2 ^ 10
  let s0 := s.modSeq a (fun q => { q with
    latches := q.latches &&& (2 ^ 32 - 1 - clear), nextPart := if op = 2 ∨ op = 4 then 1 else q.nextPart })
  let o : ChanOp := { op := op, entry := i, started := false, part := q.nextPart }
  let here : Bool := match q.list[i]? with | some e => e.interval == (s.act a).batten.index | none => true
  if op = 1 ∧ here ∧ q.tgt < cell then
    let t := match q.list[i]? with
      | some e =>
        let t1 := (s0.chanError a 1 0 false e.head e.track e.sector).modSeq a (fun q => q.post i 1 s.now)
        if e.write then t1 else t1.erase e.media
      | none => s0
    (t.modSeq a (fun q => { q with syncFound := false })).latchCond a 7
  else if q.running.isNone then s0.startOp a o
  else s0.modSeq a (fun q => { q with armed := some o })

/-- chn_op (R108). -/
def State.channelOp (s : State) (a : Fin 4) (op cell : Nat) : State :=
  match op with
  | 0 => s
  | 5 => match (s.act a).seq.current with | some e => s.handToDecoder a e | none => s
  | 6 => match (s.act a).seq.current with | some e => s.requestHead a e.head | none => s
  | 7 => s.modSeq a Sequencer.stopChannel
  | _ => s.armOp a op cell

/-- The next address (R112): conditions up to the branch width are OR'd into next. -/
def nextAddress (n : Nano) (next pc : Nat) (c : Nat → Bool) : Nat :=
  if n.seq = 1 then next
  else if n.seq = 2 then
    let b (j k : Nat) : Nat := if j ≤ n.ways then b2n (c k) * 2 ^ j else 0
    next ||| b 0 n.c0 ||| b 1 n.c1 ||| b 2 n.c2 ||| b 3 n.c3
  else (pc + 1) % 2 ^ 13

/-- Event latches a microword consumes: the one its wait selects, and those its branch selects when they are set. -/
def consumed (n : Nano) (c : Nat → Bool) : Nat :=
  let one (k : Nat) (on : Bool) : Nat := if isEventCond k && on then 2 ^ k else 0
  let br (j k : Nat) : Nat := if n.seq = 2 ∧ j ≤ n.ways then one k (c k) else 0
  one n.waitSel n.waitEn ||| br 0 n.c0 ||| br 1 n.c1 ||| br 2 n.c2 ||| br 3 n.c3

/-- Steps 3 to 6 of R111. -/
def State.performMicro (s : State) (a : Fin 4) (n : Nano) (next cell : Nat) : State :=
  let c := s.condition a
  let pc := (s.act a).seq.pc
  let gone := consumed n c
  let s1 := s.modSeq a (fun q => (if n.listOp = 1 then q.fetchNext else q).count n)
  let s2 := s1.channelOp a n.chnOp cell
  let dest := nextAddress n next pc c
  let s3 := s2.modSeq a (fun q =>
    let r := q.listOp n s.now
    { r with flags := (r.flags &&& (15 - n.flagClr % 16)) ||| n.flagSet % 16, irqCc := r.irqCc || n.irqCc
             latches := r.latches &&& (2 ^ 32 - 1 - gone), pc := dest, waitSince := none })
  if n.seq = 3 then s3.returnIrq a else s3.setFlag (Adr.FSQ_STATUS a) Fld.FSQ_STATUS_idle (dest == 0)

/-- Whether a channel operation must wait for the one already armed, which a search that has not started is too (R109). -/
def Sequencer.stalls (q : Sequencer) (n : Nano) : Bool :=
  decide (1 ≤ n.chnOp) && decide (n.chnOp ≤ 4)
    && (q.armed.isSome || (match q.running with | some o => decide (o.op ≤ 2) && !o.started | none => false))

/-- At an abort point the sequencer sees an off-track write cut or a preamplifier fault and ends the part that is written (R118; log entry
143). -/
def State.endCut (s : State) (a : Fin 4) : State :=
  match (s.act a).seq.running with
  | some o =>
    if o.op = 4 ∧ (s.condition a 17 ∨ s.condition a 18) then
      (((s.modSeq a (fun q => { q with armed := none })).endOp a).latchCond a 9).latchCond a 10
    else s
  | none => s

/-- MICROWORD: the lead performs one microword at data cell cell of the interval; a wait that is not met, and an operation that
stalls, leave it where it is (R109 to R112, R117). -/
def execMicroword (a : Fin 4) (cell : Nat) (patchCorrected : Bool) (s0 : State) : Res :=
  let s := if patchCorrected then s0.seqEvent a 7 else s0
  match s.lead a with
  | none => .next s
  | some _ =>
    match s.fetchMicro a (s.act a).seq.pc with
    | none => .next (s.leadFaulty a)
    | some (n, next) =>
      if n.reserved ∨ (n.seq = 3 ∧ !s.flag (Adr.FSQ_STATUS a) Fld.FSQ_STATUS_in_irq) then .next (s.leadFaulty a)
      else
        let s1 := if n.abortPt then (s.endCut a).checkpoint a else s
        if n.abortPt ∧ s.condition a 22 then .next (s.takeAbort a)
        else if n.abortPt ∧ s.condition a 21 ∧ !s.flag (Adr.FSQ_STATUS a) Fld.FSQ_STATUS_in_irq then .next (s.takeInterrupt a)
        else if (n.waitEn ∧ s1.condition a n.waitSel ≠ n.waitPol) ∨ (s1.act a).seq.stalls n then
          .next (s1.modSeq a (fun q => { q with waitSince := q.waitSince.or (some s.now) }))
        else .next (s1.performMicro a n next cell)

end Sys2Proof.Machine
end

