-- ==== Sys2Proof/Machine/Func.lean ====
section
/-! DEFINITION. Functions (R34 to R40): stop, restart, abandon, revert and commit, with each function's own checks, and configuration
records (R41 to R45). -/

namespace Sys2Proof.Machine

open Sys2Proof

/-- Change what a function holds. -/
def State.modFunc (s : State) (k : Nat) (f : FuncAux → FuncAux) : State :=
  if h : k < 15 then { s with funcs := s.funcs.set k (f s.funcs[k]) } else s

/-- A function's state: 0 running, 1 stopping, 2 stopped, 3 restarting. -/
def State.fstate (s : State) (k : Nat) : Nat := s.fld (Adr.FUNC_CTRL k) Fld.FUNC_CTRL_state

/-- Set a function's state. -/
def State.setFstate (s : State) (k v : Nat) : State := s.setFld (Adr.FUNC_CTRL k) Fld.FUNC_CTRL_state v

/-- The actuator of a number. -/
def actOf (k : Nat) : Fin 4 := ⟨k % 4, Nat.mod_lt _ (by decide)⟩

/-! ## Writes to configuration registers (R34) -/

/-- A write of a configuration register of function k. -/
def State.writeConfig (s : State) (k a : Nat) (v : Word) : State :=
  if s.fstate k = 1 ∨ s.fstate k = 2 then
    match rowAt a with
    | some (r, _) => s.modFunc k (fun f => { f with shadow := f.shadow.put a (writeMerge r.fields (s.shadow k a) v) })
    | none => s
  else s.setFlag (Adr.FUNC_CTRL k) Fld.FUNC_CTRL_write_refused true

/-! ## Completions of Reconfigure Function (R37, R384) -/

/-- Dword 0 of a Reconfigure Function: the function's state. -/
def State.reconfDw0 (s : State) (k : Nat) : Nat := s.fstate k * 256

/-- Complete the Reconfigure Function commands of function k that wait for one of a list of actions. -/
def State.endReconf (s : State) (k : Nat) (actions : List Nat) (t : Status) : State :=
  s.host.ctxs.foldl (fun s x =>
    match x.wait with
    | .reconf j a => if j = k ∧ actions.contains a then s.complete x t (if t = .ok then s.reconfDw0 k else 0) else s
    | _ => s) s

/-! ## Stopping (R36, R37) -/

/-- A function reaches stopped: what it holds while stopped begins, and Reconfigure Function stops complete (R35, R36). -/
def State.enterStopped (s : State) (k : Nat) : State :=
  let s1 := s.setFstate k 2
  let s2 :=
    if 4 ≤ k ∧ k < 8 then (s1.noPermit (actOf k)).unsettle (actOf k)
    else if k = 8 then s1.phaseCheck
    else if k = 9 then s1.timeStopped
    else if k = 12 ∨ k = 13 then s1.linkGone (k - 12)
    else s1
  s2.endReconf k [1] .ok

/-- A stop of a running function begins; it is over at once where no drain is needed (R36). -/
def State.beginStop (s : State) (k : Nat) : State :=
  let s1 := (s.setFstate k 1).modFunc k (fun f => { f with shadow := [], since := s.now, abandon := false })
  let s2 := if k < 8 then s1.requestAbort (actOf k) else s1
  if k = 10 ∨ k = 11 ∨ k = 14 then s2.enterStopped k else s2

/-! ## Restart checks (R58, R115, R193, R208, R361, R419) -/

/-- CRC-32C of the shadow patch memory. -/
def patchCrc (rd : Nat → Word) (a : Fin 4) : Word :=
  crc32c ((List.range 2048).flatMap (fun w => leBytes 4 (rd (Adr.FSQ_PMEM a w)).toNat))

/-- The restart checks of function a, ACTn format: true when they pass. -/
def State.checkFormat (s : State) (a : Fin 4) : Bool × State :=
  let rd := s.shadow a
  match s.zoneTableCheck rd a with
  | some (c, h, z) =>
    let w := setBits (setBits (setBits (setBits 0 Fld.ZT_STATUS_check c) Fld.ZT_STATUS_head h) Fld.ZT_STATUS_zone z)
      Fld.ZT_STATUS_rejected 1
    (false, (s.setReg (Adr.ZT_STATUS a) w).actEvent a 0x30)
  | none =>
    if patchCrc rd a = rd (Adr.FSQ_PCRC a) then (true, s.setFlag (Adr.FSQ_PATCH a) Fld.FSQ_PATCH_crc_fail false)
    else (false, s.patchRefused a)

/-- The new spd_max would give an active zone a channel rate above 7.2 Gbaud (R193). -/
def State.spdTooHigh (s : State) : Bool :=
  let spd := getBits (s.shadow 8 Adr.SPN_SPDLIM) Fld.SPN_SPDLIM_spd_max
  (List.range 4).any (fun a => (actZones s.reg a).any (fun z => decide (7200000000 * 60 < z.2.2.cells * spd)))

/-- Two enabled interfaces of the shadow set of port p have the same VLAN (R361). -/
def State.vlanTwice (s : State) (p : Nat) : Bool :=
  let rd (i : Nat) : Word := s.shadow (12 + p) (Adr.NET_IF0 p i)
  (List.range 4).any (fun i => (List.range i).any (fun j =>
    getBits (rd i) Fld.NET_IF0_en == 1 && getBits (rd j) Fld.NET_IF0_en == 1
      && getBits (rd i) Fld.NET_IF0_vlan == getBits (rd j) Fld.NET_IF0_vlan))

/-- The check of R419 that the shadow L2 attributes fail. The recipe store lies after the 256 MiB of the firmware (R409). -/
def State.l2Check (s : State) : Option Nat :=
  let rd := s.shadow 14
  let es := (List.range 64).map (l2Entry rd)
  let dev := s.fld Adr.MEM_SPACE Fld.MEM_SPACE_dev_mib
  let meets (a b : Nat × Nat) : Bool := decide (a.1 < b.1 + b.2) && decide (b.1 < a.1 + a.2)
  let pin := getBits (rd Adr.L2C_PIN) Fld.L2C_PIN_pin_ways
  let locked := es.zipIdx.filter (fun p => p.1.en && p.1.lock)
  if es.any (fun e => e.en && (e.size == 0 || decide (dev < e.base + e.size))) then some 1
  else if locked.any (fun p => meets (p.1.base, p.1.size) (256, 8)
      || es.zipIdx.any (fun q => q.2 != p.2 && q.1.en && meets (p.1.base, p.1.size) (q.1.base, q.1.size))) then some 2
  else if 8 < pin ∨ 12 < pin + locked.foldl (fun n p => n + p.1.size) 0 then some 3
  else none

/-- The checks a restart of function k makes on its shadow set. -/
def State.restartCheck (s : State) (k : Nat) : Bool × State :=
  if k < 4 then s.checkFormat (actOf k)
  else if k = 8 then
    if s.spdTooHigh then (false, (s.setFlag Adr.SPN_STICKY Fld.SPN_STICKY_spdmax_refused true).event 0x313) else (true, s)
  else if k = 9 then
    let m := s.shadow 9 Adr.TMB_MEMBER
    if getBits m Fld.TMB_MEMBER_en = 1 ∧ 1024 ≤ getBits m Fld.TMB_MEMBER_member_id then
      (false, s.setFlag Adr.TMB_STATUS Fld.TMB_STATUS_cfg_rejected true) else (true, s)
  else if k = 12 ∨ k = 13 then (!s.vlanTwice (k - 12), s)
  else if k = 14 then
    match s.l2Check with
    | some c => (false, ((s.setFlag Adr.L2C_STATUS Fld.L2C_STATUS_refused true).setFld Adr.L2C_STATUS Fld.L2C_STATUS_check c).event 0x6D0)
    | none => (true, s.setFld Adr.L2C_STATUS Fld.L2C_STATUS_check 0)
  else (true, s)

/-! ## Restart, abandon and held requests (R37, R40) -/

/-- A restart of a stopped function: restarting, or refused and still stopped. -/
def State.beginRestart (s : State) (k : Nat) : Bool × State :=
  let t := s.restartCheck k
  if t.1 then (true, (t.2.setFstate k 3).modFunc k (fun f => { f with abandon := false }))
  else (false, t.2.endReconf k [2] .field)

/-- An abandon of a stopped function: restarting with the active set. -/
def State.beginAbandon (s : State) (k : Nat) : State :=
  (s.setFstate k 3).modFunc k (fun f => { f with shadow := [], abandon := true })

/-- The first held request of a function that has reached stopped is performed; the others have no effect once it restarts. -/
def State.performHeld (s : State) (k : Nat) : State :=
  let l := (s.func k).held
  let s1 := s.modFunc k (fun f => { f with held := [] })
  l.foldl (fun s h =>
    match h with
    | .restart => if s.fstate k = 2 then (s.beginRestart k).2 else s
    | .abandon => if s.fstate k = 2 then s.beginAbandon k else s
    | .stop => s) s1

/-- A request of cmd 1 stop, 2 restart or 3 abandon meets function k (R37). A load command's own stop counts as restarting, since a
later stop waits for its commit (R382). -/
def State.funcRequest (s : State) (k cmd : Nat) : State :=
  let st := s.fstate k
  let hold (h : HeldReq) : State := s.modFunc k (fun f => { f with held := f.held ++ [h] })
  match cmd with
  | 1 => if st = 0 then s.beginStop k else if st = 3 ∨ (s.func k).byLoad then hold .stop else s
  | 2 => if st = 2 ∧ !(s.func k).byLoad then (s.beginRestart k).2 else if st = 1 ∧ !(s.func k).byLoad then hold .restart else s
  | 3 => if st = 2 ∧ !(s.func k).byLoad then s.beginAbandon k else if st = 1 ∧ !(s.func k).byLoad then hold .abandon else s
  | _ => s

/-! ## The mover's comparator (R310) -/

/-- Release the comparator the mover holds. -/
def State.moverRelease (s : State) : State :=
  let s1 := (List.range 8).foldl (fun (s : State) k =>
    if s.fld (Adr.TMB_ALM_CTL k) Fld.TMB_ALM_CTL_holder = 2 then s.setFld (Adr.TMB_ALM_CTL k) Fld.TMB_ALM_CTL_holder 0 else s) s
  s1.setFlag Adr.MVR_STATUS Fld.MVR_STATUS_alm_held false

/-- MOVER_ALARM_CLAIM: the mover claims comparator alm_sel, or is refused. -/
def State.moverClaim (s : State) : State :=
  let c := Adr.TMB_ALM_CTL (s.fld Adr.MVR_CTRL Fld.MVR_CTRL_alm_sel)
  let h := s.fld c Fld.TMB_ALM_CTL_holder
  if h = 0 ∨ h = 2 then
    (s.setFld c Fld.TMB_ALM_CTL_holder 2).setFlag Adr.MVR_STATUS Fld.MVR_STATUS_alm_held true
  else
    ((((s.setFlag c Fld.TMB_ALM_CTL_conflict true).event 0x34C).setFlag Adr.MVR_STATUS Fld.MVR_STATUS_alm_conflict true).setFlag
      Adr.MVR_STATUS Fld.MVR_STATUS_alm_held false).event 0x423

/-! ## The wake alarm's comparator (R473) -/

/-- The wake alarm time in ns on the time base; 0 is none. -/
def State.wakeTime (s : State) : Nat := (s.reg Adr.PLN_WALM_LO).toNat + 2 ^ 32 * (s.reg Adr.PLN_WALM_HI).toNat

/-- Release the comparator the wake alarm holds. -/
def State.wakeRelease (s : State) : State :=
  (List.range 8).foldl (fun (s : State) k =>
    if s.fld (Adr.TMB_ALM_CTL k) Fld.TMB_ALM_CTL_holder = 3 then s.setFld (Adr.TMB_ALM_CTL k) Fld.TMB_ALM_CTL_holder 0 else s) s

/-- While the Time region is powered and an alarm time is set, the wake alarm claims comparator alm_sel and gives it its time; refused,
it falls back to the RTC with event 0x013 (R222, R473). -/
def State.wakeClaim (s : State) : State :=
  let s0 := s.wakeRelease
  if s0.wakeTime = 0 ∨ !s0.powered 2 then s0
  else
    let k := s0.fld Adr.PLN_WAKECFG Fld.PLN_WAKECFG_alm_sel
    let c := Adr.TMB_ALM_CTL k
    if s0.fld c Fld.TMB_ALM_CTL_holder = 0 then
      (((s0.setFld c Fld.TMB_ALM_CTL_holder 3).setReg (Adr.TMB_ALM_LO k) (s0.reg Adr.PLN_WALM_LO)).setReg (Adr.TMB_ALM_HI k)
        (s0.reg Adr.PLN_WALM_HI)).alarmSet k
    else (((s0.setFlag c Fld.TMB_ALM_CTL_conflict true).event 0x34C).setFlag Adr.PLN_WAKECFG Fld.PLN_WAKECFG_alm_fallback true).event 0x013

/-! ## Profiles and recipes at their commit (R263, R264, R312, R382) -/

/-- A template is a sequence of whole boxes (R263). -/
def wholeBoxes (l : List Byte) (fuel : Nat) : Bool :=
  match fuel with
  | 0 => l.isEmpty
  | k + 1 =>
    if l.isEmpty then true
    else
      let n := ofBe (l.take 4)
      decide (8 ≤ l.length) && decide (8 ≤ n) && decide (n ≤ l.length) && wholeBoxes (l.drop n) k

/-- A profile record passes the checks of R263. -/
def State.profileOk (s : State) (p : List Byte) : Bool :=
  let c := profContainer p
  let prot := profProtection p
  let len := profLe p 6 2
  let flags := profLe p 3 1
  let pid (off : Nat) : Bool := decide (0x10 ≤ profLe p off 2) && decide (profLe p off 2 ≤ 0x1FFE)
  decide (64 ≤ p.length) && decide (len ≤ 4032) && p.length == 64 + len && profLe p 0 1 == 1
    && ((decide (c ≤ 1) && decide (prot ≤ 2)) || (c == 2 && (prot == 0 || prot == 3)))
    && decide (flags < 8) && ofLe (slice p 46 18) == 0
    && (c != 2 || (pid 32 && pid 34 && profLe p 32 2 != profLe p 34 2 && len == 0 && decide (flags < 2)))
    && wholeBoxes (p.drop 64) (len + 1)
    && (profRecipe p == 0 || (s.recipe (profRecipe p)).isSome)

/-- Recipe store figures follow the table. -/
def State.syncStore (s : State) : State :=
  let s1 := (s.setFld Adr.MVR_STORE Fld.MVR_STORE_used_kib (kibUp s.storeUsed)).setFld Adr.MVR_PIN Fld.MVR_PIN_pin_used_kib (kibUp s.pinUsed)
  s1.setFld Adr.MVR_STATUS Fld.MVR_STATUS_loaded s.cast.recipes.length

/-- A recipe's place in the store is given up, or kept for Casts that still run it, unpinned (R312). -/
def State.retireRecipe (s : State) (id : Nat) : State :=
  match s.recipe id with
  | none => s
  | some r =>
    let kept := if s.recipeBusy id then [{ r with pin := false }] else []
    { s with cast := { s.cast with recipes := s.cast.recipes.filter (fun x => x.id != id), kept := s.cast.kept ++ kept } }

/-- Places kept for Casts that have finished are given up. -/
def State.dropKept (s : State) : State :=
  ({ s with cast := { s.cast with kept := s.cast.kept.filter (fun r => s.cast.jobs.any (fun j => j.dispatched &&
    (match j.recipe with | some x => x.id == r.id && x.image == r.image | none => false))) } }).syncStore

/-- The entry of a load command is committed; Constellation Membership is saved in NOR (R382, R392). -/
def State.applyLoad (s : State) (i : Instr) : State :=
  match i with
  | .loadCastProfile c =>
    let k := c.cdw10.toNat % 64
    let t := if bitOf c.cdw10.toNat 8 then eraseKey s.cast.profiles k else insertKey s.cast.profiles k c.data
    { s with cast := { s.cast with profiles := t } }
  | .loadRecipe c =>
    if bitOf c.cdw10.toNat 0 then
      let id := c.cdw10.toNat / 256 % 256
      if (s.recipe id).isSome then ((s.retireRecipe id).syncStore).event 0x422 else s
    else
      let id := leAt c.data 2 2
      let s1 := s.retireRecipe id
      let r : Recipe := { id := id, pin := bitOf c.cdw10.toNat 1, image := c.data }
      (({ s1 with cast := { s1.cast with recipes := s1.cast.recipes ++ [r] } }).syncStore).event 0x421
  | .setFeatures c => { s with nor := { s.nor with features := { s.nor.features with savedC7 := fitBytes c.data 32 } } }
  | _ => s

/-- Complete the load commands that hold function k's stop. -/
def State.endLoads (s : State) (k : Nat) (t : Status) : State :=
  s.host.ctxs.foldl (fun s x => if x.wait = .load k then s.complete x t else s) s

/-- Unpin recipes, lowest ID first, until the pinned ones fit (R307). -/
def State.unpin (s : State) (fuel : Nat) : State :=
  match fuel with
  | 0 => s
  | k + 1 =>
    if s.pinUsed ≤ 1024 * s.fld Adr.MVR_PIN Fld.MVR_PIN_pin_cap_kib then s
    else
      match leastBy (fun (r : Recipe) => [r.id]) (s.cast.recipes.filter (fun r => r.pin)) with
      | none => s
      | some r =>
        let l := s.cast.recipes.map (fun x => if x.id = r.id then { x with pin := false } else x)
        ({ s with cast := { s.cast with recipes := l } }).unpin k

/-! ## Commit and revert (R35, R39, R40) -/

/-- What becomes of actuator a's slice at the commit of its format function. -/
def State.formatCommitted (s : State) (a : Fin 4) : State :=
  let present := (List.range 8).foldl (fun n h => if (zonesOf s.reg a h).isEmpty then n else n + 2 ^ h) 0
  let r := Adr.MDI_SURF a
  let s1 := s.setFld r Fld.MDI_SURF_present present
  let s2 := if present = 0 then s1.setFld r Fld.MDI_SURF_act_state 3
    else if s1.fld r Fld.MDI_SURF_act_state = 3 then s1.setFld r Fld.MDI_SURF_act_state (if (s1.act a).lost then 2 else 0) else s1
  let s3 := (s2.syncPatch a).syncFollow a
  let s4 := (if s3.patchTwice a then s3.seqEvent a 6 else s3).formatIfDue
  let s5 := (List.range 8).foldl (fun (s : State) h => s.syncSpare (8 * a.val + h)) s4
  let s6 := s5.modBatten a (fun b => { b with zoneMove := none })
  (match zoneOfTrack (s6.headZones a) (s6.track a) with
    | some (z, x) => if x.band = (s6.act a).batten.band then s6.enterZone a z else s6.moveToTrack a (s6.track a)
    | none => s6).loadEqualiser a

/-- The own effects of function k at its commit; kept is true when the active set is unchanged (an abandon or revert). -/
def State.committed (s : State) (k : Nat) (kept : Bool) : State :=
  if k < 4 then (if kept then s else s.formatCommitted (actOf k))
  else if k < 8 then
    let a := actOf k
    let s1 := if kept then s else s.modServo a (fun x => { x with preset := some (x.uVcm, x.uMa) })
    match (s1.act a).servo.heldSeek with
    | some t => if s1.mode a = 1 then (s1.modServo a (fun x => { x with heldSeek := none })).beginSeek a t else s1
    | none => s1
  else if k = 8 then (if kept then s else s.formConstants.phaseCheck)
  else if k = 9 then s.timeRestarted.phaseCheck
  else if k = 11 then s.moverRelease.moverClaim
  else if k = 14 then
    let s1 := s.setFld Adr.MVR_PIN Fld.MVR_PIN_pin_cap_kib (1024 * s.fld Adr.L2C_PIN Fld.L2C_PIN_pin_ways)
    (s1.unpin s1.cast.recipes.length).syncStore
  else s

/-- The commit point of function k: the shadow set becomes the active set in one step, loads are entered and complete, Reconfigure
Function restarts and abandons complete, and a stop that waited takes effect (R35, R37, R40). -/
def State.commitFunc (s : State) (k : Nat) : State :=
  let f := s.func k
  let s1 := if f.abandon then s else { s with regs := s.regs.putAll f.shadow }
  let s2 := (s1.setFstate k 0).modFunc k (fun g => { g with shadow := [], abandon := false, byLoad := false, held := [] })
  let s3 := s2.host.ctxs.foldl (fun s x =>
    if x.wait = .load k then match x.instr with | some i => s.applyLoad i | none => s else s) s2
  let s3 := if k = 14 ∧ !f.abandon then s3.l2Commit s.reg else s3
  let s4 := s3.committed k f.abandon
  let s5 := (s4.endLoads k .ok).endReconf k [2, 3] .ok
  if f.held.contains .stop then s5.beginStop k else s5

/-- The function runs on its previous active settings at once, its shadow set discarded; held requests succeed, a Reconfigure stop
that had not reached stopped and a load's own stop complete with 91h (R39, R382). DESIGN CHOICE (log entry 119): where
escalation abandons a restart, a stop held behind it is dropped, and the Reconfigure Function commands of the stop, the restart or the
abandon complete with 91h; R39 says this only of a stop. -/
def State.revertNow (s : State) (k event : Nat) : State :=
  let before := s.fstate k
  let s1 := ((s.setFstate k 0).setFlag (Adr.FUNC_CTRL k) Fld.FUNC_CTRL_revert_seen true).modFunc k
    (fun f => { f with shadow := [], held := [], abandon := false, byLoad := false })
  let s2 := if k = 9 ∧ before = 1 then s1 else s1.committed k true
  let s3 := s2.event event
  let loads := s3.host.ctxs.any (fun x => x.wait == .load k)
  let s4 := (s3.endReconf k [1] .stopped).endReconf k [2, 3] (if before = 3 then .stopped else .ok)
  let s5 := s4.endLoads k .stopped
  if loads then s5.event 0x623 else s5

/-- FUNC_REVERT (R39): a function that is stopping or stopped reverts. -/
def State.revertFunc (s : State) (k : Nat) : State :=
  if s.fstate k = 1 ∨ s.fstate k = 2 then s.revertNow k 0x7E1 else s

/-- Every function reverts. -/
def State.revertAll (s : State) : State := (List.range 15).foldl (fun s k => s.revertFunc k) s

/-- The region of a function. -/
def funcRegion (k : Nat) : Nat :=
  if k ≤ 8 then 1 else if k = 9 then 2 else if k = 10 ∨ k = 11 then 3 else if k = 14 then 5 else 4

/-- Escalation stops region r: its functions revert, a restarting one too, which is abandoned (R39). -/
def State.revertRegion (s : State) (r : Nat) : State :=
  (List.range 15).foldl (fun s k =>
    if funcRegion k = r ∧ s.fstate k ≠ 0 then s.revertNow k 0x7E1 else s) s

/-! ## Configuration records (R41 to R45) -/

/-- CRC-32C of a record, with bytes 8 to 15 taken as 0. -/
def recordCheck (b : List Byte) : Nat := (crc32c (b.take 8 ++ zeros 8 ++ b.drop 16)).toNat

/-- The pairs of a body. -/
def bodyPairs (body : List Byte) : List (Nat × Word) :=
  (List.range (body.length / 8)).map (fun i => (leAt body (8 * i) 4, BitVec.ofNat 32 (leAt body (8 * i + 4) 4)))

/-- A register has an RW field. -/
def isRw (r : RegRow) : Bool := r.fields.any (fun f => f.acc == .rw)

/-- Every pair of a body names an RW register of a function, or of none. -/
def pairsOk (body : List Byte) (fn : Option Nat) : Bool :=
  body.length % 8 == 0 && (bodyPairs body).all (fun p =>
    match rowAt p.1 with
    | some (r, ix) => isRw r && rowFunc r ix == fn
    | none => false)

/-- A string has a terminating null. -/
def nullEnded (l : List Byte) : Bool := l.contains 0

/-- The body of a record meets R42. -/
def bodyOk (kind key : Nat) (body : List Byte) : Bool :=
  match kind with
  | 1 => pairsOk body (some key)
  | 2 => pairsOk body none
  | 3 => body.length == 8 && decide (256 ≤ leAt body 4 2) && decide (leAt body 4 2 ≤ 4096)
  | 4 => body.length == 48
  | 5 => body.length == 288 && nullEnded (body.drop 32)
  | 6 =>
    let n := leAt body 256 1
    decide (260 ≤ body.length) && nullEnded (body.take 256) && (n == 32 || n == 48 || n == 64) && decide (leAt body 257 1 ≤ 3)
      && body.length == 260 + n
  | _ => false

/-- The key of a record lies in its kind's range. -/
def keyOk (kind key : Nat) : Bool :=
  match kind with
  | 1 => decide (key < 15)
  | 2 => decide (key < 16)
  | 6 => decide (key < 256)
  | _ => decide (3 ≤ kind) && decide (kind ≤ 5) && key == 0

/-- The bytes of the record window. -/
def State.window (s : State) : List Byte := (List.range 1024).flatMap (fun w => leBytes 4 (s.reg (Adr.CFG_WIN w)).toNat)

/-- The bytes of a record: its header and body. -/
def CfgRec.bytes (r : CfgRec) : List Byte :=
  leBytes 2 r.kind ++ leBytes 2 (16 + r.body.length) ++ leBytes 4 r.key ++ leBytes 4 r.seq ++ leBytes 4 r.check ++ r.body

/-- A record without its sequence number, its check computed (R41). -/
def CfgRec.make (kind key : Nat) (body : List Byte) : CfgRec :=
  let r : CfgRec := { kind := kind, key := key, seq := 0, check := 0, body := body }
  { r with check := recordCheck r.bytes }

/-- A record's checks of R43: its CRC, a known kind, and a body that meets R42. -/
def CfgRec.valid (r : CfgRec) : Bool := r.check == recordCheck r.bytes && keyOk r.kind r.key && bodyOk r.kind r.key r.body

/-- The record in the window, or the reason it is refused (R44). -/
def windowRecord (w : List Byte) : Except Nat CfgRec :=
  let n := leAt w 2 2
  let kind := leAt w 0 2
  let key := leAt w 4 4
  let b := w.take n
  if n < 16 ∨ 4096 < n ∨ n % 4 ≠ 0 then .error 1
  else if leAt w 12 4 ≠ recordCheck b then .error 2
  else if !keyOk kind key then .error 3
  else if !bodyOk kind key (b.drop 16) then .error 4
  else .ok { kind := kind, key := key, seq := 0, check := leAt w 12 4, body := b.drop 16 }

/-- Records are full after a store of r (R45). -/
def Nor.full (n : Nor) (r : CfgRec) : Bool :=
  let rest := n.records.filter (fun x => !(x.kind == r.kind && x.key == r.key))
  decide (1024 ≤ rest.length) || decide (4194304 < rest.foldl (fun k x => k + 16 + x.body.length) (16 + r.body.length))

/-- A CFG command is refused with a reason. -/
def State.cfgRefuse (s : State) (reason : Nat) : State :=
  let s1 := (s.setFlag Adr.CFG_STATUS Fld.CFG_STATUS_refused true).setFld Adr.CFG_STATUS Fld.CFG_STATUS_reason reason
  if reason = 7 then s1 else s1.event 0x7E3

/-- A store or removal begins. -/
def State.cfgBegin (s : State) (op : CfgOp) : State := { s.setFlag Adr.CFG_STATUS Fld.CFG_STATUS_busy true with cfgOp := some op }

/-- Some register of a row with this mark belongs to function k. -/
def funcCovers (f : FuncOf) (k : Nat) : Bool :=
  match f with
  | .none => false
  | .format => decide (k < 4)
  | .servo => decide (4 ≤ k) && decide (k < 8)
  | .port => k == 12 || k == 13
  | .fixed j => j == k

/-- Every RW register of function k with its address. -/
def funcRegs (k : Nat) : List Nat :=
  regTable.flatMap (fun r =>
    let offs := r.dims.foldl (fun (acc : List (List Nat × Nat)) d =>
      acc.flatMap (fun p => (List.range d.1).map (fun i => (p.1 ++ [i], p.2 + i * d.2)))) [([], 0)]
    if !funcCovers r.func k then []
    else (offs.filter (fun p => rowFunc r p.1 == some k && isRw r)).map (fun p => r.base + p.2))

/-- What a write of CFG_CMD does (R44, R45). DESIGN CHOICE (log entry 118): a capture of function 0xF is refused with reason 3, as
a key out of range, and a capture longer than the 4,096 bytes of R41 with reason 1. -/
def State.cfgCommand (s : State) (v : Word) : State :=
  let cmd := getBits v Fld.CFG_CMD_cmd
  if cmd = 0 then s
  else if s.flag Adr.CFG_STATUS Fld.CFG_STATUS_busy then s.cfgRefuse 7
  else if cmd = 1 then
    match windowRecord s.window with
    | .error r => s.cfgRefuse r
    | .ok r => if s.nor.full r then s.cfgRefuse 6 else s.cfgBegin (.store r)
  else if cmd = 2 then
    let k := getBits v Fld.CFG_CMD_func
    let body := (funcRegs k).flatMap (fun a => leBytes 4 a ++ leBytes 4 (s.reg a).toNat)
    if 15 ≤ k then s.cfgRefuse 3
    else if 4080 < body.length then s.cfgRefuse 1
    else
      let r := CfgRec.make 1 k body
      if s.nor.full r then s.cfgRefuse 6 else s.cfgBegin (.store r)
  else s.cfgBegin (.remove (s.fld Adr.CFG_KIND Fld.CFG_KIND_kind) (s.fld Adr.CFG_KEY Fld.CFG_KEY_key))

/-- Records in ascending kind and key, with one replaced. -/
def putRecord (l : List CfgRec) (r : CfgRec) : List CfgRec :=
  match l with
  | [] => [r]
  | x :: t =>
    if x.kind = r.kind ∧ x.key = r.key then r :: t
    else if r.kind < x.kind ∨ (r.kind = x.kind ∧ r.key < x.key) then r :: x :: t
    else x :: putRecord t r

/-- The store, capture or removal in progress is in NOR, or its write failed (R44). A NOR write failure leaves the old record. -/
def State.cfgDone (s : State) (ok : Bool) : State :=
  match s.cfgOp with
  | none => s
  | some op =>
    let s1 := { s.setFlag Adr.CFG_STATUS Fld.CFG_STATUS_busy false with cfgOp := none }
    let clear (s : State) : State := s.resetRegs (Adr.CFG_WIN 0) (Adr.CFG_WIN 0 + 4096)
    let count (s : State) : State := s.setFld Adr.CFG_STATUS Fld.CFG_STATUS_records s.nor.records.length
    if !ok then s1.cfgRefuse 5
    else
      match op with
      | .store r =>
        let n := { s1.nor with records := putRecord s1.nor.records { r with seq := s1.nor.recSeq + 1 }, recSeq := s1.nor.recSeq + 1 }
        (count (clear { s1 with nor := n })).event 0x7E2
      | .remove kind key =>
        let n := { s1.nor with records := s1.nor.records.filter (fun x => !(x.kind == kind && x.key == key)) }
        (count { s1 with nor := n }).event 0x7E2

/-- The body of the record of a kind with key 0 that the last start-up read (R42, R43). -/
def State.startRecord (s : State) (kind : Nat) : Option (List Byte) :=
  (s.pln.started.find? (fun r => r.kind == kind && r.key == 0)).map (fun r => r.body)

end Sys2Proof.Machine
end

