-- ==== Sys2Proof/Machine/Cast.lean ====
section
/-! DEFINITION. Casts (R269 to R287) and the mover (R300 to R311): checks, dispatch, channel runs, pacing and packets, failures. -/

namespace Sys2Proof.Machine

open Sys2Proof

/-- Change the Cast blocks and the mover. -/
def State.modCast (s : State) (f : CastState → CastState) : State := { s with cast := f s.cast }

/-! ## Keys (R265, R269) -/

/-- A key slot is expired at a time. -/
def Key.expired (k : Key) (ns : Nat) : Bool := k.expiry != 0 && decide (k.expiry ≤ ns)

/-- Slots that hold a KID and are not expired, lowest first. -/
def State.validSlots (s : State) (kid : List Byte) : List (Nat × Key) :=
  s.nor.keys.filter (fun p => p.2.kid == kid && !p.2.expired s.tbNs)

/-- Latch a bit of CST_ERR. -/
def State.cstErr (s : State) (f : Fld) : State := s.setFlag Adr.CST_ERR f true

/-! ## The checks of a Cast (R258, R260, R270, R389) -/

/-- Selector of a Cast. -/
def castSel (c : Cmd) : Nat := bitsOf c.cdw10.toNat 25 24
/-- A launch time is given. -/
def castLt (c : Cmd) : Bool := bitOf c.cdw10.toNat 28
/-- An IV is given. -/
def castIvp (c : Cmd) : Bool := bitOf c.cdw10.toNat 29
/-- The KID of a Cast: SQE bytes 48 to 63. -/
def castKid (c : Cmd) : List Byte :=
  leBytes 4 c.cdw12.toNat ++ leBytes 4 c.cdw13.toNat ++ leBytes 4 c.cdw14.toNat ++ leBytes 4 c.cdw15.toNat

/-- The mould of a namespace and ID. -/
def State.mould (s : State) (ns id : Nat) : Option Mould := s.cast.moulds.find? (fun m => m.ns == ns && m.id == id)

/-- A command of an arrival order sees a mould as committed (R260). -/
def Mould.seenBy (m : Mould) (order : Nat) : Bool :=
  (match m.committed with | some k => decide (k ≤ order) | none => false)
    && (match m.withdrawn with | some k => decide (order < k) | none => true)

/-- What a Cast that passes its checks runs on. -/
structure CastPlan where
  profile : List Byte
  recipe : Option Recipe
  view : CastView
  output : Option Output
  key : Option (List Byte)
  dup : Bool
  total : Nat
  clear : Bool
deriving DecidableEq, Repr

/-- The choice of samples a Cast makes: none fails check 4; some none is an initialisation segment. -/
def castChoice (c : Cmd) (m : Mould) : Option (Option Chosen) :=
  match castSel c with
  | 0 => some none
  | 1 => (m.segment c.cdw11.toNat).map some
  | 2 => (m.timeRange c.cdw11.toNat (leAt c.mid 8 4)).map some
  | _ => none

/-- The dwords of a Cast are in order: no PRPs, reserved bits 0, and with an IV no launch time and selector
0b01 (R365, R386, R389). -/
def castFields (c : Cmd) : Bool :=
  let w := c.cdw10.toNat
  !c.prp && bitsOf w 23 22 == 0 && bitsOf w 27 26 == 0 && bitsOf w 31 30 == 0 && (!castIvp c || (!castLt c && castSel c == 1))

/-- The length of an output with the padding of protection 3. -/
def paddedLen (profile : List Byte) (n : Nat) : Nat := if profProtection profile = 3 then n + (16 - n % 16) else n

/-- The checks of R270 in order: the plan, or the status with dword 0. -/
def State.castCheck (s : State) (c : Cmd) (order : Nat) : Except (Status × Nat) CastPlan :=
  match s.spaceFor order c.nsid.toNat with
  | none => .error (.ns, 0)
  | some sp =>
    if !sp.mould then .error (.ns, 0)
    else
      match lookupKey s.cast.profiles (bitsOf c.cdw10.toNat 21 16) with
      | none => .error (.vendor 0x86, 0)
      | some p =>
        let id := profRecipe p
        let recipe := if id = 0 then none else s.recipe id
        if id ≠ 0 ∧ recipe.isNone then .error (.vendor 0x86, 0)
        else
          match s.mould c.nsid.toNat (c.cdw10.toNat % 65536) with
          | none => .error (.vendor 0x87, 0)
          | some m =>
            if !m.seenBy order then .error (.vendor 0x87, 0)
            else
              match (if castFields c then castChoice c m else none) with
              | none => .error (.field, 0)
              | some ch =>
                let prot := profProtection p
                if id == 0 && ((profContainer p == 2 && ch.isNone)
                    || (match ch with | some x => sencTooLong m p x | none => false)) then .error (.field, 0)
                else
                  let slots := s.validSlots (castKid c)
                  if prot ≠ 0 ∧ ch.isSome ∧ slots.isEmpty then .error (.vendor 0x84, 0)
                  else
                    let key := if prot ≠ 0 ∧ ch.isSome then slots.head?.map (fun q => q.2.key) else none
                    let seg := match ch with | some x => x.seg | none => 0
                    let iv := if castIvp c then c.mid.take 16 else beBytes 16 seg
                    let view : CastView :=
                      { m := m, samples := ch.map (fun x => m.taken x), seg := seg, profile := p
                        image := match recipe with | some r => r.image | none => [], key := key.getD Config.noKey }
                    let built : Output :=
                      match ch with
                      | none => { head := initSegment m p (castKid c), runs := [] }
                      | some x =>
                        if profContainer p = 2 then
                          let t := tsSegment m p x
                          if prot = 3 then { head := encryptWhole (key.getD []) iv t.bytes, runs := [] } else t
                        else mediaSegment m p (key.getD []) x
                    let total := match recipe with | some _ => paddedLen p (view.derived 0) | none => built.bytes.length
                    if 16777216 < total ∨ c.len < total then .error (.vendor 0x88, min total 0x1FFFFFF)
                    else
                      .ok { profile := p, recipe := recipe, view := view
                            output := match recipe with | some _ => none | none => some built
                            key := key, dup := prot != 0 && ch.isSome && decide (1 < slots.length), total := total
                            clear := id == 0 && (prot == 1 || prot == 2) && !m.isAv }

/-! ## Jobs (R283 to R287) -/

/-- The Cast of a command. -/
def State.job (s : State) (a q c : Nat) : Option CastJob :=
  s.cast.jobs.find? (fun j => j.assoc == a && j.qid == q && j.cid == c)

/-- Change the Cast of a command. -/
def State.modJob (s : State) (a q c : Nat) (f : CastJob → CastJob) : State :=
  s.modCast (fun k => { k with jobs := k.jobs.map (fun j => if j.assoc = a ∧ j.qid = q ∧ j.cid = c then f j else j) })

/-- Staging space reserved, in 64 KiB. -/
def State.stagingUsed (s : State) : Nat := s.cast.jobs.foldl (fun n j => n + j.staging) 0

/-- Staging space free for Casts, in 64 KiB: the area less the claim and the reservations. -/
def State.stagingFree (s : State) : Nat :=
  16 * (s.fld Adr.CST_STAGE Fld.CST_STAGE_size_mib - s.cast.claim.getD 0) - s.stagingUsed

/-- The job is of an atomic profile. -/
def CastJob.atomic (j : CastJob) : Bool := profFlag j.profile 0

/-- A Cast leaves: its runs, staging space and unsent packets go. -/
def State.dropJob (s : State) (a q c : Nat) : State :=
  let s1 := s.modCast (fun k => { k with
    jobs := k.jobs.filter (fun j => !(j.assoc == a && j.qid == q && j.cid == c))
    runs := k.runs.filter (fun p => !(p.2.assoc == a && p.2.qid == q && p.2.cid == c)) })
  let opened := s1.cast.runs.foldl (fun n p => if p.2.assoc = a then n + cellsOf p.2.packet.length else n) 0
  (s1.modQueue (egressOf a) (fun k => { k with
    packets := k.packets.filter (fun p => !(p.qid == q && p.cid == c)), openCells := opened })).dropKept

/-- A Cast fails with a status after its checks have passed: its completion carries the bytes sent, with discard when there are any
(R271, R287). -/
def State.castFail (s : State) (j : CastJob) (t : Status) : State :=
  let sent := j.sent
  let s1 := s.dropJob j.assoc j.qid j.cid
  let s2 := if 0 < sent ∧ !j.atomic then (s1.event 0x403).cstErr Fld.CST_ERR_discard_sent else s1
  match s2.ctx j.assoc j.qid j.cid with
  | some x => s2.complete x t ((if 0 < sent then 2 ^ 31 else 0) + sent % 2 ^ 25)
  | none => s2

/-- RECIPE_FAULT: the first fault is latched, counted and recorded, and the Cast ends with 8Ah (R311). -/
def State.recipeFault (s : State) (j : CastJob) (chan cause pc : Nat) : State :=
  let r := Adr.MVR_FAULT
  let s1 := if s.flag r Fld.MVR_FAULT_latched then s.setFlag r Fld.MVR_FAULT_overflow true
    else (((s.setFlag r Fld.MVR_FAULT_latched true).setFld r Fld.MVR_FAULT_cause cause).setFld r Fld.MVR_FAULT_channel chan).setFld r
      Fld.MVR_FAULT_pc pc
  ((s1.countFld Adr.MVR_CNT Fld.MVR_CNT_faults).event 0x420).castFail j (.vendor 0x8A)

/-- Engines scheduled: neither failed nor held in reserve. -/
def State.scheduled (s : State) : List Nat :=
  (List.range 128).filter (fun e => !s.cast.failedEngines.contains e && !s.cast.reserves.contains e)

/-- The lowest-numbered free scheduled engine. -/
def State.freeEngine (s : State) : Option Nat := s.scheduled.find? (fun e => (lookupKey s.cast.runs e).isNone)

/-- Engine e begins pour k of a Cast, its channel in the state of R290. -/
def State.startPour (s : State) (j : CastJob) (e k : Nat) : State :=
  match j.pours[k]? with
  | none => s
  | some p =>
    let image := match j.recipe with | some r => r.image | none => []
    let run := startRun j.assoc j.qid j.cid k p.first (p.first + p.len) image
    let run1 := if j.recipe.isNone then { run with oc := p.first } else run
    (s.modJob j.assoc j.qid j.cid (fun j => { j with pours := j.pours.modify k (fun p => { p with running := true }) })).modCast
      (fun c => { c with runs := insertKey c.runs e run1 })

/-- A Cast is dispatched on engine e with its plan: key, recipe and profile fixed, staging reserved, pours laid out (R269, R283,
R284, R286, R304). -/
def State.dispatchPlan (s : State) (j : CastJob) (e : Nat) (p : CastPlan) : State :=
  let atomic := profFlag p.profile 0
  let whole : List Pour := [{ first := 0, len := match p.recipe with | some _ => p.view.derived 0 % 2 ^ 32 | none => p.total }]
  let poured := atomic && profProtection p.profile != 3
  let pours : Option (Except (Nat × Nat) (List Pour)) :=
    match p.recipe, p.output with
    | none, some o => some (.ok (if poured then poursOf o.head.length (o.runs.map (fun r => r.length)) else whole))
    | _, _ =>
      if atomic then
        let n := p.view.derived 0 % 2 ^ 32
        match p.view.dryRun (2 ^ 48) (startRun j.assoc j.qid j.cid 0 0 n p.view.image) [] with
        | none => none
        | some (.error f) => some (.error f)
        | some (.ok l) => some (.ok (if poured then poursFrom 0 0 (gaps 0 n l) else whole))
      else some (.ok whole)
  let s1 := if p.dup then (s.event 0x400).cstErr Fld.CST_ERR_dup_kid else s
  match pours with
  | none => s
  | some (.error f) => s1.recipeFault j e f.1 f.2
  | some (.ok l) =>
    let j1 : CastJob := { j with
      dispatched := true, profile := p.profile, recipe := p.recipe, key := p.key, total := p.total
      out := match p.output with | some o => o.bytes | none => []
      pours := l, staging := if atomic then (p.total + 65535) / 65536 else 0, evf := 0 }
    let s2 := s1.modJob j.assoc j.qid j.cid (fun _ => j1)
    (s2.modCtx j.assoc j.qid j.cid (fun x => { x with wait := .casting })).startPour j1 e 0

/-- The queue in order: class, then launch order (R284). -/
def State.castQueue (s : State) : List CastJob :=
  if s.restarting 3 then []
  else ([0, 1, 2, 3] : List Nat).flatMap (fun k => s.cast.jobs.filter (fun j => j.cls == k && !j.stopped))

/-- The first Cast of the queue with something to dispatch: a pour of a dispatched Cast, or a Cast that is not waiting for staging
space or for a stopped function. blocked tells that an atomic Cast ahead waits for staging space. -/
def State.pickCast (s : State) (blocked : Bool) (l : List CastJob) : Option (CastJob × Except (Status × Nat) CastPlan) :=
  match l with
  | [] => none
  | j :: r =>
    if j.dispatched then
      if j.pours.any (fun p => !p.running && !p.done) then some (j, .error (.ok, 0)) else s.pickCast blocked r
    else if !s.funcRunning 10 || !s.funcRunning 11 then s.pickCast blocked r
    else
      let t := s.castCheck j.cmd j.order
      match t with
      | .error _ => some (j, t)
      | .ok p =>
        if profFlag p.profile 0 ∧ (blocked ∨ s.stagingFree < (p.total + 65535) / 65536) then s.pickCast true r
        else some (j, t)

/-- CAST_DISPATCH: a launched Cast, or a pour, goes to the lowest-numbered free scheduled engine (R284). -/
def execCastDispatch (s : State) : Res :=
  match s.freeEngine, s.pickCast false s.castQueue with
  | some e, some (j, t) =>
    if j.dispatched then
      match j.pours.findIdx? (fun p => !p.running && !p.done) with
      | some k => .next (s.startPour j e k)
      | none => .next s
    else
      match t with
      | .ok p => .next (s.dispatchPlan j e p)
      | .error (st, dw) =>
        let s1 := s.dropJob j.assoc j.qid j.cid
        .next (match s1.ctx j.assoc j.qid j.cid with | some x => s1.complete x st dw | none => s1)
  | _, _ => .next s

/-! ## Pacing and packets (R308, R309) -/

/-- Change the run of a channel. -/
def State.setRun (s : State) (c : Nat) (r : Run) : State := s.modCast (fun k => { k with runs := insertKey k.runs c r })

/-- The fill of an association's egress queue. -/
def State.fill (s : State) (a : Nat) : Nat := (s.queue (egressOf a)).cells

/-- hi_eff (R308). -/
def State.hiEff (s : State) : Nat := min (s.fld Adr.MVR_PACE Fld.MVR_PACE_hi) s.host.share

/-- lo_eff (R308). -/
def State.loEff (s : State) : Nat := min (s.fld Adr.MVR_PACE Fld.MVR_PACE_lo) (s.hiEff / 2)

/-- Cells of open packets follow the runs of an association. -/
def State.syncOpen (s : State) (a : Nat) : State :=
  let n := s.cast.runs.foldl (fun n p => if p.2.assoc = a then n + cellsOf p.2.packet.length else n) 0
  s.modQueue (egressOf a) (fun k => { k with openCells := n })

/-- PACKET_CLOSE: a run's packet of n bytes is linked whole into the egress queue (R309, R347). -/
def State.linkPacket (s : State) (chan : Nat) (r : Run) (n : Nat) : State :=
  let bytes := r.packet.take n
  if bytes.isEmpty then s
  else
    let cls := match s.job r.assoc r.qid r.cid with | some j => j.cls | none => 2
    let p : Packet := { level := cls + 1, cells := cellsOf bytes.length, qid := r.qid, cid := r.cid, bytes := bytes }
    let s1 := s.modQueue (egressOf r.assoc) (fun k => { k with packets := k.packets ++ [p] })
    let s2 := s1.modJob r.assoc r.qid r.cid (fun j => { j with
      sent := j.sent + bytes.length
      staged := insertKey j.staged 0 ((lookupKey j.staged 0).getD [] ++ bytes) })
    (s2.setRun chan { r with packet := r.packet.drop n }).syncOpen r.assoc

/-- Close every packet that has reached its limit of cells. -/
def State.closeFull (s : State) (chan limit fuel : Nat) : State :=
  match fuel with
  | 0 => s
  | k + 1 =>
    match lookupKey s.cast.runs chan with
    | some r => if 256 * limit ≤ r.packet.length then (s.linkPacket chan r (256 * limit)).closeFull chan limit k else s
    | none => s

/-- The bytes a channel has moved go on: to staging for an atomic Cast; else into packets while the fill is below hi_eff, after which
the channel paces (R308). -/
def State.pump (s : State) (chan : Nat) : State :=
  match lookupKey s.cast.runs chan with
  | none => s
  | some r =>
    match s.job r.assoc r.qid r.cid with
    | none => s
    | some j =>
      if j.atomic then
        (s.modJob r.assoc r.qid r.cid (fun j => { j with
          staged := insertKey j.staged r.pour ((lookupKey j.staged r.pour).getD [] ++ r.buf) })).setRun chan { r with buf := [] }
      else
        let fill := s.fill r.assoc
        let hi := s.hiEff
        let room := min (hi - fill) (queueReserve (egressOf r.assoc) - fill + s.sharedFree)
        let slack := (256 - r.packet.length % 256) % 256
        let n := 256 * room + slack
        let s1 := (s.setRun chan { r with packet := r.packet ++ r.buf.take n, buf := r.buf.drop n }).syncOpen r.assoc
        let limit := max 1 (min (s.fld Adr.MVR_CTRL Fld.MVR_CTRL_pkt_cells) hi)
        let s2 := s1.closeFull chan limit (r.buf.length / 256 + 2)
        match lookupKey s2.cast.runs chan with
        | some r2 => s2.setRun chan { r2 with state := if !r2.buf.isEmpty ∨ hi ≤ s2.fill r.assoc then 2 else 1 }
        | none => s2

/-- A write to a full egress queue despite the flag (R348): the packet is dropped and the Cast fails with Internal Error. -/
def State.moverOverrun (s : State) (r : Run) : State :=
  match s.job r.assoc r.qid r.cid with
  | some j => (s.overrun (egressOf r.assoc)).castFail j .internal
  | none => s

/-! ## Instructions on a channel (R296 to R307) -/

/-- The program of a Cast as a channel sees it. -/
def State.viewOf (s : State) (j : CastJob) : Option CastView :=
  match s.mould j.cmd.nsid.toNat (j.cmd.cdw10.toNat % 65536) with
  | none => none
  | some m =>
    match castChoice j.cmd m with
    | none => none
    | some ch =>
      some { m := m, samples := ch.map (fun x => m.taken x), seg := match ch with | some x => x.seg | none => 0
             profile := j.profile, image := match j.recipe with | some r => r.image | none => [], key := j.key.getD Config.noKey }

/-- After an instruction: the program has run past its end with OC below count, or the run goes on (R303). -/
def State.afterInstr (s : State) (chan : Nat) (j : CastJob) (r : Run) : State :=
  if r.oc != r.count && (match j.recipe with | some x => decide (imgInstrs x.image ≤ r.pc) | none => false) then
    s.recipeFault j chan 2 r.pc
  else (s.setRun chan r).pump chan

/-- The operation of the present instruction. -/
def presentOp (r : Run) (image : List Byte) : Nat := bitsOf (imgWord image r.pc 0) 31 28

/-- An instruction of operation op on channel chan, when the channel runs, its line is in the buffer, and op is its present
instruction; f performs it (R306). A recipe in the L2's pinned area never waits for its line. -/
def State.onInstr (s : State) (chan op : Nat) (f : CastJob → CastView → Run → State) : State :=
  match lookupKey s.cast.runs chan with
  | none => s
  | some r =>
    if r.state ≠ 1 ∨ r.ended ∨ r.oc = r.count then s
    else
      match s.job r.assoc r.qid r.cid with
      | none => s
      | some j =>
        match j.recipe, s.viewOf j with
        | some x, some v =>
          let pinned := match s.recipe x.id with | some y => y.pin && y.image == x.image | none => false
          if !pinned && !r.lines.contains (r.pc / 8) then s.setRun chan { r with state := 4 }
          else if presentOp r x.image = op then f j v r
          else s
        | _, _ => s

/-- MOVE: the present move instruction, or, under recipe 0, the rest of the run's output (R296 to R303). despiteFull is a write made to
a full egress queue despite its flag (R348). -/
def execMove (c : Fin 128) (despiteFull : Bool) (s : State) : Res :=
  match lookupKey s.cast.runs c.val with
  | none => .next s
  | some r =>
    match s.job r.assoc r.qid r.cid with
    | none => .next s
    | some j =>
      if despiteFull ∧ !j.atomic ∧ s.queueFull (egressOf r.assoc) ∧ !r.ended then .next (s.moverOverrun r)
      else if j.recipe.isNone then
        if r.state ≠ 1 ∨ r.ended ∨ r.oc = r.count then .next s
        else .next ((s.setRun c.val { r with buf := r.buf ++ (j.out.drop r.oc).take (r.count - r.oc), oc := r.count }).pump c.val)
      else
        .next (s.onInstr c.val 1 (fun j v r =>
          match v.stepMove r false (imgWord v.image r.pc 0) (imgWord v.image r.pc 1) (imgWord v.image r.pc 2) [] with
          | .error k => s.recipeFault j c.val k r.pc
          | .ok t => s.afterInstr c.val j t.1))

/-- LOOP (R299). -/
def execLoop (c : Fin 128) (s : State) : Res :=
  .next (s.onInstr c.val 2 (fun j v r =>
    match v.stepLoop r (imgWord v.image r.pc 0) (imgWord v.image r.pc 1) (imgWord v.image r.pc 2) [] with
    | .error k => s.recipeFault j c.val k r.pc
    | .ok t => s.afterInstr c.val j t.1))

/-- The condition of a wait is true (R300). -/
def State.waitOver (s : State) (j : CastJob) (w : ChanWait) : Bool :=
  match w.kind with
  | 0 => j.atomic || decide (s.fill j.assoc ≤ w.arg)
  | 1 => bitOf j.evf w.arg
  | _ => decide (w.arg ≤ s.tbNs)

/-- A wait ends: a consuming one clears its flag, and the channel goes on. -/
def State.endWait (s : State) (chan : Nat) (j : CastJob) (r : Run) (w : ChanWait) : State :=
  let s1 := if w.kind = 1 ∧ w.consume ∧ bitOf j.evf w.arg then
      s.modJob j.assoc j.qid j.cid (fun j => { j with evf := j.evf - 2 ^ w.arg }) else s
  s1.afterInstr chan j { (advance r []).1 with wait := none, state := 1 }

/-- WAIT: a wait begins, or ends at once (R300, R310). -/
def execWait (c : Fin 128) (s : State) : Res :=
  .next (s.onInstr c.val 3 (fun j v r =>
    let w0 := imgWord v.image r.pc 0
    let kind := bitsOf w0 27 26
    let arg := imgWord v.image r.pc 1
    let t := arg + 2 ^ 32 * imgWord v.image r.pc 2 + (if bitsOf w0 25 25 = 1 then j.launch else 0)
    let w : ChanWait := { kind := kind, arg := if kind = 2 then t else if kind = 1 then arg % 16 else arg
                          consume := bitsOf w0 24 24 == 1, since := s.now }
    if kind = 2 ∧ (!s.flag Adr.MVR_STATUS Fld.MVR_STATUS_alm_held ∨ j.launch + 60000000000 < t) then s.recipeFault j c.val 7 r.pc
    else if s.waitOver j w then s.endWait c.val j r w
    else s.setRun c.val { r with wait := some w, state := 3 }))

/-- WAIT_END: the condition of a waiting channel has become true (R300). -/
def execWaitEnd (c : Fin 128) (s : State) : Res :=
  match lookupKey s.cast.runs c.val with
  | none => .next s
  | some r =>
    match s.job r.assoc r.qid r.cid, r.wait with
    | some j, some w => if r.state = 3 ∧ s.waitOver j w then .next (s.endWait c.val j r w) else .next s
    | _, _ => .next s

/-- RECIPE_WAIT_TIMEOUT: an event or time wait has lasted longer than wait_ms (cause 8 of R311). -/
def execRecipeWaitTimeout (c : Fin 128) (s : State) : Res :=
  match lookupKey s.cast.runs c.val with
  | none => .next s
  | some r =>
    match s.job r.assoc r.qid r.cid, r.wait with
    | some j, some w =>
      let limit := max (s.fld Adr.MVR_CTRL Fld.MVR_CTRL_wait_ms) 1 * 1000000
      if r.state = 3 ∧ w.kind ≠ 0 ∧ w.since + limit ≤ s.now then .next (s.recipeFault j c.val 8 r.pc) else .next s
    | _, _ => .next s

/-- SIGNAL: an event flag, the channel interrupt, the end of the packet, in this order (R301, R309). -/
def execSignal (c : Fin 128) (s : State) : Res :=
  .next (s.onInstr c.val 4 (fun j v r =>
    let w0 := imgWord v.image r.pc 0
    let flag := imgWord v.image r.pc 1 % 16
    let s1 := if bitsOf w0 27 27 = 1 then s.modJob j.assoc j.qid j.cid (fun j => { j with evf := j.evf ||| 2 ^ flag }) else s
    let s2 := if bitsOf w0 26 26 = 1 then s1.countFld Adr.MVR_CNT Fld.MVR_CNT_irqs else s1
    let s3 :=
      if bitsOf w0 25 25 = 0 then s2
      else if j.atomic then s2.modJob j.assoc j.qid j.cid (fun j => { j with notices := j.notices ++ [(r.pour, r.oc)] })
      else s2.linkPacket c.val r r.packet.length
    let r1 := (lookupKey s3.cast.runs c.val).getD r
    s3.afterInstr c.val j (advance r1 []).1))

/-- A packet of an association's I/O egress queue leaves: on an NVMe/TCP connection it goes out in frames with the tag of its level (R332). -/
def State.sendPacket (s : State) (a : Nat) (p : Packet) : State :=
  match s.host.conns.find? (fun c => c.2.assoc == some a && c.2.qid == 1) with
  | some c => s.sendConn c.1 p.level (.packet a p.bytes)
  | none => s

/-- The packets of an association's egress queue leave in the order of R347 until its fill is at most n. -/
def State.drain (s : State) (a n fuel : Nat) : State :=
  match fuel with
  | 0 => s
  | k + 1 =>
    if s.fill a ≤ n then s
    else
      let q := (s.queue (egressOf a)).packets
      match leastBy (fun (p : Packet × Nat) => [p.1.level, p.2]) q.zipIdx with
      | none => s
      | some (p, i) => ((s.sendPacket a p).modQueue (egressOf a) (fun k => { k with packets := k.packets.eraseIdx i })).drain a n k

/-- PACING_RESUME: the egress fill has fallen to lo_eff, its oldest packets sent, and the channel writes again (R308). -/
def execPacingResume (c : Fin 128) (s : State) : Res :=
  match lookupKey s.cast.runs c.val with
  | none => .next s
  | some r =>
    if r.state ≠ 2 then .next s
    else
      let s1 := s.drain r.assoc s.loEff (s.queue (egressOf r.assoc)).packets.length
      if s1.fill r.assoc ≤ s1.loEff then .next ((s1.setRun c.val { r with state := 1 }).pump c.val) else .next s1

/-- PROGRAM_LINE_ARRIVE: a missed line of 8 instructions arrives, or an uncorrectable error on its fetch fails the Cast with 93h
(R306). The buffer holds 4 lines. -/
def execProgramLineArrive (c : Fin 128) (ok : Bool) (s : State) : Res :=
  match lookupKey s.cast.runs c.val with
  | none => .next s
  | some r =>
    if r.state ≠ 4 then .next s
    else if ok then .next (s.setRun c.val { r with lines := (r.pc / 8 :: r.lines).take 4, state := 1 })
    else
      match s.job r.assoc r.qid r.cid with
      | some j => .next ((s.event 0x424).castFail j .data)
      | none => .next s

/-- The lengths of the packets of bytes at_ to total: each ends at the next boundary of a list, or at a limit (R309). -/
def packetLens (limit : Nat) (cuts : List Nat) : (fuel at_ total : Nat) → List Nat
  | 0, _, _ => []
  | k + 1, a, total =>
    if total ≤ a then []
    else
      let stop := min (a + limit) (cuts.foldl (fun m c => if a < c then min m c else m) total)
      (stop - a) :: packetLens limit cuts k stop total

/-- The bytes of a Cast's output, by pour. -/
def CastJob.bytes (j : CastJob) : List Byte :=
  ((List.range j.pours.length).map (fun k => (lookupKey j.staged k).getD [])).flatten

/-- Staging of an atomic Cast is complete: its output is sent in packets with the boundaries that were recorded, and enters the egress queue as far as
its fill stays below hi_eff (R300, R309). DESIGN CHOICE (log entry 151): the rest follows unseen before the completion. -/
def State.sendStaged (s : State) (j : CastJob) : State :=
  let hi := s.hiEff
  let out := j.bytes
  let limit := 256 * max 1 (min (s.fld Adr.MVR_CTRL Fld.MVR_CTRL_pkt_cells) hi)
  let lens := packetLens limit (j.notices.map (fun p => p.2)) out.length 0 out.length
  let t := lens.foldl (fun (p : State × Nat) n =>
    if p.1.fill j.assoc < hi then
      let k : Packet := { level := j.cls + 1, cells := cellsOf n, qid := j.qid, cid := j.cid, bytes := slice out p.2 n }
      (p.1.modQueue (egressOf j.assoc) (fun q => { q with packets := q.packets ++ [k] }), p.2 + n)
    else p) (s, 0)
  t.1.modJob j.assoc j.qid j.cid (fun j => { j with sent := t.2 })

/-- POUR_DONE: OC has reached count; the last packet closes, and the engine is free (R303). -/
def execPourDone (c : Fin 128) (s : State) : Res :=
  match lookupKey s.cast.runs c.val with
  | none => .next s
  | some r =>
    if r.oc ≠ r.count ∨ !r.buf.isEmpty then .next s
    else
      match s.job r.assoc r.qid r.cid with
      | none => .next s
      | some j =>
        let s1 := if j.atomic then s else s.linkPacket c.val r r.packet.length
        let s2 := s1.modCast (fun k => { k with runs := eraseKey k.runs c.val })
        let s3 := s2.modJob j.assoc j.qid j.cid (fun j => { j with
          pours := j.pours.modify r.pour (fun p => { p with running := false, done := true }) })
        let s4 := match s3.job j.assoc j.qid j.cid with
          | some k => if k.atomic && k.pours.all (fun p => p.done) then s3.sendStaged k else s3
          | none => s3
        .next ((s4.countFld (Adr.CST_BCNT (c.val / 8)) Fld.CST_BCNT_done).syncOpen r.assoc)

/-- The output of a Cast was left unencrypted (R279). -/
def State.leftClear (s : State) (j : CastJob) : Bool :=
  j.recipe.isNone && (profProtection j.profile == 1 || profProtection j.profile == 2)
    && (match s.mould j.cmd.nsid.toNat (j.cmd.cdw10.toNat % 65536) with | some m => !m.isAv | none => false)

/-- CAST_COMPLETE: after the last pour, and the last packet sent, the completion is posted and the staging space released (R303). -/
def execCastComplete (assoc qid cid : Nat) (s : State) : Res :=
  match s.job assoc qid cid with
  | none => .next s
  | some j =>
    if !j.dispatched ∨ j.stopped ∨ j.pours.any (fun p => !p.done) then .next s
    else
      let clear := s.leftClear j
      let s1 := s.dropJob assoc qid cid
      .next (match s1.ctx assoc qid cid with
        | some x => s1.complete x .ok ((if clear then 2 ^ 30 else 0) + j.total) 0 j.bytes
        | none => s1)

/-- CAST_ENGINE_FAULT: engine e fails; what runs on it fails as a whole, and a reserve engine takes its place (R285). -/
def execCastEngineFault (e : Fin 128) (s : State) : Res :=
  if s.cast.failedEngines.contains e.val then .next s
  else
    let s1 := s.modCast (fun k => { k with failedEngines := k.failedEngines ++ [e.val], reserves := k.reserves.filter (· != e.val) })
    let spare := !s1.cast.reserves.isEmpty
    let inReserve := s.cast.reserves.contains e.val
    let s2 := if inReserve then s1 else s1.modCast (fun k => { k with reserves := k.reserves.drop 1 })
    let s3 := (s2.event (if spare then 0x401 else 0x402)).cstErr Fld.CST_ERR_engine_fault
    match lookupKey s3.cast.runs e.val with
    | none => .next s3
    | some r =>
      match s3.job r.assoc r.qid r.cid with
      | some j => .next (s3.castFail j .internal)
      | none => .next s3

/-! ## The staging claim (R286) -/

/-- A claim of n MiB: refused when one is held or Cast would keep less than 256 MiB. -/
def State.stagingClaim (s : State) (n : Nat) : State :=
  if s.cast.claim.isSome ∨ s.fld Adr.CST_STAGE Fld.CST_STAGE_size_mib < 256 + n then
    (s.setFlag Adr.CST_STGCLAIM Fld.CST_STGCLAIM_conflict true).event 0x406
  else (s.modCast (fun k => { k with claim := some n })).setFlag Adr.CST_STGCLAIM Fld.CST_STGCLAIM_held true

/-- The claim is released. -/
def State.stagingRelease (s : State) : State :=
  ((s.modCast (fun k => { k with claim := none })).setFlag Adr.CST_STGCLAIM Fld.CST_STGCLAIM_held false).setFlag Adr.CMP_STATUS
    Fld.CMP_STATUS_work_held false

/-- What a write of CST_STGCLAIM does: req_mib, a release, then a claim. -/
def State.writeStgclaim (s : State) (v : Word) : State :=
  let r := Adr.CST_STGCLAIM
  let s1 := s.setFld r Fld.CST_STGCLAIM_req_mib (getBits v Fld.CST_STGCLAIM_req_mib)
  let s2 := if getBits v Fld.CST_STGCLAIM_conflict = 1 then s1.setFlag r Fld.CST_STGCLAIM_conflict false else s1
  let s3 := if getBits v Fld.CST_STGCLAIM_release = 1 then s2.stagingRelease else s2
  if getBits v Fld.CST_STGCLAIM_claim = 1 then s3.stagingClaim (getBits v Fld.CST_STGCLAIM_req_mib) else s3

/-- STAGING_CLAIM: the owner writes claim. -/
def execStagingClaim (assoc : Nat) (value : Word) (s : State) : Res :=
  let v := setBits value Fld.CST_STGCLAIM_claim 1
  .next (s.ownerReg assoc Adr.CST_STGCLAIM v (fun s => s.writeStgclaim v))

/-- STAGING_RELEASE: the owner writes release. -/
def execStagingRelease (assoc : Nat) (value : Word) (s : State) : Res :=
  let v := setBits (setBits value Fld.CST_STGCLAIM_claim 0) Fld.CST_STGCLAIM_release 1
  .next (s.ownerReg assoc Adr.CST_STGCLAIM v (fun s => s.writeStgclaim v))

end Sys2Proof.Machine
end

