-- ==== Sys2Proof/Machine/Own.lean ====
section
/-! DEFINITION. Ownership (R353 to R357) and the end of associations (R340). -/

namespace Sys2Proof.Machine

open Sys2Proof

/-! ## Ownership -/

/-- The alarm comparators the owner holds become free (R357). -/
def State.releaseOwnerAlarms (s : State) : State :=
  (List.range 8).foldl (fun (s : State) k =>
    if s.fld (Adr.TMB_ALM_CTL k) Fld.TMB_ALM_CTL_holder = 1 then s.setFld (Adr.TMB_ALM_CTL k) Fld.TMB_ALM_CTL_holder 0 else s) s

/-- OWN_STATUS takes a state and an owner. -/
def State.setOwner (s : State) (st owner : Nat) : State :=
  (s.setFld Adr.OWN_STATUS Fld.OWN_STATUS_state st).setFld Adr.OWN_STATUS Fld.OWN_STATUS_owner owner

/-- What every change of ownership state brings: owner-held comparators are released and stopped functions revert (R357). -/
def State.ownershipMoved (s : State) : State := s.releaseOwnerAlarms.revertAll

/-- Ownership becomes VACANT with an event. -/
def State.vacate (s : State) (event : Nat) : State := ((s.setOwner 0 0x7FF).event event).ownershipMoved

/-- Ownership state: 0 VACANT, 1 HELD, 2 YIELDING. -/
def State.ownState (s : State) : Nat := s.fld Adr.OWN_STATUS Fld.OWN_STATUS_state

/-- A lease, or a successor window, that has run out ends (R353, R355). -/
def State.endOwn (s : State) : State :=
  if !s.ownOver then s
  else if s.ownState = 1 then (s.countFld Adr.OWN_CNT Fld.OWN_CNT_expiries).vacate 0x682
  else if s.ownState = 2 then s.vacate 0x684
  else s

/-! ## The end of an association (R340) -/

/-- Commands that end with their association: those not performed yet, reads and Casts, a Transform of direction 1, a Write whose
data is not wholly in DRAM, and an asynchronous event request. -/
def Ctx.endsWithAssoc (x : Ctx) : Bool :=
  match x.instr with
  | none => true
  | some (.read _) => true
  | some (.timedRead _) => true
  | some (.cast _) => true
  | some (.transform c) => bitOf c.cdw10.toNat 8 || x.wait != .mediaWrite && x.wait != .job
  | some (.write _) => x.wait != .mediaWrite
  | _ => x.wait == .asyncEvent

/-- A command that outlives its association is listed under association number 1,025 + its place in the arrival order: it finishes
and gets no completion. -/
def State.orphan (s : State) (x : Ctx) : State :=
  let n := 1025 + x.order
  let hit (a q c : Nat) : Bool := x.is a q c
  let s1 := s.modHost (fun h => { h with
    ctxs := h.ctxs.map (fun (y : Ctx) => if hit y.assoc y.qid y.cid then { y with assoc := n } else y)
    locks := h.locks.map (fun (k : Lock) => if hit k.assoc k.qid k.cid then { k with assoc := n } else k) })
  let s2 := { s1 with cmp := s1.cmp.map (fun (j : CmpJob) => if hit j.assoc j.qid j.cid then { j with assoc := n } else j) }
  let s3 := s2.modMedia (fun m => { m with
    writes := m.writes.map (fun (w : PendWrite) => if hit w.assoc w.qid w.cid then { w with assoc := n, orphan := true } else w) })
  (List.finRange 4).foldl (fun s a => s.modSeq a (fun q => { q with
    list := q.list.map (fun (e : Entry) => if hit e.assoc e.qid e.cid then { e with assoc := n } else e) })) s3

/-- The compression job of a command goes. -/
def State.dropCmp (s : State) (a q c : Nat) : State :=
  { s with cmp := s.cmp.filter (fun j => !(j.assoc == a && j.qid == q && j.cid == c)) }

/-- An association ends: its Casts and reads are abandoned, its other commands finish without a completion, its connections, capsules
and cells go, and ownership becomes VACANT when it is the owner (R340, R356). -/
def State.endAssoc (s : State) (a : Nat) : State :=
  if (s.assoc a).isNone then s
  else
    let jobs := s.cast.jobs.filter (fun j => j.assoc == a)
    let s1 := jobs.foldl (fun s j => s.dropJob j.assoc j.qid j.cid) s
    let own := s1.host.ctxs.filter (fun x => x.assoc == a)
    let s2 := own.foldl (fun s x =>
      if x.endsWithAssoc then (s.dropCtx x.assoc x.qid x.cid).dropCmp x.assoc x.qid x.cid else s.orphan x) s1
    let s3 := s2.modHost (fun h => { h with
      assocs := eraseKey h.assocs a
      conns := h.conns.filter (fun p => p.2.assoc != some a)
      capsules := h.capsules.filter (fun k => k.assoc != a)
      heldCpl := if a = 1024 then [] else h.heldCpl
      doorbells := if a = 1024 then [] else h.doorbells })
    let s4 := (List.range 6).foldl (fun (s : State) k => s.modQueue (6 * a + k) (fun q => { q with packets := [], openCells := 0 })) s3
    if s4.isOwner a then s4.vacate 0x683 else s4

/-- A TCP connection is gone: its association ends with it, and a discovery connection just closes. -/
def State.closeConn (s : State) (k : Nat) : State :=
  match lookupKey s.host.conns k with
  | none => s
  | some c =>
    let s1 := match c.assoc with | some a => s.endAssoc a | none => s
    s1.modHost (fun h => { h with conns := eraseKey h.conns k })

/-- Function 0 is reset: association 1,024 ends. -/
def State.resetFunction0 (s : State) : State := (s.endAssoc 1024).modHost (fun h => { h with pcieEnabled := false })

end Sys2Proof.Machine
end

