-- ==== Sys2Proof/Machine/Signature.lean ====
section
/-! DEFINITION. The published algorithms of firmware images and of authentication: AES-GCM (NIST SP 800-38D), ECDSA over P-384 (FIPS 186-5) and the
finite-field groups of RFC 7919. PRESUMED: taken from those publications (log entry 126). -/

namespace Sys2Proof.Machine

open Sys2Proof

/-! ## AES-GCM (R483) -/

/-- The product of two elements of the field of GHASH, whose first bit is the highest: the sum so far z, the multiple v, the bits i still to take. -/
def ghashMul (x : Nat) : (i z v : Nat) → Nat
  | 0, z, _ => z
  | k + 1, z, v => ghashMul x k (if x.testBit k then z ^^^ v else z) (if v.testBit 0 then (v / 2) ^^^ (0xE1 * 2 ^ 120) else v / 2)

/-- GHASH of blocks under a hash key. -/
def ghash (h : Nat) (blocks : List (List Byte)) : Nat :=
  blocks.foldl (fun y b => ghashMul (y ^^^ ofBe (fitBytes b 16)) 128 0 h) 0

/-- The keystream block of a 96-bit IV and a counter. -/
def gcmBlock (key iv : List Byte) (n : Nat) : List Byte := aesEncrypt key (iv ++ beBytes 4 n)

/-- The tag of a ciphertext without additional data. -/
def gcmTag (key iv text : List Byte) : List Byte :=
  let blocks := groupsOf 16 (text.length / 16 + 1) text ++ [List.replicate 8 0 ++ beBytes 8 (8 * text.length)]
  xorList (beBytes 16 (ghash (ofBe (aesEncrypt key (List.replicate 16 0))) blocks)) (gcmBlock key iv 1)

/-- The text of a ciphertext: the keystream counts from 2. -/
def gcmText (key iv text : List Byte) : List Byte :=
  ((groupsOf 16 (text.length / 16 + 1) text).zipIdx.map (fun p => xorList p.1 (gcmBlock key iv (2 + p.2)))).flatten

/-! ## Arithmetic to a modulus -/

/-- b to the power e modulo m, over k bits of e. -/
def powMod (m : Nat) : (k b e : Nat) → Nat
  | 0, _, _ => 1 % m
  | k + 1, b, e => (powMod m k (b * b % m) (e / 2)) * (if e % 2 = 1 then b else 1) % m

/-- The inverse of a modulo a prime m of k bits. -/
def invMod (m k a : Nat) : Nat := powMod m k (a % m) (m - 2)

/-! ## ECDSA over P-384 (R485) -/

/-- The prime of the field. -/
def p384 : Nat := 2 ^ 384 - 2 ^ 128 - 2 ^ 96 + 2 ^ 32 - 1

/-- The order of the base point. -/
def p384Order : Nat :=
  0xFFFFFFFFFFFFFFFFFFFFFFFFFFFFFFFFFFFFFFFFFFFFFFFFC7634D81F4372DDF581A0DB248B0A77AECEC196ACCC52973

/-- The base point. -/
def p384Base : Nat × Nat :=
  (0xAA87CA22BE8B05378EB1C71EF320AD746E1D3B628BA79B9859F741E082542A385502F25DBF55296C3A545E3872760AB7,
   0x3617DE4A96262C6F5D9E98BF9292DC29F8F41DBD289A147CE9DA3113B5F0B8C00A60B1CE1D7E819D7A431D7C90EA0E5F)

/-- The point of slope l through a point that meets a second one of abscissa x. -/
def chord (l x : Nat) (p : Nat × Nat) : Nat × Nat :=
  let u := (l * l + 2 * p384 - p.1 - x) % p384
  (u, (l * (p.1 + p384 - u) + p384 - p.2) % p384)

/-- The sum of two points; none is the point at infinity. -/
def addPoints (a b : Option (Nat × Nat)) : Option (Nat × Nat) :=
  match a, b with
  | none, q => q
  | p, none => p
  | some p, some q =>
    if p.1 ≠ q.1 then some (chord ((q.2 + p384 - p.2) * invMod p384 384 (q.1 + p384 - p.1) % p384) q.1 p)
    else if (p.2 + q.2) % p384 = 0 then none
    else some (chord ((3 * p.1 * p.1 + p384 - 3) * invMod p384 384 (2 * p.2) % p384) p.1 p)

/-- A multiple of a point, over k bits of the factor. -/
def mulPoint : (k n : Nat) → Option (Nat × Nat) → Option (Nat × Nat)
  | 0, _, _ => none
  | k + 1, n, p => addPoints (mulPoint k (n / 2) (addPoints p p)) (if n % 2 = 1 then p else none)

/-- A signature verifies over a digest under a public key. -/
def ecdsaOk (key : Nat × Nat) (digest r s : Nat) : Bool :=
  let n := p384Order
  let w := invMod n 384 s
  let sum := addPoints (mulPoint 384 (digest * w % n) (some p384Base)) (mulPoint 384 (r * w % n) (some key))
  decide (0 < r ∧ r < n ∧ 0 < s ∧ s < n) && (match sum with | some q => q.1 % n == r | none => false)

/-! ## The groups of DH-HMAC-CHAP (R339) -/

/-- The sum of the terms of a scaled series of e from one on: the k-th term t is divided by k for the next. -/
def seriesOfE : (fuel k t : Nat) → Nat
  | 0, _, t => t
  | f + 1, k, t => t + seriesOfE f (k + 1) (t / k)

/-- The size in bits of a group, and the number that RFC 7919 adds to e in its prime. -/
def ffdheOf (group : Nat) : Nat × Nat :=
  match group with
  | 1 => (2048, 560316)
  | 2 => (3072, 2625351)
  | 3 => (4096, 5736041)
  | 4 => (6144, 15705020)
  | _ => (8192, 10965728)

/-- The prime of a group. -/
def ffdhePrime (group : Nat) : Nat :=
  let b := (ffdheOf group).1
  2 ^ b - 2 ^ (b - 64) + (seriesOfE 1200 1 (2 ^ (b - 66)) / 2 ^ 64 + (ffdheOf group).2) * 2 ^ 64 - 1

/-- The bytes of a value of a group; the null group has none. -/
def ffdheBytes (group : Nat) : Nat := if group = 0 then 0 else (ffdheOf group).1 / 8

/-- A value of a group to a power, as bytes. -/
def ffdhePow (group base power : Nat) : List Byte :=
  if group = 0 then [] else beBytes (ffdheBytes group) (powMod (ffdhePrime group) 256 (base % ffdhePrime group) power)

end Sys2Proof.Machine
end

