-- ==== Sys2Proof/Machine/Region.lean ====
section
/-! DEFINITION. Regions: what powering one up and resetting one does, the fault state, the fatal actions, and region restarts (R43,
R429, R436 to R446). -/

namespace Sys2Proof.Machine

open Sys2Proof

/-! ## Registers of a region -/

/-- The registers of region r take their reset values; with keep, those of its functions stay as they are (R39, R43, R439). -/
def State.resetRegionRegs (s : State) (r : Nat) (keep : Bool) : State :=
  { s with regs := s.regs.filter (fun p => regionOf p.1 != some r || (keep && (survivesRestart p.1 || (funcOf p.1).isSome))) }

/-- Register-set records write their pairs that lie in region r (R43). -/
def State.applyRegSets (s : State) (r : Nat) : State :=
  s.pln.started.foldl (fun s c =>
    if c.kind = 2 then
      (bodyPairs c.body).foldl (fun s p =>
        if regionOf p.1 = some r then
          match rowAt p.1 with
          | some (row, _) => s.setReg p.1 (writeMerge row.fields (s.reg p.1) p.2)
          | none => s
        else s) s
    else s) s

/-- Function-set records of the functions of region r: written into the shadow set and restarted under the function's own checks; a
refused one runs on its reset values (R43). -/
def State.applyFuncSets (s : State) (r : Nat) : State :=
  s.pln.started.foldl (fun s c =>
    if c.kind = 1 ∧ funcRegion c.key = r then
      let sh : RegFile := (bodyPairs c.body).foldl (fun (f : RegFile) p =>
        match rowAt p.1 with
        | some (row, _) => f.put p.1 (writeMerge row.fields (s.reg p.1) p.2)
        | none => f) []
      let s1 := s.modFunc c.key (fun f => { f with shadow := sh, abandon := false })
      let t := s1.restartCheck c.key
      if t.1 then t.2.commitFunc c.key
      else (t.2.modFunc c.key (fun f => { f with shadow := [] })).event 0x7E3 c.key
    else s) s

/-- A start-up reads the records whose check holds and whose kind is known (R42, R43). -/
def State.readRecords (s : State) : State :=
  { s with pln := { s.pln with started := s.nor.records.filter (fun c => c.valid) } }

/-- The other records are ignored, each with event 0x7E4 (R43). -/
def State.reportBadRecords (s : State) : State :=
  s.nor.records.foldl (fun s c => if c.valid then s else s.event 0x7E4) s

/-- A 64-bit value in two registers. -/
def State.setPair (s : State) (lo hi : Nat) (v : Nat) : State :=
  (s.setReg lo (BitVec.ofNat 32 v)).setReg hi (BitVec.ofNat 32 (v / 2 ^ 32))

/-- Saved features take effect in their registers (R392). -/
def State.applySaved (s : State) (r : Nat) : State :=
  let f := s.nor.features
  match r with
  | 0 => s.setReg Adr.FLT_CTRL (BitVec.ofNat 32 f.savedC6)
  | 2 =>
    let d := f.savedC7
    let s1 := s.setFld Adr.TMB_PHOFS Fld.TMB_PHOFS_po f.savedC4
    if d = List.replicate 32 0 then s1
    else
      let s2 := s1.setPair Adr.TMB_PLAN_T0_LO Adr.TMB_PLAN_T0_HI (leAt d 0 8)
      let s3 := (s2.setFld Adr.TMB_PLAN Fld.TMB_PLAN_rpm_p (leAt d 8 2)).setFld Adr.TMB_PLAN Fld.TMB_PLAN_stride (leAt d 10 2)
      (s3.setFld Adr.TMB_MEMBER Fld.TMB_MEMBER_member_id (leAt d 12 2)).setFld Adr.TMB_MEMBER Fld.TMB_MEMBER_en (leAt d 14 1 % 2)
  | 5 => s.setReg Adr.ECC_BUCKET (BitVec.ofNat 32 f.savedC5)
  | _ => s

/-! ## The real-time counter (R463) -/

/-- The RTC in 1/65,536 ns. -/
def State.rtcTb (s : State) : Nat := s.rtc * 1000000000 * 2

/-! ## DRAM figures (R405, R407, R411) -/

/-- The DRAM configuration record of this start-up. -/
def State.dramConfig (s : State) : List Byte := (s.startRecord 3).getD []

/-- The configuration is one of R405. -/
def dramConfigOk (d : List Byte) : Bool :=
  let g := leAt d 0 1
  d.length == 8 && (g == 16 || g == 32 || g == 64) && decide (leAt d 1 1 ≤ 1) && decide (leAt d 2 1 ≤ 2)

/-- Usable MiB of both channels. -/
def State.usableMib (s : State) : Nat := s.fld Adr.MEM_CFG Fld.MEM_CFG_phys_gib * 896

/-- Free spares of a channel. -/
def State.sparesLeft (s : State) (ch : Nat) : Nat := 1024 - (s.nor.retired.filter (fun r => r.chan == ch)).length

/-- MEM_STATUS, MEM_SPACE, MEM_RETIRE and the staging limit follow the channels in service. -/
def State.syncMemory (s : State) : State :=
  let single := s.flag Adr.MEM_STATUS Fld.MEM_STATUS_single
  let mir := if single then 0 else 264 + s.fld Adr.MEM_CFG Fld.MEM_CFG_trail_mib
  let dev := if single then s.usableMib / 2 - 4 else s.usableMib - mir - 7
  let s1 := (s.setFld Adr.MEM_SPACE Fld.MEM_SPACE_dev_mib dev).setFld Adr.MEM_SPACE Fld.MEM_SPACE_mir_mib mir
  (s1.setFld Adr.MEM_RETIRE Fld.MEM_RETIRE_spare0 (s.sparesLeft 0)).setFld Adr.MEM_RETIRE Fld.MEM_RETIRE_spare1 (s.sparesLeft 1)

/-- The staging area: stage_mib, at least 256 MiB and at most a sixteenth of the usable DRAM (R286). -/
def State.setStaging (s : State) : State :=
  let usable := if s.flag Adr.MEM_STATUS Fld.MEM_STATUS_single then s.usableMib / 2 else s.usableMib
  s.setFld Adr.CST_STAGE Fld.CST_STAGE_size_mib (min (max 256 (s.fld Adr.CST_CTRL Fld.CST_CTRL_stage_mib)) (max 256 (usable / 16)))

/-! ## What a region's blocks start with -/

/-- MDI_SURF of an actuator follows the zone tables, what is lost, and the spare tracks. -/
def State.syncSurfaces (s : State) (a : Fin 4) : State :=
  let r := Adr.MDI_SURF a
  let bits (p : Nat → Bool) : Nat := (List.range 8).foldl (fun n h => if p h then n + 2 ^ h else n) 0
  let present := bits (fun h => !(zonesOf s.reg a h).isEmpty)
  let lost := bits (fun h => s.media.lostSurfaces.contains (8 * a.val + h))
  let gone := s.media.lostActs.contains a.val
  let s1 := (s.setFld r Fld.MDI_SURF_present present).setFld r Fld.MDI_SURF_lost lost
  let s2 := (s1.setFld r Fld.MDI_SURF_act_state (if present = 0 then 3 else if gone then 2 else 0)).modAct a (fun x => { x with lost := gone })
  (List.range 8).foldl (fun (s : State) h => s.syncSpare (8 * a.val + h)) s2

/-- The firmware image that runs: of the slot in trial or active (R484). -/
def Nor.runImage (n : Nor) : List Byte :=
  match n.slots.find? (fun x => x.state == 3 || x.state == 4) with | some x => x.image | none => []

/-- patch_id of the image that runs. -/
def Nor.patchId (n : Nor) : Nat := leAt n.runImage 24 2

/-- A register of the patch memory, the match registers or FSQ_PCRC of actuator a. -/
def isPatchReg (a adr : Nat) : Bool :=
  adr == Adr.FSQ_PCRC a || (decide (Adr.FSQ_MATCH a 0 ≤ adr) && decide (adr ≤ Adr.FSQ_MATCH a 31))
    || (decide (Adr.FSQ_PMEM a 0 ≤ adr) && decide (adr ≤ Adr.FSQ_PMEM a 2047))

/-- The CRC-32C of a patch memory of 2,048 zero words (R115). -/
def emptyPatchCrc : Word := 0x90444623

/-- What a patch register holds of a word: its fields; of the words that hold microwords bits 23 to 0 (R114). -/
def patchField (fs : List FieldRow) (a adr : Nat) (w : Word) : Word :=
  (w &&& accMask fs (fun _ => true)) &&& (if Adr.FSQ_PMEM a 0 ≤ adr ∧ adr < Adr.FSQ_PMEM a 1536 then 0xFFFFFF else 0xFFFFFFFF)

/-- Block k of an image. -/
def imageBlock (im : List Byte) (k : Nat) : List Byte := slice im (65536 * k) 65536

/-- The IV of block k of an image: its nonce and k (R483). -/
def codeIv (im : List Byte) (k : Nat) : List Byte := slice im 16 8 ++ beBytes 4 k

/-- The text of an image's code blocks, decrypted (R483). -/
def codeText (im : List Byte) : List Byte :=
  (List.range (im.length / 65536 - 1)).flatMap (fun k => gcmText Config.fwKey (codeIv im (k + 1)) ((imageBlock im (k + 1)).take 65504))

/-- The patch registers of actuator a as an image gives them; an image without code corrects nothing. -/
def imagePatch (im : List Byte) (a : Nat) : RegFile :=
  let code := codeText im
  if code.isEmpty then [(Adr.FSQ_PCRC a, emptyPatchCrc)]
  else
    let put (f : RegFile) (adr : Nat) : RegFile :=
      match rowAt adr with | some (r, _) => f.put adr (patchField r.fields a adr (Config.patchWord code adr)) | none => f
    ((Adr.FSQ_PCRC a :: (List.range 32).map (Adr.FSQ_MATCH a)) ++ (List.range 2048).map (Adr.FSQ_PMEM a)).foldl put []

/-- Firmware loads a patch into both copies of actuator a's patch memory (R114). -/
def State.loadPatch (s : State) (im : List Byte) (a : Nat) : State :=
  { s with regs := RegFile.putAll (s.regs.filter (fun (p : Nat × Word) => !isPatchReg a p.1)) (imagePatch im a) }

/-- What a head's calibration measured: its width, x_cal, burst means and index offset (R51, R56, R133). -/
def isCalReg (adr : Nat) : Bool :=
  (List.range 4).any (fun a => (decide (Adr.BTN_WIDTH a 0 ≤ adr) && decide (adr ≤ Adr.BTN_WIDTH a 7))
    || (decide (Adr.SRV_XCAL a 0 ≤ adr) && decide (adr ≤ Adr.SRV_XCAL a 511)))

/-- Another restart of the Media region measures nothing anew: what the calibration of start-up stored stays. -/
def State.keepCal (s before : State) (a : Fin 4) : State :=
  let b := (before.act a).batten
  let s1 := { s with regs := RegFile.putAll s.regs (before.regs.filter (fun p => isCalReg p.1)) }
  s1.modBatten a (fun x => { x with stored := b.stored, offsets := b.offsets })

/-- Sequencers of actuator a take up their places: a failed one that passes its test is the follow, or the lead where there is none
(R123, R125). -/
def State.placeSequencers (s before : State) (ok : Bool) (a : Fin 4) : State :=
  let st := Adr.FSQ_STATUS a
  let q (i : Nat) : Nat := before.fld st (seqField i)
  let code (i : Nat) : Nat := if q i = 2 then (if ok then 1 else 2) else if q i = 3 then 1 else q i
  let s1 := if q 0 = 2 ∨ q 1 = 2 then (s.setFld st (seqField 0) (code 0)).setFld st (seqField 1) (code 1) else s
  if (s1.lead a).isSome then s1
  else if code 0 = 1 then s1.setFld st (seqField 0) 0
  else if code 1 = 1 then s1.setFld st (seqField 1) 0 else s1

/-- The loop engine of actuator a: one that passes its test goes to the pool of standby engines, and a standby stays where it serves
(R161). -/
def State.placeLoopEngine (s before : State) (ok : Bool) (a : Fin 4) : State :=
  let f := Adr.SRV_STATUS a
  if before.flag f Fld.SRV_STATUS_on_standby then
    let id := before.fld f Fld.SRV_STATUS_sb_id
    if ok then s.modSpn (fun p => { p with pool := (p.pool ++ [id]).mergeSort })
    else (s.setFlag f Fld.SRV_STATUS_on_standby true).setFld f Fld.SRV_STATUS_sb_id id
  else s

/-- The retract pair as it was: its pins, a retract in force, and its arming, which an assertion takes away until it re-arms (R187, R189). -/
def State.keepRetract (s : State) (was : Word) : State :=
  let r := Adr.SPN_RETRACT
  let aOn := getBits was Fld.SPN_RETRACT_a_asserted
  let bOn := getBits was Fld.SPN_RETRACT_b_asserted
  let armed := getBits was Fld.SPN_RETRACT_armed
  (((s.setFld r Fld.SPN_RETRACT_a_asserted aOn).setFld r Fld.SPN_RETRACT_b_asserted bOn).setFld r Fld.SPN_RETRACT_retracted
    (getBits was Fld.SPN_RETRACT_retracted)).setFlag r Fld.SPN_RETRACT_armed (armed = 1 && aOn = 0 && bOn = 0)

/-- Slices and spindle block at their reset state; the retract pair stays as it is. -/
def State.clearSlices (s : State) (keep : Bool) : State :=
  let s1 := s.resetRegionRegs 1 keep
  { s1 with acts := Vector.replicate 4 {}, spn := { pool := s.spn.pool } }.keepRetract (s.reg Adr.SPN_RETRACT)

/-- The Media region's blocks start: slices and spindle block at their reset state, the surfaces as NOR records them. passed has bit
a for each failed sequencer of actuator a, bit 4 + a for each failed loop engine of actuator a and bit 8 for the spindle's, that passes
its start-up test (R125, R161, R439). -/
def State.startMedia (s : State) (keep : Bool) (passed : Nat) : State :=
  let before := s
  let s4 := (s.clearSlices keep).forActs (fun s a =>
    (s.placeSequencers before (bitOf passed a) a).placeLoopEngine before (bitOf passed (4 + a)) a)
  let f := Adr.SPN_STATUS
  let s5 := if before.flag f Fld.SPN_STATUS_on_standby then
      let id := before.fld f Fld.SPN_STATUS_sb_id
      if bitOf passed 8 then s4.modSpn (fun p => { p with pool := (p.pool ++ [id]).mergeSort })
      else (s4.setFlag f Fld.SPN_STATUS_on_standby true).setFld f Fld.SPN_STATUS_sb_id id
    else s4
  let s6 := s5.applyRegSets 1
  let s7 := if keep then s6.forActs (fun s a => s.keepCal before a)
    else (s6.forActs (fun s a => s.loadPatch s.nor.runImage a)).applyFuncSets 1
  (s7.forActs (fun s a =>
    (((s.syncSurfaces a).syncPatch a).syncFollow a).setFld (Adr.FSQ_PATCH a) Fld.FSQ_PATCH_patch_id s.nor.patchId)).formConstants

/-- The Time region's blocks start: the time base is loaded from the RTC in state FREE (R197). -/
def State.startTime (s : State) (keep : Bool) : State :=
  let s1 := s.resetRegionRegs 2 keep
  let s2 := { s1 with time := { tb := s1.rtcTb } }
  let s3 := s2.applyRegSets 2
  let s4 := if keep then s3 else s3.applyFuncSets 2
  (s4.applySaved 2).ptpPort.phaseCheck.wakeClaim

/-- The Compute region's blocks start: every engine that passes its test, the staging area and its claims, and the mover's comparator
(R285, R286, R310, R325). passed has bit e for each failed Cast engine e that passes. -/
def State.startCompute (s : State) (keep : Bool) (passed : Nat) : State :=
  let units := s.fld Adr.CMP_STATUS Fld.CMP_STATUS_unit_state
  let s1 := (s.resetRegionRegs 3 keep).setFld Adr.CMP_STATUS Fld.CMP_STATUS_unit_state (if keep then units else 0)
  let failed := s1.cast.failedEngines.filter (fun e => !bitOf passed e)
  let spare := ((List.range 128).filter (fun e => !failed.contains e)).reverse.take (8 - failed.length)
  let s2 := s1.modCast (fun c => { c with jobs := if keep then c.jobs else [], runs := [], kept := [], claim := none, failedEngines := failed, reserves := spare.reverse })
  let s3 := { s2 with cmp := if keep then s2.cmp else [] }
  let s4 := s3.applyRegSets 3
  let s5 := (if keep then s4 else s4.applyFuncSets 3).setStaging
  let work := s5.fld Adr.CMP_CTRL Fld.CMP_CTRL_work_mib
  let s5 := s5.setFld Adr.MVR_PIN Fld.MVR_PIN_pin_cap_kib (1024 * s5.fld Adr.L2C_PIN Fld.L2C_PIN_pin_ways)
  let s6 := if work = 0 then s5 else s5.stagingClaim work
  let s7 := if work = 0 then s6 else if s6.cast.claim.isSome then s6.setFlag Adr.CMP_STATUS Fld.CMP_STATUS_work_held true
    else s6.setFlag Adr.CMP_STATUS Fld.CMP_STATUS_single true
  (s7.syncStore.moverRelease).moverClaim

/-- The Network region's blocks start: MAC addresses from NOR; the links come up by their own events. -/
def State.startNetwork (s : State) (keep : Bool) : State :=
  let s1 := s.resetRegionRegs 4 keep
  let id := (s1.startRecord 5).getD []
  let mac (s : State) (p : Nat) : State :=
    (s.setReg (Adr.NET_MAC_LO p) (BitVec.ofNat 32 (leAt id (20 + 6 * p + 2) 4))).setReg (Adr.NET_MAC_HI p)
      (BitVec.ofNat 32 (leAt id (20 + 6 * p) 2))
  let s2 := (mac (mac s1 0) 1).applyRegSets 4
  let s3 := if keep then s2 else s2.applyFuncSets 4
  s3.modHost (fun h => { h with share := 1024, pcieEnabled := false })

/-- The Memory region's registers start. -/
def State.startMemory (s : State) (keep : Bool) : State :=
  let st := s.reg Adr.MEM_STATUS
  let d := s.dramConfig
  let s1 := (s.resetRegionRegs 5 keep).setReg Adr.MEM_STATUS st
  let c := setBits (setBits (setBits (setBits 0 Fld.MEM_CFG_phys_gib (leAt d 0 1)) Fld.MEM_CFG_ranks2 (leAt d 1 1 % 2)) Fld.MEM_CFG_rate
    (leAt d 2 1)) Fld.MEM_CFG_trail_mib (leAt d 4 2)
  let s2 := ((s1.setReg Adr.MEM_CFG c).syncMemory).applyRegSets 5
  let s3 := s2.l2Flush.modDram (fun m => { m with scrubs := [], errAt := [] })
  let s4 := if keep then s3 else s3.applyFuncSets 5
  (s4.setFld Adr.MVR_PIN Fld.MVR_PIN_pin_cap_kib (1024 * s4.fld Adr.L2C_PIN Fld.L2C_PIN_pin_ways)).applySaved 5

/-- Everything DRAM alone held is gone: data read ahead, the trailing buffer, profiles and recipes (R429). -/
def State.dramLost (s : State) : State :=
  let s1 := s.modMedia (fun m => { m with dram := [], rewrites := [], buffered := [], writes := [] })
  let s2 := s1.modCast (fun c => { c with profiles := [], recipes := [], kept := [] })
  { s2 with dram := { s2.dram with bad := [], poison := [], scrubs := [], checkLines := [], lines := [], trees := [], freed := [], rewrote := [], retireDue := [] } }

/-! ## The fault state (R443, R447, R449) -/

/-- The ERR pair signals fault, or normal; FLT_STATE.err shows it. -/
def State.signal (s : State) (fault : Bool) : State :=
  ({ s with flt := { s.flt with errFault := fault } }).setFlag Adr.FLT_STATE Fld.FLT_STATE_err fault

/-- The form of the fault state: 2 region fault, 3 fatal, below that none. -/
def State.faultState (s : State) : Nat := s.fld Adr.FLT_STATE Fld.FLT_STATE_fault_state

/-- The MI endpoint's health has changed: the composite controller status says so, and an alert is raised (R343). -/
def State.healthChanged (s : State) : State := { s with mi := { s.mi with changed := true, alert := true } }

/-- The fault state begins, or a region fault turns fatal; a test of the ERR pair ends (R443, R449). -/
def State.enterFault (s : State) (fatal : Bool) : State :=
  let f := if fatal then 3 else max 2 s.faultState
  let s1 := { s with flt := { s.flt with errTest := false } }
  ((s1.setFlag Adr.FLT_ERRTEST Fld.FLT_ERRTEST_busy false).setFld Adr.FLT_STATE Fld.FLT_STATE_fault_state f).signal true |>.healthChanged

/-- The ECC logic's mode: 0 normal, 1 start-up, 2 test, 3 recovery (R420). -/
def State.eccMode (s : State) : Nat := s.fld Adr.ECC_MODE Fld.ECC_MODE_mode

/-- Set it. -/
def State.setEccMode (s : State) (m : Nat) : State := s.setFld Adr.ECC_MODE Fld.ECC_MODE_mode m

/-- The escalation timer of region r stops (R437). -/
def State.stopTimer (s : State) (r : Nat) : State :=
  let e := Adr.FLT_ESC r
  let s1 := (s.setFlag e Fld.FLT_ESC_running false).setFld e Fld.FLT_ESC_pending 0
  let s2 := { s1 with flt := { s1.flt with escAt := eraseKey s1.flt.escAt r } }
  if s2.flt.escAt.isEmpty ∧ s2.faultState = 1 then s2.setFld Adr.FLT_STATE Fld.FLT_STATE_fault_state 0 else s2

/-- No escalation runs: firmware has handled its events, and leaves the ECC recovery mode (R420). -/
def State.leaveRecoveryMode (s : State) : State :=
  if s.flt.escAt.isEmpty ∧ s.faultState < 2 ∧ s.eccMode = 3 then s.setEccMode 0 else s

/-- Function 0's CSTS.CFS: set by the fatal actions (R441). -/
def State.setCfs (s : State) : State := s.modAssoc 1024 (fun x => { x with csts := x.csts ||| 2 })

/-- A command ends with Internal Error: a Cast with its discard bit, any other at once. -/
def State.endInternal (s : State) (x : Ctx) : State :=
  match s.job x.assoc x.qid x.cid with
  | some j => s.castFail j .internal
  | none =>
    let s1 := (s.dropCmp x.assoc x.qid x.cid).modMedia (fun m => { m with
      writes := m.writes.filter (fun w => !(w.assoc == x.assoc && w.qid == x.qid && w.cid == x.cid)) })
    s1.complete x .internal

/-- The fatal actions in their order (R441): emergency retract, write inhibit, ERR fault, every command not completed ends with Internal
Error but an asynchronous event request, CSTS.CFS. -/
def State.fatalActions (s : State) : State :=
  let s1 := (s.event 0x783).emergencyRetract.phaseCheck
  let s2 := s1.enterFault true
  let s3 := (s2.host.ctxs.filter (fun x => x.wait != .asyncEvent && x.instr.isSome)).foldl (fun s x => s.endInternal x) s2
  let s4 := s3.setCfs.setFlag Adr.FLT_STATE Fld.FLT_STATE_recovering false
  { s4 with
    flt := { s4.flt with quietFrom := s4.now }
    activation := s4.activation.map (fun (v : Activation) => { v with back := true, retried := false }) }

/-- A fatal event in block b; during a recovery restart the fatal actions begin again (R445). -/
def State.fatalEvent (s : State) (b id : Nat) : State :=
  let s1 := s.eventIn b id
  if s.flag Adr.FLT_STATE Fld.FLT_STATE_recovering then s1.fatalActions else s1

/-- The spindle's engine is faulty (R168, R445). -/
def State.spindleFaulty (s : State) (standby : Option (Fin 3)) : State :=
  let s1 := s.spindleFault standby
  if standby.isNone && s.spn.pool.isEmpty && s.flag Adr.FLT_STATE Fld.FLT_STATE_recovering then s1.fatalActions else s1

/-! ## Region restart (R439, R440) -/

/-- The collectors of region r and of its blocks are free again (R434). -/
def State.clearCollectors (s : State) (r : Nat) : State :=
  let clr (s : State) (a : Nat) : State :=
    if s.flag a Fld.FLT_CHIP_latched then (s.setFlag a Fld.FLT_CHIP_latched false).setFlag a Fld.FLT_CHIP_overflow false else s
  (List.range 38).foldl (fun s b => if blockRegion b = r then clr s (Adr.FLT_BLK b) else s) (clr s (Adr.FLT_REG r))

/-- Casts, pours and compression jobs stop with the Compute region; their commands end as it runs again (R439). -/
def State.stopCompute (s : State) : State :=
  let s1 := s.cast.jobs.foldl (fun s j => s.modQueue (egressOf j.assoc) (fun q => { q with openCells := 0 })) s
  let s2 := s1.modCast (fun c => { c with
    runs := []
    jobs := c.jobs.map (fun (j : CastJob) => { j with stopped := true, pours := j.pours.map (fun (p : Pour) => { p with running := false }) }) })
  { s2 with cmp := s2.cmp.map (fun (j : CmpJob) => { j with stopped := true, unit := none }) }

/-- After its restart each stopped Cast completes with Internal Error and its discard bit, each stopped compression job with Internal
Error (R287, R439). -/
def State.endStopped3 (s : State) : State :=
  let s1 := (s.cast.jobs.filter (fun j => j.stopped)).foldl (fun s j => s.castFail j .internal) s
  (s1.cmp.filter (fun j => j.stopped)).foldl (fun s j =>
    let s2 := s.dropCmp j.assoc j.qid j.cid
    match s2.ctx j.assoc j.qid j.cid with | some x => s2.complete x .internal | none => s2) s1

/-- Both ports go down, and function 0 resets as under FLR (R341, R439). -/
def State.stopNetwork (s : State) : State :=
  let s1 := (List.range 2).foldl (fun (s : State) p => s.linkGone p) s
  s1.resetFunction0

/-- After its restart every association ends, ownership is vacant and the cell pool is empty (R340, R356, R439). -/
def State.endNetwork (s : State) : State :=
  let s1 := s.host.assocs.foldl (fun s p => s.endAssoc p.1) s
  (s1.modHost (fun h => { h with conns := [], queues := [], capsules := [], heldCpl := [] })).setOwner 0 0x7FF

/-- Every loop is unloaded and retract frames go to every actuator; the spindle coasts (R439). -/
def State.stopMedia (s : State) : State :=
  let s1 := s.forActs (fun s a => (s.takeAbort a).unloadFrame a)
  let s2 := s1.forActs (fun s a => s.unloaded a)
  (if s2.spin = 0 then s2 else s2.setSpin 8).phaseCheck

/-- A command is served again from its start: its context is as when it was fetched, and its lock is requested anew. -/
def State.rerun (s : State) (x : Ctx) : State :=
  ((s.releaseLock x.assoc x.qid x.cid).dropCmp x.assoc x.qid x.cid).modCtx x.assoc x.qid x.cid (fun y => { y with wait := .powerExit })

/-- What the stop of region r brings. -/
def State.stopRegion (s : State) (r : Nat) : State :=
  match r with
  | 1 => s.stopMedia
  | 3 => s.stopCompute
  | 4 => s.stopNetwork
  | _ => s

/-- An activation in progress is ended by a region restart: the commit completes with Firmware Activation Prohibited, or Internal Error
when the Control region restarts, and the units go back (R440, R494). -/
def State.endActivation (s : State) (control : Bool) : State :=
  match s.activation with
  | none => s
  | some v =>
    let s1 := match s.ctx v.assoc v.qid v.cid with
      | some x => s.complete x (if control then .internal else ⟨1, 0x13⟩)
      | none => s
    { s1 with activation := some { v with back := true, retried := false } }

/-- The restart of region r begins (R439): its functions revert, its collectors are freed, its work stops. -/
def State.startRestart (s : State) (r : Nat) : State :=
  let s1 := { s with flt := { s.flt with restarting := s.flt.restarting ++ [r] } }
  let s2 := (s1.setFlag (Adr.FLT_RST r) Fld.FLT_RST_restarting true).countFld (Adr.FLT_RST r) Fld.FLT_RST_restarts
  (((s2.stopRegion r).revertRegion r).clearCollectors r).endActivation (r == 6)

/-- A region restart is asked for: the fault state begins, and the restart begins now or after the one in progress (R440, R443). -/
def State.restartRegion (s : State) (r : Nat) : State :=
  let s1 := s.enterFault false
  if s1.flt.restarting.contains r ∨ s1.flt.queued.contains r then s1
  else if s1.flt.restarting.isEmpty then s1.startRestart r
  else { s1 with flt := { s1.flt with queued := s1.flt.queued ++ [r] } }

/-- The action of a restart on region r: event 0x780 and the restart; the Plinth only enters the fault state (R437, R438). -/
def State.escalateRestart (s : State) (r : Nat) : State :=
  let s0 := s.event 0x780
  let s1 := { s0 with nor := { s0.nor with restartTotal := s0.nor.restartTotal + (if r = 0 then 0 else 1) } }
  if r = 0 then s1.enterFault false else s1.restartRegion r

end Sys2Proof.Machine
end

