-- ==== Sys2Proof/Machine/Boot.lean ====
section
/-! DEFINITION. Start-up, resets, firmware slots and power states (R453 to R455, R462 to R478, R482 to R491). -/

namespace Sys2Proof.Machine

open Sys2Proof

/-- Change the plinth. -/
def State.modPln (s : State) (f : Plinth → Plinth) : State := { s with pln := f s.pln }

/-! ## The patina's store and journal (R454, R455) -/

/-- The place of an entry in a full store: the oldest entry of the lowest severity present, when that is at most its own. -/
def patVictim (store : List (Nat × PatEntry)) (sev : Nat) : Option Nat :=
  match leastBy (fun (p : Nat × PatEntry) => [p.2.severity, p.2.record]) store with
  | some p => if p.2.severity ≤ sev then some p.1 else none
  | none => none

/-- The place an entry takes: a free one, the lowest first, while there is one (R454). -/
def patPlace (store : List (Nat × PatEntry)) (sev : Nat) : Option Nat :=
  if store.length < 4096 then firstFrom 0 4096 (fun k => (lookupKey store k).isNone) else patVictim store sev

/-- An entry leaves the capture queue for the store: it takes a place and the next record number, or is dropped (R454). -/
def State.patStore (s : State) : State :=
  match s.pat.queue with
  | [] => s
  | e :: r =>
    let s1 := { s with pat := { s.pat with queue := r } }
    match patPlace s1.pat.store e.severity with
    | none => s1.patDrop
    | some k =>
      let n := (s1.nor.patCount + 1) % 2 ^ 32
      { s1 with
        nor := { s1.nor with patCount := n }
        pat := { s1.pat with store := insertKey s1.pat.store k { e with record := n }
                             unjournalled := if s1.flag Adr.PAT_STATUS Fld.PAT_STATUS_jfail then s1.pat.unjournalled
                               else s1.pat.unjournalled ++ [n] } }

/-- Whether a journalled entry is still present in the store. -/
def patPresent (store : List (Nat × PatEntry)) (p : Nat × PatEntry) : Bool :=
  match lookupKey store p.1 with | some e => e.record == p.2.record | none => false

/-- The journal with one slot more: when all 8,192 are used, the oldest is reused, its entry copied forward while it is present. -/
def journalPut (store j : List (Nat × PatEntry)) (x : Nat × PatEntry) : List (Nat × PatEntry) :=
  if j.length < 8192 then j ++ [x]
  else
    match j with
    | [] => [x]
    | p :: r => if patPresent store p then r ++ [p, x] else r ++ [x]

/-- The oldest stored entry not journalled is written to its slot, or the write fails and journalling stops (R455). -/
def State.patJournal (s : State) (ok : Bool) : State :=
  match s.pat.unjournalled with
  | [] => s
  | n :: r =>
    if ok then
      let s1 := { s with pat := { s.pat with unjournalled := r } }
      match s.pat.store.find? (fun p => p.2.record == n) with
      | some p => { s1 with nor := { s1.nor with patJournal := journalPut s.pat.store s1.nor.patJournal p, patHigh := n } }
      | none => { s1 with nor := { s1.nor with patHigh := n } }
    else
      (({ s with pat := { s.pat with unjournalled := [] } }).setFlag Adr.PAT_STATUS Fld.PAT_STATUS_jfail true).event 0x7A3

/-- The store is rebuilt by replaying the journal, each entry marked restored; entries stored and not journalled are lost (R455). -/
def State.patRestore (s : State) : State :=
  let mark (e : PatEntry) : PatEntry := { e with flags := e.flags ||| 4 }
  let store := s.nor.patJournal.foldl (fun l p => insertKey l p.1 (mark p.2)) ([] : List (Nat × PatEntry))
  let lost := s.nor.patLost
  (({ s with
      pat := { s.pat with store := store, unjournalled := [] }
      nor := { s.nor with patCount := s.nor.patHigh } }).setFlag Adr.PAT_STATUS Fld.PAT_STATUS_jfail false).event 0x7A2 lost

/-- What a loss of DRAM content leaves of the patina: its journal, and the number of entries that were stored and not in it. -/
def State.patCut (s : State) : State :=
  { s with pat := {}, nor := { s.nor with patLost := s.pat.unjournalled.length } }

/-! ## Page retirement (R428) -/

/-- Page p of a channel moves to a free spare: recorded in NOR and as event 0x6C4; with no spare left, event 0x6C5 once. -/
def State.retirePage (s : State) (ch page : Nat) : State :=
  let left := s.sparesLeft ch
  if left = 0 then
    if s.dram.noSpare.contains ch then s
    else ({ s with dram := { s.dram with noSpare := s.dram.noSpare ++ [ch] } }).event 0x6C5
  else
    let r : Retired := { chan := ch, page := page, spare := 1024 - left, at_ := s.tbNs }
    (({ s with nor := { s.nor with retired := s.nor.retired ++ [r] } }).syncMemory).event 0x6C4

/-! ## Firmware slots (R482, R489, R490) -/

/-- A slot, 0 for A and 1 for B. -/
def Nor.slot (n : Nor) (k : Nat) : Slot := n.slots.getD k {}

/-- Change a slot. -/
def State.modSlot (s : State) (k : Nat) (f : Slot → Slot) : State := { s with nor := { s.nor with slots := s.nor.slots.modify k f } }

/-- The slot that is active or trial. -/
def State.runningSlot (s : State) : Option Nat :=
  ([0, 1] : List Nat).find? (fun k => (s.nor.slot k).state == 3 || (s.nor.slot k).state == 4)

/-- The revision of a slot: fw_rev of its header, zeros when it is empty or downloading. -/
def Slot.rev (x : Slot) : List Byte := if x.state < 2 then zeros 8 else slice x.image 8 8

/-- The FWU registers follow the slots (R497, R498). -/
def State.syncSlots (s : State) : State :=
  let f := Adr.FWU_STATUS
  let n := s.nor
  let act := match ([0, 1] : List Nat).find? (fun k => (n.slot k).state == 4) with | some k => k + 1 | none => 0
  let s1 := ((s.setFld f Fld.FWU_STATUS_slot_a (n.slot 0).state).setFld f Fld.FWU_STATUS_slot_b (n.slot 1).state).setFld f
    Fld.FWU_STATUS_active act
  let s2 := s1.setFld f Fld.FWU_STATUS_boot_mark (match n.bootMark with | some k => k + 1 | none => 0)
  let rev (s : State) (k : Nat) : State :=
    (s.setReg (Adr.FWU_REV_LO k) (BitVec.ofNat 32 (leAt (n.slot k).rev 0 4))).setReg (Adr.FWU_REV_HI k)
      (BitVec.ofNat 32 (leAt (n.slot k).rev 4 4))
  rev (rev s2 0) 1

/-- A slot that was still trial at a reset: the former active slot is active again, the trial slot valid with no mark (R490). -/
def State.trialUnconfirmed (s : State) : State :=
  match ([0, 1] : List Nat).find? (fun k => (s.nor.slot k).state == 3) with
  | none => s
  | some k =>
    let s1 := s.modSlot k (fun x => { x with state := 2 })
    let s2 := match s.nor.prevActive with | some p => s1.modSlot p (fun x => { x with state := 4 }) | none => s1
    ({ s2 with nor := { s2.nor with bootMark := none, prevActive := none } }).event 0x7C4 (k + 1)

/-- A slot fails its checks at start-up: it becomes empty, with event 0x7C3 that names it. -/
def State.slotFailed (s : State) (k : Nat) : State :=
  (s.modSlot k (fun x => { x with state := 0 })).event 0x7C3 (k + 1)

/-! ### The checks of an image (R485, R488, R489) -/

/-- n_blocks of an image. -/
def imageBlocks (im : List Byte) : Nat := leAt im 6 2

/-- The signatures present: key index, and whether it verifies over the SHA-384 of header bytes 0 to 255 and the code blocks. -/
def imageSigs (im : List Byte) : List (Nat × Bool) :=
  let digest := ofBe (sha384.digest (slice im 0 256 ++ im.drop 65536))
  ([0, 1] : List Nat).filterMap (fun i =>
    let k := leAt im (256 + 100 * i) 1
    if k = 0xFF then none else some (k, ecdsaOk (Config.fwPublicKey k) digest (ofBe (slice im (260 + 100 * i) 48)) (ofBe (slice im (308 + 100 * i) 48))))

/-- The image is signature-valid (R485). -/
def signatureValid (im : List Byte) : Bool :=
  let l := imageSigs im
  !l.isEmpty && l.all (fun p => decide (p.1 ≤ 1) && p.2) && (l.map (fun p => p.1)).eraseDups.length == l.length

/-- Every code block passes its tag. -/
def tagsOk (im : List Byte) : Bool :=
  (List.range (imageBlocks im - 1)).all (fun k =>
    let b := imageBlock im (k + 1)
    gcmTag Config.fwKey (codeIv im (k + 1)) (b.take 65504) == slice b 65504 16)

/-- The check of R488 that an image in a slot fails. -/
def Slot.check (x : Slot) : Option Nat :=
  let im := x.image
  let n := imageBlocks im
  let zero (a b : Nat) : Bool := (slice im a (b + 1 - a)).all (· == 0)
  if im.length ≠ n * 65536 ∨ x.crcBad then some 1
  else if slice im 0 4 ≠ ascii "KLFW" ∨ leAt im 4 2 ≠ 1 ∨ n < 2 ∨ 768 < n ∨ !zero 26 255 ∨ !zero 257 259 ∨ !zero 357 359 ∨ !zero 456 65531 then
    some 2
  else if !signatureValid im then some 3
  else if !tagsOk im then some 4
  else none

/-- Bit i: key i verified the image (R497). -/
def keysVerified (im : List Byte) : Nat := (imageSigs im).foldl (fun n p => if p.2 && decide (p.1 ≤ 1) then n ||| 2 ^ p.1 else n) 0

/-- FWU_CHECK.sig_ok shows which keys verified a slot at start-up; of an image of which the model holds no bytes that is free (log entry 159). -/
def State.noteSigs (s : State) (k : Nat) : State :=
  let im := (s.nor.slot k).image
  s.setFld Adr.FWU_CHECK Fld.FWU_CHECK_sig_ok (if im.isEmpty then leAt (Config.unstated 0x110C k) 0 1 % 4 else keysVerified im)

/-- The slot passes the checks of start-up as NOR streams it: ok is what its check and its blocks' tags give; an image the model knows must be signature-valid
and pass R488, while one the factory wrote, of which it holds no bytes, is judged by ok alone (R489; log entry 130). -/
def Slot.boots (x : Slot) (ok : Bool) : Bool := ok && (x.image.isEmpty || x.check.isNone)

/-- Start-up step 3: the marked slot boots as trial, else the active slot; a slot that fails its checks becomes empty and the other is
tried. ok has bit k set when NOR streams slot k without an error. None passing leaves the recovery loader (R489 to R491). -/
def State.bootSlot (s : State) (ok : Nat) : State :=
  let s0 := s.trialUnconfirmed
  let active := ([0, 1] : List Nat).find? (fun k => (s0.nor.slot k).state == 4)
  let run (s : State) (k : Nat) (trial : Bool) : State :=
    let other := 1 - k
    if trial then
      let s1 := (s.modSlot k (fun x => { x with state := 3 })).modSlot other (fun x => if x.state = 4 then { x with state := 2 } else x)
      { s1 with nor := { s1.nor with bootMark := none, prevActive := if (s.nor.slot other).state = 4 then some other else none } }
    else
      let s1 := s.modSlot k (fun x => { x with state := 4 })
      { s1 with nor := { s1.nor with bootMark := none, prevActive := none } }
  let first : Option (Nat × Bool) := match s0.nor.bootMark with
    | some k => some (k, true)
    | none => active.map (fun k => (k, false))
  let s1 := match first with
    | none => s0.modPln (fun p => { p with loader := true })
    | some (k, t) =>
      if (s0.nor.slot k).boots (bitOf ok k) then run (s0.noteSigs k) k t
      else
        let s2 := (s0.noteSigs k).slotFailed k
        let other := 1 - k
        let st := (s2.nor.slot other).state
        if st ≠ 2 ∧ st ≠ 4 then s2.modPln (fun p => { p with loader := true })
        else if (s2.nor.slot other).boots (bitOf ok other) then run (s2.noteSigs other) other false
        else ((s2.noteSigs other).slotFailed other).modPln (fun p => { p with loader := true })
  s1.syncSlots

/-! ## Resets (R474, R475) -/

/-- What resetRegions takes away beside registers it sets anew: every field of a region but the Plinth, and its registers. -/
def State.resetFields (s : State) : State :=
  let regs := s.regs.filter (fun p => regionOf p.1 == some 0)
  let m := s.media
  let cut := s.patCut
  { cut with
    nor := { cut.nor with features := { cut.nor.features with tempOver := 383, tempUnder := 0 } }
    spaces := (s.deleting.flatMap (fun d => d.spaces)).foldl (fun l p => insertKey l p.1 p.2) s.spaces
    regs := regs
    latches := {}, heldRegs := []
    funcs := Vector.replicate 15 {}
    cfgOp := none
    time := {}
    host := { perstLow := s.host.perstLow }
    own := {}, mi := { changed := s.mi.changed, alert := s.mi.alert }
    acts := Vector.replicate 4 {}
    spn := {}
    cmp := []
    deleting := []
    activation := none
    cast := { moulds := s.cast.moulds, failedEngines := s.cast.failedEngines, reserves := s.cast.reserves }
    media := { m with
      dram := [], rewrites := [], buffered := [], writes := [], erased := [], tries := [], rebuildLock := none
      trailing := m.trailing.map (fun (r : Trail) => { r with stale := List.range 64 })
      courses := m.courses.map (fun (c : OpenCourse) => { c with closing := true })
      owedTrusses := m.trailing.map (fun (r : Trail) => r.truss)
      owedCourses := m.courses.map (fun (c : OpenCourse) => (c.surface, c.track, c.course)) }
    dram := { noSpare := s.dram.noSpare }
    flt := { s.flt with restarting := [], queued := [] } }

/-- Every region except the Plinth is reset and off: associations, contexts and whatever those regions held are gone; NOR, the medium and
the Plinth stay. A namespace whose delete had not completed stays; temperature thresholds take their defaults. -/
def State.resetRegions (s : State) : State :=
  let pins := s.reg Adr.SPN_RETRACT
  let s1 := s.resetFields
  let s2 := (List.range 15).foldl (fun (s : State) k => s.setFstate k 0) s1
  let s3 := (List.range 7).foldl (fun (s : State) r => s.setFlag (Adr.FLT_RST r) Fld.FLT_RST_restarting false) s2
  let s4 := ((s3.setFld Adr.PWR_REGION Fld.PWR_REGION_powered 1).setReg Adr.PWR_STATE 0).setFld Adr.CLK_STATUS Fld.CLK_STATUS_locked 0
  let s5 := s4.keepRetract pins
  let s6 := (s5.setFlag Adr.PLN_STATUS Fld.PLN_STATUS_ready false).setFlag Adr.PLN_STATUS Fld.PLN_STATUS_rtc_valid
    (s5.flag Adr.PLN_STATUS Fld.PLN_STATUS_rtc_valid)
  s6.modPln (fun p => { p with exitDue := false, ps5Due := false, loader := false, coldHold := false, bootDue := none, pllRestarted := [] })

/-- Regions of a mask are powered, with their PLLs locked (R464). -/
def State.powerRegions (s : State) (mask : Nat) : State :=
  ((s.setFld Adr.PWR_REGION Fld.PWR_REGION_powered mask).setFld Adr.CLK_STATUS Fld.CLK_STATUS_locked (mask / 2)).modPln
    (fun p => { p with pllRestarted := [] })

/-! ## Start-up (R476) -/

/-- Set the start-up step. -/
def State.setStep (s : State) (n : Nat) : State := s.setFld Adr.PLN_STATUS Fld.PLN_STATUS_step n

/-- Step 4: DRAM is configured, trained and tested, the patina rebuilt, and the regions but Media start (R405, R411, R429, R476). -/
def State.startDram (s : State) (b : Boot) : State :=
  let s1 := (s.setStep 4).powerRegions 0x60
  if !dramConfigOk s1.dramConfig || (!b.train0 && !b.train1) then (s1.event 0x6C9).fatalActions
  else
    let r := Adr.MEM_STATUS
    let single := !b.train0 || !b.train1
    let s2 := ((s1.setFlag r Fld.MEM_STATUS_trained true).setFlag r Fld.MEM_STATUS_single single).setFlag r Fld.MEM_STATUS_ch0_failed (!b.train0)
    let s3 := ((s2.setFlag r Fld.MEM_STATUS_ch1_failed (!b.train1)).startMemory false)
    let s4 := if single then s3.event 0x6C8 else s3
    let s5 := b.badPages.foldl (fun (s : State) p => s.retirePage p.1 p.2) s4
    let s6 := (s5.setEccMode 0).applyRegSets 6
    let s7 := s6.patRestore
    let s8 := if b.keysOk then s7 else ({ s7 with nor := { s7.nor with keys := [] } })
    let s9 := (((s8.powerRegions 0x7D).startTime false).startNetwork false).startCompute false (2 ^ 128 - 1)
    if b.keysOk then s9 else (s9.event 0x405).cstErr Fld.CST_ERR_restore_fail

/-- Step 5: the Media region starts and the pre-start check runs; listed trusses and courses are recorded as event 0x388 (R238,
R476). -/
def State.startMediaStep (s : State) (parked : Nat) : State :=
  let s1 := ((s.setStep 5).powerRegions 0x7F).startMedia false 0x1FF
  let s2 := if s1.media.trailing.isEmpty && s1.media.courses.isEmpty then s1 else s1.event 0x388
  s2.preStart parked

/-- From step 3 on: a slot is chosen, and unless none boots, steps 4 and 5 follow; steps 6 to 9 are the spindle's and DEVICE_READY's. -/
def State.startFromStep3 (s : State) (b : Boot) : State :=
  let s1 := ((s.setStep 3).signal (decide (2 ≤ s.faultState))).bootSlot b.slots
  if s1.pln.loader then { s1.signal true with nor := { s1.nor with loaderRan := true } }
  else
    let s0 := if s1.nor.loaderRan then ({ s1 with nor := { s1.nor with loaderRan := false } }).event 0x7C9 else s1
    let s2 := s0.startDram b
    if s2.faultState = 3 then s2 else s2.startMediaStep b.parked

/-! ### Counter records (R478) -/

/-- A record: sequence number, counter ID and value, then the state and the CRC-8 of the 14 bytes. -/
def counterRecord (seq id value : Nat) (state : Byte) : List Byte :=
  let b := leBytes 4 seq ++ leBytes 2 id ++ leBytes 8 value
  b ++ [state, crc8 b]

/-- A record that is complete and whose check is right. -/
def counterGood (r : List Byte) : Bool := r.getD 14 0 == 0x7F && r.getD 15 0 == crc8 (r.take 14)

/-- Its state byte is programmed to 0, so that it is invalid. -/
def counterInvalid (r : List Byte) : List Byte := r.set 14 0

/-- The sequence number of a record. -/
def counterSeq (r : List Byte) : Nat := leAt r 0 4

/-- The good record of a counter that has the highest sequence number. -/
def Nor.counterOf (n : Nor) (c : Nat) : Option (List Byte) :=
  ((n.counterOld ++ n.counterNew).filter (fun r => counterGood r && leAt r 4 2 == c)).foldl (fun (b : Option (List Byte)) r =>
    match b with | some x => if counterSeq x ≤ counterSeq r then some r else some x | none => some r) none

/-- A full sector of 4,096 records is left for the other, which is erased and takes the newest record of every counter first. -/
def Nor.counterRoom (n : Nor) : Nor :=
  if n.counterNew.length < 4096 then n
  else { n with counterOld := n.counterNew, counterNew := (List.range 9).filterMap n.counterOf }

/-- The counter's present value is written: bytes 0 to 13 and 15 of a new record, then its complete mark, then the old record is invalid. A write that
fails leaves the new record incomplete. -/
def Nor.counterWrite (n : Nor) (c : Nat) (ok : Bool) : Nor :=
  let m := n.counterRoom
  let old := m.counterOf c
  let seq := match old with | some r => counterSeq r + 1 | none => 0
  let v := n.counters.toList.getD c 0
  let spent (r : List Byte) : List Byte := if ok && some r == old then counterInvalid r else r
  { m with
    counterOld := m.counterOld.map spent
    counterNew := m.counterNew.map spent ++ [counterRecord seq c v (if ok then 0x7F else 0xFF)] }

/-- A record that is neither invalid already nor the one kept of its counter. -/
def Nor.counterStray (n : Nor) (r : List Byte) : Bool :=
  r.getD 14 0 != 0 && !(counterGood r && (n.counterOf (leAt r 4 2)) == some r)

/-- Start-up takes each counter from its newest record, 0 where there is none, and discards every other record, with one event. DEDUCED (log entry
129): a record that was made invalid when its successor was complete is no discard. -/
def State.loadCounters (s : State) : State :=
  let n := s.nor
  let drop (l : List (List Byte)) : List (List Byte) := l.map (fun r => if n.counterStray r then counterInvalid r else r)
  let value (c : Nat) : Nat := match n.counterOf c with | some r => leAt r 6 8 | none => 0
  let s1 := { s with nor := { n with
    counters := Vector.ofFn (fun (c : Fin 9) => value c), counterOld := drop n.counterOld, counterNew := drop n.counterNew } }
  if (n.counterOld ++ n.counterNew).any n.counterStray then s1.event 0x020 else s1

/-- From step 2 on: the Control PLL locks, the counters and saved settings come from NOR, the power-on count goes up; below 0 degrees
start-up holds before step 3 (R476, R478, R518). -/
def State.startFromStep2 (s : State) (b : Boot) (late : Bool := false) : State :=
  let cause := s.fld Adr.PLN_STATUS Fld.PLN_STATUS_cause
  let s1 := (s.resetRegions.setStep 2).powerRegions 0x41
  let s0 := s1.readRecords
  let s2 := ((s0.applyRegSets 0).applySaved 0).setFld Adr.CFG_STATUS Fld.CFG_STATUS_records s1.nor.records.length
  let s3 := ((if late then s2.event 0x005 else s2).loadCounters.bump 1).event 0x001 cause
  let s4 := (if cause = 1 then s3.event 0x002 else if cause = 2 then s3.event 0x003 else s3).reportBadRecords
  if b.cold then (s4.event 0x0F0).modPln (fun p => { p with coldHold := true }) else s4.startFromStep3 b

/-- From step 1 on, after POR_N: the plinth runs on the RC oscillator, the ERR pair signals fault, the RTC is loaded
from NOR, and the 50 MHz crystal is enabled (R447, R462, R463, R476); with TESTEN high it stays there (R502). -/
def State.startFromStep1 (s : State) (b : Boot) : State :=
  let s1 := (s.setStep 1).setFlag Adr.PLN_STATUS Fld.PLN_STATUS_rc_mode true
  let s2 := ({ s1 with flt := { s1.flt with errDriven := true } }).signal true
  let s3 := s2.modPln (fun p => { p with porLow := false, rtcBase := s2.nor.rtc, rtcAt := s2.now })
  if b.testen then s3 else s3.modPln (fun p => { p with bootDue := some b })

/-- After a power loss the write sequence number goes on at the block after the last one recorded (R63). -/
def Media.skipBlock (m : Media) : Media := { m with wsn := (m.wsnBlock + 1) * 2 ^ 20, wsnBlock := m.wsnBlock + 1 }

/-- POR_N low: every region, the plinth included, is at reset; NOR and the medium stay (R474, R475). -/
def State.powerOnReset (s : State) : State :=
  let t := s.resetRegions
  { State.reset with
    pending := s.pending, fresh := s.fresh, nor := t.nor, media := t.media.skipBlock, spaces := t.spaces
    cast := { moulds := t.cast.moulds } }

/-- A supply loss: an emergency retract with the spindle's gates low, then reset until the supply is back (R190, R474). -/
def State.supplyLoss (s : State) : State :=
  let s1 := ((s.event 0x30E).emergencyRetract).setFlag Adr.SPN_CMD Fld.SPN_CMD_gate_en false
  let s2 := s1.resetRegions.setFld Adr.PLN_STATUS Fld.PLN_STATUS_cause 1
  ((s2.setStep 1).modMedia Media.skipBlock).modPln (fun p => { p with supplyLost := true })

/-- A device reset: heads are parked by retract frames with the spindle turning, every region but the Plinth is reset, and start-up runs
from step 2 (R474). -/
def State.deviceReset (s : State) (b : Boot) : State :=
  let s1 := s.forActs (fun s a => if s.mode a = 0 then s else s.unloadFrame a)
  ((s1.forActs (fun s a => s.unloaded a)).setFld Adr.PLN_STATUS Fld.PLN_STATUS_cause 2).startFromStep2 b

/-! ## Power states (R467 to R473) -/

/-- Regions powered in a power state (R467). -/
def psRegions (ps : Nat) : Nat :=
  match ps with | 0 => 0x7F | 1 => 0x7F | 2 => 0x77 | 3 => 0x77 | 4 => 0x75 | _ => 1

/-- A power state change is in progress. -/
def State.psMoving (s : State) : Bool :=
  s.flag Adr.PWR_STATE Fld.PWR_STATE_entering || s.flag Adr.PWR_STATE Fld.PWR_STATE_exiting

/-- Entry to a lower state begins: open courses start to close (R469). -/
def State.beginEntry (s : State) (ps : Nat) : State :=
  let s1 := (s.setFlag Adr.PWR_STATE Fld.PWR_STATE_entering true).setFld Adr.PWR_STATE Fld.PWR_STATE_target ps
  if ps < 2 then s1 else s1.modMedia (fun m => { m with courses := m.courses.map (fun c => { c with closing := true }) })

/-- Exit to a higher state begins: its regions are powered, the mover claims its comparator, and the spindle starts or slews (R310,
R469). -/
def State.beginExit (s : State) (ps : Nat) : State :=
  let s1 := ((s.setFlag Adr.PWR_STATE Fld.PWR_STATE_exiting true).setFld Adr.PWR_STATE Fld.PWR_STATE_target ps).modPln
    (fun p => { p with exitDue := false, ps5Due := false })
  let before := s1.fld Adr.PWR_REGION Fld.PWR_REGION_powered
  let s2 := (s1.powerRegions (psRegions ps ||| before)).modTime (fun t => { t with loadDue := t.loadDue || decide (2 ≤ s.ps) })
  let s3 := if !bitOf before 3 && bitOf (psRegions ps) 3 then (s2.moverRelease).moverClaim else s2
  if s3.ps ≤ 1 ∨ 4 ≤ ps then s3
  else if s3.spin = 0 then s3.spinCommand 1 none
  else if s3.spin = 6 then
    -- from PS3 the spindle slews to spd_ref first
    (if s3.ps = 3 then s3.setFlag Adr.SPN_STATUS Fld.SPN_STATUS_at_speed false else s3).loadHeads
  else s3

/-- An exit to PS0 begins; during an entry it waits for the entry's end (R470, R472). -/
def State.startExit (s : State) : State :=
  if s.flag Adr.PWR_STATE Fld.PWR_STATE_entering then s.modPln (fun p => { p with exitDue := true })
  else if s.flag Adr.PWR_STATE Fld.PWR_STATE_exiting ∨ s.ps = 0 then s
  else (s.event 0x011 (s.reg Adr.PLN_WAKE).toNat).beginExit 0

/-- A wake event, recorded in PLN_WAKE, starts an exit to PS0 (R472). -/
def State.wake (s : State) (f : Fld) : State := (s.setFlag Adr.PLN_WAKE f true).startExit

/-- A command starts an exit to PS0; in PS4 it is recorded in PLN_WAKE (R470, R472). -/
def State.wakeCmd (s : State) : State := if s.ps = 4 then s.wake Fld.PLN_WAKE_cmd else s.startExit

/-- A wake event: in PS5 it enables the 50 MHz crystal, and start-up runs from step 2 once that is stable (R464, R471, R472). -/
def State.wakeEvent (s : State) (f : Fld) (b : Boot) : State :=
  if s.ps = 5 then
    let s1 := s.setFlag Adr.PLN_WAKE f true
    if s.pln.bootDue.isSome then s1
    else
      let s2 := s1.event 0x011 (s1.reg Adr.PLN_WAKE).toNat
      (s2.setFld Adr.PLN_STATUS Fld.PLN_STATUS_cause 3).modPln (fun p => { p with bootDue := some b })
  else s.wake f

end Sys2Proof.Machine
end

