-- ==== Sys2Proof/Machine/RegWrite.lean ====
section
/-! DEFINITION. What a write or read of each register does (R9 to R11, R29 to R31), and the rows that are one register access. -/

namespace Sys2Proof.Machine

open Sys2Proof

/-! ## Registers whose write has an effect of its own -/

/-- What FUNC_CTRLk takes besides cmd: its W1C bits. -/
def State.plainWrite (s : State) (a : Nat) (v : Word) : State :=
  match rowAt a with
  | some (r, _) => s.setReg a (writeMerge r.fields (s.reg a) v)
  | none => s

/-- A write of TMB_ALMk_CTL: irq and the W1C bits, a release, then a claim by the owner (R222, R503). -/
def State.writeAlarm (s : State) (k : Nat) (v : Word) : State :=
  let a := Adr.TMB_ALM_CTL k
  let s1 := s.plainWrite a v
  let s2 := if v.getLsbD 1 ∧ s1.fld a Fld.TMB_ALM_CTL_holder = 1 then s1.setFld a Fld.TMB_ALM_CTL_holder 0 else s1
  if !v.getLsbD 0 then s2
  else if s2.fld a Fld.TMB_ALM_CTL_holder ≤ 1 then s2.setFld a Fld.TMB_ALM_CTL_holder 1
  else (s2.setFlag a Fld.TMB_ALM_CTL_conflict true).event 0x34C

/-- A write of ECC_MODE: normal to test and back; any other is ignored. Leaving test mode disarms an injection (R420, R427). -/
def State.writeEccMode (s : State) (v : Word) : State :=
  let m := getBits v Fld.ECC_MODE_mode
  if s.eccMode = 0 ∧ m = 2 then s.setEccMode 2
  else if s.eccMode = 2 ∧ m = 0 then (s.setEccMode 0).setFlag Adr.ECC_INJ Fld.ECC_INJ_armed false
  else s

/-- A write of ECC_INJ: kind, and go arms in test mode (R427). -/
def State.writeEccInj (s : State) (v : Word) : State :=
  let s1 := s.plainWrite Adr.ECC_INJ v
  if v.getLsbD 31 ∧ s1.eccMode = 2 then s1.setFlag Adr.ECC_INJ Fld.ECC_INJ_armed true else s1

/-- Change the saved features in NOR. -/
def State.modFeatures (s : State) (f : Features → Features) : State := { s with nor := { s.nor with features := f s.nor.features } }

/-- The patina's mode becomes locked, once (R456). -/
def State.lockPatina (s : State) : State :=
  if s.nor.patLocked then s else ({ s with nor := { s.nor with patLocked := true } }).event 0x7A1

/-- A write of FLT_ERRTEST: go drives both outputs of the ERR pair high outside the fault state and a test (R449). -/
def State.writeErrTest (s : State) (v : Word) : State :=
  if v.getLsbD 0 ∧ s.faultState < 2 ∧ !s.flt.errTest then
    ({ s with flt := { s.flt with errTest := true } }).setFlag Adr.FLT_ERRTEST Fld.FLT_ERRTEST_busy true
  else s

/-- A write of HIF_CTRL: auth_req, and pcie_en; 0 ends association 1,024 at once (R342). -/
def State.writeHifCtrl (s : State) (v : Word) : State :=
  let s1 := s.plainWrite Adr.HIF_CTRL v
  if v.getLsbD 0 then s1 else (s1.endAssoc 1024).modHost (fun h => { h with pcieEnabled := false })

/-- What start-up finds, when nothing says so. -/
def State.bootFree (s : State) : Boot × State := (Config.boot s.fresh, { s with fresh := s.fresh + 1 })

/-- A write of PLN_RESET: a device reset with key 0xA5 and go (R474). -/
def State.writeReset (s : State) (v : Word) (b : Option Boot) : State :=
  if getBits v Fld.PLN_RESET_key = 0xA5 ∧ v.getLsbD 0 then
    match b with
    | some b => s.deviceReset b
    | none => let t := s.bootFree; t.2.deviceReset t.1
  else s

/-- A write of CPL_QSTAT: 1 clears overrun (R348). -/
def State.writeQstat (s : State) (q : Nat) (v : Word) : State :=
  if v.getLsbD 30 then s.modQueue q (fun k => { k with overrun := false }) else s

/-- What an owner's write of one register does, once performed (R10, R34). -/
def State.performWrite (s : State) (a : Nat) (v : Word) : State :=
  match rowAt a with
  | none => s
  | some (r, ix) =>
    let i := ix.getD 0 0
    match r.name with
    | "FUNC_CTRL" => (s.plainWrite a v).funcRequest i (getBits v Fld.FUNC_CTRL_cmd)
    | "CFG_CMD" => s.cfgCommand v
    | "CHN_PSC_ACC" => s.writePscAcc (actOf i) v
    | "SPN_CMD" => s.writeSpnCmd v none
    | "SPN_ISNSCFG" => s.writeIsns v none
    | "TMB_PLCTL" => let t := s.plainWrite a v; if v.getLsbD 0 then t.requestApproach else t
    | "TMB_PHOFS" =>
      let t := s.plainWrite a v
      t.modFeatures (fun f => { f with savedC4 := t.fld a Fld.TMB_PHOFS_po })
    | "GLK_CLAIM" => s.glkWrite v
    | "DBG_TRC" => s.traceWrite v
    | "TMB_ALM_CTL" => s.writeAlarm i v
    | "TMB_ALM_LO" => if s.fld (Adr.TMB_ALM_CTL i) Fld.TMB_ALM_CTL_holder = 1 then (s.plainWrite a v).alarmSet i else s
    | "TMB_ALM_HI" => if s.fld (Adr.TMB_ALM_CTL i) Fld.TMB_ALM_CTL_holder = 1 then (s.plainWrite a v).alarmSet i else s
    | "CST_STGCLAIM" => s.writeStgclaim v
    | "ECC_MODE" => s.writeEccMode v
    | "ECC_INJ" => s.writeEccInj v
    | "ECC_INJADDR_LO" => s.plainWrite a (v &&& 0xFFFFFFF8)
    | "ECC_BUCKET" =>
      let t := s.plainWrite a v
      t.modFeatures (fun f => { f with savedC5 := (t.reg a).toNat })
    | "FLT_CTRL" =>
      let t := s.plainWrite a v
      t.modFeatures (fun f => { f with savedC6 := (t.reg a).toNat })
    | "FLT_ERRTEST" => s.writeErrTest v
    | "PAT_CTRL" => if v.getLsbD 0 then s.lockPatina else s
    | "HIF_CTRL" => s.writeHifCtrl v
    | "PLN_RESET" => s.writeReset v none
    | "PLN_WALM_LO" => (s.plainWrite a v).wakeClaim
    | "PLN_WALM_HI" => (s.plainWrite a v).wakeClaim
    | "PLN_WAKECFG" => (s.plainWrite a v).wakeClaim
    | "CPL_QSTAT" => s.writeQstat i v
    | _ =>
      match rowFunc r ix with
      | some k => s.writeConfig k a v
      | none => s.plainWrite a v

/-! ## Reads -/

/-- The latch of a path. -/
def Latches.get (l : Latches) (p : Path) : RegFile :=
  match p with | .pcie => l.pcie | .regCmd => l.regCmd | .snapshot => l.snapshot

/-- Set it. -/
def Latches.set (l : Latches) (p : Path) (f : RegFile) : Latches :=
  match p with
  | .pcie => { l with pcie := f }
  | .regCmd => { l with regCmd := f }
  | .snapshot => { l with snapshot := f }

/-- An RC field read by software takes its reset value (R10). -/
def State.clearRead (s : State) (a : Nat) : State :=
  match rowAt a with
  | none => s
  | some (r, _) =>
    let m := accMask r.fields (fun x => x == .rc)
    if m = 0 then s else s.setReg a ((s.reg a &&& ~~~m) ||| (resetWord a &&& m))

/-- A register that shows a free value. -/
def isMeter (a : Nat) : Bool := [Adr.PWR_REGION, Adr.MEM_BW, Adr.L2C_STATUS, Adr.L2C_HIT, Adr.L2C_MISS, Adr.L2C_PF].contains a

/-- One register read of a path: its value is readData, its low word latches the upper ones, its RC fields clear; a region that is
powered off reads 0, with event 0x0E0, and the read waits while its region restarts or an earlier access of its path waits (R10, R11,
R29, R31). A snapshot waits for nothing, clears nothing and records nothing (R452). DESIGN CHOICE (log entry 120): R31 applies
to a reserved address inside the window of a region as to its registers; R2 says only that such a read returns 0. -/
def State.performRead (s : State) (p : Path) (a : Nat) : State :=
  match regionOf a with
  | none => { s with readData := 0 }
  | some r =>
    if p ≠ .snapshot ∧ s.accessWaits p a then { s with heldRegs := s.heldRegs ++ [⟨p, 0, a, 0, false⟩] }
    else if !s.powered r || (s.restarting r && !survivesRestart a) then
      (if p = .snapshot then { s with readData := 0 } else ({ s with readData := 0 }).event 0x0E0)
    else
      let v := s.latchRead (s.latches.get p) a
      let s1 := { s with readData := v.1, latches := s.latches.set p v.2, fresh := s.fresh + b2n (isMeter a) }
      if p = .snapshot then s1 else s1.clearRead a

/-- A read at any byte address: through BAR0 it reads the whole register that holds the byte; elsewhere it must be aligned (R9). -/
def State.readAt (s : State) (p : Path) (a : Nat) : State :=
  if p = .pcie then s.performRead p (a - a % 4) else if a % 4 = 0 then s.performRead p a else s

/-- LOW_WORD_READ (R9, R11). -/
def execLowWordRead (path : Path) (addr : Nat) (s : State) : Res := .next (s.readAt path addr)

/-- CLEAR_ON_READ (R9, R10). -/
def execClearOnRead (path : Path) (addr : Nat) (s : State) : Res := .next (s.readAt path addr)

/-! ## Writes -/

/-- PLAIN_REGISTER_WRITE: one 32-bit write by the owner; a BAR0 write of another width, and one at an address that is no multiple of 4,
writes nothing (R5, R9, R12, R28 to R31). -/
def execPlainRegisterWrite (path : Path) (assoc addr nbytes : Nat) (value : Word) (s : State) : Res :=
  if nbytes ≠ 4 ∨ addr % 4 ≠ 0 ∨ path = .snapshot then .next s
  else .next (s.ownerReg assoc addr value (fun s => s.performWrite addr value))

/-- A waiting access is made again: performed, or once more made to wait; a write only from who is the owner now (R29 to R31). -/
def State.accessAgain (s : State) (h : HeldReg) : State :=
  if h.write then s.ownerReg h.assoc h.addr h.value (fun s => s.performWrite h.addr h.value) else s.performRead h.path h.addr

/-- The waiting accesses are made again in order (R29, R31). -/
def State.performHeldRegs (s : State) : State := s.heldRegs.foldl (fun s h => s.accessAgain h) { s with heldRegs := [] }

/-- The waiting accesses to region r end as accesses to a region that is off, a read giving 0; those behind them are made again (R31). -/
def State.endHeldRegs (s : State) (r : Nat) : State :=
  s.heldRegs.foldl (fun s h =>
    if regionOf h.addr = some r then (if h.write then s else { s with readData := 0 }).event 0x0E0 else s.accessAgain h)
    { s with heldRegs := [] }

/-- The register commands that wait for region r end with 91h (R31). -/
def State.endRegionWaits (s : State) (r : Nat) : State :=
  let waits (x : Ctx) : Bool := match x.wait with | .region k _ _ => k == r | _ => false
  (s.host.ctxs.filter waits).foldl (fun s x => (s.event 0x0E0).complete x .stopped) s

/-- ECC_MODE_WRITE (R420). -/
def execEccModeWrite (assoc : Nat) (value : Word) (s : State) : Res :=
  .next (s.ownerReg assoc Adr.ECC_MODE value (fun s => s.writeEccMode value))

/-- ECC_INJ_ARM (R427). -/
def execEccInjArm (assoc : Nat) (value : Word) (s : State) : Res :=
  let v := value ||| 0x80000000
  .next (s.ownerReg assoc Adr.ECC_INJ v (fun s => s.writeEccInj v))

/-- PCIE_EN_WRITE (R342). -/
def execPcieEnWrite (assoc : Nat) (value : Word) (s : State) : Res :=
  .next (s.ownerReg assoc Adr.HIF_CTRL value (fun s => s.writeHifCtrl value))

/-- ERR_TEST: the owner writes FLT_ERRTEST.go (R449). -/
def execErrTest (assoc : Nat) (value : Word) (s : State) : Res :=
  let v := value ||| 1
  .next (s.ownerReg assoc Adr.FLT_ERRTEST v (fun s => s.writeErrTest v))

/-- PATINA_LOCK: the owner writes PAT_CTRL.locked (R456). -/
def execPatinaLock (assoc : Nat) (s : State) : Res :=
  .next (s.ownerReg assoc Adr.PAT_CTRL 1 (fun s => s.lockPatina))

/-- DEVICE_RESET: the owner writes PLN_RESET with its key, or makes an NVMe Subsystem Reset (R474). -/
def execDeviceReset (assoc : Nat) (value : Word) (subsystem : Bool) (boot : Boot) (s : State) : Res :=
  if subsystem then .next (if s.isOwner assoc then s.deviceReset boot else s)
  else .next (s.ownerReg assoc Adr.PLN_RESET value (fun s => s.writeReset value (some boot)))

/-- ALARM_CLAIM: the owner writes claim of TMB_ALMk_CTL (R222). -/
def execAlarmClaim (assoc : Nat) (k : Fin 8) (value : Word) (s : State) : Res :=
  let v := setBits value Fld.TMB_ALM_CTL_claim 1
  .next (s.ownerReg assoc (Adr.TMB_ALM_CTL k) v (fun s => s.writeAlarm k v))

/-- ALARM_RELEASE: the owner writes release of TMB_ALMk_CTL, with irq as it stands (R222). -/
def execAlarmRelease (assoc : Nat) (k : Fin 8) (s : State) : Res :=
  let a := Adr.TMB_ALM_CTL k
  let v := setBits (s.reg a &&& Fld.mask Fld.TMB_ALM_CTL_irq) Fld.TMB_ALM_CTL_release 1
  .next (s.ownerReg assoc a v (fun s => s.writeAlarm k v))

/-! ## Function and configuration rows (R34 to R45) -/

/-- FUNC_STOP: a stop written to FUNC_CTRLk.cmd. -/
def execFuncStop (assoc func : Nat) (s : State) : Res :=
  .next (s.ownerReg assoc (Adr.FUNC_CTRL func) 1 (fun s => if func < 15 then s.funcRequest func 1 else s))

/-- FUNC_RESTART: a restart written to FUNC_CTRLk.cmd. -/
def execFuncRestart (assoc func : Nat) (s : State) : Res :=
  .next (s.ownerReg assoc (Adr.FUNC_CTRL func) 2 (fun s => if func < 15 then s.funcRequest func 2 else s))

/-- FUNC_ABANDON: an abandon written to FUNC_CTRLk.cmd. -/
def execFuncAbandon (assoc func : Nat) (s : State) : Res :=
  .next (s.ownerReg assoc (Adr.FUNC_CTRL func) 3 (fun s => if func < 15 then s.funcRequest func 3 else s))

/-- A value of CFG_CMD. -/
def cfgWord (cmd func : Nat) : Word := setBits (setBits 0 Fld.CFG_CMD_cmd cmd) Fld.CFG_CMD_func func

/-- CFG_STORE: cmd 0b01 (R44). -/
def execCfgStore (assoc : Nat) (s : State) : Res :=
  .next (s.ownerReg assoc Adr.CFG_CMD (cfgWord 1 0) (fun s => s.cfgCommand (cfgWord 1 0)))

/-- CFG_CAPTURE: cmd 0b10 of a function (R44). -/
def execCfgCapture (assoc func : Nat) (s : State) : Res :=
  .next (s.ownerReg assoc Adr.CFG_CMD (cfgWord 2 func) (fun s => s.cfgCommand (cfgWord 2 func)))

/-- CFG_REMOVE: cmd 0b11 of the kind and key in CFG_KIND and CFG_KEY (R44). -/
def execCfgRemove (assoc : Nat) (s : State) : Res :=
  .next (s.ownerReg assoc Adr.CFG_CMD (cfgWord 3 0) (fun s => s.cfgCommand (cfgWord 3 0)))

/-- CFG_STORE_DONE: the record is in NOR, or its write failed (R44). -/
def execCfgStoreDone (ok : Bool) (s : State) : Res := .next (s.cfgDone ok)

end Sys2Proof.Machine
end

