-- ==== Sys2Proof/Machine/MediaCmd.lean ====
section
/-! DEFINITION. What Read, Timed Read, Write, Write Zeroes, Dataset Management, Flush and Transform do once admitted (R374 to R379,
R386, R390, R391, R398), and the pass that puts a write on the medium (R235 to R238, R242, R248, R375). -/

namespace Sys2Proof.Machine

open Sys2Proof

/-! ## The namespace and place of an LBA -/

/-- The LBA namespace a command finds. -/
def State.lbaSpace (s : State) (x : Ctx) (ns : Nat) : Option Namespace :=
  match s.spaceFor x.order ns with
  | some sp => if sp.mould then none else some sp
  | none => none

/-- A media address lies in a lost extent: its truss is broken and its unit missing (R246). -/
def State.lostAt (s : State) (x : Nat) : Bool :=
  match s.media.layout with
  | some l => s.media.isBroken l (x / 576) && s.media.missing l (x / 576) (x % 576 / 64)
  | none => false

/-- Where sector x is written: itself, or its truss parity sector while its unit is missing (R242). -/
def State.writtenAt (s : State) (x : Nat) : Nat := if s.missingAt x then x / 576 * 576 + 512 + x % 64 else x

/-- The actuator that serves a media address. -/
def State.actAt (s : State) (x : Nat) : Fin 4 :=
  match s.locate x with | some p => surfaceAct p.surface | none => surfaceAct (s.homeSurface x)

/-- What a command waits for when actuator a does not serve (R35, R188, R213, R231). -/
def State.actWait (s : State) (a : Fin 4) : Wait :=
  if !s.funcRunning a then .func a
  else if !s.funcRunning (4 + a) then .func (4 + a)
  else if s.phase = 2 then .approach
  else if !s.flag Adr.SPN_RETRACT Fld.SPN_RETRACT_armed then .retract
  else .actuator a

/-! ## Reading (R226, R231, R232, R242, R246, R248, R379) -/

/-- What a read of one LBA meets: its bytes, a status, something to wait for, or the loss of its data. -/
inductive SectorRead where
  | data (d : List Byte)
  | fail (t : Status)
  | hold (w : Wait)
  | gone
deriving DecidableEq, Repr

/-- An actuator that one of the other units of x's truss lies on and that does not serve; a clean unit counts as zeros and is not read (R72). -/
def State.helperDown (s : State) (x : Nat) : Option (Fin 4) :=
  ((List.range 9).filter (fun j => j != x % 576 / 64 && !s.media.isClean (x / 576) j)).findSome? (fun j =>
    let a := s.actAt (x / 576 * 576 + j * 64 + x % 64)
    if s.actServes a then none else some a)

/-- The read of the LBA at media address x: zeros of a clean unit; DRAM's copy; the other units of the truss while its own is missing; else its sector
is read (R226, R231, R232, R242, R246, R379). -/
def State.sectorRead (s : State) (ns lba x : Nat) : SectorRead :=
  if !s.media.units.contains (x / 64) then .data (List.replicate s.lbaSize 0)
  else if s.lostAt x then .fail .lost
  else if s.media.unrec.any (fun u => u.ns == ns && u.lba == lba) then .fail .unrecovered
  else
    match lookupKey s.media.dram x with
    | some d => .data d
    | none =>
      if s.media.buffered.contains x then .data (s.onMedium x)
      else if s.pln.noMedia then .fail .notReady
      else if s.missingAt x then
        if s.media.isStale (x / 576) (x % 64) then .gone
        else match s.helperDown x with
          | some a => .hold (s.actWait a)
          | none => .data (s.restOfTruss (x / 576) (x % 576 / 64) (x % 64))
      else
        let a := s.actAt x
        if !s.actServes a then .hold (s.actWait a)
        else if (s.media.erasedAt x).isSome then .hold .recovery
        else .hold .mediaRead

/-- The outcome of reading LBAs: the first thing to wait for beside the medium itself, the sectors to be read, the lowest failed LBA with its status,
the bytes read, newest first. -/
structure Reading where
  wait : Option Wait := none
  sectors : List Nat := []
  fail : Option (Status × Nat) := none
  bytes : List (List Byte) := []
deriving DecidableEq, Repr

/-- Read the LBAs of a namespace in ascending order. -/
def State.readLbas (s : State) (sp : Namespace) (ns : Nat) (lbas : List Nat) : Reading × State :=
  lbas.foldl (fun (p : Reading × State) l =>
    let r := p.1
    let s := p.2
    let failed (t : Status) : Reading := { r with fail := match r.fail with | some f => some f | none => some (t, l) }
    match sp.mediaOf l with
    | none => (failed .range, s)
    | some x =>
      match s.sectorRead ns l x with
      | .data d => ({ r with bytes := d :: r.bytes }, s)
      | .fail t => (failed t, s)
      | .hold .mediaRead => ({ r with sectors := r.sectors ++ [x] }, s)
      | .hold w => ({ r with wait := match r.wait with | some v => some v | none => some w }, s)
      | .gone => (failed .unrecovered, s.addUnrec ns l (s.homeSurface x))) ({}, s)

/-! ## Sector lists (R106) -/

/-- The sector list entry of sector x for a command, on its actuator (R60 to R66, R106). -/
def State.entryOf (s : State) (write : Bool) (x : Nat) (d : List Byte) (c : Ctx) : Option (Fin 4 × Entry) :=
  match s.locate x with
  | none => none
  | some p =>
    match zoneOfTrack (s.surfZones p.surface) p.track with
    | none => none
    | some (_, z) =>
      (z.places.1[p.sector]?).map (fun pl =>
        (surfaceAct p.surface,
         { media := x, write := write, head := p.surface % 8, track := p.track, sector := p.sector
           interval := (p.track * z.skew + pl.interval) % 128, tgt := pl.pos, len1 := pl.len1, len2 := pl.len2, data := d
           assoc := c.assoc, qid := c.qid, cid := c.cid }))

/-- An entry has not been given back, and its outcome is not one that a further pass follows without recovery. -/
def Entry.open_ (e : Entry) : Bool := !e.returned && (match e.outcome with | some n => decide (n < 6) | none => true)

/-- The sectors a read needs are in the sector lists for it: each that has no open entry gets one (R226). -/
def State.listReads (s : State) (c : Ctx) (xs : List Nat) : State :=
  xs.foldl (fun s x =>
    match s.entryOf false x [] c with
    | none => s
    | some (a, e) =>
      let mine (f : Entry) : Bool := f.media == x && f.isOf false c.assoc c.qid c.cid
      if (s.act a).seq.list.any (fun f => mine f && f.open_) then s
      else s.modSeq a (fun q => let r := q.dropEntries mine; { r with list := r.list ++ [e] })) s

/-- Read LBAs for a command: it waits, fails with the status of its lowest failed LBA (R248), or goes on with the sectors. -/
def State.reading (s : State) (x : Ctx) (sp : Namespace) (ns : Nat) (lbas : List Nat)
    (k : List (List Byte) → State → State) : State :=
  let p := s.readLbas sp ns lbas
  match p.1.wait, p.1.sectors, p.1.fail with
  | some w, xs, _ => (s.listReads x xs).waitFor x w
  | none, _ :: _, _ => (s.listReads x p.1.sectors).waitFor x .mediaRead
  | none, [], some (t, l) => p.2.complete x t 0 0 [] l ns
  | none, [], none => k p.1.bytes.reverse p.2

/-! ## The launch of a class-0 command (R220) -/

/-- The namespace and LBAs that a Read or Timed Read takes. -/
def launchRange (i : Instr) : Option (Nat × List Nat) :=
  let l (c : Cmd) : List Nat := (List.range (nlbOf c)).map (fun k => slbaOf c + k)
  match i with
  | .read c => some (c.nsid.toNat, l c)
  | .timedRead c => some (c.nsid.toNat, l c)
  | _ => none

/-- The media addresses of the sectors that a Read or Timed Read takes. -/
def State.sectorsOf (s : State) (x : Ctx) : List Nat :=
  match x.instr.bind launchRange with
  | some (ns, l) => match s.lbaSpace x ns with | some sp => l.filterMap sp.mediaOf | none => []
  | none => []

/-- The actuators a command needs. -/
def State.needs (s : State) (x : Ctx) : List (Fin 4) := ((s.sectorsOf x).map s.actAt).eraseDups

/-- A class-0 command is launched: whether its data is in DRAM, and whether an actuator it needs holds more than 8 class-0 commands with it (R220). -/
def State.noteLaunch (s : State) (x : Ctx) : State :=
  if x.cls ≠ 0 ∨ x.launched then s
  else
    let others := s.host.ctxs.filter (fun y => y.cls == 0 && y.launched)
    let crowd := (s.needs x).any (fun a => decide (8 ≤ (others.filter (fun y => (s.needs y).contains a)).length))
    let staged := (s.sectorsOf x).all (fun m => !s.media.units.contains (m / 64) || s.media.buffered.contains m
      || (lookupKey s.media.dram m).isSome)
    s.modCtx x.assoc x.qid x.cid (fun y => { y with launched := true, staged := staged, delayed := y.delayed || crowd })

/-! ## Range locks of a command (R398, R399) -/

/-- Go on once the command's range lock is granted; it is requested when it has no request yet. -/
def State.withLock (s : State) (x : Ctx) (i : Instr) (f : State → State) : State :=
  match lockOf i with
  | none => f s
  | some r =>
    let s1 := if (s.host.lockAt x.assoc x.qid x.cid).isNone then s.addLock x.assoc x.qid x.cid r else s
    match s1.host.lockAt x.assoc x.qid x.cid with
    | some k => if k.granted then f s1 else s1.waitFor x .lock
    | none => s1.waitFor x .lock

/-! ## Writing -/

/-- Forget a write: its entries and its place among the pending writes go. -/
def State.dropWrite (s : State) (a q c : Nat) : State :=
  (s.modMedia (fun m => { m with writes := m.writes.filter (fun w => !(w.assoc == a && w.qid == q && w.cid == c)) })).dropList true a q c

/-- The data of place k of a write: zeros where it carries none. -/
def State.writeData (s : State) (data : List Byte) (k : Nat) : List Byte :=
  if data.isEmpty then List.replicate s.lbaSize 0 else slice data (k * s.lbaSize) s.lbaSize

/-- What the sector that holds x takes when x is written with data: the data, or, while its unit is missing, the exclusive OR of the data with the
other data units, for its truss parity sector (R242). -/
def State.fieldFor (s : State) (x : Nat) (d : List Byte) : List Byte :=
  if s.missingAt x then
    ((List.range 8).filter (fun n => n != x % 576 / 64)).foldl (fun acc n => xorBytes acc (s.onMedium (x / 576 * 576 + n * 64 + x % 64)))
      (fitBytes d s.lbaSize)
  else fitBytes d s.lbaSize

/-- The data of a write is wholly in DRAM: it pends, its sectors enter the sector lists, and the command waits for the medium (R23). -/
def State.addWrite (s : State) (x : Ctx) (sp : Namespace) (ns : Nat) (lbas : List Nat) (data : List Byte) (dealloc : List Nat)
    (dw0 dw1 : Nat) : State :=
  let w : PendWrite := { assoc := x.assoc, qid := x.qid, cid := x.cid, ns := ns, lbas := lbas, data := data, dealloc := dealloc
                         todo := List.range lbas.length, dw0 := dw0, dw1 := dw1 }
  let es := lbas.zipIdx.filterMap (fun l => (sp.mediaOf l.1).bind (fun m =>
    s.entryOf true (s.writtenAt m) (s.fieldFor m (s.writeData data l.2)) x))
  let s1 := s.modMedia (fun m => { m with writes := m.writes ++ [w] })
  let s2 := s1.forActs (fun s a => s.modSeq a (fun q => { q with list := q.list ++ (es.filter (fun e => e.1 == a)).map (fun e => e.2) }))
  s2.waitFor x .mediaWrite

/-- The trailing buffer has room for n more sectors (R409). -/
def State.trailRoom (s : State) (n : Nat) : Bool :=
  let waiting := s.media.writes.foldl (fun k w => k + (if w.data.isEmpty then 0 else w.todo.length)) 0
  decide ((s.media.buffered.length + waiting + n) * s.lbaSize ≤ s.fld Adr.MEM_CFG Fld.MEM_CFG_trail_mib * 1048576)

/-- A function of the actuators of a list of media addresses that is not running. -/
def State.stoppedFor (s : State) (xs : List Nat) : Option Nat :=
  xs.findSome? (fun x =>
    let a := s.actAt (s.writtenAt x)
    if !s.funcRunning a then some a.val else if !s.funcRunning (4 + a) then some (4 + a.val) else none)

/-- A write of LBAs and a deallocation of units begins: a lost extent ends it with nothing written, a function that is not running and a
full trailing buffer hold it (R35, R374, R409). touched lists every LBA of the command. -/
def State.beginWrite (s : State) (x : Ctx) (sp : Namespace) (ns : Nat) (touched lbas : List Nat) (data : List Byte) (dealloc : List Nat)
    (dw0 dw1 : Nat) : State :=
  match touched.find? (fun l => match sp.mediaOf l with | some m => s.lostAt m | none => false) with
  | some l => s.complete x .lost 0 0 [] l ns
  | none =>
    if s.pln.noMedia ∧ !lbas.isEmpty then s.complete x .notReady
    else
      match s.stoppedFor (lbas.filterMap sp.mediaOf) with
      | some k => s.waitFor x (.func k)
      | none =>
        if !s.flag Adr.SPN_RETRACT Fld.SPN_RETRACT_armed ∧ !lbas.isEmpty then s.waitFor x .retract
        else if !data.isEmpty && !s.trailRoom lbas.length then s.waitFor x .trailing
        else s.addWrite x sp ns lbas data dealloc dw0 dw1

/-- A truss would newly trail by a write of sector x. -/
def State.newTrail (s : State) (x : Nat) : Bool :=
  !s.missingAt x && !(match s.media.layout with | some l => s.media.isBroken l (x / 576) | none => false)
    && !s.media.trailing.any (fun r => r.truss == x / 576)

/-- An entry of a write whose pass was cut: by code 5 or 6, or by a retract (R190, R234). -/
def Entry.wasCut (e : Entry) : Bool := e.write && (e.outcome == some 5 || e.outcome == some 6 || e.outcome == some 8)

/-- The write of a command to sector x has been cut and not written again (R234). -/
def State.cutAt (s : State) (a q c x : Nat) : Bool :=
  (s.act (s.actAt x)).seq.list.any (fun e => e.wasCut && e.media == x && e.isOf true a q c)

/-- Sector x is on the medium with data: what DRAM held of it goes, its course and truss follow, and it counts as read no more as erased (R226, R235,
R237). -/
def State.putSector (s : State) (x : Nat) (d : List Byte) : State :=
  let s1 := ((s.recordSector (s.writtenAt x) (s.fieldFor x d)).forget x).noteWritten x
  s1.modMedia (fun m => { m with erased := m.erased.filter (fun e => e.media != x) })

/-- The sectors that the write of x writes: itself, and with the first write of a clean unit the unit's others (R379). -/
def State.unitSectors (s : State) (x : Nat) : List Nat :=
  if s.media.units.contains (x / 64) || s.missingAt x then [x]
  else x :: ((List.range 64).map (fun i => x / 64 * 64 + i)).filter (fun y => y != x)

/-- One LBA of a pending write, place k of its list, goes to the medium; none while it is held, by a rebuild of its truss too (R235, R237, R242, R243, R379). -/
def State.writeOne (s : State) (w : PendWrite) (sp : Namespace) (k : Nat) : Bool × State :=
  match (w.lbas[k]?).bind (fun lba => (sp.mediaOf lba).map (fun x => (lba, x))) with
  | none => (true, s)
  | some (_, x) =>
    if !s.mayPlace (8 * s.actAt (s.writtenAt x)) then (false, s)
    else if s.newTrail x && decide (s.fld Adr.MDI_TRAIL Fld.MDI_TRAIL_trail_max ≤ s.media.trailing.length) then
      (false, s)
    else if s.media.rebuildLock = some (x / 576) then (false, s)
    else if !s.roomFor ((s.unitSectors x).map s.writtenAt) then (false, s.makeRoom)
    else if s.cutAt w.assoc w.qid w.cid (s.writtenAt x) then (false, s)
    else
      let s1 := (s.unitSectors x).foldl (fun (t : State) y => t.putSector y (if y = x then s.writeData w.data k else [])) s
      (true, s1.unclean x)

/-- The places of a pending write that nothing holds go to the medium; those that are left (R235). -/
def State.writeRest (s : State) (w : PendWrite) (sp : Namespace) (l : List Nat) : List Nat × State :=
  match l with
  | [] => ([], s)
  | k :: r =>
    let t := s.writeOne w sp k
    let u := t.2.writeRest w sp r
    (if t.1 then u.1 else k :: u.1, u.2)

/-- Truss t trails, every position stale. -/
def staleAll (l : List Trail) (t now : Nat) : List Trail :=
  if l.any (fun r => r.truss == t) then l.map (fun (r : Trail) => if r.truss = t then { r with stale := List.range 64 } else r)
  else l ++ [⟨t, List.range 64, now⟩]

/-- A unit becomes clean: its parity trails at every position, and its unrecovered entries go (R232, R379). -/
def State.deallocUnit (s : State) (ns : Nat) (sp : Namespace) (u : Nat) : State :=
  if !s.media.units.contains u then s
  else
    let t := u / 9
    let s1 := s.cleanUnit u
    let broken := match s.media.layout with | some l => s.media.isBroken l t | none => true
    let s2 := if broken then s1 else s1.nowTrails (staleAll s.media.trailing t s.now)
    let s3 := s2.modMedia (fun m => { m with
      erased := m.erased.filter (fun e => e.media / 64 != u), buffered := m.buffered.filter (fun y => y / 64 != u)
      dram := m.dram.filter (fun y => y.1 / 64 != u), rewrites := m.rewrites.filter (fun y => y.1 / 64 != u) })
    match sp.trusses.idxOf? t with
    | some n => s3.modMedia (fun m => { m with unrec := m.unrec.filter (fun e => !(e.ns == ns && e.lba / 64 == n * 8 + u % 9)) })
    | none => s3

/-- MEDIA_WRITE_DONE: the sectors of a pending write reach the medium as far as nothing holds them; with the last one, and every unit
deallocated, the command completes (R23, R375, R376). -/
def execMediaWriteDone (assoc qid cid : Nat) (s : State) : Res :=
  match s.media.writes.find? (fun w => w.assoc == assoc && w.qid == qid && w.cid == cid) with
  | none => .next s
  | some w =>
    let order := match s.ctx assoc qid cid with | some x => x.order | none => 0
    match s.spaceFor order w.ns with
    | none => .next (s.dropWrite assoc qid cid)
    | some sp =>
      let t := s.writePass.writeRest w sp w.todo
      -- a pass in which nothing is written is none
      let s1 := if t.1 = w.todo then t.2.modMedia (fun m => { m with wsn := s.media.wsn, wsnBlock := s.media.wsnBlock }) else t.2
      if !t.1.isEmpty then
        .next (s1.modMedia (fun m => { m with writes := m.writes.map (fun v =>
          if v.assoc = assoc ∧ v.qid = qid ∧ v.cid = cid then { v with todo := t.1, held := true } else v) }))
      else
        let s1 := w.lbas.foldl (fun (s : State) l => s.clearUnrec w.ns l) s1
        let s2 := (w.dealloc.foldl (fun (s : State) u => s.deallocUnit w.ns sp u) s1).dropWrite assoc qid cid
        .next (match s2.ctx assoc qid cid with | some x => s2.complete x .ok w.dw0 w.dw1 | none => s2)

/-! ## The commands -/

/-- Largest block count of a data transfer (R366). -/
def State.maxBlocks (s : State) : Nat := 8388608 / s.lbaSize

/-- PRINFO and DTYPE are 0 (R374). -/
def plainCdw12 (w : Word) : Bool := getBits w ⟨29, 26⟩ == 0 && getBits w ⟨23, 20⟩ == 0

/-- LBAs first to first + n - 1. -/
def lbaRun (first n : Nat) : List Nat := (List.range n).map (fun k => first + k)

/-- The checks 3, 6 and 7 of a Read or Write (R363, R366, R374): its namespace, or the status. -/
def State.rwCheck (s : State) (x : Ctx) (c : Cmd) (fields : Bool) : Except Status Namespace :=
  match s.lbaSpace x c.nsid.toNat with
  | none => .error .ns
  | some sp =>
    if !fields || decide (s.maxBlocks < nlbOf c) then .error .field
    else if sp.nsze < slbaOf c + nlbOf c then .error .range
    else .ok sp

/-- Read (R374). -/
def State.bodyRead (s : State) (x : Ctx) (i : Instr) (c : Cmd) : State :=
  match s.rwCheck x c (plainCdw12 c.cdw12) with
  | .error t => s.complete x t
  | .ok sp => (s.noteLaunch x).withLock x i (fun s =>
      s.reading x sp c.nsid.toNat (lbaRun (slbaOf c) (nlbOf c)) (fun l s => s.complete x .ok 0 0 l.flatten))

/-- Write (R374, R375). -/
def State.bodyWrite (s : State) (x : Ctx) (i : Instr) (c : Cmd) : State :=
  match s.rwCheck x c (plainCdw12 c.cdw12) with
  | .error t => s.complete x t
  | .ok sp => s.withLock x i (fun s =>
      let l := lbaRun (slbaOf c) (nlbOf c)
      s.beginWrite x sp c.nsid.toNat l l (fitBytes c.data (l.length * s.lbaSize)) [] 0 0)

/-- The LBAs written with zeros and the units made clean by a deallocation of ranges: whole units of 64 LBAs become clean (R376, R379). -/
def splitRanges (sp : Namespace) (ranges : List (Nat × Nat)) : List Nat × List Nat :=
  let lbas := (ranges.flatMap (fun r => lbaRun r.1 r.2)).eraseDups
  let whole (r : Nat × Nat) : List Nat :=
    let first := (r.1 + 63) / 64
    (List.range ((r.1 + r.2) / 64 - first)).map (fun k => first + k)
  let us := (ranges.flatMap whole).eraseDups
  (lbas.filter (fun l => !us.contains (l / 64)), us.filterMap (fun u => (sp.mediaOf (64 * u)).map (fun x => x / 64)))

/-- Write Zeroes (R376). -/
def State.bodyWriteZeroes (s : State) (x : Ctx) (i : Instr) (c : Cmd) : State :=
  match s.lbaSpace x c.nsid.toNat with
  | none => s.complete x .ns
  | some sp =>
    let first := slbaOf c
    let n := nlbOf c
    if sp.nsze < first + n then s.complete x .range
    else s.withLock x i (fun s =>
      let p := if bitOf c.cdw12.toNat 25 then splitRanges sp [(first, n)] else (lbaRun first n, [])
      s.beginWrite x sp c.nsid.toNat (lbaRun first n) p.1 [] p.2 0 0)

/-- Dataset Management (R377). -/
def State.bodyDatasetManagement (s : State) (x : Ctx) (i : Instr) (c : Cmd) : State :=
  match s.lbaSpace x c.nsid.toNat with
  | none => s.complete x .ns
  | some sp =>
    let r := (rangesOf c).filter (fun p => p.2 != 0)
    if r.any (fun p => decide (sp.nsze < p.1 + p.2)) then s.complete x .range
    else if !bitOf c.cdw11.toNat 2 then s.complete x .ok
    else s.withLock x i (fun s =>
      let p := splitRanges sp r
      s.beginWrite x sp c.nsid.toNat (r.flatMap (fun q => lbaRun q.1 q.2)) p.1 [] p.2 0 0)

/-- Flush (R378). -/
def State.bodyFlush (s : State) (x : Ctx) (c : Cmd) : State :=
  if c.nsid = 0xFFFFFFFF ∨ (s.spaceFor x.order c.nsid.toNat).isSome then s.complete x .ok else s.complete x .ns

/-! ## Timed commands (R217 to R219, R390) -/

/-- The launch time of a Timed Read. -/
def timedL (c : Cmd) : Nat := leAt c.mid 0 8
/-- The launch angle of a Timed Read. -/
def timedAngle (c : Cmd) : Option Nat := if bitOf c.cdw13.toNat 16 then some (c.cdw13.toNat % 65536) else none
/-- The reserved bits of a Timed Read are 0 (R386). -/
def timedFields (c : Cmd) : Bool := ofLe (slice c.mid 8 8) == 0 && c.cdw12.toNat / 65536 == 0 && c.cdw13.toNat / 131072 == 0

/-- The launch time check of R217: none passes. -/
def launchCheck (l arrival : Nat) : Option Status :=
  if l < arrival then some (.vendor 0x82) else if arrival + 60000000000 < l then some (.vendor 0x83) else none

/-- A timed command is launched now, or waits for its launch instant, as a launch that is due while the time base function is not running does (R35,
R218, R219). -/
def State.launchAt (s : State) (x : Ctx) (l : Nat) (theta : Option Nat) (k : State → State) : State :=
  if theta.isNone && decide (l ≤ s.tbNs) && s.funcRunning 9 then k (s.modCtx x.assoc x.qid x.cid (fun y => { y with launch := l }))
  else (s.modCtx x.assoc x.qid x.cid (fun y => { y with launch := l })).waitFor x (.launch l theta)

/-- A Timed Read at its launch instant: condition 3 again, then as a Read (R363). -/
def State.bodyTimedLaunched (s : State) (x : Ctx) (i : Instr) (c : Cmd) : State :=
  match s.lbaSpace x c.nsid.toNat with
  | none => s.complete x .ns
  | some sp => (s.noteLaunch x).withLock x i (fun s =>
      s.reading x sp c.nsid.toNat (lbaRun (slbaOf c) (nlbOf c)) (fun l s => s.complete x .ok 0 0 l.flatten))

/-- A Timed Read at its arrival (R217, R363, R390). -/
def State.bodyTimedRead (s : State) (x : Ctx) (i : Instr) (c : Cmd) : State :=
  let l := timedL c
  match (if l = 0 then none else launchCheck l x.arrival) with
  | some t => s.complete x t
  | none =>
    match s.rwCheck x c (timedFields c) with
    | .error t => s.complete x t
    | .ok _ =>
      let theta := timedAngle c
      if l = 0 ∧ theta.isNone then s.bodyTimedLaunched x i c
      else s.launchAt x (if l = 0 then x.arrival else l) theta (fun s => s.bodyTimedLaunched x i c)

/-! ## Transform (R315, R327, R391) -/

/-- op of a Transform. -/
def xfOp (c : Cmd) : Nat := c.cdw10.toNat % 16
/-- level of a Transform. -/
def xfLevel (c : Cmd) : Nat := c.cdw10.toNat / 16 % 16
/-- dir of a Transform. -/
def xfDir (c : Cmd) : Bool := bitOf c.cdw10.toNat 8
/-- op and level are ones of R315. -/
def opOk (op level : Nat) : Bool := decide (op ≤ 4) && (decide (2 ≤ op) || (decide (1 ≤ level) && decide (level ≤ 6)))

/-- A job enters the compression queue, and its command waits for it (R326). -/
def State.queueJob (s : State) (x : Ctx) (op level : Nat) (input : List Byte) (space : Nat) : State :=
  let j : CmpJob := { assoc := x.assoc, qid := x.qid, cid := x.cid, cls := x.cls, op := op, level := level, input := input, space := space }
  ({ s with cmp := s.cmp ++ [j] }).waitFor x .job

/-- The fields of a Transform are in order (R365, R386, R391). -/
def xfFields (c : Cmd) : Bool :=
  let n := xfBlocks c
  opOk (xfOp c) (xfLevel c) && c.cdw10.toNat / 512 == 0 && c.cdw14.toNat / 8192 == 0 && c.cdw15 == 0 && ofLe (slice c.mid 0 16) == 0
    && !c.prp && decide (1 ≤ n) && decide (n ≤ 4096) && decide (1 ≤ c.len) && decide (c.len ≤ 8388608)
    && (if xfDir c then decide (1 ≤ c.cdw11.toNat) && decide (c.cdw11.toNat ≤ n * 4096) else c.cdw11 == 0)

/-- Transform: direction 0 takes its lock and queues its job on the host's data; direction 1 reads its range first (R326, R327). -/
def State.bodyTransform (s : State) (x : Ctx) (i : Instr) (c : Cmd) : State :=
  match s.lbaSpace x c.nsid.toNat with
  | none => s.complete x .ns
  | some sp =>
    if !xfFields c then s.complete x .field
    else if sp.nsze < xfSlba c + xfBlocks c then s.complete x .range
    else s.withLock x i (fun s =>
      if xfDir c then
        let n := (c.cdw11.toNat + 4095) / 4096
        s.reading x sp c.nsid.toNat (lbaRun (xfSlba c) n) (fun l s =>
          s.queueJob x (xfOp c) (xfLevel c) ((l.map (fun d => d.take 4096)).flatten.take c.cdw11.toNat) c.len)
      else
        let l := lbaRun (xfSlba c) (xfBlocks c)
        match l.find? (fun k => match sp.mediaOf k with | some m => s.lostAt m | none => false) with
        | some k => s.complete x .lost 0 0 [] k c.nsid.toNat
        | none => s.queueJob x (xfOp c) (xfLevel c) (fitBytes c.data c.len) (min (xfBlocks c * 4096) 16777216))

/-- The output of a direction 0 job goes to the medium, its last LBA filled with zeros, host metadata zero (R327). -/
def State.writeOutput (s : State) (x : Ctx) (c : Cmd) (out : List Byte) (dw0 dw1 : Nat) : State :=
  match s.lbaSpace x c.nsid.toNat with
  | none => s.complete x .ns
  | some sp =>
    let n := (out.length + 4095) / 4096
    let data := (List.range n).flatMap (fun k => slice out (k * 4096) 4096 ++ zeros s.metaSize)
    if n = 0 then s.complete x .ok dw0 dw1
    else s.addWrite x sp c.nsid.toNat (lbaRun (xfSlba c) n) data [] dw0 dw1

end Sys2Proof.Machine
end

