-- ==== Sys2Proof/Machine/MouldCmd.lean ====
section
/-! DEFINITION. What Mould Write, Mould Commit, Cast, and the commands that load keys, profiles and recipes do once admitted (R255, R259,
R260, R263 to R270, R312, R373, R380 to R382, R387 to R389, R401). -/

namespace Sys2Proof.Machine

open Sys2Proof

/-! ## Moulds -/

/-- Largest size of a part (R255). -/
def partMax (p : Nat) : Nat := match p with | 0 => 5248 | 1 => 536870912 | 2 => 536870912 | _ => 2 ^ 40

/-- Capacity a mould uses, in 4,096-byte blocks (R373). -/
def Mould.blocks (m : Mould) : Nat := m.parts.foldl (fun n p => n + (p.written + 4095) / 4096) 1

/-- A mould holds a written byte. -/
def Mould.written (m : Mould) : Bool := m.parts.any (fun p => p.written != 0)

/-- The mould of a store, an empty one when none is listed. -/
def State.mouldOr (s : State) (ns id : Nat) : Mould := (s.mould ns id).getD { ns := ns, id := id }

/-- Capacity in use in a mould store (R373). -/
def State.mouldUse (s : State) (ns : Nat) : Nat := (s.cast.moulds.filter (fun m => m.ns == ns)).foldl (fun n m => n + m.blocks) 0

/-- List a mould in place of the one of its namespace and ID. -/
def State.putMould (s : State) (m : Mould) : State :=
  s.modCast (fun k => { k with moulds := k.moulds.filter (fun n => !(n.ns == m.ns && n.id == m.id)) ++ [m] })

/-- A part after bytes are written at an offset. -/
def MouldPart.write (p : MouldPart) (off : Nat) (d : List Byte) : MouldPart :=
  { written := if d.isEmpty then p.written else max p.written (off + d.length), cells := cellPuts p.cells off d }

/-- The mould after bytes are written to a part. -/
def Mould.writePart (m : Mould) (p off : Nat) (d : List Byte) : Mould := { m with parts := m.parts.modify p (fun q => q.write off d) }

/-- The mould is committed: no commit, or a withdraw after it, makes it not so. -/
def Mould.isCommitted (m : Mould) : Bool := m.committed.isSome && m.withdrawn.isNone

/-- The namespace and mould a Mould Write or Mould Commit names. -/
def mouldOf (i : Instr) : Option (Nat × Nat) :=
  match i with
  | .mouldWrite c => some (c.nsid.toNat, c.cdw10.toNat % 65536)
  | .mouldCommit c => some (c.nsid.toNat, c.cdw10.toNat % 65536)
  | _ => none

/-- A Mould Write or Mould Commit of the same mould that was fetched before, and so has the earlier order point, is still in progress (R397, R401). -/
def State.mouldBusy (s : State) (x : Ctx) (i : Instr) : Bool :=
  (s.host.ctxs.takeWhile (fun y => y.order != x.order)).any (fun y => match y.instr with | some j => mouldOf j == mouldOf i | none => false)

/-- The mould store a command finds. -/
def State.mouldSpace (s : State) (x : Ctx) (ns : Nat) : Option Namespace :=
  match s.spaceFor x.order ns with
  | some sp => if sp.mould then some sp else none
  | none => none

/-- Bytes go into a part, or the write is refused by the mould's state or its store's capacity (R255). -/
def State.writeMould (s : State) (x : Ctx) (sp : Namespace) (c : Cmd) (d : List Byte) : State :=
  let ns := c.nsid.toNat
  let id := c.cdw10.toNat % 65536
  let m := s.mouldOr ns id
  let part := c.cdw10.toNat / 65536 % 4
  let off := c.cdw12.toNat + c.cdw13.toNat * 2 ^ 32
  let m1 := m.writePart part off d
  let used := s.mouldUse ns - (if (s.mould ns id).isSome then m.blocks else 0)
  if m.isCommitted then s.complete x .sequence
  else if sp.nsze < used + m1.blocks then s.complete x .capacity
  else (s.putMould m1).complete x .ok (d.length % 2 ^ 25)

/-- Mould Write (R387): a decompression takes its job first, and its output is written when it succeeds. -/
def State.bodyMouldWrite (s : State) (x : Ctx) (i : Instr) (c : Cmd) : State :=
  match s.mouldSpace x c.nsid.toNat with
  | none => s.complete x .ns
  | some sp =>
    let w := c.cdw10.toNat
    let op := w / 2 ^ 20 % 16
    let off := c.cdw12.toNat + c.cdw13.toNat * 2 ^ 32
    let outLen := c.cdw15.toNat
    let fields := bitsOf w 19 18 == 0 && bitsOf w 31 24 == 0 && c.cdw11 == 0 && c.cdw14 == 0 && ofLe (slice c.mid 0 16) == 0 && !c.prp
      && (op == 0 || (decide (2 ≤ op) && decide (op ≤ 4))) && decide (c.len ≤ 8388608) && (op != 0 || decide (0 < c.len))
      && (op == 0 || (decide (0 < outLen) && decide (outLen ≤ 16777216)))
      && decide (off + (if op = 0 then c.len else outLen) ≤ partMax (w / 65536 % 4))
    if !fields then s.complete x .field
    else if s.mouldBusy x i then s.waitFor x .mouldTurn
    else if (s.mouldOr c.nsid.toNat (w % 65536)).isCommitted then s.complete x .sequence
    else if op = 0 then s.writeMould x sp c (fitBytes c.data c.len)
    else s.queueJob x op 0 (fitBytes c.data c.len) outLen

/-- A Cast of a command sees a mould as committed and has not finished; a command that arrived before and is not performed may be one (R260). -/
def State.castSees (s : State) (m : Mould) (order : Nat) : Bool :=
  s.host.ctxs.any (fun y =>
    match y.instr with
    | some (.cast c) => c.nsid.toNat == m.ns && c.cdw10.toNat % 65536 == m.id && m.seenBy y.order
    | some _ => false
    | none => y.qid != 0 && decide (y.order < order) && m.seenBy y.order)
    || s.host.capsules.any (fun k => k.qid != 0 && decide (k.order < order) && m.seenBy k.order)

/-- A withdraw is over: the mould is uncommitted. -/
def State.finishWithdraw (s : State) (x : Ctx) (m : Mould) : State := (s.putMould { m with committed := none, withdrawn := none }).complete x .ok

/-- Mould Commit (R259, R260, R388). -/
def State.bodyMouldCommit (s : State) (x : Ctx) (i : Instr) (c : Cmd) : State :=
  match s.mouldSpace x c.nsid.toNat with
  | none => s.complete x .ns
  | some _ =>
    let id := c.cdw10.toNat % 65536
    let op := c.cdw11.toNat
    let m := s.mouldOr c.nsid.toNat id
    if c.cdw10.toNat / 65536 ≠ 0 ∨ 2 < op ∨ c.cdw12 ≠ 0 ∨ c.cdw13 ≠ 0 ∨ c.cdw14 ≠ 0 ∨ c.cdw15 ≠ 0 ∨ ofLe (slice c.mid 0 16) ≠ 0 then
      s.complete x .field
    else if s.mouldBusy x i then s.waitFor x .mouldTurn
    else if op = 0 then
      if m.isCommitted then s.complete x .ok
      else
        match m.check with
        | some k => ((s.event 0x407).cstErr Fld.CST_ERR_commit_refused).complete x .field k
        | none => (s.putMould { m with committed := some s.host.seq, withdrawn := none }).complete x .ok
    else if op = 1 then
      if !m.isCommitted then s.complete x .ok
      else
        let m1 := { m with withdrawn := some x.order }
        let s1 := s.putMould m1
        if s1.castSees m1 x.order then s1.waitFor x .withdraw else s1.finishWithdraw x m1
    else if m.isCommitted then s.complete x .sequence
    else (s.modCast (fun k => { k with moulds := k.moulds.filter (fun n => !(n.ns == m.ns && n.id == m.id)) })).complete x .ok

/-- MOULD_WITHDRAW_DONE: every Cast that sees the mould as committed has finished (R260). -/
def State.withdrawDone (s : State) (a q c : Nat) : State :=
  match s.ctx a q c with
  | some x =>
    match x.wait, x.instr.bind mouldOf with
    | .withdraw, some (ns, id) =>
      let m := s.mouldOr ns id
      if s.castSees m x.order then s else s.finishWithdraw x m
    | _, _ => s
  | none => s

/-! ## Casts (R217, R270, R389) -/

/-- A Cast is launched: it waits for its functions, is checked under R270, and joins the dispatch queue (R35, R284). -/
def State.bodyCastLaunched (s0 : State) (x : Ctx) (c : Cmd) : State :=
  let s := s0.noteLaunch x
  if !s.funcRunning 10 then s.waitFor x (.func 10)
  else if !s.funcRunning 11 then s.waitFor x (.func 11)
  else
    match s.castCheck c x.order with
    | .error (t, dw0) => s.complete x t dw0
    | .ok _ =>
      let launch := match s.ctx x.assoc x.qid x.cid with | some y => y.launch | none => x.arrival
      let j : CastJob := { assoc := x.assoc, qid := x.qid, cid := x.cid, order := x.order, cls := x.cls, launch := launch, cmd := c }
      (s.modCast (fun k => { k with jobs := k.jobs ++ [j] })).waitFor x .castQueue

/-- A Cast at its arrival: its launch time is checked, then it is launched or waits; with an IV it is immediate (R217, R389). -/
def State.bodyCast (s : State) (x : Ctx) (c : Cmd) : State :=
  if castLt c && !castIvp c then
    let l := leAt c.mid 0 8
    match launchCheck l x.arrival with
    | some t => s.complete x t
    | none => s.launchAt x l none (fun s => s.bodyCastLaunched x c)
  else s.bodyCastLaunched x c

/-! ## Keys (R265 to R268, R381) -/

/-- The host secret held for a host NQN. -/
def Nor.hostSecret (n : Nor) (nqn : List Byte) : Option (List Byte) :=
  (n.records.find? (fun r => r.kind == 6 && r.valid && (r.body.take 256).takeWhile (· != 0) == nqn)).map (fun r => slice r.body 260 (leAt r.body 256 1))

/-- The key-encryption key of an association's host (R266). -/
def State.kek (s : State) (a : Nat) : Option (List Byte) :=
  (s.assoc a).bind (fun y => (s.nor.hostSecret y.hostNqn).map (fun k => hmacSha256 k (ascii "UL9640-KEK" ++ y.hostNqn)))

/-- Change the key slots. -/
def State.setKeys (s : State) (l : List (Nat × Key)) : State := { s with nor := { s.nor with keys := l } }

/-- The command dwords of an admin command are all 0 from CDW11 on. -/
def restZero (c : Cmd) : Bool := c.cdw11 == 0 && c.cdw12 == 0 && c.cdw13 == 0 && c.cdw14 == 0 && c.cdw15 == 0 && ofLe (slice c.mid 0 16) == 0

/-- Load Content Key (R267, R268, R381). -/
def State.bodyLoadContentKey (s : State) (x : Ctx) (c : Cmd) : State :=
  let d := fitBytes c.data 64
  let op := leAt d 0 1
  let slot := leAt d 2 2
  let fields := c.cdw10 == 0 && restZero c && !c.prp && c.len == 64 && leAt d 1 1 == 0 && leAt d 12 4 == 0 && leAt d 56 8 == 0
    && (op == 1 || op == 2) && (decide (slot < 4096) || slot == 0xFFFF)
  let kid := slice d 16 16
  match (if fields then s.kek x.assoc else none) with
  | none => s.complete x .field
  | some kek =>
    if op = 2 then
      let l := s.nor.keys.filter (fun p => if slot = 0xFFFF then p.2.kid != kid else p.1 != slot)
      (s.setKeys l).complete x .ok (s.nor.keys.length - l.length)
    else
      match aesUnwrap kek (slice d 32 24) with
      | none => ((s.event 0x404).cstErr Fld.CST_ERR_unwrap_fail).complete x .field
      | some key =>
        let at_ := if slot ≠ 0xFFFF then some slot
          else match s.nor.keys.find? (fun p => p.2.kid == kid) with
            | some p => some p.1
            | none => firstFrom 0 4096 (fun k => (lookupKey s.nor.keys k).isNone)
        match at_ with
        | none => s.complete x (.vendor 0x85)
        | some k => (s.setKeys (insertKey s.nor.keys k ⟨kid, key, leAt d 4 8⟩)).complete x .ok k

/-! ## Load commands (R382) -/

/-- A load command of function k stops it, and its entry goes on to its commit; check gives the first check the entry fails. A function
stopped otherwise ends it with 91h; an earlier load lets it wait its turn. -/
def State.loadVia (s : State) (x : Ctx) (k : Nat) (write : State → State) (check : State → Option (Nat × State)) : State :=
  if s.host.ctxs.any (fun y => y.wait == .load k) then s.waitFor x (.loadTurn k)
  else if s.fstate k = 1 ∨ s.fstate k = 2 then s.complete x .stopped
  else if s.fstate k = 3 then s.waitFor x (.loadTurn k)
  else
    match check s with
    | some (n, s1) => s1.complete x .field n
    | none =>
      let s1 := (s.modFunc k (fun f => { f with shadow := [], since := s.now, abandon := false, byLoad := true })).enterStopped k
      ((write s1).setFstate k 3).waitFor x (.load k)

/-- Load Cast Profile (R263, R380, R382). -/
def State.bodyLoadCastProfile (s : State) (x : Ctx) (c : Cmd) : State :=
  let w := c.cdw10.toNat
  let remove := bitOf w 8
  if bitsOf w 7 6 ≠ 0 ∨ bitsOf w 31 9 ≠ 0 ∨ !restZero c ∨ c.prp ∨ (remove ∧ c.len ≠ 0) ∨ (!remove ∧ c.len ≠ 64 + profLe c.data 6 2) then
    s.complete x .field
  else s.loadVia x 10 (fun s => s) (fun s => if remove || s.profileOk (fitBytes c.data c.len) then none else some (0, s))

/-- Load Recipe (R312, R380, R382). -/
def State.bodyLoadRecipe (s : State) (x : Ctx) (c : Cmd) : State :=
  let w := c.cdw10.toNat
  let remove := bitOf w 0
  if bitsOf w 7 2 ≠ 0 ∨ bitsOf w 31 16 ≠ 0 ∨ !restZero c ∨ c.prp ∨ (remove ∧ c.len ≠ 0) then s.complete x .field
  else s.loadVia x 11 (fun s => s) (fun s =>
    (if remove then (if s.recipeNamed (w / 256 % 256) ∧ (s.recipe (w / 256 % 256)).isSome then some 8 else none)
     else if c.data.length ≠ c.len then some 1
     else s.recipeCheck (bitOf w 1) c.data).map (fun n => (n, s)))

/-- Set Features Constellation Membership: a load of the time base function (R208, R392). -/
def State.bodyMembership (s : State) (x : Ctx) (c : Cmd) : State :=
  let d := fitBytes c.data 32
  let en := leAt d 14 1 % 2
  let id := leAt d 12 2
  if c.len ≠ 32 ∨ c.prp ∨ leAt d 14 1 > 1 ∨ ofLe (slice d 15 17) ≠ 0 then s.complete x .field
  else s.loadVia x 9
    (fun s => s.modFunc 9 (fun f =>
      let put (f : RegFile) (a : Nat) (v : Word) : RegFile :=
        match rowAt a with | some (r, _) => f.put a (writeMerge r.fields (s.reg a) v) | none => f
      let f0 := put (put f.shadow Adr.TMB_PLAN_T0_LO (BitVec.ofNat 32 (leAt d 0 4))) Adr.TMB_PLAN_T0_HI (BitVec.ofNat 32 (leAt d 4 4))
      let plan := setBits (setBits (s.reg Adr.TMB_PLAN) Fld.TMB_PLAN_rpm_p (leAt d 8 2)) Fld.TMB_PLAN_stride (leAt d 10 2)
      let mem := setBits (setBits (s.reg Adr.TMB_MEMBER) Fld.TMB_MEMBER_member_id id) Fld.TMB_MEMBER_en en
      { f with shadow := put (put f0 Adr.TMB_PLAN plan) Adr.TMB_MEMBER mem }))
    (fun s => if en = 1 ∧ 1024 ≤ id then some (0, s.setFlag Adr.TMB_STATUS Fld.TMB_STATUS_cfg_rejected true) else none)

end Sys2Proof.Machine
end

