-- ==== Sys2Proof/Machine/LogPages.lean ====
section
/-! DEFINITION. The pages Get Log Page returns (R253, R254, R393 to R396, R517, R518). -/

namespace Sys2Proof.Machine

open Sys2Proof

/-- A signed value as the unsigned number of a field of n bytes. -/
def sgn (n : Nat) (i : Int) : Nat := unsigned (8 * n) i

/-! ## Standard pages (R393, R517, R518) -/

/-- 01h: 64 entries of 64 bytes, newest first. -/
def State.errorPage (s : State) : List Byte :=
  fitBytes (s.host.errors.flatMap (fun e => layFields (zeros 64)
    [(0, 8, e.count), (8, 2, e.qid), (10, 2, e.cid), (12, 2, 2 * e.status), (16, 8, e.lba), (24, 4, e.nsid)])) 4096

/-- A reading of 1/16 degree in kelvin; 0 when there is none. -/
def kelvin (t : Nat) : Nat := if t = 0x8000 then 0 else (signed 16 t / 16 + 273).toNat

/-- The composite temperature in kelvin. -/
def State.composite (s : State) : Nat := kelvin (getBits s.hottest Fld.PIN_TEMP_temp)

/-- The temperature bit of the critical warning: a threshold is passed, or 110 degrees. -/
def State.tempWarning (s : State) : Bool :=
  let t := s.composite
  t != 0 && (decide (s.nor.features.tempOver ≤ t) || decide (t ≤ s.nor.features.tempUnder) || decide (383 < t))

/-- 02h: bytes the spec does not state are free. -/
def State.smartPage (s : State) : List Byte :=
  let t := [(1, 2, s.composite), (112, 16, s.counter 1), (128, 16, s.counter 0), (160, 16, s.media.unrecovered),
    (176, 16, s.host.errorCount)]
  let sensors := (List.range 8).map (fun k => (200 + 2 * k, 2, kelvin (s.tempWord k)))
  let p := layFields (fitBytes (Config.unstated 2 s.fresh) 512) (t ++ sensors)
  let w := (leAt p 0 1) / 4 * 4 + leAt p 0 1 % 2 + 2 * b2n s.tempWarning
  layFields p [(0, 1, w)]

/-- The active slot as the firmware slot page codes it, 0 when none. -/
def State.activeSlot (s : State) : Nat := match s.runningSlot with | some k => k + 1 | none => 0

/-- 03h: the active slot, the slot of the boot mark, and both revisions. -/
def State.slotPage (s : State) : List Byte :=
  let mark := match s.nor.bootMark with | some k => k + 1 | none => 0
  layFields (zeros 512) [(0, 1, s.activeSlot + 16 * mark), (8, 8, ofLe (s.nor.slot 0).rev), (16, 8, ofLe (s.nor.slot 1).rev)]

/-- Admin opcodes of R364. -/
def adminOpcodes : List Nat :=
  [0x00, 0x01, 0x02, 0x04, 0x05, 0x06, 0x08, 0x09, 0x0A, 0x0C, 0x0D, 0x10, 0x11, 0x15, 0x18, 0x7F, 0xC0, 0xC5, 0xC9, 0xCD, 0xD1, 0xD2,
    0xD4, 0xD5, 0xD6, 0xD9, 0xDE]

/-- I/O opcodes of R364. -/
def ioOpcodes : List Nat := [0x00, 0x01, 0x02, 0x08, 0x09, 0x81, 0x82, 0x84, 0x86, 0x8B]

/-- 05h: CSUPP of each command listed in R364; the effects a command has beyond it are free. -/
def State.effectsPage (s : State) : List Byte :=
  let free (o : Nat) : Nat := leAt (Config.unstated 5 s.fresh) (4 * o) 4 / 2 * 2 + 1
  layFields (zeros 4096) (adminOpcodes.map (fun o => (4 * o, 4, free o)) ++ ioOpcodes.map (fun o => (1024 + 4 * o, 4, free (256 + o))))

/-! ## Media Health and Truss Status (R253, R254) -/

/-- Lost data units of a namespace as runs of LBAs, adjacent ones joined. -/
def State.lostRuns (s : State) (n : Namespace) : List (Nat × Nat) :=
  match s.media.layout with
  | none => []
  | some l =>
    let units := n.trusses.zipIdx.flatMap (fun p =>
      if s.media.isBroken l p.1 then ((List.range 8).filter (fun j => s.media.missing l p.1 j)).map (fun j => 8 * p.2 + j) else [])
    units.foldl (fun (acc : List (Nat × Nat)) u =>
      match acc.getLast? with
      | some (f, n) => if f + n = 64 * u then acc.dropLast ++ [(f, n + 64)] else acc ++ [(64 * u, 64)]
      | none => [(64 * u, 64)]) []

/-- Every lost extent: namespace, first LBA and run. -/
def State.lostExtents (s : State) : List (Nat × Nat × Nat) :=
  if s.media.brokenCount = 0 then []
  else (s.spaces.filter (fun p => !p.2.mould)).flatMap (fun p => (s.lostRuns p.2).map (fun r => (p.1, r.1, r.2)))

/-- The state of a surface in its record: 0 where its head has no valid zone entry. -/
def State.surfaceCode (s : State) (x : Nat) : Nat :=
  if !s.headPresent x then 0
  else if !s.media.surfaceGone x then 1
  else if s.fld Adr.MDI_REBUILD Fld.MDI_REBUILD_surface = x then 3 else 2

/-- C0h: totals, a record for each surface, and the lost extents, each with repeat 1. -/
def State.mediaHealth (s : State) : List Byte :=
  let m := s.media
  let bits (p : Nat → Bool) (n : Nat) : Nat := ((List.range n).filter p).foldl (fun k x => k + 2 ^ x) 0
  let surfs := s.presentSurfaces
  let ext := s.lostExtents
  let rb := s.fld Adr.MDI_REBUILD Fld.MDI_REBUILD_surface
  let tmax := match m.layout with | some l => l.tmax | none => 0
  let units := match m.layout with | some l => l.zones.foldl (fun n p => n + unitsOf p.2) 0 | none => 0
  let total (f : Nat → Nat) : Nat := surfs.foldl (fun n x => n + f x) 0
  let present (a : Nat) : Bool := surfs.any (fun x => x / 8 == a)
  let lowest := ((List.range 4).filter present).foldl (fun (b : Option Nat) a =>
    let n := m.scanPasses.toList.getD a 0
    match b with | some k => some (min k n) | none => some n) none
  let page := layFields (zeros (1024 + 32 * min ext.length 4096))
    [(0, 2, 1), (2, 1, bits (fun a => (List.range 8).any (fun h => s.headPresent (8 * a + h))) 4), (3, 1, bits m.lostActs.contains 4), (4, 4, bits surfs.contains 32),
     (8, 4, bits (fun x => m.surfaceGone x && s.headPresent x) 32), (12, 1, rb),
     (13, 1, if rb = 0xFF ∨ tmax = 0 then 0 else m.rebuildNext * 100 / tmax), (16, 8, m.byRetry), (24, 8, m.byCourse), (32, 8, m.byTruss),
     (40, 8, m.unrecovered), (48, 8, m.reallocated), (56, 8, total s.spareFree), (64, 8, total s.spareTotal),
     (72, 8, units - 9 * tmax), (80, 8, lowest.getD 0), (88, 4, m.unrec.length), (92, 4, min ext.length 4096),
     (96, 1, b2n (decide (4096 < ext.length)))]
  let p1 := layFields page ((List.range 32).flatMap (fun x =>
    [(128 + 16 * x, 4, (m.moved.filter (fun r => r.surface == x)).length), (132 + 16 * x, 4, if surfs.contains x then s.spareFree x else 0),
     (136 + 16 * x, 4, (m.unrec.filter (fun u => u.surface == x)).length), (140 + 16 * x, 1, s.surfaceCode x)]))
  layFields p1 ((ext.take 4096).zipIdx.flatMap (fun e =>
    let b := 1024 + 32 * e.2
    [(b, 4, e.1.1), (b + 4, 4, e.1.2.2), (b + 8, 8, e.1.2.1), (b + 16, 8, 0), (b + 24, 4, 1)]))

/-- C1h. -/
def State.trussStatus (s : State) : List Byte :=
  let m := s.media
  let count (p : Layout → Media → Nat → Bool) : Nat := match m.layout with | some l => m.countTrusses l (p l) | none => 0
  let oldest := match m.trailing with | t :: _ => (s.now - t.since) / 1000000 | [] => 0
  layFields (zeros 128)
    [(0, 8, match m.layout with | some l => l.tmax | none => 0), (8, 8, m.trailing.length), (16, 4, oldest),
     (20, 4, s.fld Adr.MDI_TRAIL Fld.MDI_TRAIL_trail_max), (24, 8, count (fun l m t => m.missingCount l t == 1)),
     (32, 8, count (fun l m t => m.missing l t 8)), (40, 8, m.brokenCount), (48, 8, m.courses.length), (56, 8, m.timerCloses),
     (64, 8, m.forcedCloses), (72, 8, m.recomputed)]

/-! ## Timebase, retired pages and faults (R394 to R396) -/

/-- Seconds in HOLDOVER or UNLOCKED; 0 otherwise. -/
def State.holdoverS (s : State) : Nat :=
  if 3 ≤ s.tbState then (s.time.holdUsed + (s.now - s.time.holdFrom)) / 1000000000 else 0

/-- C2h. -/
def State.timePage (s : State) : List Byte :=
  let u := Adr.TMB_UTC
  let t := s.time
  layFields (zeros 128)
    [(0, 2, 1), (2, 1, s.tbState), (3, 1, s.fld Adr.TMB_STATUS Fld.TMB_STATUS_src_used), (4, 1, s.phase),
     (5, 1, s.fld Adr.TMB_STATUS Fld.TMB_STATUS_ptp_port), (6, 2, s.fld u Fld.TMB_UTC_utc_offset),
     (8, 1, s.fld u Fld.TMB_UTC_valid + 2 * s.fld u Fld.TMB_UTC_leap61 + 4 * s.fld u Fld.TMB_UTC_leap59),
     (9, 1, s.fld Adr.GLK_STATUS Fld.GLK_STATUS_last_hop), (12, 4, s.fld Adr.TMB_OFFSET Fld.TMB_OFFSET_offset),
     (16, 4, s.fld Adr.TMB_PDELAY Fld.TMB_PDELAY_delay), (20, 4, s.fld Adr.TMB_PHASE Fld.TMB_PHASE_e), (24, 4, sgn 4 s.trim),
     (28, 4, s.holdoverS), (32, 4, s.fld Adr.TMB_HOLD Fld.TMB_HOLD_holdover_max), (36, 4, t.steps), (40, 4, t.lockLosses), (44, 4, t.late),
     (48, 4, t.c0Miss), (52, 4, t.gerynErr), (56, 4, t.masterChanges), (60, 8, t.best.getD 0)]

/-- C3h. -/
def State.retiredPage (s : State) : List Byte :=
  let l := s.nor.retired
  layFields (zeros (16 + 16 * l.length)) ((0, 2, 1) :: (2, 2, l.length) :: l.zipIdx.flatMap (fun e =>
    [(16 + 16 * e.2, 8, e.1.page * 4096), (24 + 16 * e.2, 8, e.1.at_)]))

/-- What a collector's first event reads as in the page: 0xFFFF while none is latched. -/
def State.firstEvent (s : State) (a : Nat) : Nat := if s.flag a Fld.FLT_CHIP_latched then s.fld a Fld.FLT_CHIP_event else 0xFFFF

/-- Healthy control cores. -/
def State.healthyCores (s : State) : Nat := 16 - s.flt.failedCores.length

/-- C4h. -/
def State.faultPage (s : State) : List Byte :=
  let n := s.nor
  let follow (a : Nat) : Bool := s.fld (Adr.FSQ_STATUS a) Fld.FSQ_STATUS_seq0 != 2 && s.fld (Adr.FSQ_STATUS a) Fld.FSQ_STATUS_seq1 != 2
  let port (p : Nat) : Bool := !s.flag (Adr.NET_STATUS p) Fld.NET_STATUS_failed
  let bits (p : Nat → Bool) (k : Nat) : Nat := ((List.range k).filter p).foldl (fun v x => v + 2 ^ x) 0
  let units := s.fld Adr.CMP_STATUS Fld.CMP_STATUS_unit_state
  layFields (zeros 128)
    ([(0, 2, 1), (2, 1, b2n s.flt.errFault), (3, 1, s.faultState), (4, 2, s.firstEvent Adr.FLT_CHIP),
      (6, 1, s.fld Adr.FLT_CHIP Fld.FLT_CHIP_overflow), (8, 8, n.corrTotal), (16, 8, n.uncorrTotal), (24, 8, n.fatalTotal),
      (32, 4, s.counter 7), (36, 4, n.restartTotal), (40, 1, s.spn.pool.length), (41, 1, s.cast.reserves.length), (42, 1, bits follow 4),
      (43, 1, bits port 2), (44, 1, s.healthyCores), (45, 1, ((List.range 4).filter (fun u => decide (units / 4 ^ u % 4 < 2))).length)]
      ++ (List.range 7).map (fun r => (48 + 2 * r, 2, s.firstEvent (Adr.FLT_REG r))))

/-! ## Get Log Page (R393) -/

/-- A log page; none for another page ID. -/
def State.logPage (s : State) (lid : Nat) : Option (List Byte) :=
  match lid with
  | 0x01 => some s.errorPage
  | 0x02 => some s.smartPage
  | 0x03 => some s.slotPage
  | 0x05 => some s.effectsPage
  | 0xC0 => some s.mediaHealth
  | 0xC1 => some s.trussStatus
  | 0xC2 => some s.timePage
  | 0xC3 => some s.retiredPage
  | 0xC4 => some s.faultPage
  | _ => none

/-- What Get Log Page returns: the page from an offset, bytes beyond its end 0. -/
def State.logData (s : State) (c : Cmd) : Except Status (List Byte) :=
  let numd := c.cdw10.toNat / 65536 + 65536 * (c.cdw11.toNat % 65536)
  let off := c.cdw12.toNat + 2 ^ 32 * c.cdw13.toNat
  match s.logPage (c.cdw10.toNat % 256) with
  | none => .error ⟨1, 9⟩
  | some p => if p.length ≤ off ∨ off % 4 ≠ 0 then .error .field else .ok (slice p off (4 * (numd + 1)))

/-- Complete a command with data or a status. -/
def State.completeWith (s : State) (x : Ctx) (r : Except Status (List Byte)) : State :=
  match r with
  | .ok d => s.complete x .ok 0 0 d
  | .error t => s.complete x t

/-! ## Patina entries (R453) -/

/-- Entries present in ascending record number. -/
def State.patSorted (s : State) : List PatEntry :=
  (s.pat.store.map (fun p => p.2)).mergeSort (fun a b => decide (a.record ≤ b.record))

end Sys2Proof.Machine
end

