-- ==== Sys2Proof/Machine/AdminCmd.lean ====
section
/-! DEFINITION. What the patina, register, function, ownership, namespace, queue, feature and Identify commands do once admitted (R352 to
R358, R364, R367 to R372, R380, R383 to R385, R392, R468). -/

namespace Sys2Proof.Machine

open Sys2Proof

/-- CDW12 to CDW15 are 0. -/
def restZero12 (c : Cmd) : Bool := c.cdw12 == 0 && c.cdw13 == 0 && c.cdw14 == 0 && c.cdw15 == 0 && ofLe (slice c.mid 0 16) == 0

/-- A vendor command with data uses no PRPs (R365). -/
def dataOk (c : Cmd) (n : Nat) : Bool := c.len == n && (n == 0 || !c.prp)

/-! ## The patina (R383, R457) -/

/-- Read Patina: the entries as they stood when the command was fetched; one that has waited holds them. -/
def State.bodyReadPatina (s : State) (x : Ctx) (c : Cmd) : State :=
  let n := c.cdw10.toNat
  let start := c.cdw11.toNat
  if n = 0 ∨ 4096 < n ∨ 4096 ≤ start ∨ !restZero12 c ∨ !dataOk c (n * 256) then s.complete x .field
  else
    let l := ((if x.wait = .fetched then s.patSorted else x.pats).drop start).take n
    s.complete x .ok l.length s.nor.patCount (l.flatMap (fun e => e.bytes))

/-- Every entry goes, from the store and from the journal; in locked mode the clear is recorded as a new entry (R457). -/
def State.clearPatina (s : State) (assoc : Nat) : State :=
  let s1 := ({ s with
    pat := { s.pat with store := [], unjournalled := [] }
    nor := { s.nor with patJournal := [], patHigh := s.nor.patCount } }).setReg Adr.PAT_DROP 0
  if s.nor.patLocked then s1.noteEvent 0x7A0 .corrected assoc 0 1 else s1

/-- Clear Patina. -/
def State.bodyClearPatina (s : State) (x : Ctx) (c : Cmd) : State :=
  if c.cdw11 ≠ 0 ∨ !restZero12 c ∨ !dataOk c 0 then s.complete x .field
  else if s.nor.patLocked ∧ c.cdw10.toNat ≠ s.nor.patCount then s.complete x (.vendor 0x92)
  else (s.clearPatina x.assoc).complete x .ok

/-! ## Registers (R29, R31, R40, R384) -/

/-- The context of a command under whatever association number it now has. -/
def State.ctxOf (s : State) (x : Ctx) : Option Ctx := s.host.ctxs.find? (fun y => y.order == x.order)

/-- cmd and function of a pair that writes cmd to a FUNC_CTRL register. -/
def funcCmd (p : RegPair) : Option (Nat × Nat) :=
  let cmd := getBits p.value Fld.FUNC_CTRL_cmd
  match rowAt p.addr with
  | some (r, ix) => if r.name = "FUNC_CTRL" ∧ cmd ≠ 0 then some (cmd, ix.getD 0 0) else none
  | none => none

/-- Writes of cmd to more than one function are performed at the position of the first, stops, then restarts, then abandons, each in
ascending function (R40). -/
def gatherFuncs (l : List RegPair) : List RegPair :=
  let f := l.filter (fun p => (funcCmd p).isSome)
  if ((f.filterMap funcCmd).map (fun p => p.2)).eraseDups.length < 2 then l
  else
    let sorted := (List.range 60).flatMap (fun k => f.filter (fun p => funcCmd p == some (k / 15 , k % 15)))
    let plain (p : RegPair) : Bool := (funcCmd p).isNone
    l.takeWhile plain ++ sorted ++ (l.dropWhile plain).filter plain

/-- An earlier register command of this path waits for a region (R29). -/
def State.regBefore (s : State) (x : Ctx) : Bool :=
  s.heldRegs.any (fun h => h.path == .regCmd) ||
    s.host.ctxs.any (fun y => decide (y.order < x.order) && (match y.wait with | .region _ _ _ => true | _ => false))

/-- A register command must wait before its access to an address of region g: the region restarts, or an earlier command waits (R29, R31). -/
def State.regWaits (s : State) (x : Ctx) (g addr : Nat) : Bool :=
  (s.powered g && s.restarting g && !survivesRestart addr) || s.regBefore x

/-- The pairs of a Register Write, in order; one that meets a restarting region, or an earlier command that waits, waits (R29, R31). -/
def State.writePairs (s : State) (x : Ctx) (l : List RegPair) : State :=
  match l with
  | [] => s.complete x .ok
  | p :: r =>
    match regionOf p.addr with
    | none => s.writePairs x r
    | some g =>
      if s.regWaits x g p.addr then s.waitFor x (.region g (p :: r) [])
      else if !s.powered g then (s.event 0x0E0).writePairs x r
      else
        let s1 := s.performWrite p.addr p.value
        match s1.ctxOf x with
        | some y => s1.writePairs y r
        | none => s1

/-- The pairs in the data of a Register Write. -/
def pairsOf (c : Cmd) : List RegPair :=
  (List.range (c.cdw10.toNat % 2048)).map (fun k => ⟨leAt c.data (8 * k) 4, BitVec.ofNat 32 (leAt c.data (8 * k + 4) 4)⟩)

/-- Register Write. -/
def State.bodyRegisterWrite (s : State) (x : Ctx) (c : Cmd) : State :=
  let n := c.cdw10.toNat
  if n = 0 ∨ 1024 < n ∨ c.cdw11 ≠ 0 ∨ !restZero12 c ∨ !dataOk c (8 * n) ∨ (pairsOf c).any (fun p => p.addr % 4 != 0 || decide (0x8000000 ≤ p.addr))
  then s.complete x .field
  else s.writePairs x (gatherFuncs (pairsOf c))

/-- The words of a Register Read, in ascending order. -/
def State.readWords (s : State) (x : Ctx) (l : List RegPair) (got : List Word) : State :=
  match l with
  | [] => s.complete x .ok 0 0 (got.flatMap (fun w => leBytes 4 w.toNat))
  | p :: r =>
    match regionOf p.addr with
    | none => s.readWords x r (got ++ [0])
    | some g =>
      if s.regWaits x g p.addr then s.waitFor x (.region g (p :: r) got)
      else
        let s1 := s.performRead .regCmd p.addr
        s1.readWords x r (got ++ [s1.readData])

/-- Register Read. -/
def State.bodyRegisterRead (s : State) (x : Ctx) (c : Cmd) : State :=
  let a := c.cdw10.toNat
  let n := c.cdw11.toNat
  if n = 0 ∨ 4096 < n ∨ a % 4 ≠ 0 ∨ 0x8000000 < a + 4 * n ∨ !restZero12 c ∨ !dataOk c (4 * n) then s.complete x .field
  else s.readWords x ((List.range n).map (fun k => ⟨a + 4 * k, 0⟩)) []

/-! ## Reconfigure Function (R37, R384) -/

/-- Reconfigure Function: a request without effect completes at once, any other at the action's end. -/
def State.bodyReconfigure (s : State) (x : Ctx) (c : Cmd) : State :=
  let k := c.cdw10.toNat % 16
  let a := bitsOf c.cdw10.toNat 9 8
  if bitsOf c.cdw10.toNat 7 4 ≠ 0 ∨ bitsOf c.cdw10.toNat 31 10 ≠ 0 ∨ k = 15 ∨ a = 0 ∨ c.cdw11 ≠ 0 ∨ !restZero12 c ∨ !dataOk c 0 then
    s.complete x .field
  else
    let st := s.fstate k
    if (a = 1 ∧ st = 2 ∧ !(s.func k).byLoad) ∨ (a ≠ 1 ∧ (st = 0 ∨ st = 3)) then s.complete x .ok (s.reconfDw0 k)
    else (s.waitFor x (.reconf k a)).funcRequest k a

/-! ## Ownership (R354, R356) -/

/-- ns since a command arrived. -/
def State.sinceArrival (s : State) (x : Ctx) : Nat := s.tbNs - x.arrival

/-- A count of OWN_CNT goes up. -/
def State.ownCount (s : State) (f : Fld) : State := s.countFld Adr.OWN_CNT f

/-- The lease runs from the arrival of a command. -/
def State.leaseFrom (s : State) (x : Ctx) : State :=
  { s with own := { s.own with endsAt := s.now - s.sinceArrival x + s.fld Adr.OWN_LEASE Fld.OWN_LEASE_lease_s * 1000000000 } }

/-- The arbiter decides a claim (R354). -/
def State.decideClaim (s : State) (x : Ctx) (c : Cmd) : State :=
  let lease := s.fld Adr.OWN_LEASE Fld.OWN_LEASE_lease_s
  let nqn := match s.assoc x.assoc with | some y => y.hostNqn | none => []
  let refuse (s : State) (t : Status) : State := (s.ownCount Fld.OWN_CNT_refused).complete x t
  if !restZero c ∨ c.cdw10 ≠ 0 ∨ !dataOk c 0 then s.complete x .field
  else if !s.authed x.assoc then refuse (s.event 0x685) .denied
  else if s.isOwner x.assoc then ((s.leaseFrom x).ownCount Fld.OWN_CNT_claims).complete x .ok lease
  else if s.ownState = 1 ∨ (s.ownState = 2 ∧ nqn ≠ s.own.successor) then refuse s (.vendor 0x81)
  else
    ((((s.setOwner 1 x.assoc).leaseFrom x).ownCount Fld.OWN_CNT_claims).event 0x680).ownershipMoved.complete x .ok lease

/-- Claim Ownership: an expiry that has come is decided first (R355). -/
def State.bodyClaim (s : State) (x : Ctx) (c : Cmd) : State := s.endOwn.decideClaim x c

/-- Yield Ownership: one whose association is owner no longer completes without effect (R356). -/
def State.bodyYield (s : State) (x : Ctx) (c : Cmd) : State :=
  let succ := c.cdw10.toNat == 1
  let nqn := (c.data.take 256).takeWhile (· != 0)
  if 1 < c.cdw10.toNat ∨ !restZero c ∨ !dataOk c (if succ then 256 else 0)
      ∨ (succ ∧ (nqn.isEmpty ∨ !((fitBytes c.data 256).contains 0))) then s.complete x .field
  else if !s.isOwner x.assoc then s.complete x .ok
  else
    let s1 := (s.event 0x681).ownCount Fld.OWN_CNT_yields
    let s2 := if succ then
        { s1.setOwner 2 0x7FF with own := { successor := nqn, endsAt := s1.now - s1.sinceArrival x + 5000000000 } }
      else s1.setOwner 0 0x7FF
    s2.ownershipMoved.complete x .ok

/-! ## Constellation Status (R385) -/

/-- The predicted next index instant after now, in 1/65,536 ns. -/
def State.nextIndex (s : State) : Option Nat :=
  match s.time.lastIndex with
  | some i =>
    let t := s.time.trev
    if t = 0 ∨ 16 * t < s.time.tb - i then none else some (i + ((s.time.tb - i) / t + 1) * t)
  | none => none

/-- The 64 bytes of Constellation Status. -/
def State.constellation (s : State) : List Byte :=
  let m := Adr.TMB_MEMBER
  let nx := s.nextIndex
  layFields (zeros 64)
    [(0, 8, s.time.tb / 65536), (8, 2, s.time.tb % 65536), (10, 1, s.tbState), (11, 1, s.phase),
     (12, 2, s.fld m Fld.TMB_MEMBER_member_id), (14, 1, s.fld m Fld.TMB_MEMBER_en + 2 * b2n nx.isSome), (16, 8, nx.getD 0 / 65536),
     (24, 8, if nx.isSome then s.time.trev else 0), (32, 4, s.fld Adr.TMB_PHASE Fld.TMB_PHASE_e),
     (36, 2, s.fld Adr.TMB_PHOFS Fld.TMB_PHOFS_po), (38, 2, s.fld Adr.TMB_PLAN Fld.TMB_PLAN_stride),
     (40, 2, s.fld Adr.TMB_PLAN Fld.TMB_PLAN_rpm_p), (44, 8, s.planEpoch),
     (52, 2, getBits (s.readReg Adr.TMB_LAUNCH) Fld.TMB_LAUNCH_pending)]

/-- Constellation Status. -/
def State.bodyConstellation (s : State) (x : Ctx) (c : Cmd) : State :=
  if c.cdw10 ≠ 0 ∨ !restZero c ∨ !dataOk c 64 then s.complete x .field else s.complete x .ok 0 0 s.constellation

/-! ## Namespaces (R368 to R372) -/

/-- The n lowest numbers from i on that are not in a list, of the fuel numbers looked at. -/
def lowestFree (held : List Nat) (i fuel n : Nat) : List Nat :=
  match fuel with
  | 0 => []
  | k + 1 =>
    if n = 0 then []
    else if held.contains i then lowestFree held (i + 1) k n
    else i :: lowestFree held (i + 1) k (n - 1)

/-- A create. -/
def State.createNamespace (s : State) (x : Ctx) (c : Cmd) : State :=
  let d := fitBytes c.data 4096
  let nsze := leAt d 0 8
  let kind := leAt d 3840 1
  let flbas := if s.metaSize = 0 then 0 else 0x10
  if nsze = 0 ∨ leAt d 8 8 ≠ nsze ∨ 1 < kind ∨ (kind = 0 ∧ leAt d 26 1 ≠ flbas) then s.complete x .field
  else
    let used := (s.spaces ++ s.deleting.flatMap (fun e => e.spaces)).map (fun p => p.1)
    match firstFrom 1 64 (fun k => !used.contains k) with
    | none => s.complete x ⟨1, 0x16⟩
    | some id =>
      let n := (nsze + 511) / 512
      let tmax := match s.media.layout with | some l => l.tmax | none => 0
      let ts := if tmax < n then [] else lowestFree s.heldTrusses 0 tmax n
      if ts.length < n then s.complete x ⟨1, 0x15⟩
      else
        ({ s with spaces := insertKey s.spaces id { mould := kind == 1, nsze := 512 * n, trusses := ts } } |>.event 0x621).complete x .ok id

/-- The namespace an I/O command is for. -/
def nsidOf (i : Instr) : Option Nat :=
  match i with
  | .flush c => some c.nsid.toNat
  | .write c => some c.nsid.toNat
  | .read c => some c.nsid.toNat
  | .writeZeroes c => some c.nsid.toNat
  | .datasetManagement c => some c.nsid.toNat
  | .mouldWrite c => some c.nsid.toNat
  | .mouldCommit c => some c.nsid.toNat
  | .cast c => some c.nsid.toNat
  | .timedRead c => some c.nsid.toNat
  | .transform c => some c.nsid.toNat
  | _ => none

/-- An earlier command may still use a namespace of a delete. -/
def State.nsBusy (s : State) (d : Deleting) : Bool :=
  s.host.ctxs.any (fun y => decide (y.order < d.order) && (match y.instr with
    | some i => (match nsidOf i with | some n => d.spaces.any (fun p => p.1 == n) | none => false)
    | none => y.qid != 0))

/-- A delete is over: every data unit is clean, the trusses are free, moulds go with their store. -/
def State.finishDelete (s : State) (d : Deleting) : State :=
  let s1 := d.spaces.foldl (fun s p =>
    let us := s.media.units.filter (fun u => p.2.trusses.contains (u / 9) && u % 9 != 8)
    let s1 := us.foldl (fun (s : State) u => s.deallocUnit p.1 p.2 u) s
    (s1.modCast (fun k => { k with moulds := k.moulds.filter (fun m => m.ns != p.1) })).event 0x622) s
  let s2 := { s1 with deleting := s1.deleting.filter (fun e => e.order != d.order) }
  match s2.host.ctxs.find? (fun y => y.order == d.order) with
  | some y => s2.complete y .ok
  | none => s2

/-- A delete, of one namespace or of all. -/
def State.deleteNamespace (s : State) (x : Ctx) (c : Cmd) : State :=
  let all := c.nsid = 0xFFFFFFFF
  let gone := s.spaces.filter (fun p => all ∨ p.1 = c.nsid.toNat)
  if gone.isEmpty ∧ !all then s.complete x .ns
  else
    let d : Deleting := { assoc := x.assoc, qid := x.qid, cid := x.cid, order := x.order, spaces := gone }
    let s1 := { s with spaces := s.spaces.filter (fun p => !gone.any (fun g => g.1 == p.1)), deleting := s.deleting ++ [d] }
    let hit (y : Ctx) : Bool := (match y.wait with | .launch _ _ => true | _ => false)
      && (match y.instr.bind nsidOf with | some n => gone.any (fun g => g.1 == n) | none => false)
    let s2 := (s1.host.ctxs.filter hit).foldl (fun s y => s.complete y .ns) s1
    if s2.nsBusy d then s2.waitFor x .nsDelete else s2.finishDelete d

/-- Namespace Management. -/
def State.bodyNsManagement (s : State) (x : Ctx) (c : Cmd) : State :=
  match c.cdw10.toNat % 16 with
  | 0 => s.createNamespace x c
  | 1 => s.deleteNamespace x c
  | _ => s.complete x .field

/-- NAMESPACE_DELETE_DONE: the commands before the delete have finished (R371). -/
def execNamespaceDeleteDone (assoc qid cid : Nat) (s : State) : Res :=
  match s.deleting.find? (fun d => d.assoc == assoc && d.qid == qid && d.cid == cid) with
  | some d => .next (if s.nsBusy d then s else s.finishDelete d)
  | none => .next s

/-- Namespace Attachment (R372). -/
def State.bodyNsAttachment (s : State) (x : Ctx) (c : Cmd) : State :=
  if (lookupKey s.spaces c.nsid.toNat).isNone then s.complete x .ns
  else if c.cdw10.toNat % 16 = 0 then s.complete x .ok else s.complete x .field

/-! ## Identify (R367, R368) -/

/-- Bytes of text padded with spaces. -/
def padded (n : Nat) (l : List Byte) : List Byte := l.take n ++ List.replicate (n - l.length) 0x20

/-- Power descriptors of PS2 to PS5 of the reference drive: ENLAT and EXLAT in µs and 1/100 W. -/
def refPower : List Byte :=
  [(500000, 3600000, 650), (19000000, 22100000, 600), (10500000, 26100000, 300), (10700000, 31000000, 25)].flatMap
    (fun p => leBytes 4 p.1 ++ leBytes 4 p.2.1 ++ leBytes 4 p.2.2)

/-- The 6 power state descriptors of Identify Controller (R467). -/
def State.powerFields (s : State) : List (Nat × Nat × Nat) :=
  let r := (s.startRecord 4).getD refPower
  let d (k mp flags en ex : Nat) : List (Nat × Nat × Nat) :=
    let b := 2048 + 32 * k
    [(b, 2, mp), (b + 2, 1, 0), (b + 3, 1, flags), (b + 4, 4, en), (b + 8, 4, ex)]
  d 0 2100 0 0 0 ++ d 1 900 0 1000 100
    ++ (List.range 4).flatMap (fun k => d (k + 2) (leAt r (12 * k + 8) 2) 2 (leAt r (12 * k) 4) (leAt r (12 * k + 4) 4))

/-- The NQN of the subsystem: of the device identity record in use (R42). -/
def State.subNqn (s : State) : List Byte := (((s.startRecord 5).getD []).drop 32).takeWhile (· != 0)

/-- Identify Controller: the fields of R367; a field it does not list is 0 or as NVMe 2.0 requires, which is free here. -/
def State.identifyController (s : State) (assoc : Nat) : List Byte :=
  let id := (s.startRecord 5).getD []
  let rev := match s.runningSlot with | some k => (s.nor.slot k).rev | none => zeros 8
  let p := patchBytes (patchBytes (patchBytes (patchBytes (fitBytes (Config.unstated 6 0) 4096) 4 (padded 20 (id.take 20))) 24
    (padded 40 (ascii "UL9640"))) 64 (padded 8 rev)) 768 (fitBytes s.subNqn 256)
  layFields p ([(77, 1, 11), (78, 2, if assoc = 1024 then 0 else assoc), (80, 4, 0x20000), (256, 2, 0x0C), (258, 1, 3), (259, 1, 3),
    (260, 1, 0x14), (261, 1, 0x06), (262, 1, 63), (263, 1, 5), (320, 2, 1), (516, 4, 64), (520, 2, 0x0C), (525, 1, 0), (536, 4, 1)]
    ++ s.powerFields)

/-- Identify Namespace; none stands for the common values. -/
def State.identifyNamespace (s : State) (id : Nat) (n : Option Namespace) : List Byte :=
  let nsze := match n with | some k => k.nsze | none => 0
  let mould := match n with | some k => k.mould | none => false
  let use := if mould then s.mouldUse id else nsze
  layFields (zeros 4096)
    [(0, 8, nsze), (8, 8, nsze), (16, 8, use), (24, 1, 0x10), (26, 1, if s.metaSize = 0 then 0 else 0x10), (29, 1, 0), (33, 1, 0x09),
     (68, 2, 63), (70, 2, 63), (128, 2, s.metaSize), (130, 1, 12), (3840, 1, b2n mould)]

/-- What Identify returns to an association. -/
def State.identifyData (s : State) (assoc : Nat) (c : Cmd) : Except Status (List Byte) :=
  let cns := c.cdw10.toNat % 256
  let id := c.nsid.toNat
  if cns = 0 ∨ cns = 0x11 then
    if c.nsid = 0xFFFFFFFF then .ok (s.identifyNamespace 0 none)
    else if id = 0 ∨ 64 < id then .error .ns
    else
      match lookupKey s.spaces id with
      | some n => .ok (s.identifyNamespace id (some n))
      | none => .ok (zeros 4096)
  else if cns = 1 then .ok (s.identifyController assoc)
  else if cns = 2 ∨ cns = 0x10 then
    if 0xFFFFFFFE ≤ id then .error .ns
    else .ok (fitBytes ((s.spaces.filter (fun p => id < p.1)).flatMap (fun p => leBytes 4 p.1)) 4096)
  else if cns = 3 then
    if (lookupKey s.spaces id).isNone then .error .ns
    else .ok (fitBytes ([3, 16, 0, 0] ++ fitBytes (Config.unstated 3 id) 16) 4096)
  else .error .field

/-! ## Features (R352, R392, R468) -/

/-- The association a Queue Class names. -/
def classAssoc (own w : Nat) : Nat := if bitOf w 31 then bitsOf w 26 16 else own

/-- The queue of an association exists. -/
def Assoc.hasIo (y : Assoc) (a q : Nat) : Bool :=
  if a = 1024 then (lookupKey y.sqs q).isSome && q != 0 else y.ioQueue && q == 1

/-- An entry to a lower state or an exit to a higher one begins for a Set Features Power Management, or it waits for the change in
progress (R468, R470). -/
def State.bodyPower (s : State) (x : Ctx) (ps : Nat) : State :=
  if s.psMoving then s.waitFor x .powerState
  else if s.ps = ps then s.complete x .ok
  else
    let s1 := (s.waitFor x .powerState).modCtx x.assoc x.qid x.cid (fun y => { y with late := true })
    if s.ps < ps then s1.beginEntry ps else s1.beginExit ps

/-- Set Features. -/
def State.bodySetFeatures (s : State) (x : Ctx) (c : Cmd) : State :=
  let w := c.cdw11.toNat
  let set (a : Nat) (v : Nat) : State := (s.performWrite a (BitVec.ofNat 32 v)).complete x .ok
  match c.cdw10.toNat % 256 with
  | 0x02 => if 5 < w % 32 then s.complete x .field else s.bodyPower x (w % 32)
  | 0x04 =>
    let sel := bitsOf w 19 16
    let th := bitsOf w 21 20
    if (sel ≠ 0 ∧ sel ≠ 15) ∨ 1 < th then s.complete x .field
    else (s.modFeatures (fun f => if th = 0 then { f with tempOver := w % 65536 } else { f with tempUnder := w % 65536 })).complete x .ok
  | 0x07 =>
    if w % 65536 = 65535 ∨ w / 65536 = 65535 then s.complete x .field
    else s.complete x .ok (if x.assoc = 1024 then 63 * 65537 else 0)
  | 0x0B => (s.modAssoc x.assoc (fun y => { y with aec := c.cdw11 })).complete x .ok
  | 0x0F => (s.modAssoc x.assoc (fun y => { y with kato := w, katoFrom := s.now })).complete x .ok
  | 0xC1 =>
    let a := classAssoc x.assoc w
    let q := bitsOf w 15 8
    match s.assoc a with
    | some y =>
      if y.hasIo a q then (s.modAssoc a (fun y => { y with classes := insertKey y.classes q (w % 4) })).complete x .ok
      else s.complete x .field
    | none => s.complete x .field
  | 0xC2 =>
    let n := w % 4096
    if n = 0 ∨ 3600 < n then s.complete x .field
    else
      let s1 := s.setFld Adr.OWN_LEASE Fld.OWN_LEASE_lease_s n
      (if s1.isOwner x.assoc then s1.leaseFrom x else s1).complete x .ok
  | 0xC3 => if bitOf w 0 then s.lockPatina.complete x .ok else if s.nor.patLocked then s.complete x .field else s.complete x .ok
  | 0xC4 => set Adr.TMB_PHOFS (w % 65536)
  | 0xC5 => if w % 256 = 0 ∨ w / 256 % 65536 = 0 then s.complete x .field else set Adr.ECC_BUCKET (w % 2 ^ 24)
  | 0xC6 =>
    let t := w % 1024
    let q := bitsOf w 27 16
    if t = 0 ∨ 1000 < t ∨ q = 0 ∨ 3600 < q then s.complete x .field else set Adr.FLT_CTRL (t + q * 65536)
  | 0xC7 => s.bodyMembership x c
  | _ => s.complete x .field

/-- The present Constellation Membership. -/
def State.membership (s : State) : List Byte :=
  layFields (zeros 32)
    [(0, 8, s.planEpoch), (8, 2, s.fld Adr.TMB_PLAN Fld.TMB_PLAN_rpm_p), (10, 2, s.fld Adr.TMB_PLAN Fld.TMB_PLAN_stride),
     (12, 2, s.fld Adr.TMB_MEMBER Fld.TMB_MEMBER_member_id), (14, 1, s.fld Adr.TMB_MEMBER Fld.TMB_MEMBER_en)]

/-- A feature's values: current, default, saved, and whether it is saveable; none for a feature that is not supported. -/
def State.feature (s : State) (own fid w : Nat) : Option (Nat × Nat × Nat × Bool) :=
  let f := s.nor.features
  let y := (s.assoc own).getD {}
  let plain (v d : Nat) : Option (Nat × Nat × Nat × Bool) := some (v, d, d, false)
  let queues := if own = 1024 then 63 * 65537 else 0
  match fid with
  | 0x02 => plain s.ps 0
  | 0x04 => if bitsOf w 19 16 ≠ 0 ∨ 1 < bitsOf w 21 20 then none
    else if bitOf w 20 then plain f.tempUnder 0 else plain f.tempOver 383
  | 0x07 => plain queues queues
  | 0x0B => plain y.aec.toNat 0
  | 0x0F => plain y.kato 0
  | 0xC1 =>
    let a := classAssoc own w
    match s.assoc a with
    | some z => if z.hasIo a (bitsOf w 15 8) then plain (s.queueClass a (bitsOf w 15 8)) 2 else none
    | none => none
  | 0xC2 => plain (s.fld Adr.OWN_LEASE Fld.OWN_LEASE_lease_s) 10
  | 0xC3 => some (b2n s.nor.patLocked, 0, b2n s.nor.patLocked, true)
  | 0xC4 => some (s.fld Adr.TMB_PHOFS Fld.TMB_PHOFS_po, 0, f.savedC4, true)
  | 0xC5 => some ((s.reg Adr.ECC_BUCKET).toNat, 0x0003E810, f.savedC5, true)
  | 0xC6 => some ((s.reg Adr.FLT_CTRL).toNat, 0x000A0032, f.savedC6, true)
  | 0xC7 => some (0, 0, 0, true)
  | _ => none

/-- What Get Features returns to an association: dword 0 and data. -/
def State.featureData (s : State) (own : Nat) (c : Cmd) : Except Status (Nat × List Byte) :=
  let fid := c.cdw10.toNat % 256
  let sel := bitsOf c.cdw10.toNat 10 8
  match s.feature own fid c.cdw11.toNat with
  | none => .error .field
  | some (v, d, saved, can) =>
    if 3 < sel then .error .field
    else if sel = 3 then .ok (b2n can + 4, [])
    else if fid = 0xC7 then .ok (0, if sel = 0 then s.membership else if sel = 1 then zeros 32 else s.nor.features.savedC7)
    else .ok (if sel = 0 then v else if sel = 1 then d else saved, [])

/-- Get Features. -/
def State.bodyGetFeatures (s : State) (x : Ctx) (c : Cmd) : State :=
  match s.featureData x.assoc c with
  | .ok (v, d) => s.complete x .ok v 0 d
  | .error t => s.complete x t

/-! ## Asynchronous events (R222, R364) -/

/-- Asynchronous Event Request: a kept notice completes it; a fifth outstanding is refused. -/
def State.bodyAer (s : State) (x : Ctx) : State :=
  match s.assoc x.assoc with
  | some y =>
    match y.aers with
    | n :: r => (s.modAssoc x.assoc (fun y => { y with aers := r })).complete x .ok n
    | [] =>
      if 4 ≤ (s.host.ctxs.filter (fun z => z.assoc == x.assoc && z.wait == .asyncEvent)).length then s.complete x ⟨1, 5⟩
      else s.waitFor x .asyncEvent
  | none => s

/-- An association is told of an event: an outstanding request completes with it, or it is kept. -/
def State.notice (s : State) (a dw0 : Nat) : State :=
  match s.host.ctxs.find? (fun z => z.assoc == a && z.wait == .asyncEvent) with
  | some z => s.complete z .ok dw0
  | none => s.modAssoc a (fun y => { y with aers := y.aers ++ [dw0] })

/-- A Notice that names a log page; its information byte is free. -/
def noticeOf (lid : Nat) : Nat := 2 + 256 * leAt (Config.unstated 0x0C lid) 0 1 + 65536 * lid

/-! ## PCIe queues (R341, R364) -/

/-- Create I/O Completion Queue. -/
def State.bodyCreateCq (s : State) (x : Ctx) (c : Cmd) : State :=
  let q := c.cdw10.toNat % 65536
  let n := c.cdw10.toNat / 65536 + 1
  let iv := c.cdw11.toNat / 65536
  let y := (s.assoc x.assoc).getD {}
  if q = 0 ∨ 64 < q ∨ y.cqs.any (fun k => k.id == q) then s.complete x ⟨1, 1⟩
  else if n < 2 ∨ 1024 < n then s.complete x ⟨1, 2⟩
  else if bitOf c.cdw11.toNat 1 ∧ 65 ≤ iv then s.complete x ⟨1, 8⟩
  else
    let k : Cq := { id := q, size := n, vector := if bitOf c.cdw11.toNat 1 then some iv else none }
    (s.modAssoc x.assoc (fun y => { y with cqs := y.cqs ++ [k] })).complete x .ok

/-- Create I/O Submission Queue: its class is 2 (R352). -/
def State.bodyCreateSq (s : State) (x : Ctx) (c : Cmd) : State :=
  let q := c.cdw10.toNat % 65536
  let n := c.cdw10.toNat / 65536 + 1
  let k := c.cdw11.toNat / 65536
  let y := (s.assoc x.assoc).getD {}
  if k = 0 ∨ !y.cqs.any (fun d => d.id == k) then s.complete x ⟨1, 0⟩
  else if q = 0 ∨ 64 < q ∨ (lookupKey y.sqs q).isSome then s.complete x ⟨1, 1⟩
  else if n < 2 ∨ 1024 < n then s.complete x ⟨1, 2⟩
  else (s.modAssoc x.assoc (fun y => { y with sqs := insertKey y.sqs q k, classes := insertKey y.classes q 2 })).complete x .ok

/-- Delete I/O Submission Queue: capsules not fetched go with it. -/
def State.bodyDeleteSq (s : State) (x : Ctx) (c : Cmd) : State :=
  let q := c.cdw10.toNat % 65536
  let y := (s.assoc x.assoc).getD {}
  if q = 0 ∨ (lookupKey y.sqs q).isNone then s.complete x ⟨1, 1⟩
  else
    ((s.modHost (fun h => { h with capsules := h.capsules.filter (fun k => !(k.assoc == x.assoc && k.qid == q)) })).modAssoc x.assoc
      (fun y => { y with sqs := eraseKey y.sqs q, classes := eraseKey y.classes q })).complete x .ok

/-- Delete I/O Completion Queue: one that a submission queue posts to stays. -/
def State.bodyDeleteCq (s : State) (x : Ctx) (c : Cmd) : State :=
  let q := c.cdw10.toNat % 65536
  let y := (s.assoc x.assoc).getD {}
  if q = 0 ∨ !y.cqs.any (fun k => k.id == q) then s.complete x ⟨1, 1⟩
  else if y.sqs.any (fun p => p.2 == q) then s.complete x ⟨1, 0x0C⟩
  else (s.modAssoc x.assoc (fun y => { y with cqs := y.cqs.filter (fun k => k.id != q) })).complete x .ok

end Sys2Proof.Machine
end

