-- ==== Sys2Proof/Machine/Firmware.lean ====
section
/-! DEFINITION. Firmware Image Download, Firmware Commit, and activation without reset (R482 to R494). -/

namespace Sys2Proof.Machine

open Sys2Proof

/-- The slot that a download writes: the one neither active nor trial, slot A when neither is. -/
def State.spareSlot (s : State) : Nat := match s.runningSlot with | some 0 => 1 | _ => 0

/-- The CRC-32C of a block (R483). -/
def blockOk (b : List Byte) : Bool := (crc32c (b.take 65532)).toNat == leAt b 65532 4

/-! ## Download (R486) -/

/-- Blocks from a to b - 1 of an image pass their CRC. -/
def blocksOk (im : List Byte) (a b : Nat) : Bool := (List.range (b - a)).all (fun k => blockOk (imageBlock im (a + k)))

/-- Firmware Image Download. -/
def State.bodyFwDownload (s : State) (x : Ctx) (c : Cmd) : State :=
  let n := 4 * (c.cdw10.toNat + 1)
  let off := 4 * c.cdw11.toNat
  let k := s.spareSlot
  let old := s.nor.slot k
  if s.activation.isSome then s.complete x .sequence
  else if (off ≠ 0 ∧ (old.state ≠ 1 ∨ old.crcBad ∨ off ≠ old.image.length)) ∨ 50331648 < off + n then s.complete x .field
  else
    let im := (if off = 0 then [] else old.image) ++ fitBytes c.data n
    let ok := blocksOk im (off / 65536) (im.length / 65536)
    let s1 := (s.modSlot k (fun _ => { state := 1, image := im, crcBad := !ok })).setFld Adr.FWU_DL Fld.FWU_DL_received im.length
    let s2 := ({ s1 with nor := { s1.nor with bootMark := if s1.nor.bootMark = some k then none else s1.nor.bootMark } }).syncSlots
    if ok then s2.complete x .ok
    else ((s2.setFlag Adr.FWU_DL Fld.FWU_DL_crc_fail true).event 0x7C0 (k + 1)).complete x ⟨1, 7⟩

/-! ## Commit (R485, R487, R488) -/

/-- FWU_CHECK of a commit. -/
def State.noteCheck (s : State) (im : List Byte) (c : Nat) : State :=
  (s.setFld Adr.FWU_CHECK Fld.FWU_CHECK_check c).setFld Adr.FWU_CHECK Fld.FWU_CHECK_sig_ok (keysVerified im)

/-- The activation logic's registers. -/
def State.syncActivation (s : State) : State :=
  let f := Adr.FWU_STATUS
  match s.activation with
  | some v => (s.setFlag f Fld.FWU_STATUS_activating true).setFld f Fld.FWU_STATUS_act_step v.step
  | none => (s.setFlag f Fld.FWU_STATUS_activating false).setFld f Fld.FWU_STATUS_act_step 0

/-- A committed slot is activated once nothing holds it, if its image still stands and passes its checks as it is decrypted (R1, R492): in the fault state the commit is refused, while a function is stopping or
another activation runs it waits; outside PS0 and PS1 it exits to PS0 first. -/
def State.tryActivate (s : State) (x : Ctx) (k : Nat) : State :=
  if 2 ≤ s.faultState then s.complete x ⟨1, 0x13⟩
  else if 2 ≤ s.ps ∨ s.psMoving then
    ((s.waitFor x .activation).modCtx x.assoc x.qid x.cid (fun y => { y with late := true })).wakeCmd
  else if s.activation.isSome ∨ (List.range 15).any (fun f => s.fstate f == 1) then
    (s.waitFor x .activation).modCtx x.assoc x.qid x.cid (fun y => { y with late := true })
  else
    let s1 := (s.revertAll).event 0x7C5 (k + 1)
    if (s1.nor.slot k).state ≠ 2 ∨ (s1.nor.slot k).check.isSome then (s1.event 0x7C7 (k + 1)).complete x ⟨1, 0x13⟩
    else
      let v : Activation := { assoc := x.assoc, qid := x.qid, cid := x.cid, slot := k }
      ((({ s1 with activation := some v }).syncActivation).setFld Adr.FWU_PAUSE Fld.FWU_PAUSE_max_ms 0).waitFor x .activation

/-- A commit that came before this one is not over (R487). -/
def State.commitBefore (s : State) (x : Ctx) : Bool := s.host.ctxs.any (fun y => decide (y.order < x.order) && y.wait == .activation)

/-- The slot that FS of a commit names. -/
def State.fsSlot (s : State) (c : Cmd) : Option Nat :=
  match c.cdw10.toNat % 8 with
  | 0 => some s.spareSlot
  | 1 => some 0
  | 2 => some 1
  | _ => none

/-- Firmware Commit. -/
def State.bodyFwCommit (s : State) (x : Ctx) (c : Cmd) : State :=
  let ca := bitsOf c.cdw10.toNat 5 3
  if 4 ≤ ca then s.complete x .field
  else if s.commitBefore x then s.waitFor x .activation
  else
    match s.fsSlot c with
    | none => s.complete x ⟨1, 6⟩
    | some k =>
      let st := (s.nor.slot k).state
      let mark (s : State) (m : Option Nat) : State := ({ s with nor := { s.nor with bootMark := m } }).syncSlots
      if ca = 2 then
        if 3 ≤ st then (mark s none).complete x .ok
        else if st = 2 then (mark s (some k)).complete x .ok
        else s.complete x ⟨1, 6⟩
      else if 3 ≤ st then s.complete x ⟨1, 6⟩
      else
        let im := (s.nor.slot k).image
        match (s.nor.slot k).check with
        | some n =>
          let s1 := (s.noteCheck im n).modSlot k (fun _ => {})
          (s1.syncSlots.event 0x7C2 (k + 1)).complete x ⟨1, 7⟩ n
        | none =>
          let s1 := ((s.noteCheck im 0).modSlot k (fun y => { y with state := 2 })).syncSlots.event 0x7C1 (k + 1)
          if ca = 0 then s1.complete x .ok
          else if ca = 1 then
            let s2 := (mark s1 (some k)).complete x .ok
            if s2.pln.loader then let t := s2.bootFree; t.2.deviceReset t.1 else s2
          else s1.tryActivate x k

/-! ## Activation steps (R493, R494) -/

/-- Bound of a step in ms; 0 is none. -/
def stepBound (step : Nat) : Nat := if step ≤ 4 then 25 else if step ≤ 6 then 20 else if step ≤ 10 then 0 else 30

/-- One unit changes to the new firmware; after the last, the slot is active (R493). A patch that fails R115 refuses the restart of the
format function: the step has not finished. -/
def State.activate (s : State) (v : Activation) : State :=
  let next (s : State) (v : Activation) : State := ({ s with activation := some { v with step := v.step + 1, retried := false } }).syncActivation
  if v.step ≤ 4 then
    let a := actOf (v.step - 1)
    let was := s.regs.filter (fun p => isPatchReg a p.1)
    let s1 := s.loadPatch (s.nor.slot v.slot).image a
    if patchCrc s1.reg a = s1.reg (Adr.FSQ_PCRC a) then next (s1.formatCommitted a) { v with saved := v.saved ++ was }
    else
      let s2 := s.patchRefused a
      if v.retried then s2.endActivation false else { s2 with activation := some { v with retried := true } }
  else if v.step ≤ 10 then next s v
  else
    let s1 := s.modSlot (1 - v.slot) (fun y => if 3 ≤ y.state then { y with state := 2 } else y)
    let s2 := ((s1.modSlot v.slot (fun y => { y with state := 4 })).syncSlots).forActs
      (fun s a => s.setFld (Adr.FSQ_PATCH a) Fld.FSQ_PATCH_patch_id (leAt (s.nor.slot v.slot).image 24 2))
    let s3 := (({ s2 with activation := none }).syncActivation).event 0x7C6 (v.slot + 1)
    match s3.ctx v.assoc v.qid v.cid with | some x => s3.complete x .ok | none => s3

/-- A pause counts in FWU_PAUSE. -/
def State.notePause (s : State) (ms : Nat) : State :=
  s.setFld Adr.FWU_PAUSE Fld.FWU_PAUSE_max_ms (min (max (s.fld Adr.FWU_PAUSE Fld.FWU_PAUSE_max_ms) ms) 65535)

/-- ACTIVATION_STEP_DONE: a step is over within its bound, or misses it (R493, R494). -/
def execActivationStepDone (pauseMs : Nat) (s : State) : Res :=
  match s.activation with
  | some v =>
    if v.back ∨ v.retried then .next s
    else if stepBound v.step ≠ 0 ∧ stepBound v.step < pauseMs then
      .next { s.notePause (stepBound v.step) with activation := some { v with retried := true } }
    else .next ((s.notePause pauseMs).activate v)
  | none => .next s

/-- The commit of an activation that is ended, and its way back (R494). -/
def State.abortActivation (s : State) : State := s.endActivation false

/-- ACTIVATION_RETRY: the step that missed its bound is tried again 1 s later; when it fails again the activation is ended. -/
def execActivationRetry (ok : Bool) (pauseMs : Nat) (s : State) : Res :=
  match s.activation with
  | some v =>
    if v.back ∨ !v.retried then .next s
    else if ok ∧ (stepBound v.step = 0 ∨ pauseMs ≤ stepBound v.step) then .next ((s.notePause pauseMs).activate v)
    else .next s.abortActivation
  | none => .next s

/-- ACTIVATION_END: the units already changed are back on the previous image (R494). -/
def execActivationEnd (s : State) : Res :=
  match s.activation with
  | some v =>
    if !v.back then .next s
    else
      let done (a : Nat) : Bool := decide (a + 1 < v.step)
      let kept := s.regs.filter (fun (p : Nat × Word) => !((List.range 4).any (fun a => done a && isPatchReg a p.1)))
      let s1 := { s with regs := RegFile.putAll kept v.saved }
      let s2 := s1.forActs (fun s a => if done a then s.formatCommitted a else s)
      .next ((({ s2 with activation := none }).syncActivation).event 0x7C7 (v.slot + 1))
  | none => .next s

end Sys2Proof.Machine
end

