-- ==== Sys2Proof/Machine/Fabrics.lean ====
section
/-! DEFINITION. The Network region's own rows: ports, frames, TCP connections, capsules, associations, DH-HMAC-CHAP, PCIe function resets
and doorbells, ownership timers, and the MI endpoint (R330 to R343, R350, R353 to R356). -/

namespace Sys2Proof.Machine

open Sys2Proof

/-! ## Ports (R330, R331, R340) -/

/-- A port may have a link: it is powered, in service, enabled and its function runs. In PS4 port 0 is held at 25GBASE-KR and port 1 is off
(R331, R467). -/
def State.portUsable (s : State) (p : Nat) : Bool :=
  s.powered 4 && !s.restarting 4 && !s.flag (Adr.NET_STATUS p) Fld.NET_STATUS_failed
    && (if s.ps = 4 then p == 0 else s.flag (Adr.NET_CFG p) Fld.NET_CFG_port_en && s.funcRunning (12 + p))

/-- Lanes and FEC of a port in a mode (R330). -/
def linkOf (mode fec : Nat) : Link :=
  if mode ≤ 1 then ⟨2, 3⟩ else if mode ≤ 3 then ⟨1, 3⟩ else ⟨1, fec⟩

/-- A port whose function runs is held down by port_en: the time its link has been down without a stop begins (R331, R340). -/
def State.heldDown (s : State) (p : Nat) : State :=
  s.modHost (fun h => { h with linkDownAt := if (lookupKey h.linkDownAt p).isSome then h.linkDownAt else insertKey h.linkDownAt p s.now })

/-- The link of port p comes up in its configured mode, with the lanes and FEC of it. -/
def State.portUp (s : State) (p : Nat) : State :=
  if !s.portUsable p then s.heldDown p
  else
    let st := Adr.NET_STATUS p
    let mode := if s.ps = 4 then 4 else s.fld (Adr.NET_CFG p) Fld.NET_CFG_mode
    let s1 := ((s.setFlag st Fld.NET_STATUS_link true).setFld st Fld.NET_STATUS_an_done (s.fld (Adr.NET_CFG p) Fld.NET_CFG_an_en)).setFld st
      Fld.NET_STATUS_mode_up mode
    (s1.modHost (fun h => { h with 
      linkDownAt := eraseKey h.linkDownAt p
      links := insertKey h.links p (linkOf mode (s.fld (Adr.NET_CFG p) Fld.NET_CFG_fec)) })).event 0x604

/-- LINK_UP: a restarting port function commits with it (R35). -/
def execLinkUp (p : Fin 2) (s : State) : Res :=
  .next ((if s.fstate (12 + p) = 3 then s.commitFunc (12 + p) else s).portUp p)

/-- The link of port p goes down (R201, R331). -/
def State.portDown (s : State) (p : Nat) : State :=
  let st := Adr.NET_STATUS p
  if !s.flag st Fld.NET_STATUS_link then s
  else
    let s1 := (s.setFlag st Fld.NET_STATUS_link false).setFlag st Fld.NET_STATUS_an_done false
    ((s1.modHost (fun h => { h with 
      linkDownAt := insertKey h.linkDownAt p s.now, links := eraseKey h.links p })).event 0x603).ptpLinkDown p

/-- LINK_DOWN. -/
def execLinkDown (p : Fin 2) (s : State) : Res := .next (s.portDown p)

/-- Every association of a port ends, with an event each where one is given. -/
def State.endPort (s : State) (p : Nat) (event : Option Nat) : State :=
  (s.host.assocs.filter (fun x => x.1 != 1024 && x.2.port == p)).foldl (fun s x => (match event with | some e => s.event e | none => s).endAssoc x.1) s

/-- LINK_LOSS_TIMEOUT: a link down for 2 s without a stop of the port function (R340). -/
def execLinkLossTimeout (p : Fin 2) (s : State) : Res :=
  let long := match lookupKey s.host.linkDownAt p with | some t => decide (t + 2000000000 ≤ s.now) | none => true
  .next (if !s.flag (Adr.NET_STATUS p) Fld.NET_STATUS_link && s.funcRunning (12 + p) && long then s.endPort p (some 0x60A) else s)

/-- PORT_FAULT: the port goes out of service and its associations end (R20). -/
def execPortFault (p : Fin 2) (s : State) : Res :=
  let s1 := (s.portDown p).setFlag (Adr.NET_STATUS p) Fld.NET_STATUS_failed true
  .next ((s1.eventIn (26 + p) 0x605).endPort p none)

/-! ## Frames (R332 to R334) -/

/-- The IPv6 address of an interface, first byte least significant. -/
def State.ip6 (s : State) (p i : Nat) : Nat :=
  (List.range 4).foldl (fun n w => n + (s.reg (Adr.NET_IFIP6 p i w)).toNat * 2 ^ (32 * w)) 0

/-- The link-local address of port p, from its MAC address. -/
def State.linkLocal (s : State) (p : Nat) : Nat :=
  let m := leBytes 2 (s.reg (Adr.NET_MAC_HI p)).toNat ++ leBytes 4 (s.reg (Adr.NET_MAC_LO p)).toNat
  let b (i : Nat) : Byte := m.getD i 0
  ofLe ([0xFE, 0x80, 0, 0, 0, 0, 0, 0] ++ [b 0 ^^^ 2, b 1, b 2, 0xFF, 0xFE, b 3, b 4, b 5])

/-- Interface i of port p holds an address. -/
def State.holdsIp (s : State) (p i : Nat) (v6 : Bool) (ip : Nat) : Bool :=
  let w := Adr.NET_IF0 p i
  if v6 then (s.fld w Fld.NET_IF0_pfx6 != 0 && ip == s.ip6 p i) || ip == s.linkLocal p
  else s.fld w Fld.NET_IF0_pfx4 != 0 && ip == (s.reg (Adr.NET_IFIP4 p i)).toNat

/-- The first k bits of an address of n bytes, held first byte least significant. -/
def prefixOf (n k ip : Nat) : Nat := ofBe (leBytes n ip) / 2 ^ (8 * n - k)

/-- The next hop of an interface for an address: the address itself within its prefix or link-local, else the gateway, or the router learned from
Router Advertisements; none without one (R333, R361). -/
def State.nextHop (s : State) (p i : Nat) (v6 : Bool) (ip : Nat) : Option Nat :=
  let w := Adr.NET_IF0 p i
  let k6 := s.fld w Fld.NET_IF0_pfx6
  let k4 := s.fld w Fld.NET_IF0_pfx4
  let gw := (s.reg (Adr.NET_IFGW4 p i)).toNat
  if v6 then
    if ip % 2 ^ 16 = 0x80FE ∨ (k6 ≠ 0 ∧ prefixOf 16 k6 ip = prefixOf 16 k6 (s.ip6 p i)) then some ip else lookupKey s.host.routers (4 * p + i)
  else if prefixOf 4 k4 ip = prefixOf 4 k4 (s.reg (Adr.NET_IFIP4 p i)).toNat then some ip
  else if gw = 0 then none else some gw

/-- The enabled interface of port p for a VLAN. -/
def State.ifaceOf (s : State) (p vlan : Nat) : Option Nat :=
  (List.range 4).find? (fun i => s.flag (Adr.NET_IF0 p i) Fld.NET_IF0_en && s.fld (Adr.NET_IF0 p i) Fld.NET_IF0_vlan == vlan)

/-- A received frame is dropped or answered. What the network answers of itself goes out as transport control does (log entry 144). TCP segments of a connection are the transport engine's. -/
def State.receive (s : State) (p : Nat) (f : Frame) : State :=
  let vlan := match f.tag with | .vlan k => k | _ => 0
  let most := s.fld (Adr.NET_CFG p) Fld.NET_CFG_mtu + (match f.tag with | .vlan _ => 22 | _ => 18)
  if !s.flag (Adr.NET_STATUS p) Fld.NET_STATUS_link then s
  else if !f.fcsOk then s.countFld (Adr.NET_CNT0 p) Fld.NET_CNT0_fcs_err
  else if f.tag = .dropped then s
  else if most < f.len then s.countFld (Adr.NET_CNT0 p) Fld.NET_CNT0_oversize
  else
    match s.ifaceOf p vlan with
    | none => s
    | some i =>
      match f.payload with
      | .arp ip => if s.holdsIp p i false ip then s.sendOn p i 0 (.arpReply p i ip) else s
      | .neighbour ip => if s.holdsIp p i true ip then s.sendOn p i 0 (.neighbourAdvert p i ip) else s
      | .routerAdvert r life => s.modHost (fun h => { h with
          routers := if life = 0 then eraseKey h.routers (4 * p + i) else insertKey h.routers (4 * p + i) r })
      | .echo v6 src dst body =>
        match s.nextHop p i v6 src with
        | some hop => if s.holdsIp p i v6 dst then s.sendOn p i 0 (.echoReply p i v6 hop body) else s
        | none => s
      | .fragment => s.countFld (Adr.NET_CNT0 p) Fld.NET_CNT0_oversize
      | .tcp v6 dst port conn syn =>
        if !s.holdsIp p i v6 dst then s
        else if port ≠ 4420 ∧ port ≠ 8009 then s.sendOn p i 0 (.unreachable p i v6)
        else match conn with
          | some k => if (lookupKey s.host.conns k).isNone then s.sendOn p i 0 (.tcpReset p k) else s
          | none => if syn then s else s.sendOn p i 0 (.tcpReset p s.host.nextConn)
      | .ptp => s
      | .other => s

/-- FRAME_RECEIVE. -/
def execFrameReceive (p : Fin 2) (f : Frame) (s : State) : Res := .next (s.receive p f)

/-! ## Connections (R334 to R338) -/

/-- Change a connection. -/
def State.modConn (s : State) (k : Nat) (f : Conn → Conn) : State :=
  s.modHost (fun h => { h with conns := h.conns.map (fun p => if p.1 = k then (p.1, f p.2) else p) })

/-- The MSS of a connection over an interface: what the headers of IP and TCP leave of the MTU (R334). DESIGN CHOICE (log entry 140): headers without
options, 40 bytes over IPv4 and 60 over IPv6. -/
def State.mss (s : State) (p : Nat) (v6 : Bool) : Nat := s.fld (Adr.NET_CFG p) Fld.NET_CFG_mtu - (if v6 then 60 else 40)

/-- TCP_CONNECT: a connection to port 4420 or 8009 of an enabled interface opens; a 17th discovery connection is reset, as is any to another port. -/
def execTcpConnect (p : Fin 2) (i : Fin 4) (v6 : Bool) (localPort : Nat) (s : State) : Res :=
  let k := s.host.nextConn
  let s1 := s.modHost (fun h => { h with nextConn := k + 1 })
  let disc := (s.host.conns.filter (fun c => c.2.localPort == 8009)).length
  .next (
    if !s.flag (Adr.NET_STATUS p) Fld.NET_STATUS_link || !s.flag (Adr.NET_IF0 p i) Fld.NET_IF0_en then s
    else if (localPort ≠ 4420 ∧ localPort ≠ 8009) ∨ (localPort = 8009 ∧ 16 ≤ disc) then s1.sendOn p i 0 (.tcpReset p k)
    else s1.modHost (fun h => { h with conns := insertKey h.conns k { port := p, iface := i, mss := s.mss p v6, localPort := localPort } }))

/-- CONNECTION_CLOSE. -/
def execConnectionClose (conn : Nat) (s : State) : Res := .next (s.closeConn conn)

/-- The bytes of ICResp. -/
def icRespBytes (hdgst ddgst : Bool) : List Byte :=
  layFields (zeros 128) [(0, 1, 1), (2, 1, 128), (4, 4, 128), (8, 2, 0), (10, 1, 0), (11, 1, b2n hdgst + 2 * b2n ddgst), (12, 4, 131072)]

/-- ICREQ (R337). -/
def execIcreq (conn : Nat) (pfv hpda : Nat) (hdgst ddgst : Bool) (s : State) : Res :=
  match lookupKey s.host.conns conn with
  | none => .next s
  | some c =>
    if c.icDone then .next s
    else if pfv ≠ 0 then .next ((s.sendConn conn 0 (.termReq conn 6 8)).closeConn conn)
    else if hpda ≠ 0 then .next ((s.sendConn conn 0 (.termReq conn 6 10)).closeConn conn)
    else .next ((s.modConn conn (fun c => { c with icDone := true, hdgst := hdgst, ddgst := ddgst })).sendConn conn 0
      (.icResp conn (icRespBytes hdgst ddgst)))

/-- A header digest error closes the connection (R338). -/
def State.headerError (s : State) (conn : Nat) (c : Conn) : State :=
  (((s.sendConn conn 0 (.termReq conn 3 0)).countFld (Adr.NET_CNT1 c.port) Fld.NET_CNT1_hdgst_err).event 0x601).closeConn conn

/-- A data digest error is counted (R338). -/
def State.dataError (s : State) (c : Conn) : State := (s.countFld (Adr.NET_CNT1 c.port) Fld.NET_CNT1_ddgst_err).event 0x602

/-- CAPSULE_RECEIVE: a command capsule enters its command queue, a full one takes none (R338, R348, R350). -/
def execCapsuleReceive (conn : Nat) (cid : Nat) (bytes : Nat) (headerOk dataOk despiteFull : Bool) (s : State) : Res :=
  match lookupKey s.host.conns conn with
  | none => .next s
  | some c =>
    match c.assoc with
    | none => .next s
    | some a =>
      if c.hdgst && !headerOk then .next (s.headerError conn c)
      else
        let q := commandQueue a c.qid
        let n := cellsOf bytes
        let bad := c.ddgst && !dataOk
        if s.queueFull q then
          if despiteFull then
            .next ((s.overrun q).post { assoc := a, qid := c.qid, cid := cid, sct := Status.internal.sct, sc := Status.internal.sc
                                        dnr := Status.internal.dnr })
          else .next s
        else
          let s1 := if bad then s.dataError c else s
          .next ((s1.modQueue q (fun k => { k with openCells := k.openCells + n })).arrive a c.qid cid n bad)

/-- A command whose data is not wholly in DRAM. -/
def Ctx.awaitsData (x : Ctx) : Bool := x.instr.isNone || (x.wait != .mediaWrite && x.wait != .job)

/-- H2C_DATA: data of a command arrives; a header digest error closes the connection, and a data digest error ends the command with nothing written
(R338). -/
def execH2cData (conn : Nat) (cid : Nat) (headerOk dataOk : Bool) (s : State) : Res :=
  match lookupKey s.host.conns conn with
  | none => .next s
  | some c =>
    let s1 := s.modConn conn (fun c => { c with r2t := c.r2t.filter (· != cid) })
    if c.hdgst && !headerOk then .next (s.headerError conn c)
    else if dataOk || !c.ddgst then .next s1
    else
      let s2 := s1.dataError c
      match c.assoc.bind (fun a => s2.ctx a c.qid cid) with
      | some x =>
        if x.instr.isNone then .next (s2.modCtx x.assoc x.qid x.cid (fun y => { y with bad := true }))
        else if x.awaitsData then .next (s2.complete x .transport) else .next s2
      | none => .next s2

/-- REFUSED_CONNECTION_TIMEOUT (R336). -/
def execRefusedConnectionTimeout (conn : Nat) (s : State) : Res :=
  match lookupKey s.host.conns conn with
  | some c => .next (if c.refused then s.closeConn conn else s)
  | none => .next s

/-- TCP_TIMER_EXPIRY (R334): 0 retransmission, which doubles the timeout and restarts slow start; 1 persist, a window probe; 2 time-wait,
which forgets the connection. -/
def execTcpTimerExpiry (conn : Nat) (timer : Fin 3) (s : State) : Res :=
  match lookupKey s.host.conns conn with
  | none => .next s
  | some _ =>
    if timer = 0 then
      .next ((s.modConn conn (fun c => { c with
        rto := 2 * c.rto, ssthresh := max (c.cwnd / 2) 2, cwnd := 1 })).sendConn conn 0 (.retransmit conn))
    else if timer = 1 then .next (s.sendConn conn 0 (.windowProbe conn))
    else .next (s.closeConn conn)

/-- KEEP_ALIVE_EXPIRY: the timer the host set with KATO, in ms, has run out since the last command (R340). -/
def execKeepAliveExpiry (assoc : Nat) (s : State) : Res :=
  match s.assoc assoc with
  | some y => .next (if y.kato ≠ 0 ∧ y.katoFrom + y.kato * 1000000 ≤ s.now then (s.event 0x609).endAssoc assoc else s)
  | none => .next s

/-! ## Associations (R335, R336) -/

/-- A completion on a connection that has no association is listed under 65,536 + the connection. -/
def State.postConn (s : State) (conn cid : Nat) (t : Status) (dw0 : Nat) : State :=
  s.modHost (fun h => { h with completions := h.completions ++
    [{ assoc := 65536 + conn, qid := 0, cid := cid, sct := t.sct, sc := t.sc, dnr := t.dnr, dw0 := dw0 }] })

/-- Dword 0 of a successful Connect: the controller ID, and whether authentication is required. -/
def State.connectDw0 (s : State) (a : Nat) : Nat := a + 2 ^ 17 * s.fld Adr.HIF_CTRL Fld.HIF_CTRL_auth_req

/-- Fabrics Connect (R336): the association field of the command names the connection. -/
def State.bodyConnect (s : State) (conn : Nat) (k : Conn) (c : Cmd) : State :=
  let qid := c.cdw10.toNat / 65536
  let d := fitBytes c.data 1024
  let cntlid := leAt d 16 2
  if k.localPort = 8009 then (s.modConn conn (fun k => { k with qid := 0 })).postConn conn c.cid .ok 0xFFFF
  else if qid = 0 then
    match (if cntlid = 0xFFFF then firstFrom 0 1024 (fun a => (s.assoc a).isNone) else none) with
    | some a =>
      let x : Assoc := { port := k.port, hostNqn := (slice d 512 256).takeWhile (· != 0), kato := c.cdw12.toNat, katoFrom := s.now }
      let s1 := s.modHost (fun h => { h with assocs := insertKey h.assocs a x })
      (s1.modConn conn (fun k => { k with assoc := some a, qid := 0 })).post
        { assoc := a, qid := 0, cid := c.cid, sct := 0, sc := 0, dnr := false, dw0 := s1.connectDw0 a }
    | none =>
      (((s.modConn conn (fun k => { k with refused := true })).countFld Adr.HIF_CNT Fld.HIF_CNT_refused).event 0x600).postConn conn c.cid
        (.vendor 0x8B) 0
  else
    match s.assoc cntlid with
    | some y =>
      if cntlid = 1024 ∨ qid ≠ 1 then s.postConn conn c.cid ⟨1, 0x82⟩ 0
      else if y.ioQueue then s.postConn conn c.cid .sequence 0
      else
        let s1 := s.modAssoc cntlid (fun y => { y with ioQueue := true, classes := insertKey y.classes 1 2 })
        (s1.modConn conn (fun k => { k with assoc := some cntlid, qid := 1 })).post
          { assoc := cntlid, qid := 1, cid := c.cid, sct := 0, sc := 0, dnr := false, dw0 := cntlid }
    | none => s.postConn conn c.cid ⟨1, 0x82⟩ 0

/-- FABRICS_CONNECT: on an established connection with its ICResp and no association; accepted once the Network region serves (R477). -/
def execFabricsConnect (c : Cmd) (s : State) : Res :=
  match lookupKey s.host.conns c.assoc with
  | some k => .next (if k.established && k.icDone && k.assoc.isNone && !k.refused && s.powered 4 then s.bodyConnect c.assoc k c else s)
  | none => .next s

/-! ## DH-HMAC-CHAP (R339), with the messages of NVMe 2.0: PRESUMED (log entry 126) -/

/-- A use of one of the hashes 1 to 3. -/
def hashBy {α : Type} (h : Nat) (f256 : Sha2 32 → α) (f : Sha2 64 → α) : α :=
  if h = 1 then f256 sha256 else if h = 2 then f sha384 else f sha512

/-- Length of a hash. -/
def hashLen (h : Nat) : Nat := hashBy h Sha2.bytes Sha2.bytes
/-- The digest of a message. -/
def hashOf (h : Nat) (l : List Byte) : List Byte := hashBy h (·.digest l) (·.digest l)
/-- The HMAC of a message. -/
def hmacOf (h : Nat) (key l : List Byte) : List Byte := hashBy h (·.hmac key l) (·.hmac key l)

/-- The host's NQN of an association. -/
def State.hostOf (s : State) (a : Nat) : List Byte := match s.assoc a with | some y => y.hostNqn | none => []

/-- The secret record of an association's host: the secret and its transformation. -/
def State.secretOf (s : State) (a : Nat) : Option (List Byte × Nat) :=
  (s.nor.records.find? (fun r => r.kind == 6 && r.valid && (r.body.take 256).takeWhile (· != 0) == s.hostOf a)).map
    (fun r => (slice r.body 260 (leAt r.body 256 1), leAt r.body 257 1))

/-- The key of one side: the secret, transformed for the NQN of that side where the record names a hash. -/
def chapKey (secret : List Byte × Nat) (nqn : List Byte) : List Byte :=
  if secret.2 = 0 then secret.1 else hmacOf secret.2 secret.1 (nqn ++ ascii "NVMe-over-Fabrics")

/-- The response of the side named `who`, of NQN `own`, to a challenge of the other side: over the challenge, augmented by the shared
value of a DH group, the sequence number and the transaction. -/
def chapResponse (t : AuthTr) (secret : List Byte × Nat) (shared challenge : List Byte) (seq : Nat) (who own other : List Byte) : List Byte :=
  let c := if t.group = 0 then challenge else hmacOf t.hash (hashOf t.hash shared) challenge
  hmacOf t.hash (chapKey secret own) (c ++ leBytes 4 seq ++ leBytes 2 t.tid ++ [0] ++ who ++ own ++ [0] ++ other)

/-- The state of authentication of an association. -/
def State.authOf (s : State) (a : Nat) : AuthState := match s.assoc a with | some y => y.authState | none => .idle

/-- Set the state of authentication. -/
def State.setAuth (s : State) (a : Nat) (st : AuthState) : State := s.modAssoc a (fun y => { y with authState := st })

/-- An attempt fails: event 0x608, and the association is not authenticated. -/
def State.authFail (s : State) (a tid reason : Nat) : State :=
  ((s.setAuth a (.failed tid reason)).modAssoc a (fun y => { y with auth := false })).event 0x608

/-- The attempt completes: the association is authenticated. -/
def State.authDone (s : State) (a : Nat) : State := (s.setAuth a .idle).modAssoc a (fun y => { y with auth := true })

/-- The first hash or DH group of an offered list that the device has. -/
def chosen (l : List Byte) (n most : Nat) (least : Nat) : Option Nat :=
  ((l.take n).map (fun b => b.toNat)).find? (fun k => decide (least ≤ k) && decide (k ≤ most))

/-- A negotiation: its first DH-HMAC-CHAP descriptor offers hashes and DH groups; secure channel concatenation is not supported. -/
def State.authNegotiate (s : State) (a tid : Nat) (d : List Byte) : State :=
  let offers := ((List.range (leAt d 7 1)).map (fun k => slice d (8 + 64 * k) 64)).find? (fun p => leAt p 0 1 == 1)
  match offers with
  | none => s.authFail a tid 2
  | some p =>
    if leAt d 6 1 ≠ 0 then s.authFail a tid 3
    else
      match chosen (slice p 4 30) (leAt p 2 1) 3 1, chosen (slice p 34 30) (leAt p 3 1) 5 0 with
      | none, _ => s.authFail a tid 4
      | _, none => s.authFail a tid 5
      | some h, some g => s.setAuth a (.negotiated ⟨tid, h, g⟩)

/-- A reply: the host's response is checked, and the device's own is formed where the host sends a challenge. -/
def State.authReply (s : State) (a tid : Nat) (d : List Byte) : State :=
  match s.authOf a, s.secretOf a with
  | .challenged t seq x ch, some sec =>
    let n := hashLen t.hash
    let dh := slice d (16 + 2 * n) (leAt d 10 2)
    let shared := ffdhePow t.group (ofBe dh) x
    if t.tid ≠ tid then s.authFail a tid 7
    else if leAt d 6 1 ≠ n ∨ leAt d 10 2 ≠ ffdheBytes t.group then s.authFail a tid 6
    else if slice d 16 n ≠ chapResponse t sec shared ch seq (ascii "HostHost") (s.hostOf a) s.subNqn then s.authFail a tid 1
    else
      s.setAuth a (.replied t (if leAt d 8 1 = 0 then none
        else some (chapResponse t sec shared (slice d (16 + n) n) (leAt d 12 4) (ascii "Controller") s.subNqn (s.hostOf a))))
  | .challenged _ _ _ _, none => s.authFail a tid 1
  | _, _ => s.authFail a tid 7

/-- A message from the host is processed: negotiation, reply, or the success or failure that ends bidirectional authentication. -/
def State.authMessage (s : State) (a : Nat) (d : List Byte) : State :=
  let tid := leAt d 4 2
  let kind := leAt d 0 1
  let id := leAt d 1 1
  if kind = 0 ∧ id = 0 then s.authNegotiate a tid d
  else if kind = 1 ∧ id = 2 then s.authReply a tid d
  else if kind = 1 ∧ id = 4 ∧ s.authOf a = .confirming tid then s.authDone a
  else if kind = 1 ∧ id = 0xF1 then (s.authFail a tid 1).setAuth a .idle
  else s.authFail a tid 7

/-- n free bytes. -/
def State.freeBytes (s : State) (n : Nat) : List Byte × State :=
  let p := (List.range ((n + 7) / 8)).foldl (fun (q : List Byte × State) _ => let t := q.2.free (2 ^ 64); (q.1 ++ leBytes 8 t.1, t.2)) ([], s)
  (p.1.take n, p.2)

/-- A message's head: type, identifier and transaction, then further fields. -/
def authHead (n kind id tid : Nat) (fs : List (Nat × Nat × Nat)) : List Byte :=
  layFields (List.replicate n 0) ([(0, 1, kind), (1, 1, id), (4, 2, tid)] ++ fs)

/-- The challenge: a sequence number, a challenge and the device's DH value, 2 to the power of a private value of 256 bits. -/
def State.authChallenge (s : State) (a : Nat) (t : AuthTr) : List Byte × State :=
  let n := hashLen t.hash
  let p := s.freeBytes n
  let q := p.2.freeBytes 32
  let r := q.2.free (2 ^ 32)
  let dh := ffdhePow t.group 2 (ofBe q.1)
  (authHead 16 1 1 t.tid [(6, 1, n), (8, 1, t.hash), (9, 1, t.group), (10, 2, dh.length), (12, 4, r.1)] ++ p.1 ++ dh,
    r.2.setAuth a (.challenged t r.1 (ofBe q.1) p.1))

/-- The message returned to the host, and what becomes of the attempt: a challenge, success, or failure. -/
def State.authReturn (s : State) (a : Nat) : List Byte × State :=
  match s.authOf a with
  | .negotiated t => s.authChallenge a t
  | .replied t ans =>
    (authHead 16 1 3 t.tid [(6, 1, hashLen t.hash), (8, 1, b2n ans.isSome)] ++ ans.getD [],
      if ans.isSome then s.setAuth a (.confirming t.tid) else s.authDone a)
  | .failed tid r => (authHead 8 1 0xF0 tid [(6, 1, 1), (7, 1, r)], s.setAuth a .idle)
  | _ => (authHead 8 1 0xF0 0 [(6, 1, 1), (7, 1, 7)], s.authFail a 0 7)

/-- Authentication Send. -/
def State.bodyAuthSend (s : State) (x : Ctx) (c : Cmd) : State := (s.authMessage x.assoc c.data).complete x .ok

/-- Authentication Receive. -/
def State.bodyAuthReceive (s : State) (x : Ctx) (c : Cmd) : State :=
  let t := s.authReturn x.assoc
  t.2.complete x .ok 0 0 (fitBytes t.1 c.cdw11.toNat)

/-! ## Properties (R364) -/

/-- CAP: MQES of R335, the rest free. -/
def capOf : Nat := leAt (Config.unstated 7 0) 0 8 / 65536 * 65536 + 127

/-- Property Get. -/
def State.bodyPropertyGet (s : State) (x : Ctx) (c : Cmd) : State :=
  let y := (s.assoc x.assoc).getD {}
  match c.cdw11.toNat with
  | 0 => s.complete x .ok (capOf % 2 ^ 32) (capOf / 2 ^ 32)
  | 8 => s.complete x .ok 0x20000
  | 0x14 => s.complete x .ok y.cc.toNat
  | 0x1C => s.complete x .ok y.csts.toNat
  | 0x20 => s.complete x .ok 0
  | _ => s.complete x .field

/-- CSTS after CC is written: ready follows enable, a shutdown request is answered at once. -/
def cstsFor (cc csts : Word) : Word :=
  let r := setBits csts ⟨0, 0⟩ (b2n (cc.getLsbD 0))
  setBits r ⟨3, 2⟩ (if getBits cc ⟨15, 14⟩ = 0 then 0 else 2)

/-- Property Set: CC, and NSSR, which the owner alone may use for a device reset (R474). -/
def State.bodyPropertySet (s : State) (x : Ctx) (c : Cmd) : State :=
  match c.cdw11.toNat with
  | 0x14 => (s.modAssoc x.assoc (fun y => { y with cc := c.cdw12, csts := cstsFor c.cdw12 y.csts })).complete x .ok
  | 0x20 =>
    let s1 := s.complete x .ok
    if c.cdw12 = 0x4E564D65 ∧ s.isOwner x.assoc then let t := s1.bootFree; t.2.deviceReset t.1 else s1
  | _ => s.complete x .field

/-! ## PCIe functions (R341, R342, R350, R474) -/

/-- SQ_TAIL_DOORBELL: the entries it covers arrive together, in queue order (R350). -/
def execSqTailDoorbell (qid tail : Nat) (cids : List Nat) (s : State) : Res :=
  match s.assoc 1024 with
  | some y =>
    if qid ≠ 0 ∧ (lookupKey y.sqs qid).isNone then .next s
    else
      let s1 := s.modHost (fun h => { h with doorbells := insertKey h.doorbells qid tail })
      .next (cids.foldl (fun s c => s.arrive 1024 qid c 0 false) s1)
  | none => .next s

/-- Completions held for full queues are posted, oldest first. -/
def State.postHeld (s : State) : State :=
  s.host.heldCpl.foldl (fun s c => s.post c) (s.modHost (fun h => { h with heldCpl := [] }))

/-- CQ_HEAD_DOORBELL: the host has taken completions, so held ones can be posted (R341). -/
def execCqHeadDoorbell (qid head : Nat) (s : State) : Res :=
  .next ((s.modAssoc 1024 (fun y => { y with cqs := y.cqs.map (fun k => if k.id = qid then { k with head := head % k.size } else k) })).postHeld)

/-- CONTROLLER_ENABLE: association 1,024 comes into existence while pcie_en is 1 (R342). -/
def execControllerEnable (acqs : Nat) (s : State) : Res :=
  let ok := s.pln.loader || (s.powered 4 && s.flag Adr.HIF_CTRL Fld.HIF_CTRL_pcie_en && decide (4 ≤ s.fld Adr.PLN_STATUS Fld.PLN_STATUS_step))
  if !ok || s.host.perstLow || (s.assoc 1024).isSome then .next s
  else
    let x : Assoc := { auth := true, cqs := [{ id := 0, size := acqs + 1, vector := some 0 }], cc := 1, csts := 1, katoFrom := s.now }
    .next (s.modHost (fun h => { h with assocs := insertKey h.assocs 1024 x, pcieEnabled := true }))

/-- CONTROLLER_DISABLE (R474). -/
def execControllerDisable (s : State) : Res := .next s.resetFunction0

/-- PERST_ASSERT: both functions are reset (R341). -/
def execPerstAssert (s : State) : Res := .next (s.resetFunction0.modHost (fun h => { h with perstLow := true }))

/-- FUNCTION_LEVEL_RESET: function 0 ends its association; function 1 changes nothing else (R341). -/
def execFunctionLevelReset (f : Fin 2) (s : State) : Res := .next (if f = 0 then s.resetFunction0 else s)

/-- PERST_RISE: the endpoint is out of reset; in PS5 it wakes the device when that source is enabled (R341, R472). -/
def execPerstRise (boot : Boot) (s : State) : Res :=
  let s1 := s.resetFunction0.modHost (fun h => { h with perstLow := false })
  .next (if s.ps = 5 ∧ s.flag Adr.PLN_WAKECFG Fld.PLN_WAKECFG_pcie_en then s1.wakeEvent Fld.PLN_WAKE_pcie boot else s1)

/-! ## Ownership timers (R353, R355) -/

/-- LEASE_EXPIRY. -/
def execLeaseExpiry (s : State) : Res := .next (if s.ownState = 1 then s.endOwn else s)

/-- SUCCESSOR_WINDOW_LAPSE. -/
def execSuccessorWindowLapse (s : State) : Res := .next (if s.ownState = 2 then s.endOwn else s)

/-! ## The MI endpoint (R343) -/

/-- The MI endpoint answers: an SMBus transaction wakes the device in PS4 and PS5 when that source is enabled (R472). -/
def State.miAnswer (s : State) (status : Nat) (d : List Byte) (b : Boot) : State :=
  let s1 := { s with mi := { s.mi with status := status, response := d } }
  if (s.ps = 4 ∨ s.ps = 5) ∧ s.flag Adr.PLN_WAKECFG Fld.PLN_WAKECFG_smbus_en then s1.wakeEvent Fld.PLN_WAKE_smbus b else s1

/-- READ_NVME_MI_DATA_STRUCTURE: the structure of NVMe-MI 1.2, whose bytes the spec does not state. -/
def execReadNvmeMiDataStructure (dtyp : Nat) (which : Nat) (boot : Boot) (s : State) : Res :=
  .next (s.miAnswer 0 (Config.unstated (0x100 + dtyp) which) boot)

/-- SUBSYSTEM_HEALTH_STATUS_POLL: byte 0 bit 5 is 1 outside the fatal state, byte 2 the composite warning, byte 3 the composite temperature in
degrees; the rest is not stated. The poll withdraws the alert. -/
def execSubsystemHealthStatusPoll (clear : Bool) (boot : Boot) (s : State) : Res :=
  let u := fitBytes (Config.unstated 0x110 (b2n clear)) 8
  let d := layFields u [(0, 1, leAt u 0 1 / 64 * 64 + leAt u 0 1 % 32 + 32 * b2n (s.faultState != 3)), (2, 1, 255 - 2 * b2n s.tempWarning), (3, 1, if s.composite = 0 then 0x81 else min (s.composite - 273) 126)]
  .next ({ s with mi := { s.mi with changed := false, alert := false } }.miAnswer 0 d boot)

/-- CONTROLLER_HEALTH_STATUS_POLL: a controller's fatal status and composite temperature in kelvin, the rest not stated. -/
def execControllerHealthStatusPoll (ctrl : Nat) (boot : Boot) (s : State) : Res :=
  let cfs := decide (s.faultState = 3)
  let d := layFields (fitBytes (Config.unstated 0x111 ctrl) 16) [(0, 2, ctrl), (2, 2, 1 + 2 * b2n cfs), (4, 2, s.composite)]
  .next (s.miAnswer 0 d boot)

/-- CONFIGURATION_GET: 1 the SMBus frequency (1 100 kHz, 2 400 kHz), 3 the MCTP transmission unit size; any other identifier is an invalid
parameter. -/
def execConfigurationGet (ident : Nat) (boot : Boot) (s : State) : Res :=
  .next (if ident = 1 then s.miAnswer 0 (leBytes 4 s.mi.freq) boot
    else if ident = 3 then s.miAnswer 0 (leBytes 4 s.mi.unit) boot
    else s.miAnswer 4 [] boot)

/-- CONFIGURATION_SET. -/
def execConfigurationSet (ident : Nat) (value : Nat) (boot : Boot) (s : State) : Res :=
  .next (if ident = 1 ∧ (value = 1 ∨ value = 2) then ({ s with mi := { s.mi with freq := value } }).miAnswer 0 [] boot
    else if ident = 3 ∧ 64 ≤ value ∧ value ≤ 250 then ({ s with mi := { s.mi with unit := value } }).miAnswer 0 [] boot
    else s.miAnswer 4 [] boot)

/-- VPD_READ: bytes of the vital product data, which the spec does not state; a run past 256 bytes is an invalid parameter. -/
def execVpdRead (off len : Nat) (boot : Boot) (s : State) : Res :=
  .next (if 256 < off + len then s.miAnswer 4 [] boot else s.miAnswer 0 (slice (fitBytes (Config.unstated 0x112 0) 256) off len) boot)

/-- MI_TUNNELLED_ADMIN: Identify, Get Log Page and Get Features, performed for no association; any other is an invalid opcode. -/
def execMiTunnelledAdmin (opcode : Nat) (c : Cmd) (boot : Boot) (s : State) : Res :=
  let answer (r : Except Status (List Byte)) : State :=
    match r with | .ok d => s.miAnswer 0 d boot | .error t => s.miAnswer (256 * t.sct + t.sc) [] boot
  .next (match opcode with
    | 0x02 => answer (s.logData c)
    | 0x06 => answer (s.identifyData 1024 c)
    | 0x0A => answer ((s.featureData 1024 c).map (fun p => leBytes 4 p.1 ++ p.2))
    | _ => s.miAnswer 3 [] boot)

end Sys2Proof.Machine
end

