-- ==== Sys2Proof/Machine/Commands.lean ====
section
/-! DEFINITION. How an admitted NVMe command is checked and performed (R339, R358, R363, R364, R403, R442, R470, R477, R491), how commands
that wait go on, and the command rows. -/

namespace Sys2Proof.Machine

open Sys2Proof

/-! ## What kind of command it is (R358, R364, R403) -/

/-- An I/O command. -/
def isIo (i : Instr) : Bool := (nsidOf i).isSome

/-- A command the device accepts on the PCIe path only. -/
def isPcieOnly (i : Instr) : Bool :=
  match i with
  | .deleteIoSubmissionQueue _ => true
  | .createIoSubmissionQueue _ => true
  | .deleteIoCompletionQueue _ => true
  | .createIoCompletionQueue _ => true
  | _ => false

/-- A Fabrics command, accepted over NVMe/TCP only. -/
def isFabrics (i : Instr) : Bool :=
  match i with
  | .propertyGet _ => true
  | .propertySet _ => true
  | .authenticationSend _ => true
  | .authenticationReceive _ => true
  | _ => false

/-- Served in every power state and during start-up: the list of R403. A Register Write is on it for registers of powered regions. -/
def State.onList (s : State) (i : Instr) : Bool :=
  match i with
  | .identify _ => true
  | .getLogPage _ => true
  | .getFeatures _ => true
  | .keepAlive _ => true
  | .asynchronousEventRequest _ => true
  | .claimOwnership _ => true
  | .yieldOwnership _ => true
  | .constellationStatus _ => true
  | .registerRead _ => true
  | .registerWrite c => (pairsOf c).all (fun p => match regionOf p.addr with | some r => s.powered r | none => true)
  | _ => false

/-- Owner-only commands (R352, R358). -/
def State.ownerOnly (s : State) (i : Instr) : Bool :=
  match i with
  | .write _ => true
  | .writeZeroes _ => true
  | .datasetManagement _ => true
  | .flush _ => true
  | .transform c => !xfDir c
  | .mouldWrite _ => true
  | .mouldCommit _ => true
  | .loadContentKey _ => true
  | .loadCastProfile _ => true
  | .loadRecipe _ => true
  | .namespaceManagement _ => true
  | .namespaceAttachment _ => true
  | .reconfigureFunction _ => true
  | .registerWrite _ => true
  | .yieldOwnership _ => true
  | .clearPatina _ => s.nor.patLocked
  | .firmwareImageDownload _ => true
  | .firmwareCommit _ => true
  | .setFeatures c =>
    let w := c.cdw11.toNat
    match c.cdw10.toNat % 256 with
    | 0x07 => false
    | 0x0B => false
    | 0x0F => false
    | 0xC1 => w % 4 == 0 || classAssoc c.assoc w != c.assoc
    | _ => true
  | _ => false

/-- The namespace a command names is none it may use, checked before ownership (R363). A Cast is checked under R270 and a Timed Read after
R217. -/
def State.badNs (s : State) (x : Ctx) (i : Instr) : Bool :=
  match i with
  | .cast _ => false
  | .timedRead _ => false
  | .flush c => c.nsid != 0xFFFFFFFF && (s.spaceFor x.order c.nsid.toNat).isNone
  | .mouldWrite c => (s.mouldSpace x c.nsid.toNat).isNone
  | .mouldCommit c => (s.mouldSpace x c.nsid.toNat).isNone
  | .namespaceAttachment c => (lookupKey s.spaces c.nsid.toNat).isNone
  | .namespaceManagement c =>
    c.cdw10.toNat % 16 == 1 && c.nsid != 0xFFFFFFFF && (lookupKey s.spaces c.nsid.toNat).isNone
  | _ => match nsidOf i with | some n => (s.lbaSpace x n).isNone | none => false

/-- The function an admin command is addressed to (R38). -/
def addressed (i : Instr) : Option Nat :=
  match i with
  | .loadCastProfile _ => some 10
  | .loadRecipe _ => some 11
  | .setFeatures c => if c.cdw10.toNat % 256 = 0xC7 then some 9 else none
  | _ => none

/-! ## What a command does once it may be performed -/

/-- The command's own effect. launched is set for a timed command whose launch instant has come. -/
def State.body (s : State) (x : Ctx) (i : Instr) (launched : Bool) : State :=
  match i with
  | .deleteIoSubmissionQueue c => s.bodyDeleteSq x c
  | .createIoSubmissionQueue c => s.bodyCreateSq x c
  | .getLogPage c => s.completeWith x (s.logData c)
  | .deleteIoCompletionQueue c => s.bodyDeleteCq x c
  | .createIoCompletionQueue c => s.bodyCreateCq x c
  | .identify c => s.completeWith x (s.identifyData x.assoc c)
  | .abort _ => s.complete x .ok 1
  | .setFeatures c => s.bodySetFeatures x c
  | .getFeatures c => s.bodyGetFeatures x c
  | .asynchronousEventRequest _ => s.bodyAer x
  | .namespaceManagement c => s.bodyNsManagement x c
  | .firmwareCommit c => s.bodyFwCommit x c
  | .firmwareImageDownload c => s.bodyFwDownload x c
  | .namespaceAttachment c => s.bodyNsAttachment x c
  | .keepAlive _ => s.complete x .ok
  | .propertyGet c => s.bodyPropertyGet x c
  | .propertySet c => s.bodyPropertySet x c
  | .authenticationSend c => s.bodyAuthSend x c
  | .authenticationReceive c => s.bodyAuthReceive x c
  | .claimOwnership c => s.bodyClaim x c
  | .yieldOwnership c => s.bodyYield x c
  | .loadContentKey c => s.bodyLoadContentKey x c
  | .loadCastProfile c => s.bodyLoadCastProfile x c
  | .loadRecipe c => s.bodyLoadRecipe x c
  | .readPatina c => s.bodyReadPatina x c
  | .clearPatina c => s.bodyClearPatina x c
  | .registerWrite c => s.bodyRegisterWrite x c
  | .registerRead c => s.bodyRegisterRead x c
  | .reconfigureFunction c => s.bodyReconfigure x c
  | .constellationStatus c => s.bodyConstellation x c
  | .flush c => s.bodyFlush x c
  | .write c => s.bodyWrite x i c
  | .read c => s.bodyRead x i c
  | .writeZeroes c => s.bodyWriteZeroes x i c
  | .datasetManagement c => s.bodyDatasetManagement x i c
  | .mouldWrite c => s.bodyMouldWrite x i c
  | .mouldCommit c => s.bodyMouldCommit x i c
  | .cast c => if launched then s.bodyCastLaunched x c else s.bodyCast x c
  | .timedRead c => if launched then s.bodyTimedLaunched x i c else s.bodyTimedRead x i c
  | .transform c => s.bodyTransform x i c
  | _ => s

/-! ## The checks before it (R363, R403, R442, R470, R477, R491) -/

/-- Fault Summary as the hardware responder builds it from the FLT registers; every other field reads 0 (R442). -/
def State.responderPage (s : State) : List Byte :=
  layFields (zeros 128)
    ([(0, 2, 1), (2, 1, b2n s.flt.errFault), (3, 1, s.faultState), (4, 2, s.firstEvent Adr.FLT_CHIP),
      (6, 1, s.fld Adr.FLT_CHIP Fld.FLT_CHIP_overflow), (32, 4, s.counter 7)]
      ++ (List.range 7).map (fun r => (48 + 2 * r, 2, s.firstEvent (Adr.FLT_REG r))))

/-- A command in the fatal state (R442). -/
def State.inFatal (s : State) (x : Ctx) (i : Instr) : State :=
  if 4 ≤ s.healthyCores then
    match i with
    | .readPatina _ => s.body x i false
    | _ => if s.onList i then s.body x i false else s.complete x .internal
  else
    match i with
    | .keepAlive _ => s.complete x .ok
    | .getLogPage c =>
      let numd := c.cdw10.toNat / 65536 + 65536 * (c.cdw11.toNat % 65536)
      let off := c.cdw12.toNat + 2 ^ 32 * c.cdw13.toNat
      if c.cdw10.toNat % 256 ≠ 0xC4 then s.complete x .internal
      else if 128 ≤ off ∨ off % 4 ≠ 0 then s.complete x .field
      else s.complete x .ok 0 0 (slice s.responderPage off (4 * (numd + 1)))
    | _ => s.complete x .internal

/-- Commands the recovery loader accepts (R491). -/
def loaderAccepts (i : Instr) : Bool :=
  match i with
  | .identify _ => true
  | .firmwareImageDownload _ => true
  | .firmwareCommit c => bitsOf c.cdw10.toNat 5 3 == 1
  | _ => false

/-- The opcode is not listed for the queue's type, or not accepted on the path. -/
def badOpcode (x : Ctx) (i : Instr) : Bool :=
  (isIo i == (x.qid == 0)) || (isPcieOnly i && x.assoc != 1024) || (isFabrics i && x.assoc == 1024)

/-- A Set Features Power Management, which waits for no exit. -/
def isPower (i : Instr) : Bool :=
  match i with
  | .setFeatures c => c.cdw10.toNat % 256 == 0x02
  | _ => false

/-- A command waits for an exit to PS0 or for the Control region; a Read Patina takes the entries as they stand at its fetch with it (R383, R403, R457). -/
def State.awaitExit (s : State) (x : Ctx) (i : Instr) : State :=
  (s.waitFor x .powerExit).modCtx x.assoc x.qid x.cid (fun y =>
    match i with
    | .readPatina _ => if x.wait = .fetched then { y with pats := s.patSorted } else y
    | _ => y)

/-- A command is performed: its checks in order, then its effect. In the fatal state and the recovery loader other rules hold; while the
Control region restarts it waits; one that needs PS0 starts an exit and waits for it. -/
def State.perform (s : State) (x : Ctx) (i : Instr) : State :=
  let auth := match i with | .authenticationSend _ => true | .authenticationReceive _ => true | _ => false
  if x.bad then s.complete x .transport
  else if s.faultState = 3 then s.inFatal x i
  else if badOpcode x i then s.complete x .opcode
  else if s.pln.loader then (if loaderAccepts i then s.body x i false else s.complete x .opcode)
  else if s.flag Adr.HIF_CTRL Fld.HIF_CTRL_auth_req && !s.authed x.assoc && !auth then s.complete x .authRequired
  else if !s.flag Adr.PLN_STATUS Fld.PLN_STATUS_ready && !s.onList i then s.complete x .notReady
  else if s.restarting 6 then s.awaitExit x i
  else if (decide (2 ≤ s.ps) || s.psMoving) && !s.onList i && !isPower i then (s.awaitExit x i).wakeCmd
  else if s.badNs x i then s.complete x .ns
  else if s.ownerOnly i && !x.permitted then
    (match i with | .registerWrite _ => s.event 0x640 | _ => s).complete x .notOwner
  else
    match addressed i with
    | some k => if s.fstate k = 1 ∨ s.fstate k = 2 then s.complete x .stopped else s.body x i false
    | none => s.body x i false

/-! ## Commands that wait go on -/

/-- What a command waits for has come about, so it may be tried again. -/
def State.mayGoOn (s : State) (x : Ctx) : Bool :=
  match x.wait with
  | .powerExit => !s.psMoving && !s.restarting 6
  | .powerState => !x.late && !s.psMoving
  | .region r _ _ => !s.restarting r && !s.regBefore x
  | .func k => s.funcRunning k
  | .loadTurn k => s.fstate k != 3 && !s.host.ctxs.any (fun y => y.wait == .load k)
  | .recovery => true
  | .mediaRead => true
  | .actuator a => if h : a < 4 then s.actServes ⟨a, h⟩ else false
  | .retract => s.flag Adr.SPN_RETRACT Fld.SPN_RETRACT_armed
  | .approach => s.phase != 2
  | .mouldTurn => match x.instr with | some i => !s.mouldBusy x i | none => false
  | .activation => s.activation.isNone && !s.commitBefore x && !s.psMoving
  | _ => false

/-- A timed command that waits has been launched, unless it waits for an exit. -/
def Ctx.isLaunched (x : Ctx) : Bool :=
  match x.wait with
  | .fetched => false
  | .powerExit => false
  | _ => true

/-- Go on with a command from where it waits. -/
def State.goOn (s : State) (x : Ctx) : State :=
  match x.instr, x.wait with
  | some i, .powerExit => s.perform x i
  | some (.registerWrite _), .region _ l _ => s.writePairs x l
  | some (.registerRead _), .region _ l g => s.readWords x l g
  | some (.firmwareCommit c), .activation =>
    if x.late then (match s.fsSlot c with | some k => s.tryActivate x k | none => s) else s.bodyFwCommit x c
  | some i, _ => s.body x i x.isLaunched
  | none, _ => s

/-- A command that waits for the same thing again has waited since it first did. -/
def State.keepSince (s : State) (x : Ctx) : State :=
  s.modHost (fun h => { h with ctxs := h.ctxs.map (fun (y : Ctx) =>
    if y.order = x.order ∧ y.wait = x.wait then { y with since := x.since } else y) })

/-- Every command that may go on does, in the order of their fetch. -/
def State.settle (s : State) : State :=
  s.host.ctxs.foldl (fun s x0 =>
    match s.ctxOf x0 with
    | some x => if s.mayGoOn x then (s.goOn x).keepSince x else s
    | none => s) s

/-- One clock of the part with no command waiting: time goes on, and commands that may go on do. -/
def State.idleClock (s : State) : State := s.tick.settle

/-! ## The command rows -/

/-- Data of more than 8,192 bytes is asked for by R2T, one at most being outstanding for a command (R337). -/
def State.askData (s : State) (x : Ctx) (i : Instr) (c : Cmd) : State :=
  let out : Bool := match i with | .write _ => true | .mouldWrite _ => true | .transform _ => !xfDir c | _ => false
  if out && decide (8192 < c.len) then
    match s.host.conns.find? (fun p => p.2.assoc == some x.assoc && p.2.qid == x.qid) with
    | some p =>
      if p.2.r2t.contains x.cid then s
      else (s.modConn p.1 (fun k => { k with r2t := k.r2t ++ [x.cid] })).sendConn p.1 0 (.r2t p.1 x.cid)
    | none => s
  else s

/-- A command is fetched with its content and performed. -/
def State.run (s : State) (i : Instr) (c : Cmd) : State :=
  let t := s.takeContext c.assoc c.qid c.cid
  match t.2 with
  | none => t.1
  | some x =>
    let y := { x with instr := some i }
    let s1 := (t.1.modCtx x.assoc x.qid x.cid (fun _ => y)).askData y i c
    (s1.perform y i).settle

/-- DELETE_IO_SUBMISSION_QUEUE. -/
def execDeleteIoSubmissionQueue (c : Cmd) (s : State) : Res := .next (s.run (.deleteIoSubmissionQueue c) c)
/-- CREATE_IO_SUBMISSION_QUEUE. -/
def execCreateIoSubmissionQueue (c : Cmd) (s : State) : Res := .next (s.run (.createIoSubmissionQueue c) c)
/-- GET_LOG_PAGE (R393). -/
def execGetLogPage (c : Cmd) (s : State) : Res := .next (s.run (.getLogPage c) c)
/-- DELETE_IO_COMPLETION_QUEUE. -/
def execDeleteIoCompletionQueue (c : Cmd) (s : State) : Res := .next (s.run (.deleteIoCompletionQueue c) c)
/-- CREATE_IO_COMPLETION_QUEUE. -/
def execCreateIoCompletionQueue (c : Cmd) (s : State) : Res := .next (s.run (.createIoCompletionQueue c) c)
/-- IDENTIFY (R367, R368). -/
def execIdentify (c : Cmd) (s : State) : Res := .next (s.run (.identify c) c)
/-- ABORT: never aborts (R364). -/
def execAbort (c : Cmd) (s : State) : Res := .next (s.run (.abort c) c)
/-- SET_FEATURES (R392). -/
def execSetFeatures (c : Cmd) (s : State) : Res := .next (s.run (.setFeatures c) c)
/-- GET_FEATURES (R392). -/
def execGetFeatures (c : Cmd) (s : State) : Res := .next (s.run (.getFeatures c) c)
/-- ASYNCHRONOUS_EVENT_REQUEST. -/
def execAsynchronousEventRequest (c : Cmd) (s : State) : Res := .next (s.run (.asynchronousEventRequest c) c)
/-- NAMESPACE_MANAGEMENT (R368 to R371). -/
def execNamespaceManagement (c : Cmd) (s : State) : Res := .next (s.run (.namespaceManagement c) c)
/-- FIRMWARE_COMMIT (R487). -/
def execFirmwareCommit (c : Cmd) (s : State) : Res := .next (s.run (.firmwareCommit c) c)
/-- FIRMWARE_IMAGE_DOWNLOAD (R486). -/
def execFirmwareImageDownload (c : Cmd) (s : State) : Res := .next (s.run (.firmwareImageDownload c) c)
/-- NAMESPACE_ATTACHMENT (R372). -/
def execNamespaceAttachment (c : Cmd) (s : State) : Res := .next (s.run (.namespaceAttachment c) c)
/-- KEEP_ALIVE. -/
def execKeepAlive (c : Cmd) (s : State) : Res := .next (s.run (.keepAlive c) c)
/-- PROPERTY_GET. -/
def execPropertyGet (c : Cmd) (s : State) : Res := .next (s.run (.propertyGet c) c)
/-- PROPERTY_SET. -/
def execPropertySet (c : Cmd) (s : State) : Res := .next (s.run (.propertySet c) c)
/-- AUTHENTICATION_SEND (R339). -/
def execAuthenticationSend (c : Cmd) (s : State) : Res := .next (s.run (.authenticationSend c) c)
/-- AUTHENTICATION_RECEIVE (R339). -/
def execAuthenticationReceive (c : Cmd) (s : State) : Res := .next (s.run (.authenticationReceive c) c)
/-- CLAIM_OWNERSHIP (R354). -/
def execClaimOwnership (c : Cmd) (s : State) : Res := .next (s.run (.claimOwnership c) c)
/-- YIELD_OWNERSHIP (R356). -/
def execYieldOwnership (c : Cmd) (s : State) : Res := .next (s.run (.yieldOwnership c) c)
/-- LOAD_CONTENT_KEY (R381). -/
def execLoadContentKey (c : Cmd) (s : State) : Res := .next (s.run (.loadContentKey c) c)
/-- LOAD_CAST_PROFILE (R382). -/
def execLoadCastProfile (c : Cmd) (s : State) : Res := .next (s.run (.loadCastProfile c) c)
/-- LOAD_RECIPE (R382). -/
def execLoadRecipe (c : Cmd) (s : State) : Res := .next (s.run (.loadRecipe c) c)
/-- READ_PATINA (R383). -/
def execReadPatina (c : Cmd) (s : State) : Res := .next (s.run (.readPatina c) c)
/-- CLEAR_PATINA (R383, R457). -/
def execClearPatina (c : Cmd) (s : State) : Res := .next (s.run (.clearPatina c) c)
/-- REGISTER_WRITE (R384). -/
def execRegisterWrite (c : Cmd) (s : State) : Res := .next (s.run (.registerWrite c) c)
/-- REGISTER_READ (R384). -/
def execRegisterRead (c : Cmd) (s : State) : Res := .next (s.run (.registerRead c) c)
/-- RECONFIGURE_FUNCTION (R384). -/
def execReconfigureFunction (c : Cmd) (s : State) : Res := .next (s.run (.reconfigureFunction c) c)
/-- CONSTELLATION_STATUS (R385). -/
def execConstellationStatus (c : Cmd) (s : State) : Res := .next (s.run (.constellationStatus c) c)
/-- FLUSH (R378). -/
def execFlush (c : Cmd) (s : State) : Res := .next (s.run (.flush c) c)
/-- WRITE (R374, R375). -/
def execWrite (c : Cmd) (s : State) : Res := .next (s.run (.write c) c)
/-- READ (R374). -/
def execRead (c : Cmd) (s : State) : Res := .next (s.run (.read c) c)
/-- WRITE_ZEROES (R376). -/
def execWriteZeroes (c : Cmd) (s : State) : Res := .next (s.run (.writeZeroes c) c)
/-- DATASET_MANAGEMENT (R377). -/
def execDatasetManagement (c : Cmd) (s : State) : Res := .next (s.run (.datasetManagement c) c)
/-- TIMED_READ (R390). -/
def execTimedRead (c : Cmd) (s : State) : Res := .next (s.run (.timedRead c) c)
/-- TRANSFORM (R391). -/
def execTransform (c : Cmd) (s : State) : Res := .next (s.run (.transform c) c)
/-- MOULD_WRITE (R387). -/
def execMouldWrite (c : Cmd) (s : State) : Res := .next (s.run (.mouldWrite c) c)
/-- MOULD_COMMIT (R388). -/
def execMouldCommit (c : Cmd) (s : State) : Res := .next (s.run (.mouldCommit c) c)
/-- CAST (R389). -/
def execCast (c : Cmd) (s : State) : Res := .next (s.run (.cast c) c)
/-- MOULD_WITHDRAW_DONE (R260). -/
def execMouldWithdrawDone (assoc qid cid : Nat) (s : State) : Res := .next (s.withdrawDone assoc qid cid).settle

end Sys2Proof.Machine
end

