-- ==== Sys2Proof/Machine/Decompress.lean ====
section
/-! DEFINITION. The decompressor (R315 to R321): DEFLATE (RFC 1951), zlib (RFC 1950) and Zstandard (RFC 8878), with the errors of
R319 in input order. PRESUMED: the formats, taken from those documents. -/

namespace Sys2Proof.Machine

open Sys2Proof

/-- How a decompression job ends: its output, or a status of R319 and the input byte offset the error was found at. -/
inductive Inflated where
  | done (out : List Byte)
  | failed (status offset : Nat)
deriving DecidableEq, Repr

/-- A stage of decoding: the next bit position and the output so far, or an error. -/
inductive Decoded where
  | ok (pos : Nat) (out : Array Byte)
  | err (status offset : Nat)
deriving DecidableEq, Repr

/-- n bits from bit position p, least significant first. -/
def bitsAt (a : Array Byte) (p n : Nat) : Nat :=
  match n with
  | 0 => 0
  | k + 1 => (a.getD (p / 8) 0).toNat / 2 ^ (p % 8) % 2 + 2 * bitsAt a (p + 1) k

/-- Whether n bits from bit position p lie in the input. -/
def hasBits (a : Array Byte) (p n : Nat) : Bool := decide (p + n ≤ 8 * a.size)

/-! ## DEFLATE -/

/-- A canonical Huffman code: how many codes each length has from 1 on, and the symbols in code order. -/
structure Huff where
  counts : List Nat
  symbols : Array Nat
deriving DecidableEq, Repr

/-- The codes left over after some lengths; none when they are over-subscribed. -/
def codesLeft (counts : List Nat) (left : Nat) : Option Nat :=
  match counts with
  | [] => some left
  | c :: r => if 2 * left < c then none else codesLeft r (2 * left - c)

/-- The canonical code of a list of code lengths, up to 15 bits; none when over-subscribed, or incomplete but for the single
one-bit code or the empty code that a distance code may be. -/
def huffOf (lens : List Nat) (dist : Bool) : Option Huff :=
  let counts := (List.range 15).map (fun i => (lens.filter (· == i + 1)).length)
  let syms := (List.range 15).flatMap (fun i => (lens.zipIdx.filter (fun p => p.1 == i + 1)).map (fun p => p.2))
  let h : Huff := ⟨counts, syms.toArray⟩
  match codesLeft counts 1 with
  | none => none
  | some 0 => some h
  | some _ => if dist && (syms.isEmpty || (syms.length == 1 && counts.headD 0 == 1)) then some h else none

/-- The symbol at bit position p: lengths still to try, the code, first code and index so far. The result is the symbol and the
position after it; none within it when the code names no symbol. -/
def huffSym (a : Array Byte) (h : Huff) (counts : List Nat) (p code first index : Nat) : Option (Option (Nat × Nat)) :=
  match counts with
  | [] => some none
  | c :: r =>
    if !hasBits a p 1 then none
    else
      let code := code + bitsAt a p 1
      if code < first + c then some (some (h.symbols.getD (index + (code - first)) 0, p + 1))
      else huffSym a h r (p + 1) (2 * code) (2 * (first + c)) (index + c)

/-- The base and extra bits of length code 257 + i. -/
def lengthCode (i : Nat) : Nat × Nat :=
  if i < 8 then (3 + i, 0)
  else if i = 28 then (258, 0)
  else let e := i / 4 - 1; (3 + (4 + i % 4) * 2 ^ e, e)

/-- The base and extra bits of distance code i. -/
def distCode (i : Nat) : Nat × Nat := if i < 2 then (1 + i, 0) else let e := i / 2 - 1; (1 + (2 + i % 2) * 2 ^ e, e)

/-- Copy n bytes of output from a distance back. -/
def copyMatch (out : Array Byte) (dist n : Nat) : Array Byte :=
  match n with
  | 0 => out
  | k + 1 => copyMatch (out.push (out.getD (out.size - dist) 0)) dist k

/-- The symbols of one block until its end, with an output space. -/
def inflateBlock (a : Array Byte) (lit dist : Huff) (space fuel p : Nat) (out : Array Byte) : Decoded :=
  match fuel with
  | 0 => .err 0x95 a.size
  | k + 1 =>
    match huffSym a lit lit.counts p 0 0 0 with
    | none => .err 0x95 a.size
    | some none => .err 0x8C (p / 8)
    | some (some (s, q)) =>
      if s < 256 then
        if space ≤ out.size then .err 0x8F (p / 8)
        else inflateBlock a lit dist space k q (out.push (BitVec.ofNat 8 s))
      else if s = 256 then .ok q out
      else if 285 < s then .err 0x8C (p / 8)
      else
        let l := lengthCode (s - 257)
        if !hasBits a q l.2 then .err 0x95 a.size
        else
          let n := l.1 + bitsAt a q l.2
          match huffSym a dist dist.counts (q + l.2) 0 0 0 with
          | none => .err 0x95 a.size
          | some none => .err 0x8C (p / 8)
          | some (some (d, r)) =>
            if 29 < d then .err 0x8C (p / 8)
            else
              let e := distCode d
              if !hasBits a r e.2 then .err 0x95 a.size
              else
                let far := e.1 + bitsAt a r e.2
                if out.size < far then .err 0x8D (p / 8)
                else if space < out.size + n then .err 0x8F (p / 8)
                else inflateBlock a lit dist space k (r + e.2) (copyMatch out far n)

/-- Read the code lengths of a dynamic block: total to read, those read so far newest first. -/
def readLengths (a : Array Byte) (h : Huff) (total fuel p : Nat) (acc : List Nat) : Option (Option (List Nat × Nat)) :=
  match fuel with
  | 0 => some (some (acc.reverse, p))
  | k + 1 =>
    if total ≤ acc.length then (if total = acc.length then some (some (acc.reverse, p)) else some none)
    else
      match huffSym a h h.counts p 0 0 0 with
      | none => none
      | some none => some none
      | some (some (s, q)) =>
        if s < 16 then readLengths a h total k q (s :: acc)
        else
          let nb := if s = 16 then 2 else if s = 17 then 3 else 7
          if !hasBits a q nb then none
          else if s = 16 ∧ acc.isEmpty then some none
          else
            let n := (if s = 18 then 11 else 3) + bitsAt a q nb
            let v := if s = 16 then acc.headD 0 else 0
            readLengths a h total k (q + nb) (List.replicate n v ++ acc)

/-- The order of the code length codes. -/
def codeOrder : List Nat := [16, 17, 18, 0, 8, 7, 9, 6, 10, 5, 11, 4, 12, 3, 13, 2, 14, 1, 15]

/-- The codes of a fixed block. -/
def fixedLit : List Nat := List.replicate 144 8 ++ List.replicate 112 9 ++ List.replicate 24 7 ++ List.replicate 8 8

/-- The codes of a dynamic block at a position: none for an input that ends, none within it for an illegal one. -/
def dynamicCodes (a : Array Byte) (p : Nat) : Option (Option (Huff × Huff × Nat)) :=
  if !hasBits a p 14 then none
  else
    let nl := bitsAt a p 5 + 257
    let nd := bitsAt a (p + 5) 5 + 1
    let nc := bitsAt a (p + 10) 4 + 4
    if 286 < nl then some none
    else if !hasBits a (p + 14) (3 * nc) then none
    else
      let vals := (List.range nc).map (fun i => bitsAt a (p + 14 + 3 * i) 3)
      let lens := (List.range 19).map (fun s => match codeOrder.idxOf? s with | some i => vals.getD i 0 | none => 0)
      match huffOf lens false with
      | none => some none
      | some h =>
        match readLengths a h (nl + nd) (nl + nd + 1) (p + 14 + 3 * nc) [] with
        | none => none
        | some none => some none
        | some (some (ls, q)) =>
          match huffOf (ls.take nl) false, huffOf (ls.drop nl) true with
          | some x, some y => some (some (x, y, q))
          | _, _ => some none

/-- The blocks of a DEFLATE stream from a bit position. -/
def inflateFrom (a : Array Byte) (space fuel p : Nat) (out : Array Byte) : Decoded :=
  match fuel with
  | 0 => .err 0x95 a.size
  | k + 1 =>
    if !hasBits a p 3 then .err 0x95 a.size
    else
      let final := bitsAt a p 1 == 1
      let kind := bitsAt a (p + 1) 2
      let next (d : Decoded) : Decoded :=
        match d with
        | .ok q o => if final then .ok q o else inflateFrom a space k q o
        | .err c o => .err c o
      if kind = 0 then
        let q := (p + 3 + 7) / 8
        if !hasBits a (8 * q) 32 then .err 0x95 a.size
        else
          let len := bitsAt a (8 * q) 16
          if len + bitsAt a (8 * q + 16) 16 ≠ 65535 then .err 0x8C (p / 8)
          else if space < out.size + len then .err 0x8F (p / 8)
          else if a.size < q + 4 + len then .err 0x95 a.size
          else next (.ok (8 * (q + 4 + len)) (out ++ a.extract (q + 4) (q + 4 + len)))
      else if kind = 1 then
        match huffOf fixedLit false, huffOf (List.replicate 32 5) true with
        | some l, some d => next (inflateBlock a l d space (8 * a.size + 1) (p + 3) out)
        | _, _ => .err 0x8C (p / 8)
      else if kind = 2 then
        match dynamicCodes a (p + 3) with
        | none => .err 0x95 a.size
        | some none => .err 0x8C (p / 8)
        | some (some (l, d, q)) => next (inflateBlock a l d space (8 * a.size + 1) q out)
      else .err 0x8C (p / 8)

/-- A raw DEFLATE job (op 2). -/
def inflateRaw (l : List Byte) (space : Nat) : Inflated :=
  let a := l.toArray
  match inflateFrom a space (8 * a.size + 1) 0 #[] with
  | .err c o => .failed c o
  | .ok p out => if (p + 7) / 8 < a.size then .failed 0x8E ((p + 7) / 8) else .done out.toList

/-- A zlib job (op 3). -/
def inflateZlib (l : List Byte) (space : Nat) : Inflated :=
  let a := l.toArray
  if a.size < 2 then .failed 0x95 a.size
  else
    let cmf := (a.getD 0 0).toNat
    let flg := (a.getD 1 0).toNat
    if (cmf * 256 + flg) % 31 ≠ 0 ∨ cmf % 16 ≠ 8 ∨ 7 < cmf / 16 ∨ bitOf flg 5 then .failed 0x8C 0
    else
      match inflateFrom a space (8 * a.size + 1) 16 #[] with
      | .err c o => .failed c o
      | .ok p out =>
        let q := (p + 7) / 8
        if a.size < q + 4 then .failed 0x95 a.size
        else if ofBe (slice l q 4) ≠ adler32 out.toList then .failed 0x90 q
        else if q + 4 < a.size then .failed 0x8E (q + 4)
        else .done out.toList

/-! ## XXH64 (the Zstandard content checksum) -/

/-- The primes of XXH64. -/
def xxP1 : BitVec 64 := 0x9E3779B185EBCA87#64
/-- The second prime of XXH64. -/
def xxP2 : BitVec 64 := 0xC2B2AE3D27D4EB4F#64
/-- The third prime of XXH64. -/
def xxP3 : BitVec 64 := 0x165667B19E3779F9#64
/-- The fourth prime of XXH64. -/
def xxP4 : BitVec 64 := 0x85EBCA77C2B2AE63#64
/-- The fifth prime of XXH64. -/
def xxP5 : BitVec 64 := 0x27D4EB2F165667C5#64

/-- One lane round. -/
def xxRound (acc lane : BitVec 64) : BitVec 64 := ((acc + lane * xxP2).rotateLeft 31) * xxP1

/-- The tail of the hash: 8, 4 and 1 byte steps. -/
def xxTail (fuel : Nat) (l : List Byte) (h : BitVec 64) : BitVec 64 :=
  match fuel with
  | 0 => h
  | k + 1 =>
    if 8 ≤ l.length then
      xxTail k (l.drop 8) (((h ^^^ xxRound 0 (BitVec.ofNat 64 (leAt l 0 8))).rotateLeft 27) * xxP1 + xxP4)
    else if 4 ≤ l.length then
      xxTail k (l.drop 4) (((h ^^^ (BitVec.ofNat 64 (leAt l 0 4) * xxP1)).rotateLeft 23) * xxP2 + xxP3)
    else
      match l with
      | [] => h
      | b :: r => xxTail k r (((h ^^^ (b.setWidth 64 * xxP5)).rotateLeft 11) * xxP1)

/-- XXH64 with seed 0. -/
def xxh64 (l : List Byte) : BitVec 64 :=
  let n := l.length
  let stripes := groupsOf 32 (n / 32) (l.take (n / 32 * 32))
  let acc0 : List (BitVec 64) := [xxP1 + xxP2, xxP2, 0, 0 - xxP1]
  let acc := stripes.foldl (fun acc s => List.zipWith xxRound acc ((groupsOf 8 4 s).map (fun g => BitVec.ofNat 64 (ofLe g)))) acc0
  let h0 : BitVec 64 :=
    if n < 32 then xxP5
    else
      let g (i : Nat) : BitVec 64 := acc.getD i 0
      let s := (g 0).rotateLeft 1 + (g 1).rotateLeft 7 + (g 2).rotateLeft 12 + (g 3).rotateLeft 18
      acc.foldl (fun h v => (h ^^^ xxRound 0 v) * xxP1 + xxP4) s
  let h1 := xxTail (n + 1) (l.drop (n / 32 * 32)) (h0 + BitVec.ofNat 64 n)
  let h2 := (h1 ^^^ (h1 >>> 33)) * xxP2
  let h3 := (h2 ^^^ (h2 >>> 29)) * xxP3
  h3 ^^^ (h3 >>> 32)

/-! ## Zstandard -/

/-- One state of an FSE table: its symbol, the bits to read and the base of the next state. -/
structure FseCell where
  sym : Nat
  bits : Nat
  base : Nat
deriving DecidableEq, Repr

/-- An FSE table: its accuracy log and its cells. -/
structure Fse where
  log : Nat
  cells : Array FseCell
deriving DecidableEq, Repr

/-- The floor of the binary logarithm, below 64; 0 for 0. -/
def log2 (n : Nat) : Nat := (List.range 64).foldl (fun r k => if 2 ^ k ≤ n then k else r) 0

/-- Place n copies of a symbol in a table, stepping over the cells above high. -/
def fsePlace (t : Array Nat) (s n pos step size high fuel : Nat) : Array Nat × Nat :=
  match fuel with
  | 0 => (t, pos)
  | k + 1 =>
    if n = 0 then (t, pos)
    else if high < pos then fsePlace t s n ((pos + step) % size) step size high k
    else fsePlace (t.setIfInBounds pos s) s (n - 1) ((pos + step) % size) step size high k

/-- Skip the cells above high. -/
def fseSkip (pos step size high fuel : Nat) : Nat :=
  match fuel with
  | 0 => pos
  | k + 1 => if high < pos then fseSkip ((pos + step) % size) step size high k else pos

/-- The table of a normalised distribution, with -1 for a probability below one (RFC 8878 4.1.1). -/
def fseTable (log : Nat) (norm : List Int) : Fse :=
  let size := 2 ^ log
  let step := size / 2 + size / 8 + 3
  let low := (norm.zipIdx.filter (fun p => p.1 == -1)).map (fun p => p.2)
  let high := size - 1 - low.length
  let t0 := low.zipIdx.foldl (fun (t : Array Nat) p => t.setIfInBounds (size - 1 - p.2) p.1) (Array.replicate size 0)
  let placed := norm.zipIdx.foldl (fun (st : Array Nat × Nat) p =>
    if 0 < p.1 then
      let r := fsePlace st.1 p.2 p.1.toNat st.2 step size high (2 * size + 2)
      (r.1, fseSkip r.2 step size high size)
    else st) (t0, 0)
  let first := (norm.map (fun n => if n = -1 then 1 else n.toNat)).toArray
  let r := placed.1.toList.foldl (fun (st : Array FseCell × Array Nat) s =>
    let x := st.2.getD s 1
    let b := log - log2 x
    (st.1.push ⟨s, b, x * 2 ^ b - size⟩, st.2.setIfInBounds s (x + 1))) (#[], first)
  ⟨log, r.1⟩

/-- Read repeat flags after a zero probability: zeros to add and the position after. -/
def fseZeros (a : Array Byte) (p fuel : Nat) : Nat × Nat :=
  match fuel with
  | 0 => (0, p)
  | k + 1 =>
    let v := bitsAt a p 2
    if v = 3 then let r := fseZeros a (p + 2) k; (r.1 + 3, r.2) else (v, p + 2)

/-- Read the probabilities of a table description: remaining + 1, threshold, bits, those read so far newest first. -/
def fseProbs (a : Array Byte) (remaining threshold nb p fuel : Nat) (acc : List Int) : Option (List Int × Nat) :=
  match fuel with
  | 0 => none
  | k + 1 =>
    if remaining ≤ 1 then (if remaining = 1 then some (acc.reverse, p) else none)
    else
      let max := 2 * threshold - 1 - remaining
      let small := bitsAt a p (nb - 1)
      let v := bitsAt a p nb
      let c := if small < max then (small, nb - 1) else (if threshold ≤ v then v - max else v, nb)
      let n : Int := (c.1 : Int) - 1
      let rem := remaining - n.natAbs
      let t := if rem = 0 then 1 else min threshold (2 ^ log2 rem)
      let nb' := log2 t + 1
      if n = 0 then
        let z := fseZeros a (p + c.2) 128
        fseProbs a rem t nb' z.2 k (List.replicate z.1 0 ++ (n :: acc))
      else if remaining ≤ n.natAbs then none
      else fseProbs a rem t nb' (p + c.2) k (n :: acc)

/-- A table description at a byte offset: the table and the offset after it. -/
def fseRead (a : Array Byte) (off maxLog maxSym : Nat) : Option (Fse × Nat) :=
  let log := bitsAt a (8 * off) 4 + 5
  if maxLog < log then none
  else
    match fseProbs a (2 ^ log + 1) (2 ^ log) (log + 1) (8 * off + 4) 300 [] with
    | none => none
    | some (probs, p) =>
      if maxSym + 1 < probs.length ∨ 8 * a.size < p then none else some (fseTable log probs, (p + 7) / 8)

/-- The number of bits of a backward stream in the bytes from lo up to hi; none without its end mark. -/
def backBits (a : Array Byte) (lo hi : Nat) : Option Nat :=
  if hi ≤ lo then none
  else
    let b := (a.getD (hi - 1) 0).toNat
    if b = 0 then none else some (8 * (hi - 1 - lo) + log2 b)

/-- n bits of a backward stream that has left bits left: bits before its start read as 0. -/
def backRead (a : Array Byte) (lo : Nat) (left : Int) (n : Nat) : Nat :=
  if (n : Int) ≤ left then bitsAt a (8 * lo + (left - n).toNat) n
  else if left ≤ 0 then 0
  else bitsAt a (8 * lo) left.toNat * 2 ^ (n - left.toNat)

/-- A Huffman table of literals: its depth, and the symbol and length of each code of that depth. -/
structure LitTable where
  depth : Nat
  cells : Array (Nat × Nat)
deriving DecidableEq, Repr

/-- The table of a list of weights, the last of which is implied. -/
def litTable (weights : List Nat) : Option LitTable :=
  let sum := weights.foldl (fun n w => n + (if w = 0 then 0 else 2 ^ (w - 1))) 0
  if sum = 0 ∨ weights.any (fun w => decide (11 < w)) then none
  else
    let depth := log2 sum + 1
    let rest := 2 ^ depth - sum
    if 11 < depth ∨ 2 ^ log2 rest ≠ rest then none
    else
      let ws := weights ++ [log2 rest + 1]
      let cells := (List.range depth).flatMap (fun i =>
        let w := i + 1
        (ws.zipIdx.filter (fun p => p.1 == w)).flatMap (fun p => List.replicate (2 ^ (w - 1)) (p.2, depth + 1 - w)))
      some ⟨depth, cells.toArray⟩

/-- The weights of an FSE-coded table: two states in turn until the bits run out. -/
def weightStream (a : Array Byte) (lo : Nat) (t : Fse) (fuel : Nat) (left : Int) (s1 s2 : Nat) (acc : List Nat) : List Nat :=
  match fuel with
  | 0 => acc.reverse
  | k + 1 =>
    let c := t.cells.getD s1 ⟨0, 0, 0⟩
    if left < c.bits then ((t.cells.getD s2 ⟨0, 0, 0⟩).sym :: c.sym :: acc).reverse
    else weightStream a lo t k (left - c.bits) s2 (c.base + backRead a lo left c.bits) (c.sym :: acc)

/-- A Huffman tree description at a byte offset: its table and the offset after it. -/
def litRead (a : Array Byte) (off : Nat) : Option (LitTable × Nat) :=
  let hb := (a.getD off 0).toNat
  if 128 ≤ hb then
    let n := hb - 127
    let ws := (List.range n).map (fun i =>
      let b := (a.getD (off + 1 + i / 2) 0).toNat
      if i % 2 = 0 then b / 16 else b % 16)
    (litTable ws).map (fun t => (t, off + 1 + (n + 1) / 2))
  else
    match fseRead a (off + 1) 6 12 with
    | none => none
    | some (t, lo) =>
      let hi := off + 1 + hb
      match backBits a lo hi with
      | none => none
      | some n =>
        let left : Int := n - 2 * t.log
        if left < 0 then none
        else
          let ws := weightStream a lo t 255 left (backRead a lo n t.log) (backRead a lo (n - t.log) t.log) []
          if 255 < ws.length then none else (litTable ws).map (fun x => (x, hi))

/-- n literals of one Huffman stream; none when it does not end with its bits. -/
def litStream (a : Array Byte) (lo : Nat) (t : LitTable) (n : Nat) (left : Int) (acc : Array Byte) : Option (Array Byte) :=
  match n with
  | 0 => if left = 0 then some acc else none
  | k + 1 =>
    let c := t.cells.getD (backRead a lo left t.depth) (0, 0)
    if left < c.2 then none else litStream a lo t k (left - c.2) (acc.push (BitVec.ofNat 8 c.1))

/-- One Huffman stream of n literals in bytes lo to hi. -/
def litBytes (a : Array Byte) (lo hi : Nat) (t : LitTable) (n : Nat) (acc : Array Byte) : Option (Array Byte) :=
  match backBits a lo hi with
  | none => none
  | some b => litStream a lo t n b acc

/-- What blocks of a frame leave to the next: the literals table, the three sequence tables and the repeat offsets. -/
structure ZState where
  lit : Option LitTable := none
  ll : Option Fse := none
  of : Option Fse := none
  ml : Option Fse := none
  rep : Nat × Nat × Nat := (1, 4, 8)
deriving DecidableEq, Repr

/-- The literals section of a compressed block in bytes off to hi: the literals, the offset after it, and the table in force. -/
def literals (a : Array Byte) (off hi : Nat) (st : ZState) : Option (Array Byte × Nat × ZState) :=
  let b0 := (a.getD off 0).toNat
  let kind := b0 % 4
  let sf := b0 / 4 % 4
  if kind < 2 then
    let h := if sf % 2 = 0 then 1 else if sf = 1 then 2 else 3
    let n := if h = 1 then b0 / 8 else bitsAt a (8 * off + 4) (if h = 2 then 12 else 20)
    if 131072 < n then none
    else if kind = 0 then
      if hi < off + h + n then none else some (a.extract (off + h) (off + h + n), off + h + n, st)
    else if hi < off + h + 1 then none
    else some (Array.replicate n (a.getD (off + h) 0), off + h + 1, st)
  else
    let h := if sf < 2 then 3 else if sf = 2 then 4 else 5
    let w := if sf < 2 then 10 else if sf = 2 then 14 else 18
    let n := bitsAt a (8 * off + 4) w
    let c := bitsAt a (8 * off + 4 + w) w
    let end_ := off + h + c
    if hi < end_ ∨ 131072 < n then none
    else
      let table := if kind = 2 then litRead a (off + h) else st.lit.map (fun t => (t, off + h))
      match table with
      | none => none
      | some (t, p) =>
        let st1 := { st with lit := some t }
        if sf = 0 then
          if end_ < p then none else (litBytes a p end_ t n #[]).map (fun l => (l, end_, st1))
        else if end_ < p + 6 then none
        else
          let s1 := bitsAt a (8 * p) 16
          let s2 := bitsAt a (8 * p + 16) 16
          let s3 := bitsAt a (8 * p + 32) 16
          let q := p + 6
          let m := (n + 3) / 4
          if end_ < q + s1 + s2 + s3 ∨ n < 3 * m then none
          else
            match litBytes a q (q + s1) t m #[] with
            | none => none
            | some l1 =>
              match litBytes a (q + s1) (q + s1 + s2) t m l1 with
              | none => none
              | some l2 =>
                match litBytes a (q + s1 + s2) (q + s1 + s2 + s3) t m l2 with
                | none => none
                | some l3 =>
                  (litBytes a (q + s1 + s2 + s3) end_ t (n - 3 * m) l3).map (fun l => (l, end_, st1))

/-- The base and extra bits of a literal length code. -/
def llCode (c : Nat) : Nat × Nat :=
  if c < 16 then (c, 0)
  else if c < 20 then (16 + 2 * (c - 16), 1)
  else if c < 22 then (24 + 4 * (c - 20), 2)
  else if c < 24 then (32 + 8 * (c - 22), 3)
  else if c = 24 then (48, 4)
  else (2 ^ (c - 19), c - 19)

/-- The base and extra bits of a match length code. -/
def mlCode (c : Nat) : Nat × Nat :=
  if c < 32 then (3 + c, 0)
  else if c < 36 then (35 + 2 * (c - 32), 1)
  else if c < 38 then (43 + 4 * (c - 36), 2)
  else if c < 40 then (51 + 8 * (c - 38), 3)
  else if c < 42 then (67 + 16 * (c - 40), 4)
  else if c = 42 then (99, 5)
  else (3 + 2 ^ (c - 36), c - 36)

/-- The predefined literal length distribution. -/
def llDefault : List Int :=
  [4, 3] ++ List.replicate 11 2 ++ [1, 1, 1] ++ List.replicate 9 2 ++ [3, 2, 1, 1, 1, 1, 1] ++ List.replicate 4 (-1)

/-- The predefined match length distribution. -/
def mlDefault : List Int := [1, 4, 3] ++ List.replicate 6 2 ++ List.replicate 37 1 ++ List.replicate 7 (-1)

/-- The predefined offset distribution. -/
def ofDefault : List Int :=
  List.replicate 6 1 ++ [2, 2, 2] ++ List.replicate 15 1 ++ List.replicate 5 (-1)

/-- One sequence table by its mode: predefined, RLE, described or repeated. -/
def seqTable (a : Array Byte) (mode p hi maxLog maxSym : Nat) (def_ : Fse) (prev : Option Fse) : Option (Fse × Nat) :=
  if mode = 0 then some (def_, p)
  else if mode = 1 then
    let s := (a.getD p 0).toNat
    if hi ≤ p ∨ maxSym < s then none else some (⟨0, #[⟨s, 0, 0⟩]⟩, p + 1)
  else if mode = 2 then
    match fseRead a p maxLog maxSym with
    | some (t, q) => if hi < q then none else some (t, q)
    | none => none
  else prev.map (fun t => (t, p))

/-- A stage of a compressed block. -/
structure Seqs where
  out : Array Byte
  used : Nat
  rep : Nat × Nat × Nat
  left : Int
deriving DecidableEq, Repr

/-- The offset of a sequence and the repeat offsets after it; offset 0 is illegal. -/
def seqOffset (v ll : Nat) (rep : Nat × Nat × Nat) : Nat × (Nat × Nat × Nat) :=
  let (r1, r2, r3) := rep
  if 3 < v then (v - 3, (v - 3, r1, r2))
  else
    let k := if ll = 0 then v + 1 else v
    if k = 1 then (r1, rep)
    else if k = 2 then (r2, (r2, r1, r3))
    else if k = 3 then (r3, (r3, r1, r2))
    else (r1 - 1, (r1 - 1, r1, r2))

/-- n sequences of a block: lits its literals, size the frame's content size; the result, or a status. -/
def runSeqs (a : Array Byte) (lo : Nat) (lits : Array Byte) (ll of ml : Fse) (size n : Nat) (sl so sm : Nat) (q : Seqs) :
    Except Nat Seqs :=
  match n with
  | 0 => if q.left = 0 then .ok q else .error 0x8C
  | k + 1 =>
    let cl := ll.cells.getD sl ⟨0, 0, 0⟩
    let co := of.cells.getD so ⟨0, 0, 0⟩
    let cm := ml.cells.getD sm ⟨0, 0, 0⟩
    let el := llCode cl.sym
    let em := mlCode cm.sym
    let v := 2 ^ co.sym + backRead a lo q.left co.sym
    let l1 := q.left - co.sym
    let mlen := em.1 + backRead a lo l1 em.2
    let l2 := l1 - em.2
    let llen := el.1 + backRead a lo l2 el.2
    let l3 := l2 - el.2
    let o := seqOffset v llen q.rep
    let nl := if k = 0 then l3 else l3 - cl.bits
    let nm := if k = 0 then nl else nl - cm.bits
    let no := if k = 0 then nm else nm - co.bits
    if no < 0 ∨ lits.size < q.used + llen ∨ o.1 = 0 then .error 0x8C
    else if size < q.out.size + llen then .error 0x8E
    else
      let out := q.out ++ lits.extract q.used (q.used + llen)
      if out.size < o.1 then .error 0x8D
      else if size < out.size + mlen then .error 0x8E
      else
        let q' : Seqs := ⟨copyMatch out o.1 mlen, q.used + llen, o.2, no⟩
        if k = 0 then runSeqs a lo lits ll of ml size k sl so sm q'
        else runSeqs a lo lits ll of ml size k (cl.base + backRead a lo l3 cl.bits) (co.base + backRead a lo nm co.bits)
          (cm.base + backRead a lo nl cm.bits) q'

/-- A compressed block in bytes off to hi. -/
def zBlock (a : Array Byte) (off hi size : Nat) (st : ZState) (out : Array Byte) : Except Nat (Array Byte × ZState) :=
  match literals a off hi st with
  | none => .error 0x8C
  | some (lits, p, st1) =>
    let tail (o : Array Byte) (used : Nat) (s : ZState) : Except Nat (Array Byte × ZState) :=
      if size < o.size + (lits.size - used) then .error 0x8E else .ok (o ++ lits.extract used lits.size, s)
    if hi ≤ p then .error 0x8C
    else
      let b0 := (a.getD p 0).toNat
      let hdr := if b0 < 128 then 1 else if b0 < 255 then 2 else 3
      let n := if b0 < 128 then b0 else if b0 < 255 then (b0 - 128) * 256 + (a.getD (p + 1) 0).toNat
        else bitsAt a (8 * (p + 1)) 16 + 0x7F00
      if hi < p + hdr then .error 0x8C
      else if n = 0 then (if p + hdr = hi then tail out 0 st1 else .error 0x8C)
      else
        let m := (a.getD (p + hdr) 0).toNat
        if hi ≤ p + hdr ∨ m % 4 ≠ 0 then .error 0x8C
        else
          match seqTable a (m / 64) (p + hdr + 1) hi 9 35 (fseTable 6 llDefault) st1.ll with
          | none => .error 0x8C
          | some (ll, p1) =>
            match seqTable a (m / 16 % 4) p1 hi 8 31 (fseTable 5 ofDefault) st1.of with
            | none => .error 0x8C
            | some (of, p2) =>
              match seqTable a (m / 4 % 4) p2 hi 9 52 (fseTable 6 mlDefault) st1.ml with
              | none => .error 0x8C
              | some (ml, p3) =>
                match backBits a p3 hi with
                | none => .error 0x8C
                | some bits =>
                  let l1 : Int := bits - ll.log
                  let l2 : Int := l1 - of.log
                  let l3 : Int := l2 - ml.log
                  if l3 < 0 then .error 0x8C
                  else
                    match runSeqs a p3 lits ll of ml size n (backRead a p3 bits ll.log) (backRead a p3 l1 of.log)
                      (backRead a p3 l2 ml.log) ⟨out, 0, st1.rep, l3⟩ with
                    | .error c => .error c
                    | .ok q => tail q.out q.used { st1 with ll := some ll, of := some of, ml := some ml, rep := q.rep }

/-- The blocks of a frame from a byte offset: the offset after the last, and the output. -/
def zBlocks (a : Array Byte) (size fuel p : Nat) (st : ZState) (out : Array Byte) : Decoded :=
  match fuel with
  | 0 => .err 0x95 a.size
  | k + 1 =>
    if a.size < p + 3 then .err 0x95 a.size
    else
      let h := bitsAt a (8 * p) 24
      let last := h % 2 == 1
      let kind := h / 2 % 4
      let n := h / 8
      let next (q : Nat) (s : ZState) (o : Array Byte) : Decoded := if last then .ok q o else zBlocks a size k q s o
      if kind = 3 ∨ min size 131072 < n then .err 0x8C p
      else if kind = 1 then
        if size < out.size + n then .err 0x8E p
        else if a.size < p + 4 then .err 0x95 a.size
        else next (p + 4) st (out ++ Array.replicate n (a.getD (p + 3) 0))
      else if kind = 0 then
        if size < out.size + n then .err 0x8E p
        else if a.size < p + 3 + n then .err 0x95 a.size
        else next (p + 3 + n) st (out ++ a.extract (p + 3) (p + 3 + n))
      else if a.size < p + 3 + n then .err 0x95 a.size
      else
        match zBlock a (p + 3) (p + 3 + n) size st out with
        | .error c => .err c (p + 3)
        | .ok (o, s) => next (p + 3 + n) s o

/-- A Zstandard job (op 4): exactly one frame within R317. -/
def inflateZstd (l : List Byte) (space : Nat) : Inflated :=
  let a := l.toArray
  if a.size < 5 then (if l.take 4 = (leBytes 4 0xFD2FB528).take l.length then .failed 0x95 a.size else .failed 0x8C 0)
  else if leAt l 0 4 ≠ 0xFD2FB528 then .failed 0x8C 0
  else
    let fhd := (a.getD 4 0).toNat
    let dictLen := if fhd % 4 = 3 then 4 else fhd % 4
    let fcsLen := 2 ^ (fhd / 64)
    if !bitOf fhd 5 || bitOf fhd 3 then .failed 0x8C 4
    else if a.size < 5 + dictLen + fcsLen then .failed 0x95 a.size
    else if leAt l 5 dictLen ≠ 0 then .failed 0x8C 5
    else
      let p := 5 + dictLen
      let size := leAt l p fcsLen + (if fcsLen = 2 then 256 else 0)
      if 8388608 < size then .failed 0x8C p
      else if space < size then .failed 0x8F 0
      else
        match zBlocks a size (a.size + 1) (p + fcsLen) {} #[] with
        | .err c o => .failed c o
        | .ok q out =>
          let sum := bitOf fhd 2
          let end_ := if sum then q + 4 else q
          if a.size < end_ then .failed 0x95 a.size
          else if out.size < size then .failed 0x90 q
          else if sum && leAt l q 4 != (xxh64 out.toList).toNat % 2 ^ 32 then .failed 0x90 q
          else if end_ < a.size then .failed 0x8E end_
          else .done out.toList

/-- A decompression job by its op (R315). -/
def decompress (op : Nat) (l : List Byte) (space : Nat) : Inflated :=
  if op = 2 then inflateRaw l space else if op = 3 then inflateZlib l space else inflateZstd l space

end Sys2Proof.Machine
end

