-- ==== Sys2Proof/Machine/Compress.lean ====
section
/-! DEFINITION. The compression block (R315 to R329): the queue of jobs, what a compressor gives, verification, and the ends of
jobs. -/

namespace Sys2Proof.Machine

open Sys2Proof

/-- The states CMP_STATUS.unit_state codes for a unit. -/
def State.unitState (s : State) (u : Nat) : Nat := s.fld Adr.CMP_STATUS Fld.CMP_STATUS_unit_state / 4 ^ u % 4

/-- Set one: 0 in service, 1 verifier disabled, 2 compressor failed, 3 unit failed. -/
def State.setUnitState (s : State) (u v : Nat) : State :=
  let w := s.fld Adr.CMP_STATUS Fld.CMP_STATUS_unit_state
  s.setFld Adr.CMP_STATUS Fld.CMP_STATUS_unit_state (w - w / 4 ^ u % 4 * 4 ^ u + v * 4 ^ u)

/-- The job that runs on a unit. -/
def State.jobOn (s : State) (u : Nat) : Option CmpJob := s.cmp.find? (fun j => j.unit == some u)

/-- A job is the one of a command. -/
def CmpJob.is (j : CmpJob) (a q c : Nat) : Bool := j.assoc == a && j.qid == q && j.cid == c

/-- Change the job of a command. -/
def State.modCmp (s : State) (k : CmpJob) (f : CmpJob → CmpJob) : State :=
  { s with cmp := s.cmp.map (fun j => if j.is k.assoc k.qid k.cid then f j else j) }

/-- A job compresses (R315). -/
def CmpJob.compresses (j : CmpJob) : Bool := decide (j.op ≤ 1)

/-! ## Dispatch (R324 to R326) -/

/-- Jobs that may run at once (R325). -/
def State.jobLimit (s : State) : Nat :=
  if s.flag Adr.CMP_STATUS Fld.CMP_STATUS_work_held then min 4 (1 + s.cast.claim.getD 0 / 16) else 1

/-- Some unit has a working compressor. -/
def State.canCompress (s : State) : Bool := (List.range 4).any (fun u => decide (s.unitState u ≤ 1))

/-- The lowest-numbered free unit that can run a job: a decompression on any unit in service; a compression on one whose compressor and
verifier work, or, once it has waited 1 ms, on one whose verifier is disabled; a rerun only on a verified unit it has not run on (R323,
R324, R326). -/
def State.unitFor (s : State) (j : CmpJob) : Option Nat :=
  let free := (List.range 4).filter (fun u => (s.jobOn u).isNone)
  if !j.compresses then free.find? (fun u => s.unitState u != 3)
  else
    match free.find? (fun u => s.unitState u == 0 && !j.mismatched.contains u) with
    | some u => some u
    | none => if j.mayUnverified && j.mismatched.isEmpty then free.find? (fun u => s.unitState u == 1) else none

/-- A rerun has no other verified unit left to run on. -/
def State.noRerun (s : State) (j : CmpJob) : Bool :=
  !j.mismatched.isEmpty && (List.range 4).all (fun u => s.unitState u != 0 || j.mismatched.contains u)

/-- Waiting jobs in the order of the queue: by class, then by arrival (R326). -/
def State.jobOrder (s : State) : List CmpJob :=
  let w := if s.restarting 3 then [] else s.cmp.filter (fun j => j.unit.isNone && !j.stopped)
  (List.range 4).flatMap (fun c => w.filter (fun j => j.cls == c))

/-- A job fails, its command completing with a status. -/
def State.endJob (s : State) (j : CmpJob) (t : Status) (dw0 : Nat := 0) : State :=
  let s1 := (s.setFld Adr.CMP_ERRCODE Fld.CMP_ERRCODE_status t.sc).dropCmp j.assoc j.qid j.cid
  match s1.ctx j.assoc j.qid j.cid with
  | some x => s1.complete x t dw0
  | none => s1

/-- COMPRESSION_JOB_START: the first job of the queue that some free unit can run goes to it; with no working compressor, a compression
job ends with Internal Error and event 0x445 (R324, R326). -/
def execCompressionJobStart (s : State) : Res :=
  if s.jobLimit ≤ (s.cmp.filter (fun j => j.unit.isSome)).length then .next s
  else
    match s.jobOrder.find? (fun j => (s.unitFor j).isSome || (j.compresses && !s.canCompress) || s.noRerun j) with
    | none => .next s
    | some j =>
      match s.unitFor j with
      | some u => .next (s.modCmp j (fun k => { k with unit := some u }))
      | none => .next ((if s.canCompress then s else s.event 0x445).endJob j .internal).settle

/-! ## What a compressor gives (R316) -/

/-- Stored blocks of a DEFLATE stream, 65,535 bytes at most each. -/
def storedBlocks (l : List Byte) (fuel : Nat) : List Byte :=
  match fuel with
  | 0 => []
  | k + 1 =>
    let b := l.take 65535
    let r := l.drop 65535
    BitVec.ofNat 8 (if r.isEmpty then 1 else 0) :: (leBytes 2 b.length ++ leBytes 2 (65535 - b.length) ++ b)
      ++ (if r.isEmpty then [] else storedBlocks r k)

/-- The raw stream of an input at a level: the compressor's own, which inflates back to the input. The spec fixes its bytes only for empty
input. -/
def deflateRaw (level : Nat) (l : List Byte) : List Byte :=
  if l.isEmpty then [0x03, 0x00]
  else
    let d := Config.deflate level l
    match inflateRaw d l.length with
    | .done o => if o = l then d else storedBlocks l (l.length + 1)
    | .failed _ _ => storedBlocks l (l.length + 1)

/-- FLG of the zlib header at a level. -/
def zlibFlg (level : Nat) : Byte := if level ≤ 1 then 0x01 else if level ≤ 5 then 0x5E else 0x9C

/-- The output of a compression. -/
def compress (op level : Nat) (l : List Byte) : List Byte :=
  let d := deflateRaw level l
  if op = 0 then d else [0x78, zlibFlg level] ++ d ++ beBytes 4 (adler32 l)

/-! ## Ends of jobs (R319 to R324, R327) -/

/-- The output of a job that succeeded leaves the work buffer: to the mould part, to the medium, or to the host (R322, R327). -/
def State.jobOutput (s : State) (j : CmpJob) (out : List Byte) (dw0 dw1 : Nat) : State :=
  let s1 := s.dropCmp j.assoc j.qid j.cid
  match s1.ctx j.assoc j.qid j.cid with
  | none => s1
  | some x =>
    match x.instr with
    | some (.mouldWrite c) =>
      match s1.mouldSpace x c.nsid.toNat with
      | some sp => s1.writeMould x sp c out
      | none => s1.complete x .ns
    | some (.transform c) => if xfDir c then s1.complete x .ok dw0 dw1 out else s1.writeOutput x c out dw0 dw1
    | _ => s1

/-- A compression on unit u is over: its output, with the CRC-32C of the input where it was not verified or crc_always asks for it; a rerun's
first unit is marked (R323, R324). -/
def State.compressed (s : State) (u : Nat) (j : CmpJob) : State :=
  let out := compress j.op j.level j.input
  let unver := s.unitState u = 1
  let s1 := match j.mismatched with
    | f :: _ => (s.setUnitState f 2).event 0x441
    | [] => s
  if j.space < out.length then
    let t := s1.free (j.input.length + 1)
    t.2.endJob j (.vendor 0x8F) t.1
  else
    let s2 := if unver then s1.event 0x444 else s1
    let s3 := s2.countFld Adr.CMP_CNT0 Fld.CMP_CNT0_comp_jobs
    let crc := if unver || s3.flag Adr.CMP_CTRL Fld.CMP_CTRL_crc_always then (crc32c j.input).toNat else 0
    s3.jobOutput j out (out.length % 2 ^ 25 + (if unver then 2 ^ 31 else 0)) crc

/-- COMPRESSION_JOB_DONE: the job on unit u succeeds; one whose input does not decompress ends by DECOMPRESS_ERROR instead. -/
def execCompressionJobDone (u : Fin 4) (s : State) : Res :=
  match s.jobOn u.val with
  | none => .next s
  | some j =>
    if j.compresses then .next (s.compressed u.val j).settle
    else
      match decompress j.op j.input j.space with
      | .done out => .next ((s.countFld Adr.CMP_CNT0 Fld.CMP_CNT0_decomp_jobs).jobOutput j out (out.length % 2 ^ 25) 0).settle
      | .failed _ _ => .next s

/-- DECOMPRESS_ERROR: the first error of the job on unit u ends it with its status and input offset, and nothing of its output is kept (R319,
R321, R322). -/
def execDecompressError (u : Fin 4) (s : State) : Res :=
  match s.jobOn u.val with
  | none => .next s
  | some j =>
    if j.compresses then .next s
    else
      match decompress j.op j.input j.space with
      | .done _ => .next s
      | .failed code ofs =>
        let s1 := s.setFld Adr.CMP_ERR Fld.CMP_ERR_in_ofs ofs
        .next (((s1.countFld Adr.CMP_CNT1 Fld.CMP_CNT1_derr).event 0x443).endJob j (.vendor code) (ofs % 2 ^ 25)).settle

/-- VERIFIER_MISMATCH: the compression on unit u is discarded and runs again on another unit with a working compressor and verifier; a rerun
that mismatches ends with Internal Error (R323). -/
def execVerifierMismatch (u : Fin 4) (s : State) : Res :=
  match s.jobOn u.val with
  | none => .next s
  | some j =>
    if !j.compresses ∨ s.unitState u.val ≠ 0 then .next s
    else
      let s1 := s.countFld Adr.CMP_CNT1 Fld.CMP_CNT1_vmis
      match j.mismatched with
      | [] => .next ((s1.modCmp j (fun k => { k with unit := none, mismatched := [u.val] })).event 0x440)
      | _ :: _ => .next (s1.endJob j .internal).settle

/-- VERIFIER_DISABLE: a verifier's local memory or start-up test fails (R324). A unit whose compressor has failed keeps that state. -/
def execVerifierDisable (u : Fin 4) (s : State) : Res :=
  if s.unitState u.val = 0 then .next ((s.setUnitState u.val 1).event 0x442)
  else .next s

/-- VERIFIED_UNIT_WAIT_TIMEOUT: a waiting compression job may run unverified from now on (R324). -/
def execVerifiedUnitWaitTimeout (assoc qid cid : Nat) (s : State) : Res :=
  .next { s with cmp := s.cmp.map (fun j => if j.is assoc qid cid && j.compresses && j.unit.isNone then { j with mayUnverified := true } else j) }

end Sys2Proof.Machine
end

