-- ==== Sys2Proof/Machine/Ecc.lean ====
section
/-! DEFINITION. Memory protection rows (R408, R410, R411, R421 to R428). -/

namespace Sys2Proof.Machine

open Sys2Proof

/-- The block that holds a memory instance (R19, R412). -/
def instBlock (i : Nat) : Nat :=
  if i < 4 then 31 else if i < 20 then 32 else if i = 20 then 31 else if i < 37 then 8 + (i - 21) else if i < 53 then 34 + (i - 37) / 4
  else if i < 85 then 26 + (i - 53) / 16 else if i < 89 then 1 + (i - 85) else if i < 93 then 5
  else if i < 97 then 1 + (i - 93) else 1 + (i - 97)

/-- An instance that exists (R412). -/
def instValid (i : Nat) : Bool := decide (i < 101)

/-- The level of a bucket (R422). -/
def State.level (s : State) (i : Nat) : Nat := s.fld (Adr.ECC_LVL i) Fld.ECC_LVL_level

/-- A corrected error in normal mode enters the bucket of its instance, which may overflow (R422). -/
def State.bucketAdd (s : State) (i : Nat) : State :=
  let n := s.level i + 1
  if n ≤ s.fld Adr.ECC_BUCKET Fld.ECC_BUCKET_threshold then s.setFld (Adr.ECC_LVL i) Fld.ECC_LVL_level n
  else
    let s1 := s.setFld (Adr.ECC_LVL i) Fld.ECC_LVL_level 0
    let r := Adr.ECC_IRQ
    let s2 := if s1.flag r Fld.ECC_IRQ_latched then s1.setFlag r Fld.ECC_IRQ_overflow true
      else (s1.setFlag r Fld.ECC_IRQ_latched true).setFld r Fld.ECC_IRQ_instance i
    s2.eventIn (instBlock i) 0x6C1

/-- The channel and page of a word of DRAM, given by its device address. -/
def pageOf (addr : Nat) : Nat × Nat := ((groupOf addr).1, (groupOf addr).2 / 4)

/-- The page of a word of DRAM is due for retirement (R428). -/
def State.retireSoon (s : State) (addr : Nat) : State :=
  if s.dram.retireDue.contains (pageOf addr) then s else s.modDram (fun d => { d with retireDue := d.retireDue ++ [pageOf addr] })

/-- A corrected error recurs at a word of DRAM within 24 h after the word was rewritten: its page is due (R428). -/
def State.recurred (s : State) (i addr : Nat) : State :=
  if i < 2 ∧ s.dram.rewrote.any (fun p => p.1 == i && p.2.1 == addr && decide (s.now < p.2.2 + 86400000000000)) then s.retireSoon addr else s

/-- ECC_CORRECTED: a read corrects a word: counted in every mode; in normal mode it enters the bucket, and its bad copy is to be rewritten
(R420 to R422). A word of DRAM is read by a demand read that passed through the L2 (R414). -/
def execEccCorrected (instNo : Fin 128) (addr : Nat) (s : State) : Res :=
  let i := instNo.val
  if !instValid i then .next s
  else
    let s1 := s.countFld Adr.ECC_CNT Fld.ECC_CNT_corr
    let s2 := if 97 ≤ i then s1.seqEvent (actOf (i - 97)) 7 else if i < 2 then s1.l2Read addr else s1
    if s2.eccMode ≠ 0 then .next s2
    else .next (((s2.bucketAdd i).modDram (fun d => { d with scrubs := d.scrubs ++ [(i, addr)] })).recurred i addr)

/-- BUCKET_LEAK: a leak period has passed, and every level above 0 falls by 1 (R422). -/
def execBucketLeak (s : State) : Res :=
  if s.now < s.dram.leakAt + s.fld Adr.ECC_BUCKET Fld.ECC_BUCKET_leak_ms * 1000000 then .next s
  else .next ((List.range 101).foldl (fun (s : State) i =>
    if s.level i = 0 then s else s.setFld (Adr.ECC_LVL i) Fld.ECC_LVL_level (s.level i - 1))
    (s.modDram (fun d => { d with leakAt := s.now })))

/-- A word lies in a group: the words of DRAM are known by the device address at which they are read. -/
def inGroup (chan group : Nat) (p : Nat × Nat) : Bool := decide (p.1 < 4) && groupOf p.2 == (chan, group)

/-- A group is read, corrected and rewritten as one action (R421, R426). -/
def State.scrubbed (s : State) (chan group : Nat) : State :=
  s.modDram (fun d => { d with bad := d.bad.filter (fun p => !inGroup chan group p) })

/-- TARGETED_SCRUB: the oldest queued scrub; it is dropped when the word has been written since (R421). -/
def execTargetedScrub (rewritten : Bool) (s : State) : Res :=
  match s.dram.scrubs with
  | [] => .next s
  | (i, a) :: r =>
    let s1 := s.modDram (fun d => { d with scrubs := r })
    if rewritten then .next (s1.modDram (fun d => { d with bad := d.bad.filter (fun p => p != (i, a)) }))
    else if i < 4 then
      .next ((s1.scrubbed (groupOf a).1 (groupOf a).2).modDram (fun d => { d with
        rewrote := d.rewrote.filter (fun p => !(p.1 == i && p.2.1 == a)) ++ [(i, a, s.now)] }))
    else .next s1

/-- SCRUB_GROUP: the scrubber, on in normal mode, rewrites one group and goes on; in single-channel mode a pass is of one channel (R411, R426). -/
def execScrubGroup (chan : Fin 2) (group : Nat) (s : State) : Res :=
  if s.eccMode ≠ 0 ∨ !s.flag Adr.ECC_SCRUB Fld.ECC_SCRUB_en then .next s
  else
    let single := s.flag Adr.MEM_STATUS Fld.MEM_STATUS_single
    let total := s.fld Adr.MEM_CFG Fld.MEM_CFG_phys_gib * 2 ^ (if single then 19 else 20)
    let s1 := s.scrubbed chan group
    let done := if single then group + 1 else 2 * group + chan.val + 1
    let r := Adr.ECC_SCRUBPOS
    if total ≤ done then .next ((s1.countFld r Fld.ECC_SCRUBPOS_passes).setFld r Fld.ECC_SCRUBPOS_progress 0)
    else .next (s1.setFld r Fld.ECC_SCRUBPOS_progress (done * 1000 / total))

/-- CHECK_LINE_WRITEBACK: a changed check line reaches DRAM (R408). -/
def execCheckLineWriteback (chan : Fin 2) (group : Nat) (s : State) : Res :=
  .next (s.modDram (fun d => { d with checkLines := d.checkLines.filter (fun p => p != (chan.val, group)) }))

/-! ## A channel fails (R411) -/

/-- A command whose DRAM data is discarded: it runs again from its start when no byte of it has reached the host, else it ends with 93h. -/
def State.discardData (s : State) (x : Ctx) : State :=
  match s.job x.assoc x.qid x.cid with
  | some j => if j.sent = 0 then (s.dropJob x.assoc x.qid x.cid).rerun x else s.castFail j .data
  | none => if x.wait = .job then s.rerun x else s

/-- A channel fails in service: the Memory region restarts in single-channel mode at once, mirrored lines kept and every other DRAM content
discarded; with the other one gone already, the device is unusable (R411). -/
def State.channelFail (s : State) (ch : Nat) : State :=
  let r := Adr.MEM_STATUS
  let s1 := s.setFlag r (if ch = 0 then Fld.MEM_STATUS_ch0_failed else Fld.MEM_STATUS_ch1_failed) true
  if s.flag r Fld.MEM_STATUS_single then (s1.eventIn 31 0x6C9).fatalActions
  else
    let s2 := (s1.setFlag r Fld.MEM_STATUS_single true).eventAt 31 0x6C8 0 0
    let s3 := s2.host.ctxs.foldl (fun s x => s.discardData x) s2
    (s3.modMedia (fun m => { m with dram := [] })).restartRegion 5

/-- DRAM_CHANNEL_FAIL. -/
def execDramChannelFail (chan : Fin 2) (s : State) : Res :=
  let failed := s.flag Adr.MEM_STATUS (if chan.val = 0 then Fld.MEM_STATUS_ch0_failed else Fld.MEM_STATUS_ch1_failed)
  if failed ∨ !s.flag Adr.MEM_STATUS Fld.MEM_STATUS_trained then .next s else .next (s.channelFail chan).settle

/-! ## Uncorrectable words (R423 to R425) -/

/-- A command that used an uncorrectable word completes with 93h. -/
def State.memoryError (s : State) (a q c : Nat) : State :=
  match s.job a q c with
  | some j => s.castFail j .data
  | none =>
    match s.ctx a q c with
    | some x => ((s.dropCmp a q c).dropWrite a q c).complete x .data
    | none => s

/-- The Cast of a channel completes with 93h. -/
def State.channelData (s : State) (chan : Nat) : State :=
  match lookupKey s.cast.runs chan with
  | some r => s.memoryError r.assoc r.qid r.cid
  | none => s

/-- What becomes of the requester of an uncorrectable word (R410, R424, R425). A read that the second copy serves fills its line; one that
gets a bus error fills none, as R417 says of a prefetch (log entry 137). -/
def State.busError (s : State) (i addr : Nat) (u : BusUser) : State :=
  let poison (l : List (Nat × Nat)) : State := s.modDram (fun d => { d with poison := d.poison ++ l.filter (fun p => !d.poison.contains p) })
  match u with
  | .dataPath a q c => s.memoryError a q c
  | .programFetch chan => (s.event 0x424).channelData chan
  | .scratch chan => s.channelData chan
  | .actuatorLoop a => s.loopFault a
  | .spindleLoop k => s.spindleFaulty k
  | .patch a follow =>
    if follow then (match execFollowFault a s with | .next t => t | _ => s) else s.leadFaulty a
  | .core => s
  | .background => s
  | .mirrored second =>
    if second then
      -- in normal mode the primary copy is rewritten from the second
      (if s.eccMode = 0 then (s.l2Read addr).dramWrite (lineWords (addr / 128)) else s.l2Read addr).eventIn 31 0x6C6
    else s.eventIn 31 0x6C7
  | .cleanLine => s.eventIn 32 0x6CA
  | .dirtyLine => (poison ((List.range 16).map (fun k => (i, addr / 128 * 128 + 8 * k)))).eventIn 32 0x6CB
  | .partialWrite =>
    let w := (i, addr / 8 * 8)
    ((s.dramWrite [w.2]).modDram (fun d => { d with poison := d.poison ++ [w] })).eventIn (instBlock i) 0x6CC

/-- An uncorrectable error of a DRAM channel counts toward its failure: 16 within 1 s (R411). -/
def State.channelError (s : State) (ch : Nat) : State :=
  let l := s.dram.errAt.filter (fun p => decide (s.now < p.2 + 1000000000)) ++ [(ch, s.now)]
  let s1 := s.modDram (fun d => { d with errAt := l })
  if 16 ≤ (l.filter (fun p => p.1 == ch)).length then s1.channelFail ch else s1

/-- ECC_UNCORRECTABLE: an uncorrectable word is counted, latched and recorded, and its requester gets a bus error (R423, R424). -/
def execEccUncorrectable (instNo : Fin 128) (addr : Nat) (user : BusUser) (s : State) : Res :=
  let i := instNo.val
  if !instValid i then .next s
  else
    let s1 := s.countFld Adr.ECC_CNT Fld.ECC_CNT_uncorr
    let s2 := (s1.setReg Adr.ECC_UE_LO (BitVec.ofNat 32 addr)).setReg Adr.ECC_UE_HI
      (setBits (setBits 0 Fld.ECC_UE_HI_instance i) Fld.ECC_UE_HI_addr_hi (addr / 2 ^ 32))
    let s2 := if i < 2 ∧ !s2.dram.poison.contains (i, addr) then s2.retireSoon addr else s2
    let s3 := (s2.eventIn (instBlock i) (if i < 4 then 0x6C2 else 0x6C3)).busError i addr user
    .next (if i < 4 then s3.channelError (i % 2) else s3).settle

/-! ## Injection and retirement (R427, R428) -/

/-- ECC_INJECT: a DRAM write covers the armed word in test mode: its check byte is stored with 1 or 2 bits inverted (R427). -/
def execEccInject (s : State) : Res :=
  if s.eccMode ≠ 2 ∨ !s.flag Adr.ECC_INJ Fld.ECC_INJ_armed then .next s
  else
    let d := (s.reg Adr.ECC_INJADDR_LO).toNat + 2 ^ 32 * s.fld Adr.ECC_INJADDR_HI Fld.ECC_INJADDR_HI_addr_hi
    let g := groupOf d
    let s1 := (s.setFlag Adr.ECC_INJ Fld.ECC_INJ_armed false).dramWrite [d]
    let s2 := s1.modDram (fun m => { m with
      bad := if s.fld Adr.ECC_INJ Fld.ECC_INJ_kind = 2 then m.bad else m.bad ++ [(g.1, d)]
      poison := if s.fld Adr.ECC_INJ Fld.ECC_INJ_kind = 2 then m.poison ++ [(g.1, d)] else m.poison })
    .next (s2.event 0x6CE)

/-- PAGE_RETIRE: a page that is due moves to a spare; uncorrectable words of it, given by device address, are poisoned in the copy (R425, R428). -/
def execPageRetire (chan : Fin 2) (page : Nat) (uncorrectable : List Nat) (s0 : State) : Res :=
  let s := s0.modDram (fun d => { d with retireDue := d.retireDue.filter (fun p => p != (chan.val, page)) })
  if !s0.dram.retireDue.contains (chan.val, page) then .next s0
  else if s.sparesLeft chan = 0 then .next (s.retirePage chan page)
  else
    let l := uncorrectable.map (fun d => (chan.val, d))
    let here (p : Nat × Nat) : Bool := decide (p.1 < 4) && decide ((groupOf p.2).1 = chan.val ∧ (groupOf p.2).2 / 4 = page)
    .next ((s.retirePage chan page).modDram (fun d => { d with
      bad := d.bad.filter (fun p => !here p), poison := d.poison ++ l.filter (fun p => !d.poison.contains p) }))

end Sys2Proof.Machine
end

