-- ==== Sys2Proof/Machine/Recovery.lean ====
section
/-! DEFINITION. Rows of waiting media commands: the retract pair, approaches, launches and alarms (R187, R188, R213, R218 to R222), the
recovery layers (R226 to R234), trailing trusses (R237), range locks and the trailing buffer (R398, R409). -/

namespace Sys2Proof.Machine

open Sys2Proof

/-! ## The retract pair and approaches -/

/-- RETRACT_REARM: both channels have stayed deasserted for 100 ms: the pair is armed and heads load at at_speed (R187, R188); in PS4 and PS5 not until
wake-up (R189). -/
def execRetractRearm (s : State) : Res :=
  let r := Adr.SPN_RETRACT
  if decide (4 ≤ s.ps) || s.flag r Fld.SPN_RETRACT_armed || s.flag r Fld.SPN_RETRACT_a_asserted || s.flag r Fld.SPN_RETRACT_b_asserted then .next s
  else .next ((((s.setFlag r Fld.SPN_RETRACT_retracted false).setFlag r Fld.SPN_RETRACT_armed true).event 0x30D).loadHeads).settle

/-- RETRACT_WAIT_TIMEOUT: a media command has waited 1 s and the pair has not re-armed (R188). -/
def execRetractWaitTimeout (assoc qid cid : Nat) (s : State) : Res :=
  match s.ctx assoc qid cid with
  | some x =>
    if !s.flag Adr.SPN_RETRACT Fld.SPN_RETRACT_armed && (x.wait == .retract || x.wait == .mediaWrite || x.wait == .mediaRead) then
      .next ((s.dropWrite assoc qid cid).complete x .notReady)
    else .next s
  | none => .next s

/-- APPROACH_END: the offset is back at 0 and the phase loop is in PULL (R213). -/
def execApproachEnd (s : State) : Res :=
  if s.phase = 2 then
    .next ((s.setPhase 3).modTime (fun t => { t with approach := none, sumE := 0, errBad := 0, errGood := 0 })).settle
  else .next s

/-! ## Launches (R217 to R221) -/

/-- The launch instant of a waiting timed command in 1/65,536 ns; none while a launch angle has no index to refer to (R218). -/
def State.instantOf (s : State) (x : Ctx) : Option Nat :=
  match x.wait with
  | .launch l none => some (l * 65536)
  | .launch l (some th) =>
    match s.time.lastIndex with
    | none => none
    | some i =>
      if s.noIndex then none
      else
        -- the first instant of this angle at or after L, whichever side of the last index it lies
        let t0 : Int := (i + th * s.time.trev / 65536 : Nat)
        let back : Int := ((t0 - (l * 65536 : Nat)) / s.time.trev) * s.time.trev
        some (t0 - back).toNat
  | _ => none

/-- A launch that is due. -/
def State.isDue (s : State) (x : Ctx) : Bool := match s.instantOf x with | some t => decide (t ≤ s.time.tb) | none => false

/-- The place of a due launch in the order of release. -/
def State.launchRank (s : State) (x : Ctx) : List Nat := [(s.instantOf x).getD 0, x.arrival, x.assoc]

/-- A due launch is released: counted when it is more than 1 µs late; it waits for PS0 (R218, R219, R470). -/
def State.release (s : State) (x : Ctx) (i : Instr) (late : Bool) : State :=
  let t := (s.instantOf x).getD 0
  let s1 := s.modCtx x.assoc x.qid x.cid (fun y => { y with launch := t / 65536 })
  let s2 := if late then
      ((s1.countFld Adr.TMB_LAUNCH Fld.TMB_LAUNCH_late).modTime (fun t => { t with late := min (t.late + 1) (2 ^ 32 - 1) })).event 0x34E
    else s1
  if decide (2 ≤ s2.ps) || s2.psMoving then (s2.waitFor x .powerExit).wakeCmd
  else match s2.ctxOf x with | some y => s2.body y i true | none => s2

/-- LAUNCH_RELEASE: a pending launch that is due, with none due before it, is released; while the time base function is not running it waits (R35, R218,
R219). -/
def execLaunchRelease (assoc qid cid : Nat) (s : State) : Res :=
  match s.ctx assoc qid cid with
  | some x =>
    match x.instr with
    | some i =>
      let before := s.host.ctxs.any (fun y => s.isDue y && keyLess (s.launchRank y) (s.launchRank x))
      if !s.isDue x || before || s.restarting 2 || !s.funcRunning 9 then .next s
      else .next (s.release x i (decide ((s.instantOf x).getD 0 + 65536000 < s.time.tb))).settle
    | none => .next s
  | none => .next s

/-- The functions a class-0 command needs: those of its actuators, a Cast's, and its port's (R220). -/
def State.funcsFor (s : State) (x : Ctx) : List Nat :=
  let acts := (s.needs x).flatMap (fun a => [a.val, 4 + a.val])
  let cast := match x.instr with | some (.cast _) => [10, 11] | _ => []
  let port := if x.assoc = 1024 then [] else match s.assoc x.assoc with | some y => [12 + y.port] | none => []
  acts ++ cast ++ port

/-- The command is a Read or Timed Read of at most 2 MiB, or a Cast of a profile that is not atomic with at most 2 MiB of output, none of it sent
(R220). -/
def State.smallEnough (s : State) (x : Ctx) : Bool :=
  match x.instr with
  | some (.read c) => decide (nlbOf c * s.lbaSize ≤ 2097152)
  | some (.timedRead c) => decide (nlbOf c * s.lbaSize ≤ 2097152)
  | some (.cast _) =>
    match s.job x.assoc x.qid x.cid with
    | some j => !j.atomic && decide (j.total ≤ 2097152) && j.sent == 0
    | none => false
  | _ => false

/-- A launched class-0 command is bounded, the host's TCP receive window being window bytes (R220). -/
def State.bounded (s : State) (x : Ctx) (window : Nat) : Bool :=
  x.cls == 0 && x.launched && !x.delayed && s.smallEnough x && decide (s.ps ≤ 1) && !s.psMoving && s.atSpeed && s.phase != 2
    && (s.funcsFor x).all s.funcRunning && (List.range 7).all (fun r => !s.restarting r) && s.activation.isNone
    && (s.sectorsOf x).all (fun m => (s.media.erasedAt m).isNone) && decide (65536 ≤ window)

/-- The bound of a class-0 command from its launch instant, in ns (R220). DESIGN CHOICE (log entry 128): of a Cast, whose mould data the spec
places nowhere in particular, it is that of data on the medium. -/
def Ctx.boundNs (x : Ctx) : Nat :=
  match x.instr with
  | some (.cast _) => 24000000
  | _ => if x.staged then 2000000 else 24000000

/-- CLASS0_BOUND_MISS: a bounded command with its bound behind it has sent nothing (R220, R221). -/
def execClass0BoundMiss (assoc qid cid window : Nat) (s : State) : Res :=
  match s.ctx assoc qid cid with
  | some x =>
    if s.bounded x window && decide (x.launch + x.boundNs < s.tbNs) then
      .next (((s.countFld Adr.TMB_LAUNCH Fld.TMB_LAUNCH_c0_miss).modTime (fun t => { t with c0Miss := min (t.c0Miss + 1) (2 ^ 32 - 1) })).event 0x34B)
    else .next s
  | none => .next s

/-! ## Alarms (R222, R310, R473) -/

/-- Time waits that are due end (R310). -/
def State.endTimeWaits (s : State) : State :=
  s.cast.runs.foldl (fun s p =>
    match lookupKey s.cast.runs p.1 with
    | none => s
    | some r =>
      match s.job r.assoc r.qid r.cid, r.wait with
      | some j, some w => if r.state = 3 ∧ w.kind = 2 ∧ s.waitOver j w then s.endWait p.1 j r w else s
      | _, _ => s) s

/-- The wake alarm fires: recorded, spent, and with alarm_en it wakes the device from PS1 to PS4 (R472, R473). -/
def State.alarmWake (s : State) : State :=
  let s1 := ((s.setReg Adr.PLN_WALM_LO 0).setReg Adr.PLN_WALM_HI 0).wakeRelease
  let s2 := s1.setFlag Adr.PLN_WAKE Fld.PLN_WAKE_alarm true
  if s.ps = 0 ∨ !s.flag Adr.PLN_WAKECFG Fld.PLN_WAKECFG_alarm_en then s2 else s2.startExit

/-- The time base has reached what comparator k waits for: a time wait of the mover, or the alarm time, which fires once (R222, R310). -/
def State.alarmReached (s : State) (k : Fin 8) : Bool :=
  let t := (s.reg (Adr.TMB_ALM_LO k)).toNat + 2 ^ 32 * (s.reg (Adr.TMB_ALM_HI k)).toNat
  if s.fld (Adr.TMB_ALM_CTL k) Fld.TMB_ALM_CTL_holder = 2 then
    s.cast.runs.any (fun p => match p.2.wait with | some w => p.2.state == 3 && w.kind == 2 && decide (w.arg ≤ s.tbNs) | none => false)
  else decide (t ≤ s.tbNs) && !s.time.spent.contains k.val

/-- ALARM_FIRE: comparator k fires and signals its holder (R222). -/
def execAlarmFire (k : Fin 8) (s : State) : Res :=
  let c := Adr.TMB_ALM_CTL k
  let h := s.fld c Fld.TMB_ALM_CTL_holder
  if h = 0 ∨ !s.powered 2 ∨ s.restarting 2 ∨ !s.alarmReached k then .next s
  else
    let s1 := ((s.event (0x350 + k)).setFlag c Fld.TMB_ALM_CTL_fired true).modTime (fun t => { t with spent := t.spent ++ [k.val] })
    if h = 2 then .next s1.endTimeWaits
    else if h = 3 then .next s1.alarmWake
    else
      let irq := s.fld c Fld.TMB_ALM_CTL_irq
      let o := s.fld Adr.OWN_STATUS Fld.OWN_STATUS_owner
      let s2 := if irq % 2 = 1 ∧ s.isOwner o then s1.notice o (noticeOf 0xC2) else s1
      .next (if 2 ≤ irq then s2.modHost (fun h => { h with irqs := h.irqs ++ [k.val] }) else s2)

/-! ## The recovery layers (R226 to R230) -/

/-- Erased sectors of a course that layer 2 could not deliver go on to the next retry, or to layer 4 (R226, R227). -/
def State.afterCourse (s : State) (x : Nat) : State :=
  let l := s.erasedWith x
  s.modMedia (fun m => { m with erased := m.erased.map (fun e =>
    if l.contains e.media then { e with layer := if e.retry < s.retryMax x then 3 else 4 } else e) })

/-- COURSE_RECOVERY: layer 2 on the course of an erased sector; lost gives the positions of others that the channel does not deliver (R227). -/
def execCourseRecovery (media : Nat) (lost : List Nat) (s : State) : Res :=
  match s.media.erasedAt media with
  | none => .next s
  | some e =>
    if e.layer ≠ 2 ∨ !s.recoverable media then .next s
    else
      let t := s.courseLayer media lost
      .next (if t.1 then t.2.settle else s.afterCourse media)

/-- Retry step r restarts equaliser adaptation where MDI_RSTEPr asks for it (R228). -/
def State.retryAdapt (s : State) (x r : Nat) : State :=
  match s.locate x with
  | some p =>
    let a := actOf (p.surface / 8)
    if s.flag (Adr.MDI_RSTEP a r) Fld.MDI_RSTEP_adapt_rst then s.loadEqualiser a else s
  | none => s

/-- The global iterations that retry step r of the actuator of x allows, 1 to 20 (R228). -/
def State.retryLimit (s : State) (x r : Nat) : Nat :=
  match s.locate x with
  | some p => min (max (s.fld (Adr.MDI_RSTEP (p.surface / 8) r) Fld.MDI_RSTEP_max_global) 1) 20
  | none => 0

/-- One sector of a retry: delivered where the decoder converged within the step's iterations and the sector there carries its tag (R86, R228). -/
def State.retried (s : State) (r : Nat) (found : List (Nat × Nat)) (x : Nat) : State :=
  match lookupKey found x, s.readable x with
  | some n, some d => if 1 ≤ n ∧ n ≤ s.retryLimit x r then s.recovered x false d else s
  | _, _ => s

/-- The erased sector as retry step r of its actuator reads it: the reader selection and the offset of the step (R228). -/
def State.retryStep (s : State) (r : Nat) (e : Erased) : Erased :=
  match s.locate e.media with
  | some p =>
    let w := Adr.MDI_RSTEP (p.surface / 8) r
    { e with layer := 2, retry := e.retry + 1, rdsel := s.fld w Fld.MDI_RSTEP_rdsel, offset := s.sfld w Fld.MDI_RSTEP_offset }
  | none => { e with layer := 2, retry := e.retry + 1 }

/-- READ_RETRY: one retry of the erased sectors of a course, of which those of a list are decoded after some global iterations; layer 2 is then applied
again to the rest (R227, R228). -/
def execReadRetry (media : Nat) (delivered : List (Nat × Nat)) (s : State) : Res :=
  match s.media.erasedAt media with
  | none => .next s
  | some e =>
    if e.layer ≠ 3 ∨ !s.recoverable media ∨ s.retryMax media ≤ e.retry then .next s
    else
      let l := s.erasedWith media
      let s0 := s.retryAdapt media e.retry
      let s1 := l.foldl (fun (t : State) y => t.retried e.retry delivered y) s0
      .next (s1.modMedia (fun m => { m with erased := m.erased.map (fun d =>
        if l.contains d.media then s.retryStep e.retry d else d) })).settle

/-- Layer 4 delivers a sector: counted, with event 0x380 (R229, R233). -/
def State.trussDelivered (s : State) (x : Nat) : State :=
  ((s.delivered x (s.restOfTruss (x / 576) (x % 576 / 64) (x % 64))).modMedia (fun m => { m with byTruss := m.byTruss + 1 })).event 0x380

/-- A sector that every layer fails is unrecovered (R232). -/
def State.unrecovered (s : State) (x : Nat) : State :=
  (s.modMedia (fun m => { m with erased := m.erased.filter (fun e => e.media != x) })).unrecover x

/-- TRUSS_RECOVERY: layer 4 rebuilds a sector from the 8 other units of its truss, when they are recovered by layers 1 to 3 (R229). -/
def execTrussRecovery (media : Nat) (helpersOk : Bool) (s : State) : Res :=
  match s.media.erasedAt media with
  | none => .next s
  | some e =>
    if e.layer ≠ 4 ∨ !s.recoverable media ∨ (s.trussApplies media ∧ (s.helperDown media).isSome) then .next s
    else if s.trussApplies media && helpersOk then .next (s.trussDelivered media).settle
    else .next (s.unrecovered media).settle

/-- The LBAs a read takes from the medium. -/
def readRange (i : Instr) : List Nat :=
  match i with
  | .read c => lbaRun (slbaOf c) (nlbOf c)
  | .timedRead c => lbaRun (slbaOf c) (nlbOf c)
  | .transform c => if xfDir c then lbaRun (xfSlba c) ((c.cdw11.toNat + 4095) / 4096) else []
  | _ => []

/-- The lowest LBA of a read that fails or is still erased, with its status: 94h for an erased one (R230, R248). -/
def State.limitStatus (s : State) (x : Ctx) (i : Instr) : Status × Nat × Nat :=
  match nsidOf i with
  | none => (.vendor 0x94, 0, 0)
  | some ns =>
    match s.lbaSpace x ns with
    | none => (.vendor 0x94, 0, ns)
    | some sp =>
      let hit := (readRange i).findSome? (fun l =>
        match sp.mediaOf l with
        | none => none
        | some m =>
          match s.sectorRead ns l m with
          | .fail t => some (t, l)
          | .hold .recovery => some (.vendor 0x94, l)
          | .gone => some (.unrecovered, l)
          | _ => none)
      match hit with | some p => (p.1, p.2, ns) | none => (.vendor 0x94, 0, ns)

/-- The time limit on the recovery of a command, in ns (R230). -/
def State.recoveryLimit (s : State) (x : Ctx) : Nat :=
  let r := Adr.MDI_RLIM
  (if x.cls = 0 then max (s.fld r Fld.MDI_RLIM_recov_c0_ms) 1 else max (s.fld r Fld.MDI_RLIM_recov_ms) 1) * 1000000

/-- RECOVERY_LIMIT_EXPIRY: the limit has run out since the command's first erased sector: it ends, and its erased sectors go on in the background
(R230). -/
def execRecoveryLimitExpiry (assoc qid cid : Nat) (s : State) : Res :=
  match s.ctx assoc qid cid with
  | some x =>
    match x.instr, x.wait, x.recovFrom with
    | some i, .recovery, some t0 =>
      if s.now < t0 + s.recoveryLimit x then .next s
      else
        let t := s.limitStatus x i
        .next ((s.event 0x389).complete x t.1 0 0 [] t.2.1 t.2.2)
    | _, _, _ => .next s
  | none => .next s

/-- A read waits for an actuator that is out of service and not lost (R231). -/
def Wait.forActuator (w : Wait) : Bool :=
  match w with
  | .actuator _ => true
  | .approach => true
  | .retract => true
  | .func k => k < 8
  | _ => false

/-- UNAVAIL_RECONSTRUCT: a read that has waited unavail_ms gets the sectors that layer 4 can rebuild from the other actuators; it goes on
waiting for the rest (R231). -/
def execUnavailReconstruct (assoc qid cid : Nat) (s : State) : Res :=
  match s.ctx assoc qid cid with
  | some x =>
    match x.instr with
    | some i =>
      let limit := max (s.fld Adr.MDI_UNAV Fld.MDI_UNAV_unavail_ms) 1 * 1000000
      if !x.wait.forActuator || !s.flag Adr.MDI_UNAV Fld.MDI_UNAV_recon_unav || decide (s.now < x.since + limit) then .next s
      else
        match (nsidOf i).bind (fun ns => s.lbaSpace x ns) with
        | none => .next s
        | some sp =>
          let l := (readRange i).filterMap sp.mediaOf
          let ok := l.filter (fun m => s.media.units.contains (m / 64) && !s.actServes (s.actAt m) && !s.missingAt m
            && (lookupKey s.media.dram m).isNone && s.trussApplies m && (s.helperDown m).isNone)
          if ok.isEmpty then .next s
          else
            let s1 := (ok.foldl (fun (t : State) m => t.deliver m (t.restOfTruss (m / 576) (m % 576 / 64) (m % 64))) s).event 0x38A
            .next ((s1.body x i x.isLaunched).keepSince x).settle
    | none => .next s
  | none => .next s

/-! ## Writes (R234, R237) -/

/-- The actuator and entry of a write to sector x that was cut. -/
def State.cutEntry (s : State) (x : Nat) : Option (Fin 4 × Entry) :=
  (List.finRange 4).findSome? (fun a =>
    ((s.act a).seq.list.find? (fun e => e.wasCut && e.media == x)).map (fun e => (a, e)))

/-- The cut entries of a sector on an actuator are over. -/
def State.cutOver (s : State) (a : Fin 4) (x : Nat) : State :=
  (s.modSeq a (fun q => { q with list := q.list.map (fun e => if e.wasCut && e.media == x then { e with outcome := some 0 } else e) })).modMedia
    (fun m => { m with tries := eraseKey m.tries x })

/-- A cut sector is written by a pass, at the place it has now; its write goes on with it (R63, R234). -/
def State.cutWritten (s : State) (a : Fin 4) (e : Entry) : State := (s.rewriteAt e.media e.data).cutOver a e.media

/-- WRITE_RETRY: a cut sector is written at its next pass; after wr_retry more times it is reallocated and written there, or its write ends with
Write Fault and its LBA is unrecovered (R234). -/
def execWriteRetry (media : Nat) (ok : Bool) (s : State) : Res :=
  match s.cutEntry media with
  | none => .next s
  | some (a, e) =>
    let most := s.fld (Adr.MDI_RCTL a) Fld.MDI_RCTL_wr_retry
    let done := (lookupKey s.media.tries media).getD 0
    if !s.mayPlace (8 * a) then .next s
    else if !s.roomFor [media] then .next s.makeRoom
    else if ok && decide (done < most) then .next (s.cutWritten a e)
    else if done + 1 < most then .next (s.modMedia (fun m => { m with tries := insertKey m.tries media (done + 1) }))
    else
      let t := s.reallocate media
      if t.1 then .next (t.2.cutWritten a e)
      else
        let at_ := s.lbaOf media
        let s1 := (t.2.cutOver a media).unrecover media
        let s2 := s1.dropWrite e.assoc e.qid e.cid
        match s2.ctx e.assoc e.qid e.cid with
        | some x => .next ((s2.complete x .writeFault 0 0 [] (match at_ with | some p => p.2 | none => 0)
            (match at_ with | some p => p.1 | none => 0)).settle)
        | none => .next s2

/-- The data sectors of position i of truss t that can be had for its parity: those in the trailing buffer, and those of units that are not missing
(R237). -/
def State.parityFrom (s : State) (t i : Nat) : List Nat :=
  ((List.range 8).map (fun j => t * 576 + j * 64 + i)).filter (fun x => s.media.buffered.contains x || !s.missingAt x)

/-- The parity of stale position i of truss t is written, unless its unit is missing. DESIGN CHOICE (log entry 152): a data sector that cannot be
had is lost, counts as zeros, and enters the unrecovered list unless its unit is clean (R63, R69, R237, R238, R242). -/
def State.writeParityAt (s : State) (t i : Nat) : State :=
  let y := t * 576 + 512 + i
  let l := s.parityFrom t i
  let gone := ((List.range 8).filter (fun j => !l.contains (t * 576 + j * 64 + i) && !s.media.isClean t j)).map (fun j => t * 576 + j * 64 + i)
  let s1 := gone.foldl (fun (u : State) x => u.unrecover x) s
  if s.missingAt y then s1
  else (s1.recordSector y (l.foldl (fun acc x => xorBytes acc (s.onMedium x)) (List.replicate s.lbaSize 0))).noteCourse y

/-- The parity of a trailing truss may be written now: its surface may be written, and once a limit is reached the truss that has trailed longest is
next (R237). -/
def State.parityTurn (s : State) (r : Trail) : Bool :=
  let y := r.truss * 576 + 512
  let limit := decide (s.fld Adr.MDI_TRAIL Fld.MDI_TRAIL_trail_max ≤ s.media.trailing.length) || s.media.trailing.any s.trailOver
  (s.missingAt y || s.mayPlace (8 * s.actAt y)) && (!limit || s.media.trailing.head? == some r)

/-- TRUSS_PARITY_WRITTEN: the parity of a trailing truss, recomputed from its data units, is on the medium, unless it waits for room to open a course;
writes held by trail_max go on once the count is below it (R235, R237). -/
def execTrussParityWritten (truss : Nat) (s : State) : Res :=
  match s.media.trailing.find? (fun r => r.truss == truss) with
  | none => .next s
  | some r =>
    if !s.parityTurn r then .next s
    else if !s.roomFor (r.stale.map (fun i => truss * 576 + 512 + i)) then .next s.makeRoom
    else
      let s1 := r.stale.foldl (fun (u : State) i => u.writeParityAt truss i) s.writePass
      let rest := s1.media.trailing.filter (fun r => r.truss != truss)
      let free := decide (rest.length < s.fld Adr.MDI_TRAIL Fld.MDI_TRAIL_trail_max)
      .next (s1.modMedia (fun m => { m with
        trailing := rest, recomputed := if m.owedTrusses.contains truss then m.recomputed + 1 else m.recomputed
        owedTrusses := m.owedTrusses.filter (fun t => t != truss)
        writes := if free then m.writes.map (fun w => { w with held := false }) else m.writes })).trimBuffer

/-! ## Locks and the trailing buffer -/

/-- RANGE_LOCK_GRANT: a waiting request with no earlier conflicting one is granted, and its command goes on (R398). -/
def execRangeLockGrant (assoc qid cid : Nat) (s : State) : Res :=
  match s.ctx assoc qid cid, s.host.lockAt assoc qid cid with
  | some x, some k =>
    match x.instr with
    | some i =>
      if x.wait = .lock ∧ s.host.lockFree k then
        let s1 := s.modHost (fun h => { h with locks := h.locks.map (fun j =>
          if j.assoc = assoc ∧ j.qid = qid ∧ j.cid = cid then { j with granted := true } else j) })
        .next (s1.body x i x.isLaunched).settle
      else .next s
    | none => .next s
  | _, _ => .next s

/-- TRAILING_BUFFER_SPACE: a Write that waits for room in the trailing buffer takes it (R409). -/
def execTrailingBufferSpace (assoc qid cid : Nat) (s : State) : Res :=
  match s.ctx assoc qid cid with
  | some x =>
    match x.instr, x.wait with
    | some i, .trailing => .next ((s.body x i x.isLaunched).keepSince x)
    | _, _ => .next s
  | none => .next s

end Sys2Proof.Machine
end

