-- ==== Sys2Proof/Machine/Faults.lean ====
section
/-! DEFINITION. Fault rows (R168, R434 to R450): escalation, region restarts, the quiet period and the recovery restart, control cores, and the
patina's store and journal rows (R454, R455). -/

namespace Sys2Proof.Machine

open Sys2Proof

/-! ## Events and escalation -/

/-- FAULT_EVENT: an event arises in a block. One of chapter 15 is latched by no collector, apart from 0x788 and 0x789; a fatal one during a
recovery restart begins the fatal actions again (R434, R435, R445). -/
def execFaultEvent (block : Fin 38) (event detail detail64 : Nat) (s : State) : Res :=
  match eventClass event with
  | none => .next s
  | some c =>
    if 0x780 ≤ event ∧ event < 0x7C0 ∧ event ≠ 0x788 ∧ event ≠ 0x789 then .next (s.noteEvent event c detail detail64 0)
    else
      let s1 := s.eventIn block event detail detail64
      .next (if c = .fatal ∧ s.flag Adr.FLT_STATE Fld.FLT_STATE_recovering then s1.fatalActions.settle else s1)

/-- SPINDLE_ENGINE_FAULT (R168). -/
def execSpindleEngineFault (standby : Option (Fin 3)) (s : State) : Res := .next (s.spindleFaulty standby)

/-- A power state change stops at the step it has reached; its commands complete with Internal Error (R471). -/
def State.haltPower (s : State) : State :=
  if !s.psMoving then s
  else
    let s1 := (s.setFlag Adr.PWR_STATE Fld.PWR_STATE_entering false).setFlag Adr.PWR_STATE Fld.PWR_STATE_exiting false
    let s2 := s1.modPln (fun p => { p with exitDue := false, ps5Due := false })
    (s2.host.ctxs.filter (fun x => x.wait == .powerState && x.late)).foldl (fun s x => s.complete x .internal) s2

/-- ESCALATION_EXPIRY: the pending action of a region's timer is taken when it has run out, to within 100 µs (R436 to R438). -/
def execEscalationExpiry (region : Fin 7) (s : State) : Res :=
  let e := Adr.FLT_ESC region
  let due := match lookupKey s.flt.escAt region.val with | some t => decide (t ≤ s.now + 100000) | none => true
  if !s.flag e Fld.FLT_ESC_running || !due then .next s
  else
    let s1 := (s.stopTimer region).haltPower
    .next (if s.fld e Fld.FLT_ESC_pending = 2 then s1.fatalActions else s1.escalateRestart region).settle

/-- FLT_ACK_HANDLED: firmware has handled a region's events: its timer stops (R437). -/
def execFltAckHandled (region : Fin 8) (s : State) : Res :=
  if region.val < 7 then .next (s.stopTimer region).leaveRecoveryMode else .next s

/-- FLT_ACK_RESTART (R437). -/
def execFltAckRestart (region : Fin 8) (s : State) : Res :=
  if region.val < 7 then .next ((s.stopTimer region).haltPower.escalateRestart region).settle else .next s

/-- FLT_ACK_FATAL (R437). -/
def execFltAckFatal (region : Fin 8) (s : State) : Res :=
  if region.val < 7 then .next ((s.stopTimer region).haltPower.fatalActions).settle else .next s

/-! ## A region runs again (R439, R440, R445) -/

/-- Launches whose instant has passed are released at once, in order, each counted late (R439). -/
def State.releaseLate (s : State) (fuel : Nat) : State :=
  match fuel with
  | 0 => s
  | k + 1 =>
    match leastBy s.launchRank (s.host.ctxs.filter s.isDue) with
    | none => s
    | some x => (match x.instr with | some i => s.release x i true | none => s).releaseLate k

/-- Enabled attribute entries that fail check 1 or 2 of R419 are disabled, with event 0x6D0 (R411). -/
def State.trimAttributes (s : State) : State :=
  let es := (List.range 64).map (l2Entry s.reg)
  let dev := s.fld Adr.MEM_SPACE Fld.MEM_SPACE_dev_mib
  let meets (a b : Nat × Nat) : Bool := decide (a.1 < b.1 + b.2) && decide (b.1 < a.1 + a.2)
  let bad (p : L2Entry × Nat) : Bool := p.1.en && (p.1.size == 0 || decide (dev < p.1.base + p.1.size)
    || (p.1.lock && (meets (p.1.base, p.1.size) (256, 8)
      || es.zipIdx.any (fun q => q.2 != p.2 && q.1.en && meets (p.1.base, p.1.size) (q.1.base, q.1.size)))))
  let l := es.zipIdx.filter bad
  if l.isEmpty then s
  else (l.foldl (fun (s : State) p => s.setFlag (Adr.L2C_ATTR1 p.2) Fld.L2C_ATTR1_en false) s).event 0x6D0

/-- The Memory region runs again. A recovery restart tests DRAM, so that its content is lost and the patina is restored from its journal
(R411, R429, R445, R455). -/
def State.memoryRuns (s : State) : State :=
  let s1 :=
    if s.flag Adr.FLT_STATE Fld.FLT_STATE_recovering then
      let q := s.pat.queue
      let s0 := s.dramLost.patCut.patRestore
      { s0 with pat := { s0.pat with queue := q ++ s0.pat.queue } }
    else s
  let s2 := (s1.startMemory true).setEccMode (if s1.flt.escAt.isEmpty then 0 else 3)
  let s3 := if s2.flag Adr.MEM_STATUS Fld.MEM_STATUS_single then s2.trimAttributes else s2
  s3.setStaging

/-- The control cores run again: a command in flight is served again from its start, one that waits for what it has begun goes on waiting
(R439). passed has bit c for each failed core c that passes its test; fewer than 4 healthy cores are fatal (R450). -/
def State.controlRuns (s : State) (passed : Nat) : State :=
  let keeps (w : Wait) : Bool :=
    match w with
    | .asyncEvent => true
    | .nsDelete => true
    | .reconf _ _ => true
    | .load _ => true
    | .powerState => true
    | .withdraw => true
    | .launch _ _ => true
    | .fetched => true
    | _ => false
  let again (s : State) (x : Ctx) : State :=
    if keeps x.wait then s
    else ((s.dropJob x.assoc x.qid x.cid).dropWrite x.assoc x.qid x.cid).rerun x
  let sent (s : State) (x : Ctx) : Bool := match s.job x.assoc x.qid x.cid with | some j => decide (0 < j.sent) | none => false
  let s0 := s.host.ctxs.foldl (fun s x => if sent s x then s.endInternal x else s) s
  let s1 := s0.host.ctxs.foldl again s0
  let s2 := { s1 with flt := { s1.flt with failedCores := s1.flt.failedCores.filter (fun c => !bitOf passed c) } }
  if s2.healthyCores < 4 then (s2.eventIn 34 0x789).fatalActions else s2

/-- The blocks of region r start again (R439). -/
def State.runRegion (s : State) (r passed parked : Nat) : State :=
  let recovering := s.flag Adr.FLT_STATE Fld.FLT_STATE_recovering
  match r with
  | 1 =>
    let s1 := s.startMedia true passed
    if recovering then s1 else s1.preStart parked
  | 2 =>
    let s1 := s.startTime true
    let s2 := if s1.powered 3 then s1.moverRelease.moverClaim else s1
    s2.releaseLate s2.host.ctxs.length
  | 3 => s.endStopped3.startCompute true passed
  | 4 => s.endNetwork.startNetwork true
  | 5 => s.memoryRuns
  | 6 => s.controlRuns passed
  | _ => s

/-- After a restart that stopped a power state change the device is in PS0 (R471). -/
def State.backToPs0 (s : State) : State :=
  let r := Adr.PWR_STATE
  if s.fld r Fld.PWR_STATE_target = s.ps ∨ s.psMoving then s
  else
    let s1 := ((s.setFld r Fld.PWR_STATE_ps 0).setFld r Fld.PWR_STATE_target 0).powerRegions 0x7F
    if s1.spin = 0 then s1.spinCommand 1 none else if s1.spin = 6 then s1.loadHeads else s1

/-- The recovery restart goes on from step 5 of start-up: the journals restore trailing trusses and open courses (R238, R445). -/
def State.recoverMedia (s : State) (parked : Nat) : State :=
  (s.modMedia (fun m => { m with
    trailing := m.trailing.map (fun (t : Trail) => { t with stale := List.range 64 })
    courses := m.courses.map (fun (c : OpenCourse) => { c with closing := true }) })).startMediaStep parked

/-- REGION_RUNNING: region r runs again, accesses held for it are performed, and the next restart begins (R31, R439, R440). passed tells which
failed engines pass their tests, parked the park statuses. -/
def execRegionRunning (region : Fin 7) (passed parked : Nat) (s : State) : Res :=
  let r := region.val
  if !s.restarting r then .next s
  else
    let s1 := { s with flt := { s.flt with restarting := s.flt.restarting.filter (fun k => k != r), quietFrom := s.now } }
    let s2 := ((s1.setFlag (Adr.FLT_RST r) Fld.FLT_RST_restarting false).powerRegions
      (s1.fld Adr.PWR_REGION Fld.PWR_REGION_powered ||| 2 ^ r)).event 0x781
    let s3 := (s2.runRegion r passed parked).performHeldRegs.backToPs0
    match s3.flt.queued with
    | q :: l => .next ({ s3 with flt := { s3.flt with queued := l } }.startRestart q).settle
    | [] =>
      .next (if s3.flag Adr.FLT_STATE Fld.FLT_STATE_recovering then s3.recoverMedia parked else s3).settle

/-- REGION_RESTART_TIMEOUT: a region is not running 50 ms after its restart began: event 0x782, without a timer, and the fatal actions. The
region is off until it is restarted, and the accesses that waited for it end as such (R31, R439). -/
def execRegionRestartTimeout (region : Fin 7) (s : State) : Res :=
  let r := region.val
  if !s.restarting r then .next s
  else
    let s1 := { s with flt := { s.flt with restarting := s.flt.restarting.filter (fun k => k != r), queued := [] } }
    let on := s1.fld Adr.PWR_REGION Fld.PWR_REGION_powered
    let s2 := (s1.setFlag (Adr.FLT_RST r) Fld.FLT_RST_restarting false).powerRegions (on - on / 2 ^ r % 2 * 2 ^ r)
    .next ((((s2.noteEvent 0x782 .fatal 0 0 0).fatalActions).endHeldRegs r).endRegionWaits r).settle

/-! ## The quiet period (R444 to R446) -/

/-- The fault state ends: the ERR pair is normal, the recovery is counted (R444, R445). -/
def State.leaveFault (s : State) : State :=
  let s1 := (s.setFld Adr.FLT_STATE Fld.FLT_STATE_fault_state (if s.flt.escAt.isEmpty then 0 else 1)).signal false
  ((s1.bump 7).event 0x784).leaveRecoveryMode.healthChanged

/-- QUIET_PERIOD_EXPIRY: the quiet period has elapsed: a region fault ends; in the fatal state a recovery restart begins, or, after 3 within 24 h, the state is held. -/
def execQuietPeriodExpiry (s : State) : Res :=
  let f := Adr.FLT_STATE
  if s.faultState < 2 ∨ !s.flt.restarting.isEmpty ∨ s.flag f Fld.FLT_STATE_recovering ∨ s.flag f Fld.FLT_STATE_held
      ∨ s.now < s.flt.quietFrom + s.fld Adr.FLT_CTRL Fld.FLT_CTRL_quiet_s * 1000000000 then .next s
  else if s.faultState = 2 then .next s.leaveFault.settle
  else
    let recent := s.flt.recoveries.filter (fun t => decide (s.now < t + 86400000000000))
    if 3 ≤ recent.length then .next ((s.event 0x786).setFlag f Fld.FLT_STATE_held true)
    else
      let s1 := ((s.event 0x785).setFlag f Fld.FLT_STATE_recovering true).setFlag Adr.PLN_STATUS Fld.PLN_STATUS_ready false
      let s2 := { s1 with flt := { s1.flt with recoveries := recent ++ [s.now] } }
      .next (([1, 2, 3, 5, 6] : List Nat).foldl (fun (s : State) r => s.restartRegion r) s2).settle

/-- ERR_TEST_END: the ERR pair signals again what it stands for (R449). -/
def execErrTestEnd (s : State) : Res :=
  if s.flt.errTest then
    .next (({ s with flt := { s.flt with errTest := false } }.setFlag Adr.FLT_ERRTEST Fld.FLT_ERRTEST_busy false).event 0x787)
  else .next s

/-- CONTROL_CORE_FAIL: a core's tasks move; with fewer than 4 healthy cores the device is fatal (R22, R450). -/
def execControlCoreFail (core : Fin 16) (s : State) : Res :=
  if s.flt.failedCores.contains core.val then .next s
  else
    let b := 34 + core.val / 4
    let s1 := { s with flt := { s.flt with failedCores := s.flt.failedCores ++ [core.val] } }.eventIn b 0x788
    if s1.healthyCores = 3 then .next ((s1.eventIn b 0x789).fatalActions).settle else .next s1

/-! ## The patina (R454, R455) -/

/-- PATINA_STORE: an entry leaves the capture queue. -/
def execPatinaStore (s : State) : Res := .next s.patStore

/-- PATINA_JOURNAL_WRITE: the oldest stored entry not journalled is written to its slot, or its write fails. -/
def execPatinaJournalWrite (ok : Bool) (s : State) : Res := .next (s.patJournal ok)

end Sys2Proof.Machine
end

