-- ==== Sys2Proof/Machine/FuncRows.lean ====
section
/-! DEFINITION. Rows of functions that go on by themselves (R35, R36, R37, R40), and of accesses to a region that does not come back (R31). -/

namespace Sys2Proof.Machine

open Sys2Proof

/-- A waiting command ends with 91h: a Cast with its discard bit, a write with what has not reached the medium dropped. -/
def State.endStopped (s : State) (x : Ctx) : State :=
  match s.job x.assoc x.qid x.cid with
  | some j => s.castFail j .stopped
  | none => ((s.dropCmp x.assoc x.qid x.cid).dropWrite x.assoc x.qid x.cid).complete x .stopped

/-- A command waits for function k: one made to wait for it, a launch that is due (R219), a write with LBAs left on its actuator, a launched Cast not dispatched, a
command of an association on its port (R35). -/
def State.waitsFor (s : State) (k : Nat) (x : Ctx) : Bool :=
  let onAct := k < 8 && x.wait == .mediaWrite && s.media.writes.any (fun w =>
    w.assoc == x.assoc && w.qid == x.qid && w.cid == x.cid &&
    match s.spaceFor x.order w.ns with
    | some sp => (w.todo.filterMap (fun k => w.lbas[k]?)).any (fun l => match sp.mediaOf l with
      | some m => (s.actAt (s.writtenAt m)).val == k % 4
      | none => false)
    | none => false)
  let onPort := (k == 12 || k == 13) && x.wait != .asyncEvent && x.assoc != 1024 &&
    (match s.assoc x.assoc with | some y => y.port == k - 12 | none => false)
  x.instr.isSome && (x.wait == .func k || (k == 9 && s.isDue x) || onAct || ((k == 10 || k == 11) && x.wait == .castQueue) || onPort)

/-- FUNC_STOPPED: the drain of a stopping function is over; a held restart or abandon is performed (R36, R37). -/
def execFuncStopped (func : Nat) (s : State) : Res :=
  if func < 15 ∧ s.fstate func = 1 then .next ((s.enterStopped func).performHeld func).settle else .next s

/-- FUNC_COMMIT: a restarting function reaches its commit point; a port's link comes up in its new mode (R34, R35, R40). -/
def execFuncCommit (func : Nat) (s : State) : Res :=
  if func < 15 ∧ s.fstate func = 3 then
    let s1 := s.commitFunc func
    .next (if func = 12 ∨ func = 13 then s1.portUp (func - 12) else s1).settle
  else .next s

/-- A seek that is held while the servo function does not run is withdrawn with the commands that end at its pause bound (R148). -/
def State.withdrawSeek (s : State) (func : Nat) : State :=
  if 4 ≤ func ∧ func < 8 then s.modServo (actOf func) (fun x => { x with heldSeek := none }) else s

/-- The pause bound of a function in ns; no command waits for the spindle loop (R35). -/
def pauseBound (k : Nat) : Nat :=
  1000000 * (if k < 4 then 150 else if k < 8 then 10 else if k = 9 then 50 else if k < 12 then 20 else if k < 14 then 1000 else 5)

/-- The stop limit of a function in ns (R35). -/
def stopLimit (k : Nat) : Nat :=
  1000000000 * (if k < 4 then 10 else if k < 9 then 1 else if k < 12 then 10 else if k < 14 then 60 else 1)

/-- PAUSE_BOUND_EXPIRY: every command that has waited for a function that is not running for its pause bound completes with 91h (R35). -/
def execPauseBoundExpiry (func : Nat) (s : State) : Res :=
  if func < 15 ∧ s.fstate func ≠ 0 then
    let l := s.host.ctxs.filter (fun x => s.waitsFor func x && decide (max x.since (s.func func).since + pauseBound func ≤ s.now))
    if l.isEmpty then .next s
    else .next (((l.foldl (fun s x => s.endStopped x) s).withdrawSeek func).setFlag (Adr.FUNC_CTRL func) Fld.FUNC_CTRL_pause_exceeded true).settle
  else .next s

/-- STOP_LIMIT_EXPIRY: a function that has been stopped for its stop limit runs on its previous active settings (R35). -/
def execStopLimitExpiry (func : Nat) (s : State) : Res :=
  if func < 15 ∧ s.fstate func = 2 ∧ (s.func func).since + stopLimit func ≤ s.now then .next (s.revertNow func 0x7E0).settle else .next s

/-- REGION_ACCESS_TIMEOUT: accesses that waited 50 ms for a restarting region end as accesses to a region that is off, a Register Read or
Write with 91h (R31). -/
def execRegionAccessTimeout (region : Nat) (s : State) : Res :=
  if s.restarting region then .next ((s.endHeldRegs region).endRegionWaits region).settle else .next s

end Sys2Proof.Machine
end

