-- ==== Sys2Proof/Machine/Power.lean ====
section
/-! DEFINITION. Clocks, power states, resets, start-up and the package's monitors (R462 to R478, R508, R517, R518). -/

namespace Sys2Proof.Machine

open Sys2Proof

/-! ## Crystals, the real-time counter and PLLs (R462 to R465) -/

/-- XTAL32_VALID: the plinth changes from the RC oscillator to the crystal. -/
def execXtal32Valid (s : State) : Res :=
  if s.pln.porLow then .next s
  else .next ((s.setFlag Adr.CLK_STATUS Fld.CLK_STATUS_xtal32_ok true).setFlag Adr.PLN_STATUS Fld.PLN_STATUS_rc_mode false)

/-- XTAL32_STOP: the plinth changes to the RC oscillator. -/
def execXtal32Stop (s : State) : Res :=
  if !s.flag Adr.CLK_STATUS Fld.CLK_STATUS_xtal32_ok then .next s
  else
    .next (((s.setFlag Adr.CLK_STATUS Fld.CLK_STATUS_xtal32_ok false).setFlag Adr.PLN_STATUS Fld.PLN_STATUS_rc_mode true).event 0x004)

/-- XTAL32_TIMEOUT: the crystal is not running 1 s after POR_N release. -/
def execXtal32Timeout (s : State) : Res :=
  if s.pln.porLow || s.flag Adr.CLK_STATUS Fld.CLK_STATUS_xtal32_ok then .next s else .next (s.event 0x004)

/-- RTC_SET: at a whole second of a LOCKED or HOLDOVER time base the RTC takes that second. -/
def execRtcSet (s : State) : Res :=
  if s.powered 2 ∧ (s.tbState = 2 ∨ s.tbState = 3) then
    .next ((s.modPln (fun p => { p with rtcBase := s.tbNs / 1000000000 * 32768, rtcAt := s.now })).setFlag Adr.PLN_STATUS
      Fld.PLN_STATUS_rtc_valid true)
  else .next s

/-- The RTC value goes to NOR. -/
def State.saveRtc (s : State) : State := { s with nor := { s.nor with rtc := s.rtc } }

/-- RTC_SAVE. -/
def execRtcSave (s : State) : Res := .next (if s.pln.porLow then s else s.saveRtc)

/-- PLL_LOCK_TIMEOUT: PLL k is restarted once; a second time its region stays unpowered, with event 0x006 in its lowest block. -/
def execPllLockTimeout (k : Fin 6) (s : State) : Res :=
  let r := k.val + 1
  if !s.powered r then .next s
  else if !s.pln.pllRestarted.contains k.val then .next (s.modPln (fun p => { p with pllRestarted := p.pllRestarted ++ [k.val] }))
  else
    let c := Adr.CLK_STATUS
    let s1 := (s.setFld c Fld.CLK_STATUS_lock_fail (s.fld c Fld.CLK_STATUS_lock_fail ||| 2 ^ k.val)).powerRegions
      (s.fld Adr.PWR_REGION Fld.PWR_REGION_powered - 2 ^ r)
    .next (s1.eventIn (firstBlock r) 0x006)

/-- XTAL50_STABLE: the 50 MHz crystal is stable, and a start-up that waits for it goes on to step 2 (R464, R476). -/
def execXtal50Stable (late : Bool) (s : State) : Res :=
  if s.pln.porLow || s.flag Adr.CLK_STATUS Fld.CLK_STATUS_osc50_ok || (s.ps == 5 && s.pln.bootDue.isNone) then .next s
  else
    let s1 := s.setFlag Adr.CLK_STATUS Fld.CLK_STATUS_osc50_ok true
    match s1.pln.bootDue with
    | some b => .next ((s1.modPln (fun p => { p with bootDue := none })).startFromStep2 b late)
    | none => .next (if late then s1.event 0x005 else s1)

/-! ## Power states (R467 to R473) -/

/-- Commands that wait for the end of a power state change complete. -/
def State.powerDone (s : State) : State :=
  (s.host.ctxs.filter (fun x => x.wait == .powerState && x.late)).foldl (fun s x => s.complete x .ok) s

/-- The heads are unloaded and the spindle slews or stops, as a state below PS1 has them (R467, R469). -/
def State.lowerMedia (s : State) (ps : Nat) : State :=
  if ps < 2 then s
  else
    let s1 := (s.forActs (fun s a => if s.mode a = 0 then s else s.unloadFrame a)).forActs (fun s a => s.unloaded a)
    let s2 := if ps = 3 then s1.modSpn (fun p => { p with ref := 5400 * 3000 }) else if 4 ≤ ps ∧ s1.spin ≠ 0 then s1.setSpin 0 else s1
    s2.phaseCheck

/-- Media work of the present state is over: nothing runs, and for PS2 to PS5 no course is open and no truss trails (R469). -/
def State.entryReady (s : State) (ps : Nat) : Bool :=
  decide (ps < 2) || (s.media.courses.isEmpty && s.media.trailing.isEmpty && s.media.writes.isEmpty && s.cast.runs.isEmpty
    && s.cmp.isEmpty && !s.host.ctxs.any (fun y => y.wait == .mediaRead || y.wait == .recovery))

/-- A link that is up goes on in a mode (R330). -/
def State.retune (s : State) (p mode : Nat) : State :=
  if !s.flag (Adr.NET_STATUS p) Fld.NET_STATUS_link then s
  else (s.setFld (Adr.NET_STATUS p) Fld.NET_STATUS_mode_up mode).modHost (fun h =>
    { h with links := insertKey h.links p (linkOf mode (s.fld (Adr.NET_CFG p) Fld.NET_CFG_fec)) })

/-- The ports as PS4 has them: port 1 is off, and port 0 is at 25GBASE-KR (R331, R467). -/
def State.ps4Ports (s : State) : State := (s.portDown 1).retune 0 4

/-- The ports after PS4: port 0 goes on in its configured mode where it may have a link; port 1 comes up by its own event (R331). DESIGN CHOICE
(log entry 158): the change of mode takes no link loss. -/
def State.portsBack (s : State) : State :=
  if s.portUsable 0 then s.retune 0 (s.fld (Adr.NET_CFG 0) Fld.NET_CFG_mode)
  else if s.funcRunning 12 then s.portDown 0 else s.linkGone 0

/-- POWER_ENTRY_COMPLETE: the state is entered, PS4 first on the way to PS5; an exit that a command or a wake asked for begins (R469 to R472). -/
def execPowerEntryComplete (durationDs : Nat) (s : State) : Res :=
  let r := Adr.PWR_STATE
  let t := s.fld r Fld.PWR_STATE_target
  if !s.flag r Fld.PWR_STATE_entering || !s.entryReady t then .next s
  else
    let ps := if t = 5 then 4 else t
    let s1 := ((s.lowerMedia t).setFlag r Fld.PWR_STATE_entering false).setFld r Fld.PWR_STATE_ps ps
    let s2 := (s1.powerRegions (psRegions ps)).setFld Adr.PWR_LAT Fld.PWR_LAT_entry_ds (min durationDs 65535)
    let s2 := if ps = 4 then s2.ps4Ports else s2
    let s3 := ((s2.event 0x010 ps).phaseCheck.powerDone).modPln (fun p => { p with ps5Due := t == 5 })
    .next (if s3.pln.exitDue then s3.startExit else s3).settle

/-- POWER_EXIT_COMPLETE: the state is reached and media service resumes, once no approach runs or is due (R216, R469). -/
def execPowerExitComplete (durationDs : Nat) (s : State) : Res :=
  let r := Adr.PWR_STATE
  if !s.flag r Fld.PWR_STATE_exiting || s.phase == 2 || s.time.approachDue then .next s
  else
    let t := s.fld r Fld.PWR_STATE_target
    let s1 := ((s.setFlag r Fld.PWR_STATE_exiting false).setFld r Fld.PWR_STATE_ps t).setFld Adr.PWR_LAT Fld.PWR_LAT_exit_ds
      (min durationDs 65535)
    let s1 := if s.ps = 4 then s1.portsBack else s1
    .next ((s1.event 0x010 t).powerDone).settle

/-- PS5_POWER_OFF: 100 ms after PS4: the RTC is saved, every association ends, every region but the Plinth is off, the 50 MHz crystal
stops (R463, R471). -/
def execPs5PowerOff (s : State) : Res :=
  if s.ps ≠ 4 ∨ !s.pln.ps5Due ∨ s.psMoving then .next s
  else
    let s1 := (s.host.assocs.foldl (fun s p => s.endAssoc p.1) (s.event 0x010 5)).saveRtc
    let r := Adr.PWR_STATE
    let s2 := ((s1.resetRegions).setFld r Fld.PWR_STATE_ps 5).setFld r Fld.PWR_STATE_target 5
    .next (s2.setFlag Adr.CLK_STATUS Fld.CLK_STATUS_osc50_ok false)

/-- WAKE_N_ASSERT: WAKE_N has been low for 4 samples; it wakes from PS2 to PS5 where it is enabled and has risen since it last did (R472). -/
def execWakeNAssert (boot : Boot) (s : State) : Res :=
  if s.ps < 2 ∨ !s.pln.wakeArmed ∨ !s.flag Adr.PLN_WAKECFG Fld.PLN_WAKECFG_wake_n_en then .next s
  else .next ((s.modPln (fun p => { p with wakeArmed := false })).wakeEvent Fld.PLN_WAKE_wake_n boot)

/-- WAKE_N_RELEASE (R472). -/
def execWakeNRelease (s : State) : Res := .next (s.modPln (fun p => { p with wakeArmed := true }))

/-- The wake alarm time is reached: on the RTC in PS5 and while the claim of its comparator stands refused, else on the time base (R473). -/
def State.wakeDue (s : State) : Bool :=
  s.wakeTime != 0 && decide (s.wakeTime ≤ if s.ps = 5 ∨ s.flag Adr.PLN_WAKECFG Fld.PLN_WAKECFG_alm_fallback then s.rtcTb / 65536 else s.tbNs)

/-- WAKE_ALARM_FIRE: the wake alarm fires once (R473). -/
def execWakeAlarmFire (boot : Boot) (s : State) : Res :=
  if !s.wakeDue ∨ s.pln.porLow then .next s
  else if s.ps = 5 then
    let s1 := (s.setReg Adr.PLN_WALM_LO 0).setReg Adr.PLN_WALM_HI 0
    .next (if s.flag Adr.PLN_WAKECFG Fld.PLN_WAKECFG_alarm_en then s1.wakeEvent Fld.PLN_WAKE_alarm boot
      else s1.setFlag Adr.PLN_WAKE Fld.PLN_WAKE_alarm true)
  else .next s.alarmWake

/-! ## Resets and start-up (R474 to R478, R490) -/

/-- Start-up from step 2, once the 50 MHz crystal runs (R464). -/
def State.startWhenStable (s : State) (b : Boot) : State :=
  if s.flag Adr.CLK_STATUS Fld.CLK_STATUS_osc50_ok then s.startFromStep2 b else s.modPln (fun p => { p with bootDue := some b })

/-- POR_RELEASE. -/
def execPorRelease (boot : Boot) (s : State) : Res := .next (if s.pln.porLow then s.startFromStep1 boot else s)

/-- POR_ASSERT. -/
def execPorAssert (s : State) : Res := .next s.powerOnReset

/-- PWR_GOOD_FALL. -/
def execPwrGoodFall (s : State) : Res := .next (if s.pln.porLow || s.pln.supplyLost then s else s.supplyLoss)

/-- SUPPLY_RESET_RELEASE. -/
def execSupplyResetRelease (boot : Boot) (s : State) : Res :=
  .next (if s.pln.supplyLost then (s.modPln (fun p => { p with supplyLost := false })).startWhenStable boot else s)

/-- JTAG_RESET: the JTAG logic only. -/
def execJtagReset (s : State) : Res := .next (s.modPln (fun p => { p with jtagReset := true }))

/-- COLD_START_HOLD_END: every sensor has reached 0 degrees and start-up goes on with step 3 (R518). -/
def execColdStartHoldEnd (boot : Boot) (s : State) : Res :=
  .next (if s.pln.coldHold then (s.modPln (fun p => { p with coldHold := false })).startFromStep3 boot else s)

/-- Spin-up was refused, so that the device starts without media (R183, R185, R477). -/
def State.spinUpRefused (s : State) : Bool := s.spin == 0 && s.fld Adr.SPN_PRESTART Fld.SPN_PRESTART_result == 3

/-- The trial slot becomes active, the former active slot valid (R490). -/
def State.confirmTrial (s : State) : State :=
  match ([0, 1] : List Nat).find? (fun k => (s.nor.slot k).state == 3) with
  | some k =>
    let s1 := (s.modSlot (1 - k) (fun x => if x.state = 4 then { x with state := 2 } else x)).modSlot k (fun x => { x with state := 4 })
    { s1 with nor := { s1.nor with prevActive := none } }.syncSlots
  | none => s

/-- The calibration of step 8; a device that starts without media makes none (R476, R477). -/
def State.calibrate (s : State) (cal : List HeadCal) : State := if s.spinUpRefused then s else cal.foldl State.calibrateHead s

/-- DEVICE_READY: steps 6 to 9 are over, the calibration of step 8 with them, or spin-up was refused; a recovery restart ends with it
(R445, R476, R477, R490). -/
def execDeviceReady (cal : List HeadCal) (s : State) : Res :=
  let p := Adr.PLN_STATUS
  let recovering := s.flag Adr.FLT_STATE Fld.FLT_STATE_recovering
  if s.flag p Fld.PLN_STATUS_ready || decide (s.fld p Fld.PLN_STATUS_step < 5) || (s.faultState == 3 && !recovering)
      || !(s.atSpeed || s.spinUpRefused) || !s.flt.restarting.isEmpty then .next s
  else
    let s1 := ((s.calibrate cal).setStep 9).setFlag p Fld.PLN_STATUS_ready true
    let s2 := (if s.spinUpRefused then (s1.modPln (fun q => { q with noMedia := true })).event 0x031 else s1.event 0x030).confirmTrial
    let s3 := if s.spinUpRefused then s2 else s2.formatIfDue
    if recovering then
      let f := Adr.FLT_STATE
      let s4 := ((s3.setFlag f Fld.FLT_STATE_recovering false).setFld f Fld.FLT_STATE_fault_state
        (if s3.flt.escAt.isEmpty then 0 else 1)).signal false
      .next (((s4.bump 7).event 0x784).leaveRecoveryMode.healthChanged).settle
    else .next s3.settle

/-- NOR_COUNTER_INCREMENT: a counter's new record is written, or its write fails and the counter goes on in DRAM; for counter 0 the row is
its hour (R478). -/
def execNorCounterIncrement (c : Fin 9) (ok : Bool) (s : State) : Res :=
  let s1 := if c.val = 0 then s.bump 0 else s
  let s2 := { s1 with nor := s1.nor.counterWrite c ok }
  .next (if ok then s2 else s2.event 0x021)

/-! ## Supplies and temperatures (R508, R517, R518) -/

/-- SUPPLY_OUT_OF_LIMITS: a rail lies outside its limits for 1 µs (R508). -/
def execSupplyOutOfLimits (core sram : Bool) (s : State) : Res :=
  let r := Adr.PIN_SUPPLY
  let m := b2n core + 2 * b2n sram
  let s1 := (s.setFld r Fld.PIN_SUPPLY_now m).setFld r Fld.PIN_SUPPLY_seen (s.fld r Fld.PIN_SUPPLY_seen ||| m)
  .next (if m = 0 then s1 else s1.fatalEvent 0 0x0F2)

/-- Set the readings of the sensors, in 1/16 degree; one in an unpowered region has none. -/
def State.setTemps (s : State) (temps : List Int) : State :=
  let val (k : Nat) : Option Int := if s.powered (sensorRegion k) then temps[k]? else none
  (List.range 8).foldl (fun (s : State) k =>
    s.setFld (Adr.PIN_TEMPS k) Fld.PIN_TEMPS_temp (match val k with | some t => unsigned 16 t | none => 0x8000)) s

/-- The readings the sensors show, the lowest for none. -/
def State.temps (s : State) : List Int := (List.range 8).map (fun k => signed 16 (s.fld (Adr.PIN_TEMPS k) Fld.PIN_TEMPS_temp))

/-- OVERTEMP_FATAL: a sensor has read 120 degrees or more for 1 ms; temp in 1/16 degree (R518). -/
def execOvertempFatal (sensor : Fin 8) (temp : Int) (s : State) : Res :=
  if temp < 1920 ∨ 32767 < temp ∨ !s.powered (sensorRegion sensor) then .next s
  else .next ((s.setTemps (s.temps.set sensor temp)).fatalEvent 0 0x0F1)

/-- TEMPERATURE_THRESHOLD_CROSSED: the sensors give new readings; a critical warning that begins is told to every association that asked for
it (R392, R517, R518). -/
def execTemperatureThresholdCrossed (temps : List Int) (s : State) : Res :=
  let s1 := s.setTemps temps
  if s1.tempWarning = s.tempWarning then .next s1
  else
    let s2 := s1.healthChanged
    if !s2.tempWarning then .next s2
    else
      .next (s2.host.assocs.foldl (fun s p => if p.2.aec.getLsbD 1 then s.notice p.1 (1 + 256 + 65536 * 2) else s) s2)

end Sys2Proof.Machine
end

