-- ==== Sys2Proof/Machine/Dispatch.lean ====
section
/-! DEFINITION. One arm per command of the table: the direct call of its meaning. -/

namespace Sys2Proof.Machine

open Sys2Proof

/-- The effect of a command on everything but the queue. -/
def exec (i : Instr) (s : State) : Host.Outcome State Fault Refusal :=
  match i with
  | .plainRegisterWrite x0 x1 x2 x3 x4 => Sys2Proof.Machine.execPlainRegisterWrite x0 x1 x2 x3 x4 s
  | .lowWordRead x0 x1 => Sys2Proof.Machine.execLowWordRead x0 x1 s
  | .clearOnRead x0 x1 => Sys2Proof.Machine.execClearOnRead x0 x1 s
  | .regionAccessTimeout x0 => Sys2Proof.Machine.execRegionAccessTimeout x0 s
  | .funcStop x0 x1 => Sys2Proof.Machine.execFuncStop x0 x1 s
  | .funcRestart x0 x1 => Sys2Proof.Machine.execFuncRestart x0 x1 s
  | .funcAbandon x0 x1 => Sys2Proof.Machine.execFuncAbandon x0 x1 s
  | .funcStopped x0 => Sys2Proof.Machine.execFuncStopped x0 s
  | .funcCommit x0 => Sys2Proof.Machine.execFuncCommit x0 s
  | .pauseBoundExpiry x0 => Sys2Proof.Machine.execPauseBoundExpiry x0 s
  | .stopLimitExpiry x0 => Sys2Proof.Machine.execStopLimitExpiry x0 s
  | .cfgStore x0 => Sys2Proof.Machine.execCfgStore x0 s
  | .cfgCapture x0 x1 => Sys2Proof.Machine.execCfgCapture x0 x1 s
  | .cfgRemove x0 => Sys2Proof.Machine.execCfgRemove x0 s
  | .cfgStoreDone x0 => Sys2Proof.Machine.execCfgStoreDone x0 s
  | .preampFault x0 => Sys2Proof.Machine.execPreampFault x0 s
  | .preampFaultClear x0 => Sys2Proof.Machine.execPreampFaultClear x0 s
  | .pfltPersistTimeout x0 => Sys2Proof.Machine.execPfltPersistTimeout x0 s
  | .pscFrameGo x0 x1 x2 => Sys2Proof.Machine.execPscFrameGo x0 x1 x2 s
  | .pscFrameDone x0 x1 => Sys2Proof.Machine.execPscFrameDone x0 x1 s
  | .clockAcquired x0 => Sys2Proof.Machine.execClockAcquired x0 s
  | .holdTimeout x0 => Sys2Proof.Machine.execHoldTimeout x0 s
  | .clockLostTimeout x0 => Sys2Proof.Machine.execClockLostTimeout x0 s
  | .rafterSyncCheck x0 x1 => Sys2Proof.Machine.execRafterSyncCheck x0 x1 s
  | .rafterAccepted x0 x1 x2 x3 x4 => Sys2Proof.Machine.execRafterAccepted x0 x1 x2 x3 x4 s
  | .burstPhaseCheck x0 x1 => Sys2Proof.Machine.execBurstPhaseCheck x0 x1 s
  | .rafterLost x0 x1 => Sys2Proof.Machine.execRafterLost x0 x1 s
  | .reacqCheck x0 x1 => Sys2Proof.Machine.execReacqCheck x0 x1 s
  | .servoSample x0 x1 x2 x3 x4 => Sys2Proof.Machine.execServoSample x0 x1 x2 x3 x4 s
  | .battenGainStep x0 => Sys2Proof.Machine.execBattenGainStep x0 s
  | .invalidWindowEnd x0 => Sys2Proof.Machine.execInvalidWindowEnd x0 s
  | .settled x0 => Sys2Proof.Machine.execSettled x0 s
  | .followingErrorTrip x0 => Sys2Proof.Machine.execFollowingErrorTrip x0 s
  | .oscillationTrip x0 => Sys2Proof.Machine.execOscillationTrip x0 s
  | .isnsMismatch x0 => Sys2Proof.Machine.execIsnsMismatch x0 s
  | .rvSensorDrop x0 x1 => Sys2Proof.Machine.execRvSensorDrop x0 x1 s
  | .seekRequest x0 x1 => Sys2Proof.Machine.execSeekRequest x0 x1 s
  | .seekHandover x0 => Sys2Proof.Machine.execSeekHandover x0 s
  | .reidentTimeout x0 => Sys2Proof.Machine.execReidentTimeout x0 s
  | .loopEngineFault x0 => Sys2Proof.Machine.execLoopEngineFault x0 s
  | .microword x0 x1 x2 => Sys2Proof.Machine.execMicroword x0 x1 x2 s
  | .sequencerAbortRequest x0 => Sys2Proof.Machine.execSequencerAbortRequest x0 s
  | .sequencerInterruptRequest x0 => Sys2Proof.Machine.execSequencerInterruptRequest x0 s
  | .waitLimitExpiry x0 => Sys2Proof.Machine.execWaitLimitExpiry x0 s
  | .abortPointMonitor x0 => Sys2Proof.Machine.execAbortPointMonitor x0 s
  | .leadFault x0 => Sys2Proof.Machine.execLeadFault x0 s
  | .followFault x0 => Sys2Proof.Machine.execFollowFault x0 s
  | .syncDecided x0 x1 x2 => Sys2Proof.Machine.execSyncDecided x0 x1 x2 s
  | .fragmentDone x0 => Sys2Proof.Machine.execFragmentDone x0 s
  | .partDone x0 x1 => Sys2Proof.Machine.execPartDone x0 x1 s
  | .sectorDecoded x0 x1 x2 x3 => Sys2Proof.Machine.execSectorDecoded x0 x1 x2 x3 s
  | .ldpcNoConvergence x0 x1 => Sys2Proof.Machine.execLdpcNoConvergence x0 x1 s
  | .pwmPeriod x0 x1 x2 => Sys2Proof.Machine.execPwmPeriod x0 x1 x2 s
  | .overcurrentCoast => Sys2Proof.Machine.execOvercurrentCoast s
  | .fwFloor => Sys2Proof.Machine.execFwFloor s
  | .vbusRead x0 => Sys2Proof.Machine.execVbusRead x0 s
  | .spindleEngineFault x0 => Sys2Proof.Machine.execSpindleEngineFault x0 s
  | .atSpeed => Sys2Proof.Machine.execAtSpeed s
  | .spindleStart x0 x1 x2 => Sys2Proof.Machine.execSpindleStart x0 x1 x2 s
  | .spindleStop x0 x1 => Sys2Proof.Machine.execSpindleStop x0 x1 s
  | .spindleCoast x0 x1 => Sys2Proof.Machine.execSpindleCoast x0 x1 s
  | .parkRetractWaitEnd x0 => Sys2Proof.Machine.execParkRetractWaitEnd x0 s
  | .rockPairDone x0 => Sys2Proof.Machine.execRockPairDone x0 s
  | .prestartSensingDone x0 x1 => Sys2Proof.Machine.execPrestartSensingDone x0 x1 s
  | .brakeHoldEnd => Sys2Proof.Machine.execBrakeHoldEnd s
  | .positionSensingDone x0 => Sys2Proof.Machine.execPositionSensingDone x0 s
  | .startHandover => Sys2Proof.Machine.execStartHandover s
  | .handoverTimeout => Sys2Proof.Machine.execHandoverTimeout s
  | .spindownBrakeChange => Sys2Proof.Machine.execSpindownBrakeChange s
  | .isnsCal x0 x1 => Sys2Proof.Machine.execIsnsCal x0 x1 s
  | .isnsCalDone x0 => Sys2Proof.Machine.execIsnsCalDone x0 s
  | .isnsGainWrite x0 x1 => Sys2Proof.Machine.execIsnsGainWrite x0 x1 s
  | .retractInputChange x0 x1 => Sys2Proof.Machine.execRetractInputChange x0 x1 s
  | .retractDiscrepancy => Sys2Proof.Machine.execRetractDiscrepancy s
  | .retractRearm => Sys2Proof.Machine.execRetractRearm s
  | .retractWaitTimeout x0 x1 x2 => Sys2Proof.Machine.execRetractWaitTimeout x0 x1 x2 s
  | .ptpAnnounce x0 x1 => Sys2Proof.Machine.execPtpAnnounce x0 x1 s
  | .ptpSync x0 x1 x2 x3 x4 => Sys2Proof.Machine.execPtpSync x0 x1 x2 x3 x4 s
  | .ptpFollowUp x0 x1 x2 x3 => Sys2Proof.Machine.execPtpFollowUp x0 x1 x2 x3 s
  | .ptpDelayResp x0 x1 x2 x3 => Sys2Proof.Machine.execPtpDelayResp x0 x1 x2 x3 s
  | .gerynMarker => Sys2Proof.Machine.execGerynMarker s
  | .gerynWord x0 => Sys2Proof.Machine.execGerynWord x0 s
  | .gerynMarkerMissing => Sys2Proof.Machine.execGerynMarkerMissing s
  | .holdoverExpiry => Sys2Proof.Machine.execHoldoverExpiry s
  | .glkClaim x0 => Sys2Proof.Machine.execGlkClaim x0 s
  | .glkRelease x0 => Sys2Proof.Machine.execGlkRelease x0 s
  | .dbgTrcClaim x0 x1 => Sys2Proof.Machine.execDbgTrcClaim x0 x1 s
  | .dbgTrcRelease x0 => Sys2Proof.Machine.execDbgTrcRelease x0 s
  | .phaseMeasurement x0 x1 => Sys2Proof.Machine.execPhaseMeasurement x0 x1 s
  | .phaseMeasurementTimeout => Sys2Proof.Machine.execPhaseMeasurementTimeout s
  | .approachRequest x0 => Sys2Proof.Machine.execApproachRequest x0 s
  | .approachEnd => Sys2Proof.Machine.execApproachEnd s
  | .launchRelease x0 x1 x2 => Sys2Proof.Machine.execLaunchRelease x0 x1 x2 s
  | .class0BoundMiss x0 x1 x2 x3 => Sys2Proof.Machine.execClass0BoundMiss x0 x1 x2 x3 s
  | .alarmClaim x0 x1 x2 => Sys2Proof.Machine.execAlarmClaim x0 x1 x2 s
  | .alarmRelease x0 x1 => Sys2Proof.Machine.execAlarmRelease x0 x1 s
  | .alarmFire x0 => Sys2Proof.Machine.execAlarmFire x0 s
  | .courseRecovery x0 x1 => Sys2Proof.Machine.execCourseRecovery x0 x1 s
  | .readRetry x0 x1 => Sys2Proof.Machine.execReadRetry x0 x1 s
  | .trussRecovery x0 x1 => Sys2Proof.Machine.execTrussRecovery x0 x1 s
  | .recoveryLimitExpiry x0 x1 x2 => Sys2Proof.Machine.execRecoveryLimitExpiry x0 x1 x2 s
  | .unavailReconstruct x0 x1 x2 => Sys2Proof.Machine.execUnavailReconstruct x0 x1 x2 s
  | .recoveredRewrite x0 x1 => Sys2Proof.Machine.execRecoveredRewrite x0 x1 s
  | .writeRetry x0 x1 => Sys2Proof.Machine.execWriteRetry x0 x1 s
  | .courseOpenTimeout x0 x1 x2 => Sys2Proof.Machine.execCourseOpenTimeout x0 x1 x2 s
  | .courseCloseDone x0 x1 x2 x3 => Sys2Proof.Machine.execCourseCloseDone x0 x1 x2 x3 s
  | .trailTimeout x0 => Sys2Proof.Machine.execTrailTimeout x0 s
  | .trussParityWritten x0 => Sys2Proof.Machine.execTrussParityWritten x0 s
  | .rebuildUnit => Sys2Proof.Machine.execRebuildUnit s
  | .scanSector x0 x1 x2 x3 x4 => Sys2Proof.Machine.execScanSector x0 x1 x2 x3 x4 s
  | .mouldWrite x0 => Sys2Proof.Machine.execMouldWrite x0 s
  | .mouldCommit x0 => Sys2Proof.Machine.execMouldCommit x0 s
  | .mouldWithdrawDone x0 x1 x2 => Sys2Proof.Machine.execMouldWithdrawDone x0 x1 x2 s
  | .cast x0 => Sys2Proof.Machine.execCast x0 s
  | .castDispatch => Sys2Proof.Machine.execCastDispatch s
  | .pourDone x0 => Sys2Proof.Machine.execPourDone x0 s
  | .castComplete x0 x1 x2 => Sys2Proof.Machine.execCastComplete x0 x1 x2 s
  | .castEngineFault x0 => Sys2Proof.Machine.execCastEngineFault x0 s
  | .stagingClaim x0 x1 => Sys2Proof.Machine.execStagingClaim x0 x1 s
  | .stagingRelease x0 x1 => Sys2Proof.Machine.execStagingRelease x0 x1 s
  | .move x0 x1 => Sys2Proof.Machine.execMove x0 x1 s
  | .loop x0 => Sys2Proof.Machine.execLoop x0 s
  | .wait x0 => Sys2Proof.Machine.execWait x0 s
  | .signal x0 => Sys2Proof.Machine.execSignal x0 s
  | .waitEnd x0 => Sys2Proof.Machine.execWaitEnd x0 s
  | .recipeWaitTimeout x0 => Sys2Proof.Machine.execRecipeWaitTimeout x0 s
  | .pacingResume x0 => Sys2Proof.Machine.execPacingResume x0 s
  | .programLineArrive x0 x1 => Sys2Proof.Machine.execProgramLineArrive x0 x1 s
  | .compressionJobStart => Sys2Proof.Machine.execCompressionJobStart s
  | .compressionJobDone x0 => Sys2Proof.Machine.execCompressionJobDone x0 s
  | .decompressError x0 => Sys2Proof.Machine.execDecompressError x0 s
  | .verifierMismatch x0 => Sys2Proof.Machine.execVerifierMismatch x0 s
  | .verifierDisable x0 => Sys2Proof.Machine.execVerifierDisable x0 s
  | .verifiedUnitWaitTimeout x0 x1 x2 => Sys2Proof.Machine.execVerifiedUnitWaitTimeout x0 x1 x2 s
  | .linkUp x0 => Sys2Proof.Machine.execLinkUp x0 s
  | .linkDown x0 => Sys2Proof.Machine.execLinkDown x0 s
  | .linkLossTimeout x0 => Sys2Proof.Machine.execLinkLossTimeout x0 s
  | .portFault x0 => Sys2Proof.Machine.execPortFault x0 s
  | .frameReceive x0 x1 => Sys2Proof.Machine.execFrameReceive x0 x1 s
  | .tcpConnect x0 x1 x2 x3 => Sys2Proof.Machine.execTcpConnect x0 x1 x2 x3 s
  | .connectionClose x0 => Sys2Proof.Machine.execConnectionClose x0 s
  | .icreq x0 x1 x2 x3 x4 => Sys2Proof.Machine.execIcreq x0 x1 x2 x3 x4 s
  | .capsuleReceive x0 x1 x2 x3 x4 x5 => Sys2Proof.Machine.execCapsuleReceive x0 x1 x2 x3 x4 x5 s
  | .h2cData x0 x1 x2 x3 => Sys2Proof.Machine.execH2cData x0 x1 x2 x3 s
  | .refusedConnectionTimeout x0 => Sys2Proof.Machine.execRefusedConnectionTimeout x0 s
  | .keepAliveExpiry x0 => Sys2Proof.Machine.execKeepAliveExpiry x0 s
  | .sqTailDoorbell x0 x1 x2 => Sys2Proof.Machine.execSqTailDoorbell x0 x1 x2 s
  | .controllerEnable x0 => Sys2Proof.Machine.execControllerEnable x0 s
  | .controllerDisable => Sys2Proof.Machine.execControllerDisable s
  | .pcieEnWrite x0 x1 => Sys2Proof.Machine.execPcieEnWrite x0 x1 s
  | .perstAssert => Sys2Proof.Machine.execPerstAssert s
  | .perstRise x0 => Sys2Proof.Machine.execPerstRise x0 s
  | .functionLevelReset x0 => Sys2Proof.Machine.execFunctionLevelReset x0 s
  | .readNvmeMiDataStructure x0 x1 x2 => Sys2Proof.Machine.execReadNvmeMiDataStructure x0 x1 x2 s
  | .subsystemHealthStatusPoll x0 x1 => Sys2Proof.Machine.execSubsystemHealthStatusPoll x0 x1 s
  | .controllerHealthStatusPoll x0 x1 => Sys2Proof.Machine.execControllerHealthStatusPoll x0 x1 s
  | .configurationGet x0 x1 => Sys2Proof.Machine.execConfigurationGet x0 x1 s
  | .configurationSet x0 x1 x2 => Sys2Proof.Machine.execConfigurationSet x0 x1 x2 s
  | .vpdRead x0 x1 x2 => Sys2Proof.Machine.execVpdRead x0 x1 x2 s
  | .miTunnelledAdmin x0 x1 x2 => Sys2Proof.Machine.execMiTunnelledAdmin x0 x1 x2 s
  | .egressShareRecompute => Sys2Proof.Machine.execEgressShareRecompute s
  | .commandFetch => Sys2Proof.Machine.execCommandFetch s
  | .leaseExpiry => Sys2Proof.Machine.execLeaseExpiry s
  | .successorWindowLapse => Sys2Proof.Machine.execSuccessorWindowLapse s
  | .rangeLockGrant x0 x1 x2 => Sys2Proof.Machine.execRangeLockGrant x0 x1 x2 s
  | .trailingBufferSpace x0 x1 x2 => Sys2Proof.Machine.execTrailingBufferSpace x0 x1 x2 s
  | .deleteIoSubmissionQueue x0 => Sys2Proof.Machine.execDeleteIoSubmissionQueue x0 s
  | .createIoSubmissionQueue x0 => Sys2Proof.Machine.execCreateIoSubmissionQueue x0 s
  | .getLogPage x0 => Sys2Proof.Machine.execGetLogPage x0 s
  | .deleteIoCompletionQueue x0 => Sys2Proof.Machine.execDeleteIoCompletionQueue x0 s
  | .createIoCompletionQueue x0 => Sys2Proof.Machine.execCreateIoCompletionQueue x0 s
  | .identify x0 => Sys2Proof.Machine.execIdentify x0 s
  | .abort x0 => Sys2Proof.Machine.execAbort x0 s
  | .setFeatures x0 => Sys2Proof.Machine.execSetFeatures x0 s
  | .getFeatures x0 => Sys2Proof.Machine.execGetFeatures x0 s
  | .asynchronousEventRequest x0 => Sys2Proof.Machine.execAsynchronousEventRequest x0 s
  | .namespaceManagement x0 => Sys2Proof.Machine.execNamespaceManagement x0 s
  | .namespaceDeleteDone x0 x1 x2 => Sys2Proof.Machine.execNamespaceDeleteDone x0 x1 x2 s
  | .firmwareCommit x0 => Sys2Proof.Machine.execFirmwareCommit x0 s
  | .firmwareImageDownload x0 => Sys2Proof.Machine.execFirmwareImageDownload x0 s
  | .namespaceAttachment x0 => Sys2Proof.Machine.execNamespaceAttachment x0 s
  | .keepAlive x0 => Sys2Proof.Machine.execKeepAlive x0 s
  | .fabricsConnect x0 => Sys2Proof.Machine.execFabricsConnect x0 s
  | .propertyGet x0 => Sys2Proof.Machine.execPropertyGet x0 s
  | .propertySet x0 => Sys2Proof.Machine.execPropertySet x0 s
  | .authenticationSend x0 => Sys2Proof.Machine.execAuthenticationSend x0 s
  | .authenticationReceive x0 => Sys2Proof.Machine.execAuthenticationReceive x0 s
  | .claimOwnership x0 => Sys2Proof.Machine.execClaimOwnership x0 s
  | .yieldOwnership x0 => Sys2Proof.Machine.execYieldOwnership x0 s
  | .loadContentKey x0 => Sys2Proof.Machine.execLoadContentKey x0 s
  | .loadCastProfile x0 => Sys2Proof.Machine.execLoadCastProfile x0 s
  | .loadRecipe x0 => Sys2Proof.Machine.execLoadRecipe x0 s
  | .readPatina x0 => Sys2Proof.Machine.execReadPatina x0 s
  | .clearPatina x0 => Sys2Proof.Machine.execClearPatina x0 s
  | .registerWrite x0 => Sys2Proof.Machine.execRegisterWrite x0 s
  | .registerRead x0 => Sys2Proof.Machine.execRegisterRead x0 s
  | .reconfigureFunction x0 => Sys2Proof.Machine.execReconfigureFunction x0 s
  | .constellationStatus x0 => Sys2Proof.Machine.execConstellationStatus x0 s
  | .flush x0 => Sys2Proof.Machine.execFlush x0 s
  | .write x0 => Sys2Proof.Machine.execWrite x0 s
  | .read x0 => Sys2Proof.Machine.execRead x0 s
  | .writeZeroes x0 => Sys2Proof.Machine.execWriteZeroes x0 s
  | .datasetManagement x0 => Sys2Proof.Machine.execDatasetManagement x0 s
  | .timedRead x0 => Sys2Proof.Machine.execTimedRead x0 s
  | .transform x0 => Sys2Proof.Machine.execTransform x0 s
  | .mediaWriteDone x0 x1 x2 => Sys2Proof.Machine.execMediaWriteDone x0 x1 x2 s
  | .eccCorrected x0 x1 => Sys2Proof.Machine.execEccCorrected x0 x1 s
  | .bucketLeak => Sys2Proof.Machine.execBucketLeak s
  | .targetedScrub x0 => Sys2Proof.Machine.execTargetedScrub x0 s
  | .eccUncorrectable x0 x1 x2 => Sys2Proof.Machine.execEccUncorrectable x0 x1 x2 s
  | .checkLineWriteback x0 x1 => Sys2Proof.Machine.execCheckLineWriteback x0 x1 s
  | .scrubGroup x0 x1 => Sys2Proof.Machine.execScrubGroup x0 x1 s
  | .dramChannelFail x0 => Sys2Proof.Machine.execDramChannelFail x0 s
  | .eccModeWrite x0 x1 => Sys2Proof.Machine.execEccModeWrite x0 x1 s
  | .eccInjArm x0 x1 => Sys2Proof.Machine.execEccInjArm x0 x1 s
  | .eccInject => Sys2Proof.Machine.execEccInject s
  | .pageRetire x0 x1 x2 => Sys2Proof.Machine.execPageRetire x0 x1 x2 s
  | .faultEvent x0 x1 x2 x3 => Sys2Proof.Machine.execFaultEvent x0 x1 x2 x3 s
  | .escalationExpiry x0 => Sys2Proof.Machine.execEscalationExpiry x0 s
  | .fltAckHandled x0 => Sys2Proof.Machine.execFltAckHandled x0 s
  | .fltAckRestart x0 => Sys2Proof.Machine.execFltAckRestart x0 s
  | .fltAckFatal x0 => Sys2Proof.Machine.execFltAckFatal x0 s
  | .regionRunning x0 x1 x2 => Sys2Proof.Machine.execRegionRunning x0 x1 x2 s
  | .regionRestartTimeout x0 => Sys2Proof.Machine.execRegionRestartTimeout x0 s
  | .quietPeriodExpiry => Sys2Proof.Machine.execQuietPeriodExpiry s
  | .errTest x0 x1 => Sys2Proof.Machine.execErrTest x0 x1 s
  | .errTestEnd => Sys2Proof.Machine.execErrTestEnd s
  | .controlCoreFail x0 => Sys2Proof.Machine.execControlCoreFail x0 s
  | .patinaStore => Sys2Proof.Machine.execPatinaStore s
  | .patinaJournalWrite x0 => Sys2Proof.Machine.execPatinaJournalWrite x0 s
  | .patinaLock x0 => Sys2Proof.Machine.execPatinaLock x0 s
  | .xtal32Valid => Sys2Proof.Machine.execXtal32Valid s
  | .xtal32Stop => Sys2Proof.Machine.execXtal32Stop s
  | .xtal32Timeout => Sys2Proof.Machine.execXtal32Timeout s
  | .rtcSet => Sys2Proof.Machine.execRtcSet s
  | .rtcSave => Sys2Proof.Machine.execRtcSave s
  | .pllLockTimeout x0 => Sys2Proof.Machine.execPllLockTimeout x0 s
  | .powerEntryComplete x0 => Sys2Proof.Machine.execPowerEntryComplete x0 s
  | .powerExitComplete x0 => Sys2Proof.Machine.execPowerExitComplete x0 s
  | .ps5PowerOff => Sys2Proof.Machine.execPs5PowerOff s
  | .wakeNAssert x0 => Sys2Proof.Machine.execWakeNAssert x0 s
  | .wakeAlarmFire x0 => Sys2Proof.Machine.execWakeAlarmFire x0 s
  | .porRelease x0 => Sys2Proof.Machine.execPorRelease x0 s
  | .deviceReady x0 => Sys2Proof.Machine.execDeviceReady x0 s
  | .pwrGoodFall => Sys2Proof.Machine.execPwrGoodFall s
  | .supplyResetRelease x0 => Sys2Proof.Machine.execSupplyResetRelease x0 s
  | .deviceReset x0 x1 x2 x3 => Sys2Proof.Machine.execDeviceReset x0 x1 x2 x3 s
  | .jtagReset => Sys2Proof.Machine.execJtagReset s
  | .norCounterIncrement x0 x1 => Sys2Proof.Machine.execNorCounterIncrement x0 x1 s
  | .activationStepDone x0 => Sys2Proof.Machine.execActivationStepDone x0 s
  | .activationRetry x0 x1 => Sys2Proof.Machine.execActivationRetry x0 x1 s
  | .activationEnd => Sys2Proof.Machine.execActivationEnd s
  | .supplyOutOfLimits x0 x1 => Sys2Proof.Machine.execSupplyOutOfLimits x0 x1 s
  | .overtempFatal x0 x1 => Sys2Proof.Machine.execOvertempFatal x0 x1 s
  | .coldStartHoldEnd x0 => Sys2Proof.Machine.execColdStartHoldEnd x0 s
  | .porAssert => Sys2Proof.Machine.execPorAssert s
  | .xtal50Stable x0 => Sys2Proof.Machine.execXtal50Stable x0 s
  | .wakeNRelease => Sys2Proof.Machine.execWakeNRelease s
  | .temperatureThresholdCrossed x0 => Sys2Proof.Machine.execTemperatureThresholdCrossed x0 s
  | .ptpAnnounceTimeout x0 => Sys2Proof.Machine.execPtpAnnounceTimeout x0 s
  | .tcpTimerExpiry x0 x1 => Sys2Proof.Machine.execTcpTimerExpiry x0 x1 s
  | .cqHeadDoorbell x0 x1 => Sys2Proof.Machine.execCqHeadDoorbell x0 x1 s
  | .actuatorReload x0 x1 => Sys2Proof.Machine.execActuatorReload x0 x1 s
  | .predictedRafterStart x0 => Sys2Proof.Machine.execPredictedRafterStart x0 s
  | .rafterPassed x0 => Sys2Proof.Machine.execRafterPassed x0 s
  | .sectorBoundary x0 => Sys2Proof.Machine.execSectorBoundary x0 s
  | .writeDataReady x0 => Sys2Proof.Machine.execWriteDataReady x0 s

end Sys2Proof.Machine
end

