-- ==== Sys2Proof/Safety.lean ====
section
/-! DEFINITION. What counts as a safe run: the forms of the state that every step keeps, from every state that has them. -/

namespace Sys2Proof.Machine

open Sys2Proof

/-- The canonical forms: register addresses, and the physical addresses of the recorded sectors, listed in rising order, so that equal
registers and equal contents are equal data. -/
def State.Wf (s : State) : Prop := s.regs.sorted = true ∧ keysRise s.media.sectors = true

/-- What every command keeps: the canonical forms, the queue of waiting commands, and the order of the free values, of which none is
drawn twice. -/
def Keeps (s t : State) : Prop := (s.Wf → t.Wf) ∧ t.pending = s.pending ∧ s.fresh ≤ t.fresh

/-- The registers an event may change: the FLT block, the PAT block and ECC_MODE. -/
def EventReg (a : Nat) : Prop := (0x5000000 ≤ a ∧ a < 0x5101000) ∨ a = Adr.ECC_MODE

/-- Every register outside a list holds what it held. -/
def State.RegsBut (l : List Nat) (s t : State) : Prop := ∀ a, a ∉ l → t.reg a = s.reg a

/-- Every register outside a list, and outside those an event may change, holds what it held. -/
def State.RegsButEvents (l : List Nat) (s t : State) : Prop := ∀ a, a ∉ l → ¬EventReg a → t.reg a = s.reg a

/-- s with the fields a recorded event may change taken from t: the registers, the snapshot latch, the patina, the trace, the event
totals, the collectors' latch instants and the escalation timers. -/
def State.takeEvents (s t : State) : State :=
  { s with
    regs := t.regs, latches := t.latches, pat := t.pat, trace := t.trace
    nor := { s.nor with corrTotal := t.nor.corrTotal, uncorrTotal := t.nor.uncorrTotal, fatalTotal := t.nor.fatalTotal }
    flt := { s.flt with escAt := t.flt.escAt, latchAt := t.flt.latchAt, quietFrom := t.flt.quietFrom } }

/-- Every actuator but one holds what it held. -/
def State.ActsBut (a : Fin 4) (s t : State) : Prop := ∀ b, b ≠ a → t.act b = s.act b

/-- Every physical address outside a list holds the sector it held. -/
def State.SectorsBut (l : List Nat) (s t : State) : Prop := ∀ k, k ∉ l → lookupKey t.media.sectors k = lookupKey s.media.sectors k

/-- Physical address p holds sector x with data d: scrambled, with the tag of the last write pass and the parity of both (R60 to R64, R84). -/
def State.Holds (t : State) (p x : Nat) (d : List Byte) : Prop :=
  lookupKey t.media.sectors p = some (codeword (scramble x (fitBytes d t.lbaSize)) (tagBytes x t.media.wsn (kindOf x) 0))

/-- A register write from an association is performed: the owner sends it, no earlier access of its path is held, and the region of the address is
powered and not restarting, or keeps running through its restart (R29 to R31, R439). -/
def State.Writable (s : State) (assoc addr : Nat) : Prop :=
  s.isOwner assoc = true ∧ (∀ h ∈ s.heldRegs, h.path ≠ pathOf assoc) ∧ ∃ r, regionOf addr = some r ∧ s.powered r = true ∧ (s.restarting r = false ∨ survivesRestart addr = true)

/-- The instruction with an opcode is present on channel c: its run r is ready, not ended and not at its count, belongs to Cast j under a recipe
whose view is v, and its line is in the buffer (R296, R306). -/
def State.Present (s : State) (c op : Nat) (r : Run) (j : CastJob) (x : Recipe) (v : CastView) : Prop :=
  lookupKey s.cast.runs c = some r ∧ r.state = 1 ∧ r.ended = false ∧ r.oc ≠ r.count ∧ s.job r.assoc r.qid r.cid = some j ∧
    j.recipe = some x ∧ s.viewOf j = some v ∧ r.lines.contains (r.pc / 8) = true ∧ presentOp r x.image = op

/-- The registers whose write by the owner does more, or other, than take its fields. -/
def ownEffect : List String :=
  ["FUNC_CTRL", "CFG_CMD", "CHN_PSC_ACC", "SPN_CMD", "SPN_ISNSCFG", "TMB_PLCTL", "TMB_PHOFS", "GLK_CLAIM", "DBG_TRC", "TMB_ALM_CTL", "TMB_ALM_LO",
   "TMB_ALM_HI", "CST_STGCLAIM", "ECC_MODE", "ECC_INJ", "ECC_INJADDR_LO", "ECC_BUCKET", "FLT_CTRL", "FLT_ERRTEST", "PAT_CTRL", "HIF_CTRL",
   "PLN_RESET", "PLN_WALM_LO", "PLN_WALM_HI", "PLN_WAKECFG", "CPL_QSTAT"]

/-- What the rows that are one register write of the owner carry. -/
structure WriteArgs where
  path : Path
  assoc : Nat
  addr : Nat
  value : Word
  act : Fin 4
  alarm : Fin 8
  gain : Fin 4
  func : Nat
  parked : Nat
  rpm : Int
  en : Bool

/-- A row that is one register write of the owner: the command, the address it writes, the value written and the effect of the write. -/
structure OwnerRow where
  cmd : Instr
  addr : Nat
  value : Word
  effect : State → State

/-- The rows of the command table that are one register write of the owner (R30), in the order of the table, but for DEVICE_RESET. -/
def State.ownerRows (s : State) (w : WriteArgs) : List OwnerRow :=
  let psc := setBits w.value Fld.CHN_PSC_ACC_go 1
  let cal := s.reg Adr.SPN_ISNSCFG ||| 0x80000000
  let gain := setBits (s.reg Adr.SPN_ISNSCFG) Fld.SPN_ISNSCFG_isns_gain w.gain
  let trc : Word := BitVec.ofNat 32 (1 + 16 * b2n w.en)
  let claim := setBits w.value Fld.TMB_ALM_CTL_claim 1
  let freed := setBits (s.reg (Adr.TMB_ALM_CTL w.alarm) &&& Fld.mask Fld.TMB_ALM_CTL_irq) Fld.TMB_ALM_CTL_release 1
  let stage := setBits w.value Fld.CST_STGCLAIM_claim 1
  let unstage := setBits (setBits w.value Fld.CST_STGCLAIM_claim 0) Fld.CST_STGCLAIM_release 1
  [⟨.plainRegisterWrite w.path w.assoc w.addr 4 w.value, w.addr, w.value, fun t => t.performWrite w.addr w.value⟩,
   ⟨.funcStop w.assoc w.func, Adr.FUNC_CTRL w.func, 1, fun t => if w.func < 15 then t.funcRequest w.func 1 else t⟩,
   ⟨.funcRestart w.assoc w.func, Adr.FUNC_CTRL w.func, 2, fun t => if w.func < 15 then t.funcRequest w.func 2 else t⟩,
   ⟨.funcAbandon w.assoc w.func, Adr.FUNC_CTRL w.func, 3, fun t => if w.func < 15 then t.funcRequest w.func 3 else t⟩,
   ⟨.cfgStore w.assoc, Adr.CFG_CMD, cfgWord 1 0, fun t => t.cfgCommand (cfgWord 1 0)⟩,
   ⟨.cfgCapture w.assoc w.func, Adr.CFG_CMD, cfgWord 2 w.func, fun t => t.cfgCommand (cfgWord 2 w.func)⟩,
   ⟨.cfgRemove w.assoc, Adr.CFG_CMD, cfgWord 3 0, fun t => t.cfgCommand (cfgWord 3 0)⟩,
   ⟨.pscFrameGo w.assoc w.act w.value, Adr.CHN_PSC_ACC w.act, psc, fun t => t.writePscAcc w.act psc⟩,
   ⟨.spindleStart w.assoc w.value w.parked, Adr.SPN_CMD, spnCmdWord w.value 1, fun t => t.writeSpnCmd (spnCmdWord w.value 1) (some w.parked)⟩,
   ⟨.spindleStop w.assoc w.value, Adr.SPN_CMD, spnCmdWord w.value 2, fun t => t.writeSpnCmd (spnCmdWord w.value 2) none⟩,
   ⟨.spindleCoast w.assoc w.value, Adr.SPN_CMD, spnCmdWord w.value 3, fun t => t.writeSpnCmd (spnCmdWord w.value 3) none⟩,
   ⟨.isnsCal w.assoc w.rpm, Adr.SPN_ISNSCFG, cal, fun t => t.writeIsns cal (some w.rpm)⟩,
   ⟨.isnsGainWrite w.assoc w.gain, Adr.SPN_ISNSCFG, gain, fun t => t.writeIsns gain none⟩,
   ⟨.glkClaim w.assoc, Adr.GLK_CLAIM, 1, fun t => t.glkWrite 1⟩,
   ⟨.glkRelease w.assoc, Adr.GLK_CLAIM, 2, fun t => t.glkWrite 2⟩,
   ⟨.dbgTrcClaim w.assoc w.en, Adr.DBG_TRC, trc, fun t => t.traceWrite trc⟩,
   ⟨.dbgTrcRelease w.assoc, Adr.DBG_TRC, 2, fun t => t.traceWrite 2⟩,
   ⟨.approachRequest w.assoc, Adr.TMB_PLCTL, s.reg Adr.TMB_PLCTL ||| 1, fun t => t.requestApproach⟩,
   ⟨.alarmClaim w.assoc w.alarm w.value, Adr.TMB_ALM_CTL w.alarm, claim, fun t => t.writeAlarm w.alarm claim⟩,
   ⟨.alarmRelease w.assoc w.alarm, Adr.TMB_ALM_CTL w.alarm, freed, fun t => t.writeAlarm w.alarm freed⟩,
   ⟨.stagingClaim w.assoc w.value, Adr.CST_STGCLAIM, stage, fun t => t.writeStgclaim stage⟩,
   ⟨.stagingRelease w.assoc w.value, Adr.CST_STGCLAIM, unstage, fun t => t.writeStgclaim unstage⟩,
   ⟨.pcieEnWrite w.assoc w.value, Adr.HIF_CTRL, w.value, fun t => t.writeHifCtrl w.value⟩,
   ⟨.eccModeWrite w.assoc w.value, Adr.ECC_MODE, w.value, fun t => t.writeEccMode w.value⟩,
   ⟨.eccInjArm w.assoc w.value, Adr.ECC_INJ, w.value ||| 0x80000000, fun t => t.writeEccInj (w.value ||| 0x80000000)⟩,
   ⟨.errTest w.assoc w.value, Adr.FLT_ERRTEST, w.value ||| 1, fun t => t.writeErrTest (w.value ||| 1)⟩,
   ⟨.patinaLock w.assoc, Adr.PAT_CTRL, 1, fun t => t.lockPatina⟩]

/-- The commands of NVMe that need an association and a command context (R363, R364, R403), but for Fabrics Connect. -/
def nvmeRows (c : Cmd) : List Instr :=
  [.deleteIoSubmissionQueue c, .createIoSubmissionQueue c, .getLogPage c, .deleteIoCompletionQueue c, .createIoCompletionQueue c, .identify c,
   .abort c, .setFeatures c, .getFeatures c, .asynchronousEventRequest c, .namespaceManagement c, .firmwareCommit c, .firmwareImageDownload c,
   .namespaceAttachment c, .keepAlive c, .propertyGet c, .propertySet c, .authenticationSend c, .authenticationReceive c, .claimOwnership c,
   .yieldOwnership c, .loadContentKey c, .loadCastProfile c, .loadRecipe c, .readPatina c, .clearPatina c, .registerWrite c, .registerRead c,
   .reconfigureFunction c, .constellationStatus c, .flush c, .write c, .read c, .writeZeroes c, .datasetManagement c, .timedRead c, .transform c,
   .mouldWrite c, .mouldCommit c, .cast c]

/-- Command c is the one command whose context the device holds: fetched as x, whole, and not yet decoded; no range lock is held, and no
sequencer's list has an entry of it. -/
def State.Only (s : State) (c : Cmd) (x : Ctx) : Prop :=
  (∀ a : Fin 4, (s.act a).seq.list.any (fun e => e.isOf false c.assoc c.qid c.cid) = false) ∧ s.host.ctxs = [x] ∧ s.host.locks = [] ∧ x.assoc = c.assoc ∧ x.qid = c.qid ∧ x.cid = c.cid ∧ x.instr = none ∧ x.wait = .fetched ∧ x.bad = false

/-- The state that the checks of command i see: x is decoded as i, and data of more than 8,192 bytes has been asked for. -/
def State.taken (s : State) (x : Ctx) (i : Instr) (c : Cmd) : State :=
  (s.modCtx x.assoc x.qid x.cid (fun _ => { x with instr := some i })).askData { x with instr := some i } i c

/-- The checks before a command's own effect pass: no fatal state, its opcode belongs to its queue, no recovery loader, the association is
authenticated, the device is ready and in PS0 or PS1 unless R403 lists the command, the Control region runs, the namespace is one it may use, an
owner-only command was permitted, and the function it is addressed to is not stopped (R339, R358, R363, R403, R442, R470). -/
def State.Ready (s : State) (x : Ctx) (i : Instr) : Prop :=
  s.faultState ≠ 3 ∧ badOpcode x i = false ∧ s.pln.loader = false ∧
    (s.flag Adr.HIF_CTRL Fld.HIF_CTRL_auth_req = false ∨ s.authed x.assoc = true ∨ ∃ d, i = .authenticationSend d ∨ i = .authenticationReceive d) ∧
    (s.flag Adr.PLN_STATUS Fld.PLN_STATUS_ready = true ∨ s.onList i = true) ∧ s.restarting 6 = false ∧
    ((s.ps < 2 ∧ s.psMoving = false) ∨ s.onList i = true ∨ isPower i = true) ∧ s.badNs x i = false ∧
    (s.ownerOnly i = true → x.permitted = true) ∧ (∀ k, addressed i = some k → s.fstate k = 0 ∨ s.fstate k = 3)

/-- From s to t command c completes with a status, two dwords and data, and leaves its context. -/
def State.Answers (s t : State) (c : Cmd) (r : Status) (dw0 dw1 : Nat) (data : List Byte) : Prop :=
  t.host.completions = s.host.completions ++ [⟨c.assoc, c.qid, c.cid, r.sct, r.sc, r.dnr, dw0, dw1, data⟩] ∧ t.host.ctxs = []

/-- From s to t command c keeps its context and waits. -/
def State.Waits (s t : State) (c : Cmd) (w : Wait) : Prop :=
  t.host.completions = s.host.completions ∧
    ∃ y, t.host.ctxs = [y] ∧ y.assoc = c.assoc ∧ y.qid = c.qid ∧ y.cid = c.cid ∧ y.wait = w

/-- No function is stopping or stopped. -/
def State.NoneStopped (s : State) : Prop := ∀ k, k < 15 → s.fstate k = 0 ∨ s.fstate k = 3

/-- The state in which a read goes on: its command is decoded and noted as launched, and its range lock granted. -/
def State.locked (s : State) (x : Ctx) (i : Instr) (c : Cmd) (r : Nat × Nat × Nat × Bool) : State :=
  ((s.taken x i c).noteLaunch { x with instr := some i }).addLock x.assoc x.qid x.cid r

end Sys2Proof.Machine
end

