-- ==== Sys2Proof/Certificates/Slice0/Obligations.lean ====
section
/-! DEFINITION. The statements for the provers. -/

open Sys2Proof Sys2Proof.Machine

/-! ## The block as a whole -/

/-- A step performs the command at the front of the queue, with the rest of the queue left waiting. -/
def Obligations.FrontCommandIsPerformed : Prop :=
  ∀ (c : Instr) (rest : List Instr) (s : State),
    step { s with pending := c :: rest } = exec c { s with pending := rest }

/-! ## The read and write channel -/

/-- The clock states of R93 to R96: acquisition once the clock has had its time after a head switch, the time-out of a hold, the predicted rafter,
the tone-A check, the sync check and the re-acquisition check, each with its frame. What the spec leaves open here is the model's choice (log
entries 39 and 40). -/
def Obligations.ChannelClockMoves : Prop :=
  ∀ (a : Fin 4) (s : State),
    (s.clock a = 0 → (s.act a).batten.hsUntil ≤ s.now → ∃ t, exec (.clockAcquired a) s = .next t ∧ t.clock a = 1 ∧
      t = { s with regs := t.regs } ∧ s.RegsBut [Adr.BTN_CLK a] t) ∧
    (s.clock a = 0 → s.now < (s.act a).batten.hsUntil → exec (.clockAcquired a) s = .next s) ∧
    (s.clock a = 3 → ∃ t, exec (.holdTimeout a) s = .next t ∧ t.clock a = 0 ∧
      t = { s with regs := t.regs } ∧ s.RegsBut [Adr.BTN_CLK a] t) ∧
    ((s.act a).batten.zoneMove = none → ∃ t, exec (.predictedRafterStart a) s = .next t ∧
      t.clock a = (if s.clock a = 1 ∨ s.clock a = 3 then 2 else s.clock a) ∧
      t.flag (Adr.BTN_CLK a) Fld.BTN_CLK_wg_permit = false ∧ t.flag (Adr.CHN_STATUS a) Fld.CHN_STATUS_wg_pin = false ∧
      (t.act a).gate = none ∧ (t.act a).batten.index = ((s.act a).batten.index + 1) % 128 ∧ (t.act a).batten.noPermit = false ∧
      (t.act a).batten.accepted = false ∧ (t.act a).batten.cell = 0 ∧ s.ActsBut a t ∧
      t = { s with regs := t.regs, acts := t.acts } ∧ s.RegsBut [Adr.BTN_CLK a, Adr.CHN_STATUS a] t) ∧
    (∀ z : Nat, (s.act a).batten.zoneMove = some z → ∃ t, exec (.predictedRafterStart a) s = .next t ∧
      t.fld (Adr.CHN_STATUS a) Fld.CHN_STATUS_zone = z % 2 ^ Fld.CHN_STATUS_zone.width ∧ (t.act a).batten.zoneMove = none) ∧
    (∀ err : Int, err.natAbs ≤ s.fld (Adr.BTN_CTRL a) Fld.BTN_CTRL_hold_err_max → (s.act a).batten.accepted = true →
      ∃ t, exec (.burstPhaseCheck a err) s = .next t ∧
        t.flag (Adr.BTN_CLK a) Fld.BTN_CLK_wg_permit = !(s.act a).batten.noPermit ∧ t.clock a = s.clock a ∧
        (t.act a).batten.clockFix = err ∧ s.ActsBut a t ∧ t = { s with regs := t.regs, acts := t.acts } ∧
        s.RegsBut [Adr.BTN_CLK a] t) ∧
    (∀ err : Int, (s.fld (Adr.BTN_CTRL a) Fld.BTN_CTRL_hold_err_max < err.natAbs ∨ (s.act a).batten.accepted = false) →
      ∃ t, exec (.burstPhaseCheck a err) s = .next t ∧ t.flag (Adr.BTN_CLK a) Fld.BTN_CLK_wg_permit = false ∧ t.clock a = 0 ∧
        (t.act a).batten.noPermit = true ∧ s.ActsBut a t ∧ t = { s with regs := t.regs, acts := t.acts } ∧
        s.RegsBut [Adr.BTN_CLK a] t) ∧
    (∀ n : Nat, n ≠ s.cellsPerRev a / 25600 → ∃ t, exec (.rafterSyncCheck a n) s = .next t ∧ t.clock a = 0 ∧
      t.flag (Adr.BTN_CLK a) Fld.BTN_CLK_slip = true ∧ t.flag (Adr.BTN_CLK a) Fld.BTN_CLK_wg_permit = false ∧
      (t.act a).batten.noPermit = true ∧ (t.act a).batten.cell = s.cellsPerRev a / 25600 ∧
      s.RegsButEvents [Adr.BTN_CLK a, Adr.CHN_ERR a, Adr.CHN_ERRLOC0 a, Adr.CHN_ERRLOC1 a] t) ∧
    (∀ n : Nat, n = s.cellsPerRev a / 25600 → ∃ t, exec (.rafterSyncCheck a n) s = .next t ∧
      (t.act a).batten.cell = n ∧ s.ActsBut a t ∧ t = { s with acts := t.acts }) ∧
    (∀ d : Int, d.natAbs ≤ s.fld (Adr.BTN_CTRL a) Fld.BTN_CTRL_hold_err_max → s.clock a = 2 →
      ∃ t, exec (.reacqCheck a d) s = .next t ∧ t.clock a = 1 ∧ t = { s with regs := t.regs } ∧ s.RegsBut [Adr.BTN_CLK a] t) ∧
    (∀ d : Int, s.fld (Adr.BTN_CTRL a) Fld.BTN_CTRL_hold_err_max < d.natAbs →
      ∃ t, exec (.reacqCheck a d) s = .next t ∧ t.clock a = 0 ∧ (t.act a).batten.noPermit = true ∧
        (∀ o : ChanOp, (s.act a).seq.running = some o → o.op = 4 → o.started = true → (t.act a).seq.stopAtFragment = true))

/-- A rafter that is not accepted, the third of them in a row, and a revolution without the clock (R97, R93); and a rafter accepted: its mark is
found, its cells decode, and its check is that of its surface, track and index (R49, R54). -/
def Obligations.RaftersAcceptedAndLost : Prop :=
  ∀ (a : Fin 4) (s : State),
    (∀ w : List Bool, ∃ t, exec (.rafterLost a w) s = .next t ∧
      (t.act a).batten.accepted = false ∧ (t.act a).batten.noPermit = true ∧ t.flag (Adr.BTN_CLK a) Fld.BTN_CLK_wg_permit = false ∧
      t.fld (Adr.CHN_ERR a) Fld.CHN_ERR_last_code = 2 ∧
      t.fld (Adr.BTN_RFCNT a) Fld.BTN_RFCNT_consec =
        min (s.fld (Adr.BTN_RFCNT a) Fld.BTN_RFCNT_consec + 1) (2 ^ Fld.BTN_RFCNT_consec.width - 1) ∧
      t.fld (Adr.BTN_RFCNT a) Fld.BTN_RFCNT_lost_total =
        min (s.fld (Adr.BTN_RFCNT a) Fld.BTN_RFCNT_lost_total + 1) (2 ^ Fld.BTN_RFCNT_lost_total.width - 1) ∧
      (s.fld (Adr.BTN_RFCNT a) Fld.BTN_RFCNT_consec = 2 →
        (t.act a).ended = true ∧ t.flag (Adr.FSQ_STATUS a) Fld.FSQ_STATUS_abort_pend = true ∧ (s.mode a ≠ 0 → t.mode a = 3))) ∧
    (s.clock a = 0 → ∃ t, exec (.clockLostTimeout a) s = .next t ∧ (t.act a).ended = true ∧
      t.flag (Adr.FSQ_STATUS a) Fld.FSQ_STATUS_abort_pend = true ∧ (s.mode a ≠ 0 → t.mode a = 3) ∧ t.media = s.media ∧ t.host = s.host) ∧
    (∀ (w : List Bool) (cells : List (Bool × Bool)) (bA bB tr k c : Nat), s.rafterSynced a w = true →
      rafterFields cells = some (tr, k, c) → c = (surfaceCheck (s.surface a) tr k).toNat →
      ∃ t, exec (.rafterAccepted a w cells bA bB) s = .next t ∧ (t.act a).batten.accepted = true ∧
        t.fld (Adr.BTN_RAFTER a) Fld.BTN_RAFTER_track = tr % 2 ^ Fld.BTN_RAFTER_track.width ∧
        t.fld (Adr.BTN_RAFTER a) Fld.BTN_RAFTER_index = k % 2 ^ Fld.BTN_RAFTER_index.width ∧
        t.fld (Adr.BTN_RFCNT a) Fld.BTN_RFCNT_consec = 0 ∧
        (s.mode a = 0 → k = (s.act a).batten.index → s.ActsBut a t ∧ s.RegsBut [Adr.BTN_RAFTER a, Adr.BTN_RFCNT a] t ∧
          t = { s with regs := t.regs, acts := t.acts })) ∧
    (∀ (w : List Bool) (cells : List (Bool × Bool)) (bA bB : Nat),
      (s.rafterSynced a w = true → ∀ tr k c : Nat, rafterFields cells = some (tr, k, c) → c ≠ (surfaceCheck (s.surface a) tr k).toNat) →
      ∃ t, exec (.rafterAccepted a w cells bA bB) s = .next t ∧ (t.act a).batten.accepted = false ∧ (t.act a).batten.noPermit = true ∧
        t.flag (Adr.BTN_CLK a) Fld.BTN_CLK_wg_permit = false)

/-- The preamplifier: its fault drops write gate and ends the slice's operations, which go on after the fault; a fault that stays loses the
actuator; and its serial frames (R75 to R77, R245). -/
def Obligations.PreamplifierRows : Prop :=
  ∀ (a : Fin 4) (s : State),
    (∃ t, exec (.preampFault a) s = .next t ∧ t.flag (Adr.CHN_STATUS a) Fld.CHN_STATUS_wg_pin = false ∧
      t.flag (Adr.CHN_STATUS a) Fld.CHN_STATUS_writing = false ∧ t.flag (Adr.CHN_STATUS a) Fld.CHN_STATUS_reading = false ∧
      t.flag (Adr.CHN_STATUS a) Fld.CHN_STATUS_pflt = true ∧ (t.act a).pfltHeld = true ∧ (t.act a).ended = true ∧
      t.flag (Adr.FSQ_STATUS a) Fld.FSQ_STATUS_abort_pend = true ∧ (t.act a).seq.running = none ∧ (t.act a).seq.armed = none ∧
      t.media = s.media ∧ t.host = s.host) ∧
    (∃ t, exec (.preampFaultClear a) s = .next t ∧ t.flag (Adr.CHN_STATUS a) Fld.CHN_STATUS_pflt = false ∧ (t.act a).pfltHeld = false ∧
      (s.mode a ≠ 3 → (s.act a).lost = false → (t.act a).ended = false) ∧ s.ActsBut a t ∧ s.RegsBut [Adr.CHN_STATUS a] t ∧
      t = { s with regs := t.regs, acts := t.acts }) ∧
    (s.flag (Adr.CHN_STATUS a) Fld.CHN_STATUS_pflt = true → s.media.lostActs.contains a.val = false →
      ∃ t, exec (.pfltPersistTimeout a) s = .next t ∧ (t.act a).lost = true ∧ a.val ∈ t.media.lostActs ∧ t.mode a = 0 ∧
        t.media.sectors = s.media.sectors) ∧
    (∀ (f : PscFrame) (d : Byte), (s.act a).psc = some f → f.head = none → f.read = true →
      ∃ t, exec (.pscFrameDone a d) s = .next t ∧ t.flag (Adr.CHN_PSC_ACC a) Fld.CHN_PSC_ACC_busy = false ∧
        t.fld (Adr.CHN_PSC_ACC a) Fld.CHN_PSC_ACC_rdata = d.toNat ∧ (t.act a).preamp = (s.act a).preamp ∧ s.ActsBut a t ∧
        s.RegsBut [Adr.CHN_PSC_ACC a] t ∧ t = { s with regs := t.regs, acts := t.acts }) ∧
    (∀ (f : PscFrame) (d : Byte), (s.act a).psc = some f → f.head = none → f.read = false →
      ∃ t, exec (.pscFrameDone a d) s = .next t ∧ t.flag (Adr.CHN_PSC_ACC a) Fld.CHN_PSC_ACC_busy = false ∧
        (t.act a).preamp = insertKey (s.act a).preamp f.addr f.data ∧ s.ActsBut a t ∧ s.RegsBut [Adr.CHN_PSC_ACC a] t ∧
        t = { s with regs := t.regs, acts := t.acts }) ∧
    (∀ (f : PscFrame) (h : Nat) (d : Byte), (s.act a).psc = some f → f.head = some h →
      ∃ t, exec (.pscFrameDone a d) s = .next t ∧ (t.act a).preamp = insertKey (s.act a).preamp f.addr f.data ∧
        t.fld (Adr.CHN_STATUS a) Fld.CHN_STATUS_head = h % 2 ^ Fld.CHN_STATUS_head.width ∧ t.clock a = 0 ∧
        (t.act a).batten.needRafters = 2 ∧ (t.act a).batten.needValid = true ∧ (t.act a).batten.needBoundary = true)

/-- The events of a sector on the track (R66, R79, R86, R87, R101, R109, R110): the end of a rafter, a boundary, a search that finds its mark or
fails, fragments and parts, and what the decoder answers. -/
def Obligations.SectorEventRows : Prop :=
  ∀ (a : Fin 4) (s : State),
    (∃ t, exec (.rafterPassed a) s = .next t ∧ (t.act a).seq.latches = (s.act a).seq.latches ||| 8 ∧ s.ActsBut a t ∧
      (∀ o : ChanOp, (s.act a).seq.running = some o → o.op = 2 → s.mayAccess a = true → (t.act a).seq.running = some { o with started := true }) ∧
      t = { s with acts := t.acts }) ∧
    (∃ t, exec (.sectorBoundary a) s = .next t ∧ (t.act a).seq.latches = (s.act a).seq.latches ||| 32 ∧ s.ActsBut a t ∧
      ((s.act a).batten.needRafters = 0 → (s.act a).batten.needValid = false → (t.act a).batten.needBoundary = false) ∧
      t = { s with acts := t.acts }) ∧
    (∃ t, exec (.writeDataReady a) s = .next t ∧ (t.act a).seq = { (s.act a).seq with dataReady := true } ∧ s.ActsBut a t ∧
      t = { s with acts := t.acts }) ∧
    (∀ (o : ChanOp) (pre : List (Int × Int)) (w : List Bool) (k : Nat), (s.act a).seq.running = some o → o.op < 3 → o.started = true →
      (s.act a).seq.armed = none → markIn (if o.op = 1 then sectorMark else resyncMark) w 4 = some k →
      k ≤ 2 * s.fld (Adr.CHN_CTRL a) Fld.CHN_CTRL_sync_win →
      ((k : Int) - s.fld (Adr.CHN_CTRL a) Fld.CHN_CTRL_sync_win).natAbs ≤ s.fld (Adr.CHN_CTRL a) Fld.CHN_CTRL_sync_tol →
      ∃ t, exec (.syncDecided a pre w) s = .next t ∧ (t.act a).seq.syncFound = true ∧ (t.act a).seq.running = none ∧
        (t.act a).seq.latches = (s.act a).seq.latches ||| 128 ∧ s.ActsBut a t ∧ s.RegsBut [Adr.CHN_STATUS a] t ∧
        t = { s with regs := t.regs, acts := t.acts }) ∧
    (∀ (o : ChanOp) (pre : List (Int × Int)) (w : List Bool), (s.act a).seq.running = some o → o.op < 3 → o.started = true →
      markIn (if o.op = 1 then sectorMark else resyncMark) w 4 = none →
      ∃ t, exec (.syncDecided a pre w) s = .next t ∧ (t.act a).seq.syncFound = false ∧
        (t.act a).seq.searchWhere = (if o.op = 1 then 0 else 1) ∧ s.ActsBut a t) ∧
    (∀ o : ChanOp, (s.act a).seq.running = some o → 2 < o.op → o.op ≠ 4 → o.started = true → (s.act a).seq.stopAtFragment = false →
      ∃ t, exec (.fragmentDone a) s = .next t ∧ (t.act a).seq.frag = min ((s.act a).seq.frag + 1) 15 ∧
        (t.act a).seq.latches = (s.act a).seq.latches ||| 512 ∧ (t.act a).seq.running = some o ∧ s.ActsBut a t ∧
        t = { s with acts := t.acts }) ∧
    (∀ o : ChanOp, (s.act a).seq.running = some o → 2 < o.op → o.started = true → (s.act a).seq.stopAtFragment = true →
      ∃ t, exec (.fragmentDone a) s = .next t ∧ (t.act a).seq.running = none ∧ (t.act a).seq.armed = none ∧
        (t.act a).seq.latches = (s.act a).seq.latches ||| 1536 ∧ t.flag (Adr.CHN_STATUS a) Fld.CHN_STATUS_wg_pin = false ∧
        s.ActsBut a t ∧ s.RegsBut [Adr.CHN_STATUS a] t ∧ t = { s with regs := t.regs, acts := t.acts }) ∧
    (∀ (o : ChanOp) (l : List (Int × Int)), (s.act a).seq.running = some o → 2 < o.op → o.started = true → (s.act a).seq.armed = none →
      ∃ t, exec (.partDone a l) s = .next t ∧ (t.act a).seq.running = none ∧
        (t.act a).seq.latches = (s.act a).seq.latches ||| 1024 ∧ t.flag (Adr.CHN_STATUS a) Fld.CHN_STATUS_writing = false ∧
        t.flag (Adr.CHN_STATUS a) Fld.CHN_STATUS_wg_pin = false ∧ s.ActsBut a t ∧ s.RegsBut [Adr.CHN_STATUS a] t ∧
        t = { s with regs := t.regs, acts := t.acts }) ∧
    (∀ (x n phys seed kind : Nat) (rec : List Byte) (errors : List Nat) (p : DecPlace), s.decoding a x = some p →
      s.expectedAt x = some (phys, seed, kind) → s.recordedAt phys = some rec → 0 < n → n ≤ s.maxGlobal a →
      codeOk (decided rec errors) = true →
      (tagMatches seed kind (((beBytes rec.length (decided rec errors)).drop s.lbaSize).take 16) = true →
        ∃ t, exec (.sectorDecoded a x n errors) s = .next t ∧
          lookupKey t.media.dram x = some (scramble seed ((beBytes rec.length (decided rec errors)).take s.lbaSize)) ∧
          (∀ e ∈ t.media.erased, e.media ≠ x) ∧ (∀ q ∈ (t.act a).decoder, q.media ≠ x) ∧ t.media.sectors = s.media.sectors ∧
          s.ActsBut a t ∧ s.RegsBut [Adr.CHN_DECSTAT a] t) ∧
      (tagMatches seed kind (((beBytes rec.length (decided rec errors)).drop s.lbaSize).take 16) = false →
        ∃ t, exec (.sectorDecoded a x n errors) s = .next t ∧ t.fld (Adr.CHN_ERR a) Fld.CHN_ERR_last_code = 4 ∧
          t.media.dram = s.media.dram ∧ (∃ e ∈ t.media.erased, e.media = x) ∧ t.media.sectors = s.media.sectors ∧ s.ActsBut a t)) ∧
    (∀ (x : Nat) (p : DecPlace), s.decoding a x = some p →
      ∃ t, exec (.ldpcNoConvergence a x) s = .next t ∧ (∃ e ∈ t.media.erased, e.media = x) ∧ (∀ q ∈ (t.act a).decoder, q.media ≠ x) ∧
        t.fld (Adr.CHN_ERR a) Fld.CHN_ERR_last_code = 3 ∧ t.media.dram = s.media.dram ∧ t.media.sectors = s.media.sectors ∧ s.ActsBut a t)

/-! ## The formatter sequencers and the servo loop -/

/-- The sequencers (R106 to R126): one microword performed or waiting, requests and where an abort or an interrupt is taken, the limit of a wait,
the monitor of the abort points, and the two sequencers standing in for each other. At a vector that no match register replaces, ROM gives up what
the sequencer was doing. What the spec leaves open here is the model's choice (log entries 155, 89 and 143). -/
def Obligations.SequencerRows : Prop :=
  ∀ (a : Fin 4) (s : State),
    (∀ (p : Bool) (i cell : Nat) (n : Nano) (next : Nat),
      let u := if p = true then s.seqEvent a 7 else s
      let v := if n.abortPt = true then (u.endCut a).checkpoint a else u
      u.lead a = some i → u.fetchMicro a (u.act a).seq.pc = some (n, next) → n.reserved = false → n.seq ≠ 3 →
      (n.abortPt = true → u.condition a 22 = false ∧ u.condition a 21 = false) →
      ((n.waitEn = true → v.condition a n.waitSel = n.waitPol) → (v.act a).seq.stalls n = false →
        exec (.microword a cell p) s = .next (v.performMicro a n next cell)) ∧
      ((n.waitEn = true ∧ v.condition a n.waitSel ≠ n.waitPol) ∨ (v.act a).seq.stalls n = true →
        ∃ t, exec (.microword a cell p) s = .next t ∧ (t.act a).seq.waitSince = (v.act a).seq.waitSince.or (some s.now) ∧
          (t.act a).seq.pc = (s.act a).seq.pc ∧ (t.act a).seq.running = (v.act a).seq.running)) ∧
    (∀ (cell i : Nat) (n : Nano) (next : Nat), s.lead a = some i → s.fetchMicro a (s.act a).seq.pc = some (n, next) → n.reserved = false →
      n.seq ≠ 3 → n.abortPt = true → s.condition a 22 = true →
      ∃ t, exec (.microword a cell false) s = .next t ∧
        (t.act a).seq.pc = (if s.matched a 0x18 = 0x18 then 0 else 0x18) ∧
        t.fld (Adr.FSQ_RESUME a) Fld.FSQ_RESUME_cause = 2 ∧
        t.fld (Adr.FSQ_RESUME a) Fld.FSQ_RESUME_addr = (s.act a).seq.pc % 2 ^ Fld.FSQ_RESUME_addr.width ∧
        t.flag (Adr.FSQ_STATUS a) Fld.FSQ_STATUS_abort_pend = false ∧ s.ActsBut a t) ∧
    (∀ (cell i : Nat) (n : Nano) (next : Nat), s.lead a = some i → s.fetchMicro a (s.act a).seq.pc = some (n, next) → n.reserved = false →
      n.seq ≠ 3 → n.abortPt = true → s.condition a 22 = false → s.condition a 21 = true →
      s.flag (Adr.FSQ_STATUS a) Fld.FSQ_STATUS_in_irq = false → s.matched a 0x10 ≠ 0x10 →
      ∃ t, exec (.microword a cell false) s = .next t ∧ (t.act a).seq.pc = 0x10 ∧
        t.fld (Adr.FSQ_RESUME a) Fld.FSQ_RESUME_cause = 1 ∧ t.flag (Adr.FSQ_STATUS a) Fld.FSQ_STATUS_in_irq = true ∧
        t.flag (Adr.FSQ_STATUS a) Fld.FSQ_STATUS_irq_pend = false ∧ s.ActsBut a t) ∧
    (∃ t, exec (.sequencerAbortRequest a) s = .next t ∧ t.flag (Adr.FSQ_STATUS a) Fld.FSQ_STATUS_abort_pend = true ∧
      s.RegsBut [Adr.FSQ_STATUS a] t ∧ t = { s with regs := t.regs }) ∧
    (∃ t, exec (.sequencerInterruptRequest a) s = .next t ∧ t.flag (Adr.FSQ_STATUS a) Fld.FSQ_STATUS_irq_pend = true ∧
      s.RegsBut [Adr.FSQ_STATUS a] t ∧ t = { s with regs := t.regs }) ∧
    (∀ w : Nat, (s.act a).seq.waitSince = some w → w + s.fld (Adr.FSQ_CTRL a) Fld.FSQ_CTRL_wait_limit * 1000000 ≤ s.now →
      ∃ t, exec (.waitLimitExpiry a) s = .next t ∧ (t.act a).seq.pc = (if s.matched a 0x18 = 0x18 then 0 else 0x18) ∧
        t.flag (Adr.FSQ_STATUS a) Fld.FSQ_STATUS_idle = decide (s.matched a 0x18 = 0x18) ∧
        t.flag (Adr.FSQ_STATUS a) Fld.FSQ_STATUS_abort_pend = false ∧
        t.fld (Adr.FSQ_RESUME a) Fld.FSQ_RESUME_addr = (s.act a).seq.pc % 2 ^ Fld.FSQ_RESUME_addr.width ∧ s.ActsBut a t ∧
        s.RegsButEvents [Adr.FSQ_STATUS a, Adr.FSQ_RESUME a, Adr.FSQ_CKPT a, Adr.FSQ_ERR a] t) ∧
    (∀ w : Nat, (s.act a).seq.waitSince = some w → s.now < w + s.fld (Adr.FSQ_CTRL a) Fld.FSQ_CTRL_wait_limit * 1000000 →
      exec (.waitLimitExpiry a) s = .next s) ∧
    (s.fld (Adr.FSQ_STATUS a) Fld.FSQ_STATUS_seq0 = 0 → s.fld (Adr.FSQ_STATUS a) Fld.FSQ_STATUS_seq1 = 1 →
      (∃ t, exec (.leadFault a) s = .next t ∧ t.fld (Adr.FSQ_STATUS a) Fld.FSQ_STATUS_seq0 = 2 ∧
        t.fld (Adr.FSQ_STATUS a) Fld.FSQ_STATUS_seq1 = 0 ∧ (t.act a).seq.pc = (if s.matched a 0x20 = 0x20 then 0 else 0x20) ∧
        t.flag (Adr.FSQ_STATUS a) Fld.FSQ_STATUS_idle = decide (s.matched a 0x20 = 0x20) ∧
        t.fld (Adr.FSQ_RESUME a) Fld.FSQ_RESUME_cause = 3 ∧ (t.act a).seq.cntA = (s.act a).seq.ckpt.cntA ∧ s.ActsBut a t) ∧
      (∃ t, exec (.followFault a) s = .next t ∧ t.fld (Adr.FSQ_STATUS a) Fld.FSQ_STATUS_seq1 = 2 ∧
        t.fld (Adr.FSQ_STATUS a) Fld.FSQ_STATUS_seq0 = 0 ∧ t.acts = s.acts ∧
        s.RegsButEvents [Adr.FSQ_STATUS a, Adr.FSQ_ERR a] t) ∧
      (s.flag (Adr.FSQ_STATUS a) Fld.FSQ_STATUS_abort_pend = true → ∃ t, exec (.abortPointMonitor a) s = .next t ∧
        t.fld (Adr.FSQ_STATUS a) Fld.FSQ_STATUS_seq0 = 2 ∧ t.fld (Adr.FSQ_STATUS a) Fld.FSQ_STATUS_seq1 = 0 ∧
        (t.act a).seq.pc = (if s.matched a 0x20 = 0x20 then 0 else 0x20))) ∧
    (s.fld (Adr.FSQ_STATUS a) Fld.FSQ_STATUS_seq0 = 0 → s.fld (Adr.FSQ_STATUS a) Fld.FSQ_STATUS_seq1 = 2 →
      s.media.lostActs.contains a.val = false → ∃ t, exec (.leadFault a) s = .next t ∧
        t.fld (Adr.FSQ_STATUS a) Fld.FSQ_STATUS_seq0 = 2 ∧ (t.act a).lost = true ∧ a.val ∈ t.media.lostActs) ∧
    (s.flag (Adr.FSQ_STATUS a) Fld.FSQ_STATUS_abort_pend = false → s.flag (Adr.FSQ_STATUS a) Fld.FSQ_STATUS_irq_pend = false →
      exec (.abortPointMonitor a) s = .next s)

/-- A servo sample ends with the state mirror equal to the section states and the mode (R160), whatever the samples are; the demodulator's sequence
number has gone on by one (R90), and an unloaded loop publishes no current (R158). What the spec leaves open here is the model's choice (log entries
146, 41 and 124). -/
def Obligations.SampleEndsWithMirror : Prop :=
  ∀ (a : Fin 4) (s : State) (x : Integrals) (isns rvx rvy : Int),
    ∃ t, exec (.servoSample a x isns rvx rvy) s = .next t ∧
      (t.act a).servo.mirror = { vcm := (t.act a).servo.vcm, ma := (t.act a).servo.ma, rv := (t.act a).servo.rv
                                 xa := (t.act a).servo.xa, mode := t.mode a } ∧
      t.fld (Adr.BTN_POS a) Fld.BTN_POS_seq = (s.fld (Adr.BTN_POS a) Fld.BTN_POS_seq + 1) % 2 ^ Fld.BTN_POS_seq.width ∧
      (s.mode a = 0 → t.mode a = 0 ∧ (t.act a).servo.predicted = 0) ∧ t.host = s.host

/-- The batten gain, its window and the end of every window (R91, R100), and the settling of the loop (R149, R151). -/
def Obligations.GainWindowAndSettling : Prop :=
  ∀ (a : Fin 4) (s : State),
    (s.flag (Adr.BTN_CTRL a) Fld.BTN_CTRL_gain_auto = true → 16 ≤ (s.act a).batten.gainRun → 16 ≤ (s.act a).batten.gainSince →
      ((s.act a).batten.gainUp = true → s.fld (Adr.BTN_INVAL a) Fld.BTN_INVAL_gain_code < 31 →
        ∃ t, exec (.battenGainStep a) s = .next t ∧
          t.fld (Adr.BTN_INVAL a) Fld.BTN_INVAL_gain_code = s.fld (Adr.BTN_INVAL a) Fld.BTN_INVAL_gain_code + 1 ∧
          (t.act a).batten.winGain = 6 ∧ (t.act a).batten.gainSince = 0 ∧ s.ActsBut a t ∧
          s.RegsBut [Adr.BTN_INVAL a, Adr.BTN_POS a] t ∧ t = { s with regs := t.regs, acts := t.acts }) ∧
      ((s.act a).batten.gainUp = false → 0 < s.fld (Adr.BTN_INVAL a) Fld.BTN_INVAL_gain_code →
        ∃ t, exec (.battenGainStep a) s = .next t ∧
          t.fld (Adr.BTN_INVAL a) Fld.BTN_INVAL_gain_code = s.fld (Adr.BTN_INVAL a) Fld.BTN_INVAL_gain_code - 1 ∧
          (t.act a).batten.winGain = 6 ∧ (t.act a).batten.gainSince = 0 ∧ s.ActsBut a t ∧
          s.RegsBut [Adr.BTN_INVAL a, Adr.BTN_POS a] t ∧ t = { s with regs := t.regs, acts := t.acts }) ∧
      (s.fld (Adr.BTN_INVAL a) Fld.BTN_INVAL_gain_code = (if (s.act a).batten.gainUp = true then 31 else 0) →
        exec (.battenGainStep a) s = .next s)) ∧
    (s.flag (Adr.BTN_CTRL a) Fld.BTN_CTRL_gain_auto = false ∨ (s.act a).batten.gainRun < 16 ∨ (s.act a).batten.gainSince < 16 →
      exec (.battenGainStep a) s = .next s) ∧
    (∃ t, exec (.invalidWindowEnd a) s = .next t ∧ (t.act a).batten.winHead = 0 ∧ (t.act a).batten.winGain = 0 ∧
      (t.act a).batten.winFilter = 0 ∧ t.fld (Adr.BTN_INVAL a) Fld.BTN_INVAL_remaining = 0 ∧
      t.fld (Adr.BTN_POS a) Fld.BTN_POS_cause = 0 ∧ s.ActsBut a t ∧ s.RegsBut [Adr.BTN_INVAL a, Adr.BTN_POS a] t ∧
      t = { s with regs := t.regs, acts := t.acts }) ∧
    (s.mode a = 1 → s.fld (Adr.SRV_SETTLE a) Fld.SRV_SETTLE_settle_cnt ≤ (s.act a).servo.settleRun →
      ∃ t, exec (.settled a) s = .next t ∧ t.flag (Adr.SRV_STATUS a) Fld.SRV_STATUS_settled = true ∧ (t.act a).servo.inhibit = false ∧
        (s.funcRunning (4 + a) = false → t.flag (Adr.SRV_STATUS a) Fld.SRV_STATUS_wr_permit = false) ∧ s.ActsBut a t ∧
        s.RegsBut [Adr.SRV_STATUS a] t ∧ t = { s with regs := t.regs, acts := t.acts })

/-- The supervisors and sensor checks of the loop (R153 to R157): what each sets, and that it leaves the other actuators alone. -/
def Obligations.ServoSupervisors : Prop :=
  ∀ (a : Fin 4) (s : State),
    (s.mode a = 1 → s.fld (Adr.SRV_LOOPCFG a) Fld.SRV_LOOPCFG_sup_sel ≠ 1 →
      s.fld (Adr.SRV_FELIM a) Fld.SRV_FELIM_fe_time ≤ (s.act a).servo.feRun → ∃ t, exec (.followingErrorTrip a) s = .next t ∧
        t.flag (Adr.SRV_STICKY a) Fld.SRV_STICKY_fe_trip = true ∧ t.flag (Adr.SRV_STATUS a) Fld.SRV_STATUS_wr_permit = false ∧
        t.flag (Adr.SRV_STATUS a) Fld.SRV_STATUS_settled = false ∧ t.flag (Adr.FSQ_STATUS a) Fld.FSQ_STATUS_abort_pend = true ∧
        (t.act a).servo.feRun = 0 ∧ s.ActsBut a t ∧
        s.RegsButEvents [Adr.SRV_STICKY a, Adr.SRV_STATUS a, Adr.FSQ_STATUS a, Adr.SRV_CNT a] t) ∧
    (s.mode a = 1 → (s.fld (Adr.SRV_LOOPCFG a) Fld.SRV_LOOPCFG_sup_sel = 1 ∨ s.fld (Adr.SRV_LOOPCFG a) Fld.SRV_LOOPCFG_sup_sel = 2) →
      s.fld (Adr.SRV_OSC a) Fld.SRV_OSC_osc_count ≤ (s.act a).servo.oscCount → ∃ t, exec (.oscillationTrip a) s = .next t ∧
        t.flag (Adr.SRV_STICKY a) Fld.SRV_STICKY_osc_trip = true ∧ t.flag (Adr.SRV_STATUS a) Fld.SRV_STATUS_wr_permit = false ∧
        t.flag (Adr.SRV_STATUS a) Fld.SRV_STATUS_settled = false ∧ t.flag (Adr.FSQ_STATUS a) Fld.FSQ_STATUS_abort_pend = true ∧
        (t.act a).servo.oscCount = 0 ∧ s.ActsBut a t ∧
        s.RegsButEvents [Adr.SRV_STICKY a, Adr.SRV_STATUS a, Adr.FSQ_STATUS a, Adr.SRV_CNT a] t) ∧
    (64 ≤ (s.act a).servo.imRun → ∃ t, exec (.isnsMismatch a) s = .next t ∧ t.flag (Adr.SRV_STICKY a) Fld.SRV_STICKY_imismatch = true ∧
      t.flag (Adr.SRV_STATUS a) Fld.SRV_STATUS_wr_permit = false ∧ (t.act a).servo.imRun = 0 ∧ s.ActsBut a t ∧
      s.RegsButEvents [Adr.SRV_STICKY a, Adr.SRV_STATUS a] t) ∧
    (256 ≤ (s.act a).servo.rvRunY → ∃ t, exec (.rvSensorDrop a true) s = .next t ∧ (t.act a).servo.rvDropY = true ∧
      (t.act a).servo.rvDropX = (s.act a).servo.rvDropX ∧ t.flag (Adr.SRV_STICKY a) Fld.SRV_STICKY_rv_fault = true ∧ s.ActsBut a t ∧
      s.RegsButEvents [Adr.SRV_STICKY a] t) ∧
    (256 ≤ (s.act a).servo.rvRunX → ∃ t, exec (.rvSensorDrop a false) s = .next t ∧ (t.act a).servo.rvDropX = true ∧
      (t.act a).servo.rvDropY = (s.act a).servo.rvDropY ∧ t.flag (Adr.SRV_STICKY a) Fld.SRV_STICKY_rv_fault = true ∧ s.ActsBut a t ∧
      s.RegsButEvents [Adr.SRV_STICKY a] t)

/-- Seeks, re-identification and the loop engines (R137, R147 to R149, R161): a seek asked for during a seek is held, an ended seek hands over to
following at its target, a re-identification that lasts unloads, reloaded heads re-identify, and a standby takes a faulty loop over. What the spec
leaves open here is the model's choice (log entries 134, 148 and 44). -/
def Obligations.SeekAndLoopRows : Prop :=
  ∀ (a : Fin 4) (s : State),
    (∀ n : Nat, s.mode a = 2 ∨ s.mode a = 3 ∨ (s.mode a = 1 ∧ s.funcRunning (4 + a) = false) → ∃ t, exec (.seekRequest a n) s = .next t ∧ (t.act a).servo.heldSeek = some n ∧ s.ActsBut a t ∧
      t = { s with acts := t.acts }) ∧
    (∀ (n : Nat) (k : Seek), s.mode a = 1 → s.funcRunning (4 + a) = true → s.seekPlan a n = .start k →
      ∃ t, exec (.seekRequest a n) s = .next t ∧ t.mode a = 2 ∧ (t.act a).servo.seek = some k ∧
        t.flag (Adr.SRV_STATUS a) Fld.SRV_STATUS_settled = false ∧ t.flag (Adr.SRV_STATUS a) Fld.SRV_STATUS_wr_permit = false ∧
        t.fld (Adr.SRV_TARGET a) Fld.SRV_TARGET_target = n % 2 ^ Fld.SRV_TARGET_target.width ∧
        s.ActsBut a t ∧ s.RegsBut [Adr.SRV_STATUS a, Adr.SRV_TARGET a] t) ∧
    (∀ n : Nat, s.mode a = 0 ∨ (s.mode a = 1 ∧ s.funcRunning (4 + a) = true ∧ s.seekPlan a n = .failed) →
      ∃ t, exec (.seekRequest a n) s = .next t ∧ (t.act a).servo.failedSeek = some n ∧ t.mode a = s.mode a ∧ s.ActsBut a t ∧
        t = { s with acts := t.acts }) ∧
    (∀ k : Seek, (s.act a).servo.seek = some k → k.over = true → (s.act a).servo.heldSeek = none → ∃ t, exec (.seekHandover a) s = .next t ∧
      t.mode a = 1 ∧ (t.act a).servo.seek = none ∧ t.fld (Adr.MDI_SURF a) Fld.MDI_SURF_act_state = 0 ∧
      t.flag (Adr.SRV_STATUS a) Fld.SRV_STATUS_settled = false ∧ s.ActsBut a t) ∧
    (s.mode a = 3 → ∃ t, exec (.reidentTimeout a) s = .next t ∧ t.mode a = 0 ∧
      t.flag (Adr.SRV_STATUS a) Fld.SRV_STATUS_wr_permit = false ∧
      (∃ f : PicFrame, (f ∈ t.pic.waiting ∨ t.pic.busy = some f) ∧ f.kind = .retract ∧ f.act = a.val ∧
        f.word = s.fld (Adr.SRV_IOCFG a) Fld.SRV_IOCFG_pic_unload % 256 * 65536 + 1) ∧
      ((s.act a).servo.reloading = false → t.media = s.media ∧ s.ActsBut a t ∧ s.RegsButEvents [Adr.SRV_STATUS a] t) ∧
      ((s.act a).servo.reloading = true → (t.act a).servo.reloads = (s.act a).servo.reloads + 1)) ∧
    (s.mode a = 0 → (s.act a).lost = false → s.mayLoad = true → (s.act a).servo.reloads + 1 < 3 → ∃ t,
      exec (.actuatorReload a false) s = .next t ∧ (t.act a).servo.reloads = (s.act a).servo.reloads + 1 ∧ t.mode a = 0 ∧
        s.ActsBut a t ∧ t = { s with acts := t.acts }) ∧
    (s.mode a = 0 → (s.act a).lost = false → s.mayLoad = true → ∃ t, exec (.actuatorReload a true) s = .next t ∧ t.mode a = 3 ∧
      t.flag (Adr.SRV_STICKY a) Fld.SRV_STICKY_reident = true ∧ t.fld (Adr.MDI_SURF a) Fld.MDI_SURF_act_state = 1 ∧ s.ActsBut a t ∧
      s.RegsBut [Adr.SRV_STATUS a, Adr.SRV_OUT a, Adr.SRV_STICKY a, Adr.MDI_SURF a] t) ∧
    (∀ k : Nat, s.spn.pool[s.faultsBefore a]? = some k → k < 4 → ∃ t, exec (.loopEngineFault a) s = .next t ∧
      t.spn.pool = s.spn.pool.filter (· != k) ∧
      t.flag (Adr.SRV_STATUS a) Fld.SRV_STATUS_on_standby = true ∧ t.fld (Adr.SRV_STATUS a) Fld.SRV_STATUS_sb_id = k ∧
      (t.act a).servo.vcm = (s.act a).servo.mirror.vcm ∧ (t.act a).servo.ma = (s.act a).servo.mirror.ma ∧
      t.flag (Adr.FSQ_STATUS a) Fld.FSQ_STATUS_abort_pend = true ∧ s.ActsBut a t ∧
      s.RegsButEvents [Adr.SRV_STATUS a, Adr.FSQ_STATUS a, Adr.BTN_POS a] t) ∧
    (s.spn.pool[s.faultsBefore a]? = none → s.media.lostActs.contains a.val = false →
      ∃ t, exec (.loopEngineFault a) s = .next t ∧ (t.act a).lost = true ∧ t.mode a = 0)

/-! ## The spindle -/

/-- Spin-up from the pre-start sensing to the running state (R182, R185) and its end at speed (R177). What the spec leaves open here is the model's
choice (log entries 48, 45 and 150). -/
def Obligations.SpinUpRows : Prop :=
  ∀ s : State,
    (∀ (rpm : Int) (theta : Nat), s.spin = 2 → 300 ≤ rpm → ∃ t, exec (.prestartSensingDone rpm theta) s = .next t ∧ t.spin = 6 ∧
      t.fld Adr.SPN_PRESTART Fld.SPN_PRESTART_result = 1 ∧ t.fld Adr.SPN_PRESTART Fld.SPN_PRESTART_rpm = min rpm.natAbs 32767 ∧
      t.spn.theta = theta % 2 ^ 32 ∧ t.acts = s.acts) ∧
    (∀ (rpm : Int) (theta : Nat), s.spin = 2 → rpm < 300 → ∃ t, exec (.prestartSensingDone rpm theta) s = .next t ∧ t.spin = 3 ∧
      t.fld Adr.SPN_PRESTART Fld.SPN_PRESTART_result = (if 60 ≤ rpm.natAbs then 2 else 0) ∧
      t.flag Adr.SPN_PRESTART Fld.SPN_PRESTART_reverse = decide (rpm < 0) ∧ t.acts = s.acts ∧
      s.RegsButEvents [Adr.SPN_PRESTART, Adr.SPN_SPEED, Adr.SPN_STATUS] t) ∧
    (s.spin = 3 → s.spn.stopping = false → s.spn.retrying = false → ∃ t, exec .brakeHoldEnd s = .next t ∧ t.spin = 4 ∧
      s.RegsBut [Adr.SPN_STATUS] t ∧ t = { s with regs := t.regs, spn := t.spn }) ∧
    (s.spin = 3 → s.spn.stopping = false → s.spn.retrying = true → s.fld Adr.SPN_MOTOR Fld.SPN_MOTOR_pole_pairs ≠ 0 →
      ∃ t, exec .brakeHoldEnd s = .next t ∧ (t.spin = 1 ∨ t.spin = 2) ∧ t.spn.retrying = false) ∧
    (s.spin = 3 → s.spn.stopping = true → s.spn.startHeld = false → ∃ t, exec .brakeHoldEnd s = .next t ∧ t.spin = 0 ∧
      t.spn.stopping = false ∧ s.RegsBut [Adr.SPN_STATUS] t ∧ t = { s with regs := t.regs, spn := t.spn }) ∧
    (∀ theta : Nat, s.spin = 4 → ∃ t, exec (.positionSensingDone theta) s = .next t ∧ t.spin = 5 ∧ t.spn.theta0 = theta % 2 ^ 32 ∧
      t.spn.forced = 0 ∧ s.RegsBut [Adr.SPN_STATUS] t ∧ t = { s with regs := t.regs, spn := t.spn }) ∧
    (s.spin = 5 → 32 ≤ s.spn.handRun → 300 * 8388608 ≤ s.forcedSpeed s.spn.forced * 10000 → ∃ t, exec .startHandover s = .next t ∧
      t.spin = 6 ∧ t.spn.attempts = 0 ∧ t.spn.integS = s.spn.iq ∧ t.acts = s.acts) ∧
    (s.spin = 5 → 2 ≤ s.spn.attempts → ∃ t, exec .handoverTimeout s = .next t ∧ t.spin = 0 ∧
      t.fld Adr.SPN_PRESTART Fld.SPN_PRESTART_result = 3 ∧ t.spn.attempts = 0 ∧
      s.RegsButEvents [Adr.SPN_STATUS, Adr.SPN_PRESTART] t) ∧
    (s.spin = 5 → s.spn.attempts < 2 → ∃ t, exec .handoverTimeout s = .next t ∧ t.spin = 3 ∧ t.spn.retrying = true ∧
      t.spn.cmpNext = [0, 0, 0] ∧ t.spn.attempts = s.spn.attempts + 1 ∧ t.acts = s.acts ∧ s.RegsButEvents [Adr.SPN_STATUS] t) ∧
    (s.spin = 6 → 24000 ≤ s.spn.atRun → s.atSpeed = false → ∃ t, exec .atSpeed s = .next t ∧ t.atSpeed = true ∧ t.spin = 6 ∧
      t.pln.noMedia = false ∧ t.nor.counters[2] = s.nor.counters[2] + 1)

/-- The heads' park check before spin-up (R183): a parked actuator leaves the list, one that stays is rocked, and the last pair refuses the spin-up.
What the spec leaves open here is the model's choice (log entry 49). -/
def Obligations.ParkCheckRows : Prop :=
  ∀ (s : State) (a : Fin 4) (r : List (Fin 4)), s.spn.parking = a :: r → s.spin = 1 →
    (s.spn.rockPairs = 0 → ∃ t, exec (.parkRetractWaitEnd true) s = .next t ∧ t.spn.parking = r ∧ t.spn.rockPairs = 0 ∧
      t.spin = (if r = [] then 2 else 1)) ∧
    (s.spn.rockPairs = 0 → ∃ t, exec (.parkRetractWaitEnd false) s = .next t ∧ t.spn.parking = a :: r ∧ t.spn.rockPairs = 1 ∧ t.spin = 1 ∧
      s.RegsBut [Adr.SRV_OUT a] t) ∧
    (s.spn.rockPairs ≠ 0 → ∃ t, exec (.rockPairDone true) s = .next t ∧ t.spn.parking = r ∧ t.spn.rockPairs = 0 ∧
      t.sfld (Adr.SRV_OUT a) Fld.SRV_OUT_vcm = 0) ∧
    (s.spn.rockPairs ≠ 0 → s.spn.rockPairs < s.fld Adr.SPN_ROCK Fld.SPN_ROCK_rock_cycles →
      ∃ t, exec (.rockPairDone false) s = .next t ∧ t.spn.parking = a :: r ∧ t.spn.rockPairs = s.spn.rockPairs + 1 ∧ t.spin = 1 ∧
        s.RegsBut [Adr.SRV_OUT a] t) ∧
    (s.spn.rockPairs ≠ 0 → s.fld Adr.SPN_ROCK Fld.SPN_ROCK_rock_cycles ≤ s.spn.rockPairs →
      ∃ t, exec (.rockPairDone false) s = .next t ∧ t.spin = 0 ∧ t.fld Adr.SPN_PRESTART Fld.SPN_PRESTART_result = 3 ∧
        t.spn.parking = [])

/-- One PWM period, whatever the samples are: the period count goes on, and the compare values computed in the period before take effect
(R166). -/
def Obligations.PwmPeriodTakesEffect : Prop :=
  ∀ (s : State) (u v w : Int), ∃ t, exec (.pwmPeriod u v w) s = .next t ∧ t.spn.period = s.spn.period + 1 ∧ t.spn.cmp = s.spn.cmpNext ∧
    t.host = s.host

/-- The spindle's protections and readings (R168, R171, R172, R178 to R180, R186): overcurrent, the floor of field weakening, a read of V_bus, the
current-sense offsets, braking, and a standby for its engine. What the spec leaves open here is the model's choice (log entries 51, 50 and
136). -/
def Obligations.SpindleProtectionRows : Prop :=
  ∀ s : State,
    (8 ≤ s.spn.ocAt.length → ∃ t, exec .overcurrentCoast s = .next t ∧ t.spin = 8 ∧ t.spn.ocAt = [] ∧
      (s.flag Adr.SPN_RETRACT Fld.SPN_RETRACT_retracted = false → ∀ a : Fin 4, t.mode a = 0)) ∧
    (16 ≤ s.spn.fwRun → s.spn.fwSaid = false → ∃ t, exec .fwFloor s = .next t ∧ t.flag Adr.SPN_STICKY Fld.SPN_STICKY_fw_floor = true ∧
      t.spn.fwSaid = true ∧ s.RegsButEvents [Adr.SPN_STICKY] t ∧ t = { s.takeEvents t with spn := t.spn }) ∧
    (∀ mv : Nat, s.pic.vbusDue = true → ∃ t, exec (.vbusRead mv) s = .next t ∧ t.pic.vbusDue = false ∧ t.fld Adr.SPN_VBUS Fld.SPN_VBUS_vbus = min mv 65535 ∧
      s.RegsButEvents [Adr.SPN_VBUS, Adr.SPN_STICKY] t ∧ t = { s.takeEvents t with spn := t.spn, pic := t.pic }) ∧
    (∀ l : List (Int × Int × Int), s.spn.calibrating = true → l.length = 64 → ∃ t, exec (.isnsCalDone l) s = .next t ∧
      t.fld Adr.SPN_IOFS Fld.SPN_IOFS_ofs_u = unsigned 10 (averageOf (l.map (fun p => p.1))) ∧
      t.fld Adr.SPN_IOFS Fld.SPN_IOFS_ofs_v = unsigned 10 (averageOf (l.map (fun p => p.2.1))) ∧
      t.fld Adr.SPN_IOFS Fld.SPN_IOFS_ofs_w = unsigned 10 (averageOf (l.map (fun p => p.2.2))) ∧ t.spn.calibrating = false ∧ s.RegsBut [Adr.SPN_IOFS] t ∧
      t = { s with regs := t.regs, spn := t.spn }) ∧
    (s.spin = 7 → ∃ t, exec .spindownBrakeChange s = .next t ∧ t.spin = 3 ∧ t.spn.cmpNext = [0, 0, 0] ∧ s.RegsBut [Adr.SPN_STATUS] t ∧
      t = { s with regs := t.regs, spn := t.spn }) ∧
    (∀ (k : Nat) (r : List Nat), s.spn.pool = k :: r → k < 4 → ∃ t, exec (.spindleEngineFault none) s = .next t ∧ t.spn.pool = r ∧
      t.flag Adr.SPN_STATUS Fld.SPN_STATUS_on_standby = true ∧ t.fld Adr.SPN_STATUS Fld.SPN_STATUS_sb_id = k ∧
      t.spn.cmpNext = s.spn.cmp ∧ t.spn.theta = s.spn.mirror.theta ∧ t.spn.w = s.spn.mirror.w ∧ t.spn.integS = s.spn.mirror.integS ∧
      s.RegsButEvents [Adr.SPN_STATUS] t) ∧
    (s.spn.pool = [] → s.flag Adr.FLT_STATE Fld.FLT_STATE_recovering = false → ∃ t, exec (.spindleEngineFault none) s = .next t ∧
      t.spin = 8 ∧ (s.flag Adr.SPN_RETRACT Fld.SPN_RETRACT_retracted = false → ∀ a : Fin 4, t.mode a = 0)) ∧
    (∀ k : Fin 3, k.val ∈ s.spn.pool → ∃ t, exec (.spindleEngineFault (some k)) s = .next t ∧ k.val ∉ t.spn.pool ∧
      s.RegsButEvents [] t ∧ t = { s.takeEvents t with spn := t.spn })

/-- The owner's spindle commands (R170, R171, R182, R186): a start from rest begins the park check or the sensing, a stop spins down, a coast is
refused while heads are loaded, and the calibration and gain of the current sense. -/
def Obligations.SpindleCommandRows : Prop :=
  ∀ (s : State) (o : Nat),
    (∀ (v : Word) (p : Nat), s.Writable o Adr.SPN_CMD → s.spin = 0 → s.fld Adr.SPN_MOTOR Fld.SPN_MOTOR_pole_pairs ≠ 0 →
      ∃ t, exec (.spindleStart o v p) s = .next t ∧ (t.spin = 1 ∨ t.spin = 2)) ∧
    (∀ v : Word, s.Writable o Adr.SPN_CMD → s.spin ≠ 0 → ∃ t, exec (.spindleStop o v) s = .next t ∧ t.spin = 7 ∧ t.spn.stopping = true ∧
      ∀ a : Fin 4, t.mode a = 0) ∧
    (∀ v : Word, s.Writable o Adr.SPN_CMD → s.loaded = true → ∃ t, exec (.spindleCoast o v) s = .next t ∧
      t.flag Adr.SPN_STICKY Fld.SPN_STICKY_cmd_refused = true ∧ t.spin = s.spin) ∧
    (∀ v : Word, s.Writable o Adr.SPN_CMD → s.loaded = false → ∃ t, exec (.spindleCoast o v) s = .next t ∧ t.spin = 8) ∧
    (∀ rpm : Int, s.Writable o Adr.SPN_ISNSCFG → s.flag Adr.SPN_CMD Fld.SPN_CMD_gate_en = false → s.spin = 0 → rpm.natAbs < 60 →
      ∃ t, exec (.isnsCal o rpm) s = .next t ∧ t.spn.calibrating = true) ∧
    (∀ g : Fin 4, s.Writable o Adr.SPN_ISNSCFG → g.val ≠ s.fld Adr.SPN_ISNSCFG Fld.SPN_ISNSCFG_isns_gain →
      ∃ t, exec (.isnsGainWrite o g) s = .next t ∧ t.fld Adr.SPN_ISNSCFG Fld.SPN_ISNSCFG_isns_gain = g.val ∧ t.spn.winLeft = 4)

/-- The retract pair (R187, R188): both inputs retract every actuator, one alone retracts after its time and is named, both deasserted re-arm and
load, and a media command that has waited 1 s ends with Namespace Not Ready. -/
def Obligations.RetractPairRows : Prop :=
  ∀ s : State,
    (s.ps < 4 → s.flag Adr.SPN_RETRACT Fld.SPN_RETRACT_retracted = false →
      (s.flag Adr.SPN_RETRACT Fld.SPN_RETRACT_a_asserted && s.flag Adr.SPN_RETRACT Fld.SPN_RETRACT_b_asserted) = false →
      ∃ t, exec (.retractInputChange true true) s = .next t ∧
      t.flag Adr.SPN_RETRACT Fld.SPN_RETRACT_retracted = true ∧ t.flag Adr.SPN_RETRACT Fld.SPN_RETRACT_armed = false ∧
      t.flag Adr.SPN_RETRACT Fld.SPN_RETRACT_a_asserted = true ∧ t.flag Adr.SPN_RETRACT Fld.SPN_RETRACT_b_asserted = true ∧
      (∀ a : Fin 4, t.mode a = 0) ∧ t.nor.counters[8] = s.nor.counters[8] + 1) ∧
    (4 ≤ s.ps → ∃ t, exec (.retractInputChange true true) s = .next t ∧ t.flag Adr.SPN_RETRACT Fld.SPN_RETRACT_armed = false ∧
      t.acts = s.acts ∧ s.RegsBut [Adr.SPN_RETRACT] t ∧ t = { s with regs := t.regs, spn := t.spn }) ∧
    (s.flag Adr.SPN_RETRACT Fld.SPN_RETRACT_a_asserted = true → s.flag Adr.SPN_RETRACT Fld.SPN_RETRACT_b_asserted = false →
      s.spn.pairReported = false → s.ps < 4 → s.flag Adr.SPN_RETRACT Fld.SPN_RETRACT_retracted = false →
      ∃ t, exec .retractDiscrepancy s = .next t ∧ t.flag Adr.SPN_RETRACT Fld.SPN_RETRACT_retracted = true ∧
        t.fld Adr.SPN_RETRACT Fld.SPN_RETRACT_named = 2 ∧ t.spn.pairReported = true ∧ ∀ a : Fin 4, t.mode a = 0) ∧
    (s.ps < 4 → s.flag Adr.SPN_RETRACT Fld.SPN_RETRACT_armed = false → s.flag Adr.SPN_RETRACT Fld.SPN_RETRACT_a_asserted = false →
      s.flag Adr.SPN_RETRACT Fld.SPN_RETRACT_b_asserted = false → ∃ u : State, exec .retractRearm s = .next u.settle ∧
        u.flag Adr.SPN_RETRACT Fld.SPN_RETRACT_armed = true ∧ u.flag Adr.SPN_RETRACT Fld.SPN_RETRACT_retracted = false ∧
        u.host = s.host) ∧
    (∀ (o q c : Nat) (x : Ctx), s.ctx o q c = some x → o < 1024 → x.wait = .retract →
      s.flag Adr.SPN_RETRACT Fld.SPN_RETRACT_armed = false → ∃ t, exec (.retractWaitTimeout o q c) s = .next t ∧
        t.host.completions = s.host.completions ++ [⟨o, q, c, 0, 0x82, false, 0, 0, []⟩] ∧ t.media.sectors = s.media.sectors)

/-! ## The time base, the phase loop and the launches -/

/-- PTP (R198 to R200): an announce, a sync, its follow-up and the answer that completes the exchange and gives delay and offset; and a master that
falls silent. Delay requests go out on the PTP port in its VLAN at priority 7. What the spec leaves open here is the model's choice (log entries
54 and 144). -/
def Obligations.PtpRows : Prop :=
  ∀ s : State,
    let p := s.fld Adr.TMB_STATUS Fld.TMB_STATUS_ptp_port
    let v := s.fld Adr.TMB_SRCCFG Fld.TMB_SRCCFG_vlan
    let tag := if v = 0 then none else some (v, 7)
    (∀ (h : PtpHeader) (m : Master), s.ptpHeard h = true → ∃ t, exec (.ptpAnnounce h m) s = .next t ∧ m ∈ t.time.masters ∧
      t.acts = s.acts ∧ t.host = s.host) ∧
    (∀ (h : PtpHeader) (i q : Nat) (n : Int), s.ptpHeard h = true → s.time.best = some i → -7 ≤ n → n ≤ 1 →
      ∃ t, exec (.ptpSync h i q n none) s = .next t ∧ t.time.ptpOk = true ∧
        t.time.exchange = some { seq := q, t2 := s.stamp } ∧ t.host = s.host) ∧
    (∀ (h : PtpHeader) (i q : Nat) (n org : Int), s.ptpHeard h = true → s.time.best = some i → -7 ≤ n → n ≤ 1 →
      ∃ t, exec (.ptpSync h i q n (some org)) s = .next t ∧ t.time.ptpOk = true ∧
        t.time.exchange = some { seq := q, t2 := s.stamp, t1 := some org, t3 := s.stamp } ∧
        t.host.sent = s.host.sent ++ [⟨.ptp p q, tag⟩]) ∧
    (∀ (h : PtpHeader) (i q : Nat) (n : Int) (org : Option Int), n < -7 ∨ 1 < n → exec (.ptpSync h i q n org) s = .next s) ∧
    (∀ (h : PtpHeader) (i q : Nat) (org : Int) (e : Exchange), s.ptpHeard h = true → s.time.best = some i → s.time.exchange = some e →
      e.seq = q → e.t1 = none → ∃ t, exec (.ptpFollowUp h i q org) s = .next t ∧
        t.time.exchange = some { e with t1 := some org, t3 := s.stamp } ∧ t.host.sent = s.host.sent ++ [⟨.ptp p q, tag⟩] ∧ t.regs = s.regs) ∧
    (∀ (h : PtpHeader) (i q : Nat) (rc t1 : Int) (e : Exchange), s.ptpHeard h = true → s.time.best = some i → s.time.exchange = some e →
      e.seq = q → e.t1 = some t1 → s.srcSelected.1 = false ∨ 2 ≤ s.srcUsed → ∃ t, exec (.ptpDelayResp h i q rc) s = .next t ∧
        t.time.exchange = none ∧ t.time.ptpOffset = some ((e.t2 : Int) - t1 - (((e.t2 : Int) - t1) + (rc - (e.t3 : Int))) / 2) ∧
        t = { s with regs := t.regs, time := t.time } ∧ s.RegsBut [Adr.TMB_PDELAY] t) ∧
    (∀ (h : PtpHeader) (i q : Nat) (rc t1 : Int) (e : Exchange), s.ptpHeard h = true → s.time.best = some i → s.time.exchange = some e →
      e.seq = q → e.t1 = some t1 → ∃ t, exec (.ptpDelayResp h i q rc) s = .next t ∧ t.time.exchange = none ∧ t.host = s.host) ∧
    (∀ i : Nat, ∃ t, exec (.ptpAnnounceTimeout i) s = .next t ∧ t.time.masters = s.time.masters.filter (fun x => x.ident != i) ∧
      t.host = s.host)

/-- The Geryn link and the end of holdover (R197, R203 to R205): a marker within its window and one outside it, a word with a good check, a word
that is discarded, two markers missing in a row, and holdover that has lasted its time. What the spec leaves open here is the model's choice (log
entry 132). -/
def Obligations.GerynRows : Prop :=
  ∀ s : State,
    ((∀ l : Nat, s.time.gLast = some l → l + 999990000 ≤ s.now ∧ s.now ≤ l + 1000010000) → ∃ t, exec .gerynMarker s = .next t ∧
      t.flag Adr.GLK_STATUS Fld.GLK_STATUS_pps = true ∧ t.time.gMissing = 0 ∧ t.time.gLast = some s.now ∧
      t.time.gSec = s.time.gSec.map (fun n => n + 1) ∧ t.host = s.host) ∧
    (∀ l : Nat, s.time.gLast = some l → s.now < l + 999990000 ∨ l + 1000010000 < s.now → ∃ t, exec .gerynMarker s = .next t ∧
      t.time.gMissing = s.time.gMissing + 1 ∧ t.host = s.host) ∧
    (∀ l : List Byte, (let w := fitBytes l 13
        gerynCheck (w.take 11) = ofBe (slice w 11 2) ∧ (w.getD 0 0).toNat = 1 ∧ (w.getD 10 0).toNat < 16) →
      ∃ t, exec (.gerynWord l) s = .next t ∧ t.flag Adr.GLK_STATUS Fld.GLK_STATUS_word_ok = true ∧
        t.fld Adr.GLK_STATUS Fld.GLK_STATUS_last_hop = ((fitBytes l 13).getD 10 0).toNat ∧
        t.time.gSec = some (ofBe (slice (fitBytes l 13) 1 6)) ∧ t.time.gEdge = none ∧ t.host = s.host ∧
        (s.time.gEdge = none → s.RegsBut [Adr.GLK_STATUS, Adr.TMB_UTC] t ∧ t = { s with regs := t.regs, time := t.time })) ∧
    (∀ l : List Byte, 16 ≤ ((fitBytes l 13).getD 10 0).toNat → ∃ t, exec (.gerynWord l) s = .next t ∧
      t.flag Adr.GLK_STATUS Fld.GLK_STATUS_word_ok = false ∧ t.time.gSec = s.time.gSec ∧
      (s.time.gEdge = none → s.RegsButEvents [Adr.GLK_STATUS] t ∧ t = { s.takeEvents t with time := t.time })) ∧
    (s.time.gMissing = 1 → s.flag Adr.GLK_STATUS Fld.GLK_STATUS_pps = true → ∃ t, exec .gerynMarkerMissing s = .next t ∧
      t.flag Adr.GLK_STATUS Fld.GLK_STATUS_pps = false ∧ t.time.gMissing = 2 ∧ t.host = s.host) ∧
    (s.time.gMissing = 0 → ∃ t, exec .gerynMarkerMissing s = .next t ∧ t.time.gMissing = 1 ∧ t = { s with time := t.time }) ∧
    (s.tbState = 3 → s.fld Adr.TMB_HOLD Fld.TMB_HOLD_holdover_max * 1000000000 ≤ s.holdTime → ∃ t, exec .holdoverExpiry s = .next t ∧
      t.tbState = 4 ∧ t.time.tb = s.time.tb ∧ t.host = s.host) ∧
    (s.tbState ≠ 3 ∨ s.holdTime < s.fld Adr.TMB_HOLD Fld.TMB_HOLD_holdover_max * 1000000000 → exec .holdoverExpiry s = .next s)

/-- The trace and link pins have one holder (R222's refusals, R504): a claim is granted when the other side does not hold them, and refused with a
conflict when it does; a release gives them back. -/
def Obligations.TraceAndLinkClaims : Prop :=
  ∀ (s : State) (o : Nat),
    (s.Writable o Adr.GLK_CLAIM → s.flag Adr.DBG_TRC Fld.DBG_TRC_held = false → ∃ t, exec (.glkClaim o) s = .next t ∧
      t.flag Adr.GLK_CLAIM Fld.GLK_CLAIM_held = true ∧ s.RegsBut [Adr.GLK_CLAIM] t ∧ t = { s with regs := t.regs }) ∧
    (s.Writable o Adr.GLK_CLAIM → s.flag Adr.DBG_TRC Fld.DBG_TRC_held = true → ∃ t, exec (.glkClaim o) s = .next t ∧
      t.flag Adr.GLK_CLAIM Fld.GLK_CLAIM_conflict = true ∧
      t.flag Adr.GLK_CLAIM Fld.GLK_CLAIM_held = s.flag Adr.GLK_CLAIM Fld.GLK_CLAIM_held ∧ s.RegsButEvents [Adr.GLK_CLAIM] t) ∧
    (s.Writable o Adr.GLK_CLAIM → ∃ t, exec (.glkRelease o) s = .next t ∧ t.flag Adr.GLK_CLAIM Fld.GLK_CLAIM_held = false ∧
      s.RegsBut [Adr.GLK_CLAIM] t ∧ t = { s with regs := t.regs }) ∧
    (∀ en : Bool, s.Writable o Adr.DBG_TRC → s.flag Adr.GLK_CLAIM Fld.GLK_CLAIM_held = false →
      ∃ t, exec (.dbgTrcClaim o en) s = .next t ∧ t.flag Adr.DBG_TRC Fld.DBG_TRC_held = true ∧
        t.flag Adr.DBG_TRC Fld.DBG_TRC_en = en ∧ s.RegsBut [Adr.DBG_TRC] t ∧ t = { s with regs := t.regs }) ∧
    (s.Writable o Adr.DBG_TRC → ∃ t, exec (.dbgTrcRelease o) s = .next t ∧ t.flag Adr.DBG_TRC Fld.DBG_TRC_held = false ∧
      s.RegsBut [Adr.DBG_TRC] t ∧ t = { s with regs := t.regs })

/-- The phase loop (R209 to R214): the index of an accepted rafter 0 gives the phase error, its absence for 128 revolutions, an approach asked for
and its end. What the spec leaves open here is the model's choice (log entries 145 and 57). -/
def Obligations.PhaseLoopRows : Prop :=
  ∀ s : State,
    (∀ (a : Fin 4) (n : Nat), (s.act a).batten.accepted = true → (s.act a).batten.index = 0 →
      (∀ p : Nat, s.time.lastIndex = some p → p + s.trevSet / 2 ≤ s.indexInstant a n) →
      ∃ t, exec (.phaseMeasurement a n) s = .next t ∧ t.time.lastIndex = some (s.indexInstant a n) ∧
        (s.flag Adr.TMB_MEMBER Fld.TMB_MEMBER_en = false → t.phase = 0) ∧ t.host = s.host ∧ t.acts = s.acts) ∧
    (∀ (a : Fin 4) (n : Nat), (s.act a).batten.accepted = false ∨ (s.act a).batten.index ≠ 0 →
      exec (.phaseMeasurement a n) s = .next s) ∧
    (s.phase = 4 → ∃ t, exec .phaseMeasurementTimeout s = .next t ∧ t.phase = 3 ∧ t.time.lastIndex = none ∧ s.RegsBut [Adr.TMB_PLSTAT] t ∧
      t = { s with regs := t.regs, time := t.time }) ∧
    (s.phase ≠ 4 → ∃ t, exec .phaseMeasurementTimeout s = .next t ∧ t.time.lastIndex = none ∧ t = { s with time := t.time }) ∧
    (∀ o : Nat, s.Writable o Adr.TMB_PLCTL → (s.phase = 3 ∨ s.phase = 4) →
      s.approachLength (s.sfld Adr.TMB_PHASE Fld.TMB_PHASE_e * 65536) ≤ 9000 → ∃ t, exec (.approachRequest o) s = .next t ∧ t.phase = 2 ∧
        t.sfld Adr.SPN_ANGLE Fld.SPN_ANGLE_trim = 0 ∧ t.time.approach.isSome = true ∧ s.RegsBut [Adr.TMB_PLSTAT, Adr.SPN_ANGLE] t) ∧
    (∀ o : Nat, s.Writable o Adr.TMB_PLCTL → (s.phase = 3 ∨ s.phase = 4) →
      9000 < s.approachLength (s.sfld Adr.TMB_PHASE Fld.TMB_PHASE_e * 65536) → ∃ t, exec (.approachRequest o) s = .next t ∧
        t.flag Adr.TMB_PLCTL Fld.TMB_PLCTL_refused = true ∧ t.phase = s.phase ∧ t = { s with regs := t.regs }) ∧
    (s.phase = 2 → ∃ u : State, exec .approachEnd s = .next u.settle ∧ u.phase = 3 ∧ u.time.approach = none ∧
      s.RegsBut [Adr.TMB_PLSTAT] u ∧ u.host = s.host)

/-- A bounded command (R220) that is still present after its bound from its launch still completes normally; the miss counts in TMB_LAUNCH.c0_miss
and records event 0x34B (R221). What the spec leaves open here is the model's choice (log entry 128). -/
def Obligations.MissedBoundIsCounted : Prop :=
  ∀ (s : State) (o q c w : Nat) (x : Ctx), s.ctx o q c = some x → s.bounded x w = true → x.launch + x.boundNs < s.tbNs →
    ∃ u : State, exec (.class0BoundMiss o q c w) s = .next (u.event 0x34B) ∧ (u.event 0x34B).host = s.host ∧
      (u.event 0x34B).fld Adr.TMB_LAUNCH Fld.TMB_LAUNCH_c0_miss = min (s.fld Adr.TMB_LAUNCH Fld.TMB_LAUNCH_c0_miss + 1) 255 ∧
      s.RegsBut [Adr.TMB_LAUNCH] u ∧ u = { s with regs := u.regs, time := u.time }

/-- A launch (R217 to R219): the pending command whose instant has come, with none due before it, is performed from its own launch on, and its
instant is its launch time. What the spec leaves open here is the model's choice (log entry 58). -/
def Obligations.DueLaunchIsReleased : Prop :=
  ∀ (s : State) (o q c l : Nat) (x : Ctx) (i : Instr), s.ctx o q c = some x → x.instr = some i → x.wait = .launch l none →
    l * 65536 ≤ s.time.tb → (∀ y ∈ s.host.ctxs, s.isDue y = true → keyLess (s.launchRank y) (s.launchRank x) = false) →
    s.restarting 2 = false → s.funcRunning 9 = true → s.ps < 2 → s.psMoving = false → s.time.tb ≤ l * 65536 + 65536000 →
    ∃ (u : State) (y : Ctx), exec (.launchRelease o q c) s = .next (u.body y i true).settle ∧ y.order = x.order ∧
      u.ctx o q c = some { x with launch := l } ∧ u.regs = s.regs ∧ u.media = s.media ∧ u.host.completions = s.host.completions

/-- The alarm comparators (R222): the owner claims a free one, is refused one that another holds, releases its own; and one that fires for the owner
with an interrupt. What the spec leaves open here is the model's choice (log entry 59). -/
def Obligations.AlarmRows : Prop :=
  ∀ (s : State) (k : Fin 8),
    (∀ (o : Nat) (v : Word), s.Writable o (Adr.TMB_ALM_CTL k) → s.fld (Adr.TMB_ALM_CTL k) Fld.TMB_ALM_CTL_holder = 0 →
      ∃ t, exec (.alarmClaim o k v) s = .next t ∧ t.fld (Adr.TMB_ALM_CTL k) Fld.TMB_ALM_CTL_holder = 1 ∧
        s.RegsBut [Adr.TMB_ALM_CTL k] t ∧ t = { s with regs := t.regs }) ∧
    (∀ (o : Nat) (v : Word), s.Writable o (Adr.TMB_ALM_CTL k) → 2 ≤ s.fld (Adr.TMB_ALM_CTL k) Fld.TMB_ALM_CTL_holder →
      ∃ t, exec (.alarmClaim o k v) s = .next t ∧ t.flag (Adr.TMB_ALM_CTL k) Fld.TMB_ALM_CTL_conflict = true ∧
        t.fld (Adr.TMB_ALM_CTL k) Fld.TMB_ALM_CTL_holder = s.fld (Adr.TMB_ALM_CTL k) Fld.TMB_ALM_CTL_holder ∧
        s.RegsButEvents [Adr.TMB_ALM_CTL k] t) ∧
    (∀ o : Nat, s.Writable o (Adr.TMB_ALM_CTL k) → s.fld (Adr.TMB_ALM_CTL k) Fld.TMB_ALM_CTL_holder = 1 →
      ∃ t, exec (.alarmRelease o k) s = .next t ∧ t.fld (Adr.TMB_ALM_CTL k) Fld.TMB_ALM_CTL_holder = 0 ∧
        s.RegsBut [Adr.TMB_ALM_CTL k] t ∧ t = { s with regs := t.regs }) ∧
    (s.fld (Adr.TMB_ALM_CTL k) Fld.TMB_ALM_CTL_holder = 1 → s.powered 2 = true → s.restarting 2 = false →
      s.alarmReached k = true → s.fld (Adr.TMB_ALM_CTL k) Fld.TMB_ALM_CTL_irq = 2 → ∃ t, exec (.alarmFire k) s = .next t ∧
        t.flag (Adr.TMB_ALM_CTL k) Fld.TMB_ALM_CTL_fired = true ∧ t.host.irqs = s.host.irqs ++ [k.val] ∧
        t.host.completions = s.host.completions ∧ s.RegsButEvents [Adr.TMB_ALM_CTL k] t) ∧
    (s.fld (Adr.TMB_ALM_CTL k) Fld.TMB_ALM_CTL_holder = 0 ∨ s.alarmReached k = false → exec (.alarmFire k) s = .next s)

/-! ## Recovery and integrity of the medium -/

/-- The layers of recovery (R226 to R229): course recovery rebuilds the erased sectors of a course of at most four lost positions from the other
sixty, and delivers them; a retry delivers those the decoder now gets, and sends the rest back to course recovery; truss recovery rebuilds a sector
from the eight other units, waits for a helper that is out of service, and gives up where it does not apply. What the spec leaves open here is the
model's choice (log entries 61 and 60). -/
def Obligations.RecoveryLayers : Prop :=
  ∀ (s : State) (x : Nat) (e : Erased), s.media.erasedAt x = some e → s.recoverable x = true →
    (∀ (lost : List Nat) (k : Nat × Nat × Nat), e.layer = 2 → s.courseOf x = some k → s.courseApplies x = true →
      (s.lostPositions x lost).length ≤ 4 → ∃ u : State, exec (.courseRecovery x lost) s = .next u.settle ∧
        (∀ d ∈ u.media.erased, d.media ∉ s.erasedWith x) ∧
        (∀ y ∈ s.erasedWith x, lookupKey u.media.dram y = some (s.rebuiltFrom k (s.lostPositions x lost) y)) ∧
        u.media.sectors = s.media.sectors ∧ u.host = s.host) ∧
    (∀ lost : List Nat, e.layer = 2 → (s.courseApplies x = false ∨ 4 < (s.lostPositions x lost).length) →
      exec (.courseRecovery x lost) s = .next (s.afterCourse x)) ∧
    (∀ l : List (Nat × Nat), e.layer = 3 → e.retry < s.retryMax x → ∃ u : State, exec (.readRetry x l) s = .next u.settle ∧
      (∀ d ∈ u.media.erased, d.media ∈ s.erasedWith x → d.layer = 2) ∧
      (∀ y ∈ s.erasedWith x, ∀ (n : Nat) (d : List Byte), lookupKey l y = some n → 1 ≤ n → n ≤ s.retryLimit y e.retry →
        s.readable y = some d → lookupKey u.media.dram y = some d ∧ ∀ z ∈ u.media.erased, z.media ≠ y) ∧
      u.media.sectors = s.media.sectors ∧ u.host = s.host) ∧
    (e.layer = 4 → s.trussApplies x = true → s.helperDown x = none → ∃ u : State, exec (.trussRecovery x true) s = .next u.settle ∧
      (∀ d ∈ u.media.erased, d.media ≠ x) ∧ lookupKey u.media.dram x = some (s.restOfTruss (x / 576) (x % 576 / 64) (x % 64)) ∧
      u.media.byTruss = s.media.byTruss + 1 ∧ u.media.sectors = s.media.sectors ∧ u.host = s.host) ∧
    (e.layer = 4 → s.trussApplies x = true → (s.helperDown x).isSome = true → exec (.trussRecovery x true) s = .next s) ∧
    (e.layer = 4 → s.trussApplies x = false → exec (.trussRecovery x true) s = .next (s.unrecovered x).settle)

/-- The ends of a recovery (R230, R231, R233, R234): once the limit has run out the command ends with a status and its sectors go on in the
background, a read of an unavailable actuator is served from the other units, a recovered sector is rewritten and, where it does not read back well,
moved, and a cut sector is written at a later pass. What the spec leaves open here is the model's choice (log entries 61 and 8). -/
def Obligations.RecoveryEndRows : Prop :=
  ∀ s : State,
    (∀ (o q c t0 : Nat) (x : Ctx) (i : Instr), s.ctx o q c = some x → o < 1024 → x.instr = some i → x.wait = .recovery →
      x.recovFrom = some t0 →
      (s.now < t0 + s.recoveryLimit x → exec (.recoveryLimitExpiry o q c) s = .next s) ∧
      (t0 + s.recoveryLimit x ≤ s.now → ∃ t, exec (.recoveryLimitExpiry o q c) s = .next t ∧
        (∃ d ∈ t.host.completions, d.assoc = o ∧ d.qid = q ∧ d.cid = c ∧ d.sct = (s.limitStatus x i).1.sct ∧ d.sc = (s.limitStatus x i).1.sc) ∧
        t.media = s.media)) ∧
    (∀ (o q c n : Nat) (x : Ctx) (i : Instr) (sp : Namespace), s.ctx o q c = some x → x.instr = some i → x.wait.forActuator = true →
      s.flag Adr.MDI_UNAV Fld.MDI_UNAV_recon_unav = true → nsidOf i = some n → s.lbaSpace x n = some sp →
      x.since + max (s.fld Adr.MDI_UNAV Fld.MDI_UNAV_unavail_ms) 1 * 1000000 ≤ s.now →
      let ok := ((readRange i).filterMap sp.mediaOf).filter (fun m => s.media.units.contains (m / 64) && !s.actServes (s.actAt m) &&
        !s.missingAt m && (lookupKey s.media.dram m).isNone && s.trussApplies m && (s.helperDown m).isNone)
      ok ≠ [] → ∃ u : State, exec (.unavailReconstruct o q c) s = .next ((u.body x i x.isLaunched).keepSince x).settle ∧
        (∀ m ∈ ok, lookupKey u.media.dram m = some (s.restOfTruss (m / 576) (m % 576 / 64) (m % 64))) ∧
        u.media.sectors = s.media.sectors ∧ u.host = s.host) ∧
    (∀ (x n : Nat) (p : Locus) (d : List Byte), s.locate x = some p → lookupKey s.media.rewrites x = some d →
      s.media.surfaceGone p.surface = false → s.mayPlace p.surface = true → s.roomFor [x] = true →
      (n ≤ s.fld (Adr.MDI_RCTL (p.surface / 8)) Fld.MDI_RCTL_weak_iter → ∃ t, exec (.recoveredRewrite x (some n)) s = .next t ∧
        t.Holds p.phys x d ∧ lookupKey t.media.rewrites x = none ∧ t.media.wsn = s.media.wsn + 1 ∧ s.SectorsBut [p.phys] t ∧
        t = { s with media := t.media }) ∧
      (∃ t, exec (.recoveredRewrite x none) s = .next t ∧ lookupKey t.media.rewrites x = none ∧ t.host = s.host ∧
        (t.media.reallocated = s.media.reallocated ∧ t.Holds p.phys x d ∨
          t.media.reallocated = s.media.reallocated + 1 ∧ ∃ q, t.locate x = some q ∧ t.Holds q.phys x d))) ∧
    (∀ (x : Nat) (a : Fin 4) (e : Entry) (p : Locus), s.cutEntry x = some (a, e) → s.locate x = some p → s.mayPlace (8 * a) = true →
      s.roomFor [x] = true → (lookupKey s.media.tries x).getD 0 < s.fld (Adr.MDI_RCTL a) Fld.MDI_RCTL_wr_retry →
      ∃ t, exec (.writeRetry x true) s = .next t ∧ t.Holds p.phys x e.data ∧ t.media.tries = eraseKey s.media.tries x ∧
        s.SectorsBut [p.phys] t ∧ t.regs = s.regs ∧ s.ActsBut a t) ∧
    (∀ (x : Nat) (a : Fin 4) (e : Entry), s.cutEntry x = some (a, e) → s.mayPlace (8 * a) = true → s.roomFor [x] = true →
      (lookupKey s.media.tries x).getD 0 + 1 < s.fld (Adr.MDI_RCTL a) Fld.MDI_RCTL_wr_retry →
      ∃ t, exec (.writeRetry x false) s = .next t ∧
        t.media.tries = insertKey s.media.tries x ((lookupKey s.media.tries x).getD 0 + 1) ∧ t = { s with media := t.media })

/-- Courses, trailing trusses, the rebuild and the scan (R68, R69, R235 to R238, R243, R249, R250): a course left open 2 s begins to close and its
four parity sectors are written; a trailing truss gets its parity; the rebuild ends a surface or writes the unit of its next truss to spare places;
and the scan reads a sector, counts a pass. What the spec leaves open here is the model's choice (log entries 62 and 152). -/
def Obligations.IntegrityRows : Prop :=
  ∀ s : State,
    (∀ (f tr k : Nat) (c : OpenCourse), s.media.openCourse (f, tr, k) = some c → c.closing = false → c.since + 2000000000 ≤ s.now →
      ∃ t, exec (.courseOpenTimeout f tr k) s = .next t ∧ t.media.timerCloses = s.media.timerCloses + 1 ∧
        t.media.courses = s.media.courses.map (fun d => if d = c then { d with closing := true } else d) ∧
        t = { s with media := { s.media with timerCloses := t.media.timerCloses, courses := t.media.courses } }) ∧
    (∀ (f tr k : Nat) (c : OpenCourse), s.media.openCourse (f, tr, k) = some c → c.closing = true → s.mayPlace f = true →
      ∃ t, exec (.courseCloseDone f tr k []) s = .next t ∧
        (∀ d ∈ t.media.courses, ¬(d.surface = f ∧ d.track = tr ∧ d.course = k)) ∧
        (∀ i < 4, lookupKey t.media.sectors (coursePhys (f, tr, k) (60 + i)) =
          some (codeword (courseParityField ((s.courseFields (f, tr, k)).take 60) s.lbaSize i)
            (tagBytes (coursePhys (f, tr, k) (60 + i)) t.media.wsn 3 i))) ∧
        s.SectorsBut ((List.range 4).map (fun i => coursePhys (f, tr, k) (60 + i))) t ∧ t = { s with media := t.media }) ∧
    (∀ n : Nat, s.media.trailing.any (fun r => r.truss == n && s.trailOver r) = true → ∃ t, exec (.trailTimeout n) s = .next t ∧
      t = s.event 0x387 ∧ s.RegsButEvents [] t ∧ t = s.takeEvents t) ∧
    (∀ (n i : Nat) (r : Trail) (p : Locus), s.media.trailing.find? (fun r => r.truss == n) = some r → r.stale = [i] → i < 64 →
      s.parityTurn r = true → s.roomFor [n * 576 + 512 + i] = true → s.locate (n * 576 + 512 + i) = some p →
      (∀ j < 9, s.missingAt (n * 576 + j * 64 + i) = false) → ∃ t, exec (.trussParityWritten n) s = .next t ∧
        t.media.trailing = s.media.trailing.filter (fun r => r.truss != n) ∧
        t.Holds p.phys (n * 576 + 512 + i) (((List.range 8).map (fun j => n * 576 + j * 64 + i)).foldl
          (fun acc x => xorBytes acc (s.onMedium x)) (List.replicate s.lbaSize 0)) ∧
        s.SectorsBut [p.phys] t ∧ t = { s with media := t.media }) ∧
    (∀ (x : Nat) (r : List Nat) (l : Layout), s.media.rebuildQueue = x :: r → s.media.layout = some l →
      s.flag Adr.MDI_REBUILD Fld.MDI_REBUILD_rb_en = true → s.media.afterLoss = false → s.fld Adr.MDI_REBUILD Fld.MDI_REBUILD_surface = x →
      (s.nextRebuild l x s.media.rebuildNext = none → ∃ t, exec .rebuildUnit s = .next t ∧ t.media.rebuildQueue = r ∧
        t.fld Adr.MDI_REBUILD Fld.MDI_REBUILD_surface = 0xFF ∧ (r = [] → t.reg Adr.MDI_RBLEFT = 0) ∧ t.media.sectors = s.media.sectors ∧
        s.RegsButEvents [Adr.MDI_REBUILD, Adr.MDI_RBLEFT] t) ∧
      (∀ n j y z m : Nat, s.nextRebuild l x s.media.rebuildNext = some n → s.media.toRebuild l x n = some j →
        s.rebuildTarget l n = some y → s.spareRun y = some (z, m) → s.media.trailing.any (fun r => r.truss == n) = false →
        s.mayPlace y = true → s.helpersUp l n j = true → s.media.courses.length ≤ 192 → s.media.isClean n j = false →
        ∃ t, exec .rebuildUnit s = .next t ∧ t.media.rebuildNext = n + 1 ∧ ⟨n, j, y, z, m⟩ ∈ t.media.rebuilt ∧
          (∀ i q, i < 64 → t.locate (n * 576 + j * 64 + i) = some q →
            (∀ k p, i < k → k < 64 → t.locate (n * 576 + j * 64 + k) = some p → p.phys ≠ q.phys) →
            t.Holds q.phys (n * 576 + j * 64 + i) (s.restOfTruss n j i)) ∧
          s.SectorsBut ((List.range 64).filterMap (fun i => (t.locate (n * 576 + j * 64 + i)).map Locus.phys)) t ∧
          s.RegsBut [Adr.MDI_SPARE (y / 8) (y % 8), Adr.MDI_RBLEFT] t)) ∧
    (∀ (a : Fin 4) (h tr k n : Nat), s.mayScan a = true → s.scansSurface (8 * a + h) = true → h < 8 →
      (n ≤ s.fld (Adr.MDI_RCTL a) Fld.MDI_RCTL_weak_iter → ∃ t, exec (.scanSector a h tr k (.decoded n)) s = .next t ∧
        t.fld (Adr.MDI_SCANPOS a) Fld.MDI_SCANPOS_head = h ∧
        t.fld (Adr.MDI_SCANPOS a) Fld.MDI_SCANPOS_track = tr % 2 ^ Fld.MDI_SCANPOS_track.width ∧
        s.RegsBut [Adr.MDI_SCANPOS a, Adr.MDI_SCANSTAT a] t ∧ t = { s with regs := t.regs }) ∧
      (∃ t, exec (.scanSector a h tr k .passEnd) s = .next t ∧ t.media.scanPasses = s.media.scanPasses.set a (s.media.scanPasses[a] + 1) ∧
        t.fld (Adr.MDI_SCANSTAT a) Fld.MDI_SCANSTAT_passes =
          min (s.fld (Adr.MDI_SCANSTAT a) Fld.MDI_SCANSTAT_passes + 1) (2 ^ Fld.MDI_SCANSTAT_passes.width - 1) ∧
        t.fld (Adr.MDI_SCANSTAT a) Fld.MDI_SCANSTAT_progress = 0 ∧ t.media.sectors = s.media.sectors ∧
        s.RegsBut [Adr.MDI_SCANPOS a, Adr.MDI_SCANSTAT a] t))

/-! ## Casts, recipes and the compressors -/

/-- The life of a Cast on the engines (R284, R285, R303): a dispatched Cast's next pour takes a free engine, an engine whose pour is over is free,
the completion carries the length and the bytes, and a failed engine goes out of service. What the spec leaves open here is the model's choice (log
entries 73 and 74). -/
def Obligations.CastEngineRows : Prop :=
  ∀ s : State,
    (∀ (e : Nat) (j : CastJob) (y : Status × Nat) (k : Nat) (p : Pour), s.freeEngine = some e →
      s.pickCast false s.castQueue = some (j, .error y) → j.dispatched = true →
      j.pours.findIdx? (fun p => !p.running && !p.done) = some k → j.pours[k]? = some p →
      ∃ t, exec .castDispatch s = .next t ∧ (∃ r, lookupKey t.cast.runs e = some r ∧ r.assoc = j.assoc ∧ r.qid = j.qid ∧ r.cid = j.cid ∧
        r.pour = k) ∧ t = { s with cast := t.cast }) ∧
    (∀ (e : Nat) (j : CastJob) (p : CastPlan), s.freeEngine = some e → s.pickCast false s.castQueue = some (j, .ok p) → j.dispatched = false →
      exec .castDispatch s = .next (s.dispatchPlan j e p)) ∧
    (∀ (c : Fin 128) (r : Run) (j : CastJob), lookupKey s.cast.runs c.val = some r → r.oc = r.count → r.buf = [] →
      s.job r.assoc r.qid r.cid = some j → ∃ t, exec (.pourDone c) s = .next t ∧ lookupKey t.cast.runs c.val = none ∧
        s.RegsBut [Adr.CST_BCNT (c.val / 8)] t ∧ t.host.completions = s.host.completions) ∧
    (∀ (o q c : Nat) (j : CastJob) (x : Ctx), s.job o q c = some j → o < 1024 → j.dispatched = true → j.stopped = false → j.pours.any (fun p => !p.done) = false →
      s.ctx o q c = some x → ∃ t, exec (.castComplete o q c) s = .next t ∧
        t.host.completions = s.host.completions ++
          [⟨o, q, c, 0, 0, false, (if s.leftClear j then 2 ^ 30 else 0) + j.total, 0, j.bytes⟩] ∧
        (∀ k ∈ t.cast.jobs, ¬(k.assoc = o ∧ k.qid = q ∧ k.cid = c)) ∧ t.media = s.media) ∧
    (∀ e : Fin 128, s.cast.failedEngines.contains e.val = false → lookupKey s.cast.runs e.val = none →
      ∃ t, exec (.castEngineFault e) s = .next t ∧ t.cast.failedEngines = s.cast.failedEngines ++ [e.val] ∧
        t.flag Adr.CST_ERR Fld.CST_ERR_engine_fault = true ∧ e.val ∉ t.cast.reserves ∧ s.RegsButEvents [Adr.CST_ERR] t ∧
        t = { s.takeEvents t with cast := t.cast })

/-- The recipe instructions (R296 to R301) as the engine of channel c meets them, and the time limit of a wait (R311). What the spec leaves open
here is the model's choice (log entries 69 and 70). -/
def Obligations.RecipeInstructionRows : Prop :=
  ∀ (s : State) (c : Fin 128) (r : Run) (j : CastJob) (x : Recipe) (v : CastView),
    (s.Present c.val 1 r j x v → ∀ u, v.stepMove r false (imgWord v.image r.pc 0) (imgWord v.image r.pc 1) (imgWord v.image r.pc 2) [] = .ok u →
      exec (.move c false) s = .next (s.afterInstr c.val j u.1)) ∧
    (s.Present c.val 1 r j x v → ∀ k, v.stepMove r false (imgWord v.image r.pc 0) (imgWord v.image r.pc 1) (imgWord v.image r.pc 2) [] = .error k →
      exec (.move c false) s = .next (s.recipeFault j c.val k r.pc)) ∧
    (s.Present c.val 2 r j x v → ∀ u, v.stepLoop r (imgWord v.image r.pc 0) (imgWord v.image r.pc 1) (imgWord v.image r.pc 2) [] = .ok u →
      exec (.loop c) s = .next (s.afterInstr c.val j u.1)) ∧
    (s.Present c.val 3 r j x v → bitsOf (imgWord v.image r.pc 0) 27 26 = 1 → bitOf j.evf (imgWord v.image r.pc 1 % 16) = false →
      ∃ t, exec (.wait c) s = .next t ∧ (∃ r' w, lookupKey t.cast.runs c.val = some r' ∧ r'.state = 3 ∧ r'.wait = some w ∧ w.kind = 1 ∧
        w.arg = imgWord v.image r.pc 1 % 16) ∧ t = { s with cast := t.cast }) ∧
    (s.Present c.val 4 r j x v → bitsOf (imgWord v.image r.pc 0) 27 27 = 1 → bitsOf (imgWord v.image r.pc 0) 26 26 = 0 →
      bitsOf (imgWord v.image r.pc 0) 25 25 = 0 → exec (.signal c) s = .next
        ((s.modJob j.assoc j.qid j.cid (fun k => { k with evf := k.evf ||| 2 ^ (imgWord v.image r.pc 1 % 16) })).afterInstr c.val j
          (advance r []).1)) ∧
    (∀ w : ChanWait, lookupKey s.cast.runs c.val = some r → s.job r.assoc r.qid r.cid = some j → r.wait = some w → r.state = 3 →
      (s.waitOver j w = true → exec (.waitEnd c) s = .next (s.endWait c.val j r w)) ∧
      (w.kind ≠ 0 → w.since + max (s.fld Adr.MVR_CTRL Fld.MVR_CTRL_wait_ms) 1 * 1000000 ≤ s.now →
        ∃ t, exec (.recipeWaitTimeout c) s = .next t ∧ t = s.recipeFault j c.val 8 r.pc ∧
          t.flag Adr.MVR_FAULT Fld.MVR_FAULT_latched = true) ∧
      ((w.kind = 0 ∨ s.now < w.since + max (s.fld Adr.MVR_CTRL Fld.MVR_CTRL_wait_ms) 1 * 1000000) →
        exec (.recipeWaitTimeout c) s = .next s)) ∧
    (lookupKey s.cast.runs c.val = some r → r.state = 4 → ∃ t, exec (.programLineArrive c true) s = .next t ∧
      lookupKey t.cast.runs c.val = some { r with lines := (r.pc / 8 :: r.lines).take 4, state := 1 } ∧ t = { s with cast := t.cast }) ∧
    (lookupKey s.cast.runs c.val = some r → r.state = 2 →
      let u := s.drain r.assoc s.loEff (s.queue (egressOf r.assoc)).packets.length
      u.fill r.assoc ≤ u.loEff → exec (.pacingResume c) s = .next ((u.setRun c.val { r with state := 1 }).pump c.val))

/-- The compression units (R319 to R326): a job starts on a unit, ends, fails at its first error, runs again after a mismatch, and may go
unverified; a verifier that fails is disabled. What the spec leaves open here is the model's choice (log entries 26, 27 and
28). -/
def Obligations.CompressionRows : Prop :=
  ∀ s : State,
    (∀ (j : CmpJob) (u : Nat), (s.cmp.filter (fun j => j.unit.isSome)).length < s.jobLimit →
      s.jobOrder.find? (fun j => (s.unitFor j).isSome || (j.compresses && !s.canCompress) || s.noRerun j) = some j → s.unitFor j = some u →
      ∃ t, exec .compressionJobStart s = .next t ∧ t.cmp = s.cmp.map (fun k => if k.is j.assoc j.qid j.cid then { k with unit := some u } else k) ∧
        t = { s with cmp := t.cmp }) ∧
    (∀ (u : Fin 4) (j : CmpJob), s.jobOn u.val = some j →
      (j.compresses = true → exec (.compressionJobDone u) s = .next (s.compressed u.val j).settle) ∧
      (∀ out, j.compresses = false → decompress j.op j.input j.space = .done out →
        ∃ w : State, exec (.compressionJobDone u) s = .next (w.jobOutput j out (out.length % 2 ^ 25) 0).settle ∧
          w.fld Adr.CMP_CNT0 Fld.CMP_CNT0_decomp_jobs =
            min (s.fld Adr.CMP_CNT0 Fld.CMP_CNT0_decomp_jobs + 1) (2 ^ Fld.CMP_CNT0_decomp_jobs.width - 1) ∧
          s.RegsBut [Adr.CMP_CNT0] w ∧ w = { s with regs := w.regs }) ∧
      (∀ k n, j.compresses = false → decompress j.op j.input j.space = .failed k n →
        ∃ w : State, exec (.decompressError u) s = .next (w.endJob j (.vendor k) (n % 2 ^ 25)).settle ∧
          w.fld Adr.CMP_ERR Fld.CMP_ERR_in_ofs = n % 2 ^ 25 ∧ s.RegsButEvents [Adr.CMP_ERR, Adr.CMP_CNT1] w ∧ w = s.takeEvents w) ∧
      (j.compresses = true → s.unitState u.val = 0 → j.mismatched = [] → ∃ t, exec (.verifierMismatch u) s = .next t ∧
        t.cmp = s.cmp.map (fun k => if k.is j.assoc j.qid j.cid then { k with unit := none, mismatched := [u.val] } else k) ∧
        t.fld Adr.CMP_CNT1 Fld.CMP_CNT1_vmis = min (s.fld Adr.CMP_CNT1 Fld.CMP_CNT1_vmis + 1) (2 ^ 16 - 1) ∧
        s.RegsButEvents [Adr.CMP_CNT1] t ∧ t = { s.takeEvents t with cmp := t.cmp })) ∧
    (∀ u : Fin 4, s.unitState u.val = 0 → ∃ t, exec (.verifierDisable u) s = .next t ∧ t.unitState u.val = 1 ∧
      (∀ w : Fin 4, w ≠ u → t.unitState w.val = s.unitState w.val) ∧ s.RegsButEvents [Adr.CMP_STATUS] t ∧ t = s.takeEvents t) ∧
    (∀ o q c : Nat, ∃ t, exec (.verifiedUnitWaitTimeout o q c) s = .next t ∧
      (∀ k ∈ t.cmp, k.is o q c = true → k.compresses = true → k.unit = none → k.mayUnverified = true) ∧ t = { s with cmp := t.cmp })

/-! ## Ports, connections, PCIe and the management interface -/

/-- The Ethernet ports (R20, R332 to R334, R340): a link that comes up or goes down, a port that fails, an ARP request for an address the port
holds, a damaged frame, and a link that has stayed down. What the spec leaves open here is the model's choice (log entry 144). -/
def Obligations.PortRows : Prop :=
  ∀ (p : Fin 2) (s : State),
    (s.portUsable p = true → s.fstate (12 + p) = 0 → ∃ t, exec (.linkUp p) s = .next t ∧
      t.flag (Adr.NET_STATUS p) Fld.NET_STATUS_link = true ∧ s.RegsButEvents [Adr.NET_STATUS p] t ∧
      t.host.assocs = s.host.assocs ∧ t.media = s.media) ∧
    (s.flag (Adr.NET_STATUS p) Fld.NET_STATUS_link = true → ∃ t, exec (.linkDown p) s = .next t ∧
      t.flag (Adr.NET_STATUS p) Fld.NET_STATUS_link = false ∧ lookupKey t.host.linkDownAt p = some s.now ∧
      t.host.assocs = s.host.assocs ∧ t.media = s.media) ∧
    (∀ t0 : Nat, s.flag (Adr.NET_STATUS p) Fld.NET_STATUS_link = false → s.funcRunning (12 + p) = true → lookupKey s.host.linkDownAt p = some t0 →
      (t0 + 2000000000 ≤ s.now → exec (.linkLossTimeout p) s = .next (s.endPort p (some 0x60A))) ∧
      (s.now < t0 + 2000000000 → exec (.linkLossTimeout p) s = .next s)) ∧
    ((∀ x ∈ s.host.assocs, x.1 = 1024 ∨ x.2.port ≠ p) → ∃ t, exec (.portFault p) s = .next t ∧
      t.flag (Adr.NET_STATUS p) Fld.NET_STATUS_failed = true ∧ t.flag (Adr.NET_STATUS p) Fld.NET_STATUS_link = false ∧
      t.host.assocs = s.host.assocs) ∧
    (∀ (f : Frame) (i ip : Nat), s.flag (Adr.NET_STATUS p) Fld.NET_STATUS_link = true → f.fcsOk = true → f.tag = .vlan 0 →
      f.len ≤ s.fld (Adr.NET_CFG p) Fld.NET_CFG_mtu + 22 → s.ifaceOf p 0 = some i → f.payload = .arp ip → s.holdsIp p i false ip = true →
      ∃ t, exec (.frameReceive p f) s = .next t ∧ t.host.sent = s.host.sent ++ [⟨.arpReply p i ip, s.tagOf p i 0⟩] ∧ t.regs = s.regs) ∧
    (∀ f : Frame, s.flag (Adr.NET_STATUS p) Fld.NET_STATUS_link = true → f.fcsOk = false → ∃ t, exec (.frameReceive p f) s = .next t ∧
      t.fld (Adr.NET_CNT0 p) Fld.NET_CNT0_fcs_err =
        min (s.fld (Adr.NET_CNT0 p) Fld.NET_CNT0_fcs_err + 1) (2 ^ Fld.NET_CNT0_fcs_err.width - 1) ∧
      s.RegsBut [Adr.NET_CNT0 p] t ∧ t = { s with regs := t.regs })

/-- TCP and NVMe/TCP connections (R334 to R340): opening, the ICReq, the timers, a closed connection and one refused. What the spec leaves open here
is the model's choice (log entries 100 and 101). -/
def Obligations.ConnectionRows : Prop :=
  ∀ s : State,
    (∀ (p : Fin 2) (i : Fin 4) (v6 : Bool), s.flag (Adr.NET_STATUS p) Fld.NET_STATUS_link = true → s.flag (Adr.NET_IF0 p i) Fld.NET_IF0_en = true →
      (∃ t, exec (.tcpConnect p i v6 4420) s = .next t ∧
        lookupKey t.host.conns s.host.nextConn = some { port := p, iface := i, mss := s.mss p v6, localPort := 4420 } ∧
        t.host.nextConn = s.host.nextConn + 1 ∧ t = { s with host := t.host }) ∧
      (16 ≤ (s.host.conns.filter (fun c => c.2.localPort == 8009)).length →
        ∃ t, exec (.tcpConnect p i v6 8009) s = .next t ∧ t.host.conns = s.host.conns ∧
          t.host.sent = s.host.sent ++ [⟨.tcpReset p s.host.nextConn, s.tagOf p i 0⟩])) ∧
    (∀ (k : Nat) (c : Conn), lookupKey s.host.conns k = some c →
      (c.assoc = none → ∃ t, exec (.connectionClose k) s = .next t ∧ lookupKey t.host.conns k = none ∧ t = { s with host := t.host }) ∧
      (∀ h d : Bool, c.icDone = false → ∃ t, exec (.icreq k 0 0 h d) s = .next t ∧
        t.host.sent = s.host.sent ++ [⟨.icResp k (icRespBytes h d), s.tagOf c.port c.iface 0⟩] ∧ t = { s with host := t.host }) ∧
      (∀ (v h : Nat) (x y : Bool), c.icDone = false → v ≠ 0 → c.assoc = none → ∃ t, exec (.icreq k v h x y) s = .next t ∧
        t.host.sent = s.host.sent ++ [⟨.termReq k 6 8, s.tagOf c.port c.iface 0⟩] ∧ lookupKey t.host.conns k = none) ∧
      (exec (.tcpTimerExpiry k 1) s = .next (s.sendConn k 0 (.windowProbe k))) ∧
      (∃ t, exec (.tcpTimerExpiry k 0) s = .next t ∧ t.host.sent = s.host.sent ++ [⟨.retransmit k, s.tagOf c.port c.iface 0⟩] ∧
        t = { s with host := t.host }) ∧
      (c.refused = true → c.assoc = none → ∃ t, exec (.refusedConnectionTimeout k) s = .next t ∧ lookupKey t.host.conns k = none ∧
        t = { s with host := t.host })) ∧
    (∀ (a : Nat) (y : Assoc), s.assoc a = some y →
      (y.kato ≠ 0 → y.katoFrom + y.kato * 1000000 ≤ s.now → exec (.keepAliveExpiry a) s = .next ((s.event 0x609).endAssoc a)) ∧
      ((y.kato = 0 ∨ s.now < y.katoFrom + y.kato * 1000000) → exec (.keepAliveExpiry a) s = .next s))

/-- Capsules and data over NVMe/TCP (R338, R348, R350, R477): a capsule joins the arrivals with its permission, and Connect on an admin queue makes
an association. What the spec leaves open here is the model's choice (log entry 102). -/
def Obligations.CapsuleRows : Prop :=
  ∀ (s : State) (k a : Nat) (c : Conn), lookupKey s.host.conns k = some c →
    (∀ (cid n : Nat) (b : Bool), c.assoc = some a → c.hdgst = false → c.ddgst = false → s.queueFull (commandQueue a c.qid) = false →
      ∃ t, exec (.capsuleReceive k cid n true b false) s = .next t ∧
        (∃ z, t.host.capsules = s.host.capsules ++ [z] ∧ z.assoc = a ∧ z.qid = c.qid ∧ z.cid = cid ∧ z.permitted = (s.isOwner a && !s.ownOver) ∧
          z.order = s.host.seq ∧ z.bad = false) ∧ t.host.seq = s.host.seq + 1 ∧ t.regs = s.regs ∧ t.media = s.media) ∧
    (∀ cid : Nat, ∃ t, exec (.h2cData k cid true true) s = .next t ∧ t.regs = s.regs ∧ t.host.completions = s.host.completions ∧
      t = { s with host := t.host }) ∧
    (∀ (d : Cmd) (n : Nat), d.assoc = k → c.established = true → c.icDone = true → c.assoc = none → c.refused = false → s.powered 4 = true →
      c.localPort = 4420 → d.cdw10.toNat / 65536 = 0 → leAt (fitBytes d.data 1024) 16 2 = 0xFFFF →
      firstFrom 0 1024 (fun a => (s.assoc a).isNone) = some n → ∃ t, exec (.fabricsConnect d) s = .next t ∧
        (t.assoc n).isSome = true ∧ (∃ z ∈ t.host.completions, z.assoc = n ∧ z.qid = 0 ∧ z.cid = d.cid ∧ z.sct = 0 ∧ z.sc = 0) ∧
        t.media = s.media)

/-- The PCIe side (R341, R342, R350): enabling makes association 1,024, disabling and every reset of function 0 end it, doorbells. -/
def Obligations.PcieRows : Prop :=
  ∀ s : State,
    (∀ n : Nat, s.powered 4 = true → s.flag Adr.HIF_CTRL Fld.HIF_CTRL_pcie_en = true → 4 ≤ s.fld Adr.PLN_STATUS Fld.PLN_STATUS_step →
      s.host.perstLow = false → s.assoc 1024 = none → ∃ t, exec (.controllerEnable n) s = .next t ∧ (t.assoc 1024).isSome = true ∧
        t.host.pcieEnabled = true ∧ t = { s with host := t.host }) ∧
    (∃ t, exec .controllerDisable s = .next t ∧ t.assoc 1024 = none ∧ t.host.pcieEnabled = false) ∧
    (∃ t, exec .perstAssert s = .next t ∧ t.assoc 1024 = none ∧ t.host.perstLow = true) ∧
    (∀ b : Boot, s.ps ≠ 5 → ∃ t, exec (.perstRise b) s = .next t ∧ t.assoc 1024 = none ∧ t.host.perstLow = false) ∧
    (∃ t, exec (.functionLevelReset 0) s = .next t ∧ t.assoc 1024 = none ∧ t.host.pcieEnabled = false) ∧
    (exec (.functionLevelReset 1) s = .next s) ∧
    (∀ (y : Assoc) (tail cid : Nat), s.assoc 1024 = some y → ∃ t, exec (.sqTailDoorbell 0 tail [cid]) s = .next t ∧
      lookupKey t.host.doorbells 0 = some tail ∧ (∃ z, t.host.capsules = s.host.capsules ++ [z] ∧ z.assoc = 1024 ∧ z.qid = 0 ∧ z.cid = cid) ∧
      t.regs = s.regs) ∧
    (∀ q h : Nat, s.host.heldCpl = [] → ∃ t, exec (.cqHeadDoorbell q h) s = .next t ∧ t.host.completions = s.host.completions ∧
      t.host.heldCpl = [] ∧ t = { s with host := t.host })

/-- The management interface (R343), outside PS4 and PS5: every row answers a status and the bytes it states; a poll of the subsystem's health
withdraws the alert, and a setting outside its values is an invalid parameter. What the spec leaves open here is the model's choice (log entries 20
and 21). -/
def Obligations.ManagementRows : Prop :=
  ∀ (s : State) (b : Boot), s.ps < 4 →
    (∀ d w : Nat, ∃ t, exec (.readNvmeMiDataStructure d w b) s = .next t ∧ t.mi.status = 0 ∧ t = { s with mi := t.mi }) ∧
    (∀ x : Bool, ∃ t, exec (.subsystemHealthStatusPoll x b) s = .next t ∧ t.mi.status = 0 ∧ t.mi.alert = false ∧ t.mi.changed = false ∧
      t = { s with mi := t.mi }) ∧
    (∀ n : Nat, ∃ t, exec (.controllerHealthStatusPoll n b) s = .next t ∧ t.mi.status = 0 ∧ t = { s with mi := t.mi }) ∧
    (∃ t, exec (.configurationGet 1 b) s = .next t ∧ t.mi.response = leBytes 4 s.mi.freq ∧ t.mi.status = 0 ∧ t = { s with mi := t.mi }) ∧
    (∃ t, exec (.configurationGet 3 b) s = .next t ∧ t.mi.response = leBytes 4 s.mi.unit ∧ t.mi.status = 0 ∧ t = { s with mi := t.mi }) ∧
    (∀ v : Nat, (v = 1 ∨ v = 2) → ∃ t, exec (.configurationSet 1 v b) s = .next t ∧ t.mi.freq = v ∧ t.mi.status = 0 ∧
      t = { s with mi := t.mi }) ∧
    (∀ v : Nat, 64 ≤ v → v ≤ 250 → ∃ t, exec (.configurationSet 3 v b) s = .next t ∧ t.mi.unit = v ∧ t.mi.status = 0 ∧
      t = { s with mi := t.mi }) ∧
    (∀ v : Nat, 2 < v → ∃ t, exec (.configurationSet 1 v b) s = .next t ∧ t.mi.freq = s.mi.freq ∧ t.mi.status = 4) ∧
    (∀ f n : Nat, f + n ≤ 256 → ∃ t, exec (.vpdRead f n b) s = .next t ∧ t.mi.status = 0 ∧ t.mi.response.length = n ∧
      t = { s with mi := t.mi }) ∧
    (∀ (c : Cmd) (d : List Byte), s.logData c = .ok d → ∃ t, exec (.miTunnelledAdmin 0x02 c b) s = .next t ∧ t.mi.response = d ∧
      t.mi.status = 0 ∧ t = { s with mi := t.mi })

/-! ## Fetching, waiting and ending commands -/

/-- Commands that wait (R350, R351, R346, R355, R356, R371, R398, R409, R260): the fetch, the share, the ends of a lease and a successor's window, a
range lock granted, room in the trailing buffer, and the deletes and withdrawals that others held. What the spec leaves open here is the model's
choice (log entries 67, 66 and 65). -/
def Obligations.WaitingCommandRows : Prop :=
  ∀ s : State,
    (∀ k : Capsule, s.nextCapsule = some k → ∃ t, exec .commandFetch s = .next t ∧
      (∃ x, t.host.ctxs = s.host.ctxs ++ [x] ∧ x.assoc = k.assoc ∧ x.qid = k.qid ∧ x.cid = k.cid ∧ x.permitted = k.permitted ∧
        x.wait = .fetched) ∧ (∀ j ∈ t.host.capsules, j.order ≠ k.order) ∧ t.media = s.media) ∧
    (∃ t, exec .egressShareRecompute s = .next t ∧ 64 ≤ t.host.share ∧
      t.host.share ≤ max 64 (s.fld Adr.CPL_SHARE Fld.CPL_SHARE_eg_max) ∧ t = { s with host := t.host }) ∧
    (s.ownState = 1 → s.own.endsAt ≤ s.now → ∃ u : State, exec .leaseExpiry s = .next u.ownershipMoved ∧ u.ownState = 0 ∧
      u.fld Adr.OWN_STATUS Fld.OWN_STATUS_owner = 0x7FF ∧
      u.fld Adr.OWN_CNT Fld.OWN_CNT_expiries = min (s.fld Adr.OWN_CNT Fld.OWN_CNT_expiries + 1) (2 ^ Fld.OWN_CNT_expiries.width - 1) ∧
      s.RegsButEvents [Adr.OWN_STATUS, Adr.OWN_CNT] u ∧ u = s.takeEvents u) ∧
    (s.ownState = 2 → s.own.endsAt ≤ s.now → ∃ u : State, exec .successorWindowLapse s = .next u.ownershipMoved ∧ u.ownState = 0 ∧
      u.fld Adr.OWN_STATUS Fld.OWN_STATUS_owner = 0x7FF ∧ s.RegsButEvents [Adr.OWN_STATUS] u ∧ u = s.takeEvents u) ∧
    (s.now < s.own.endsAt → exec .leaseExpiry s = .next s ∧ exec .successorWindowLapse s = .next s) ∧
    (∀ (o q c : Nat) (x : Ctx) (k : Lock) (i : Instr), s.ctx o q c = some x → s.host.lockAt o q c = some k → x.instr = some i → x.wait = .lock →
      s.host.lockFree k = true → ∃ u : State, exec (.rangeLockGrant o q c) s = .next (u.body x i x.isLaunched).settle ∧
        u.host.lockAt o q c = some { k with granted := true } ∧ u = { s with host := u.host }) ∧
    (∀ (o q c : Nat) (x : Ctx) (i : Instr), s.ctx o q c = some x → x.instr = some i → x.wait = .trailing →
      exec (.trailingBufferSpace o q c) s = .next ((s.body x i x.isLaunched).keepSince x)) ∧
    (∀ (o q c : Nat) (d : Deleting), s.deleting.find? (fun d => d.assoc == o && d.qid == q && d.cid == c) = some d → s.nsBusy d = false →
      exec (.namespaceDeleteDone o q c) s = .next (s.finishDelete d)) ∧
    (∀ (o q c n id : Nat) (x : Ctx), s.ctx o q c = some x → o < 1024 → x.wait = .withdraw → x.instr.bind mouldOf = some (n, id) →
      s.castSees (s.mouldOr n id) x.order = false → ∃ u : State, exec (.mouldWithdrawDone o q c) s = .next u.settle ∧
        u.host.completions = s.host.completions ++ [⟨o, q, c, 0, 0, false, 0, 0, []⟩] ∧ u.media = s.media)

/-! ## The state after reset and the forms every step keeps -/

/-- With no command waiting, one 500 MHz clock passes: the running time grows by 2 ns, the time base by its increment, unless the Time region
restarts (R439), and the commands that may go on do. This is the model's choice
(log entry 1): the table has no row for a clock. -/
def Obligations.EmptyQueuePassesOneClock : Prop :=
  ∀ s : State, s.pending = [] → ∃ u : State, step s = .next u.settle ∧ u.now = s.now + 2 ∧
    (s.restarting 2 = false → u.time.tb = (s.time.tb + (131072 + s.time.freq).toNat) % 2 ^ 80) ∧
    (s.restarting 2 = true → u.time.tb = s.time.tb % 2 ^ 80) ∧ 
    u = { s with now := u.now, time := { s.time with tb := u.time.tb }, pic := u.pic }

/-- The state after reset has the canonical forms, no command waits, every register of the map holds its reset value, and the sequencers start as
R123 says. What the spec leaves open here is the model's choice (log entries 5 and 6). -/
def Obligations.ResetState : Prop :=
  State.reset.Wf ∧ State.reset.pending = [] ∧ (∀ a : Nat, State.reset.reg a = resetWord a) ∧
    (∀ a : Nat, rowAt a = none → State.reset.readReg a = 0) ∧ State.reset.media.sectors = [] ∧ State.reset.ownState = 0 ∧
    (∀ a : Fin 4, State.reset.fld (Adr.FSQ_STATUS a) Fld.FSQ_STATUS_seq0 = 0 ∧ (State.reset.act a).seq.pc = 0)

/-- Every step from a state that has the canonical forms answers a state that has them. -/
def Obligations.EveryStepKeepsForms : Prop :=
  ∀ s t : State, s.Wf → step s = .next t → t.Wf

/-- Every command is answered with a next state, from every state: it leaves the rest of the queue waiting, and no free value is drawn twice. What
the spec leaves open here is the model's choice (log entry 7). -/
def Obligations.EveryCommandAnswers : Prop :=
  ∀ (c : Instr) (rest : List Instr) (s : State), s.pending = c :: rest →
    ∃ t, step s = .next t ∧ t.pending = rest ∧ s.fresh ≤ t.fresh

/-! ## Registers, functions and configuration records -/

/-- The rows that are one register write: from another association than the owner nothing but event 0x640 happens; in a region that is off nothing
but event 0x0E0; in a region that restarts the write waits; and otherwise the write has its effect (R30, R31). What the spec leaves open here is the
model's choice (log entries 9 and 10). -/
def Obligations.OwnerWriteRows : Prop :=
  (∀ (s : State) (w : WriteArgs), w.addr % 4 = 0 → w.path ≠ .snapshot → ∀ r ∈ s.ownerRows w,
    (s.isOwner w.assoc = false → exec r.cmd s = .next (s.event 0x640)) ∧
    (s.isOwner w.assoc = true → ∀ x : Nat, regionOf r.addr = some x →
      (s.powered x = false → (∀ h ∈ s.heldRegs, h.path ≠ pathOf w.assoc) → exec r.cmd s = .next (s.event 0x0E0)) ∧
      ((s.powered x = true ∧ s.restarting x = true ∧ survivesRestart r.addr = false ∨ ∃ h ∈ s.heldRegs, h.path = pathOf w.assoc) →
        exec r.cmd s = .next { s with heldRegs := s.heldRegs ++ [⟨pathOf w.assoc, w.assoc, r.addr, r.value, true⟩] })) ∧
    (s.Writable w.assoc r.addr → exec r.cmd s = .next (r.effect s)) ∧
    (s.RegsButEvents [] (s.event 0x640) ∧ s.event 0x640 = s.takeEvents (s.event 0x640)) ∧
    (s.RegsButEvents [] (s.event 0x0E0) ∧ s.event 0x0E0 = s.takeEvents (s.event 0x0E0))) ∧
  (∀ (s : State) (o : Nat) (v : Word),
    (s.Writable o Adr.CST_STGCLAIM → s.cast.claim = none →
      256 + getBits v Fld.CST_STGCLAIM_req_mib ≤ s.fld Adr.CST_STAGE Fld.CST_STAGE_size_mib → ∃ t, exec (.stagingClaim o v) s = .next t ∧
        t.cast.claim = some (getBits v Fld.CST_STGCLAIM_req_mib) ∧ t.flag Adr.CST_STGCLAIM Fld.CST_STGCLAIM_held = true ∧
        s.RegsBut [Adr.CST_STGCLAIM, Adr.CMP_STATUS] t ∧ t = { s with regs := t.regs, cast := t.cast }) ∧
    (s.Writable o Adr.CST_STGCLAIM → ∃ t, exec (.stagingRelease o v) s = .next t ∧ t.cast.claim = none ∧
      t.flag Adr.CST_STGCLAIM Fld.CST_STGCLAIM_held = false ∧ s.RegsBut [Adr.CST_STGCLAIM, Adr.CMP_STATUS] t ∧
      t = { s with regs := t.regs, cast := t.cast }) ∧
    (s.Writable o Adr.HIF_CTRL → v.getLsbD 0 = true → ∃ t, exec (.pcieEnWrite o v) s = .next t ∧
      t.flag Adr.HIF_CTRL Fld.HIF_CTRL_pcie_en = true ∧ s.RegsBut [Adr.HIF_CTRL] t ∧ t = { s with regs := t.regs }) ∧
    (s.Writable o Adr.HIF_CTRL → v.getLsbD 0 = false → ∃ t, exec (.pcieEnWrite o v) s = .next t ∧ t.assoc 1024 = none ∧
      t.host.pcieEnabled = false) ∧
    (∀ a : Fin 4, s.Writable o (Adr.CHN_PSC_ACC a) → s.flag (Adr.CHN_PSC_ACC a) Fld.CHN_PSC_ACC_busy = false → (s.act a).psc = none →
      getBits v Fld.CHN_PSC_ACC_addr ≠ s.fld (Adr.CHN_PSC_CFG a) Fld.CHN_PSC_CFG_head_addr → ∃ t, exec (.pscFrameGo o a v) s = .next t ∧
        t.flag (Adr.CHN_PSC_ACC a) Fld.CHN_PSC_ACC_busy = true ∧ (∃ f, (t.act a).psc = some f ∧ f.head = none ∧
          f.addr = getBits v Fld.CHN_PSC_ACC_addr) ∧ s.RegsBut [Adr.CHN_PSC_ACC a] t ∧ s.ActsBut a t ∧
        t = { s with regs := t.regs, acts := t.acts }))

/-- A register write (R9, R10, R34): a narrow one, a misaligned one and one of a reserved address change nothing; an ordinary register takes its
writable fields and nothing else changes; a configuration register changes in its stopped function's shadow set, and a function that is not
stopped refuses the write. -/
def Obligations.PlainRegisterWrites : Prop :=
  ∀ (s : State) (p : Path) (o a n : Nat) (v : Word), p ≠ .snapshot →
    (n ≠ 4 ∨ a % 4 ≠ 0 → exec (.plainRegisterWrite p o a n v) s = .next s) ∧
    (n = 4 → a % 4 = 0 → s.Writable o a →
      (rowAt a = none → exec (.plainRegisterWrite p o a n v) s = .next s) ∧
      (∀ (r : RegRow) (x : List Nat), rowAt a = some (r, x) →
        r.name ∉ ownEffect →
        (rowFunc r x = none → ∃ t, exec (.plainRegisterWrite p o a n v) s = .next t ∧ t.reg a = writeMerge r.fields (s.reg a) v ∧
          s.RegsBut [a] t ∧ t = { s with regs := t.regs }) ∧
        (∀ k : Nat, rowFunc r x = some k → k < 15 → (s.fstate k = 1 ∨ s.fstate k = 2) →
          ∃ t, exec (.plainRegisterWrite p o a n v) s = .next t ∧ t.shadow k a = writeMerge r.fields (s.shadow k a) v ∧
            t = { s with funcs := t.funcs }) ∧
        (∀ k : Nat, rowFunc r x = some k → s.fstate k = 0 ∨ s.fstate k = 3 →
          ∃ t, exec (.plainRegisterWrite p o a n v) s = .next t ∧ t.flag (Adr.FUNC_CTRL k) Fld.FUNC_CTRL_write_refused = true ∧
            s.RegsBut [Adr.FUNC_CTRL k] t ∧ t = { s with regs := t.regs })))

/-- R11: a low word's read latches the upper words of its path alone; an upper word's read returns what its path latched; after reset that is 0. A
narrow read through BAR0 reads its whole register, and no other path makes one (R9). What the spec leaves open here is the model's choice (log entry
11). -/
def Obligations.LatchedReads : Prop :=
  (∀ (s : State) (p : Path) (a r : Nat), regionOf a = some r → a % 4 = 0 → s.powered r = true → s.restarting r = false →
    (∀ h ∈ s.heldRegs, h.path ≠ p) →
    (isUpper a = false → ∃ t, exec (.lowWordRead p a) s = .next t ∧ t.readData = s.readReg a ∧
      (∀ u ∈ upperWords a, (t.latches.get p).find u = some (s.readReg u)) ∧ (∀ q, q ≠ p → t.latches.get q = s.latches.get q) ∧
      t.pending = s.pending ∧ t.host = s.host ∧ t.media = s.media) ∧
    (isUpper a = true → ∃ t, exec (.lowWordRead p a) s = .next t ∧ t.readData = ((s.latches.get p).find a).getD 0 ∧
      t.latches = s.latches)) ∧
  (∀ (s : State) (p : Path) (a : Nat), a % 4 ≠ 0 →
    exec (.lowWordRead .pcie a) s = exec (.lowWordRead .pcie (a - a % 4)) s ∧ (p ≠ .pcie → exec (.lowWordRead p a) s = .next s)) ∧
  (∀ (p : Path) (u : Nat), (State.reset.latches.get p).find u = none)

/-- A read of a register of a powered region clears its RC fields to their reset values and no other bit of any register; in a region that is off it
returns 0, and in one that restarts it waits; a narrow read through BAR0 clears as a read of the whole register (R9, R10, R31). What the spec leaves
open here is the model's choice (log entry 10). -/
def Obligations.ReadsThatClear : Prop :=
  (∀ (s : State) (p : Path) (a r : Nat), p ≠ .snapshot → regionOf a = some r → a % 4 = 0 →
    (s.powered r = true → s.restarting r = false → (∀ h ∈ s.heldRegs, h.path ≠ p) → isUpper a = false → ∀ (w : RegRow) (x : List Nat), rowAt a = some (w, x) →
      ∃ t, exec (.clearOnRead p a) s = .next t ∧ t.readData = s.readReg a ∧
        t.reg a = ((s.reg a &&& ~~~(accMask w.fields (fun y => y == .rc))) ||| (resetWord a &&& accMask w.fields (fun y => y == .rc))) ∧
        s.RegsBut [a] t ∧ t.host = s.host ∧ t.media = s.media) ∧
    ((s.powered r = true ∧ s.restarting r = true ∧ survivesRestart a = false ∨ ∃ h ∈ s.heldRegs, h.path = p) →
      exec (.clearOnRead p a) s = .next { s with heldRegs := s.heldRegs ++ [⟨p, 0, a, 0, false⟩] }) ∧
    (s.powered r = false → (∀ h ∈ s.heldRegs, h.path ≠ p) → exec (.clearOnRead p a) s = .next (({ s with readData := 0 }).event 0x0E0))) ∧
  (∀ (s : State) (a : Nat), a % 4 ≠ 0 → exec (.clearOnRead .pcie a) s = exec (.clearOnRead .pcie (a - a % 4)) s)

/-- The life of a function (R34 to R37): stop, restart with its checks, abandon, the end of the drain, the commit, the pause bound and the stop
limit; and the end of the wait for a region. What the spec leaves open here is the model's choice (log entries 103 and 8). -/
def Obligations.FunctionRows : Prop :=
  ∀ (s : State) (o k : Nat), k < 15 →
    (s.Writable o (Adr.FUNC_CTRL k) →
      (s.fstate k = 0 → ∃ t, exec (.funcStop o k) s = .next t ∧ t.fstate k = (if k = 10 ∨ k = 11 ∨ k = 14 then 2 else 1) ∧
        (t.func k).shadow = [] ∧ t.media = s.media) ∧
      (s.fstate k = 2 → (s.func k).byLoad = false →
        ((s.restartCheck k).1 = true → ∃ t, exec (.funcRestart o k) s = .next t ∧ t.fstate k = 3 ∧ t.media = s.media ∧ t.host = s.host) ∧
        ((s.restartCheck k).1 = false → ∃ t, exec (.funcRestart o k) s = .next t ∧ t.fstate k = 2 ∧ t.media = s.media) ∧
        (∃ t, exec (.funcAbandon o k) s = .next t ∧ t.fstate k = 3 ∧ (t.func k).abandon = true ∧ (t.func k).shadow = [] ∧
          s.RegsBut [Adr.FUNC_CTRL k] t ∧ t = { s with regs := t.regs, funcs := t.funcs }))) ∧
    (s.fstate k = 1 → (s.func k).held = [] → ∃ u : State, exec (.funcStopped k) s = .next u.settle ∧ u.fstate k = 2) ∧
    (s.fstate k = 3 → exec (.funcCommit k) s = .next (if k = 12 ∨ k = 13 then (s.commitFunc k).portUp (k - 12) else s.commitFunc k).settle) ∧
    (s.fstate 10 = 3 → s.host.ctxs = [] → (s.func 10).held = [] → ∃ t, exec (.funcCommit 10) s = .next t ∧ t.fstate 10 = 0 ∧
      (t.func 10).shadow = []) ∧
    (s.fstate k ≠ 0 → (∃ x ∈ s.host.ctxs, s.waitsFor k x = true ∧ max x.since (s.func k).since + pauseBound k ≤ s.now) → ∃ u : State, exec (.pauseBoundExpiry k) s = .next u.settle ∧
      u.flag (Adr.FUNC_CTRL k) Fld.FUNC_CTRL_pause_exceeded = true) ∧
    ((∀ x ∈ s.host.ctxs, s.waitsFor k x = true → s.now < max x.since (s.func k).since + pauseBound k) → exec (.pauseBoundExpiry k) s = .next s) ∧
    (s.fstate k = 2 → (s.func k).since + stopLimit k ≤ s.now → exec (.stopLimitExpiry k) s = .next (s.revertNow k 0x7E0).settle) ∧
    (s.fstate k = 2 → s.now < (s.func k).since + stopLimit k → exec (.stopLimitExpiry k) s = .next s) ∧
    (s.fstate 10 = 2 → (s.func 10).since + stopLimit 10 ≤ s.now → s.host.ctxs = [] → ∃ t, exec (.stopLimitExpiry 10) s = .next t ∧ t.fstate 10 = 0 ∧
      t.flag (Adr.FUNC_CTRL 10) Fld.FUNC_CTRL_revert_seen = true ∧ s.RegsButEvents [Adr.FUNC_CTRL 10] t) ∧
    (∀ r : Nat, s.restarting r = true → s.host.ctxs = [] → (∀ h ∈ s.heldRegs, regionOf h.addr = some r) →
      ∃ t, exec (.regionAccessTimeout r) s = .next t ∧ t.heldRegs = [] ∧ s.RegsButEvents [] t ∧ t.media = s.media)

/-- Configuration records (R44): store, capture and remove begin an operation, CFG_STORE_DONE ends it, and a failed write refuses it with reason 5.
What the spec leaves open here is the model's choice (log entries 118 and 94). -/
def Obligations.ConfigurationRecordRows : Prop :=
  ∀ s : State,
    (∀ o : Nat, s.Writable o Adr.CFG_CMD → s.flag Adr.CFG_STATUS Fld.CFG_STATUS_busy = false →
      (∀ r : CfgRec, windowRecord s.window = .ok r → s.nor.full r = false → ∃ t, exec (.cfgStore o) s = .next t ∧
        t.flag Adr.CFG_STATUS Fld.CFG_STATUS_busy = true ∧ t.cfgOp = some (.store r) ∧ s.RegsBut [Adr.CFG_STATUS] t ∧
        t = { s with regs := t.regs, cfgOp := t.cfgOp }) ∧
      (∀ k : Nat, windowRecord s.window = .error k → k ≠ 7 → k < 8 → ∃ t, exec (.cfgStore o) s = .next t ∧
        t.flag Adr.CFG_STATUS Fld.CFG_STATUS_refused = true ∧ t.fld Adr.CFG_STATUS Fld.CFG_STATUS_reason = k ∧ t.cfgOp = s.cfgOp ∧
        s.RegsButEvents [Adr.CFG_STATUS] t ∧ t = s.takeEvents t) ∧
      (∀ k : Nat, k < 15 →
        let b := (funcRegs k).flatMap (fun a => leBytes 4 a ++ leBytes 4 (s.reg a).toNat)
        b.length ≤ 4080 → s.nor.full (CfgRec.make 1 k b) = false → ∃ t, exec (.cfgCapture o k) s = .next t ∧
          t.flag Adr.CFG_STATUS Fld.CFG_STATUS_busy = true ∧ t.cfgOp = some (.store (CfgRec.make 1 k b)) ∧
          t = { s with regs := t.regs, cfgOp := t.cfgOp }) ∧
      (∃ t, exec (.cfgRemove o) s = .next t ∧ t.flag Adr.CFG_STATUS Fld.CFG_STATUS_busy = true ∧
        t.cfgOp = some (.remove (s.fld Adr.CFG_KIND Fld.CFG_KIND_kind) (s.fld Adr.CFG_KEY Fld.CFG_KEY_key)) ∧
        t = { s with regs := t.regs, cfgOp := t.cfgOp })) ∧
    (∀ n k : Nat, s.cfgOp = some (.remove n k) → ∃ t, exec (.cfgStoreDone true) s = .next t ∧ t.cfgOp = none ∧
      t.flag Adr.CFG_STATUS Fld.CFG_STATUS_busy = false ∧ t.nor.records = s.nor.records.filter (fun x => !(x.kind == n && x.key == k)) ∧
      s.RegsButEvents [Adr.CFG_STATUS] t) ∧
    (∀ r : CfgRec, s.cfgOp = some (.store r) → ∃ t, exec (.cfgStoreDone true) s = .next t ∧ t.cfgOp = none ∧
      t.flag Adr.CFG_STATUS Fld.CFG_STATUS_busy = false ∧ t.nor.records = putRecord s.nor.records { r with seq := s.nor.recSeq + 1 } ∧
      t.nor.recSeq = s.nor.recSeq + 1) ∧
    (∀ op : CfgOp, s.cfgOp = some op → ∃ t, exec (.cfgStoreDone false) s = .next t ∧ t.cfgOp = none ∧
      t.flag Adr.CFG_STATUS Fld.CFG_STATUS_refused = true ∧ t.fld Adr.CFG_STATUS Fld.CFG_STATUS_reason = 5 ∧
      t.nor.records = s.nor.records ∧ s.RegsButEvents [Adr.CFG_STATUS] t) ∧
    (s.cfgOp = none → ∀ b : Bool, exec (.cfgStoreDone b) s = .next s)

/-! ## The NVMe commands -/

/-- A command that passes the checks has its own effect, and then the commands that may go on do: for every command of nvmeRows, from every state. -/
def Obligations.AdmittedCommandsArePerformed : Prop :=
  ∀ (s : State) (c : Cmd) (x : Ctx) (i : Instr), i ∈ nvmeRows c →
    s.host.ctxs.find? (fun y => y.is c.assoc c.qid c.cid && y.wait == .fetched && y.instr.isNone) = some x → x.bad = false →
    (s.taken x i c).Ready x i → exec i s = .next ((s.taken x i c).body { x with instr := some i } i false).settle

/-- The checks that turn a command away: an opcode that is not of its queue or path, a device that is not ready, an owner-only command of another
association, and a namespace it may not use (R363, R403, R476). What the spec leaves open here is the model's choice (log entries 16 and
102). -/
def Obligations.CommandsTurnedAway : Prop :=
  ∀ (s : State) (c : Cmd) (x : Ctx) (i : Instr), i ∈ nvmeRows c → s.Only c x → c.assoc < 1024 → s.faultState ≠ 3 → s.pln.loader = false →
    s.flag Adr.HIF_CTRL Fld.HIF_CTRL_auth_req = false →
    (badOpcode x i = true → ∃ t, exec i s = .next t ∧ s.Answers t c .opcode 0 0 [] ∧ t.regs = s.regs ∧ t.media = s.media) ∧
    (badOpcode x i = false → s.flag Adr.PLN_STATUS Fld.PLN_STATUS_ready = false → s.onList i = false →
      ∃ t, exec i s = .next t ∧ s.Answers t c .notReady 0 0 [] ∧ t.regs = s.regs ∧ t.media = s.media) ∧
    (badOpcode x i = false → s.flag Adr.PLN_STATUS Fld.PLN_STATUS_ready = true → s.restarting 6 = false → s.ps < 2 → s.psMoving = false →
      (s.badNs x i = true → ∃ t, exec i s = .next t ∧ s.Answers t c .ns 0 0 [] ∧ t.regs = s.regs ∧ t.media = s.media) ∧
      (s.badNs x i = false → s.ownerOnly i = true → x.permitted = false →
        ∃ t, exec i s = .next t ∧ s.Answers t c .notOwner 0 0 [] ∧ s.RegsButEvents [] t ∧ t.media = s.media))

/-- R378: a Flush that has passed its checks completes successfully, whatever else is under way; FFFFFFFFh is accepted. -/
def Obligations.FlushCompletesWhenChecked : Prop :=
  ∀ (s : State) (c : Cmd) (x : Ctx) (l : List Ctx), s.host.ctxs = x :: l → x.is c.assoc c.qid c.cid = true → x.instr = none → x.wait = .fetched → x.bad = false → c.assoc < 1024 → s.Ready x (.flush c) →
    (c.nsid = 0xFFFFFFFF ∨ (s.spaceFor x.order c.nsid.toNat).isSome = true) →
    ∃ u : State, exec (.flush c) s = .next u.settle ∧ u.host.completions = s.host.completions ++ [⟨c.assoc, c.qid, c.cid, 0, 0, false, 0, 0, []⟩] ∧
      u.media = s.media

/-- Admin commands that read or acknowledge (R364, R367, R372, R383, R385, R392, R393): what each answers. What the spec leaves open here is the
model's choice (log entries 16, 17 and 18). -/
def Obligations.AdminAnswers : Prop :=
  ∀ (s : State) (c : Cmd) (x : Ctx), s.Only c x → c.assoc < 1024 →
    (s.Ready x (.keepAlive c) → ∃ t, exec (.keepAlive c) s = .next t ∧ s.Answers t c .ok 0 0 [] ∧ t = { s with host := t.host }) ∧
    (s.Ready x (.abort c) → ∃ t, exec (.abort c) s = .next t ∧ s.Answers t c .ok 1 0 [] ∧ t = { s with host := t.host }) ∧
    (s.Ready x (.namespaceAttachment c) → c.cdw10.toNat % 16 = 0 →
      ∃ t, exec (.namespaceAttachment c) s = .next t ∧ s.Answers t c .ok 0 0 [] ∧ t = { s with host := t.host }) ∧
    (s.Ready x (.namespaceAttachment c) → c.cdw10.toNat % 16 = 1 →
      ∃ t, exec (.namespaceAttachment c) s = .next t ∧ s.Answers t c .field 0 0 [] ∧ t = { s with host := t.host }) ∧
    (∀ d, s.Ready x (.identify c) → s.identifyData c.assoc c = .ok d →
      ∃ t, exec (.identify c) s = .next t ∧ s.Answers t c .ok 0 0 d ∧ t = { s with host := t.host }) ∧
    (∀ d, s.Ready x (.getLogPage c) → (s.taken x (.getLogPage c) c).logData c = .ok d →
      ∃ t, exec (.getLogPage c) s = .next t ∧ s.Answers t c .ok 0 0 d ∧ t = { s with host := t.host }) ∧
    (∀ v d, s.Ready x (.getFeatures c) → s.featureData c.assoc c = .ok (v, d) →
      ∃ t, exec (.getFeatures c) s = .next t ∧ s.Answers t c .ok v 0 d ∧ t = { s with host := t.host }) ∧
    (∀ y, s.Ready x (.asynchronousEventRequest c) → s.assoc c.assoc = some y →
      (y.aers = [] → ∃ t, exec (.asynchronousEventRequest c) s = .next t ∧ s.Waits t c .asyncEvent ∧ t = { s with host := t.host }) ∧
      (∀ n r, y.aers = n :: r → ∃ t, exec (.asynchronousEventRequest c) s = .next t ∧ s.Answers t c .ok n 0 [] ∧
        t = { s with host := t.host })) ∧
    (s.Ready x (.constellationStatus c) → c.cdw10 = 0 → restZero c = true → dataOk c 64 = true →
      ∃ t, exec (.constellationStatus c) s = .next t ∧ s.Answers t c .ok 0 0 (s.taken x (.constellationStatus c) c).constellation ∧
        t = { s with host := t.host }) ∧
    (let n := c.cdw10.toNat
     let l := (s.patSorted.drop c.cdw11.toNat).take n
     s.Ready x (.readPatina c) → 0 < n → n ≤ 4096 → c.cdw11.toNat < 4096 → restZero12 c = true → dataOk c (n * 256) = true →
      ∃ t, exec (.readPatina c) s = .next t ∧ s.Answers t c .ok l.length s.nor.patCount (l.flatMap (fun e => e.bytes)) ∧
        t = { s with host := t.host }) ∧
    (s.Ready x (.clearPatina c) → s.nor.patLocked = false → c.cdw11 = 0 → restZero12 c = true → dataOk c 0 = true →
      ∃ t, exec (.clearPatina c) s = .next t ∧ s.Answers t c .ok 0 0 [] ∧ t.pat.store = [] ∧ t.nor.patJournal = [] ∧
        s.RegsBut [Adr.PAT_DROP] t ∧ t.media = s.media)

/-- Ownership (R354 to R356), a claim of a vacant device, a claim of a held one, and a yield; and the Fabrics commands (R339, R340), properties and
the messages of authentication. What the spec leaves open here is the model's choice (log entries 98 and 16). -/
def Obligations.OwnershipAndFabricsRows : Prop :=
  (∀ (s : State) (c : Cmd) (x : Ctx), s.Only c x → c.assoc < 1024 → c.cdw10 = 0 → restZero c = true → dataOk c 0 = true → s.NoneStopped →
    (s.Ready x (.claimOwnership c) → s.authed c.assoc = true → s.ownState = 0 → ∃ t, exec (.claimOwnership c) s = .next t ∧
      s.Answers t c .ok (s.fld Adr.OWN_LEASE Fld.OWN_LEASE_lease_s) 0 [] ∧ t.ownState = 1 ∧
      t.fld Adr.OWN_STATUS Fld.OWN_STATUS_owner = c.assoc ∧ t.media = s.media) ∧
    (s.Ready x (.claimOwnership c) → s.authed c.assoc = true → s.ownState = 1 → s.isOwner c.assoc = false → s.now < s.own.endsAt →
      ∃ t, exec (.claimOwnership c) s = .next t ∧ s.Answers t c (.vendor 0x81) 0 0 [] ∧
        s.RegsBut [Adr.OWN_CNT] t ∧ t = { s with regs := t.regs, host := t.host }) ∧
    (s.Ready x (.yieldOwnership c) → s.isOwner c.assoc = true → ∃ t, exec (.yieldOwnership c) s = .next t ∧ s.Answers t c .ok 0 0 [] ∧
      t.ownState = 0 ∧ t.media = s.media) ∧
    (s.Ready x (.yieldOwnership c) → s.isOwner c.assoc = false → ∃ t, exec (.yieldOwnership c) s = .next t ∧ s.Answers t c .ok 0 0 [] ∧
      t = { s with host := t.host })) ∧
  (∀ (s : State) (c : Cmd) (x : Ctx) (y : Assoc), s.Only c x → c.assoc < 1024 → s.assoc c.assoc = some y →
    (s.Ready x (.propertyGet c) → c.cdw11.toNat = 8 →
      ∃ t, exec (.propertyGet c) s = .next t ∧ s.Answers t c .ok 0x20000 0 [] ∧ t = { s with host := t.host }) ∧
    (s.Ready x (.propertyGet c) → c.cdw11.toNat = 0x14 →
      ∃ t, exec (.propertyGet c) s = .next t ∧ s.Answers t c .ok y.cc.toNat 0 [] ∧ t = { s with host := t.host }) ∧
    (s.Ready x (.propertySet c) → c.cdw11.toNat = 0x14 → ∃ t, exec (.propertySet c) s = .next t ∧ s.Answers t c .ok 0 0 [] ∧
      (∃ z, t.assoc c.assoc = some z ∧ z.cc = c.cdw12 ∧ z.auth = y.auth ∧ z.hostNqn = y.hostNqn) ∧ t = { s with host := t.host }) ∧
    (s.Ready x (.authenticationSend c) → ∃ t, exec (.authenticationSend c) s = .next t ∧ s.Answers t c .ok 0 0 [] ∧ s.RegsButEvents [] t ∧
      t.media = s.media) ∧
    (s.Ready x (.authenticationReceive c) → ∃ t, exec (.authenticationReceive c) s = .next t ∧
      s.Answers t c .ok 0 0 (fitBytes ((s.taken x (.authenticationReceive c) c).authReturn c.assoc).1 c.cdw11.toNat) ∧
      s.RegsButEvents [] t ∧ t.media = s.media))

/-- Register Write and Register Read of one register, a reserved one among them, and Reconfigure Function (R2, R31, R384). What the spec leaves open
here is the model's choice (log entries 120 and 10). -/
def Obligations.RegisterCommandRows : Prop :=
  ∀ (s : State) (c : Cmd) (x : Ctx), s.Only c x → c.assoc < 1024 → restZero12 c = true →
    (∀ (p : RegPair) (g : Nat), s.Ready x (.registerWrite c) → c.cdw10 = 1 → c.cdw11 = 0 → dataOk c 8 = true → pairsOf c = [p] → p.addr % 4 = 0 →
      p.addr < 0x8000000 → regionOf p.addr = some g → s.powered g = true →
      ((∃ h ∈ s.heldRegs, h.path = .regCmd) → ∃ t, exec (.registerWrite c) s = .next t ∧ s.Waits t c (.region g [p] []) ∧
        t = { s with host := t.host }) ∧
      ((∀ h ∈ s.heldRegs, h.path ≠ .regCmd) → s.restarting g = false → rowAt p.addr = none → ∃ t, exec (.registerWrite c) s = .next t ∧ s.Answers t c .ok 0 0 [] ∧ t = { s with host := t.host }) ∧
      (∀ (r : RegRow) (n : List Nat), (∀ h ∈ s.heldRegs, h.path ≠ .regCmd) → s.restarting g = false → rowAt p.addr = some (r, n) →
        r.name ∉ ownEffect → rowFunc r n = none → ∃ t, exec (.registerWrite c) s = .next t ∧ s.Answers t c .ok 0 0 [] ∧ t.reg p.addr = writeMerge r.fields (s.reg p.addr) p.value ∧
          s.RegsBut [p.addr] t ∧ t.media = s.media)) ∧
    (∀ g : Nat, s.Ready x (.registerRead c) → c.cdw11 = 1 → c.cdw10.toNat % 4 = 0 → c.cdw10.toNat + 4 ≤ 0x8000000 → dataOk c 4 = true →
      regionOf c.cdw10.toNat = some g → s.powered g = true → s.restarting g = false → isUpper c.cdw10.toNat = false →
      (∀ h ∈ s.heldRegs, h.path ≠ .regCmd) →
      ∃ t, exec (.registerRead c) s = .next t ∧
        s.Answers t c .ok 0 0 (leBytes 4 ((s.taken x (.registerRead c) c).readReg c.cdw10.toNat).toNat) ∧
        (rowAt c.cdw10.toNat = none → s.Answers t c .ok 0 0 (leBytes 4 0)) ∧ t.media = s.media) ∧
    (∀ k : Nat, s.Ready x (.reconfigureFunction c) → c.cdw11 = 0 → dataOk c 0 = true → bitsOf c.cdw10.toNat 7 4 = 0 →
      bitsOf c.cdw10.toNat 31 10 = 0 → c.cdw10.toNat % 16 = k → k < 15 → s.fstate k = 0 →
      (bitsOf c.cdw10.toNat 9 8 = 1 → k ≠ 10 → k ≠ 11 → k ≠ 14 → ∃ t, exec (.reconfigureFunction c) s = .next t ∧
        s.Waits t c (.reconf k 1) ∧ t.fstate k = 1 ∧ t.media = s.media) ∧
      (1 < bitsOf c.cdw10.toNat 9 8 → ∃ t, exec (.reconfigureFunction c) s = .next t ∧ s.Answers t c .ok 0 0 [] ∧
        t = { s with host := t.host }))

/-- Set Features and Namespace Management (R352, R368 to R371, R392). What the spec leaves open here is the model's choice (log entries 65 and
107). -/
def Obligations.FeatureAndNamespaceRows : Prop :=
  ∀ (s : State) (c : Cmd) (x : Ctx) (y : Assoc), s.Only c x → c.assoc < 1024 → s.assoc c.assoc = some y →
    (s.Ready x (.setFeatures c) →
      (c.cdw10.toNat % 256 = 0x0B → ∃ t, exec (.setFeatures c) s = .next t ∧ s.Answers t c .ok 0 0 [] ∧
        (∃ z, t.assoc c.assoc = some z ∧ z = { y with aec := c.cdw11 }) ∧ t = { s with host := t.host }) ∧
      (c.cdw10.toNat % 256 = 0x0F → ∃ t, exec (.setFeatures c) s = .next t ∧ s.Answers t c .ok 0 0 [] ∧
        (∃ z, t.assoc c.assoc = some z ∧ z.kato = c.cdw11.toNat) ∧ t = { s with host := t.host }) ∧
      (c.cdw10.toNat % 256 = 0xC2 → 0 < c.cdw11.toNat % 4096 → c.cdw11.toNat % 4096 ≤ 3600 →
        ∃ t, exec (.setFeatures c) s = .next t ∧ s.Answers t c .ok 0 0 [] ∧
          t.fld Adr.OWN_LEASE Fld.OWN_LEASE_lease_s = c.cdw11.toNat % 4096 ∧ s.RegsBut [Adr.OWN_LEASE] t ∧ t.media = s.media) ∧
      (c.cdw10.toNat % 256 = 0xC3 → c.cdw11.toNat % 2 = 1 → ∃ t, exec (.setFeatures c) s = .next t ∧ s.Answers t c .ok 0 0 [] ∧
        t.nor.patLocked = true ∧ t.media = s.media) ∧
      (c.cdw10.toNat % 256 = 0x03 → ∃ t, exec (.setFeatures c) s = .next t ∧ s.Answers t c .field 0 0 [] ∧ t = { s with host := t.host })) ∧
    (s.Ready x (.namespaceManagement c) → c.cdw10.toNat % 16 = 0 → ∀ (id : Nat),
      let d := fitBytes c.data 4096
      let n := (leAt d 0 8 + 511) / 512
      let ts := lowestFree s.heldTrusses 0 (match s.media.layout with | some l => l.tmax | none => 0) n
      leAt d 0 8 ≠ 0 → leAt d 8 8 = leAt d 0 8 → leAt d 3840 1 = 1 →
      firstFrom 1 64 (fun k => !((s.spaces ++ s.deleting.flatMap (fun e => e.spaces)).map (fun p => p.1)).contains k) = some id →
      n ≤ (match s.media.layout with | some l => l.tmax | none => 0) → ts.length = n →
      ∃ t, exec (.namespaceManagement c) s = .next t ∧ s.Answers t c .ok id 0 [] ∧
        lookupKey t.spaces id = some { mould := true, nsze := 512 * n, trusses := ts } ∧ s.RegsButEvents [] t ∧ t.media = s.media) ∧
    (∀ sp : Namespace, s.Ready x (.namespaceManagement c) → c.cdw10.toNat % 16 = 1 → c.nsid ≠ 0xFFFFFFFF → lookupKey s.spaces c.nsid.toNat = some sp →
      ∃ t, exec (.namespaceManagement c) s = .next t ∧ s.Answers t c .ok 0 0 [] ∧ lookupKey t.spaces c.nsid.toNat = none)

/-- Load Content Key, the loads of Cast profiles and recipes, and firmware (R263, R267, R268, R380 to R382, R486, R487). What the spec leaves open
here is the model's choice (log entries 77, 95 and 16). -/
def Obligations.LoadCommandRows : Prop :=
  ∀ (s : State) (c : Cmd) (x : Ctx), s.Only c x → c.assoc < 1024 →
    (let d := fitBytes c.data 64
     ∀ k, s.Ready x (.loadContentKey c) → c.cdw10 = 0 → restZero c = true → c.prp = false → c.len = 64 → leAt d 1 1 = 0 → leAt d 12 4 = 0 →
      leAt d 56 8 = 0 → leAt d 0 1 = 2 → leAt d 2 2 < 4096 → s.kek c.assoc = some k →
      ∃ t, exec (.loadContentKey c) s = .next t ∧ t.nor.keys = s.nor.keys.filter (fun p => p.1 != leAt d 2 2) ∧
        s.Answers t c .ok (s.nor.keys.length - t.nor.keys.length) 0 [] ∧ t.regs = s.regs ∧ t.media = s.media) ∧
    (let r := bitOf c.cdw10.toNat 8
     s.Ready x (.loadCastProfile c) → bitsOf c.cdw10.toNat 7 6 = 0 → bitsOf c.cdw10.toNat 31 9 = 0 → restZero c = true → c.prp = false →
      (r = true → c.len = 0) → (r = false → c.len = 64 + profLe c.data 6 2 ∧ s.profileOk (fitBytes c.data c.len) = true) → s.fstate 10 = 0 →
      ∃ t, exec (.loadCastProfile c) s = .next t ∧ s.Waits t c (.load 10) ∧ t.fstate 10 = 3 ∧ s.RegsBut [Adr.FUNC_CTRL 10] t ∧
        t = { s with regs := t.regs, funcs := t.funcs, host := t.host }) ∧
    (let r := bitOf c.cdw10.toNat 0
     s.Ready x (.loadRecipe c) → bitsOf c.cdw10.toNat 7 2 = 0 → bitsOf c.cdw10.toNat 31 16 = 0 → restZero c = true → c.prp = false →
      (r = true → c.len = 0 ∧ s.recipe (c.cdw10.toNat / 256 % 256) = none) →
      (r = false → c.data.length = c.len ∧ s.recipeCheck (bitOf c.cdw10.toNat 1) c.data = none) → s.fstate 11 = 0 →
      ∃ t, exec (.loadRecipe c) s = .next t ∧ s.Waits t c (.load 11) ∧ t.fstate 11 = 3 ∧ s.RegsBut [Adr.FUNC_CTRL 11] t ∧
        t = { s with regs := t.regs, funcs := t.funcs, host := t.host }) ∧
    (let n := 4 * (c.cdw10.toNat + 1)
     s.Ready x (.firmwareImageDownload c) → s.activation = none → c.cdw11 = 0 → n ≤ 50331648 → s.nor.slots.length = 2 →
      blocksOk (fitBytes c.data n) 0 (n / 65536) = true →
      ∃ t, exec (.firmwareImageDownload c) s = .next t ∧ s.Answers t c .ok 0 0 [] ∧ (t.nor.slot s.spareSlot).image = fitBytes c.data n ∧
        (t.nor.slot s.spareSlot).state = 1 ∧ t.nor.slot (1 - s.spareSlot) = s.nor.slot (1 - s.spareSlot) ∧ t.media = s.media) ∧
    (∀ k : Nat, s.Ready x (.firmwareCommit c) → s.fsSlot c = some k →
      (bitsOf c.cdw10.toNat 5 3 = 2 → (s.nor.slot k).state = 2 → ∃ t, exec (.firmwareCommit c) s = .next t ∧ s.Answers t c .ok 0 0 [] ∧
        t.nor.bootMark = some k ∧ t.nor.slots = s.nor.slots ∧ t.media = s.media) ∧
      (∀ n, bitsOf c.cdw10.toNat 5 3 = 0 → (s.nor.slot k).state < 3 → (s.nor.slot k).check = some n → ∃ t, exec (.firmwareCommit c) s = .next t ∧
        s.Answers t c ⟨1, 7⟩ n 0 [] ∧ t.nor.bootMark = s.nor.bootMark ∧ t.media = s.media))

/-- The queue commands of the PCIe path (R341, R364), on association 1,024 whose admin completion queue has room. What the spec leaves open here is
the model's choice (log entry 16). -/
def Obligations.PcieQueueRows : Prop :=
  ∀ (s : State) (c : Cmd) (x : Ctx) (y : Assoc) (k : Cq), s.Only c x → c.assoc = 1024 → c.qid = 0 → s.assoc 1024 = some y →
    lookupKey y.sqs 0 = none → y.cqs.find? (fun d => d.id == 0) = some k → (k.tail + 1) % k.size ≠ k.head → s.host.heldCpl = [] →
    let q := c.cdw10.toNat % 65536
    let n := c.cdw10.toNat / 65536 + 1
    0 < q →
    (s.Ready x (.createIoCompletionQueue c) → q ≤ 64 → 2 ≤ n → n ≤ 1024 → y.cqs.any (fun d => d.id == q) = false → bitOf c.cdw11.toNat 1 = false →
      ∃ t, exec (.createIoCompletionQueue c) s = .next t ∧ s.Answers t c .ok 0 0 [] ∧
        (∃ z, t.assoc 1024 = some z ∧ z.sqs = y.sqs ∧ z.cqs.any (fun d => d.id == q && d.size == n) = true) ∧ t = { s with host := t.host }) ∧
    (s.Ready x (.createIoSubmissionQueue c) → q ≤ 64 → 2 ≤ n → n ≤ 1024 → 0 < c.cdw11.toNat / 65536 → y.cqs.any (fun d => d.id == c.cdw11.toNat / 65536) = true →
      lookupKey y.sqs q = none → ∃ t, exec (.createIoSubmissionQueue c) s = .next t ∧ s.Answers t c .ok 0 0 [] ∧
        (∃ z, t.assoc 1024 = some z ∧ lookupKey z.sqs q = some (c.cdw11.toNat / 65536) ∧ lookupKey z.classes q = some 2) ∧
        t = { s with host := t.host }) ∧
    (s.Ready x (.deleteIoSubmissionQueue c) → (lookupKey y.sqs q).isSome = true →
      ∃ t, exec (.deleteIoSubmissionQueue c) s = .next t ∧ s.Answers t c .ok 0 0 [] ∧
        (∃ z, t.assoc 1024 = some z ∧ lookupKey z.sqs q = none) ∧
        t.host.capsules = s.host.capsules.filter (fun d => !(d.assoc == 1024 && d.qid == q)) ∧ t = { s with host := t.host }) ∧
    (s.Ready x (.deleteIoCompletionQueue c) → y.cqs.any (fun d => d.id == q) = true → y.sqs.any (fun p => p.2 == q) = false →
      ∃ t, exec (.deleteIoCompletionQueue c) s = .next t ∧ s.Answers t c .ok 0 0 [] ∧
        (∃ z, t.assoc 1024 = some z ∧ z.cqs.any (fun d => d.id == q) = false) ∧ t = { s with host := t.host })

/-- Reads and writes of LBAs (R23, R374 to R377, R390, R391): a read returns its sectors, a write pends until the medium has it; a pending write
whose last sector reaches the medium completes and is forgotten, and a sector that is held leaves it pending. What the spec leaves open here is the
model's choice (log entries 34, 63 and 16). -/
def Obligations.ReadWriteRows : Prop :=
  (∀ (s : State) (c : Cmd) (x : Ctx) (sp : Namespace), s.Only c x → c.assoc < 1024 → s.lbaSpace x c.nsid.toNat = some sp →
    let l := lbaRun (slbaOf c) (nlbOf c)
    (slbaOf c + nlbOf c ≤ sp.nsze → nlbOf c ≤ s.maxBlocks →
      (∀ bs : List (List Byte), s.Ready x (.read c) → plainCdw12 c.cdw12 = true →
        (let u := s.locked x (.read c) c (c.nsid.toNat, slbaOf c, slbaOf c + nlbOf c - 1, false)
         u.readLbas sp c.nsid.toNat l = (⟨none, [], none, bs⟩, u)) →
        ∃ t, exec (.read c) s = .next t ∧ s.Answers t c .ok 0 0 bs.reverse.flatten ∧ t = { s with host := t.host }) ∧
      (∀ bs : List (List Byte), s.Ready x (.timedRead c) → timedFields c = true → timedL c = 0 → timedAngle c = none →
        (let u := s.locked x (.timedRead c) c (c.nsid.toNat, slbaOf c, slbaOf c + nlbOf c - 1, false)
         u.readLbas sp c.nsid.toNat l = (⟨none, [], none, bs⟩, u)) →
        ∃ t, exec (.timedRead c) s = .next t ∧ s.Answers t c .ok 0 0 bs.reverse.flatten ∧ t = { s with host := t.host }) ∧
      (s.Ready x (.timedRead c) → timedFields c = true → x.arrival ≤ timedL c → 0 < timedL c → timedL c ≤ x.arrival + 60000000000 → s.tbNs < timedL c →
        ∃ t, exec (.timedRead c) s = .next t ∧ s.Waits t c (.launch (timedL c) (timedAngle c)) ∧ t = { s with host := t.host }) ∧
      (s.Ready x (.write c) → plainCdw12 c.cdw12 = true → l.all (fun k => match sp.mediaOf k with | some m => !s.lostAt m | none => true) = true →
        s.pln.noMedia = false → s.stoppedFor (l.filterMap sp.mediaOf) = none → s.flag Adr.SPN_RETRACT Fld.SPN_RETRACT_armed = true →
        s.trailRoom l.length = true → ∃ t, exec (.write c) s = .next t ∧ s.Waits t c .mediaWrite ∧
          t.media = { s.media with writes := s.media.writes ++ [{ assoc := c.assoc, qid := c.qid, cid := c.cid, ns := c.nsid.toNat, lbas := l, data := fitBytes c.data (l.length * s.lbaSize), todo := List.range l.length }] } ∧ t.regs = s.regs)) ∧
    (slbaOf c + nlbOf c ≤ sp.nsze → s.Ready x (.writeZeroes c) → bitOf c.cdw12.toNat 25 = false →
      l.all (fun k => match sp.mediaOf k with | some m => !s.lostAt m | none => true) = true → s.pln.noMedia = false →
      s.stoppedFor (l.filterMap sp.mediaOf) = none → s.flag Adr.SPN_RETRACT Fld.SPN_RETRACT_armed = true →
      ∃ t, exec (.writeZeroes c) s = .next t ∧ s.Waits t c .mediaWrite ∧
        t.media = { s.media with writes := s.media.writes ++ [{ assoc := c.assoc, qid := c.qid, cid := c.cid, ns := c.nsid.toNat, lbas := l, data := [], todo := List.range l.length }] } ∧ t.regs = s.regs) ∧
    (s.Ready x (.datasetManagement c) → ((rangesOf c).filter (fun p => p.2 != 0)).any (fun p => decide (sp.nsze < p.1 + p.2)) = false →
      bitOf c.cdw11.toNat 2 = false → ∃ t, exec (.datasetManagement c) s = .next t ∧ s.Answers t c .ok 0 0 [] ∧ t = { s with host := t.host }) ∧
    (s.Ready x (.transform c) → xfFields c = true → xfDir c = false → xfSlba c + xfBlocks c ≤ sp.nsze →
      (lbaRun (xfSlba c) (xfBlocks c)).all (fun k => match sp.mediaOf k with | some m => !s.lostAt m | none => true) = true →
      ∃ t, exec (.transform c) s = .next t ∧ s.Waits t c .job ∧ (∃ j, t.cmp = s.cmp ++ [j] ∧ j.assoc = c.assoc ∧ j.qid = c.qid ∧ j.cid = c.cid ∧
        j.op = xfOp c ∧ j.level = xfLevel c ∧ j.input = fitBytes c.data c.len ∧ j.unit = none) ∧ t.media = s.media ∧ t.regs = s.regs)) ∧
  (∀ (s : State) (o q c : Nat) (w : PendWrite) (x : Ctx) (sp : Namespace), o < 1024 → s.ctx o q c = some x →
    s.media.writes.find? (fun w => w.assoc == o && w.qid == q && w.cid == c) = some w → s.spaceFor x.order w.ns = some sp → w.dealloc = [] →
    (∀ (l : List Nat) (u : State), s.writePass.writeRest w sp w.todo = (l, u) → u.ctx o q c = some x →
      (l = [] → ∃ t, exec (.mediaWriteDone o q c) s = .next t ∧
        t.host.completions = u.host.completions ++ [⟨o, q, c, 0, 0, false, w.dw0, w.dw1, []⟩] ∧ t.media.sectors = u.media.sectors ∧
        t.media.writes = u.media.writes.filter (fun w => !(w.assoc == o && w.qid == q && w.cid == c))) ∧
      (l ≠ [] → l ≠ w.todo → ∃ t, exec (.mediaWriteDone o q c) s = .next t ∧ t.host = u.host ∧
        t.media = { u.media with writes := u.media.writes.map (fun v => if v.assoc = o ∧ v.qid = q ∧ v.cid = c then { v with todo := l, held := true } else v) } ∧
        t.regs = u.regs)) ∧
    (∀ (k lba y : Nat) (p : Locus), w.todo = [k] → w.lbas[k]? = some lba → sp.mediaOf lba = some y → s.locate y = some p →
      s.media.units.contains (y / 64) = true → s.missingAt y = false → s.mayPlace (8 * s.actAt y) = true → s.newTrail y = false →
      s.media.rebuildLock ≠ some (y / 576) → s.roomFor [y] = true → s.cutAt o q c y = false →
      ∃ t, exec (.mediaWriteDone o q c) s = .next t ∧ t.Holds p.phys y (s.writeData w.data k) ∧ t.media.wsn = s.media.wsn + 1 ∧
        s.SectorsBut [p.phys] t ∧
        t.host.completions = s.host.completions ++ [⟨o, q, c, 0, 0, false, w.dw0, w.dw1, []⟩]))

/-- Mould Write, Mould Commit and Cast (R255, R259, R270, R387 to R389). What the spec leaves open here is the model's choice (log entries
64 and 74). -/
def Obligations.MouldAndCastRows : Prop :=
  ∀ (s : State) (c : Cmd) (x : Ctx), s.Only c x → c.assoc < 1024 →
    let w := c.cdw10.toNat
    let m := s.mouldOr c.nsid.toNat (w % 65536)
    (∀ sp : Namespace, s.Ready x (.mouldWrite c) → s.mouldSpace x c.nsid.toNat = some sp → bitsOf w 19 18 = 0 → w / 2 ^ 20 = 0 → c.cdw11 = 0 →
      c.cdw14 = 0 → ofLe (slice c.mid 0 16) = 0 → c.prp = false → 0 < c.len → c.len ≤ 8388608 →
      (let off := c.cdw12.toNat + c.cdw13.toNat * 2 ^ 32
       let m1 := m.writePart (w / 65536 % 4) off (fitBytes c.data c.len)
       off + c.len ≤ partMax (w / 65536 % 4) → m.isCommitted = false →
       (s.mouldUse c.nsid.toNat - (if (s.mould c.nsid.toNat (w % 65536)).isSome then m.blocks else 0)) + m1.blocks ≤ sp.nsze →
       ∃ t, exec (.mouldWrite c) s = .next t ∧ s.Answers t c .ok c.len 0 [] ∧ t.cast = (s.putMould m1).cast ∧ t.regs = s.regs ∧
        t.media = s.media)) ∧
    (s.Ready x (.mouldCommit c) → w / 65536 = 0 → c.cdw11 = 0 → c.cdw12 = 0 → c.cdw13 = 0 → c.cdw14 = 0 → c.cdw15 = 0 →
      ofLe (slice c.mid 0 16) = 0 →
      (m.isCommitted = true → ∃ t, exec (.mouldCommit c) s = .next t ∧ s.Answers t c .ok 0 0 [] ∧ t = { s with host := t.host }) ∧
      (m.isCommitted = false → m.check = none → ∃ t, exec (.mouldCommit c) s = .next t ∧ s.Answers t c .ok 0 0 [] ∧
        t.cast = (s.putMould { m with committed := some s.host.seq, withdrawn := none }).cast ∧ t.regs = s.regs ∧ t.media = s.media) ∧
      (∀ n, m.isCommitted = false → m.check = some n → ∃ t, exec (.mouldCommit c) s = .next t ∧ s.Answers t c .field n 0 [] ∧
        t.flag Adr.CST_ERR Fld.CST_ERR_commit_refused = true ∧ t.cast = s.cast ∧ s.RegsButEvents [Adr.CST_ERR] t ∧ t.media = s.media)) ∧
    (∀ p, s.Ready x (.cast c) → castLt c = false → s.funcRunning 10 = true → s.funcRunning 11 = true →
      (s.taken x (.cast c) c).castCheck c x.order = .ok p → ∃ t, exec (.cast c) s = .next t ∧ s.Waits t c .castQueue ∧
        (∃ j, t.cast.jobs = s.cast.jobs ++ [j] ∧ j.assoc = c.assoc ∧ j.qid = c.qid ∧ j.cid = c.cid ∧ j.order = x.order ∧ j.cmd = c ∧
          j.dispatched = false) ∧ t.regs = s.regs ∧ t.media = s.media)

/-! ## Memory, faults, the patina, power, clocks, reset and firmware -/

/-- ECC and the DRAM channels (R408, R420 to R428): counting and the leaky bucket, scrubs, uncorrectable errors, injection, page retirement. What
the spec leaves open here is the model's choice (log entries 80 and 137). -/
def Obligations.EccRows : Prop :=
  ∀ s : State,
    (∀ (i : Fin 128) (n : Nat), 2 ≤ i.val → i.val < 97 → s.eccMode = 0 → s.level i + 1 ≤ s.fld Adr.ECC_BUCKET Fld.ECC_BUCKET_threshold →
      ∃ t, exec (.eccCorrected i n) s = .next t ∧ t.level i = s.level i + 1 ∧
        t.fld Adr.ECC_CNT Fld.ECC_CNT_corr = min (s.fld Adr.ECC_CNT Fld.ECC_CNT_corr + 1) (2 ^ Fld.ECC_CNT_corr.width - 1) ∧
        t.dram = { s.dram with scrubs := s.dram.scrubs ++ [(i.val, n)] } ∧ s.RegsBut [Adr.ECC_CNT, Adr.ECC_LVL i] t ∧
        t = { s with regs := t.regs, dram := t.dram }) ∧
    (∀ (i : Fin 128) (n : Nat), i.val < 2 → s.eccMode = 0 → s.level i + 1 ≤ s.fld Adr.ECC_BUCKET Fld.ECC_BUCKET_threshold →
      ∃ t, exec (.eccCorrected i n) s = .next t ∧ t.level i = s.level i + 1 ∧
        t.fld Adr.ECC_CNT Fld.ECC_CNT_corr = min (s.fld Adr.ECC_CNT Fld.ECC_CNT_corr + 1) (2 ^ Fld.ECC_CNT_corr.width - 1) ∧
        t.dram.scrubs = s.dram.scrubs ++ [(i.val, n)] ∧
        s.RegsBut [Adr.ECC_CNT, Adr.ECC_LVL i, Adr.L2C_HIT, Adr.L2C_MISS, Adr.L2C_PF] t ∧ t = { s with regs := t.regs, dram := t.dram }) ∧
    (∀ (i : Fin 128) (n : Nat), i.val < 97 → s.eccMode = 0 → s.fld Adr.ECC_BUCKET Fld.ECC_BUCKET_threshold < s.level i + 1 →
      ∃ t, exec (.eccCorrected i n) s = .next t ∧ t.level i = 0 ∧ t.flag Adr.ECC_IRQ Fld.ECC_IRQ_latched = true ∧
        t.dram.scrubs = s.dram.scrubs ++ [(i.val, n)] ∧ s.RegsButEvents [Adr.ECC_CNT, Adr.ECC_LVL i, Adr.ECC_IRQ, Adr.L2C_HIT, Adr.L2C_MISS, Adr.L2C_PF] t) ∧
    (∀ (i : Fin 128) (n : Nat), 97 ≤ i.val → i.val < 101 → ∃ t, exec (.eccCorrected i n) s = .next t ∧
      t.fld Adr.ECC_CNT Fld.ECC_CNT_corr = min (s.fld Adr.ECC_CNT Fld.ECC_CNT_corr + 1) (2 ^ Fld.ECC_CNT_corr.width - 1) ∧
      s.RegsButEvents [Adr.ECC_CNT, Adr.ECC_LVL i, Adr.ECC_IRQ, Adr.FSQ_ERR (i.val - 97)] t ∧ t.media = s.media ∧ t.host = s.host) ∧
    (s.dram.leakAt + s.fld Adr.ECC_BUCKET Fld.ECC_BUCKET_leak_ms * 1000000 ≤ s.now → ∃ t, exec .bucketLeak s = .next t ∧
      (∀ i : Nat, i < 101 → t.level i = s.level i - 1) ∧ s.RegsBut ((List.range 101).map Adr.ECC_LVL) t ∧
      t = { s with regs := t.regs, dram := { s.dram with leakAt := s.now } }) ∧
    (s.now < s.dram.leakAt + s.fld Adr.ECC_BUCKET Fld.ECC_BUCKET_leak_ms * 1000000 → exec .bucketLeak s = .next s) ∧
    (∀ (i n : Nat) (r : List (Nat × Nat)), s.dram.scrubs = (i, n) :: r →
      (∃ t, exec (.targetedScrub true) s = .next t ∧ t = { s with dram := { s.dram with scrubs := r, bad := s.dram.bad.filter (fun p => p != (i, n)) } }) ∧
      (i < 4 → ∃ t, exec (.targetedScrub false) s = .next t ∧
        t = { s with dram := { s.dram with
          scrubs := r, bad := s.dram.bad.filter (fun p => !inGroup (groupOf n).1 (groupOf n).2 p)
          rewrote := s.dram.rewrote.filter (fun p => !(p.1 == i && p.2.1 == n)) ++ [(i, n, s.now)] } }) ∧
      (4 ≤ i → ∃ t, exec (.targetedScrub false) s = .next t ∧ t = { s with dram := { s.dram with scrubs := r } })) ∧
    (∀ (i : Fin 128) (n : Nat), 4 ≤ i.val → i.val < 101 → ∃ u : State, exec (.eccUncorrectable i n .background) s = .next u.settle ∧
      u.reg Adr.ECC_UE_LO = BitVec.ofNat 32 n ∧ u.fld Adr.ECC_UE_HI Fld.ECC_UE_HI_instance = i.val ∧
      u.fld Adr.ECC_CNT Fld.ECC_CNT_uncorr = min (s.fld Adr.ECC_CNT Fld.ECC_CNT_uncorr + 1) (2 ^ Fld.ECC_CNT_uncorr.width - 1) ∧
      s.RegsButEvents [Adr.ECC_CNT, Adr.ECC_UE_LO, Adr.ECC_UE_HI] u ∧ u = s.takeEvents u) ∧
    (∀ (i : Fin 128) (n : Nat), i.val < 4 → s.dram.errAt = [] → ∃ u : State, exec (.eccUncorrectable i n .background) s = .next u.settle ∧
      u.reg Adr.ECC_UE_LO = BitVec.ofNat 32 n ∧ u.dram.errAt = [(i.val % 2, s.now)] ∧ u.dram.poison = s.dram.poison ∧
      (i.val < 2 → (i.val, n) ∉ s.dram.poison → pageOf n ∈ u.dram.retireDue) ∧
      s.RegsButEvents [Adr.ECC_CNT, Adr.ECC_UE_LO, Adr.ECC_UE_HI] u) ∧
    (∀ (ch : Fin 2) (g : Nat), exec (.checkLineWriteback ch g) s =
      .next { s with dram := { s.dram with checkLines := s.dram.checkLines.filter (fun p => p != (ch.val, g)) } }) ∧
    (∀ (ch : Fin 2) (g : Nat), s.eccMode = 0 → s.flag Adr.ECC_SCRUB Fld.ECC_SCRUB_en = true → ∃ t, exec (.scrubGroup ch g) s = .next t ∧
      t.dram = { s.dram with bad := s.dram.bad.filter (fun p => !inGroup ch g p) } ∧ s.RegsBut [Adr.ECC_SCRUBPOS] t ∧
      t = { s with regs := t.regs, dram := t.dram }) ∧
    (∀ ch : Fin 2, s.flag Adr.MEM_STATUS (if ch.val = 0 then Fld.MEM_STATUS_ch0_failed else Fld.MEM_STATUS_ch1_failed) = false →
      s.flag Adr.MEM_STATUS Fld.MEM_STATUS_trained = true → s.flag Adr.MEM_STATUS Fld.MEM_STATUS_single = false →
      ∃ u : State, exec (.dramChannelFail ch) s = .next (u.restartRegion 5).settle ∧ u.media.dram = [] ∧
        u.flag Adr.MEM_STATUS (if ch.val = 0 then Fld.MEM_STATUS_ch0_failed else Fld.MEM_STATUS_ch1_failed) = true ∧
        u.flag Adr.MEM_STATUS Fld.MEM_STATUS_single = true ∧ u.media.sectors = s.media.sectors) ∧
    (∀ (o : Nat) (v : Word), s.Writable o Adr.ECC_MODE → s.eccMode = 0 → getBits v Fld.ECC_MODE_mode = 2 →
      ∃ t, exec (.eccModeWrite o v) s = .next t ∧ t.eccMode = 2 ∧ s.RegsBut [Adr.ECC_MODE] t ∧ t = { s with regs := t.regs }) ∧
    (∀ (o : Nat) (v : Word), s.Writable o Adr.ECC_MODE → s.eccMode = 2 → getBits v Fld.ECC_MODE_mode = 0 → ∃ t, exec (.eccModeWrite o v) s = .next t ∧
      t.eccMode = 0 ∧ t.flag Adr.ECC_INJ Fld.ECC_INJ_armed = false ∧ s.RegsBut [Adr.ECC_MODE, Adr.ECC_INJ] t ∧ t.dram = s.dram) ∧
    (∀ (o : Nat) (v : Word), s.Writable o Adr.ECC_INJ → s.eccMode = 2 → ∃ t, exec (.eccInjArm o v) s = .next t ∧
      t.flag Adr.ECC_INJ Fld.ECC_INJ_armed = true ∧ s.RegsBut [Adr.ECC_INJ] t ∧ t = { s with regs := t.regs }) ∧
    (s.eccMode = 2 → s.flag Adr.ECC_INJ Fld.ECC_INJ_armed = true →
      let d := (s.reg Adr.ECC_INJADDR_LO).toNat + 2 ^ 32 * s.fld Adr.ECC_INJADDR_HI Fld.ECC_INJADDR_HI_addr_hi
      ∃ t, exec .eccInject s = .next t ∧ t.flag Adr.ECC_INJ Fld.ECC_INJ_armed = false ∧
        (s.fld Adr.ECC_INJ Fld.ECC_INJ_kind = 2 → t.dram.poison = s.dram.poison.filter (· != ((groupOf d).1, d)) ++ [((groupOf d).1, d)]) ∧
        (s.fld Adr.ECC_INJ Fld.ECC_INJ_kind ≠ 2 → t.dram.bad = s.dram.bad.filter (· != ((groupOf d).1, d)) ++ [((groupOf d).1, d)]) ∧
        s.RegsButEvents [Adr.ECC_INJ] t ∧ t.media = s.media) ∧
    (∀ (ch : Fin 2) (page : Nat) (l : List Nat), s.dram.retireDue.contains (ch.val, page) = true → s.sparesLeft ch ≠ 0 → ∃ t, exec (.pageRetire ch page l) s = .next t ∧
      t.nor.retired = s.nor.retired ++ [{ chan := ch, page := page, spare := 1024 - s.sparesLeft ch, at_ := s.tbNs }] ∧
      (∀ d ∈ l, (ch.val, d) ∈ t.dram.poison) ∧ t.media = s.media) ∧
    (∀ (ch : Fin 2) (page : Nat) (l : List Nat), s.dram.retireDue.contains (ch.val, page) = true → s.sparesLeft ch = 0 → ∃ t, exec (.pageRetire ch page l) s = .next t ∧
      t.nor.retired = s.nor.retired ∧ s.RegsButEvents [] t ∧ t.dram.poison = s.dram.poison)

/-- Fault events, escalation and region restarts (R434 to R450): an event is counted and changes nothing but the fault state; a timer's end and each
acknowledgement take their actions; a region that runs again, or does not in time; the quiet period; the ERR test; control cores. The patina (R452
to R457): an entry is stored in the place R454 names, journalled, or its journal write fails; the mode is locked once. What the spec leaves open
here is the model's choice (log entries 115, 116 and 83). -/
def Obligations.FaultAndPatinaRows : Prop :=
  (∀ s : State,
    (∀ (b : Fin 38) (id d e : Nat), eventClass id = none → exec (.faultEvent b id d e) s = .next s) ∧
    (∀ (b : Fin 38) (id d e : Nat), (id < 0x780 ∨ 0x7C0 ≤ id) → eventClass id = some .corrected →
      ∃ t, exec (.faultEvent b id d e) s = .next t ∧
        t.fld Adr.FLT_CNT Fld.FLT_CNT_corr = min (s.fld Adr.FLT_CNT Fld.FLT_CNT_corr + 1) (2 ^ Fld.FLT_CNT_corr.width - 1) ∧
        t.nor.corrTotal = s.nor.corrTotal + 1 ∧ s.RegsButEvents [] t ∧ t = s.takeEvents t) ∧
    (∀ r : Fin 7, s.flag (Adr.FLT_ESC r) Fld.FLT_ESC_running = true → (∀ t, lookupKey s.flt.escAt r = some t → t ≤ s.now + 100000) →
      (s.fld (Adr.FLT_ESC r) Fld.FLT_ESC_pending = 2 → exec (.escalationExpiry r) s = .next (((s.stopTimer r).haltPower).fatalActions).settle) ∧
      (s.fld (Adr.FLT_ESC r) Fld.FLT_ESC_pending ≠ 2 →
        exec (.escalationExpiry r) s = .next (((s.stopTimer r).haltPower).escalateRestart r).settle)) ∧
    (∀ r : Fin 7, s.flag (Adr.FLT_ESC r) Fld.FLT_ESC_running = false → exec (.escalationExpiry r) s = .next s) ∧
    (∀ r : Fin 8, r.val < 7 →
      (∃ t, exec (.fltAckHandled r) s = .next t ∧ t.flag (Adr.FLT_ESC r) Fld.FLT_ESC_running = false ∧
        t.fld (Adr.FLT_ESC r) Fld.FLT_ESC_pending = 0 ∧ lookupKey t.flt.escAt r = none ∧
        s.RegsBut [Adr.FLT_ESC r, Adr.FLT_STATE, Adr.ECC_MODE] t ∧ t = { s with regs := t.regs, flt := t.flt }) ∧
      exec (.fltAckRestart r) s = .next (((s.stopTimer r).haltPower).escalateRestart r).settle ∧
      exec (.fltAckFatal r) s = .next (((s.stopTimer r).haltPower).fatalActions).settle) ∧
    (∀ (r : Fin 7) (p k : Nat), s.restarting r = true → ∃ u : State,
      (let v := (u.runRegion r p k).performHeldRegs.backToPs0
       exec (.regionRunning r p k) s = .next (match v.flt.queued with
        | q :: l => { v with flt := { v.flt with queued := l } }.startRestart q
        | [] => if v.flag Adr.FLT_STATE Fld.FLT_STATE_recovering then v.recoverMedia k else v).settle) ∧
        u.restarting r = false ∧ u.flag (Adr.FLT_RST r) Fld.FLT_RST_restarting = false ∧ u.powered r = true ∧ u.media = s.media) ∧
    (∀ (r : Fin 7) (p k : Nat), s.restarting r = false → exec (.regionRunning r p k) s = .next s) ∧
    (∀ r : Fin 7, s.restarting r = true → ∃ u : State, exec (.regionRestartTimeout r) s = .next ((u.fatalActions.endHeldRegs r).endRegionWaits r).settle ∧
      u.restarting r = false ∧ u.powered r = false ∧ u.flt.queued = [] ∧ u.media = s.media ∧ u.host = s.host) ∧
    (s.now < s.flt.quietFrom + s.fld Adr.FLT_CTRL Fld.FLT_CTRL_quiet_s * 1000000000 → exec .quietPeriodExpiry s = .next s) ∧
    (s.faultState = 2 → s.flt.quietFrom + s.fld Adr.FLT_CTRL Fld.FLT_CTRL_quiet_s * 1000000000 ≤ s.now → s.flt.restarting = [] → s.flag Adr.FLT_STATE Fld.FLT_STATE_recovering = false →
      s.flag Adr.FLT_STATE Fld.FLT_STATE_held = false → ∃ u : State, exec .quietPeriodExpiry s = .next u.settle ∧
        u.counter 7 = s.counter 7 + 1 ∧ u.flt.errFault = false ∧ u.media = s.media ∧ u.host = s.host) ∧
    (s.faultState = 3 → s.flt.quietFrom + s.fld Adr.FLT_CTRL Fld.FLT_CTRL_quiet_s * 1000000000 ≤ s.now → s.flt.restarting = [] → s.flag Adr.FLT_STATE Fld.FLT_STATE_recovering = false →
      s.flag Adr.FLT_STATE Fld.FLT_STATE_held = false → 3 ≤ (s.flt.recoveries.filter (fun t => decide (s.now < t + 86400000000000))).length →
      ∃ t, exec .quietPeriodExpiry s = .next t ∧ t.flag Adr.FLT_STATE Fld.FLT_STATE_held = true ∧ s.RegsButEvents [] t ∧ t = s.takeEvents t) ∧
    (∀ (o : Nat) (v : Word), s.Writable o Adr.FLT_ERRTEST → s.faultState < 2 → s.flt.errTest = false → ∃ t, exec (.errTest o v) s = .next t ∧
      t.flt.errTest = true ∧ t.flag Adr.FLT_ERRTEST Fld.FLT_ERRTEST_busy = true ∧ s.RegsBut [Adr.FLT_ERRTEST] t ∧
      t = { s with regs := t.regs, flt := t.flt }) ∧
    (s.flt.errTest = true → ∃ t, exec .errTestEnd s = .next t ∧ t.flt.errTest = false ∧ s.RegsButEvents [] t ∧ t.media = s.media) ∧
    (∀ c : Fin 16, s.flt.failedCores.contains c.val = false → s.flt.failedCores.length ≠ 12 → ∃ t, exec (.controlCoreFail c) s = .next t ∧
      t.flt.failedCores = s.flt.failedCores ++ [c.val] ∧ s.RegsButEvents [] t ∧ t.media = s.media ∧ t.host = s.host) ∧
    (∀ c : Fin 16, s.flt.failedCores.contains c.val = true → exec (.controlCoreFail c) s = .next s)) ∧
  (∀ s : State,
    (∀ (e : PatEntry) (r : List PatEntry) (k : Nat), s.pat.queue = e :: r → patPlace s.pat.store e.severity = some k →
      ∃ t, exec .patinaStore s = .next t ∧ t.pat.queue = r ∧
        t.pat.store = insertKey s.pat.store k { e with record := (s.nor.patCount + 1) % 2 ^ 32 } ∧
        t.nor.patCount = (s.nor.patCount + 1) % 2 ^ 32 ∧ t = { s with nor := t.nor, pat := t.pat }) ∧
    (s.pat.queue = [] → exec .patinaStore s = .next s) ∧
    (∀ (n : Nat) (r : List Nat), s.pat.unjournalled = n :: r →
      (∃ t, exec (.patinaJournalWrite true) s = .next t ∧ t.pat.unjournalled = r ∧ t.nor.patHigh = n ∧ t.pat.store = s.pat.store ∧
        t = { s with nor := t.nor, pat := t.pat }) ∧
      (∃ u : State, exec (.patinaJournalWrite false) s = .next (u.event 0x7A3) ∧ u.pat.unjournalled = [] ∧
        u.flag Adr.PAT_STATUS Fld.PAT_STATUS_jfail = true ∧ s.RegsBut [Adr.PAT_STATUS] u ∧ u = { s with regs := u.regs, pat := u.pat })) ∧
    (∀ o : Nat, s.Writable o Adr.PAT_CTRL →
      (s.nor.patLocked = false → ∃ t, exec (.patinaLock o) s = .next t ∧ t.nor.patLocked = true ∧ s.RegsButEvents [] t ∧ t.media = s.media) ∧
      (s.nor.patLocked = true → exec (.patinaLock o) s = .next s)))

/-- Clocks, the RTC, power states and wake-up (R464, R465, R468 to R473, R508, R517, R518). What the spec leaves open here is the model's choice
(log entries 104 and 105). -/
def Obligations.PowerRows : Prop :=
  ∀ s : State,
    (s.pln.porLow = false →
      (∃ t, exec .xtal32Valid s = .next t ∧ t.flag Adr.CLK_STATUS Fld.CLK_STATUS_xtal32_ok = true ∧
        t.flag Adr.PLN_STATUS Fld.PLN_STATUS_rc_mode = false ∧ s.RegsBut [Adr.CLK_STATUS, Adr.PLN_STATUS] t ∧ t = { s with regs := t.regs }) ∧
      (s.flag Adr.CLK_STATUS Fld.CLK_STATUS_xtal32_ok = false → exec .xtal32Timeout s = .next (s.event 0x004)) ∧
      (∃ t, exec .rtcSave s = .next t ∧ t.nor = { s.nor with rtc := s.rtc } ∧ t = { s with nor := t.nor }) ∧
      (s.flag Adr.CLK_STATUS Fld.CLK_STATUS_osc50_ok = false → s.ps ≠ 5 → s.pln.bootDue = none → ∃ t, exec (.xtal50Stable false) s = .next t ∧
        t.flag Adr.CLK_STATUS Fld.CLK_STATUS_osc50_ok = true ∧ s.RegsBut [Adr.CLK_STATUS] t ∧ t = { s with regs := t.regs }) ∧
      (∀ b : Boot, s.wakeDue = true → s.ps = 0 → ∃ t, exec (.wakeAlarmFire b) s = .next t ∧ t.wakeTime = 0 ∧
        t.flag Adr.PLN_WAKE Fld.PLN_WAKE_alarm = true ∧ t.media = s.media ∧ t.host = s.host)) ∧
    (s.flag Adr.CLK_STATUS Fld.CLK_STATUS_xtal32_ok = true → ∃ t, exec .xtal32Stop s = .next t ∧
      t.flag Adr.CLK_STATUS Fld.CLK_STATUS_xtal32_ok = false ∧ t.flag Adr.PLN_STATUS Fld.PLN_STATUS_rc_mode = true ∧
      s.RegsButEvents [Adr.CLK_STATUS, Adr.PLN_STATUS] t ∧ t = s.takeEvents t) ∧
    (s.powered 2 = true → s.tbState = 2 ∨ s.tbState = 3 → ∃ t, exec .rtcSet s = .next t ∧
      t.pln = { s.pln with rtcBase := s.tbNs / 1000000000 * 32768, rtcAt := s.now } ∧
      t.flag Adr.PLN_STATUS Fld.PLN_STATUS_rtc_valid = true ∧ s.RegsBut [Adr.PLN_STATUS] t ∧ t = { s with regs := t.regs, pln := t.pln }) ∧
    (∀ k : Fin 6, s.powered (k.val + 1) = true →
      (s.pln.pllRestarted.contains k.val = false → exec (.pllLockTimeout k) s =
        .next { s with pln := { s.pln with pllRestarted := s.pln.pllRestarted ++ [k.val] } }) ∧
      (s.pln.pllRestarted.contains k.val = true → ∃ t, exec (.pllLockTimeout k) s = .next t ∧ t.powered (k.val + 1) = false ∧
        s.RegsButEvents [Adr.CLK_STATUS, Adr.PWR_REGION] t ∧ t.media = s.media)) ∧
    (∀ d : Nat, s.flag Adr.PWR_STATE Fld.PWR_STATE_entering = true → s.fld Adr.PWR_STATE Fld.PWR_STATE_target = 1 → s.pln.exitDue = false →
      s.host.ctxs = [] → ∃ t, exec (.powerEntryComplete d) s = .next t ∧ t.ps = 1 ∧ t.psMoving = s.flag Adr.PWR_STATE Fld.PWR_STATE_exiting ∧
        t.fld Adr.PWR_LAT Fld.PWR_LAT_entry_ds = min d 65535 ∧ t.media = s.media) ∧
    (∀ d : Nat, s.flag Adr.PWR_STATE Fld.PWR_STATE_entering = true → s.entryReady (s.fld Adr.PWR_STATE Fld.PWR_STATE_target) = false →
      exec (.powerEntryComplete d) s = .next s) ∧
    (∀ d : Nat, s.flag Adr.PWR_STATE Fld.PWR_STATE_exiting = true → s.phase ≠ 2 → s.time.approachDue = false → s.host.ctxs = [] →
      ∃ t, exec (.powerExitComplete d) s = .next t ∧ t.ps = s.fld Adr.PWR_STATE Fld.PWR_STATE_target ∧
        t.flag Adr.PWR_STATE Fld.PWR_STATE_exiting = false ∧ t.fld Adr.PWR_LAT Fld.PWR_LAT_exit_ds = min d 65535 ∧
        (s.ps ≠ 4 → s.RegsButEvents [Adr.PWR_STATE, Adr.PWR_LAT] t) ∧ t.media = s.media) ∧
    (s.ps = 4 → s.pln.ps5Due = true → s.psMoving = false → s.host.assocs = [] → ∃ t, exec .ps5PowerOff s = .next t ∧ t.ps = 5 ∧
      t.nor.rtc = s.rtc ∧ t.flag Adr.CLK_STATUS Fld.CLK_STATUS_osc50_ok = false ∧ (∀ r : Nat, 0 < r → r < 7 → t.powered r = false) ∧
      t.media.sectors = s.media.sectors) ∧
    (∀ b : Boot, 2 ≤ s.ps → s.pln.wakeArmed = true → s.flag Adr.PLN_WAKECFG Fld.PLN_WAKECFG_wake_n_en = true →
      exec (.wakeNAssert b) s = .next ({ s with pln := { s.pln with wakeArmed := false } }.wakeEvent Fld.PLN_WAKE_wake_n b)) ∧
    (∀ b : Boot, (s.ps < 2 ∨ s.pln.wakeArmed = false) → exec (.wakeNAssert b) s = .next s) ∧
    (exec .wakeNRelease s = .next { s with pln := { s.pln with wakeArmed := true } }) ∧
    (∀ core sram : Bool, (core = true ∨ sram = true) → ∃ u : State, exec (.supplyOutOfLimits core sram) s = .next (u.fatalEvent 0 0x0F2) ∧
      u.fld Adr.PIN_SUPPLY Fld.PIN_SUPPLY_now = b2n core + 2 * b2n sram ∧ s.RegsBut [Adr.PIN_SUPPLY] u ∧ u = { s with regs := u.regs }) ∧
    (∀ (k : Fin 8) (d : Int), 1920 ≤ d → d ≤ 32767 → s.powered (sensorRegion k) = true →
      exec (.overtempFatal k d) s = .next ((s.setTemps (s.temps.set k d)).fatalEvent 0 0x0F1)) ∧
    (∀ l : List Int, (s.setTemps l).tempWarning = s.tempWarning → exec (.temperatureThresholdCrossed l) s = .next (s.setTemps l))

/-- Resets, start-up and activation of firmware (R464, R474 to R478, R490, R493, R494, R518): what each leaves, and that NOR and the medium keep
theirs. What the spec leaves open here is the model's choice (log entries 90, 91, 93 and 94). -/
def Obligations.ResetAndFirmwareRows : Prop :=
  ∀ s : State,
    (∃ t, exec .porAssert s = .next t ∧ t.media.sectors = s.media.sectors ∧ t.nor.keys = s.nor.keys ∧ t.nor.records = s.nor.records ∧
      t.nor.retired = s.nor.retired ∧ t.host = State.reset.host ∧ t.ownState = 0 ∧ t.pln = State.reset.pln ∧ (∀ a : Nat, t.reg a = resetWord a)) ∧
    (∀ b : Boot, s.pln.porLow = true → b.testen = false → ∃ t, exec (.porRelease b) s = .next t ∧ t.pln.porLow = false ∧
      t.pln.bootDue = some b ∧ t.flag Adr.PLN_STATUS Fld.PLN_STATUS_rc_mode = true ∧ t.fld Adr.PLN_STATUS Fld.PLN_STATUS_step = 1 ∧
      t.media = s.media ∧ t.host = s.host) ∧
    (∀ b : Boot, s.pln.porLow = false → exec (.porRelease b) s = .next s) ∧
    (s.pln.porLow = false → s.pln.supplyLost = false → ∃ t, exec .pwrGoodFall s = .next t ∧ t.pln.supplyLost = true ∧
      t.fld Adr.PLN_STATUS Fld.PLN_STATUS_step = 1 ∧ t.flag Adr.PLN_STATUS Fld.PLN_STATUS_ready = false ∧ t.nor.keys = s.nor.keys ∧
      t.media.sectors = s.media.sectors) ∧
    (∀ b : Boot, s.pln.supplyLost = true → exec (.supplyResetRelease b) s =
      .next ({ s with pln := { s.pln with supplyLost := false } }.startWhenStable b)) ∧
    (∀ (o : Nat) (v : Word) (b : Boot),
      (s.isOwner o = false → exec (.deviceReset o v true b) s = .next s ∧ exec (.deviceReset o v false b) s = .next (s.event 0x640)) ∧
      (s.isOwner o = true → exec (.deviceReset o v true b) s = .next (s.deviceReset b)) ∧
      (s.Writable o Adr.PLN_RESET → getBits v Fld.PLN_RESET_key = 0xA5 → v.getLsbD 0 = true →
        exec (.deviceReset o v false b) s = .next (s.deviceReset b)) ∧
      (s.Writable o Adr.PLN_RESET → getBits v Fld.PLN_RESET_key ≠ 0xA5 → exec (.deviceReset o v false b) s = .next s)) ∧
    (exec .jtagReset s = .next { s with pln := { s.pln with jtagReset := true } }) ∧
    (s.flag Adr.PLN_STATUS Fld.PLN_STATUS_ready = false → 5 ≤ s.fld Adr.PLN_STATUS Fld.PLN_STATUS_step → s.faultState ≠ 3 → s.atSpeed = true →
      s.spinUpRefused = false → s.flt.restarting = [] → s.flag Adr.FLT_STATE Fld.FLT_STATE_recovering = false →
      ∀ l : List HeadCal, ∃ u v : State, exec (.deviceReady l) s = .next (u.confirmTrial.formatIfDue).settle ∧
        v = s.calibrate l ∧ u.flag Adr.PLN_STATUS Fld.PLN_STATUS_ready = true ∧
        u.fld Adr.PLN_STATUS Fld.PLN_STATUS_step = 9 ∧ v.RegsButEvents [Adr.PLN_STATUS] u ∧ u = v.takeEvents u) ∧
    (∀ c : HeadCal, s.media.lostSurfaces.contains c.surface.val = false →
      let a := surfaceAct c.surface.val
      let h := c.surface.val % 8
      ((badWidth c = true ∨ offCentre c = true ∨ 256 < c.offset.natAbs) → (s.calibrateHead c).media.lostSurfaces.contains c.surface.val = true) ∧
      (badWidth c = false → offCentre c = false → c.offset.natAbs ≤ 256 → ∃ t, s.calibrateHead c = t ∧
        t.fld (Adr.BTN_WIDTH a h) Fld.BTN_WIDTH_width = c.width % 256 ∧ t.flag (Adr.BTN_WIDTH a h) Fld.BTN_WIDTH_failed = false ∧
        s.RegsBut (Adr.BTN_WIDTH a h :: (List.range 64).map (fun z => Adr.SRV_XCAL a (64 * h + z))) t ∧
        t = { s with regs := t.regs, acts := t.acts })) ∧
    (∀ l : List HeadCal, s.flag Adr.PLN_STATUS Fld.PLN_STATUS_ready = true → exec (.deviceReady l) s = .next s) ∧
    (∀ c : Fin 9,
      let next := match s.nor.counterRoom.counterOf c with | some r => counterSeq r + 1 | none => 0
      (c.val ≠ 0 → ∃ t, exec (.norCounterIncrement c true) s = .next t ∧
        t.nor.counterNew.getLast? = some (counterRecord next c s.nor.counters[c] 0x7F) ∧ t.nor.counters = s.nor.counters ∧
        t = { s with nor := t.nor }) ∧
      (c.val ≠ 0 → ∃ t, exec (.norCounterIncrement c false) s = .next t ∧
        t.nor.counterNew.getLast? = some (counterRecord next c s.nor.counters[c] 0xFF) ∧ t.nor.counters = s.nor.counters ∧
        s.RegsButEvents [] t)) ∧
    (∃ t, exec (.norCounterIncrement 0 true) s = .next t ∧ t.nor.counters[0] = s.nor.counters[0] + 1) ∧
    (∀ b : Boot, s.pln.coldHold = true → exec (.coldStartHoldEnd b) s =
      .next ({ s with pln := { s.pln with coldHold := false } }.startFromStep3 b)) ∧
    (∀ (v : Activation) (n : Nat), s.activation = some v → v.back = false →
      (v.retried = false → 5 ≤ v.step → v.step ≤ 10 → (stepBound v.step = 0 ∨ n ≤ stepBound v.step) → ∃ t, exec (.activationStepDone n) s = .next t ∧
        t.activation = some { v with step := v.step + 1, retried := false } ∧ s.RegsBut [Adr.FWU_PAUSE, Adr.FWU_STATUS] t ∧
        t = { s with regs := t.regs, activation := t.activation }) ∧
      (v.retried = false → stepBound v.step ≠ 0 → stepBound v.step < n → ∃ t, exec (.activationStepDone n) s = .next t ∧
        t.activation = some { v with retried := true } ∧ s.RegsBut [Adr.FWU_PAUSE] t ∧ t = { s with regs := t.regs, activation := t.activation }) ∧
      (v.retried = true → 5 ≤ v.step → v.step ≤ 10 → (stepBound v.step = 0 ∨ n ≤ stepBound v.step) → ∃ t, exec (.activationRetry true n) s = .next t ∧
        t.activation = some { v with step := v.step + 1, retried := false } ∧ t = { s with regs := t.regs, activation := t.activation }) ∧
      (v.retried = true → ∃ t, exec (.activationRetry false n) s = .next t ∧
        t.activation = some { v with back := true, retried := false } ∧ t.regs = s.regs)) ∧
    (∀ v : Activation, s.activation = some v → v.back = true → ∃ t, exec .activationEnd s = .next t ∧ t.activation = none ∧
      t.flag Adr.FWU_STATUS Fld.FWU_STATUS_activating = false ∧ t.nor.slots = s.nor.slots ∧ t.media.sectors = s.media.sectors)
end

