-- ==== Sys2Proof/Laws/Regs.lean ====
section
/-! SUPPORT. The sparse register file: what a register holds after a write, and the rising order of the addresses. -/

namespace Sys2Proof.Machine

open Sys2Proof

/-- Every listed address is above b. -/
def RegFile.above (b : Nat) (f : RegFile) : Prop := ∀ p ∈ f, b < p.1

theorem RegFile.sorted_cons (p : Nat × Word) (f : RegFile) :
    RegFile.sorted (p :: f) = true ↔ RegFile.above p.1 f ∧ RegFile.sorted f = true := by
  induction f generalizing p with
  | nil => simp [RegFile.sorted, RegFile.above]
  | cons q r ih =>
    simp only [RegFile.sorted, Bool.and_eq_true, decide_eq_true_eq]
    constructor
    · rintro ⟨h, hs⟩
      refine ⟨fun x hx => ?_, hs⟩
      rcases List.mem_cons.1 hx with rfl | hx
      · exact h
      · exact Nat.lt_trans h (((ih q).1 hs).1 x hx)
    · rintro ⟨h, hs⟩
      exact ⟨h q (by simp), hs⟩

/-- What a put lists: the new pair, and pairs that were there. -/
theorem RegFile.mem_put {f : RegFile} {a : Nat} {v : Word} {p : Nat × Word} (h : p ∈ f.put a v) : p = (a, v) ∨ p ∈ f := by
  induction f with
  | nil => simpa [RegFile.put] using h
  | cons q r ih =>
    obtain ⟨b, w⟩ := q
    unfold RegFile.put at h
    split at h
    · simpa using h
    · split at h
      · rcases List.mem_cons.1 h with h | h
        · exact .inl h
        · exact .inr (List.mem_cons_of_mem _ h)
      · rcases List.mem_cons.1 h with h | h
        · exact .inr (by simp [h])
        · rcases ih h with h | h
          · exact .inl h
          · exact .inr (List.mem_cons_of_mem _ h)

theorem RegFile.put_sorted {f : RegFile} (a : Nat) (v : Word) (h : f.sorted = true) : (f.put a v).sorted = true := by
  induction f with
  | nil => rfl
  | cons q r ih =>
    obtain ⟨b, w⟩ := q
    have h' := (RegFile.sorted_cons _ _).1 h
    unfold RegFile.put
    split
    · rename_i hab
      refine (RegFile.sorted_cons _ _).2 ⟨fun x hx => ?_, h⟩
      rcases List.mem_cons.1 hx with rfl | hx
      · exact hab
      · exact Nat.lt_trans hab (h'.1 x hx)
    · split
      · rename_i hab
        subst hab
        exact (RegFile.sorted_cons _ _).2 ⟨h'.1, h'.2⟩
      · refine (RegFile.sorted_cons _ _).2 ⟨fun x hx => ?_, ih h'.2⟩
        rcases RegFile.mem_put hx with rfl | hx
        · show b < a
          omega
        · exact h'.1 x hx

theorem RegFile.putAll_sorted {f : RegFile} (g : RegFile) (h : f.sorted = true) : (f.putAll g).sorted = true := by
  unfold RegFile.putAll
  induction g generalizing f with
  | nil => exact h
  | cons p r ih => exact ih (RegFile.put_sorted _ _ h)

theorem RegFile.filter_sorted {f : RegFile} (p : Nat × Word → Bool) (h : f.sorted = true) :
    RegFile.sorted (f.filter p) = true := by
  induction f with
  | nil => rfl
  | cons q r ih =>
    have h' := (RegFile.sorted_cons _ _).1 h
    simp only [List.filter_cons]
    split
    · exact (RegFile.sorted_cons _ _).2 ⟨fun x hx => h'.1 x ((List.mem_filter.1 hx).1), ih h'.2⟩
    · exact ih h'.2

@[simp] theorem RegFile.find_put_same (f : RegFile) (a : Nat) (v : Word) : (f.put a v).find a = some v := by
  induction f with
  | nil => simp [RegFile.put, RegFile.find]
  | cons q r ih =>
    obtain ⟨b, w⟩ := q
    unfold RegFile.put
    split
    · simp [RegFile.find]
    · split
      · simp [RegFile.find]
      · rename_i h1 h2
        simp [RegFile.find, h2, ih]

theorem RegFile.find_put_other (f : RegFile) {a b : Nat} (v : Word) (h : b ≠ a) : (f.put a v).find b = f.find b := by
  induction f with
  | nil => simp [RegFile.put, RegFile.find, h]
  | cons q r ih =>
    obtain ⟨c, w⟩ := q
    unfold RegFile.put
    split
    · simp [RegFile.find, h]
    · split
      · rename_i h2
        subst h2
        simp [RegFile.find, h]
      · simp only [RegFile.find, ih]

/-- A register holds what was stored last. -/
@[simp] theorem State.reg_setReg_same (s : State) (a : Nat) (v : Word) : (s.setReg a v).reg a = v := by
  simp [State.reg, State.setReg]

/-- A store leaves every other register alone. -/
theorem State.reg_setReg_other (s : State) {a b : Nat} (v : Word) (h : b ≠ a) : (s.setReg a v).reg b = s.reg b := by
  simp [State.reg, State.setReg, RegFile.find_put_other _ v h]

end Sys2Proof.Machine
end

