-- ==== Sys2Proof/Laws/Bits.lean ====
section
/-! SUPPORT. Bit fields: a field reads as it was set, a field set elsewhere leaves it alone, and the same for fields of registers. -/

namespace Sys2Proof.Machine

open Sys2Proof

/-- A field lies within a register. -/
def Fld.Ok (f : Fld) : Prop := f.lo ≤ f.hi ∧ f.hi < 32

theorem testBit_getBits (w : Word) (f : Fld) (i : Nat) :
    (getBits w f).testBit i = (decide (i < f.width) && w.getLsbD (f.lo + i)) := by
  simp [getBits, Nat.testBit_mod_two_pow, Nat.testBit_shiftRight, BitVec.getLsbD]

theorem getLsbD_mask (f : Fld) (i : Nat) :
    f.mask.getLsbD i = (decide (i < 32) && decide (f.lo ≤ i) && decide (i - f.lo < f.width)) := by
  simp only [Fld.mask, BitVec.getLsbD_shiftLeft, BitVec.getLsbD_ofNat, Nat.testBit_two_pow_sub_one]
  by_cases h1 : i < 32 <;> by_cases h2 : f.lo ≤ i <;> simp [h1, h2]
  have h3 : ¬i < f.lo := by omega
  have h4 : i - f.lo < 32 := by omega
  simp [h3, h4]

theorem getLsbD_setBits (w : Word) (f : Fld) (v i : Nat) :
    (setBits w f v).getLsbD i =
      (decide (i < 32) && if f.lo ≤ i ∧ i - f.lo < f.width then v.testBit (i - f.lo) else w.getLsbD i) := by
  simp only [setBits, BitVec.getLsbD_or, BitVec.getLsbD_and, BitVec.getLsbD_not, getLsbD_mask, BitVec.getLsbD_ofNat,
    Nat.testBit_shiftLeft, Nat.testBit_mod_two_pow]
  by_cases h1 : i < 32 <;> by_cases h2 : f.lo ≤ i <;> by_cases h3 : i - f.lo < f.width <;> simp [h1, h2, h3]

/-- A field reads as it was set, modulo its width. -/
theorem getBits_setBits_same (w : Word) (f : Fld) (v : Nat) (h : f.Ok) : getBits (setBits w f v) f = v % 2 ^ f.width := by
  apply Nat.eq_of_testBit_eq
  intro i
  rw [testBit_getBits, getLsbD_setBits, Nat.testBit_mod_two_pow]
  have := h.1
  have := h.2
  by_cases hi : i < f.width
  · have : f.lo + i < 32 := by
      simp only [Fld.width] at hi
      omega
    simp [hi, this]
  · simp [hi]

/-- A field set apart from another leaves it alone. -/
theorem getBits_setBits_other (w : Word) (f g : Fld) (v : Nat) (hg : g.Ok) (h : g.hi < f.lo ∨ f.hi < g.lo) :
    getBits (setBits w f v) g = getBits w g := by
  apply Nat.eq_of_testBit_eq
  intro i
  rw [testBit_getBits, testBit_getBits, getLsbD_setBits]
  by_cases hi : i < g.width
  · have h1 := hg.1
    have h2 := hg.2
    simp only [Fld.width] at hi
    have h3 : g.lo + i < 32 := by omega
    have h4 : ¬(f.lo ≤ g.lo + i ∧ g.lo + i - f.lo < f.width) := by
      simp only [Fld.width]
      omega
    simp [h3, h4]
  · simp [hi]

/-- A field of a register reads as it was set. -/
theorem State.fld_setFld_same (s : State) (a : Nat) (f : Fld) (v : Nat) (h : f.Ok) : (s.setFld a f v).fld a f = v % 2 ^ f.width := by
  simp [State.fld, State.setFld, getBits_setBits_same _ _ _ h]

/-- Another field of the same register keeps its value. -/
theorem State.fld_setFld_field (s : State) (a : Nat) (f g : Fld) (v : Nat) (hg : g.Ok) (h : g.hi < f.lo ∨ f.hi < g.lo) :
    (s.setFld a f v).fld a g = s.fld a g := by
  simp [State.fld, State.setFld, getBits_setBits_other _ _ _ _ hg h]

/-- Another register keeps its value. -/
theorem State.reg_setFld_other (s : State) {a b : Nat} (f : Fld) (v : Nat) (h : b ≠ a) : (s.setFld a f v).reg b = s.reg b := by
  simp [State.setFld, State.reg_setReg_other _ _ h]

theorem State.fld_setFld_reg (s : State) {a b : Nat} (f g : Fld) (v : Nat) (h : b ≠ a) : (s.setFld a f v).fld b g = s.fld b g := by
  simp [State.fld, State.reg_setFld_other _ _ _ h]

theorem State.reg_setFlag_other (s : State) {a b : Nat} (f : Fld) (v : Bool) (h : b ≠ a) : (s.setFlag a f v).reg b = s.reg b :=
  State.reg_setFld_other s f (b2n v) h

theorem State.fld_setFlag_reg (s : State) {a b : Nat} (f g : Fld) (v : Bool) (h : b ≠ a) : (s.setFlag a f v).fld b g = s.fld b g :=
  State.fld_setFld_reg s f g (b2n v) h

/-- A flag reads as it was set. -/
theorem State.flag_setFlag_same (s : State) (a : Nat) (f : Fld) (v : Bool) (h : f.Ok) : (s.setFlag a f v).flag a f = v := by
  have h2 : 1 < 2 ^ f.width := Nat.one_lt_two_pow (by simp only [Fld.width]; have := h.1; omega)
  cases v with
  | false => simp [State.flag, State.setFlag, State.fld_setFld_same _ _ _ _ h, b2n]
  | true => simp [State.flag, State.setFlag, State.fld_setFld_same _ _ _ _ h, b2n, Nat.mod_eq_of_lt h2]

/-- A counting field goes up by 1 and stays at its largest value. -/
theorem State.fld_countFld_same (s : State) (a : Nat) (f : Fld) (h : f.Ok) :
    (s.countFld a f).fld a f = min (s.fld a f + 1) (2 ^ f.width - 1) := by
  have hp : 0 < 2 ^ f.width := Nat.two_pow_pos _
  rw [State.countFld, State.fld_setFld_same _ _ _ _ h, Nat.mod_eq_of_lt]
  omega

theorem State.reg_countFld_other (s : State) {a b : Nat} (f : Fld) (h : b ≠ a) : (s.countFld a f).reg b = s.reg b :=
  State.reg_setFld_other s f _ h

end Sys2Proof.Machine
end

