-- ==== Sys2Proof/Laws/Cells.lean ====
section
/-! SUPPORT. Memories of bytes and tables by number: every operation keeps the canonical form, and what an entry reads as after a write. -/

namespace Sys2Proof.Machine

open Sys2Proof

theorem cellsWf_cons (p : Host.Cell) (l : List Host.Cell) :
    cellsWf (p :: l) = true ↔ (∀ q ∈ l, p.1 < q.1) ∧ p.2 ≠ 0 ∧ cellsWf l = true := by
  induction l generalizing p with
  | nil => simp [cellsWf]
  | cons q r ih =>
    simp only [cellsWf, Bool.and_eq_true, decide_eq_true_eq, bne_iff_ne, ne_eq]
    constructor
    · rintro ⟨⟨h, hp⟩, hs⟩
      refine ⟨fun x hx => ?_, hp, hs⟩
      rcases List.mem_cons.1 hx with rfl | hx
      · exact h
      · exact Nat.lt_trans h (((ih q).1 hs).1 x hx)
    · rintro ⟨h, hp, hs⟩
      exact ⟨⟨h q (by simp), hp⟩, hs⟩

theorem mem_cellPut {l : List Host.Cell} {a : Nat} {v : Byte} {p : Host.Cell} (h : p ∈ cellPut l a v) : p = (a, v) ∨ p ∈ l := by
  induction l with
  | nil =>
    unfold cellPut at h
    split at h
    · simp at h
    · simpa using h
  | cons q r ih =>
    obtain ⟨b, w⟩ := q
    unfold cellPut at h
    split at h
    · split at h
      · exact .inr h
      · simpa using h
    · split at h
      · split at h
        · exact .inr (List.mem_cons_of_mem _ h)
        · rcases List.mem_cons.1 h with h | h
          · exact .inl h
          · exact .inr (List.mem_cons_of_mem _ h)
      · rcases List.mem_cons.1 h with h | h
        · exact .inr (by simp [h])
        · rcases ih h with h | h
          · exact .inl h
          · exact .inr (List.mem_cons_of_mem _ h)

theorem cellPut_wf {l : List Host.Cell} (a : Nat) (v : Byte) (h : cellsWf l = true) : cellsWf (cellPut l a v) = true := by
  induction l with
  | nil =>
    unfold cellPut
    split
    · rfl
    · rename_i hv
      exact (cellsWf_cons _ _).2 ⟨by simp, hv, rfl⟩
  | cons q r ih =>
    obtain ⟨b, w⟩ := q
    have h' := (cellsWf_cons _ _).1 h
    unfold cellPut
    split
    · rename_i hab
      split
      · exact h
      · rename_i hv
        refine (cellsWf_cons _ _).2 ⟨fun x hx => ?_, hv, h⟩
        rcases List.mem_cons.1 hx with rfl | hx
        · exact hab
        · exact Nat.lt_trans hab (h'.1 x hx)
    · split
      · rename_i hab
        subst hab
        split
        · exact h'.2.2
        · rename_i hv
          exact (cellsWf_cons _ _).2 ⟨h'.1, hv, h'.2.2⟩
      · refine (cellsWf_cons _ _).2 ⟨fun x hx => ?_, h'.2.1, ih h'.2.2⟩
        rcases mem_cellPut hx with rfl | hx
        · show b < a
          omega
        · exact h'.1 x hx

theorem cellPuts_wf {l : List Host.Cell} (a : Nat) (d : List Byte) (h : cellsWf l = true) : cellsWf (cellPuts l a d) = true := by
  induction d generalizing l a with
  | nil => exact h
  | cons b r ih => exact ih (a + 1) (cellPut_wf a b h)

/-- Below the first listed address a canonical memory reads 0. -/
theorem cellGet_below {l : List Host.Cell} {a : Nat} (h : ∀ q ∈ l, a < q.1) : cellGet l a = 0 := by
  induction l with
  | nil => rfl
  | cons q r ih =>
    have hq := h q (by simp)
    have : a ≠ q.1 := by omega
    simp only [cellGet, this, if_false]
    exact ih fun x hx => h x (List.mem_cons_of_mem _ hx)

/-- A byte reads as it was written. -/
theorem cellGet_put_same {l : List Host.Cell} (a : Nat) (v : Byte) (h : cellsWf l = true) : cellGet (cellPut l a v) a = v := by
  induction l with
  | nil =>
    unfold cellPut
    split
    · rename_i hv
      simp [cellGet, hv]
    · simp [cellGet]
  | cons q r ih =>
    obtain ⟨b, w⟩ := q
    have h' := (cellsWf_cons _ _).1 h
    unfold cellPut
    split
    · rename_i hab
      split
      · rename_i hv
        rw [hv]
        apply cellGet_below
        intro x hx
        rcases List.mem_cons.1 hx with rfl | hx
        · exact hab
        · exact Nat.lt_trans hab (h'.1 x hx)
      · simp [cellGet]
    · split
      · rename_i hab
        subst hab
        split
        · rename_i hv
          rw [hv]
          exact cellGet_below h'.1
        · simp [cellGet]
      · rename_i h1 h2
        simp only [cellGet, h2, if_false]
        exact ih h'.2.2

/-- A write leaves every other byte alone. -/
theorem cellGet_put_other (l : List Host.Cell) {a b : Nat} (v : Byte) (hne : b ≠ a) : cellGet (cellPut l a v) b = cellGet l b := by
  induction l with
  | nil =>
    unfold cellPut
    split
    · rfl
    · simp [cellGet, hne]
  | cons q r ih =>
    obtain ⟨c, w⟩ := q
    unfold cellPut
    split
    · split
      · rfl
      · simp [cellGet, hne]
    · split
      · rename_i hac
        subst hac
        split
        · simp [cellGet, hne]
        · simp [cellGet, hne]
      · simp only [cellGet, ih]

/-- Bytes outside a written run read as before. -/
theorem cellGet_puts_other (l : List Host.Cell) (a : Nat) (d : List Byte) {b : Nat} (h : b < a ∨ a + d.length ≤ b) :
    cellGet (cellPuts l a d) b = cellGet l b := by
  induction d generalizing l a with
  | nil => rfl
  | cons x r ih =>
    simp only [List.length_cons] at h
    rw [cellPuts, ih (cellPut l a x) (a + 1) (by omega), cellGet_put_other l x (by omega)]

/-- A written run reads back. -/
theorem cellGets_puts (l : List Host.Cell) (a : Nat) (d : List Byte) (h : cellsWf l = true) :
    cellGets (cellPuts l a d) a d.length = d := by
  induction d generalizing l a with
  | nil => rfl
  | cons x r ih =>
    simp only [List.length_cons, cellGets, cellPuts]
    rw [ih (cellPut l a x) (a + 1) (cellPut_wf a x h), cellGet_puts_other _ _ _ (by omega), cellGet_put_same a x h]

/-! ## Tables by number -/

theorem keysRise_cons {α : Type} (p : Nat × α) (l : List (Nat × α)) :
    keysRise (p :: l) = true ↔ (∀ q ∈ l, p.1 < q.1) ∧ keysRise l = true := by
  induction l generalizing p with
  | nil => simp [keysRise]
  | cons q r ih =>
    simp only [keysRise, Bool.and_eq_true, decide_eq_true_eq]
    constructor
    · rintro ⟨h, hs⟩
      refine ⟨fun x hx => ?_, hs⟩
      rcases List.mem_cons.1 hx with rfl | hx
      · exact h
      · exact Nat.lt_trans h (((ih q).1 hs).1 x hx)
    · rintro ⟨h, hs⟩
      exact ⟨h q (by simp), hs⟩

theorem mem_insertKey {α : Type} {l : List (Nat × α)} {k : Nat} {v : α} {p : Nat × α} (h : p ∈ insertKey l k v) : p = (k, v) ∨ p ∈ l := by
  induction l with
  | nil => simpa [insertKey] using h
  | cons q r ih =>
    obtain ⟨a, w⟩ := q
    unfold insertKey at h
    split at h
    · simpa using h
    · split at h
      · rcases List.mem_cons.1 h with h | h
        · exact .inl h
        · exact .inr (List.mem_cons_of_mem _ h)
      · rcases List.mem_cons.1 h with h | h
        · exact .inr (by simp [h])
        · rcases ih h with h | h
          · exact .inl h
          · exact .inr (List.mem_cons_of_mem _ h)

/-- An entry put into a table keeps its order. -/
theorem insertKey_rise {α : Type} {l : List (Nat × α)} (k : Nat) (v : α) (h : keysRise l = true) : keysRise (insertKey l k v) = true := by
  induction l with
  | nil => rfl
  | cons q r ih =>
    obtain ⟨a, w⟩ := q
    have h' := (keysRise_cons _ _).1 h
    unfold insertKey
    split
    · rename_i hka
      refine (keysRise_cons _ _).2 ⟨fun x hx => ?_, h⟩
      rcases List.mem_cons.1 hx with rfl | hx
      · exact hka
      · exact Nat.lt_trans hka (h'.1 x hx)
    · split
      · rename_i hka
        subst hka
        exact (keysRise_cons _ _).2 h'
      · refine (keysRise_cons _ _).2 ⟨fun x hx => ?_, ih h'.2⟩
        rcases mem_insertKey hx with rfl | hx
        · show a < k
          omega
        · exact h'.1 x hx

/-- An entry reads as it was put. -/
theorem lookupKey_insert_same {α : Type} (l : List (Nat × α)) (k : Nat) (v : α) : lookupKey (insertKey l k v) k = some v := by
  induction l with
  | nil => simp [insertKey, lookupKey]
  | cons q r ih =>
    obtain ⟨a, w⟩ := q
    unfold insertKey
    split
    · simp [lookupKey]
    · split
      · simp [lookupKey]
      · rename_i h
        simp only [lookupKey]
        rw [if_neg (fun e => h e.symm)]
        exact ih

/-- Every other entry reads as before. -/
theorem lookupKey_insert_other {α : Type} (l : List (Nat × α)) {k j : Nat} (v : α) (hne : j ≠ k) :
    lookupKey (insertKey l k v) j = lookupKey l j := by
  induction l with
  | nil => simp [insertKey, lookupKey, Ne.symm hne]
  | cons q r ih =>
    obtain ⟨a, w⟩ := q
    unfold insertKey
    split
    · simp [lookupKey, Ne.symm hne]
    · split
      · rename_i h
        subst h
        simp [lookupKey, Ne.symm hne]
      · simp only [lookupKey]
        rw [ih]

end Sys2Proof.Machine
end

