-- ==== Sys2Proof/Laws/State.lean ====
section
/-! SUPPORT. One lemma for each field of the state and each named update of it: what the update sets, and what it leaves alone. -/

namespace Sys2Proof.Machine

open Sys2Proof

/-! ## setReg -/
@[simp] theorem State.setReg_pending (s : State) (a : Nat) (v : Word) : (s.setReg a v).pending = s.pending := rfl
@[simp] theorem State.setReg_now (s : State) (a : Nat) (v : Word) : (s.setReg a v).now = s.now := rfl
@[simp] theorem State.setReg_fresh (s : State) (a : Nat) (v : Word) : (s.setReg a v).fresh = s.fresh := rfl
@[simp] theorem State.setReg_readData (s : State) (a : Nat) (v : Word) : (s.setReg a v).readData = s.readData := rfl
@[simp] theorem State.setReg_latches (s : State) (a : Nat) (v : Word) : (s.setReg a v).latches = s.latches := rfl
@[simp] theorem State.setReg_heldRegs (s : State) (a : Nat) (v : Word) : (s.setReg a v).heldRegs = s.heldRegs := rfl
@[simp] theorem State.setReg_funcs (s : State) (a : Nat) (v : Word) : (s.setReg a v).funcs = s.funcs := rfl
@[simp] theorem State.setReg_cfgOp (s : State) (a : Nat) (v : Word) : (s.setReg a v).cfgOp = s.cfgOp := rfl
@[simp] theorem State.setReg_pat (s : State) (a : Nat) (v : Word) : (s.setReg a v).pat = s.pat := rfl
@[simp] theorem State.setReg_flt (s : State) (a : Nat) (v : Word) : (s.setReg a v).flt = s.flt := rfl
@[simp] theorem State.setReg_nor (s : State) (a : Nat) (v : Word) : (s.setReg a v).nor = s.nor := rfl
@[simp] theorem State.setReg_time (s : State) (a : Nat) (v : Word) : (s.setReg a v).time = s.time := rfl
@[simp] theorem State.setReg_trace (s : State) (a : Nat) (v : Word) : (s.setReg a v).trace = s.trace := rfl
@[simp] theorem State.setReg_host (s : State) (a : Nat) (v : Word) : (s.setReg a v).host = s.host := rfl
@[simp] theorem State.setReg_own (s : State) (a : Nat) (v : Word) : (s.setReg a v).own = s.own := rfl
@[simp] theorem State.setReg_mi (s : State) (a : Nat) (v : Word) : (s.setReg a v).mi = s.mi := rfl
@[simp] theorem State.setReg_spaces (s : State) (a : Nat) (v : Word) : (s.setReg a v).spaces = s.spaces := rfl
@[simp] theorem State.setReg_acts (s : State) (a : Nat) (v : Word) : (s.setReg a v).acts = s.acts := rfl
@[simp] theorem State.setReg_media (s : State) (a : Nat) (v : Word) : (s.setReg a v).media = s.media := rfl
@[simp] theorem State.setReg_spn (s : State) (a : Nat) (v : Word) : (s.setReg a v).spn = s.spn := rfl
@[simp] theorem State.setReg_pic (s : State) (a : Nat) (v : Word) : (s.setReg a v).pic = s.pic := rfl
@[simp] theorem State.setReg_cast (s : State) (a : Nat) (v : Word) : (s.setReg a v).cast = s.cast := rfl
@[simp] theorem State.setReg_cmp (s : State) (a : Nat) (v : Word) : (s.setReg a v).cmp = s.cmp := rfl
@[simp] theorem State.setReg_pln (s : State) (a : Nat) (v : Word) : (s.setReg a v).pln = s.pln := rfl
@[simp] theorem State.setReg_dram (s : State) (a : Nat) (v : Word) : (s.setReg a v).dram = s.dram := rfl
@[simp] theorem State.setReg_activation (s : State) (a : Nat) (v : Word) : (s.setReg a v).activation = s.activation := rfl
@[simp] theorem State.setReg_deleting (s : State) (a : Nat) (v : Word) : (s.setReg a v).deleting = s.deleting := rfl

/-! ## setFld -/
@[simp] theorem State.setFld_pending (s : State) (a : Nat) (g : Fld) (v : Nat) : (s.setFld a g v).pending = s.pending := rfl
@[simp] theorem State.setFld_now (s : State) (a : Nat) (g : Fld) (v : Nat) : (s.setFld a g v).now = s.now := rfl
@[simp] theorem State.setFld_fresh (s : State) (a : Nat) (g : Fld) (v : Nat) : (s.setFld a g v).fresh = s.fresh := rfl
@[simp] theorem State.setFld_readData (s : State) (a : Nat) (g : Fld) (v : Nat) : (s.setFld a g v).readData = s.readData := rfl
@[simp] theorem State.setFld_latches (s : State) (a : Nat) (g : Fld) (v : Nat) : (s.setFld a g v).latches = s.latches := rfl
@[simp] theorem State.setFld_heldRegs (s : State) (a : Nat) (g : Fld) (v : Nat) : (s.setFld a g v).heldRegs = s.heldRegs := rfl
@[simp] theorem State.setFld_funcs (s : State) (a : Nat) (g : Fld) (v : Nat) : (s.setFld a g v).funcs = s.funcs := rfl
@[simp] theorem State.setFld_cfgOp (s : State) (a : Nat) (g : Fld) (v : Nat) : (s.setFld a g v).cfgOp = s.cfgOp := rfl
@[simp] theorem State.setFld_pat (s : State) (a : Nat) (g : Fld) (v : Nat) : (s.setFld a g v).pat = s.pat := rfl
@[simp] theorem State.setFld_flt (s : State) (a : Nat) (g : Fld) (v : Nat) : (s.setFld a g v).flt = s.flt := rfl
@[simp] theorem State.setFld_nor (s : State) (a : Nat) (g : Fld) (v : Nat) : (s.setFld a g v).nor = s.nor := rfl
@[simp] theorem State.setFld_time (s : State) (a : Nat) (g : Fld) (v : Nat) : (s.setFld a g v).time = s.time := rfl
@[simp] theorem State.setFld_trace (s : State) (a : Nat) (g : Fld) (v : Nat) : (s.setFld a g v).trace = s.trace := rfl
@[simp] theorem State.setFld_host (s : State) (a : Nat) (g : Fld) (v : Nat) : (s.setFld a g v).host = s.host := rfl
@[simp] theorem State.setFld_own (s : State) (a : Nat) (g : Fld) (v : Nat) : (s.setFld a g v).own = s.own := rfl
@[simp] theorem State.setFld_mi (s : State) (a : Nat) (g : Fld) (v : Nat) : (s.setFld a g v).mi = s.mi := rfl
@[simp] theorem State.setFld_spaces (s : State) (a : Nat) (g : Fld) (v : Nat) : (s.setFld a g v).spaces = s.spaces := rfl
@[simp] theorem State.setFld_acts (s : State) (a : Nat) (g : Fld) (v : Nat) : (s.setFld a g v).acts = s.acts := rfl
@[simp] theorem State.setFld_media (s : State) (a : Nat) (g : Fld) (v : Nat) : (s.setFld a g v).media = s.media := rfl
@[simp] theorem State.setFld_spn (s : State) (a : Nat) (g : Fld) (v : Nat) : (s.setFld a g v).spn = s.spn := rfl
@[simp] theorem State.setFld_pic (s : State) (a : Nat) (g : Fld) (v : Nat) : (s.setFld a g v).pic = s.pic := rfl
@[simp] theorem State.setFld_cast (s : State) (a : Nat) (g : Fld) (v : Nat) : (s.setFld a g v).cast = s.cast := rfl
@[simp] theorem State.setFld_cmp (s : State) (a : Nat) (g : Fld) (v : Nat) : (s.setFld a g v).cmp = s.cmp := rfl
@[simp] theorem State.setFld_pln (s : State) (a : Nat) (g : Fld) (v : Nat) : (s.setFld a g v).pln = s.pln := rfl
@[simp] theorem State.setFld_dram (s : State) (a : Nat) (g : Fld) (v : Nat) : (s.setFld a g v).dram = s.dram := rfl
@[simp] theorem State.setFld_activation (s : State) (a : Nat) (g : Fld) (v : Nat) : (s.setFld a g v).activation = s.activation := rfl
@[simp] theorem State.setFld_deleting (s : State) (a : Nat) (g : Fld) (v : Nat) : (s.setFld a g v).deleting = s.deleting := rfl

/-! ## setFlag -/
@[simp] theorem State.setFlag_pending (s : State) (a : Nat) (g : Fld) (v : Bool) : (s.setFlag a g v).pending = s.pending := rfl
@[simp] theorem State.setFlag_now (s : State) (a : Nat) (g : Fld) (v : Bool) : (s.setFlag a g v).now = s.now := rfl
@[simp] theorem State.setFlag_fresh (s : State) (a : Nat) (g : Fld) (v : Bool) : (s.setFlag a g v).fresh = s.fresh := rfl
@[simp] theorem State.setFlag_readData (s : State) (a : Nat) (g : Fld) (v : Bool) : (s.setFlag a g v).readData = s.readData := rfl
@[simp] theorem State.setFlag_latches (s : State) (a : Nat) (g : Fld) (v : Bool) : (s.setFlag a g v).latches = s.latches := rfl
@[simp] theorem State.setFlag_heldRegs (s : State) (a : Nat) (g : Fld) (v : Bool) : (s.setFlag a g v).heldRegs = s.heldRegs := rfl
@[simp] theorem State.setFlag_funcs (s : State) (a : Nat) (g : Fld) (v : Bool) : (s.setFlag a g v).funcs = s.funcs := rfl
@[simp] theorem State.setFlag_cfgOp (s : State) (a : Nat) (g : Fld) (v : Bool) : (s.setFlag a g v).cfgOp = s.cfgOp := rfl
@[simp] theorem State.setFlag_pat (s : State) (a : Nat) (g : Fld) (v : Bool) : (s.setFlag a g v).pat = s.pat := rfl
@[simp] theorem State.setFlag_flt (s : State) (a : Nat) (g : Fld) (v : Bool) : (s.setFlag a g v).flt = s.flt := rfl
@[simp] theorem State.setFlag_nor (s : State) (a : Nat) (g : Fld) (v : Bool) : (s.setFlag a g v).nor = s.nor := rfl
@[simp] theorem State.setFlag_time (s : State) (a : Nat) (g : Fld) (v : Bool) : (s.setFlag a g v).time = s.time := rfl
@[simp] theorem State.setFlag_trace (s : State) (a : Nat) (g : Fld) (v : Bool) : (s.setFlag a g v).trace = s.trace := rfl
@[simp] theorem State.setFlag_host (s : State) (a : Nat) (g : Fld) (v : Bool) : (s.setFlag a g v).host = s.host := rfl
@[simp] theorem State.setFlag_own (s : State) (a : Nat) (g : Fld) (v : Bool) : (s.setFlag a g v).own = s.own := rfl
@[simp] theorem State.setFlag_mi (s : State) (a : Nat) (g : Fld) (v : Bool) : (s.setFlag a g v).mi = s.mi := rfl
@[simp] theorem State.setFlag_spaces (s : State) (a : Nat) (g : Fld) (v : Bool) : (s.setFlag a g v).spaces = s.spaces := rfl
@[simp] theorem State.setFlag_acts (s : State) (a : Nat) (g : Fld) (v : Bool) : (s.setFlag a g v).acts = s.acts := rfl
@[simp] theorem State.setFlag_media (s : State) (a : Nat) (g : Fld) (v : Bool) : (s.setFlag a g v).media = s.media := rfl
@[simp] theorem State.setFlag_spn (s : State) (a : Nat) (g : Fld) (v : Bool) : (s.setFlag a g v).spn = s.spn := rfl
@[simp] theorem State.setFlag_pic (s : State) (a : Nat) (g : Fld) (v : Bool) : (s.setFlag a g v).pic = s.pic := rfl
@[simp] theorem State.setFlag_cast (s : State) (a : Nat) (g : Fld) (v : Bool) : (s.setFlag a g v).cast = s.cast := rfl
@[simp] theorem State.setFlag_cmp (s : State) (a : Nat) (g : Fld) (v : Bool) : (s.setFlag a g v).cmp = s.cmp := rfl
@[simp] theorem State.setFlag_pln (s : State) (a : Nat) (g : Fld) (v : Bool) : (s.setFlag a g v).pln = s.pln := rfl
@[simp] theorem State.setFlag_dram (s : State) (a : Nat) (g : Fld) (v : Bool) : (s.setFlag a g v).dram = s.dram := rfl
@[simp] theorem State.setFlag_activation (s : State) (a : Nat) (g : Fld) (v : Bool) : (s.setFlag a g v).activation = s.activation := rfl
@[simp] theorem State.setFlag_deleting (s : State) (a : Nat) (g : Fld) (v : Bool) : (s.setFlag a g v).deleting = s.deleting := rfl

/-! ## setSFld -/
@[simp] theorem State.setSFld_pending (s : State) (a : Nat) (g : Fld) (v : Int) : (s.setSFld a g v).pending = s.pending := rfl
@[simp] theorem State.setSFld_now (s : State) (a : Nat) (g : Fld) (v : Int) : (s.setSFld a g v).now = s.now := rfl
@[simp] theorem State.setSFld_fresh (s : State) (a : Nat) (g : Fld) (v : Int) : (s.setSFld a g v).fresh = s.fresh := rfl
@[simp] theorem State.setSFld_readData (s : State) (a : Nat) (g : Fld) (v : Int) : (s.setSFld a g v).readData = s.readData := rfl
@[simp] theorem State.setSFld_latches (s : State) (a : Nat) (g : Fld) (v : Int) : (s.setSFld a g v).latches = s.latches := rfl
@[simp] theorem State.setSFld_heldRegs (s : State) (a : Nat) (g : Fld) (v : Int) : (s.setSFld a g v).heldRegs = s.heldRegs := rfl
@[simp] theorem State.setSFld_funcs (s : State) (a : Nat) (g : Fld) (v : Int) : (s.setSFld a g v).funcs = s.funcs := rfl
@[simp] theorem State.setSFld_cfgOp (s : State) (a : Nat) (g : Fld) (v : Int) : (s.setSFld a g v).cfgOp = s.cfgOp := rfl
@[simp] theorem State.setSFld_pat (s : State) (a : Nat) (g : Fld) (v : Int) : (s.setSFld a g v).pat = s.pat := rfl
@[simp] theorem State.setSFld_flt (s : State) (a : Nat) (g : Fld) (v : Int) : (s.setSFld a g v).flt = s.flt := rfl
@[simp] theorem State.setSFld_nor (s : State) (a : Nat) (g : Fld) (v : Int) : (s.setSFld a g v).nor = s.nor := rfl
@[simp] theorem State.setSFld_time (s : State) (a : Nat) (g : Fld) (v : Int) : (s.setSFld a g v).time = s.time := rfl
@[simp] theorem State.setSFld_trace (s : State) (a : Nat) (g : Fld) (v : Int) : (s.setSFld a g v).trace = s.trace := rfl
@[simp] theorem State.setSFld_host (s : State) (a : Nat) (g : Fld) (v : Int) : (s.setSFld a g v).host = s.host := rfl
@[simp] theorem State.setSFld_own (s : State) (a : Nat) (g : Fld) (v : Int) : (s.setSFld a g v).own = s.own := rfl
@[simp] theorem State.setSFld_mi (s : State) (a : Nat) (g : Fld) (v : Int) : (s.setSFld a g v).mi = s.mi := rfl
@[simp] theorem State.setSFld_spaces (s : State) (a : Nat) (g : Fld) (v : Int) : (s.setSFld a g v).spaces = s.spaces := rfl
@[simp] theorem State.setSFld_acts (s : State) (a : Nat) (g : Fld) (v : Int) : (s.setSFld a g v).acts = s.acts := rfl
@[simp] theorem State.setSFld_media (s : State) (a : Nat) (g : Fld) (v : Int) : (s.setSFld a g v).media = s.media := rfl
@[simp] theorem State.setSFld_spn (s : State) (a : Nat) (g : Fld) (v : Int) : (s.setSFld a g v).spn = s.spn := rfl
@[simp] theorem State.setSFld_pic (s : State) (a : Nat) (g : Fld) (v : Int) : (s.setSFld a g v).pic = s.pic := rfl
@[simp] theorem State.setSFld_cast (s : State) (a : Nat) (g : Fld) (v : Int) : (s.setSFld a g v).cast = s.cast := rfl
@[simp] theorem State.setSFld_cmp (s : State) (a : Nat) (g : Fld) (v : Int) : (s.setSFld a g v).cmp = s.cmp := rfl
@[simp] theorem State.setSFld_pln (s : State) (a : Nat) (g : Fld) (v : Int) : (s.setSFld a g v).pln = s.pln := rfl
@[simp] theorem State.setSFld_dram (s : State) (a : Nat) (g : Fld) (v : Int) : (s.setSFld a g v).dram = s.dram := rfl
@[simp] theorem State.setSFld_activation (s : State) (a : Nat) (g : Fld) (v : Int) : (s.setSFld a g v).activation = s.activation := rfl
@[simp] theorem State.setSFld_deleting (s : State) (a : Nat) (g : Fld) (v : Int) : (s.setSFld a g v).deleting = s.deleting := rfl

/-! ## countFld -/
@[simp] theorem State.countFld_pending (s : State) (a : Nat) (g : Fld) : (s.countFld a g).pending = s.pending := rfl
@[simp] theorem State.countFld_now (s : State) (a : Nat) (g : Fld) : (s.countFld a g).now = s.now := rfl
@[simp] theorem State.countFld_fresh (s : State) (a : Nat) (g : Fld) : (s.countFld a g).fresh = s.fresh := rfl
@[simp] theorem State.countFld_readData (s : State) (a : Nat) (g : Fld) : (s.countFld a g).readData = s.readData := rfl
@[simp] theorem State.countFld_latches (s : State) (a : Nat) (g : Fld) : (s.countFld a g).latches = s.latches := rfl
@[simp] theorem State.countFld_heldRegs (s : State) (a : Nat) (g : Fld) : (s.countFld a g).heldRegs = s.heldRegs := rfl
@[simp] theorem State.countFld_funcs (s : State) (a : Nat) (g : Fld) : (s.countFld a g).funcs = s.funcs := rfl
@[simp] theorem State.countFld_cfgOp (s : State) (a : Nat) (g : Fld) : (s.countFld a g).cfgOp = s.cfgOp := rfl
@[simp] theorem State.countFld_pat (s : State) (a : Nat) (g : Fld) : (s.countFld a g).pat = s.pat := rfl
@[simp] theorem State.countFld_flt (s : State) (a : Nat) (g : Fld) : (s.countFld a g).flt = s.flt := rfl
@[simp] theorem State.countFld_nor (s : State) (a : Nat) (g : Fld) : (s.countFld a g).nor = s.nor := rfl
@[simp] theorem State.countFld_time (s : State) (a : Nat) (g : Fld) : (s.countFld a g).time = s.time := rfl
@[simp] theorem State.countFld_trace (s : State) (a : Nat) (g : Fld) : (s.countFld a g).trace = s.trace := rfl
@[simp] theorem State.countFld_host (s : State) (a : Nat) (g : Fld) : (s.countFld a g).host = s.host := rfl
@[simp] theorem State.countFld_own (s : State) (a : Nat) (g : Fld) : (s.countFld a g).own = s.own := rfl
@[simp] theorem State.countFld_mi (s : State) (a : Nat) (g : Fld) : (s.countFld a g).mi = s.mi := rfl
@[simp] theorem State.countFld_spaces (s : State) (a : Nat) (g : Fld) : (s.countFld a g).spaces = s.spaces := rfl
@[simp] theorem State.countFld_acts (s : State) (a : Nat) (g : Fld) : (s.countFld a g).acts = s.acts := rfl
@[simp] theorem State.countFld_media (s : State) (a : Nat) (g : Fld) : (s.countFld a g).media = s.media := rfl
@[simp] theorem State.countFld_spn (s : State) (a : Nat) (g : Fld) : (s.countFld a g).spn = s.spn := rfl
@[simp] theorem State.countFld_pic (s : State) (a : Nat) (g : Fld) : (s.countFld a g).pic = s.pic := rfl
@[simp] theorem State.countFld_cast (s : State) (a : Nat) (g : Fld) : (s.countFld a g).cast = s.cast := rfl
@[simp] theorem State.countFld_cmp (s : State) (a : Nat) (g : Fld) : (s.countFld a g).cmp = s.cmp := rfl
@[simp] theorem State.countFld_pln (s : State) (a : Nat) (g : Fld) : (s.countFld a g).pln = s.pln := rfl
@[simp] theorem State.countFld_dram (s : State) (a : Nat) (g : Fld) : (s.countFld a g).dram = s.dram := rfl
@[simp] theorem State.countFld_activation (s : State) (a : Nat) (g : Fld) : (s.countFld a g).activation = s.activation := rfl
@[simp] theorem State.countFld_deleting (s : State) (a : Nat) (g : Fld) : (s.countFld a g).deleting = s.deleting := rfl

/-! ## resetRegs -/
@[simp] theorem State.resetRegs_pending (s : State) (lo hi : Nat) : (s.resetRegs lo hi).pending = s.pending := rfl
@[simp] theorem State.resetRegs_now (s : State) (lo hi : Nat) : (s.resetRegs lo hi).now = s.now := rfl
@[simp] theorem State.resetRegs_fresh (s : State) (lo hi : Nat) : (s.resetRegs lo hi).fresh = s.fresh := rfl
@[simp] theorem State.resetRegs_readData (s : State) (lo hi : Nat) : (s.resetRegs lo hi).readData = s.readData := rfl
@[simp] theorem State.resetRegs_latches (s : State) (lo hi : Nat) : (s.resetRegs lo hi).latches = s.latches := rfl
@[simp] theorem State.resetRegs_heldRegs (s : State) (lo hi : Nat) : (s.resetRegs lo hi).heldRegs = s.heldRegs := rfl
@[simp] theorem State.resetRegs_funcs (s : State) (lo hi : Nat) : (s.resetRegs lo hi).funcs = s.funcs := rfl
@[simp] theorem State.resetRegs_cfgOp (s : State) (lo hi : Nat) : (s.resetRegs lo hi).cfgOp = s.cfgOp := rfl
@[simp] theorem State.resetRegs_pat (s : State) (lo hi : Nat) : (s.resetRegs lo hi).pat = s.pat := rfl
@[simp] theorem State.resetRegs_flt (s : State) (lo hi : Nat) : (s.resetRegs lo hi).flt = s.flt := rfl
@[simp] theorem State.resetRegs_nor (s : State) (lo hi : Nat) : (s.resetRegs lo hi).nor = s.nor := rfl
@[simp] theorem State.resetRegs_time (s : State) (lo hi : Nat) : (s.resetRegs lo hi).time = s.time := rfl
@[simp] theorem State.resetRegs_trace (s : State) (lo hi : Nat) : (s.resetRegs lo hi).trace = s.trace := rfl
@[simp] theorem State.resetRegs_host (s : State) (lo hi : Nat) : (s.resetRegs lo hi).host = s.host := rfl
@[simp] theorem State.resetRegs_own (s : State) (lo hi : Nat) : (s.resetRegs lo hi).own = s.own := rfl
@[simp] theorem State.resetRegs_mi (s : State) (lo hi : Nat) : (s.resetRegs lo hi).mi = s.mi := rfl
@[simp] theorem State.resetRegs_spaces (s : State) (lo hi : Nat) : (s.resetRegs lo hi).spaces = s.spaces := rfl
@[simp] theorem State.resetRegs_acts (s : State) (lo hi : Nat) : (s.resetRegs lo hi).acts = s.acts := rfl
@[simp] theorem State.resetRegs_media (s : State) (lo hi : Nat) : (s.resetRegs lo hi).media = s.media := rfl
@[simp] theorem State.resetRegs_spn (s : State) (lo hi : Nat) : (s.resetRegs lo hi).spn = s.spn := rfl
@[simp] theorem State.resetRegs_pic (s : State) (lo hi : Nat) : (s.resetRegs lo hi).pic = s.pic := rfl
@[simp] theorem State.resetRegs_cast (s : State) (lo hi : Nat) : (s.resetRegs lo hi).cast = s.cast := rfl
@[simp] theorem State.resetRegs_cmp (s : State) (lo hi : Nat) : (s.resetRegs lo hi).cmp = s.cmp := rfl
@[simp] theorem State.resetRegs_pln (s : State) (lo hi : Nat) : (s.resetRegs lo hi).pln = s.pln := rfl
@[simp] theorem State.resetRegs_dram (s : State) (lo hi : Nat) : (s.resetRegs lo hi).dram = s.dram := rfl
@[simp] theorem State.resetRegs_activation (s : State) (lo hi : Nat) : (s.resetRegs lo hi).activation = s.activation := rfl
@[simp] theorem State.resetRegs_deleting (s : State) (lo hi : Nat) : (s.resetRegs lo hi).deleting = s.deleting := rfl

/-! ## modPln -/
@[simp] theorem State.modPln_pln (s : State) (g : Plinth → Plinth) : (s.modPln g).pln = g s.pln := rfl
@[simp] theorem State.modPln_pending (s : State) (g : Plinth → Plinth) : (s.modPln g).pending = s.pending := rfl
@[simp] theorem State.modPln_now (s : State) (g : Plinth → Plinth) : (s.modPln g).now = s.now := rfl
@[simp] theorem State.modPln_fresh (s : State) (g : Plinth → Plinth) : (s.modPln g).fresh = s.fresh := rfl
@[simp] theorem State.modPln_readData (s : State) (g : Plinth → Plinth) : (s.modPln g).readData = s.readData := rfl
@[simp] theorem State.modPln_regs (s : State) (g : Plinth → Plinth) : (s.modPln g).regs = s.regs := rfl
@[simp] theorem State.modPln_latches (s : State) (g : Plinth → Plinth) : (s.modPln g).latches = s.latches := rfl
@[simp] theorem State.modPln_heldRegs (s : State) (g : Plinth → Plinth) : (s.modPln g).heldRegs = s.heldRegs := rfl
@[simp] theorem State.modPln_funcs (s : State) (g : Plinth → Plinth) : (s.modPln g).funcs = s.funcs := rfl
@[simp] theorem State.modPln_cfgOp (s : State) (g : Plinth → Plinth) : (s.modPln g).cfgOp = s.cfgOp := rfl
@[simp] theorem State.modPln_pat (s : State) (g : Plinth → Plinth) : (s.modPln g).pat = s.pat := rfl
@[simp] theorem State.modPln_flt (s : State) (g : Plinth → Plinth) : (s.modPln g).flt = s.flt := rfl
@[simp] theorem State.modPln_nor (s : State) (g : Plinth → Plinth) : (s.modPln g).nor = s.nor := rfl
@[simp] theorem State.modPln_time (s : State) (g : Plinth → Plinth) : (s.modPln g).time = s.time := rfl
@[simp] theorem State.modPln_trace (s : State) (g : Plinth → Plinth) : (s.modPln g).trace = s.trace := rfl
@[simp] theorem State.modPln_host (s : State) (g : Plinth → Plinth) : (s.modPln g).host = s.host := rfl
@[simp] theorem State.modPln_own (s : State) (g : Plinth → Plinth) : (s.modPln g).own = s.own := rfl
@[simp] theorem State.modPln_mi (s : State) (g : Plinth → Plinth) : (s.modPln g).mi = s.mi := rfl
@[simp] theorem State.modPln_spaces (s : State) (g : Plinth → Plinth) : (s.modPln g).spaces = s.spaces := rfl
@[simp] theorem State.modPln_acts (s : State) (g : Plinth → Plinth) : (s.modPln g).acts = s.acts := rfl
@[simp] theorem State.modPln_media (s : State) (g : Plinth → Plinth) : (s.modPln g).media = s.media := rfl
@[simp] theorem State.modPln_spn (s : State) (g : Plinth → Plinth) : (s.modPln g).spn = s.spn := rfl
@[simp] theorem State.modPln_pic (s : State) (g : Plinth → Plinth) : (s.modPln g).pic = s.pic := rfl
@[simp] theorem State.modPln_cast (s : State) (g : Plinth → Plinth) : (s.modPln g).cast = s.cast := rfl
@[simp] theorem State.modPln_cmp (s : State) (g : Plinth → Plinth) : (s.modPln g).cmp = s.cmp := rfl
@[simp] theorem State.modPln_dram (s : State) (g : Plinth → Plinth) : (s.modPln g).dram = s.dram := rfl
@[simp] theorem State.modPln_activation (s : State) (g : Plinth → Plinth) : (s.modPln g).activation = s.activation := rfl
@[simp] theorem State.modPln_deleting (s : State) (g : Plinth → Plinth) : (s.modPln g).deleting = s.deleting := rfl
@[simp] theorem State.modPln_reg (s : State) (g : Plinth → Plinth) (r : Nat) : (s.modPln g).reg r = s.reg r := rfl
@[simp] theorem State.modPln_fld (s : State) (g : Plinth → Plinth) (r : Nat) (f : Fld) : (s.modPln g).fld r f = s.fld r f := rfl
@[simp] theorem State.modPln_flag (s : State) (g : Plinth → Plinth) (r : Nat) (f : Fld) : (s.modPln g).flag r f = s.flag r f := rfl

/-! ## modCast -/
@[simp] theorem State.modCast_cast (s : State) (g : CastState → CastState) : (s.modCast g).cast = g s.cast := rfl
@[simp] theorem State.modCast_pending (s : State) (g : CastState → CastState) : (s.modCast g).pending = s.pending := rfl
@[simp] theorem State.modCast_now (s : State) (g : CastState → CastState) : (s.modCast g).now = s.now := rfl
@[simp] theorem State.modCast_fresh (s : State) (g : CastState → CastState) : (s.modCast g).fresh = s.fresh := rfl
@[simp] theorem State.modCast_readData (s : State) (g : CastState → CastState) : (s.modCast g).readData = s.readData := rfl
@[simp] theorem State.modCast_regs (s : State) (g : CastState → CastState) : (s.modCast g).regs = s.regs := rfl
@[simp] theorem State.modCast_latches (s : State) (g : CastState → CastState) : (s.modCast g).latches = s.latches := rfl
@[simp] theorem State.modCast_heldRegs (s : State) (g : CastState → CastState) : (s.modCast g).heldRegs = s.heldRegs := rfl
@[simp] theorem State.modCast_funcs (s : State) (g : CastState → CastState) : (s.modCast g).funcs = s.funcs := rfl
@[simp] theorem State.modCast_cfgOp (s : State) (g : CastState → CastState) : (s.modCast g).cfgOp = s.cfgOp := rfl
@[simp] theorem State.modCast_pat (s : State) (g : CastState → CastState) : (s.modCast g).pat = s.pat := rfl
@[simp] theorem State.modCast_flt (s : State) (g : CastState → CastState) : (s.modCast g).flt = s.flt := rfl
@[simp] theorem State.modCast_nor (s : State) (g : CastState → CastState) : (s.modCast g).nor = s.nor := rfl
@[simp] theorem State.modCast_time (s : State) (g : CastState → CastState) : (s.modCast g).time = s.time := rfl
@[simp] theorem State.modCast_trace (s : State) (g : CastState → CastState) : (s.modCast g).trace = s.trace := rfl
@[simp] theorem State.modCast_host (s : State) (g : CastState → CastState) : (s.modCast g).host = s.host := rfl
@[simp] theorem State.modCast_own (s : State) (g : CastState → CastState) : (s.modCast g).own = s.own := rfl
@[simp] theorem State.modCast_mi (s : State) (g : CastState → CastState) : (s.modCast g).mi = s.mi := rfl
@[simp] theorem State.modCast_spaces (s : State) (g : CastState → CastState) : (s.modCast g).spaces = s.spaces := rfl
@[simp] theorem State.modCast_acts (s : State) (g : CastState → CastState) : (s.modCast g).acts = s.acts := rfl
@[simp] theorem State.modCast_media (s : State) (g : CastState → CastState) : (s.modCast g).media = s.media := rfl
@[simp] theorem State.modCast_spn (s : State) (g : CastState → CastState) : (s.modCast g).spn = s.spn := rfl
@[simp] theorem State.modCast_pic (s : State) (g : CastState → CastState) : (s.modCast g).pic = s.pic := rfl
@[simp] theorem State.modCast_cmp (s : State) (g : CastState → CastState) : (s.modCast g).cmp = s.cmp := rfl
@[simp] theorem State.modCast_pln (s : State) (g : CastState → CastState) : (s.modCast g).pln = s.pln := rfl
@[simp] theorem State.modCast_dram (s : State) (g : CastState → CastState) : (s.modCast g).dram = s.dram := rfl
@[simp] theorem State.modCast_activation (s : State) (g : CastState → CastState) : (s.modCast g).activation = s.activation := rfl
@[simp] theorem State.modCast_deleting (s : State) (g : CastState → CastState) : (s.modCast g).deleting = s.deleting := rfl
@[simp] theorem State.modCast_reg (s : State) (g : CastState → CastState) (r : Nat) : (s.modCast g).reg r = s.reg r := rfl
@[simp] theorem State.modCast_fld (s : State) (g : CastState → CastState) (r : Nat) (f : Fld) : (s.modCast g).fld r f = s.fld r f := rfl
@[simp] theorem State.modCast_flag (s : State) (g : CastState → CastState) (r : Nat) (f : Fld) : (s.modCast g).flag r f = s.flag r f := rfl

/-! ## modDram -/
@[simp] theorem State.modDram_dram (s : State) (g : Dram → Dram) : (s.modDram g).dram = g s.dram := rfl
@[simp] theorem State.modDram_pending (s : State) (g : Dram → Dram) : (s.modDram g).pending = s.pending := rfl
@[simp] theorem State.modDram_now (s : State) (g : Dram → Dram) : (s.modDram g).now = s.now := rfl
@[simp] theorem State.modDram_fresh (s : State) (g : Dram → Dram) : (s.modDram g).fresh = s.fresh := rfl
@[simp] theorem State.modDram_readData (s : State) (g : Dram → Dram) : (s.modDram g).readData = s.readData := rfl
@[simp] theorem State.modDram_regs (s : State) (g : Dram → Dram) : (s.modDram g).regs = s.regs := rfl
@[simp] theorem State.modDram_latches (s : State) (g : Dram → Dram) : (s.modDram g).latches = s.latches := rfl
@[simp] theorem State.modDram_heldRegs (s : State) (g : Dram → Dram) : (s.modDram g).heldRegs = s.heldRegs := rfl
@[simp] theorem State.modDram_funcs (s : State) (g : Dram → Dram) : (s.modDram g).funcs = s.funcs := rfl
@[simp] theorem State.modDram_cfgOp (s : State) (g : Dram → Dram) : (s.modDram g).cfgOp = s.cfgOp := rfl
@[simp] theorem State.modDram_pat (s : State) (g : Dram → Dram) : (s.modDram g).pat = s.pat := rfl
@[simp] theorem State.modDram_flt (s : State) (g : Dram → Dram) : (s.modDram g).flt = s.flt := rfl
@[simp] theorem State.modDram_nor (s : State) (g : Dram → Dram) : (s.modDram g).nor = s.nor := rfl
@[simp] theorem State.modDram_time (s : State) (g : Dram → Dram) : (s.modDram g).time = s.time := rfl
@[simp] theorem State.modDram_trace (s : State) (g : Dram → Dram) : (s.modDram g).trace = s.trace := rfl
@[simp] theorem State.modDram_host (s : State) (g : Dram → Dram) : (s.modDram g).host = s.host := rfl
@[simp] theorem State.modDram_own (s : State) (g : Dram → Dram) : (s.modDram g).own = s.own := rfl
@[simp] theorem State.modDram_mi (s : State) (g : Dram → Dram) : (s.modDram g).mi = s.mi := rfl
@[simp] theorem State.modDram_spaces (s : State) (g : Dram → Dram) : (s.modDram g).spaces = s.spaces := rfl
@[simp] theorem State.modDram_acts (s : State) (g : Dram → Dram) : (s.modDram g).acts = s.acts := rfl
@[simp] theorem State.modDram_media (s : State) (g : Dram → Dram) : (s.modDram g).media = s.media := rfl
@[simp] theorem State.modDram_spn (s : State) (g : Dram → Dram) : (s.modDram g).spn = s.spn := rfl
@[simp] theorem State.modDram_pic (s : State) (g : Dram → Dram) : (s.modDram g).pic = s.pic := rfl
@[simp] theorem State.modDram_cast (s : State) (g : Dram → Dram) : (s.modDram g).cast = s.cast := rfl
@[simp] theorem State.modDram_cmp (s : State) (g : Dram → Dram) : (s.modDram g).cmp = s.cmp := rfl
@[simp] theorem State.modDram_pln (s : State) (g : Dram → Dram) : (s.modDram g).pln = s.pln := rfl
@[simp] theorem State.modDram_activation (s : State) (g : Dram → Dram) : (s.modDram g).activation = s.activation := rfl
@[simp] theorem State.modDram_deleting (s : State) (g : Dram → Dram) : (s.modDram g).deleting = s.deleting := rfl
@[simp] theorem State.modDram_reg (s : State) (g : Dram → Dram) (r : Nat) : (s.modDram g).reg r = s.reg r := rfl
@[simp] theorem State.modDram_fld (s : State) (g : Dram → Dram) (r : Nat) (f : Fld) : (s.modDram g).fld r f = s.fld r f := rfl
@[simp] theorem State.modDram_flag (s : State) (g : Dram → Dram) (r : Nat) (f : Fld) : (s.modDram g).flag r f = s.flag r f := rfl

/-! ## modHost -/
@[simp] theorem State.modHost_host (s : State) (g : HostState → HostState) : (s.modHost g).host = g s.host := rfl
@[simp] theorem State.modHost_pending (s : State) (g : HostState → HostState) : (s.modHost g).pending = s.pending := rfl
@[simp] theorem State.modHost_now (s : State) (g : HostState → HostState) : (s.modHost g).now = s.now := rfl
@[simp] theorem State.modHost_fresh (s : State) (g : HostState → HostState) : (s.modHost g).fresh = s.fresh := rfl
@[simp] theorem State.modHost_readData (s : State) (g : HostState → HostState) : (s.modHost g).readData = s.readData := rfl
@[simp] theorem State.modHost_regs (s : State) (g : HostState → HostState) : (s.modHost g).regs = s.regs := rfl
@[simp] theorem State.modHost_latches (s : State) (g : HostState → HostState) : (s.modHost g).latches = s.latches := rfl
@[simp] theorem State.modHost_heldRegs (s : State) (g : HostState → HostState) : (s.modHost g).heldRegs = s.heldRegs := rfl
@[simp] theorem State.modHost_funcs (s : State) (g : HostState → HostState) : (s.modHost g).funcs = s.funcs := rfl
@[simp] theorem State.modHost_cfgOp (s : State) (g : HostState → HostState) : (s.modHost g).cfgOp = s.cfgOp := rfl
@[simp] theorem State.modHost_pat (s : State) (g : HostState → HostState) : (s.modHost g).pat = s.pat := rfl
@[simp] theorem State.modHost_flt (s : State) (g : HostState → HostState) : (s.modHost g).flt = s.flt := rfl
@[simp] theorem State.modHost_nor (s : State) (g : HostState → HostState) : (s.modHost g).nor = s.nor := rfl
@[simp] theorem State.modHost_time (s : State) (g : HostState → HostState) : (s.modHost g).time = s.time := rfl
@[simp] theorem State.modHost_trace (s : State) (g : HostState → HostState) : (s.modHost g).trace = s.trace := rfl
@[simp] theorem State.modHost_own (s : State) (g : HostState → HostState) : (s.modHost g).own = s.own := rfl
@[simp] theorem State.modHost_mi (s : State) (g : HostState → HostState) : (s.modHost g).mi = s.mi := rfl
@[simp] theorem State.modHost_spaces (s : State) (g : HostState → HostState) : (s.modHost g).spaces = s.spaces := rfl
@[simp] theorem State.modHost_acts (s : State) (g : HostState → HostState) : (s.modHost g).acts = s.acts := rfl
@[simp] theorem State.modHost_media (s : State) (g : HostState → HostState) : (s.modHost g).media = s.media := rfl
@[simp] theorem State.modHost_spn (s : State) (g : HostState → HostState) : (s.modHost g).spn = s.spn := rfl
@[simp] theorem State.modHost_pic (s : State) (g : HostState → HostState) : (s.modHost g).pic = s.pic := rfl
@[simp] theorem State.modHost_cast (s : State) (g : HostState → HostState) : (s.modHost g).cast = s.cast := rfl
@[simp] theorem State.modHost_cmp (s : State) (g : HostState → HostState) : (s.modHost g).cmp = s.cmp := rfl
@[simp] theorem State.modHost_pln (s : State) (g : HostState → HostState) : (s.modHost g).pln = s.pln := rfl
@[simp] theorem State.modHost_dram (s : State) (g : HostState → HostState) : (s.modHost g).dram = s.dram := rfl
@[simp] theorem State.modHost_activation (s : State) (g : HostState → HostState) : (s.modHost g).activation = s.activation := rfl
@[simp] theorem State.modHost_deleting (s : State) (g : HostState → HostState) : (s.modHost g).deleting = s.deleting := rfl
@[simp] theorem State.modHost_reg (s : State) (g : HostState → HostState) (r : Nat) : (s.modHost g).reg r = s.reg r := rfl
@[simp] theorem State.modHost_fld (s : State) (g : HostState → HostState) (r : Nat) (f : Fld) : (s.modHost g).fld r f = s.fld r f := rfl
@[simp] theorem State.modHost_flag (s : State) (g : HostState → HostState) (r : Nat) (f : Fld) : (s.modHost g).flag r f = s.flag r f := rfl

/-! ## modMedia -/
@[simp] theorem State.modMedia_media (s : State) (g : Media → Media) : (s.modMedia g).media = g s.media := rfl
@[simp] theorem State.modMedia_pending (s : State) (g : Media → Media) : (s.modMedia g).pending = s.pending := rfl
@[simp] theorem State.modMedia_now (s : State) (g : Media → Media) : (s.modMedia g).now = s.now := rfl
@[simp] theorem State.modMedia_fresh (s : State) (g : Media → Media) : (s.modMedia g).fresh = s.fresh := rfl
@[simp] theorem State.modMedia_readData (s : State) (g : Media → Media) : (s.modMedia g).readData = s.readData := rfl
@[simp] theorem State.modMedia_regs (s : State) (g : Media → Media) : (s.modMedia g).regs = s.regs := rfl
@[simp] theorem State.modMedia_latches (s : State) (g : Media → Media) : (s.modMedia g).latches = s.latches := rfl
@[simp] theorem State.modMedia_heldRegs (s : State) (g : Media → Media) : (s.modMedia g).heldRegs = s.heldRegs := rfl
@[simp] theorem State.modMedia_funcs (s : State) (g : Media → Media) : (s.modMedia g).funcs = s.funcs := rfl
@[simp] theorem State.modMedia_cfgOp (s : State) (g : Media → Media) : (s.modMedia g).cfgOp = s.cfgOp := rfl
@[simp] theorem State.modMedia_pat (s : State) (g : Media → Media) : (s.modMedia g).pat = s.pat := rfl
@[simp] theorem State.modMedia_flt (s : State) (g : Media → Media) : (s.modMedia g).flt = s.flt := rfl
@[simp] theorem State.modMedia_nor (s : State) (g : Media → Media) : (s.modMedia g).nor = s.nor := rfl
@[simp] theorem State.modMedia_time (s : State) (g : Media → Media) : (s.modMedia g).time = s.time := rfl
@[simp] theorem State.modMedia_trace (s : State) (g : Media → Media) : (s.modMedia g).trace = s.trace := rfl
@[simp] theorem State.modMedia_host (s : State) (g : Media → Media) : (s.modMedia g).host = s.host := rfl
@[simp] theorem State.modMedia_own (s : State) (g : Media → Media) : (s.modMedia g).own = s.own := rfl
@[simp] theorem State.modMedia_mi (s : State) (g : Media → Media) : (s.modMedia g).mi = s.mi := rfl
@[simp] theorem State.modMedia_spaces (s : State) (g : Media → Media) : (s.modMedia g).spaces = s.spaces := rfl
@[simp] theorem State.modMedia_acts (s : State) (g : Media → Media) : (s.modMedia g).acts = s.acts := rfl
@[simp] theorem State.modMedia_spn (s : State) (g : Media → Media) : (s.modMedia g).spn = s.spn := rfl
@[simp] theorem State.modMedia_pic (s : State) (g : Media → Media) : (s.modMedia g).pic = s.pic := rfl
@[simp] theorem State.modMedia_cast (s : State) (g : Media → Media) : (s.modMedia g).cast = s.cast := rfl
@[simp] theorem State.modMedia_cmp (s : State) (g : Media → Media) : (s.modMedia g).cmp = s.cmp := rfl
@[simp] theorem State.modMedia_pln (s : State) (g : Media → Media) : (s.modMedia g).pln = s.pln := rfl
@[simp] theorem State.modMedia_dram (s : State) (g : Media → Media) : (s.modMedia g).dram = s.dram := rfl
@[simp] theorem State.modMedia_activation (s : State) (g : Media → Media) : (s.modMedia g).activation = s.activation := rfl
@[simp] theorem State.modMedia_deleting (s : State) (g : Media → Media) : (s.modMedia g).deleting = s.deleting := rfl
@[simp] theorem State.modMedia_reg (s : State) (g : Media → Media) (r : Nat) : (s.modMedia g).reg r = s.reg r := rfl
@[simp] theorem State.modMedia_fld (s : State) (g : Media → Media) (r : Nat) (f : Fld) : (s.modMedia g).fld r f = s.fld r f := rfl
@[simp] theorem State.modMedia_flag (s : State) (g : Media → Media) (r : Nat) (f : Fld) : (s.modMedia g).flag r f = s.flag r f := rfl

/-! ## modTime -/
@[simp] theorem State.modTime_time (s : State) (g : Time → Time) : (s.modTime g).time = g s.time := rfl
@[simp] theorem State.modTime_pending (s : State) (g : Time → Time) : (s.modTime g).pending = s.pending := rfl
@[simp] theorem State.modTime_now (s : State) (g : Time → Time) : (s.modTime g).now = s.now := rfl
@[simp] theorem State.modTime_fresh (s : State) (g : Time → Time) : (s.modTime g).fresh = s.fresh := rfl
@[simp] theorem State.modTime_readData (s : State) (g : Time → Time) : (s.modTime g).readData = s.readData := rfl
@[simp] theorem State.modTime_regs (s : State) (g : Time → Time) : (s.modTime g).regs = s.regs := rfl
@[simp] theorem State.modTime_latches (s : State) (g : Time → Time) : (s.modTime g).latches = s.latches := rfl
@[simp] theorem State.modTime_heldRegs (s : State) (g : Time → Time) : (s.modTime g).heldRegs = s.heldRegs := rfl
@[simp] theorem State.modTime_funcs (s : State) (g : Time → Time) : (s.modTime g).funcs = s.funcs := rfl
@[simp] theorem State.modTime_cfgOp (s : State) (g : Time → Time) : (s.modTime g).cfgOp = s.cfgOp := rfl
@[simp] theorem State.modTime_pat (s : State) (g : Time → Time) : (s.modTime g).pat = s.pat := rfl
@[simp] theorem State.modTime_flt (s : State) (g : Time → Time) : (s.modTime g).flt = s.flt := rfl
@[simp] theorem State.modTime_nor (s : State) (g : Time → Time) : (s.modTime g).nor = s.nor := rfl
@[simp] theorem State.modTime_trace (s : State) (g : Time → Time) : (s.modTime g).trace = s.trace := rfl
@[simp] theorem State.modTime_host (s : State) (g : Time → Time) : (s.modTime g).host = s.host := rfl
@[simp] theorem State.modTime_own (s : State) (g : Time → Time) : (s.modTime g).own = s.own := rfl
@[simp] theorem State.modTime_mi (s : State) (g : Time → Time) : (s.modTime g).mi = s.mi := rfl
@[simp] theorem State.modTime_spaces (s : State) (g : Time → Time) : (s.modTime g).spaces = s.spaces := rfl
@[simp] theorem State.modTime_acts (s : State) (g : Time → Time) : (s.modTime g).acts = s.acts := rfl
@[simp] theorem State.modTime_media (s : State) (g : Time → Time) : (s.modTime g).media = s.media := rfl
@[simp] theorem State.modTime_spn (s : State) (g : Time → Time) : (s.modTime g).spn = s.spn := rfl
@[simp] theorem State.modTime_pic (s : State) (g : Time → Time) : (s.modTime g).pic = s.pic := rfl
@[simp] theorem State.modTime_cast (s : State) (g : Time → Time) : (s.modTime g).cast = s.cast := rfl
@[simp] theorem State.modTime_cmp (s : State) (g : Time → Time) : (s.modTime g).cmp = s.cmp := rfl
@[simp] theorem State.modTime_pln (s : State) (g : Time → Time) : (s.modTime g).pln = s.pln := rfl
@[simp] theorem State.modTime_dram (s : State) (g : Time → Time) : (s.modTime g).dram = s.dram := rfl
@[simp] theorem State.modTime_activation (s : State) (g : Time → Time) : (s.modTime g).activation = s.activation := rfl
@[simp] theorem State.modTime_deleting (s : State) (g : Time → Time) : (s.modTime g).deleting = s.deleting := rfl
@[simp] theorem State.modTime_reg (s : State) (g : Time → Time) (r : Nat) : (s.modTime g).reg r = s.reg r := rfl
@[simp] theorem State.modTime_fld (s : State) (g : Time → Time) (r : Nat) (f : Fld) : (s.modTime g).fld r f = s.fld r f := rfl
@[simp] theorem State.modTime_flag (s : State) (g : Time → Time) (r : Nat) (f : Fld) : (s.modTime g).flag r f = s.flag r f := rfl

/-! ## modSpn -/
@[simp] theorem State.modSpn_spn (s : State) (g : Spn → Spn) : (s.modSpn g).spn = g s.spn := rfl
@[simp] theorem State.modSpn_pending (s : State) (g : Spn → Spn) : (s.modSpn g).pending = s.pending := rfl
@[simp] theorem State.modSpn_now (s : State) (g : Spn → Spn) : (s.modSpn g).now = s.now := rfl
@[simp] theorem State.modSpn_fresh (s : State) (g : Spn → Spn) : (s.modSpn g).fresh = s.fresh := rfl
@[simp] theorem State.modSpn_readData (s : State) (g : Spn → Spn) : (s.modSpn g).readData = s.readData := rfl
@[simp] theorem State.modSpn_regs (s : State) (g : Spn → Spn) : (s.modSpn g).regs = s.regs := rfl
@[simp] theorem State.modSpn_latches (s : State) (g : Spn → Spn) : (s.modSpn g).latches = s.latches := rfl
@[simp] theorem State.modSpn_heldRegs (s : State) (g : Spn → Spn) : (s.modSpn g).heldRegs = s.heldRegs := rfl
@[simp] theorem State.modSpn_funcs (s : State) (g : Spn → Spn) : (s.modSpn g).funcs = s.funcs := rfl
@[simp] theorem State.modSpn_cfgOp (s : State) (g : Spn → Spn) : (s.modSpn g).cfgOp = s.cfgOp := rfl
@[simp] theorem State.modSpn_pat (s : State) (g : Spn → Spn) : (s.modSpn g).pat = s.pat := rfl
@[simp] theorem State.modSpn_flt (s : State) (g : Spn → Spn) : (s.modSpn g).flt = s.flt := rfl
@[simp] theorem State.modSpn_nor (s : State) (g : Spn → Spn) : (s.modSpn g).nor = s.nor := rfl
@[simp] theorem State.modSpn_time (s : State) (g : Spn → Spn) : (s.modSpn g).time = s.time := rfl
@[simp] theorem State.modSpn_trace (s : State) (g : Spn → Spn) : (s.modSpn g).trace = s.trace := rfl
@[simp] theorem State.modSpn_host (s : State) (g : Spn → Spn) : (s.modSpn g).host = s.host := rfl
@[simp] theorem State.modSpn_own (s : State) (g : Spn → Spn) : (s.modSpn g).own = s.own := rfl
@[simp] theorem State.modSpn_mi (s : State) (g : Spn → Spn) : (s.modSpn g).mi = s.mi := rfl
@[simp] theorem State.modSpn_spaces (s : State) (g : Spn → Spn) : (s.modSpn g).spaces = s.spaces := rfl
@[simp] theorem State.modSpn_acts (s : State) (g : Spn → Spn) : (s.modSpn g).acts = s.acts := rfl
@[simp] theorem State.modSpn_media (s : State) (g : Spn → Spn) : (s.modSpn g).media = s.media := rfl
@[simp] theorem State.modSpn_pic (s : State) (g : Spn → Spn) : (s.modSpn g).pic = s.pic := rfl
@[simp] theorem State.modSpn_cast (s : State) (g : Spn → Spn) : (s.modSpn g).cast = s.cast := rfl
@[simp] theorem State.modSpn_cmp (s : State) (g : Spn → Spn) : (s.modSpn g).cmp = s.cmp := rfl
@[simp] theorem State.modSpn_pln (s : State) (g : Spn → Spn) : (s.modSpn g).pln = s.pln := rfl
@[simp] theorem State.modSpn_dram (s : State) (g : Spn → Spn) : (s.modSpn g).dram = s.dram := rfl
@[simp] theorem State.modSpn_activation (s : State) (g : Spn → Spn) : (s.modSpn g).activation = s.activation := rfl
@[simp] theorem State.modSpn_deleting (s : State) (g : Spn → Spn) : (s.modSpn g).deleting = s.deleting := rfl
@[simp] theorem State.modSpn_reg (s : State) (g : Spn → Spn) (r : Nat) : (s.modSpn g).reg r = s.reg r := rfl
@[simp] theorem State.modSpn_fld (s : State) (g : Spn → Spn) (r : Nat) (f : Fld) : (s.modSpn g).fld r f = s.fld r f := rfl
@[simp] theorem State.modSpn_flag (s : State) (g : Spn → Spn) (r : Nat) (f : Fld) : (s.modSpn g).flag r f = s.flag r f := rfl

/-! ## modSlot -/
@[simp] theorem State.modSlot_pending (s : State) (k : Nat) (g : Slot → Slot) : (s.modSlot k g).pending = s.pending := rfl
@[simp] theorem State.modSlot_now (s : State) (k : Nat) (g : Slot → Slot) : (s.modSlot k g).now = s.now := rfl
@[simp] theorem State.modSlot_fresh (s : State) (k : Nat) (g : Slot → Slot) : (s.modSlot k g).fresh = s.fresh := rfl
@[simp] theorem State.modSlot_readData (s : State) (k : Nat) (g : Slot → Slot) : (s.modSlot k g).readData = s.readData := rfl
@[simp] theorem State.modSlot_regs (s : State) (k : Nat) (g : Slot → Slot) : (s.modSlot k g).regs = s.regs := rfl
@[simp] theorem State.modSlot_latches (s : State) (k : Nat) (g : Slot → Slot) : (s.modSlot k g).latches = s.latches := rfl
@[simp] theorem State.modSlot_heldRegs (s : State) (k : Nat) (g : Slot → Slot) : (s.modSlot k g).heldRegs = s.heldRegs := rfl
@[simp] theorem State.modSlot_funcs (s : State) (k : Nat) (g : Slot → Slot) : (s.modSlot k g).funcs = s.funcs := rfl
@[simp] theorem State.modSlot_cfgOp (s : State) (k : Nat) (g : Slot → Slot) : (s.modSlot k g).cfgOp = s.cfgOp := rfl
@[simp] theorem State.modSlot_pat (s : State) (k : Nat) (g : Slot → Slot) : (s.modSlot k g).pat = s.pat := rfl
@[simp] theorem State.modSlot_flt (s : State) (k : Nat) (g : Slot → Slot) : (s.modSlot k g).flt = s.flt := rfl
@[simp] theorem State.modSlot_time (s : State) (k : Nat) (g : Slot → Slot) : (s.modSlot k g).time = s.time := rfl
@[simp] theorem State.modSlot_trace (s : State) (k : Nat) (g : Slot → Slot) : (s.modSlot k g).trace = s.trace := rfl
@[simp] theorem State.modSlot_host (s : State) (k : Nat) (g : Slot → Slot) : (s.modSlot k g).host = s.host := rfl
@[simp] theorem State.modSlot_own (s : State) (k : Nat) (g : Slot → Slot) : (s.modSlot k g).own = s.own := rfl
@[simp] theorem State.modSlot_mi (s : State) (k : Nat) (g : Slot → Slot) : (s.modSlot k g).mi = s.mi := rfl
@[simp] theorem State.modSlot_spaces (s : State) (k : Nat) (g : Slot → Slot) : (s.modSlot k g).spaces = s.spaces := rfl
@[simp] theorem State.modSlot_acts (s : State) (k : Nat) (g : Slot → Slot) : (s.modSlot k g).acts = s.acts := rfl
@[simp] theorem State.modSlot_media (s : State) (k : Nat) (g : Slot → Slot) : (s.modSlot k g).media = s.media := rfl
@[simp] theorem State.modSlot_spn (s : State) (k : Nat) (g : Slot → Slot) : (s.modSlot k g).spn = s.spn := rfl
@[simp] theorem State.modSlot_pic (s : State) (k : Nat) (g : Slot → Slot) : (s.modSlot k g).pic = s.pic := rfl
@[simp] theorem State.modSlot_cast (s : State) (k : Nat) (g : Slot → Slot) : (s.modSlot k g).cast = s.cast := rfl
@[simp] theorem State.modSlot_cmp (s : State) (k : Nat) (g : Slot → Slot) : (s.modSlot k g).cmp = s.cmp := rfl
@[simp] theorem State.modSlot_pln (s : State) (k : Nat) (g : Slot → Slot) : (s.modSlot k g).pln = s.pln := rfl
@[simp] theorem State.modSlot_dram (s : State) (k : Nat) (g : Slot → Slot) : (s.modSlot k g).dram = s.dram := rfl
@[simp] theorem State.modSlot_activation (s : State) (k : Nat) (g : Slot → Slot) : (s.modSlot k g).activation = s.activation := rfl
@[simp] theorem State.modSlot_deleting (s : State) (k : Nat) (g : Slot → Slot) : (s.modSlot k g).deleting = s.deleting := rfl
@[simp] theorem State.modSlot_reg (s : State) (k : Nat) (g : Slot → Slot) (r : Nat) : (s.modSlot k g).reg r = s.reg r := rfl
@[simp] theorem State.modSlot_fld (s : State) (k : Nat) (g : Slot → Slot) (r : Nat) (f : Fld) : (s.modSlot k g).fld r f = s.fld r f := rfl
@[simp] theorem State.modSlot_flag (s : State) (k : Nat) (g : Slot → Slot) (r : Nat) (f : Fld) : (s.modSlot k g).flag r f = s.flag r f := rfl

/-! ## modFeatures -/
@[simp] theorem State.modFeatures_pending (s : State) (g : Features → Features) : (s.modFeatures g).pending = s.pending := rfl
@[simp] theorem State.modFeatures_now (s : State) (g : Features → Features) : (s.modFeatures g).now = s.now := rfl
@[simp] theorem State.modFeatures_fresh (s : State) (g : Features → Features) : (s.modFeatures g).fresh = s.fresh := rfl
@[simp] theorem State.modFeatures_readData (s : State) (g : Features → Features) : (s.modFeatures g).readData = s.readData := rfl
@[simp] theorem State.modFeatures_regs (s : State) (g : Features → Features) : (s.modFeatures g).regs = s.regs := rfl
@[simp] theorem State.modFeatures_latches (s : State) (g : Features → Features) : (s.modFeatures g).latches = s.latches := rfl
@[simp] theorem State.modFeatures_heldRegs (s : State) (g : Features → Features) : (s.modFeatures g).heldRegs = s.heldRegs := rfl
@[simp] theorem State.modFeatures_funcs (s : State) (g : Features → Features) : (s.modFeatures g).funcs = s.funcs := rfl
@[simp] theorem State.modFeatures_cfgOp (s : State) (g : Features → Features) : (s.modFeatures g).cfgOp = s.cfgOp := rfl
@[simp] theorem State.modFeatures_pat (s : State) (g : Features → Features) : (s.modFeatures g).pat = s.pat := rfl
@[simp] theorem State.modFeatures_flt (s : State) (g : Features → Features) : (s.modFeatures g).flt = s.flt := rfl
@[simp] theorem State.modFeatures_time (s : State) (g : Features → Features) : (s.modFeatures g).time = s.time := rfl
@[simp] theorem State.modFeatures_trace (s : State) (g : Features → Features) : (s.modFeatures g).trace = s.trace := rfl
@[simp] theorem State.modFeatures_host (s : State) (g : Features → Features) : (s.modFeatures g).host = s.host := rfl
@[simp] theorem State.modFeatures_own (s : State) (g : Features → Features) : (s.modFeatures g).own = s.own := rfl
@[simp] theorem State.modFeatures_mi (s : State) (g : Features → Features) : (s.modFeatures g).mi = s.mi := rfl
@[simp] theorem State.modFeatures_spaces (s : State) (g : Features → Features) : (s.modFeatures g).spaces = s.spaces := rfl
@[simp] theorem State.modFeatures_acts (s : State) (g : Features → Features) : (s.modFeatures g).acts = s.acts := rfl
@[simp] theorem State.modFeatures_media (s : State) (g : Features → Features) : (s.modFeatures g).media = s.media := rfl
@[simp] theorem State.modFeatures_spn (s : State) (g : Features → Features) : (s.modFeatures g).spn = s.spn := rfl
@[simp] theorem State.modFeatures_pic (s : State) (g : Features → Features) : (s.modFeatures g).pic = s.pic := rfl
@[simp] theorem State.modFeatures_cast (s : State) (g : Features → Features) : (s.modFeatures g).cast = s.cast := rfl
@[simp] theorem State.modFeatures_cmp (s : State) (g : Features → Features) : (s.modFeatures g).cmp = s.cmp := rfl
@[simp] theorem State.modFeatures_pln (s : State) (g : Features → Features) : (s.modFeatures g).pln = s.pln := rfl
@[simp] theorem State.modFeatures_dram (s : State) (g : Features → Features) : (s.modFeatures g).dram = s.dram := rfl
@[simp] theorem State.modFeatures_activation (s : State) (g : Features → Features) : (s.modFeatures g).activation = s.activation := rfl
@[simp] theorem State.modFeatures_deleting (s : State) (g : Features → Features) : (s.modFeatures g).deleting = s.deleting := rfl
@[simp] theorem State.modFeatures_reg (s : State) (g : Features → Features) (r : Nat) : (s.modFeatures g).reg r = s.reg r := rfl
@[simp] theorem State.modFeatures_fld (s : State) (g : Features → Features) (r : Nat) (f : Fld) : (s.modFeatures g).fld r f = s.fld r f := rfl
@[simp] theorem State.modFeatures_flag (s : State) (g : Features → Features) (r : Nat) (f : Fld) : (s.modFeatures g).flag r f = s.flag r f := rfl

/-! ## modAct -/
@[simp] theorem State.modAct_pending (s : State) (a : Fin 4) (g : Act → Act) : (s.modAct a g).pending = s.pending := rfl
@[simp] theorem State.modAct_now (s : State) (a : Fin 4) (g : Act → Act) : (s.modAct a g).now = s.now := rfl
@[simp] theorem State.modAct_fresh (s : State) (a : Fin 4) (g : Act → Act) : (s.modAct a g).fresh = s.fresh := rfl
@[simp] theorem State.modAct_readData (s : State) (a : Fin 4) (g : Act → Act) : (s.modAct a g).readData = s.readData := rfl
@[simp] theorem State.modAct_regs (s : State) (a : Fin 4) (g : Act → Act) : (s.modAct a g).regs = s.regs := rfl
@[simp] theorem State.modAct_latches (s : State) (a : Fin 4) (g : Act → Act) : (s.modAct a g).latches = s.latches := rfl
@[simp] theorem State.modAct_heldRegs (s : State) (a : Fin 4) (g : Act → Act) : (s.modAct a g).heldRegs = s.heldRegs := rfl
@[simp] theorem State.modAct_funcs (s : State) (a : Fin 4) (g : Act → Act) : (s.modAct a g).funcs = s.funcs := rfl
@[simp] theorem State.modAct_cfgOp (s : State) (a : Fin 4) (g : Act → Act) : (s.modAct a g).cfgOp = s.cfgOp := rfl
@[simp] theorem State.modAct_pat (s : State) (a : Fin 4) (g : Act → Act) : (s.modAct a g).pat = s.pat := rfl
@[simp] theorem State.modAct_flt (s : State) (a : Fin 4) (g : Act → Act) : (s.modAct a g).flt = s.flt := rfl
@[simp] theorem State.modAct_nor (s : State) (a : Fin 4) (g : Act → Act) : (s.modAct a g).nor = s.nor := rfl
@[simp] theorem State.modAct_time (s : State) (a : Fin 4) (g : Act → Act) : (s.modAct a g).time = s.time := rfl
@[simp] theorem State.modAct_trace (s : State) (a : Fin 4) (g : Act → Act) : (s.modAct a g).trace = s.trace := rfl
@[simp] theorem State.modAct_host (s : State) (a : Fin 4) (g : Act → Act) : (s.modAct a g).host = s.host := rfl
@[simp] theorem State.modAct_own (s : State) (a : Fin 4) (g : Act → Act) : (s.modAct a g).own = s.own := rfl
@[simp] theorem State.modAct_mi (s : State) (a : Fin 4) (g : Act → Act) : (s.modAct a g).mi = s.mi := rfl
@[simp] theorem State.modAct_spaces (s : State) (a : Fin 4) (g : Act → Act) : (s.modAct a g).spaces = s.spaces := rfl
@[simp] theorem State.modAct_media (s : State) (a : Fin 4) (g : Act → Act) : (s.modAct a g).media = s.media := rfl
@[simp] theorem State.modAct_spn (s : State) (a : Fin 4) (g : Act → Act) : (s.modAct a g).spn = s.spn := rfl
@[simp] theorem State.modAct_pic (s : State) (a : Fin 4) (g : Act → Act) : (s.modAct a g).pic = s.pic := rfl
@[simp] theorem State.modAct_cast (s : State) (a : Fin 4) (g : Act → Act) : (s.modAct a g).cast = s.cast := rfl
@[simp] theorem State.modAct_cmp (s : State) (a : Fin 4) (g : Act → Act) : (s.modAct a g).cmp = s.cmp := rfl
@[simp] theorem State.modAct_pln (s : State) (a : Fin 4) (g : Act → Act) : (s.modAct a g).pln = s.pln := rfl
@[simp] theorem State.modAct_dram (s : State) (a : Fin 4) (g : Act → Act) : (s.modAct a g).dram = s.dram := rfl
@[simp] theorem State.modAct_activation (s : State) (a : Fin 4) (g : Act → Act) : (s.modAct a g).activation = s.activation := rfl
@[simp] theorem State.modAct_deleting (s : State) (a : Fin 4) (g : Act → Act) : (s.modAct a g).deleting = s.deleting := rfl
@[simp] theorem State.modAct_reg (s : State) (a : Fin 4) (g : Act → Act) (r : Nat) : (s.modAct a g).reg r = s.reg r := rfl
@[simp] theorem State.modAct_fld (s : State) (a : Fin 4) (g : Act → Act) (r : Nat) (f : Fld) : (s.modAct a g).fld r f = s.fld r f := rfl
@[simp] theorem State.modAct_flag (s : State) (a : Fin 4) (g : Act → Act) (r : Nat) (f : Fld) : (s.modAct a g).flag r f = s.flag r f := rfl

/-! ## modServo -/
@[simp] theorem State.modServo_pending (s : State) (a : Fin 4) (g : Servo → Servo) : (s.modServo a g).pending = s.pending := rfl
@[simp] theorem State.modServo_now (s : State) (a : Fin 4) (g : Servo → Servo) : (s.modServo a g).now = s.now := rfl
@[simp] theorem State.modServo_fresh (s : State) (a : Fin 4) (g : Servo → Servo) : (s.modServo a g).fresh = s.fresh := rfl
@[simp] theorem State.modServo_readData (s : State) (a : Fin 4) (g : Servo → Servo) : (s.modServo a g).readData = s.readData := rfl
@[simp] theorem State.modServo_regs (s : State) (a : Fin 4) (g : Servo → Servo) : (s.modServo a g).regs = s.regs := rfl
@[simp] theorem State.modServo_latches (s : State) (a : Fin 4) (g : Servo → Servo) : (s.modServo a g).latches = s.latches := rfl
@[simp] theorem State.modServo_heldRegs (s : State) (a : Fin 4) (g : Servo → Servo) : (s.modServo a g).heldRegs = s.heldRegs := rfl
@[simp] theorem State.modServo_funcs (s : State) (a : Fin 4) (g : Servo → Servo) : (s.modServo a g).funcs = s.funcs := rfl
@[simp] theorem State.modServo_cfgOp (s : State) (a : Fin 4) (g : Servo → Servo) : (s.modServo a g).cfgOp = s.cfgOp := rfl
@[simp] theorem State.modServo_pat (s : State) (a : Fin 4) (g : Servo → Servo) : (s.modServo a g).pat = s.pat := rfl
@[simp] theorem State.modServo_flt (s : State) (a : Fin 4) (g : Servo → Servo) : (s.modServo a g).flt = s.flt := rfl
@[simp] theorem State.modServo_nor (s : State) (a : Fin 4) (g : Servo → Servo) : (s.modServo a g).nor = s.nor := rfl
@[simp] theorem State.modServo_time (s : State) (a : Fin 4) (g : Servo → Servo) : (s.modServo a g).time = s.time := rfl
@[simp] theorem State.modServo_trace (s : State) (a : Fin 4) (g : Servo → Servo) : (s.modServo a g).trace = s.trace := rfl
@[simp] theorem State.modServo_host (s : State) (a : Fin 4) (g : Servo → Servo) : (s.modServo a g).host = s.host := rfl
@[simp] theorem State.modServo_own (s : State) (a : Fin 4) (g : Servo → Servo) : (s.modServo a g).own = s.own := rfl
@[simp] theorem State.modServo_mi (s : State) (a : Fin 4) (g : Servo → Servo) : (s.modServo a g).mi = s.mi := rfl
@[simp] theorem State.modServo_spaces (s : State) (a : Fin 4) (g : Servo → Servo) : (s.modServo a g).spaces = s.spaces := rfl
@[simp] theorem State.modServo_media (s : State) (a : Fin 4) (g : Servo → Servo) : (s.modServo a g).media = s.media := rfl
@[simp] theorem State.modServo_spn (s : State) (a : Fin 4) (g : Servo → Servo) : (s.modServo a g).spn = s.spn := rfl
@[simp] theorem State.modServo_pic (s : State) (a : Fin 4) (g : Servo → Servo) : (s.modServo a g).pic = s.pic := rfl
@[simp] theorem State.modServo_cast (s : State) (a : Fin 4) (g : Servo → Servo) : (s.modServo a g).cast = s.cast := rfl
@[simp] theorem State.modServo_cmp (s : State) (a : Fin 4) (g : Servo → Servo) : (s.modServo a g).cmp = s.cmp := rfl
@[simp] theorem State.modServo_pln (s : State) (a : Fin 4) (g : Servo → Servo) : (s.modServo a g).pln = s.pln := rfl
@[simp] theorem State.modServo_dram (s : State) (a : Fin 4) (g : Servo → Servo) : (s.modServo a g).dram = s.dram := rfl
@[simp] theorem State.modServo_activation (s : State) (a : Fin 4) (g : Servo → Servo) : (s.modServo a g).activation = s.activation := rfl
@[simp] theorem State.modServo_deleting (s : State) (a : Fin 4) (g : Servo → Servo) : (s.modServo a g).deleting = s.deleting := rfl
@[simp] theorem State.modServo_reg (s : State) (a : Fin 4) (g : Servo → Servo) (r : Nat) : (s.modServo a g).reg r = s.reg r := rfl
@[simp] theorem State.modServo_fld (s : State) (a : Fin 4) (g : Servo → Servo) (r : Nat) (f : Fld) : (s.modServo a g).fld r f = s.fld r f := rfl
@[simp] theorem State.modServo_flag (s : State) (a : Fin 4) (g : Servo → Servo) (r : Nat) (f : Fld) : (s.modServo a g).flag r f = s.flag r f := rfl

/-! ## modBatten -/
@[simp] theorem State.modBatten_pending (s : State) (a : Fin 4) (g : Batten → Batten) : (s.modBatten a g).pending = s.pending := rfl
@[simp] theorem State.modBatten_now (s : State) (a : Fin 4) (g : Batten → Batten) : (s.modBatten a g).now = s.now := rfl
@[simp] theorem State.modBatten_fresh (s : State) (a : Fin 4) (g : Batten → Batten) : (s.modBatten a g).fresh = s.fresh := rfl
@[simp] theorem State.modBatten_readData (s : State) (a : Fin 4) (g : Batten → Batten) : (s.modBatten a g).readData = s.readData := rfl
@[simp] theorem State.modBatten_regs (s : State) (a : Fin 4) (g : Batten → Batten) : (s.modBatten a g).regs = s.regs := rfl
@[simp] theorem State.modBatten_latches (s : State) (a : Fin 4) (g : Batten → Batten) : (s.modBatten a g).latches = s.latches := rfl
@[simp] theorem State.modBatten_heldRegs (s : State) (a : Fin 4) (g : Batten → Batten) : (s.modBatten a g).heldRegs = s.heldRegs := rfl
@[simp] theorem State.modBatten_funcs (s : State) (a : Fin 4) (g : Batten → Batten) : (s.modBatten a g).funcs = s.funcs := rfl
@[simp] theorem State.modBatten_cfgOp (s : State) (a : Fin 4) (g : Batten → Batten) : (s.modBatten a g).cfgOp = s.cfgOp := rfl
@[simp] theorem State.modBatten_pat (s : State) (a : Fin 4) (g : Batten → Batten) : (s.modBatten a g).pat = s.pat := rfl
@[simp] theorem State.modBatten_flt (s : State) (a : Fin 4) (g : Batten → Batten) : (s.modBatten a g).flt = s.flt := rfl
@[simp] theorem State.modBatten_nor (s : State) (a : Fin 4) (g : Batten → Batten) : (s.modBatten a g).nor = s.nor := rfl
@[simp] theorem State.modBatten_time (s : State) (a : Fin 4) (g : Batten → Batten) : (s.modBatten a g).time = s.time := rfl
@[simp] theorem State.modBatten_trace (s : State) (a : Fin 4) (g : Batten → Batten) : (s.modBatten a g).trace = s.trace := rfl
@[simp] theorem State.modBatten_host (s : State) (a : Fin 4) (g : Batten → Batten) : (s.modBatten a g).host = s.host := rfl
@[simp] theorem State.modBatten_own (s : State) (a : Fin 4) (g : Batten → Batten) : (s.modBatten a g).own = s.own := rfl
@[simp] theorem State.modBatten_mi (s : State) (a : Fin 4) (g : Batten → Batten) : (s.modBatten a g).mi = s.mi := rfl
@[simp] theorem State.modBatten_spaces (s : State) (a : Fin 4) (g : Batten → Batten) : (s.modBatten a g).spaces = s.spaces := rfl
@[simp] theorem State.modBatten_media (s : State) (a : Fin 4) (g : Batten → Batten) : (s.modBatten a g).media = s.media := rfl
@[simp] theorem State.modBatten_spn (s : State) (a : Fin 4) (g : Batten → Batten) : (s.modBatten a g).spn = s.spn := rfl
@[simp] theorem State.modBatten_pic (s : State) (a : Fin 4) (g : Batten → Batten) : (s.modBatten a g).pic = s.pic := rfl
@[simp] theorem State.modBatten_cast (s : State) (a : Fin 4) (g : Batten → Batten) : (s.modBatten a g).cast = s.cast := rfl
@[simp] theorem State.modBatten_cmp (s : State) (a : Fin 4) (g : Batten → Batten) : (s.modBatten a g).cmp = s.cmp := rfl
@[simp] theorem State.modBatten_pln (s : State) (a : Fin 4) (g : Batten → Batten) : (s.modBatten a g).pln = s.pln := rfl
@[simp] theorem State.modBatten_dram (s : State) (a : Fin 4) (g : Batten → Batten) : (s.modBatten a g).dram = s.dram := rfl
@[simp] theorem State.modBatten_activation (s : State) (a : Fin 4) (g : Batten → Batten) : (s.modBatten a g).activation = s.activation := rfl
@[simp] theorem State.modBatten_deleting (s : State) (a : Fin 4) (g : Batten → Batten) : (s.modBatten a g).deleting = s.deleting := rfl
@[simp] theorem State.modBatten_reg (s : State) (a : Fin 4) (g : Batten → Batten) (r : Nat) : (s.modBatten a g).reg r = s.reg r := rfl
@[simp] theorem State.modBatten_fld (s : State) (a : Fin 4) (g : Batten → Batten) (r : Nat) (f : Fld) : (s.modBatten a g).fld r f = s.fld r f := rfl
@[simp] theorem State.modBatten_flag (s : State) (a : Fin 4) (g : Batten → Batten) (r : Nat) (f : Fld) : (s.modBatten a g).flag r f = s.flag r f := rfl

/-! ## modSeq -/
@[simp] theorem State.modSeq_pending (s : State) (a : Fin 4) (g : Sequencer → Sequencer) : (s.modSeq a g).pending = s.pending := rfl
@[simp] theorem State.modSeq_now (s : State) (a : Fin 4) (g : Sequencer → Sequencer) : (s.modSeq a g).now = s.now := rfl
@[simp] theorem State.modSeq_fresh (s : State) (a : Fin 4) (g : Sequencer → Sequencer) : (s.modSeq a g).fresh = s.fresh := rfl
@[simp] theorem State.modSeq_readData (s : State) (a : Fin 4) (g : Sequencer → Sequencer) : (s.modSeq a g).readData = s.readData := rfl
@[simp] theorem State.modSeq_regs (s : State) (a : Fin 4) (g : Sequencer → Sequencer) : (s.modSeq a g).regs = s.regs := rfl
@[simp] theorem State.modSeq_latches (s : State) (a : Fin 4) (g : Sequencer → Sequencer) : (s.modSeq a g).latches = s.latches := rfl
@[simp] theorem State.modSeq_heldRegs (s : State) (a : Fin 4) (g : Sequencer → Sequencer) : (s.modSeq a g).heldRegs = s.heldRegs := rfl
@[simp] theorem State.modSeq_funcs (s : State) (a : Fin 4) (g : Sequencer → Sequencer) : (s.modSeq a g).funcs = s.funcs := rfl
@[simp] theorem State.modSeq_cfgOp (s : State) (a : Fin 4) (g : Sequencer → Sequencer) : (s.modSeq a g).cfgOp = s.cfgOp := rfl
@[simp] theorem State.modSeq_pat (s : State) (a : Fin 4) (g : Sequencer → Sequencer) : (s.modSeq a g).pat = s.pat := rfl
@[simp] theorem State.modSeq_flt (s : State) (a : Fin 4) (g : Sequencer → Sequencer) : (s.modSeq a g).flt = s.flt := rfl
@[simp] theorem State.modSeq_nor (s : State) (a : Fin 4) (g : Sequencer → Sequencer) : (s.modSeq a g).nor = s.nor := rfl
@[simp] theorem State.modSeq_time (s : State) (a : Fin 4) (g : Sequencer → Sequencer) : (s.modSeq a g).time = s.time := rfl
@[simp] theorem State.modSeq_trace (s : State) (a : Fin 4) (g : Sequencer → Sequencer) : (s.modSeq a g).trace = s.trace := rfl
@[simp] theorem State.modSeq_host (s : State) (a : Fin 4) (g : Sequencer → Sequencer) : (s.modSeq a g).host = s.host := rfl
@[simp] theorem State.modSeq_own (s : State) (a : Fin 4) (g : Sequencer → Sequencer) : (s.modSeq a g).own = s.own := rfl
@[simp] theorem State.modSeq_mi (s : State) (a : Fin 4) (g : Sequencer → Sequencer) : (s.modSeq a g).mi = s.mi := rfl
@[simp] theorem State.modSeq_spaces (s : State) (a : Fin 4) (g : Sequencer → Sequencer) : (s.modSeq a g).spaces = s.spaces := rfl
@[simp] theorem State.modSeq_media (s : State) (a : Fin 4) (g : Sequencer → Sequencer) : (s.modSeq a g).media = s.media := rfl
@[simp] theorem State.modSeq_spn (s : State) (a : Fin 4) (g : Sequencer → Sequencer) : (s.modSeq a g).spn = s.spn := rfl
@[simp] theorem State.modSeq_pic (s : State) (a : Fin 4) (g : Sequencer → Sequencer) : (s.modSeq a g).pic = s.pic := rfl
@[simp] theorem State.modSeq_cast (s : State) (a : Fin 4) (g : Sequencer → Sequencer) : (s.modSeq a g).cast = s.cast := rfl
@[simp] theorem State.modSeq_cmp (s : State) (a : Fin 4) (g : Sequencer → Sequencer) : (s.modSeq a g).cmp = s.cmp := rfl
@[simp] theorem State.modSeq_pln (s : State) (a : Fin 4) (g : Sequencer → Sequencer) : (s.modSeq a g).pln = s.pln := rfl
@[simp] theorem State.modSeq_dram (s : State) (a : Fin 4) (g : Sequencer → Sequencer) : (s.modSeq a g).dram = s.dram := rfl
@[simp] theorem State.modSeq_activation (s : State) (a : Fin 4) (g : Sequencer → Sequencer) : (s.modSeq a g).activation = s.activation := rfl
@[simp] theorem State.modSeq_deleting (s : State) (a : Fin 4) (g : Sequencer → Sequencer) : (s.modSeq a g).deleting = s.deleting := rfl
@[simp] theorem State.modSeq_reg (s : State) (a : Fin 4) (g : Sequencer → Sequencer) (r : Nat) : (s.modSeq a g).reg r = s.reg r := rfl
@[simp] theorem State.modSeq_fld (s : State) (a : Fin 4) (g : Sequencer → Sequencer) (r : Nat) (f : Fld) : (s.modSeq a g).fld r f = s.fld r f := rfl
@[simp] theorem State.modSeq_flag (s : State) (a : Fin 4) (g : Sequencer → Sequencer) (r : Nat) (f : Fld) : (s.modSeq a g).flag r f = s.flag r f := rfl

/-! ## modJob -/
@[simp] theorem State.modJob_pending (s : State) (a q c : Nat) (g : CastJob → CastJob) : (s.modJob a q c g).pending = s.pending := rfl
@[simp] theorem State.modJob_now (s : State) (a q c : Nat) (g : CastJob → CastJob) : (s.modJob a q c g).now = s.now := rfl
@[simp] theorem State.modJob_fresh (s : State) (a q c : Nat) (g : CastJob → CastJob) : (s.modJob a q c g).fresh = s.fresh := rfl
@[simp] theorem State.modJob_readData (s : State) (a q c : Nat) (g : CastJob → CastJob) : (s.modJob a q c g).readData = s.readData := rfl
@[simp] theorem State.modJob_regs (s : State) (a q c : Nat) (g : CastJob → CastJob) : (s.modJob a q c g).regs = s.regs := rfl
@[simp] theorem State.modJob_latches (s : State) (a q c : Nat) (g : CastJob → CastJob) : (s.modJob a q c g).latches = s.latches := rfl
@[simp] theorem State.modJob_heldRegs (s : State) (a q c : Nat) (g : CastJob → CastJob) : (s.modJob a q c g).heldRegs = s.heldRegs := rfl
@[simp] theorem State.modJob_funcs (s : State) (a q c : Nat) (g : CastJob → CastJob) : (s.modJob a q c g).funcs = s.funcs := rfl
@[simp] theorem State.modJob_cfgOp (s : State) (a q c : Nat) (g : CastJob → CastJob) : (s.modJob a q c g).cfgOp = s.cfgOp := rfl
@[simp] theorem State.modJob_pat (s : State) (a q c : Nat) (g : CastJob → CastJob) : (s.modJob a q c g).pat = s.pat := rfl
@[simp] theorem State.modJob_flt (s : State) (a q c : Nat) (g : CastJob → CastJob) : (s.modJob a q c g).flt = s.flt := rfl
@[simp] theorem State.modJob_nor (s : State) (a q c : Nat) (g : CastJob → CastJob) : (s.modJob a q c g).nor = s.nor := rfl
@[simp] theorem State.modJob_time (s : State) (a q c : Nat) (g : CastJob → CastJob) : (s.modJob a q c g).time = s.time := rfl
@[simp] theorem State.modJob_trace (s : State) (a q c : Nat) (g : CastJob → CastJob) : (s.modJob a q c g).trace = s.trace := rfl
@[simp] theorem State.modJob_host (s : State) (a q c : Nat) (g : CastJob → CastJob) : (s.modJob a q c g).host = s.host := rfl
@[simp] theorem State.modJob_own (s : State) (a q c : Nat) (g : CastJob → CastJob) : (s.modJob a q c g).own = s.own := rfl
@[simp] theorem State.modJob_mi (s : State) (a q c : Nat) (g : CastJob → CastJob) : (s.modJob a q c g).mi = s.mi := rfl
@[simp] theorem State.modJob_spaces (s : State) (a q c : Nat) (g : CastJob → CastJob) : (s.modJob a q c g).spaces = s.spaces := rfl
@[simp] theorem State.modJob_acts (s : State) (a q c : Nat) (g : CastJob → CastJob) : (s.modJob a q c g).acts = s.acts := rfl
@[simp] theorem State.modJob_media (s : State) (a q c : Nat) (g : CastJob → CastJob) : (s.modJob a q c g).media = s.media := rfl
@[simp] theorem State.modJob_spn (s : State) (a q c : Nat) (g : CastJob → CastJob) : (s.modJob a q c g).spn = s.spn := rfl
@[simp] theorem State.modJob_pic (s : State) (a q c : Nat) (g : CastJob → CastJob) : (s.modJob a q c g).pic = s.pic := rfl
@[simp] theorem State.modJob_cmp (s : State) (a q c : Nat) (g : CastJob → CastJob) : (s.modJob a q c g).cmp = s.cmp := rfl
@[simp] theorem State.modJob_pln (s : State) (a q c : Nat) (g : CastJob → CastJob) : (s.modJob a q c g).pln = s.pln := rfl
@[simp] theorem State.modJob_dram (s : State) (a q c : Nat) (g : CastJob → CastJob) : (s.modJob a q c g).dram = s.dram := rfl
@[simp] theorem State.modJob_activation (s : State) (a q c : Nat) (g : CastJob → CastJob) : (s.modJob a q c g).activation = s.activation := rfl
@[simp] theorem State.modJob_deleting (s : State) (a q c : Nat) (g : CastJob → CastJob) : (s.modJob a q c g).deleting = s.deleting := rfl
@[simp] theorem State.modJob_reg (s : State) (a q c : Nat) (g : CastJob → CastJob) (r : Nat) : (s.modJob a q c g).reg r = s.reg r := rfl
@[simp] theorem State.modJob_fld (s : State) (a q c : Nat) (g : CastJob → CastJob) (r : Nat) (f : Fld) : (s.modJob a q c g).fld r f = s.fld r f := rfl
@[simp] theorem State.modJob_flag (s : State) (a q c : Nat) (g : CastJob → CastJob) (r : Nat) (f : Fld) : (s.modJob a q c g).flag r f = s.flag r f := rfl

/-! ## modCmp -/
@[simp] theorem State.modCmp_pending (s : State) (k : CmpJob) (g : CmpJob → CmpJob) : (s.modCmp k g).pending = s.pending := rfl
@[simp] theorem State.modCmp_now (s : State) (k : CmpJob) (g : CmpJob → CmpJob) : (s.modCmp k g).now = s.now := rfl
@[simp] theorem State.modCmp_fresh (s : State) (k : CmpJob) (g : CmpJob → CmpJob) : (s.modCmp k g).fresh = s.fresh := rfl
@[simp] theorem State.modCmp_readData (s : State) (k : CmpJob) (g : CmpJob → CmpJob) : (s.modCmp k g).readData = s.readData := rfl
@[simp] theorem State.modCmp_regs (s : State) (k : CmpJob) (g : CmpJob → CmpJob) : (s.modCmp k g).regs = s.regs := rfl
@[simp] theorem State.modCmp_latches (s : State) (k : CmpJob) (g : CmpJob → CmpJob) : (s.modCmp k g).latches = s.latches := rfl
@[simp] theorem State.modCmp_heldRegs (s : State) (k : CmpJob) (g : CmpJob → CmpJob) : (s.modCmp k g).heldRegs = s.heldRegs := rfl
@[simp] theorem State.modCmp_funcs (s : State) (k : CmpJob) (g : CmpJob → CmpJob) : (s.modCmp k g).funcs = s.funcs := rfl
@[simp] theorem State.modCmp_cfgOp (s : State) (k : CmpJob) (g : CmpJob → CmpJob) : (s.modCmp k g).cfgOp = s.cfgOp := rfl
@[simp] theorem State.modCmp_pat (s : State) (k : CmpJob) (g : CmpJob → CmpJob) : (s.modCmp k g).pat = s.pat := rfl
@[simp] theorem State.modCmp_flt (s : State) (k : CmpJob) (g : CmpJob → CmpJob) : (s.modCmp k g).flt = s.flt := rfl
@[simp] theorem State.modCmp_nor (s : State) (k : CmpJob) (g : CmpJob → CmpJob) : (s.modCmp k g).nor = s.nor := rfl
@[simp] theorem State.modCmp_time (s : State) (k : CmpJob) (g : CmpJob → CmpJob) : (s.modCmp k g).time = s.time := rfl
@[simp] theorem State.modCmp_trace (s : State) (k : CmpJob) (g : CmpJob → CmpJob) : (s.modCmp k g).trace = s.trace := rfl
@[simp] theorem State.modCmp_host (s : State) (k : CmpJob) (g : CmpJob → CmpJob) : (s.modCmp k g).host = s.host := rfl
@[simp] theorem State.modCmp_own (s : State) (k : CmpJob) (g : CmpJob → CmpJob) : (s.modCmp k g).own = s.own := rfl
@[simp] theorem State.modCmp_mi (s : State) (k : CmpJob) (g : CmpJob → CmpJob) : (s.modCmp k g).mi = s.mi := rfl
@[simp] theorem State.modCmp_spaces (s : State) (k : CmpJob) (g : CmpJob → CmpJob) : (s.modCmp k g).spaces = s.spaces := rfl
@[simp] theorem State.modCmp_acts (s : State) (k : CmpJob) (g : CmpJob → CmpJob) : (s.modCmp k g).acts = s.acts := rfl
@[simp] theorem State.modCmp_media (s : State) (k : CmpJob) (g : CmpJob → CmpJob) : (s.modCmp k g).media = s.media := rfl
@[simp] theorem State.modCmp_spn (s : State) (k : CmpJob) (g : CmpJob → CmpJob) : (s.modCmp k g).spn = s.spn := rfl
@[simp] theorem State.modCmp_pic (s : State) (k : CmpJob) (g : CmpJob → CmpJob) : (s.modCmp k g).pic = s.pic := rfl
@[simp] theorem State.modCmp_cast (s : State) (k : CmpJob) (g : CmpJob → CmpJob) : (s.modCmp k g).cast = s.cast := rfl
@[simp] theorem State.modCmp_pln (s : State) (k : CmpJob) (g : CmpJob → CmpJob) : (s.modCmp k g).pln = s.pln := rfl
@[simp] theorem State.modCmp_dram (s : State) (k : CmpJob) (g : CmpJob → CmpJob) : (s.modCmp k g).dram = s.dram := rfl
@[simp] theorem State.modCmp_activation (s : State) (k : CmpJob) (g : CmpJob → CmpJob) : (s.modCmp k g).activation = s.activation := rfl
@[simp] theorem State.modCmp_deleting (s : State) (k : CmpJob) (g : CmpJob → CmpJob) : (s.modCmp k g).deleting = s.deleting := rfl
@[simp] theorem State.modCmp_reg (s : State) (k : CmpJob) (g : CmpJob → CmpJob) (r : Nat) : (s.modCmp k g).reg r = s.reg r := rfl
@[simp] theorem State.modCmp_fld (s : State) (k : CmpJob) (g : CmpJob → CmpJob) (r : Nat) (f : Fld) : (s.modCmp k g).fld r f = s.fld r f := rfl
@[simp] theorem State.modCmp_flag (s : State) (k : CmpJob) (g : CmpJob → CmpJob) (r : Nat) (f : Fld) : (s.modCmp k g).flag r f = s.flag r f := rfl

/-! ## modConn -/
@[simp] theorem State.modConn_pending (s : State) (k : Nat) (g : Conn → Conn) : (s.modConn k g).pending = s.pending := rfl
@[simp] theorem State.modConn_now (s : State) (k : Nat) (g : Conn → Conn) : (s.modConn k g).now = s.now := rfl
@[simp] theorem State.modConn_fresh (s : State) (k : Nat) (g : Conn → Conn) : (s.modConn k g).fresh = s.fresh := rfl
@[simp] theorem State.modConn_readData (s : State) (k : Nat) (g : Conn → Conn) : (s.modConn k g).readData = s.readData := rfl
@[simp] theorem State.modConn_regs (s : State) (k : Nat) (g : Conn → Conn) : (s.modConn k g).regs = s.regs := rfl
@[simp] theorem State.modConn_latches (s : State) (k : Nat) (g : Conn → Conn) : (s.modConn k g).latches = s.latches := rfl
@[simp] theorem State.modConn_heldRegs (s : State) (k : Nat) (g : Conn → Conn) : (s.modConn k g).heldRegs = s.heldRegs := rfl
@[simp] theorem State.modConn_funcs (s : State) (k : Nat) (g : Conn → Conn) : (s.modConn k g).funcs = s.funcs := rfl
@[simp] theorem State.modConn_cfgOp (s : State) (k : Nat) (g : Conn → Conn) : (s.modConn k g).cfgOp = s.cfgOp := rfl
@[simp] theorem State.modConn_pat (s : State) (k : Nat) (g : Conn → Conn) : (s.modConn k g).pat = s.pat := rfl
@[simp] theorem State.modConn_flt (s : State) (k : Nat) (g : Conn → Conn) : (s.modConn k g).flt = s.flt := rfl
@[simp] theorem State.modConn_nor (s : State) (k : Nat) (g : Conn → Conn) : (s.modConn k g).nor = s.nor := rfl
@[simp] theorem State.modConn_time (s : State) (k : Nat) (g : Conn → Conn) : (s.modConn k g).time = s.time := rfl
@[simp] theorem State.modConn_trace (s : State) (k : Nat) (g : Conn → Conn) : (s.modConn k g).trace = s.trace := rfl
@[simp] theorem State.modConn_own (s : State) (k : Nat) (g : Conn → Conn) : (s.modConn k g).own = s.own := rfl
@[simp] theorem State.modConn_mi (s : State) (k : Nat) (g : Conn → Conn) : (s.modConn k g).mi = s.mi := rfl
@[simp] theorem State.modConn_spaces (s : State) (k : Nat) (g : Conn → Conn) : (s.modConn k g).spaces = s.spaces := rfl
@[simp] theorem State.modConn_acts (s : State) (k : Nat) (g : Conn → Conn) : (s.modConn k g).acts = s.acts := rfl
@[simp] theorem State.modConn_media (s : State) (k : Nat) (g : Conn → Conn) : (s.modConn k g).media = s.media := rfl
@[simp] theorem State.modConn_spn (s : State) (k : Nat) (g : Conn → Conn) : (s.modConn k g).spn = s.spn := rfl
@[simp] theorem State.modConn_pic (s : State) (k : Nat) (g : Conn → Conn) : (s.modConn k g).pic = s.pic := rfl
@[simp] theorem State.modConn_cast (s : State) (k : Nat) (g : Conn → Conn) : (s.modConn k g).cast = s.cast := rfl
@[simp] theorem State.modConn_cmp (s : State) (k : Nat) (g : Conn → Conn) : (s.modConn k g).cmp = s.cmp := rfl
@[simp] theorem State.modConn_pln (s : State) (k : Nat) (g : Conn → Conn) : (s.modConn k g).pln = s.pln := rfl
@[simp] theorem State.modConn_dram (s : State) (k : Nat) (g : Conn → Conn) : (s.modConn k g).dram = s.dram := rfl
@[simp] theorem State.modConn_activation (s : State) (k : Nat) (g : Conn → Conn) : (s.modConn k g).activation = s.activation := rfl
@[simp] theorem State.modConn_deleting (s : State) (k : Nat) (g : Conn → Conn) : (s.modConn k g).deleting = s.deleting := rfl
@[simp] theorem State.modConn_reg (s : State) (k : Nat) (g : Conn → Conn) (r : Nat) : (s.modConn k g).reg r = s.reg r := rfl
@[simp] theorem State.modConn_fld (s : State) (k : Nat) (g : Conn → Conn) (r : Nat) (f : Fld) : (s.modConn k g).fld r f = s.fld r f := rfl
@[simp] theorem State.modConn_flag (s : State) (k : Nat) (g : Conn → Conn) (r : Nat) (f : Fld) : (s.modConn k g).flag r f = s.flag r f := rfl

/-! ## modCtx -/
@[simp] theorem State.modCtx_pending (s : State) (a q c : Nat) (g : Ctx → Ctx) : (s.modCtx a q c g).pending = s.pending := rfl
@[simp] theorem State.modCtx_now (s : State) (a q c : Nat) (g : Ctx → Ctx) : (s.modCtx a q c g).now = s.now := rfl
@[simp] theorem State.modCtx_fresh (s : State) (a q c : Nat) (g : Ctx → Ctx) : (s.modCtx a q c g).fresh = s.fresh := rfl
@[simp] theorem State.modCtx_readData (s : State) (a q c : Nat) (g : Ctx → Ctx) : (s.modCtx a q c g).readData = s.readData := rfl
@[simp] theorem State.modCtx_regs (s : State) (a q c : Nat) (g : Ctx → Ctx) : (s.modCtx a q c g).regs = s.regs := rfl
@[simp] theorem State.modCtx_latches (s : State) (a q c : Nat) (g : Ctx → Ctx) : (s.modCtx a q c g).latches = s.latches := rfl
@[simp] theorem State.modCtx_heldRegs (s : State) (a q c : Nat) (g : Ctx → Ctx) : (s.modCtx a q c g).heldRegs = s.heldRegs := rfl
@[simp] theorem State.modCtx_funcs (s : State) (a q c : Nat) (g : Ctx → Ctx) : (s.modCtx a q c g).funcs = s.funcs := rfl
@[simp] theorem State.modCtx_cfgOp (s : State) (a q c : Nat) (g : Ctx → Ctx) : (s.modCtx a q c g).cfgOp = s.cfgOp := rfl
@[simp] theorem State.modCtx_pat (s : State) (a q c : Nat) (g : Ctx → Ctx) : (s.modCtx a q c g).pat = s.pat := rfl
@[simp] theorem State.modCtx_flt (s : State) (a q c : Nat) (g : Ctx → Ctx) : (s.modCtx a q c g).flt = s.flt := rfl
@[simp] theorem State.modCtx_nor (s : State) (a q c : Nat) (g : Ctx → Ctx) : (s.modCtx a q c g).nor = s.nor := rfl
@[simp] theorem State.modCtx_time (s : State) (a q c : Nat) (g : Ctx → Ctx) : (s.modCtx a q c g).time = s.time := rfl
@[simp] theorem State.modCtx_trace (s : State) (a q c : Nat) (g : Ctx → Ctx) : (s.modCtx a q c g).trace = s.trace := rfl
@[simp] theorem State.modCtx_own (s : State) (a q c : Nat) (g : Ctx → Ctx) : (s.modCtx a q c g).own = s.own := rfl
@[simp] theorem State.modCtx_mi (s : State) (a q c : Nat) (g : Ctx → Ctx) : (s.modCtx a q c g).mi = s.mi := rfl
@[simp] theorem State.modCtx_spaces (s : State) (a q c : Nat) (g : Ctx → Ctx) : (s.modCtx a q c g).spaces = s.spaces := rfl
@[simp] theorem State.modCtx_acts (s : State) (a q c : Nat) (g : Ctx → Ctx) : (s.modCtx a q c g).acts = s.acts := rfl
@[simp] theorem State.modCtx_media (s : State) (a q c : Nat) (g : Ctx → Ctx) : (s.modCtx a q c g).media = s.media := rfl
@[simp] theorem State.modCtx_spn (s : State) (a q c : Nat) (g : Ctx → Ctx) : (s.modCtx a q c g).spn = s.spn := rfl
@[simp] theorem State.modCtx_pic (s : State) (a q c : Nat) (g : Ctx → Ctx) : (s.modCtx a q c g).pic = s.pic := rfl
@[simp] theorem State.modCtx_cast (s : State) (a q c : Nat) (g : Ctx → Ctx) : (s.modCtx a q c g).cast = s.cast := rfl
@[simp] theorem State.modCtx_cmp (s : State) (a q c : Nat) (g : Ctx → Ctx) : (s.modCtx a q c g).cmp = s.cmp := rfl
@[simp] theorem State.modCtx_pln (s : State) (a q c : Nat) (g : Ctx → Ctx) : (s.modCtx a q c g).pln = s.pln := rfl
@[simp] theorem State.modCtx_dram (s : State) (a q c : Nat) (g : Ctx → Ctx) : (s.modCtx a q c g).dram = s.dram := rfl
@[simp] theorem State.modCtx_activation (s : State) (a q c : Nat) (g : Ctx → Ctx) : (s.modCtx a q c g).activation = s.activation := rfl
@[simp] theorem State.modCtx_deleting (s : State) (a q c : Nat) (g : Ctx → Ctx) : (s.modCtx a q c g).deleting = s.deleting := rfl
@[simp] theorem State.modCtx_reg (s : State) (a q c : Nat) (g : Ctx → Ctx) (r : Nat) : (s.modCtx a q c g).reg r = s.reg r := rfl
@[simp] theorem State.modCtx_fld (s : State) (a q c : Nat) (g : Ctx → Ctx) (r : Nat) (f : Fld) : (s.modCtx a q c g).fld r f = s.fld r f := rfl
@[simp] theorem State.modCtx_flag (s : State) (a q c : Nat) (g : Ctx → Ctx) (r : Nat) (f : Fld) : (s.modCtx a q c g).flag r f = s.flag r f := rfl

/-! ## modAssoc -/
@[simp] theorem State.modAssoc_pending (s : State) (a : Nat) (g : Assoc → Assoc) : (s.modAssoc a g).pending = s.pending := rfl
@[simp] theorem State.modAssoc_now (s : State) (a : Nat) (g : Assoc → Assoc) : (s.modAssoc a g).now = s.now := rfl
@[simp] theorem State.modAssoc_fresh (s : State) (a : Nat) (g : Assoc → Assoc) : (s.modAssoc a g).fresh = s.fresh := rfl
@[simp] theorem State.modAssoc_readData (s : State) (a : Nat) (g : Assoc → Assoc) : (s.modAssoc a g).readData = s.readData := rfl
@[simp] theorem State.modAssoc_regs (s : State) (a : Nat) (g : Assoc → Assoc) : (s.modAssoc a g).regs = s.regs := rfl
@[simp] theorem State.modAssoc_latches (s : State) (a : Nat) (g : Assoc → Assoc) : (s.modAssoc a g).latches = s.latches := rfl
@[simp] theorem State.modAssoc_heldRegs (s : State) (a : Nat) (g : Assoc → Assoc) : (s.modAssoc a g).heldRegs = s.heldRegs := rfl
@[simp] theorem State.modAssoc_funcs (s : State) (a : Nat) (g : Assoc → Assoc) : (s.modAssoc a g).funcs = s.funcs := rfl
@[simp] theorem State.modAssoc_cfgOp (s : State) (a : Nat) (g : Assoc → Assoc) : (s.modAssoc a g).cfgOp = s.cfgOp := rfl
@[simp] theorem State.modAssoc_pat (s : State) (a : Nat) (g : Assoc → Assoc) : (s.modAssoc a g).pat = s.pat := rfl
@[simp] theorem State.modAssoc_flt (s : State) (a : Nat) (g : Assoc → Assoc) : (s.modAssoc a g).flt = s.flt := rfl
@[simp] theorem State.modAssoc_nor (s : State) (a : Nat) (g : Assoc → Assoc) : (s.modAssoc a g).nor = s.nor := rfl
@[simp] theorem State.modAssoc_time (s : State) (a : Nat) (g : Assoc → Assoc) : (s.modAssoc a g).time = s.time := rfl
@[simp] theorem State.modAssoc_trace (s : State) (a : Nat) (g : Assoc → Assoc) : (s.modAssoc a g).trace = s.trace := rfl
@[simp] theorem State.modAssoc_own (s : State) (a : Nat) (g : Assoc → Assoc) : (s.modAssoc a g).own = s.own := rfl
@[simp] theorem State.modAssoc_mi (s : State) (a : Nat) (g : Assoc → Assoc) : (s.modAssoc a g).mi = s.mi := rfl
@[simp] theorem State.modAssoc_spaces (s : State) (a : Nat) (g : Assoc → Assoc) : (s.modAssoc a g).spaces = s.spaces := rfl
@[simp] theorem State.modAssoc_acts (s : State) (a : Nat) (g : Assoc → Assoc) : (s.modAssoc a g).acts = s.acts := rfl
@[simp] theorem State.modAssoc_media (s : State) (a : Nat) (g : Assoc → Assoc) : (s.modAssoc a g).media = s.media := rfl
@[simp] theorem State.modAssoc_spn (s : State) (a : Nat) (g : Assoc → Assoc) : (s.modAssoc a g).spn = s.spn := rfl
@[simp] theorem State.modAssoc_pic (s : State) (a : Nat) (g : Assoc → Assoc) : (s.modAssoc a g).pic = s.pic := rfl
@[simp] theorem State.modAssoc_cast (s : State) (a : Nat) (g : Assoc → Assoc) : (s.modAssoc a g).cast = s.cast := rfl
@[simp] theorem State.modAssoc_cmp (s : State) (a : Nat) (g : Assoc → Assoc) : (s.modAssoc a g).cmp = s.cmp := rfl
@[simp] theorem State.modAssoc_pln (s : State) (a : Nat) (g : Assoc → Assoc) : (s.modAssoc a g).pln = s.pln := rfl
@[simp] theorem State.modAssoc_dram (s : State) (a : Nat) (g : Assoc → Assoc) : (s.modAssoc a g).dram = s.dram := rfl
@[simp] theorem State.modAssoc_activation (s : State) (a : Nat) (g : Assoc → Assoc) : (s.modAssoc a g).activation = s.activation := rfl
@[simp] theorem State.modAssoc_deleting (s : State) (a : Nat) (g : Assoc → Assoc) : (s.modAssoc a g).deleting = s.deleting := rfl
@[simp] theorem State.modAssoc_reg (s : State) (a : Nat) (g : Assoc → Assoc) (r : Nat) : (s.modAssoc a g).reg r = s.reg r := rfl
@[simp] theorem State.modAssoc_fld (s : State) (a : Nat) (g : Assoc → Assoc) (r : Nat) (f : Fld) : (s.modAssoc a g).fld r f = s.fld r f := rfl
@[simp] theorem State.modAssoc_flag (s : State) (a : Nat) (g : Assoc → Assoc) (r : Nat) (f : Fld) : (s.modAssoc a g).flag r f = s.flag r f := rfl

/-! ## modQueue -/
@[simp] theorem State.modQueue_pending (s : State) (q : Nat) (g : Queue → Queue) : (s.modQueue q g).pending = s.pending := rfl
@[simp] theorem State.modQueue_now (s : State) (q : Nat) (g : Queue → Queue) : (s.modQueue q g).now = s.now := rfl
@[simp] theorem State.modQueue_fresh (s : State) (q : Nat) (g : Queue → Queue) : (s.modQueue q g).fresh = s.fresh := rfl
@[simp] theorem State.modQueue_readData (s : State) (q : Nat) (g : Queue → Queue) : (s.modQueue q g).readData = s.readData := rfl
@[simp] theorem State.modQueue_regs (s : State) (q : Nat) (g : Queue → Queue) : (s.modQueue q g).regs = s.regs := rfl
@[simp] theorem State.modQueue_latches (s : State) (q : Nat) (g : Queue → Queue) : (s.modQueue q g).latches = s.latches := rfl
@[simp] theorem State.modQueue_heldRegs (s : State) (q : Nat) (g : Queue → Queue) : (s.modQueue q g).heldRegs = s.heldRegs := rfl
@[simp] theorem State.modQueue_funcs (s : State) (q : Nat) (g : Queue → Queue) : (s.modQueue q g).funcs = s.funcs := rfl
@[simp] theorem State.modQueue_cfgOp (s : State) (q : Nat) (g : Queue → Queue) : (s.modQueue q g).cfgOp = s.cfgOp := rfl
@[simp] theorem State.modQueue_pat (s : State) (q : Nat) (g : Queue → Queue) : (s.modQueue q g).pat = s.pat := rfl
@[simp] theorem State.modQueue_flt (s : State) (q : Nat) (g : Queue → Queue) : (s.modQueue q g).flt = s.flt := rfl
@[simp] theorem State.modQueue_nor (s : State) (q : Nat) (g : Queue → Queue) : (s.modQueue q g).nor = s.nor := rfl
@[simp] theorem State.modQueue_time (s : State) (q : Nat) (g : Queue → Queue) : (s.modQueue q g).time = s.time := rfl
@[simp] theorem State.modQueue_trace (s : State) (q : Nat) (g : Queue → Queue) : (s.modQueue q g).trace = s.trace := rfl
@[simp] theorem State.modQueue_own (s : State) (q : Nat) (g : Queue → Queue) : (s.modQueue q g).own = s.own := rfl
@[simp] theorem State.modQueue_mi (s : State) (q : Nat) (g : Queue → Queue) : (s.modQueue q g).mi = s.mi := rfl
@[simp] theorem State.modQueue_spaces (s : State) (q : Nat) (g : Queue → Queue) : (s.modQueue q g).spaces = s.spaces := rfl
@[simp] theorem State.modQueue_acts (s : State) (q : Nat) (g : Queue → Queue) : (s.modQueue q g).acts = s.acts := rfl
@[simp] theorem State.modQueue_media (s : State) (q : Nat) (g : Queue → Queue) : (s.modQueue q g).media = s.media := rfl
@[simp] theorem State.modQueue_spn (s : State) (q : Nat) (g : Queue → Queue) : (s.modQueue q g).spn = s.spn := rfl
@[simp] theorem State.modQueue_pic (s : State) (q : Nat) (g : Queue → Queue) : (s.modQueue q g).pic = s.pic := rfl
@[simp] theorem State.modQueue_cast (s : State) (q : Nat) (g : Queue → Queue) : (s.modQueue q g).cast = s.cast := rfl
@[simp] theorem State.modQueue_cmp (s : State) (q : Nat) (g : Queue → Queue) : (s.modQueue q g).cmp = s.cmp := rfl
@[simp] theorem State.modQueue_pln (s : State) (q : Nat) (g : Queue → Queue) : (s.modQueue q g).pln = s.pln := rfl
@[simp] theorem State.modQueue_dram (s : State) (q : Nat) (g : Queue → Queue) : (s.modQueue q g).dram = s.dram := rfl
@[simp] theorem State.modQueue_activation (s : State) (q : Nat) (g : Queue → Queue) : (s.modQueue q g).activation = s.activation := rfl
@[simp] theorem State.modQueue_deleting (s : State) (q : Nat) (g : Queue → Queue) : (s.modQueue q g).deleting = s.deleting := rfl
@[simp] theorem State.modQueue_reg (s : State) (q : Nat) (g : Queue → Queue) (r : Nat) : (s.modQueue q g).reg r = s.reg r := rfl
@[simp] theorem State.modQueue_fld (s : State) (q : Nat) (g : Queue → Queue) (r : Nat) (f : Fld) : (s.modQueue q g).fld r f = s.fld r f := rfl
@[simp] theorem State.modQueue_flag (s : State) (q : Nat) (g : Queue → Queue) (r : Nat) (f : Fld) : (s.modQueue q g).flag r f = s.flag r f := rfl

end Sys2Proof.Machine
end

