-- ==== Sys2Proof/Laws/Events.lean ====
section
/-! SUPPORT. What recording an event can do: it touches the fault and patina registers, ECC_MODE, the event totals, the escalation timers
and the capture queue, and nothing else. -/

namespace Sys2Proof.Machine

open Sys2Proof

/-- What an event may change: t is s but for these, and every register that is no EventReg holds what it held. -/
def EventOnly (s t : State) : Prop :=
  (∃ regs latches pat trace corr unc fat esc lat quiet, t = { s with
    regs := regs, latches := latches, pat := pat, trace := trace
    nor := { s.nor with corrTotal := corr, uncorrTotal := unc, fatalTotal := fat }
    flt := { s.flt with escAt := esc, latchAt := lat, quietFrom := quiet } }) ∧
  ∀ a, ¬EventReg a → t.reg a = s.reg a

theorem EventOnly.refl (s : State) : EventOnly s s := ⟨⟨s.regs, s.latches, s.pat, s.trace, _, _, _, _, _, _, rfl⟩, fun _ _ => rfl⟩

theorem EventOnly.trans {s t u : State} (h : EventOnly s t) (k : EventOnly t u) : EventOnly s u := by
  obtain ⟨⟨r, l, p, tr, c, n, f, e, la, q, rfl⟩, hr⟩ := h
  obtain ⟨⟨r', l', p', tr', c', n', f', e', la', q', rfl⟩, kr⟩ := k
  exact ⟨⟨r', l', p', tr', c', n', f', e', la', q', rfl⟩, fun a ha => (kr a ha).trans (hr a ha)⟩

/-- A store to an EventReg. -/
theorem EventOnly.setFld {s t : State} (h : EventOnly s t) {a : Nat} (f : Fld) (v : Nat) (ha : EventReg a) : EventOnly s (t.setFld a f v) := by
  refine h.trans ⟨⟨(t.setFld a f v).regs, t.latches, t.pat, t.trace, _, _, _, _, _, _, rfl⟩, fun b hb => ?_⟩
  refine State.reg_setFld_other t f v ?_
  rintro rfl
  exact hb ha

theorem EventOnly.setFlag {s t : State} (h : EventOnly s t) {a : Nat} (f : Fld) (v : Bool) (ha : EventReg a) : EventOnly s (t.setFlag a f v) :=
  h.setFld f (b2n v) ha

theorem EventOnly.countFld {s t : State} (h : EventOnly s t) {a : Nat} (f : Fld) (ha : EventReg a) : EventOnly s (t.countFld a f) :=
  h.setFld f _ ha

theorem EventOnly.ite {s t u : State} {p : Prop} [Decidable p] (h : EventOnly s t) (k : EventOnly s u) : EventOnly s (if p then t else u) := by
  split
  · exact h
  · exact k

theorem eventReg_blk {b : Nat} (h : b < 38) : EventReg (Adr.FLT_BLK b) := by
  simp only [EventReg, Adr.FLT_BLK]
  omega

theorem eventReg_region (b : Nat) : EventReg (Adr.FLT_REG (blockRegion b)) ∧ EventReg (Adr.FLT_ESC (blockRegion b)) := by
  have : blockRegion b ≤ 6 := by
    unfold blockRegion
    grind
  simp only [EventReg, Adr.FLT_REG, Adr.FLT_ESC]
  omega

theorem State.collect_only (s : State) {a : Nat} (id : Nat) (c : EvClass) (h : EventReg a) : EventOnly s (s.collect a id c) := by
  have name {t : State} (ht : EventOnly s t) : EventOnly s (t.nameEvent a id c) := (ht.setFld _ _ h).setFld _ _ h
  unfold State.collect
  refine .ite (.ite (name ((EventOnly.refl s).setFlag _ _ h)) ((EventOnly.refl s).setFlag _ _ h)) ?_
  exact (name ((EventOnly.refl s).setFlag _ _ h)).trans ⟨⟨_, _, _, _, _, _, _, _, _, _, rfl⟩, fun _ _ => rfl⟩

theorem State.latchEvent_only (s : State) {b : Nat} (id : Nat) (c : EvClass) (h : b < 38) : EventOnly s (s.latchEvent b id c) :=
  ((s.collect_only id c (eventReg_blk h)).trans (State.collect_only _ id c (eventReg_region b).1)).trans
    (State.collect_only _ id c (.inl (by decide)))

theorem State.escalate_only (s : State) {r : Nat} (c : EvClass) (h : EventReg (Adr.FLT_ESC r)) : EventOnly s (s.escalate r c) := by
  have hst : EventReg Adr.FLT_STATE := .inl (by decide)
  have h1 : EventOnly s ((s.setFlag (Adr.FLT_ESC r) Fld.FLT_ESC_running true).setFld (Adr.FLT_ESC r) Fld.FLT_ESC_pending
      (if c = .fatal then 2 else 1)) := ((EventOnly.refl s).setFlag _ _ h).setFld _ _ h
  unfold State.escalate
  refine .ite (.ite ((EventOnly.refl s).setFld _ _ h) (EventOnly.refl s)) ?_
  extract_lets s1 f s2 s3
  have h2 : EventOnly s s2 := EventOnly.trans h1 ⟨⟨s1.regs, s1.latches, s1.pat, s1.trace, _, _, _, _, _, _, rfl⟩, fun _ _ => rfl⟩
  have h3 : EventOnly s s3 := .ite (h2.setFld _ _ hst) h2
  exact .ite (h3.setFld _ _ (.inr rfl)) h3

theorem State.patCapture_only (s : State) (e : PatEntry) : EventOnly s (s.patCapture e) := by
  unfold State.patCapture
  refine .ite ?_ ((EventOnly.refl s).countFld _ (.inl (by decide)))
  extract_lets s1
  have h1 : EventOnly s s1 := ⟨⟨s1.regs, s1.latches, s1.pat, s1.trace, _, _, _, _, _, _, rfl⟩, fun _ _ => rfl⟩
  exact .ite (h1.trans ⟨⟨s1.regs, s1.latches, s1.pat, _, _, _, _, _, _, _, rfl⟩, fun _ _ => rfl⟩) h1

theorem State.noteEvent_only (s : State) (id : Nat) (c : EvClass) (d e fl : Nat) : EventOnly s (s.noteEvent id c d e fl) := by
  have h0 (f : Fld) : EventOnly s (s.countFld Adr.FLT_CNT f) := (EventOnly.refl s).countFld f (.inl (by decide))
  have hn (t : State) (x y z : Nat) : EventOnly t { t with nor := { t.nor with corrTotal := x, uncorrTotal := y, fatalTotal := z } } :=
    ⟨⟨t.regs, t.latches, t.pat, t.trace, _, _, _, _, _, _, rfl⟩, fun _ _ => rfl⟩
  unfold State.noteEvent
  extract_lets f s0 n s1 ent lat
  have h1 : EventOnly s s1 := by
    cases c with
    | corrected => exact (h0 _).trans (hn _ _ _ _)
    | uncorrected => exact (h0 _).trans (hn _ _ _ _)
    | fatal => exact (h0 _).trans (hn _ _ _ _)
  refine .ite (EventOnly.trans (h1.trans ?_) (State.patCapture_only _ _)) h1
  exact ⟨⟨s1.regs, _, s1.pat, s1.trace, _, _, _, _, _, _, rfl⟩, fun _ _ => rfl⟩

/-- An event recorded without a timer. -/
theorem State.eventAt_only (s : State) {b : Nat} (id d e : Nat) (h : b < 38) : EventOnly s (s.eventAt b id d e) := by
  have hq (t : State) (q : Nat) : EventOnly t { t with flt := { t.flt with quietFrom := q } } :=
    ⟨⟨t.regs, t.latches, t.pat, t.trace, _, _, _, _, _, _, rfl⟩, fun _ _ => rfl⟩
  unfold State.eventAt
  split
  · exact .refl s
  · exact s.noteEvent_only _ _ _ _ _
  · exact ((s.noteEvent_only _ _ _ _ _).trans (State.latchEvent_only _ _ _ h)).trans (hq _ _)

/-- An event recorded in a block. -/
theorem State.eventIn_only (s : State) {b : Nat} (id d e : Nat) (h : b < 38) : EventOnly s (s.eventIn b id d e) := by
  have h1 := s.eventAt_only id d e h
  unfold State.eventIn
  dsimp only
  split
  · exact h1.trans (State.escalate_only _ _ (eventReg_region b).2)
  · exact h1.trans (State.escalate_only _ _ (eventReg_region b).2)
  · exact h1

theorem eventBlock_lt (id : Nat) : eventBlock id < 38 := by
  unfold eventBlock
  grind (splits := 20)

/-- An event recorded in the block of its ID. -/
theorem State.event_only (s : State) (id d e : Nat) : EventOnly s (s.event id d e) := s.eventIn_only id d e (eventBlock_lt id)

/-- An actuator's event. -/
theorem State.actEvent_only (s : State) (a : Fin 4) (off d e : Nat) : EventOnly s (s.actEvent a off d e) :=
  s.eventIn_only _ d e (by omega)

/-- An event leaves every other register alone. -/
theorem EventOnly.reg {s t : State} (h : EventOnly s t) {a : Nat} (ha : ¬EventReg a) : t.reg a = s.reg a := h.2 a ha

theorem EventOnly.fld {s t : State} (h : EventOnly s t) {a : Nat} (f : Fld) (ha : ¬EventReg a) : t.fld a f = s.fld a f := by
  simp [State.fld, h.2 a ha]

theorem EventOnly.flag {s t : State} (h : EventOnly s t) {a : Nat} (f : Fld) (ha : ¬EventReg a) : t.flag a f = s.flag a f := by
  simp [State.flag, h.fld f ha]

theorem EventOnly.pending {s t : State} (h : EventOnly s t) : t.pending = s.pending := by
  obtain ⟨⟨_, _, _, _, _, _, _, _, _, _, rfl⟩, _⟩ := h
  rfl

theorem EventOnly.now {s t : State} (h : EventOnly s t) : t.now = s.now := by
  obtain ⟨⟨_, _, _, _, _, _, _, _, _, _, rfl⟩, _⟩ := h
  rfl

theorem EventOnly.fresh {s t : State} (h : EventOnly s t) : t.fresh = s.fresh := by
  obtain ⟨⟨_, _, _, _, _, _, _, _, _, _, rfl⟩, _⟩ := h
  rfl

theorem EventOnly.readData {s t : State} (h : EventOnly s t) : t.readData = s.readData := by
  obtain ⟨⟨_, _, _, _, _, _, _, _, _, _, rfl⟩, _⟩ := h
  rfl

theorem EventOnly.heldRegs {s t : State} (h : EventOnly s t) : t.heldRegs = s.heldRegs := by
  obtain ⟨⟨_, _, _, _, _, _, _, _, _, _, rfl⟩, _⟩ := h
  rfl

theorem EventOnly.funcs {s t : State} (h : EventOnly s t) : t.funcs = s.funcs := by
  obtain ⟨⟨_, _, _, _, _, _, _, _, _, _, rfl⟩, _⟩ := h
  rfl

theorem EventOnly.cfgOp {s t : State} (h : EventOnly s t) : t.cfgOp = s.cfgOp := by
  obtain ⟨⟨_, _, _, _, _, _, _, _, _, _, rfl⟩, _⟩ := h
  rfl

theorem EventOnly.time {s t : State} (h : EventOnly s t) : t.time = s.time := by
  obtain ⟨⟨_, _, _, _, _, _, _, _, _, _, rfl⟩, _⟩ := h
  rfl

theorem EventOnly.host {s t : State} (h : EventOnly s t) : t.host = s.host := by
  obtain ⟨⟨_, _, _, _, _, _, _, _, _, _, rfl⟩, _⟩ := h
  rfl

theorem EventOnly.own {s t : State} (h : EventOnly s t) : t.own = s.own := by
  obtain ⟨⟨_, _, _, _, _, _, _, _, _, _, rfl⟩, _⟩ := h
  rfl

theorem EventOnly.mi {s t : State} (h : EventOnly s t) : t.mi = s.mi := by
  obtain ⟨⟨_, _, _, _, _, _, _, _, _, _, rfl⟩, _⟩ := h
  rfl

theorem EventOnly.spaces {s t : State} (h : EventOnly s t) : t.spaces = s.spaces := by
  obtain ⟨⟨_, _, _, _, _, _, _, _, _, _, rfl⟩, _⟩ := h
  rfl

theorem EventOnly.acts {s t : State} (h : EventOnly s t) : t.acts = s.acts := by
  obtain ⟨⟨_, _, _, _, _, _, _, _, _, _, rfl⟩, _⟩ := h
  rfl

theorem EventOnly.media {s t : State} (h : EventOnly s t) : t.media = s.media := by
  obtain ⟨⟨_, _, _, _, _, _, _, _, _, _, rfl⟩, _⟩ := h
  rfl

theorem EventOnly.spn {s t : State} (h : EventOnly s t) : t.spn = s.spn := by
  obtain ⟨⟨_, _, _, _, _, _, _, _, _, _, rfl⟩, _⟩ := h
  rfl

theorem EventOnly.pic {s t : State} (h : EventOnly s t) : t.pic = s.pic := by
  obtain ⟨⟨_, _, _, _, _, _, _, _, _, _, rfl⟩, _⟩ := h
  rfl

theorem EventOnly.cast {s t : State} (h : EventOnly s t) : t.cast = s.cast := by
  obtain ⟨⟨_, _, _, _, _, _, _, _, _, _, rfl⟩, _⟩ := h
  rfl

theorem EventOnly.cmp {s t : State} (h : EventOnly s t) : t.cmp = s.cmp := by
  obtain ⟨⟨_, _, _, _, _, _, _, _, _, _, rfl⟩, _⟩ := h
  rfl

theorem EventOnly.pln {s t : State} (h : EventOnly s t) : t.pln = s.pln := by
  obtain ⟨⟨_, _, _, _, _, _, _, _, _, _, rfl⟩, _⟩ := h
  rfl

theorem EventOnly.dram {s t : State} (h : EventOnly s t) : t.dram = s.dram := by
  obtain ⟨⟨_, _, _, _, _, _, _, _, _, _, rfl⟩, _⟩ := h
  rfl

theorem EventOnly.activation {s t : State} (h : EventOnly s t) : t.activation = s.activation := by
  obtain ⟨⟨_, _, _, _, _, _, _, _, _, _, rfl⟩, _⟩ := h
  rfl

theorem EventOnly.deleting {s t : State} (h : EventOnly s t) : t.deleting = s.deleting := by
  obtain ⟨⟨_, _, _, _, _, _, _, _, _, _, rfl⟩, _⟩ := h
  rfl

end Sys2Proof.Machine
end

