-- ==== Sys2Proof/Laws/Frames.lean ====
section
/-! SUPPORT. What the shared updates of an actuator slice and the recording of an event set and leave alone, and the register frames of
Safety built up update by update. -/

namespace Sys2Proof.Machine

open Sys2Proof

/-! ## Slices -/

@[simp] theorem State.act_setFld (s : State) (b : Nat) (f : Fld) (v : Nat) (a : Fin 4) : (s.setFld b f v).act a = s.act a := rfl
@[simp] theorem State.act_setFlag (s : State) (b : Nat) (f : Fld) (v : Bool) (a : Fin 4) : (s.setFlag b f v).act a = s.act a := rfl
@[simp] theorem State.act_setReg (s : State) (b : Nat) (v : Word) (a : Fin 4) : (s.setReg b v).act a = s.act a := rfl
@[simp] theorem State.act_countFld (s : State) (b : Nat) (f : Fld) (a : Fin 4) : (s.countFld b f).act a = s.act a := rfl

@[simp] theorem State.act_modAct_same (s : State) (a : Fin 4) (f : Act → Act) : (s.modAct a f).act a = f (s.act a) := by
  simp [State.modAct, State.setAct, State.act]

theorem State.act_modAct_other (s : State) {a b : Fin 4} (f : Act → Act) (h : b ≠ a) : (s.modAct a f).act b = s.act b := by
  have : (a : Nat) ≠ b := fun e => h (Fin.ext e.symm)
  simp [State.modAct, State.setAct, State.act, Vector.getElem_set_ne, this]

@[simp] theorem State.reg_modAct (s : State) (a : Fin 4) (f : Act → Act) (b : Nat) : (s.modAct a f).reg b = s.reg b := rfl
@[simp] theorem State.fld_modAct (s : State) (a : Fin 4) (f : Act → Act) (b : Nat) (g : Fld) : (s.modAct a f).fld b g = s.fld b g := rfl
@[simp] theorem State.flag_modAct (s : State) (a : Fin 4) (f : Act → Act) (b : Nat) (g : Fld) : (s.modAct a f).flag b g = s.flag b g := rfl

/-- Setting the clock state sets it. -/
theorem State.clock_setClock (s : State) (a : Fin 4) (c : Nat) : (s.setClock a c).clock a = c % 4 := by
  unfold State.setClock State.clock
  rw [State.fld_setFld_same _ _ _ _ ⟨by decide, by decide⟩]; rfl

/-! ## Register frames -/

theorem ne_of_mem_of_out {l : List Nat} {a b : Nat} (ha : a ∈ l) (hb : b ∉ l) : b ≠ a := by
  rintro rfl
  exact hb ha

theorem State.RegsBut.refl (l : List Nat) (s : State) : State.RegsBut l s s := fun _ _ => rfl

theorem State.RegsBut.setFld {l : List Nat} {s t : State} (h : State.RegsBut l s t) {a : Nat} (f : Fld) (v : Nat) (ha : a ∈ l) :
    State.RegsBut l s (t.setFld a f v) := fun b hb =>
  (State.reg_setFld_other t f v (ne_of_mem_of_out ha hb)).trans (h b hb)

theorem State.RegsBut.setFlag {l : List Nat} {s t : State} (h : State.RegsBut l s t) {a : Nat} (f : Fld) (v : Bool) (ha : a ∈ l) :
    State.RegsBut l s (t.setFlag a f v) := h.setFld f _ ha

theorem State.RegsBut.countFld {l : List Nat} {s t : State} (h : State.RegsBut l s t) {a : Nat} (f : Fld) (ha : a ∈ l) :
    State.RegsBut l s (t.countFld a f) := h.setFld f _ ha

theorem State.RegsBut.setReg {l : List Nat} {s t : State} (h : State.RegsBut l s t) {a : Nat} (v : Word) (ha : a ∈ l) :
    State.RegsBut l s (t.setReg a v) := fun b hb =>
  (State.reg_setReg_other t v (ne_of_mem_of_out ha hb)).trans (h b hb)

theorem State.RegsBut.setClock {l : List Nat} {s t : State} (h : State.RegsBut l s t) {a : Fin 4} (c : Nat) (ha : Adr.BTN_CLK a ∈ l) :
    State.RegsBut l s (t.setClock a c) := h.setFld _ _ ha

theorem State.RegsBut.same {l : List Nat} {s t u : State} (h : State.RegsBut l s t) (e : u.regs = t.regs) : State.RegsBut l s u :=
  fun b hb => by have := h b hb; simp only [State.reg, e] at this ⊢; exact this

theorem State.RegsBut.events {l : List Nat} {s t : State} (h : State.RegsBut l s t) : State.RegsButEvents l s t :=
  fun b hb _ => h b hb

theorem State.RegsButEvents.refl (l : List Nat) (s : State) : State.RegsButEvents l s s := fun _ _ _ => rfl

theorem State.RegsButEvents.setFld {l : List Nat} {s t : State} (h : State.RegsButEvents l s t) {a : Nat} (f : Fld) (v : Nat) (ha : a ∈ l) :
    State.RegsButEvents l s (t.setFld a f v) := fun b hb he =>
  (State.reg_setFld_other t f v (ne_of_mem_of_out ha hb)).trans (h b hb he)

theorem State.RegsButEvents.setFlag {l : List Nat} {s t : State} (h : State.RegsButEvents l s t) {a : Nat} (f : Fld) (v : Bool) (ha : a ∈ l) :
    State.RegsButEvents l s (t.setFlag a f v) := h.setFld f _ ha

theorem State.RegsButEvents.countFld {l : List Nat} {s t : State} (h : State.RegsButEvents l s t) {a : Nat} (f : Fld) (ha : a ∈ l) :
    State.RegsButEvents l s (t.countFld a f) := h.setFld f _ ha

theorem State.RegsButEvents.setReg {l : List Nat} {s t : State} (h : State.RegsButEvents l s t) {a : Nat} (v : Word) (ha : a ∈ l) :
    State.RegsButEvents l s (t.setReg a v) := fun b hb he =>
  (State.reg_setReg_other t v (ne_of_mem_of_out ha hb)).trans (h b hb he)

theorem State.RegsButEvents.same {l : List Nat} {s t u : State} (h : State.RegsButEvents l s t) (e : u.regs = t.regs) :
    State.RegsButEvents l s u :=
  fun b hb he => by have := h b hb he; simp only [State.reg, e] at this ⊢; exact this

theorem State.RegsButEvents.only {l : List Nat} {s t u : State} (h : State.RegsButEvents l s t) (e : EventOnly t u) :
    State.RegsButEvents l s u := fun b hb he => (e.reg he).trans (h b hb he)

theorem State.RegsBut.modAct {l : List Nat} {s t : State} (h : State.RegsBut l s t) (a : Fin 4) (f : Act → Act) :
    State.RegsBut l s (t.modAct a f) := h.same rfl

theorem State.RegsBut.modSeq {l : List Nat} {s t : State} (h : State.RegsBut l s t) (a : Fin 4) (f : Sequencer → Sequencer) :
    State.RegsBut l s (t.modSeq a f) := h.same rfl

theorem State.RegsBut.modBatten {l : List Nat} {s t : State} (h : State.RegsBut l s t) (a : Fin 4) (f : Batten → Batten) :
    State.RegsBut l s (t.modBatten a f) := h.same rfl

theorem State.RegsBut.modServo {l : List Nat} {s t : State} (h : State.RegsBut l s t) (a : Fin 4) (f : Servo → Servo) :
    State.RegsBut l s (t.modServo a f) := h.same rfl

theorem State.RegsBut.ite {l : List Nat} {s t u : State} {p : Prop} [Decidable p] (h : State.RegsBut l s t) (k : State.RegsBut l s u) :
    State.RegsBut l s (if p then t else u) := by
  split
  · exact h
  · exact k

theorem State.RegsBut.setSFld {l : List Nat} {s t : State} (h : State.RegsBut l s t) {a : Nat} (f : Fld) (v : Int) (ha : a ∈ l) :
    State.RegsBut l s (t.setSFld a f v) := h.setFld f _ ha

theorem State.RegsButEvents.modAct {l : List Nat} {s t : State} (h : State.RegsButEvents l s t) (a : Fin 4) (f : Act → Act) :
    State.RegsButEvents l s (t.modAct a f) := h.same rfl

theorem State.RegsButEvents.modSeq {l : List Nat} {s t : State} (h : State.RegsButEvents l s t) (a : Fin 4) (f : Sequencer → Sequencer) :
    State.RegsButEvents l s (t.modSeq a f) := h.same rfl

theorem State.RegsButEvents.modBatten {l : List Nat} {s t : State} (h : State.RegsButEvents l s t) (a : Fin 4) (f : Batten → Batten) :
    State.RegsButEvents l s (t.modBatten a f) := h.same rfl

theorem State.RegsButEvents.modServo {l : List Nat} {s t : State} (h : State.RegsButEvents l s t) (a : Fin 4) (f : Servo → Servo) :
    State.RegsButEvents l s (t.modServo a f) := h.same rfl

theorem State.RegsButEvents.ite {l : List Nat} {s t u : State} {p : Prop} [Decidable p] (h : State.RegsButEvents l s t) (k : State.RegsButEvents l s u) :
    State.RegsButEvents l s (if p then t else u) := by
  split
  · exact h
  · exact k

theorem State.RegsButEvents.setSFld {l : List Nat} {s t : State} (h : State.RegsButEvents l s t) {a : Nat} (f : Fld) (v : Int) (ha : a ∈ l) :
    State.RegsButEvents l s (t.setSFld a f v) := h.setFld f _ ha

theorem State.RegsButEvents.setClock {l : List Nat} {s t : State} (h : State.RegsButEvents l s t) {a : Fin 4} (c : Nat)
    (ha : Adr.BTN_CLK a ∈ l) : State.RegsButEvents l s (t.setClock a c) := h.setFld _ _ ha

/-- What an event may change is what takeEvents takes. -/
theorem EventOnly.takeEvents {s t : State} (h : EventOnly s t) : t = s.takeEvents t := by
  obtain ⟨⟨_, _, _, _, _, _, _, _, _, _, rfl⟩, _⟩ := h
  rfl

/-! ## Fields an event leaves alone -/

@[simp] theorem State.event_pending (s : State) (id d e : Nat) : (s.event id d e).pending = s.pending := (s.event_only id d e).pending
@[simp] theorem State.event_now (s : State) (id d e : Nat) : (s.event id d e).now = s.now := (s.event_only id d e).now
@[simp] theorem State.event_fresh (s : State) (id d e : Nat) : (s.event id d e).fresh = s.fresh := (s.event_only id d e).fresh
@[simp] theorem State.event_readData (s : State) (id d e : Nat) : (s.event id d e).readData = s.readData := (s.event_only id d e).readData
@[simp] theorem State.event_heldRegs (s : State) (id d e : Nat) : (s.event id d e).heldRegs = s.heldRegs := (s.event_only id d e).heldRegs
@[simp] theorem State.event_funcs (s : State) (id d e : Nat) : (s.event id d e).funcs = s.funcs := (s.event_only id d e).funcs
@[simp] theorem State.event_cfgOp (s : State) (id d e : Nat) : (s.event id d e).cfgOp = s.cfgOp := (s.event_only id d e).cfgOp
@[simp] theorem State.event_time (s : State) (id d e : Nat) : (s.event id d e).time = s.time := (s.event_only id d e).time
@[simp] theorem State.event_host (s : State) (id d e : Nat) : (s.event id d e).host = s.host := (s.event_only id d e).host
@[simp] theorem State.event_own (s : State) (id d e : Nat) : (s.event id d e).own = s.own := (s.event_only id d e).own
@[simp] theorem State.event_mi (s : State) (id d e : Nat) : (s.event id d e).mi = s.mi := (s.event_only id d e).mi
@[simp] theorem State.event_spaces (s : State) (id d e : Nat) : (s.event id d e).spaces = s.spaces := (s.event_only id d e).spaces
@[simp] theorem State.event_acts (s : State) (id d e : Nat) : (s.event id d e).acts = s.acts := (s.event_only id d e).acts
@[simp] theorem State.event_media (s : State) (id d e : Nat) : (s.event id d e).media = s.media := (s.event_only id d e).media
@[simp] theorem State.event_spn (s : State) (id d e : Nat) : (s.event id d e).spn = s.spn := (s.event_only id d e).spn
@[simp] theorem State.event_pic (s : State) (id d e : Nat) : (s.event id d e).pic = s.pic := (s.event_only id d e).pic
@[simp] theorem State.event_cast (s : State) (id d e : Nat) : (s.event id d e).cast = s.cast := (s.event_only id d e).cast
@[simp] theorem State.event_cmp (s : State) (id d e : Nat) : (s.event id d e).cmp = s.cmp := (s.event_only id d e).cmp
@[simp] theorem State.event_pln (s : State) (id d e : Nat) : (s.event id d e).pln = s.pln := (s.event_only id d e).pln
@[simp] theorem State.event_dram (s : State) (id d e : Nat) : (s.event id d e).dram = s.dram := (s.event_only id d e).dram
@[simp] theorem State.event_activation (s : State) (id d e : Nat) : (s.event id d e).activation = s.activation := (s.event_only id d e).activation
@[simp] theorem State.event_deleting (s : State) (id d e : Nat) : (s.event id d e).deleting = s.deleting := (s.event_only id d e).deleting
@[simp] theorem State.actEvent_pending (s : State) (a : Fin 4) (o d e : Nat) : (s.actEvent a o d e).pending = s.pending := (s.actEvent_only a o d e).pending
@[simp] theorem State.actEvent_now (s : State) (a : Fin 4) (o d e : Nat) : (s.actEvent a o d e).now = s.now := (s.actEvent_only a o d e).now
@[simp] theorem State.actEvent_fresh (s : State) (a : Fin 4) (o d e : Nat) : (s.actEvent a o d e).fresh = s.fresh := (s.actEvent_only a o d e).fresh
@[simp] theorem State.actEvent_readData (s : State) (a : Fin 4) (o d e : Nat) : (s.actEvent a o d e).readData = s.readData := (s.actEvent_only a o d e).readData
@[simp] theorem State.actEvent_heldRegs (s : State) (a : Fin 4) (o d e : Nat) : (s.actEvent a o d e).heldRegs = s.heldRegs := (s.actEvent_only a o d e).heldRegs
@[simp] theorem State.actEvent_funcs (s : State) (a : Fin 4) (o d e : Nat) : (s.actEvent a o d e).funcs = s.funcs := (s.actEvent_only a o d e).funcs
@[simp] theorem State.actEvent_cfgOp (s : State) (a : Fin 4) (o d e : Nat) : (s.actEvent a o d e).cfgOp = s.cfgOp := (s.actEvent_only a o d e).cfgOp
@[simp] theorem State.actEvent_time (s : State) (a : Fin 4) (o d e : Nat) : (s.actEvent a o d e).time = s.time := (s.actEvent_only a o d e).time
@[simp] theorem State.actEvent_host (s : State) (a : Fin 4) (o d e : Nat) : (s.actEvent a o d e).host = s.host := (s.actEvent_only a o d e).host
@[simp] theorem State.actEvent_own (s : State) (a : Fin 4) (o d e : Nat) : (s.actEvent a o d e).own = s.own := (s.actEvent_only a o d e).own
@[simp] theorem State.actEvent_mi (s : State) (a : Fin 4) (o d e : Nat) : (s.actEvent a o d e).mi = s.mi := (s.actEvent_only a o d e).mi
@[simp] theorem State.actEvent_spaces (s : State) (a : Fin 4) (o d e : Nat) : (s.actEvent a o d e).spaces = s.spaces := (s.actEvent_only a o d e).spaces
@[simp] theorem State.actEvent_acts (s : State) (a : Fin 4) (o d e : Nat) : (s.actEvent a o d e).acts = s.acts := (s.actEvent_only a o d e).acts
@[simp] theorem State.actEvent_media (s : State) (a : Fin 4) (o d e : Nat) : (s.actEvent a o d e).media = s.media := (s.actEvent_only a o d e).media
@[simp] theorem State.actEvent_spn (s : State) (a : Fin 4) (o d e : Nat) : (s.actEvent a o d e).spn = s.spn := (s.actEvent_only a o d e).spn
@[simp] theorem State.actEvent_pic (s : State) (a : Fin 4) (o d e : Nat) : (s.actEvent a o d e).pic = s.pic := (s.actEvent_only a o d e).pic
@[simp] theorem State.actEvent_cast (s : State) (a : Fin 4) (o d e : Nat) : (s.actEvent a o d e).cast = s.cast := (s.actEvent_only a o d e).cast
@[simp] theorem State.actEvent_cmp (s : State) (a : Fin 4) (o d e : Nat) : (s.actEvent a o d e).cmp = s.cmp := (s.actEvent_only a o d e).cmp
@[simp] theorem State.actEvent_pln (s : State) (a : Fin 4) (o d e : Nat) : (s.actEvent a o d e).pln = s.pln := (s.actEvent_only a o d e).pln
@[simp] theorem State.actEvent_dram (s : State) (a : Fin 4) (o d e : Nat) : (s.actEvent a o d e).dram = s.dram := (s.actEvent_only a o d e).dram
@[simp] theorem State.actEvent_activation (s : State) (a : Fin 4) (o d e : Nat) : (s.actEvent a o d e).activation = s.activation := (s.actEvent_only a o d e).activation
@[simp] theorem State.actEvent_deleting (s : State) (a : Fin 4) (o d e : Nat) : (s.actEvent a o d e).deleting = s.deleting := (s.actEvent_only a o d e).deleting

@[simp] theorem State.act_event (s : State) (id d e : Nat) (a : Fin 4) : (s.event id d e).act a = s.act a := by simp [State.act]
@[simp] theorem State.act_actEvent (s : State) (b : Fin 4) (o d e : Nat) (a : Fin 4) : (s.actEvent b o d e).act a = s.act a := by
  simp [State.act]

end Sys2Proof.Machine
end

