-- ==== Sys2Proof/Laws/Keeps/Base.lean ====
section
/-! SUPPORT. The rules by which Keeps goes through an operation: reflexivity, updates of other fields, folds, pairs and steps. -/

namespace Sys2Proof.Machine

open Sys2Proof

theorem Keeps.refl (s : State) : Keeps s s := ⟨id, rfl, Nat.le_refl _⟩

theorem Keeps.trans {s t u : State} (h : Keeps s t) (k : Keeps t u) : Keeps s u :=
  ⟨fun w => k.1 (h.1 w), k.2.1.trans h.2.1, Nat.le_trans h.2.2 k.2.2⟩

/-- An update of fields other than the registers, the medium's bytes, the queue and the counter of free values. -/
theorem Keeps.same {s0 s t : State} (h1 : t.regs = s.regs) (h2 : t.media.sectors = s.media.sectors) (h3 : t.pending = s.pending)
    (h4 : t.fresh = s.fresh) (h : Keeps s0 s) : Keeps s0 t := by
  obtain ⟨a, b, c⟩ := h
  exact ⟨fun w => by have := a w; simpa [State.Wf, h1, h2] using this, by rw [h3, b], by rw [h4]; exact c⟩

/-- An update that touches registers only, in a way that keeps them in order. -/
theorem Keeps.regs {s0 s t : State} (h1 : s.regs.sorted = true → t.regs.sorted = true) (h2 : t.media.sectors = s.media.sectors)
    (h3 : t.pending = s.pending) (h4 : t.fresh = s.fresh) (h : Keeps s0 s) : Keeps s0 t := by
  obtain ⟨a, b, c⟩ := h
  exact ⟨fun w => ⟨h1 (a w).1, by rw [h2]; exact (a w).2⟩, by rw [h3, b], by rw [h4]; exact c⟩

/-- An update that touches the medium's bytes only, in a way that keeps their form. -/
theorem Keeps.sectors {s0 s t : State} (h1 : t.regs = s.regs) (h2 : keysRise s.media.sectors = true → keysRise t.media.sectors = true)
    (h3 : t.pending = s.pending) (h4 : t.fresh = s.fresh) (h : Keeps s0 s) : Keeps s0 t := by
  obtain ⟨a, b, c⟩ := h
  exact ⟨fun w => ⟨by rw [h1]; exact (a w).1, h2 (a w).2⟩, by rw [h3, b], by rw [h4]; exact c⟩

/-- An update of fields other than the registers, the queue, the counter of free values and the medium's sectors. -/
theorem Keeps.upd {s0 s : State} {now' : Nat} {readData' : Word} {latches' : Latches} {heldRegs' : List HeldReg} {funcs' : Vector FuncAux 15} {cfgOp' : Option CfgOp} {pat' : Patina} {flt' : Flt} {nor' : Nor} {time' : Time} {trace' : Trace} {host' : HostState} {own' : Own} {mi' : Mi} {spaces' : List (Nat × Namespace)} {acts' : Vector Act 4} {spn' : Spn} {pic' : Pic} {cast' : CastState} {cmp' : List CmpJob} {pln' : Plinth} {dram' : Dram} {activation' : Option Activation} {deleting' : List Deleting}
    {media' : Media} (h2 : keysRise s.media.sectors = true → keysRise media'.sectors = true) (h : Keeps s0 s) :
    Keeps s0 { pending := s.pending, now := now', fresh := s.fresh, readData := readData', regs := s.regs, latches := latches', heldRegs := heldRegs', funcs := funcs', cfgOp := cfgOp', pat := pat', flt := flt', nor := nor', time := time', trace := trace', host := host', own := own', mi := mi', spaces := spaces', acts := acts', media := media', spn := spn', pic := pic', cast := cast', cmp := cmp', pln := pln', dram := dram', activation := activation', deleting := deleting' } :=
  Keeps.sectors (s := s) rfl h2 rfl rfl h

/-- An update that keeps the registers in order. -/
theorem Keeps.updRegs {s0 s : State} {now' : Nat} {readData' : Word} {latches' : Latches} {heldRegs' : List HeldReg} {funcs' : Vector FuncAux 15} {cfgOp' : Option CfgOp} {pat' : Patina} {flt' : Flt} {nor' : Nor} {time' : Time} {trace' : Trace} {host' : HostState} {own' : Own} {mi' : Mi} {spaces' : List (Nat × Namespace)} {acts' : Vector Act 4} {spn' : Spn} {pic' : Pic} {cast' : CastState} {cmp' : List CmpJob} {pln' : Plinth} {dram' : Dram} {activation' : Option Activation} {deleting' : List Deleting}
    {media' : Media} {regs' : RegFile} (h1 : s.regs.sorted = true → regs'.sorted = true) (h2 : keysRise s.media.sectors = true → keysRise media'.sectors = true) (h : Keeps s0 s) :
    Keeps s0 { pending := s.pending, now := now', fresh := s.fresh, readData := readData', regs := regs', latches := latches', heldRegs := heldRegs', funcs := funcs', cfgOp := cfgOp', pat := pat', flt := flt', nor := nor', time := time', trace := trace', host := host', own := own', mi := mi', spaces := spaces', acts := acts', media := media', spn := spn', pic := pic', cast := cast', cmp := cmp', pln := pln', dram := dram', activation := activation', deleting := deleting' } :=
  ⟨fun w => ⟨h1 (h.1 w).1, h2 (h.1 w).2⟩, h.2⟩

/-- An update that draws free values. -/
theorem Keeps.updFresh {s0 s : State} {now' : Nat} {readData' : Word} {latches' : Latches} {heldRegs' : List HeldReg} {funcs' : Vector FuncAux 15} {cfgOp' : Option CfgOp} {pat' : Patina} {flt' : Flt} {nor' : Nor} {time' : Time} {trace' : Trace} {host' : HostState} {own' : Own} {mi' : Mi} {spaces' : List (Nat × Namespace)} {acts' : Vector Act 4} {spn' : Spn} {pic' : Pic} {cast' : CastState} {cmp' : List CmpJob} {pln' : Plinth} {dram' : Dram} {activation' : Option Activation} {deleting' : List Deleting}
    {media' : Media} {fresh' : Nat} (h1 : s.fresh ≤ fresh') (h2 : keysRise s.media.sectors = true → keysRise media'.sectors = true) (h : Keeps s0 s) :
    Keeps s0 { pending := s.pending, now := now', fresh := fresh', readData := readData', regs := s.regs, latches := latches', heldRegs := heldRegs', funcs := funcs', cfgOp := cfgOp', pat := pat', flt := flt', nor := nor', time := time', trace := trace', host := host', own := own', mi := mi', spaces := spaces', acts := acts', media := media', spn := spn', pic := pic', cast := cast', cmp := cmp', pln := pln', dram := dram', activation := activation', deleting := deleting' } :=
  ⟨fun w => ⟨(h.1 w).1, h2 (h.1 w).2⟩, h.2.1, Nat.le_trans h.2.2 h1⟩

/-- A fact used in what follows it. -/
theorem cut {p q : Prop} (hp : p) (hq : p → q) : q := hq hp

theorem ite_keeps {s0 a b : State} {p : Prop} [Decidable p] (ha : Keeps s0 a) (hb : Keeps s0 b) : Keeps s0 (if p then a else b) := by
  split
  · exact ha
  · exact hb

theorem foldl_keeps {α : Type} {s0 s : State} (l : List α) (f : State → α → State)
    (hf : ∀ t x, Keeps s0 t → Keeps s0 (f t x)) (h : Keeps s0 s) : Keeps s0 (l.foldl f s) := by
  induction l generalizing s with
  | nil => exact h
  | cons x r ih => exact ih (hf s x h)

theorem foldl_keeps_snd {α β : Type} {s0 : State} {p : β × State} (l : List α) (f : β × State → α → β × State)
    (hf : ∀ t x, Keeps s0 t.2 → Keeps s0 (f t x).2) (h : Keeps s0 p.2) : Keeps s0 (l.foldl f p).2 := by
  induction l generalizing p with
  | nil => exact h
  | cons x r ih => exact ih (hf p x h)

theorem foldl_keeps_fst {α β : Type} {s0 : State} {p : State × β} (l : List α) (f : State × β → α → State × β)
    (hf : ∀ t x, Keeps s0 t.1 → Keeps s0 (f t x).1) (h : Keeps s0 p.1) : Keeps s0 (l.foldl f p).1 := by
  induction l generalizing p with
  | nil => exact h
  | cons x r ih => exact ih (hf p x h)

/-- A meaning answers a next state that keeps. -/
def Goes (s0 : State) (r : Res) : Prop := ∃ t, r = .next t ∧ Keeps s0 t

/-- What a meaning that goes answers keeps. -/
theorem Goes.keeps {s0 t : State} {r : Res} (g : Goes s0 r) (e : r = .next t) : Keeps s0 t := by
  obtain ⟨u, hu, hk⟩ := g
  cases hu.symm.trans e
  exact hk

theorem goes_next {s0 t : State} (h : Keeps s0 t) : Goes s0 (.next t) := ⟨t, rfl, h⟩

theorem goes_ite {s0 : State} {a b : Res} {p : Prop} [Decidable p] (ha : Goes s0 a) (hb : Goes s0 b) : Goes s0 (if p then a else b) := by
  split
  · exact ha
  · exact hb

end Sys2Proof.Machine
end

