-- ==== Sys2Proof/Laws/Keeps/Ops.lean ====
section
/-! SUPPORT. Machine/Ops.lean: each of its operations keeps the canonical forms, the queue and the order of free values. -/

namespace Sys2Proof.Machine

open Sys2Proof

theorem State.setReg_keeps {s0 s : State} (a : Nat) (v : Word) (h : Keeps s0 s) : Keeps s0 (s.setReg a v) :=
  Keeps.regs (RegFile.put_sorted a v) rfl rfl rfl h

theorem State.setFld_keeps {s0 s : State} (a : Nat) (f : Fld) (v : Nat)  (h : Keeps s0 s) :
    Keeps s0 (State.setFld s a f v) := by
  unfold State.setFld
  iterate 60 (all_goals (try (first | with_reducible assumption | with_reducible apply State.setReg_keeps)))

theorem State.setFlag_keeps {s0 s : State} (a : Nat) (f : Fld) (b : Bool)  (h : Keeps s0 s) :
    Keeps s0 (State.setFlag s a f b) := by
  unfold State.setFlag
  iterate 60 (all_goals (try (first | with_reducible assumption | with_reducible apply State.setFld_keeps)))

theorem State.setSFld_keeps {s0 s : State} (a : Nat) (f : Fld) (i : Int)  (h : Keeps s0 s) :
    Keeps s0 (State.setSFld s a f i) := by
  unfold State.setSFld
  iterate 60 (all_goals (try (first | with_reducible assumption | with_reducible apply State.setFld_keeps)))

theorem State.countFld_keeps {s0 s : State} (a : Nat) (f : Fld)  (h : Keeps s0 s) :
    Keeps s0 (State.countFld s a f) := by
  unfold State.countFld
  iterate 60 (all_goals (try (first | with_reducible assumption | with_reducible apply State.setFld_keeps)))

theorem State.resetRegs_keeps {s0 s : State} (lo hi : Nat) (h : Keeps s0 s) : Keeps s0 (s.resetRegs lo hi) :=
  Keeps.regs (RegFile.filter_sorted _) rfl rfl rfl h

end Sys2Proof.Machine
end

