-- ==== Sys2Proof/Laws/Keeps/Flags.lean ====
section
/-! SUPPORT. Machine/Flags.lean: each of its operations keeps the canonical forms, the queue and the order of free values. -/

namespace Sys2Proof.Machine

open Sys2Proof

theorem State.bump_keeps {s0 s : State} (c : Nat)  (h : Keeps s0 s) :
    Keeps s0 (State.bump s c) := by
  unfold State.bump
  iterate 60 (all_goals (try (first | with_reducible assumption | with_reducible exact fun w => w | (intro _; try dsimp -zeta only) | (extract_lets +onlyGivenNames x; first | (apply cut (p := Keeps s0 x); (case' hp => dsimp -zeta only [x]; clear x); (case' hq => clear_value x; revert x; intro _ _)) | (clear_value x; revert x; intro _)) | split | with_reducible apply Keeps.upd)))

theorem State.patDrop_keeps {s0 s : State}   (h : Keeps s0 s) :
    Keeps s0 (State.patDrop s) := by
  unfold State.patDrop
  iterate 60 (all_goals (try (first | with_reducible assumption | with_reducible apply State.countFld_keeps)))

theorem State.patCapture_keeps {s0 s : State} (e : PatEntry)  (h : Keeps s0 s) :
    Keeps s0 (State.patCapture s e) := by
  unfold State.patCapture
  iterate 60 (all_goals (try (first | with_reducible assumption | with_reducible apply State.patDrop_keeps | with_reducible exact fun w => w | (intro _; try dsimp -zeta only) | (extract_lets +onlyGivenNames x; first | (apply cut (p := Keeps s0 x); (case' hp => dsimp -zeta only [x]; clear x); (case' hq => clear_value x; revert x; intro _ _)) | (clear_value x; revert x; intro _)) | split | with_reducible apply Keeps.upd)))

theorem State.nameEvent_keeps {s0 s : State} (a : Nat) (id : Nat) (c : EvClass)  (h : Keeps s0 s) :
    Keeps s0 (State.nameEvent s a id c) := by
  unfold State.nameEvent
  iterate 60 (all_goals (try (first | with_reducible assumption | with_reducible apply State.setFld_keeps)))

theorem State.collect_keeps {s0 s : State} (a : Nat) (id : Nat) (c : EvClass)  (h : Keeps s0 s) :
    Keeps s0 (State.collect s a id c) := by
  unfold State.collect
  iterate 60 (all_goals (try (first | with_reducible assumption | with_reducible apply State.nameEvent_keeps | with_reducible apply State.setFlag_keeps | with_reducible exact fun w => w | (intro _; try dsimp -zeta only) | (extract_lets +onlyGivenNames x; first | (apply cut (p := Keeps s0 x); (case' hp => dsimp -zeta only [x]; clear x); (case' hq => clear_value x; revert x; intro _ _)) | (clear_value x; revert x; intro _)) | split | with_reducible apply Keeps.upd)))

theorem State.latchEvent_keeps {s0 s : State} (b : Nat) (id : Nat) (c : EvClass)  (h : Keeps s0 s) :
    Keeps s0 (State.latchEvent s b id c) := by
  unfold State.latchEvent
  iterate 60 (all_goals (try (first | with_reducible assumption | with_reducible apply State.collect_keeps)))

theorem State.escalate_keeps {s0 s : State} (r : Nat) (c : EvClass)  (h : Keeps s0 s) :
    Keeps s0 (State.escalate s r c) := by
  unfold State.escalate
  iterate 60 (all_goals (try (first | with_reducible assumption | with_reducible apply State.setFlag_keeps | with_reducible apply State.setFld_keeps | with_reducible exact fun w => w | (intro _; try dsimp -zeta only) | (extract_lets +onlyGivenNames x; first | (apply cut (p := Keeps s0 x); (case' hp => dsimp -zeta only [x]; clear x); (case' hq => clear_value x; revert x; intro _ _)) | (clear_value x; revert x; intro _)) | split | with_reducible apply Keeps.upd)))

theorem State.noteEvent_keeps {s0 s : State} (id : Nat) (c : EvClass) (detail : Nat) (detail64 : Nat) (flags : Nat)  (h : Keeps s0 s) :
    Keeps s0 (State.noteEvent s id c detail detail64 flags) := by
  unfold State.noteEvent
  iterate 60 (all_goals (try (first | with_reducible assumption | with_reducible apply State.countFld_keeps | with_reducible apply State.patCapture_keeps | with_reducible exact fun w => w | (intro _; try dsimp -zeta only) | (extract_lets +onlyGivenNames x; first | (apply cut (p := Keeps s0 x); (case' hp => dsimp -zeta only [x]; clear x); (case' hq => clear_value x; revert x; intro _ _)) | (clear_value x; revert x; intro _)) | split | with_reducible apply Keeps.upd | dsimp -zeta only)))

theorem State.eventAt_keeps {s0 s : State} (b : Nat) (id : Nat) (detail : Nat) (detail64 : Nat)  (h : Keeps s0 s) :
    Keeps s0 (State.eventAt s b id detail detail64) := by
  unfold State.eventAt
  iterate 60 (all_goals (try (first | with_reducible assumption | with_reducible apply State.latchEvent_keeps | with_reducible apply State.noteEvent_keeps | with_reducible exact fun w => w | (intro _; try dsimp -zeta only) | (extract_lets +onlyGivenNames x; first | (apply cut (p := Keeps s0 x); (case' hp => dsimp -zeta only [x]; clear x); (case' hq => clear_value x; revert x; intro _ _)) | (clear_value x; revert x; intro _)) | split | with_reducible apply Keeps.upd | dsimp -zeta only)))

theorem State.eventIn_keeps {s0 s : State} (b : Nat) (id : Nat) (detail : Nat) (detail64 : Nat)  (h : Keeps s0 s) :
    Keeps s0 (State.eventIn s b id detail detail64) := by
  unfold State.eventIn
  iterate 60 (all_goals (try (first | with_reducible assumption | with_reducible apply State.escalate_keeps | with_reducible apply State.eventAt_keeps | (extract_lets +onlyGivenNames x; first | (apply cut (p := Keeps s0 x); (case' hp => dsimp -zeta only [x]; clear x); (case' hq => clear_value x; revert x; intro _ _)) | (clear_value x; revert x; intro _)) | split | dsimp -zeta only)))

theorem State.event_keeps {s0 s : State} (id : Nat) (detail : Nat) (detail64 : Nat)  (h : Keeps s0 s) :
    Keeps s0 (State.event s id detail detail64) := by
  unfold State.event
  iterate 60 (all_goals (try (first | with_reducible assumption | with_reducible apply State.eventIn_keeps)))

theorem State.actEvent_keeps {s0 s : State} (a : Nat) (off : Nat) (detail : Nat) (detail64 : Nat)  (h : Keeps s0 s) :
    Keeps s0 (State.actEvent s a off detail detail64) := by
  unfold State.actEvent
  iterate 60 (all_goals (try (first | with_reducible assumption | with_reducible apply State.eventIn_keeps)))

theorem State.ownerReg_keeps {s0 s : State} (assoc : Nat) (addr : Nat) (value : Word) (f : State → State) (hf : ∀ t, Keeps s0 t → Keeps s0 (f t)) (h : Keeps s0 s) :
    Keeps s0 (State.ownerReg s assoc addr value f) := by
  unfold State.ownerReg
  iterate 60 (all_goals (try (first | with_reducible assumption | with_reducible apply hf | with_reducible apply State.event_keeps | with_reducible exact fun w => w | (intro _; try dsimp -zeta only) | (extract_lets +onlyGivenNames x; first | (apply cut (p := Keeps s0 x); (case' hp => dsimp -zeta only [x]; clear x); (case' hq => clear_value x; revert x; intro _ _)) | (clear_value x; revert x; intro _)) | split | with_reducible apply Keeps.upd | dsimp -zeta only)))

end Sys2Proof.Machine
end

