-- ==== Sys2Proof/Laws/Keeps/Layout.lean ====
section
/-! SUPPORT. Machine/Layout.lean: each of its operations keeps the canonical forms, the queue and the order of free values. -/

namespace Sys2Proof.Machine

open Sys2Proof

theorem State.setAct_keeps {s0 s : State} (a : Fin 4) (x : Act)  (h : Keeps s0 s) :
    Keeps s0 (State.setAct s a x) := by
  unfold State.setAct
  iterate 60 (all_goals (try (first | with_reducible assumption | with_reducible exact fun w => w | (intro _; try dsimp -zeta only) | (extract_lets +onlyGivenNames x; first | (apply cut (p := Keeps s0 x); (case' hp => dsimp -zeta only [x]; clear x); (case' hq => clear_value x; revert x; intro _ _)) | (clear_value x; revert x; intro _)) | with_reducible apply Keeps.upd)))

theorem State.modAct_keeps {s0 s : State} (a : Fin 4) (f : Act → Act)  (h : Keeps s0 s) :
    Keeps s0 (State.modAct s a f) := by
  unfold State.modAct
  iterate 60 (all_goals (try (first | with_reducible assumption | with_reducible apply State.setAct_keeps)))

theorem State.modServo_keeps {s0 s : State} (a : Fin 4) (f : Servo → Servo)  (h : Keeps s0 s) :
    Keeps s0 (State.modServo s a f) := by
  unfold State.modServo
  iterate 60 (all_goals (try (first | with_reducible assumption | with_reducible apply State.modAct_keeps | with_reducible exact fun w => w | (intro _; try dsimp -zeta only) | (extract_lets +onlyGivenNames x; first | (apply cut (p := Keeps s0 x); (case' hp => dsimp -zeta only [x]; clear x); (case' hq => clear_value x; revert x; intro _ _)) | (clear_value x; revert x; intro _)) | with_reducible apply Keeps.upd)))

theorem State.modBatten_keeps {s0 s : State} (a : Fin 4) (f : Batten → Batten)  (h : Keeps s0 s) :
    Keeps s0 (State.modBatten s a f) := by
  unfold State.modBatten
  iterate 60 (all_goals (try (first | with_reducible assumption | with_reducible apply State.modAct_keeps | with_reducible exact fun w => w | (intro _; try dsimp -zeta only) | (extract_lets +onlyGivenNames x; first | (apply cut (p := Keeps s0 x); (case' hp => dsimp -zeta only [x]; clear x); (case' hq => clear_value x; revert x; intro _ _)) | (clear_value x; revert x; intro _)) | with_reducible apply Keeps.upd)))

theorem State.modSeq_keeps {s0 s : State} (a : Fin 4) (f : Sequencer → Sequencer)  (h : Keeps s0 s) :
    Keeps s0 (State.modSeq s a f) := by
  unfold State.modSeq
  iterate 60 (all_goals (try (first | with_reducible assumption | with_reducible apply State.modAct_keeps | with_reducible exact fun w => w | (intro _; try dsimp -zeta only) | (extract_lets +onlyGivenNames x; first | (apply cut (p := Keeps s0 x); (case' hp => dsimp -zeta only [x]; clear x); (case' hq => clear_value x; revert x; intro _ _)) | (clear_value x; revert x; intro _)) | with_reducible apply Keeps.upd)))

theorem State.forActs_keeps {s0 s : State} (f : State → Fin 4 → State) (hf : ∀ t x, Keeps s0 t → Keeps s0 (f t x)) (h : Keeps s0 s) :
    Keeps s0 (State.forActs s f) := by
  unfold State.forActs
  iterate 60 (all_goals (try (first | with_reducible assumption | with_reducible apply hf)))

theorem State.format_keeps {s0 s : State}   (h : Keeps s0 s) :
    Keeps s0 (State.format s) := by
  unfold State.format
  iterate 60 (all_goals (try (first | with_reducible assumption | with_reducible apply State.event_keeps | with_reducible exact fun w => w | (intro _; try dsimp -zeta only) | (extract_lets +onlyGivenNames x; first | (apply cut (p := Keeps s0 x); (case' hp => dsimp -zeta only [x]; clear x); (case' hq => clear_value x; revert x; intro _ _)) | (have hx := x.wsnBlock; clear hx; dsimp -zeta only [x]; clear x) | (clear_value x; revert x; intro _)) | with_reducible apply Keeps.upd)))

theorem State.formatIfDue_keeps {s0 s : State}   (h : Keeps s0 s) :
    Keeps s0 (State.formatIfDue s) := by
  unfold State.formatIfDue
  iterate 60 (all_goals (try (first | with_reducible assumption | with_reducible apply State.format_keeps | split | dsimp -zeta only)))

theorem State.recordAt_keeps {s0 s : State} (k : Nat) (field : List Byte) (seed : Nat) (kind : Nat) (index : Nat)  (h : Keeps s0 s) :
    Keeps s0 (State.recordAt s k field seed kind index) := by
  unfold State.recordAt
  iterate 60 (all_goals (try (first | with_reducible assumption | with_reducible exact fun w => w | with_reducible exact insertKey_rise _ _ | (intro _; try dsimp -zeta only) | (extract_lets +onlyGivenNames x; first | (apply cut (p := Keeps s0 x); (case' hp => dsimp -zeta only [x]; clear x); (case' hq => clear_value x; revert x; intro _ _)) | (have hx := x.wsnBlock; clear hx; dsimp -zeta only [x]; clear x) | (clear_value x; revert x; intro _)) | with_reducible apply Keeps.upd)))

theorem State.recordSector_keeps {s0 s : State} (x : Nat) (d : List Byte)  (h : Keeps s0 s) :
    Keeps s0 (State.recordSector s x d) := by
  unfold State.recordSector
  iterate 60 (all_goals (try (first | with_reducible assumption | with_reducible apply State.recordAt_keeps | split | dsimp -zeta only)))

theorem State.writePass_keeps {s0 s : State}   (h : Keeps s0 s) :
    Keeps s0 (State.writePass s) := by
  unfold State.writePass
  iterate 60 (all_goals (try (first | with_reducible assumption | (exact fun w => w) | with_reducible exact fun w => w | (intro _; try dsimp -zeta only) | (extract_lets +onlyGivenNames x; first | (apply cut (p := Keeps s0 x); (case' hp => dsimp -zeta only [x]; clear x); (case' hq => clear_value x; revert x; intro _ _)) | (have hx := x.wsnBlock; clear hx; dsimp -zeta only [x]; clear x) | (clear_value x; revert x; intro _)) | with_reducible apply Keeps.upd)))

theorem State.deliver_keeps {s0 s : State} (x : Nat) (d : List Byte)  (h : Keeps s0 s) :
    Keeps s0 (State.deliver s x d) := by
  unfold State.deliver
  iterate 60 (all_goals (try (first | with_reducible assumption | with_reducible exact fun w => w | (intro _; try dsimp -zeta only) | (extract_lets +onlyGivenNames x; first | (apply cut (p := Keeps s0 x); (case' hp => dsimp -zeta only [x]; clear x); (case' hq => clear_value x; revert x; intro _ _)) | (have hx := x.wsnBlock; clear hx; dsimp -zeta only [x]; clear x) | (clear_value x; revert x; intro _)) | with_reducible apply Keeps.upd)))

theorem State.forget_keeps {s0 s : State} (x : Nat)  (h : Keeps s0 s) :
    Keeps s0 (State.forget s x) := by
  unfold State.forget
  iterate 60 (all_goals (try (first | with_reducible assumption | with_reducible exact fun w => w | (intro _; try dsimp -zeta only) | (extract_lets +onlyGivenNames x; first | (apply cut (p := Keeps s0 x); (case' hp => dsimp -zeta only [x]; clear x); (case' hq => clear_value x; revert x; intro _ _)) | (have hx := x.wsnBlock; clear hx; dsimp -zeta only [x]; clear x) | (clear_value x; revert x; intro _)) | with_reducible apply Keeps.upd)))

theorem State.unclean_keeps {s0 s : State} (x : Nat)  (h : Keeps s0 s) :
    Keeps s0 (State.unclean s x) := by
  unfold State.unclean
  iterate 60 (all_goals (try (first | with_reducible assumption | with_reducible exact fun w => w | (intro _; try dsimp -zeta only) | (extract_lets +onlyGivenNames x; first | (apply cut (p := Keeps s0 x); (case' hp => dsimp -zeta only [x]; clear x); (case' hq => clear_value x; revert x; intro _ _)) | (have hx := x.wsnBlock; clear hx; dsimp -zeta only [x]; clear x) | (clear_value x; revert x; intro _)) | split | with_reducible apply Keeps.upd)))

theorem State.cleanUnit_keeps {s0 s : State} (u : Nat)  (h : Keeps s0 s) :
    Keeps s0 (State.cleanUnit s u) := by
  unfold State.cleanUnit
  iterate 60 (all_goals (try (first | with_reducible assumption | with_reducible exact fun w => w | (intro _; try dsimp -zeta only) | (extract_lets +onlyGivenNames x; first | (apply cut (p := Keeps s0 x); (case' hp => dsimp -zeta only [x]; clear x); (case' hq => clear_value x; revert x; intro _ _)) | (have hx := x.wsnBlock; clear hx; dsimp -zeta only [x]; clear x) | (clear_value x; revert x; intro _)) | with_reducible apply Keeps.upd)))

end Sys2Proof.Machine
end

