-- ==== Sys2Proof/Laws/Keeps/Cache.lean ====
section
/-! SUPPORT. Machine/Cache.lean: each of its operations keeps the canonical forms, the queue and the order of free values. -/

namespace Sys2Proof.Machine

open Sys2Proof

theorem State.modDram_keeps {s0 s : State} (f : Dram → Dram)  (h : Keeps s0 s) :
    Keeps s0 (State.modDram s f) := by
  unfold State.modDram
  iterate 60 (all_goals (try (first | with_reducible assumption | with_reducible exact fun w => w | (intro _; try dsimp -zeta only) | (extract_lets +onlyGivenNames x; first | (apply cut (p := Keeps s0 x); (case' hp => dsimp -zeta only [x]; clear x); (case' hq => clear_value x; revert x; intro _ _)) | (clear_value x; revert x; intro _)) | with_reducible apply Keeps.upd)))

theorem State.dramWrite_keeps {s0 s : State} (l : List Nat)  (h : Keeps s0 s) :
    Keeps s0 (State.dramWrite s l) := by
  unfold State.dramWrite
  iterate 60 (all_goals (try (first | with_reducible assumption | with_reducible apply State.modDram_keeps | with_reducible exact fun w => w | (intro _; try dsimp -zeta only) | (extract_lets +onlyGivenNames x; first | (apply cut (p := Keeps s0 x); (case' hp => dsimp -zeta only [x]; clear x); (case' hq => clear_value x; revert x; intro _ _)) | (have hx : _ → State := x; clear hx; dsimp -zeta only [x]; clear x) | (have hx : _ → _ → State := x; clear hx; dsimp -zeta only [x]; clear x) | (have hx : _ → _ × State := x; clear hx; dsimp -zeta only [x]; clear x) | (clear_value x; revert x; intro _)) | with_reducible apply Keeps.upd)))

theorem State.evict_keeps {s0 s : State} (x : L2Line)  (h : Keeps s0 s) :
    Keeps s0 (State.evict s x) := by
  unfold State.evict
  iterate 60 (all_goals (try (first | with_reducible assumption | with_reducible apply State.dramWrite_keeps | with_reducible apply State.modDram_keeps | (intro _; try dsimp -zeta only) | split)))

theorem State.l2Fill_keeps {s0 s : State} (d : Nat) (dirty : Bool) (ahead : Bool)  (h : Keeps s0 s) :
    Keeps s0 (State.l2Fill s d dirty ahead) := by
  unfold State.l2Fill
  iterate 60 (all_goals (try (first | with_reducible assumption | with_reducible apply State.evict_keeps | with_reducible apply State.modDram_keeps | with_reducible exact fun w => w | (intro _; try dsimp -zeta only) | (extract_lets +onlyGivenNames x; first | (apply cut (p := Keeps s0 x); (case' hp => dsimp -zeta only [x]; clear x); (case' hq => clear_value x; revert x; intro _ _)) | (have hx : _ → State := x; clear hx; dsimp -zeta only [x]; clear x) | (have hx : _ → _ → State := x; clear hx; dsimp -zeta only [x]; clear x) | (have hx : _ → _ × State := x; clear hx; dsimp -zeta only [x]; clear x) | (clear_value x; revert x; intro _)) | split | with_reducible apply Keeps.upd | dsimp -zeta only)))

theorem State.prefetchNext_keeps {s0 s : State} (d : Nat)  (h : Keeps s0 s) :
    Keeps s0 (State.prefetchNext s d) := by
  unfold State.prefetchNext
  iterate 60 (all_goals (try (first | with_reducible assumption | with_reducible apply State.countFld_keeps | with_reducible apply State.l2Fill_keeps | (extract_lets +onlyGivenNames x; first | (apply cut (p := Keeps s0 x); (case' hp => dsimp -zeta only [x]; clear x); (case' hq => clear_value x; revert x; intro _ _)) | (have hx : _ → State := x; clear hx; dsimp -zeta only [x]; clear x) | (have hx : _ → _ → State := x; clear hx; dsimp -zeta only [x]; clear x) | (have hx : _ → _ × State := x; clear hx; dsimp -zeta only [x]; clear x) | (clear_value x; revert x; intro _)) | split)))

theorem State.l2Hit_keeps {s0 s : State} (d : Nat) (dirties : Bool)  (h : Keeps s0 s) :
    Keeps s0 (State.l2Hit s d dirties) := by
  unfold State.l2Hit
  iterate 60 (all_goals (try (first | with_reducible assumption | with_reducible apply State.countFld_keeps | with_reducible apply State.modDram_keeps | with_reducible exact fun w => w | (intro _; try dsimp -zeta only) | (extract_lets +onlyGivenNames x; first | (apply cut (p := Keeps s0 x); (case' hp => dsimp -zeta only [x]; clear x); (case' hq => clear_value x; revert x; intro _ _)) | (clear_value x; revert x; intro _)) | split | with_reducible apply Keeps.upd | dsimp -zeta only)))

theorem State.l2Read_keeps {s0 s : State} (d : Nat)  (h : Keeps s0 s) :
    Keeps s0 (State.l2Read s d) := by
  unfold State.l2Read
  iterate 60 (all_goals (try (first | with_reducible assumption | with_reducible apply State.countFld_keeps | with_reducible apply State.l2Fill_keeps | with_reducible apply State.l2Hit_keeps | with_reducible apply State.prefetchNext_keeps | (extract_lets +onlyGivenNames x; first | (apply cut (p := Keeps s0 x); (case' hp => dsimp -zeta only [x]; clear x); (case' hq => clear_value x; revert x; intro _ _)) | (clear_value x; revert x; intro _)) | split)))

theorem State.l2Write_keeps {s0 s : State} (d : Nat)  (h : Keeps s0 s) :
    Keeps s0 (State.l2Write s d) := by
  unfold State.l2Write
  iterate 60 (all_goals (try (first | with_reducible assumption | with_reducible apply State.countFld_keeps | with_reducible apply State.dramWrite_keeps | with_reducible apply State.l2Fill_keeps | with_reducible apply State.l2Hit_keeps | with_reducible apply State.prefetchNext_keeps | (extract_lets +onlyGivenNames x; first | (apply cut (p := Keeps s0 x); (case' hp => dsimp -zeta only [x]; clear x); (case' hq => clear_value x; revert x; intro _ _)) | (clear_value x; revert x; intro _)) | split)))

theorem State.l2Commit_keeps {s0 s : State} (old : Nat → Word)  (h : Keeps s0 s) :
    Keeps s0 (State.l2Commit s old) := by
  unfold State.l2Commit
  iterate 60 (all_goals (try (first | with_reducible assumption | with_reducible apply State.dramWrite_keeps | with_reducible apply State.modDram_keeps | with_reducible apply foldl_keeps | with_reducible exact fun w => w | (intro _; try dsimp -zeta only) | (extract_lets +onlyGivenNames x; first | (apply cut (p := Keeps s0 x); (case' hp => dsimp -zeta only [x]; clear x); (case' hq => clear_value x; revert x; intro _ _)) | (have hx : _ → State := x; clear hx; dsimp -zeta only [x]; clear x) | (have hx : _ → _ → State := x; clear hx; dsimp -zeta only [x]; clear x) | (have hx : _ → _ × State := x; clear hx; dsimp -zeta only [x]; clear x) | (clear_value x; revert x; intro _)) | split | with_reducible apply Keeps.upd)))

theorem State.l2Flush_keeps {s0 s : State}   (h : Keeps s0 s) :
    Keeps s0 (State.l2Flush s) := by
  unfold State.l2Flush
  iterate 60 (all_goals (try (first | with_reducible assumption | with_reducible apply State.dramWrite_keeps | with_reducible apply State.modDram_keeps | with_reducible apply foldl_keeps | with_reducible exact fun w => w | (intro _; try dsimp -zeta only) | (extract_lets +onlyGivenNames x; first | (apply cut (p := Keeps s0 x); (case' hp => dsimp -zeta only [x]; clear x); (case' hq => clear_value x; revert x; intro _ _)) | (clear_value x; revert x; intro _)) | split | with_reducible apply Keeps.upd)))

end Sys2Proof.Machine
end

