-- ==== Sys2Proof/Laws/Keeps/Slice.lean ====
section
/-! SUPPORT. Machine/Slice.lean: each of its operations keeps the canonical forms, the queue and the order of free values. -/

namespace Sys2Proof.Machine

open Sys2Proof

theorem State.setMode_keeps {s0 s : State} (a : Fin 4) (m : Nat)  (h : Keeps s0 s) :
    Keeps s0 (State.setMode s a m) := by
  unfold State.setMode
  iterate 60 (all_goals (try (first | with_reducible assumption | with_reducible apply State.setFld_keeps)))

theorem State.noPermit_keeps {s0 s : State} (a : Fin 4)  (h : Keeps s0 s) :
    Keeps s0 (State.noPermit s a) := by
  unfold State.noPermit
  iterate 60 (all_goals (try (first | with_reducible assumption | with_reducible apply State.setFlag_keeps)))

theorem State.unsettle_keeps {s0 s : State} (a : Fin 4)  (h : Keeps s0 s) :
    Keeps s0 (State.unsettle s a) := by
  unfold State.unsettle
  iterate 60 (all_goals (try (first | with_reducible assumption | with_reducible apply State.modServo_keeps | with_reducible apply State.setFlag_keeps | with_reducible exact fun w => w | (intro _; try dsimp -zeta only) | (extract_lets +onlyGivenNames x; first | (apply cut (p := Keeps s0 x); (case' hp => dsimp -zeta only [x]; clear x); (case' hq => clear_value x; revert x; intro _ _)) | (clear_value x; revert x; intro _)) | with_reducible apply Keeps.upd)))

theorem State.requestAbort_keeps {s0 s : State} (a : Fin 4)  (h : Keeps s0 s) :
    Keeps s0 (State.requestAbort s a) := by
  unfold State.requestAbort
  iterate 60 (all_goals (try (first | with_reducible assumption | with_reducible apply State.setFlag_keeps)))

theorem State.endMediaOps_keeps {s0 s : State} (a : Fin 4)  (h : Keeps s0 s) :
    Keeps s0 (State.endMediaOps s a) := by
  unfold State.endMediaOps
  iterate 60 (all_goals (try (first | with_reducible assumption | with_reducible apply State.modAct_keeps | with_reducible apply State.requestAbort_keeps | with_reducible exact fun w => w | (intro _; try dsimp -zeta only) | (extract_lets +onlyGivenNames x; first | (apply cut (p := Keeps s0 x); (case' hp => dsimp -zeta only [x]; clear x); (case' hq => clear_value x; revert x; intro _ _)) | (clear_value x; revert x; intro _)) | with_reducible apply Keeps.upd)))

theorem State.setClock_keeps {s0 s : State} (a : Fin 4) (c : Nat)  (h : Keeps s0 s) :
    Keeps s0 (State.setClock s a c) := by
  unfold State.setClock
  iterate 60 (all_goals (try (first | with_reducible assumption | with_reducible apply State.setFld_keeps)))

theorem State.forbidInterval_keeps {s0 s : State} (a : Fin 4)  (h : Keeps s0 s) :
    Keeps s0 (State.forbidInterval s a) := by
  unfold State.forbidInterval
  iterate 60 (all_goals (try (first | with_reducible assumption | with_reducible apply State.modBatten_keeps | with_reducible apply State.setFlag_keeps | with_reducible exact fun w => w | (intro _; try dsimp -zeta only) | (extract_lets +onlyGivenNames x; first | (apply cut (p := Keeps s0 x); (case' hp => dsimp -zeta only [x]; clear x); (case' hq => clear_value x; revert x; intro _ _)) | (clear_value x; revert x; intro _)) | with_reducible apply Keeps.upd)))

theorem State.dropGate_keeps {s0 s : State} (a : Fin 4)  (h : Keeps s0 s) :
    Keeps s0 (State.dropGate s a) := by
  unfold State.dropGate
  iterate 60 (all_goals (try (first | with_reducible assumption | with_reducible apply State.modAct_keeps | with_reducible apply State.setFlag_keeps | with_reducible exact fun w => w | (intro _; try dsimp -zeta only) | (extract_lets +onlyGivenNames x; first | (apply cut (p := Keeps s0 x); (case' hp => dsimp -zeta only [x]; clear x); (case' hq => clear_value x; revert x; intro _ _)) | (clear_value x; revert x; intro _)) | with_reducible apply Keeps.upd)))

theorem State.latchCond_keeps {s0 s : State} (a : Fin 4) (k : Nat)  (h : Keeps s0 s) :
    Keeps s0 (State.latchCond s a k) := by
  unfold State.latchCond
  iterate 60 (all_goals (try (first | with_reducible assumption | with_reducible apply State.modSeq_keeps | with_reducible exact fun w => w | (intro _; try dsimp -zeta only) | (extract_lets +onlyGivenNames x; first | (apply cut (p := Keeps s0 x); (case' hp => dsimp -zeta only [x]; clear x); (case' hq => clear_value x; revert x; intro _ _)) | (clear_value x; revert x; intro _)) | with_reducible apply Keeps.upd)))

theorem State.dropList_keeps {s0 s : State} (write : Bool) (a : Nat) (q : Nat) (c : Nat)  (h : Keeps s0 s) :
    Keeps s0 (State.dropList s write a q c) := by
  unfold State.dropList
  iterate 60 (all_goals (try (first | with_reducible assumption | with_reducible apply State.forActs_keeps | with_reducible apply State.modSeq_keeps | (intro _; try dsimp -zeta only) | split)))

theorem State.chanError_keeps {s0 s : State} (a : Fin 4) (code : Nat) (wh : Nat) (budget : Bool) (head : Nat) (track : Nat) (sector : Nat)  (h : Keeps s0 s) :
    Keeps s0 (State.chanError s a code wh budget head track sector) := by
  unfold State.chanError
  iterate 60 (all_goals (try (first | with_reducible assumption | with_reducible apply State.actEvent_keeps | with_reducible apply State.setFld_keeps | with_reducible apply State.setReg_keeps | (extract_lets +onlyGivenNames x; first | (apply cut (p := Keeps s0 x); (case' hp => dsimp -zeta only [x]; clear x); (case' hq => clear_value x; revert x; intro _ _)) | (clear_value x; revert x; intro _)) | split)))

theorem State.erase_keeps {s0 s : State} (x : Nat)  (h : Keeps s0 s) :
    Keeps s0 (State.erase s x) := by
  unfold State.erase
  iterate 60 (all_goals (try (first | with_reducible assumption | with_reducible exact fun w => w | (intro _; try dsimp -zeta only) | (extract_lets +onlyGivenNames x; first | (apply cut (p := Keeps s0 x); (case' hp => dsimp -zeta only [x]; clear x); (case' hq => clear_value x; revert x; intro _ _)) | (have hx := x.wsnBlock; clear hx; dsimp -zeta only [x]; clear x) | (clear_value x; revert x; intro _)) | split | with_reducible apply Keeps.upd)))

theorem State.sectorError_keeps {s0 s : State} (a : Fin 4) (code : Nat) (wh : Nat)  (h : Keeps s0 s) :
    Keeps s0 (State.sectorError s a code wh) := by
  unfold State.sectorError
  iterate 60 (all_goals (try (first | with_reducible assumption | with_reducible apply State.chanError_keeps | with_reducible apply State.erase_keeps | with_reducible apply State.modSeq_keeps | (intro _; try dsimp -zeta only) | (extract_lets +onlyGivenNames x; first | (apply cut (p := Keeps s0 x); (case' hp => dsimp -zeta only [x]; clear x); (case' hq => clear_value x; revert x; intro _ _)) | (clear_value x; revert x; intro _)) | split | dsimp -zeta only)))

theorem State.enterReident_keeps {s0 s : State} (a : Fin 4)  (h : Keeps s0 s) :
    Keeps s0 (State.enterReident s a) := by
  unfold State.enterReident
  iterate 60 (all_goals (try (first | with_reducible assumption | with_reducible apply State.modServo_keeps | with_reducible apply State.noPermit_keeps | with_reducible apply State.setFlag_keeps | with_reducible apply State.setFld_keeps | with_reducible apply State.setMode_keeps | with_reducible apply State.unsettle_keeps | with_reducible exact fun w => w | (intro _; try dsimp -zeta only) | (extract_lets +onlyGivenNames x; first | (apply cut (p := Keeps s0 x); (case' hp => dsimp -zeta only [x]; clear x); (case' hq => clear_value x; revert x; intro _ _)) | (clear_value x; revert x; intro _)) | with_reducible apply Keeps.upd)))

theorem State.picGo_keeps {s0 s : State}   (h : Keeps s0 s) :
    Keeps s0 (State.picGo s) := by
  unfold State.picGo
  iterate 60 (all_goals (try (first | with_reducible assumption | with_reducible exact fun w => w | (intro _; try dsimp -zeta only) | (extract_lets +onlyGivenNames x; first | (apply cut (p := Keeps s0 x); (case' hp => dsimp -zeta only [x]; clear x); (case' hq => clear_value x; revert x; intro _ _)) | (clear_value x; revert x; intro _)) | split | with_reducible apply Keeps.upd | dsimp -zeta only)))

theorem State.picSend_keeps {s0 s : State} (kind : PicKind) (a : Nat) (cs : Nat) (addr : Nat) (data : Nat)  (h : Keeps s0 s) :
    Keeps s0 (State.picSend s kind a cs addr data) := by
  unfold State.picSend
  iterate 60 (all_goals (try (first | with_reducible assumption | with_reducible apply State.picGo_keeps | with_reducible exact fun w => w | (intro _; try dsimp -zeta only) | (extract_lets +onlyGivenNames x; first | (apply cut (p := Keeps s0 x); (case' hp => dsimp -zeta only [x]; clear x); (case' hq => clear_value x; revert x; intro _ _)) | (clear_value x; revert x; intro _)) | with_reducible apply Keeps.upd)))

theorem State.picFrame_keeps {s0 s : State} (a : Fin 4) (data : Nat)  (h : Keeps s0 s) :
    Keeps s0 (State.picFrame s a data) := by
  unfold State.picFrame
  iterate 60 (all_goals (try (first | with_reducible assumption | with_reducible apply State.picSend_keeps)))

theorem State.picDemand_keeps {s0 s : State} (a : Fin 4) (demand : Int)  (h : Keeps s0 s) :
    Keeps s0 (State.picDemand s a demand) := by
  unfold State.picDemand
  iterate 60 (all_goals (try (first | with_reducible assumption | with_reducible apply State.picSend_keeps)))

theorem State.picParkRead_keeps {s0 s : State} (a : Fin 4)  (h : Keeps s0 s) :
    Keeps s0 (State.picParkRead s a) := by
  unfold State.picParkRead
  iterate 60 (all_goals (try (first | with_reducible assumption | with_reducible apply State.picSend_keeps)))

theorem State.unloaded_keeps {s0 s : State} (a : Fin 4)  (h : Keeps s0 s) :
    Keeps s0 (State.unloaded s a) := by
  unfold State.unloaded
  iterate 60 (all_goals (try (first | with_reducible assumption | with_reducible apply State.modServo_keeps | with_reducible apply State.noPermit_keeps | with_reducible apply State.setMode_keeps | with_reducible apply State.unsettle_keeps | with_reducible exact fun w => w | (intro _; try dsimp -zeta only) | (extract_lets +onlyGivenNames x; first | (apply cut (p := Keeps s0 x); (case' hp => dsimp -zeta only [x]; clear x); (case' hq => clear_value x; revert x; intro _ _)) | (clear_value x; revert x; intro _)) | with_reducible apply Keeps.upd)))

theorem State.unloadFrame_keeps {s0 s : State} (a : Fin 4)  (h : Keeps s0 s) :
    Keeps s0 (State.unloadFrame s a) := by
  unfold State.unloadFrame
  iterate 60 (all_goals (try (first | with_reducible assumption | with_reducible apply State.picFrame_keeps | with_reducible apply State.unloaded_keeps)))

theorem State.syncRebuild_keeps {s0 s : State}   (h : Keeps s0 s) :
    Keeps s0 (State.syncRebuild s) := by
  unfold State.syncRebuild
  iterate 60 (all_goals (try (first | with_reducible assumption | with_reducible apply State.setFld_keeps | with_reducible apply foldl_keeps | (intro _; try dsimp -zeta only) | (extract_lets +onlyGivenNames x; first | (apply cut (p := Keeps s0 x); (case' hp => dsimp -zeta only [x]; clear x); (case' hq => clear_value x; revert x; intro _ _)) | (clear_value x; revert x; intro _)) | split | dsimp -zeta only)))

theorem State.noteBroken_keeps {s0 s : State} (before : State)  (h : Keeps s0 s) :
    Keeps s0 (State.noteBroken before s) := by
  unfold State.noteBroken
  iterate 60 (all_goals (try (first | with_reducible assumption | with_reducible apply State.event_keeps | with_reducible apply State.syncRebuild_keeps | (extract_lets +onlyGivenNames x; first | (apply cut (p := Keeps s0 x); (case' hp => dsimp -zeta only [x]; clear x); (case' hq => clear_value x; revert x; intro _ _)) | (clear_value x; revert x; intro _)) | split)))

theorem State.actuatorLost_keeps {s0 s : State} (a : Fin 4)  (h : Keeps s0 s) :
    Keeps s0 (State.actuatorLost s a) := by
  unfold State.actuatorLost
  iterate 60 (all_goals (try (first | with_reducible assumption | with_reducible apply State.endMediaOps_keeps | with_reducible apply State.event_keeps | with_reducible apply State.modAct_keeps | with_reducible apply State.noteBroken_keeps | with_reducible apply State.setFld_keeps | with_reducible apply State.unloaded_keeps | with_reducible exact fun w => w | (intro _; try dsimp -zeta only) | (extract_lets +onlyGivenNames x; first | (apply cut (p := Keeps s0 x); (case' hp => dsimp -zeta only [x]; clear x); (case' hq => clear_value x; revert x; intro _ _)) | (have hx := x.wsnBlock; clear hx; dsimp -zeta only [x]; clear x) | (clear_value x; revert x; intro _)) | split | with_reducible apply Keeps.upd)))

theorem State.surfaceLost_keeps {s0 s : State} (x : Nat)  (h : Keeps s0 s) :
    Keeps s0 (State.surfaceLost s x) := by
  unfold State.surfaceLost
  iterate 60 (all_goals (try (first | with_reducible assumption | with_reducible apply State.actEvent_keeps | with_reducible apply State.actuatorLost_keeps | with_reducible apply State.noteBroken_keeps | with_reducible apply State.setFld_keeps | with_reducible exact fun w => w | (intro _; try dsimp -zeta only) | (extract_lets +onlyGivenNames x; first | (apply cut (p := Keeps s0 x); (case' hp => dsimp -zeta only [x]; clear x); (case' hq => clear_value x; revert x; intro _ _)) | (have hx := x.wsnBlock; clear hx; dsimp -zeta only [x]; clear x) | (clear_value x; revert x; intro _)) | split | with_reducible apply Keeps.upd)))

theorem State.addUnrec_keeps {s0 s : State} (ns : Nat) (lba : Nat) (x : Nat)  (h : Keeps s0 s) :
    Keeps s0 (State.addUnrec s ns lba x) := by
  unfold State.addUnrec
  iterate 60 (all_goals (try (first | with_reducible assumption | with_reducible apply State.countFld_keeps | with_reducible apply State.surfaceLost_keeps | with_reducible apply foldl_keeps | with_reducible exact fun w => w | (intro _; try dsimp -zeta only) | (extract_lets +onlyGivenNames x; first | (apply cut (p := Keeps s0 x); (case' hp => dsimp -zeta only [x]; clear x); (case' hq => clear_value x; revert x; intro _ _)) | (have hx := x.wsnBlock; clear hx; dsimp -zeta only [x]; clear x) | (clear_value x; revert x; intro _)) | split | with_reducible apply Keeps.upd)))

end Sys2Proof.Machine
end

