-- ==== Sys2Proof/Laws/Keeps/Servo.lean ====
section
/-! SUPPORT. Machine/Servo.lean: each of its operations keeps the canonical forms, the queue and the order of free values. -/

namespace Sys2Proof.Machine

open Sys2Proof

theorem State.calibrateHead_keeps {s0 s : State} (c : HeadCal)  (h : Keeps s0 s) :
    Keeps s0 (State.calibrateHead s c) := by
  unfold State.calibrateHead
  iterate 60 (all_goals (try (first | with_reducible assumption | with_reducible apply State.actEvent_keeps | with_reducible apply State.modBatten_keeps | with_reducible apply State.setReg_keeps | with_reducible apply State.surfaceLost_keeps | with_reducible apply foldl_keeps | with_reducible exact fun w => w | (intro _; try dsimp -zeta only) | (extract_lets +onlyGivenNames x; first | (apply cut (p := Keeps s0 x); (case' hp => dsimp -zeta only [x]; clear x); (case' hq => clear_value x; revert x; intro _ _)) | (have hx := x.wsnBlock; clear hx; dsimp -zeta only [x]; clear x) | (clear_value x; revert x; intro _)) | split | with_reducible apply Keeps.upd)))

theorem State.openWindow_keeps {s0 s : State} (a : Fin 4) (c : Nat) (n : Nat)  (h : Keeps s0 s) :
    Keeps s0 (State.openWindow s a c n) := by
  unfold State.openWindow
  iterate 60 (all_goals (try (first | with_reducible assumption | with_reducible apply State.countFld_keeps | with_reducible apply State.modBatten_keeps | with_reducible apply State.setFld_keeps | with_reducible exact fun w => w | (intro _; try dsimp -zeta only) | (extract_lets +onlyGivenNames x; first | (apply cut (p := Keeps s0 x); (case' hp => dsimp -zeta only [x]; clear x); (case' hq => clear_value x; revert x; intro _ _)) | (clear_value x; revert x; intro _)) | split | with_reducible apply Keeps.upd)))

theorem State.loadEqualiser_keeps {s0 s : State} (a : Fin 4)  (h : Keeps s0 s) :
    Keeps s0 (State.loadEqualiser s a) := by
  unfold State.loadEqualiser
  iterate 60 (all_goals (try (first | with_reducible assumption | with_reducible apply State.modAct_keeps | with_reducible exact fun w => w | (intro _; try dsimp -zeta only) | (extract_lets +onlyGivenNames x; first | (apply cut (p := Keeps s0 x); (case' hp => dsimp -zeta only [x]; clear x); (case' hq => clear_value x; revert x; intro _ _)) | (clear_value x; revert x; intro _)) | with_reducible apply Keeps.upd)))

theorem State.enterZone_keeps {s0 s : State} (a : Fin 4) (z : Nat)  (h : Keeps s0 s) :
    Keeps s0 (State.enterZone s a z) := by
  unfold State.enterZone
  iterate 60 (all_goals (try (first | with_reducible assumption | with_reducible apply State.actEvent_keeps | with_reducible apply State.setFlag_keeps | with_reducible apply State.setFld_keeps | (extract_lets +onlyGivenNames x; first | (apply cut (p := Keeps s0 x); (case' hp => dsimp -zeta only [x]; clear x); (case' hq => clear_value x; revert x; intro _ _)) | (clear_value x; revert x; intro _)) | split)))

theorem State.moveToTrack_keeps {s0 s : State} (a : Fin 4) (t : Nat)  (h : Keeps s0 s) :
    Keeps s0 (State.moveToTrack s a t) := by
  unfold State.moveToTrack
  iterate 60 (all_goals (try (first | with_reducible assumption | with_reducible apply State.enterZone_keeps | with_reducible apply State.loadEqualiser_keeps | with_reducible apply State.modBatten_keeps | with_reducible apply State.openWindow_keeps | with_reducible apply State.setClock_keeps | with_reducible apply State.setFld_keeps | with_reducible exact fun w => w | (intro _; try dsimp -zeta only) | (extract_lets +onlyGivenNames x; first | (apply cut (p := Keeps s0 x); (case' hp => dsimp -zeta only [x]; clear x); (case' hq => clear_value x; revert x; intro _ _)) | (clear_value x; revert x; intro _)) | split | with_reducible apply Keeps.upd | dsimp -zeta only)))

theorem State.enterFollowing_keeps {s0 s : State} (a : Fin 4) (uVcm : Int) (uMa : Int)  (h : Keeps s0 s) :
    Keeps s0 (State.enterFollowing s a uVcm uMa) := by
  unfold State.enterFollowing
  iterate 60 (all_goals (try (first | with_reducible assumption | with_reducible apply State.modServo_keeps | with_reducible apply State.noPermit_keeps | with_reducible apply State.setFld_keeps | with_reducible apply State.setMode_keeps | with_reducible apply State.unsettle_keeps | with_reducible exact fun w => w | (intro _; try dsimp -zeta only) | (extract_lets +onlyGivenNames x; first | (apply cut (p := Keeps s0 x); (case' hp => dsimp -zeta only [x]; clear x); (case' hq => clear_value x; revert x; intro _ _)) | (clear_value x; revert x; intro _)) | with_reducible apply Keeps.upd)))

theorem State.beginSeek_keeps {s0 s : State} (a : Fin 4) (target : Nat)  (h : Keeps s0 s) :
    Keeps s0 (State.beginSeek s a target) := by
  unfold State.beginSeek
  iterate 60 (all_goals (try (first | with_reducible assumption | with_reducible apply State.enterFollowing_keeps | with_reducible apply State.modServo_keeps | with_reducible apply State.noPermit_keeps | with_reducible apply State.setFld_keeps | with_reducible apply State.setMode_keeps | with_reducible apply State.unsettle_keeps | with_reducible exact fun w => w | (intro _; try dsimp -zeta only) | (extract_lets +onlyGivenNames x; first | (apply cut (p := Keeps s0 x); (case' hp => dsimp -zeta only [x]; clear x); (case' hq => clear_value x; revert x; intro _ _)) | (clear_value x; revert x; intro _)) | split | with_reducible apply Keeps.upd | dsimp -zeta only)))

theorem State.seekRequested_keeps {s0 s : State} (a : Fin 4) (target : Nat)  (h : Keeps s0 s) :
    Keeps s0 (State.seekRequested s a target) := by
  unfold State.seekRequested
  iterate 60 (all_goals (try (first | with_reducible assumption | with_reducible apply State.beginSeek_keeps | with_reducible apply State.modServo_keeps | with_reducible exact fun w => w | (intro _; try dsimp -zeta only) | (extract_lets +onlyGivenNames x; first | (apply cut (p := Keeps s0 x); (case' hp => dsimp -zeta only [x]; clear x); (case' hq => clear_value x; revert x; intro _ _)) | (clear_value x; revert x; intro _)) | split | with_reducible apply Keeps.upd)))

theorem execSeekRequest_keeps {s0 s : State} (a : Fin 4) (track : Nat)  (h : Keeps s0 s) :
    Goes s0 (execSeekRequest a track s) := by
  unfold execSeekRequest
  iterate 60 (all_goals (try (first | with_reducible assumption | with_reducible apply goes_next | with_reducible apply State.seekRequested_keeps)))

theorem execSeekHandover_keeps {s0 s : State} (a : Fin 4)  (h : Keeps s0 s) :
    Goes s0 (execSeekHandover a s) := by
  unfold execSeekHandover
  iterate 60 (all_goals (try (first | with_reducible assumption | with_reducible apply goes_next | with_reducible apply State.beginSeek_keeps | with_reducible apply State.enterFollowing_keeps | with_reducible apply State.modServo_keeps | with_reducible apply State.moveToTrack_keeps | with_reducible exact fun w => w | (intro _; try dsimp -zeta only) | (extract_lets +onlyGivenNames x; first | (apply cut (p := Keeps s0 x); (case' hp => dsimp -zeta only [x]; clear x); (case' hq => clear_value x; revert x; intro _ _)) | (clear_value x; revert x; intro _)) | split | with_reducible apply Keeps.upd | dsimp -zeta only)))

theorem State.followRafter_keeps {s0 s : State} (a : Fin 4) (t : Nat)  (h : Keeps s0 s) :
    Keeps s0 (State.followRafter s a t) := by
  unfold State.followRafter
  iterate 60 (all_goals (try (first | with_reducible assumption | with_reducible apply State.actEvent_keeps | with_reducible apply State.beginSeek_keeps | with_reducible apply State.countFld_keeps | with_reducible apply State.modServo_keeps | with_reducible apply State.moveToTrack_keeps | with_reducible apply State.noPermit_keeps | with_reducible apply State.requestAbort_keeps | with_reducible apply State.setFlag_keeps | with_reducible exact fun w => w | (intro _; try dsimp -zeta only) | (extract_lets +onlyGivenNames x; first | (apply cut (p := Keeps s0 x); (case' hp => dsimp -zeta only [x]; clear x); (case' hq => clear_value x; revert x; intro _ _)) | (clear_value x; revert x; intro _)) | split | with_reducible apply Keeps.upd | dsimp -zeta only)))

theorem State.seekRafter_keeps {s0 s : State} (a : Fin 4) (k : Seek) (t : Nat)  (h : Keeps s0 s) :
    Keeps s0 (State.seekRafter s a k t) := by
  unfold State.seekRafter
  iterate 60 (all_goals (try (first | with_reducible assumption | with_reducible apply State.actEvent_keeps | with_reducible apply State.countFld_keeps | with_reducible apply State.enterReident_keeps | with_reducible apply State.modServo_keeps | with_reducible exact fun w => w | (intro _; try dsimp -zeta only) | (extract_lets +onlyGivenNames x; first | (apply cut (p := Keeps s0 x); (case' hp => dsimp -zeta only [x]; clear x); (case' hq => clear_value x; revert x; intro _ _)) | (clear_value x; revert x; intro _)) | split | with_reducible apply Keeps.upd)))

theorem State.reidentRafter_keeps {s0 s : State} (a : Fin 4) (index : Nat) (t : Nat)  (h : Keeps s0 s) :
    Keeps s0 (State.reidentRafter s a index t) := by
  unfold State.reidentRafter
  iterate 60 (all_goals (try (first | with_reducible assumption | with_reducible apply State.beginSeek_keeps | with_reducible apply State.modAct_keeps | with_reducible apply State.modServo_keeps | with_reducible apply State.moveToTrack_keeps | with_reducible exact fun w => w | (intro _; try dsimp -zeta only) | (extract_lets +onlyGivenNames x; first | (apply cut (p := Keeps s0 x); (case' hp => dsimp -zeta only [x]; clear x); (case' hq => clear_value x; revert x; intro _ _)) | (clear_value x; revert x; intro _)) | split | with_reducible apply Keeps.upd | dsimp -zeta only)))

theorem State.loopRafter_keeps {s0 s : State} (a : Fin 4) (predicted : Nat) (index : Nat) (t : Nat)  (h : Keeps s0 s) :
    Keeps s0 (State.loopRafter s a predicted index t) := by
  unfold State.loopRafter
  iterate 60 (all_goals (try (first | with_reducible assumption | with_reducible apply State.countFld_keeps | with_reducible apply State.followRafter_keeps | with_reducible apply State.reidentRafter_keeps | with_reducible apply State.seekRafter_keeps | split | dsimp -zeta only)))

theorem State.reloadFailed_keeps {s0 s : State} (a : Fin 4)  (h : Keeps s0 s) :
    Keeps s0 (State.reloadFailed s a) := by
  unfold State.reloadFailed
  iterate 60 (all_goals (try (first | with_reducible assumption | with_reducible apply State.actuatorLost_keeps | with_reducible apply State.modServo_keeps | with_reducible exact fun w => w | (intro _; try dsimp -zeta only) | (extract_lets +onlyGivenNames x; first | (apply cut (p := Keeps s0 x); (case' hp => dsimp -zeta only [x]; clear x); (case' hq => clear_value x; revert x; intro _ _)) | (clear_value x; revert x; intro _)) | split | with_reducible apply Keeps.upd)))

theorem execReidentTimeout_keeps {s0 s : State} (a : Fin 4)  (h : Keeps s0 s) :
    Goes s0 (execReidentTimeout a s) := by
  unfold execReidentTimeout
  iterate 60 (all_goals (try (first | with_reducible assumption | with_reducible apply goes_next | with_reducible apply State.actEvent_keeps | with_reducible apply State.reloadFailed_keeps | with_reducible apply State.unloadFrame_keeps | (extract_lets +onlyGivenNames x; first | (apply cut (p := Keeps s0 x); (case' hp => dsimp -zeta only [x]; clear x); (case' hq => clear_value x; revert x; intro _ _)) | (clear_value x; revert x; intro _)) | split)))

theorem execActuatorReload_keeps {s0 s : State} (a : Fin 4) (ok : Bool)  (h : Keeps s0 s) :
    Goes s0 (execActuatorReload a ok s) := by
  unfold execActuatorReload
  iterate 60 (all_goals (try (first | with_reducible assumption | with_reducible apply goes_next | with_reducible apply State.enterReident_keeps | with_reducible apply State.modServo_keeps | with_reducible apply State.reloadFailed_keeps | with_reducible exact fun w => w | (intro _; try dsimp -zeta only) | (extract_lets +onlyGivenNames x; first | (apply cut (p := Keeps s0 x); (case' hp => dsimp -zeta only [x]; clear x); (case' hq => clear_value x; revert x; intro _ _)) | (clear_value x; revert x; intro _)) | split | with_reducible apply Keeps.upd)))

theorem State.guardAt_keeps {s0 s : State} (a : Fin 4) (stage : Nat) (k : Nat)  (h : Keeps s0 s) :
    Keeps s0 (State.guardAt s a stage k) := by
  unfold State.guardAt
  iterate 60 (all_goals (try (first | with_reducible assumption | with_reducible apply State.actEvent_keeps | with_reducible apply State.setFlag_keeps | with_reducible apply State.setFld_keeps | (extract_lets +onlyGivenNames x; first | (apply cut (p := Keeps s0 x); (case' hp => dsimp -zeta only [x]; clear x); (case' hq => clear_value x; revert x; intro _ _)) | (clear_value x; revert x; intro _)) | split)))

theorem State.stageFlags_keeps {s0 s : State} (a : Fin 4) (stage : Nat) (o : StageOut)  (h : Keeps s0 s) :
    Keeps s0 (State.stageFlags s a stage o) := by
  unfold State.stageFlags
  iterate 60 (all_goals (try (first | with_reducible assumption | with_reducible apply State.guardAt_keeps | with_reducible apply State.setFlag_keeps | with_reducible apply foldl_keeps | (intro _; try dsimp -zeta only) | (extract_lets +onlyGivenNames x; first | (apply cut (p := Keeps s0 x); (case' hp => dsimp -zeta only [x]; clear x); (case' hq => clear_value x; revert x; intro _ _)) | (clear_value x; revert x; intro _)) | split)))

theorem State.feedForward_keeps {s0 s : State} (a : Fin 4) (q : Nat) (rvx : Int) (rvy : Int)  (h : Keeps s0 s) :
    Keeps s0 (State.feedForward s a q rvx rvy).2 := by
  unfold State.feedForward
  iterate 60 (all_goals (try (first | with_reducible assumption | with_reducible apply State.modServo_keeps | with_reducible apply State.stageFlags_keeps | with_reducible apply foldl_keeps | with_reducible apply foldl_keeps_snd | with_reducible exact fun w => w | (intro _; try dsimp -zeta only) | (extract_lets +onlyGivenNames x; first | (apply cut (p := Keeps s0 x); (case' hp => dsimp -zeta only [x]; clear x); (case' hq => clear_value x; revert x; intro _ _)) | (apply cut (p := Keeps s0 x.2); (case' hp => dsimp -zeta only [x]; clear x); (case' hq => clear_value x; revert x; intro _ _)) | (have hx : _ → State := x; clear hx; dsimp -zeta only [x]; clear x) | (have hx : _ → _ → State := x; clear hx; dsimp -zeta only [x]; clear x) | (have hx : _ → _ × State := x; clear hx; dsimp -zeta only [x]; clear x) | (clear_value x; revert x; intro _)) | split | with_reducible apply Keeps.upd | dsimp -zeta only)))

theorem State.demodulate_keeps {s0 s : State} (a : Fin 4) (i : Integrals)  (h : Keeps s0 s) :
    Keeps s0 (State.demodulate s a i).2 := by
  unfold State.demodulate
  iterate 60 (all_goals (try (first | with_reducible assumption | with_reducible apply State.modAct_keeps | with_reducible apply State.setClock_keeps | with_reducible apply State.setFlag_keeps | with_reducible apply State.setFld_keeps | with_reducible apply State.setReg_keeps | with_reducible apply State.setSFld_keeps | with_reducible exact fun w => w | (intro _; try dsimp -zeta only) | (extract_lets +onlyGivenNames x; first | (apply cut (p := Keeps s0 x); (case' hp => dsimp -zeta only [x]; clear x); (case' hq => clear_value x; revert x; intro _ _)) | (apply cut (p := Keeps s0 x.2); (case' hp => dsimp -zeta only [x]; clear x); (case' hq => clear_value x; revert x; intro _ _)) | (clear_value x; revert x; intro _)) | split | with_reducible apply Keeps.upd | dsimp -zeta only)))

theorem State.runStages_keeps {s0 s : State} (a : Fin 4) (m : Sample)  (h : Keeps s0 s) :
    Keeps s0 (State.runStages s a m).2 := by
  unfold State.runStages
  iterate 60 (all_goals (try (first | with_reducible assumption | with_reducible apply State.modServo_keeps | with_reducible apply State.setFlag_keeps | with_reducible apply State.stageFlags_keeps | with_reducible exact fun w => w | (intro _; try dsimp -zeta only) | (extract_lets +onlyGivenNames x; first | (apply cut (p := Keeps s0 x); (case' hp => dsimp -zeta only [x]; clear x); (case' hq => clear_value x; revert x; intro _ _)) | (apply cut (p := Keeps s0 x.2); (case' hp => dsimp -zeta only [x]; clear x); (case' hq => clear_value x; revert x; intro _ _)) | (have hx : _ → State := x; clear hx; dsimp -zeta only [x]; clear x) | (have hx : _ → _ → State := x; clear hx; dsimp -zeta only [x]; clear x) | (have hx : _ → _ × State := x; clear hx; dsimp -zeta only [x]; clear x) | (clear_value x; revert x; intro _)) | split | with_reducible apply Keeps.upd | dsimp -zeta only)))

theorem State.modeDemand_keeps {s0 s : State} (a : Fin 4) (m : Sample)  (h : Keeps s0 s) :
    Keeps s0 (State.modeDemand s a m).2 := by
  unfold State.modeDemand
  iterate 60 (all_goals (try (first | with_reducible assumption | with_reducible apply State.modServo_keeps | with_reducible apply State.runStages_keeps | with_reducible exact fun w => w | (intro _; try dsimp -zeta only) | (extract_lets +onlyGivenNames x; first | (apply cut (p := Keeps s0 x); (case' hp => dsimp -zeta only [x]; clear x); (case' hq => clear_value x; revert x; intro _ _)) | (apply cut (p := Keeps s0 x.2); (case' hp => dsimp -zeta only [x]; clear x); (case' hq => clear_value x; revert x; intro _ _)) | (clear_value x; revert x; intro _)) | split | with_reducible apply Keeps.upd | dsimp -zeta only)))

theorem State.sendOutputs_keeps {s0 s : State} (a : Fin 4) (demand : Int) (ff : Int)  (h : Keeps s0 s) :
    Keeps s0 (State.sendOutputs s a demand ff) := by
  unfold State.sendOutputs
  iterate 60 (all_goals (try (first | with_reducible assumption | with_reducible apply State.modServo_keeps | with_reducible apply State.picDemand_keeps | with_reducible apply State.setSFld_keeps | with_reducible exact fun w => w | (intro _; try dsimp -zeta only) | (extract_lets +onlyGivenNames x; first | (apply cut (p := Keeps s0 x); (case' hp => dsimp -zeta only [x]; clear x); (case' hq => clear_value x; revert x; intro _ _)) | (clear_value x; revert x; intro _)) | split | with_reducible apply Keeps.upd)))

theorem State.offTrack_keeps {s0 s : State} (a : Fin 4)  (h : Keeps s0 s) :
    Keeps s0 (State.offTrack s a) := by
  unfold State.offTrack
  iterate 60 (all_goals (try (first | with_reducible assumption | with_reducible apply State.countFld_keeps | with_reducible apply State.dropGate_keeps | with_reducible apply State.modServo_keeps | with_reducible apply State.noPermit_keeps | with_reducible apply State.sectorError_keeps | with_reducible apply State.setFlag_keeps | with_reducible apply State.unsettle_keeps | with_reducible exact fun w => w | (intro _; try dsimp -zeta only) | (extract_lets +onlyGivenNames x; first | (apply cut (p := Keeps s0 x); (case' hp => dsimp -zeta only [x]; clear x); (case' hq => clear_value x; revert x; intro _ _)) | (clear_value x; revert x; intro _)) | split | with_reducible apply Keeps.upd)))

theorem State.supervise_keeps {s0 s : State} (a : Fin 4) (m : Sample)  (h : Keeps s0 s) :
    Keeps s0 (State.supervise s a m) := by
  unfold State.supervise
  iterate 60 (all_goals (try (first | with_reducible assumption | with_reducible apply State.modServo_keeps | with_reducible exact fun w => w | (intro _; try dsimp -zeta only) | (extract_lets +onlyGivenNames x; first | (apply cut (p := Keeps s0 x); (case' hp => dsimp -zeta only [x]; clear x); (case' hq => clear_value x; revert x; intro _ _)) | (clear_value x; revert x; intro _)) | split | with_reducible apply Keeps.upd)))

theorem State.checkIsns_keeps {s0 s : State} (a : Fin 4) (isns : Int) (inForce : Int)  (h : Keeps s0 s) :
    Keeps s0 (State.checkIsns s a isns inForce) := by
  unfold State.checkIsns
  iterate 60 (all_goals (try (first | with_reducible assumption | with_reducible apply State.modServo_keeps | with_reducible apply State.setSFld_keeps | with_reducible exact fun w => w | (intro _; try dsimp -zeta only) | (extract_lets +onlyGivenNames x; first | (apply cut (p := Keeps s0 x); (case' hp => dsimp -zeta only [x]; clear x); (case' hq => clear_value x; revert x; intro _ _)) | (clear_value x; revert x; intro _)) | split | with_reducible apply Keeps.upd | dsimp -zeta only)))

theorem State.checkRv_keeps {s0 s : State} (a : Fin 4) (rvx : Int) (rvy : Int)  (h : Keeps s0 s) :
    Keeps s0 (State.checkRv s a rvx rvy) := by
  unfold State.checkRv
  iterate 60 (all_goals (try (first | with_reducible assumption | with_reducible apply State.modServo_keeps | with_reducible exact fun w => w | (intro _; try dsimp -zeta only) | (extract_lets +onlyGivenNames x; first | (apply cut (p := Keeps s0 x); (case' hp => dsimp -zeta only [x]; clear x); (case' hq => clear_value x; revert x; intro _ _)) | (have hx : _ → State := x; clear hx; dsimp -zeta only [x]; clear x) | (have hx : _ → _ → State := x; clear hx; dsimp -zeta only [x]; clear x) | (have hx : _ → _ × State := x; clear hx; dsimp -zeta only [x]; clear x) | (clear_value x; revert x; intro _)) | split | with_reducible apply Keeps.upd)))

theorem State.writeMirror_keeps {s0 s : State} (a : Fin 4)  (h : Keeps s0 s) :
    Keeps s0 (State.writeMirror s a) := by
  unfold State.writeMirror
  iterate 60 (all_goals (try (first | with_reducible assumption | with_reducible apply State.modServo_keeps | with_reducible exact fun w => w | (intro _; try dsimp -zeta only) | (extract_lets +onlyGivenNames x; first | (apply cut (p := Keeps s0 x); (case' hp => dsimp -zeta only [x]; clear x); (case' hq => clear_value x; revert x; intro _ _)) | (clear_value x; revert x; intro _)) | with_reducible apply Keeps.upd)))

theorem State.sampleDemand_keeps {s0 s : State} (a : Fin 4) (m : Sample) (rvx : Int) (rvy : Int)  (h : Keeps s0 s) :
    Keeps s0 (State.sampleDemand s a m rvx rvy) := by
  unfold State.sampleDemand
  iterate 60 (all_goals (try (first | with_reducible assumption | with_reducible apply State.feedForward_keeps | with_reducible apply State.modServo_keeps | with_reducible apply State.modeDemand_keeps | with_reducible apply State.sendOutputs_keeps | with_reducible apply State.setFlag_keeps | with_reducible exact fun w => w | (intro _; try dsimp -zeta only) | (extract_lets +onlyGivenNames x; first | (apply cut (p := Keeps s0 x); (case' hp => dsimp -zeta only [x]; clear x); (case' hq => clear_value x; revert x; intro _ _)) | (apply cut (p := Keeps s0 x.2); (case' hp => dsimp -zeta only [x]; clear x); (case' hq => clear_value x; revert x; intro _ _)) | (clear_value x; revert x; intro _)) | split | with_reducible apply Keeps.upd | dsimp -zeta only)))

theorem State.judgeSample_keeps {s0 s : State} (a : Fin 4) (m : Sample)  (h : Keeps s0 s) :
    Keeps s0 (State.judgeSample s a m) := by
  unfold State.judgeSample
  iterate 60 (all_goals (try (first | with_reducible assumption | with_reducible apply State.modServo_keeps | with_reducible apply State.offTrack_keeps | with_reducible apply State.supervise_keeps | with_reducible exact fun w => w | (intro _; try dsimp -zeta only) | (extract_lets +onlyGivenNames x; first | (apply cut (p := Keeps s0 x); (case' hp => dsimp -zeta only [x]; clear x); (case' hq => clear_value x; revert x; intro _ _)) | (clear_value x; revert x; intro _)) | split | with_reducible apply Keeps.upd)))

theorem State.sampleEnds_keeps {s0 s : State}   (h : Keeps s0 s) :
    Keeps s0 (State.sampleEnds s) := by
  unfold State.sampleEnds
  iterate 60 (all_goals (try (first | with_reducible assumption | with_reducible apply State.picGo_keeps | with_reducible exact fun w => w | (intro _; try dsimp -zeta only) | (extract_lets +onlyGivenNames x; first | (apply cut (p := Keeps s0 x); (case' hp => dsimp -zeta only [x]; clear x); (case' hq => clear_value x; revert x; intro _ _)) | (clear_value x; revert x; intro _)) | with_reducible apply Keeps.upd)))

theorem execServoSample_keeps {s0 s : State} (a : Fin 4) (x : Integrals) (isns : Int) (rvx : Int) (rvy : Int)  (h : Keeps s0 s) :
    Goes s0 (execServoSample a x isns rvx rvy s) := by
  unfold execServoSample
  iterate 60 (all_goals (try (first | with_reducible assumption | with_reducible apply goes_next | with_reducible apply State.checkIsns_keeps | with_reducible apply State.checkRv_keeps | with_reducible apply State.demodulate_keeps | with_reducible apply State.judgeSample_keeps | with_reducible apply State.modServo_keeps | with_reducible apply State.sampleDemand_keeps | with_reducible apply State.sampleEnds_keeps | with_reducible apply State.setFlag_keeps | with_reducible apply State.writeMirror_keeps | with_reducible exact fun w => w | (intro _; try dsimp -zeta only) | (extract_lets +onlyGivenNames x; first | (apply cut (p := Keeps s0 x); (case' hp => dsimp -zeta only [x]; clear x); (case' hq => clear_value x; revert x; intro _ _)) | (apply cut (p := Keeps s0 x.2); (case' hp => dsimp -zeta only [x]; clear x); (case' hq => clear_value x; revert x; intro _ _)) | (clear_value x; revert x; intro _)) | split | with_reducible apply Keeps.upd | dsimp -zeta only)))

theorem execSettled_keeps {s0 s : State} (a : Fin 4)  (h : Keeps s0 s) :
    Goes s0 (execSettled a s) := by
  unfold execSettled
  iterate 60 (all_goals (try (first | with_reducible assumption | with_reducible apply goes_next | with_reducible apply State.modServo_keeps | with_reducible apply State.setFlag_keeps | with_reducible exact fun w => w | (intro _; try dsimp -zeta only) | (extract_lets +onlyGivenNames x; first | (apply cut (p := Keeps s0 x); (case' hp => dsimp -zeta only [x]; clear x); (case' hq => clear_value x; revert x; intro _ _)) | (clear_value x; revert x; intro _)) | split | with_reducible apply Keeps.upd)))

theorem execBattenGainStep_keeps {s0 s : State} (a : Fin 4)  (h : Keeps s0 s) :
    Goes s0 (execBattenGainStep a s) := by
  unfold execBattenGainStep
  iterate 60 (all_goals (try (first | with_reducible assumption | with_reducible apply goes_next | with_reducible apply State.modBatten_keeps | with_reducible apply State.openWindow_keeps | with_reducible apply State.setFld_keeps | with_reducible exact fun w => w | (intro _; try dsimp -zeta only) | (extract_lets +onlyGivenNames x; first | (apply cut (p := Keeps s0 x); (case' hp => dsimp -zeta only [x]; clear x); (case' hq => clear_value x; revert x; intro _ _)) | (clear_value x; revert x; intro _)) | split | with_reducible apply Keeps.upd)))

theorem execInvalidWindowEnd_keeps {s0 s : State} (a : Fin 4)  (h : Keeps s0 s) :
    Goes s0 (execInvalidWindowEnd a s) := by
  unfold execInvalidWindowEnd
  iterate 60 (all_goals (try (first | with_reducible assumption | with_reducible apply goes_next | with_reducible apply State.modBatten_keeps | with_reducible apply State.setFld_keeps | with_reducible exact fun w => w | (intro _; try dsimp -zeta only) | (extract_lets +onlyGivenNames x; first | (apply cut (p := Keeps s0 x); (case' hp => dsimp -zeta only [x]; clear x); (case' hq => clear_value x; revert x; intro _ _)) | (clear_value x; revert x; intro _)) | with_reducible apply Keeps.upd)))

theorem State.supervisorTrip_keeps {s0 s : State} (a : Fin 4)  (h : Keeps s0 s) :
    Keeps s0 (State.supervisorTrip s a) := by
  unfold State.supervisorTrip
  iterate 60 (all_goals (try (first | with_reducible assumption | with_reducible apply State.actEvent_keeps | with_reducible apply State.countFld_keeps | with_reducible apply State.modServo_keeps | with_reducible apply State.noPermit_keeps | with_reducible apply State.requestAbort_keeps | with_reducible apply State.unsettle_keeps | with_reducible exact fun w => w | (intro _; try dsimp -zeta only) | (extract_lets +onlyGivenNames x; first | (apply cut (p := Keeps s0 x); (case' hp => dsimp -zeta only [x]; clear x); (case' hq => clear_value x; revert x; intro _ _)) | (clear_value x; revert x; intro _)) | split | with_reducible apply Keeps.upd)))

theorem execFollowingErrorTrip_keeps {s0 s : State} (a : Fin 4)  (h : Keeps s0 s) :
    Goes s0 (execFollowingErrorTrip a s) := by
  unfold execFollowingErrorTrip
  iterate 60 (all_goals (try (first | with_reducible assumption | with_reducible apply goes_next | with_reducible apply State.actEvent_keeps | with_reducible apply State.modServo_keeps | with_reducible apply State.setFlag_keeps | with_reducible apply State.supervisorTrip_keeps | with_reducible exact fun w => w | (intro _; try dsimp -zeta only) | (extract_lets +onlyGivenNames x; first | (apply cut (p := Keeps s0 x); (case' hp => dsimp -zeta only [x]; clear x); (case' hq => clear_value x; revert x; intro _ _)) | (clear_value x; revert x; intro _)) | split | with_reducible apply Keeps.upd)))

theorem execOscillationTrip_keeps {s0 s : State} (a : Fin 4)  (h : Keeps s0 s) :
    Goes s0 (execOscillationTrip a s) := by
  unfold execOscillationTrip
  iterate 60 (all_goals (try (first | with_reducible assumption | with_reducible apply goes_next | with_reducible apply State.actEvent_keeps | with_reducible apply State.modServo_keeps | with_reducible apply State.setFlag_keeps | with_reducible apply State.supervisorTrip_keeps | with_reducible exact fun w => w | (intro _; try dsimp -zeta only) | (extract_lets +onlyGivenNames x; first | (apply cut (p := Keeps s0 x); (case' hp => dsimp -zeta only [x]; clear x); (case' hq => clear_value x; revert x; intro _ _)) | (clear_value x; revert x; intro _)) | split | with_reducible apply Keeps.upd)))

theorem execIsnsMismatch_keeps {s0 s : State} (a : Fin 4)  (h : Keeps s0 s) :
    Goes s0 (execIsnsMismatch a s) := by
  unfold execIsnsMismatch
  iterate 60 (all_goals (try (first | with_reducible assumption | with_reducible apply goes_next | with_reducible apply State.actEvent_keeps | with_reducible apply State.modServo_keeps | with_reducible apply State.noPermit_keeps | with_reducible apply State.setFlag_keeps | with_reducible exact fun w => w | (intro _; try dsimp -zeta only) | (extract_lets +onlyGivenNames x; first | (apply cut (p := Keeps s0 x); (case' hp => dsimp -zeta only [x]; clear x); (case' hq => clear_value x; revert x; intro _ _)) | (clear_value x; revert x; intro _)) | split | with_reducible apply Keeps.upd | dsimp -zeta only)))

theorem execRvSensorDrop_keeps {s0 s : State} (a : Fin 4) (y : Bool)  (h : Keeps s0 s) :
    Goes s0 (execRvSensorDrop a y s) := by
  unfold execRvSensorDrop
  iterate 60 (all_goals (try (first | with_reducible assumption | with_reducible apply goes_next | with_reducible apply State.actEvent_keeps | with_reducible apply State.modServo_keeps | with_reducible apply State.setFlag_keeps | with_reducible exact fun w => w | (intro _; try dsimp -zeta only) | (extract_lets +onlyGivenNames x; first | (apply cut (p := Keeps s0 x); (case' hp => dsimp -zeta only [x]; clear x); (case' hq => clear_value x; revert x; intro _ _)) | (clear_value x; revert x; intro _)) | split | with_reducible apply Keeps.upd)))

end Sys2Proof.Machine
end

