-- ==== Sys2Proof/Laws/Keeps/Channel.lean ====
section
/-! SUPPORT. Machine/Channel.lean: each of its operations keeps the canonical forms, the queue and the order of free values. -/

namespace Sys2Proof.Machine

open Sys2Proof

theorem execPreampFault_keeps {s0 s : State} (a : Fin 4)  (h : Keeps s0 s) :
    Goes s0 (execPreampFault a s) := by
  unfold execPreampFault
  iterate 60 (all_goals (try (first | with_reducible assumption | with_reducible apply goes_next | with_reducible apply State.dropGate_keeps | with_reducible apply State.endMediaOps_keeps | with_reducible apply State.modAct_keeps | with_reducible apply State.modSeq_keeps | with_reducible apply State.sectorError_keeps | with_reducible apply State.setFlag_keeps | with_reducible exact fun w => w | (intro _; try dsimp -zeta only) | (extract_lets +onlyGivenNames x; first | (apply cut (p := Keeps s0 x); (case' hp => dsimp -zeta only [x]; clear x); (case' hq => clear_value x; revert x; intro _ _)) | (clear_value x; revert x; intro _)) | with_reducible apply Keeps.upd)))

theorem execPreampFaultClear_keeps {s0 s : State} (a : Fin 4)  (h : Keeps s0 s) :
    Goes s0 (execPreampFaultClear a s) := by
  unfold execPreampFaultClear
  iterate 60 (all_goals (try (first | with_reducible assumption | with_reducible apply goes_next | with_reducible apply State.modAct_keeps | with_reducible apply State.setFlag_keeps | with_reducible exact fun w => w | (intro _; try dsimp -zeta only) | (extract_lets +onlyGivenNames x; first | (apply cut (p := Keeps s0 x); (case' hp => dsimp -zeta only [x]; clear x); (case' hq => clear_value x; revert x; intro _ _)) | (clear_value x; revert x; intro _)) | split | with_reducible apply Keeps.upd)))

theorem execPfltPersistTimeout_keeps {s0 s : State} (a : Fin 4)  (h : Keeps s0 s) :
    Goes s0 (execPfltPersistTimeout a s) := by
  unfold execPfltPersistTimeout
  iterate 60 (all_goals (try (first | with_reducible assumption | with_reducible apply goes_next | with_reducible apply State.actuatorLost_keeps | split)))

theorem State.startFirmwareFrame_keeps {s0 s : State} (a : Fin 4) (f : PscFrame)  (h : Keeps s0 s) :
    Keeps s0 (State.startFirmwareFrame s a f) := by
  unfold State.startFirmwareFrame
  iterate 60 (all_goals (try (first | with_reducible assumption | with_reducible apply State.modAct_keeps | with_reducible apply State.setFlag_keeps | with_reducible exact fun w => w | (intro _; try dsimp -zeta only) | (extract_lets +onlyGivenNames x; first | (apply cut (p := Keeps s0 x); (case' hp => dsimp -zeta only [x]; clear x); (case' hq => clear_value x; revert x; intro _ _)) | (clear_value x; revert x; intro _)) | split | with_reducible apply Keeps.upd)))

theorem State.writePscAcc_keeps {s0 s : State} (a : Fin 4) (v : Word)  (h : Keeps s0 s) :
    Keeps s0 (State.writePscAcc s a v) := by
  unfold State.writePscAcc
  iterate 60 (all_goals (try (first | with_reducible assumption | with_reducible apply State.setFlag_keeps | with_reducible apply State.setReg_keeps | with_reducible apply State.startFirmwareFrame_keeps | (extract_lets +onlyGivenNames x; first | (apply cut (p := Keeps s0 x); (case' hp => dsimp -zeta only [x]; clear x); (case' hq => clear_value x; revert x; intro _ _)) | (clear_value x; revert x; intro _)) | split | dsimp -zeta only)))

theorem execPscFrameGo_keeps {s0 s : State} (assoc : Nat) (a : Fin 4) (value : Word)  (h : Keeps s0 s) :
    Goes s0 (execPscFrameGo assoc a value s) := by
  unfold execPscFrameGo
  iterate 60 (all_goals (try (first | with_reducible assumption | with_reducible apply goes_next | with_reducible apply State.ownerReg_keeps | with_reducible apply State.writePscAcc_keeps | (intro _; try dsimp -zeta only) | (extract_lets +onlyGivenNames x; first | (apply cut (p := Keeps s0 x); (case' hp => dsimp -zeta only [x]; clear x); (case' hq => clear_value x; revert x; intro _ _)) | (clear_value x; revert x; intro _)))))

theorem State.requestHead_keeps {s0 s : State} (a : Fin 4) (h' : Nat)  (h : Keeps s0 s) :
    Keeps s0 (State.requestHead s a h') := by
  unfold State.requestHead
  iterate 60 (all_goals (try (first | with_reducible assumption | with_reducible apply State.modAct_keeps | with_reducible exact fun w => w | (intro _; try dsimp -zeta only) | (extract_lets +onlyGivenNames x; first | (apply cut (p := Keeps s0 x); (case' hp => dsimp -zeta only [x]; clear x); (case' hq => clear_value x; revert x; intro _ _)) | (clear_value x; revert x; intro _)) | split | with_reducible apply Keeps.upd)))

theorem State.headSwitch_keeps {s0 s : State} (a : Fin 4) (h' : Nat)  (h : Keeps s0 s) :
    Keeps s0 (State.headSwitch s a h') := by
  unfold State.headSwitch
  iterate 60 (all_goals (try (first | with_reducible assumption | with_reducible apply State.enterZone_keeps | with_reducible apply State.forbidInterval_keeps | with_reducible apply State.loadEqualiser_keeps | with_reducible apply State.modAct_keeps | with_reducible apply State.noPermit_keeps | with_reducible apply State.openWindow_keeps | with_reducible apply State.setClock_keeps | with_reducible apply State.setFld_keeps | with_reducible apply State.unsettle_keeps | with_reducible exact fun w => w | (intro _; try dsimp -zeta only) | (extract_lets +onlyGivenNames x; first | (apply cut (p := Keeps s0 x); (case' hp => dsimp -zeta only [x]; clear x); (case' hq => clear_value x; revert x; intro _ _)) | (clear_value x; revert x; intro _)) | split | with_reducible apply Keeps.upd | dsimp -zeta only)))

theorem State.nextFrame_keeps {s0 s : State} (a : Fin 4)  (h : Keeps s0 s) :
    Keeps s0 (State.nextFrame s a) := by
  unfold State.nextFrame
  iterate 60 (all_goals (try (first | with_reducible assumption | with_reducible apply State.modAct_keeps | with_reducible exact fun w => w | (intro _; try dsimp -zeta only) | (extract_lets +onlyGivenNames x; first | (apply cut (p := Keeps s0 x); (case' hp => dsimp -zeta only [x]; clear x); (case' hq => clear_value x; revert x; intro _ _)) | (clear_value x; revert x; intro _)) | split | with_reducible apply Keeps.upd | dsimp -zeta only)))

theorem execPscFrameDone_keeps {s0 s : State} (a : Fin 4) (rdata : Byte)  (h : Keeps s0 s) :
    Goes s0 (execPscFrameDone a rdata s) := by
  unfold execPscFrameDone
  iterate 60 (all_goals (try (first | with_reducible assumption | with_reducible apply goes_next | with_reducible apply State.headSwitch_keeps | with_reducible apply State.modAct_keeps | with_reducible apply State.nextFrame_keeps | with_reducible apply State.setFlag_keeps | with_reducible apply State.setFld_keeps | with_reducible exact fun w => w | (intro _; try dsimp -zeta only) | (extract_lets +onlyGivenNames x; first | (apply cut (p := Keeps s0 x); (case' hp => dsimp -zeta only [x]; clear x); (case' hq => clear_value x; revert x; intro _ _)) | (clear_value x; revert x; intro _)) | split | with_reducible apply Keeps.upd | dsimp -zeta only)))

theorem execClockAcquired_keeps {s0 s : State} (a : Fin 4)  (h : Keeps s0 s) :
    Goes s0 (execClockAcquired a s) := by
  unfold execClockAcquired
  iterate 60 (all_goals (try (first | with_reducible assumption | with_reducible apply goes_next | with_reducible apply State.setClock_keeps | split)))

theorem execHoldTimeout_keeps {s0 s : State} (a : Fin 4)  (h : Keeps s0 s) :
    Goes s0 (execHoldTimeout a s) := by
  unfold execHoldTimeout
  iterate 60 (all_goals (try (first | with_reducible assumption | with_reducible apply goes_next | with_reducible apply State.setClock_keeps | split)))

theorem State.rafterFailure_keeps {s0 s : State} (a : Fin 4)  (h : Keeps s0 s) :
    Keeps s0 (State.rafterFailure s a) := by
  unfold State.rafterFailure
  iterate 60 (all_goals (try (first | with_reducible assumption | with_reducible apply State.actEvent_keeps | with_reducible apply State.endMediaOps_keeps | with_reducible apply State.enterReident_keeps | (extract_lets +onlyGivenNames x; first | (apply cut (p := Keeps s0 x); (case' hp => dsimp -zeta only [x]; clear x); (case' hq => clear_value x; revert x; intro _ _)) | (clear_value x; revert x; intro _)) | split)))

theorem execClockLostTimeout_keeps {s0 s : State} (a : Fin 4)  (h : Keeps s0 s) :
    Goes s0 (execClockLostTimeout a s) := by
  unfold execClockLostTimeout
  iterate 60 (all_goals (try (first | with_reducible assumption | with_reducible apply goes_next | with_reducible apply State.rafterFailure_keeps | split)))

theorem execPredictedRafterStart_keeps {s0 s : State} (a : Fin 4)  (h : Keeps s0 s) :
    Goes s0 (execPredictedRafterStart a s) := by
  unfold execPredictedRafterStart
  iterate 60 (all_goals (try (first | with_reducible assumption | with_reducible apply goes_next | with_reducible apply State.dropGate_keeps | with_reducible apply State.enterZone_keeps | with_reducible apply State.modBatten_keeps | with_reducible apply State.setClock_keeps | with_reducible apply State.setFlag_keeps | with_reducible exact fun w => w | (intro _; try dsimp -zeta only) | (extract_lets +onlyGivenNames x; first | (apply cut (p := Keeps s0 x); (case' hp => dsimp -zeta only [x]; clear x); (case' hq => clear_value x; revert x; intro _ _)) | (clear_value x; revert x; intro _)) | split | with_reducible apply Keeps.upd | dsimp -zeta only)))

theorem execRafterSyncCheck_keeps {s0 s : State} (a : Fin 4) (count : Nat)  (h : Keeps s0 s) :
    Goes s0 (execRafterSyncCheck a count s) := by
  unfold execRafterSyncCheck
  iterate 60 (all_goals (try (first | with_reducible assumption | with_reducible apply goes_next | with_reducible apply State.forbidInterval_keeps | with_reducible apply State.modBatten_keeps | with_reducible apply State.sectorError_keeps | with_reducible apply State.setClock_keeps | with_reducible apply State.setFlag_keeps | with_reducible exact fun w => w | (intro _; try dsimp -zeta only) | (extract_lets +onlyGivenNames x; first | (apply cut (p := Keeps s0 x); (case' hp => dsimp -zeta only [x]; clear x); (case' hq => clear_value x; revert x; intro _ _)) | (clear_value x; revert x; intro _)) | split | with_reducible apply Keeps.upd)))

theorem State.rafterRejected_keeps {s0 s : State} (a : Fin 4) (sync : Bool)  (h : Keeps s0 s) :
    Keeps s0 (State.rafterRejected s a sync) := by
  unfold State.rafterRejected
  iterate 60 (all_goals (try (first | with_reducible assumption | with_reducible apply State.chanError_keeps | with_reducible apply State.countFld_keeps | with_reducible apply State.forbidInterval_keeps | with_reducible apply State.modBatten_keeps | with_reducible apply State.rafterFailure_keeps | with_reducible exact fun w => w | (intro _; try dsimp -zeta only) | (extract_lets +onlyGivenNames x; first | (apply cut (p := Keeps s0 x); (case' hp => dsimp -zeta only [x]; clear x); (case' hq => clear_value x; revert x; intro _ _)) | (clear_value x; revert x; intro _)) | split | with_reducible apply Keeps.upd)))

theorem execRafterLost_keeps {s0 s : State} (a : Fin 4) (window : List Bool)  (h : Keeps s0 s) :
    Goes s0 (execRafterLost a window s) := by
  unfold execRafterLost
  iterate 60 (all_goals (try (first | with_reducible assumption | with_reducible apply goes_next | with_reducible apply State.rafterRejected_keeps)))

theorem State.acceptRafter_keeps {s0 s : State} (a : Fin 4) (track : Nat) (index : Nat) (ba : Nat) (bb : Nat)  (h : Keeps s0 s) :
    Keeps s0 (State.acceptRafter s a track index ba bb) := by
  unfold State.acceptRafter
  iterate 60 (all_goals (try (first | with_reducible assumption | with_reducible apply State.latchCond_keeps | with_reducible apply State.loopRafter_keeps | with_reducible apply State.modBatten_keeps | with_reducible apply State.setFld_keeps | with_reducible exact fun w => w | (intro _; try dsimp -zeta only) | (extract_lets +onlyGivenNames x; first | (apply cut (p := Keeps s0 x); (case' hp => dsimp -zeta only [x]; clear x); (case' hq => clear_value x; revert x; intro _ _)) | (clear_value x; revert x; intro _)) | split | with_reducible apply Keeps.upd)))

theorem execRafterAccepted_keeps {s0 s : State} (a : Fin 4) (window : List Bool) (cells : List (Bool × Bool)) (burstA : Nat) (burstB : Nat)  (h : Keeps s0 s) :
    Goes s0 (execRafterAccepted a window cells burstA burstB s) := by
  unfold execRafterAccepted
  iterate 60 (all_goals (try (first | with_reducible assumption | with_reducible apply goes_next | with_reducible apply State.acceptRafter_keeps | with_reducible apply State.rafterRejected_keeps | (extract_lets +onlyGivenNames x; first | (apply cut (p := Keeps s0 x); (case' hp => dsimp -zeta only [x]; clear x); (case' hq => clear_value x; revert x; intro _ _)) | (clear_value x; revert x; intro _)) | split | dsimp -zeta only)))

theorem execBurstPhaseCheck_keeps {s0 s : State} (a : Fin 4) (err : Int)  (h : Keeps s0 s) :
    Goes s0 (execBurstPhaseCheck a err s) := by
  unfold execBurstPhaseCheck
  iterate 60 (all_goals (try (first | with_reducible assumption | with_reducible apply goes_next | with_reducible apply State.forbidInterval_keeps | with_reducible apply State.modBatten_keeps | with_reducible apply State.noPermit_keeps | with_reducible apply State.setClock_keeps | with_reducible apply State.setFlag_keeps | with_reducible apply State.setSFld_keeps | with_reducible exact fun w => w | (intro _; try dsimp -zeta only) | (extract_lets +onlyGivenNames x; first | (apply cut (p := Keeps s0 x); (case' hp => dsimp -zeta only [x]; clear x); (case' hq => clear_value x; revert x; intro _ _)) | (clear_value x; revert x; intro _)) | split | with_reducible apply Keeps.upd)))

theorem execReacqCheck_keeps {s0 s : State} (a : Fin 4) (diff : Int)  (h : Keeps s0 s) :
    Goes s0 (execReacqCheck a diff s) := by
  unfold execReacqCheck
  iterate 60 (all_goals (try (first | with_reducible assumption | with_reducible apply goes_next | with_reducible apply State.forbidInterval_keeps | with_reducible apply State.modSeq_keeps | with_reducible apply State.sectorError_keeps | with_reducible apply State.setClock_keeps | with_reducible exact fun w => w | (intro _; try dsimp -zeta only) | (extract_lets +onlyGivenNames x; first | (apply cut (p := Keeps s0 x); (case' hp => dsimp -zeta only [x]; clear x); (case' hq => clear_value x; revert x; intro _ _)) | (clear_value x; revert x; intro _)) | split | with_reducible apply Keeps.upd | dsimp -zeta only)))

theorem execRafterPassed_keeps {s0 s : State} (a : Fin 4)  (h : Keeps s0 s) :
    Goes s0 (execRafterPassed a s) := by
  unfold execRafterPassed
  iterate 60 (all_goals (try (first | with_reducible assumption | with_reducible apply goes_next | with_reducible apply State.latchCond_keeps | with_reducible apply State.modSeq_keeps | (intro _; try dsimp -zeta only) | (extract_lets +onlyGivenNames x; first | (apply cut (p := Keeps s0 x); (case' hp => dsimp -zeta only [x]; clear x); (case' hq => clear_value x; revert x; intro _ _)) | (clear_value x; revert x; intro _)) | split)))

theorem execSectorBoundary_keeps {s0 s : State} (a : Fin 4)  (h : Keeps s0 s) :
    Goes s0 (execSectorBoundary a s) := by
  unfold execSectorBoundary
  iterate 60 (all_goals (try (first | with_reducible assumption | with_reducible apply goes_next | with_reducible apply State.latchCond_keeps | with_reducible apply State.modBatten_keeps | with_reducible apply State.modSeq_keeps | with_reducible exact fun w => w | (intro _; try dsimp -zeta only) | (extract_lets +onlyGivenNames x; first | (apply cut (p := Keeps s0 x); (case' hp => dsimp -zeta only [x]; clear x); (case' hq => clear_value x; revert x; intro _ _)) | (clear_value x; revert x; intro _)) | split | with_reducible apply Keeps.upd)))

theorem execWriteDataReady_keeps {s0 s : State} (a : Fin 4)  (h : Keeps s0 s) :
    Goes s0 (execWriteDataReady a s) := by
  unfold execWriteDataReady
  iterate 60 (all_goals (try (first | with_reducible assumption | with_reducible apply goes_next | with_reducible apply State.modSeq_keeps | with_reducible exact fun w => w | (intro _; try dsimp -zeta only) | (extract_lets +onlyGivenNames x; first | (apply cut (p := Keeps s0 x); (case' hp => dsimp -zeta only [x]; clear x); (case' hq => clear_value x; revert x; intro _ _)) | (clear_value x; revert x; intro _)) | with_reducible apply Keeps.upd)))

theorem State.gateFragment_keeps {s0 s : State} (a : Fin 4)  (h : Keeps s0 s) :
    Keeps s0 (State.gateFragment s a) := by
  unfold State.gateFragment
  iterate 60 (all_goals (try (first | with_reducible assumption | with_reducible apply State.dropGate_keeps | with_reducible apply State.modAct_keeps | with_reducible apply State.modSeq_keeps | with_reducible apply State.sectorError_keeps | with_reducible apply State.setFlag_keeps | with_reducible exact fun w => w | (intro _; try dsimp -zeta only) | (extract_lets +onlyGivenNames x; first | (apply cut (p := Keeps s0 x); (case' hp => dsimp -zeta only [x]; clear x); (case' hq => clear_value x; revert x; intro _ _)) | (clear_value x; revert x; intro _)) | split | with_reducible apply Keeps.upd)))

theorem State.startOp_keeps {s0 s : State} (a : Fin 4) (o : ChanOp)  (h : Keeps s0 s) :
    Keeps s0 (State.startOp s a o) := by
  unfold State.startOp
  iterate 60 (all_goals (try (first | with_reducible assumption | with_reducible apply State.gateFragment_keeps | with_reducible apply State.modAct_keeps | with_reducible apply State.modSeq_keeps | with_reducible apply State.setFlag_keeps | with_reducible exact fun w => w | (intro _; try dsimp -zeta only) | (extract_lets +onlyGivenNames x; first | (apply cut (p := Keeps s0 x); (case' hp => dsimp -zeta only [x]; clear x); (case' hq => clear_value x; revert x; intro _ _)) | (clear_value x; revert x; intro _)) | split | with_reducible apply Keeps.upd)))

theorem State.endOp_keeps {s0 s : State} (a : Fin 4)  (h : Keeps s0 s) :
    Keeps s0 (State.endOp s a) := by
  unfold State.endOp
  iterate 60 (all_goals (try (first | with_reducible assumption | with_reducible apply State.dropGate_keeps | with_reducible apply State.modSeq_keeps | with_reducible apply State.setFlag_keeps | with_reducible apply State.startOp_keeps | with_reducible exact fun w => w | (intro _; try dsimp -zeta only) | (extract_lets +onlyGivenNames x; first | (apply cut (p := Keeps s0 x); (case' hp => dsimp -zeta only [x]; clear x); (case' hq => clear_value x; revert x; intro _ _)) | (clear_value x; revert x; intro _)) | split | with_reducible apply Keeps.upd | dsimp -zeta only)))

theorem State.readers_keeps {s0 s : State} (a : Fin 4) (f : Reader → Nat → List Int → Reader) (l : List (Int × Int))  (h : Keeps s0 s) :
    Keeps s0 (State.readers s a f l) := by
  unfold State.readers
  iterate 60 (all_goals (try (first | with_reducible assumption | with_reducible apply State.modAct_keeps | with_reducible exact fun w => w | (intro _; try dsimp -zeta only) | (extract_lets +onlyGivenNames x; first | (apply cut (p := Keeps s0 x); (case' hp => dsimp -zeta only [x]; clear x); (case' hq => clear_value x; revert x; intro _ _)) | (clear_value x; revert x; intro _)) | with_reducible apply Keeps.upd)))

theorem execSyncDecided_keeps {s0 s : State} (a : Fin 4) (pre : List (Int × Int)) (window : List Bool)  (h : Keeps s0 s) :
    Goes s0 (execSyncDecided a pre window s) := by
  unfold execSyncDecided
  iterate 60 (all_goals (try (first | with_reducible assumption | with_reducible apply goes_next | with_reducible apply State.endOp_keeps | with_reducible apply State.latchCond_keeps | with_reducible apply State.modSeq_keeps | with_reducible apply State.readers_keeps | with_reducible apply State.sectorError_keeps | with_reducible exact fun w => w | (intro _; try dsimp -zeta only) | (extract_lets +onlyGivenNames x; first | (apply cut (p := Keeps s0 x); (case' hp => dsimp -zeta only [x]; clear x); (case' hq => clear_value x; revert x; intro _ _)) | (clear_value x; revert x; intro _)) | split | with_reducible apply Keeps.upd | dsimp -zeta only)))

theorem execFragmentDone_keeps {s0 s : State} (a : Fin 4)  (h : Keeps s0 s) :
    Goes s0 (execFragmentDone a s) := by
  unfold execFragmentDone
  iterate 60 (all_goals (try (first | with_reducible assumption | with_reducible apply goes_next | with_reducible apply State.dropGate_keeps | with_reducible apply State.endOp_keeps | with_reducible apply State.gateFragment_keeps | with_reducible apply State.latchCond_keeps | with_reducible apply State.modSeq_keeps | with_reducible exact fun w => w | (intro _; try dsimp -zeta only) | (extract_lets +onlyGivenNames x; first | (apply cut (p := Keeps s0 x); (case' hp => dsimp -zeta only [x]; clear x); (case' hq => clear_value x; revert x; intro _ _)) | (clear_value x; revert x; intro _)) | split | with_reducible apply Keeps.upd | dsimp -zeta only)))

theorem State.readCells_keeps {s0 s : State} (a : Fin 4) (l : List (Int × Int))  (h : Keeps s0 s) :
    Keeps s0 (State.readCells s a l) := by
  unfold State.readCells
  iterate 60 (all_goals (try (first | with_reducible assumption | with_reducible apply State.modAct_keeps | with_reducible apply State.readers_keeps | with_reducible exact fun w => w | (intro _; try dsimp -zeta only) | (extract_lets +onlyGivenNames x; first | (apply cut (p := Keeps s0 x); (case' hp => dsimp -zeta only [x]; clear x); (case' hq => clear_value x; revert x; intro _ _)) | (clear_value x; revert x; intro _)) | split | with_reducible apply Keeps.upd)))

theorem execPartDone_keeps {s0 s : State} (a : Fin 4) (samples : List (Int × Int))  (h : Keeps s0 s) :
    Goes s0 (execPartDone a samples s) := by
  unfold execPartDone
  iterate 60 (all_goals (try (first | with_reducible assumption | with_reducible apply goes_next | with_reducible apply State.endOp_keeps | with_reducible apply State.latchCond_keeps | with_reducible apply State.modAct_keeps | with_reducible apply State.readCells_keeps | with_reducible exact fun w => w | (intro _; try dsimp -zeta only) | (extract_lets +onlyGivenNames x; first | (apply cut (p := Keeps s0 x); (case' hp => dsimp -zeta only [x]; clear x); (case' hq => clear_value x; revert x; intro _ _)) | (clear_value x; revert x; intro _)) | split | with_reducible apply Keeps.upd | dsimp -zeta only)))

theorem State.leaveDecoder_keeps {s0 s : State} (a : Fin 4) (x : Nat)  (h : Keeps s0 s) :
    Keeps s0 (State.leaveDecoder s a x) := by
  unfold State.leaveDecoder
  iterate 60 (all_goals (try (first | with_reducible assumption | with_reducible apply State.modAct_keeps | with_reducible exact fun w => w | (intro _; try dsimp -zeta only) | (extract_lets +onlyGivenNames x; first | (apply cut (p := Keeps s0 x); (case' hp => dsimp -zeta only [x]; clear x); (case' hq => clear_value x; revert x; intro _ _)) | (have hx := x.wsnBlock; clear hx; dsimp -zeta only [x]; clear x) | (clear_value x; revert x; intro _)) | with_reducible apply Keeps.upd)))

theorem execSectorDecoded_keeps {s0 s : State} (a : Fin 4) (media : Nat) (iterations : Nat) (errors : List Nat)  (h : Keeps s0 s) :
    Goes s0 (execSectorDecoded a media iterations errors s) := by
  unfold execSectorDecoded
  iterate 60 (all_goals (try (first | with_reducible assumption | with_reducible apply goes_next | with_reducible apply State.chanError_keeps | with_reducible apply State.countFld_keeps | with_reducible apply State.deliver_keeps | with_reducible apply State.erase_keeps | with_reducible apply State.leaveDecoder_keeps | (extract_lets +onlyGivenNames x; first | (apply cut (p := Keeps s0 x); (case' hp => dsimp -zeta only [x]; clear x); (case' hq => clear_value x; revert x; intro _ _)) | (clear_value x; revert x; intro _)) | split | dsimp -zeta only)))

theorem State.noConvergence_keeps {s0 s : State} (a : Fin 4) (p : DecPlace) (budget : Bool)  (h : Keeps s0 s) :
    Keeps s0 (State.noConvergence s a p budget) := by
  unfold State.noConvergence
  iterate 60 (all_goals (try (first | with_reducible assumption | with_reducible apply State.chanError_keeps | with_reducible apply State.erase_keeps | with_reducible apply State.leaveDecoder_keeps)))

theorem execLdpcNoConvergence_keeps {s0 s : State} (a : Fin 4) (media : Nat)  (h : Keeps s0 s) :
    Goes s0 (execLdpcNoConvergence a media s) := by
  unfold execLdpcNoConvergence
  iterate 60 (all_goals (try (first | with_reducible assumption | with_reducible apply goes_next | with_reducible apply State.noConvergence_keeps | split | dsimp -zeta only)))

theorem State.handToDecoder_keeps {s0 s : State} (a : Fin 4) (e : Entry)  (h : Keeps s0 s) :
    Keeps s0 (State.handToDecoder s a e) := by
  unfold State.handToDecoder
  iterate 60 (all_goals (try (first | with_reducible assumption | with_reducible apply State.modAct_keeps | with_reducible apply State.noConvergence_keeps | with_reducible apply foldl_keeps | with_reducible exact fun w => w | (intro _; try dsimp -zeta only) | (extract_lets +onlyGivenNames x; first | (apply cut (p := Keeps s0 x); (case' hp => dsimp -zeta only [x]; clear x); (case' hq => clear_value x; revert x; intro _ _)) | (have hx := x.wsnBlock; clear hx; dsimp -zeta only [x]; clear x) | (clear_value x; revert x; intro _)) | split | with_reducible apply Keeps.upd | dsimp -zeta only)))

end Sys2Proof.Machine
end

