-- ==== Sys2Proof/Laws/Keeps/TimeBase.lean ====
section
/-! SUPPORT. Machine/TimeBase.lean: each of its operations keeps the canonical forms, the queue and the order of free values. -/

namespace Sys2Proof.Machine

open Sys2Proof

theorem State.free_keeps {s0 s : State} (n : Nat) (h : Keeps s0 s) : Keeps s0 (State.free s n).2 :=
  ⟨fun w => h.1 w, h.2.1, Nat.le_trans h.2.2 (Nat.le_succ _)⟩

theorem State.modTime_keeps {s0 s : State} (f : Time → Time)  (h : Keeps s0 s) :
    Keeps s0 (State.modTime s f) := by
  unfold State.modTime
  iterate 60 (all_goals (try (first | with_reducible assumption | with_reducible exact fun w => w | (intro _; try dsimp -zeta only) | (extract_lets +onlyGivenNames x; first | (apply cut (p := Keeps s0 x); (case' hp => dsimp -zeta only [x]; clear x); (case' hq => clear_value x; revert x; intro _ _)) | (clear_value x; revert x; intro _)) | with_reducible apply Keeps.upd)))

theorem State.modSpn_keeps {s0 s : State} (f : Spn → Spn)  (h : Keeps s0 s) :
    Keeps s0 (State.modSpn s f) := by
  unfold State.modSpn
  iterate 60 (all_goals (try (first | with_reducible assumption | with_reducible exact fun w => w | (intro _; try dsimp -zeta only) | (extract_lets +onlyGivenNames x; first | (apply cut (p := Keeps s0 x); (case' hp => dsimp -zeta only [x]; clear x); (case' hq => clear_value x; revert x; intro _ _)) | (clear_value x; revert x; intro _)) | with_reducible apply Keeps.upd)))

theorem State.setTb_keeps {s0 s : State} (n : Nat)  (h : Keeps s0 s) :
    Keeps s0 (State.setTb s n) := by
  unfold State.setTb
  iterate 60 (all_goals (try (first | with_reducible assumption | with_reducible apply State.setFld_keeps)))

theorem State.tick_keeps {s0 s : State}   (h : Keeps s0 s) :
    Keeps s0 (State.tick s) := by
  unfold State.tick
  iterate 60 (all_goals (try (first | with_reducible assumption | with_reducible apply State.picGo_keeps | with_reducible exact fun w => w | (intro _; try dsimp -zeta only) | (extract_lets +onlyGivenNames x; first | (apply cut (p := Keeps s0 x); (case' hp => dsimp -zeta only [x]; clear x); (case' hq => clear_value x; revert x; intro _ _)) | (clear_value x; revert x; intro _)) | split | with_reducible apply Keeps.upd)))

theorem State.setPhase_keeps {s0 s : State} (n : Nat)  (h : Keeps s0 s) :
    Keeps s0 (State.setPhase s n) := by
  unfold State.setPhase
  iterate 60 (all_goals (try (first | with_reducible assumption | with_reducible apply State.setFld_keeps)))

theorem State.setTrim_keeps {s0 s : State} (t : Int)  (h : Keeps s0 s) :
    Keeps s0 (State.setTrim s t) := by
  unfold State.setTrim
  iterate 60 (all_goals (try (first | with_reducible assumption | with_reducible apply State.setSFld_keeps)))

theorem State.phaseCheck_keeps {s0 s : State}   (h : Keeps s0 s) :
    Keeps s0 (State.phaseCheck s) := by
  unfold State.phaseCheck
  iterate 60 (all_goals (try (first | with_reducible assumption | with_reducible apply State.event_keeps | with_reducible apply State.modTime_keeps | with_reducible apply State.setPhase_keeps | with_reducible apply State.setTrim_keeps | with_reducible exact fun w => w | (intro _; try dsimp -zeta only) | (extract_lets +onlyGivenNames x; first | (apply cut (p := Keeps s0 x); (case' hp => dsimp -zeta only [x]; clear x); (case' hq => clear_value x; revert x; intro _ _)) | (clear_value x; revert x; intro _)) | split | with_reducible apply Keeps.upd)))

theorem State.enterHoldover_keeps {s0 s : State}   (h : Keeps s0 s) :
    Keeps s0 (State.enterHoldover s) := by
  unfold State.enterHoldover
  iterate 60 (all_goals (try (first | with_reducible assumption | with_reducible apply State.event_keeps | with_reducible apply State.modTime_keeps | with_reducible apply State.setTb_keeps | with_reducible exact fun w => w | (intro _; try dsimp -zeta only) | (extract_lets +onlyGivenNames x; first | (apply cut (p := Keeps s0 x); (case' hp => dsimp -zeta only [x]; clear x); (case' hq => clear_value x; revert x; intro _ _)) | (clear_value x; revert x; intro _)) | with_reducible apply Keeps.upd)))

theorem State.enterAcquiring_keeps {s0 s : State}   (h : Keeps s0 s) :
    Keeps s0 (State.enterAcquiring s) := by
  unfold State.enterAcquiring
  iterate 60 (all_goals (try (first | with_reducible assumption | with_reducible apply State.modTime_keeps | with_reducible apply State.setTb_keeps | with_reducible exact fun w => w | (intro _; try dsimp -zeta only) | (extract_lets +onlyGivenNames x; first | (apply cut (p := Keeps s0 x); (case' hp => dsimp -zeta only [x]; clear x); (case' hq => clear_value x; revert x; intro _ _)) | (clear_value x; revert x; intro _)) | split | with_reducible apply Keeps.upd)))

theorem State.sourcesGone_keeps {s0 s : State}   (h : Keeps s0 s) :
    Keeps s0 (State.sourcesGone s) := by
  unfold State.sourcesGone
  iterate 60 (all_goals (try (first | with_reducible assumption | with_reducible apply State.enterHoldover_keeps | with_reducible apply State.event_keeps | with_reducible apply State.modTime_keeps | with_reducible apply State.setTb_keeps | with_reducible exact fun w => w | (intro _; try dsimp -zeta only) | (extract_lets +onlyGivenNames x; first | (apply cut (p := Keeps s0 x); (case' hp => dsimp -zeta only [x]; clear x); (case' hq => clear_value x; revert x; intro _ _)) | (clear_value x; revert x; intro _)) | split | with_reducible apply Keeps.upd)))

theorem State.sourcesChanged_keeps {s0 s : State}   (h : Keeps s0 s) :
    Keeps s0 (State.sourcesChanged s) := by
  unfold State.sourcesChanged
  iterate 60 (all_goals (try (first | with_reducible assumption | with_reducible apply State.enterAcquiring_keeps | with_reducible apply State.phaseCheck_keeps | with_reducible apply State.setFld_keeps | with_reducible apply State.sourcesGone_keeps | (extract_lets +onlyGivenNames x; first | (apply cut (p := Keeps s0 x); (case' hp => dsimp -zeta only [x]; clear x); (case' hq => clear_value x; revert x; intro _ _)) | (clear_value x; revert x; intro _)) | split)))

theorem State.measure_keeps {s0 s : State} (off : Int)  (h : Keeps s0 s) :
    Keeps s0 (State.measure s off) := by
  unfold State.measure
  iterate 60 (all_goals (try (first | with_reducible assumption | with_reducible apply State.event_keeps | with_reducible apply State.free_keeps | with_reducible apply State.modTime_keeps | with_reducible apply State.phaseCheck_keeps | with_reducible apply State.setFlag_keeps | with_reducible apply State.setSFld_keeps | with_reducible apply State.setTb_keeps | with_reducible exact fun w => w | (intro _; try dsimp -zeta only) | (extract_lets +onlyGivenNames x; first | (apply cut (p := Keeps s0 x); (case' hp => dsimp -zeta only [x]; clear x); (case' hq => clear_value x; revert x; intro _ _)) | (apply cut (p := Keeps s0 x.2); (case' hp => dsimp -zeta only [x]; clear x); (case' hq => clear_value x; revert x; intro _ _)) | (clear_value x; revert x; intro _)) | split | with_reducible apply Keeps.upd | dsimp -zeta only)))

theorem execHoldoverExpiry_keeps {s0 s : State}   (h : Keeps s0 s) :
    Goes s0 (execHoldoverExpiry s) := by
  unfold execHoldoverExpiry
  iterate 60 (all_goals (try (first | with_reducible assumption | with_reducible apply goes_next | with_reducible apply State.event_keeps | with_reducible apply State.modTime_keeps | with_reducible apply State.phaseCheck_keeps | with_reducible apply State.setTb_keeps | with_reducible exact fun w => w | (intro _; try dsimp -zeta only) | (extract_lets +onlyGivenNames x; first | (apply cut (p := Keeps s0 x); (case' hp => dsimp -zeta only [x]; clear x); (case' hq => clear_value x; revert x; intro _ _)) | (clear_value x; revert x; intro _)) | split | with_reducible apply Keeps.upd)))

theorem State.takeUtc_keeps {s0 s : State} (off : Int) (l61 : Bool) (l59 : Bool)  (h : Keeps s0 s) :
    Keeps s0 (State.takeUtc s off l61 l59) := by
  unfold State.takeUtc
  iterate 60 (all_goals (try (first | with_reducible assumption | with_reducible apply State.setFlag_keeps | with_reducible apply State.setSFld_keeps | (extract_lets +onlyGivenNames x; first | (apply cut (p := Keeps s0 x); (case' hp => dsimp -zeta only [x]; clear x); (case' hq => clear_value x; revert x; intro _ _)) | (clear_value x; revert x; intro _)))))

theorem State.selectMaster_keeps {s0 s : State}   (h : Keeps s0 s) :
    Keeps s0 (State.selectMaster s) := by
  unfold State.selectMaster
  iterate 60 (all_goals (try (first | with_reducible assumption | with_reducible apply State.event_keeps | with_reducible apply State.modTime_keeps | with_reducible apply State.sourcesChanged_keeps | with_reducible exact fun w => w | (intro _; try dsimp -zeta only) | (extract_lets +onlyGivenNames x; first | (apply cut (p := Keeps s0 x); (case' hp => dsimp -zeta only [x]; clear x); (case' hq => clear_value x; revert x; intro _ _)) | (clear_value x; revert x; intro _)) | split | with_reducible apply Keeps.upd)))

theorem execPtpAnnounce_keeps {s0 s : State} (h' : PtpHeader) (m : Master)  (h : Keeps s0 s) :
    Goes s0 (execPtpAnnounce h' m s) := by
  unfold execPtpAnnounce
  iterate 60 (all_goals (try (first | with_reducible assumption | with_reducible apply goes_next | with_reducible apply State.modTime_keeps | with_reducible apply State.selectMaster_keeps | with_reducible apply State.takeUtc_keeps | with_reducible exact fun w => w | (intro _; try dsimp -zeta only) | (extract_lets +onlyGivenNames x; first | (apply cut (p := Keeps s0 x); (case' hp => dsimp -zeta only [x]; clear x); (case' hq => clear_value x; revert x; intro _ _)) | (clear_value x; revert x; intro _)) | split | with_reducible apply Keeps.upd)))

theorem execPtpAnnounceTimeout_keeps {s0 s : State} (ident : Nat)  (h : Keeps s0 s) :
    Goes s0 (execPtpAnnounceTimeout ident s) := by
  unfold execPtpAnnounceTimeout
  iterate 60 (all_goals (try (first | with_reducible assumption | with_reducible apply goes_next | with_reducible apply State.modTime_keeps | with_reducible apply State.selectMaster_keeps | with_reducible exact fun w => w | (intro _; try dsimp -zeta only) | (extract_lets +onlyGivenNames x; first | (apply cut (p := Keeps s0 x); (case' hp => dsimp -zeta only [x]; clear x); (case' hq => clear_value x; revert x; intro _ _)) | (clear_value x; revert x; intro _)) | with_reducible apply Keeps.upd)))

theorem State.delayReq_keeps {s0 s : State} (e : Exchange) (t1 : Int)  (h : Keeps s0 s) :
    Keeps s0 (State.delayReq s e t1) := by
  unfold State.delayReq
  iterate 60 (all_goals (try (first | with_reducible assumption | with_reducible apply State.modTime_keeps | with_reducible exact fun w => w | (intro _; try dsimp -zeta only) | (extract_lets +onlyGivenNames x; first | (apply cut (p := Keeps s0 x); (case' hp => dsimp -zeta only [x]; clear x); (case' hq => clear_value x; revert x; intro _ _)) | (clear_value x; revert x; intro _)) | split | with_reducible apply Keeps.upd)))

theorem execPtpSync_keeps {s0 s : State} (h' : PtpHeader) (ident : Nat) (seq : Nat) (interval : Int) (origin : Option Int)  (h : Keeps s0 s) :
    Goes s0 (execPtpSync h' ident seq interval origin s) := by
  unfold execPtpSync
  iterate 60 (all_goals (try (first | with_reducible assumption | with_reducible apply goes_next | with_reducible apply State.delayReq_keeps | with_reducible apply State.modTime_keeps | with_reducible apply State.sourcesChanged_keeps | with_reducible exact fun w => w | (intro _; try dsimp -zeta only) | (extract_lets +onlyGivenNames x; first | (apply cut (p := Keeps s0 x); (case' hp => dsimp -zeta only [x]; clear x); (case' hq => clear_value x; revert x; intro _ _)) | (clear_value x; revert x; intro _)) | split | with_reducible apply Keeps.upd | dsimp -zeta only)))

theorem execPtpFollowUp_keeps {s0 s : State} (h' : PtpHeader) (ident : Nat) (seq : Nat) (origin : Int)  (h : Keeps s0 s) :
    Goes s0 (execPtpFollowUp h' ident seq origin s) := by
  unfold execPtpFollowUp
  iterate 60 (all_goals (try (first | with_reducible assumption | with_reducible apply goes_next | with_reducible apply State.delayReq_keeps | split | dsimp -zeta only)))

theorem execPtpDelayResp_keeps {s0 s : State} (h' : PtpHeader) (ident : Nat) (seq : Nat) (receipt : Int)  (h : Keeps s0 s) :
    Goes s0 (execPtpDelayResp h' ident seq receipt s) := by
  unfold execPtpDelayResp
  iterate 60 (all_goals (try (first | with_reducible assumption | with_reducible apply goes_next | with_reducible apply State.measure_keeps | with_reducible apply State.modTime_keeps | with_reducible apply State.setFld_keeps | with_reducible exact fun w => w | (intro _; try dsimp -zeta only) | (extract_lets +onlyGivenNames x; first | (apply cut (p := Keeps s0 x); (case' hp => dsimp -zeta only [x]; clear x); (case' hq => clear_value x; revert x; intro _ _)) | (clear_value x; revert x; intro _)) | split | with_reducible apply Keeps.upd | dsimp -zeta only)))

theorem State.ptpLinkDown_keeps {s0 s : State} (p : Nat)  (h : Keeps s0 s) :
    Keeps s0 (State.ptpLinkDown s p) := by
  unfold State.ptpLinkDown
  iterate 60 (all_goals (try (first | with_reducible assumption | with_reducible apply State.event_keeps | with_reducible apply State.modTime_keeps | with_reducible apply State.setFld_keeps | with_reducible apply State.sourcesChanged_keeps | with_reducible exact fun w => w | (intro _; try dsimp -zeta only) | (extract_lets +onlyGivenNames x; first | (apply cut (p := Keeps s0 x); (case' hp => dsimp -zeta only [x]; clear x); (case' hq => clear_value x; revert x; intro _ _)) | (clear_value x; revert x; intro _)) | split | with_reducible apply Keeps.upd)))

theorem State.linkGone_keeps {s0 s : State} (p : Nat)  (h : Keeps s0 s) :
    Keeps s0 (State.linkGone s p) := by
  unfold State.linkGone
  iterate 60 (all_goals (try (first | with_reducible assumption | with_reducible apply State.ptpLinkDown_keeps | with_reducible apply State.event_keeps | with_reducible apply State.setFlag_keeps | (extract_lets +onlyGivenNames x; first | (apply cut (p := Keeps s0 x); (case' hp => dsimp -zeta only [x]; clear x); (case' hq => clear_value x; revert x; intro _ _)) | (clear_value x; revert x; intro _)) | split | with_reducible exact fun w => w | with_reducible apply Keeps.upd)))

theorem State.glkSend_keeps {s0 s : State} (l : List Byte)  (h : Keeps s0 s) :
    Keeps s0 (State.glkSend s l) := by
  unfold State.glkSend
  iterate 60 (all_goals (try (first | with_reducible assumption | with_reducible apply State.modTime_keeps | with_reducible exact fun w => w | (intro _; try dsimp -zeta only) | (extract_lets +onlyGivenNames x; first | (apply cut (p := Keeps s0 x); (case' hp => dsimp -zeta only [x]; clear x); (case' hq => clear_value x; revert x; intro _ _)) | (clear_value x; revert x; intro _)) | with_reducible apply Keeps.upd)))

theorem State.markerMeasured_keeps {s0 s : State} (hop : Nat)  (h : Keeps s0 s) :
    Keeps s0 (State.markerMeasured s hop) := by
  unfold State.markerMeasured
  iterate 60 (all_goals (try (first | with_reducible assumption | with_reducible apply State.event_keeps | with_reducible apply State.measure_keeps | with_reducible apply State.modTime_keeps | with_reducible exact fun w => w | (intro _; try dsimp -zeta only) | (extract_lets +onlyGivenNames x; first | (apply cut (p := Keeps s0 x); (case' hp => dsimp -zeta only [x]; clear x); (case' hq => clear_value x; revert x; intro _ _)) | (clear_value x; revert x; intro _)) | split | with_reducible apply Keeps.upd | dsimp -zeta only)))

theorem State.markerMissing_keeps {s0 s : State}   (h : Keeps s0 s) :
    Keeps s0 (State.markerMissing s) := by
  unfold State.markerMissing
  iterate 60 (all_goals (try (first | with_reducible assumption | with_reducible apply State.event_keeps | with_reducible apply State.modTime_keeps | with_reducible apply State.setFlag_keeps | with_reducible apply State.sourcesChanged_keeps | with_reducible exact fun w => w | (intro _; try dsimp -zeta only) | (extract_lets +onlyGivenNames x; first | (apply cut (p := Keeps s0 x); (case' hp => dsimp -zeta only [x]; clear x); (case' hq => clear_value x; revert x; intro _ _)) | (clear_value x; revert x; intro _)) | split | with_reducible apply Keeps.upd)))

theorem execGerynMarker_keeps {s0 s : State}   (h : Keeps s0 s) :
    Goes s0 (execGerynMarker s) := by
  unfold execGerynMarker
  iterate 60 (all_goals (try (first | with_reducible assumption | with_reducible apply goes_next | with_reducible apply State.glkSend_keeps | with_reducible apply State.markerMissing_keeps | with_reducible apply State.modTime_keeps | with_reducible apply State.setFlag_keeps | with_reducible apply State.sourcesChanged_keeps | with_reducible exact fun w => w | (intro _; try dsimp -zeta only) | (extract_lets +onlyGivenNames x; first | (apply cut (p := Keeps s0 x); (case' hp => dsimp -zeta only [x]; clear x); (case' hq => clear_value x; revert x; intro _ _)) | (clear_value x; revert x; intro _)) | split | with_reducible apply Keeps.upd | dsimp -zeta only)))

theorem execGerynWord_keeps {s0 s : State} (bytes : List Byte)  (h : Keeps s0 s) :
    Goes s0 (execGerynWord bytes s) := by
  unfold execGerynWord
  iterate 60 (all_goals (try (first | with_reducible assumption | with_reducible apply goes_next | with_reducible apply State.countFld_keeps | with_reducible apply State.event_keeps | with_reducible apply State.glkSend_keeps | with_reducible apply State.markerMeasured_keeps | with_reducible apply State.modTime_keeps | with_reducible apply State.setFlag_keeps | with_reducible apply State.setFld_keeps | with_reducible apply State.takeUtc_keeps | with_reducible exact fun w => w | (intro _; try dsimp -zeta only) | (extract_lets +onlyGivenNames x; first | (apply cut (p := Keeps s0 x); (case' hp => dsimp -zeta only [x]; clear x); (case' hq => clear_value x; revert x; intro _ _)) | (clear_value x; revert x; intro _)) | split | with_reducible apply Keeps.upd)))

theorem execGerynMarkerMissing_keeps {s0 s : State}   (h : Keeps s0 s) :
    Goes s0 (execGerynMarkerMissing s) := by
  unfold execGerynMarkerMissing
  iterate 60 (all_goals (try (first | with_reducible assumption | with_reducible apply goes_next | with_reducible apply State.markerMissing_keeps)))

theorem State.glkWrite_keeps {s0 s : State} (v : Word)  (h : Keeps s0 s) :
    Keeps s0 (State.glkWrite s v) := by
  unfold State.glkWrite
  iterate 60 (all_goals (try (first | with_reducible assumption | with_reducible apply State.event_keeps | with_reducible apply State.setFlag_keeps | (extract_lets +onlyGivenNames x; first | (apply cut (p := Keeps s0 x); (case' hp => dsimp -zeta only [x]; clear x); (case' hq => clear_value x; revert x; intro _ _)) | (clear_value x; revert x; intro _)) | split)))

theorem State.traceWrite_keeps {s0 s : State} (v : Word)  (h : Keeps s0 s) :
    Keeps s0 (State.traceWrite s v) := by
  unfold State.traceWrite
  iterate 60 (all_goals (try (first | with_reducible assumption | with_reducible apply State.event_keeps | with_reducible apply State.setFlag_keeps | (extract_lets +onlyGivenNames x; first | (apply cut (p := Keeps s0 x); (case' hp => dsimp -zeta only [x]; clear x); (case' hq => clear_value x; revert x; intro _ _)) | (clear_value x; revert x; intro _)) | split)))

theorem execGlkClaim_keeps {s0 s : State} (assoc : Nat)  (h : Keeps s0 s) :
    Goes s0 (execGlkClaim assoc s) := by
  unfold execGlkClaim
  iterate 60 (all_goals (try (first | with_reducible assumption | with_reducible apply goes_next | with_reducible apply State.glkWrite_keeps | with_reducible apply State.ownerReg_keeps | (intro _; try dsimp -zeta only))))

theorem execGlkRelease_keeps {s0 s : State} (assoc : Nat)  (h : Keeps s0 s) :
    Goes s0 (execGlkRelease assoc s) := by
  unfold execGlkRelease
  iterate 60 (all_goals (try (first | with_reducible assumption | with_reducible apply goes_next | with_reducible apply State.glkWrite_keeps | with_reducible apply State.ownerReg_keeps | (intro _; try dsimp -zeta only))))

theorem execDbgTrcClaim_keeps {s0 s : State} (assoc : Nat) (en : Bool)  (h : Keeps s0 s) :
    Goes s0 (execDbgTrcClaim assoc en s) := by
  unfold execDbgTrcClaim
  iterate 60 (all_goals (try (first | with_reducible assumption | with_reducible apply goes_next | with_reducible apply State.ownerReg_keeps | with_reducible apply State.traceWrite_keeps | (intro _; try dsimp -zeta only) | (extract_lets +onlyGivenNames x; first | (apply cut (p := Keeps s0 x); (case' hp => dsimp -zeta only [x]; clear x); (case' hq => clear_value x; revert x; intro _ _)) | (clear_value x; revert x; intro _)))))

theorem execDbgTrcRelease_keeps {s0 s : State} (assoc : Nat)  (h : Keeps s0 s) :
    Goes s0 (execDbgTrcRelease assoc s) := by
  unfold execDbgTrcRelease
  iterate 60 (all_goals (try (first | with_reducible assumption | with_reducible apply goes_next | with_reducible apply State.ownerReg_keeps | with_reducible apply State.traceWrite_keeps | (intro _; try dsimp -zeta only))))

theorem State.alarmSet_keeps {s0 s : State} (k : Nat)  (h : Keeps s0 s) :
    Keeps s0 (State.alarmSet s k) := by
  unfold State.alarmSet
  iterate 60 (all_goals (try (first | with_reducible assumption | with_reducible apply State.modTime_keeps | with_reducible exact fun w => w | (intro _; try dsimp -zeta only) | (extract_lets +onlyGivenNames x; first | (apply cut (p := Keeps s0 x); (case' hp => dsimp -zeta only [x]; clear x); (case' hq => clear_value x; revert x; intro _ _)) | (clear_value x; revert x; intro _)) | with_reducible apply Keeps.upd)))

theorem State.trimFor_keeps {s0 s : State} (e : Int)  (h : Keeps s0 s) :
    Keeps s0 (State.trimFor s e) := by
  unfold State.trimFor
  iterate 60 (all_goals (try (first | with_reducible assumption | with_reducible apply State.modTime_keeps | with_reducible apply State.setTrim_keeps | with_reducible exact fun w => w | (intro _; try dsimp -zeta only) | (extract_lets +onlyGivenNames x; first | (apply cut (p := Keeps s0 x); (case' hp => dsimp -zeta only [x]; clear x); (case' hq => clear_value x; revert x; intro _ _)) | (clear_value x; revert x; intro _)) | split | with_reducible apply Keeps.upd)))

theorem State.startApproach_keeps {s0 s : State} (e : Int)  (h : Keeps s0 s) :
    Keeps s0 (State.startApproach s e) := by
  unfold State.startApproach
  iterate 60 (all_goals (try (first | with_reducible assumption | with_reducible apply State.modTime_keeps | with_reducible apply State.setFlag_keeps | with_reducible apply State.setPhase_keeps | with_reducible apply State.setTrim_keeps | with_reducible exact fun w => w | (intro _; try dsimp -zeta only) | (extract_lets +onlyGivenNames x; first | (apply cut (p := Keeps s0 x); (case' hp => dsimp -zeta only [x]; clear x); (case' hq => clear_value x; revert x; intro _ _)) | (clear_value x; revert x; intro _)) | split | with_reducible apply Keeps.upd)))

theorem State.phaseMeasured_keeps {s0 s : State} (e : Int)  (h : Keeps s0 s) :
    Keeps s0 (State.phaseMeasured s e) := by
  unfold State.phaseMeasured
  iterate 60 (all_goals (try (first | with_reducible assumption | with_reducible apply State.event_keeps | with_reducible apply State.modTime_keeps | with_reducible apply State.setPhase_keeps | with_reducible apply State.trimFor_keeps | with_reducible exact fun w => w | (intro _; try dsimp -zeta only) | (extract_lets +onlyGivenNames x; first | (apply cut (p := Keeps s0 x); (case' hp => dsimp -zeta only [x]; clear x); (case' hq => clear_value x; revert x; intro _ _)) | (clear_value x; revert x; intro _)) | split | with_reducible apply Keeps.upd)))

theorem State.launchesFrom_keeps {s0 s : State}   (h : Keeps s0 s) :
    Keeps s0 (State.launchesFrom s) := by
  unfold State.launchesFrom
  iterate 60 (all_goals (try (first | with_reducible assumption | with_reducible exact fun w => w | (intro _; try dsimp -zeta only) | (extract_lets +onlyGivenNames x; first | (apply cut (p := Keeps s0 x); (case' hp => dsimp -zeta only [x]; clear x); (case' hq => clear_value x; revert x; intro _ _)) | (clear_value x; revert x; intro _)) | split | with_reducible apply Keeps.upd | dsimp -zeta only)))

theorem State.indexed_keeps {s0 s : State} (idx : Nat)  (h : Keeps s0 s) :
    Keeps s0 (State.indexed s idx) := by
  unfold State.indexed
  iterate 60 (all_goals (try (first | with_reducible assumption | with_reducible apply State.launchesFrom_keeps | with_reducible apply State.modTime_keeps | with_reducible exact fun w => w | (intro _; try dsimp -zeta only) | (extract_lets +onlyGivenNames x; first | (apply cut (p := Keeps s0 x); (case' hp => dsimp -zeta only [x]; clear x); (case' hq => clear_value x; revert x; intro _ _)) | (clear_value x; revert x; intro _)) | split | with_reducible apply Keeps.upd | dsimp -zeta only)))

theorem execPhaseMeasurement_keeps {s0 s : State} (a : Fin 4) (instant : Nat)  (h : Keeps s0 s) :
    Goes s0 (execPhaseMeasurement a instant s) := by
  unfold execPhaseMeasurement
  iterate 60 (all_goals (try (first | with_reducible assumption | with_reducible apply goes_next | with_reducible apply State.countFld_keeps | with_reducible apply State.indexed_keeps | with_reducible apply State.modTime_keeps | with_reducible apply State.phaseCheck_keeps | with_reducible apply State.phaseMeasured_keeps | with_reducible apply State.setFld_keeps | with_reducible apply State.setSFld_keeps | with_reducible apply State.startApproach_keeps | with_reducible exact fun w => w | (intro _; try dsimp -zeta only) | (extract_lets +onlyGivenNames x; first | (apply cut (p := Keeps s0 x); (case' hp => dsimp -zeta only [x]; clear x); (case' hq => clear_value x; revert x; intro _ _)) | (clear_value x; revert x; intro _)) | split | with_reducible apply Keeps.upd | dsimp -zeta only)))

theorem execPhaseMeasurementTimeout_keeps {s0 s : State}   (h : Keeps s0 s) :
    Goes s0 (execPhaseMeasurementTimeout s) := by
  unfold execPhaseMeasurementTimeout
  iterate 60 (all_goals (try (first | with_reducible assumption | with_reducible apply goes_next | with_reducible apply State.modTime_keeps | with_reducible apply State.setPhase_keeps | with_reducible exact fun w => w | (intro _; try dsimp -zeta only) | (extract_lets +onlyGivenNames x; first | (apply cut (p := Keeps s0 x); (case' hp => dsimp -zeta only [x]; clear x); (case' hq => clear_value x; revert x; intro _ _)) | (clear_value x; revert x; intro _)) | split | with_reducible apply Keeps.upd)))

theorem State.requestApproach_keeps {s0 s : State}   (h : Keeps s0 s) :
    Keeps s0 (State.requestApproach s) := by
  unfold State.requestApproach
  iterate 60 (all_goals (try (first | with_reducible assumption | with_reducible apply State.startApproach_keeps | split)))

theorem execApproachRequest_keeps {s0 s : State} (assoc : Nat)  (h : Keeps s0 s) :
    Goes s0 (execApproachRequest assoc s) := by
  unfold execApproachRequest
  iterate 60 (all_goals (try (first | with_reducible assumption | with_reducible apply goes_next | with_reducible apply State.ownerReg_keeps | with_reducible apply State.requestApproach_keeps | (intro _; try dsimp -zeta only))))

theorem State.timeStopped_keeps {s0 s : State}   (h : Keeps s0 s) :
    Keeps s0 (State.timeStopped s) := by
  unfold State.timeStopped
  iterate 60 (all_goals (try (first | with_reducible assumption | with_reducible apply State.enterHoldover_keeps | with_reducible apply State.event_keeps | with_reducible apply State.modTime_keeps | with_reducible apply State.phaseCheck_keeps | with_reducible apply State.setTb_keeps | with_reducible exact fun w => w | (intro _; try dsimp -zeta only) | (extract_lets +onlyGivenNames x; first | (apply cut (p := Keeps s0 x); (case' hp => dsimp -zeta only [x]; clear x); (case' hq => clear_value x; revert x; intro _ _)) | (clear_value x; revert x; intro _)) | split | with_reducible apply Keeps.upd)))

theorem State.ptpPort_keeps {s0 s : State}   (h : Keeps s0 s) :
    Keeps s0 (State.ptpPort s) := by
  unfold State.ptpPort
  iterate 60 (all_goals (try (first | with_reducible assumption | with_reducible apply State.modTime_keeps | with_reducible apply State.setFld_keeps | with_reducible exact fun w => w | (intro _; try dsimp -zeta only) | (extract_lets +onlyGivenNames x; first | (apply cut (p := Keeps s0 x); (case' hp => dsimp -zeta only [x]; clear x); (case' hq => clear_value x; revert x; intro _ _)) | (clear_value x; revert x; intro _)) | split | with_reducible apply Keeps.upd)))

theorem State.timeRestarted_keeps {s0 s : State}   (h : Keeps s0 s) :
    Keeps s0 (State.timeRestarted s) := by
  unfold State.timeRestarted
  iterate 60 (all_goals (try (first | with_reducible assumption | with_reducible apply State.modTime_keeps | with_reducible apply State.phaseCheck_keeps | with_reducible apply State.ptpPort_keeps | with_reducible apply State.setTb_keeps | with_reducible apply State.sourcesChanged_keeps | with_reducible exact fun w => w | (intro _; try dsimp -zeta only) | (extract_lets +onlyGivenNames x; first | (apply cut (p := Keeps s0 x); (case' hp => dsimp -zeta only [x]; clear x); (case' hq => clear_value x; revert x; intro _ _)) | (clear_value x; revert x; intro _)) | split | with_reducible apply Keeps.upd | dsimp -zeta only)))

end Sys2Proof.Machine
end

