-- ==== Sys2Proof/Laws/Keeps/Spindle.lean ====
section
/-! SUPPORT. Machine/Spindle.lean: each of its operations keeps the canonical forms, the queue and the order of free values. -/

namespace Sys2Proof.Machine

open Sys2Proof

theorem State.markLegs_keeps {s0 s : State} (t : Nat)  (h : Keeps s0 s) :
    Keeps s0 (State.markLegs s t) := by
  unfold State.markLegs
  iterate 60 (all_goals (try (first | with_reducible assumption | with_reducible apply State.modSpn_keeps | with_reducible exact fun w => w | (intro _; try dsimp -zeta only) | (extract_lets +onlyGivenNames x; first | (apply cut (p := Keeps s0 x); (case' hp => dsimp -zeta only [x]; clear x); (case' hq => clear_value x; revert x; intro _ _)) | (clear_value x; revert x; intro _)) | with_reducible apply Keeps.upd)))

theorem State.setSpin_keeps {s0 s : State} (n : Nat)  (h : Keeps s0 s) :
    Keeps s0 (State.setSpin s n) := by
  unfold State.setSpin
  iterate 60 (all_goals (try (first | with_reducible assumption | with_reducible apply State.markLegs_keeps | with_reducible apply State.modSpn_keeps | with_reducible apply State.setFlag_keeps | with_reducible apply State.setFld_keeps | with_reducible exact fun w => w | (intro _; try dsimp -zeta only) | (extract_lets +onlyGivenNames x; first | (apply cut (p := Keeps s0 x); (case' hp => dsimp -zeta only [x]; clear x); (case' hq => clear_value x; revert x; intro _ _)) | (clear_value x; revert x; intro _)) | split | with_reducible apply Keeps.upd)))

theorem State.formConstants_keeps {s0 s : State}   (h : Keeps s0 s) :
    Keeps s0 (State.formConstants s) := by
  unfold State.formConstants
  iterate 60 (all_goals (try (first | with_reducible assumption | with_reducible apply State.modSpn_keeps | with_reducible apply State.setFlag_keeps | with_reducible exact fun w => w | (intro _; try dsimp -zeta only) | (extract_lets +onlyGivenNames x; first | (apply cut (p := Keeps s0 x); (case' hp => dsimp -zeta only [x]; clear x); (case' hq => clear_value x; revert x; intro _ _)) | (clear_value x; revert x; intro _)) | split | with_reducible apply Keeps.upd)))

theorem State.overcurrent_keeps {s0 s : State} (u : Int) (v : Int) (w : Int)  (h : Keeps s0 s) :
    Keeps s0 (State.overcurrent s u v w) := by
  unfold State.overcurrent
  iterate 60 (all_goals (try (first | with_reducible assumption | with_reducible apply State.modSpn_keeps | with_reducible apply State.setFlag_keeps | with_reducible exact fun w => w | (intro _; try dsimp -zeta only) | (extract_lets +onlyGivenNames x; first | (apply cut (p := Keeps s0 x); (case' hp => dsimp -zeta only [x]; clear x); (case' hq => clear_value x; revert x; intro _ _)) | (clear_value x; revert x; intro _)) | split | with_reducible apply Keeps.upd)))

theorem State.observe_keeps {s0 s : State} (o : Loops)  (h : Keeps s0 s) :
    Keeps s0 (State.observe s o) := by
  unfold State.observe
  iterate 60 (all_goals (try (first | with_reducible assumption | with_reducible apply State.modSpn_keeps | with_reducible exact fun w => w | (intro _; try dsimp -zeta only) | (extract_lets +onlyGivenNames x; first | (apply cut (p := Keeps s0 x); (case' hp => dsimp -zeta only [x]; clear x); (case' hq => clear_value x; revert x; intro _ _)) | (clear_value x; revert x; intro _)) | with_reducible apply Keeps.upd)))

theorem State.speedLoop_keeps {s0 s : State} (o : Loops)  (h : Keeps s0 s) :
    Keeps s0 (State.speedLoop s o) := by
  unfold State.speedLoop
  iterate 60 (all_goals (try (first | with_reducible assumption | with_reducible apply State.modSpn_keeps | with_reducible apply State.modTime_keeps | with_reducible exact fun w => w | (intro _; try dsimp -zeta only) | (extract_lets +onlyGivenNames x; first | (apply cut (p := Keeps s0 x); (case' hp => dsimp -zeta only [x]; clear x); (case' hq => clear_value x; revert x; intro _ _)) | (clear_value x; revert x; intro _)) | split | with_reducible apply Keeps.upd)))

theorem State.showLoops_keeps {s0 s : State}   (h : Keeps s0 s) :
    Keeps s0 (State.showLoops s) := by
  unfold State.showLoops
  iterate 60 (all_goals (try (first | with_reducible assumption | with_reducible apply State.setFlag_keeps | with_reducible apply State.setFld_keeps | with_reducible apply State.setReg_keeps | with_reducible apply State.setSFld_keeps | (extract_lets +onlyGivenNames x; first | (apply cut (p := Keeps s0 x); (case' hp => dsimp -zeta only [x]; clear x); (case' hq => clear_value x; revert x; intro _ _)) | (clear_value x; revert x; intro _)))))

theorem State.superviseSpeed_keeps {s0 s : State}   (h : Keeps s0 s) :
    Keeps s0 (State.superviseSpeed s) := by
  unfold State.superviseSpeed
  iterate 60 (all_goals (try (first | with_reducible assumption | with_reducible apply State.modSpn_keeps | with_reducible apply State.phaseCheck_keeps | with_reducible apply State.setFlag_keeps | with_reducible exact fun w => w | (intro _; try dsimp -zeta only) | (extract_lets +onlyGivenNames x; first | (apply cut (p := Keeps s0 x); (case' hp => dsimp -zeta only [x]; clear x); (case' hq => clear_value x; revert x; intro _ _)) | (clear_value x; revert x; intro _)) | split | with_reducible apply Keeps.upd)))

theorem State.countHandover_keeps {s0 s : State}   (h : Keeps s0 s) :
    Keeps s0 (State.countHandover s) := by
  unfold State.countHandover
  iterate 60 (all_goals (try (first | with_reducible assumption | with_reducible apply State.modSpn_keeps | with_reducible exact fun w => w | (intro _; try dsimp -zeta only) | (extract_lets +onlyGivenNames x; first | (apply cut (p := Keeps s0 x); (case' hp => dsimp -zeta only [x]; clear x); (case' hq => clear_value x; revert x; intro _ _)) | (clear_value x; revert x; intro _)) | split | with_reducible apply Keeps.upd)))

theorem State.emergencyRetract_keeps {s0 s : State}   (h : Keeps s0 s) :
    Keeps s0 (State.emergencyRetract s) := by
  unfold State.emergencyRetract
  iterate 60 (all_goals (try (first | with_reducible assumption | with_reducible apply State.bump_keeps | with_reducible apply State.dropGate_keeps | with_reducible apply State.forActs_keeps | with_reducible apply State.modSeq_keeps | with_reducible apply State.picFrame_keeps | with_reducible apply State.requestAbort_keeps | with_reducible apply State.setFlag_keeps | with_reducible apply State.unloaded_keeps | (intro _; try dsimp -zeta only) | split)))

theorem State.flySpeed_keeps {s0 s : State}   (h : Keeps s0 s) :
    Keeps s0 (State.flySpeed s) := by
  unfold State.flySpeed
  iterate 60 (all_goals (try (first | with_reducible assumption | with_reducible apply State.emergencyRetract_keeps | with_reducible apply State.event_keeps | with_reducible apply State.phaseCheck_keeps | (extract_lets +onlyGivenNames x; first | (apply cut (p := Keeps s0 x); (case' hp => dsimp -zeta only [x]; clear x); (case' hq => clear_value x; revert x; intro _ _)) | (clear_value x; revert x; intro _)) | split)))

theorem State.beginPeriod_keeps {s0 s : State}   (h : Keeps s0 s) :
    Keeps s0 (State.beginPeriod s) := by
  unfold State.beginPeriod
  iterate 60 (all_goals (try (first | with_reducible assumption | with_reducible apply State.markLegs_keeps | with_reducible apply State.modSpn_keeps | with_reducible apply State.picSend_keeps | with_reducible exact fun w => w | (intro _; try dsimp -zeta only) | (extract_lets +onlyGivenNames x; first | (apply cut (p := Keeps s0 x); (case' hp => dsimp -zeta only [x]; clear x); (case' hq => clear_value x; revert x; intro _ _)) | (clear_value x; revert x; intro _)) | split | with_reducible apply Keeps.upd)))

theorem execPwmPeriod_keeps {s0 s : State} (u : Int) (v : Int) (w : Int)  (h : Keeps s0 s) :
    Goes s0 (execPwmPeriod u v w s) := by
  unfold execPwmPeriod
  iterate 60 (all_goals (try (first | with_reducible assumption | with_reducible apply goes_next | with_reducible apply State.beginPeriod_keeps | with_reducible apply State.countHandover_keeps | with_reducible apply State.flySpeed_keeps | with_reducible apply State.modSpn_keeps | with_reducible apply State.observe_keeps | with_reducible apply State.overcurrent_keeps | with_reducible apply State.setFlag_keeps | with_reducible apply State.setFld_keeps | with_reducible apply State.showLoops_keeps | with_reducible apply State.speedLoop_keeps | with_reducible apply State.superviseSpeed_keeps | with_reducible exact fun w => w | (intro _; try dsimp -zeta only) | (extract_lets +onlyGivenNames x; first | (apply cut (p := Keeps s0 x); (case' hp => dsimp -zeta only [x]; clear x); (case' hq => clear_value x; revert x; intro _ _)) | (clear_value x; revert x; intro _)) | split | with_reducible apply Keeps.upd)))

theorem execOvercurrentCoast_keeps {s0 s : State}   (h : Keeps s0 s) :
    Goes s0 (execOvercurrentCoast s) := by
  unfold execOvercurrentCoast
  iterate 60 (all_goals (try (first | with_reducible assumption | with_reducible apply goes_next | with_reducible apply State.emergencyRetract_keeps | with_reducible apply State.event_keeps | with_reducible apply State.modSpn_keeps | with_reducible apply State.phaseCheck_keeps | with_reducible apply State.setSpin_keeps | with_reducible exact fun w => w | (intro _; try dsimp -zeta only) | (extract_lets +onlyGivenNames x; first | (apply cut (p := Keeps s0 x); (case' hp => dsimp -zeta only [x]; clear x); (case' hq => clear_value x; revert x; intro _ _)) | (clear_value x; revert x; intro _)) | split | with_reducible apply Keeps.upd)))

theorem execFwFloor_keeps {s0 s : State}   (h : Keeps s0 s) :
    Goes s0 (execFwFloor s) := by
  unfold execFwFloor
  iterate 60 (all_goals (try (first | with_reducible assumption | with_reducible apply goes_next | with_reducible apply State.event_keeps | with_reducible apply State.modSpn_keeps | with_reducible apply State.setFlag_keeps | with_reducible exact fun w => w | (intro _; try dsimp -zeta only) | (extract_lets +onlyGivenNames x; first | (apply cut (p := Keeps s0 x); (case' hp => dsimp -zeta only [x]; clear x); (case' hq => clear_value x; revert x; intro _ _)) | (clear_value x; revert x; intro _)) | split | with_reducible apply Keeps.upd)))

theorem execVbusRead_keeps {s0 s : State} (mv : Nat)  (h : Keeps s0 s) :
    Goes s0 (execVbusRead mv s) := by
  unfold execVbusRead
  iterate 60 (all_goals (try (first | with_reducible assumption | with_reducible apply goes_next | with_reducible apply State.event_keeps | with_reducible apply State.formConstants_keeps | with_reducible apply State.modSpn_keeps | with_reducible apply State.picGo_keeps | with_reducible apply State.setFlag_keeps | with_reducible apply State.setFld_keeps | with_reducible exact fun w => w | (intro _; try dsimp -zeta only) | (extract_lets +onlyGivenNames x; first | (apply cut (p := Keeps s0 x); (case' hp => dsimp -zeta only [x]; clear x); (case' hq => clear_value x; revert x; intro _ _)) | (clear_value x; revert x; intro _)) | split | with_reducible apply Keeps.upd)))

theorem State.spindleFault_keeps {s0 s : State} (standby : Option (Fin 3))  (h : Keeps s0 s) :
    Keeps s0 (State.spindleFault s standby) := by
  unfold State.spindleFault
  iterate 60 (all_goals (try (first | with_reducible assumption | with_reducible apply State.emergencyRetract_keeps | with_reducible apply State.event_keeps | with_reducible apply State.modSpn_keeps | with_reducible apply State.phaseCheck_keeps | with_reducible apply State.setFlag_keeps | with_reducible apply State.setFld_keeps | with_reducible apply State.setSpin_keeps | with_reducible exact fun w => w | (intro _; try dsimp -zeta only) | (extract_lets +onlyGivenNames x; first | (apply cut (p := Keeps s0 x); (case' hp => dsimp -zeta only [x]; clear x); (case' hq => clear_value x; revert x; intro _ _)) | (clear_value x; revert x; intro _)) | split | with_reducible apply Keeps.upd | dsimp -zeta only)))

theorem State.loopFault_keeps {s0 s : State} (a : Fin 4)  (h : Keeps s0 s) :
    Keeps s0 (State.loopFault s a) := by
  unfold State.loopFault
  iterate 60 (all_goals (try (first | with_reducible assumption | with_reducible apply State.actEvent_keeps | with_reducible apply State.actuatorLost_keeps | with_reducible apply State.modServo_keeps | with_reducible apply State.modSpn_keeps | with_reducible apply State.noPermit_keeps | with_reducible apply State.requestAbort_keeps | with_reducible apply State.setFlag_keeps | with_reducible apply State.setFld_keeps | with_reducible apply State.unloadFrame_keeps | with_reducible apply State.unsettle_keeps | with_reducible exact fun w => w | (intro _; try dsimp -zeta only) | (extract_lets +onlyGivenNames x; first | (apply cut (p := Keeps s0 x); (case' hp => dsimp -zeta only [x]; clear x); (case' hq => clear_value x; revert x; intro _ _)) | (clear_value x; revert x; intro _)) | split | with_reducible apply Keeps.upd | dsimp -zeta only)))

theorem execLoopEngineFault_keeps {s0 s : State} (a : Fin 4)  (h : Keeps s0 s) :
    Goes s0 (execLoopEngineFault a s) := by
  unfold execLoopEngineFault
  iterate 60 (all_goals (try (first | with_reducible assumption | with_reducible apply goes_next | with_reducible apply State.loopFault_keeps)))

theorem State.loadHeads_keeps {s0 s : State}   (h : Keeps s0 s) :
    Keeps s0 (State.loadHeads s) := by
  unfold State.loadHeads
  iterate 60 (all_goals (try (first | with_reducible assumption | with_reducible apply State.bump_keeps | with_reducible apply State.enterReident_keeps | with_reducible apply State.forActs_keeps | with_reducible apply State.modTime_keeps | with_reducible apply State.phaseCheck_keeps | with_reducible exact fun w => w | (intro _; try dsimp -zeta only) | (extract_lets +onlyGivenNames x; first | (apply cut (p := Keeps s0 x); (case' hp => dsimp -zeta only [x]; clear x); (case' hq => clear_value x; revert x; intro _ _)) | (clear_value x; revert x; intro _)) | split | with_reducible apply Keeps.upd)))

theorem execAtSpeed_keeps {s0 s : State}   (h : Keeps s0 s) :
    Goes s0 (execAtSpeed s) := by
  unfold execAtSpeed
  iterate 60 (all_goals (try (first | with_reducible assumption | with_reducible apply goes_next | with_reducible apply State.bump_keeps | with_reducible apply State.loadHeads_keeps | with_reducible apply State.phaseCheck_keeps | with_reducible apply State.setFlag_keeps | with_reducible exact fun w => w | (intro _; try dsimp -zeta only) | (extract_lets +onlyGivenNames x; first | (apply cut (p := Keeps s0 x); (case' hp => dsimp -zeta only [x]; clear x); (case' hq => clear_value x; revert x; intro _ _)) | (clear_value x; revert x; intro _)) | split | with_reducible apply Keeps.upd)))

theorem State.parkNext_keeps {s0 s : State}   (h : Keeps s0 s) :
    Keeps s0 (State.parkNext s) := by
  unfold State.parkNext
  iterate 60 (all_goals (try (first | with_reducible assumption | with_reducible apply State.picFrame_keeps | with_reducible apply State.setSpin_keeps | split | dsimp -zeta only)))

theorem State.spinRefused_keeps {s0 s : State}   (h : Keeps s0 s) :
    Keeps s0 (State.spinRefused s) := by
  unfold State.spinRefused
  iterate 60 (all_goals (try (first | with_reducible assumption | with_reducible apply State.modSpn_keeps | with_reducible apply State.setFld_keeps | with_reducible apply State.setSpin_keeps | with_reducible exact fun w => w | (intro _; try dsimp -zeta only) | (extract_lets +onlyGivenNames x; first | (apply cut (p := Keeps s0 x); (case' hp => dsimp -zeta only [x]; clear x); (case' hq => clear_value x; revert x; intro _ _)) | (clear_value x; revert x; intro _)) | with_reducible apply Keeps.upd)))

theorem State.preStart_keeps {s0 s : State} (parked : Nat)  (h : Keeps s0 s) :
    Keeps s0 (State.preStart s parked) := by
  unfold State.preStart
  iterate 60 (all_goals (try (first | with_reducible assumption | with_reducible apply State.modSpn_keeps | with_reducible apply State.parkNext_keeps | with_reducible apply State.picParkRead_keeps | with_reducible apply State.setSpin_keeps | with_reducible apply State.spinRefused_keeps | with_reducible apply foldl_keeps | with_reducible exact fun w => w | (intro _; try dsimp -zeta only) | (extract_lets +onlyGivenNames x; first | (apply cut (p := Keeps s0 x); (case' hp => dsimp -zeta only [x]; clear x); (case' hq => clear_value x; revert x; intro _ _)) | (clear_value x; revert x; intro _)) | split | with_reducible apply Keeps.upd)))

theorem State.parkFree_keeps {s0 s : State}   (h : Keeps s0 s) :
    Keeps s0 (State.parkFree s).2 := by
  unfold State.parkFree
  iterate 60 (all_goals (try (first | with_reducible assumption | with_reducible apply State.free_keeps | dsimp -zeta only)))

theorem State.spinCommand_keeps {s0 s : State} (cmd : Nat) (park : Option Nat)  (h : Keeps s0 s) :
    Keeps s0 (State.spinCommand s cmd park) := by
  unfold State.spinCommand
  iterate 60 (all_goals (try (first | with_reducible assumption | with_reducible apply State.forActs_keeps | with_reducible apply State.modSpn_keeps | with_reducible apply State.parkFree_keeps | with_reducible apply State.phaseCheck_keeps | with_reducible apply State.preStart_keeps | with_reducible apply State.setFlag_keeps | with_reducible apply State.setSpin_keeps | with_reducible apply State.unloadFrame_keeps | with_reducible exact fun w => w | (intro _; try dsimp -zeta only) | (extract_lets +onlyGivenNames x; first | (apply cut (p := Keeps s0 x); (case' hp => dsimp -zeta only [x]; clear x); (case' hq => clear_value x; revert x; intro _ _)) | (apply cut (p := Keeps s0 x.2); (case' hp => dsimp -zeta only [x]; clear x); (case' hq => clear_value x; revert x; intro _ _)) | (clear_value x; revert x; intro _)) | split | with_reducible apply Keeps.upd | dsimp -zeta only)))

theorem State.writeSpnCmd_keeps {s0 s : State} (v : Word) (park : Option Nat)  (h : Keeps s0 s) :
    Keeps s0 (State.writeSpnCmd s v park) := by
  unfold State.writeSpnCmd
  iterate 60 (all_goals (try (first | with_reducible assumption | with_reducible apply State.markLegs_keeps | with_reducible apply State.phaseCheck_keeps | with_reducible apply State.setFlag_keeps | with_reducible apply State.setFld_keeps | with_reducible apply State.spinCommand_keeps | (extract_lets +onlyGivenNames x; first | (apply cut (p := Keeps s0 x); (case' hp => dsimp -zeta only [x]; clear x); (case' hq => clear_value x; revert x; intro _ _)) | (clear_value x; revert x; intro _)) | split)))

theorem execSpindleStart_keeps {s0 s : State} (assoc : Nat) (value : Word) (parked : Nat)  (h : Keeps s0 s) :
    Goes s0 (execSpindleStart assoc value parked s) := by
  unfold execSpindleStart
  iterate 60 (all_goals (try (first | with_reducible assumption | with_reducible apply goes_next | with_reducible apply State.ownerReg_keeps | with_reducible apply State.writeSpnCmd_keeps | (intro _; try dsimp -zeta only))))

theorem execSpindleStop_keeps {s0 s : State} (assoc : Nat) (value : Word)  (h : Keeps s0 s) :
    Goes s0 (execSpindleStop assoc value s) := by
  unfold execSpindleStop
  iterate 60 (all_goals (try (first | with_reducible assumption | with_reducible apply goes_next | with_reducible apply State.ownerReg_keeps | with_reducible apply State.writeSpnCmd_keeps | (intro _; try dsimp -zeta only))))

theorem execSpindleCoast_keeps {s0 s : State} (assoc : Nat) (value : Word)  (h : Keeps s0 s) :
    Goes s0 (execSpindleCoast assoc value s) := by
  unfold execSpindleCoast
  iterate 60 (all_goals (try (first | with_reducible assumption | with_reducible apply goes_next | with_reducible apply State.ownerReg_keeps | with_reducible apply State.writeSpnCmd_keeps | (intro _; try dsimp -zeta only))))

theorem State.parkedNow_keeps {s0 s : State} (id : Nat)  (h : Keeps s0 s) :
    Keeps s0 (State.parkedNow s id) := by
  unfold State.parkedNow
  iterate 60 (all_goals (try (first | with_reducible assumption | with_reducible apply State.event_keeps | with_reducible apply State.modSpn_keeps | with_reducible apply State.parkNext_keeps | with_reducible exact fun w => w | (intro _; try dsimp -zeta only) | (extract_lets +onlyGivenNames x; first | (apply cut (p := Keeps s0 x); (case' hp => dsimp -zeta only [x]; clear x); (case' hq => clear_value x; revert x; intro _ _)) | (clear_value x; revert x; intro _)) | with_reducible apply Keeps.upd)))

theorem State.rock_keeps {s0 s : State} (a : Fin 4) (mag : Nat)  (h : Keeps s0 s) :
    Keeps s0 (State.rock s a mag) := by
  unfold State.rock
  iterate 60 (all_goals (try (first | with_reducible assumption | with_reducible apply State.modSpn_keeps | with_reducible apply State.picFrame_keeps | with_reducible apply State.setSFld_keeps | with_reducible exact fun w => w | (intro _; try dsimp -zeta only) | (extract_lets +onlyGivenNames x; first | (apply cut (p := Keeps s0 x); (case' hp => dsimp -zeta only [x]; clear x); (case' hq => clear_value x; revert x; intro _ _)) | (have hx : _ → State := x; clear hx; dsimp -zeta only [x]; clear x) | (have hx : _ → _ → State := x; clear hx; dsimp -zeta only [x]; clear x) | (have hx : _ → _ × State := x; clear hx; dsimp -zeta only [x]; clear x) | (clear_value x; revert x; intro _)) | with_reducible apply Keeps.upd)))

theorem execParkRetractWaitEnd_keeps {s0 s : State} (parked : Bool)  (h : Keeps s0 s) :
    Goes s0 (execParkRetractWaitEnd parked s) := by
  unfold execParkRetractWaitEnd
  iterate 60 (all_goals (try (first | with_reducible assumption | with_reducible apply goes_next | with_reducible apply State.modSpn_keeps | with_reducible apply State.parkedNow_keeps | with_reducible apply State.picParkRead_keeps | with_reducible apply State.rock_keeps | with_reducible exact fun w => w | (intro _; try dsimp -zeta only) | (extract_lets +onlyGivenNames x; first | (apply cut (p := Keeps s0 x); (case' hp => dsimp -zeta only [x]; clear x); (case' hq => clear_value x; revert x; intro _ _)) | (clear_value x; revert x; intro _)) | split | with_reducible apply Keeps.upd | dsimp -zeta only)))

theorem execRockPairDone_keeps {s0 s : State} (parked : Bool)  (h : Keeps s0 s) :
    Goes s0 (execRockPairDone parked s) := by
  unfold execRockPairDone
  iterate 60 (all_goals (try (first | with_reducible assumption | with_reducible apply goes_next | with_reducible apply State.event_keeps | with_reducible apply State.modSpn_keeps | with_reducible apply State.parkedNow_keeps | with_reducible apply State.picParkRead_keeps | with_reducible apply State.rock_keeps | with_reducible apply State.setSFld_keeps | with_reducible apply State.spinRefused_keeps | with_reducible exact fun w => w | (intro _; try dsimp -zeta only) | (extract_lets +onlyGivenNames x; first | (apply cut (p := Keeps s0 x); (case' hp => dsimp -zeta only [x]; clear x); (case' hq => clear_value x; revert x; intro _ _)) | (clear_value x; revert x; intro _)) | split | with_reducible apply Keeps.upd | dsimp -zeta only)))

theorem State.enterRunning_keeps {s0 s : State} (f : Spn → Spn)  (h : Keeps s0 s) :
    Keeps s0 (State.enterRunning s f) := by
  unfold State.enterRunning
  iterate 60 (all_goals (try (first | with_reducible assumption | with_reducible apply State.modSpn_keeps | with_reducible apply State.modTime_keeps | with_reducible apply State.phaseCheck_keeps | with_reducible apply State.setSpin_keeps | with_reducible exact fun w => w | (intro _; try dsimp -zeta only) | (extract_lets +onlyGivenNames x; first | (apply cut (p := Keeps s0 x); (case' hp => dsimp -zeta only [x]; clear x); (case' hq => clear_value x; revert x; intro _ _)) | (clear_value x; revert x; intro _)) | with_reducible apply Keeps.upd)))

theorem execPrestartSensingDone_keeps {s0 s : State} (rpm : Int) (theta : Nat)  (h : Keeps s0 s) :
    Goes s0 (execPrestartSensingDone rpm theta s) := by
  unfold execPrestartSensingDone
  iterate 60 (all_goals (try (first | with_reducible assumption | with_reducible apply goes_next | with_reducible apply State.enterRunning_keeps | with_reducible apply State.event_keeps | with_reducible apply State.setFlag_keeps | with_reducible apply State.setFld_keeps | with_reducible apply State.setReg_keeps | with_reducible apply State.setSpin_keeps | with_reducible exact fun w => w | (intro _; try dsimp -zeta only) | (extract_lets +onlyGivenNames x; first | (apply cut (p := Keeps s0 x); (case' hp => dsimp -zeta only [x]; clear x); (case' hq => clear_value x; revert x; intro _ _)) | (clear_value x; revert x; intro _)) | split | with_reducible apply Keeps.upd)))

theorem execBrakeHoldEnd_keeps {s0 s : State}   (h : Keeps s0 s) :
    Goes s0 (execBrakeHoldEnd s) := by
  unfold execBrakeHoldEnd
  iterate 60 (all_goals (try (first | with_reducible assumption | with_reducible apply goes_next | with_reducible apply State.modSpn_keeps | with_reducible apply State.parkFree_keeps | with_reducible apply State.preStart_keeps | with_reducible apply State.setSpin_keeps | with_reducible apply State.spinCommand_keeps | with_reducible exact fun w => w | (intro _; try dsimp -zeta only) | (extract_lets +onlyGivenNames x; first | (apply cut (p := Keeps s0 x); (case' hp => dsimp -zeta only [x]; clear x); (case' hq => clear_value x; revert x; intro _ _)) | (apply cut (p := Keeps s0 x.2); (case' hp => dsimp -zeta only [x]; clear x); (case' hq => clear_value x; revert x; intro _ _)) | (clear_value x; revert x; intro _)) | split | with_reducible apply Keeps.upd | dsimp -zeta only)))

theorem execPositionSensingDone_keeps {s0 s : State} (theta : Nat)  (h : Keeps s0 s) :
    Goes s0 (execPositionSensingDone theta s) := by
  unfold execPositionSensingDone
  iterate 60 (all_goals (try (first | with_reducible assumption | with_reducible apply goes_next | with_reducible apply State.modSpn_keeps | with_reducible apply State.setSpin_keeps | with_reducible exact fun w => w | (intro _; try dsimp -zeta only) | (extract_lets +onlyGivenNames x; first | (apply cut (p := Keeps s0 x); (case' hp => dsimp -zeta only [x]; clear x); (case' hq => clear_value x; revert x; intro _ _)) | (clear_value x; revert x; intro _)) | split | with_reducible apply Keeps.upd)))

theorem execStartHandover_keeps {s0 s : State}   (h : Keeps s0 s) :
    Goes s0 (execStartHandover s) := by
  unfold execStartHandover
  iterate 60 (all_goals (try (first | with_reducible assumption | with_reducible apply goes_next | with_reducible apply State.enterRunning_keeps | with_reducible exact fun w => w | (intro _; try dsimp -zeta only) | (extract_lets +onlyGivenNames x; first | (apply cut (p := Keeps s0 x); (case' hp => dsimp -zeta only [x]; clear x); (case' hq => clear_value x; revert x; intro _ _)) | (clear_value x; revert x; intro _)) | split | with_reducible apply Keeps.upd)))

theorem execHandoverTimeout_keeps {s0 s : State}   (h : Keeps s0 s) :
    Goes s0 (execHandoverTimeout s) := by
  unfold execHandoverTimeout
  iterate 60 (all_goals (try (first | with_reducible assumption | with_reducible apply goes_next | with_reducible apply State.event_keeps | with_reducible apply State.modSpn_keeps | with_reducible apply State.setSpin_keeps | with_reducible apply State.spinRefused_keeps | with_reducible exact fun w => w | (intro _; try dsimp -zeta only) | (extract_lets +onlyGivenNames x; first | (apply cut (p := Keeps s0 x); (case' hp => dsimp -zeta only [x]; clear x); (case' hq => clear_value x; revert x; intro _ _)) | (clear_value x; revert x; intro _)) | split | with_reducible apply Keeps.upd)))

theorem execSpindownBrakeChange_keeps {s0 s : State}   (h : Keeps s0 s) :
    Goes s0 (execSpindownBrakeChange s) := by
  unfold execSpindownBrakeChange
  iterate 60 (all_goals (try (first | with_reducible assumption | with_reducible apply goes_next | with_reducible apply State.modSpn_keeps | with_reducible apply State.setSpin_keeps | with_reducible exact fun w => w | (intro _; try dsimp -zeta only) | (extract_lets +onlyGivenNames x; first | (apply cut (p := Keeps s0 x); (case' hp => dsimp -zeta only [x]; clear x); (case' hq => clear_value x; revert x; intro _ _)) | (clear_value x; revert x; intro _)) | split | with_reducible apply Keeps.upd)))

theorem State.writeIsns_keeps {s0 s : State} (v : Word) (rpm : Option Int) (h : Keeps s0 s) : Keeps s0 (State.writeIsns s v rpm) := by
  unfold State.writeIsns
  extract_lets a g s1 s2
  have h1 : Keeps s0 s1 := by
    dsimp -zeta only [s1]
    split
    · exact h
    · exact State.modSpn_keeps _ (State.setFld_keeps _ _ _ h)
  have h2 : Keeps s0 s2 := State.setFld_keeps _ _ _ h1

  split
  · exact h2
  · cases rpm with
    | some r =>

      split
      · exact State.setFlag_keeps _ _ _ h2
      · exact State.modSpn_keeps _ h2
    | none =>

      split
      · exact State.setFlag_keeps _ _ _ (State.free_keeps 32768 h2)
      · exact State.modSpn_keeps _ (State.free_keeps 32768 h2)

theorem execIsnsCal_keeps {s0 s : State} (assoc : Nat) (rpm : Int)  (h : Keeps s0 s) :
    Goes s0 (execIsnsCal assoc rpm s) := by
  unfold execIsnsCal
  iterate 60 (all_goals (try (first | with_reducible assumption | with_reducible apply goes_next | with_reducible apply State.ownerReg_keeps | with_reducible apply State.writeIsns_keeps | (intro _; try dsimp -zeta only) | (extract_lets +onlyGivenNames x; first | (apply cut (p := Keeps s0 x); (case' hp => dsimp -zeta only [x]; clear x); (case' hq => clear_value x; revert x; intro _ _)) | (clear_value x; revert x; intro _)))))

theorem execIsnsCalDone_keeps {s0 s : State} (samples : List (Int × Int × Int))  (h : Keeps s0 s) :
    Goes s0 (execIsnsCalDone samples s) := by
  unfold execIsnsCalDone
  iterate 60 (all_goals (try (first | with_reducible assumption | with_reducible apply goes_next | with_reducible apply State.modSpn_keeps | with_reducible apply State.setSFld_keeps | with_reducible exact fun w => w | (intro _; try dsimp -zeta only) | (extract_lets +onlyGivenNames x; first | (apply cut (p := Keeps s0 x); (case' hp => dsimp -zeta only [x]; clear x); (case' hq => clear_value x; revert x; intro _ _)) | (clear_value x; revert x; intro _)) | split | with_reducible apply Keeps.upd)))

theorem execIsnsGainWrite_keeps {s0 s : State} (assoc : Nat) (gain : Fin 4)  (h : Keeps s0 s) :
    Goes s0 (execIsnsGainWrite assoc gain s) := by
  unfold execIsnsGainWrite
  iterate 60 (all_goals (try (first | with_reducible assumption | with_reducible apply goes_next | with_reducible apply State.ownerReg_keeps | with_reducible apply State.writeIsns_keeps | (intro _; try dsimp -zeta only) | (extract_lets +onlyGivenNames x; first | (apply cut (p := Keeps s0 x); (case' hp => dsimp -zeta only [x]; clear x); (case' hq => clear_value x; revert x; intro _ _)) | (clear_value x; revert x; intro _)))))

theorem State.pairRetract_keeps {s0 s : State}   (h : Keeps s0 s) :
    Keeps s0 (State.pairRetract s) := by
  unfold State.pairRetract
  iterate 60 (all_goals (try (first | with_reducible assumption | with_reducible apply State.emergencyRetract_keeps | with_reducible apply State.setFlag_keeps | (extract_lets +onlyGivenNames x; first | (apply cut (p := Keeps s0 x); (case' hp => dsimp -zeta only [x]; clear x); (case' hq => clear_value x; revert x; intro _ _)) | (clear_value x; revert x; intro _)))))

theorem execRetractInputChange_keeps {s0 s : State} (aOn : Bool) (bOn : Bool)  (h : Keeps s0 s) :
    Goes s0 (execRetractInputChange aOn bOn s) := by
  unfold execRetractInputChange
  iterate 60 (all_goals (try (first | with_reducible assumption | with_reducible apply goes_next | with_reducible apply State.countFld_keeps | with_reducible apply State.event_keeps | with_reducible apply State.modSpn_keeps | with_reducible apply State.pairRetract_keeps | with_reducible apply State.phaseCheck_keeps | with_reducible apply State.setFlag_keeps | with_reducible exact fun w => w | (intro _; try dsimp -zeta only) | (extract_lets +onlyGivenNames x; first | (apply cut (p := Keeps s0 x); (case' hp => dsimp -zeta only [x]; clear x); (case' hq => clear_value x; revert x; intro _ _)) | (clear_value x; revert x; intro _)) | split | with_reducible apply Keeps.upd)))

theorem execRetractDiscrepancy_keeps {s0 s : State}   (h : Keeps s0 s) :
    Goes s0 (execRetractDiscrepancy s) := by
  unfold execRetractDiscrepancy
  iterate 60 (all_goals (try (first | with_reducible assumption | with_reducible apply goes_next | with_reducible apply State.event_keeps | with_reducible apply State.modSpn_keeps | with_reducible apply State.pairRetract_keeps | with_reducible apply State.phaseCheck_keeps | with_reducible apply State.setFld_keeps | with_reducible exact fun w => w | (intro _; try dsimp -zeta only) | (extract_lets +onlyGivenNames x; first | (apply cut (p := Keeps s0 x); (case' hp => dsimp -zeta only [x]; clear x); (case' hq => clear_value x; revert x; intro _ _)) | (clear_value x; revert x; intro _)) | split | with_reducible apply Keeps.upd)))

end Sys2Proof.Machine
end

