-- ==== Sys2Proof/Laws/Keeps/Integrity.lean ====
section
/-! SUPPORT. Machine/Integrity.lean: each of its operations keeps the canonical forms, the queue and the order of free values. -/

namespace Sys2Proof.Machine

open Sys2Proof

theorem State.modMedia_keeps {s0 s : State} (f : Media → Media) (hf : ∀ m, keysRise m.sectors = true → keysRise (f m).sectors = true)
    (h : Keeps s0 s) : Keeps s0 (s.modMedia f) := by
  unfold State.modMedia
  exact Keeps.upd (hf _) h

theorem State.syncSpare_keeps {s0 s : State} (x : Nat)  (h : Keeps s0 s) :
    Keeps s0 (State.syncSpare s x) := by
  unfold State.syncSpare
  iterate 60 (all_goals (try (first | with_reducible assumption | with_reducible apply State.setFld_keeps | (extract_lets +onlyGivenNames x; first | (apply cut (p := Keeps s0 x); (case' hp => dsimp -zeta only [x]; clear x); (case' hq => clear_value x; revert x; intro _ _)) | (clear_value x; revert x; intro _)))))

theorem State.reallocate_keeps {s0 s : State} (x : Nat)  (h : Keeps s0 s) :
    Keeps s0 (State.reallocate s x).2 := by
  unfold State.reallocate
  iterate 60 (all_goals (try (first | with_reducible assumption | with_reducible apply State.actEvent_keeps | with_reducible apply State.countFld_keeps | with_reducible apply State.modMedia_keeps | with_reducible apply State.setFld_keeps | with_reducible apply State.syncSpare_keeps | with_reducible exact fun w => w | (intro _; try dsimp -zeta only) | (extract_lets +onlyGivenNames x; first | (apply cut (p := Keeps s0 x); (case' hp => dsimp -zeta only [x]; clear x); (case' hq => clear_value x; revert x; intro _ _)) | (apply cut (p := Keeps s0 x.2); (case' hp => dsimp -zeta only [x]; clear x); (case' hq => clear_value x; revert x; intro _ _)) | (have hx := x.wsnBlock; clear hx; dsimp -zeta only [x]; clear x) | (clear_value x; revert x; intro _)) | split | with_reducible apply Keeps.upd | dsimp -zeta only)))

theorem State.forceClose_keeps {s0 s : State}   (h : Keeps s0 s) :
    Keeps s0 (State.forceClose s) := by
  unfold State.forceClose
  iterate 60 (all_goals (try (first | with_reducible assumption | with_reducible apply State.actEvent_keeps | with_reducible apply State.countFld_keeps | with_reducible apply State.modMedia_keeps | with_reducible exact fun w => w | (intro _; try dsimp -zeta only) | (extract_lets +onlyGivenNames x; first | (apply cut (p := Keeps s0 x); (case' hp => dsimp -zeta only [x]; clear x); (case' hq => clear_value x; revert x; intro _ _)) | (have hx := x.wsnBlock; clear hx; dsimp -zeta only [x]; clear x) | (clear_value x; revert x; intro _)) | split | with_reducible apply Keeps.upd | dsimp -zeta only)))

theorem State.makeRoom_keeps {s0 s : State}   (h : Keeps s0 s) :
    Keeps s0 (State.makeRoom s) := by
  unfold State.makeRoom
  iterate 60 (all_goals (try (first | with_reducible assumption | with_reducible apply State.forceClose_keeps | (intro _; try dsimp -zeta only) | split)))

theorem State.noteCourse_keeps {s0 s : State} (x : Nat)  (h : Keeps s0 s) :
    Keeps s0 (State.noteCourse s x) := by
  unfold State.noteCourse
  iterate 60 (all_goals (try (first | with_reducible assumption | with_reducible apply State.modMedia_keeps | with_reducible exact fun w => w | (intro _; try dsimp -zeta only) | (extract_lets +onlyGivenNames x; first | (apply cut (p := Keeps s0 x); (case' hp => dsimp -zeta only [x]; clear x); (case' hq => clear_value x; revert x; intro _ _)) | (clear_value x; revert x; intro _)) | split | with_reducible apply Keeps.upd | dsimp -zeta only)))

theorem State.nowTrails_keeps {s0 s : State} (l : List Trail)  (h : Keeps s0 s) :
    Keeps s0 (State.nowTrails s l) := by
  unfold State.nowTrails
  iterate 60 (all_goals (try (first | with_reducible assumption | with_reducible apply State.event_keeps | with_reducible apply State.modMedia_keeps | with_reducible exact fun w => w | (intro _; try dsimp -zeta only) | (extract_lets +onlyGivenNames x; first | (apply cut (p := Keeps s0 x); (case' hp => dsimp -zeta only [x]; clear x); (case' hq => clear_value x; revert x; intro _ _)) | (have hx := x.wsnBlock; clear hx; dsimp -zeta only [x]; clear x) | (clear_value x; revert x; intro _)) | split | with_reducible apply Keeps.upd)))

theorem State.noteWritten_keeps {s0 s : State} (x : Nat)  (h : Keeps s0 s) :
    Keeps s0 (State.noteWritten s x) := by
  unfold State.noteWritten
  iterate 60 (all_goals (try (first | with_reducible assumption | with_reducible apply State.modMedia_keeps | with_reducible apply State.noteCourse_keeps | with_reducible apply State.nowTrails_keeps | with_reducible exact fun w => w | (intro _; try dsimp -zeta only) | (extract_lets +onlyGivenNames x; first | (apply cut (p := Keeps s0 x); (case' hp => dsimp -zeta only [x]; clear x); (case' hq => clear_value x; revert x; intro _ _)) | (have hx := x.wsnBlock; clear hx; dsimp -zeta only [x]; clear x) | (clear_value x; revert x; intro _)) | split | with_reducible apply Keeps.upd | dsimp -zeta only)))

theorem State.trimBuffer_keeps {s0 s : State}   (h : Keeps s0 s) :
    Keeps s0 (State.trimBuffer s) := by
  unfold State.trimBuffer
  iterate 60 (all_goals (try (first | with_reducible assumption | with_reducible apply State.modMedia_keeps | with_reducible exact fun w => w | (intro _; try dsimp -zeta only) | (extract_lets +onlyGivenNames x; first | (apply cut (p := Keeps s0 x); (case' hp => dsimp -zeta only [x]; clear x); (case' hq => clear_value x; revert x; intro _ _)) | (clear_value x; revert x; intro _)) | split | with_reducible apply Keeps.upd | dsimp -zeta only)))

theorem State.clearUnrec_keeps {s0 s : State} (ns : Nat) (lba : Nat)  (h : Keeps s0 s) :
    Keeps s0 (State.clearUnrec s ns lba) := by
  unfold State.clearUnrec
  iterate 60 (all_goals (try (first | with_reducible assumption | with_reducible apply State.modMedia_keeps | with_reducible exact fun w => w | (intro _; try dsimp -zeta only) | (extract_lets +onlyGivenNames x; first | (apply cut (p := Keeps s0 x); (case' hp => dsimp -zeta only [x]; clear x); (case' hq => clear_value x; revert x; intro _ _)) | (clear_value x; revert x; intro _)) | with_reducible apply Keeps.upd)))

theorem State.countUnrec_keeps {s0 s : State} (x : Nat)  (h : Keeps s0 s) :
    Keeps s0 (State.countUnrec s x) := by
  unfold State.countUnrec
  iterate 60 (all_goals (try (first | with_reducible assumption | with_reducible apply State.countFld_keeps | with_reducible apply State.modMedia_keeps | with_reducible exact fun w => w | (intro _; try dsimp -zeta only) | (extract_lets +onlyGivenNames x; first | (apply cut (p := Keeps s0 x); (case' hp => dsimp -zeta only [x]; clear x); (case' hq => clear_value x; revert x; intro _ _)) | (clear_value x; revert x; intro _)) | split | with_reducible apply Keeps.upd | dsimp -zeta only)))

theorem State.unrecover_keeps {s0 s : State} (x : Nat)  (h : Keeps s0 s) :
    Keeps s0 (State.unrecover s x) := by
  unfold State.unrecover
  iterate 60 (all_goals (try (first | with_reducible assumption | with_reducible apply State.addUnrec_keeps | with_reducible apply State.countUnrec_keeps | split | dsimp -zeta only)))

theorem execCourseOpenTimeout_keeps {s0 s : State} (surface : Nat) (track : Nat) (course : Nat)  (h : Keeps s0 s) :
    Goes s0 (execCourseOpenTimeout surface track course s) := by
  unfold execCourseOpenTimeout
  iterate 60 (all_goals (try (first | with_reducible assumption | with_reducible apply goes_next | with_reducible apply State.modMedia_keeps | with_reducible exact fun w => w | (intro _; try dsimp -zeta only) | (extract_lets +onlyGivenNames x; first | (apply cut (p := Keeps s0 x); (case' hp => dsimp -zeta only [x]; clear x); (case' hq => clear_value x; revert x; intro _ _)) | (have hx := x.wsnBlock; clear hx; dsimp -zeta only [x]; clear x) | (clear_value x; revert x; intro _)) | split | with_reducible apply Keeps.upd | dsimp -zeta only)))

theorem State.writeCourseParity_keeps {s0 s : State} (k : Nat × Nat × Nat)  (h : Keeps s0 s) :
    Keeps s0 (State.writeCourseParity s k) := by
  unfold State.writeCourseParity
  iterate 60 (all_goals (try (first | with_reducible assumption | with_reducible apply State.recordAt_keeps | with_reducible apply State.writePass_keeps | with_reducible apply foldl_keeps | (intro _; try dsimp -zeta only) | (extract_lets +onlyGivenNames x; first | (apply cut (p := Keeps s0 x); (case' hp => dsimp -zeta only [x]; clear x); (case' hq => clear_value x; revert x; intro _ _)) | (clear_value x; revert x; intro _)))))

theorem execCourseCloseDone_keeps {s0 s : State} (surface : Nat) (track : Nat) (course : Nat) (failed : List Nat)  (h : Keeps s0 s) :
    Goes s0 (execCourseCloseDone surface track course failed s) := by
  unfold execCourseCloseDone
  iterate 60 (all_goals (try (first | with_reducible assumption | with_reducible apply goes_next | with_reducible apply State.modMedia_keeps | with_reducible apply State.recordSector_keeps | with_reducible apply State.trimBuffer_keeps | with_reducible apply State.unrecover_keeps | with_reducible apply State.writeCourseParity_keeps | with_reducible apply State.writePass_keeps | with_reducible apply foldl_keeps | with_reducible exact fun w => w | (intro _; try dsimp -zeta only) | (extract_lets +onlyGivenNames x; first | (apply cut (p := Keeps s0 x); (case' hp => dsimp -zeta only [x]; clear x); (case' hq => clear_value x; revert x; intro _ _)) | (have hx := x.wsnBlock; clear hx; dsimp -zeta only [x]; clear x) | (clear_value x; revert x; intro _)) | split | with_reducible apply Keeps.upd | dsimp -zeta only)))

theorem execTrailTimeout_keeps {s0 s : State} (truss : Nat)  (h : Keeps s0 s) :
    Goes s0 (execTrailTimeout truss s) := by
  unfold execTrailTimeout
  iterate 60 (all_goals (try (first | with_reducible assumption | with_reducible apply goes_next | with_reducible apply State.event_keeps | (intro _; try dsimp -zeta only) | split)))

theorem State.atLayer_keeps {s0 s : State} (l : List Nat) (layer : Nat)  (h : Keeps s0 s) :
    Keeps s0 (State.atLayer s l layer) := by
  unfold State.atLayer
  iterate 60 (all_goals (try (first | with_reducible assumption | with_reducible apply State.modMedia_keeps | with_reducible exact fun w => w | (intro _; try dsimp -zeta only) | (extract_lets +onlyGivenNames x; first | (apply cut (p := Keeps s0 x); (case' hp => dsimp -zeta only [x]; clear x); (case' hq => clear_value x; revert x; intro _ _)) | (have hx := x.wsnBlock; clear hx; dsimp -zeta only [x]; clear x) | (clear_value x; revert x; intro _)) | split | with_reducible apply Keeps.upd)))

theorem State.delivered_keeps {s0 s : State} (x : Nat) (d : List Byte)  (h : Keeps s0 s) :
    Keeps s0 (State.delivered s x d) := by
  unfold State.delivered
  iterate 60 (all_goals (try (first | with_reducible assumption | with_reducible apply State.deliver_keeps | with_reducible apply State.modMedia_keeps | with_reducible exact fun w => w | (intro _; try dsimp -zeta only) | (extract_lets +onlyGivenNames x; first | (apply cut (p := Keeps s0 x); (case' hp => dsimp -zeta only [x]; clear x); (case' hq => clear_value x; revert x; intro _ _)) | (clear_value x; revert x; intro _)) | with_reducible apply Keeps.upd)))

theorem State.recovered_keeps {s0 s : State} (x : Nat) (course : Bool) (d : List Byte)  (h : Keeps s0 s) :
    Keeps s0 (State.recovered s x course d) := by
  unfold State.recovered
  iterate 60 (all_goals (try (first | with_reducible assumption | with_reducible apply State.actEvent_keeps | with_reducible apply State.countFld_keeps | with_reducible apply State.delivered_keeps | with_reducible apply State.modMedia_keeps | with_reducible exact fun w => w | (intro _; try dsimp -zeta only) | (extract_lets +onlyGivenNames x; first | (apply cut (p := Keeps s0 x); (case' hp => dsimp -zeta only [x]; clear x); (case' hq => clear_value x; revert x; intro _ _)) | (clear_value x; revert x; intro _)) | split | with_reducible apply Keeps.upd | dsimp -zeta only)))

theorem State.courseLayer_keeps {s0 s : State} (x : Nat) (lost : List Nat)  (h : Keeps s0 s) :
    Keeps s0 (State.courseLayer s x lost).2 := by
  unfold State.courseLayer
  iterate 60 (all_goals (try (first | with_reducible assumption | with_reducible apply State.recovered_keeps | with_reducible apply foldl_keeps | with_reducible apply foldl_keeps_snd | (intro _; try dsimp -zeta only) | (extract_lets +onlyGivenNames x; first | (apply cut (p := Keeps s0 x); (case' hp => dsimp -zeta only [x]; clear x); (case' hq => clear_value x; revert x; intro _ _)) | (apply cut (p := Keeps s0 x.2); (case' hp => dsimp -zeta only [x]; clear x); (case' hq => clear_value x; revert x; intro _ _)) | (clear_value x; revert x; intro _)) | split | dsimp -zeta only)))

theorem State.rewriteAt_keeps {s0 s : State} (x : Nat) (d : List Byte)  (h : Keeps s0 s) :
    Keeps s0 (State.rewriteAt s x d) := by
  unfold State.rewriteAt
  iterate 60 (all_goals (try (first | with_reducible assumption | with_reducible apply State.noteCourse_keeps | with_reducible apply State.recordSector_keeps | with_reducible apply State.writePass_keeps)))

theorem execRecoveredRewrite_keeps {s0 s : State} (media : Nat) (readBack : Option Nat)  (h : Keeps s0 s) :
    Goes s0 (execRecoveredRewrite media readBack s) := by
  unfold execRecoveredRewrite
  iterate 60 (all_goals (try (first | with_reducible assumption | with_reducible apply goes_next | with_reducible apply State.makeRoom_keeps | with_reducible apply State.modMedia_keeps | with_reducible apply State.reallocate_keeps | with_reducible apply State.rewriteAt_keeps | with_reducible exact fun w => w | (intro _; try dsimp -zeta only) | (extract_lets +onlyGivenNames x; first | (apply cut (p := Keeps s0 x); (case' hp => dsimp -zeta only [x]; clear x); (case' hq => clear_value x; revert x; intro _ _)) | (apply cut (p := Keeps s0 x.2); (case' hp => dsimp -zeta only [x]; clear x); (case' hq => clear_value x; revert x; intro _ _)) | (have hx := x.wsnBlock; clear hx; dsimp -zeta only [x]; clear x) | (clear_value x; revert x; intro _)) | split | with_reducible apply Keeps.upd | dsimp -zeta only)))

theorem execRebuildUnit_keeps {s0 s : State}   (h : Keeps s0 s) :
    Goes s0 (execRebuildUnit s) := by
  unfold execRebuildUnit
  iterate 60 (all_goals (try (first | with_reducible assumption | with_reducible apply goes_next | with_reducible apply State.event_keeps | with_reducible apply State.makeRoom_keeps | with_reducible apply State.modMedia_keeps | with_reducible apply State.noteCourse_keeps | with_reducible apply State.recordSector_keeps | with_reducible apply State.setFld_keeps | with_reducible apply State.syncRebuild_keeps | with_reducible apply State.syncSpare_keeps | with_reducible apply State.writePass_keeps | with_reducible apply foldl_keeps | with_reducible exact fun w => w | (intro _; try dsimp -zeta only) | (extract_lets +onlyGivenNames x; first | (apply cut (p := Keeps s0 x); (case' hp => dsimp -zeta only [x]; clear x); (case' hq => clear_value x; revert x; intro _ _)) | (have hx := x.wsnBlock; clear hx; dsimp -zeta only [x]; clear x) | (clear_value x; revert x; intro _)) | split | with_reducible apply Keeps.upd | dsimp -zeta only)))

theorem execScanSector_keeps {s0 s : State} (a : Fin 4) (head : Nat) (track : Nat) (sector : Nat) (found : Scanned)  (h : Keeps s0 s) :
    Goes s0 (execScanSector a head track sector found s) := by
  unfold execScanSector
  iterate 60 (all_goals (try (first | with_reducible assumption | with_reducible apply goes_next | with_reducible apply State.actEvent_keeps | with_reducible apply State.countFld_keeps | with_reducible apply State.erase_keeps | with_reducible apply State.event_keeps | with_reducible apply State.makeRoom_keeps | with_reducible apply State.modMedia_keeps | with_reducible apply State.rewriteAt_keeps | with_reducible apply State.setFld_keeps | with_reducible apply State.writeCourseParity_keeps | with_reducible apply foldl_keeps | with_reducible exact fun w => w | (intro _; try dsimp -zeta only) | (extract_lets +onlyGivenNames x; first | (apply cut (p := Keeps s0 x); (case' hp => dsimp -zeta only [x]; clear x); (case' hq => clear_value x; revert x; intro _ _)) | (have hx : _ → State := x; clear hx; dsimp -zeta only [x]; clear x) | (have hx : _ → _ → State := x; clear hx; dsimp -zeta only [x]; clear x) | (have hx : _ → _ × State := x; clear hx; dsimp -zeta only [x]; clear x) | (have hx := x.wsnBlock; clear hx; dsimp -zeta only [x]; clear x) | (clear_value x; revert x; intro _)) | split | with_reducible apply Keeps.upd | dsimp -zeta only)))

end Sys2Proof.Machine
end

