-- ==== Sys2Proof/Laws/Keeps/Host.lean ====
section
/-! SUPPORT. Machine/Host.lean: each of its operations keeps the canonical forms, the queue and the order of free values. -/

namespace Sys2Proof.Machine

open Sys2Proof

theorem State.modHost_keeps {s0 s : State} (f : HostState → HostState)  (h : Keeps s0 s) :
    Keeps s0 (State.modHost s f) := by
  unfold State.modHost
  iterate 60 (all_goals (try (first | with_reducible assumption | with_reducible exact fun w => w | (intro _; try dsimp -zeta only) | (extract_lets +onlyGivenNames x; first | (apply cut (p := Keeps s0 x); (case' hp => dsimp -zeta only [x]; clear x); (case' hq => clear_value x; revert x; intro _ _)) | (clear_value x; revert x; intro _)) | with_reducible apply Keeps.upd)))

theorem State.sendOn_keeps {s0 s : State} (p : Nat) (i : Nat) (level : Nat) (o : NetOut)  (h : Keeps s0 s) :
    Keeps s0 (State.sendOn s p i level o) := by
  unfold State.sendOn
  iterate 60 (all_goals (try (first | with_reducible assumption | with_reducible apply State.modHost_keeps | with_reducible exact fun w => w | (intro _; try dsimp -zeta only) | (extract_lets +onlyGivenNames x; first | (apply cut (p := Keeps s0 x); (case' hp => dsimp -zeta only [x]; clear x); (case' hq => clear_value x; revert x; intro _ _)) | (clear_value x; revert x; intro _)) | with_reducible apply Keeps.upd)))

theorem State.sendConn_keeps {s0 s : State} (k : Nat) (level : Nat) (o : NetOut)  (h : Keeps s0 s) :
    Keeps s0 (State.sendConn s k level o) := by
  unfold State.sendConn
  iterate 60 (all_goals (try (first | with_reducible assumption | with_reducible apply State.modHost_keeps | with_reducible apply State.sendOn_keeps | with_reducible exact fun w => w | (intro _; try dsimp -zeta only) | (extract_lets +onlyGivenNames x; first | (apply cut (p := Keeps s0 x); (case' hp => dsimp -zeta only [x]; clear x); (case' hq => clear_value x; revert x; intro _ _)) | (clear_value x; revert x; intro _)) | split | with_reducible apply Keeps.upd | dsimp -zeta only)))

theorem State.addLock_keeps {s0 s : State} (a : Nat) (q : Nat) (c : Nat) (r : Nat × Nat × Nat × Bool)  (h : Keeps s0 s) :
    Keeps s0 (State.addLock s a q c r) := by
  unfold State.addLock
  iterate 60 (all_goals (try (first | with_reducible assumption | with_reducible apply State.event_keeps | with_reducible apply State.modHost_keeps | with_reducible exact fun w => w | (intro _; try dsimp -zeta only) | (extract_lets +onlyGivenNames x; first | (apply cut (p := Keeps s0 x); (case' hp => dsimp -zeta only [x]; clear x); (case' hq => clear_value x; revert x; intro _ _)) | (clear_value x; revert x; intro _)) | split | with_reducible apply Keeps.upd)))

theorem State.fillLocks_keeps {s0 s : State}   (h : Keeps s0 s) :
    Keeps s0 (State.fillLocks s) := by
  unfold State.fillLocks
  iterate 60 (all_goals (try (first | with_reducible assumption | with_reducible apply State.addLock_keeps | with_reducible apply foldl_keeps | (intro _; try dsimp -zeta only) | split | dsimp -zeta only)))

theorem State.releaseLock_keeps {s0 s : State} (a : Nat) (q : Nat) (c : Nat)  (h : Keeps s0 s) :
    Keeps s0 (State.releaseLock s a q c) := by
  unfold State.releaseLock
  iterate 60 (all_goals (try (first | with_reducible assumption | with_reducible apply State.fillLocks_keeps | with_reducible apply State.modHost_keeps | with_reducible exact fun w => w | (intro _; try dsimp -zeta only) | (extract_lets +onlyGivenNames x; first | (apply cut (p := Keeps s0 x); (case' hp => dsimp -zeta only [x]; clear x); (case' hq => clear_value x; revert x; intro _ _)) | (clear_value x; revert x; intro _)) | with_reducible apply Keeps.upd)))

theorem State.modCtx_keeps {s0 s : State} (a : Nat) (q : Nat) (c : Nat) (f : Ctx → Ctx)  (h : Keeps s0 s) :
    Keeps s0 (State.modCtx s a q c f) := by
  unfold State.modCtx
  iterate 60 (all_goals (try (first | with_reducible assumption | with_reducible apply State.modHost_keeps | with_reducible exact fun w => w | (intro _; try dsimp -zeta only) | (extract_lets +onlyGivenNames x; first | (apply cut (p := Keeps s0 x); (case' hp => dsimp -zeta only [x]; clear x); (case' hq => clear_value x; revert x; intro _ _)) | (clear_value x; revert x; intro _)) | split | with_reducible apply Keeps.upd)))

theorem State.waitFor_keeps {s0 s : State} (x : Ctx) (w : Wait)  (h : Keeps s0 s) :
    Keeps s0 (State.waitFor s x w) := by
  unfold State.waitFor
  iterate 60 (all_goals (try (first | with_reducible assumption | with_reducible apply State.modCtx_keeps | with_reducible exact fun w => w | (intro _; try dsimp -zeta only) | (extract_lets +onlyGivenNames x; first | (apply cut (p := Keeps s0 x); (case' hp => dsimp -zeta only [x]; clear x); (case' hq => clear_value x; revert x; intro _ _)) | (clear_value x; revert x; intro _)) | split | with_reducible apply Keeps.upd)))

theorem State.dropCtx_keeps {s0 s : State} (a : Nat) (q : Nat) (c : Nat)  (h : Keeps s0 s) :
    Keeps s0 (State.dropCtx s a q c) := by
  unfold State.dropCtx
  iterate 60 (all_goals (try (first | with_reducible assumption | with_reducible apply State.dropList_keeps | with_reducible apply State.modHost_keeps | with_reducible apply State.releaseLock_keeps | with_reducible exact fun w => w | (intro _; try dsimp -zeta only) | (extract_lets +onlyGivenNames x; first | (apply cut (p := Keeps s0 x); (case' hp => dsimp -zeta only [x]; clear x); (case' hq => clear_value x; revert x; intro _ _)) | (clear_value x; revert x; intro _)) | with_reducible apply Keeps.upd)))

theorem State.modAssoc_keeps {s0 s : State} (a : Nat) (f : Assoc → Assoc)  (h : Keeps s0 s) :
    Keeps s0 (State.modAssoc s a f) := by
  unfold State.modAssoc
  iterate 60 (all_goals (try (first | with_reducible assumption | with_reducible apply State.modHost_keeps | with_reducible exact fun w => w | (intro _; try dsimp -zeta only) | (extract_lets +onlyGivenNames x; first | (apply cut (p := Keeps s0 x); (case' hp => dsimp -zeta only [x]; clear x); (case' hq => clear_value x; revert x; intro _ _)) | (clear_value x; revert x; intro _)) | split | with_reducible apply Keeps.upd)))

theorem State.post_keeps {s0 s : State} (c : Completion)  (h : Keeps s0 s) :
    Keeps s0 (State.post s c) := by
  unfold State.post
  iterate 60 (all_goals (try (first | with_reducible assumption | with_reducible apply State.modAssoc_keeps | with_reducible apply State.modHost_keeps | with_reducible exact fun w => w | (intro _; try dsimp -zeta only) | (extract_lets +onlyGivenNames x; first | (apply cut (p := Keeps s0 x); (case' hp => dsimp -zeta only [x]; clear x); (case' hq => clear_value x; revert x; intro _ _)) | (clear_value x; revert x; intro _)) | split | with_reducible apply Keeps.upd | dsimp -zeta only)))

theorem State.noteError_keeps {s0 s : State} (qid : Nat) (cid : Nat) (t : Status) (lba : Nat) (nsid : Nat)  (h : Keeps s0 s) :
    Keeps s0 (State.noteError s qid cid t lba nsid) := by
  unfold State.noteError
  iterate 60 (all_goals (try (first | with_reducible assumption | with_reducible apply State.modHost_keeps | with_reducible exact fun w => w | (intro _; try dsimp -zeta only) | (extract_lets +onlyGivenNames x; first | (apply cut (p := Keeps s0 x); (case' hp => dsimp -zeta only [x]; clear x); (case' hq => clear_value x; revert x; intro _ _)) | (clear_value x; revert x; intro _)) | with_reducible apply Keeps.upd)))

theorem State.complete_keeps {s0 s : State} (x : Ctx) (t : Status) (dw0 : Nat) (dw1 : Nat) (data : List Byte) (lba : Nat) (nsid : Nat)  (h : Keeps s0 s) :
    Keeps s0 (State.complete s x t dw0 dw1 data lba nsid) := by
  unfold State.complete
  iterate 60 (all_goals (try (first | with_reducible assumption | with_reducible apply State.dropCtx_keeps | with_reducible apply State.noteError_keeps | with_reducible apply State.post_keeps | (extract_lets +onlyGivenNames x; first | (apply cut (p := Keeps s0 x); (case' hp => dsimp -zeta only [x]; clear x); (case' hq => clear_value x; revert x; intro _ _)) | (clear_value x; revert x; intro _)) | split)))

theorem State.modQueue_keeps {s0 s : State} (q : Nat) (f : Queue → Queue)  (h : Keeps s0 s) :
    Keeps s0 (State.modQueue s q f) := by
  unfold State.modQueue
  iterate 60 (all_goals (try (first | with_reducible assumption | with_reducible apply State.modHost_keeps | with_reducible exact fun w => w | (intro _; try dsimp -zeta only) | (extract_lets +onlyGivenNames x; first | (apply cut (p := Keeps s0 x); (case' hp => dsimp -zeta only [x]; clear x); (case' hq => clear_value x; revert x; intro _ _)) | (clear_value x; revert x; intro _)) | split | with_reducible apply Keeps.upd)))

theorem State.renewLease_keeps {s0 s : State}   (h : Keeps s0 s) :
    Keeps s0 (State.renewLease s) := by
  unfold State.renewLease
  iterate 60 (all_goals (try (first | with_reducible assumption | with_reducible exact fun w => w | (intro _; try dsimp -zeta only) | (extract_lets +onlyGivenNames x; first | (apply cut (p := Keeps s0 x); (case' hp => dsimp -zeta only [x]; clear x); (case' hq => clear_value x; revert x; intro _ _)) | (clear_value x; revert x; intro _)) | with_reducible apply Keeps.upd)))

theorem State.arrive_keeps {s0 s : State} (a : Nat) (q : Nat) (c : Nat) (cells : Nat) (bad : Bool)  (h : Keeps s0 s) :
    Keeps s0 (State.arrive s a q c cells bad) := by
  unfold State.arrive
  iterate 60 (all_goals (try (first | with_reducible assumption | with_reducible apply State.modAssoc_keeps | with_reducible apply State.modHost_keeps | with_reducible apply State.renewLease_keeps | with_reducible exact fun w => w | (intro _; try dsimp -zeta only) | (extract_lets +onlyGivenNames x; first | (apply cut (p := Keeps s0 x); (case' hp => dsimp -zeta only [x]; clear x); (case' hq => clear_value x; revert x; intro _ _)) | (clear_value x; revert x; intro _)) | split | with_reducible apply Keeps.upd)))

theorem State.fetch_keeps {s0 s : State} (k : Capsule)  (h : Keeps s0 s) :
    Keeps s0 (State.fetch s k) := by
  unfold State.fetch
  iterate 60 (all_goals (try (first | with_reducible assumption | with_reducible apply State.countFld_keeps | with_reducible apply State.event_keeps | with_reducible apply State.modHost_keeps | with_reducible apply State.modQueue_keeps | with_reducible exact fun w => w | (intro _; try dsimp -zeta only) | (extract_lets +onlyGivenNames x; first | (apply cut (p := Keeps s0 x); (case' hp => dsimp -zeta only [x]; clear x); (case' hq => clear_value x; revert x; intro _ _)) | (clear_value x; revert x; intro _)) | split | with_reducible apply Keeps.upd)))

theorem execCommandFetch_keeps {s0 s : State}   (h : Keeps s0 s) :
    Goes s0 (execCommandFetch s) := by
  unfold execCommandFetch
  iterate 60 (all_goals (try (first | with_reducible assumption | with_reducible apply goes_next | with_reducible apply State.fetch_keeps | split | dsimp -zeta only)))

theorem State.takeContext_keeps {s0 s : State} (a : Nat) (q : Nat) (c : Nat)  (h : Keeps s0 s) :
    Keeps s0 (State.takeContext s a q c).1 := by
  unfold State.takeContext
  iterate 60 (all_goals (try (first | with_reducible assumption | with_reducible apply State.arrive_keeps | with_reducible apply State.fetch_keeps | (intro _; try dsimp -zeta only) | (extract_lets +onlyGivenNames x; first | (apply cut (p := Keeps s0 x); (case' hp => dsimp -zeta only [x]; clear x); (case' hq => clear_value x; revert x; intro _ _)) | (apply cut (p := Keeps s0 x.1); (case' hp => dsimp -zeta only [x]; clear x); (case' hq => clear_value x; revert x; intro _ _)) | (clear_value x; revert x; intro _)) | split | dsimp -zeta only)))

theorem State.overrun_keeps {s0 s : State} (q : Nat)  (h : Keeps s0 s) :
    Keeps s0 (State.overrun s q) := by
  unfold State.overrun
  iterate 60 (all_goals (try (first | with_reducible assumption | with_reducible apply State.event_keeps | with_reducible apply State.modQueue_keeps | with_reducible apply State.setFlag_keeps | with_reducible apply State.setFld_keeps | with_reducible exact fun w => w | (intro _; try dsimp -zeta only) | (extract_lets +onlyGivenNames x; first | (apply cut (p := Keeps s0 x); (case' hp => dsimp -zeta only [x]; clear x); (case' hq => clear_value x; revert x; intro _ _)) | (clear_value x; revert x; intro _)) | split | with_reducible apply Keeps.upd)))

theorem execEgressShareRecompute_keeps {s0 s : State}   (h : Keeps s0 s) :
    Goes s0 (execEgressShareRecompute s) := by
  unfold execEgressShareRecompute
  iterate 60 (all_goals (try (first | with_reducible assumption | with_reducible apply goes_next | with_reducible apply State.modHost_keeps | with_reducible exact fun w => w | (intro _; try dsimp -zeta only) | (extract_lets +onlyGivenNames x; first | (apply cut (p := Keeps s0 x); (case' hp => dsimp -zeta only [x]; clear x); (case' hq => clear_value x; revert x; intro _ _)) | (have hx : _ → State := x; clear hx; dsimp -zeta only [x]; clear x) | (have hx : _ → _ → State := x; clear hx; dsimp -zeta only [x]; clear x) | (have hx : _ → _ × State := x; clear hx; dsimp -zeta only [x]; clear x) | (clear_value x; revert x; intro _)) | with_reducible apply Keeps.upd)))

end Sys2Proof.Machine
end

