-- ==== Sys2Proof/Laws/Keeps/Sequencer.lean ====
section
/-! SUPPORT. Machine/Sequencer.lean: each of its operations keeps the canonical forms, the queue and the order of free values. -/

namespace Sys2Proof.Machine

open Sys2Proof

theorem State.seqEvent_keeps {s0 s : State} (a : Fin 4) (k : Nat)  (h : Keeps s0 s) :
    Keeps s0 (State.seqEvent s a k) := by
  unfold State.seqEvent
  iterate 60 (all_goals (try (first | with_reducible assumption | with_reducible apply State.actEvent_keeps | with_reducible apply State.setFld_keeps | with_reducible apply State.setReg_keeps | (extract_lets +onlyGivenNames x; first | (apply cut (p := Keeps s0 x); (case' hp => dsimp -zeta only [x]; clear x); (case' hq => clear_value x; revert x; intro _ _)) | (clear_value x; revert x; intro _)) | split)))

theorem State.checkpoint_keeps {s0 s : State} (a : Fin 4)  (h : Keeps s0 s) :
    Keeps s0 (State.checkpoint s a) := by
  unfold State.checkpoint
  iterate 60 (all_goals (try (first | with_reducible assumption | with_reducible apply State.modSeq_keeps | with_reducible apply State.setReg_keeps | with_reducible exact fun w => w | (intro _; try dsimp -zeta only) | (extract_lets +onlyGivenNames x; first | (apply cut (p := Keeps s0 x); (case' hp => dsimp -zeta only [x]; clear x); (case' hq => clear_value x; revert x; intro _ _)) | (clear_value x; revert x; intro _)) | with_reducible apply Keeps.upd)))

theorem State.saveResume_keeps {s0 s : State} (a : Fin 4) (cause : Nat) (addr : Nat)  (h : Keeps s0 s) :
    Keeps s0 (State.saveResume s a cause addr) := by
  unfold State.saveResume
  iterate 60 (all_goals (try (first | with_reducible assumption | with_reducible apply State.setFld_keeps)))

theorem State.enterVector_keeps {s0 s : State} (a : Fin 4) (vector : Nat)  (h : Keeps s0 s) :
    Keeps s0 (State.enterVector s a vector) := by
  unfold State.enterVector
  iterate 60 (all_goals (try (first | with_reducible assumption | with_reducible apply State.modSeq_keeps | with_reducible apply State.setFlag_keeps | with_reducible exact fun w => w | (intro _; try dsimp -zeta only) | (extract_lets +onlyGivenNames x; first | (apply cut (p := Keeps s0 x); (case' hp => dsimp -zeta only [x]; clear x); (case' hq => clear_value x; revert x; intro _ _)) | (clear_value x; revert x; intro _)) | split | with_reducible apply Keeps.upd | dsimp -zeta only)))

theorem State.takeAbort_keeps {s0 s : State} (a : Fin 4)  (h : Keeps s0 s) :
    Keeps s0 (State.takeAbort s a) := by
  unfold State.takeAbort
  iterate 60 (all_goals (try (first | with_reducible assumption | with_reducible apply State.checkpoint_keeps | with_reducible apply State.enterVector_keeps | with_reducible apply State.saveResume_keeps | with_reducible apply State.setFlag_keeps | (extract_lets +onlyGivenNames x; first | (apply cut (p := Keeps s0 x); (case' hp => dsimp -zeta only [x]; clear x); (case' hq => clear_value x; revert x; intro _ _)) | (clear_value x; revert x; intro _)))))

theorem State.takeInterrupt_keeps {s0 s : State} (a : Fin 4)  (h : Keeps s0 s) :
    Keeps s0 (State.takeInterrupt s a) := by
  unfold State.takeInterrupt
  iterate 60 (all_goals (try (first | with_reducible assumption | with_reducible apply State.checkpoint_keeps | with_reducible apply State.modSeq_keeps | with_reducible apply State.saveResume_keeps | with_reducible apply State.setFlag_keeps | with_reducible exact fun w => w | (intro _; try dsimp -zeta only) | (extract_lets +onlyGivenNames x; first | (apply cut (p := Keeps s0 x); (case' hp => dsimp -zeta only [x]; clear x); (case' hq => clear_value x; revert x; intro _ _)) | (clear_value x; revert x; intro _)) | split | with_reducible apply Keeps.upd | dsimp -zeta only)))

theorem State.returnIrq_keeps {s0 s : State} (a : Fin 4)  (h : Keeps s0 s) :
    Keeps s0 (State.returnIrq s a) := by
  unfold State.returnIrq
  iterate 60 (all_goals (try (first | with_reducible assumption | with_reducible apply State.modSeq_keeps | with_reducible apply State.setFlag_keeps | with_reducible exact fun w => w | (intro _; try dsimp -zeta only) | (extract_lets +onlyGivenNames x; first | (apply cut (p := Keeps s0 x); (case' hp => dsimp -zeta only [x]; clear x); (case' hq => clear_value x; revert x; intro _ _)) | (clear_value x; revert x; intro _)) | with_reducible apply Keeps.upd)))

theorem State.patchRefused_keeps {s0 s : State} (a : Fin 4)  (h : Keeps s0 s) :
    Keeps s0 (State.patchRefused s a) := by
  unfold State.patchRefused
  iterate 60 (all_goals (try (first | with_reducible assumption | with_reducible apply State.seqEvent_keeps | with_reducible apply State.setFlag_keeps)))

theorem State.syncPatch_keeps {s0 s : State} (a : Fin 4)  (h : Keeps s0 s) :
    Keeps s0 (State.syncPatch s a) := by
  unfold State.syncPatch
  iterate 60 (all_goals (try (first | with_reducible assumption | with_reducible apply State.setFlag_keeps | (intro _; try dsimp -zeta only) | (extract_lets +onlyGivenNames x; first | (apply cut (p := Keeps s0 x); (case' hp => dsimp -zeta only [x]; clear x); (case' hq => clear_value x; revert x; intro _ _)) | (clear_value x; revert x; intro _)))))

theorem State.syncFollow_keeps {s0 s : State} (a : Fin 4)  (h : Keeps s0 s) :
    Keeps s0 (State.syncFollow s a) := by
  unfold State.syncFollow
  iterate 60 (all_goals (try (first | with_reducible assumption | with_reducible apply State.setFld_keeps | (extract_lets +onlyGivenNames x; first | (apply cut (p := Keeps s0 x); (case' hp => dsimp -zeta only [x]; clear x); (case' hq => clear_value x; revert x; intro _ _)) | (have hx : _ → State := x; clear hx; dsimp -zeta only [x]; clear x) | (have hx : _ → _ → State := x; clear hx; dsimp -zeta only [x]; clear x) | (have hx : _ → _ × State := x; clear hx; dsimp -zeta only [x]; clear x) | (clear_value x; revert x; intro _)) | split)))

theorem State.leadFaulty_keeps {s0 s : State} (a : Fin 4)  (h : Keeps s0 s) :
    Keeps s0 (State.leadFaulty s a) := by
  unfold State.leadFaulty
  iterate 60 (all_goals (try (first | with_reducible assumption | with_reducible apply State.actuatorLost_keeps | with_reducible apply State.endMediaOps_keeps | with_reducible apply State.enterVector_keeps | with_reducible apply State.modSeq_keeps | with_reducible apply State.saveResume_keeps | with_reducible apply State.seqEvent_keeps | with_reducible apply State.setFlag_keeps | with_reducible apply State.setFld_keeps | with_reducible exact fun w => w | (intro _; try dsimp -zeta only) | (extract_lets +onlyGivenNames x; first | (apply cut (p := Keeps s0 x); (case' hp => dsimp -zeta only [x]; clear x); (case' hq => clear_value x; revert x; intro _ _)) | (clear_value x; revert x; intro _)) | split | with_reducible apply Keeps.upd | dsimp -zeta only)))

theorem execLeadFault_keeps {s0 s : State} (a : Fin 4)  (h : Keeps s0 s) :
    Goes s0 (execLeadFault a s) := by
  unfold execLeadFault
  iterate 60 (all_goals (try (first | with_reducible assumption | with_reducible apply goes_next | with_reducible apply State.leadFaulty_keeps)))

theorem execFollowFault_keeps {s0 s : State} (a : Fin 4)  (h : Keeps s0 s) :
    Goes s0 (execFollowFault a s) := by
  unfold execFollowFault
  iterate 60 (all_goals (try (first | with_reducible assumption | with_reducible apply goes_next | with_reducible apply State.seqEvent_keeps | with_reducible apply State.setFld_keeps | split | dsimp -zeta only)))

theorem execSequencerAbortRequest_keeps {s0 s : State} (a : Fin 4)  (h : Keeps s0 s) :
    Goes s0 (execSequencerAbortRequest a s) := by
  unfold execSequencerAbortRequest
  iterate 60 (all_goals (try (first | with_reducible assumption | with_reducible apply goes_next | with_reducible apply State.requestAbort_keeps)))

theorem execSequencerInterruptRequest_keeps {s0 s : State} (a : Fin 4)  (h : Keeps s0 s) :
    Goes s0 (execSequencerInterruptRequest a s) := by
  unfold execSequencerInterruptRequest
  iterate 60 (all_goals (try (first | with_reducible assumption | with_reducible apply goes_next | with_reducible apply State.setFlag_keeps)))

theorem execWaitLimitExpiry_keeps {s0 s : State} (a : Fin 4)  (h : Keeps s0 s) :
    Goes s0 (execWaitLimitExpiry a s) := by
  unfold execWaitLimitExpiry
  iterate 60 (all_goals (try (first | with_reducible assumption | with_reducible apply goes_next | with_reducible apply State.seqEvent_keeps | with_reducible apply State.takeAbort_keeps | (extract_lets +onlyGivenNames x; first | (apply cut (p := Keeps s0 x); (case' hp => dsimp -zeta only [x]; clear x); (case' hq => clear_value x; revert x; intro _ _)) | (clear_value x; revert x; intro _)) | split | dsimp -zeta only)))

theorem execAbortPointMonitor_keeps {s0 s : State} (a : Fin 4)  (h : Keeps s0 s) :
    Goes s0 (execAbortPointMonitor a s) := by
  unfold execAbortPointMonitor
  iterate 60 (all_goals (try (first | with_reducible assumption | with_reducible apply goes_next | with_reducible apply State.leadFaulty_keeps | with_reducible apply State.seqEvent_keeps | (extract_lets +onlyGivenNames x; first | (apply cut (p := Keeps s0 x); (case' hp => dsimp -zeta only [x]; clear x); (case' hq => clear_value x; revert x; intro _ _)) | (clear_value x; revert x; intro _)) | split)))

theorem State.armOp_keeps {s0 s : State} (a : Fin 4) (op : Nat) (cell : Nat)  (h : Keeps s0 s) :
    Keeps s0 (State.armOp s a op cell) := by
  unfold State.armOp
  iterate 60 (all_goals (try (first | with_reducible assumption | with_reducible apply State.chanError_keeps | with_reducible apply State.erase_keeps | with_reducible apply State.latchCond_keeps | with_reducible apply State.modSeq_keeps | with_reducible apply State.post_keeps | with_reducible apply State.startOp_keeps | with_reducible exact fun w => w | (intro _; try dsimp -zeta only) | (extract_lets +onlyGivenNames x; first | (apply cut (p := Keeps s0 x); (case' hp => dsimp -zeta only [x]; clear x); (case' hq => clear_value x; revert x; intro _ _)) | (have hx := x.wsnBlock; clear hx; dsimp -zeta only [x]; clear x) | (clear_value x; revert x; intro _)) | split | with_reducible apply Keeps.upd | dsimp -zeta only)))

theorem State.channelOp_keeps {s0 s : State} (a : Fin 4) (op : Nat) (cell : Nat)  (h : Keeps s0 s) :
    Keeps s0 (State.channelOp s a op cell) := by
  unfold State.channelOp
  iterate 60 (all_goals (try (first | with_reducible assumption | with_reducible apply State.armOp_keeps | with_reducible apply State.handToDecoder_keeps | with_reducible apply State.modSeq_keeps | with_reducible apply State.requestHead_keeps | split | dsimp -zeta only)))

theorem State.performMicro_keeps {s0 s : State} (a : Fin 4) (n : Nano) (next : Nat) (cell : Nat)  (h : Keeps s0 s) :
    Keeps s0 (State.performMicro s a n next cell) := by
  unfold State.performMicro
  iterate 60 (all_goals (try (first | with_reducible assumption | with_reducible apply State.channelOp_keeps | with_reducible apply State.modSeq_keeps | with_reducible apply State.returnIrq_keeps | with_reducible apply State.setFlag_keeps | with_reducible exact fun w => w | (intro _; try dsimp -zeta only) | (extract_lets +onlyGivenNames x; first | (apply cut (p := Keeps s0 x); (case' hp => dsimp -zeta only [x]; clear x); (case' hq => clear_value x; revert x; intro _ _)) | (clear_value x; revert x; intro _)) | split | with_reducible apply Keeps.upd)))

theorem State.endCut_keeps {s0 s : State} (a : Fin 4)  (h : Keeps s0 s) :
    Keeps s0 (State.endCut s a) := by
  unfold State.endCut
  iterate 60 (all_goals (try (first | with_reducible assumption | with_reducible apply State.endOp_keeps | with_reducible apply State.latchCond_keeps | with_reducible apply State.modSeq_keeps | with_reducible exact fun w => w | (intro _; try dsimp -zeta only) | (extract_lets +onlyGivenNames x; first | (apply cut (p := Keeps s0 x); (case' hp => dsimp -zeta only [x]; clear x); (case' hq => clear_value x; revert x; intro _ _)) | (clear_value x; revert x; intro _)) | split | with_reducible apply Keeps.upd | dsimp -zeta only)))

theorem execMicroword_keeps {s0 s : State} (a : Fin 4) (cell : Nat) (patchCorrected : Bool)  (h : Keeps s0 s) :
    Goes s0 (execMicroword a cell patchCorrected s) := by
  unfold execMicroword
  iterate 60 (all_goals (try (first | with_reducible assumption | with_reducible apply goes_next | with_reducible apply State.checkpoint_keeps | with_reducible apply State.endCut_keeps | with_reducible apply State.leadFaulty_keeps | with_reducible apply State.modSeq_keeps | with_reducible apply State.performMicro_keeps | with_reducible apply State.seqEvent_keeps | with_reducible apply State.takeAbort_keeps | with_reducible apply State.takeInterrupt_keeps | with_reducible exact fun w => w | (intro _; try dsimp -zeta only) | (extract_lets +onlyGivenNames x; first | (apply cut (p := Keeps s0 x); (case' hp => dsimp -zeta only [x]; clear x); (case' hq => clear_value x; revert x; intro _ _)) | (clear_value x; revert x; intro _)) | split | with_reducible apply Keeps.upd | dsimp -zeta only)))

end Sys2Proof.Machine
end

