-- ==== Sys2Proof/Laws/Keeps/Func.lean ====
section
/-! SUPPORT. Machine/Func.lean: each of its operations keeps the canonical forms, the queue and the order of free values. -/

namespace Sys2Proof.Machine

open Sys2Proof

theorem State.modFunc_keeps {s0 s : State} (k : Nat) (f : FuncAux → FuncAux)  (h : Keeps s0 s) :
    Keeps s0 (State.modFunc s k f) := by
  unfold State.modFunc
  iterate 60 (all_goals (try (first | with_reducible assumption | with_reducible exact fun w => w | (intro _; try dsimp -zeta only) | (extract_lets +onlyGivenNames x; first | (apply cut (p := Keeps s0 x); (case' hp => dsimp -zeta only [x]; clear x); (case' hq => clear_value x; revert x; intro _ _)) | (clear_value x; revert x; intro _)) | split | with_reducible apply Keeps.upd)))

theorem State.setFstate_keeps {s0 s : State} (k : Nat) (v : Nat)  (h : Keeps s0 s) :
    Keeps s0 (State.setFstate s k v) := by
  unfold State.setFstate
  iterate 60 (all_goals (try (first | with_reducible assumption | with_reducible apply State.setFld_keeps)))

theorem State.writeConfig_keeps {s0 s : State} (k : Nat) (a : Nat) (v : Word)  (h : Keeps s0 s) :
    Keeps s0 (State.writeConfig s k a v) := by
  unfold State.writeConfig
  iterate 60 (all_goals (try (first | with_reducible assumption | with_reducible apply State.modFunc_keeps | with_reducible apply State.setFlag_keeps | with_reducible exact fun w => w | (intro _; try dsimp -zeta only) | (extract_lets +onlyGivenNames x; first | (apply cut (p := Keeps s0 x); (case' hp => dsimp -zeta only [x]; clear x); (case' hq => clear_value x; revert x; intro _ _)) | (clear_value x; revert x; intro _)) | split | with_reducible apply Keeps.upd | dsimp -zeta only)))

theorem State.endReconf_keeps {s0 s : State} (k : Nat) (actions : List Nat) (t : Status)  (h : Keeps s0 s) :
    Keeps s0 (State.endReconf s k actions t) := by
  unfold State.endReconf
  iterate 60 (all_goals (try (first | with_reducible assumption | with_reducible apply State.complete_keeps | with_reducible apply foldl_keeps | (intro _; try dsimp -zeta only) | split | dsimp -zeta only)))

theorem State.enterStopped_keeps {s0 s : State} (k : Nat)  (h : Keeps s0 s) :
    Keeps s0 (State.enterStopped s k) := by
  unfold State.enterStopped
  iterate 60 (all_goals (try (first | with_reducible assumption | with_reducible apply State.endReconf_keeps | with_reducible apply State.linkGone_keeps | with_reducible apply State.noPermit_keeps | with_reducible apply State.phaseCheck_keeps | with_reducible apply State.setFstate_keeps | with_reducible apply State.timeStopped_keeps | with_reducible apply State.unsettle_keeps | (extract_lets +onlyGivenNames x; first | (apply cut (p := Keeps s0 x); (case' hp => dsimp -zeta only [x]; clear x); (case' hq => clear_value x; revert x; intro _ _)) | (clear_value x; revert x; intro _)) | split)))

theorem State.beginStop_keeps {s0 s : State} (k : Nat)  (h : Keeps s0 s) :
    Keeps s0 (State.beginStop s k) := by
  unfold State.beginStop
  iterate 60 (all_goals (try (first | with_reducible assumption | with_reducible apply State.enterStopped_keeps | with_reducible apply State.modFunc_keeps | with_reducible apply State.requestAbort_keeps | with_reducible apply State.setFstate_keeps | with_reducible exact fun w => w | (intro _; try dsimp -zeta only) | (extract_lets +onlyGivenNames x; first | (apply cut (p := Keeps s0 x); (case' hp => dsimp -zeta only [x]; clear x); (case' hq => clear_value x; revert x; intro _ _)) | (clear_value x; revert x; intro _)) | split | with_reducible apply Keeps.upd)))

theorem State.checkFormat_keeps {s0 s : State} (a : Fin 4)  (h : Keeps s0 s) :
    Keeps s0 (State.checkFormat s a).2 := by
  unfold State.checkFormat
  iterate 60 (all_goals (try (first | with_reducible assumption | with_reducible apply State.actEvent_keeps | with_reducible apply State.patchRefused_keeps | with_reducible apply State.setFlag_keeps | with_reducible apply State.setReg_keeps | (extract_lets +onlyGivenNames x; first | (apply cut (p := Keeps s0 x); (case' hp => dsimp -zeta only [x]; clear x); (case' hq => clear_value x; revert x; intro _ _)) | (apply cut (p := Keeps s0 x.2); (case' hp => dsimp -zeta only [x]; clear x); (case' hq => clear_value x; revert x; intro _ _)) | (clear_value x; revert x; intro _)) | split | dsimp -zeta only)))

theorem State.restartCheck_keeps {s0 s : State} (k : Nat)  (h : Keeps s0 s) :
    Keeps s0 (State.restartCheck s k).2 := by
  unfold State.restartCheck
  iterate 60 (all_goals (try (first | with_reducible assumption | with_reducible apply State.checkFormat_keeps | with_reducible apply State.event_keeps | with_reducible apply State.setFlag_keeps | with_reducible apply State.setFld_keeps | (extract_lets +onlyGivenNames x; first | (apply cut (p := Keeps s0 x); (case' hp => dsimp -zeta only [x]; clear x); (case' hq => clear_value x; revert x; intro _ _)) | (apply cut (p := Keeps s0 x.2); (case' hp => dsimp -zeta only [x]; clear x); (case' hq => clear_value x; revert x; intro _ _)) | (clear_value x; revert x; intro _)) | split | dsimp -zeta only)))

theorem State.beginRestart_keeps {s0 s : State} (k : Nat)  (h : Keeps s0 s) :
    Keeps s0 (State.beginRestart s k).2 := by
  unfold State.beginRestart
  iterate 60 (all_goals (try (first | with_reducible assumption | with_reducible apply State.endReconf_keeps | with_reducible apply State.modFunc_keeps | with_reducible apply State.restartCheck_keeps | with_reducible apply State.setFstate_keeps | with_reducible exact fun w => w | (intro _; try dsimp -zeta only) | (extract_lets +onlyGivenNames x; first | (apply cut (p := Keeps s0 x); (case' hp => dsimp -zeta only [x]; clear x); (case' hq => clear_value x; revert x; intro _ _)) | (apply cut (p := Keeps s0 x.2); (case' hp => dsimp -zeta only [x]; clear x); (case' hq => clear_value x; revert x; intro _ _)) | (clear_value x; revert x; intro _)) | split | with_reducible apply Keeps.upd | dsimp -zeta only)))

theorem State.beginAbandon_keeps {s0 s : State} (k : Nat)  (h : Keeps s0 s) :
    Keeps s0 (State.beginAbandon s k) := by
  unfold State.beginAbandon
  iterate 60 (all_goals (try (first | with_reducible assumption | with_reducible apply State.modFunc_keeps | with_reducible apply State.setFstate_keeps | with_reducible exact fun w => w | (intro _; try dsimp -zeta only) | (extract_lets +onlyGivenNames x; first | (apply cut (p := Keeps s0 x); (case' hp => dsimp -zeta only [x]; clear x); (case' hq => clear_value x; revert x; intro _ _)) | (clear_value x; revert x; intro _)) | with_reducible apply Keeps.upd)))

theorem State.performHeld_keeps {s0 s : State} (k : Nat)  (h : Keeps s0 s) :
    Keeps s0 (State.performHeld s k) := by
  unfold State.performHeld
  iterate 60 (all_goals (try (first | with_reducible assumption | with_reducible apply State.beginAbandon_keeps | with_reducible apply State.beginRestart_keeps | with_reducible apply State.modFunc_keeps | with_reducible apply foldl_keeps | with_reducible apply foldl_keeps_snd | with_reducible exact fun w => w | (intro _; try dsimp -zeta only) | (extract_lets +onlyGivenNames x; first | (apply cut (p := Keeps s0 x); (case' hp => dsimp -zeta only [x]; clear x); (case' hq => clear_value x; revert x; intro _ _)) | (apply cut (p := Keeps s0 x.2); (case' hp => dsimp -zeta only [x]; clear x); (case' hq => clear_value x; revert x; intro _ _)) | (clear_value x; revert x; intro _)) | split | with_reducible apply Keeps.upd | dsimp -zeta only)))

theorem State.funcRequest_keeps {s0 s : State} (k : Nat) (cmd : Nat)  (h : Keeps s0 s) :
    Keeps s0 (State.funcRequest s k cmd) := by
  unfold State.funcRequest
  iterate 60 (all_goals (try (first | with_reducible assumption | with_reducible apply State.beginAbandon_keeps | with_reducible apply State.beginRestart_keeps | with_reducible apply State.beginStop_keeps | with_reducible apply State.modFunc_keeps | with_reducible exact fun w => w | (intro _; try dsimp -zeta only) | (extract_lets +onlyGivenNames x; first | (apply cut (p := Keeps s0 x); (case' hp => dsimp -zeta only [x]; clear x); (case' hq => clear_value x; revert x; intro _ _)) | (apply cut (p := Keeps s0 x.2); (case' hp => dsimp -zeta only [x]; clear x); (case' hq => clear_value x; revert x; intro _ _)) | (have hx : _ → State := x; clear hx; dsimp -zeta only [x]; clear x) | (have hx : _ → _ → State := x; clear hx; dsimp -zeta only [x]; clear x) | (have hx : _ → _ × State := x; clear hx; dsimp -zeta only [x]; clear x) | (clear_value x; revert x; intro _)) | split | with_reducible apply Keeps.upd | dsimp -zeta only)))

theorem State.moverRelease_keeps {s0 s : State}   (h : Keeps s0 s) :
    Keeps s0 (State.moverRelease s) := by
  unfold State.moverRelease
  iterate 60 (all_goals (try (first | with_reducible assumption | with_reducible apply State.setFlag_keeps | with_reducible apply State.setFld_keeps | with_reducible apply foldl_keeps | (intro _; try dsimp -zeta only) | (extract_lets +onlyGivenNames x; first | (apply cut (p := Keeps s0 x); (case' hp => dsimp -zeta only [x]; clear x); (case' hq => clear_value x; revert x; intro _ _)) | (clear_value x; revert x; intro _)) | split)))

theorem State.moverClaim_keeps {s0 s : State}   (h : Keeps s0 s) :
    Keeps s0 (State.moverClaim s) := by
  unfold State.moverClaim
  iterate 60 (all_goals (try (first | with_reducible assumption | with_reducible apply State.event_keeps | with_reducible apply State.setFlag_keeps | with_reducible apply State.setFld_keeps | (extract_lets +onlyGivenNames x; first | (apply cut (p := Keeps s0 x); (case' hp => dsimp -zeta only [x]; clear x); (case' hq => clear_value x; revert x; intro _ _)) | (clear_value x; revert x; intro _)) | split)))

theorem State.wakeRelease_keeps {s0 s : State}   (h : Keeps s0 s) :
    Keeps s0 (State.wakeRelease s) := by
  unfold State.wakeRelease
  iterate 60 (all_goals (try (first | with_reducible assumption | with_reducible apply State.setFld_keeps | with_reducible apply foldl_keeps | (intro _; try dsimp -zeta only) | split)))

theorem State.wakeClaim_keeps {s0 s : State}   (h : Keeps s0 s) :
    Keeps s0 (State.wakeClaim s) := by
  unfold State.wakeClaim
  iterate 60 (all_goals (try (first | with_reducible assumption | with_reducible apply State.alarmSet_keeps | with_reducible apply State.event_keeps | with_reducible apply State.setFlag_keeps | with_reducible apply State.setFld_keeps | with_reducible apply State.setReg_keeps | with_reducible apply State.wakeRelease_keeps | (extract_lets +onlyGivenNames x; first | (apply cut (p := Keeps s0 x); (case' hp => dsimp -zeta only [x]; clear x); (case' hq => clear_value x; revert x; intro _ _)) | (clear_value x; revert x; intro _)) | split)))

theorem State.syncStore_keeps {s0 s : State}   (h : Keeps s0 s) :
    Keeps s0 (State.syncStore s) := by
  unfold State.syncStore
  iterate 60 (all_goals (try (first | with_reducible assumption | with_reducible apply State.setFld_keeps | (extract_lets +onlyGivenNames x; first | (apply cut (p := Keeps s0 x); (case' hp => dsimp -zeta only [x]; clear x); (case' hq => clear_value x; revert x; intro _ _)) | (clear_value x; revert x; intro _)))))

theorem State.retireRecipe_keeps {s0 s : State} (id : Nat)  (h : Keeps s0 s) :
    Keeps s0 (State.retireRecipe s id) := by
  unfold State.retireRecipe
  iterate 60 (all_goals (try (first | with_reducible assumption | with_reducible exact fun w => w | (intro _; try dsimp -zeta only) | (extract_lets +onlyGivenNames x; first | (apply cut (p := Keeps s0 x); (case' hp => dsimp -zeta only [x]; clear x); (case' hq => clear_value x; revert x; intro _ _)) | (clear_value x; revert x; intro _)) | split | with_reducible apply Keeps.upd | dsimp -zeta only)))

theorem State.dropKept_keeps {s0 s : State}   (h : Keeps s0 s) :
    Keeps s0 (State.dropKept s) := by
  unfold State.dropKept
  iterate 60 (all_goals (try (first | with_reducible assumption | with_reducible apply State.syncStore_keeps | with_reducible exact fun w => w | (intro _; try dsimp -zeta only) | (extract_lets +onlyGivenNames x; first | (apply cut (p := Keeps s0 x); (case' hp => dsimp -zeta only [x]; clear x); (case' hq => clear_value x; revert x; intro _ _)) | (clear_value x; revert x; intro _)) | split | with_reducible apply Keeps.upd | dsimp -zeta only)))

theorem State.applyLoad_keeps {s0 s : State} (i : Instr)  (h : Keeps s0 s) :
    Keeps s0 (State.applyLoad s i) := by
  unfold State.applyLoad
  iterate 60 (all_goals (try (first | with_reducible assumption | with_reducible apply State.event_keeps | with_reducible apply State.retireRecipe_keeps | with_reducible apply State.syncStore_keeps | with_reducible exact fun w => w | (intro _; try dsimp -zeta only) | (extract_lets +onlyGivenNames x; first | (apply cut (p := Keeps s0 x); (case' hp => dsimp -zeta only [x]; clear x); (case' hq => clear_value x; revert x; intro _ _)) | (clear_value x; revert x; intro _)) | split | with_reducible apply Keeps.upd | dsimp -zeta only)))

theorem State.endLoads_keeps {s0 s : State} (k : Nat) (t : Status)  (h : Keeps s0 s) :
    Keeps s0 (State.endLoads s k t) := by
  unfold State.endLoads
  iterate 60 (all_goals (try (first | with_reducible assumption | with_reducible apply State.complete_keeps | with_reducible apply foldl_keeps | (intro _; try dsimp -zeta only) | split)))

theorem State.unpin_keeps {s0 s : State} (fuel : Nat) (h : Keeps s0 s) : Keeps s0 (State.unpin s fuel) := by
  induction fuel generalizing s with
  | zero => exact h
  | succ k ih =>
    unfold State.unpin
    split
    · exact h
    · split
      · exact h
      · exact ih (Keeps.upd (fun w => w) h)

theorem State.formatCommitted_keeps {s0 s : State} (a : Fin 4)  (h : Keeps s0 s) :
    Keeps s0 (State.formatCommitted s a) := by
  unfold State.formatCommitted
  iterate 60 (all_goals (try (first | with_reducible assumption | with_reducible apply State.enterZone_keeps | with_reducible apply State.formatIfDue_keeps | with_reducible apply State.loadEqualiser_keeps | with_reducible apply State.modBatten_keeps | with_reducible apply State.moveToTrack_keeps | with_reducible apply State.seqEvent_keeps | with_reducible apply State.setFld_keeps | with_reducible apply State.syncFollow_keeps | with_reducible apply State.syncPatch_keeps | with_reducible apply State.syncSpare_keeps | with_reducible apply foldl_keeps | with_reducible exact fun w => w | (intro _; try dsimp -zeta only) | (extract_lets +onlyGivenNames x; first | (apply cut (p := Keeps s0 x); (case' hp => dsimp -zeta only [x]; clear x); (case' hq => clear_value x; revert x; intro _ _)) | (clear_value x; revert x; intro _)) | split | with_reducible apply Keeps.upd | dsimp -zeta only)))

theorem State.committed_keeps {s0 s : State} (k : Nat) (kept : Bool)  (h : Keeps s0 s) :
    Keeps s0 (State.committed s k kept) := by
  unfold State.committed
  iterate 60 (all_goals (try (first | with_reducible assumption | with_reducible apply State.beginSeek_keeps | with_reducible apply State.formConstants_keeps | with_reducible apply State.formatCommitted_keeps | with_reducible apply State.modServo_keeps | with_reducible apply State.moverClaim_keeps | with_reducible apply State.moverRelease_keeps | with_reducible apply State.phaseCheck_keeps | with_reducible apply State.setFld_keeps | with_reducible apply State.syncStore_keeps | with_reducible apply State.timeRestarted_keeps | with_reducible apply State.unpin_keeps | with_reducible exact fun w => w | (intro _; try dsimp -zeta only) | (extract_lets +onlyGivenNames x; first | (apply cut (p := Keeps s0 x); (case' hp => dsimp -zeta only [x]; clear x); (case' hq => clear_value x; revert x; intro _ _)) | (clear_value x; revert x; intro _)) | split | with_reducible apply Keeps.upd | dsimp -zeta only)))

theorem State.commitFunc_keeps {s0 s : State} (k : Nat)  (h : Keeps s0 s) :
    Keeps s0 (State.commitFunc s k) := by
  unfold State.commitFunc
  iterate 60 (all_goals (try (first | with_reducible assumption | with_reducible apply State.applyLoad_keeps | with_reducible apply State.beginStop_keeps | with_reducible apply State.committed_keeps | with_reducible apply State.endLoads_keeps | with_reducible apply State.endReconf_keeps | with_reducible apply State.l2Commit_keeps | with_reducible apply State.modFunc_keeps | with_reducible apply State.setFstate_keeps | with_reducible apply foldl_keeps | with_reducible exact fun w => w | with_reducible exact RegFile.putAll_sorted _ | with_reducible exact RegFile.filter_sorted _ | with_reducible exact fun w => RegFile.putAll_sorted _ (RegFile.filter_sorted _ w) | (intro _; try dsimp -zeta only) | (extract_lets +onlyGivenNames x; first | (apply cut (p := Keeps s0 x); (case' hp => dsimp -zeta only [x]; clear x); (case' hq => clear_value x; revert x; intro _ _)) | (clear_value x; revert x; intro _)) | split | with_reducible apply Keeps.upd | with_reducible apply Keeps.updRegs | dsimp -zeta only)))

theorem State.revertNow_keeps {s0 s : State} (k : Nat) (event : Nat)  (h : Keeps s0 s) :
    Keeps s0 (State.revertNow s k event) := by
  unfold State.revertNow
  iterate 60 (all_goals (try (first | with_reducible assumption | with_reducible apply State.committed_keeps | with_reducible apply State.endLoads_keeps | with_reducible apply State.endReconf_keeps | with_reducible apply State.event_keeps | with_reducible apply State.modFunc_keeps | with_reducible apply State.setFlag_keeps | with_reducible apply State.setFstate_keeps | with_reducible exact fun w => w | (intro _; try dsimp -zeta only) | (extract_lets +onlyGivenNames x; first | (apply cut (p := Keeps s0 x); (case' hp => dsimp -zeta only [x]; clear x); (case' hq => clear_value x; revert x; intro _ _)) | (clear_value x; revert x; intro _)) | split | with_reducible apply Keeps.upd)))

theorem State.revertFunc_keeps {s0 s : State} (k : Nat)  (h : Keeps s0 s) :
    Keeps s0 (State.revertFunc s k) := by
  unfold State.revertFunc
  iterate 60 (all_goals (try (first | with_reducible assumption | with_reducible apply State.revertNow_keeps | split)))

theorem State.revertAll_keeps {s0 s : State}   (h : Keeps s0 s) :
    Keeps s0 (State.revertAll s) := by
  unfold State.revertAll
  iterate 60 (all_goals (try (first | with_reducible assumption | with_reducible apply State.revertFunc_keeps | with_reducible apply foldl_keeps | (intro _; try dsimp -zeta only))))

theorem State.revertRegion_keeps {s0 s : State} (r : Nat)  (h : Keeps s0 s) :
    Keeps s0 (State.revertRegion s r) := by
  unfold State.revertRegion
  iterate 60 (all_goals (try (first | with_reducible assumption | with_reducible apply State.revertNow_keeps | with_reducible apply foldl_keeps | (intro _; try dsimp -zeta only) | split)))

theorem State.cfgRefuse_keeps {s0 s : State} (reason : Nat)  (h : Keeps s0 s) :
    Keeps s0 (State.cfgRefuse s reason) := by
  unfold State.cfgRefuse
  iterate 60 (all_goals (try (first | with_reducible assumption | with_reducible apply State.event_keeps | with_reducible apply State.setFlag_keeps | with_reducible apply State.setFld_keeps | (extract_lets +onlyGivenNames x; first | (apply cut (p := Keeps s0 x); (case' hp => dsimp -zeta only [x]; clear x); (case' hq => clear_value x; revert x; intro _ _)) | (clear_value x; revert x; intro _)) | split)))

theorem State.cfgBegin_keeps {s0 s : State} (op : CfgOp)  (h : Keeps s0 s) :
    Keeps s0 (State.cfgBegin s op) := by
  unfold State.cfgBegin
  iterate 60 (all_goals (try (first | with_reducible assumption | with_reducible apply State.setFlag_keeps | with_reducible exact fun w => w | (intro _; try dsimp -zeta only) | (extract_lets +onlyGivenNames x; first | (apply cut (p := Keeps s0 x); (case' hp => dsimp -zeta only [x]; clear x); (case' hq => clear_value x; revert x; intro _ _)) | (clear_value x; revert x; intro _)) | with_reducible apply Keeps.upd)))

theorem State.cfgCommand_keeps {s0 s : State} (v : Word)  (h : Keeps s0 s) :
    Keeps s0 (State.cfgCommand s v) := by
  unfold State.cfgCommand
  iterate 60 (all_goals (try (first | with_reducible assumption | with_reducible apply State.cfgBegin_keeps | with_reducible apply State.cfgRefuse_keeps | (intro _; try dsimp -zeta only) | (extract_lets +onlyGivenNames x; first | (apply cut (p := Keeps s0 x); (case' hp => dsimp -zeta only [x]; clear x); (case' hq => clear_value x; revert x; intro _ _)) | (clear_value x; revert x; intro _)) | split | dsimp -zeta only)))

theorem State.cfgDone_keeps {s0 s : State} (ok : Bool)  (h : Keeps s0 s) :
    Keeps s0 (State.cfgDone s ok) := by
  unfold State.cfgDone
  iterate 60 (all_goals (try (first | with_reducible assumption | with_reducible apply State.cfgRefuse_keeps | with_reducible apply State.event_keeps | with_reducible apply State.resetRegs_keeps | with_reducible apply State.setFlag_keeps | with_reducible apply State.setFld_keeps | with_reducible exact fun w => w | (intro _; try dsimp -zeta only) | (extract_lets +onlyGivenNames x; first | (apply cut (p := Keeps s0 x); (case' hp => dsimp -zeta only [x]; clear x); (case' hq => clear_value x; revert x; intro _ _)) | (have hx : _ → State := x; clear hx; dsimp -zeta only [x]; clear x) | (have hx : _ → _ → State := x; clear hx; dsimp -zeta only [x]; clear x) | (have hx : _ → _ × State := x; clear hx; dsimp -zeta only [x]; clear x) | (clear_value x; revert x; intro _)) | split | with_reducible apply Keeps.upd | dsimp -zeta only)))

end Sys2Proof.Machine
end

