-- ==== Sys2Proof/Laws/Keeps/Cast.lean ====
section
/-! SUPPORT. Machine/Cast.lean: each of its operations keeps the canonical forms, the queue and the order of free values. -/

namespace Sys2Proof.Machine

open Sys2Proof

theorem State.modCast_keeps {s0 s : State} (f : CastState → CastState)  (h : Keeps s0 s) :
    Keeps s0 (State.modCast s f) := by
  unfold State.modCast
  iterate 60 (all_goals (try (first | with_reducible assumption | with_reducible exact fun w => w | (intro _; try dsimp -zeta only) | (extract_lets +onlyGivenNames x; first | (apply cut (p := Keeps s0 x); (case' hp => dsimp -zeta only [x]; clear x); (case' hq => clear_value x; revert x; intro _ _)) | (clear_value x; revert x; intro _)) | with_reducible apply Keeps.upd)))

theorem State.cstErr_keeps {s0 s : State} (f : Fld)  (h : Keeps s0 s) :
    Keeps s0 (State.cstErr s f) := by
  unfold State.cstErr
  iterate 60 (all_goals (try (first | with_reducible assumption | with_reducible apply State.setFlag_keeps)))

theorem State.modJob_keeps {s0 s : State} (a : Nat) (q : Nat) (c : Nat) (f : CastJob → CastJob)  (h : Keeps s0 s) :
    Keeps s0 (State.modJob s a q c f) := by
  unfold State.modJob
  iterate 60 (all_goals (try (first | with_reducible assumption | with_reducible apply State.modCast_keeps | with_reducible exact fun w => w | (intro _; try dsimp -zeta only) | (extract_lets +onlyGivenNames x; first | (apply cut (p := Keeps s0 x); (case' hp => dsimp -zeta only [x]; clear x); (case' hq => clear_value x; revert x; intro _ _)) | (clear_value x; revert x; intro _)) | split | with_reducible apply Keeps.upd)))

theorem State.dropJob_keeps {s0 s : State} (a : Nat) (q : Nat) (c : Nat)  (h : Keeps s0 s) :
    Keeps s0 (State.dropJob s a q c) := by
  unfold State.dropJob
  iterate 60 (all_goals (try (first | with_reducible assumption | with_reducible apply State.dropKept_keeps | with_reducible apply State.modCast_keeps | with_reducible apply State.modQueue_keeps | with_reducible apply foldl_keeps | with_reducible exact fun w => w | (intro _; try dsimp -zeta only) | (extract_lets +onlyGivenNames x; first | (apply cut (p := Keeps s0 x); (case' hp => dsimp -zeta only [x]; clear x); (case' hq => clear_value x; revert x; intro _ _)) | (clear_value x; revert x; intro _)) | split | with_reducible apply Keeps.upd)))

theorem State.castFail_keeps {s0 s : State} (j : CastJob) (t : Status)  (h : Keeps s0 s) :
    Keeps s0 (State.castFail s j t) := by
  unfold State.castFail
  iterate 60 (all_goals (try (first | with_reducible assumption | with_reducible apply State.complete_keeps | with_reducible apply State.cstErr_keeps | with_reducible apply State.dropJob_keeps | with_reducible apply State.event_keeps | (extract_lets +onlyGivenNames x; first | (apply cut (p := Keeps s0 x); (case' hp => dsimp -zeta only [x]; clear x); (case' hq => clear_value x; revert x; intro _ _)) | (clear_value x; revert x; intro _)) | split | dsimp -zeta only)))

theorem State.recipeFault_keeps {s0 s : State} (j : CastJob) (chan : Nat) (cause : Nat) (pc : Nat)  (h : Keeps s0 s) :
    Keeps s0 (State.recipeFault s j chan cause pc) := by
  unfold State.recipeFault
  iterate 60 (all_goals (try (first | with_reducible assumption | with_reducible apply State.castFail_keeps | with_reducible apply State.countFld_keeps | with_reducible apply State.event_keeps | with_reducible apply State.setFlag_keeps | with_reducible apply State.setFld_keeps | (extract_lets +onlyGivenNames x; first | (apply cut (p := Keeps s0 x); (case' hp => dsimp -zeta only [x]; clear x); (case' hq => clear_value x; revert x; intro _ _)) | (clear_value x; revert x; intro _)) | split)))

theorem State.startPour_keeps {s0 s : State} (j : CastJob) (e : Nat) (k : Nat)  (h : Keeps s0 s) :
    Keeps s0 (State.startPour s j e k) := by
  unfold State.startPour
  iterate 60 (all_goals (try (first | with_reducible assumption | with_reducible apply State.modCast_keeps | with_reducible apply State.modJob_keeps | with_reducible exact fun w => w | (intro _; try dsimp -zeta only) | (extract_lets +onlyGivenNames x; first | (apply cut (p := Keeps s0 x); (case' hp => dsimp -zeta only [x]; clear x); (case' hq => clear_value x; revert x; intro _ _)) | (clear_value x; revert x; intro _)) | split | with_reducible apply Keeps.upd | dsimp -zeta only)))

theorem State.dispatchPlan_keeps {s0 s : State} (j : CastJob) (e : Nat) (p : CastPlan)  (h : Keeps s0 s) :
    Keeps s0 (State.dispatchPlan s j e p) := by
  unfold State.dispatchPlan
  iterate 60 (all_goals (try (first | with_reducible assumption | with_reducible apply State.cstErr_keeps | with_reducible apply State.event_keeps | with_reducible apply State.modCtx_keeps | with_reducible apply State.modJob_keeps | with_reducible apply State.recipeFault_keeps | with_reducible apply State.startPour_keeps | with_reducible exact fun w => w | (intro _; try dsimp -zeta only) | (extract_lets +onlyGivenNames x; first | (apply cut (p := Keeps s0 x); (case' hp => dsimp -zeta only [x]; clear x); (case' hq => clear_value x; revert x; intro _ _)) | (clear_value x; revert x; intro _)) | split | with_reducible apply Keeps.upd | dsimp -zeta only)))

theorem execCastDispatch_keeps {s0 s : State}   (h : Keeps s0 s) :
    Goes s0 (execCastDispatch s) := by
  unfold execCastDispatch
  iterate 60 (all_goals (try (first | with_reducible assumption | with_reducible apply goes_next | with_reducible apply State.complete_keeps | with_reducible apply State.dispatchPlan_keeps | with_reducible apply State.dropJob_keeps | with_reducible apply State.startPour_keeps | (intro _; try dsimp -zeta only) | (extract_lets +onlyGivenNames x; first | (apply cut (p := Keeps s0 x); (case' hp => dsimp -zeta only [x]; clear x); (case' hq => clear_value x; revert x; intro _ _)) | (clear_value x; revert x; intro _)) | split | dsimp -zeta only)))

theorem State.setRun_keeps {s0 s : State} (c : Nat) (r : Run)  (h : Keeps s0 s) :
    Keeps s0 (State.setRun s c r) := by
  unfold State.setRun
  iterate 60 (all_goals (try (first | with_reducible assumption | with_reducible apply State.modCast_keeps | with_reducible exact fun w => w | (intro _; try dsimp -zeta only) | (extract_lets +onlyGivenNames x; first | (apply cut (p := Keeps s0 x); (case' hp => dsimp -zeta only [x]; clear x); (case' hq => clear_value x; revert x; intro _ _)) | (clear_value x; revert x; intro _)) | with_reducible apply Keeps.upd)))

theorem State.syncOpen_keeps {s0 s : State} (a : Nat)  (h : Keeps s0 s) :
    Keeps s0 (State.syncOpen s a) := by
  unfold State.syncOpen
  iterate 60 (all_goals (try (first | with_reducible assumption | with_reducible apply State.modQueue_keeps | with_reducible apply foldl_keeps | with_reducible exact fun w => w | (intro _; try dsimp -zeta only) | (extract_lets +onlyGivenNames x; first | (apply cut (p := Keeps s0 x); (case' hp => dsimp -zeta only [x]; clear x); (case' hq => clear_value x; revert x; intro _ _)) | (clear_value x; revert x; intro _)) | split | with_reducible apply Keeps.upd)))

theorem State.linkPacket_keeps {s0 s : State} (chan : Nat) (r : Run) (n : Nat)  (h : Keeps s0 s) :
    Keeps s0 (State.linkPacket s chan r n) := by
  unfold State.linkPacket
  iterate 60 (all_goals (try (first | with_reducible assumption | with_reducible apply State.modJob_keeps | with_reducible apply State.modQueue_keeps | with_reducible apply State.setRun_keeps | with_reducible apply State.syncOpen_keeps | with_reducible exact fun w => w | (intro _; try dsimp -zeta only) | (extract_lets +onlyGivenNames x; first | (apply cut (p := Keeps s0 x); (case' hp => dsimp -zeta only [x]; clear x); (case' hq => clear_value x; revert x; intro _ _)) | (clear_value x; revert x; intro _)) | split | with_reducible apply Keeps.upd | dsimp -zeta only)))

theorem State.closeFull_keeps {s0 s : State} (chan limit fuel : Nat) (h : Keeps s0 s) :
    Keeps s0 (State.closeFull s chan limit fuel) := by
  induction fuel generalizing s with
  | zero => exact h
  | succ k ih =>
    unfold State.closeFull
    split
    · split
      · exact ih (State.linkPacket_keeps _ _ _ h)
      · exact h
    · exact h

theorem State.pump_keeps {s0 s : State} (chan : Nat)  (h : Keeps s0 s) :
    Keeps s0 (State.pump s chan) := by
  unfold State.pump
  iterate 60 (all_goals (try (first | with_reducible assumption | with_reducible apply State.closeFull_keeps | with_reducible apply State.modJob_keeps | with_reducible apply State.setRun_keeps | with_reducible apply State.syncOpen_keeps | with_reducible exact fun w => w | (intro _; try dsimp -zeta only) | (extract_lets +onlyGivenNames x; first | (apply cut (p := Keeps s0 x); (case' hp => dsimp -zeta only [x]; clear x); (case' hq => clear_value x; revert x; intro _ _)) | (clear_value x; revert x; intro _)) | split | with_reducible apply Keeps.upd | dsimp -zeta only)))

theorem State.moverOverrun_keeps {s0 s : State} (r : Run)  (h : Keeps s0 s) :
    Keeps s0 (State.moverOverrun s r) := by
  unfold State.moverOverrun
  iterate 60 (all_goals (try (first | with_reducible assumption | with_reducible apply State.castFail_keeps | with_reducible apply State.overrun_keeps | split | dsimp -zeta only)))

theorem State.afterInstr_keeps {s0 s : State} (chan : Nat) (j : CastJob) (r : Run)  (h : Keeps s0 s) :
    Keeps s0 (State.afterInstr s chan j r) := by
  unfold State.afterInstr
  iterate 60 (all_goals (try (first | with_reducible assumption | with_reducible apply State.pump_keeps | with_reducible apply State.recipeFault_keeps | with_reducible apply State.setRun_keeps | split | dsimp -zeta only)))

theorem State.onInstr_keeps {s0 s : State} (chan op : Nat) (f : CastJob → CastView → Run → State)
    (hf : ∀ j v r, Keeps s0 (f j v r)) (h : Keeps s0 s) : Keeps s0 (State.onInstr s chan op f) := by
  unfold State.onInstr
  iterate 20 (all_goals (try (first | with_reducible assumption | with_reducible apply hf | with_reducible apply State.setRun_keeps | (extract_lets) | split)))

theorem execMove_keeps {s0 s : State} (c : Fin 128) (despiteFull : Bool)  (h : Keeps s0 s) :
    Goes s0 (execMove c despiteFull s) := by
  unfold execMove
  iterate 60 (all_goals (try (first | with_reducible assumption | with_reducible apply goes_next | with_reducible apply State.afterInstr_keeps | with_reducible apply State.moverOverrun_keeps | with_reducible apply State.onInstr_keeps | with_reducible apply State.pump_keeps | with_reducible apply State.recipeFault_keeps | with_reducible apply State.setRun_keeps | with_reducible exact fun w => w | (intro _; try dsimp -zeta only) | (extract_lets +onlyGivenNames x; first | (apply cut (p := Keeps s0 x); (case' hp => dsimp -zeta only [x]; clear x); (case' hq => clear_value x; revert x; intro _ _)) | (clear_value x; revert x; intro _)) | split | with_reducible apply Keeps.upd | dsimp -zeta only)))

theorem execLoop_keeps {s0 s : State} (c : Fin 128)  (h : Keeps s0 s) :
    Goes s0 (execLoop c s) := by
  unfold execLoop
  iterate 60 (all_goals (try (first | with_reducible assumption | with_reducible apply goes_next | with_reducible apply State.afterInstr_keeps | with_reducible apply State.onInstr_keeps | with_reducible apply State.recipeFault_keeps | (intro _; try dsimp -zeta only) | split | dsimp -zeta only)))

theorem State.endWait_keeps {s0 s : State} (chan : Nat) (j : CastJob) (r : Run) (w : ChanWait)  (h : Keeps s0 s) :
    Keeps s0 (State.endWait s chan j r w) := by
  unfold State.endWait
  iterate 60 (all_goals (try (first | with_reducible assumption | with_reducible apply State.afterInstr_keeps | with_reducible apply State.modJob_keeps | with_reducible exact fun w => w | (intro _; try dsimp -zeta only) | (extract_lets +onlyGivenNames x; first | (apply cut (p := Keeps s0 x); (case' hp => dsimp -zeta only [x]; clear x); (case' hq => clear_value x; revert x; intro _ _)) | (clear_value x; revert x; intro _)) | split | with_reducible apply Keeps.upd)))

theorem execWait_keeps {s0 s : State} (c : Fin 128)  (h : Keeps s0 s) :
    Goes s0 (execWait c s) := by
  unfold execWait
  iterate 60 (all_goals (try (first | with_reducible assumption | with_reducible apply goes_next | with_reducible apply State.endWait_keeps | with_reducible apply State.onInstr_keeps | with_reducible apply State.recipeFault_keeps | with_reducible apply State.setRun_keeps | with_reducible exact fun w => w | (intro _; try dsimp -zeta only) | (extract_lets +onlyGivenNames x; first | (apply cut (p := Keeps s0 x); (case' hp => dsimp -zeta only [x]; clear x); (case' hq => clear_value x; revert x; intro _ _)) | (clear_value x; revert x; intro _)) | split | with_reducible apply Keeps.upd)))

theorem execWaitEnd_keeps {s0 s : State} (c : Fin 128)  (h : Keeps s0 s) :
    Goes s0 (execWaitEnd c s) := by
  unfold execWaitEnd
  iterate 60 (all_goals (try (first | with_reducible assumption | with_reducible apply goes_next | with_reducible apply State.endWait_keeps | split | dsimp -zeta only)))

theorem execRecipeWaitTimeout_keeps {s0 s : State} (c : Fin 128)  (h : Keeps s0 s) :
    Goes s0 (execRecipeWaitTimeout c s) := by
  unfold execRecipeWaitTimeout
  iterate 60 (all_goals (try (first | with_reducible assumption | with_reducible apply goes_next | with_reducible apply State.recipeFault_keeps | (extract_lets +onlyGivenNames x; first | (apply cut (p := Keeps s0 x); (case' hp => dsimp -zeta only [x]; clear x); (case' hq => clear_value x; revert x; intro _ _)) | (clear_value x; revert x; intro _)) | split | dsimp -zeta only)))

theorem execSignal_keeps {s0 s : State} (c : Fin 128)  (h : Keeps s0 s) :
    Goes s0 (execSignal c s) := by
  unfold execSignal
  iterate 60 (all_goals (try (first | with_reducible assumption | with_reducible apply goes_next | with_reducible apply State.afterInstr_keeps | with_reducible apply State.countFld_keeps | with_reducible apply State.linkPacket_keeps | with_reducible apply State.modJob_keeps | with_reducible apply State.onInstr_keeps | with_reducible exact fun w => w | (intro _; try dsimp -zeta only) | (extract_lets +onlyGivenNames x; first | (apply cut (p := Keeps s0 x); (case' hp => dsimp -zeta only [x]; clear x); (case' hq => clear_value x; revert x; intro _ _)) | (clear_value x; revert x; intro _)) | split | with_reducible apply Keeps.upd)))

theorem State.sendPacket_keeps {s0 s : State} (a : Nat) (p : Packet)  (h : Keeps s0 s) :
    Keeps s0 (State.sendPacket s a p) := by
  unfold State.sendPacket
  iterate 60 (all_goals (try (first | with_reducible assumption | with_reducible apply State.sendConn_keeps | (intro _; try dsimp -zeta only) | split | dsimp -zeta only)))

theorem State.drain_keeps {s0 s : State} (a n fuel : Nat) (h : Keeps s0 s) : Keeps s0 (State.drain s a n fuel) := by
  induction fuel generalizing s with
  | zero => exact h
  | succ k ih =>
    unfold State.drain
    split
    · exact h
    · dsimp only
      split
      · exact h
      · exact ih (State.modQueue_keeps _ _ (State.sendPacket_keeps _ _ h))

theorem execPacingResume_keeps {s0 s : State} (c : Fin 128)  (h : Keeps s0 s) :
    Goes s0 (execPacingResume c s) := by
  unfold execPacingResume
  iterate 60 (all_goals (try (first | with_reducible assumption | with_reducible apply goes_next | with_reducible apply State.drain_keeps | with_reducible apply State.pump_keeps | with_reducible apply State.setRun_keeps | with_reducible exact fun w => w | (intro _; try dsimp -zeta only) | (extract_lets +onlyGivenNames x; first | (apply cut (p := Keeps s0 x); (case' hp => dsimp -zeta only [x]; clear x); (case' hq => clear_value x; revert x; intro _ _)) | (clear_value x; revert x; intro _)) | split | with_reducible apply Keeps.upd | dsimp -zeta only)))

theorem execProgramLineArrive_keeps {s0 s : State} (c : Fin 128) (ok : Bool)  (h : Keeps s0 s) :
    Goes s0 (execProgramLineArrive c ok s) := by
  unfold execProgramLineArrive
  iterate 60 (all_goals (try (first | with_reducible assumption | with_reducible apply goes_next | with_reducible apply State.castFail_keeps | with_reducible apply State.event_keeps | with_reducible apply State.setRun_keeps | with_reducible exact fun w => w | (intro _; try dsimp -zeta only) | (extract_lets +onlyGivenNames x; first | (apply cut (p := Keeps s0 x); (case' hp => dsimp -zeta only [x]; clear x); (case' hq => clear_value x; revert x; intro _ _)) | (clear_value x; revert x; intro _)) | split | with_reducible apply Keeps.upd | dsimp -zeta only)))

theorem State.sendStaged_keeps {s0 s : State} (j : CastJob)  (h : Keeps s0 s) :
    Keeps s0 (State.sendStaged s j) := by
  unfold State.sendStaged
  iterate 60 (all_goals (try (first | with_reducible assumption | with_reducible apply State.modJob_keeps | with_reducible apply State.modQueue_keeps | with_reducible apply foldl_keeps | with_reducible apply foldl_keeps_snd | with_reducible apply foldl_keeps_fst | with_reducible exact fun w => w | with_reducible exact insertKey_rise _ _ | with_reducible exact RegFile.putAll_sorted _ | with_reducible exact RegFile.filter_sorted _ | with_reducible exact fun w => RegFile.putAll_sorted _ (RegFile.filter_sorted _ w) | (intro _; try dsimp -zeta only) | (extract_lets +onlyGivenNames x; first | (apply cut (p := Keeps s0 x); (case' hp => dsimp -zeta only [x]; clear x); (case' hq => clear_value x; revert x; intro _ _)) | (apply cut (p := Keeps s0 x.2); (case' hp => dsimp -zeta only [x]; clear x); (case' hq => clear_value x; revert x; intro _ _)) | (apply cut (p := Keeps s0 x.1); (case' hp => dsimp -zeta only [x]; clear x); (case' hq => clear_value x; revert x; intro _ _)) | (have hx : _ → State := x; clear hx; dsimp -zeta only [x]; clear x) | (have hx : _ → _ → State := x; clear hx; dsimp -zeta only [x]; clear x) | (have hx : _ → _ × State := x; clear hx; dsimp -zeta only [x]; clear x) | (have hx := x.wsnBlock; clear hx; dsimp -zeta only [x]; clear x) | (clear_value x; revert x; intro _)) | split | with_reducible apply Keeps.upd | dsimp -zeta only)))

theorem execPourDone_keeps {s0 s : State} (c : Fin 128)  (h : Keeps s0 s) :
    Goes s0 (execPourDone c s) := by
  unfold execPourDone
  iterate 60 (all_goals (try (first | with_reducible assumption | with_reducible apply goes_next | with_reducible apply State.countFld_keeps | with_reducible apply State.linkPacket_keeps | with_reducible apply State.modCast_keeps | with_reducible apply State.modJob_keeps | with_reducible apply State.sendStaged_keeps | with_reducible apply State.syncOpen_keeps | with_reducible exact fun w => w | (intro _; try dsimp -zeta only) | (extract_lets +onlyGivenNames x; first | (apply cut (p := Keeps s0 x); (case' hp => dsimp -zeta only [x]; clear x); (case' hq => clear_value x; revert x; intro _ _)) | (clear_value x; revert x; intro _)) | split | with_reducible apply Keeps.upd | dsimp -zeta only)))

theorem execCastComplete_keeps {s0 s : State} (assoc : Nat) (qid : Nat) (cid : Nat)  (h : Keeps s0 s) :
    Goes s0 (execCastComplete assoc qid cid s) := by
  unfold execCastComplete
  iterate 60 (all_goals (try (first | with_reducible assumption | with_reducible apply goes_next | with_reducible apply State.complete_keeps | with_reducible apply State.dropJob_keeps | (intro _; try dsimp -zeta only) | (extract_lets +onlyGivenNames x; first | (apply cut (p := Keeps s0 x); (case' hp => dsimp -zeta only [x]; clear x); (case' hq => clear_value x; revert x; intro _ _)) | (clear_value x; revert x; intro _)) | split | dsimp -zeta only)))

theorem execCastEngineFault_keeps {s0 s : State} (e : Fin 128)  (h : Keeps s0 s) :
    Goes s0 (execCastEngineFault e s) := by
  unfold execCastEngineFault
  iterate 60 (all_goals (try (first | with_reducible assumption | with_reducible apply goes_next | with_reducible apply State.castFail_keeps | with_reducible apply State.cstErr_keeps | with_reducible apply State.event_keeps | with_reducible apply State.modCast_keeps | with_reducible exact fun w => w | (intro _; try dsimp -zeta only) | (extract_lets +onlyGivenNames x; first | (apply cut (p := Keeps s0 x); (case' hp => dsimp -zeta only [x]; clear x); (case' hq => clear_value x; revert x; intro _ _)) | (clear_value x; revert x; intro _)) | split | with_reducible apply Keeps.upd | dsimp -zeta only)))

theorem State.stagingClaim_keeps {s0 s : State} (n : Nat)  (h : Keeps s0 s) :
    Keeps s0 (State.stagingClaim s n) := by
  unfold State.stagingClaim
  iterate 60 (all_goals (try (first | with_reducible assumption | with_reducible apply State.event_keeps | with_reducible apply State.modCast_keeps | with_reducible apply State.setFlag_keeps | with_reducible exact fun w => w | (intro _; try dsimp -zeta only) | (extract_lets +onlyGivenNames x; first | (apply cut (p := Keeps s0 x); (case' hp => dsimp -zeta only [x]; clear x); (case' hq => clear_value x; revert x; intro _ _)) | (clear_value x; revert x; intro _)) | split | with_reducible apply Keeps.upd)))

theorem State.stagingRelease_keeps {s0 s : State}   (h : Keeps s0 s) :
    Keeps s0 (State.stagingRelease s) := by
  unfold State.stagingRelease
  iterate 60 (all_goals (try (first | with_reducible assumption | with_reducible apply State.modCast_keeps | with_reducible apply State.setFlag_keeps | with_reducible exact fun w => w | (intro _; try dsimp -zeta only) | (extract_lets +onlyGivenNames x; first | (apply cut (p := Keeps s0 x); (case' hp => dsimp -zeta only [x]; clear x); (case' hq => clear_value x; revert x; intro _ _)) | (clear_value x; revert x; intro _)) | with_reducible apply Keeps.upd)))

theorem State.writeStgclaim_keeps {s0 s : State} (v : Word)  (h : Keeps s0 s) :
    Keeps s0 (State.writeStgclaim s v) := by
  unfold State.writeStgclaim
  iterate 60 (all_goals (try (first | with_reducible assumption | with_reducible apply State.setFlag_keeps | with_reducible apply State.setFld_keeps | with_reducible apply State.stagingClaim_keeps | with_reducible apply State.stagingRelease_keeps | (extract_lets +onlyGivenNames x; first | (apply cut (p := Keeps s0 x); (case' hp => dsimp -zeta only [x]; clear x); (case' hq => clear_value x; revert x; intro _ _)) | (clear_value x; revert x; intro _)) | split)))

theorem execStagingClaim_keeps {s0 s : State} (assoc : Nat) (value : Word)  (h : Keeps s0 s) :
    Goes s0 (execStagingClaim assoc value s) := by
  unfold execStagingClaim
  iterate 60 (all_goals (try (first | with_reducible assumption | with_reducible apply goes_next | with_reducible apply State.ownerReg_keeps | with_reducible apply State.writeStgclaim_keeps | (intro _; try dsimp -zeta only) | (extract_lets +onlyGivenNames x; first | (apply cut (p := Keeps s0 x); (case' hp => dsimp -zeta only [x]; clear x); (case' hq => clear_value x; revert x; intro _ _)) | (clear_value x; revert x; intro _)))))

theorem execStagingRelease_keeps {s0 s : State} (assoc : Nat) (value : Word)  (h : Keeps s0 s) :
    Goes s0 (execStagingRelease assoc value s) := by
  unfold execStagingRelease
  iterate 60 (all_goals (try (first | with_reducible assumption | with_reducible apply goes_next | with_reducible apply State.ownerReg_keeps | with_reducible apply State.writeStgclaim_keeps | (intro _; try dsimp -zeta only) | (extract_lets +onlyGivenNames x; first | (apply cut (p := Keeps s0 x); (case' hp => dsimp -zeta only [x]; clear x); (case' hq => clear_value x; revert x; intro _ _)) | (clear_value x; revert x; intro _)))))

end Sys2Proof.Machine
end

