-- ==== Sys2Proof/Laws/Keeps/Own.lean ====
section
/-! SUPPORT. Machine/Own.lean: each of its operations keeps the canonical forms, the queue and the order of free values. -/

namespace Sys2Proof.Machine

open Sys2Proof

theorem State.releaseOwnerAlarms_keeps {s0 s : State}   (h : Keeps s0 s) :
    Keeps s0 (State.releaseOwnerAlarms s) := by
  unfold State.releaseOwnerAlarms
  iterate 60 (all_goals (try (first | with_reducible assumption | with_reducible apply State.setFld_keeps | with_reducible apply foldl_keeps | (intro _; try dsimp -zeta only) | split)))

theorem State.setOwner_keeps {s0 s : State} (st : Nat) (owner : Nat)  (h : Keeps s0 s) :
    Keeps s0 (State.setOwner s st owner) := by
  unfold State.setOwner
  iterate 60 (all_goals (try (first | with_reducible assumption | with_reducible apply State.setFld_keeps)))

theorem State.ownershipMoved_keeps {s0 s : State}   (h : Keeps s0 s) :
    Keeps s0 (State.ownershipMoved s) := by
  unfold State.ownershipMoved
  iterate 60 (all_goals (try (first | with_reducible assumption | with_reducible apply State.releaseOwnerAlarms_keeps | with_reducible apply State.revertAll_keeps)))

theorem State.vacate_keeps {s0 s : State} (event : Nat)  (h : Keeps s0 s) :
    Keeps s0 (State.vacate s event) := by
  unfold State.vacate
  iterate 60 (all_goals (try (first | with_reducible assumption | with_reducible apply State.event_keeps | with_reducible apply State.ownershipMoved_keeps | with_reducible apply State.setOwner_keeps)))

theorem State.endOwn_keeps {s0 s : State}   (h : Keeps s0 s) :
    Keeps s0 (State.endOwn s) := by
  unfold State.endOwn
  iterate 60 (all_goals (try (first | with_reducible assumption | with_reducible apply State.countFld_keeps | with_reducible apply State.vacate_keeps | split)))

theorem State.orphan_keeps {s0 s : State} (x : Ctx)  (h : Keeps s0 s) :
    Keeps s0 (State.orphan s x) := by
  unfold State.orphan
  iterate 60 (all_goals (try (first | with_reducible assumption | with_reducible apply State.modHost_keeps | with_reducible apply State.modMedia_keeps | with_reducible apply State.modSeq_keeps | with_reducible apply foldl_keeps | with_reducible exact fun w => w | (intro _; try dsimp -zeta only) | (extract_lets +onlyGivenNames x; first | (apply cut (p := Keeps s0 x); (case' hp => dsimp -zeta only [x]; clear x); (case' hq => clear_value x; revert x; intro _ _)) | (have hx : _ → State := x; clear hx; dsimp -zeta only [x]; clear x) | (have hx : _ → _ → State := x; clear hx; dsimp -zeta only [x]; clear x) | (have hx : _ → _ × State := x; clear hx; dsimp -zeta only [x]; clear x) | (clear_value x; revert x; intro _)) | split | with_reducible apply Keeps.upd)))

theorem State.dropCmp_keeps {s0 s : State} (a : Nat) (q : Nat) (c : Nat)  (h : Keeps s0 s) :
    Keeps s0 (State.dropCmp s a q c) := by
  unfold State.dropCmp
  iterate 60 (all_goals (try (first | with_reducible assumption | with_reducible exact fun w => w | (intro _; try dsimp -zeta only) | (extract_lets +onlyGivenNames x; first | (apply cut (p := Keeps s0 x); (case' hp => dsimp -zeta only [x]; clear x); (case' hq => clear_value x; revert x; intro _ _)) | (clear_value x; revert x; intro _)) | with_reducible apply Keeps.upd)))

theorem State.endAssoc_keeps {s0 s : State} (a : Nat)  (h : Keeps s0 s) :
    Keeps s0 (State.endAssoc s a) := by
  unfold State.endAssoc
  iterate 60 (all_goals (try (first | with_reducible assumption | with_reducible apply State.dropCmp_keeps | with_reducible apply State.dropCtx_keeps | with_reducible apply State.dropJob_keeps | with_reducible apply State.modHost_keeps | with_reducible apply State.modQueue_keeps | with_reducible apply State.orphan_keeps | with_reducible apply State.vacate_keeps | with_reducible apply foldl_keeps | with_reducible exact fun w => w | (intro _; try dsimp -zeta only) | (extract_lets +onlyGivenNames x; first | (apply cut (p := Keeps s0 x); (case' hp => dsimp -zeta only [x]; clear x); (case' hq => clear_value x; revert x; intro _ _)) | (clear_value x; revert x; intro _)) | split | with_reducible apply Keeps.upd)))

theorem State.closeConn_keeps {s0 s : State} (k : Nat)  (h : Keeps s0 s) :
    Keeps s0 (State.closeConn s k) := by
  unfold State.closeConn
  iterate 60 (all_goals (try (first | with_reducible assumption | with_reducible apply State.endAssoc_keeps | with_reducible apply State.modHost_keeps | with_reducible exact fun w => w | (intro _; try dsimp -zeta only) | (extract_lets +onlyGivenNames x; first | (apply cut (p := Keeps s0 x); (case' hp => dsimp -zeta only [x]; clear x); (case' hq => clear_value x; revert x; intro _ _)) | (clear_value x; revert x; intro _)) | split | with_reducible apply Keeps.upd | dsimp -zeta only)))

theorem State.resetFunction0_keeps {s0 s : State}   (h : Keeps s0 s) :
    Keeps s0 (State.resetFunction0 s) := by
  unfold State.resetFunction0
  iterate 60 (all_goals (try (first | with_reducible assumption | with_reducible apply State.endAssoc_keeps | with_reducible apply State.modHost_keeps | with_reducible exact fun w => w | (intro _; try dsimp -zeta only) | (extract_lets +onlyGivenNames x; first | (apply cut (p := Keeps s0 x); (case' hp => dsimp -zeta only [x]; clear x); (case' hq => clear_value x; revert x; intro _ _)) | (clear_value x; revert x; intro _)) | with_reducible apply Keeps.upd)))

end Sys2Proof.Machine
end

