-- ==== Sys2Proof/Laws/Keeps/Region.lean ====
section
/-! SUPPORT. Machine/Region.lean: each of its operations keeps the canonical forms, the queue and the order of free values. -/

namespace Sys2Proof.Machine

open Sys2Proof

theorem State.resetRegionRegs_keeps {s0 s : State} (r : Nat) (keep : Bool) (h : Keeps s0 s) :
    Keeps s0 (s.resetRegionRegs r keep) :=
  Keeps.regs (RegFile.filter_sorted _) rfl rfl rfl h

theorem State.applyRegSets_keeps {s0 s : State} (r : Nat)  (h : Keeps s0 s) :
    Keeps s0 (State.applyRegSets s r) := by
  unfold State.applyRegSets
  iterate 60 (all_goals (try (first | with_reducible assumption | with_reducible apply State.setReg_keeps | with_reducible apply foldl_keeps | (intro _; try dsimp -zeta only) | split | dsimp -zeta only)))

theorem State.applyFuncSets_keeps {s0 s : State} (r : Nat)  (h : Keeps s0 s) :
    Keeps s0 (State.applyFuncSets s r) := by
  unfold State.applyFuncSets
  iterate 60 (all_goals (try (first | with_reducible assumption | with_reducible apply State.commitFunc_keeps | with_reducible apply State.event_keeps | with_reducible apply State.modFunc_keeps | with_reducible apply State.restartCheck_keeps | with_reducible apply foldl_keeps | with_reducible apply foldl_keeps_snd | with_reducible exact fun w => w | (intro _; try dsimp -zeta only) | (extract_lets +onlyGivenNames x; first | (apply cut (p := Keeps s0 x); (case' hp => dsimp -zeta only [x]; clear x); (case' hq => clear_value x; revert x; intro _ _)) | (apply cut (p := Keeps s0 x.2); (case' hp => dsimp -zeta only [x]; clear x); (case' hq => clear_value x; revert x; intro _ _)) | (clear_value x; revert x; intro _)) | split | with_reducible apply Keeps.upd | dsimp -zeta only)))

theorem State.readRecords_keeps {s0 s : State}   (h : Keeps s0 s) :
    Keeps s0 (State.readRecords s) := by
  unfold State.readRecords
  iterate 60 (all_goals (try (first | with_reducible assumption | with_reducible exact fun w => w | (intro _; try dsimp -zeta only) | (extract_lets +onlyGivenNames x; first | (apply cut (p := Keeps s0 x); (case' hp => dsimp -zeta only [x]; clear x); (case' hq => clear_value x; revert x; intro _ _)) | (clear_value x; revert x; intro _)) | with_reducible apply Keeps.upd)))

theorem State.reportBadRecords_keeps {s0 s : State}   (h : Keeps s0 s) :
    Keeps s0 (State.reportBadRecords s) := by
  unfold State.reportBadRecords
  iterate 60 (all_goals (try (first | with_reducible assumption | with_reducible apply State.event_keeps | with_reducible apply foldl_keeps | (intro _; try dsimp -zeta only) | split)))

theorem State.setPair_keeps {s0 s : State} (lo : Nat) (hi : Nat) (v : Nat)  (h : Keeps s0 s) :
    Keeps s0 (State.setPair s lo hi v) := by
  unfold State.setPair
  iterate 60 (all_goals (try (first | with_reducible assumption | with_reducible apply State.setReg_keeps)))

theorem State.applySaved_keeps {s0 s : State} (r : Nat)  (h : Keeps s0 s) :
    Keeps s0 (State.applySaved s r) := by
  unfold State.applySaved
  iterate 60 (all_goals (try (first | with_reducible assumption | with_reducible apply State.setFld_keeps | with_reducible apply State.setPair_keeps | with_reducible apply State.setReg_keeps | (extract_lets +onlyGivenNames x; first | (apply cut (p := Keeps s0 x); (case' hp => dsimp -zeta only [x]; clear x); (case' hq => clear_value x; revert x; intro _ _)) | (clear_value x; revert x; intro _)) | split | dsimp -zeta only)))

theorem State.syncMemory_keeps {s0 s : State}   (h : Keeps s0 s) :
    Keeps s0 (State.syncMemory s) := by
  unfold State.syncMemory
  iterate 60 (all_goals (try (first | with_reducible assumption | with_reducible apply State.setFld_keeps | (extract_lets +onlyGivenNames x; first | (apply cut (p := Keeps s0 x); (case' hp => dsimp -zeta only [x]; clear x); (case' hq => clear_value x; revert x; intro _ _)) | (clear_value x; revert x; intro _)) | split)))

theorem State.setStaging_keeps {s0 s : State}   (h : Keeps s0 s) :
    Keeps s0 (State.setStaging s) := by
  unfold State.setStaging
  iterate 60 (all_goals (try (first | with_reducible assumption | with_reducible apply State.setFld_keeps | (extract_lets +onlyGivenNames x; first | (apply cut (p := Keeps s0 x); (case' hp => dsimp -zeta only [x]; clear x); (case' hq => clear_value x; revert x; intro _ _)) | (clear_value x; revert x; intro _)) | split)))

theorem State.syncSurfaces_keeps {s0 s : State} (a : Fin 4)  (h : Keeps s0 s) :
    Keeps s0 (State.syncSurfaces s a) := by
  unfold State.syncSurfaces
  iterate 60 (all_goals (try (first | with_reducible assumption | with_reducible apply State.modAct_keeps | with_reducible apply State.setFld_keeps | with_reducible apply State.syncSpare_keeps | with_reducible apply foldl_keeps | with_reducible exact fun w => w | (intro _; try dsimp -zeta only) | (extract_lets +onlyGivenNames x; first | (apply cut (p := Keeps s0 x); (case' hp => dsimp -zeta only [x]; clear x); (case' hq => clear_value x; revert x; intro _ _)) | (have hx : _ → State := x; clear hx; dsimp -zeta only [x]; clear x) | (have hx : _ → _ → State := x; clear hx; dsimp -zeta only [x]; clear x) | (have hx : _ → _ × State := x; clear hx; dsimp -zeta only [x]; clear x) | (have hx := x.wsnBlock; clear hx; dsimp -zeta only [x]; clear x) | (clear_value x; revert x; intro _)) | split | with_reducible apply Keeps.upd)))

theorem State.loadPatch_keeps {s0 s : State} (im : List Byte) (a : Nat)  (h : Keeps s0 s) :
    Keeps s0 (State.loadPatch s im a) := by
  unfold State.loadPatch
  iterate 60 (all_goals (try (first | with_reducible assumption | with_reducible exact fun w => w | with_reducible exact RegFile.putAll_sorted _ | with_reducible exact RegFile.filter_sorted _ | with_reducible exact fun w => RegFile.putAll_sorted _ (RegFile.filter_sorted _ w) | (intro _; try dsimp -zeta only) | (extract_lets +onlyGivenNames x; first | (apply cut (p := Keeps s0 x); (case' hp => dsimp -zeta only [x]; clear x); (case' hq => clear_value x; revert x; intro _ _)) | (clear_value x; revert x; intro _)) | with_reducible apply Keeps.upd | with_reducible apply Keeps.updRegs)))

theorem State.keepCal_keeps {s0 s : State} (before : State) (a : Fin 4)  (h : Keeps s0 s) :
    Keeps s0 (State.keepCal s before a) := by
  unfold State.keepCal
  iterate 60 (all_goals (try (first | with_reducible assumption | with_reducible apply State.modBatten_keeps | with_reducible exact fun w => w | with_reducible exact RegFile.putAll_sorted _ | with_reducible exact RegFile.filter_sorted _ | with_reducible exact fun w => RegFile.putAll_sorted _ (RegFile.filter_sorted _ w) | (intro _; try dsimp -zeta only) | (extract_lets +onlyGivenNames x; first | (apply cut (p := Keeps s0 x); (case' hp => dsimp -zeta only [x]; clear x); (case' hq => clear_value x; revert x; intro _ _)) | (clear_value x; revert x; intro _)) | with_reducible apply Keeps.upd | with_reducible apply Keeps.updRegs)))

theorem State.placeSequencers_keeps {s0 s : State} (before : State) (ok : Bool) (a : Fin 4)  (h : Keeps s0 s) :
    Keeps s0 (State.placeSequencers s before ok a) := by
  unfold State.placeSequencers
  iterate 60 (all_goals (try (first | with_reducible assumption | with_reducible apply State.setFld_keeps | (extract_lets +onlyGivenNames x; first | (apply cut (p := Keeps s0 x); (case' hp => dsimp -zeta only [x]; clear x); (case' hq => clear_value x; revert x; intro _ _)) | (have hx : _ → State := x; clear hx; dsimp -zeta only [x]; clear x) | (have hx : _ → _ → State := x; clear hx; dsimp -zeta only [x]; clear x) | (have hx : _ → _ × State := x; clear hx; dsimp -zeta only [x]; clear x) | (clear_value x; revert x; intro _)) | split)))

theorem State.placeLoopEngine_keeps {s0 s : State} (before : State) (ok : Bool) (a : Fin 4)  (h : Keeps s0 s) :
    Keeps s0 (State.placeLoopEngine s before ok a) := by
  unfold State.placeLoopEngine
  iterate 60 (all_goals (try (first | with_reducible assumption | with_reducible apply State.modSpn_keeps | with_reducible apply State.setFlag_keeps | with_reducible apply State.setFld_keeps | with_reducible exact fun w => w | (intro _; try dsimp -zeta only) | (extract_lets +onlyGivenNames x; first | (apply cut (p := Keeps s0 x); (case' hp => dsimp -zeta only [x]; clear x); (case' hq => clear_value x; revert x; intro _ _)) | (clear_value x; revert x; intro _)) | split | with_reducible apply Keeps.upd)))

theorem State.keepRetract_keeps {s0 s : State} (was : Word)  (h : Keeps s0 s) :
    Keeps s0 (State.keepRetract s was) := by
  unfold State.keepRetract
  iterate 60 (all_goals (try (first | with_reducible assumption | with_reducible apply State.setFlag_keeps | with_reducible apply State.setFld_keeps | (extract_lets +onlyGivenNames x; first | (apply cut (p := Keeps s0 x); (case' hp => dsimp -zeta only [x]; clear x); (case' hq => clear_value x; revert x; intro _ _)) | (clear_value x; revert x; intro _)))))

theorem State.clearSlices_keeps {s0 s : State} (keep : Bool)  (h : Keeps s0 s) :
    Keeps s0 (State.clearSlices s keep) := by
  unfold State.clearSlices
  iterate 60 (all_goals (try (first | with_reducible assumption | with_reducible apply State.keepRetract_keeps | with_reducible apply State.resetRegionRegs_keeps | with_reducible exact fun w => w | (intro _; try dsimp -zeta only) | (extract_lets +onlyGivenNames x; first | (apply cut (p := Keeps s0 x); (case' hp => dsimp -zeta only [x]; clear x); (case' hq => clear_value x; revert x; intro _ _)) | (clear_value x; revert x; intro _)) | with_reducible apply Keeps.upd)))

theorem State.startMedia_keeps {s0 s : State} (keep : Bool) (passed : Nat)  (h : Keeps s0 s) :
    Keeps s0 (State.startMedia s keep passed) := by
  unfold State.startMedia
  iterate 60 (all_goals (try (first | with_reducible assumption | with_reducible apply State.applyFuncSets_keeps | with_reducible apply State.applyRegSets_keeps | with_reducible apply State.clearSlices_keeps | with_reducible apply State.forActs_keeps | with_reducible apply State.formConstants_keeps | with_reducible apply State.keepCal_keeps | with_reducible apply State.loadPatch_keeps | with_reducible apply State.modSpn_keeps | with_reducible apply State.placeLoopEngine_keeps | with_reducible apply State.placeSequencers_keeps | with_reducible apply State.setFlag_keeps | with_reducible apply State.setFld_keeps | with_reducible apply State.syncFollow_keeps | with_reducible apply State.syncPatch_keeps | with_reducible apply State.syncSurfaces_keeps | with_reducible exact fun w => w | (intro _; try dsimp -zeta only) | (extract_lets +onlyGivenNames x; first | (apply cut (p := Keeps s0 x); (case' hp => dsimp -zeta only [x]; clear x); (case' hq => clear_value x; revert x; intro _ _)) | (clear_value x; revert x; intro _)) | split | with_reducible apply Keeps.upd)))

theorem State.startTime_keeps {s0 s : State} (keep : Bool)  (h : Keeps s0 s) :
    Keeps s0 (State.startTime s keep) := by
  unfold State.startTime
  iterate 60 (all_goals (try (first | with_reducible assumption | with_reducible apply State.applyFuncSets_keeps | with_reducible apply State.applyRegSets_keeps | with_reducible apply State.applySaved_keeps | with_reducible apply State.phaseCheck_keeps | with_reducible apply State.ptpPort_keeps | with_reducible apply State.resetRegionRegs_keeps | with_reducible apply State.wakeClaim_keeps | with_reducible exact fun w => w | (intro _; try dsimp -zeta only) | (extract_lets +onlyGivenNames x; first | (apply cut (p := Keeps s0 x); (case' hp => dsimp -zeta only [x]; clear x); (case' hq => clear_value x; revert x; intro _ _)) | (clear_value x; revert x; intro _)) | split | with_reducible apply Keeps.upd)))

theorem State.startCompute_keeps {s0 s : State} (keep : Bool) (passed : Nat)  (h : Keeps s0 s) :
    Keeps s0 (State.startCompute s keep passed) := by
  unfold State.startCompute
  iterate 60 (all_goals (try (first | with_reducible assumption | with_reducible apply State.applyFuncSets_keeps | with_reducible apply State.applyRegSets_keeps | with_reducible apply State.modCast_keeps | with_reducible apply State.moverClaim_keeps | with_reducible apply State.moverRelease_keeps | with_reducible apply State.resetRegionRegs_keeps | with_reducible apply State.setFlag_keeps | with_reducible apply State.setFld_keeps | with_reducible apply State.setStaging_keeps | with_reducible apply State.stagingClaim_keeps | with_reducible apply State.syncStore_keeps | with_reducible exact fun w => w | (intro _; try dsimp -zeta only) | (extract_lets +onlyGivenNames x; first | (apply cut (p := Keeps s0 x); (case' hp => dsimp -zeta only [x]; clear x); (case' hq => clear_value x; revert x; intro _ _)) | (clear_value x; revert x; intro _)) | split | with_reducible apply Keeps.upd)))

theorem State.startNetwork_keeps {s0 s : State} (keep : Bool)  (h : Keeps s0 s) :
    Keeps s0 (State.startNetwork s keep) := by
  unfold State.startNetwork
  iterate 60 (all_goals (try (first | with_reducible assumption | with_reducible apply State.applyFuncSets_keeps | with_reducible apply State.applyRegSets_keeps | with_reducible apply State.modHost_keeps | with_reducible apply State.resetRegionRegs_keeps | with_reducible apply State.setReg_keeps | with_reducible exact fun w => w | (intro _; try dsimp -zeta only) | (extract_lets +onlyGivenNames x; first | (apply cut (p := Keeps s0 x); (case' hp => dsimp -zeta only [x]; clear x); (case' hq => clear_value x; revert x; intro _ _)) | (have hx : _ → State := x; clear hx; dsimp -zeta only [x]; clear x) | (have hx : _ → _ → State := x; clear hx; dsimp -zeta only [x]; clear x) | (have hx : _ → _ × State := x; clear hx; dsimp -zeta only [x]; clear x) | (clear_value x; revert x; intro _)) | split | with_reducible apply Keeps.upd)))

theorem State.startMemory_keeps {s0 s : State} (keep : Bool)  (h : Keeps s0 s) :
    Keeps s0 (State.startMemory s keep) := by
  unfold State.startMemory
  iterate 60 (all_goals (try (first | with_reducible assumption | with_reducible apply State.applyFuncSets_keeps | with_reducible apply State.applyRegSets_keeps | with_reducible apply State.applySaved_keeps | with_reducible apply State.l2Flush_keeps | with_reducible apply State.modDram_keeps | with_reducible apply State.resetRegionRegs_keeps | with_reducible apply State.setFld_keeps | with_reducible apply State.setReg_keeps | with_reducible apply State.syncMemory_keeps | with_reducible exact fun w => w | (intro _; try dsimp -zeta only) | (extract_lets +onlyGivenNames x; first | (apply cut (p := Keeps s0 x); (case' hp => dsimp -zeta only [x]; clear x); (case' hq => clear_value x; revert x; intro _ _)) | (clear_value x; revert x; intro _)) | split | with_reducible apply Keeps.upd)))

theorem State.dramLost_keeps {s0 s : State}   (h : Keeps s0 s) :
    Keeps s0 (State.dramLost s) := by
  unfold State.dramLost
  iterate 60 (all_goals (try (first | with_reducible assumption | with_reducible apply State.modCast_keeps | with_reducible apply State.modMedia_keeps | with_reducible exact fun w => w | (intro _; try dsimp -zeta only) | (extract_lets +onlyGivenNames x; first | (apply cut (p := Keeps s0 x); (case' hp => dsimp -zeta only [x]; clear x); (case' hq => clear_value x; revert x; intro _ _)) | (clear_value x; revert x; intro _)) | with_reducible apply Keeps.upd)))

theorem State.signal_keeps {s0 s : State} (fault : Bool)  (h : Keeps s0 s) :
    Keeps s0 (State.signal s fault) := by
  unfold State.signal
  iterate 60 (all_goals (try (first | with_reducible assumption | with_reducible apply State.setFlag_keeps | with_reducible exact fun w => w | (intro _; try dsimp -zeta only) | (extract_lets +onlyGivenNames x; first | (apply cut (p := Keeps s0 x); (case' hp => dsimp -zeta only [x]; clear x); (case' hq => clear_value x; revert x; intro _ _)) | (clear_value x; revert x; intro _)) | with_reducible apply Keeps.upd)))

theorem State.healthChanged_keeps {s0 s : State}   (h : Keeps s0 s) :
    Keeps s0 (State.healthChanged s) := by
  unfold State.healthChanged
  iterate 60 (all_goals (try (first | with_reducible assumption | with_reducible exact fun w => w | (intro _; try dsimp -zeta only) | (extract_lets +onlyGivenNames x; first | (apply cut (p := Keeps s0 x); (case' hp => dsimp -zeta only [x]; clear x); (case' hq => clear_value x; revert x; intro _ _)) | (clear_value x; revert x; intro _)) | with_reducible apply Keeps.upd)))

theorem State.enterFault_keeps {s0 s : State} (fatal : Bool)  (h : Keeps s0 s) :
    Keeps s0 (State.enterFault s fatal) := by
  unfold State.enterFault
  iterate 60 (all_goals (try (first | with_reducible assumption | with_reducible apply State.healthChanged_keeps | with_reducible apply State.setFlag_keeps | with_reducible apply State.setFld_keeps | with_reducible apply State.signal_keeps | with_reducible exact fun w => w | (intro _; try dsimp -zeta only) | (extract_lets +onlyGivenNames x; first | (apply cut (p := Keeps s0 x); (case' hp => dsimp -zeta only [x]; clear x); (case' hq => clear_value x; revert x; intro _ _)) | (clear_value x; revert x; intro _)) | split | with_reducible apply Keeps.upd)))

theorem State.setEccMode_keeps {s0 s : State} (m : Nat)  (h : Keeps s0 s) :
    Keeps s0 (State.setEccMode s m) := by
  unfold State.setEccMode
  iterate 60 (all_goals (try (first | with_reducible assumption | with_reducible apply State.setFld_keeps)))

theorem State.stopTimer_keeps {s0 s : State} (r : Nat) (h : Keeps s0 s) : Keeps s0 (State.stopTimer s r) := by
  have h1 := State.setFld_keeps (Adr.FLT_ESC r) Fld.FLT_ESC_pending 0 (State.setFlag_keeps (Adr.FLT_ESC r) Fld.FLT_ESC_running false h)
  unfold State.stopTimer
  dsimp only
  split
  · exact State.setFld_keeps _ _ _ (Keeps.upd (fun w => w) h1)
  · exact Keeps.upd (fun w => w) h1

theorem State.leaveRecoveryMode_keeps {s0 s : State}   (h : Keeps s0 s) :
    Keeps s0 (State.leaveRecoveryMode s) := by
  unfold State.leaveRecoveryMode
  iterate 60 (all_goals (try (first | with_reducible assumption | with_reducible apply State.setEccMode_keeps | split)))

theorem State.setCfs_keeps {s0 s : State}   (h : Keeps s0 s) :
    Keeps s0 (State.setCfs s) := by
  unfold State.setCfs
  iterate 60 (all_goals (try (first | with_reducible assumption | with_reducible apply State.modAssoc_keeps | with_reducible exact fun w => w | (intro _; try dsimp -zeta only) | (extract_lets +onlyGivenNames x; first | (apply cut (p := Keeps s0 x); (case' hp => dsimp -zeta only [x]; clear x); (case' hq => clear_value x; revert x; intro _ _)) | (clear_value x; revert x; intro _)) | with_reducible apply Keeps.upd)))

theorem State.endInternal_keeps {s0 s : State} (x : Ctx)  (h : Keeps s0 s) :
    Keeps s0 (State.endInternal s x) := by
  unfold State.endInternal
  iterate 60 (all_goals (try (first | with_reducible assumption | with_reducible apply State.castFail_keeps | with_reducible apply State.complete_keeps | with_reducible apply State.dropCmp_keeps | with_reducible apply State.modMedia_keeps | with_reducible exact fun w => w | (intro _; try dsimp -zeta only) | (extract_lets +onlyGivenNames x; first | (apply cut (p := Keeps s0 x); (case' hp => dsimp -zeta only [x]; clear x); (case' hq => clear_value x; revert x; intro _ _)) | (clear_value x; revert x; intro _)) | split | with_reducible apply Keeps.upd | dsimp -zeta only)))

theorem State.fatalActions_keeps {s0 s : State}   (h : Keeps s0 s) :
    Keeps s0 (State.fatalActions s) := by
  unfold State.fatalActions
  iterate 60 (all_goals (try (first | with_reducible assumption | with_reducible apply State.emergencyRetract_keeps | with_reducible apply State.endInternal_keeps | with_reducible apply State.enterFault_keeps | with_reducible apply State.event_keeps | with_reducible apply State.phaseCheck_keeps | with_reducible apply State.setCfs_keeps | with_reducible apply State.setFlag_keeps | with_reducible apply foldl_keeps | with_reducible exact fun w => w | (intro _; try dsimp -zeta only) | (extract_lets +onlyGivenNames x; first | (apply cut (p := Keeps s0 x); (case' hp => dsimp -zeta only [x]; clear x); (case' hq => clear_value x; revert x; intro _ _)) | (clear_value x; revert x; intro _)) | with_reducible apply Keeps.upd)))

theorem State.fatalEvent_keeps {s0 s : State} (b : Nat) (id : Nat)  (h : Keeps s0 s) :
    Keeps s0 (State.fatalEvent s b id) := by
  unfold State.fatalEvent
  iterate 60 (all_goals (try (first | with_reducible assumption | with_reducible apply State.eventIn_keeps | with_reducible apply State.fatalActions_keeps | (extract_lets +onlyGivenNames x; first | (apply cut (p := Keeps s0 x); (case' hp => dsimp -zeta only [x]; clear x); (case' hq => clear_value x; revert x; intro _ _)) | (clear_value x; revert x; intro _)) | split)))

theorem State.spindleFaulty_keeps {s0 s : State} (standby : Option (Fin 3))  (h : Keeps s0 s) :
    Keeps s0 (State.spindleFaulty s standby) := by
  unfold State.spindleFaulty
  iterate 60 (all_goals (try (first | with_reducible assumption | with_reducible apply State.fatalActions_keeps | with_reducible apply State.spindleFault_keeps | (extract_lets +onlyGivenNames x; first | (apply cut (p := Keeps s0 x); (case' hp => dsimp -zeta only [x]; clear x); (case' hq => clear_value x; revert x; intro _ _)) | (clear_value x; revert x; intro _)) | split)))

theorem State.clearCollectors_keeps {s0 s : State} (r : Nat)  (h : Keeps s0 s) :
    Keeps s0 (State.clearCollectors s r) := by
  unfold State.clearCollectors
  iterate 60 (all_goals (try (first | with_reducible assumption | with_reducible apply State.setFlag_keeps | with_reducible apply foldl_keeps | with_reducible apply foldl_keeps_snd | with_reducible exact fun w => w | with_reducible exact insertKey_rise _ _ | with_reducible exact RegFile.putAll_sorted _ | with_reducible exact RegFile.filter_sorted _ | with_reducible exact fun w => RegFile.putAll_sorted _ (RegFile.filter_sorted _ w) | (intro _; try dsimp -zeta only) | (extract_lets +onlyGivenNames x; first | (apply cut (p := Keeps s0 x); (case' hp => dsimp -zeta only [x]; clear x); (case' hq => clear_value x; revert x; intro _ _)) | (apply cut (p := Keeps s0 x.2); (case' hp => dsimp -zeta only [x]; clear x); (case' hq => clear_value x; revert x; intro _ _)) | (apply cut (p := Keeps s0 x.1); (case' hp => dsimp -zeta only [x]; clear x); (case' hq => clear_value x; revert x; intro _ _)) | (have hx : _ → State := x; clear hx; dsimp -zeta only [x]; clear x) | (have hx : _ → _ → State := x; clear hx; dsimp -zeta only [x]; clear x) | (have hx : _ → _ × State := x; clear hx; dsimp -zeta only [x]; clear x) | (have hx := x.wsnBlock; clear hx; dsimp -zeta only [x]; clear x) | (clear_value x; revert x; intro _)) | split | with_reducible apply Keeps.upd | dsimp -zeta only)))

theorem State.stopCompute_keeps {s0 s : State}   (h : Keeps s0 s) :
    Keeps s0 (State.stopCompute s) := by
  unfold State.stopCompute
  iterate 60 (all_goals (try (first | with_reducible assumption | with_reducible apply State.modCast_keeps | with_reducible apply State.modQueue_keeps | with_reducible apply foldl_keeps | with_reducible exact fun w => w | (intro _; try dsimp -zeta only) | (extract_lets +onlyGivenNames x; first | (apply cut (p := Keeps s0 x); (case' hp => dsimp -zeta only [x]; clear x); (case' hq => clear_value x; revert x; intro _ _)) | (clear_value x; revert x; intro _)) | with_reducible apply Keeps.upd)))

theorem State.endStopped3_keeps {s0 s : State}   (h : Keeps s0 s) :
    Keeps s0 (State.endStopped3 s) := by
  unfold State.endStopped3
  iterate 60 (all_goals (try (first | with_reducible assumption | with_reducible apply State.castFail_keeps | with_reducible apply State.complete_keeps | with_reducible apply State.dropCmp_keeps | with_reducible apply foldl_keeps | (intro _; try dsimp -zeta only) | (extract_lets +onlyGivenNames x; first | (apply cut (p := Keeps s0 x); (case' hp => dsimp -zeta only [x]; clear x); (case' hq => clear_value x; revert x; intro _ _)) | (clear_value x; revert x; intro _)) | split | dsimp -zeta only)))

theorem State.stopNetwork_keeps {s0 s : State}   (h : Keeps s0 s) :
    Keeps s0 (State.stopNetwork s) := by
  unfold State.stopNetwork
  iterate 60 (all_goals (try (first | with_reducible assumption | with_reducible apply State.linkGone_keeps | with_reducible apply State.resetFunction0_keeps | with_reducible apply foldl_keeps | (intro _; try dsimp -zeta only) | (extract_lets +onlyGivenNames x; first | (apply cut (p := Keeps s0 x); (case' hp => dsimp -zeta only [x]; clear x); (case' hq => clear_value x; revert x; intro _ _)) | (clear_value x; revert x; intro _)))))

theorem State.endNetwork_keeps {s0 s : State}   (h : Keeps s0 s) :
    Keeps s0 (State.endNetwork s) := by
  unfold State.endNetwork
  iterate 60 (all_goals (try (first | with_reducible assumption | with_reducible apply State.endAssoc_keeps | with_reducible apply State.modHost_keeps | with_reducible apply State.setOwner_keeps | with_reducible apply foldl_keeps | with_reducible exact fun w => w | (intro _; try dsimp -zeta only) | (extract_lets +onlyGivenNames x; first | (apply cut (p := Keeps s0 x); (case' hp => dsimp -zeta only [x]; clear x); (case' hq => clear_value x; revert x; intro _ _)) | (clear_value x; revert x; intro _)) | with_reducible apply Keeps.upd)))

theorem State.stopMedia_keeps {s0 s : State}   (h : Keeps s0 s) :
    Keeps s0 (State.stopMedia s) := by
  unfold State.stopMedia
  iterate 60 (all_goals (try (first | with_reducible assumption | with_reducible apply State.forActs_keeps | with_reducible apply State.phaseCheck_keeps | with_reducible apply State.setSpin_keeps | with_reducible apply State.takeAbort_keeps | with_reducible apply State.unloadFrame_keeps | with_reducible apply State.unloaded_keeps | (intro _; try dsimp -zeta only) | (extract_lets +onlyGivenNames x; first | (apply cut (p := Keeps s0 x); (case' hp => dsimp -zeta only [x]; clear x); (case' hq => clear_value x; revert x; intro _ _)) | (clear_value x; revert x; intro _)) | split)))

theorem State.rerun_keeps {s0 s : State} (x : Ctx)  (h : Keeps s0 s) :
    Keeps s0 (State.rerun s x) := by
  unfold State.rerun
  iterate 60 (all_goals (try (first | with_reducible assumption | with_reducible apply State.dropCmp_keeps | with_reducible apply State.modCtx_keeps | with_reducible apply State.releaseLock_keeps | with_reducible exact fun w => w | (intro _; try dsimp -zeta only) | (extract_lets +onlyGivenNames x; first | (apply cut (p := Keeps s0 x); (case' hp => dsimp -zeta only [x]; clear x); (case' hq => clear_value x; revert x; intro _ _)) | (clear_value x; revert x; intro _)) | with_reducible apply Keeps.upd)))

theorem State.stopRegion_keeps {s0 s : State} (r : Nat)  (h : Keeps s0 s) :
    Keeps s0 (State.stopRegion s r) := by
  unfold State.stopRegion
  iterate 60 (all_goals (try (first | with_reducible assumption | with_reducible apply State.stopCompute_keeps | with_reducible apply State.stopMedia_keeps | with_reducible apply State.stopNetwork_keeps | split | dsimp -zeta only)))

theorem State.endActivation_keeps {s0 s : State} (control : Bool)  (h : Keeps s0 s) :
    Keeps s0 (State.endActivation s control) := by
  unfold State.endActivation
  iterate 60 (all_goals (try (first | with_reducible assumption | with_reducible apply State.complete_keeps | with_reducible exact fun w => w | (intro _; try dsimp -zeta only) | (extract_lets +onlyGivenNames x; first | (apply cut (p := Keeps s0 x); (case' hp => dsimp -zeta only [x]; clear x); (case' hq => clear_value x; revert x; intro _ _)) | (clear_value x; revert x; intro _)) | split | with_reducible apply Keeps.upd | dsimp -zeta only)))

theorem State.startRestart_keeps {s0 s : State} (r : Nat)  (h : Keeps s0 s) :
    Keeps s0 (State.startRestart s r) := by
  unfold State.startRestart
  iterate 60 (all_goals (try (first | with_reducible assumption | with_reducible apply State.clearCollectors_keeps | with_reducible apply State.countFld_keeps | with_reducible apply State.endActivation_keeps | with_reducible apply State.revertRegion_keeps | with_reducible apply State.setFlag_keeps | with_reducible apply State.stopRegion_keeps | with_reducible exact fun w => w | (intro _; try dsimp -zeta only) | (extract_lets +onlyGivenNames x; first | (apply cut (p := Keeps s0 x); (case' hp => dsimp -zeta only [x]; clear x); (case' hq => clear_value x; revert x; intro _ _)) | (clear_value x; revert x; intro _)) | with_reducible apply Keeps.upd)))

theorem State.restartRegion_keeps {s0 s : State} (r : Nat)  (h : Keeps s0 s) :
    Keeps s0 (State.restartRegion s r) := by
  unfold State.restartRegion
  iterate 60 (all_goals (try (first | with_reducible assumption | with_reducible apply State.enterFault_keeps | with_reducible apply State.startRestart_keeps | with_reducible exact fun w => w | (intro _; try dsimp -zeta only) | (extract_lets +onlyGivenNames x; first | (apply cut (p := Keeps s0 x); (case' hp => dsimp -zeta only [x]; clear x); (case' hq => clear_value x; revert x; intro _ _)) | (clear_value x; revert x; intro _)) | split | with_reducible apply Keeps.upd)))

theorem State.escalateRestart_keeps {s0 s : State} (r : Nat)  (h : Keeps s0 s) :
    Keeps s0 (State.escalateRestart s r) := by
  unfold State.escalateRestart
  iterate 60 (all_goals (try (first | with_reducible assumption | with_reducible apply State.enterFault_keeps | with_reducible apply State.event_keeps | with_reducible apply State.restartRegion_keeps | with_reducible exact fun w => w | (intro _; try dsimp -zeta only) | (extract_lets +onlyGivenNames x; first | (apply cut (p := Keeps s0 x); (case' hp => dsimp -zeta only [x]; clear x); (case' hq => clear_value x; revert x; intro _ _)) | (clear_value x; revert x; intro _)) | split | with_reducible apply Keeps.upd)))

end Sys2Proof.Machine
end

