-- ==== Sys2Proof/Laws/Keeps/Boot.lean ====
section
/-! SUPPORT. Machine/Boot.lean: each of its operations keeps the canonical forms, the queue and the order of free values. -/

namespace Sys2Proof.Machine

open Sys2Proof

theorem State.modPln_keeps {s0 s : State} (f : Plinth → Plinth)  (h : Keeps s0 s) :
    Keeps s0 (State.modPln s f) := by
  unfold State.modPln
  iterate 60 (all_goals (try (first | with_reducible assumption | with_reducible exact fun w => w | (intro _; try dsimp -zeta only) | (extract_lets +onlyGivenNames x; first | (apply cut (p := Keeps s0 x); (case' hp => dsimp -zeta only [x]; clear x); (case' hq => clear_value x; revert x; intro _ _)) | (clear_value x; revert x; intro _)) | with_reducible apply Keeps.upd)))

theorem State.patStore_keeps {s0 s : State}   (h : Keeps s0 s) :
    Keeps s0 (State.patStore s) := by
  unfold State.patStore
  iterate 60 (all_goals (try (first | with_reducible assumption | with_reducible apply State.patDrop_keeps | with_reducible exact fun w => w | (intro _; try dsimp -zeta only) | (extract_lets +onlyGivenNames x; first | (apply cut (p := Keeps s0 x); (case' hp => dsimp -zeta only [x]; clear x); (case' hq => clear_value x; revert x; intro _ _)) | (clear_value x; revert x; intro _)) | split | with_reducible apply Keeps.upd | dsimp -zeta only)))

theorem State.patJournal_keeps {s0 s : State} (ok : Bool)  (h : Keeps s0 s) :
    Keeps s0 (State.patJournal s ok) := by
  unfold State.patJournal
  iterate 60 (all_goals (try (first | with_reducible assumption | with_reducible apply State.event_keeps | with_reducible apply State.setFlag_keeps | with_reducible exact fun w => w | (intro _; try dsimp -zeta only) | (extract_lets +onlyGivenNames x; first | (apply cut (p := Keeps s0 x); (case' hp => dsimp -zeta only [x]; clear x); (case' hq => clear_value x; revert x; intro _ _)) | (clear_value x; revert x; intro _)) | split | with_reducible apply Keeps.upd | dsimp -zeta only)))

theorem State.patRestore_keeps {s0 s : State}   (h : Keeps s0 s) :
    Keeps s0 (State.patRestore s) := by
  unfold State.patRestore
  iterate 60 (all_goals (try (first | with_reducible assumption | with_reducible apply State.event_keeps | with_reducible apply State.patJournal_keeps | with_reducible apply State.setFlag_keeps | with_reducible apply foldl_keeps | with_reducible exact fun w => w | (intro _; try dsimp -zeta only) | (extract_lets +onlyGivenNames x; first | (apply cut (p := Keeps s0 x); (case' hp => dsimp -zeta only [x]; clear x); (case' hq => clear_value x; revert x; intro _ _)) | (have hx : _ → State := x; clear hx; dsimp -zeta only [x]; clear x) | (have hx : _ → _ → State := x; clear hx; dsimp -zeta only [x]; clear x) | (have hx : _ → _ × State := x; clear hx; dsimp -zeta only [x]; clear x) | (clear_value x; revert x; intro _)) | with_reducible apply Keeps.upd)))

theorem State.patCut_keeps {s0 s : State}   (h : Keeps s0 s) :
    Keeps s0 (State.patCut s) := by
  unfold State.patCut
  iterate 60 (all_goals (try (first | with_reducible assumption | with_reducible exact fun w => w | (intro _; try dsimp -zeta only) | (extract_lets +onlyGivenNames x; first | (apply cut (p := Keeps s0 x); (case' hp => dsimp -zeta only [x]; clear x); (case' hq => clear_value x; revert x; intro _ _)) | (clear_value x; revert x; intro _)) | with_reducible apply Keeps.upd)))

theorem State.retirePage_keeps {s0 s : State} (ch : Nat) (page : Nat)  (h : Keeps s0 s) :
    Keeps s0 (State.retirePage s ch page) := by
  unfold State.retirePage
  iterate 60 (all_goals (try (first | with_reducible assumption | with_reducible apply State.event_keeps | with_reducible apply State.syncMemory_keeps | with_reducible exact fun w => w | (intro _; try dsimp -zeta only) | (extract_lets +onlyGivenNames x; first | (apply cut (p := Keeps s0 x); (case' hp => dsimp -zeta only [x]; clear x); (case' hq => clear_value x; revert x; intro _ _)) | (clear_value x; revert x; intro _)) | split | with_reducible apply Keeps.upd)))

theorem State.modSlot_keeps {s0 s : State} (k : Nat) (f : Slot → Slot)  (h : Keeps s0 s) :
    Keeps s0 (State.modSlot s k f) := by
  unfold State.modSlot
  iterate 60 (all_goals (try (first | with_reducible assumption | with_reducible exact fun w => w | (intro _; try dsimp -zeta only) | (extract_lets +onlyGivenNames x; first | (apply cut (p := Keeps s0 x); (case' hp => dsimp -zeta only [x]; clear x); (case' hq => clear_value x; revert x; intro _ _)) | (clear_value x; revert x; intro _)) | with_reducible apply Keeps.upd)))

theorem State.syncSlots_keeps {s0 s : State}   (h : Keeps s0 s) :
    Keeps s0 (State.syncSlots s) := by
  unfold State.syncSlots
  iterate 60 (all_goals (try (first | with_reducible assumption | with_reducible apply State.setFld_keeps | with_reducible apply State.setReg_keeps | (intro _; try dsimp -zeta only) | (extract_lets +onlyGivenNames x; first | (apply cut (p := Keeps s0 x); (case' hp => dsimp -zeta only [x]; clear x); (case' hq => clear_value x; revert x; intro _ _)) | (have hx : _ → State := x; clear hx; dsimp -zeta only [x]; clear x) | (have hx : _ → _ → State := x; clear hx; dsimp -zeta only [x]; clear x) | (have hx : _ → _ × State := x; clear hx; dsimp -zeta only [x]; clear x) | (clear_value x; revert x; intro _)) | split | dsimp -zeta only)))

theorem State.trialUnconfirmed_keeps {s0 s : State}   (h : Keeps s0 s) :
    Keeps s0 (State.trialUnconfirmed s) := by
  unfold State.trialUnconfirmed
  iterate 60 (all_goals (try (first | with_reducible assumption | with_reducible apply State.event_keeps | with_reducible apply State.modSlot_keeps | with_reducible exact fun w => w | (intro _; try dsimp -zeta only) | (extract_lets +onlyGivenNames x; first | (apply cut (p := Keeps s0 x); (case' hp => dsimp -zeta only [x]; clear x); (case' hq => clear_value x; revert x; intro _ _)) | (clear_value x; revert x; intro _)) | split | with_reducible apply Keeps.upd | dsimp -zeta only)))

theorem State.slotFailed_keeps {s0 s : State} (k : Nat)  (h : Keeps s0 s) :
    Keeps s0 (State.slotFailed s k) := by
  unfold State.slotFailed
  iterate 60 (all_goals (try (first | with_reducible assumption | with_reducible apply State.event_keeps | with_reducible apply State.modSlot_keeps | with_reducible exact fun w => w | (intro _; try dsimp -zeta only) | (extract_lets +onlyGivenNames x; first | (apply cut (p := Keeps s0 x); (case' hp => dsimp -zeta only [x]; clear x); (case' hq => clear_value x; revert x; intro _ _)) | (clear_value x; revert x; intro _)) | with_reducible apply Keeps.upd)))

theorem State.noteSigs_keeps {s0 s : State} (k : Nat) (h : Keeps s0 s) : Keeps s0 (s.noteSigs k) := State.setFld_keeps _ _ _ h

theorem State.bootSlot_keeps {s0 s : State} (ok : Nat)  (h : Keeps s0 s) :
    Keeps s0 (State.bootSlot s ok) := by
  unfold State.bootSlot
  iterate 60 (all_goals (try (first | with_reducible assumption | with_reducible apply State.modPln_keeps | with_reducible apply State.modSlot_keeps | with_reducible apply State.noteSigs_keeps | with_reducible apply State.slotFailed_keeps | with_reducible apply State.syncSlots_keeps | with_reducible apply State.trialUnconfirmed_keeps | with_reducible exact fun w => w | (intro _; try dsimp -zeta only) | (extract_lets +onlyGivenNames x; first | (apply cut (p := Keeps s0 x); (case' hp => dsimp -zeta only [x]; clear x); (case' hq => clear_value x; revert x; intro _ _)) | (have hx : _ → State := x; clear hx; dsimp -zeta only [x]; clear x) | (have hx : _ → _ → State := x; clear hx; dsimp -zeta only [x]; clear x) | (have hx : _ → _ × State := x; clear hx; dsimp -zeta only [x]; clear x) | (clear_value x; revert x; intro _)) | split | with_reducible apply Keeps.upd | dsimp -zeta only)))

theorem State.resetFields_keeps {s0 s : State} (h : Keeps s0 s) : Keeps s0 s.resetFields :=
  ⟨fun w => ⟨RegFile.filter_sorted _ (h.1 w).1, (h.1 w).2⟩, (State.patCut_keeps h).2.1, (State.patCut_keeps h).2.2⟩

theorem State.resetRegions_keeps {s0 s : State}   (h : Keeps s0 s) :
    Keeps s0 (State.resetRegions s) := by
  unfold State.resetRegions
  iterate 60 (all_goals (try (first | with_reducible assumption | with_reducible apply State.keepRetract_keeps | with_reducible apply State.modPln_keeps | with_reducible apply State.resetFields_keeps | with_reducible apply State.setFlag_keeps | with_reducible apply State.setFld_keeps | with_reducible apply State.setFstate_keeps | with_reducible apply State.setReg_keeps | with_reducible apply foldl_keeps | with_reducible exact fun w => w | (intro _; try dsimp -zeta only) | (extract_lets +onlyGivenNames x; first | (apply cut (p := Keeps s0 x); (case' hp => dsimp -zeta only [x]; clear x); (case' hq => clear_value x; revert x; intro _ _)) | (clear_value x; revert x; intro _)) | with_reducible apply Keeps.upd)))

theorem State.powerRegions_keeps {s0 s : State} (mask : Nat)  (h : Keeps s0 s) :
    Keeps s0 (State.powerRegions s mask) := by
  unfold State.powerRegions
  iterate 60 (all_goals (try (first | with_reducible assumption | with_reducible apply State.modPln_keeps | with_reducible apply State.setFld_keeps | with_reducible exact fun w => w | (intro _; try dsimp -zeta only) | (extract_lets +onlyGivenNames x; first | (apply cut (p := Keeps s0 x); (case' hp => dsimp -zeta only [x]; clear x); (case' hq => clear_value x; revert x; intro _ _)) | (clear_value x; revert x; intro _)) | with_reducible apply Keeps.upd)))

theorem State.setStep_keeps {s0 s : State} (n : Nat)  (h : Keeps s0 s) :
    Keeps s0 (State.setStep s n) := by
  unfold State.setStep
  iterate 60 (all_goals (try (first | with_reducible assumption | with_reducible apply State.setFld_keeps)))

theorem State.startDram_keeps {s0 s : State} (b : Boot)  (h : Keeps s0 s) :
    Keeps s0 (State.startDram s b) := by
  unfold State.startDram
  iterate 60 (all_goals (try (first | with_reducible assumption | with_reducible apply State.applyRegSets_keeps | with_reducible apply State.cstErr_keeps | with_reducible apply State.event_keeps | with_reducible apply State.fatalActions_keeps | with_reducible apply State.patRestore_keeps | with_reducible apply State.powerRegions_keeps | with_reducible apply State.retirePage_keeps | with_reducible apply State.setEccMode_keeps | with_reducible apply State.setFlag_keeps | with_reducible apply State.setStep_keeps | with_reducible apply State.startCompute_keeps | with_reducible apply State.startMemory_keeps | with_reducible apply State.startNetwork_keeps | with_reducible apply State.startTime_keeps | with_reducible apply foldl_keeps | with_reducible exact fun w => w | (intro _; try dsimp -zeta only) | (extract_lets +onlyGivenNames x; first | (apply cut (p := Keeps s0 x); (case' hp => dsimp -zeta only [x]; clear x); (case' hq => clear_value x; revert x; intro _ _)) | (clear_value x; revert x; intro _)) | split | with_reducible apply Keeps.upd)))

theorem State.startMediaStep_keeps {s0 s : State} (parked : Nat)  (h : Keeps s0 s) :
    Keeps s0 (State.startMediaStep s parked) := by
  unfold State.startMediaStep
  iterate 60 (all_goals (try (first | with_reducible assumption | with_reducible apply State.event_keeps | with_reducible apply State.powerRegions_keeps | with_reducible apply State.preStart_keeps | with_reducible apply State.setStep_keeps | with_reducible apply State.startMedia_keeps | (extract_lets +onlyGivenNames x; first | (apply cut (p := Keeps s0 x); (case' hp => dsimp -zeta only [x]; clear x); (case' hq => clear_value x; revert x; intro _ _)) | (clear_value x; revert x; intro _)) | split)))

theorem State.startFromStep3_keeps {s0 s : State} (b : Boot)  (h : Keeps s0 s) :
    Keeps s0 (State.startFromStep3 s b) := by
  unfold State.startFromStep3
  iterate 60 (all_goals (try (first | with_reducible assumption | with_reducible apply State.bootSlot_keeps | with_reducible apply State.event_keeps | with_reducible apply State.setStep_keeps | with_reducible apply State.signal_keeps | with_reducible apply State.startDram_keeps | with_reducible apply State.startMediaStep_keeps | with_reducible exact fun w => w | (intro _; try dsimp -zeta only) | (extract_lets +onlyGivenNames x; first | (apply cut (p := Keeps s0 x); (case' hp => dsimp -zeta only [x]; clear x); (case' hq => clear_value x; revert x; intro _ _)) | (clear_value x; revert x; intro _)) | split | with_reducible apply Keeps.upd)))

theorem State.loadCounters_keeps {s0 s : State}   (h : Keeps s0 s) :
    Keeps s0 (State.loadCounters s) := by
  unfold State.loadCounters
  iterate 60 (all_goals (try (first | with_reducible assumption | with_reducible apply State.event_keeps | with_reducible exact fun w => w | (intro _; try dsimp -zeta only) | (extract_lets +onlyGivenNames x; first | (apply cut (p := Keeps s0 x); (case' hp => dsimp -zeta only [x]; clear x); (case' hq => clear_value x; revert x; intro _ _)) | (have hx : _ → State := x; clear hx; dsimp -zeta only [x]; clear x) | (have hx : _ → _ → State := x; clear hx; dsimp -zeta only [x]; clear x) | (have hx : _ → _ × State := x; clear hx; dsimp -zeta only [x]; clear x) | (clear_value x; revert x; intro _)) | split | with_reducible apply Keeps.upd | dsimp -zeta only)))

theorem State.startFromStep2_keeps {s0 s : State} (b : Boot) (late : Bool)  (h : Keeps s0 s) :
    Keeps s0 (State.startFromStep2 s b late) := by
  unfold State.startFromStep2
  iterate 60 (all_goals (try (first | with_reducible assumption | with_reducible apply State.applyRegSets_keeps | with_reducible apply State.applySaved_keeps | with_reducible apply State.bump_keeps | with_reducible apply State.event_keeps | with_reducible apply State.loadCounters_keeps | with_reducible apply State.modPln_keeps | with_reducible apply State.powerRegions_keeps | with_reducible apply State.readRecords_keeps | with_reducible apply State.reportBadRecords_keeps | with_reducible apply State.resetRegions_keeps | with_reducible apply State.setFld_keeps | with_reducible apply State.setStep_keeps | with_reducible apply State.startFromStep3_keeps | with_reducible exact fun w => w | (intro _; try dsimp -zeta only) | (extract_lets +onlyGivenNames x; first | (apply cut (p := Keeps s0 x); (case' hp => dsimp -zeta only [x]; clear x); (case' hq => clear_value x; revert x; intro _ _)) | (clear_value x; revert x; intro _)) | split | with_reducible apply Keeps.upd)))

theorem State.startFromStep1_keeps {s0 s : State} (b : Boot)  (h : Keeps s0 s) :
    Keeps s0 (State.startFromStep1 s b) := by
  unfold State.startFromStep1
  iterate 60 (all_goals (try (first | with_reducible assumption | with_reducible apply State.modPln_keeps | with_reducible apply State.setFlag_keeps | with_reducible apply State.setStep_keeps | with_reducible apply State.signal_keeps | with_reducible exact fun w => w | (intro _; try dsimp -zeta only) | (extract_lets +onlyGivenNames x; first | (apply cut (p := Keeps s0 x); (case' hp => dsimp -zeta only [x]; clear x); (case' hq => clear_value x; revert x; intro _ _)) | (clear_value x; revert x; intro _)) | split | with_reducible apply Keeps.upd)))

theorem State.powerOnReset_keeps {s0 s : State} (h : Keeps s0 s) : Keeps s0 s.powerOnReset :=
  ⟨fun w => ⟨rfl, ((State.resetRegions_keeps h).1 w).2⟩, h.2.1, h.2.2⟩

theorem State.supplyLoss_keeps {s0 s : State}   (h : Keeps s0 s) :
    Keeps s0 (State.supplyLoss s) := by
  unfold State.supplyLoss
  iterate 60 (all_goals (try (first | with_reducible assumption | with_reducible apply State.emergencyRetract_keeps | with_reducible apply State.event_keeps | with_reducible apply State.modMedia_keeps | with_reducible apply State.modPln_keeps | with_reducible apply State.resetRegions_keeps | with_reducible apply State.setFlag_keeps | with_reducible apply State.setFld_keeps | with_reducible apply State.setStep_keeps | exact (fun _ w => w : ∀ m : Media, keysRise m.sectors = true → keysRise m.skipBlock.sectors = true) | exact (fun _ w => w : ∀ m : Media, keysRise m.sectors = true → keysRise m.pass.sectors = true) | with_reducible exact fun w => w | (intro _; try dsimp -zeta only) | (extract_lets +onlyGivenNames x; first | (apply cut (p := Keeps s0 x); (case' hp => dsimp -zeta only [x]; clear x); (case' hq => clear_value x; revert x; intro _ _)) | (clear_value x; revert x; intro _)) | with_reducible apply Keeps.upd)))

theorem State.deviceReset_keeps {s0 s : State} (b : Boot)  (h : Keeps s0 s) :
    Keeps s0 (State.deviceReset s b) := by
  unfold State.deviceReset
  iterate 60 (all_goals (try (first | with_reducible assumption | with_reducible apply State.forActs_keeps | with_reducible apply State.setFld_keeps | with_reducible apply State.startFromStep2_keeps | with_reducible apply State.unloadFrame_keeps | with_reducible apply State.unloaded_keeps | exact (fun _ w => w : ∀ m : Media, keysRise m.sectors = true → keysRise m.skipBlock.sectors = true) | exact (fun _ w => w : ∀ m : Media, keysRise m.sectors = true → keysRise m.pass.sectors = true) | (intro _; try dsimp -zeta only) | (extract_lets +onlyGivenNames x; first | (apply cut (p := Keeps s0 x); (case' hp => dsimp -zeta only [x]; clear x); (case' hq => clear_value x; revert x; intro _ _)) | (clear_value x; revert x; intro _)) | split)))

theorem State.beginEntry_keeps {s0 s : State} (ps : Nat)  (h : Keeps s0 s) :
    Keeps s0 (State.beginEntry s ps) := by
  unfold State.beginEntry
  iterate 60 (all_goals (try (first | with_reducible assumption | with_reducible apply State.modMedia_keeps | with_reducible apply State.setFlag_keeps | with_reducible apply State.setFld_keeps | with_reducible exact fun w => w | (intro _; try dsimp -zeta only) | (extract_lets +onlyGivenNames x; first | (apply cut (p := Keeps s0 x); (case' hp => dsimp -zeta only [x]; clear x); (case' hq => clear_value x; revert x; intro _ _)) | (clear_value x; revert x; intro _)) | split | with_reducible apply Keeps.upd)))

theorem State.beginExit_keeps {s0 s : State} (ps : Nat)  (h : Keeps s0 s) :
    Keeps s0 (State.beginExit s ps) := by
  unfold State.beginExit
  iterate 60 (all_goals (try (first | with_reducible assumption | with_reducible apply State.loadHeads_keeps | with_reducible apply State.modPln_keeps | with_reducible apply State.modTime_keeps | with_reducible apply State.moverClaim_keeps | with_reducible apply State.moverRelease_keeps | with_reducible apply State.powerRegions_keeps | with_reducible apply State.setFlag_keeps | with_reducible apply State.setFld_keeps | with_reducible apply State.spinCommand_keeps | with_reducible exact fun w => w | (intro _; try dsimp -zeta only) | (extract_lets +onlyGivenNames x; first | (apply cut (p := Keeps s0 x); (case' hp => dsimp -zeta only [x]; clear x); (case' hq => clear_value x; revert x; intro _ _)) | (clear_value x; revert x; intro _)) | split | with_reducible apply Keeps.upd)))

theorem State.startExit_keeps {s0 s : State}   (h : Keeps s0 s) :
    Keeps s0 (State.startExit s) := by
  unfold State.startExit
  iterate 60 (all_goals (try (first | with_reducible assumption | with_reducible apply State.beginExit_keeps | with_reducible apply State.event_keeps | with_reducible apply State.modPln_keeps | with_reducible exact fun w => w | (intro _; try dsimp -zeta only) | (extract_lets +onlyGivenNames x; first | (apply cut (p := Keeps s0 x); (case' hp => dsimp -zeta only [x]; clear x); (case' hq => clear_value x; revert x; intro _ _)) | (clear_value x; revert x; intro _)) | split | with_reducible apply Keeps.upd)))

theorem State.wake_keeps {s0 s : State} (f : Fld)  (h : Keeps s0 s) :
    Keeps s0 (State.wake s f) := by
  unfold State.wake
  iterate 60 (all_goals (try (first | with_reducible assumption | with_reducible apply State.setFlag_keeps | with_reducible apply State.startExit_keeps)))

theorem State.wakeCmd_keeps {s0 s : State}   (h : Keeps s0 s) :
    Keeps s0 (State.wakeCmd s) := by
  unfold State.wakeCmd
  iterate 60 (all_goals (try (first | with_reducible assumption | with_reducible apply State.startExit_keeps | with_reducible apply State.wake_keeps | split)))

theorem State.wakeEvent_keeps {s0 s : State} (f : Fld) (b : Boot)  (h : Keeps s0 s) :
    Keeps s0 (State.wakeEvent s f b) := by
  unfold State.wakeEvent
  iterate 60 (all_goals (try (first | with_reducible assumption | with_reducible apply State.event_keeps | with_reducible apply State.modPln_keeps | with_reducible apply State.setFlag_keeps | with_reducible apply State.setFld_keeps | with_reducible apply State.wake_keeps | with_reducible exact fun w => w | (intro _; try dsimp -zeta only) | (extract_lets +onlyGivenNames x; first | (apply cut (p := Keeps s0 x); (case' hp => dsimp -zeta only [x]; clear x); (case' hq => clear_value x; revert x; intro _ _)) | (clear_value x; revert x; intro _)) | split | with_reducible apply Keeps.upd)))

end Sys2Proof.Machine
end

