-- ==== Sys2Proof/Laws/Keeps/RegWrite.lean ====
section
/-! SUPPORT. Machine/RegWrite.lean: each of its operations keeps the canonical forms, the queue and the order of free values. -/

namespace Sys2Proof.Machine

open Sys2Proof

theorem State.plainWrite_keeps {s0 s : State} (a : Nat) (v : Word)  (h : Keeps s0 s) :
    Keeps s0 (State.plainWrite s a v) := by
  unfold State.plainWrite
  iterate 60 (all_goals (try (first | with_reducible assumption | with_reducible apply State.setReg_keeps | split | dsimp -zeta only)))

theorem State.writeAlarm_keeps {s0 s : State} (k : Nat) (v : Word)  (h : Keeps s0 s) :
    Keeps s0 (State.writeAlarm s k v) := by
  unfold State.writeAlarm
  iterate 60 (all_goals (try (first | with_reducible assumption | with_reducible apply State.event_keeps | with_reducible apply State.plainWrite_keeps | with_reducible apply State.setFlag_keeps | with_reducible apply State.setFld_keeps | (extract_lets +onlyGivenNames x; first | (apply cut (p := Keeps s0 x); (case' hp => dsimp -zeta only [x]; clear x); (case' hq => clear_value x; revert x; intro _ _)) | (clear_value x; revert x; intro _)) | split)))

theorem State.writeEccMode_keeps {s0 s : State} (v : Word)  (h : Keeps s0 s) :
    Keeps s0 (State.writeEccMode s v) := by
  unfold State.writeEccMode
  iterate 60 (all_goals (try (first | with_reducible assumption | with_reducible apply State.setEccMode_keeps | with_reducible apply State.setFlag_keeps | (extract_lets +onlyGivenNames x; first | (apply cut (p := Keeps s0 x); (case' hp => dsimp -zeta only [x]; clear x); (case' hq => clear_value x; revert x; intro _ _)) | (clear_value x; revert x; intro _)) | split)))

theorem State.writeEccInj_keeps {s0 s : State} (v : Word)  (h : Keeps s0 s) :
    Keeps s0 (State.writeEccInj s v) := by
  unfold State.writeEccInj
  iterate 60 (all_goals (try (first | with_reducible assumption | with_reducible apply State.plainWrite_keeps | with_reducible apply State.setFlag_keeps | (extract_lets +onlyGivenNames x; first | (apply cut (p := Keeps s0 x); (case' hp => dsimp -zeta only [x]; clear x); (case' hq => clear_value x; revert x; intro _ _)) | (clear_value x; revert x; intro _)) | split)))

theorem State.modFeatures_keeps {s0 s : State} (f : Features → Features)  (h : Keeps s0 s) :
    Keeps s0 (State.modFeatures s f) := by
  unfold State.modFeatures
  iterate 60 (all_goals (try (first | with_reducible assumption | with_reducible exact fun w => w | (intro _; try dsimp -zeta only) | (extract_lets +onlyGivenNames x; first | (apply cut (p := Keeps s0 x); (case' hp => dsimp -zeta only [x]; clear x); (case' hq => clear_value x; revert x; intro _ _)) | (clear_value x; revert x; intro _)) | with_reducible apply Keeps.upd)))

theorem State.lockPatina_keeps {s0 s : State}   (h : Keeps s0 s) :
    Keeps s0 (State.lockPatina s) := by
  unfold State.lockPatina
  iterate 60 (all_goals (try (first | with_reducible assumption | with_reducible apply State.event_keeps | with_reducible exact fun w => w | (intro _; try dsimp -zeta only) | (extract_lets +onlyGivenNames x; first | (apply cut (p := Keeps s0 x); (case' hp => dsimp -zeta only [x]; clear x); (case' hq => clear_value x; revert x; intro _ _)) | (clear_value x; revert x; intro _)) | split | with_reducible apply Keeps.upd)))

theorem State.writeErrTest_keeps {s0 s : State} (v : Word)  (h : Keeps s0 s) :
    Keeps s0 (State.writeErrTest s v) := by
  unfold State.writeErrTest
  iterate 60 (all_goals (try (first | with_reducible assumption | with_reducible apply State.setFlag_keeps | with_reducible exact fun w => w | (intro _; try dsimp -zeta only) | (extract_lets +onlyGivenNames x; first | (apply cut (p := Keeps s0 x); (case' hp => dsimp -zeta only [x]; clear x); (case' hq => clear_value x; revert x; intro _ _)) | (clear_value x; revert x; intro _)) | split | with_reducible apply Keeps.upd)))

theorem State.writeHifCtrl_keeps {s0 s : State} (v : Word)  (h : Keeps s0 s) :
    Keeps s0 (State.writeHifCtrl s v) := by
  unfold State.writeHifCtrl
  iterate 60 (all_goals (try (first | with_reducible assumption | with_reducible apply State.endAssoc_keeps | with_reducible apply State.modHost_keeps | with_reducible apply State.plainWrite_keeps | with_reducible exact fun w => w | (intro _; try dsimp -zeta only) | (extract_lets +onlyGivenNames x; first | (apply cut (p := Keeps s0 x); (case' hp => dsimp -zeta only [x]; clear x); (case' hq => clear_value x; revert x; intro _ _)) | (clear_value x; revert x; intro _)) | split | with_reducible apply Keeps.upd)))

theorem State.bootFree_keeps {s0 s : State} (h : Keeps s0 s) : Keeps s0 s.bootFree.2 :=
  ⟨fun w => h.1 w, h.2.1, Nat.le_trans h.2.2 (Nat.le_succ _)⟩

theorem State.writeReset_keeps {s0 s : State} (v : Word) (b : Option Boot)  (h : Keeps s0 s) :
    Keeps s0 (State.writeReset s v b) := by
  unfold State.writeReset
  iterate 60 (all_goals (try (first | with_reducible assumption | with_reducible apply State.bootFree_keeps | with_reducible apply State.deviceReset_keeps | (extract_lets +onlyGivenNames x; first | (apply cut (p := Keeps s0 x); (case' hp => dsimp -zeta only [x]; clear x); (case' hq => clear_value x; revert x; intro _ _)) | (apply cut (p := Keeps s0 x.2); (case' hp => dsimp -zeta only [x]; clear x); (case' hq => clear_value x; revert x; intro _ _)) | (clear_value x; revert x; intro _)) | split | dsimp -zeta only)))

theorem State.writeQstat_keeps {s0 s : State} (q : Nat) (v : Word)  (h : Keeps s0 s) :
    Keeps s0 (State.writeQstat s q v) := by
  unfold State.writeQstat
  iterate 60 (all_goals (try (first | with_reducible assumption | with_reducible apply State.modQueue_keeps | with_reducible exact fun w => w | (intro _; try dsimp -zeta only) | (extract_lets +onlyGivenNames x; first | (apply cut (p := Keeps s0 x); (case' hp => dsimp -zeta only [x]; clear x); (case' hq => clear_value x; revert x; intro _ _)) | (clear_value x; revert x; intro _)) | split | with_reducible apply Keeps.upd)))

theorem State.performWrite_keeps {s0 s : State} (a : Nat) (v : Word)  (h : Keeps s0 s) :
    Keeps s0 (State.performWrite s a v) := by
  unfold State.performWrite
  iterate 60 (all_goals (try (first | with_reducible assumption | with_reducible apply State.alarmSet_keeps | with_reducible apply State.cfgCommand_keeps | with_reducible apply State.funcRequest_keeps | with_reducible apply State.glkWrite_keeps | with_reducible apply State.lockPatina_keeps | with_reducible apply State.modFeatures_keeps | with_reducible apply State.plainWrite_keeps | with_reducible apply State.requestApproach_keeps | with_reducible apply State.traceWrite_keeps | with_reducible apply State.wakeClaim_keeps | with_reducible apply State.writeAlarm_keeps | with_reducible apply State.writeConfig_keeps | with_reducible apply State.writeEccInj_keeps | with_reducible apply State.writeEccMode_keeps | with_reducible apply State.writeErrTest_keeps | with_reducible apply State.writeHifCtrl_keeps | with_reducible apply State.writeIsns_keeps | with_reducible apply State.writePscAcc_keeps | with_reducible apply State.writeQstat_keeps | with_reducible apply State.writeReset_keeps | with_reducible apply State.writeSpnCmd_keeps | with_reducible apply State.writeStgclaim_keeps | with_reducible exact fun w => w | (intro _; try dsimp -zeta only) | (extract_lets +onlyGivenNames x; first | (apply cut (p := Keeps s0 x); (case' hp => dsimp -zeta only [x]; clear x); (case' hq => clear_value x; revert x; intro _ _)) | (clear_value x; revert x; intro _)) | split | with_reducible apply Keeps.upd | dsimp -zeta only)))

theorem State.clearRead_keeps {s0 s : State} (a : Nat)  (h : Keeps s0 s) :
    Keeps s0 (State.clearRead s a) := by
  unfold State.clearRead
  iterate 60 (all_goals (try (first | with_reducible assumption | with_reducible apply State.setReg_keeps | (intro _; try dsimp -zeta only) | (extract_lets +onlyGivenNames x; first | (apply cut (p := Keeps s0 x); (case' hp => dsimp -zeta only [x]; clear x); (case' hq => clear_value x; revert x; intro _ _)) | (clear_value x; revert x; intro _)) | split | dsimp -zeta only)))

theorem State.performRead_keeps {s0 s : State} (p : Path) (a : Nat)  (h : Keeps s0 s) :
    Keeps s0 (State.performRead s p a) := by
  unfold State.performRead
  iterate 60 (all_goals (try (first | with_reducible assumption | with_reducible apply State.clearRead_keeps | with_reducible apply State.event_keeps | with_reducible exact fun w => w | with_reducible exact RegFile.putAll_sorted _ | with_reducible exact RegFile.filter_sorted _ | with_reducible exact fun w => RegFile.putAll_sorted _ (RegFile.filter_sorted _ w) | (intro _; try dsimp -zeta only) | (extract_lets +onlyGivenNames x; first | (apply cut (p := Keeps s0 x); (case' hp => dsimp -zeta only [x]; clear x); (case' hq => clear_value x; revert x; intro _ _)) | (clear_value x; revert x; intro _)) | split | with_reducible apply Keeps.upd | with_reducible exact Nat.le_add_right _ _ | with_reducible apply Keeps.updFresh | dsimp -zeta only)))

theorem State.readAt_keeps {s0 s : State} (p : Path) (a : Nat)  (h : Keeps s0 s) :
    Keeps s0 (State.readAt s p a) := by
  unfold State.readAt
  iterate 60 (all_goals (try (first | with_reducible assumption | with_reducible apply State.performRead_keeps | split)))

theorem execLowWordRead_keeps {s0 s : State} (path : Path) (addr : Nat)  (h : Keeps s0 s) :
    Goes s0 (execLowWordRead path addr s) := by
  unfold execLowWordRead
  iterate 60 (all_goals (try (first | with_reducible assumption | with_reducible apply goes_next | with_reducible apply State.readAt_keeps)))

theorem execClearOnRead_keeps {s0 s : State} (path : Path) (addr : Nat)  (h : Keeps s0 s) :
    Goes s0 (execClearOnRead path addr s) := by
  unfold execClearOnRead
  iterate 60 (all_goals (try (first | with_reducible assumption | with_reducible apply goes_next | with_reducible apply State.readAt_keeps)))

theorem execPlainRegisterWrite_keeps {s0 s : State} (path : Path) (assoc : Nat) (addr : Nat) (nbytes : Nat) (value : Word)  (h : Keeps s0 s) :
    Goes s0 (execPlainRegisterWrite path assoc addr nbytes value s) := by
  unfold execPlainRegisterWrite
  iterate 60 (all_goals (try (first | with_reducible assumption | with_reducible apply goes_next | with_reducible apply State.ownerReg_keeps | with_reducible apply State.performWrite_keeps | (intro _; try dsimp -zeta only) | split)))

theorem State.accessAgain_keeps {s0 s : State} (h' : HeldReg)  (h : Keeps s0 s) :
    Keeps s0 (State.accessAgain s h') := by
  unfold State.accessAgain
  iterate 60 (all_goals (try (first | with_reducible assumption | with_reducible apply State.ownerReg_keeps | with_reducible apply State.performRead_keeps | with_reducible apply State.performWrite_keeps | (intro _; try dsimp -zeta only) | split)))

theorem State.performHeldRegs_keeps {s0 s : State}   (h : Keeps s0 s) :
    Keeps s0 (State.performHeldRegs s) := by
  unfold State.performHeldRegs
  iterate 60 (all_goals (try (first | with_reducible assumption | with_reducible apply State.accessAgain_keeps | with_reducible apply foldl_keeps | with_reducible exact fun w => w | (intro _; try dsimp -zeta only) | (extract_lets +onlyGivenNames x; first | (apply cut (p := Keeps s0 x); (case' hp => dsimp -zeta only [x]; clear x); (case' hq => clear_value x; revert x; intro _ _)) | (clear_value x; revert x; intro _)) | with_reducible apply Keeps.upd)))

theorem State.endHeldRegs_keeps {s0 s : State} (r : Nat)  (h : Keeps s0 s) :
    Keeps s0 (State.endHeldRegs s r) := by
  unfold State.endHeldRegs
  iterate 60 (all_goals (try (first | with_reducible assumption | with_reducible apply State.accessAgain_keeps | with_reducible apply State.event_keeps | with_reducible apply foldl_keeps | with_reducible exact fun w => w | (intro _; try dsimp -zeta only) | (extract_lets +onlyGivenNames x; first | (apply cut (p := Keeps s0 x); (case' hp => dsimp -zeta only [x]; clear x); (case' hq => clear_value x; revert x; intro _ _)) | (clear_value x; revert x; intro _)) | split | with_reducible apply Keeps.upd)))

theorem State.endRegionWaits_keeps {s0 s : State} (r : Nat)  (h : Keeps s0 s) :
    Keeps s0 (State.endRegionWaits s r) := by
  unfold State.endRegionWaits
  iterate 60 (all_goals (try (first | with_reducible assumption | with_reducible apply State.complete_keeps | with_reducible apply State.event_keeps | with_reducible apply foldl_keeps | (intro _; try dsimp -zeta only) | (extract_lets +onlyGivenNames x; first | (apply cut (p := Keeps s0 x); (case' hp => dsimp -zeta only [x]; clear x); (case' hq => clear_value x; revert x; intro _ _)) | (have hx : _ → State := x; clear hx; dsimp -zeta only [x]; clear x) | (have hx : _ → _ → State := x; clear hx; dsimp -zeta only [x]; clear x) | (have hx : _ → _ × State := x; clear hx; dsimp -zeta only [x]; clear x) | (clear_value x; revert x; intro _)) | split | dsimp -zeta only)))

theorem execEccModeWrite_keeps {s0 s : State} (assoc : Nat) (value : Word)  (h : Keeps s0 s) :
    Goes s0 (execEccModeWrite assoc value s) := by
  unfold execEccModeWrite
  iterate 60 (all_goals (try (first | with_reducible assumption | with_reducible apply goes_next | with_reducible apply State.ownerReg_keeps | with_reducible apply State.writeEccMode_keeps | (intro _; try dsimp -zeta only))))

theorem execEccInjArm_keeps {s0 s : State} (assoc : Nat) (value : Word)  (h : Keeps s0 s) :
    Goes s0 (execEccInjArm assoc value s) := by
  unfold execEccInjArm
  iterate 60 (all_goals (try (first | with_reducible assumption | with_reducible apply goes_next | with_reducible apply State.ownerReg_keeps | with_reducible apply State.writeEccInj_keeps | (intro _; try dsimp -zeta only) | (extract_lets +onlyGivenNames x; first | (apply cut (p := Keeps s0 x); (case' hp => dsimp -zeta only [x]; clear x); (case' hq => clear_value x; revert x; intro _ _)) | (clear_value x; revert x; intro _)))))

theorem execPcieEnWrite_keeps {s0 s : State} (assoc : Nat) (value : Word)  (h : Keeps s0 s) :
    Goes s0 (execPcieEnWrite assoc value s) := by
  unfold execPcieEnWrite
  iterate 60 (all_goals (try (first | with_reducible assumption | with_reducible apply goes_next | with_reducible apply State.ownerReg_keeps | with_reducible apply State.writeHifCtrl_keeps | (intro _; try dsimp -zeta only))))

theorem execErrTest_keeps {s0 s : State} (assoc : Nat) (value : Word)  (h : Keeps s0 s) :
    Goes s0 (execErrTest assoc value s) := by
  unfold execErrTest
  iterate 60 (all_goals (try (first | with_reducible assumption | with_reducible apply goes_next | with_reducible apply State.ownerReg_keeps | with_reducible apply State.writeErrTest_keeps | (intro _; try dsimp -zeta only) | (extract_lets +onlyGivenNames x; first | (apply cut (p := Keeps s0 x); (case' hp => dsimp -zeta only [x]; clear x); (case' hq => clear_value x; revert x; intro _ _)) | (clear_value x; revert x; intro _)))))

theorem execPatinaLock_keeps {s0 s : State} (assoc : Nat)  (h : Keeps s0 s) :
    Goes s0 (execPatinaLock assoc s) := by
  unfold execPatinaLock
  iterate 60 (all_goals (try (first | with_reducible assumption | with_reducible apply goes_next | with_reducible apply State.lockPatina_keeps | with_reducible apply State.ownerReg_keeps | (intro _; try dsimp -zeta only))))

theorem execDeviceReset_keeps {s0 s : State} (assoc : Nat) (value : Word) (subsystem : Bool) (boot : Boot)  (h : Keeps s0 s) :
    Goes s0 (execDeviceReset assoc value subsystem boot s) := by
  unfold execDeviceReset
  iterate 60 (all_goals (try (first | with_reducible assumption | with_reducible apply goes_next | with_reducible apply State.deviceReset_keeps | with_reducible apply State.ownerReg_keeps | with_reducible apply State.writeReset_keeps | (intro _; try dsimp -zeta only) | split)))

theorem execAlarmClaim_keeps {s0 s : State} (assoc : Nat) (k : Fin 8) (value : Word)  (h : Keeps s0 s) :
    Goes s0 (execAlarmClaim assoc k value s) := by
  unfold execAlarmClaim
  iterate 60 (all_goals (try (first | with_reducible assumption | with_reducible apply goes_next | with_reducible apply State.ownerReg_keeps | with_reducible apply State.writeAlarm_keeps | (intro _; try dsimp -zeta only) | (extract_lets +onlyGivenNames x; first | (apply cut (p := Keeps s0 x); (case' hp => dsimp -zeta only [x]; clear x); (case' hq => clear_value x; revert x; intro _ _)) | (clear_value x; revert x; intro _)))))

theorem execAlarmRelease_keeps {s0 s : State} (assoc : Nat) (k : Fin 8)  (h : Keeps s0 s) :
    Goes s0 (execAlarmRelease assoc k s) := by
  unfold execAlarmRelease
  iterate 60 (all_goals (try (first | with_reducible assumption | with_reducible apply goes_next | with_reducible apply State.ownerReg_keeps | with_reducible apply State.writeAlarm_keeps | (intro _; try dsimp -zeta only) | (extract_lets +onlyGivenNames x; first | (apply cut (p := Keeps s0 x); (case' hp => dsimp -zeta only [x]; clear x); (case' hq => clear_value x; revert x; intro _ _)) | (clear_value x; revert x; intro _)))))

theorem execFuncStop_keeps {s0 s : State} (assoc : Nat) (func : Nat)  (h : Keeps s0 s) :
    Goes s0 (execFuncStop assoc func s) := by
  unfold execFuncStop
  iterate 60 (all_goals (try (first | with_reducible assumption | with_reducible apply goes_next | with_reducible apply State.funcRequest_keeps | with_reducible apply State.ownerReg_keeps | (intro _; try dsimp -zeta only) | split)))

theorem execFuncRestart_keeps {s0 s : State} (assoc : Nat) (func : Nat)  (h : Keeps s0 s) :
    Goes s0 (execFuncRestart assoc func s) := by
  unfold execFuncRestart
  iterate 60 (all_goals (try (first | with_reducible assumption | with_reducible apply goes_next | with_reducible apply State.funcRequest_keeps | with_reducible apply State.ownerReg_keeps | (intro _; try dsimp -zeta only) | split)))

theorem execFuncAbandon_keeps {s0 s : State} (assoc : Nat) (func : Nat)  (h : Keeps s0 s) :
    Goes s0 (execFuncAbandon assoc func s) := by
  unfold execFuncAbandon
  iterate 60 (all_goals (try (first | with_reducible assumption | with_reducible apply goes_next | with_reducible apply State.funcRequest_keeps | with_reducible apply State.ownerReg_keeps | (intro _; try dsimp -zeta only) | split)))

theorem execCfgStore_keeps {s0 s : State} (assoc : Nat)  (h : Keeps s0 s) :
    Goes s0 (execCfgStore assoc s) := by
  unfold execCfgStore
  iterate 60 (all_goals (try (first | with_reducible assumption | with_reducible apply goes_next | with_reducible apply State.cfgCommand_keeps | with_reducible apply State.ownerReg_keeps | (intro _; try dsimp -zeta only))))

theorem execCfgCapture_keeps {s0 s : State} (assoc : Nat) (func : Nat)  (h : Keeps s0 s) :
    Goes s0 (execCfgCapture assoc func s) := by
  unfold execCfgCapture
  iterate 60 (all_goals (try (first | with_reducible assumption | with_reducible apply goes_next | with_reducible apply State.cfgCommand_keeps | with_reducible apply State.ownerReg_keeps | (intro _; try dsimp -zeta only))))

theorem execCfgRemove_keeps {s0 s : State} (assoc : Nat)  (h : Keeps s0 s) :
    Goes s0 (execCfgRemove assoc s) := by
  unfold execCfgRemove
  iterate 60 (all_goals (try (first | with_reducible assumption | with_reducible apply goes_next | with_reducible apply State.cfgCommand_keeps | with_reducible apply State.ownerReg_keeps | (intro _; try dsimp -zeta only))))

theorem execCfgStoreDone_keeps {s0 s : State} (ok : Bool)  (h : Keeps s0 s) :
    Goes s0 (execCfgStoreDone ok s) := by
  unfold execCfgStoreDone
  iterate 60 (all_goals (try (first | with_reducible assumption | with_reducible apply goes_next | with_reducible apply State.cfgDone_keeps)))

end Sys2Proof.Machine
end

