-- ==== Sys2Proof/Laws/Keeps/MediaCmd.lean ====
section
/-! SUPPORT. Machine/MediaCmd.lean: each of its operations keeps the canonical forms, the queue and the order of free values. -/

namespace Sys2Proof.Machine

open Sys2Proof

theorem State.readLbas_keeps {s0 s : State} (sp : Namespace) (ns : Nat) (lbas : List Nat)  (h : Keeps s0 s) :
    Keeps s0 (State.readLbas s sp ns lbas).2 := by
  unfold State.readLbas
  iterate 60 (all_goals (try (first | with_reducible assumption | with_reducible apply State.addUnrec_keeps | with_reducible apply foldl_keeps | with_reducible apply foldl_keeps_snd | with_reducible exact fun w => w | with_reducible exact insertKey_rise _ _ | (intro _; try dsimp -zeta only) | (extract_lets +onlyGivenNames x; first | (apply cut (p := Keeps s0 x); (case' hp => dsimp -zeta only [x]; clear x); (case' hq => clear_value x; revert x; intro _ _)) | (apply cut (p := Keeps s0 x.2); (case' hp => dsimp -zeta only [x]; clear x); (case' hq => clear_value x; revert x; intro _ _)) | (have hx : _ → State := x; clear hx; dsimp -zeta only [x]; clear x) | (have hx : _ → _ → State := x; clear hx; dsimp -zeta only [x]; clear x) | (have hx : _ → _ × State := x; clear hx; dsimp -zeta only [x]; clear x) | (have hx := x.wsnBlock; clear hx; dsimp -zeta only [x]; clear x) | (clear_value x; revert x; intro _)) | split | with_reducible apply Keeps.upd | dsimp -zeta only)))

theorem State.listReads_keeps {s0 s : State} (c : Ctx) (xs : List Nat)  (h : Keeps s0 s) :
    Keeps s0 (State.listReads s c xs) := by
  unfold State.listReads
  iterate 60 (all_goals (try (first | with_reducible assumption | with_reducible apply State.modSeq_keeps | with_reducible apply foldl_keeps | with_reducible exact fun w => w | (intro _; try dsimp -zeta only) | (extract_lets +onlyGivenNames x; first | (apply cut (p := Keeps s0 x); (case' hp => dsimp -zeta only [x]; clear x); (case' hq => clear_value x; revert x; intro _ _)) | (have hx : _ → State := x; clear hx; dsimp -zeta only [x]; clear x) | (have hx : _ → _ → State := x; clear hx; dsimp -zeta only [x]; clear x) | (have hx : _ → _ × State := x; clear hx; dsimp -zeta only [x]; clear x) | (have hx := x.wsnBlock; clear hx; dsimp -zeta only [x]; clear x) | (clear_value x; revert x; intro _)) | split | with_reducible apply Keeps.upd | dsimp -zeta only)))

theorem State.reading_keeps {s0 s : State} (x : Ctx) (sp : Namespace) (ns : Nat) (lbas : List Nat)
    (k : List (List Byte) → State → State) (hk : ∀ b t, Keeps s0 t → Keeps s0 (k b t)) (h : Keeps s0 s) :
    Keeps s0 (State.reading s x sp ns lbas k) := by
  have h1 := State.readLbas_keeps sp ns lbas h
  have h2 (xs : List Nat) (w : Wait) := State.waitFor_keeps x w (State.listReads_keeps x xs h)
  unfold State.reading
  generalize State.readLbas s sp ns lbas = p at h1 ⊢
  dsimp only
  split
  · exact h2 _ _
  · exact h2 _ _
  · exact State.complete_keeps _ _ _ _ _ _ _ h1
  · exact hk _ _ h1

theorem State.noteLaunch_keeps {s0 s : State} (x : Ctx)  (h : Keeps s0 s) :
    Keeps s0 (State.noteLaunch s x) := by
  unfold State.noteLaunch
  iterate 60 (all_goals (try (first | with_reducible assumption | with_reducible apply State.modCtx_keeps | with_reducible exact fun w => w | with_reducible exact insertKey_rise _ _ | (intro _; try dsimp -zeta only) | (extract_lets +onlyGivenNames x; first | (apply cut (p := Keeps s0 x); (case' hp => dsimp -zeta only [x]; clear x); (case' hq => clear_value x; revert x; intro _ _)) | (have hx := x.wsnBlock; clear hx; dsimp -zeta only [x]; clear x) | (clear_value x; revert x; intro _)) | split | with_reducible apply Keeps.upd)))

theorem State.withLock_keeps {s0 s : State} (x : Ctx) (i : Instr) (f : State → State) (hf : ∀ t, Keeps s0 t → Keeps s0 (f t)) (h : Keeps s0 s) :
    Keeps s0 (State.withLock s x i f) := by
  unfold State.withLock
  iterate 60 (all_goals (try (first | with_reducible assumption | with_reducible apply hf | with_reducible apply State.addLock_keeps | with_reducible apply State.waitFor_keeps | (extract_lets +onlyGivenNames x; first | (apply cut (p := Keeps s0 x); (case' hp => dsimp -zeta only [x]; clear x); (case' hq => clear_value x; revert x; intro _ _)) | (clear_value x; revert x; intro _)) | split | dsimp -zeta only)))

theorem State.dropWrite_keeps {s0 s : State} (a : Nat) (q : Nat) (c : Nat)  (h : Keeps s0 s) :
    Keeps s0 (State.dropWrite s a q c) := by
  unfold State.dropWrite
  iterate 60 (all_goals (try (first | with_reducible assumption | with_reducible apply State.dropList_keeps | with_reducible apply State.modMedia_keeps | with_reducible exact fun w => w | (intro _; try dsimp -zeta only) | (extract_lets +onlyGivenNames x; first | (apply cut (p := Keeps s0 x); (case' hp => dsimp -zeta only [x]; clear x); (case' hq => clear_value x; revert x; intro _ _)) | (clear_value x; revert x; intro _)) | with_reducible apply Keeps.upd)))

theorem State.addWrite_keeps {s0 s : State} (x : Ctx) (sp : Namespace) (ns : Nat) (lbas : List Nat) (data : List Byte) (dealloc : List Nat) (dw0 : Nat) (dw1 : Nat)  (h : Keeps s0 s) :
    Keeps s0 (State.addWrite s x sp ns lbas data dealloc dw0 dw1) := by
  unfold State.addWrite
  iterate 60 (all_goals (try (first | with_reducible assumption | with_reducible apply State.forActs_keeps | with_reducible apply State.modMedia_keeps | with_reducible apply State.modSeq_keeps | with_reducible apply State.waitFor_keeps | with_reducible exact fun w => w | (intro _; try dsimp -zeta only) | (extract_lets +onlyGivenNames x; first | (apply cut (p := Keeps s0 x); (case' hp => dsimp -zeta only [x]; clear x); (case' hq => clear_value x; revert x; intro _ _)) | (have hx := x.wsnBlock; clear hx; dsimp -zeta only [x]; clear x) | (clear_value x; revert x; intro _)) | with_reducible apply Keeps.upd)))

theorem State.beginWrite_keeps {s0 s : State} (x : Ctx) (sp : Namespace) (ns : Nat) (touched : List Nat) (lbas : List Nat) (data : List Byte) (dealloc : List Nat) (dw0 : Nat) (dw1 : Nat)  (h : Keeps s0 s) :
    Keeps s0 (State.beginWrite s x sp ns touched lbas data dealloc dw0 dw1) := by
  unfold State.beginWrite
  iterate 60 (all_goals (try (first | with_reducible assumption | with_reducible apply State.addWrite_keeps | with_reducible apply State.complete_keeps | with_reducible apply State.waitFor_keeps | (intro _; try dsimp -zeta only) | split | dsimp -zeta only)))

theorem State.putSector_keeps {s0 s : State} (x : Nat) (d : List Byte)  (h : Keeps s0 s) :
    Keeps s0 (State.putSector s x d) := by
  unfold State.putSector
  iterate 60 (all_goals (try (first | with_reducible assumption | with_reducible apply State.forget_keeps | with_reducible apply State.modMedia_keeps | with_reducible apply State.noteWritten_keeps | with_reducible apply State.recordSector_keeps | with_reducible exact fun w => w | (intro _; try dsimp -zeta only) | (extract_lets +onlyGivenNames x; first | (apply cut (p := Keeps s0 x); (case' hp => dsimp -zeta only [x]; clear x); (case' hq => clear_value x; revert x; intro _ _)) | (have hx := x.wsnBlock; clear hx; dsimp -zeta only [x]; clear x) | (clear_value x; revert x; intro _)) | with_reducible apply Keeps.upd)))

theorem State.writeOne_keeps {s0 s : State} (w : PendWrite) (sp : Namespace) (k : Nat)  (h : Keeps s0 s) :
    Keeps s0 (State.writeOne s w sp k).2 := by
  unfold State.writeOne
  iterate 60 (all_goals (try (first | with_reducible assumption | with_reducible apply State.makeRoom_keeps | with_reducible apply State.putSector_keeps | with_reducible apply State.unclean_keeps | with_reducible apply foldl_keeps | with_reducible apply foldl_keeps_snd | (intro _; try dsimp -zeta only) | (extract_lets +onlyGivenNames x; first | (apply cut (p := Keeps s0 x); (case' hp => dsimp -zeta only [x]; clear x); (case' hq => clear_value x; revert x; intro _ _)) | (apply cut (p := Keeps s0 x.2); (case' hp => dsimp -zeta only [x]; clear x); (case' hq => clear_value x; revert x; intro _ _)) | (clear_value x; revert x; intro _)) | split | dsimp -zeta only)))

theorem State.writeRest_keeps {s0 s : State} (w : PendWrite) (sp : Namespace) (l : List Nat) (h : Keeps s0 s) :
    Keeps s0 (State.writeRest s w sp l).2 := by
  induction l generalizing s with
  | nil => exact h
  | cons a r ih => exact ih (State.writeOne_keeps w sp a h)

theorem State.deallocUnit_keeps {s0 s : State} (ns : Nat) (sp : Namespace) (u : Nat)  (h : Keeps s0 s) :
    Keeps s0 (State.deallocUnit s ns sp u) := by
  unfold State.deallocUnit
  iterate 60 (all_goals (try (first | with_reducible assumption | with_reducible apply State.cleanUnit_keeps | with_reducible apply State.modMedia_keeps | with_reducible apply State.nowTrails_keeps | with_reducible exact fun w => w | (intro _; try dsimp -zeta only) | (extract_lets +onlyGivenNames x; first | (apply cut (p := Keeps s0 x); (case' hp => dsimp -zeta only [x]; clear x); (case' hq => clear_value x; revert x; intro _ _)) | (have hx := x.wsnBlock; clear hx; dsimp -zeta only [x]; clear x) | (clear_value x; revert x; intro _)) | split | with_reducible apply Keeps.upd | dsimp -zeta only)))

theorem execMediaWriteDone_keeps {s0 s : State} (assoc : Nat) (qid : Nat) (cid : Nat)  (h : Keeps s0 s) :
    Goes s0 (execMediaWriteDone assoc qid cid s) := by
  unfold execMediaWriteDone
  iterate 60 (all_goals (try (first | with_reducible assumption | with_reducible apply goes_next | with_reducible apply State.clearUnrec_keeps | with_reducible apply State.complete_keeps | with_reducible apply State.deallocUnit_keeps | with_reducible apply State.dropWrite_keeps | with_reducible apply State.modMedia_keeps | with_reducible apply State.writePass_keeps | with_reducible apply State.writeRest_keeps | with_reducible apply foldl_keeps | with_reducible apply foldl_keeps_snd | exact (fun _ w => w : ∀ m : Media, keysRise m.sectors = true → keysRise m.skipBlock.sectors = true) | exact (fun _ w => w : ∀ m : Media, keysRise m.sectors = true → keysRise m.pass.sectors = true) | with_reducible exact fun w => w | (intro _; try dsimp -zeta only) | (extract_lets +onlyGivenNames x; first | (apply cut (p := Keeps s0 x); (case' hp => dsimp -zeta only [x]; clear x); (case' hq => clear_value x; revert x; intro _ _)) | (apply cut (p := Keeps s0 x.2); (case' hp => dsimp -zeta only [x]; clear x); (case' hq => clear_value x; revert x; intro _ _)) | (have hx := x.wsnBlock; clear hx; dsimp -zeta only [x]; clear x) | (clear_value x; revert x; intro _)) | split | with_reducible apply Keeps.upd | dsimp -zeta only)))

theorem State.bodyRead_keeps {s0 s : State} (x : Ctx) (i : Instr) (c : Cmd)  (h : Keeps s0 s) :
    Keeps s0 (State.bodyRead s x i c) := by
  unfold State.bodyRead
  iterate 60 (all_goals (try (first | with_reducible assumption | with_reducible apply State.complete_keeps | with_reducible apply State.noteLaunch_keeps | with_reducible apply State.reading_keeps | with_reducible apply State.withLock_keeps | (intro _; try dsimp -zeta only) | split | dsimp -zeta only)))

theorem State.bodyWrite_keeps {s0 s : State} (x : Ctx) (i : Instr) (c : Cmd)  (h : Keeps s0 s) :
    Keeps s0 (State.bodyWrite s x i c) := by
  unfold State.bodyWrite
  iterate 60 (all_goals (try (first | with_reducible assumption | with_reducible apply State.beginWrite_keeps | with_reducible apply State.complete_keeps | with_reducible apply State.withLock_keeps | (intro _; try dsimp -zeta only) | (extract_lets +onlyGivenNames x; first | (apply cut (p := Keeps s0 x); (case' hp => dsimp -zeta only [x]; clear x); (case' hq => clear_value x; revert x; intro _ _)) | (clear_value x; revert x; intro _)) | split | dsimp -zeta only)))

theorem State.bodyWriteZeroes_keeps {s0 s : State} (x : Ctx) (i : Instr) (c : Cmd)  (h : Keeps s0 s) :
    Keeps s0 (State.bodyWriteZeroes s x i c) := by
  unfold State.bodyWriteZeroes
  iterate 60 (all_goals (try (first | with_reducible assumption | with_reducible apply State.beginWrite_keeps | with_reducible apply State.complete_keeps | with_reducible apply State.withLock_keeps | (intro _; try dsimp -zeta only) | (extract_lets +onlyGivenNames x; first | (apply cut (p := Keeps s0 x); (case' hp => dsimp -zeta only [x]; clear x); (case' hq => clear_value x; revert x; intro _ _)) | (clear_value x; revert x; intro _)) | split | dsimp -zeta only)))

theorem State.bodyDatasetManagement_keeps {s0 s : State} (x : Ctx) (i : Instr) (c : Cmd)  (h : Keeps s0 s) :
    Keeps s0 (State.bodyDatasetManagement s x i c) := by
  unfold State.bodyDatasetManagement
  iterate 60 (all_goals (try (first | with_reducible assumption | with_reducible apply State.beginWrite_keeps | with_reducible apply State.complete_keeps | with_reducible apply State.withLock_keeps | (intro _; try dsimp -zeta only) | (extract_lets +onlyGivenNames x; first | (apply cut (p := Keeps s0 x); (case' hp => dsimp -zeta only [x]; clear x); (case' hq => clear_value x; revert x; intro _ _)) | (clear_value x; revert x; intro _)) | split | dsimp -zeta only)))

theorem State.bodyFlush_keeps {s0 s : State} (x : Ctx) (c : Cmd)  (h : Keeps s0 s) :
    Keeps s0 (State.bodyFlush s x c) := by
  unfold State.bodyFlush
  iterate 60 (all_goals (try (first | with_reducible assumption | with_reducible apply State.complete_keeps | split)))

theorem State.launchAt_keeps {s0 s : State} (x : Ctx) (l : Nat) (theta : Option Nat) (k : State → State) (hk : ∀ t, Keeps s0 t → Keeps s0 (k t)) (h : Keeps s0 s) :
    Keeps s0 (State.launchAt s x l theta k) := by
  unfold State.launchAt
  iterate 60 (all_goals (try (first | with_reducible assumption | with_reducible apply hk | with_reducible apply State.modCtx_keeps | with_reducible apply State.waitFor_keeps | with_reducible exact fun w => w | (intro _; try dsimp -zeta only) | (extract_lets +onlyGivenNames x; first | (apply cut (p := Keeps s0 x); (case' hp => dsimp -zeta only [x]; clear x); (case' hq => clear_value x; revert x; intro _ _)) | (clear_value x; revert x; intro _)) | split | with_reducible apply Keeps.upd)))

theorem State.bodyTimedLaunched_keeps {s0 s : State} (x : Ctx) (i : Instr) (c : Cmd)  (h : Keeps s0 s) :
    Keeps s0 (State.bodyTimedLaunched s x i c) := by
  unfold State.bodyTimedLaunched
  iterate 60 (all_goals (try (first | with_reducible assumption | with_reducible apply State.complete_keeps | with_reducible apply State.noteLaunch_keeps | with_reducible apply State.reading_keeps | with_reducible apply State.withLock_keeps | (intro _; try dsimp -zeta only) | split | dsimp -zeta only)))

theorem State.bodyTimedRead_keeps {s0 s : State} (x : Ctx) (i : Instr) (c : Cmd)  (h : Keeps s0 s) :
    Keeps s0 (State.bodyTimedRead s x i c) := by
  unfold State.bodyTimedRead
  iterate 60 (all_goals (try (first | with_reducible assumption | with_reducible apply State.bodyTimedLaunched_keeps | with_reducible apply State.complete_keeps | with_reducible apply State.launchAt_keeps | (intro _; try dsimp -zeta only) | (extract_lets +onlyGivenNames x; first | (apply cut (p := Keeps s0 x); (case' hp => dsimp -zeta only [x]; clear x); (case' hq => clear_value x; revert x; intro _ _)) | (clear_value x; revert x; intro _)) | split | dsimp -zeta only)))

theorem State.queueJob_keeps {s0 s : State} (x : Ctx) (op : Nat) (level : Nat) (input : List Byte) (space : Nat)  (h : Keeps s0 s) :
    Keeps s0 (State.queueJob s x op level input space) := by
  unfold State.queueJob
  iterate 60 (all_goals (try (first | with_reducible assumption | with_reducible apply State.waitFor_keeps | with_reducible exact fun w => w | (intro _; try dsimp -zeta only) | (extract_lets +onlyGivenNames x; first | (apply cut (p := Keeps s0 x); (case' hp => dsimp -zeta only [x]; clear x); (case' hq => clear_value x; revert x; intro _ _)) | (clear_value x; revert x; intro _)) | with_reducible apply Keeps.upd)))

theorem State.bodyTransform_keeps {s0 s : State} (x : Ctx) (i : Instr) (c : Cmd)  (h : Keeps s0 s) :
    Keeps s0 (State.bodyTransform s x i c) := by
  unfold State.bodyTransform
  iterate 60 (all_goals (try (first | with_reducible assumption | with_reducible apply State.complete_keeps | with_reducible apply State.queueJob_keeps | with_reducible apply State.reading_keeps | with_reducible apply State.withLock_keeps | (intro _; try dsimp -zeta only) | (extract_lets +onlyGivenNames x; first | (apply cut (p := Keeps s0 x); (case' hp => dsimp -zeta only [x]; clear x); (case' hq => clear_value x; revert x; intro _ _)) | (clear_value x; revert x; intro _)) | split | dsimp -zeta only)))

theorem State.writeOutput_keeps {s0 s : State} (x : Ctx) (c : Cmd) (out : List Byte) (dw0 : Nat) (dw1 : Nat)  (h : Keeps s0 s) :
    Keeps s0 (State.writeOutput s x c out dw0 dw1) := by
  unfold State.writeOutput
  iterate 60 (all_goals (try (first | with_reducible assumption | with_reducible apply State.addWrite_keeps | with_reducible apply State.complete_keeps | (intro _; try dsimp -zeta only) | (extract_lets +onlyGivenNames x; first | (apply cut (p := Keeps s0 x); (case' hp => dsimp -zeta only [x]; clear x); (case' hq => clear_value x; revert x; intro _ _)) | (clear_value x; revert x; intro _)) | split | dsimp -zeta only)))

end Sys2Proof.Machine
end

