-- ==== Sys2Proof/Laws/Keeps/MouldCmd.lean ====
section
/-! SUPPORT. Machine/MouldCmd.lean: each of its operations keeps the canonical forms, the queue and the order of free values. -/

namespace Sys2Proof.Machine

open Sys2Proof

theorem State.putMould_keeps {s0 s : State} (m : Mould)  (h : Keeps s0 s) :
    Keeps s0 (State.putMould s m) := by
  unfold State.putMould
  iterate 60 (all_goals (try (first | with_reducible assumption | with_reducible apply State.modCast_keeps | with_reducible exact fun w => w | (intro _; try dsimp -zeta only) | (extract_lets +onlyGivenNames x; first | (apply cut (p := Keeps s0 x); (case' hp => dsimp -zeta only [x]; clear x); (case' hq => clear_value x; revert x; intro _ _)) | (clear_value x; revert x; intro _)) | with_reducible apply Keeps.upd)))

theorem State.writeMould_keeps {s0 s : State} (x : Ctx) (sp : Namespace) (c : Cmd) (d : List Byte)  (h : Keeps s0 s) :
    Keeps s0 (State.writeMould s x sp c d) := by
  unfold State.writeMould
  iterate 60 (all_goals (try (first | with_reducible assumption | with_reducible apply State.complete_keeps | with_reducible apply State.putMould_keeps | (extract_lets +onlyGivenNames x; first | (apply cut (p := Keeps s0 x); (case' hp => dsimp -zeta only [x]; clear x); (case' hq => clear_value x; revert x; intro _ _)) | (clear_value x; revert x; intro _)) | split)))

theorem State.bodyMouldWrite_keeps {s0 s : State} (x : Ctx) (i : Instr) (c : Cmd)  (h : Keeps s0 s) :
    Keeps s0 (State.bodyMouldWrite s x i c) := by
  unfold State.bodyMouldWrite
  iterate 60 (all_goals (try (first | with_reducible assumption | with_reducible apply State.complete_keeps | with_reducible apply State.queueJob_keeps | with_reducible apply State.waitFor_keeps | with_reducible apply State.writeMould_keeps | with_reducible exact fun w => w | with_reducible exact insertKey_rise _ _ | with_reducible exact RegFile.putAll_sorted _ | with_reducible exact RegFile.filter_sorted _ | with_reducible exact fun w => RegFile.putAll_sorted _ (RegFile.filter_sorted _ w) | (intro _; try dsimp -zeta only) | (extract_lets +onlyGivenNames x; first | (apply cut (p := Keeps s0 x); (case' hp => dsimp -zeta only [x]; clear x); (case' hq => clear_value x; revert x; intro _ _)) | (apply cut (p := Keeps s0 x.2); (case' hp => dsimp -zeta only [x]; clear x); (case' hq => clear_value x; revert x; intro _ _)) | (apply cut (p := Keeps s0 x.1); (case' hp => dsimp -zeta only [x]; clear x); (case' hq => clear_value x; revert x; intro _ _)) | (have hx : _ → State := x; clear hx; dsimp -zeta only [x]; clear x) | (have hx : _ → _ → State := x; clear hx; dsimp -zeta only [x]; clear x) | (have hx : _ → _ × State := x; clear hx; dsimp -zeta only [x]; clear x) | (have hx := x.wsnBlock; clear hx; dsimp -zeta only [x]; clear x) | (clear_value x; revert x; intro _)) | split | with_reducible apply Keeps.upd | dsimp -zeta only)))

theorem State.finishWithdraw_keeps {s0 s : State} (x : Ctx) (m : Mould)  (h : Keeps s0 s) :
    Keeps s0 (State.finishWithdraw s x m) := by
  unfold State.finishWithdraw
  iterate 60 (all_goals (try (first | with_reducible assumption | with_reducible apply State.complete_keeps | with_reducible apply State.putMould_keeps | with_reducible exact fun w => w | (intro _; try dsimp -zeta only) | (extract_lets +onlyGivenNames x; first | (apply cut (p := Keeps s0 x); (case' hp => dsimp -zeta only [x]; clear x); (case' hq => clear_value x; revert x; intro _ _)) | (clear_value x; revert x; intro _)) | with_reducible apply Keeps.upd)))

theorem State.bodyMouldCommit_keeps {s0 s : State} (x : Ctx) (i : Instr) (c : Cmd)  (h : Keeps s0 s) :
    Keeps s0 (State.bodyMouldCommit s x i c) := by
  unfold State.bodyMouldCommit
  iterate 60 (all_goals (try (first | with_reducible assumption | with_reducible apply State.complete_keeps | with_reducible apply State.cstErr_keeps | with_reducible apply State.event_keeps | with_reducible apply State.finishWithdraw_keeps | with_reducible apply State.modCast_keeps | with_reducible apply State.putMould_keeps | with_reducible apply State.waitFor_keeps | with_reducible exact fun w => w | (intro _; try dsimp -zeta only) | (extract_lets +onlyGivenNames x; first | (apply cut (p := Keeps s0 x); (case' hp => dsimp -zeta only [x]; clear x); (case' hq => clear_value x; revert x; intro _ _)) | (clear_value x; revert x; intro _)) | split | with_reducible apply Keeps.upd | dsimp -zeta only)))

theorem State.withdrawDone_keeps {s0 s : State} (a : Nat) (q : Nat) (c : Nat)  (h : Keeps s0 s) :
    Keeps s0 (State.withdrawDone s a q c) := by
  unfold State.withdrawDone
  iterate 60 (all_goals (try (first | with_reducible assumption | with_reducible apply State.finishWithdraw_keeps | (extract_lets +onlyGivenNames x; first | (apply cut (p := Keeps s0 x); (case' hp => dsimp -zeta only [x]; clear x); (case' hq => clear_value x; revert x; intro _ _)) | (clear_value x; revert x; intro _)) | split | dsimp -zeta only)))

theorem State.bodyCastLaunched_keeps {s0 s : State} (x : Ctx) (c : Cmd)  (h : Keeps s0 s) :
    Keeps s0 (State.bodyCastLaunched s x c) := by
  unfold State.bodyCastLaunched
  iterate 60 (all_goals (try (first | with_reducible assumption | with_reducible apply State.complete_keeps | with_reducible apply State.modCast_keeps | with_reducible apply State.noteLaunch_keeps | with_reducible apply State.waitFor_keeps | with_reducible exact fun w => w | (intro _; try dsimp -zeta only) | (extract_lets +onlyGivenNames x; first | (apply cut (p := Keeps s0 x); (case' hp => dsimp -zeta only [x]; clear x); (case' hq => clear_value x; revert x; intro _ _)) | (clear_value x; revert x; intro _)) | split | with_reducible apply Keeps.upd | dsimp -zeta only)))

theorem State.bodyCast_keeps {s0 s : State} (x : Ctx) (c : Cmd)  (h : Keeps s0 s) :
    Keeps s0 (State.bodyCast s x c) := by
  unfold State.bodyCast
  iterate 60 (all_goals (try (first | with_reducible assumption | with_reducible apply State.bodyCastLaunched_keeps | with_reducible apply State.complete_keeps | with_reducible apply State.launchAt_keeps | (intro _; try dsimp -zeta only) | (extract_lets +onlyGivenNames x; first | (apply cut (p := Keeps s0 x); (case' hp => dsimp -zeta only [x]; clear x); (case' hq => clear_value x; revert x; intro _ _)) | (clear_value x; revert x; intro _)) | split | dsimp -zeta only)))

theorem State.setKeys_keeps {s0 s : State} (l : List (Nat × Key))  (h : Keeps s0 s) :
    Keeps s0 (State.setKeys s l) := by
  unfold State.setKeys
  iterate 60 (all_goals (try (first | with_reducible assumption | with_reducible exact fun w => w | (intro _; try dsimp -zeta only) | (extract_lets +onlyGivenNames x; first | (apply cut (p := Keeps s0 x); (case' hp => dsimp -zeta only [x]; clear x); (case' hq => clear_value x; revert x; intro _ _)) | (clear_value x; revert x; intro _)) | with_reducible apply Keeps.upd)))

theorem State.bodyLoadContentKey_keeps {s0 s : State} (x : Ctx) (c : Cmd)  (h : Keeps s0 s) :
    Keeps s0 (State.bodyLoadContentKey s x c) := by
  unfold State.bodyLoadContentKey
  iterate 60 (all_goals (try (first | with_reducible assumption | with_reducible apply State.complete_keeps | with_reducible apply State.cstErr_keeps | with_reducible apply State.event_keeps | with_reducible apply State.setKeys_keeps | (intro _; try dsimp -zeta only) | (extract_lets +onlyGivenNames x; first | (apply cut (p := Keeps s0 x); (case' hp => dsimp -zeta only [x]; clear x); (case' hq => clear_value x; revert x; intro _ _)) | (clear_value x; revert x; intro _)) | split | dsimp -zeta only)))

theorem State.loadVia_keeps {s0 s : State} (x : Ctx) (k : Nat) (write : State → State) (check : State → Option (Nat × State))
    (hwrite : ∀ t, Keeps s0 t → Keeps s0 (write t)) (hcheck : ∀ n t, check s = some (n, t) → Keeps s0 t) (h : Keeps s0 s) :
    Keeps s0 (State.loadVia s x k write check) := by
  unfold State.loadVia
  split
  · exact State.waitFor_keeps _ _ h
  · split
    · exact State.complete_keeps _ _ _ _ _ _ _ h
    · split
      · exact State.waitFor_keeps _ _ h
      · split
        · rename_i n s1 hc
          exact State.complete_keeps _ _ _ _ _ _ _ (hcheck n s1 hc)
        · exact State.waitFor_keeps _ _ (State.setFstate_keeps _ _ (hwrite _ (State.enterStopped_keeps _ (State.modFunc_keeps _ _ h))))

theorem State.bodyLoadCastProfile_keeps {s0 s : State} (x : Ctx) (c : Cmd)  (h : Keeps s0 s) :
    Keeps s0 (State.bodyLoadCastProfile s x c) := by
  unfold State.bodyLoadCastProfile
  iterate 60 (all_goals (try (first | with_reducible assumption | with_reducible apply State.complete_keeps | with_reducible apply State.loadVia_keeps | (intro n t hc; split at hc <;> first | (cases hc; done) | (cases hc; with_reducible assumption)) | (intro _; try dsimp -zeta only) | (extract_lets +onlyGivenNames x; first | (apply cut (p := Keeps s0 x); (case' hp => dsimp -zeta only [x]; clear x); (case' hq => clear_value x; revert x; intro _ _)) | (clear_value x; revert x; intro _)) | split)))

theorem State.bodyLoadRecipe_keeps {s0 s : State} (x : Ctx) (c : Cmd)  (h : Keeps s0 s) :
    Keeps s0 (State.bodyLoadRecipe s x c) := by
  unfold State.bodyLoadRecipe
  iterate 60 (all_goals (try (first | with_reducible assumption | with_reducible apply State.complete_keeps | with_reducible apply State.loadVia_keeps | (intro n t hc; obtain ⟨m, _, hm⟩ := Option.map_eq_some_iff.1 hc; cases hm; with_reducible assumption) | (intro _; try dsimp -zeta only) | (extract_lets +onlyGivenNames x; first | (apply cut (p := Keeps s0 x); (case' hp => dsimp -zeta only [x]; clear x); (case' hq => clear_value x; revert x; intro _ _)) | (clear_value x; revert x; intro _)) | split)))

theorem State.bodyMembership_keeps {s0 s : State} (x : Ctx) (c : Cmd)  (h : Keeps s0 s) :
    Keeps s0 (State.bodyMembership s x c) := by
  unfold State.bodyMembership
  iterate 60 (all_goals (try (first | with_reducible assumption | with_reducible apply State.complete_keeps | with_reducible apply State.loadVia_keeps | with_reducible apply State.modFunc_keeps | with_reducible apply State.setFlag_keeps | (intro n t hc; split at hc <;> first | (cases hc; done) | (cases hc; apply State.setFlag_keeps; with_reducible assumption)) | with_reducible exact fun w => w | (intro _; try dsimp -zeta only) | (extract_lets +onlyGivenNames x; first | (apply cut (p := Keeps s0 x); (case' hp => dsimp -zeta only [x]; clear x); (case' hq => clear_value x; revert x; intro _ _)) | (have hx : _ → State := x; clear hx; dsimp -zeta only [x]; clear x) | (have hx : _ → _ → State := x; clear hx; dsimp -zeta only [x]; clear x) | (have hx : _ → _ × State := x; clear hx; dsimp -zeta only [x]; clear x) | (clear_value x; revert x; intro _)) | split | with_reducible apply Keeps.upd | dsimp -zeta only)))

end Sys2Proof.Machine
end

