-- ==== Sys2Proof/Laws/Keeps/LogPages.lean ====
section
/-! SUPPORT. Machine/LogPages.lean: each of its operations keeps the canonical forms, the queue and the order of free values. -/

namespace Sys2Proof.Machine

open Sys2Proof

theorem State.completeWith_keeps {s0 s : State} (x : Ctx) (r : Except Status (List Byte))  (h : Keeps s0 s) :
    Keeps s0 (State.completeWith s x r) := by
  unfold State.completeWith
  iterate 60 (all_goals (try (first | with_reducible assumption | with_reducible apply State.complete_keeps | split | dsimp -zeta only)))

end Sys2Proof.Machine
end

