-- ==== Sys2Proof/Laws/Keeps/AdminCmd.lean ====
section
/-! SUPPORT. Machine/AdminCmd.lean: each of its operations keeps the canonical forms, the queue and the order of free values. -/

namespace Sys2Proof.Machine

open Sys2Proof

theorem State.bodyReadPatina_keeps {s0 s : State} (x : Ctx) (c : Cmd)  (h : Keeps s0 s) :
    Keeps s0 (State.bodyReadPatina s x c) := by
  unfold State.bodyReadPatina
  iterate 60 (all_goals (try (first | with_reducible assumption | with_reducible apply State.complete_keeps | (intro _; try dsimp -zeta only) | (extract_lets +onlyGivenNames x; first | (apply cut (p := Keeps s0 x); (case' hp => dsimp -zeta only [x]; clear x); (case' hq => clear_value x; revert x; intro _ _)) | (clear_value x; revert x; intro _)) | split)))

theorem State.clearPatina_keeps {s0 s : State} (assoc : Nat)  (h : Keeps s0 s) :
    Keeps s0 (State.clearPatina s assoc) := by
  unfold State.clearPatina
  iterate 60 (all_goals (try (first | with_reducible assumption | with_reducible apply State.noteEvent_keeps | with_reducible apply State.setReg_keeps | with_reducible exact fun w => w | (intro _; try dsimp -zeta only) | (extract_lets +onlyGivenNames x; first | (apply cut (p := Keeps s0 x); (case' hp => dsimp -zeta only [x]; clear x); (case' hq => clear_value x; revert x; intro _ _)) | (clear_value x; revert x; intro _)) | split | with_reducible apply Keeps.upd)))

theorem State.bodyClearPatina_keeps {s0 s : State} (x : Ctx) (c : Cmd)  (h : Keeps s0 s) :
    Keeps s0 (State.bodyClearPatina s x c) := by
  unfold State.bodyClearPatina
  iterate 60 (all_goals (try (first | with_reducible assumption | with_reducible apply State.clearPatina_keeps | with_reducible apply State.complete_keeps | split)))

theorem State.writePairs_keeps {s0 s : State} (x : Ctx) (l : List RegPair) (h : Keeps s0 s) : Keeps s0 (State.writePairs s x l) := by
  induction l generalizing s x with
  | nil => exact State.complete_keeps _ _ _ _ _ _ _ h
  | cons p r ih =>
    unfold State.writePairs
    split
    · exact ih _ h
    · refine ite_keeps (State.waitFor_keeps _ _ h) (ite_keeps (ih _ (State.event_keeps _ _ _ h)) ?_)
      have h1 := State.performWrite_keeps p.addr p.value h
      dsimp only
      split
      · exact ih _ h1
      · exact h1

theorem State.bodyRegisterWrite_keeps {s0 s : State} (x : Ctx) (c : Cmd)  (h : Keeps s0 s) :
    Keeps s0 (State.bodyRegisterWrite s x c) := by
  unfold State.bodyRegisterWrite
  iterate 60 (all_goals (try (first | with_reducible assumption | with_reducible apply State.complete_keeps | with_reducible apply State.writePairs_keeps | (intro _; try dsimp -zeta only) | (extract_lets +onlyGivenNames x; first | (apply cut (p := Keeps s0 x); (case' hp => dsimp -zeta only [x]; clear x); (case' hq => clear_value x; revert x; intro _ _)) | (clear_value x; revert x; intro _)) | split)))

theorem State.readWords_keeps {s0 s : State} (x : Ctx) (l : List RegPair) (got : List Word) (h : Keeps s0 s) :
    Keeps s0 (State.readWords s x l got) := by
  induction l generalizing s got with
  | nil => exact State.complete_keeps _ _ _ _ _ _ _ h
  | cons p r ih =>
    unfold State.readWords
    split
    · exact ih _ h
    · split
      · exact State.waitFor_keeps _ _ h
      · exact ih _ (State.performRead_keeps _ _ h)

theorem State.bodyRegisterRead_keeps {s0 s : State} (x : Ctx) (c : Cmd)  (h : Keeps s0 s) :
    Keeps s0 (State.bodyRegisterRead s x c) := by
  unfold State.bodyRegisterRead
  iterate 60 (all_goals (try (first | with_reducible assumption | with_reducible apply State.complete_keeps | with_reducible apply State.readWords_keeps | (intro _; try dsimp -zeta only) | (extract_lets +onlyGivenNames x; first | (apply cut (p := Keeps s0 x); (case' hp => dsimp -zeta only [x]; clear x); (case' hq => clear_value x; revert x; intro _ _)) | (clear_value x; revert x; intro _)) | split)))

theorem State.bodyReconfigure_keeps {s0 s : State} (x : Ctx) (c : Cmd)  (h : Keeps s0 s) :
    Keeps s0 (State.bodyReconfigure s x c) := by
  unfold State.bodyReconfigure
  iterate 60 (all_goals (try (first | with_reducible assumption | with_reducible apply State.complete_keeps | with_reducible apply State.funcRequest_keeps | with_reducible apply State.waitFor_keeps | (extract_lets +onlyGivenNames x; first | (apply cut (p := Keeps s0 x); (case' hp => dsimp -zeta only [x]; clear x); (case' hq => clear_value x; revert x; intro _ _)) | (clear_value x; revert x; intro _)) | split)))

theorem State.ownCount_keeps {s0 s : State} (f : Fld)  (h : Keeps s0 s) :
    Keeps s0 (State.ownCount s f) := by
  unfold State.ownCount
  iterate 60 (all_goals (try (first | with_reducible assumption | with_reducible apply State.countFld_keeps)))

theorem State.leaseFrom_keeps {s0 s : State} (x : Ctx)  (h : Keeps s0 s) :
    Keeps s0 (State.leaseFrom s x) := by
  unfold State.leaseFrom
  iterate 60 (all_goals (try (first | with_reducible assumption | with_reducible exact fun w => w | (intro _; try dsimp -zeta only) | (extract_lets +onlyGivenNames x; first | (apply cut (p := Keeps s0 x); (case' hp => dsimp -zeta only [x]; clear x); (case' hq => clear_value x; revert x; intro _ _)) | (clear_value x; revert x; intro _)) | with_reducible apply Keeps.upd)))

theorem State.decideClaim_keeps {s0 s : State} (x : Ctx) (c : Cmd) (h : Keeps s0 s) : Keeps s0 (State.decideClaim s x c) := by
  have ok (f : Fld) {t : State} (ht : Keeps s0 t) (st : Status) (n : Nat) : Keeps s0 ((t.ownCount f).complete x st n) :=
    State.complete_keeps _ _ _ _ _ _ _ (State.ownCount_keeps _ ht)
  unfold State.decideClaim
  refine ite_keeps (State.complete_keeps _ _ _ _ _ _ _ h) (ite_keeps (ok _ (State.event_keeps _ _ _ h) _ _)
    (ite_keeps (ok _ (State.leaseFrom_keeps _ h) _ _) (ite_keeps (ok _ h _ _) ?_)))
  exact State.complete_keeps _ _ _ _ _ _ _ (State.ownershipMoved_keeps (State.event_keeps _ _ _
    (State.ownCount_keeps _ (State.leaseFrom_keeps _ (State.setOwner_keeps _ _ h)))))

theorem State.bodyClaim_keeps {s0 s : State} (x : Ctx) (c : Cmd)  (h : Keeps s0 s) :
    Keeps s0 (State.bodyClaim s x c) := by
  unfold State.bodyClaim
  iterate 14 (all_goals (try (first | with_reducible assumption | with_reducible apply State.decideClaim_keeps | with_reducible apply State.endOwn_keeps)))

theorem State.bodyYield_keeps {s0 s : State} (x : Ctx) (c : Cmd)  (h : Keeps s0 s) :
    Keeps s0 (State.bodyYield s x c) := by
  unfold State.bodyYield
  iterate 60 (all_goals (try (first | with_reducible assumption | with_reducible apply State.complete_keeps | with_reducible apply State.event_keeps | with_reducible apply State.ownCount_keeps | with_reducible apply State.ownershipMoved_keeps | with_reducible apply State.setOwner_keeps | with_reducible exact fun w => w | (intro _; try dsimp -zeta only) | (extract_lets +onlyGivenNames x; first | (apply cut (p := Keeps s0 x); (case' hp => dsimp -zeta only [x]; clear x); (case' hq => clear_value x; revert x; intro _ _)) | (clear_value x; revert x; intro _)) | split | with_reducible apply Keeps.upd)))

theorem State.bodyConstellation_keeps {s0 s : State} (x : Ctx) (c : Cmd)  (h : Keeps s0 s) :
    Keeps s0 (State.bodyConstellation s x c) := by
  unfold State.bodyConstellation
  iterate 60 (all_goals (try (first | with_reducible assumption | with_reducible apply State.complete_keeps | split)))

theorem State.createNamespace_keeps {s0 s : State} (x : Ctx) (c : Cmd)  (h : Keeps s0 s) :
    Keeps s0 (State.createNamespace s x c) := by
  unfold State.createNamespace
  iterate 60 (all_goals (try (first | with_reducible assumption | with_reducible apply State.complete_keeps | with_reducible apply State.event_keeps | with_reducible exact fun w => w | (intro _; try dsimp -zeta only) | (extract_lets +onlyGivenNames x; first | (apply cut (p := Keeps s0 x); (case' hp => dsimp -zeta only [x]; clear x); (case' hq => clear_value x; revert x; intro _ _)) | (have hx := x.wsnBlock; clear hx; dsimp -zeta only [x]; clear x) | (clear_value x; revert x; intro _)) | split | with_reducible apply Keeps.upd | dsimp -zeta only)))

theorem State.finishDelete_keeps {s0 s : State} (d : Deleting)  (h : Keeps s0 s) :
    Keeps s0 (State.finishDelete s d) := by
  unfold State.finishDelete
  iterate 60 (all_goals (try (first | with_reducible assumption | with_reducible apply State.complete_keeps | with_reducible apply State.deallocUnit_keeps | with_reducible apply State.event_keeps | with_reducible apply State.modCast_keeps | with_reducible apply foldl_keeps | with_reducible exact fun w => w | (intro _; try dsimp -zeta only) | (extract_lets +onlyGivenNames x; first | (apply cut (p := Keeps s0 x); (case' hp => dsimp -zeta only [x]; clear x); (case' hq => clear_value x; revert x; intro _ _)) | (have hx := x.wsnBlock; clear hx; dsimp -zeta only [x]; clear x) | (clear_value x; revert x; intro _)) | split | with_reducible apply Keeps.upd | dsimp -zeta only)))

theorem State.deleteNamespace_keeps {s0 s : State} (x : Ctx) (c : Cmd)  (h : Keeps s0 s) :
    Keeps s0 (State.deleteNamespace s x c) := by
  unfold State.deleteNamespace
  iterate 60 (all_goals (try (first | with_reducible assumption | with_reducible apply State.complete_keeps | with_reducible apply State.finishDelete_keeps | with_reducible apply State.waitFor_keeps | with_reducible apply foldl_keeps | with_reducible exact fun w => w | (intro _; try dsimp -zeta only) | (extract_lets +onlyGivenNames x; first | (apply cut (p := Keeps s0 x); (case' hp => dsimp -zeta only [x]; clear x); (case' hq => clear_value x; revert x; intro _ _)) | (have hx : _ → State := x; clear hx; dsimp -zeta only [x]; clear x) | (have hx : _ → _ → State := x; clear hx; dsimp -zeta only [x]; clear x) | (have hx : _ → _ × State := x; clear hx; dsimp -zeta only [x]; clear x) | (clear_value x; revert x; intro _)) | split | with_reducible apply Keeps.upd | dsimp -zeta only)))

theorem State.bodyNsManagement_keeps {s0 s : State} (x : Ctx) (c : Cmd)  (h : Keeps s0 s) :
    Keeps s0 (State.bodyNsManagement s x c) := by
  unfold State.bodyNsManagement
  iterate 60 (all_goals (try (first | with_reducible assumption | with_reducible apply State.complete_keeps | with_reducible apply State.createNamespace_keeps | with_reducible apply State.deleteNamespace_keeps | split | dsimp -zeta only)))

theorem execNamespaceDeleteDone_keeps {s0 s : State} (assoc : Nat) (qid : Nat) (cid : Nat)  (h : Keeps s0 s) :
    Goes s0 (execNamespaceDeleteDone assoc qid cid s) := by
  unfold execNamespaceDeleteDone
  iterate 60 (all_goals (try (first | with_reducible assumption | with_reducible apply goes_next | with_reducible apply State.finishDelete_keeps | (intro _; try dsimp -zeta only) | split | dsimp -zeta only)))

theorem State.bodyNsAttachment_keeps {s0 s : State} (x : Ctx) (c : Cmd)  (h : Keeps s0 s) :
    Keeps s0 (State.bodyNsAttachment s x c) := by
  unfold State.bodyNsAttachment
  iterate 60 (all_goals (try (first | with_reducible assumption | with_reducible apply State.complete_keeps | split)))

theorem State.bodyPower_keeps {s0 s : State} (x : Ctx) (ps : Nat)  (h : Keeps s0 s) :
    Keeps s0 (State.bodyPower s x ps) := by
  unfold State.bodyPower
  iterate 60 (all_goals (try (first | with_reducible assumption | with_reducible apply State.beginEntry_keeps | with_reducible apply State.beginExit_keeps | with_reducible apply State.complete_keeps | with_reducible apply State.modCtx_keeps | with_reducible apply State.waitFor_keeps | with_reducible exact fun w => w | (intro _; try dsimp -zeta only) | (extract_lets +onlyGivenNames x; first | (apply cut (p := Keeps s0 x); (case' hp => dsimp -zeta only [x]; clear x); (case' hq => clear_value x; revert x; intro _ _)) | (clear_value x; revert x; intro _)) | split | with_reducible apply Keeps.upd)))

theorem State.bodySetFeatures_keeps {s0 s : State} (x : Ctx) (c : Cmd)  (h : Keeps s0 s) :
    Keeps s0 (State.bodySetFeatures s x c) := by
  unfold State.bodySetFeatures
  iterate 60 (all_goals (try (first | with_reducible assumption | with_reducible apply State.bodyMembership_keeps | with_reducible apply State.bodyPower_keeps | with_reducible apply State.complete_keeps | with_reducible apply State.leaseFrom_keeps | with_reducible apply State.lockPatina_keeps | with_reducible apply State.modAssoc_keeps | with_reducible apply State.modFeatures_keeps | with_reducible apply State.performWrite_keeps | with_reducible apply State.setFld_keeps | with_reducible exact fun w => w | (intro _; try dsimp -zeta only) | (extract_lets +onlyGivenNames x; first | (apply cut (p := Keeps s0 x); (case' hp => dsimp -zeta only [x]; clear x); (case' hq => clear_value x; revert x; intro _ _)) | (have hx : _ → State := x; clear hx; dsimp -zeta only [x]; clear x) | (have hx : _ → _ → State := x; clear hx; dsimp -zeta only [x]; clear x) | (have hx : _ → _ × State := x; clear hx; dsimp -zeta only [x]; clear x) | (clear_value x; revert x; intro _)) | split | with_reducible apply Keeps.upd | dsimp -zeta only)))

theorem State.bodyGetFeatures_keeps {s0 s : State} (x : Ctx) (c : Cmd)  (h : Keeps s0 s) :
    Keeps s0 (State.bodyGetFeatures s x c) := by
  unfold State.bodyGetFeatures
  iterate 60 (all_goals (try (first | with_reducible assumption | with_reducible apply State.complete_keeps | split | dsimp -zeta only)))

theorem State.bodyAer_keeps {s0 s : State} (x : Ctx)  (h : Keeps s0 s) :
    Keeps s0 (State.bodyAer s x) := by
  unfold State.bodyAer
  iterate 60 (all_goals (try (first | with_reducible assumption | with_reducible apply State.complete_keeps | with_reducible apply State.modAssoc_keeps | with_reducible apply State.waitFor_keeps | with_reducible exact fun w => w | (intro _; try dsimp -zeta only) | (extract_lets +onlyGivenNames x; first | (apply cut (p := Keeps s0 x); (case' hp => dsimp -zeta only [x]; clear x); (case' hq => clear_value x; revert x; intro _ _)) | (clear_value x; revert x; intro _)) | split | with_reducible apply Keeps.upd | dsimp -zeta only)))

theorem State.notice_keeps {s0 s : State} (a : Nat) (dw0 : Nat)  (h : Keeps s0 s) :
    Keeps s0 (State.notice s a dw0) := by
  unfold State.notice
  iterate 60 (all_goals (try (first | with_reducible assumption | with_reducible apply State.complete_keeps | with_reducible apply State.modAssoc_keeps | with_reducible exact fun w => w | (intro _; try dsimp -zeta only) | (extract_lets +onlyGivenNames x; first | (apply cut (p := Keeps s0 x); (case' hp => dsimp -zeta only [x]; clear x); (case' hq => clear_value x; revert x; intro _ _)) | (clear_value x; revert x; intro _)) | split | with_reducible apply Keeps.upd | dsimp -zeta only)))

theorem State.bodyCreateCq_keeps {s0 s : State} (x : Ctx) (c : Cmd)  (h : Keeps s0 s) :
    Keeps s0 (State.bodyCreateCq s x c) := by
  unfold State.bodyCreateCq
  iterate 60 (all_goals (try (first | with_reducible assumption | with_reducible apply State.complete_keeps | with_reducible apply State.modAssoc_keeps | with_reducible exact fun w => w | (intro _; try dsimp -zeta only) | (extract_lets +onlyGivenNames x; first | (apply cut (p := Keeps s0 x); (case' hp => dsimp -zeta only [x]; clear x); (case' hq => clear_value x; revert x; intro _ _)) | (clear_value x; revert x; intro _)) | split | with_reducible apply Keeps.upd)))

theorem State.bodyCreateSq_keeps {s0 s : State} (x : Ctx) (c : Cmd)  (h : Keeps s0 s) :
    Keeps s0 (State.bodyCreateSq s x c) := by
  unfold State.bodyCreateSq
  iterate 60 (all_goals (try (first | with_reducible assumption | with_reducible apply State.complete_keeps | with_reducible apply State.modAssoc_keeps | with_reducible exact fun w => w | (intro _; try dsimp -zeta only) | (extract_lets +onlyGivenNames x; first | (apply cut (p := Keeps s0 x); (case' hp => dsimp -zeta only [x]; clear x); (case' hq => clear_value x; revert x; intro _ _)) | (clear_value x; revert x; intro _)) | split | with_reducible apply Keeps.upd)))

theorem State.bodyDeleteSq_keeps {s0 s : State} (x : Ctx) (c : Cmd)  (h : Keeps s0 s) :
    Keeps s0 (State.bodyDeleteSq s x c) := by
  unfold State.bodyDeleteSq
  iterate 60 (all_goals (try (first | with_reducible assumption | with_reducible apply State.complete_keeps | with_reducible apply State.modAssoc_keeps | with_reducible apply State.modHost_keeps | with_reducible exact fun w => w | (intro _; try dsimp -zeta only) | (extract_lets +onlyGivenNames x; first | (apply cut (p := Keeps s0 x); (case' hp => dsimp -zeta only [x]; clear x); (case' hq => clear_value x; revert x; intro _ _)) | (clear_value x; revert x; intro _)) | split | with_reducible apply Keeps.upd)))

theorem State.bodyDeleteCq_keeps {s0 s : State} (x : Ctx) (c : Cmd)  (h : Keeps s0 s) :
    Keeps s0 (State.bodyDeleteCq s x c) := by
  unfold State.bodyDeleteCq
  iterate 60 (all_goals (try (first | with_reducible assumption | with_reducible apply State.complete_keeps | with_reducible apply State.modAssoc_keeps | with_reducible exact fun w => w | (intro _; try dsimp -zeta only) | (extract_lets +onlyGivenNames x; first | (apply cut (p := Keeps s0 x); (case' hp => dsimp -zeta only [x]; clear x); (case' hq => clear_value x; revert x; intro _ _)) | (clear_value x; revert x; intro _)) | split | with_reducible apply Keeps.upd)))

end Sys2Proof.Machine
end

