-- ==== Sys2Proof/Laws/Keeps/Firmware.lean ====
section
/-! SUPPORT. Machine/Firmware.lean: each of its operations keeps the canonical forms, the queue and the order of free values. -/

namespace Sys2Proof.Machine

open Sys2Proof

theorem State.bodyFwDownload_keeps {s0 s : State} (x : Ctx) (c : Cmd)  (h : Keeps s0 s) :
    Keeps s0 (State.bodyFwDownload s x c) := by
  unfold State.bodyFwDownload
  iterate 60 (all_goals (try (first | with_reducible assumption | with_reducible apply State.complete_keeps | with_reducible apply State.event_keeps | with_reducible apply State.modSlot_keeps | with_reducible apply State.setFlag_keeps | with_reducible apply State.setFld_keeps | with_reducible apply State.syncSlots_keeps | with_reducible exact fun w => w | (intro _; try dsimp -zeta only) | (extract_lets +onlyGivenNames x; first | (apply cut (p := Keeps s0 x); (case' hp => dsimp -zeta only [x]; clear x); (case' hq => clear_value x; revert x; intro _ _)) | (clear_value x; revert x; intro _)) | split | with_reducible apply Keeps.upd)))

theorem State.noteCheck_keeps {s0 s : State} (im : List Byte) (c : Nat)  (h : Keeps s0 s) :
    Keeps s0 (State.noteCheck s im c) := by
  unfold State.noteCheck
  iterate 60 (all_goals (try (first | with_reducible assumption | with_reducible apply State.setFld_keeps | with_reducible apply foldl_keeps | (intro _; try dsimp -zeta only) | (extract_lets +onlyGivenNames x; first | (apply cut (p := Keeps s0 x); (case' hp => dsimp -zeta only [x]; clear x); (case' hq => clear_value x; revert x; intro _ _)) | (clear_value x; revert x; intro _)) | split)))

theorem State.syncActivation_keeps {s0 s : State}   (h : Keeps s0 s) :
    Keeps s0 (State.syncActivation s) := by
  unfold State.syncActivation
  iterate 60 (all_goals (try (first | with_reducible assumption | with_reducible apply State.setFlag_keeps | with_reducible apply State.setFld_keeps | (extract_lets +onlyGivenNames x; first | (apply cut (p := Keeps s0 x); (case' hp => dsimp -zeta only [x]; clear x); (case' hq => clear_value x; revert x; intro _ _)) | (clear_value x; revert x; intro _)) | split | dsimp -zeta only)))

theorem State.tryActivate_keeps {s0 s : State} (x : Ctx) (k : Nat)  (h : Keeps s0 s) :
    Keeps s0 (State.tryActivate s x k) := by
  unfold State.tryActivate
  iterate 60 (all_goals (try (first | with_reducible assumption | with_reducible apply State.complete_keeps | with_reducible apply State.event_keeps | with_reducible apply State.modCtx_keeps | with_reducible apply State.revertAll_keeps | with_reducible apply State.setFld_keeps | with_reducible apply State.syncActivation_keeps | with_reducible apply State.wakeCmd_keeps | with_reducible apply State.waitFor_keeps | with_reducible exact fun w => w | (intro _; try dsimp -zeta only) | (extract_lets +onlyGivenNames x; first | (apply cut (p := Keeps s0 x); (case' hp => dsimp -zeta only [x]; clear x); (case' hq => clear_value x; revert x; intro _ _)) | (clear_value x; revert x; intro _)) | split | with_reducible apply Keeps.upd)))

theorem State.bodyFwCommit_keeps {s0 s : State} (x : Ctx) (c : Cmd)  (h : Keeps s0 s) :
    Keeps s0 (State.bodyFwCommit s x c) := by
  unfold State.bodyFwCommit
  iterate 60 (all_goals (try (first | with_reducible assumption | with_reducible apply State.bootFree_keeps | with_reducible apply State.complete_keeps | with_reducible apply State.deviceReset_keeps | with_reducible apply State.event_keeps | with_reducible apply State.modSlot_keeps | with_reducible apply State.noteCheck_keeps | with_reducible apply State.syncSlots_keeps | with_reducible apply State.tryActivate_keeps | with_reducible apply State.waitFor_keeps | with_reducible exact fun w => w | (intro _; try dsimp -zeta only) | (extract_lets +onlyGivenNames x; first | (apply cut (p := Keeps s0 x); (case' hp => dsimp -zeta only [x]; clear x); (case' hq => clear_value x; revert x; intro _ _)) | (apply cut (p := Keeps s0 x.2); (case' hp => dsimp -zeta only [x]; clear x); (case' hq => clear_value x; revert x; intro _ _)) | (have hx : _ → State := x; clear hx; dsimp -zeta only [x]; clear x) | (have hx : _ → _ → State := x; clear hx; dsimp -zeta only [x]; clear x) | (have hx : _ → _ × State := x; clear hx; dsimp -zeta only [x]; clear x) | (clear_value x; revert x; intro _)) | split | with_reducible apply Keeps.upd | dsimp -zeta only)))

theorem State.activate_keeps {s0 s : State} (v : Activation)  (h : Keeps s0 s) :
    Keeps s0 (State.activate s v) := by
  unfold State.activate
  iterate 60 (all_goals (try (first | with_reducible assumption | with_reducible apply State.complete_keeps | with_reducible apply State.endActivation_keeps | with_reducible apply State.event_keeps | with_reducible apply State.forActs_keeps | with_reducible apply State.formatCommitted_keeps | with_reducible apply State.loadPatch_keeps | with_reducible apply State.modSlot_keeps | with_reducible apply State.patchRefused_keeps | with_reducible apply State.setFld_keeps | with_reducible apply State.syncActivation_keeps | with_reducible apply State.syncSlots_keeps | with_reducible exact fun w => w | with_reducible exact RegFile.putAll_sorted _ | with_reducible exact RegFile.filter_sorted _ | with_reducible exact fun w => RegFile.putAll_sorted _ (RegFile.filter_sorted _ w) | (intro _; try dsimp -zeta only) | (extract_lets +onlyGivenNames x; first | (apply cut (p := Keeps s0 x); (case' hp => dsimp -zeta only [x]; clear x); (case' hq => clear_value x; revert x; intro _ _)) | (have hx : _ → State := x; clear hx; dsimp -zeta only [x]; clear x) | (have hx : _ → _ → State := x; clear hx; dsimp -zeta only [x]; clear x) | (have hx : _ → _ × State := x; clear hx; dsimp -zeta only [x]; clear x) | (clear_value x; revert x; intro _)) | split | with_reducible apply Keeps.upd | with_reducible apply Keeps.updRegs | dsimp -zeta only)))

theorem State.notePause_keeps {s0 s : State} (ms : Nat)  (h : Keeps s0 s) :
    Keeps s0 (State.notePause s ms) := by
  unfold State.notePause
  iterate 60 (all_goals (try (first | with_reducible assumption | with_reducible apply State.setFld_keeps)))

theorem execActivationStepDone_keeps {s0 s : State} (pauseMs : Nat)  (h : Keeps s0 s) :
    Goes s0 (execActivationStepDone pauseMs s) := by
  unfold execActivationStepDone
  iterate 60 (all_goals (try (first | with_reducible assumption | with_reducible apply goes_next | with_reducible apply State.activate_keeps | with_reducible apply State.notePause_keeps | with_reducible exact fun w => w | with_reducible exact RegFile.putAll_sorted _ | with_reducible exact RegFile.filter_sorted _ | with_reducible exact fun w => RegFile.putAll_sorted _ (RegFile.filter_sorted _ w) | (intro _; try dsimp -zeta only) | (extract_lets +onlyGivenNames x; first | (apply cut (p := Keeps s0 x); (case' hp => dsimp -zeta only [x]; clear x); (case' hq => clear_value x; revert x; intro _ _)) | (clear_value x; revert x; intro _)) | split | with_reducible apply Keeps.upd | with_reducible apply Keeps.updRegs | dsimp -zeta only)))

theorem State.abortActivation_keeps {s0 s : State}   (h : Keeps s0 s) :
    Keeps s0 (State.abortActivation s) := by
  unfold State.abortActivation
  iterate 60 (all_goals (try (first | with_reducible assumption | with_reducible apply State.endActivation_keeps)))

theorem execActivationRetry_keeps {s0 s : State} (ok : Bool) (pauseMs : Nat)  (h : Keeps s0 s) :
    Goes s0 (execActivationRetry ok pauseMs s) := by
  unfold execActivationRetry
  iterate 60 (all_goals (try (first | with_reducible assumption | with_reducible apply goes_next | with_reducible apply State.abortActivation_keeps | with_reducible apply State.activate_keeps | with_reducible apply State.notePause_keeps | split | dsimp -zeta only)))

theorem execActivationEnd_keeps {s0 s : State} (h : Keeps s0 s) : Goes s0 (execActivationEnd s) := by
  unfold execActivationEnd
  split
  · rename_i v _
    split
    · exact goes_next h
    · dsimp only
      refine goes_next (State.event_keeps _ _ _ (State.syncActivation_keeps (Keeps.upd (fun w => w) ?_)))
      refine State.forActs_keeps _ ?_ ?_
      · intro t a ht
        exact ite_keeps (State.formatCommitted_keeps _ ht) ht
      · exact Keeps.regs (s := s) (fun w => RegFile.putAll_sorted _ (RegFile.filter_sorted _ w)) rfl rfl rfl h
  · exact goes_next h

end Sys2Proof.Machine
end

