-- ==== Sys2Proof/Laws/Keeps/Fabrics.lean ====
section
/-! SUPPORT. Machine/Fabrics.lean: each of its operations keeps the canonical forms, the queue and the order of free values. -/

namespace Sys2Proof.Machine

open Sys2Proof

theorem State.heldDown_keeps {s0 s : State} (p : Nat)  (h : Keeps s0 s) :
    Keeps s0 (State.heldDown s p) := by
  unfold State.heldDown
  iterate 60 (all_goals (try (first | with_reducible assumption | with_reducible apply State.modHost_keeps | with_reducible exact fun w => w | (intro _; try dsimp -zeta only) | with_reducible apply Keeps.upd)))

theorem State.portUp_keeps {s0 s : State} (p : Nat)  (h : Keeps s0 s) :
    Keeps s0 (State.portUp s p) := by
  unfold State.portUp
  iterate 60 (all_goals (try (first | with_reducible assumption | with_reducible apply State.heldDown_keeps | with_reducible apply State.event_keeps | with_reducible apply State.modHost_keeps | with_reducible apply State.setFlag_keeps | with_reducible apply State.setFld_keeps | with_reducible exact fun w => w | (intro _; try dsimp -zeta only) | (extract_lets +onlyGivenNames x; first | (apply cut (p := Keeps s0 x); (case' hp => dsimp -zeta only [x]; clear x); (case' hq => clear_value x; revert x; intro _ _)) | (clear_value x; revert x; intro _)) | split | with_reducible apply Keeps.upd)))

theorem execLinkUp_keeps {s0 s : State} (p : Fin 2)  (h : Keeps s0 s) :
    Goes s0 (execLinkUp p s) := by
  unfold execLinkUp
  iterate 60 (all_goals (try (first | with_reducible assumption | with_reducible apply goes_next | with_reducible apply State.commitFunc_keeps | with_reducible apply State.portUp_keeps | split)))

theorem State.portDown_keeps {s0 s : State} (p : Nat)  (h : Keeps s0 s) :
    Keeps s0 (State.portDown s p) := by
  unfold State.portDown
  iterate 60 (all_goals (try (first | with_reducible assumption | with_reducible apply State.event_keeps | with_reducible apply State.modHost_keeps | with_reducible apply State.ptpLinkDown_keeps | with_reducible apply State.setFlag_keeps | with_reducible exact fun w => w | (intro _; try dsimp -zeta only) | (extract_lets +onlyGivenNames x; first | (apply cut (p := Keeps s0 x); (case' hp => dsimp -zeta only [x]; clear x); (case' hq => clear_value x; revert x; intro _ _)) | (clear_value x; revert x; intro _)) | split | with_reducible apply Keeps.upd)))

theorem execLinkDown_keeps {s0 s : State} (p : Fin 2)  (h : Keeps s0 s) :
    Goes s0 (execLinkDown p s) := by
  unfold execLinkDown
  iterate 60 (all_goals (try (first | with_reducible assumption | with_reducible apply goes_next | with_reducible apply State.portDown_keeps)))

theorem State.endPort_keeps {s0 s : State} (p : Nat) (event : Option Nat)  (h : Keeps s0 s) :
    Keeps s0 (State.endPort s p event) := by
  unfold State.endPort
  iterate 60 (all_goals (try (first | with_reducible assumption | with_reducible apply State.endAssoc_keeps | with_reducible apply State.event_keeps | with_reducible apply foldl_keeps | (intro _; try dsimp -zeta only) | split | dsimp -zeta only)))

theorem execLinkLossTimeout_keeps {s0 s : State} (p : Fin 2)  (h : Keeps s0 s) :
    Goes s0 (execLinkLossTimeout p s) := by
  unfold execLinkLossTimeout
  iterate 60 (all_goals (try (first | with_reducible assumption | with_reducible apply goes_next | with_reducible apply State.endPort_keeps | (extract_lets +onlyGivenNames x; first | (apply cut (p := Keeps s0 x); (case' hp => dsimp -zeta only [x]; clear x); (case' hq => clear_value x; revert x; intro _ _)) | (clear_value x; revert x; intro _)) | split | dsimp -zeta only)))

theorem execPortFault_keeps {s0 s : State} (p : Fin 2)  (h : Keeps s0 s) :
    Goes s0 (execPortFault p s) := by
  unfold execPortFault
  iterate 60 (all_goals (try (first | with_reducible assumption | with_reducible apply goes_next | with_reducible apply State.endPort_keeps | with_reducible apply State.eventIn_keeps | with_reducible apply State.portDown_keeps | with_reducible apply State.setFlag_keeps | (extract_lets +onlyGivenNames x; first | (apply cut (p := Keeps s0 x); (case' hp => dsimp -zeta only [x]; clear x); (case' hq => clear_value x; revert x; intro _ _)) | (clear_value x; revert x; intro _)))))

theorem State.receive_keeps {s0 s : State} (p : Nat) (f : Frame)  (h : Keeps s0 s) :
    Keeps s0 (State.receive s p f) := by
  unfold State.receive
  iterate 60 (all_goals (try (first | with_reducible assumption | with_reducible apply State.countFld_keeps | with_reducible apply State.modHost_keeps | with_reducible apply State.sendOn_keeps | with_reducible exact fun w => w | (intro _; try dsimp -zeta only) | (extract_lets +onlyGivenNames x; first | (apply cut (p := Keeps s0 x); (case' hp => dsimp -zeta only [x]; clear x); (case' hq => clear_value x; revert x; intro _ _)) | (clear_value x; revert x; intro _)) | split | with_reducible apply Keeps.upd | dsimp -zeta only)))

theorem execFrameReceive_keeps {s0 s : State} (p : Fin 2) (f : Frame)  (h : Keeps s0 s) :
    Goes s0 (execFrameReceive p f s) := by
  unfold execFrameReceive
  iterate 60 (all_goals (try (first | with_reducible assumption | with_reducible apply goes_next | with_reducible apply State.receive_keeps)))

theorem State.modConn_keeps {s0 s : State} (k : Nat) (f : Conn → Conn)  (h : Keeps s0 s) :
    Keeps s0 (State.modConn s k f) := by
  unfold State.modConn
  iterate 60 (all_goals (try (first | with_reducible assumption | with_reducible apply State.modHost_keeps | with_reducible exact fun w => w | (intro _; try dsimp -zeta only) | (extract_lets +onlyGivenNames x; first | (apply cut (p := Keeps s0 x); (case' hp => dsimp -zeta only [x]; clear x); (case' hq => clear_value x; revert x; intro _ _)) | (clear_value x; revert x; intro _)) | split | with_reducible apply Keeps.upd)))

theorem execTcpConnect_keeps {s0 s : State} (p : Fin 2) (i : Fin 4) (v6 : Bool) (localPort : Nat)  (h : Keeps s0 s) :
    Goes s0 (execTcpConnect p i v6 localPort s) := by
  unfold execTcpConnect
  iterate 60 (all_goals (try (first | with_reducible assumption | with_reducible apply goes_next | with_reducible apply State.modHost_keeps | with_reducible apply State.sendOn_keeps | with_reducible exact fun w => w | (intro _; try dsimp -zeta only) | (extract_lets +onlyGivenNames x; first | (apply cut (p := Keeps s0 x); (case' hp => dsimp -zeta only [x]; clear x); (case' hq => clear_value x; revert x; intro _ _)) | (clear_value x; revert x; intro _)) | split | with_reducible apply Keeps.upd)))

theorem execConnectionClose_keeps {s0 s : State} (conn : Nat)  (h : Keeps s0 s) :
    Goes s0 (execConnectionClose conn s) := by
  unfold execConnectionClose
  iterate 60 (all_goals (try (first | with_reducible assumption | with_reducible apply goes_next | with_reducible apply State.closeConn_keeps)))

theorem execIcreq_keeps {s0 s : State} (conn : Nat) (pfv : Nat) (hpda : Nat) (hdgst : Bool) (ddgst : Bool)  (h : Keeps s0 s) :
    Goes s0 (execIcreq conn pfv hpda hdgst ddgst s) := by
  unfold execIcreq
  iterate 60 (all_goals (try (first | with_reducible assumption | with_reducible apply goes_next | with_reducible apply State.closeConn_keeps | with_reducible apply State.modConn_keeps | with_reducible apply State.sendConn_keeps | with_reducible exact fun w => w | (intro _; try dsimp -zeta only) | (extract_lets +onlyGivenNames x; first | (apply cut (p := Keeps s0 x); (case' hp => dsimp -zeta only [x]; clear x); (case' hq => clear_value x; revert x; intro _ _)) | (clear_value x; revert x; intro _)) | split | with_reducible apply Keeps.upd | dsimp -zeta only)))

theorem State.headerError_keeps {s0 s : State} (conn : Nat) (c : Conn)  (h : Keeps s0 s) :
    Keeps s0 (State.headerError s conn c) := by
  unfold State.headerError
  iterate 60 (all_goals (try (first | with_reducible assumption | with_reducible apply State.closeConn_keeps | with_reducible apply State.countFld_keeps | with_reducible apply State.event_keeps | with_reducible apply State.sendConn_keeps)))

theorem State.dataError_keeps {s0 s : State} (c : Conn)  (h : Keeps s0 s) :
    Keeps s0 (State.dataError s c) := by
  unfold State.dataError
  iterate 60 (all_goals (try (first | with_reducible assumption | with_reducible apply State.countFld_keeps | with_reducible apply State.event_keeps)))

theorem execCapsuleReceive_keeps {s0 s : State} (conn : Nat) (cid : Nat) (bytes : Nat) (headerOk : Bool) (dataOk : Bool) (despiteFull : Bool)  (h : Keeps s0 s) :
    Goes s0 (execCapsuleReceive conn cid bytes headerOk dataOk despiteFull s) := by
  unfold execCapsuleReceive
  iterate 60 (all_goals (try (first | with_reducible assumption | with_reducible apply goes_next | with_reducible apply State.arrive_keeps | with_reducible apply State.dataError_keeps | with_reducible apply State.headerError_keeps | with_reducible apply State.modQueue_keeps | with_reducible apply State.overrun_keeps | with_reducible apply State.post_keeps | with_reducible exact fun w => w | (intro _; try dsimp -zeta only) | (extract_lets +onlyGivenNames x; first | (apply cut (p := Keeps s0 x); (case' hp => dsimp -zeta only [x]; clear x); (case' hq => clear_value x; revert x; intro _ _)) | (clear_value x; revert x; intro _)) | split | with_reducible apply Keeps.upd | dsimp -zeta only)))

theorem execH2cData_keeps {s0 s : State} (conn : Nat) (cid : Nat) (headerOk dataOk : Bool)  (h : Keeps s0 s) :
    Goes s0 (execH2cData conn cid headerOk dataOk s) := by
  unfold execH2cData
  iterate 60 (all_goals (try (first | with_reducible assumption | with_reducible apply goes_next | with_reducible apply State.headerError_keeps | with_reducible apply State.complete_keeps | with_reducible apply State.dataError_keeps | with_reducible apply State.modConn_keeps | with_reducible apply State.modCtx_keeps | with_reducible exact fun w => w | (intro _; try dsimp -zeta only) | (extract_lets +onlyGivenNames x; first | (apply cut (p := Keeps s0 x); (case' hp => dsimp -zeta only [x]; clear x); (case' hq => clear_value x; revert x; intro _ _)) | (clear_value x; revert x; intro _)) | split | with_reducible apply Keeps.upd | dsimp -zeta only)))

theorem execRefusedConnectionTimeout_keeps {s0 s : State} (conn : Nat)  (h : Keeps s0 s) :
    Goes s0 (execRefusedConnectionTimeout conn s) := by
  unfold execRefusedConnectionTimeout
  iterate 60 (all_goals (try (first | with_reducible assumption | with_reducible apply goes_next | with_reducible apply State.closeConn_keeps | split | dsimp -zeta only)))

theorem execTcpTimerExpiry_keeps {s0 s : State} (conn : Nat) (timer : Fin 3)  (h : Keeps s0 s) :
    Goes s0 (execTcpTimerExpiry conn timer s) := by
  unfold execTcpTimerExpiry
  iterate 60 (all_goals (try (first | with_reducible assumption | with_reducible apply goes_next | with_reducible apply State.closeConn_keeps | with_reducible apply State.modConn_keeps | with_reducible apply State.sendConn_keeps | with_reducible exact fun w => w | (intro _; try dsimp -zeta only) | (extract_lets +onlyGivenNames x; first | (apply cut (p := Keeps s0 x); (case' hp => dsimp -zeta only [x]; clear x); (case' hq => clear_value x; revert x; intro _ _)) | (clear_value x; revert x; intro _)) | split | with_reducible apply Keeps.upd | dsimp -zeta only)))

theorem execKeepAliveExpiry_keeps {s0 s : State} (assoc : Nat)  (h : Keeps s0 s) :
    Goes s0 (execKeepAliveExpiry assoc s) := by
  unfold execKeepAliveExpiry
  iterate 60 (all_goals (try (first | with_reducible assumption | with_reducible apply goes_next | with_reducible apply State.endAssoc_keeps | with_reducible apply State.event_keeps | split | dsimp -zeta only)))

theorem State.postConn_keeps {s0 s : State} (conn : Nat) (cid : Nat) (t : Status) (dw0 : Nat)  (h : Keeps s0 s) :
    Keeps s0 (State.postConn s conn cid t dw0) := by
  unfold State.postConn
  iterate 60 (all_goals (try (first | with_reducible assumption | with_reducible apply State.modHost_keeps | with_reducible exact fun w => w | (intro _; try dsimp -zeta only) | (extract_lets +onlyGivenNames x; first | (apply cut (p := Keeps s0 x); (case' hp => dsimp -zeta only [x]; clear x); (case' hq => clear_value x; revert x; intro _ _)) | (clear_value x; revert x; intro _)) | with_reducible apply Keeps.upd)))

theorem State.bodyConnect_keeps {s0 s : State} (conn : Nat) (k : Conn) (c : Cmd)  (h : Keeps s0 s) :
    Keeps s0 (State.bodyConnect s conn k c) := by
  unfold State.bodyConnect
  iterate 60 (all_goals (try (first | with_reducible assumption | with_reducible apply State.countFld_keeps | with_reducible apply State.event_keeps | with_reducible apply State.modAssoc_keeps | with_reducible apply State.modConn_keeps | with_reducible apply State.modHost_keeps | with_reducible apply State.post_keeps | with_reducible apply State.postConn_keeps | with_reducible exact fun w => w | (intro _; try dsimp -zeta only) | (extract_lets +onlyGivenNames x; first | (apply cut (p := Keeps s0 x); (case' hp => dsimp -zeta only [x]; clear x); (case' hq => clear_value x; revert x; intro _ _)) | (clear_value x; revert x; intro _)) | split | with_reducible apply Keeps.upd | dsimp -zeta only)))

theorem execFabricsConnect_keeps {s0 s : State} (c : Cmd)  (h : Keeps s0 s) :
    Goes s0 (execFabricsConnect c s) := by
  unfold execFabricsConnect
  iterate 60 (all_goals (try (first | with_reducible assumption | with_reducible apply goes_next | with_reducible apply State.bodyConnect_keeps | split | dsimp -zeta only)))

theorem State.setAuth_keeps {s0 s : State} (a : Nat) (st : AuthState)  (h : Keeps s0 s) :
    Keeps s0 (State.setAuth s a st) := by
  unfold State.setAuth
  iterate 60 (all_goals (try (first | with_reducible assumption | with_reducible apply State.modAssoc_keeps | with_reducible exact fun w => w | (intro _; try dsimp -zeta only) | (extract_lets +onlyGivenNames x; first | (apply cut (p := Keeps s0 x); (case' hp => dsimp -zeta only [x]; clear x); (case' hq => clear_value x; revert x; intro _ _)) | (clear_value x; revert x; intro _)) | with_reducible apply Keeps.upd)))

theorem State.authFail_keeps {s0 s : State} (a : Nat) (tid : Nat) (reason : Nat)  (h : Keeps s0 s) :
    Keeps s0 (State.authFail s a tid reason) := by
  unfold State.authFail
  iterate 60 (all_goals (try (first | with_reducible assumption | with_reducible apply State.event_keeps | with_reducible apply State.modAssoc_keeps | with_reducible apply State.setAuth_keeps | with_reducible exact fun w => w | (intro _; try dsimp -zeta only) | (extract_lets +onlyGivenNames x; first | (apply cut (p := Keeps s0 x); (case' hp => dsimp -zeta only [x]; clear x); (case' hq => clear_value x; revert x; intro _ _)) | (clear_value x; revert x; intro _)) | with_reducible apply Keeps.upd)))

theorem State.authDone_keeps {s0 s : State} (a : Nat)  (h : Keeps s0 s) :
    Keeps s0 (State.authDone s a) := by
  unfold State.authDone
  iterate 60 (all_goals (try (first | with_reducible assumption | with_reducible apply State.modAssoc_keeps | with_reducible apply State.setAuth_keeps | with_reducible exact fun w => w | (intro _; try dsimp -zeta only) | (extract_lets +onlyGivenNames x; first | (apply cut (p := Keeps s0 x); (case' hp => dsimp -zeta only [x]; clear x); (case' hq => clear_value x; revert x; intro _ _)) | (clear_value x; revert x; intro _)) | with_reducible apply Keeps.upd)))

theorem State.authNegotiate_keeps {s0 s : State} (a : Nat) (tid : Nat) (d : List Byte)  (h : Keeps s0 s) :
    Keeps s0 (State.authNegotiate s a tid d) := by
  unfold State.authNegotiate
  iterate 60 (all_goals (try (first | with_reducible assumption | with_reducible apply State.authFail_keeps | with_reducible apply State.setAuth_keeps | (intro _; try dsimp -zeta only) | (extract_lets +onlyGivenNames x; first | (apply cut (p := Keeps s0 x); (case' hp => dsimp -zeta only [x]; clear x); (case' hq => clear_value x; revert x; intro _ _)) | (clear_value x; revert x; intro _)) | split | dsimp -zeta only)))

theorem State.authReply_keeps {s0 s : State} (a : Nat) (tid : Nat) (d : List Byte)  (h : Keeps s0 s) :
    Keeps s0 (State.authReply s a tid d) := by
  unfold State.authReply
  iterate 60 (all_goals (try (first | with_reducible assumption | with_reducible apply State.authFail_keeps | with_reducible apply State.setAuth_keeps | (extract_lets +onlyGivenNames x; first | (apply cut (p := Keeps s0 x); (case' hp => dsimp -zeta only [x]; clear x); (case' hq => clear_value x; revert x; intro _ _)) | (clear_value x; revert x; intro _)) | split | dsimp -zeta only)))

theorem State.authMessage_keeps {s0 s : State} (a : Nat) (d : List Byte)  (h : Keeps s0 s) :
    Keeps s0 (State.authMessage s a d) := by
  unfold State.authMessage
  iterate 60 (all_goals (try (first | with_reducible assumption | with_reducible apply State.authDone_keeps | with_reducible apply State.authFail_keeps | with_reducible apply State.authNegotiate_keeps | with_reducible apply State.authReply_keeps | with_reducible apply State.setAuth_keeps | (extract_lets +onlyGivenNames x; first | (apply cut (p := Keeps s0 x); (case' hp => dsimp -zeta only [x]; clear x); (case' hq => clear_value x; revert x; intro _ _)) | (clear_value x; revert x; intro _)) | split)))

theorem State.freeBytes_keeps {s0 s : State} (n : Nat)  (h : Keeps s0 s) :
    Keeps s0 (State.freeBytes s n).2 := by
  unfold State.freeBytes
  iterate 60 (all_goals (try (first | with_reducible assumption | with_reducible apply State.free_keeps | with_reducible apply foldl_keeps | with_reducible apply foldl_keeps_snd | (intro _; try dsimp -zeta only) | (extract_lets +onlyGivenNames x; first | (apply cut (p := Keeps s0 x); (case' hp => dsimp -zeta only [x]; clear x); (case' hq => clear_value x; revert x; intro _ _)) | (apply cut (p := Keeps s0 x.2); (case' hp => dsimp -zeta only [x]; clear x); (case' hq => clear_value x; revert x; intro _ _)) | (clear_value x; revert x; intro _)) | dsimp -zeta only)))

theorem State.authChallenge_keeps {s0 s : State} (a : Nat) (t : AuthTr)  (h : Keeps s0 s) :
    Keeps s0 (State.authChallenge s a t).2 := by
  unfold State.authChallenge
  iterate 60 (all_goals (try (first | with_reducible assumption | with_reducible apply State.free_keeps | with_reducible apply State.freeBytes_keeps | with_reducible apply State.setAuth_keeps | (extract_lets +onlyGivenNames x; first | (apply cut (p := Keeps s0 x); (case' hp => dsimp -zeta only [x]; clear x); (case' hq => clear_value x; revert x; intro _ _)) | (apply cut (p := Keeps s0 x.2); (case' hp => dsimp -zeta only [x]; clear x); (case' hq => clear_value x; revert x; intro _ _)) | (clear_value x; revert x; intro _)) | dsimp -zeta only)))

theorem State.authReturn_keeps {s0 s : State} (a : Nat)  (h : Keeps s0 s) :
    Keeps s0 (State.authReturn s a).2 := by
  unfold State.authReturn
  iterate 60 (all_goals (try (first | with_reducible assumption | with_reducible apply State.authChallenge_keeps | with_reducible apply State.authDone_keeps | with_reducible apply State.authFail_keeps | with_reducible apply State.setAuth_keeps | split | dsimp -zeta only)))

theorem State.bodyAuthSend_keeps {s0 s : State} (x : Ctx) (c : Cmd)  (h : Keeps s0 s) :
    Keeps s0 (State.bodyAuthSend s x c) := by
  unfold State.bodyAuthSend
  iterate 60 (all_goals (try (first | with_reducible assumption | with_reducible apply State.authMessage_keeps | with_reducible apply State.complete_keeps)))

theorem State.bodyAuthReceive_keeps {s0 s : State} (x : Ctx) (c : Cmd)  (h : Keeps s0 s) :
    Keeps s0 (State.bodyAuthReceive s x c) := by
  unfold State.bodyAuthReceive
  iterate 60 (all_goals (try (first | with_reducible assumption | with_reducible apply State.authReturn_keeps | with_reducible apply State.complete_keeps | (extract_lets +onlyGivenNames x; first | (apply cut (p := Keeps s0 x); (case' hp => dsimp -zeta only [x]; clear x); (case' hq => clear_value x; revert x; intro _ _)) | (apply cut (p := Keeps s0 x.2); (case' hp => dsimp -zeta only [x]; clear x); (case' hq => clear_value x; revert x; intro _ _)) | (clear_value x; revert x; intro _)) | dsimp -zeta only)))

theorem State.bodyPropertyGet_keeps {s0 s : State} (x : Ctx) (c : Cmd)  (h : Keeps s0 s) :
    Keeps s0 (State.bodyPropertyGet s x c) := by
  unfold State.bodyPropertyGet
  iterate 60 (all_goals (try (first | with_reducible assumption | with_reducible apply State.complete_keeps | (extract_lets +onlyGivenNames x; first | (apply cut (p := Keeps s0 x); (case' hp => dsimp -zeta only [x]; clear x); (case' hq => clear_value x; revert x; intro _ _)) | (clear_value x; revert x; intro _)) | split | dsimp -zeta only)))

theorem State.bodyPropertySet_keeps {s0 s : State} (x : Ctx) (c : Cmd)  (h : Keeps s0 s) :
    Keeps s0 (State.bodyPropertySet s x c) := by
  unfold State.bodyPropertySet
  iterate 60 (all_goals (try (first | with_reducible assumption | with_reducible apply State.bootFree_keeps | with_reducible apply State.complete_keeps | with_reducible apply State.deviceReset_keeps | with_reducible apply State.modAssoc_keeps | with_reducible exact fun w => w | (intro _; try dsimp -zeta only) | (extract_lets +onlyGivenNames x; first | (apply cut (p := Keeps s0 x); (case' hp => dsimp -zeta only [x]; clear x); (case' hq => clear_value x; revert x; intro _ _)) | (apply cut (p := Keeps s0 x.2); (case' hp => dsimp -zeta only [x]; clear x); (case' hq => clear_value x; revert x; intro _ _)) | (clear_value x; revert x; intro _)) | split | with_reducible apply Keeps.upd | dsimp -zeta only)))

theorem execSqTailDoorbell_keeps {s0 s : State} (qid : Nat) (tail : Nat) (cids : List Nat)  (h : Keeps s0 s) :
    Goes s0 (execSqTailDoorbell qid tail cids s) := by
  unfold execSqTailDoorbell
  iterate 60 (all_goals (try (first | with_reducible assumption | with_reducible apply goes_next | with_reducible apply State.arrive_keeps | with_reducible apply State.modHost_keeps | with_reducible apply foldl_keeps | with_reducible exact fun w => w | (intro _; try dsimp -zeta only) | (extract_lets +onlyGivenNames x; first | (apply cut (p := Keeps s0 x); (case' hp => dsimp -zeta only [x]; clear x); (case' hq => clear_value x; revert x; intro _ _)) | (clear_value x; revert x; intro _)) | split | with_reducible apply Keeps.upd | dsimp -zeta only)))

theorem State.postHeld_keeps {s0 s : State}   (h : Keeps s0 s) :
    Keeps s0 (State.postHeld s) := by
  unfold State.postHeld
  iterate 60 (all_goals (try (first | with_reducible assumption | with_reducible apply State.modHost_keeps | with_reducible apply State.post_keeps | with_reducible apply foldl_keeps | with_reducible exact fun w => w | (intro _; try dsimp -zeta only) | (extract_lets +onlyGivenNames x; first | (apply cut (p := Keeps s0 x); (case' hp => dsimp -zeta only [x]; clear x); (case' hq => clear_value x; revert x; intro _ _)) | (clear_value x; revert x; intro _)) | with_reducible apply Keeps.upd)))

theorem execCqHeadDoorbell_keeps {s0 s : State} (qid : Nat) (head : Nat)  (h : Keeps s0 s) :
    Goes s0 (execCqHeadDoorbell qid head s) := by
  unfold execCqHeadDoorbell
  iterate 60 (all_goals (try (first | with_reducible assumption | with_reducible apply goes_next | with_reducible apply State.modAssoc_keeps | with_reducible apply State.postHeld_keeps | with_reducible exact fun w => w | (intro _; try dsimp -zeta only) | (extract_lets +onlyGivenNames x; first | (apply cut (p := Keeps s0 x); (case' hp => dsimp -zeta only [x]; clear x); (case' hq => clear_value x; revert x; intro _ _)) | (clear_value x; revert x; intro _)) | split | with_reducible apply Keeps.upd)))

theorem execControllerEnable_keeps {s0 s : State} (acqs : Nat)  (h : Keeps s0 s) :
    Goes s0 (execControllerEnable acqs s) := by
  unfold execControllerEnable
  iterate 60 (all_goals (try (first | with_reducible assumption | with_reducible apply goes_next | with_reducible apply State.modHost_keeps | with_reducible exact fun w => w | (intro _; try dsimp -zeta only) | (extract_lets +onlyGivenNames x; first | (apply cut (p := Keeps s0 x); (case' hp => dsimp -zeta only [x]; clear x); (case' hq => clear_value x; revert x; intro _ _)) | (clear_value x; revert x; intro _)) | split | with_reducible apply Keeps.upd)))

theorem execControllerDisable_keeps {s0 s : State}   (h : Keeps s0 s) :
    Goes s0 (execControllerDisable s) := by
  unfold execControllerDisable
  iterate 60 (all_goals (try (first | with_reducible assumption | with_reducible apply goes_next | with_reducible apply State.resetFunction0_keeps)))

theorem execPerstAssert_keeps {s0 s : State}   (h : Keeps s0 s) :
    Goes s0 (execPerstAssert s) := by
  unfold execPerstAssert
  iterate 60 (all_goals (try (first | with_reducible assumption | with_reducible apply goes_next | with_reducible apply State.modHost_keeps | with_reducible apply State.resetFunction0_keeps | with_reducible exact fun w => w | (intro _; try dsimp -zeta only) | (extract_lets +onlyGivenNames x; first | (apply cut (p := Keeps s0 x); (case' hp => dsimp -zeta only [x]; clear x); (case' hq => clear_value x; revert x; intro _ _)) | (clear_value x; revert x; intro _)) | with_reducible apply Keeps.upd)))

theorem execFunctionLevelReset_keeps {s0 s : State} (f : Fin 2)  (h : Keeps s0 s) :
    Goes s0 (execFunctionLevelReset f s) := by
  unfold execFunctionLevelReset
  iterate 60 (all_goals (try (first | with_reducible assumption | with_reducible apply goes_next | with_reducible apply State.resetFunction0_keeps | split)))

theorem execPerstRise_keeps {s0 s : State} (boot : Boot)  (h : Keeps s0 s) :
    Goes s0 (execPerstRise boot s) := by
  unfold execPerstRise
  iterate 60 (all_goals (try (first | with_reducible assumption | with_reducible apply goes_next | with_reducible apply State.modHost_keeps | with_reducible apply State.resetFunction0_keeps | with_reducible apply State.wakeEvent_keeps | with_reducible exact fun w => w | (intro _; try dsimp -zeta only) | (extract_lets +onlyGivenNames x; first | (apply cut (p := Keeps s0 x); (case' hp => dsimp -zeta only [x]; clear x); (case' hq => clear_value x; revert x; intro _ _)) | (clear_value x; revert x; intro _)) | split | with_reducible apply Keeps.upd)))

theorem execLeaseExpiry_keeps {s0 s : State}   (h : Keeps s0 s) :
    Goes s0 (execLeaseExpiry s) := by
  unfold execLeaseExpiry
  iterate 60 (all_goals (try (first | with_reducible assumption | with_reducible apply goes_next | with_reducible apply State.endOwn_keeps | split)))

theorem execSuccessorWindowLapse_keeps {s0 s : State}   (h : Keeps s0 s) :
    Goes s0 (execSuccessorWindowLapse s) := by
  unfold execSuccessorWindowLapse
  iterate 60 (all_goals (try (first | with_reducible assumption | with_reducible apply goes_next | with_reducible apply State.endOwn_keeps | split)))

theorem State.miAnswer_keeps {s0 s : State} (status : Nat) (d : List Byte) (b : Boot)  (h : Keeps s0 s) :
    Keeps s0 (State.miAnswer s status d b) := by
  unfold State.miAnswer
  iterate 60 (all_goals (try (first | with_reducible assumption | with_reducible apply State.wakeEvent_keeps | with_reducible exact fun w => w | (intro _; try dsimp -zeta only) | (extract_lets +onlyGivenNames x; first | (apply cut (p := Keeps s0 x); (case' hp => dsimp -zeta only [x]; clear x); (case' hq => clear_value x; revert x; intro _ _)) | (clear_value x; revert x; intro _)) | split | with_reducible apply Keeps.upd)))

theorem execReadNvmeMiDataStructure_keeps {s0 s : State} (dtyp : Nat) (which : Nat) (boot : Boot)  (h : Keeps s0 s) :
    Goes s0 (execReadNvmeMiDataStructure dtyp which boot s) := by
  unfold execReadNvmeMiDataStructure
  iterate 60 (all_goals (try (first | with_reducible assumption | with_reducible apply goes_next | with_reducible apply State.miAnswer_keeps)))

theorem execSubsystemHealthStatusPoll_keeps {s0 s : State} (clear : Bool) (boot : Boot)  (h : Keeps s0 s) :
    Goes s0 (execSubsystemHealthStatusPoll clear boot s) := by
  unfold execSubsystemHealthStatusPoll
  iterate 60 (all_goals (try (first | with_reducible assumption | with_reducible apply goes_next | with_reducible apply State.miAnswer_keeps | with_reducible exact fun w => w | (intro _; try dsimp -zeta only) | (extract_lets +onlyGivenNames x; first | (apply cut (p := Keeps s0 x); (case' hp => dsimp -zeta only [x]; clear x); (case' hq => clear_value x; revert x; intro _ _)) | (clear_value x; revert x; intro _)) | split | with_reducible apply Keeps.upd)))

theorem execControllerHealthStatusPoll_keeps {s0 s : State} (ctrl : Nat) (boot : Boot)  (h : Keeps s0 s) :
    Goes s0 (execControllerHealthStatusPoll ctrl boot s) := by
  unfold execControllerHealthStatusPoll
  iterate 60 (all_goals (try (first | with_reducible assumption | with_reducible apply goes_next | with_reducible apply State.miAnswer_keeps | (extract_lets +onlyGivenNames x; first | (apply cut (p := Keeps s0 x); (case' hp => dsimp -zeta only [x]; clear x); (case' hq => clear_value x; revert x; intro _ _)) | (clear_value x; revert x; intro _)))))

theorem execConfigurationGet_keeps {s0 s : State} (ident : Nat) (boot : Boot)  (h : Keeps s0 s) :
    Goes s0 (execConfigurationGet ident boot s) := by
  unfold execConfigurationGet
  iterate 60 (all_goals (try (first | with_reducible assumption | with_reducible apply goes_next | with_reducible apply State.miAnswer_keeps | split)))

theorem execConfigurationSet_keeps {s0 s : State} (ident : Nat) (value : Nat) (boot : Boot)  (h : Keeps s0 s) :
    Goes s0 (execConfigurationSet ident value boot s) := by
  unfold execConfigurationSet
  iterate 60 (all_goals (try (first | with_reducible assumption | with_reducible apply goes_next | with_reducible apply State.miAnswer_keeps | with_reducible exact fun w => w | (intro _; try dsimp -zeta only) | (extract_lets +onlyGivenNames x; first | (apply cut (p := Keeps s0 x); (case' hp => dsimp -zeta only [x]; clear x); (case' hq => clear_value x; revert x; intro _ _)) | (clear_value x; revert x; intro _)) | split | with_reducible apply Keeps.upd)))

theorem execVpdRead_keeps {s0 s : State} (off : Nat) (len : Nat) (boot : Boot)  (h : Keeps s0 s) :
    Goes s0 (execVpdRead off len boot s) := by
  unfold execVpdRead
  iterate 60 (all_goals (try (first | with_reducible assumption | with_reducible apply goes_next | with_reducible apply State.miAnswer_keeps | split)))

theorem execMiTunnelledAdmin_keeps {s0 s : State} (opcode : Nat) (c : Cmd) (boot : Boot)  (h : Keeps s0 s) :
    Goes s0 (execMiTunnelledAdmin opcode c boot s) := by
  unfold execMiTunnelledAdmin
  iterate 60 (all_goals (try (first | with_reducible assumption | with_reducible apply goes_next | with_reducible apply State.miAnswer_keeps | (intro _; try dsimp -zeta only) | (extract_lets +onlyGivenNames x; first | (apply cut (p := Keeps s0 x); (case' hp => dsimp -zeta only [x]; clear x); (case' hq => clear_value x; revert x; intro _ _)) | (have hx : _ → State := x; clear hx; dsimp -zeta only [x]; clear x) | (have hx : _ → _ → State := x; clear hx; dsimp -zeta only [x]; clear x) | (have hx : _ → _ × State := x; clear hx; dsimp -zeta only [x]; clear x) | (clear_value x; revert x; intro _)) | split | dsimp -zeta only)))

end Sys2Proof.Machine
end

