-- ==== Sys2Proof/Laws/Keeps/Commands.lean ====
section
/-! SUPPORT. Machine/Commands.lean: each of its operations keeps the canonical forms, the queue and the order of free values. -/

namespace Sys2Proof.Machine

open Sys2Proof

theorem State.body_keeps {s0 s : State} (x : Ctx) (i : Instr) (launched : Bool)  (h : Keeps s0 s) :
    Keeps s0 (State.body s x i launched) := by
  unfold State.body
  iterate 60 (all_goals (try (first | with_reducible assumption | with_reducible apply State.bodyAer_keeps | with_reducible apply State.bodyAuthReceive_keeps | with_reducible apply State.bodyAuthSend_keeps | with_reducible apply State.bodyCast_keeps | with_reducible apply State.bodyCastLaunched_keeps | with_reducible apply State.bodyClaim_keeps | with_reducible apply State.bodyClearPatina_keeps | with_reducible apply State.bodyConstellation_keeps | with_reducible apply State.bodyCreateCq_keeps | with_reducible apply State.bodyCreateSq_keeps | with_reducible apply State.bodyDatasetManagement_keeps | with_reducible apply State.bodyDeleteCq_keeps | with_reducible apply State.bodyDeleteSq_keeps | with_reducible apply State.bodyFlush_keeps | with_reducible apply State.bodyFwCommit_keeps | with_reducible apply State.bodyFwDownload_keeps | with_reducible apply State.bodyGetFeatures_keeps | with_reducible apply State.bodyLoadCastProfile_keeps | with_reducible apply State.bodyLoadContentKey_keeps | with_reducible apply State.bodyLoadRecipe_keeps | with_reducible apply State.bodyMouldCommit_keeps | with_reducible apply State.bodyMouldWrite_keeps | with_reducible apply State.bodyNsAttachment_keeps | with_reducible apply State.bodyNsManagement_keeps | with_reducible apply State.bodyPropertyGet_keeps | with_reducible apply State.bodyPropertySet_keeps | with_reducible apply State.bodyRead_keeps | with_reducible apply State.bodyReadPatina_keeps | with_reducible apply State.bodyReconfigure_keeps | with_reducible apply State.bodyRegisterRead_keeps | with_reducible apply State.bodyRegisterWrite_keeps | with_reducible apply State.bodySetFeatures_keeps | with_reducible apply State.bodyTimedLaunched_keeps | with_reducible apply State.bodyTimedRead_keeps | with_reducible apply State.bodyTransform_keeps | with_reducible apply State.bodyWrite_keeps | with_reducible apply State.bodyWriteZeroes_keeps | with_reducible apply State.bodyYield_keeps | with_reducible apply State.clearPatina_keeps | with_reducible apply State.complete_keeps | with_reducible apply State.completeWith_keeps | split | dsimp -zeta only)))

theorem State.inFatal_keeps {s0 s : State} (x : Ctx) (i : Instr)  (h : Keeps s0 s) :
    Keeps s0 (State.inFatal s x i) := by
  unfold State.inFatal
  iterate 60 (all_goals (try (first | with_reducible assumption | with_reducible apply State.body_keeps | with_reducible apply State.complete_keeps | with_reducible exact fun w => w | with_reducible exact insertKey_rise _ _ | with_reducible exact RegFile.putAll_sorted _ | with_reducible exact RegFile.filter_sorted _ | with_reducible exact fun w => RegFile.putAll_sorted _ (RegFile.filter_sorted _ w) | (intro _; try dsimp -zeta only) | (extract_lets +onlyGivenNames x; first | (apply cut (p := Keeps s0 x); (case' hp => dsimp -zeta only [x]; clear x); (case' hq => clear_value x; revert x; intro _ _)) | (apply cut (p := Keeps s0 x.2); (case' hp => dsimp -zeta only [x]; clear x); (case' hq => clear_value x; revert x; intro _ _)) | (apply cut (p := Keeps s0 x.1); (case' hp => dsimp -zeta only [x]; clear x); (case' hq => clear_value x; revert x; intro _ _)) | (have hx : _ → State := x; clear hx; dsimp -zeta only [x]; clear x) | (have hx : _ → _ → State := x; clear hx; dsimp -zeta only [x]; clear x) | (have hx : _ → _ × State := x; clear hx; dsimp -zeta only [x]; clear x) | (have hx := x.wsnBlock; clear hx; dsimp -zeta only [x]; clear x) | (clear_value x; revert x; intro _)) | split | with_reducible apply Keeps.upd | dsimp -zeta only)))

theorem State.awaitExit_keeps {s0 s : State} (x : Ctx) (i : Instr) (h : Keeps s0 s) : Keeps s0 (s.awaitExit x i) :=
  State.modCtx_keeps _ _ _ _ (State.waitFor_keeps _ _ h)

theorem State.perform_keeps {s0 s : State} (x : Ctx) (i : Instr) (h : Keeps s0 s) : Keeps s0 (State.perform s x i) := by
  have c (t : Status) : Keeps s0 (s.complete x t) := State.complete_keeps _ _ _ _ _ _ _ h
  have m : Keeps s0 (match i with | .registerWrite _ => s.event 0x640 | _ => s) := by
    split
    · exact State.event_keeps _ _ _ h
    · exact h
  have b : Keeps s0 (s.body x i false) := State.body_keeps _ _ _ h
  unfold State.perform
  refine ite_keeps (c _) (ite_keeps (State.inFatal_keeps _ _ h) (ite_keeps (c _) (ite_keeps (ite_keeps b (c _)) (ite_keeps (c _)
    (ite_keeps (c _) (ite_keeps (State.awaitExit_keeps _ _ h) (ite_keeps (State.wakeCmd_keeps (State.awaitExit_keeps _ _ h))
    (ite_keeps (c _) (ite_keeps (State.complete_keeps _ _ _ _ _ _ _ m) ?_)))))))))
  split
  · exact ite_keeps (c _) b
  · exact b

theorem State.goOn_keeps {s0 s : State} (x : Ctx)  (h : Keeps s0 s) :
    Keeps s0 (State.goOn s x) := by
  unfold State.goOn
  iterate 60 (all_goals (try (first | with_reducible assumption | with_reducible apply State.body_keeps | with_reducible apply State.bodyFwCommit_keeps | with_reducible apply State.perform_keeps | with_reducible apply State.readWords_keeps | with_reducible apply State.tryActivate_keeps | with_reducible apply State.writePairs_keeps | split | dsimp -zeta only)))

theorem State.keepSince_keeps {s0 s : State} (x : Ctx)  (h : Keeps s0 s) :
    Keeps s0 (State.keepSince s x) := by
  unfold State.keepSince
  iterate 60 (all_goals (try (first | with_reducible assumption | with_reducible apply State.modHost_keeps | with_reducible exact fun w => w | (intro _; try dsimp -zeta only) | (extract_lets +onlyGivenNames x; first | (apply cut (p := Keeps s0 x); (case' hp => dsimp -zeta only [x]; clear x); (case' hq => clear_value x; revert x; intro _ _)) | (clear_value x; revert x; intro _)) | split | with_reducible apply Keeps.upd)))

theorem State.settle_keeps {s0 s : State}   (h : Keeps s0 s) :
    Keeps s0 (State.settle s) := by
  unfold State.settle
  iterate 60 (all_goals (try (first | with_reducible assumption | with_reducible apply State.goOn_keeps | with_reducible apply State.keepSince_keeps | with_reducible apply foldl_keeps | (intro _; try dsimp -zeta only) | split | dsimp -zeta only)))

theorem State.idleClock_keeps {s0 s : State}   (h : Keeps s0 s) :
    Keeps s0 (State.idleClock s) := by
  unfold State.idleClock
  iterate 60 (all_goals (try (first | with_reducible assumption | with_reducible apply State.settle_keeps | with_reducible apply State.tick_keeps)))

theorem State.askData_keeps {s0 s : State} (x : Ctx) (i : Instr) (c : Cmd)  (h : Keeps s0 s) :
    Keeps s0 (State.askData s x i c) := by
  unfold State.askData
  iterate 60 (all_goals (try (first | with_reducible assumption | with_reducible apply State.modConn_keeps | with_reducible apply State.sendConn_keeps | with_reducible exact fun w => w | (intro _; try dsimp -zeta only) | (extract_lets +onlyGivenNames x; first | (apply cut (p := Keeps s0 x); (case' hp => dsimp -zeta only [x]; clear x); (case' hq => clear_value x; revert x; intro _ _)) | (clear_value x; revert x; intro _)) | split | with_reducible apply Keeps.upd | dsimp -zeta only)))

theorem State.run_keeps {s0 s : State} (i : Instr) (c : Cmd)  (h : Keeps s0 s) :
    Keeps s0 (State.run s i c) := by
  unfold State.run
  iterate 60 (all_goals (try (first | with_reducible assumption | with_reducible apply State.askData_keeps | with_reducible apply State.modCtx_keeps | with_reducible apply State.perform_keeps | with_reducible apply State.settle_keeps | with_reducible apply State.takeContext_keeps | with_reducible exact fun w => w | (intro _; try dsimp -zeta only) | (extract_lets +onlyGivenNames x; first | (apply cut (p := Keeps s0 x); (case' hp => dsimp -zeta only [x]; clear x); (case' hq => clear_value x; revert x; intro _ _)) | (apply cut (p := Keeps s0 x.1); (case' hp => dsimp -zeta only [x]; clear x); (case' hq => clear_value x; revert x; intro _ _)) | (clear_value x; revert x; intro _)) | split | with_reducible apply Keeps.upd | dsimp -zeta only)))

theorem execDeleteIoSubmissionQueue_keeps {s0 s : State} (c : Cmd)  (h : Keeps s0 s) :
    Goes s0 (execDeleteIoSubmissionQueue c s) := by
  unfold execDeleteIoSubmissionQueue
  iterate 60 (all_goals (try (first | with_reducible assumption | with_reducible apply goes_next | with_reducible apply State.run_keeps)))

theorem execCreateIoSubmissionQueue_keeps {s0 s : State} (c : Cmd)  (h : Keeps s0 s) :
    Goes s0 (execCreateIoSubmissionQueue c s) := by
  unfold execCreateIoSubmissionQueue
  iterate 60 (all_goals (try (first | with_reducible assumption | with_reducible apply goes_next | with_reducible apply State.run_keeps)))

theorem execGetLogPage_keeps {s0 s : State} (c : Cmd)  (h : Keeps s0 s) :
    Goes s0 (execGetLogPage c s) := by
  unfold execGetLogPage
  iterate 60 (all_goals (try (first | with_reducible assumption | with_reducible apply goes_next | with_reducible apply State.run_keeps)))

theorem execDeleteIoCompletionQueue_keeps {s0 s : State} (c : Cmd)  (h : Keeps s0 s) :
    Goes s0 (execDeleteIoCompletionQueue c s) := by
  unfold execDeleteIoCompletionQueue
  iterate 60 (all_goals (try (first | with_reducible assumption | with_reducible apply goes_next | with_reducible apply State.run_keeps)))

theorem execCreateIoCompletionQueue_keeps {s0 s : State} (c : Cmd)  (h : Keeps s0 s) :
    Goes s0 (execCreateIoCompletionQueue c s) := by
  unfold execCreateIoCompletionQueue
  iterate 60 (all_goals (try (first | with_reducible assumption | with_reducible apply goes_next | with_reducible apply State.run_keeps)))

theorem execIdentify_keeps {s0 s : State} (c : Cmd)  (h : Keeps s0 s) :
    Goes s0 (execIdentify c s) := by
  unfold execIdentify
  iterate 60 (all_goals (try (first | with_reducible assumption | with_reducible apply goes_next | with_reducible apply State.run_keeps)))

theorem execAbort_keeps {s0 s : State} (c : Cmd)  (h : Keeps s0 s) :
    Goes s0 (execAbort c s) := by
  unfold execAbort
  iterate 60 (all_goals (try (first | with_reducible assumption | with_reducible apply goes_next | with_reducible apply State.run_keeps)))

theorem execSetFeatures_keeps {s0 s : State} (c : Cmd)  (h : Keeps s0 s) :
    Goes s0 (execSetFeatures c s) := by
  unfold execSetFeatures
  iterate 60 (all_goals (try (first | with_reducible assumption | with_reducible apply goes_next | with_reducible apply State.run_keeps)))

theorem execGetFeatures_keeps {s0 s : State} (c : Cmd)  (h : Keeps s0 s) :
    Goes s0 (execGetFeatures c s) := by
  unfold execGetFeatures
  iterate 60 (all_goals (try (first | with_reducible assumption | with_reducible apply goes_next | with_reducible apply State.run_keeps)))

theorem execAsynchronousEventRequest_keeps {s0 s : State} (c : Cmd)  (h : Keeps s0 s) :
    Goes s0 (execAsynchronousEventRequest c s) := by
  unfold execAsynchronousEventRequest
  iterate 60 (all_goals (try (first | with_reducible assumption | with_reducible apply goes_next | with_reducible apply State.run_keeps)))

theorem execNamespaceManagement_keeps {s0 s : State} (c : Cmd)  (h : Keeps s0 s) :
    Goes s0 (execNamespaceManagement c s) := by
  unfold execNamespaceManagement
  iterate 60 (all_goals (try (first | with_reducible assumption | with_reducible apply goes_next | with_reducible apply State.run_keeps)))

theorem execFirmwareCommit_keeps {s0 s : State} (c : Cmd)  (h : Keeps s0 s) :
    Goes s0 (execFirmwareCommit c s) := by
  unfold execFirmwareCommit
  iterate 60 (all_goals (try (first | with_reducible assumption | with_reducible apply goes_next | with_reducible apply State.run_keeps)))

theorem execFirmwareImageDownload_keeps {s0 s : State} (c : Cmd)  (h : Keeps s0 s) :
    Goes s0 (execFirmwareImageDownload c s) := by
  unfold execFirmwareImageDownload
  iterate 60 (all_goals (try (first | with_reducible assumption | with_reducible apply goes_next | with_reducible apply State.run_keeps)))

theorem execNamespaceAttachment_keeps {s0 s : State} (c : Cmd)  (h : Keeps s0 s) :
    Goes s0 (execNamespaceAttachment c s) := by
  unfold execNamespaceAttachment
  iterate 60 (all_goals (try (first | with_reducible assumption | with_reducible apply goes_next | with_reducible apply State.run_keeps)))

theorem execKeepAlive_keeps {s0 s : State} (c : Cmd)  (h : Keeps s0 s) :
    Goes s0 (execKeepAlive c s) := by
  unfold execKeepAlive
  iterate 60 (all_goals (try (first | with_reducible assumption | with_reducible apply goes_next | with_reducible apply State.run_keeps)))

theorem execPropertyGet_keeps {s0 s : State} (c : Cmd)  (h : Keeps s0 s) :
    Goes s0 (execPropertyGet c s) := by
  unfold execPropertyGet
  iterate 60 (all_goals (try (first | with_reducible assumption | with_reducible apply goes_next | with_reducible apply State.run_keeps)))

theorem execPropertySet_keeps {s0 s : State} (c : Cmd)  (h : Keeps s0 s) :
    Goes s0 (execPropertySet c s) := by
  unfold execPropertySet
  iterate 60 (all_goals (try (first | with_reducible assumption | with_reducible apply goes_next | with_reducible apply State.run_keeps)))

theorem execAuthenticationSend_keeps {s0 s : State} (c : Cmd)  (h : Keeps s0 s) :
    Goes s0 (execAuthenticationSend c s) := by
  unfold execAuthenticationSend
  iterate 60 (all_goals (try (first | with_reducible assumption | with_reducible apply goes_next | with_reducible apply State.run_keeps)))

theorem execAuthenticationReceive_keeps {s0 s : State} (c : Cmd)  (h : Keeps s0 s) :
    Goes s0 (execAuthenticationReceive c s) := by
  unfold execAuthenticationReceive
  iterate 60 (all_goals (try (first | with_reducible assumption | with_reducible apply goes_next | with_reducible apply State.run_keeps)))

theorem execClaimOwnership_keeps {s0 s : State} (c : Cmd)  (h : Keeps s0 s) :
    Goes s0 (execClaimOwnership c s) := by
  unfold execClaimOwnership
  iterate 60 (all_goals (try (first | with_reducible assumption | with_reducible apply goes_next | with_reducible apply State.run_keeps)))

theorem execYieldOwnership_keeps {s0 s : State} (c : Cmd)  (h : Keeps s0 s) :
    Goes s0 (execYieldOwnership c s) := by
  unfold execYieldOwnership
  iterate 60 (all_goals (try (first | with_reducible assumption | with_reducible apply goes_next | with_reducible apply State.run_keeps)))

theorem execLoadContentKey_keeps {s0 s : State} (c : Cmd)  (h : Keeps s0 s) :
    Goes s0 (execLoadContentKey c s) := by
  unfold execLoadContentKey
  iterate 60 (all_goals (try (first | with_reducible assumption | with_reducible apply goes_next | with_reducible apply State.run_keeps)))

theorem execLoadCastProfile_keeps {s0 s : State} (c : Cmd)  (h : Keeps s0 s) :
    Goes s0 (execLoadCastProfile c s) := by
  unfold execLoadCastProfile
  iterate 60 (all_goals (try (first | with_reducible assumption | with_reducible apply goes_next | with_reducible apply State.run_keeps)))

theorem execLoadRecipe_keeps {s0 s : State} (c : Cmd)  (h : Keeps s0 s) :
    Goes s0 (execLoadRecipe c s) := by
  unfold execLoadRecipe
  iterate 60 (all_goals (try (first | with_reducible assumption | with_reducible apply goes_next | with_reducible apply State.run_keeps)))

theorem execReadPatina_keeps {s0 s : State} (c : Cmd)  (h : Keeps s0 s) :
    Goes s0 (execReadPatina c s) := by
  unfold execReadPatina
  iterate 60 (all_goals (try (first | with_reducible assumption | with_reducible apply goes_next | with_reducible apply State.run_keeps)))

theorem execClearPatina_keeps {s0 s : State} (c : Cmd)  (h : Keeps s0 s) :
    Goes s0 (execClearPatina c s) := by
  unfold execClearPatina
  iterate 60 (all_goals (try (first | with_reducible assumption | with_reducible apply goes_next | with_reducible apply State.clearPatina_keeps | with_reducible apply State.run_keeps)))

theorem execRegisterWrite_keeps {s0 s : State} (c : Cmd)  (h : Keeps s0 s) :
    Goes s0 (execRegisterWrite c s) := by
  unfold execRegisterWrite
  iterate 60 (all_goals (try (first | with_reducible assumption | with_reducible apply goes_next | with_reducible apply State.run_keeps)))

theorem execRegisterRead_keeps {s0 s : State} (c : Cmd)  (h : Keeps s0 s) :
    Goes s0 (execRegisterRead c s) := by
  unfold execRegisterRead
  iterate 60 (all_goals (try (first | with_reducible assumption | with_reducible apply goes_next | with_reducible apply State.run_keeps)))

theorem execReconfigureFunction_keeps {s0 s : State} (c : Cmd)  (h : Keeps s0 s) :
    Goes s0 (execReconfigureFunction c s) := by
  unfold execReconfigureFunction
  iterate 60 (all_goals (try (first | with_reducible assumption | with_reducible apply goes_next | with_reducible apply State.run_keeps)))

theorem execConstellationStatus_keeps {s0 s : State} (c : Cmd)  (h : Keeps s0 s) :
    Goes s0 (execConstellationStatus c s) := by
  unfold execConstellationStatus
  iterate 60 (all_goals (try (first | with_reducible assumption | with_reducible apply goes_next | with_reducible apply State.run_keeps)))

theorem execFlush_keeps {s0 s : State} (c : Cmd)  (h : Keeps s0 s) :
    Goes s0 (execFlush c s) := by
  unfold execFlush
  iterate 60 (all_goals (try (first | with_reducible assumption | with_reducible apply goes_next | with_reducible apply State.run_keeps)))

theorem execWrite_keeps {s0 s : State} (c : Cmd)  (h : Keeps s0 s) :
    Goes s0 (execWrite c s) := by
  unfold execWrite
  iterate 60 (all_goals (try (first | with_reducible assumption | with_reducible apply goes_next | with_reducible apply State.run_keeps)))

theorem execRead_keeps {s0 s : State} (c : Cmd)  (h : Keeps s0 s) :
    Goes s0 (execRead c s) := by
  unfold execRead
  iterate 60 (all_goals (try (first | with_reducible assumption | with_reducible apply goes_next | with_reducible apply State.run_keeps)))

theorem execWriteZeroes_keeps {s0 s : State} (c : Cmd)  (h : Keeps s0 s) :
    Goes s0 (execWriteZeroes c s) := by
  unfold execWriteZeroes
  iterate 60 (all_goals (try (first | with_reducible assumption | with_reducible apply goes_next | with_reducible apply State.run_keeps)))

theorem execDatasetManagement_keeps {s0 s : State} (c : Cmd)  (h : Keeps s0 s) :
    Goes s0 (execDatasetManagement c s) := by
  unfold execDatasetManagement
  iterate 60 (all_goals (try (first | with_reducible assumption | with_reducible apply goes_next | with_reducible apply State.run_keeps)))

theorem execTimedRead_keeps {s0 s : State} (c : Cmd)  (h : Keeps s0 s) :
    Goes s0 (execTimedRead c s) := by
  unfold execTimedRead
  iterate 60 (all_goals (try (first | with_reducible assumption | with_reducible apply goes_next | with_reducible apply State.run_keeps)))

theorem execTransform_keeps {s0 s : State} (c : Cmd)  (h : Keeps s0 s) :
    Goes s0 (execTransform c s) := by
  unfold execTransform
  iterate 60 (all_goals (try (first | with_reducible assumption | with_reducible apply goes_next | with_reducible apply State.run_keeps)))

theorem execMouldWrite_keeps {s0 s : State} (c : Cmd)  (h : Keeps s0 s) :
    Goes s0 (execMouldWrite c s) := by
  unfold execMouldWrite
  iterate 60 (all_goals (try (first | with_reducible assumption | with_reducible apply goes_next | with_reducible apply State.run_keeps)))

theorem execMouldCommit_keeps {s0 s : State} (c : Cmd)  (h : Keeps s0 s) :
    Goes s0 (execMouldCommit c s) := by
  unfold execMouldCommit
  iterate 60 (all_goals (try (first | with_reducible assumption | with_reducible apply goes_next | with_reducible apply State.run_keeps)))

theorem execCast_keeps {s0 s : State} (c : Cmd)  (h : Keeps s0 s) :
    Goes s0 (execCast c s) := by
  unfold execCast
  iterate 60 (all_goals (try (first | with_reducible assumption | with_reducible apply goes_next | with_reducible apply State.run_keeps)))

theorem execMouldWithdrawDone_keeps {s0 s : State} (assoc : Nat) (qid : Nat) (cid : Nat)  (h : Keeps s0 s) :
    Goes s0 (execMouldWithdrawDone assoc qid cid s) := by
  unfold execMouldWithdrawDone
  iterate 60 (all_goals (try (first | with_reducible assumption | with_reducible apply goes_next | with_reducible apply State.settle_keeps | with_reducible apply State.withdrawDone_keeps)))

end Sys2Proof.Machine
end

