-- ==== Sys2Proof/Laws/Keeps/Compress.lean ====
section
/-! SUPPORT. Machine/Compress.lean: each of its operations keeps the canonical forms, the queue and the order of free values. -/

namespace Sys2Proof.Machine

open Sys2Proof

theorem State.setUnitState_keeps {s0 s : State} (u : Nat) (v : Nat)  (h : Keeps s0 s) :
    Keeps s0 (State.setUnitState s u v) := by
  unfold State.setUnitState
  iterate 60 (all_goals (try (first | with_reducible assumption | with_reducible apply State.setFld_keeps | (extract_lets +onlyGivenNames x; first | (apply cut (p := Keeps s0 x); (case' hp => dsimp -zeta only [x]; clear x); (case' hq => clear_value x; revert x; intro _ _)) | (clear_value x; revert x; intro _)))))

theorem State.modCmp_keeps {s0 s : State} (k : CmpJob) (f : CmpJob → CmpJob)  (h : Keeps s0 s) :
    Keeps s0 (State.modCmp s k f) := by
  unfold State.modCmp
  iterate 60 (all_goals (try (first | with_reducible assumption | with_reducible exact fun w => w | (intro _; try dsimp -zeta only) | (extract_lets +onlyGivenNames x; first | (apply cut (p := Keeps s0 x); (case' hp => dsimp -zeta only [x]; clear x); (case' hq => clear_value x; revert x; intro _ _)) | (clear_value x; revert x; intro _)) | split | with_reducible apply Keeps.upd)))

theorem State.endJob_keeps {s0 s : State} (j : CmpJob) (t : Status) (dw0 : Nat)  (h : Keeps s0 s) :
    Keeps s0 (State.endJob s j t dw0) := by
  unfold State.endJob
  iterate 60 (all_goals (try (first | with_reducible assumption | with_reducible apply State.complete_keeps | with_reducible apply State.dropCmp_keeps | with_reducible apply State.setFld_keeps | (extract_lets +onlyGivenNames x; first | (apply cut (p := Keeps s0 x); (case' hp => dsimp -zeta only [x]; clear x); (case' hq => clear_value x; revert x; intro _ _)) | (clear_value x; revert x; intro _)) | split | dsimp -zeta only)))

theorem execCompressionJobStart_keeps {s0 s : State}   (h : Keeps s0 s) :
    Goes s0 (execCompressionJobStart s) := by
  unfold execCompressionJobStart
  iterate 60 (all_goals (try (first | with_reducible assumption | with_reducible apply goes_next | with_reducible apply State.endJob_keeps | with_reducible apply State.event_keeps | with_reducible apply State.modCmp_keeps | with_reducible apply State.settle_keeps | with_reducible exact fun w => w | (intro _; try dsimp -zeta only) | (extract_lets +onlyGivenNames x; first | (apply cut (p := Keeps s0 x); (case' hp => dsimp -zeta only [x]; clear x); (case' hq => clear_value x; revert x; intro _ _)) | (clear_value x; revert x; intro _)) | split | with_reducible apply Keeps.upd | dsimp -zeta only)))

theorem State.jobOutput_keeps {s0 s : State} (j : CmpJob) (out : List Byte) (dw0 : Nat) (dw1 : Nat)  (h : Keeps s0 s) :
    Keeps s0 (State.jobOutput s j out dw0 dw1) := by
  unfold State.jobOutput
  iterate 60 (all_goals (try (first | with_reducible assumption | with_reducible apply State.complete_keeps | with_reducible apply State.dropCmp_keeps | with_reducible apply State.writeMould_keeps | with_reducible apply State.writeOutput_keeps | (extract_lets +onlyGivenNames x; first | (apply cut (p := Keeps s0 x); (case' hp => dsimp -zeta only [x]; clear x); (case' hq => clear_value x; revert x; intro _ _)) | (clear_value x; revert x; intro _)) | split | dsimp -zeta only)))

theorem State.compressed_keeps {s0 s : State} (u : Nat) (j : CmpJob) (h : Keeps s0 s) : Keeps s0 (State.compressed s u j) := by
  unfold State.compressed
  extract_lets out unver s1 t s2 s3 crc
  have h1 : Keeps s0 s1 := by
    dsimp -zeta only [s1]
    split
    · exact State.event_keeps _ _ _ (State.setUnitState_keeps _ _ h)
    · exact h
  have h2 : Keeps s0 s2 := ite_keeps (State.event_keeps _ _ _ h1) h1
  exact ite_keeps (State.endJob_keeps _ _ _ (State.free_keeps _ h1)) (State.jobOutput_keeps _ _ _ _ (State.countFld_keeps _ _ h2))

theorem execCompressionJobDone_keeps {s0 s : State} (u : Fin 4)  (h : Keeps s0 s) :
    Goes s0 (execCompressionJobDone u s) := by
  unfold execCompressionJobDone
  iterate 60 (all_goals (try (first | with_reducible assumption | with_reducible apply goes_next | with_reducible apply State.compressed_keeps | with_reducible apply State.countFld_keeps | with_reducible apply State.jobOutput_keeps | with_reducible apply State.settle_keeps | split | dsimp -zeta only)))

theorem execDecompressError_keeps {s0 s : State} (u : Fin 4)  (h : Keeps s0 s) :
    Goes s0 (execDecompressError u s) := by
  unfold execDecompressError
  iterate 60 (all_goals (try (first | with_reducible assumption | with_reducible apply goes_next | with_reducible apply State.countFld_keeps | with_reducible apply State.endJob_keeps | with_reducible apply State.event_keeps | with_reducible apply State.setFld_keeps | with_reducible apply State.settle_keeps | (extract_lets +onlyGivenNames x; first | (apply cut (p := Keeps s0 x); (case' hp => dsimp -zeta only [x]; clear x); (case' hq => clear_value x; revert x; intro _ _)) | (clear_value x; revert x; intro _)) | split | dsimp -zeta only)))

theorem execVerifierMismatch_keeps {s0 s : State} (u : Fin 4)  (h : Keeps s0 s) :
    Goes s0 (execVerifierMismatch u s) := by
  unfold execVerifierMismatch
  iterate 60 (all_goals (try (first | with_reducible assumption | with_reducible apply goes_next | with_reducible apply State.countFld_keeps | with_reducible apply State.endJob_keeps | with_reducible apply State.event_keeps | with_reducible apply State.modCmp_keeps | with_reducible apply State.settle_keeps | with_reducible exact fun w => w | (intro _; try dsimp -zeta only) | (extract_lets +onlyGivenNames x; first | (apply cut (p := Keeps s0 x); (case' hp => dsimp -zeta only [x]; clear x); (case' hq => clear_value x; revert x; intro _ _)) | (clear_value x; revert x; intro _)) | split | with_reducible apply Keeps.upd | dsimp -zeta only)))

theorem execVerifierDisable_keeps {s0 s : State} (u : Fin 4)  (h : Keeps s0 s) :
    Goes s0 (execVerifierDisable u s) := by
  unfold execVerifierDisable
  iterate 60 (all_goals (try (first | with_reducible assumption | with_reducible apply goes_next | with_reducible apply State.event_keeps | with_reducible apply State.setUnitState_keeps | split)))

theorem execVerifiedUnitWaitTimeout_keeps {s0 s : State} (assoc : Nat) (qid : Nat) (cid : Nat)  (h : Keeps s0 s) :
    Goes s0 (execVerifiedUnitWaitTimeout assoc qid cid s) := by
  unfold execVerifiedUnitWaitTimeout
  iterate 60 (all_goals (try (first | with_reducible assumption | with_reducible apply goes_next | with_reducible exact fun w => w | (intro _; try dsimp -zeta only) | (extract_lets +onlyGivenNames x; first | (apply cut (p := Keeps s0 x); (case' hp => dsimp -zeta only [x]; clear x); (case' hq => clear_value x; revert x; intro _ _)) | (clear_value x; revert x; intro _)) | split | with_reducible apply Keeps.upd)))

end Sys2Proof.Machine
end

