-- ==== Sys2Proof/Laws/Keeps/Ecc.lean ====
section
/-! SUPPORT. Machine/Ecc.lean: each of its operations keeps the canonical forms, the queue and the order of free values. -/

namespace Sys2Proof.Machine

open Sys2Proof

theorem State.bucketAdd_keeps {s0 s : State} (i : Nat)  (h : Keeps s0 s) :
    Keeps s0 (State.bucketAdd s i) := by
  unfold State.bucketAdd
  iterate 60 (all_goals (try (first | with_reducible assumption | with_reducible apply State.eventIn_keeps | with_reducible apply State.setFlag_keeps | with_reducible apply State.setFld_keeps | (extract_lets +onlyGivenNames x; first | (apply cut (p := Keeps s0 x); (case' hp => dsimp -zeta only [x]; clear x); (case' hq => clear_value x; revert x; intro _ _)) | (clear_value x; revert x; intro _)) | split)))

theorem State.retireSoon_keeps {s0 s : State} (addr : Nat)  (h : Keeps s0 s) :
    Keeps s0 (State.retireSoon s addr) := by
  unfold State.retireSoon
  iterate 60 (all_goals (try (first | with_reducible assumption | with_reducible apply State.modDram_keeps | with_reducible exact fun w => w | (intro _; try dsimp -zeta only) | (extract_lets +onlyGivenNames x; first | (apply cut (p := Keeps s0 x); (case' hp => dsimp -zeta only [x]; clear x); (case' hq => clear_value x; revert x; intro _ _)) | (clear_value x; revert x; intro _)) | split | with_reducible apply Keeps.upd)))

theorem State.recurred_keeps {s0 s : State} (i : Nat) (addr : Nat)  (h : Keeps s0 s) :
    Keeps s0 (State.recurred s i addr) := by
  unfold State.recurred
  iterate 60 (all_goals (try (first | with_reducible assumption | with_reducible apply State.retireSoon_keeps | (intro _; try dsimp -zeta only) | split)))

theorem execEccCorrected_keeps {s0 s : State} (instNo : Fin 128) (addr : Nat)  (h : Keeps s0 s) :
    Goes s0 (execEccCorrected instNo addr s) := by
  unfold execEccCorrected
  iterate 60 (all_goals (try (first | with_reducible assumption | with_reducible apply goes_next | with_reducible apply State.bucketAdd_keeps | with_reducible apply State.countFld_keeps | with_reducible apply State.l2Read_keeps | with_reducible apply State.modDram_keeps | with_reducible apply State.recurred_keeps | with_reducible apply State.seqEvent_keeps | with_reducible exact fun w => w | (intro _; try dsimp -zeta only) | (extract_lets +onlyGivenNames x; first | (apply cut (p := Keeps s0 x); (case' hp => dsimp -zeta only [x]; clear x); (case' hq => clear_value x; revert x; intro _ _)) | (clear_value x; revert x; intro _)) | split | with_reducible apply Keeps.upd)))

theorem execBucketLeak_keeps {s0 s : State}   (h : Keeps s0 s) :
    Goes s0 (execBucketLeak s) := by
  unfold execBucketLeak
  iterate 60 (all_goals (try (first | with_reducible assumption | with_reducible apply goes_next | with_reducible apply State.modDram_keeps | with_reducible apply State.setFld_keeps | with_reducible apply foldl_keeps | with_reducible exact fun w => w | (intro _; try dsimp -zeta only) | (extract_lets +onlyGivenNames x; first | (apply cut (p := Keeps s0 x); (case' hp => dsimp -zeta only [x]; clear x); (case' hq => clear_value x; revert x; intro _ _)) | (clear_value x; revert x; intro _)) | split | with_reducible apply Keeps.upd)))

theorem State.scrubbed_keeps {s0 s : State} (chan : Nat) (group : Nat)  (h : Keeps s0 s) :
    Keeps s0 (State.scrubbed s chan group) := by
  unfold State.scrubbed
  iterate 60 (all_goals (try (first | with_reducible assumption | with_reducible apply State.modDram_keeps | with_reducible exact fun w => w | (intro _; try dsimp -zeta only) | (extract_lets +onlyGivenNames x; first | (apply cut (p := Keeps s0 x); (case' hp => dsimp -zeta only [x]; clear x); (case' hq => clear_value x; revert x; intro _ _)) | (clear_value x; revert x; intro _)) | with_reducible apply Keeps.upd)))

theorem execTargetedScrub_keeps {s0 s : State} (rewritten : Bool)  (h : Keeps s0 s) :
    Goes s0 (execTargetedScrub rewritten s) := by
  unfold execTargetedScrub
  iterate 60 (all_goals (try (first | with_reducible assumption | with_reducible apply goes_next | with_reducible apply State.modDram_keeps | with_reducible apply State.scrubbed_keeps | with_reducible exact fun w => w | (intro _; try dsimp -zeta only) | (extract_lets +onlyGivenNames x; first | (apply cut (p := Keeps s0 x); (case' hp => dsimp -zeta only [x]; clear x); (case' hq => clear_value x; revert x; intro _ _)) | (clear_value x; revert x; intro _)) | split | with_reducible apply Keeps.upd | dsimp -zeta only)))

theorem execScrubGroup_keeps {s0 s : State} (chan : Fin 2) (group : Nat)  (h : Keeps s0 s) :
    Goes s0 (execScrubGroup chan group s) := by
  unfold execScrubGroup
  iterate 60 (all_goals (try (first | with_reducible assumption | with_reducible apply goes_next | with_reducible apply State.countFld_keeps | with_reducible apply State.scrubbed_keeps | with_reducible apply State.setFld_keeps | (extract_lets +onlyGivenNames x; first | (apply cut (p := Keeps s0 x); (case' hp => dsimp -zeta only [x]; clear x); (case' hq => clear_value x; revert x; intro _ _)) | (clear_value x; revert x; intro _)) | split)))

theorem execCheckLineWriteback_keeps {s0 s : State} (chan : Fin 2) (group : Nat)  (h : Keeps s0 s) :
    Goes s0 (execCheckLineWriteback chan group s) := by
  unfold execCheckLineWriteback
  iterate 60 (all_goals (try (first | with_reducible assumption | with_reducible apply goes_next | with_reducible apply State.modDram_keeps | with_reducible exact fun w => w | (intro _; try dsimp -zeta only) | (extract_lets +onlyGivenNames x; first | (apply cut (p := Keeps s0 x); (case' hp => dsimp -zeta only [x]; clear x); (case' hq => clear_value x; revert x; intro _ _)) | (clear_value x; revert x; intro _)) | with_reducible apply Keeps.upd)))

theorem State.discardData_keeps {s0 s : State} (x : Ctx)  (h : Keeps s0 s) :
    Keeps s0 (State.discardData s x) := by
  unfold State.discardData
  iterate 60 (all_goals (try (first | with_reducible assumption | with_reducible apply State.castFail_keeps | with_reducible apply State.dropJob_keeps | with_reducible apply State.rerun_keeps | split | dsimp -zeta only)))

theorem State.channelFail_keeps {s0 s : State} (ch : Nat)  (h : Keeps s0 s) :
    Keeps s0 (State.channelFail s ch) := by
  unfold State.channelFail
  iterate 60 (all_goals (try (first | with_reducible assumption | with_reducible apply State.discardData_keeps | with_reducible apply State.eventAt_keeps | with_reducible apply State.eventIn_keeps | with_reducible apply State.fatalActions_keeps | with_reducible apply State.modMedia_keeps | with_reducible apply State.restartRegion_keeps | with_reducible apply State.setFlag_keeps | with_reducible apply foldl_keeps | with_reducible exact fun w => w | (intro _; try dsimp -zeta only) | (extract_lets +onlyGivenNames x; first | (apply cut (p := Keeps s0 x); (case' hp => dsimp -zeta only [x]; clear x); (case' hq => clear_value x; revert x; intro _ _)) | (clear_value x; revert x; intro _)) | split | with_reducible apply Keeps.upd)))

theorem execDramChannelFail_keeps {s0 s : State} (chan : Fin 2)  (h : Keeps s0 s) :
    Goes s0 (execDramChannelFail chan s) := by
  unfold execDramChannelFail
  iterate 60 (all_goals (try (first | with_reducible assumption | with_reducible apply goes_next | with_reducible apply State.channelFail_keeps | with_reducible apply State.settle_keeps | (extract_lets +onlyGivenNames x; first | (apply cut (p := Keeps s0 x); (case' hp => dsimp -zeta only [x]; clear x); (case' hq => clear_value x; revert x; intro _ _)) | (clear_value x; revert x; intro _)) | split)))

theorem State.memoryError_keeps {s0 s : State} (a : Nat) (q : Nat) (c : Nat)  (h : Keeps s0 s) :
    Keeps s0 (State.memoryError s a q c) := by
  unfold State.memoryError
  iterate 60 (all_goals (try (first | with_reducible assumption | with_reducible apply State.castFail_keeps | with_reducible apply State.complete_keeps | with_reducible apply State.dropCmp_keeps | with_reducible apply State.dropWrite_keeps | split | dsimp -zeta only)))

theorem State.channelData_keeps {s0 s : State} (chan : Nat)  (h : Keeps s0 s) :
    Keeps s0 (State.channelData s chan) := by
  unfold State.channelData
  iterate 60 (all_goals (try (first | with_reducible assumption | with_reducible apply State.memoryError_keeps | split | dsimp -zeta only)))

theorem State.busError_keeps {s0 s : State} (i : Nat) (addr : Nat) (u : BusUser)  (h : Keeps s0 s) :
    Keeps s0 (State.busError s i addr u) := by
  unfold State.busError
  iterate 60 (all_goals (try (first | with_reducible assumption | with_reducible apply State.channelData_keeps | with_reducible apply State.dramWrite_keeps | with_reducible apply State.event_keeps | with_reducible apply State.eventIn_keeps | with_reducible apply State.l2Read_keeps | with_reducible apply State.leadFaulty_keeps | with_reducible apply State.loopFault_keeps | with_reducible apply State.memoryError_keeps | with_reducible apply State.modDram_keeps | with_reducible apply State.spindleFaulty_keeps | with_reducible apply execFollowFault_keeps | exact Goes.keeps (execFollowFault_keeps _ h) (by assumption) | with_reducible exact fun w => w | (intro _; try dsimp -zeta only) | (extract_lets +onlyGivenNames x; first | (apply cut (p := Keeps s0 x); (case' hp => dsimp -zeta only [x]; clear x); (case' hq => clear_value x; revert x; intro _ _)) | (have hx : _ → State := x; clear hx; dsimp -zeta only [x]; clear x) | (have hx : _ → _ → State := x; clear hx; dsimp -zeta only [x]; clear x) | (have hx : _ → _ × State := x; clear hx; dsimp -zeta only [x]; clear x) | (clear_value x; revert x; intro _)) | split | with_reducible apply Keeps.upd | dsimp -zeta only)))

theorem State.channelError_keeps {s0 s : State} (ch : Nat)  (h : Keeps s0 s) :
    Keeps s0 (State.channelError s ch) := by
  unfold State.channelError
  iterate 60 (all_goals (try (first | with_reducible assumption | with_reducible apply State.channelFail_keeps | with_reducible apply State.modDram_keeps | with_reducible exact fun w => w | (intro _; try dsimp -zeta only) | (extract_lets +onlyGivenNames x; first | (apply cut (p := Keeps s0 x); (case' hp => dsimp -zeta only [x]; clear x); (case' hq => clear_value x; revert x; intro _ _)) | (clear_value x; revert x; intro _)) | split | with_reducible apply Keeps.upd)))

theorem execEccUncorrectable_keeps {s0 s : State} (instNo : Fin 128) (addr : Nat) (user : BusUser)  (h : Keeps s0 s) :
    Goes s0 (execEccUncorrectable instNo addr user s) := by
  unfold execEccUncorrectable
  iterate 60 (all_goals (try (first | with_reducible assumption | with_reducible apply goes_next | with_reducible apply State.busError_keeps | with_reducible apply State.channelError_keeps | with_reducible apply State.countFld_keeps | with_reducible apply State.eventIn_keeps | with_reducible apply State.retireSoon_keeps | with_reducible apply State.setReg_keeps | with_reducible apply State.settle_keeps | (extract_lets +onlyGivenNames x; first | (apply cut (p := Keeps s0 x); (case' hp => dsimp -zeta only [x]; clear x); (case' hq => clear_value x; revert x; intro _ _)) | (clear_value x; revert x; intro _)) | split)))

theorem execEccInject_keeps {s0 s : State}   (h : Keeps s0 s) :
    Goes s0 (execEccInject s) := by
  unfold execEccInject
  iterate 60 (all_goals (try (first | with_reducible assumption | with_reducible apply goes_next | with_reducible apply State.dramWrite_keeps | with_reducible apply State.event_keeps | with_reducible apply State.modDram_keeps | with_reducible apply State.setFlag_keeps | with_reducible exact fun w => w | (intro _; try dsimp -zeta only) | (extract_lets +onlyGivenNames x; first | (apply cut (p := Keeps s0 x); (case' hp => dsimp -zeta only [x]; clear x); (case' hq => clear_value x; revert x; intro _ _)) | (clear_value x; revert x; intro _)) | split | with_reducible apply Keeps.upd)))

theorem execPageRetire_keeps {s0 s : State} (chan : Fin 2) (page : Nat) (uncorrectable : List Nat)  (h : Keeps s0 s) :
    Goes s0 (execPageRetire chan page uncorrectable s) := by
  unfold execPageRetire
  iterate 60 (all_goals (try (first | with_reducible assumption | with_reducible apply goes_next | with_reducible apply State.modDram_keeps | with_reducible apply State.retirePage_keeps | with_reducible exact fun w => w | (intro _; try dsimp -zeta only) | (extract_lets +onlyGivenNames x; first | (apply cut (p := Keeps s0 x); (case' hp => dsimp -zeta only [x]; clear x); (case' hq => clear_value x; revert x; intro _ _)) | (have hx : _ → State := x; clear hx; dsimp -zeta only [x]; clear x) | (have hx : _ → _ → State := x; clear hx; dsimp -zeta only [x]; clear x) | (have hx : _ → _ × State := x; clear hx; dsimp -zeta only [x]; clear x) | (clear_value x; revert x; intro _)) | split | with_reducible apply Keeps.upd)))

end Sys2Proof.Machine
end

