-- ==== Sys2Proof/Laws/Keeps/Recovery.lean ====
section
/-! SUPPORT. Machine/Recovery.lean: each of its operations keeps the canonical forms, the queue and the order of free values. -/

namespace Sys2Proof.Machine

open Sys2Proof

theorem execRetractRearm_keeps {s0 s : State}   (h : Keeps s0 s) :
    Goes s0 (execRetractRearm s) := by
  unfold execRetractRearm
  iterate 60 (all_goals (try (first | with_reducible assumption | with_reducible apply goes_next | with_reducible apply State.event_keeps | with_reducible apply State.loadHeads_keeps | with_reducible apply State.setFlag_keeps | with_reducible apply State.settle_keeps | (extract_lets +onlyGivenNames x; first | (apply cut (p := Keeps s0 x); (case' hp => dsimp -zeta only [x]; clear x); (case' hq => clear_value x; revert x; intro _ _)) | (clear_value x; revert x; intro _)) | split)))

theorem execRetractWaitTimeout_keeps {s0 s : State} (assoc : Nat) (qid : Nat) (cid : Nat)  (h : Keeps s0 s) :
    Goes s0 (execRetractWaitTimeout assoc qid cid s) := by
  unfold execRetractWaitTimeout
  iterate 60 (all_goals (try (first | with_reducible assumption | with_reducible apply goes_next | with_reducible apply State.complete_keeps | with_reducible apply State.dropWrite_keeps | split | dsimp -zeta only)))

theorem execApproachEnd_keeps {s0 s : State}   (h : Keeps s0 s) :
    Goes s0 (execApproachEnd s) := by
  unfold execApproachEnd
  iterate 60 (all_goals (try (first | with_reducible assumption | with_reducible apply goes_next | with_reducible apply State.modTime_keeps | with_reducible apply State.setPhase_keeps | with_reducible apply State.settle_keeps | with_reducible exact fun w => w | (intro _; try dsimp -zeta only) | (extract_lets +onlyGivenNames x; first | (apply cut (p := Keeps s0 x); (case' hp => dsimp -zeta only [x]; clear x); (case' hq => clear_value x; revert x; intro _ _)) | (clear_value x; revert x; intro _)) | split | with_reducible apply Keeps.upd)))

theorem State.release_keeps {s0 s : State} (x : Ctx) (i : Instr) (late : Bool)  (h : Keeps s0 s) :
    Keeps s0 (State.release s x i late) := by
  unfold State.release
  iterate 60 (all_goals (try (first | with_reducible assumption | with_reducible apply State.body_keeps | with_reducible apply State.countFld_keeps | with_reducible apply State.event_keeps | with_reducible apply State.modCtx_keeps | with_reducible apply State.modTime_keeps | with_reducible apply State.waitFor_keeps | with_reducible apply State.wakeCmd_keeps | with_reducible exact fun w => w | (intro _; try dsimp -zeta only) | (extract_lets +onlyGivenNames x; first | (apply cut (p := Keeps s0 x); (case' hp => dsimp -zeta only [x]; clear x); (case' hq => clear_value x; revert x; intro _ _)) | (clear_value x; revert x; intro _)) | split | with_reducible apply Keeps.upd | dsimp -zeta only)))

theorem execLaunchRelease_keeps {s0 s : State} (assoc : Nat) (qid : Nat) (cid : Nat)  (h : Keeps s0 s) :
    Goes s0 (execLaunchRelease assoc qid cid s) := by
  unfold execLaunchRelease
  iterate 60 (all_goals (try (first | with_reducible assumption | with_reducible apply goes_next | with_reducible apply State.release_keeps | with_reducible apply State.settle_keeps | (intro _; try dsimp -zeta only) | (extract_lets +onlyGivenNames x; first | (apply cut (p := Keeps s0 x); (case' hp => dsimp -zeta only [x]; clear x); (case' hq => clear_value x; revert x; intro _ _)) | (clear_value x; revert x; intro _)) | split | dsimp -zeta only)))

theorem execClass0BoundMiss_keeps {s0 s : State} (assoc : Nat) (qid : Nat) (cid : Nat) (window : Nat)  (h : Keeps s0 s) :
    Goes s0 (execClass0BoundMiss assoc qid cid window s) := by
  unfold execClass0BoundMiss
  iterate 60 (all_goals (try (first | with_reducible assumption | with_reducible apply goes_next | with_reducible apply State.countFld_keeps | with_reducible apply State.event_keeps | with_reducible apply State.modTime_keeps | with_reducible exact fun w => w | (intro _; try dsimp -zeta only) | (extract_lets +onlyGivenNames x; first | (apply cut (p := Keeps s0 x); (case' hp => dsimp -zeta only [x]; clear x); (case' hq => clear_value x; revert x; intro _ _)) | (clear_value x; revert x; intro _)) | split | with_reducible apply Keeps.upd | dsimp -zeta only)))

theorem State.endTimeWaits_keeps {s0 s : State}   (h : Keeps s0 s) :
    Keeps s0 (State.endTimeWaits s) := by
  unfold State.endTimeWaits
  iterate 60 (all_goals (try (first | with_reducible assumption | with_reducible apply State.endWait_keeps | with_reducible apply foldl_keeps | (intro _; try dsimp -zeta only) | split | dsimp -zeta only)))

theorem State.alarmWake_keeps {s0 s : State}   (h : Keeps s0 s) :
    Keeps s0 (State.alarmWake s) := by
  unfold State.alarmWake
  iterate 60 (all_goals (try (first | with_reducible assumption | with_reducible apply State.setFlag_keeps | with_reducible apply State.setReg_keeps | with_reducible apply State.startExit_keeps | with_reducible apply State.wakeRelease_keeps | (extract_lets +onlyGivenNames x; first | (apply cut (p := Keeps s0 x); (case' hp => dsimp -zeta only [x]; clear x); (case' hq => clear_value x; revert x; intro _ _)) | (clear_value x; revert x; intro _)) | split)))

theorem execAlarmFire_keeps {s0 s : State} (k : Fin 8)  (h : Keeps s0 s) :
    Goes s0 (execAlarmFire k s) := by
  unfold execAlarmFire
  iterate 60 (all_goals (try (first | with_reducible assumption | with_reducible apply goes_next | with_reducible apply State.alarmWake_keeps | with_reducible apply State.endTimeWaits_keeps | with_reducible apply State.event_keeps | with_reducible apply State.modHost_keeps | with_reducible apply State.modTime_keeps | with_reducible apply State.notice_keeps | with_reducible apply State.setFlag_keeps | with_reducible exact fun w => w | (intro _; try dsimp -zeta only) | (extract_lets +onlyGivenNames x; first | (apply cut (p := Keeps s0 x); (case' hp => dsimp -zeta only [x]; clear x); (case' hq => clear_value x; revert x; intro _ _)) | (clear_value x; revert x; intro _)) | split | with_reducible apply Keeps.upd)))

theorem State.afterCourse_keeps {s0 s : State} (x : Nat)  (h : Keeps s0 s) :
    Keeps s0 (State.afterCourse s x) := by
  unfold State.afterCourse
  iterate 60 (all_goals (try (first | with_reducible assumption | with_reducible apply State.modMedia_keeps | with_reducible exact fun w => w | (intro _; try dsimp -zeta only) | (extract_lets +onlyGivenNames x; first | (apply cut (p := Keeps s0 x); (case' hp => dsimp -zeta only [x]; clear x); (case' hq => clear_value x; revert x; intro _ _)) | (have hx := x.wsnBlock; clear hx; dsimp -zeta only [x]; clear x) | (clear_value x; revert x; intro _)) | split | with_reducible apply Keeps.upd)))

theorem execCourseRecovery_keeps {s0 s : State} (media : Nat) (lost : List Nat)  (h : Keeps s0 s) :
    Goes s0 (execCourseRecovery media lost s) := by
  unfold execCourseRecovery
  iterate 60 (all_goals (try (first | with_reducible assumption | with_reducible apply goes_next | with_reducible apply State.afterCourse_keeps | with_reducible apply State.courseLayer_keeps | with_reducible apply State.settle_keeps | (extract_lets +onlyGivenNames x; first | (apply cut (p := Keeps s0 x); (case' hp => dsimp -zeta only [x]; clear x); (case' hq => clear_value x; revert x; intro _ _)) | (apply cut (p := Keeps s0 x.2); (case' hp => dsimp -zeta only [x]; clear x); (case' hq => clear_value x; revert x; intro _ _)) | (clear_value x; revert x; intro _)) | split | dsimp -zeta only)))

theorem State.retryAdapt_keeps {s0 s : State} (x : Nat) (r : Nat)  (h : Keeps s0 s) :
    Keeps s0 (State.retryAdapt s x r) := by
  unfold State.retryAdapt
  iterate 60 (all_goals (try (first | with_reducible assumption | with_reducible apply State.loadEqualiser_keeps | (extract_lets +onlyGivenNames x; first | (apply cut (p := Keeps s0 x); (case' hp => dsimp -zeta only [x]; clear x); (case' hq => clear_value x; revert x; intro _ _)) | (clear_value x; revert x; intro _)) | split | dsimp -zeta only)))

theorem State.retried_keeps {s0 s : State} (r : Nat) (found : List (Nat × Nat)) (x : Nat)  (h : Keeps s0 s) :
    Keeps s0 (State.retried s r found x) := by
  unfold State.retried
  iterate 60 (all_goals (try (first | with_reducible assumption | with_reducible apply State.recovered_keeps | split | dsimp -zeta only)))

theorem execReadRetry_keeps {s0 s : State} (media : Nat) (delivered : List (Nat × Nat))  (h : Keeps s0 s) :
    Goes s0 (execReadRetry media delivered s) := by
  unfold execReadRetry
  iterate 60 (all_goals (try (first | with_reducible assumption | with_reducible apply goes_next | with_reducible apply State.modMedia_keeps | with_reducible apply State.retried_keeps | with_reducible apply State.retryAdapt_keeps | with_reducible apply State.settle_keeps | with_reducible apply foldl_keeps | with_reducible exact fun w => w | (intro _; try dsimp -zeta only) | (extract_lets +onlyGivenNames x; first | (apply cut (p := Keeps s0 x); (case' hp => dsimp -zeta only [x]; clear x); (case' hq => clear_value x; revert x; intro _ _)) | (have hx := x.wsnBlock; clear hx; dsimp -zeta only [x]; clear x) | (clear_value x; revert x; intro _)) | split | with_reducible apply Keeps.upd | dsimp -zeta only)))

theorem State.trussDelivered_keeps {s0 s : State} (x : Nat)  (h : Keeps s0 s) :
    Keeps s0 (State.trussDelivered s x) := by
  unfold State.trussDelivered
  iterate 60 (all_goals (try (first | with_reducible assumption | with_reducible apply State.delivered_keeps | with_reducible apply State.event_keeps | with_reducible apply State.modMedia_keeps | with_reducible exact fun w => w | (intro _; try dsimp -zeta only) | (extract_lets +onlyGivenNames x; first | (apply cut (p := Keeps s0 x); (case' hp => dsimp -zeta only [x]; clear x); (case' hq => clear_value x; revert x; intro _ _)) | (clear_value x; revert x; intro _)) | with_reducible apply Keeps.upd)))

theorem State.unrecovered_keeps {s0 s : State} (x : Nat)  (h : Keeps s0 s) :
    Keeps s0 (State.unrecovered s x) := by
  unfold State.unrecovered
  iterate 60 (all_goals (try (first | with_reducible assumption | with_reducible apply State.modMedia_keeps | with_reducible apply State.unrecover_keeps | with_reducible exact fun w => w | (intro _; try dsimp -zeta only) | (extract_lets +onlyGivenNames x; first | (apply cut (p := Keeps s0 x); (case' hp => dsimp -zeta only [x]; clear x); (case' hq => clear_value x; revert x; intro _ _)) | (have hx := x.wsnBlock; clear hx; dsimp -zeta only [x]; clear x) | (clear_value x; revert x; intro _)) | with_reducible apply Keeps.upd)))

theorem execTrussRecovery_keeps {s0 s : State} (media : Nat) (helpersOk : Bool)  (h : Keeps s0 s) :
    Goes s0 (execTrussRecovery media helpersOk s) := by
  unfold execTrussRecovery
  iterate 60 (all_goals (try (first | with_reducible assumption | with_reducible apply goes_next | with_reducible apply State.settle_keeps | with_reducible apply State.trussDelivered_keeps | with_reducible apply State.unrecovered_keeps | split | dsimp -zeta only)))

theorem execRecoveryLimitExpiry_keeps {s0 s : State} (assoc : Nat) (qid : Nat) (cid : Nat)  (h : Keeps s0 s) :
    Goes s0 (execRecoveryLimitExpiry assoc qid cid s) := by
  unfold execRecoveryLimitExpiry
  iterate 60 (all_goals (try (first | with_reducible assumption | with_reducible apply goes_next | with_reducible apply State.complete_keeps | with_reducible apply State.event_keeps | (extract_lets +onlyGivenNames x; first | (apply cut (p := Keeps s0 x); (case' hp => dsimp -zeta only [x]; clear x); (case' hq => clear_value x; revert x; intro _ _)) | (clear_value x; revert x; intro _)) | split | dsimp -zeta only)))

theorem execUnavailReconstruct_keeps {s0 s : State} (assoc : Nat) (qid : Nat) (cid : Nat)  (h : Keeps s0 s) :
    Goes s0 (execUnavailReconstruct assoc qid cid s) := by
  unfold execUnavailReconstruct
  iterate 60 (all_goals (try (first | with_reducible assumption | with_reducible apply goes_next | with_reducible apply State.body_keeps | with_reducible apply State.deliver_keeps | with_reducible apply State.event_keeps | with_reducible apply State.keepSince_keeps | with_reducible apply State.settle_keeps | with_reducible apply foldl_keeps | (intro _; try dsimp -zeta only) | (extract_lets +onlyGivenNames x; first | (apply cut (p := Keeps s0 x); (case' hp => dsimp -zeta only [x]; clear x); (case' hq => clear_value x; revert x; intro _ _)) | (clear_value x; revert x; intro _)) | split | dsimp -zeta only)))

theorem State.cutOver_keeps {s0 s : State} (a : Fin 4) (x : Nat)  (h : Keeps s0 s) :
    Keeps s0 (State.cutOver s a x) := by
  unfold State.cutOver
  iterate 60 (all_goals (try (first | with_reducible assumption | with_reducible apply State.modMedia_keeps | with_reducible apply State.modSeq_keeps | with_reducible exact fun w => w | (intro _; try dsimp -zeta only) | (extract_lets +onlyGivenNames x; first | (apply cut (p := Keeps s0 x); (case' hp => dsimp -zeta only [x]; clear x); (case' hq => clear_value x; revert x; intro _ _)) | (have hx := x.wsnBlock; clear hx; dsimp -zeta only [x]; clear x) | (clear_value x; revert x; intro _)) | split | with_reducible apply Keeps.upd)))

theorem State.cutWritten_keeps {s0 s : State} (a : Fin 4) (e : Entry)  (h : Keeps s0 s) :
    Keeps s0 (State.cutWritten s a e) := by
  unfold State.cutWritten
  iterate 60 (all_goals (try (first | with_reducible assumption | with_reducible apply State.cutOver_keeps | with_reducible apply State.rewriteAt_keeps)))

theorem execWriteRetry_keeps {s0 s : State} (media : Nat) (ok : Bool)  (h : Keeps s0 s) :
    Goes s0 (execWriteRetry media ok s) := by
  unfold execWriteRetry
  iterate 60 (all_goals (try (first | with_reducible assumption | with_reducible apply goes_next | with_reducible apply State.complete_keeps | with_reducible apply State.cutOver_keeps | with_reducible apply State.cutWritten_keeps | with_reducible apply State.dropWrite_keeps | with_reducible apply State.makeRoom_keeps | with_reducible apply State.modMedia_keeps | with_reducible apply State.reallocate_keeps | with_reducible apply State.settle_keeps | with_reducible apply State.unrecover_keeps | with_reducible exact fun w => w | (intro _; try dsimp -zeta only) | (extract_lets +onlyGivenNames x; first | (apply cut (p := Keeps s0 x); (case' hp => dsimp -zeta only [x]; clear x); (case' hq => clear_value x; revert x; intro _ _)) | (apply cut (p := Keeps s0 x.2); (case' hp => dsimp -zeta only [x]; clear x); (case' hq => clear_value x; revert x; intro _ _)) | (have hx := x.wsnBlock; clear hx; dsimp -zeta only [x]; clear x) | (clear_value x; revert x; intro _)) | split | with_reducible apply Keeps.upd | dsimp -zeta only)))

theorem State.writeParityAt_keeps {s0 s : State} (t : Nat) (i : Nat)  (h : Keeps s0 s) :
    Keeps s0 (State.writeParityAt s t i) := by
  unfold State.writeParityAt
  iterate 60 (all_goals (try (first | with_reducible assumption | with_reducible apply State.noteCourse_keeps | with_reducible apply State.recordSector_keeps | with_reducible apply State.unrecover_keeps | with_reducible apply foldl_keeps | (intro _; try dsimp -zeta only) | (extract_lets +onlyGivenNames x; first | (apply cut (p := Keeps s0 x); (case' hp => dsimp -zeta only [x]; clear x); (case' hq => clear_value x; revert x; intro _ _)) | (clear_value x; revert x; intro _)) | split)))

theorem execTrussParityWritten_keeps {s0 s : State} (truss : Nat)  (h : Keeps s0 s) :
    Goes s0 (execTrussParityWritten truss s) := by
  unfold execTrussParityWritten
  iterate 60 (all_goals (try (first | with_reducible assumption | with_reducible apply goes_next | with_reducible apply State.makeRoom_keeps | with_reducible apply State.modMedia_keeps | with_reducible apply State.trimBuffer_keeps | with_reducible apply State.writeParityAt_keeps | with_reducible apply State.writePass_keeps | with_reducible apply foldl_keeps | with_reducible exact fun w => w | (intro _; try dsimp -zeta only) | (extract_lets +onlyGivenNames x; first | (apply cut (p := Keeps s0 x); (case' hp => dsimp -zeta only [x]; clear x); (case' hq => clear_value x; revert x; intro _ _)) | (have hx := x.wsnBlock; clear hx; dsimp -zeta only [x]; clear x) | (clear_value x; revert x; intro _)) | split | with_reducible apply Keeps.upd | dsimp -zeta only)))

theorem execRangeLockGrant_keeps {s0 s : State} (assoc : Nat) (qid : Nat) (cid : Nat)  (h : Keeps s0 s) :
    Goes s0 (execRangeLockGrant assoc qid cid s) := by
  unfold execRangeLockGrant
  iterate 60 (all_goals (try (first | with_reducible assumption | with_reducible apply goes_next | with_reducible apply State.body_keeps | with_reducible apply State.modHost_keeps | with_reducible apply State.settle_keeps | with_reducible exact fun w => w | (intro _; try dsimp -zeta only) | (extract_lets +onlyGivenNames x; first | (apply cut (p := Keeps s0 x); (case' hp => dsimp -zeta only [x]; clear x); (case' hq => clear_value x; revert x; intro _ _)) | (clear_value x; revert x; intro _)) | split | with_reducible apply Keeps.upd | dsimp -zeta only)))

theorem execTrailingBufferSpace_keeps {s0 s : State} (assoc : Nat) (qid : Nat) (cid : Nat)  (h : Keeps s0 s) :
    Goes s0 (execTrailingBufferSpace assoc qid cid s) := by
  unfold execTrailingBufferSpace
  iterate 60 (all_goals (try (first | with_reducible assumption | with_reducible apply goes_next | with_reducible apply State.body_keeps | with_reducible apply State.keepSince_keeps | split | dsimp -zeta only)))

end Sys2Proof.Machine
end

