-- ==== Sys2Proof/Laws/Keeps/Faults.lean ====
section
/-! SUPPORT. Machine/Faults.lean: each of its operations keeps the canonical forms, the queue and the order of free values. -/

namespace Sys2Proof.Machine

open Sys2Proof

theorem execFaultEvent_keeps {s0 s : State} (block : Fin 38) (event : Nat) (detail : Nat) (detail64 : Nat)  (h : Keeps s0 s) :
    Goes s0 (execFaultEvent block event detail detail64 s) := by
  unfold execFaultEvent
  iterate 60 (all_goals (try (first | with_reducible assumption | with_reducible apply goes_next | with_reducible apply State.eventIn_keeps | with_reducible apply State.fatalActions_keeps | with_reducible apply State.noteEvent_keeps | with_reducible apply State.settle_keeps | (extract_lets +onlyGivenNames x; first | (apply cut (p := Keeps s0 x); (case' hp => dsimp -zeta only [x]; clear x); (case' hq => clear_value x; revert x; intro _ _)) | (clear_value x; revert x; intro _)) | split | dsimp -zeta only)))

theorem execSpindleEngineFault_keeps {s0 s : State} (standby : Option (Fin 3))  (h : Keeps s0 s) :
    Goes s0 (execSpindleEngineFault standby s) := by
  unfold execSpindleEngineFault
  iterate 60 (all_goals (try (first | with_reducible assumption | with_reducible apply goes_next | with_reducible apply State.spindleFaulty_keeps)))

theorem State.haltPower_keeps {s0 s : State}   (h : Keeps s0 s) :
    Keeps s0 (State.haltPower s) := by
  unfold State.haltPower
  iterate 60 (all_goals (try (first | with_reducible assumption | with_reducible apply State.complete_keeps | with_reducible apply State.modPln_keeps | with_reducible apply State.setFlag_keeps | with_reducible apply foldl_keeps | with_reducible exact fun w => w | (intro _; try dsimp -zeta only) | (extract_lets +onlyGivenNames x; first | (apply cut (p := Keeps s0 x); (case' hp => dsimp -zeta only [x]; clear x); (case' hq => clear_value x; revert x; intro _ _)) | (clear_value x; revert x; intro _)) | split | with_reducible apply Keeps.upd)))

theorem execEscalationExpiry_keeps {s0 s : State} (region : Fin 7)  (h : Keeps s0 s) :
    Goes s0 (execEscalationExpiry region s) := by
  unfold execEscalationExpiry
  iterate 60 (all_goals (try (first | with_reducible assumption | with_reducible apply goes_next | with_reducible apply State.escalateRestart_keeps | with_reducible apply State.fatalActions_keeps | with_reducible apply State.haltPower_keeps | with_reducible apply State.settle_keeps | with_reducible apply State.stopTimer_keeps | (extract_lets +onlyGivenNames x; first | (apply cut (p := Keeps s0 x); (case' hp => dsimp -zeta only [x]; clear x); (case' hq => clear_value x; revert x; intro _ _)) | (clear_value x; revert x; intro _)) | split | dsimp -zeta only)))

theorem execFltAckHandled_keeps {s0 s : State} (region : Fin 8)  (h : Keeps s0 s) :
    Goes s0 (execFltAckHandled region s) := by
  unfold execFltAckHandled
  iterate 60 (all_goals (try (first | with_reducible assumption | with_reducible apply goes_next | with_reducible apply State.leaveRecoveryMode_keeps | with_reducible apply State.stopTimer_keeps | split)))

theorem execFltAckRestart_keeps {s0 s : State} (region : Fin 8)  (h : Keeps s0 s) :
    Goes s0 (execFltAckRestart region s) := by
  unfold execFltAckRestart
  iterate 60 (all_goals (try (first | with_reducible assumption | with_reducible apply goes_next | with_reducible apply State.escalateRestart_keeps | with_reducible apply State.haltPower_keeps | with_reducible apply State.settle_keeps | with_reducible apply State.stopTimer_keeps | split)))

theorem execFltAckFatal_keeps {s0 s : State} (region : Fin 8)  (h : Keeps s0 s) :
    Goes s0 (execFltAckFatal region s) := by
  unfold execFltAckFatal
  iterate 60 (all_goals (try (first | with_reducible assumption | with_reducible apply goes_next | with_reducible apply State.fatalActions_keeps | with_reducible apply State.haltPower_keeps | with_reducible apply State.settle_keeps | with_reducible apply State.stopTimer_keeps | split)))

theorem State.releaseLate_keeps {s0 s : State} (fuel : Nat) (h : Keeps s0 s) : Keeps s0 (State.releaseLate s fuel) := by
  induction fuel generalizing s with
  | zero => exact h
  | succ k ih =>
    unfold State.releaseLate
    split
    · exact h
    · refine ih ?_
      split
      · exact State.release_keeps _ _ _ h
      · exact h

theorem State.trimAttributes_keeps {s0 s : State}   (h : Keeps s0 s) :
    Keeps s0 (State.trimAttributes s) := by
  unfold State.trimAttributes
  iterate 60 (all_goals (try (first | with_reducible assumption | with_reducible apply State.event_keeps | with_reducible apply State.setFlag_keeps | with_reducible apply foldl_keeps | (intro _; try dsimp -zeta only) | (extract_lets +onlyGivenNames x; first | (apply cut (p := Keeps s0 x); (case' hp => dsimp -zeta only [x]; clear x); (case' hq => clear_value x; revert x; intro _ _)) | (have hx : _ → State := x; clear hx; dsimp -zeta only [x]; clear x) | (have hx : _ → _ → State := x; clear hx; dsimp -zeta only [x]; clear x) | (have hx : _ → _ × State := x; clear hx; dsimp -zeta only [x]; clear x) | (clear_value x; revert x; intro _)) | split)))

theorem State.memoryRuns_keeps {s0 s : State} (h : Keeps s0 s) : Keeps s0 s.memoryRuns := by
  have h0 := State.patRestore_keeps (State.patCut_keeps (State.dramLost_keeps h))
  unfold State.memoryRuns
  extract_lets q t p s1 s2 s3
  have h1 : Keeps s0 s1 := ite_keeps (Keeps.upd (fun w => w) h0) h
  have h2 : Keeps s0 s2 := State.setEccMode_keeps _ (State.startMemory_keeps _ h1)
  have h3 : Keeps s0 s3 := ite_keeps (State.trimAttributes_keeps h2) h2
  exact State.setStaging_keeps h3

theorem State.controlRuns_keeps {s0 s : State} (passed : Nat) (h : Keeps s0 s) : Keeps s0 (State.controlRuns s passed) := by
  unfold State.controlRuns
  extract_lets k a d s0' s1 f s2
  have h0 : Keeps s0 s0' := foldl_keeps _ _ (fun t x ht => ite_keeps (State.endInternal_keeps x ht) ht) h
  have h1 : Keeps s0 s1 := by
    refine foldl_keeps _ _ (fun t x ht => ite_keeps ht ?_) h0
    exact State.rerun_keeps _ (State.dropWrite_keeps _ _ _ (State.dropJob_keeps _ _ _ ht))
  have h2 : Keeps s0 s2 := Keeps.upd (fun w => w) h1
  exact ite_keeps (State.fatalActions_keeps (State.eventIn_keeps _ _ _ _ h2)) h2

theorem State.runRegion_keeps {s0 s : State} (r : Nat) (passed : Nat) (parked : Nat)  (h : Keeps s0 s) :
    Keeps s0 (State.runRegion s r passed parked) := by
  unfold State.runRegion
  iterate 60 (all_goals (try (first | with_reducible assumption | with_reducible apply State.controlRuns_keeps | with_reducible apply State.endNetwork_keeps | with_reducible apply State.endStopped3_keeps | with_reducible apply State.memoryRuns_keeps | with_reducible apply State.moverClaim_keeps | with_reducible apply State.moverRelease_keeps | with_reducible apply State.preStart_keeps | with_reducible apply State.releaseLate_keeps | with_reducible apply State.startCompute_keeps | with_reducible apply State.startMedia_keeps | with_reducible apply State.startNetwork_keeps | with_reducible apply State.startTime_keeps | (extract_lets +onlyGivenNames x; first | (apply cut (p := Keeps s0 x); (case' hp => dsimp -zeta only [x]; clear x); (case' hq => clear_value x; revert x; intro _ _)) | (clear_value x; revert x; intro _)) | split | dsimp -zeta only)))

theorem State.backToPs0_keeps {s0 s : State}   (h : Keeps s0 s) :
    Keeps s0 (State.backToPs0 s) := by
  unfold State.backToPs0
  iterate 60 (all_goals (try (first | with_reducible assumption | with_reducible apply State.loadHeads_keeps | with_reducible apply State.powerRegions_keeps | with_reducible apply State.setFld_keeps | with_reducible apply State.spinCommand_keeps | (extract_lets +onlyGivenNames x; first | (apply cut (p := Keeps s0 x); (case' hp => dsimp -zeta only [x]; clear x); (case' hq => clear_value x; revert x; intro _ _)) | (clear_value x; revert x; intro _)) | split)))

theorem State.recoverMedia_keeps {s0 s : State} (parked : Nat)  (h : Keeps s0 s) :
    Keeps s0 (State.recoverMedia s parked) := by
  unfold State.recoverMedia
  iterate 60 (all_goals (try (first | with_reducible assumption | with_reducible apply State.modMedia_keeps | with_reducible apply State.startMediaStep_keeps | with_reducible exact fun w => w | (intro _; try dsimp -zeta only) | (extract_lets +onlyGivenNames x; first | (apply cut (p := Keeps s0 x); (case' hp => dsimp -zeta only [x]; clear x); (case' hq => clear_value x; revert x; intro _ _)) | (clear_value x; revert x; intro _)) | with_reducible apply Keeps.upd)))

theorem execRegionRunning_keeps {s0 s : State} (region : Fin 7) (passed : Nat) (parked : Nat)  (h : Keeps s0 s) :
    Goes s0 (execRegionRunning region passed parked s) := by
  unfold execRegionRunning
  iterate 60 (all_goals (try (first | with_reducible assumption | with_reducible apply goes_next | with_reducible apply State.backToPs0_keeps | with_reducible apply State.event_keeps | with_reducible apply State.performHeldRegs_keeps | with_reducible apply State.powerRegions_keeps | with_reducible apply State.recoverMedia_keeps | with_reducible apply State.runRegion_keeps | with_reducible apply State.setFlag_keeps | with_reducible apply State.settle_keeps | with_reducible apply State.startRestart_keeps | with_reducible exact fun w => w | (intro _; try dsimp -zeta only) | (extract_lets +onlyGivenNames x; first | (apply cut (p := Keeps s0 x); (case' hp => dsimp -zeta only [x]; clear x); (case' hq => clear_value x; revert x; intro _ _)) | (clear_value x; revert x; intro _)) | split | with_reducible apply Keeps.upd | dsimp -zeta only)))

theorem execRegionRestartTimeout_keeps {s0 s : State} (region : Fin 7)  (h : Keeps s0 s) :
    Goes s0 (execRegionRestartTimeout region s) := by
  unfold execRegionRestartTimeout
  iterate 60 (all_goals (try (first | with_reducible assumption | with_reducible apply goes_next | with_reducible apply State.endHeldRegs_keeps | with_reducible apply State.endRegionWaits_keeps | with_reducible apply State.fatalActions_keeps | with_reducible apply State.noteEvent_keeps | with_reducible apply State.powerRegions_keeps | with_reducible apply State.setFlag_keeps | with_reducible apply State.settle_keeps | with_reducible exact fun w => w | (intro _; try dsimp -zeta only) | (extract_lets +onlyGivenNames x; first | (apply cut (p := Keeps s0 x); (case' hp => dsimp -zeta only [x]; clear x); (case' hq => clear_value x; revert x; intro _ _)) | (clear_value x; revert x; intro _)) | split | with_reducible apply Keeps.upd)))

theorem State.leaveFault_keeps {s0 s : State}   (h : Keeps s0 s) :
    Keeps s0 (State.leaveFault s) := by
  unfold State.leaveFault
  iterate 60 (all_goals (try (first | with_reducible assumption | with_reducible apply State.bump_keeps | with_reducible apply State.event_keeps | with_reducible apply State.healthChanged_keeps | with_reducible apply State.leaveRecoveryMode_keeps | with_reducible apply State.setFld_keeps | with_reducible apply State.signal_keeps | (extract_lets +onlyGivenNames x; first | (apply cut (p := Keeps s0 x); (case' hp => dsimp -zeta only [x]; clear x); (case' hq => clear_value x; revert x; intro _ _)) | (clear_value x; revert x; intro _)) | split)))

theorem execQuietPeriodExpiry_keeps {s0 s : State}   (h : Keeps s0 s) :
    Goes s0 (execQuietPeriodExpiry s) := by
  unfold execQuietPeriodExpiry
  iterate 60 (all_goals (try (first | with_reducible assumption | with_reducible apply goes_next | with_reducible apply State.event_keeps | with_reducible apply State.leaveFault_keeps | with_reducible apply State.restartRegion_keeps | with_reducible apply State.setFlag_keeps | with_reducible apply State.settle_keeps | with_reducible apply foldl_keeps | with_reducible exact fun w => w | (intro _; try dsimp -zeta only) | (extract_lets +onlyGivenNames x; first | (apply cut (p := Keeps s0 x); (case' hp => dsimp -zeta only [x]; clear x); (case' hq => clear_value x; revert x; intro _ _)) | (clear_value x; revert x; intro _)) | split | with_reducible apply Keeps.upd)))

theorem execErrTestEnd_keeps {s0 s : State}   (h : Keeps s0 s) :
    Goes s0 (execErrTestEnd s) := by
  unfold execErrTestEnd
  iterate 60 (all_goals (try (first | with_reducible assumption | with_reducible apply goes_next | with_reducible apply State.event_keeps | with_reducible apply State.setFlag_keeps | with_reducible exact fun w => w | (intro _; try dsimp -zeta only) | (extract_lets +onlyGivenNames x; first | (apply cut (p := Keeps s0 x); (case' hp => dsimp -zeta only [x]; clear x); (case' hq => clear_value x; revert x; intro _ _)) | (clear_value x; revert x; intro _)) | split | with_reducible apply Keeps.upd)))

theorem execControlCoreFail_keeps {s0 s : State} (core : Fin 16) (h : Keeps s0 s) : Goes s0 (execControlCoreFail core s) := by
  unfold execControlCoreFail
  extract_lets b f s1
  have h1 : Keeps s0 s1 := State.eventIn_keeps _ _ _ _ (Keeps.upd (fun w => w) h)
  exact goes_ite (goes_next h) (goes_ite (goes_next (State.settle_keeps (State.fatalActions_keeps (State.eventIn_keeps _ _ _ _ h1))))
    (goes_next h1))

theorem execPatinaStore_keeps {s0 s : State}   (h : Keeps s0 s) :
    Goes s0 (execPatinaStore s) := by
  unfold execPatinaStore
  iterate 60 (all_goals (try (first | with_reducible assumption | with_reducible apply goes_next | with_reducible apply State.patStore_keeps)))

theorem execPatinaJournalWrite_keeps {s0 s : State} (ok : Bool)  (h : Keeps s0 s) :
    Goes s0 (execPatinaJournalWrite ok s) := by
  unfold execPatinaJournalWrite
  iterate 60 (all_goals (try (first | with_reducible assumption | with_reducible apply goes_next | with_reducible apply State.patJournal_keeps)))

end Sys2Proof.Machine
end

