-- ==== Sys2Proof/Laws/Keeps/FuncRows.lean ====
section
/-! SUPPORT. Machine/FuncRows.lean: each of its operations keeps the canonical forms, the queue and the order of free values. -/

namespace Sys2Proof.Machine

open Sys2Proof

theorem State.endStopped_keeps {s0 s : State} (x : Ctx)  (h : Keeps s0 s) :
    Keeps s0 (State.endStopped s x) := by
  unfold State.endStopped
  iterate 60 (all_goals (try (first | with_reducible assumption | with_reducible apply State.castFail_keeps | with_reducible apply State.complete_keeps | with_reducible apply State.dropCmp_keeps | with_reducible apply State.dropWrite_keeps | split | dsimp -zeta only)))

theorem execFuncStopped_keeps {s0 s : State} (func : Nat)  (h : Keeps s0 s) :
    Goes s0 (execFuncStopped func s) := by
  unfold execFuncStopped
  iterate 60 (all_goals (try (first | with_reducible assumption | with_reducible apply goes_next | with_reducible apply State.enterStopped_keeps | with_reducible apply State.performHeld_keeps | with_reducible apply State.settle_keeps | split)))

theorem execFuncCommit_keeps {s0 s : State} (func : Nat)  (h : Keeps s0 s) :
    Goes s0 (execFuncCommit func s) := by
  unfold execFuncCommit
  iterate 60 (all_goals (try (first | with_reducible assumption | with_reducible apply goes_next | with_reducible apply State.commitFunc_keeps | with_reducible apply State.portUp_keeps | with_reducible apply State.settle_keeps | (extract_lets +onlyGivenNames x; first | (apply cut (p := Keeps s0 x); (case' hp => dsimp -zeta only [x]; clear x); (case' hq => clear_value x; revert x; intro _ _)) | (clear_value x; revert x; intro _)) | split)))

theorem State.withdrawSeek_keeps {s0 s : State} (func : Nat)  (h : Keeps s0 s) :
    Keeps s0 (State.withdrawSeek s func) := by
  unfold State.withdrawSeek
  iterate 60 (all_goals (try (first | with_reducible assumption | with_reducible apply State.modServo_keeps | with_reducible exact fun w => w | (intro _; try dsimp -zeta only) | (extract_lets +onlyGivenNames x; first | (apply cut (p := Keeps s0 x); (case' hp => dsimp -zeta only [x]; clear x); (case' hq => clear_value x; revert x; intro _ _)) | (clear_value x; revert x; intro _)) | split | with_reducible apply Keeps.upd)))

theorem execPauseBoundExpiry_keeps {s0 s : State} (func : Nat)  (h : Keeps s0 s) :
    Goes s0 (execPauseBoundExpiry func s) := by
  unfold execPauseBoundExpiry
  iterate 60 (all_goals (try (first | with_reducible assumption | with_reducible apply goes_next | with_reducible apply State.endStopped_keeps | with_reducible apply State.setFlag_keeps | with_reducible apply State.settle_keeps | with_reducible apply State.withdrawSeek_keeps | with_reducible apply foldl_keeps | (intro _; try dsimp -zeta only) | (extract_lets +onlyGivenNames x; first | (apply cut (p := Keeps s0 x); (case' hp => dsimp -zeta only [x]; clear x); (case' hq => clear_value x; revert x; intro _ _)) | (clear_value x; revert x; intro _)) | split)))

theorem execStopLimitExpiry_keeps {s0 s : State} (func : Nat)  (h : Keeps s0 s) :
    Goes s0 (execStopLimitExpiry func s) := by
  unfold execStopLimitExpiry
  iterate 60 (all_goals (try (first | with_reducible assumption | with_reducible apply goes_next | with_reducible apply State.revertNow_keeps | with_reducible apply State.settle_keeps | split)))

theorem execRegionAccessTimeout_keeps {s0 s : State} (region : Nat)  (h : Keeps s0 s) :
    Goes s0 (execRegionAccessTimeout region s) := by
  unfold execRegionAccessTimeout
  iterate 60 (all_goals (try (first | with_reducible assumption | with_reducible apply goes_next | with_reducible apply State.endHeldRegs_keeps | with_reducible apply State.endRegionWaits_keeps | with_reducible apply State.settle_keeps | split)))

end Sys2Proof.Machine
end

