-- ==== Sys2Proof/Laws/Keeps/Power.lean ====
section
/-! SUPPORT. Machine/Power.lean: each of its operations keeps the canonical forms, the queue and the order of free values. -/

namespace Sys2Proof.Machine

open Sys2Proof

theorem execXtal32Valid_keeps {s0 s : State}   (h : Keeps s0 s) :
    Goes s0 (execXtal32Valid s) := by
  unfold execXtal32Valid
  iterate 60 (all_goals (try (first | with_reducible assumption | with_reducible apply goes_next | with_reducible apply State.setFlag_keeps | split)))

theorem execXtal32Stop_keeps {s0 s : State}   (h : Keeps s0 s) :
    Goes s0 (execXtal32Stop s) := by
  unfold execXtal32Stop
  iterate 60 (all_goals (try (first | with_reducible assumption | with_reducible apply goes_next | with_reducible apply State.event_keeps | with_reducible apply State.setFlag_keeps | split)))

theorem execXtal32Timeout_keeps {s0 s : State}   (h : Keeps s0 s) :
    Goes s0 (execXtal32Timeout s) := by
  unfold execXtal32Timeout
  iterate 60 (all_goals (try (first | with_reducible assumption | with_reducible apply goes_next | with_reducible apply State.event_keeps | split)))

theorem execRtcSet_keeps {s0 s : State}   (h : Keeps s0 s) :
    Goes s0 (execRtcSet s) := by
  unfold execRtcSet
  iterate 60 (all_goals (try (first | with_reducible assumption | with_reducible apply goes_next | with_reducible apply State.modPln_keeps | with_reducible apply State.setFlag_keeps | with_reducible exact fun w => w | (intro _; try dsimp -zeta only) | (extract_lets +onlyGivenNames x; first | (apply cut (p := Keeps s0 x); (case' hp => dsimp -zeta only [x]; clear x); (case' hq => clear_value x; revert x; intro _ _)) | (clear_value x; revert x; intro _)) | split | with_reducible apply Keeps.upd)))

theorem State.saveRtc_keeps {s0 s : State}   (h : Keeps s0 s) :
    Keeps s0 (State.saveRtc s) := by
  unfold State.saveRtc
  iterate 60 (all_goals (try (first | with_reducible assumption | with_reducible exact fun w => w | (intro _; try dsimp -zeta only) | (extract_lets +onlyGivenNames x; first | (apply cut (p := Keeps s0 x); (case' hp => dsimp -zeta only [x]; clear x); (case' hq => clear_value x; revert x; intro _ _)) | (clear_value x; revert x; intro _)) | with_reducible apply Keeps.upd)))

theorem execRtcSave_keeps {s0 s : State}   (h : Keeps s0 s) :
    Goes s0 (execRtcSave s) := by
  unfold execRtcSave
  iterate 60 (all_goals (try (first | with_reducible assumption | with_reducible apply goes_next | with_reducible apply State.saveRtc_keeps | split)))

theorem execPllLockTimeout_keeps {s0 s : State} (k : Fin 6)  (h : Keeps s0 s) :
    Goes s0 (execPllLockTimeout k s) := by
  unfold execPllLockTimeout
  iterate 60 (all_goals (try (first | with_reducible assumption | with_reducible apply goes_next | with_reducible apply State.eventIn_keeps | with_reducible apply State.modPln_keeps | with_reducible apply State.powerRegions_keeps | with_reducible apply State.setFld_keeps | with_reducible exact fun w => w | (intro _; try dsimp -zeta only) | (extract_lets +onlyGivenNames x; first | (apply cut (p := Keeps s0 x); (case' hp => dsimp -zeta only [x]; clear x); (case' hq => clear_value x; revert x; intro _ _)) | (clear_value x; revert x; intro _)) | split | with_reducible apply Keeps.upd)))

theorem execXtal50Stable_keeps {s0 s : State} (late : Bool)  (h : Keeps s0 s) :
    Goes s0 (execXtal50Stable late s) := by
  unfold execXtal50Stable
  iterate 60 (all_goals (try (first | with_reducible assumption | with_reducible apply goes_next | with_reducible apply State.event_keeps | with_reducible apply State.modPln_keeps | with_reducible apply State.setFlag_keeps | with_reducible apply State.startFromStep2_keeps | with_reducible exact fun w => w | (intro _; try dsimp -zeta only) | (extract_lets +onlyGivenNames x; first | (apply cut (p := Keeps s0 x); (case' hp => dsimp -zeta only [x]; clear x); (case' hq => clear_value x; revert x; intro _ _)) | (clear_value x; revert x; intro _)) | split | with_reducible apply Keeps.upd | dsimp -zeta only)))

theorem State.powerDone_keeps {s0 s : State}   (h : Keeps s0 s) :
    Keeps s0 (State.powerDone s) := by
  unfold State.powerDone
  iterate 60 (all_goals (try (first | with_reducible assumption | with_reducible apply State.complete_keeps | with_reducible apply foldl_keeps | (intro _; try dsimp -zeta only))))

theorem State.lowerMedia_keeps {s0 s : State} (ps : Nat)  (h : Keeps s0 s) :
    Keeps s0 (State.lowerMedia s ps) := by
  unfold State.lowerMedia
  iterate 60 (all_goals (try (first | with_reducible assumption | with_reducible apply State.forActs_keeps | with_reducible apply State.modSpn_keeps | with_reducible apply State.phaseCheck_keeps | with_reducible apply State.setSpin_keeps | with_reducible apply State.unloadFrame_keeps | with_reducible apply State.unloaded_keeps | with_reducible exact fun w => w | (intro _; try dsimp -zeta only) | (extract_lets +onlyGivenNames x; first | (apply cut (p := Keeps s0 x); (case' hp => dsimp -zeta only [x]; clear x); (case' hq => clear_value x; revert x; intro _ _)) | (clear_value x; revert x; intro _)) | split | with_reducible apply Keeps.upd)))

theorem State.retune_keeps {s0 s : State} (p mode : Nat) (h : Keeps s0 s) : Keeps s0 (s.retune p mode) := by
  unfold State.retune
  exact ite_keeps h (State.modHost_keeps _ (State.setFld_keeps _ _ _ h))

theorem State.ps4Ports_keeps {s0 s : State} (h : Keeps s0 s) : Keeps s0 s.ps4Ports :=
  State.retune_keeps _ _ (State.portDown_keeps _ h)

theorem State.portsBack_keeps {s0 s : State} (h : Keeps s0 s) : Keeps s0 s.portsBack := by
  unfold State.portsBack
  exact ite_keeps (State.retune_keeps _ _ h) (ite_keeps (State.portDown_keeps _ h) (State.linkGone_keeps _ h))

theorem execPowerEntryComplete_keeps {s0 s : State} (durationDs : Nat)  (h : Keeps s0 s) :
    Goes s0 (execPowerEntryComplete durationDs s) := by
  unfold execPowerEntryComplete
  iterate 60 (all_goals (try (first | with_reducible assumption | with_reducible apply goes_next | with_reducible apply State.ps4Ports_keeps | with_reducible apply State.event_keeps | with_reducible apply State.lowerMedia_keeps | with_reducible apply State.modPln_keeps | with_reducible apply State.phaseCheck_keeps | with_reducible apply State.powerDone_keeps | with_reducible apply State.powerRegions_keeps | with_reducible apply State.setFlag_keeps | with_reducible apply State.setFld_keeps | with_reducible apply State.settle_keeps | with_reducible apply State.startExit_keeps | with_reducible exact fun w => w | (intro _; try dsimp -zeta only) | (extract_lets +onlyGivenNames x; first | (apply cut (p := Keeps s0 x); (case' hp => dsimp -zeta only [x]; clear x); (case' hq => clear_value x; revert x; intro _ _)) | (clear_value x; revert x; intro _)) | split | with_reducible apply Keeps.upd)))

theorem execPowerExitComplete_keeps {s0 s : State} (durationDs : Nat)  (h : Keeps s0 s) :
    Goes s0 (execPowerExitComplete durationDs s) := by
  unfold execPowerExitComplete
  iterate 60 (all_goals (try (first | with_reducible assumption | with_reducible apply goes_next | with_reducible apply State.portsBack_keeps | with_reducible apply State.event_keeps | with_reducible apply State.powerDone_keeps | with_reducible apply State.setFlag_keeps | with_reducible apply State.setFld_keeps | with_reducible apply State.settle_keeps | (extract_lets +onlyGivenNames x; first | (apply cut (p := Keeps s0 x); (case' hp => dsimp -zeta only [x]; clear x); (case' hq => clear_value x; revert x; intro _ _)) | (clear_value x; revert x; intro _)) | split)))

theorem execPs5PowerOff_keeps {s0 s : State}   (h : Keeps s0 s) :
    Goes s0 (execPs5PowerOff s) := by
  unfold execPs5PowerOff
  iterate 60 (all_goals (try (first | with_reducible assumption | with_reducible apply goes_next | with_reducible apply State.endAssoc_keeps | with_reducible apply State.event_keeps | with_reducible apply State.resetRegions_keeps | with_reducible apply State.saveRtc_keeps | with_reducible apply State.setFlag_keeps | with_reducible apply State.setFld_keeps | with_reducible apply foldl_keeps | (intro _; try dsimp -zeta only) | (extract_lets +onlyGivenNames x; first | (apply cut (p := Keeps s0 x); (case' hp => dsimp -zeta only [x]; clear x); (case' hq => clear_value x; revert x; intro _ _)) | (clear_value x; revert x; intro _)) | split)))

theorem execWakeNAssert_keeps {s0 s : State} (boot : Boot)  (h : Keeps s0 s) :
    Goes s0 (execWakeNAssert boot s) := by
  unfold execWakeNAssert
  iterate 60 (all_goals (try (first | with_reducible assumption | with_reducible apply goes_next | with_reducible apply State.modPln_keeps | with_reducible apply State.wakeEvent_keeps | with_reducible exact fun w => w | (intro _; try dsimp -zeta only) | (extract_lets +onlyGivenNames x; first | (apply cut (p := Keeps s0 x); (case' hp => dsimp -zeta only [x]; clear x); (case' hq => clear_value x; revert x; intro _ _)) | (clear_value x; revert x; intro _)) | split | with_reducible apply Keeps.upd)))

theorem execWakeNRelease_keeps {s0 s : State}   (h : Keeps s0 s) :
    Goes s0 (execWakeNRelease s) := by
  unfold execWakeNRelease
  iterate 60 (all_goals (try (first | with_reducible assumption | with_reducible apply goes_next | with_reducible apply State.modPln_keeps | with_reducible exact fun w => w | (intro _; try dsimp -zeta only) | (extract_lets +onlyGivenNames x; first | (apply cut (p := Keeps s0 x); (case' hp => dsimp -zeta only [x]; clear x); (case' hq => clear_value x; revert x; intro _ _)) | (clear_value x; revert x; intro _)) | with_reducible apply Keeps.upd)))

theorem execWakeAlarmFire_keeps {s0 s : State} (boot : Boot)  (h : Keeps s0 s) :
    Goes s0 (execWakeAlarmFire boot s) := by
  unfold execWakeAlarmFire
  iterate 60 (all_goals (try (first | with_reducible assumption | with_reducible apply goes_next | with_reducible apply State.alarmWake_keeps | with_reducible apply State.setFlag_keeps | with_reducible apply State.setReg_keeps | with_reducible apply State.wakeEvent_keeps | (extract_lets +onlyGivenNames x; first | (apply cut (p := Keeps s0 x); (case' hp => dsimp -zeta only [x]; clear x); (case' hq => clear_value x; revert x; intro _ _)) | (clear_value x; revert x; intro _)) | split)))

theorem State.startWhenStable_keeps {s0 s : State} (b : Boot)  (h : Keeps s0 s) :
    Keeps s0 (State.startWhenStable s b) := by
  unfold State.startWhenStable
  iterate 60 (all_goals (try (first | with_reducible assumption | with_reducible apply State.modPln_keeps | with_reducible apply State.startFromStep2_keeps | with_reducible exact fun w => w | (intro _; try dsimp -zeta only) | (extract_lets +onlyGivenNames x; first | (apply cut (p := Keeps s0 x); (case' hp => dsimp -zeta only [x]; clear x); (case' hq => clear_value x; revert x; intro _ _)) | (clear_value x; revert x; intro _)) | split | with_reducible apply Keeps.upd)))

theorem execPorRelease_keeps {s0 s : State} (boot : Boot)  (h : Keeps s0 s) :
    Goes s0 (execPorRelease boot s) := by
  unfold execPorRelease
  iterate 60 (all_goals (try (first | with_reducible assumption | with_reducible apply goes_next | with_reducible apply State.startFromStep1_keeps | split)))

theorem execPorAssert_keeps {s0 s : State}   (h : Keeps s0 s) :
    Goes s0 (execPorAssert s) := by
  unfold execPorAssert
  iterate 60 (all_goals (try (first | with_reducible assumption | with_reducible apply goes_next | with_reducible apply State.powerOnReset_keeps)))

theorem execPwrGoodFall_keeps {s0 s : State}   (h : Keeps s0 s) :
    Goes s0 (execPwrGoodFall s) := by
  unfold execPwrGoodFall
  iterate 60 (all_goals (try (first | with_reducible assumption | with_reducible apply goes_next | with_reducible apply State.supplyLoss_keeps | split)))

theorem execSupplyResetRelease_keeps {s0 s : State} (boot : Boot)  (h : Keeps s0 s) :
    Goes s0 (execSupplyResetRelease boot s) := by
  unfold execSupplyResetRelease
  iterate 60 (all_goals (try (first | with_reducible assumption | with_reducible apply goes_next | with_reducible apply State.modPln_keeps | with_reducible apply State.startWhenStable_keeps | with_reducible exact fun w => w | (intro _; try dsimp -zeta only) | (extract_lets +onlyGivenNames x; first | (apply cut (p := Keeps s0 x); (case' hp => dsimp -zeta only [x]; clear x); (case' hq => clear_value x; revert x; intro _ _)) | (clear_value x; revert x; intro _)) | split | with_reducible apply Keeps.upd)))

theorem execJtagReset_keeps {s0 s : State}   (h : Keeps s0 s) :
    Goes s0 (execJtagReset s) := by
  unfold execJtagReset
  iterate 60 (all_goals (try (first | with_reducible assumption | with_reducible apply goes_next | with_reducible apply State.modPln_keeps | with_reducible exact fun w => w | (intro _; try dsimp -zeta only) | (extract_lets +onlyGivenNames x; first | (apply cut (p := Keeps s0 x); (case' hp => dsimp -zeta only [x]; clear x); (case' hq => clear_value x; revert x; intro _ _)) | (clear_value x; revert x; intro _)) | with_reducible apply Keeps.upd)))

theorem execColdStartHoldEnd_keeps {s0 s : State} (boot : Boot)  (h : Keeps s0 s) :
    Goes s0 (execColdStartHoldEnd boot s) := by
  unfold execColdStartHoldEnd
  iterate 60 (all_goals (try (first | with_reducible assumption | with_reducible apply goes_next | with_reducible apply State.modPln_keeps | with_reducible apply State.startFromStep3_keeps | with_reducible exact fun w => w | (intro _; try dsimp -zeta only) | (extract_lets +onlyGivenNames x; first | (apply cut (p := Keeps s0 x); (case' hp => dsimp -zeta only [x]; clear x); (case' hq => clear_value x; revert x; intro _ _)) | (clear_value x; revert x; intro _)) | split | with_reducible apply Keeps.upd)))

theorem State.confirmTrial_keeps {s0 s : State}   (h : Keeps s0 s) :
    Keeps s0 (State.confirmTrial s) := by
  unfold State.confirmTrial
  iterate 60 (all_goals (try (first | with_reducible assumption | with_reducible apply State.modSlot_keeps | with_reducible apply State.syncSlots_keeps | with_reducible exact fun w => w | (intro _; try dsimp -zeta only) | (extract_lets +onlyGivenNames x; first | (apply cut (p := Keeps s0 x); (case' hp => dsimp -zeta only [x]; clear x); (case' hq => clear_value x; revert x; intro _ _)) | (clear_value x; revert x; intro _)) | split | with_reducible apply Keeps.upd | dsimp -zeta only)))

theorem State.calibrate_keeps {s0 s : State} (cal : List HeadCal)  (h : Keeps s0 s) :
    Keeps s0 (State.calibrate s cal) := by
  unfold State.calibrate
  iterate 60 (all_goals (try (first | with_reducible assumption | with_reducible apply State.calibrateHead_keeps | with_reducible apply foldl_keeps | split)))

theorem execDeviceReady_keeps {s0 s : State} (cal : List HeadCal)  (h : Keeps s0 s) :
    Goes s0 (execDeviceReady cal s) := by
  unfold execDeviceReady
  iterate 60 (all_goals (try (first | with_reducible assumption | with_reducible apply goes_next | with_reducible apply State.bump_keeps | with_reducible apply State.calibrate_keeps | with_reducible apply State.confirmTrial_keeps | with_reducible apply State.event_keeps | with_reducible apply State.formatIfDue_keeps | with_reducible apply State.healthChanged_keeps | with_reducible apply State.leaveRecoveryMode_keeps | with_reducible apply State.modPln_keeps | with_reducible apply State.setFlag_keeps | with_reducible apply State.setFld_keeps | with_reducible apply State.setStep_keeps | with_reducible apply State.settle_keeps | with_reducible apply State.signal_keeps | with_reducible exact fun w => w | (intro _; try dsimp -zeta only) | (extract_lets +onlyGivenNames x; first | (apply cut (p := Keeps s0 x); (case' hp => dsimp -zeta only [x]; clear x); (case' hq => clear_value x; revert x; intro _ _)) | (clear_value x; revert x; intro _)) | split | with_reducible apply Keeps.upd)))

theorem execNorCounterIncrement_keeps {s0 s : State} (c : Fin 9) (ok : Bool)  (h : Keeps s0 s) :
    Goes s0 (execNorCounterIncrement c ok s) := by
  unfold execNorCounterIncrement
  iterate 60 (all_goals (try (first | with_reducible assumption | with_reducible apply goes_next | with_reducible apply State.bump_keeps | with_reducible apply State.event_keeps | with_reducible exact fun w => w | (intro _; try dsimp -zeta only) | (extract_lets +onlyGivenNames x; first | (apply cut (p := Keeps s0 x); (case' hp => dsimp -zeta only [x]; clear x); (case' hq => clear_value x; revert x; intro _ _)) | (clear_value x; revert x; intro _)) | split | with_reducible apply Keeps.upd)))

theorem execSupplyOutOfLimits_keeps {s0 s : State} (core : Bool) (sram : Bool)  (h : Keeps s0 s) :
    Goes s0 (execSupplyOutOfLimits core sram s) := by
  unfold execSupplyOutOfLimits
  iterate 60 (all_goals (try (first | with_reducible assumption | with_reducible apply goes_next | with_reducible apply State.fatalEvent_keeps | with_reducible apply State.setFld_keeps | (extract_lets +onlyGivenNames x; first | (apply cut (p := Keeps s0 x); (case' hp => dsimp -zeta only [x]; clear x); (case' hq => clear_value x; revert x; intro _ _)) | (clear_value x; revert x; intro _)) | split)))

theorem State.setTemps_keeps {s0 s : State} (temps : List Int)  (h : Keeps s0 s) :
    Keeps s0 (State.setTemps s temps) := by
  unfold State.setTemps
  iterate 60 (all_goals (try (first | with_reducible assumption | with_reducible apply State.setFld_keeps | with_reducible apply foldl_keeps | (intro _; try dsimp -zeta only) | (extract_lets +onlyGivenNames x; first | (apply cut (p := Keeps s0 x); (case' hp => dsimp -zeta only [x]; clear x); (case' hq => clear_value x; revert x; intro _ _)) | (have hx : _ → State := x; clear hx; dsimp -zeta only [x]; clear x) | (have hx : _ → _ → State := x; clear hx; dsimp -zeta only [x]; clear x) | (have hx : _ → _ × State := x; clear hx; dsimp -zeta only [x]; clear x) | (clear_value x; revert x; intro _)) | split | dsimp -zeta only)))

theorem execOvertempFatal_keeps {s0 s : State} (sensor : Fin 8) (temp : Int)  (h : Keeps s0 s) :
    Goes s0 (execOvertempFatal sensor temp s) := by
  unfold execOvertempFatal
  iterate 60 (all_goals (try (first | with_reducible assumption | with_reducible apply goes_next | with_reducible apply State.fatalEvent_keeps | with_reducible apply State.setTemps_keeps | split)))

theorem execTemperatureThresholdCrossed_keeps {s0 s : State} (temps : List Int)  (h : Keeps s0 s) :
    Goes s0 (execTemperatureThresholdCrossed temps s) := by
  unfold execTemperatureThresholdCrossed
  iterate 60 (all_goals (try (first | with_reducible assumption | with_reducible apply goes_next | with_reducible apply State.healthChanged_keeps | with_reducible apply State.notice_keeps | with_reducible apply State.setTemps_keeps | with_reducible apply foldl_keeps | (intro _; try dsimp -zeta only) | (extract_lets +onlyGivenNames x; first | (apply cut (p := Keeps s0 x); (case' hp => dsimp -zeta only [x]; clear x); (case' hq => clear_value x; revert x; intro _ _)) | (clear_value x; revert x; intro _)) | split)))

end Sys2Proof.Machine
end

