-- ==== Sys2Proof/WellFormed.lean ====
section
/-! DEFINITION. Which commands can be spelt: the ranges the spec gives the fields of a capsule and the operands of the
other commands. The meanings are total and do not ask for it. -/

namespace Sys2Proof

/-- The fields of an NVMe command are within their widths (R335, R362): association 0 to 1,024, 16 bit queue and command
identifiers, 16 bytes of SQE 8 to 23. -/
def Cmd.wf (c : Cmd) : Bool :=
  decide (c.assoc ≤ 1024) && decide (c.qid < 65536) && decide (c.cid < 65536) && c.mid.length == 16

/-- A start-up finding names 4 actuators, 2 firmware slots and 2 channels (R21, R405, R482). -/
def Boot.wf (b : Boot) : Bool :=
  decide (b.slots < 4) && decide (b.parked < 16) && b.badPages.all (fun p => decide (p.1 < 2))

/-- A calibration gives an 8-bit width, a 16-bit signed x_cal for at most 64 zones, and 12-bit burst means of the 16 radius bands (R49, R51,
R89, R133). -/
def HeadCal.wf (c : HeadCal) : Bool :=
  decide (c.width < 256) && decide (c.xcal.length ≤ 64) && c.xcal.all (fun x => decide (-32768 ≤ x) && decide (x ≤ 32767))
    && c.bursts.all (fun b => decide (b.1 < 16) && decide (b.2.1 < 4096) && decide (b.2.2 < 4096))

/-- Addresses, ports and lifetimes of a frame's contents have the widths of their fields (R333, R361). -/
def Payload.wf (p : Payload) : Bool :=
  match p with
  | .arp ip => decide (ip < 4294967296)
  | .neighbour ip => decide (ip < 2 ^ 128)
  | .echo v6 src dst _ => decide (src < (if v6 then 2 ^ 128 else 2 ^ 32)) && decide (dst < (if v6 then 2 ^ 128 else 2 ^ 32))
  | .routerAdvert router lifetime => decide (router < 2 ^ 128) && decide (lifetime < 65536)
  | .tcp v6 dst localPort _ _ => decide (dst < (if v6 then 2 ^ 128 else 2 ^ 32)) && decide (localPort < 65536)
  | .fragment => true
  | .ptp => true
  | .other => true

/-- A VLAN identifier has 12 bits (R332). -/
def Frame.wf (f : Frame) : Bool :=
  f.payload.wf &&
    match f.tag with
    | .vlan n => decide (n < 4096)
    | .none => true
    | .dropped => true

/-- A PTP message comes by one of the two ports, a domain of 8 bits, one of the three transports and a VLAN ID of 12 bits (R200). -/
def PtpHeader.wf (h : PtpHeader) : Bool :=
  decide (h.port < 2) && decide (h.domain < 256) && decide (h.transport < 3) && decide (h.vlan < 4096)

/-- An access for a command names it within its widths. -/
def BusUser.wf (u : BusUser) : Bool :=
  match u with
  | .dataPath a q c => decide (a ≤ 1024) && decide (q < 65536) && decide (c < 65536)
  | .programFetch _ => true
  | .scratch _ => true
  | .actuatorLoop _ => true
  | .spindleLoop _ => true
  | .patch _ _ => true
  | .core => true
  | .background => true
  | .mirrored _ => true
  | .cleanLine => true
  | .dirtyLine => true
  | .partialWrite => true

/-- The operands of a command are within the ranges the spec gives them. -/
def Instr.wellFormed (i : Instr) : Bool :=
  match i with
  | .plainRegisterWrite _ assoc addr nbytes _ => decide (assoc ≤ 1024) && decide (addr < 4294967296) && decide (0 < nbytes ∧ nbytes ≤ 8)
  | .lowWordRead _ addr => decide (addr < 4294967296)
  | .clearOnRead _ addr => decide (addr < 4294967296)
  | .regionAccessTimeout region => decide (region < 7)
  | .funcStop assoc func => decide (assoc ≤ 1024) && decide (func ≤ 14)
  | .funcRestart assoc func => decide (assoc ≤ 1024) && decide (func ≤ 14)
  | .funcAbandon assoc func => decide (assoc ≤ 1024) && decide (func ≤ 14)
  | .funcStopped func => decide (func ≤ 14)
  | .funcCommit func => decide (func ≤ 14)
  | .pauseBoundExpiry func => decide (func ≤ 14)
  | .stopLimitExpiry func => decide (func ≤ 14)
  | .cfgStore assoc => decide (assoc ≤ 1024)
  | .cfgCapture assoc func => decide (assoc ≤ 1024) && decide (func ≤ 14)
  | .cfgRemove assoc => decide (assoc ≤ 1024)
  | .cfgStoreDone _ => true
  | .preampFault _ => true
  | .preampFaultClear _ => true
  | .pfltPersistTimeout _ => true
  | .pscFrameGo assoc _ _ => decide (assoc ≤ 1024)
  | .pscFrameDone _ _ => true
  | .clockAcquired _ => true
  | .holdTimeout _ => true
  | .clockLostTimeout _ => true
  | .rafterSyncCheck _ _ => true
  | .rafterAccepted _ _ _ burstA burstB => decide (burstA < 4096) && decide (burstB < 4096)
  | .burstPhaseCheck _ _ => true
  | .rafterLost _ _ => true
  | .reacqCheck _ _ => true
  | .servoSample _ x _ _ _ => decide (x.window ≤ 3906250)
  | .battenGainStep _ => true
  | .invalidWindowEnd _ => true
  | .settled _ => true
  | .followingErrorTrip _ => true
  | .oscillationTrip _ => true
  | .isnsMismatch _ => true
  | .rvSensorDrop _ _ => true
  | .seekRequest _ _ => true
  | .seekHandover _ => true
  | .reidentTimeout _ => true
  | .loopEngineFault _ => true
  | .microword _ _ _ => true
  | .sequencerAbortRequest _ => true
  | .sequencerInterruptRequest _ => true
  | .waitLimitExpiry _ => true
  | .abortPointMonitor _ => true
  | .leadFault _ => true
  | .followFault _ => true
  | .syncDecided _ _ _ => true
  | .fragmentDone _ => true
  | .partDone _ _ => true
  | .sectorDecoded _ _ _ _ => true
  | .ldpcNoConvergence _ _ => true
  | .pwmPeriod _ _ _ => true
  | .overcurrentCoast => true
  | .fwFloor => true
  | .vbusRead _ => true
  | .spindleEngineFault _ => true
  | .atSpeed => true
  | .spindleStart assoc _ parked => decide (assoc ≤ 1024) && decide (parked < 16)
  | .spindleStop assoc _ => decide (assoc ≤ 1024)
  | .spindleCoast assoc _ => decide (assoc ≤ 1024)
  | .parkRetractWaitEnd _ => true
  | .rockPairDone _ => true
  | .prestartSensingDone _ theta => decide (theta < 4294967296)
  | .brakeHoldEnd => true
  | .positionSensingDone theta => decide (theta < 4294967296)
  | .startHandover => true
  | .handoverTimeout => true
  | .spindownBrakeChange => true
  | .isnsCal assoc _ => decide (assoc ≤ 1024)
  | .isnsCalDone samples => samples.length == 64
  | .isnsGainWrite assoc _ => decide (assoc ≤ 1024)
  | .retractInputChange _ _ => true
  | .retractDiscrepancy => true
  | .retractRearm => true
  | .retractWaitTimeout assoc qid cid => decide (assoc ≤ 1024) && decide (qid < 65536) && decide (cid < 65536)
  | .ptpAnnounce h m => h.wf && decide (m.ident < 18446744073709551616)
  | .ptpSync h ident seq _ _ => h.wf && decide (ident < 18446744073709551616) && decide (seq < 65536)
  | .ptpFollowUp h ident seq _ => h.wf && decide (ident < 18446744073709551616) && decide (seq < 65536)
  | .ptpDelayResp h ident seq _ => h.wf && decide (ident < 18446744073709551616) && decide (seq < 65536)
  | .ptpAnnounceTimeout ident => decide (ident < 18446744073709551616)
  | .gerynMarker => true
  | .gerynWord _ => true
  | .gerynMarkerMissing => true
  | .holdoverExpiry => true
  | .glkClaim assoc => decide (assoc ≤ 1024)
  | .glkRelease assoc => decide (assoc ≤ 1024)
  | .dbgTrcClaim assoc _ => decide (assoc ≤ 1024)
  | .dbgTrcRelease assoc => decide (assoc ≤ 1024)
  | .phaseMeasurement _ _ => true
  | .phaseMeasurementTimeout => true
  | .approachRequest assoc => decide (assoc ≤ 1024)
  | .approachEnd => true
  | .launchRelease assoc qid cid => decide (assoc ≤ 1024) && decide (qid < 65536) && decide (cid < 65536)
  | .class0BoundMiss assoc qid cid _ => decide (assoc ≤ 1024) && decide (qid < 65536) && decide (cid < 65536)
  | .alarmClaim assoc _ _ => decide (assoc ≤ 1024)
  | .alarmRelease assoc _ => decide (assoc ≤ 1024)
  | .alarmFire _ => true
  | .courseRecovery _ _ => true
  | .readRetry _ _ => true
  | .trussRecovery _ _ => true
  | .recoveryLimitExpiry assoc qid cid => decide (assoc ≤ 1024) && decide (qid < 65536) && decide (cid < 65536)
  | .unavailReconstruct assoc qid cid => decide (assoc ≤ 1024) && decide (qid < 65536) && decide (cid < 65536)
  | .recoveredRewrite _ _ => true
  | .writeRetry _ _ => true
  | .courseOpenTimeout surface _ _ => decide (surface < 32)
  | .courseCloseDone surface _ _ failed => decide (surface < 32) && failed.all (fun p => decide (p < 68))
  | .trailTimeout _ => true
  | .trussParityWritten _ => true
  | .rebuildUnit => true
  | .scanSector _ head _ _ _ => decide (head < 8)
  | .mouldWrite c => c.wf
  | .mouldCommit c => c.wf
  | .mouldWithdrawDone assoc qid cid => decide (assoc ≤ 1024) && decide (qid < 65536) && decide (cid < 65536)
  | .cast c => c.wf
  | .castDispatch => true
  | .pourDone _ => true
  | .castComplete assoc qid cid => decide (assoc ≤ 1024) && decide (qid < 65536) && decide (cid < 65536)
  | .castEngineFault _ => true
  | .stagingClaim assoc _ => decide (assoc ≤ 1024)
  | .stagingRelease assoc _ => decide (assoc ≤ 1024)
  | .move _ _ => true
  | .loop _ => true
  | .wait _ => true
  | .signal _ => true
  | .waitEnd _ => true
  | .recipeWaitTimeout _ => true
  | .pacingResume _ => true
  | .programLineArrive _ _ => true
  | .compressionJobStart => true
  | .compressionJobDone _ => true
  | .decompressError _ => true
  | .verifierMismatch _ => true
  | .verifierDisable _ => true
  | .verifiedUnitWaitTimeout assoc qid cid => decide (assoc ≤ 1024) && decide (qid < 65536) && decide (cid < 65536)
  | .linkUp _ => true
  | .linkDown _ => true
  | .linkLossTimeout _ => true
  | .portFault _ => true
  | .frameReceive _ f => f.wf
  | .tcpConnect _ _ _ localPort => decide (localPort < 65536)
  | .connectionClose _ => true
  | .icreq _ _ _ _ _ => true
  | .capsuleReceive _ cid _ _ _ _ => decide (cid < 65536)
  | .h2cData _ cid _ _ => decide (cid < 65536)
  | .refusedConnectionTimeout _ => true
  | .keepAliveExpiry assoc => decide (assoc ≤ 1024)
  | .sqTailDoorbell qid tail cids => decide (qid < 65536) && decide (tail < 65536) && cids.all (fun c => decide (c < 65536))
  | .controllerEnable _ => true
  | .controllerDisable => true
  | .pcieEnWrite assoc _ => decide (assoc ≤ 1024)
  | .perstAssert => true
  | .perstRise boot => boot.wf
  | .functionLevelReset _ => true
  | .readNvmeMiDataStructure dtyp _ boot => decide (dtyp < 256) && boot.wf
  | .subsystemHealthStatusPoll _ boot => boot.wf
  | .controllerHealthStatusPoll _ boot => boot.wf
  | .configurationGet ident boot => decide (ident < 256) && boot.wf
  | .configurationSet ident _ boot => decide (ident < 256) && boot.wf
  | .vpdRead _ _ boot => boot.wf
  | .miTunnelledAdmin opcode c boot => decide (opcode < 256) && c.wf && boot.wf
  | .egressShareRecompute => true
  | .commandFetch => true
  | .leaseExpiry => true
  | .successorWindowLapse => true
  | .rangeLockGrant assoc qid cid => decide (assoc ≤ 1024) && decide (qid < 65536) && decide (cid < 65536)
  | .trailingBufferSpace assoc qid cid => decide (assoc ≤ 1024) && decide (qid < 65536) && decide (cid < 65536)
  | .deleteIoSubmissionQueue c => c.wf
  | .createIoSubmissionQueue c => c.wf
  | .getLogPage c => c.wf
  | .deleteIoCompletionQueue c => c.wf
  | .createIoCompletionQueue c => c.wf
  | .identify c => c.wf
  | .abort c => c.wf
  | .setFeatures c => c.wf
  | .getFeatures c => c.wf
  | .asynchronousEventRequest c => c.wf
  | .namespaceManagement c => c.wf
  | .namespaceDeleteDone assoc qid cid => decide (assoc ≤ 1024) && decide (qid < 65536) && decide (cid < 65536)
  | .firmwareCommit c => c.wf
  | .firmwareImageDownload c => c.wf
  | .namespaceAttachment c => c.wf
  | .keepAlive c => c.wf
  | .fabricsConnect c => c.wf
  | .propertyGet c => c.wf
  | .propertySet c => c.wf
  | .authenticationSend c => c.wf
  | .authenticationReceive c => c.wf
  | .claimOwnership c => c.wf
  | .yieldOwnership c => c.wf
  | .loadContentKey c => c.wf
  | .loadCastProfile c => c.wf
  | .loadRecipe c => c.wf
  | .readPatina c => c.wf
  | .clearPatina c => c.wf
  | .registerWrite c => c.wf
  | .registerRead c => c.wf
  | .reconfigureFunction c => c.wf
  | .constellationStatus c => c.wf
  | .flush c => c.wf
  | .write c => c.wf
  | .read c => c.wf
  | .writeZeroes c => c.wf
  | .datasetManagement c => c.wf
  | .timedRead c => c.wf
  | .transform c => c.wf
  | .mediaWriteDone assoc qid cid => decide (assoc ≤ 1024) && decide (qid < 65536) && decide (cid < 65536)
  | .tcpTimerExpiry _ _ => true
  | .cqHeadDoorbell qid head => decide (qid < 65536) && decide (head < 65536)
  | .eccCorrected _ addr => decide (addr < 68719476736)
  | .bucketLeak => true
  | .targetedScrub _ => true
  | .eccUncorrectable _ addr user => decide (addr < 68719476736) && user.wf
  | .checkLineWriteback _ _ => true
  | .scrubGroup _ _ => true
  | .dramChannelFail _ => true
  | .eccModeWrite assoc _ => decide (assoc ≤ 1024)
  | .eccInjArm assoc _ => decide (assoc ≤ 1024)
  | .eccInject => true
  | .pageRetire _ _ _ => true
  | .faultEvent _ event _ _ => decide (event < 2048)
  | .escalationExpiry _ => true
  | .fltAckHandled _ => true
  | .fltAckRestart _ => true
  | .fltAckFatal _ => true
  | .regionRunning _ _ parked => decide (parked < 16)
  | .regionRestartTimeout _ => true
  | .quietPeriodExpiry => true
  | .errTest assoc _ => decide (assoc ≤ 1024)
  | .errTestEnd => true
  | .controlCoreFail _ => true
  | .patinaStore => true
  | .patinaJournalWrite _ => true
  | .patinaLock assoc => decide (assoc ≤ 1024)
  | .xtal32Valid => true
  | .xtal32Stop => true
  | .xtal32Timeout => true
  | .rtcSet => true
  | .rtcSave => true
  | .pllLockTimeout _ => true
  | .powerEntryComplete _ => true
  | .powerExitComplete _ => true
  | .ps5PowerOff => true
  | .wakeNAssert boot => boot.wf
  | .wakeAlarmFire boot => boot.wf
  | .porRelease boot => boot.wf
  | .deviceReady l => l.all HeadCal.wf
  | .pwrGoodFall => true
  | .supplyResetRelease boot => boot.wf
  | .deviceReset assoc _ _ boot => decide (assoc ≤ 1024) && boot.wf
  | .jtagReset => true
  | .norCounterIncrement _ _ => true
  | .activationStepDone _ => true
  | .activationRetry _ _ => true
  | .activationEnd => true
  | .supplyOutOfLimits _ _ => true
  | .overtempFatal _ _ => true
  | .coldStartHoldEnd boot => boot.wf
  | .porAssert => true
  | .xtal50Stable _ => true
  | .wakeNRelease => true
  | .temperatureThresholdCrossed temps => temps.length == 8
  | .actuatorReload _ _ => true
  | .predictedRafterStart _ => true
  | .rafterPassed _ => true
  | .sectorBoundary _ => true
  | .writeDataReady _ => true

end Sys2Proof
end

