-- ==== Sys2Proof/Tests/Slice0.lean ====
section
/-! SUPPORT. Checks of the model at small states: a term each check of WellFormed refuses, and for every statement a state and operands that meet the
hypotheses of each of its clauses, with what the step from there answers. The expected results are the rules' of spec/. -/

namespace Sys2Proof.Tests

set_option Elab.async false

open Sys2Proof Sys2Proof.Machine

/-! ## Helpers -/

/-- Every check of a list holds. -/
def ok (l : List Bool) : Bool := l.all id

/-- A property of the answer of a command. -/
def after (c : Instr) (s : State) (p : State → Bool) : Bool := match exec c s with | .next t => p t | _ => false

/-- The command leaves every register outside a list, events apart. -/
def kept (l : List Nat) (s t : State) : Bool :=
  (s.regs ++ t.regs).all (fun p => l.contains p.1 || (decide (0x5000000 ≤ p.1) && decide (p.1 < 0x5101000)) || t.reg p.1 == s.reg p.1)

/-- The owner's write of an address is performed. -/
def writable (s : State) (o a : Nat) : Bool :=
  s.isOwner o && s.heldRegs.all (fun h => h.path != pathOf o) && match regionOf a with | some r => s.powered r && (!s.restarting r || survivesRestart a) | none => false

/-- A powered device, ready with heads unloaded, of which association 1 is the owner. -/
def up : State :=
  { regs := [(0, 0x00000890#32), (16388, 0x0000007f#32), (17825820, 0x00000004#32), (50331652, 0x00000100#32), (54525952, 0x01000001#32)]
    pln := { porLow := false }, own := { endsAt := 1000000000 }, host := { assocs := [(1, { auth := true, ioQueue := true })] } }

/-- up with one register given a value. -/
def upWith (a : Nat) (v : Word) : State := up.setReg a v

theorem writable_spec (s : State) (o a : Nat) (h : writable s o a = true) : s.Writable o a := by
  simp only [writable, Bool.and_eq_true] at h
  refine ⟨h.1.1, fun x hx => by simpa using List.all_eq_true.mp h.1.2 x hx, ?_⟩
  revert h
  cases regionOf a with
  | none => intro h; simp at h
  | some r => intro h; exact ⟨r, rfl, by simp at h; exact h.2.1, by simp at h; exact h.2.2⟩

/-- The checks of a command pass. -/
def ready (s : State) (x : Ctx) (i : Instr) : Bool :=
  s.faultState != 3 && !badOpcode x i && !s.pln.loader && (!s.flag Adr.HIF_CTRL Fld.HIF_CTRL_auth_req || s.authed x.assoc)
  && (s.flag Adr.PLN_STATUS Fld.PLN_STATUS_ready || s.onList i) && !s.restarting 6
  && ((decide (s.ps < 2) && !s.psMoving) || s.onList i || isPower i) && !s.badNs x i && (!s.ownerOnly i || x.permitted)
  && (match addressed i with | some k => s.fstate k == 0 || s.fstate k == 3 | none => true)

theorem ready_spec (s : State) (x : Ctx) (i : Instr) (h : ready s x i = true) : s.Ready x i := by
  simp only [ready, Bool.and_eq_true, Bool.or_eq_true, Bool.not_eq_true', decide_eq_true_eq, bne_iff_ne, ne_eq] at h
  obtain ⟨⟨⟨⟨⟨⟨⟨⟨⟨h1, h2⟩, h3⟩, h4⟩, h5⟩, h6⟩, h7⟩, h8⟩, h9⟩, h10⟩ := h
  refine ⟨h1, h2, h3, ?_, h5, h6, ?_, h8, ?_, ?_⟩
  · exact h4.elim Or.inl (fun k => .inr (.inl k))
  · exact h7.elim (fun k => k.elim Or.inl (fun k => .inr (.inl k))) (fun k => .inr (.inr k))
  · intro k; rw [k] at h9; simpa using h9
  · intro k hk; rw [hk] at h10; simpa using h10

/-- The one context the device holds: that of command c. -/
def ctxOf (c : Cmd) : Ctx := { assoc := c.assoc, qid := c.qid, cid := c.cid, arrival := 0, permitted := true, cls := 0 }

/-- s with command c fetched and nothing else. -/
def fetched (s : State) (c : Cmd) : State := { s with host := { s.host with ctxs := [ctxOf c], locks := [] } }

theorem only_fetched (s : State) (c : Cmd) (h : ∀ a, (s.act a).seq.list = []) : (fetched s c).Only c (ctxOf c) :=
  ⟨fun a => by rw [show (fetched s c).act a = s.act a from rfl, h]; rfl, rfl, rfl, rfl, rfl, rfl, rfl, rfl, rfl⟩

/-- The command answers with a status, two dwords and data, and leaves its context. -/
def answers (s : State) (i : Instr) (c : Cmd) (r : Status) (dw0 dw1 : Nat) (data : List Byte) : Bool :=
  after i s (fun t => t.host.completions == s.host.completions ++ [⟨c.assoc, c.qid, c.cid, r.sct, r.sc, r.dnr, dw0, dw1, data⟩] && t.host.ctxs.isEmpty)

/-- The command keeps its context and waits. -/
def waitsAs (s : State) (i : Instr) (w : Wait) : Bool :=
  after i s (fun t => t.host.completions == s.host.completions && (match t.host.ctxs with | [y] => y.wait == w | _ => false))

/-- A command of association 1 on its admin queue, every field 0. -/
def adm : Cmd :=
  { assoc := 1, qid := 0, cid := 5, nsid := 0, mid := List.replicate 16 0, len := 0, prp := false, cdw10 := 0, cdw11 := 0, cdw12 := 0, cdw13 := 0, cdw14 := 0, cdw15 := 0
    data := [] }

/-- A command of association 1 on an I/O queue, for namespace 1. -/
def io : Cmd := { adm with qid := 1, nsid := 1 }

/-- An actuator in a mode of its loop. -/
def inMode (a : Fin 4) (m : Nat) : State := up.setMode a m

/-- The context of a command that waits. -/
def waiting (s : State) (w : Wait) (i : Option Instr) : State :=
  { s with host := { s.host with ctxs := [{ assoc := 1, qid := 1, cid := 5, arrival := 0, permitted := true, cls := 0, instr := i, wait := w }] } }


/-! ## The read and write channel -/

theorem test_witness_ChannelClockMoves :
    (up.clock 0 == 0 && decide ((up.act 0).batten.hsUntil ≤ up.now)
    && (let s := up.modBatten 0 (fun b => { b with hsUntil := 9 })
        decide (s.now < (s.act 0).batten.hsUntil) && after (.clockAcquired 0) s (fun t => t == s))
    && after (.clockAcquired 0) up (fun t => t.clock 0 == 1 && kept [Adr.BTN_CLK 0] up t)
    && (let s := up.setClock 1 3
        s.clock 1 == 3 && after (.holdTimeout 1) s (fun t => t.clock 1 == 0))
    && (let s := up.setClock 3 1
        (s.act 3).batten.zoneMove.isNone && after (.predictedRafterStart 0) (s.modBatten 0 (fun b => { b with zoneMove := some 5 })) (fun t =>
          t.fld (Adr.CHN_STATUS 0) Fld.CHN_STATUS_zone == 5 && (t.act 0).batten.zoneMove.isNone) && after (.predictedRafterStart 3) s (fun t => t.clock 3 == 2 && (t.act 3).batten.index == 1))
    && (let s := (up.setClock 2 1).modBatten 2 (fun b => { b with accepted := true, noPermit := false })
        let m := s.fld (Adr.BTN_CTRL 2) Fld.BTN_CTRL_hold_err_max
        (s.act 2).batten.accepted && !(s.act 2).batten.noPermit && s.clock 2 != 0
        && after (.burstPhaseCheck 2 m) s (fun t => t.flag (Adr.BTN_CLK 2) Fld.BTN_CLK_wg_permit)
        && after (.burstPhaseCheck 2 (-(m + 1))) s (fun t => t.clock 2 == 0 && !t.flag (Adr.BTN_CLK 2) Fld.BTN_CLK_wg_permit))
    && (let s := up.setClock 0 1
        let n := s.cellsPerRev 0 / 25600
        after (.rafterSyncCheck 0 (n + 1)) s (fun t => t.clock 0 == 0 && t.flag (Adr.BTN_CLK 0) Fld.BTN_CLK_slip
          && kept [Adr.BTN_CLK 0, Adr.CHN_ERR 0, Adr.CHN_ERRLOC0 0, Adr.CHN_ERRLOC1 0] s t)
        && after (.rafterSyncCheck 0 n) s (fun t => t.clock 0 == 1))
    && (let s := up.setClock 0 2
        let m := s.fld (Adr.BTN_CTRL 0) Fld.BTN_CTRL_hold_err_max
        after (.reacqCheck 0 m) s (fun t => t.clock 0 == 1) && after (.reacqCheck 0 (m + 1)) s (fun t => t.clock 0 == 0))) = true := by
  decide +kernel

/-- A rafter's cells for a field of n bits, the most significant first (R90): a bit is written as itself and its complement. -/
def rafterBits (n v : Nat) : List (Bool × Bool) := (List.range n).reverse.map (fun i => (bitOf v i, !bitOf v i))

/-- The cells of a rafter of a track in Gray code, an index and a check code. -/
def rafterOf (tr k c : Nat) : List (Bool × Bool) := rafterBits 24 (tr ^^^ (tr / 2)) ++ rafterBits 7 k ++ rafterBits 8 c

theorem test_witness_RaftersAcceptedAndLost :
    (let s := up.setFld (Adr.BTN_RFCNT 0) Fld.BTN_RFCNT_consec 2
     after (.rafterLost 0 []) s (fun t => (t.act 0).ended && t.fld (Adr.BTN_RFCNT 0) Fld.BTN_RFCNT_consec == 3 && !(t.act 0).batten.accepted)
     && after (.rafterLost 0 rafterMark) up (fun t => t.fld (Adr.BTN_RFCNT 0) Fld.BTN_RFCNT_consec == 1)
     && up.clock 0 == 0 && after (.clockLostTimeout 0) up (fun t => (t.act 0).ended && t.flag (Adr.FSQ_STATUS 0) Fld.FSQ_STATUS_abort_pend)) = true := by
  decide +kernel

theorem test_witness_RaftersAcceptedAndLost_accepted :
    (let c := (surfaceCheck (up.surface 1) 0x12345 0).toNat
     let w := rafterMark.set 3 (!rafterMark.getD 3 true) ++ List.replicate 16 false
     let cells := rafterOf 0x12345 0 c
     up.rafterSynced 1 w && !up.rafterSynced 1 (w.set 5 (!w.getD 5 true) |>.set 6 (!w.getD 6 true)) && rafterFields cells == some (0x12345, 0, c) && up.mode 1 == 0 && (up.act 1).batten.index == 0
     && after (.rafterAccepted 1 w cells 1000 1000) up (fun t => (t.act 1).batten.accepted
        && t.fld (Adr.BTN_RAFTER 1) Fld.BTN_RAFTER_track == 0x12345 && kept [Adr.BTN_RAFTER 1, Adr.BTN_RFCNT 1] up t)
     && after (.rafterAccepted 1 [] cells 1000 1000) up (fun t => !(t.act 1).batten.accepted && (t.act 1).batten.noPermit)) = true := by
  decide +kernel

theorem test_witness_PreamplifierRows :
    (let f : PscFrame := { head := none, read := true, addr := 5, data := 9 }
     let s := up.modAct 2 (fun x => { x with psc := some f })
     let w := up.modAct 2 (fun x => { x with psc := some { f with read := false } })
     let p := up.setFld (Adr.CHN_STATUS 1) Fld.CHN_STATUS_pflt 1
     after (.preampFault 0) up (fun t => t.flag (Adr.CHN_STATUS 0) Fld.CHN_STATUS_pflt && (t.act 0).ended && (t.act 0).pfltHeld)
     && p.mode 1 != 3 && after (.preampFaultClear 1) p (fun t => !t.flag (Adr.CHN_STATUS 1) Fld.CHN_STATUS_pflt && !(t.act 1).ended)
     && !p.media.lostActs.contains 1 && after (.pfltPersistTimeout 1) p (fun t => (t.act 1).lost && t.media.lostActs.contains 1 && t.mode 1 == 0)
     && after (.pscFrameDone 2 0xA5) s (fun t => t.fld (Adr.CHN_PSC_ACC 2) Fld.CHN_PSC_ACC_rdata == 0xA5 && (t.act 2).preamp.isEmpty)
     && after (.pscFrameDone 2 0xA5) w (fun t => (t.act 2).preamp == [(5, 9)])) = true := by
  decide +kernel

/-- A channel operation that runs. -/
def running (a : Fin 4) (op : Nat) : State := up.modAct a (fun x => { x with seq := { x.seq with running := some { op := op, entry := 0, started := true } } })

/-- Media address 577 held by the decoder of an actuator. -/
def held577 (a : Fin 4) : State := up.modAct a (fun x => { x with decoder := [{ media := 577, head := 0, track := 0, sector := 0, iters := 0 }] })

/-- The physical address 5 holds course parity with a tag, its scrambled field all zeros (R60 to R64, R68, R84). -/
def parity5 : State := up.modMedia (fun m => { m with sectors := [(5, codeword (List.replicate 4096 0) (tagBytes 5 1 3 0))] })

/-- parity5 with the sector of a media address in a decoder. -/
def decoding5 (a : Fin 4) (s : State) : State :=
  s.modAct a (fun x => { x with decoder := [{ media := 2 ^ 64 + 5, head := 0, track := 0, sector := 0, iters := 0 }] })

theorem test_witness_SectorEventRows :
    ok (let win := up.fld (Adr.CHN_CTRL 3) Fld.CHN_CTRL_sync_win
      let w (m : List Bool) := List.replicate win false ++ m
      let st (op : Nat) := (running 0 op).modSeq 0 (fun q => { q with stopAtFragment := true })
      let o2 := up.modAct 0 (fun x => { x with seq := { x.seq with running := some { op := 2, entry := 0, started := false } } })
      [after (.rafterPassed 0) up (fun t => (t.act 0).seq.latches == 8), o2.mayAccess 0,
       after (.rafterPassed 0) o2 (fun t => (t.act 0).seq.running.map (fun o => o.started) == some true),
       after (.sectorBoundary 1) up (fun t => (t.act 1).seq.latches == 32), after (.writeDataReady 2) up (fun t => (t.act 2).seq.dataReady),
       markIn sectorMark (w sectorMark) 4 == some win, markIn resyncMark (w resyncMark) 4 == some win, markIn sectorMark [] 4 == none,
       after (.syncDecided 3 [] (w sectorMark)) (running 3 1) (fun t => (t.act 3).seq.syncFound && (t.act 3).seq.running.isNone && (t.act 3).seq.latches == 128),
       after (.syncDecided 3 [] (w resyncMark)) (running 3 2) (fun t => (t.act 3).seq.syncFound && (t.act 3).seq.running.isNone),
       after (.syncDecided 3 [] []) (running 3 1) (fun t => !(t.act 3).seq.syncFound && (t.act 3).seq.searchWhere == 0),
       after (.syncDecided 3 [] []) (running 3 2) (fun t => !(t.act 3).seq.syncFound && (t.act 3).seq.searchWhere == 1),
       after (.fragmentDone 0) (running 0 3) (fun t => (t.act 0).seq.frag == 1 && (t.act 0).seq.latches == 512),
       after (.fragmentDone 0) (st 4) (fun t => (t.act 0).seq.running.isNone && (t.act 0).seq.latches == 1536),
       after (.partDone 0 []) (running 0 4) (fun t => (t.act 0).seq.running.isNone && (t.act 0).seq.latches == 1024),
       after (.partDone 0 []) (running 0 3) (fun t => (t.act 0).seq.running.isNone && (t.act 0).seq.latches == 1024)]) = true := by
  decide +kernel

theorem test_witness_SectorEventRows_decoder :
    ok (let p := decoding5 1 parity5
      let x := 2 ^ 64 + 5
      let r := (parity5.recordedAt 5).getD []
      let bad := p.modMedia (fun m => { m with sectors := [(5, codeword (List.replicate 4096 0) (tagBytes 6 1 3 0))] })
      let b := (bad.recordedAt 5).getD []
      [(p.decoding 1 x).isSome, p.expectedAt x == some (5, 5, 3), r.length == 4496, decide (3 ≤ p.maxGlobal 1), codeOk (decided r []),
       tagMatches 5 3 (((beBytes r.length (decided r [])).drop p.lbaSize).take 16), codeOk (decided b []),
       !tagMatches 5 3 (((beBytes b.length (decided b [])).drop bad.lbaSize).take 16),
       after (.sectorDecoded 1 x 3 []) p (fun t => (lookupKey t.media.dram x).isSome && (t.act 1).decoder.isEmpty),
       after (.sectorDecoded 1 x 3 []) bad (fun t => t.media.erased.any (fun e => e.media == x) && t.fld (Adr.CHN_ERR 1) Fld.CHN_ERR_last_code == 4),
       after (.ldpcNoConvergence 1 577) (held577 1) (fun t => t.media.erased.any (fun e => e.media == 577)
        && t.fld (Adr.CHN_ERR 1) Fld.CHN_ERR_last_code == 3)]) = true := by
  decide +kernel

/-! ## The formatter sequencers and the servo loop -/

/-- The lead of an actuator at an address. -/
def leadAt (a : Fin 4) (pc : Nat) (pend : Bool) : State :=
  (up.modSeq a (fun q => { q with pc := pc })).setFlag (Adr.FSQ_STATUS a) Fld.FSQ_STATUS_abort_pend pend

theorem test_witness_SequencerRows :
    ok (let n : Nano := { chnOp := 3, cntOp := 2 }
      let s := leadAt 0 0x403 false
      let b := leadAt 0 0x404 true
      let w := (up.setFld (Adr.FSQ_STATUS 1) Fld.FSQ_STATUS_seq0 2).setFld (Adr.FSQ_STATUS 1) Fld.FSQ_STATUS_seq1 0
      let two := up.setFld (Adr.FSQ_STATUS 1) Fld.FSQ_STATUS_seq1 2
      let at_ (v : Nat) (s : State) := s.setReg (Adr.FSQ_MATCH 0 0) (setBits (setBits (setBits 0 Fld.FSQ_MATCH_en 1) Fld.FSQ_MATCH_rom_addr v) Fld.FSQ_MATCH_patch_addr 0x1900)
      let irq := at_ 0x10 ((leadAt 0 0x404 false).setFlag (Adr.FSQ_STATUS 0) Fld.FSQ_STATUS_irq_pend true)
      let lim (s : State) (n : Nat) := (s.modSeq 0 (fun q => { q with waitSince := some 0 })).modTime (fun t => t) |> fun s => { s with now := n }
      [s.lead 0 == some 0, s.fetchMicro 0 0x403 == some (n, 0), !n.reserved, !n.abortPt, !(s.act 0).seq.stalls n,
       after (.microword 0 0 false) s (fun t => (t.act 0).seq.pc == 0x404 && (t.act 0).seq.running.isSome),
       after (.microword 0 0 false) (leadAt 0 0x404 false) (fun t => (t.act 0).seq.pc == 0x404 && (t.act 0).seq.ckpt.addr == 0x404),
       b.condition 0 22, after (.microword 0 0 false) b (fun t => (t.act 0).seq.pc == 0 && t.fld (Adr.FSQ_RESUME 0) Fld.FSQ_RESUME_addr == 0x404),
       after (.sequencerAbortRequest 1) up (fun t => t.flag (Adr.FSQ_STATUS 1) Fld.FSQ_STATUS_abort_pend),
       after (.sequencerInterruptRequest 1) up (fun t => t.flag (Adr.FSQ_STATUS 1) Fld.FSQ_STATUS_irq_pend),
       after (.microword 0 0 false) (at_ 0x18 b) (fun t => (t.act 0).seq.pc == 0x18 && !t.flag (Adr.FSQ_STATUS 0) Fld.FSQ_STATUS_idle),
       irq.matched 0 0x10 == 0x1900, irq.condition 0 21, !irq.condition 0 22, !irq.flag (Adr.FSQ_STATUS 0) Fld.FSQ_STATUS_in_irq,
       after (.microword 0 0 false) irq (fun t => (t.act 0).seq.pc == 0x10 && t.fld (Adr.FSQ_RESUME 0) Fld.FSQ_RESUME_cause == 1),
       after (.waitLimitExpiry 0) (lim (leadAt 0 0x404 false) 255000000) (fun t => (t.act 0).seq.pc == 0 && t.flag (Adr.FSQ_STATUS 0) Fld.FSQ_STATUS_idle),
       after (.waitLimitExpiry 0) (at_ 0x18 (lim (leadAt 0 0x404 false) 255000000)) (fun t => (t.act 0).seq.pc == 0x18),
       decide ((lim up 9).now < 0 + (lim up 9).fld (Adr.FSQ_CTRL 0) Fld.FSQ_CTRL_wait_limit * 1000000), after (.waitLimitExpiry 0) (lim up 9) (fun t => t == lim up 9),
       two.fld (Adr.FSQ_STATUS 1) Fld.FSQ_STATUS_seq0 == 0, !two.media.lostActs.contains 1, after (.leadFault 1) two (fun t => (t.act 1).lost),
       after (.abortPointMonitor 0) up (fun t => t == up),
       up.fld (Adr.FSQ_STATUS 1) Fld.FSQ_STATUS_seq0 == 0, up.fld (Adr.FSQ_STATUS 1) Fld.FSQ_STATUS_seq1 == 1,
       after (.leadFault 1) up (fun t => t.fld (Adr.FSQ_STATUS 1) Fld.FSQ_STATUS_seq0 == 2 && t.lead 1 == some 1),
       after (.followFault 1) up (fun t => t.fld (Adr.FSQ_STATUS 1) Fld.FSQ_STATUS_seq1 == 2 && t.lead 1 == some 0),
       after (.abortPointMonitor 0) b (fun t => t.lead 0 == some 1 && (t.act 0).seq.pc == 0),
       w.lead 1 == some 1]) = true := by
  decide +kernel

theorem test_witness_GainWindowAndSettling :
    ok (let g := (up.setFld (Adr.BTN_CTRL 0) Fld.BTN_CTRL_gain_auto 1).setFld (Adr.BTN_INVAL 0) Fld.BTN_INVAL_gain_code 30
      let g := g.modBatten 0 (fun b => { b with gainRun := 16, gainSince := 16, gainUp := true })
      let d := g.modBatten 0 (fun b => { b with gainUp := false })
      let z := d.setFld (Adr.BTN_INVAL 0) Fld.BTN_INVAL_gain_code 0
      let f := (inMode 1 1).modServo 1 (fun v => { v with settleRun := 400 })
      [after (.battenGainStep 0) g (fun t => t.fld (Adr.BTN_INVAL 0) Fld.BTN_INVAL_gain_code == 31 && (t.act 0).batten.winGain == 6),
       after (.battenGainStep 0) d (fun t => t.fld (Adr.BTN_INVAL 0) Fld.BTN_INVAL_gain_code == 29),
       after (.battenGainStep 0) z (fun t => t == z), after (.battenGainStep 0) up (fun t => t == up),
       after (.invalidWindowEnd 0) g (fun t => (t.act 0).batten.winGain == 0),
       decide (f.fld (Adr.SRV_SETTLE 1) Fld.SRV_SETTLE_settle_cnt ≤ 400), f.funcRunning 5,
       after (.settled 1) f (fun t => t.flag (Adr.SRV_STATUS 1) Fld.SRV_STATUS_settled)]) = true := by
  decide +kernel

theorem test_witness_ServoSupervisors :
    ok (let f := (inMode 1 1).modServo 1 (fun v => { v with feRun := 65535, oscCount := 65535, imRun := 64, rvRunX := 256, rvRunY := 256 })
      let g := f.setFld (Adr.SRV_LOOPCFG 1) Fld.SRV_LOOPCFG_sup_sel 2
      [f.fld (Adr.SRV_LOOPCFG 1) Fld.SRV_LOOPCFG_sup_sel != 1, decide (f.fld (Adr.SRV_FELIM 1) Fld.SRV_FELIM_fe_time ≤ 65535),
       after (.followingErrorTrip 1) f (fun t => t.flag (Adr.SRV_STICKY 1) Fld.SRV_STICKY_fe_trip && (t.act 1).servo.feRun == 0),
       decide (g.fld (Adr.SRV_OSC 1) Fld.SRV_OSC_osc_count ≤ 65535),
       after (.oscillationTrip 1) g (fun t => t.flag (Adr.SRV_STICKY 1) Fld.SRV_STICKY_osc_trip && (t.act 1).servo.oscCount == 0),
       after (.isnsMismatch 1) f (fun t => t.flag (Adr.SRV_STICKY 1) Fld.SRV_STICKY_imismatch),
       after (.rvSensorDrop 1 true) f (fun t => (t.act 1).servo.rvDropY && !(t.act 1).servo.rvDropX),
       after (.rvSensorDrop 1 false) f (fun t => (t.act 1).servo.rvDropX && !(t.act 1).servo.rvDropY)]) = true := by
  decide +kernel

theorem test_witness_SeekAndLoopRows :
    ok (let f := ((inMode 0 1).setFld (Adr.SRV_SEEKI 0) Fld.SRV_SEEKI_i_pk 4194304).setFld (Adr.SRV_SEEKK 0) Fld.SRV_SEEKK_k_acc 65536
      let k : Seek := { start := 100, dist := 5, neg := true, th := 3, tc := 0, kacc := 65536, j := 6 }
      let d := (inMode 0 2).modServo 0 (fun v => { v with seek := some k })
      let ld := (up.setFlag Adr.SPN_STATUS Fld.SPN_STATUS_at_speed true).setFlag Adr.SPN_RETRACT Fld.SPN_RETRACT_armed true
      let rl := (inMode 3 3).modServo 3 (fun v => { v with reloading := true })
      let no := up.modSpn (fun p => { p with pool := [] })
      [after (.seekRequest 0 77) (inMode 0 2) (fun t => (t.act 0).servo.heldSeek == some 77),
       (match (inMode 0 1).seekPlan 0 9 with | .failed => true | _ => false), (inMode 0 1).funcRunning 4,
       after (.seekRequest 0 9) (inMode 0 1) (fun t => (t.act 0).servo.failedSeek == some 9 && t.mode 0 == 1),
       after (.seekRequest 0 9) up (fun t => (t.act 0).servo.failedSeek == some 9 && t.mode 0 == 0),
       f.funcRunning 4, (match f.seekPlan 0 1000 with | .start _ => true | _ => false),
       after (.seekRequest 0 1000) f (fun t => t.mode 0 == 2 && (t.act 0).servo.seek.isSome),
       k.over, after (.seekHandover 0) d (fun t => t.mode 0 == 1 && t.fld (Adr.SRV_TRACK 0) Fld.SRV_TRACK_track == 95),
       after (.reidentTimeout 3) (inMode 3 3) (fun t => t.mode 3 == 0 && (t.pic.busy.toList ++ t.pic.waiting).map (fun f => (f.kind, f.act)) == [(.retract, 3)]),
       after (.reidentTimeout 3) rl (fun t => (t.act 3).servo.reloads == 1),
       !(ld.act 3).lost, ld.mayLoad, after (.actuatorReload 3 true) ld (fun t => t.mode 3 == 3),
       after (.actuatorReload 3 false) ld (fun t => t.mode 3 == 0 && (t.act 3).servo.reloads == 1),
       up.faultsBefore 2 == 0, !no.media.lostActs.contains 2, after (.loopEngineFault 2) no (fun t => (t.act 2).lost),
       up.spn.pool == [0, 1, 2], after (.loopEngineFault 2) up (fun t => t.spn.pool == [1, 2] && t.flag (Adr.SRV_STATUS 2) Fld.SRV_STATUS_on_standby)]) = true := by
  decide +kernel

/-! ## The spindle -/

/-- A spindle state, with what the block holds beside it. -/
def spinAt (n : Nat) (p : Spn) : State := { up with spn := p }.setFld Adr.SPN_STATUS Fld.SPN_STATUS_state n

theorem test_witness_SpinUpRows :
    ok (let h := (spinAt 5 { handRun := 32, forced := 100000, attempts := 2 }).setFld Adr.SPN_START Fld.SPN_START_start_acc 65535
      let r := (spinAt 3 { retrying := true }).setFld Adr.SPN_MOTOR Fld.SPN_MOTOR_pole_pairs 4
      let l := { spinAt 5 { attempts := 1 } with time := {} }.setFld Adr.SPN_MOTOR Fld.SPN_MOTOR_pole_pairs 4
      [after (.prestartSensingDone 300 7) (spinAt 2 {}) (fun t => t.spin == 6 && t.fld Adr.SPN_PRESTART Fld.SPN_PRESTART_result == 1),
       after (.prestartSensingDone (-61) 7) (spinAt 2 {}) (fun t => t.spin == 3 && t.flag Adr.SPN_PRESTART Fld.SPN_PRESTART_reverse),
       after .brakeHoldEnd (spinAt 3 {}) (fun t => t.spin == 4),
       r.spin == 3, !r.spn.stopping, r.spn.retrying, r.fld Adr.SPN_MOTOR Fld.SPN_MOTOR_pole_pairs != 0,
       after .brakeHoldEnd (spinAt 3 { stopping := true }) (fun t => t.spin == 0 && !t.spn.stopping),
       after (.positionSensingDone 9) (spinAt 4 {}) (fun t => t.spin == 5 && t.spn.theta0 == 9),
       decide (300 * 8388608 ≤ h.forcedSpeed h.spn.forced * 10000),
       after .startHandover h (fun t => t.spin == 6 && t.spn.attempts == 0),
       after .handoverTimeout h (fun t => t.spin == 0 && t.fld Adr.SPN_PRESTART Fld.SPN_PRESTART_result == 3),
       l.fld Adr.SPN_MOTOR Fld.SPN_MOTOR_pole_pairs != 0,
       l.spin == 5, after .handoverTimeout l (fun t => t.spin == 3 && t.spn.retrying && t.spn.attempts == 2),
       (spinAt 6 { atRun := 24000 }).spin == 6, !(spinAt 6 { atRun := 24000 }).atSpeed]) = true := by
  decide +kernel

theorem test_witness_ParkCheckRows :
    ok (let s := spinAt 1 { parking := [2, 3] }
      let r := spinAt 1 { parking := [2], rockPairs := 1 }
      let e := r.modSpn (fun p => { p with rockPairs := 15 })
      [after (.parkRetractWaitEnd true) s (fun t => t.spn.parking == [3] && t.spin == 1),
       after (.parkRetractWaitEnd false) s (fun t => t.spn.rockPairs == 1 && t.spn.parking == [2, 3]),
       after (.rockPairDone true) r (fun t => t.spn.parking == [] && t.spn.rockPairs == 0),
       decide (1 < r.fld Adr.SPN_ROCK Fld.SPN_ROCK_rock_cycles), after (.rockPairDone false) r (fun t => t.spn.rockPairs == 2),
       decide (e.fld Adr.SPN_ROCK Fld.SPN_ROCK_rock_cycles ≤ 15),
       after (.rockPairDone false) e (fun t => t.spin == 0 && t.spn.parking == [])]) = true := by
  decide +kernel

theorem test_witness_SpindleProtectionRows :
    ok (let u := { up with spn := { ocAt := List.replicate 8 5 } }
      [after .overcurrentCoast u (fun t => t.spin == 8 && t.spn.ocAt == []),
       after .fwFloor (spinAt 6 { fwRun := 16 }) (fun t => t.flag Adr.SPN_STICKY Fld.SPN_STICKY_fw_floor && t.spn.fwSaid),
       after (.vbusRead 70000) { up with pic := { up.pic with vbusDue := true } } (fun t => t.fld Adr.SPN_VBUS Fld.SPN_VBUS_vbus == 65535),
       after (.isnsCalDone (List.replicate 64 (5, -3, 0))) (spinAt 0 { calibrating := true }) (fun t => t.fld Adr.SPN_IOFS Fld.SPN_IOFS_ofs_v == 1021 && !t.spn.calibrating),
       after .spindownBrakeChange (spinAt 7 {}) (fun t => t.spin == 3 && t.spn.cmpNext == [0, 0, 0]),
       after (.spindleEngineFault none) up (fun t => t.spn.pool == [1, 2] && t.flag Adr.SPN_STATUS Fld.SPN_STATUS_on_standby),
       after (.spindleEngineFault none) (up.modSpn (fun p => { p with pool := [] })) (fun t => t.spin == 8),
       up.spn.pool.contains 1, after (.spindleEngineFault (some 1)) up (fun t => t.spn.pool == [0, 2])]) = true := by
  decide +kernel

theorem test_witness_SpindleCommandRows :
    ok (let m := up.setFld Adr.SPN_MOTOR Fld.SPN_MOTOR_pole_pairs 4
      let l := inMode 2 1
      [writable m 1 Adr.SPN_CMD, m.spin == 0, m.fld Adr.SPN_MOTOR Fld.SPN_MOTOR_pole_pairs != 0,
       after (.spindleStop 1 0) (spinAt 6 {}) (fun t => t.spin == 7 && t.spn.stopping),
       l.loaded, after (.spindleCoast 1 0) l (fun t => t.flag Adr.SPN_STICKY Fld.SPN_STICKY_cmd_refused && t.spin == 0),
       after (.spindleCoast 1 0) up (fun t => t.spin == 8),
       writable up 1 Adr.SPN_ISNSCFG, !up.flag Adr.SPN_CMD Fld.SPN_CMD_gate_en, after (.isnsCal 1 (-59)) up (fun t => t.spn.calibrating),
       up.fld Adr.SPN_ISNSCFG Fld.SPN_ISNSCFG_isns_gain != 3,
       after (.isnsGainWrite 1 3) up (fun t => t.fld Adr.SPN_ISNSCFG Fld.SPN_ISNSCFG_isns_gain == 3 && t.spn.winLeft == 4)]) = true := by
  decide +kernel

theorem test_witness_RetractPairRows :
    ok (let r := up.setReg Adr.SPN_RETRACT 0
      let a := (up.setFlag Adr.SPN_RETRACT Fld.SPN_RETRACT_a_asserted true)
      let w := waiting r .retract none
      [decide (up.ps < 4), !up.flag Adr.SPN_RETRACT Fld.SPN_RETRACT_retracted,
       after (.retractInputChange true true) up (fun t => t.flag Adr.SPN_RETRACT Fld.SPN_RETRACT_retracted && t.nor.counters[8] == 1),
       after (.retractInputChange true true) (up.setFld Adr.PWR_STATE Fld.PWR_STATE_ps 4) (fun t => !t.flag Adr.SPN_RETRACT Fld.SPN_RETRACT_armed),
       (up.setFld Adr.PWR_STATE Fld.PWR_STATE_ps 4).ps == 4,
       !a.flag Adr.SPN_RETRACT Fld.SPN_RETRACT_b_asserted, after .retractDiscrepancy a (fun t => t.fld Adr.SPN_RETRACT Fld.SPN_RETRACT_named == 2 && t.spn.pairReported),
       !r.flag Adr.SPN_RETRACT Fld.SPN_RETRACT_armed, after .retractRearm r (fun t => t.flag Adr.SPN_RETRACT Fld.SPN_RETRACT_armed),
       (w.ctx 1 1 5).isSome, after (.retractWaitTimeout 1 1 5) w (fun t => t.host.completions == [⟨1, 1, 5, 0, 0x82, false, 0, 0, []⟩])]) = true := by
  decide +kernel

/-! ## The time base, the phase loop and the launches -/

theorem test_witness_PtpRows :
    ok (let m : Master := { ident := 7, key := [1], utcOffset := 37, utcValid := true, leap61 := false, leap59 := false }
      let h : PtpHeader := { port := 0, domain := up.fld Adr.TMB_SRCCFG Fld.TMB_SRCCFG_domain, transport := up.fld Adr.TMB_SRCCFG Fld.TMB_SRCCFG_transport, vlan := 0 }
      let s := up.modTime (fun t => { t with best := some 7 })
      let v := s.setFld Adr.TMB_SRCCFG Fld.TMB_SRCCFG_vlan 9
      let e := s.modTime (fun t => { t with exchange := some { seq := 3, t2 := 1000 } })
      let f := s.modTime (fun t => { t with exchange := some { seq := 3, t2 := 1000, t1 := some 900, t3 := 1100 } })
      [up.ptpHeard h, v.ptpHeard { h with vlan := 9 }, !v.ptpHeard { h with vlan := 8 }, after (.ptpAnnounce h m) up (fun t => t.time.masters.contains m),
       after (.ptpSync h 7 3 (-7) none) s (fun t => t.time.ptpOk && t.time.exchange == some { seq := 3, t2 := 0 }),
       after (.ptpSync h 7 3 1 (some 5)) v (fun t => t.host.sent == [⟨.ptp 0 3, some (9, 7)⟩]), after (.ptpSync h 7 3 2 none) s (fun t => t == s),
       after (.ptpFollowUp h 7 3 900) e (fun t => t.time.exchange == some { seq := 3, t2 := 1000, t1 := some 900, t3 := 0 } && t.host.sent == [⟨.ptp 0 3, none⟩]),
       f.srcSelected.1 || f.srcUsed != 0, after (.ptpDelayResp h 7 3 1300) f (fun t => t.time.exchange.isNone),
       (let g := f.setFld Adr.TMB_SRCCFG Fld.TMB_SRCCFG_src_sel 1
        !g.srcSelected.1 && after (.ptpDelayResp h 7 3 1300) g (fun t => t.time.ptpOffset == some (100 - 150))),
       after (.ptpAnnounceTimeout 7) { up with time := { masters := [m] } } (fun t => t.time.masters.isEmpty)]) = true := by
  decide +kernel

/-- A Geryn word of 5 s with a hop count, its check good (R203). -/
def gerynBytes (hop : Byte) : List Byte :=
  let l := [1, 0, 0, 0, 0, 0, 5, 0, 0, 0, hop]
  l ++ beBytes 2 (gerynCheck l)

theorem test_witness_GerynRows :
    ok (let g := (up.setFlag Adr.GLK_STATUS Fld.GLK_STATUS_pps true).modTime (fun t => { t with gMissing := 1 })
      let h := up.setFld Adr.TMB_STATUS Fld.TMB_STATUS_state 3
      let z := h.setFld Adr.TMB_HOLD Fld.TMB_HOLD_holdover_max 0
      let m := { up.modTime (fun t => { t with gLast := some 0, gSec := some 8 }) with now := 1000010000 }
      let late := { m with now := 1000010001 }
      [after .gerynMarker up (fun t => t.flag Adr.GLK_STATUS Fld.GLK_STATUS_pps), after .gerynMarker m (fun t => t.time.gSec == some 9 && t.time.gLast == some 1000010000),
       after .gerynMarker late (fun t => t.time.gMissing == 1 && t.time.gSec == some 9), up.time.gEdge.isNone,
       gerynCheck ((gerynBytes 15).take 11) == ofBe (slice (gerynBytes 15) 11 2),
       after (.gerynWord (gerynBytes 15)) up (fun t => t.flag Adr.GLK_STATUS Fld.GLK_STATUS_word_ok && t.time.gSec == some 5),
       after (.gerynWord (gerynBytes 16)) up (fun t => !t.flag Adr.GLK_STATUS Fld.GLK_STATUS_word_ok && t.time.gSec.isNone),
       after .gerynMarkerMissing g (fun t => !t.flag Adr.GLK_STATUS Fld.GLK_STATUS_pps && t.time.gMissing == 2),
       after .gerynMarkerMissing up (fun t => t.time.gMissing == 1),
       z.tbState == 3, after .holdoverExpiry z (fun t => t.tbState == 4), after .holdoverExpiry h (fun t => t == h), after .holdoverExpiry up (fun t => t == up)]) = true := by
  decide +kernel

theorem test_witness_TraceAndLinkClaims :
    ok (let h := up.setFlag Adr.DBG_TRC Fld.DBG_TRC_held true
      [writable up 1 Adr.GLK_CLAIM, writable h 1 Adr.GLK_CLAIM, !up.flag Adr.DBG_TRC Fld.DBG_TRC_held,
       after (.glkClaim 1) up (fun t => t.flag Adr.GLK_CLAIM Fld.GLK_CLAIM_held),
       after (.glkClaim 1) h (fun t => t.flag Adr.GLK_CLAIM Fld.GLK_CLAIM_conflict && !t.flag Adr.GLK_CLAIM Fld.GLK_CLAIM_held),
       after (.glkRelease 1) up (fun t => !t.flag Adr.GLK_CLAIM Fld.GLK_CLAIM_held),
       writable up 1 Adr.DBG_TRC, after (.dbgTrcClaim 1 true) up (fun t => t.flag Adr.DBG_TRC Fld.DBG_TRC_held && t.flag Adr.DBG_TRC Fld.DBG_TRC_en),
       after (.dbgTrcRelease 1) h (fun t => !t.flag Adr.DBG_TRC Fld.DBG_TRC_held)]) = true := by
  decide +kernel

theorem test_witness_PhaseLoopRows :
    ok (let l := up.setPhase 4
      let p := (up.setPhase 2).modTime (fun t => { t with approach := some { late := true, len := 5 } })
      let k := up.modBatten 2 (fun b => { b with accepted := true, index := 0 })
      let again := k.modTime (fun t => { t with lastIndex := some 0 })
      let far := ((l.setSFld Adr.TMB_PHASE Fld.TMB_PHASE_e (-2000000000)).setFld Adr.SPN_CMD Fld.SPN_CMD_spd_ref 7200).setFld Adr.TMB_PLCTL Fld.TMB_PLCTL_approach_max 1
      [(k.act 2).batten.accepted, (k.act 2).batten.index == 0, k.time.lastIndex.isNone, !k.flag Adr.TMB_MEMBER Fld.TMB_MEMBER_en,
       after (.phaseMeasurement 2 9) up (fun t => t == up), l.phase == 4, after .phaseMeasurementTimeout l (fun t => t.phase == 3),
       after .phaseMeasurementTimeout again (fun t => t.phase == 0 && t.time.lastIndex.isNone),
       writable l 1 Adr.TMB_PLCTL, decide (l.approachLength (l.sfld Adr.TMB_PHASE Fld.TMB_PHASE_e * 65536) ≤ 9000),
       after (.approachRequest 1) l (fun t => t.phase == 2 && t.time.approach.isSome),
       decide (9000 < far.approachLength (far.sfld Adr.TMB_PHASE Fld.TMB_PHASE_e * 65536)),
       after (.approachRequest 1) far (fun t => t.phase == 4 && t.flag Adr.TMB_PLCTL Fld.TMB_PLCTL_refused),
       after .approachEnd p (fun t => t.phase == 3 && t.time.approach.isNone)]) = true := by
  decide +kernel

/-- A launched Read of class 0 of one block that waits for the medium, in service at speed. -/
def boundedRead : State :=
  let s := up.setFlag Adr.SPN_STATUS Fld.SPN_STATUS_at_speed true
  { s with time := { s.time with tb := 65536 * 24000001 }
           host := { s.host with ctxs := [{ assoc := 1, qid := 1, cid := 5, arrival := 0, permitted := true, cls := 0, instr := some (.read io), launched := true, wait := .actuator 0 }] } }

theorem test_witness_MissedBoundIsCounted :
    ok (match boundedRead.ctx 1 1 5 with
      | some x => [boundedRead.bounded x 65536, !boundedRead.bounded x 65535, decide (x.launch + x.boundNs < boundedRead.tbNs),
          after (.class0BoundMiss 1 1 5 65536) boundedRead (fun t => t.fld Adr.TMB_LAUNCH Fld.TMB_LAUNCH_c0_miss == 1)]
      | none => [false]) = true := by
  decide +kernel

theorem test_witness_DueLaunchIsReleased :
    ok (let s := { waiting up (.launch 10 none) (some (.timedRead io)) with time := { tb := 10 * 65536 } }
      [(s.ctx 1 1 5).isSome, s.host.ctxs.all (fun y => s.host.ctxs.all (fun x => !s.isDue y || !keyLess (s.launchRank y) (s.launchRank x))),
       !s.restarting 2, s.funcRunning 9, decide (s.ps < 2), !s.psMoving, s.host.ctxs.all (fun y => s.isDue y),
       after (.launchRelease 1 1 5) s (fun t => t.host.completions.length == 1)]) = true := by
  decide +kernel

theorem test_witness_AlarmRows :
    ok (let h := fun (n : Nat) => up.setFld (Adr.TMB_ALM_CTL 3) Fld.TMB_ALM_CTL_holder n
      let f := (h 1).setFld (Adr.TMB_ALM_CTL 3) Fld.TMB_ALM_CTL_irq 2
      [writable up 1 (Adr.TMB_ALM_CTL 3), up.fld (Adr.TMB_ALM_CTL 3) Fld.TMB_ALM_CTL_holder == 0,
       after (.alarmClaim 1 3 0) up (fun t => t.fld (Adr.TMB_ALM_CTL 3) Fld.TMB_ALM_CTL_holder == 1),
       after (.alarmClaim 1 3 0) (h 2) (fun t => t.flag (Adr.TMB_ALM_CTL 3) Fld.TMB_ALM_CTL_conflict && t.fld (Adr.TMB_ALM_CTL 3) Fld.TMB_ALM_CTL_holder == 2),
       after (.alarmRelease 1 3) (h 1) (fun t => t.fld (Adr.TMB_ALM_CTL 3) Fld.TMB_ALM_CTL_holder == 0),
       f.powered 2, !f.restarting 2, after (.alarmFire 3) f (fun t => t.flag (Adr.TMB_ALM_CTL 3) Fld.TMB_ALM_CTL_fired && t.host.irqs == [3]),
       f.alarmReached 3, (let w := f.setReg (Adr.TMB_ALM_LO 3) 1; !w.alarmReached 3 && after (.alarmFire 3) w (fun t => t == w)),
       after (.alarmFire 3) up (fun t => t == up)]) = true := by
  decide +kernel

/-! ## Recovery and integrity of the medium -/

/-- A zone of 40 tracks, 4 of them spare, with 60 data sectors a track. -/
def zone : Zone := { first := 0, count := 40, band := 0, cells := 25600, m := 1, n := 1, spt := 64, skew := 0, metaCode := 0, spare := 4, nA := 1, nB := 1 }

/-- A layout of eleven surfaces and four trusses. -/
def layout : Layout :=
  let q := [0, 8, 16, 24, 1, 9, 17, 25, 2, 10, 18]
  { q := q, tmax := 4, zones := q.map (fun x => (x, [zone])) }

/-- Every actuator follows its track, and the medium has the layout. -/
def loaded : State := { (((up.setMode 0 1).setMode 1 1).setMode 2 1).setMode 3 1 with media := { layout := some layout, units := [0, 9, 10, 18] } }

/-- Media address 577 erased, at a layer. -/
def erasedAt (n : Nat) : State := loaded.modMedia (fun m => { m with erased := [{ media := 577, layer := n }] })

/-- A sector as a pass records media address x with some tag, without its parity bits. -/
def bareSector (x : Nat) : List Byte := List.replicate 4096 0 ++ tagBytes x 1 (kindOf x) 0

theorem test_witness_RecoveryLayers :
    ok (let p := ((erasedAt 3).locate 577).getD ⟨0, 0, 0⟩
      let r := (erasedAt 3).modMedia (fun m => { m with sectors := [(p.phys, bareSector 577)] })
      let k := ((erasedAt 2).courseOf 577).getD (0, 0, 0)
      let q := (erasedAt 2).modMedia (fun m => { m with sectors := [60, 61, 62, 63].map (fun i => (coursePhys k i, List.replicate 4096 0 ++ tagBytes (coursePhys k i) 1 3 0)) })
      let no := (erasedAt 4).modMedia (fun m => { m with lostSurfaces := [0, 9, 16] })
      let down := (erasedAt 4).setMode 0 0
      [(erasedAt 2).media.erasedAt 577 == some { media := 577, layer := 2 }, (erasedAt 2).recoverable 577, ((erasedAt 2).courseOf 577).isSome, (erasedAt 2).courseApplies 577,
       q.recoverable 577, q.courseApplies 577, decide ((q.lostPositions 577 [11, 12, 13]).length ≤ 4), q.erasedWith 577 == [577],
       after (.courseRecovery 577 [11, 12, 13]) q (fun t => t.media.erased.isEmpty && (lookupKey t.media.dram 577).isSome),
       decide (4 < ((erasedAt 2).lostPositions 577 [11, 12, 13, 14]).length), after (.courseRecovery 577 [11, 12, 13, 14]) (erasedAt 2) (fun t => !t.media.erased.isEmpty),
       r.recoverable 577, decide (0 < r.retryMax 577), decide (5 ≤ r.retryLimit 577 0), (r.readable 577).isSome,
       after (.readRetry 577 [(577, 5)]) r (fun t => t.media.erased.isEmpty && (lookupKey t.media.dram 577).isSome),
       after (.readRetry 577 []) r (fun t => t.media.erased.all (fun e => e.layer == 2)),
       (erasedAt 4).trussApplies 577, ((erasedAt 4).helperDown 577).isNone,
       after (.trussRecovery 577 true) (erasedAt 4) (fun t => t.media.erased.isEmpty && t.media.byTruss == 1),
       down.recoverable 577, down.trussApplies 577, (down.helperDown 577).isSome, no.recoverable 577, !no.trussApplies 577]) = true := by
  decide +kernel

/-- A read of LBA 1 of namespace 1, whose trusses are 1 and 2, that waits. -/
def reading (w : Wait) : State :=
  { waiting loaded w (some (.read { io with cdw10 := 1 })) with spaces := [(1, { mould := false, nsze := 1024, trusses := [1, 2] })] }

/-- A sector list entry whose write was cut. -/
def cutOf (n : Nat) : Entry := { media := 577, write := true, head := 0, track := 5, sector := 1, interval := 0, tgt := 0, len1 := 64, len2 := 0, outcome := some n }

theorem test_witness_RecoveryEndRows :
    ok (let c : Ctx := { assoc := 1, qid := 1, cid := 5, arrival := 0, permitted := true, cls := 0 }
      let r : State := { reading .recovery with host := { (reading .recovery).host with ctxs := [{ c with instr := some (.read { io with cdw10 := 1 }), wait := .recovery, recovFrom := some 0 }] } }
      let e := { r with now := r.recoveryLimit c }
      let v := (reading (.actuator 0)).modMedia (fun m => { m with units := [9, 10] })
      let down := { (v.setMode (v.actAt 577) 0).setFlag Adr.MDI_UNAV Fld.MDI_UNAV_recon_unav true with now := 2 ^ 40 }
      let s := loaded.modSeq 2 (fun q => { q with list := [cutOf 5] })
      let p := (loaded.locate 577).getD ⟨0, 0, 0⟩
      let w := loaded.modMedia (fun m => { m with rewrites := [(577, [7])] })
      [(r.ctx 1 1 5).isSome, decide (r.now < r.recoveryLimit c), after (.recoveryLimitExpiry 1 1 5) r (fun t => t == r),
       after (.recoveryLimitExpiry 1 1 5) e (fun t => t.host.completions.length == 1),
       (down.lbaSpace c 1).isSome, (match down.ctx 1 1 5 with | some x => x.wait.forActuator && decide (x.since + max (down.fld Adr.MDI_UNAV Fld.MDI_UNAV_unavail_ms) 1 * 1000000 ≤ down.now) | none => false),
       (([1].filterMap (fun l => ({ mould := false, nsze := 1024, trusses := [1, 2] } : Namespace).mediaOf l)).filter (fun m => down.media.units.contains (m / 64)
          && !down.actServes (down.actAt m) && !down.missingAt m && (lookupKey down.media.dram m).isNone && down.trussApplies m && (down.helperDown m).isNone)) == [577],
       after (.unavailReconstruct 1 1 5) down (fun t => (lookupKey t.media.dram 577).isSome),
       (w.locate 577).isSome, !w.media.surfaceGone p.surface, w.mayPlace p.surface, w.roomFor [577],
       after (.recoveredRewrite 577 (some 0)) w (fun t => t.media.rewrites.isEmpty && t.media.wsn == 1 && (lookupKey t.media.sectors p.phys).isSome),
       after (.recoveredRewrite 577 none) w (fun t => t.media.reallocated == 1),
       (s.cutEntry 577).isSome, s.mayPlace 16, s.roomFor [577], decide (0 + 1 < s.fld (Adr.MDI_RCTL 2) Fld.MDI_RCTL_wr_retry),
       after (.writeRetry 577 true) s (fun t => t.media.tries == [] && (lookupKey t.media.sectors p.phys).isSome),
       after (.writeRetry 577 false) s (fun t => t.media.tries == [(577, 1)])]) = true := by
  decide +kernel

theorem test_witness_IntegrityRows :
    ok (let c : OpenCourse := { surface := 9, track := 3, course := 2, written := [1], since := 0 }
      let o := { loaded.modMedia (fun m => { m with courses := [c] }) with now := 2000000000 }
      let d := loaded.modMedia (fun m => { m with courses := [{ c with closing := true }] })
      let tr := loaded.modMedia (fun m => { m with trailing := [{ truss := 2, stale := [1], since := 0 }] })
      let old := { tr with now := 2 ^ 40 }
      let rb := ((loaded.setFlag Adr.MDI_REBUILD Fld.MDI_REBUILD_rb_en true).setFld Adr.MDI_REBUILD Fld.MDI_REBUILD_surface 9).modMedia
        (fun m => { m with rebuildQueue := [9, 3], lostSurfaces := [9], units := List.range 36 })
      let e := rb.modMedia (fun m => { m with rebuildNext := 4 })
      let x := 2 * 576 + 512 + 1
      [(o.media.openCourse (9, 3, 2)).isSome, after (.courseOpenTimeout 9 3 2) o (fun t => t.media.timerCloses == 1 && t.media.courses == [{ c with closing := true }]),
       d.mayPlace 9, after (.courseCloseDone 9 3 2 []) d (fun t => t.media.courses.isEmpty && t.media.sectors.map (fun z => z.1) == (List.range 4).map (fun i => coursePhys (9, 3, 2) (60 + i))),
       old.media.trailing.any (fun r => r.truss == 2 && old.trailOver r), after (.trailTimeout 2) old (fun t => t == old.event 0x387),
       tr.parityTurn { truss := 2, stale := [1], since := 0 }, tr.roomFor [x], (tr.locate x).isSome, (List.range 9).all (fun j => !tr.missingAt (2 * 576 + j * 64 + 1)),
       after (.trussParityWritten 2) tr (fun t => t.media.trailing.isEmpty && t.media.sectors.map (fun z => z.1) == ((tr.locate x).map Locus.phys).toList),
       !e.media.afterLoss, (e.nextRebuild layout 9 4).isNone, after .rebuildUnit e (fun t => t.media.rebuildQueue == [3]),
       rb.nextRebuild layout 9 0 == some 0, rb.media.toRebuild layout 9 0 == some 4 || (rb.media.toRebuild layout 9 0).isSome, (rb.rebuildTarget layout 0).isSome,
       (match rb.rebuildTarget layout 0, rb.media.toRebuild layout 9 0 with
        | some y, some j => (rb.spareRun y).isSome && rb.mayPlace y && rb.helpersUp layout 0 j && !rb.media.isClean 0 j | _, _ => false),
       after .rebuildUnit rb (fun t => t.media.rebuildNext == 1 && t.media.rebuilt.length == 1)]) = true := by
  decide +kernel

/-- Surface 0 has a zone. -/
def zoned : State := loaded.setReg (Adr.ZT0 0 0 0) 0xFFFFFFFF

theorem test_witness_IntegrityRows_scan :
    ok (let sc := zoned.setFlag (Adr.MDI_SCAN 0) Fld.MDI_SCAN_scan_en true
      [sc.mayScan 0, sc.scansSurface 0, after (.scanSector 0 0 100 5 (.decoded 3)) sc (fun t => t.fld (Adr.MDI_SCANPOS 0) Fld.MDI_SCANPOS_track == 100),
       after (.scanSector 0 0 100 5 .passEnd) sc (fun t => t.media.scanPasses[0] == 1)]) = true := by
  decide +kernel

/-! ## Casts, recipes and the compressors -/

/-- A list of zeros with some bytes put in at offsets. -/
def bytesOf (n : Nat) (l : List (Nat × List Byte)) : List Byte :=
  l.foldl (fun b p => b.take p.1 ++ p.2 ++ b.drop (p.1 + p.2.length)) (List.replicate n 0)

/-- Part 0 of a mould of text: version 1, a sample entry of 16 bytes, 1,000 ticks a second, track 1, segments of 1,000 ticks (R256). -/
def part0 : List Byte := bytesOf 144 [(0, [1]), (2, [16]), (4, ascii "text"), (8, leBytes 4 1000), (12, [1]), (16, leBytes 4 1000), (128, [0, 0, 0, 16])]

/-- A sample map of one synchronous sample of 4 bytes and 1,000 ticks (R257). -/
def part1 : List Byte := bytesOf 32 [(8, [4]), (12, leBytes 4 1000), (26, [1])]

/-- Mould 2 of namespace 7, whole and not committed. -/
def openMould : Mould := ((({ ns := 7, id := 2 } : Mould).writePart 0 0 part0).writePart 1 0 part1).writePart 3 0 [65, 66, 67, 68]

/-- A profile of version 1 and container 1, without protection. -/
def profile : List Byte := bytesOf 64 [(0, [1]), (1, [1])]

/-- A Cast of mould 2 of namespace 7 under profile 5: an initialisation segment. -/
def castCmd : Cmd := { io with nsid := 7, cdw10 := 0x00050002, len := 4096 }

/-- A device with the mould committed and the profile loaded. -/
def casts : State :=
  { up with spaces := [(7, { mould := true, nsze := 4096, trusses := [1, 2, 3, 4, 5, 6, 7, 8] })]
            cast := { moulds := [{ openMould with committed := some 0 }], profiles := [(5, profile)] } }

/-- The Cast after its launch. -/
def castJob : CastJob := { assoc := 1, qid := 1, cid := 5, order := 0, cls := 0, launch := 0, cmd := castCmd }

/-- The Cast dispatched, with its output in pours. -/
def poured (l : List Pour) (st : List (Nat × List Byte)) : CastJob := { castJob with dispatched := true, profile := profile, total := 4, pours := l, staged := st }

/-- A device with one Cast and its runs. -/
def castingOf (j : CastJob) (r : List (Nat × Run)) : State :=
  let s := waiting casts .casting (some (.cast castCmd))
  { s with cast := { s.cast with jobs := [j], runs := r } }

/-- A run on a channel, at the first instruction of an image whose line is in the buffer. -/
def runOf (oc count : Nat) : Run := { assoc := 1, qid := 1, cid := 5, pour := 0, first := 0, count := count, oc := oc, lines := [0] }

theorem test_witness_CastEngineRows :
    ok (let p : Pour := { first := 0, len := 4 }
      let s := castingOf (poured [p] []) []
      let q := castingOf castJob []
      let d := castingOf (poured [{ p with running := true }] []) [(3, runOf 4 4)]
      let f := castingOf (poured [{ p with done := true }] [(0, [9, 8, 7, 6])]) []
      [s.freeEngine == some 0, (match s.pickCast false s.castQueue with | some (j, .error _) => j.dispatched | _ => false),
       after .castDispatch s (fun t => (lookupKey t.cast.runs 0).isSome),
       (match q.pickCast false q.castQueue with | some (j, .ok _) => !j.dispatched | _ => false),
       after .castDispatch q (fun t => t.cast.jobs.all (fun j => j.dispatched)),
       (d.job 1 1 5).isSome, after (.pourDone 3) d (fun t => t.cast.runs.isEmpty && t.host.completions.isEmpty),
       (match f.job 1 1 5 with | some j => j.dispatched && !j.stopped && !j.pours.any (fun p => !p.done) | none => false),
       (f.ctx 1 1 5).isSome, after (.castComplete 1 1 5) f (fun t => t.host.completions == [⟨1, 1, 5, 0, 0, false, 4, 0, [9, 8, 7, 6]⟩] && t.cast.jobs.isEmpty),
       !up.cast.failedEngines.contains 9, after (.castEngineFault 9) up (fun t => t.cast.failedEngines == [9])]) = true := by
  decide +kernel

/-- A recipe image of two instructions, the second of zeros, and sixteen literal bytes (R295). -/
def imageOf (w : List Nat) : List Byte :=
  bytesOf 368 [(0, [1]), (2, [3]), (4, [2]), (6, [16]), (320, leBytes 4 0xD4C3B2A1), (336, (w.map (leBytes 4)).flatten)]

/-- A run of such a recipe on channel 3. -/
def running1 (w : List Nat) (r : Run) : State :=
  castingOf { poured [{ first := 0, len := 4, running := true }] [] with recipe := some { id := 3, pin := false, image := imageOf w }, key := some [] } [(3, r)]

/-- The instruction is present on channel 3. -/
def present (s : State) (op : Nat) (r : Run) : Bool :=
  lookupKey s.cast.runs 3 == some r && r.state == 1 && !r.ended && r.oc != r.count && (match s.job r.assoc r.qid r.cid with
    | some j => (s.viewOf j).isSome && (match j.recipe with | some x => presentOp r x.image == op | none => false) | none => false)
  && r.lines.contains (r.pc / 8)

theorem test_witness_RecipeInstructionRows :
    ok (let mv := [0x16000000, 4, 0, 0]
      let lp := [0x20000000, 2, 0, 0]
      let wt := [0x34000000, 5, 0, 0]
      let sg := [0x48000000, 9, 0, 0]
      let w : ChanWait := { kind := 1, arg := 5, consume := false, since := 0 }
      let r := { runOf 0 4 with state := 3, wait := some w }
      let e := castingOf { poured [] [] with evf := 32 } [(3, r)]
      let out := { e with now := max (e.fld Adr.MVR_CTRL Fld.MVR_CTRL_wait_ms) 1 * 1000000 }
      [present (running1 mv (runOf 0 4)) 1 (runOf 0 4), after (.move 3 false) (running1 mv (runOf 0 4)) (fun t => (lookupKey t.cast.runs 3).map (fun r => r.oc) == some 4),
       present (running1 mv (runOf 0 2)) 1 (runOf 0 2), after (.move 3 false) (running1 mv (runOf 0 2)) (fun t => t.flag Adr.MVR_FAULT Fld.MVR_FAULT_latched),
       present (running1 lp (runOf 0 4)) 2 (runOf 0 4), after (.loop 3) (running1 lp (runOf 0 4)) (fun t => (lookupKey t.cast.runs 3).map (fun r => r.pc) == some 1),
       present (running1 wt (runOf 0 4)) 3 (runOf 0 4), after (.wait 3) (running1 wt (runOf 0 4)) (fun t => (lookupKey t.cast.runs 3).map (fun r => r.state) == some 3),
       present (running1 sg (runOf 0 4)) 4 (runOf 0 4), after (.signal 3) (running1 sg (runOf 0 4)) (fun t => t.cast.jobs.map (fun j => j.evf) == [512]),
       (match e.job 1 1 5 with | some j => e.waitOver j w | none => false), after (.waitEnd 3) e (fun t => (lookupKey t.cast.runs 3).map (fun r => r.state) == some 1),
       after (.recipeWaitTimeout 3) e (fun t => t == e),
       after (.recipeWaitTimeout 3) out (fun t => t.flag Adr.MVR_FAULT Fld.MVR_FAULT_latched),
       after (.programLineArrive 3 true) (castingOf (poured [] []) [(3, { runOf 0 4 with state := 4, lines := [] })])
         (fun t => lookupKey t.cast.runs 3 == some (runOf 0 4)),
       (let s := castingOf (poured [] []) [(3, { runOf 0 4 with state := 2 })]
        decide ((s.drain 1 s.loEff (s.queue (egressOf 1)).packets.length).fill 1 ≤ s.loEff) && after (.pacingResume 3) s (fun t =>
          (lookupKey t.cast.runs 3).map (fun r => r.state) == some 1))]) = true := by
  decide +kernel

/-- A job of a compressor. -/
def cmpJob (op : Nat) (l : List Byte) (u : Option Nat) : CmpJob := { assoc := 1, qid := 1, cid := 5, cls := 0, op := op, level := 1, input := l, space := 4096, unit := u }

/-- A device with one job. -/
def jobs (j : CmpJob) : State := { waiting up .job (some (.transform io)) with cmp := [j] }

theorem test_witness_CompressionRows :
    ok (let s := jobs (cmpJob 2 [1, 1, 0, 0xFE, 0xFF, 0x41] none)
      let d := jobs (cmpJob 2 [1, 1, 0, 0xFE, 0xFF, 0x41] (some 2))
      let f := jobs (cmpJob 2 [7] (some 2))
      let c := jobs (cmpJob 0 [65, 66] (some 1))
      [decide ((s.cmp.filter (fun j => j.unit.isSome)).length < s.jobLimit), s.unitFor (cmpJob 2 [1, 1, 0, 0xFE, 0xFF, 0x41] none) == some 0,
       after .compressionJobStart s (fun t => t.cmp.map (fun j => j.unit) == [some 0]),
       (match decompress 2 [1, 1, 0, 0xFE, 0xFF, 0x41] 4096 with | .done o => o == [0x41] | _ => false),
       after (.compressionJobDone 2) d (fun t => t.host.completions.length == 1 && t.cmp.isEmpty && t.fld Adr.CMP_CNT0 Fld.CMP_CNT0_decomp_jobs == 1),
       (match decompress 2 [7] 4096 with | .failed _ _ => true | _ => false),
       after (.decompressError 2) f (fun t => t.host.completions.length == 1 && t.cmp.isEmpty),
       (cmpJob 0 [65, 66] (some 1)).compresses, c.unitState 1 == 0,
       after (.verifierMismatch 1) c (fun t => t.cmp.map (fun j => (j.unit, j.mismatched)) == [(none, [1])]),
       after (.verifierDisable 3) up (fun t => t.unitState 3 == 1 && t.unitState 2 == 0)]) = true := by
  decide +kernel

/-! ## Ports, connections, PCIe and the management interface -/

theorem test_witness_PortRows :
    ok (let d := up.setFlag (Adr.NET_STATUS 0) Fld.NET_STATUS_link false
      let i := ((up.setFld (Adr.NET_IF0 0 1) Fld.NET_IF0_en 1).setFld (Adr.NET_IF0 0 1) Fld.NET_IF0_pfx4 24).setReg (Adr.NET_IFIP4 0 1) 0x0A000001
      let ll (n : Nat) := { { d with host := { d.host with linkDownAt := [(0, 0)] } } with now := n }
      let f : Frame := { tag := .vlan 0, len := 64, fcsOk := true, payload := .arp 0x0A000001 }
      [d.portUsable 0, d.fstate 12 == 0, after (.linkUp 0) d (fun t => t.flag (Adr.NET_STATUS 0) Fld.NET_STATUS_link),
       up.flag (Adr.NET_STATUS 0) Fld.NET_STATUS_link, after (.linkDown 0) up (fun t => !t.flag (Adr.NET_STATUS 0) Fld.NET_STATUS_link),
       d.funcRunning 12, after (.linkLossTimeout 0) (ll 2000000000) (fun t => t.host.assocs.isEmpty), after (.linkLossTimeout 0) (ll 1999999999) (fun t => t.host.assocs.length == 1),
       up.host.assocs.all (fun x => x.1 == 1024 || x.2.port != 1), after (.portFault 1) up (fun t => t.flag (Adr.NET_STATUS 1) Fld.NET_STATUS_failed),
       decide (64 ≤ i.fld (Adr.NET_CFG 0) Fld.NET_CFG_mtu + 22), i.ifaceOf 0 0 == some 1, i.holdsIp 0 1 false 0x0A000001,
       after (.frameReceive 0 f) i (fun t => t.host.sent == [⟨.arpReply 0 1 0x0A000001, none⟩]),
       after (.frameReceive 0 { f with fcsOk := false }) up (fun t => t.fld (Adr.NET_CNT0 0) Fld.NET_CNT0_fcs_err == 1)]) = true := by
  decide +kernel

/-- A device with connection 4. -/
def conn (c : Conn) : State := { up with host := { up.host with conns := [(4, c)], nextConn := 5 } }

theorem test_witness_ConnectionRows :
    ok (let c : Conn := { port := 0, localPort := 4420 }
      let net := up.setFld (Adr.NET_IF0 0 1) Fld.NET_IF0_en 1
      let ka (n : Nat) : State := { up with now := n, host := { up.host with assocs := [(1, { auth := true, kato := 5 })] } }
      let full := { net with host := { up.host with conns := (List.range 16).map (fun k => (k, { port := 0, localPort := 8009 })), nextConn := 16 } }
      [net.flag (Adr.NET_STATUS 0) Fld.NET_STATUS_link, net.flag (Adr.NET_IF0 0 1) Fld.NET_IF0_en,
       after (.tcpConnect 0 1 false 4420) net (fun t => t.host.conns == [(0, { c with iface := 1, mss := net.mss 0 false })]),
       after (.tcpConnect 0 1 false 8009) full (fun t => t.host.conns.length == 16 && t.host.sent.map (fun x => x.out) == [.tcpReset 0 16]),
       after (.connectionClose 4) (conn c) (fun t => t.host.conns.isEmpty),
       after (.icreq 4 0 0 true false) (conn c) (fun t => t.host.sent.map (fun x => x.out) == [.icResp 4 (icRespBytes true false)]),
       after (.icreq 4 1 0 true false) (conn c) (fun t => t.host.sent.map (fun x => x.out) == [.termReq 4 6 8] && t.host.conns.isEmpty),
       after (.tcpTimerExpiry 4 1) (conn c) (fun t => t.host.sent.map (fun x => x.out) == [.windowProbe 4]), after (.tcpTimerExpiry 4 0) (conn c) (fun t => t.host.sent.map (fun x => x.out) == [.retransmit 4]),
       after (.refusedConnectionTimeout 4) (conn { c with refused := true }) (fun t => t.host.conns.isEmpty),
       (up.assoc 1).isSome, after (.keepAliveExpiry 1) up (fun t => t == up), after (.keepAliveExpiry 1) (ka 4999999) (fun t => t.host.assocs.length == 1),
       after (.keepAliveExpiry 1) (ka 5000000) (fun t => t.host.assocs.isEmpty)]) = true := by
  decide +kernel

theorem test_witness_CapsuleRows :
    ok (let c : Conn := { port := 0, localPort := 4420, icDone := true }
      let d := { adm with assoc := 4, cid := 9, cdw10 := 0, data := bytesOf 1024 [(16, [0xFF, 0xFF])] }
      let s := conn { c with assoc := some 1, qid := 1 }
      [!s.queueFull (commandQueue 1 1), after (.capsuleReceive 4 9 64 true true false) s (fun t => t.host.capsules.map (fun k => (k.assoc, k.qid, k.cid, k.permitted)) == [(1, 1, 9, true)]),
       after (.h2cData 4 9 true true) (conn c) (fun t => t.host.completions.isEmpty),
       up.powered 4, leAt (fitBytes d.data 1024) 16 2 == 0xFFFF, firstFrom 0 1024 (fun a => ((conn c).assoc a).isNone) == some 0,
       after (.fabricsConnect d) (conn c) (fun t => (t.assoc 0).isSome && t.host.completions.map (fun k => (k.assoc, k.cid, k.sc)) == [(0, 9, 0)])]) = true := by
  decide +kernel

/-- Association 1,024. -/
def pcie (y : Assoc) : State := { up with host := { up.host with assocs := [(1, { auth := true }), (1024, y)], pcieEnabled := true, perstLow := false } }

theorem test_witness_PcieRows :
    ok (let e := { (up.setFlag Adr.HIF_CTRL Fld.HIF_CTRL_pcie_en true) with host := { up.host with perstLow := false } }
      let k : Nat := 0
      [e.powered 4, decide (4 ≤ e.fld Adr.PLN_STATUS Fld.PLN_STATUS_step), (e.assoc 1024).isNone,
       after (.controllerEnable 0) e (fun t => (t.assoc 1024).isSome && t.host.pcieEnabled),
       after .controllerDisable (pcie {}) (fun t => (t.assoc 1024).isNone && !t.host.pcieEnabled),
       after .perstAssert (pcie {}) (fun t => (t.assoc 1024).isNone && t.host.perstLow),
       up.ps != 5, after (.perstRise default) (pcie {}) (fun t => (t.assoc 1024).isNone && !t.host.perstLow),
       after (.functionLevelReset 0) (pcie {}) (fun t => (t.assoc 1024).isNone), after (.functionLevelReset 1) (pcie {}) (fun t => (t.assoc 1024).isSome),
       after (.sqTailDoorbell 0 3 [9]) (pcie {}) (fun t => lookupKey t.host.doorbells 0 == some 3 && t.host.capsules.map (fun z => z.cid) == [9]),
       after (.cqHeadDoorbell k 3) (pcie {}) (fun t => t.host.heldCpl.isEmpty)]) = true := by
  decide +kernel

theorem test_witness_ManagementRows :
    ok ([decide (up.ps < 4), after (.subsystemHealthStatusPoll true default) up (fun t => t.mi.status == 0 && !t.mi.alert),
       after (.controllerHealthStatusPoll 0 default) up (fun t => t.mi.status == 0),
       after (.configurationGet 1 default) up (fun t => t.mi.response == [1, 0, 0, 0]), after (.configurationGet 3 default) up (fun t => t.mi.response == [64, 0, 0, 0]),
       after (.configurationSet 1 2 default) up (fun t => t.mi.freq == 2 && t.mi.status == 0),
       after (.configurationSet 3 250 default) up (fun t => t.mi.unit == 250), after (.configurationSet 1 3 default) up (fun t => t.mi.freq == 1 && t.mi.status == 4)]) = true := by
  decide +kernel

theorem test_witness_ManagementRows_tunnel :
    ok ([(match up.logData { adm with cdw10 := 3 } with | .ok d => d.length == 4 | .error _ => false),
       after (.miTunnelledAdmin 0x02 { adm with cdw10 := 3 } default) up (fun t => t.mi.status == 0 && t.mi.response.length == 4)]) = true := by
  decide +kernel

/-! ## Fetching, waiting and ending commands -/

theorem test_witness_WaitingCommandRows :
    ok (let k : Capsule := { assoc := 1, qid := 1, cid := 5, arrival := 0, permitted := true, order := 4 }
      let f := { up with host := { up.host with capsules := [k] } }
      let w2 := up.setFld Adr.OWN_STATUS Fld.OWN_STATUS_state 2
      let q : Lock := { ns := 1, lo := 1, hi := 1, excl := false, assoc := 1, qid := 1, cid := 5, granted := false }
      let l := reading .lock
      let lk := { l with host := { l.host with locks := [q] } }
      let tr := { waiting loaded .trailing (some (.write { io with cdw10 := 1 })) with spaces := [(1, { mould := false, nsze := 1024, trusses := [1, 2] })] }
      let d : Deleting := { assoc := 1, qid := 0, cid := 5, order := 9, spaces := [] }
      let dl := { up with deleting := [d] }
      let mw := { waiting casts .withdraw (some (.mouldWrite { io with nsid := 7, cdw10 := 2 })) with cast := casts.cast }
      [(f.nextCapsule).isSome, after .commandFetch f (fun t => t.host.ctxs.length == 1 && t.host.capsules.isEmpty),
       up.ownState == 1, after .leaseExpiry up (fun t => t == up), after .leaseExpiry { up with now := 1000000000 } (fun t => t.ownState == 0),
       w2.ownState == 2, after .successorWindowLapse w2 (fun t => t == w2), after .successorWindowLapse { w2 with now := 1000000000 } (fun t => t.ownState == 0),
       (lk.ctx 1 1 5).isSome, lk.host.lockAt 1 1 5 == some q, lk.host.lockFree q, after (.rangeLockGrant 1 1 5) lk (fun t => t.host.locks.all (fun e => e.granted)),
       (tr.ctx 1 1 5).isSome, after (.trailingBufferSpace 1 1 5) tr (fun t => t.host.ctxs.length == 1),
       (dl.deleting.find? (fun d => d.assoc == 1 && d.qid == 0 && d.cid == 5)).isSome, !dl.nsBusy d, after (.namespaceDeleteDone 1 0 5) dl (fun t => t.deleting.isEmpty),
       (mw.ctx 1 1 5).isSome, !mw.castSees (mw.mouldOr 7 2) 0,
       after (.mouldWithdrawDone 1 1 5) mw (fun t => t.host.completions == [⟨1, 1, 5, 0, 0, false, 0, 0, []⟩])]) = true := by
  decide +kernel

/-! ## The state after reset and the forms every step keeps -/

theorem test_witness_EveryStepKeepsForms_EveryCommandAnswers :
    ok (let s := { loaded with pending := [.wakeNRelease, .jtagReset] }
      [s.regs.sorted, keysRise s.media.sectors, s.pending == [.wakeNRelease, .jtagReset],
       match step s with | .next t => t.pending == [.jtagReset] && t.pln.wakeArmed | _ => false]) = true := by
  decide +kernel

theorem test_witness_EmptyQueuePassesOneClock :
    ok (let r := { up with flt := { up.flt with restarting := [2] } }
      [up.pending == [], !up.restarting 2, match step up with | .next t => t.now == 2 && t.time.tb == 131072 | _ => false,
       r.pending == [], r.restarting 2, match step r with | .next t => t.now == 2 && t.time.tb == r.time.tb | _ => false]) = true := by
  decide +kernel

/-! ## Registers, functions and configuration records -/

/-- What the rows of the owner carry, from an association. -/
def args (o : Nat) : WriteArgs :=
  { path := .pcie, assoc := o, addr := Adr.NET_IFIP4 0 1, value := 0x0A000001, act := 0, alarm := 0, gain := 0, func := 8, parked := 0, rpm := 0, en := true }

theorem test_witness_OwnerWriteRows :
    ok (let off := up.setReg 16388 0
      let rst : State := { up with flt := { up.flt with restarting := [4] } }
      let hld : State := { rst with heldRegs := [⟨.regCmd, 1, Adr.NET_IFIP4 0 1, 9, true⟩] }
      let off1 := up.setReg 16388 0
      let stg := up.setFld Adr.CST_STAGE Fld.CST_STAGE_size_mib 1024
      let psc := up
      [(args 2).addr % 4 == 0, (up.ownerRows (args 1)).length == 27, !up.isOwner 2, up.isOwner 1,
       after (.plainRegisterWrite .pcie 2 (Adr.NET_IFIP4 0 1) 4 1) up (fun t => t.reg (Adr.NET_IFIP4 0 1) == up.reg (Adr.NET_IFIP4 0 1)),
       regionOf (Adr.NET_IFIP4 0 1) == some 4, !off.powered 4, off.isOwner 1, rst.powered 4, rst.restarting 4, !survivesRestart (Adr.NET_IFIP4 0 1),
       after (.plainRegisterWrite .pcie 1 (Adr.NET_IFIP4 0 1) 4 9) rst (fun t => t.heldRegs == [⟨.regCmd, 1, Adr.NET_IFIP4 0 1, 9, true⟩]),
       hld.isOwner 1, after (.spindleStop 1 0) hld (fun t => t.heldRegs.length == 2), after (.spindleStop 1 0) off1 (fun t => t == off1.event 0x0E0), !off1.powered 1,
       writable up 1 (Adr.NET_IFIP4 0 1), writable stg 1 Adr.CST_STGCLAIM, stg.cast.claim.isNone, getBits 0x03000000 Fld.CST_STGCLAIM_req_mib == 768,
       decide (256 + 768 ≤ stg.fld Adr.CST_STAGE Fld.CST_STAGE_size_mib), after (.stagingClaim 1 0x03000000) stg (fun t => t.cast.claim == some 768),
       after (.stagingRelease 1 0) up (fun t => t.cast.claim.isNone),
       writable up 1 Adr.HIF_CTRL, after (.pcieEnWrite 1 1) up (fun t => t.flag Adr.HIF_CTRL Fld.HIF_CTRL_pcie_en),
       after (.pcieEnWrite 1 0) up (fun t => !t.host.pcieEnabled),
       writable psc 1 (Adr.CHN_PSC_ACC 2), !psc.flag (Adr.CHN_PSC_ACC 2) Fld.CHN_PSC_ACC_busy, (psc.act 2).psc.isNone,
       getBits 0x30000 Fld.CHN_PSC_ACC_addr != psc.fld (Adr.CHN_PSC_CFG 2) Fld.CHN_PSC_CFG_head_addr,
       after (.pscFrameGo 1 2 0x30000) psc (fun t => (t.act 2).psc.map (fun f => f.addr) == some 3)]) = true := by
  decide +kernel

/-- Function 8 in a state. -/
def func (k n : Nat) : State := up.setFld (Adr.FUNC_CTRL k) Fld.FUNC_CTRL_state n

theorem test_witness_PlainRegisterWrites :
    ok (let a := Adr.NET_CNT0 0
      [writable up 1 0x40, (rowAt 0x7FC).isNone, writable up 1 0x7FC, after (.plainRegisterWrite .regCmd 1 0x7FC 4 5) up (fun t => t == up),
       after (.plainRegisterWrite .regCmd 1 (Adr.CFG_WIN 0) 2 5) up (fun t => t == up),
       writable up 1 (Adr.CFG_WIN 0), (match rowAt (Adr.CFG_WIN 0) with | some (r, x) => !ownEffect.contains r.name && (rowFunc r x).isNone | none => false),
       after (.plainRegisterWrite .regCmd 1 (Adr.CFG_WIN 0) 4 5) up (fun t => t.reg (Adr.CFG_WIN 0) == 5),
       (match rowAt (Adr.SPN_MOTOR) with | some (r, x) => !ownEffect.contains r.name && rowFunc r x == some 8 | none => false),
       (func 8 2).fstate 8 == 2, writable (func 8 2) 1 Adr.SPN_MOTOR,
       after (.plainRegisterWrite .regCmd 1 Adr.SPN_MOTOR 4 5) (func 8 2) (fun t => t.shadow 8 Adr.SPN_MOTOR != up.reg Adr.SPN_MOTOR),
       up.fstate 8 == 0, after (.plainRegisterWrite .regCmd 1 Adr.SPN_MOTOR 4 5) up (fun t => t.flag (Adr.FUNC_CTRL 8) Fld.FUNC_CTRL_write_refused),
       a % 4 == 0]) = true := by
  decide +kernel

theorem test_witness_LatchedReads :
    ok ([regionOf Adr.TMB_NS_LO == some 2, up.powered 2, !up.restarting 2, !isUpper Adr.TMB_NS_LO, isUpper Adr.TMB_NS_HI, (upperWords Adr.TMB_NS_LO).contains Adr.TMB_NS_HI,
       after (.lowWordRead .pcie Adr.TMB_NS_LO) up (fun t => (t.latches.get .pcie).find Adr.TMB_NS_HI == some (up.readReg Adr.TMB_NS_HI)),
       after (.lowWordRead .pcie (Adr.TMB_NS_LO + 2)) up (fun t => t.readData == up.readReg Adr.TMB_NS_LO),
       after (.lowWordRead .regCmd (Adr.TMB_NS_LO + 2)) up (fun t => t == up)]) = true := by
  decide +kernel

theorem test_witness_ReadsThatClear :
    ok (let a := Adr.CHN_ERR 0
      let s := up.setReg a 0xFFFFFFFF
      let rst := { s with flt := { s.flt with restarting := [1] } }
      let off := s.setReg 16388 0
      [regionOf a == some 1, s.powered 1, !s.restarting 1, !isUpper a, (rowAt a).isSome, after (.clearOnRead .pcie a) s (fun t => t.readData == s.readReg a),
       after (.clearOnRead .pcie (a + 1)) s (fun t => t.readData == s.readReg a),
       rst.restarting 1, !survivesRestart a, after (.clearOnRead .pcie a) rst (fun t => t.heldRegs == [⟨.pcie, 0, a, 0, false⟩]),
       (({ rst with heldRegs := [⟨.pcie, 0, a, 0, false⟩], flt := up.flt }).performHeldRegs).readData == s.readReg a, !off.powered 1,
       after (.clearOnRead .pcie a) off (fun t => t == ({ off with readData := 0 } : State).event 0x0E0)]) = true := by
  decide +kernel

theorem test_witness_FunctionRows :
    ok (let bad := { func 9 2 with funcs := up.funcs.set 9 { shadow := [(Adr.TMB_MEMBER, 0x80000400)] } }
      let w := { waiting (func 8 2) (.func 8) (some (.read io)) with funcs := up.funcs }
      let rst := { up with flt := { up.flt with restarting := [1] }, host := { up.host with ctxs := [] }, heldRegs := [⟨.regCmd, 1, Adr.CHN_ERR 0, 1, true⟩] }
      let at_ (n : Nat) (s : State) : State := { s with now := n }
      [writable up 1 (Adr.FUNC_CTRL 8), after (.funcStop 1 8) up (fun t => t.fstate 8 == 1), after (.funcStop 1 10) up (fun t => t.fstate 10 == 2),
       ((func 10 2).restartCheck 10).1, !((func 8 2).func 8).byLoad,
       writable bad 1 (Adr.FUNC_CTRL 9), !(bad.restartCheck 9).1, bad.fstate 9 == 2, after (.funcRestart 1 9) bad (fun t => t.fstate 9 == 2),
       after (.funcAbandon 1 8) (func 8 2) (fun t => t.fstate 8 == 3 && (t.func 8).abandon),
       after (.funcStopped 8) (func 8 1) (fun t => t.fstate 8 == 2), ((func 8 1).func 8).held.isEmpty,
       (func 8 3).fstate 8 == 3, (func 10 3).host.ctxs.isEmpty, after (.funcCommit 10) (func 10 3) (fun t => t.fstate 10 == 0),
       !(w.host.ctxs.filter (w.waitsFor 8)).isEmpty, after (.pauseBoundExpiry 8) w (fun t => t == w), after (.pauseBoundExpiry 8) (at_ (pauseBound 8) w) (fun t => t.flag (Adr.FUNC_CTRL 8) Fld.FUNC_CTRL_pause_exceeded),
       ((func 8 2).host.ctxs.filter ((func 8 2).waitsFor 8)).isEmpty,
       after (.stopLimitExpiry 10) (func 10 2) (fun t => t == func 10 2), after (.stopLimitExpiry 10) (at_ (stopLimit 10) (func 10 2)) (fun t => t.fstate 10 == 0 && t.flag (Adr.FUNC_CTRL 10) Fld.FUNC_CTRL_revert_seen),
       rst.restarting 1, after (.regionAccessTimeout 1) rst (fun t => t.heldRegs.isEmpty)]) = true := by
  decide +kernel

/-- The record of the window: kind 3, key 0, the body of the reference drive. -/
def winBytes : List Byte := let l := [3, 0, 24, 0, 0, 0, 0, 0, 0, 0, 0, 0, 0, 0, 0, 0] ++ dramRecord; l.take 12 ++ leBytes 4 (recordCheck l) ++ l.drop 16

/-- The window filled with that record. -/
def windowed : State := (List.range 6).foldl (fun s w => s.setReg (Adr.CFG_WIN w) (BitVec.ofNat 32 (leAt winBytes (4 * w) 4))) up

theorem test_witness_ConfigurationRecordRows :
    ok (let r : CfgRec := CfgRec.make 3 0 dramRecord
      let rm := { up with cfgOp := some (.remove 3 0) }
      let st := { up with cfgOp := some (.store r) }
      [writable windowed 1 Adr.CFG_CMD, !windowed.flag Adr.CFG_STATUS Fld.CFG_STATUS_busy, (match windowRecord windowed.window with | .ok x => x == r | .error _ => false),
       !windowed.nor.full r, after (.cfgStore 1) windowed (fun t => t.cfgOp == some (.store r)),
       (match windowRecord up.window with | .ok _ => false | .error k => k == 1), after (.cfgStore 1) up (fun t => t.flag Adr.CFG_STATUS Fld.CFG_STATUS_refused),
       (let b := (funcRegs 11).flatMap (fun a => leBytes 4 a ++ leBytes 4 (up.reg a).toNat)
        decide (b.length ≤ 4080) && !up.nor.full (CfgRec.make 1 11 b)),
       after (.cfgRemove 1) up (fun t => t.cfgOp == some (.remove 0 0)),
       after (.cfgStoreDone true) rm (fun t => t.nor.records.isEmpty), after (.cfgStoreDone true) st (fun t => t.nor.records.length == 1 && t.nor.recSeq == 1),
       after (.cfgStoreDone false) st (fun t => t.fld Adr.CFG_STATUS Fld.CFG_STATUS_reason == 5), after (.cfgStoreDone true) up (fun t => t == up)]) = true := by
  decide +kernel

/-! ## The NVMe commands -/

/-- A device with namespace 1 over trusses 1 and 2, and the mould store 7 over the next eight. -/
def store : State :=
  { loaded with spaces := [(1, { mould := false, nsze := 1024, trusses := [1, 2] }), (7, { mould := true, nsze := 4096, trusses := [3, 4, 5, 6, 7, 8, 9, 10] })]
                media := { layout := some layout } }

/-- The own effect of a command may go on: its checks pass on store. -/
def goes (i : Instr) (c : Cmd) : Bool := ready (fetched store c) (ctxOf c) i

theorem test_witness_AdmittedCommandsArePerformed :
    ok ([(nvmeRows adm).length == 40, goes (.keepAlive adm) adm,
       (fetched store adm).host.ctxs.find? (fun y => y.is adm.assoc adm.qid adm.cid && y.wait == .fetched && y.instr.isNone) == some (ctxOf adm),
       ready ((fetched store adm).taken (ctxOf adm) (.keepAlive adm) adm) (ctxOf adm) (.keepAlive adm)]) = true := by
  decide +kernel

theorem test_witness_CommandsTurnedAway :
    ok (let s := fetched store io
      let x := ctxOf io
      let no := fetched (store.setFlag Adr.PLN_STATUS Fld.PLN_STATUS_ready false) io
      let o := { (fetched store adm) with host := { (fetched store adm).host with ctxs := [{ ctxOf adm with permitted := false }] } }
      let n9 := { io with nsid := 9 }
      [s.faultState != 3, !s.pln.loader, !s.flag Adr.HIF_CTRL Fld.HIF_CTRL_auth_req,
       badOpcode x (.keepAlive io), answers s (.keepAlive io) io .opcode 0 0 [],
       !badOpcode x (.flush io), !no.onList (.flush io), answers no (.flush io) io .notReady 0 0 [],
       s.flag Adr.PLN_STATUS Fld.PLN_STATUS_ready, !s.restarting 6, decide (s.ps < 2), !s.psMoving,
       s.badNs (ctxOf n9) (.flush n9), answers (fetched store n9) (.flush n9) n9 .ns 0 0 [],
       o.ownerOnly (.yieldOwnership adm), !o.badNs (ctxOf adm) (.yieldOwnership adm), answers o (.yieldOwnership adm) adm .notOwner 0 0 []]) = true := by
  decide +kernel

theorem test_witness_FlushCompletesWhenChecked :
    ok ([goes (.flush io) io, ((fetched store io).spaceFor 0 1).isSome, answers (fetched store io) (.flush io) io .ok 0 0 [],
       (let c := { io with nsid := 0xFFFFFFFF }
        goes (.flush c) c && answers (fetched store c) (.flush c) c .ok 0 0 [])]) = true := by
  decide +kernel

theorem test_witness_AdminAnswers :
    ok (let att := { adm with nsid := 1 }
      let at1 := { att with cdw10 := 1 }
      let ids := { adm with cdw10 := 2 }
      let lp := { adm with cdw10 := 3 }
      let gf := { adm with cdw10 := 7 }
      let cs := { adm with len := 64 }
      let rp := { adm with cdw10 := 1, len := 256 }
      let ae := { store with host := { store.host with assocs := [(1, { auth := true, aers := [0x70001] })] } }
      [goes (.keepAlive adm) adm, answers (fetched store adm) (.keepAlive adm) adm .ok 0 0 [], goes (.abort adm) adm, answers (fetched store adm) (.abort adm) adm .ok 1 0 [],
       goes (.namespaceAttachment att) att, answers (fetched store att) (.namespaceAttachment att) att .ok 0 0 [],
       goes (.namespaceAttachment at1) at1, answers (fetched store at1) (.namespaceAttachment at1) at1 .field 0 0 [],
       goes (.identify ids) ids, (match (fetched store ids).identifyData 1 ids with | .ok d => d.length == 4096 | .error _ => false),
       goes (.getLogPage lp) lp, (match ((fetched store lp).taken (ctxOf lp) (.getLogPage lp) lp).logData lp with | .ok d => d.length == 4 | .error _ => false),
       goes (.getFeatures gf) gf, (match (fetched store gf).featureData 1 gf with | .ok _ => true | .error _ => false),
       goes (.asynchronousEventRequest adm) adm, waitsAs (fetched store adm) (.asynchronousEventRequest adm) .asyncEvent,
       answers (fetched ae adm) (.asynchronousEventRequest adm) adm .ok 0x70001 0 [],
       goes (.constellationStatus cs) cs, restZero cs, dataOk cs 64, goes (.readPatina rp) rp, restZero12 rp, dataOk rp 256,
       answers (fetched store rp) (.readPatina rp) rp .ok 0 0 [], goes (.clearPatina adm) adm, !store.nor.patLocked, dataOk adm 0,
       answers (fetched store adm) (.clearPatina adm) adm .ok 0 0 []]) = true := by
  decide +kernel

/-- No function of store is stopped. -/
theorem store_running (c : Cmd) : (fetched store c).NoneStopped := fun k hk => .inl ((show ∀ k, k < 15 → store.fstate k = 0 by
  decide +kernel) k hk)

theorem test_witness_OwnershipAndFabricsRows :
    ok (let v := store.setReg Adr.OWN_STATUS 0
      let o := store.setFld Adr.OWN_STATUS Fld.OWN_STATUS_owner 2
      let pg := { adm with cdw11 := 8 }
      let pc := { adm with cdw11 := 0x14, cdw12 := 0x460001 }
      [restZero adm, dataOk adm 0, v.authed 1, v.ownState == 0, ready (fetched v adm) (ctxOf adm) (.claimOwnership adm),
       answers (fetched v adm) (.claimOwnership adm) adm .ok (v.fld Adr.OWN_LEASE Fld.OWN_LEASE_lease_s) 0 [],
       o.ownState == 1, !o.isOwner 1, ready (fetched o adm) (ctxOf adm) (.claimOwnership adm), answers (fetched o adm) (.claimOwnership adm) adm (.vendor 0x81) 0 0 [],
       goes (.yieldOwnership adm) adm, store.isOwner 1, after (.yieldOwnership adm) (fetched store adm) (fun t => t.ownState == 0),
       ready (fetched o adm) (ctxOf adm) (.yieldOwnership adm), answers (fetched o adm) (.yieldOwnership adm) adm .ok 0 0 [],
       (store.assoc 1).isSome, goes (.propertyGet pg) pg, answers (fetched store pg) (.propertyGet pg) pg .ok 0x20000 0 [],
       goes (.propertyGet pc) pc, goes (.propertySet pc) pc, after (.propertySet pc) (fetched store pc) (fun t => (t.assoc 1).map (fun z => z.cc) == some 0x460001),
       goes (.authenticationSend adm) adm, goes (.authenticationReceive adm) adm]) = true := by
  decide +kernel

theorem test_witness_RegisterCommandRows :
    ok (let w (a : Nat) := { adm with cdw10 := 1, len := 8, data := leBytes 4 a ++ [5, 0, 0, 0] }
      let rr := { adm with cdw10 := BitVec.ofNat 32 (Adr.CFG_WIN 0), cdw11 := 1, len := 4 }
      let rz := { rr with cdw10 := 0x7FC }
      let rf := { adm with cdw10 := 0x108 }
      let r3 := { adm with cdw10 := 0x208 }
      [restZero12 (w 0x7FC), goes (.registerWrite (w 0x7FC)) (w 0x7FC), pairsOf (w 0x7FC) == [⟨0x7FC, 5⟩], dataOk (w 0) 8, (rowAt 0x7FC).isNone,
       (match regionOf 0x7FC with | some g => store.powered g && !store.restarting g | none => false),
       answers (fetched store (w 0x7FC)) (.registerWrite (w 0x7FC)) (w 0x7FC) .ok 0 0 [], store.heldRegs.isEmpty,
       waitsAs { fetched store (w 0x7FC) with heldRegs := [⟨.regCmd, 1, 0x7FC, 0, true⟩] } (.registerWrite (w 0x7FC)) (.region 0 [⟨0x7FC, 5⟩] []),
       goes (.registerWrite (w (Adr.CFG_WIN 0))) (w (Adr.CFG_WIN 0)), pairsOf (w (Adr.CFG_WIN 0)) == [⟨Adr.CFG_WIN 0, 5⟩],
       after (.registerWrite (w (Adr.CFG_WIN 0))) (fetched store (w (Adr.CFG_WIN 0))) (fun t => t.reg (Adr.CFG_WIN 0) == 5),
       goes (.registerRead rr) rr, !isUpper (Adr.CFG_WIN 0), answers (fetched store rr) (.registerRead rr) rr .ok 0 0 [0, 0, 0, 0],
       goes (.registerRead rz) rz, answers (fetched store rz) (.registerRead rz) rz .ok 0 0 [0, 0, 0, 0],
       goes (.reconfigureFunction rf) rf, rf.cdw10.toNat % 16 == 8, bitsOf rf.cdw10.toNat 9 8 == 1, store.fstate 8 == 0,
       after (.reconfigureFunction rf) (fetched store rf) (fun t => t.fstate 8 == 1), waitsAs (fetched store rf) (.reconfigureFunction rf) (.reconf 8 1),
       goes (.reconfigureFunction r3) r3, answers (fetched store r3) (.reconfigureFunction r3) r3 .ok 0 0 []]) = true := by
  decide +kernel

theorem test_witness_FeatureAndNamespaceRows :
    ok (let f (a b : Word) := { adm with cdw10 := a, cdw11 := b }
      let d := bytesOf 4096 [(0, [0, 2]), (8, [0, 2]), (3840, [1])]
      let mk := { adm with data := d, len := 4096 }
      let dl := { adm with cdw10 := 1, nsid := 1 }
      let big := { store with media := { layout := some { layout with tmax := 40 } } }
      [goes (.setFeatures (f 0x0B 0x200)) (f 0x0B 0x200), answers (fetched store (f 0x0B 0x200)) (.setFeatures (f 0x0B 0x200)) (f 0x0B 0x200) .ok 0 0 [],
       goes (.setFeatures (f 0x0F 5000)) (f 0x0F 5000), after (.setFeatures (f 0x0F 5000)) (fetched store (f 0x0F 5000)) (fun t => (t.assoc 1).map (fun z => z.kato) == some 5000),
       goes (.setFeatures (f 0xC2 3600)) (f 0xC2 3600), after (.setFeatures (f 0xC2 3600)) (fetched store (f 0xC2 3600)) (fun t => t.fld Adr.OWN_LEASE Fld.OWN_LEASE_lease_s == 3600),
       goes (.setFeatures (f 0xC3 1)) (f 0xC3 1), after (.setFeatures (f 0xC3 1)) (fetched store (f 0xC3 1)) (fun t => t.nor.patLocked),
       goes (.setFeatures (f 0x03 0)) (f 0x03 0), answers (fetched store (f 0x03 0)) (.setFeatures (f 0x03 0)) (f 0x03 0) .field 0 0 [],
       ready (fetched big mk) (ctxOf mk) (.namespaceManagement mk), leAt (fitBytes d 4096) 0 8 == 512, leAt (fitBytes d 4096) 8 8 == 512, leAt (fitBytes d 4096) 3840 1 == 1,
       firstFrom 1 64 (fun k => !((big.spaces ++ big.deleting.flatMap (fun e => e.spaces)).map (fun p => p.1)).contains k) == some 2,
       (lowestFree big.heldTrusses 0 40 1).length == 1,
       after (.namespaceManagement mk) (fetched big mk) (fun t => lookupKey t.spaces 2 == some { mould := true, nsze := 512, trusses := [0] }),
       goes (.namespaceManagement dl) dl, (lookupKey store.spaces 1).isSome,
       answers (fetched store dl) (.namespaceManagement dl) dl .ok 0 0 [], after (.namespaceManagement dl) (fetched store dl) (fun t => (lookupKey t.spaces 1).isNone)]) = true := by
  decide +kernel

theorem test_witness_LoadCommandRows :
    ok (let lp := { adm with len := 64, data := profile }
      let lpr := { adm with cdw10 := 0x100 }
      let lr := { adm with len := 352, data := bytesOf 352 [(0, [1]), (2, [3]), (4, [1]), (6, [16]), (336, leBytes 4 0x16000000 ++ leBytes 4 4)] }
      let lrr := { adm with cdw10 := 0x301 }
      [goes (.loadCastProfile lp) lp, restZero lp, (fetched store lp).profileOk (fitBytes lp.data lp.len), lp.len == 64 + profLe lp.data 6 2, store.fstate 10 == 0,
       waitsAs (fetched store lp) (.loadCastProfile lp) (.load 10), goes (.loadCastProfile lpr) lpr, waitsAs (fetched store lpr) (.loadCastProfile lpr) (.load 10),
       goes (.loadRecipe lr) lr, (store.recipeCheck false lr.data).isNone, waitsAs (fetched store lr) (.loadRecipe lr) (.load 11), goes (.loadRecipe lrr) lrr,
       (store.recipe 3).isNone, waitsAs (fetched store lrr) (.loadRecipe lrr) (.load 11)]) = true := by
  decide +kernel

set_option maxRecDepth 100000 in
theorem test_witness_LoadCommandRows_key :
    ok (let s := { store with nor := { store.nor with records := [CfgRec.make 6 1 (bytesOf 292 [(0, ascii "nqn"), (256, [32])])] }, host := { store.host with assocs := [(1, { auth := true, hostNqn := ascii "nqn" })] } }
      let lk := { adm with len := 64, data := bytesOf 64 [(0, [2])] }
      [(s.kek 1).isSome, ready (fetched s lk) (ctxOf lk) (.loadContentKey lk), restZero lk, leAt (fitBytes lk.data 64) 0 1 == 2,
       after (.loadContentKey lk) (fetched s lk) (fun t => t.nor.keys.isEmpty && t.host.completions.length == 1)]) = true := by
  decide +kernel

theorem test_witness_LoadCommandRows_image :
    ok (let dn := { adm with data := [1, 2, 3, 4], len := 4 }
      let fc := { adm with cdw10 := 0x12 }
      let fk := { adm with cdw10 := 0x02 }
      let slots := { store with nor := { store.nor with slots := [{ state := 4 }, { state := 2 }] } }
      let bad := { store with nor := { store.nor with slots := [{ state := 4 }, { state := 1, image := [1] }] } }
      [goes (.firmwareImageDownload dn) dn, blocksOk (fitBytes dn.data 4) 0 0,
       after (.firmwareImageDownload dn) (fetched store dn) (fun t => (t.nor.slot store.spareSlot).image == [1, 2, 3, 4]),
       ready (fetched slots fc) (ctxOf fc) (.firmwareCommit fc), slots.fsSlot fc == some 1, bitsOf fc.cdw10.toNat 5 3 == 2,
       after (.firmwareCommit fc) (fetched slots fc) (fun t => t.nor.bootMark == some 1),
       bad.fsSlot fk == some 1, bitsOf fk.cdw10.toNat 5 3 == 0, (bad.nor.slot 1).check == some 1, answers (fetched bad fk) (.firmwareCommit fk) fk ⟨1, 7⟩ 1 0 []]) = true := by
  decide +kernel

/-- A command of association 1,024 on its admin queue. -/
def pc (q cdw11 : Word) : Cmd := { adm with assoc := 1024, cdw10 := q, cdw11 := cdw11 }

/-- Association 1,024, with I/O queues 1 and 2. -/
def queues : State :=
  pcie { auth := true, cqs := [{ id := 0, size := 8, vector := some 0 }, { id := 1, size := 8, vector := none }, { id := 2, size := 8, vector := none }], sqs := [(1, 1)] }

theorem test_witness_PcieQueueRows :
    ok (let g (i : Instr) (c : Cmd) := ready (fetched queues c) (ctxOf c) i
      let cc := pc 0x00070003 1
      let cs := pc 0x00070002 0x00020001
      [g (.createIoCompletionQueue cc) cc, answers (fetched queues cc) (.createIoCompletionQueue cc) cc .ok 0 0 [],
       g (.createIoSubmissionQueue cs) cs, answers (fetched queues cs) (.createIoSubmissionQueue cs) cs .ok 0 0 [],
       after (.createIoSubmissionQueue cs) (fetched queues cs) (fun t => (t.assoc 1024).map (fun z => lookupKey z.sqs 2) == some (some 2)),
       g (.deleteIoSubmissionQueue (pc 1 0)) (pc 1 0), after (.deleteIoSubmissionQueue (pc 1 0)) (fetched queues (pc 1 0)) (fun t => (t.assoc 1024).map (fun z => z.sqs) == some []),
       g (.deleteIoCompletionQueue (pc 2 0)) (pc 2 0), answers (fetched queues (pc 2 0)) (.deleteIoCompletionQueue (pc 2 0)) (pc 2 0) .ok 0 0 []]) = true := by
  decide +kernel

/-- A launched Timed Read, or one with fields of its own. -/
def timed (l : Nat) : Cmd := { io with mid := leBytes 8 l ++ List.replicate 8 0 }

theorem test_witness_ReadWriteRows :
    ok (let sp : Namespace := { mould := false, nsze := 1024, trusses := [1, 2] }
      let goes2 (i : Instr) := ready (fetched store io) (ctxOf io) i
      let u := (fetched store io).locked (ctxOf io) (.read io) io (1, 0, 0, false)
      [(fetched store io).lbaSpace (ctxOf io) 1 == some sp, decide (slbaOf io + nlbOf io ≤ 1024), decide (nlbOf io ≤ store.maxBlocks), goes2 (.read io), plainCdw12 io.cdw12,
       (u.readLbas sp 1 [0]).1.wait.isNone && (u.readLbas sp 1 [0]).1.sectors.isEmpty && (u.readLbas sp 1 [0]).1.fail.isNone, (u.readLbas sp 1 [0]).2 == u,
       goes2 (.timedRead io), timedFields io, timedL io == 0, (timedAngle io).isNone,
       ready (fetched store (timed 1000)) (ctxOf (timed 1000)) (.timedRead (timed 1000)), timedFields (timed 1000), timedL (timed 1000) == 1000, decide (store.tbNs < 1000),
       waitsAs (fetched store (timed 1000)) (.timedRead (timed 1000)) (.launch 1000 none)]) = true := by
  decide +kernel

theorem test_witness_ReadWriteRows_writes :
    ok (let wr := { io with data := [7], len := 4096 }
      let arm := store.setFlag Adr.SPN_RETRACT Fld.SPN_RETRACT_armed true
      let ar := { arm with pln := { arm.pln with noMedia := false } }.setFld Adr.MEM_CFG Fld.MEM_CFG_trail_mib 1024
      let xf := { io with cdw10 := 0x02, cdw14 := 1, data := [1, 1, 0, 0xFE, 0xFF, 0x41], len := 6 }
      let ds := { io with data := bytesOf 16 [(4, [1])], len := 16 }
      [ready (fetched ar wr) (ctxOf wr) (.write wr), !ar.pln.noMedia, (ar.stoppedFor [576]).isNone, ar.trailRoom 1, !ar.lostAt 576,
       waitsAs (fetched ar wr) (.write wr) .mediaWrite, ready (fetched ar io) (ctxOf io) (.writeZeroes io), !bitOf io.cdw12.toNat 25, waitsAs (fetched ar io) (.writeZeroes io) .mediaWrite,
       ready (fetched store ds) (ctxOf ds) (.datasetManagement ds), !bitOf ds.cdw11.toNat 2, answers (fetched store ds) (.datasetManagement ds) ds .ok 0 0 [],
       ready (fetched store xf) (ctxOf xf) (.transform xf), xfFields xf, !xfDir xf, decide (xfSlba xf + xfBlocks xf ≤ 1024), waitsAs (fetched store xf) (.transform xf) .job]) = true := by
  decide +kernel

/-- A write of LBAs 0 and 1 of namespace 1 that waits for the medium. -/
def pendWrite : PendWrite := { assoc := 1, qid := 1, cid := 5, ns := 1, lbas := [0, 1], data := List.replicate 8192 0, todo := [0, 1] }

/-- store with that write pending. -/
def pending : State :=
  let s := waiting store .mediaWrite (some (.write { io with cdw12 := 1 }))
  s.modMedia (fun m => { m with writes := [pendWrite] })

/-- The same, with actuator 1 stopped: the first sector cannot be written. -/
def pendingStopped : State := (List.finRange 4).foldl (fun s a => s.setMode a 0) pending

theorem test_witness_ReadWriteRows_pending :
    ok (let sp : Namespace := { mould := false, nsze := 1024, trusses := [1, 2] }
      let r := pending.writePass.writeRest pendWrite sp [0, 1]
      let h := pendingStopped.writePass.writeRest pendWrite sp [0, 1]
      [(pending.ctx 1 1 5).isSome, r.2.ctx 1 1 5 == pending.ctx 1 1 5, pending.spaceFor 0 1 == some sp, r.1 == [],
       after (.mediaWriteDone 1 1 5) pending (fun t => t.host.completions.length == 1 && t.media.writes.isEmpty && t.media.units.contains 9),
       h.2.ctx 1 1 5 == pendingStopped.ctx 1 1 5, h.1 == [0, 1], after (.mediaWriteDone 1 1 5) pendingStopped (fun t => t.host.completions.isEmpty && t.media.writes.length == 1)]) = true := by
  decide +kernel

theorem test_witness_ReadWriteRows_held :
    ok (let sp : Namespace := { mould := false, nsze := 1024, trusses := [1, 2] }
      let half := (pending.modMedia (fun m => { m with units := [9] })).modSeq (pending.actAt 577) (fun q => { q with list := [{ cutOf 5 with assoc := 1, qid := 1, cid := 5 }] })
      let p := half.writePass.writeRest pendWrite sp [0, 1]
      let one := pending.modMedia (fun m => { m with units := [9], writes := [{ pendWrite with todo := [1] }], trailing := [{ truss := 1, stale := [], since := 0 }] })
      [p.1 == [1], p.2.ctx 1 1 5 == half.ctx 1 1 5, after (.mediaWriteDone 1 1 5) half (fun t => t.media.writes.map (fun w => (w.todo, w.held)) == [([1], true)]),
       sp.mediaOf 1 == some 577, (one.locate 577).isSome, one.media.units.contains 9, !one.missingAt 577, one.mayPlace (8 * one.actAt 577), !one.newTrail 577,
       one.roomFor [577], !one.cutAt 1 1 5 577]) = true := by
  decide +kernel

theorem test_witness_MouldAndCastRows :
    ok (let b := { store with cast := casts.cast }
      let mw := { io with nsid := 7, cdw10 := 9, len := 4, data := [1, 2, 3, 4] }
      let mc := { io with nsid := 7, cdw10 := 2 }
      let op := { store with cast := { casts.cast with moulds := [openMould] } }
      let em := { io with nsid := 7, cdw10 := 9 }
      [ready (fetched b mw) (ctxOf mw) (.mouldWrite mw), ((fetched b mw).mouldSpace (ctxOf mw) 7).isSome, !(b.mouldOr 7 9).isCommitted,
       decide ((b.mouldUse 7) + ((b.mouldOr 7 9).writePart 0 0 [1, 2, 3, 4]).blocks ≤ 4096), answers (fetched b mw) (.mouldWrite mw) mw .ok 4 0 [],
       ready (fetched b mc) (ctxOf mc) (.mouldCommit mc), (b.mouldOr 7 2).isCommitted, answers (fetched b mc) (.mouldCommit mc) mc .ok 0 0 [],
       !(op.mouldOr 7 2).isCommitted, openMould.check.isNone, answers (fetched op mc) (.mouldCommit mc) mc .ok 0 0 [],
       ready (fetched b em) (ctxOf em) (.mouldCommit em), (b.mouldOr 7 9).check == some 1, answers (fetched b em) (.mouldCommit em) em .field 1 0 [],
       ready (fetched b castCmd) (ctxOf castCmd) (.cast castCmd), !castLt castCmd, b.funcRunning 10, b.funcRunning 11,
       (match ((fetched b castCmd).taken (ctxOf castCmd) (.cast castCmd) castCmd).castCheck castCmd 0 with | .ok _ => true | .error _ => false),
       waitsAs (fetched b castCmd) (.cast castCmd) .castQueue]) = true := by
  decide +kernel

/-! ## Memory, faults, the patina, power, clocks, reset and firmware -/

theorem test_witness_EccRows :
    ok (let e0 := up.setFld Adr.ECC_MODE Fld.ECC_MODE_mode 0
      let t := e0.setFld (Adr.ECC_LVL 5) Fld.ECC_LVL_level 255
      let m2 := up.setFld Adr.ECC_MODE Fld.ECC_MODE_mode 2
      let q := { up with dram := { up.dram with scrubs := [(2, 900), (5, 7)], bad := [(2, 900)] } }
      let arm := (m2.setFlag Adr.ECC_INJ Fld.ECC_INJ_armed true).setFld Adr.ECC_INJ Fld.ECC_INJ_kind 2
      let sc := e0.setFlag Adr.ECC_SCRUB Fld.ECC_SCRUB_en true
      let full := { up with nor := { up.nor with retired := List.replicate 1024 { chan := 1, page := 0, spare := 0, at_ := 0 } } }
      let due := { up with dram := { up.dram with retireDue := [(1, 3)] } }
      let tr := up.setFlag Adr.MEM_STATUS Fld.MEM_STATUS_trained true
      [e0.eccMode == 0, decide (e0.level 5 + 1 ≤ e0.fld Adr.ECC_BUCKET Fld.ECC_BUCKET_threshold), after (.eccCorrected 5 7) e0 (fun t => t.level 5 == 1 && t.dram.scrubs == [(5, 7)]),
       decide (t.fld Adr.ECC_BUCKET Fld.ECC_BUCKET_threshold < t.level 5 + 1), after (.eccCorrected 5 7) t (fun t => t.level 5 == 0 && t.flag Adr.ECC_IRQ Fld.ECC_IRQ_latched),
       after (.eccCorrected 97 7) up (fun t => t.fld Adr.ECC_CNT Fld.ECC_CNT_corr == 1),
       after (.targetedScrub true) q (fun t => t.dram.scrubs == [(5, 7)] && t.dram.bad.isEmpty), after (.targetedScrub false) q (fun t => t.dram.scrubs == [(5, 7)]),
       after (.eccUncorrectable 100 7 .background) up (fun t => t.reg Adr.ECC_UE_LO == 7 && t.fld Adr.ECC_UE_HI Fld.ECC_UE_HI_instance == 100),
       up.dram.errAt.isEmpty, after (.eccUncorrectable 3 9 .background) up (fun t => t.dram.errAt == [(1, 0)]),
       sc.eccMode == 0, after (.scrubGroup 0 5) sc (fun t => t.dram.bad.isEmpty),
       !tr.flag Adr.MEM_STATUS Fld.MEM_STATUS_ch1_failed, !tr.flag Adr.MEM_STATUS Fld.MEM_STATUS_single,
       after (.dramChannelFail 1) tr (fun t => t.flag Adr.MEM_STATUS Fld.MEM_STATUS_ch1_failed && t.flag Adr.MEM_STATUS Fld.MEM_STATUS_single),
       writable e0 1 Adr.ECC_MODE, after (.eccModeWrite 1 2) e0 (fun t => t.eccMode == 2), m2.eccMode == 2, after (.eccModeWrite 1 0) m2 (fun t => t.eccMode == 0),
       writable m2 1 Adr.ECC_INJ, after (.eccInjArm 1 0) m2 (fun t => t.flag Adr.ECC_INJ Fld.ECC_INJ_armed),
       after .eccInject arm (fun t => t.dram.poison.length == 1 && t.dram.bad.isEmpty),
       due.dram.retireDue.contains (1, 3), due.sparesLeft 1 != 0, after (.pageRetire 1 3 [8]) due (fun t => t.nor.retired.length == 1), full.sparesLeft 1 == 0,
       after (.pageRetire 1 3 [8]) { full with dram := due.dram } (fun t => t.nor.retired.length == 1024),
       decide (up.now < up.dram.leakAt + up.fld Adr.ECC_BUCKET Fld.ECC_BUCKET_leak_ms * 1000000), after .bucketLeak up (fun t => t == up),
       decide (t.dram.leakAt + t.fld Adr.ECC_BUCKET Fld.ECC_BUCKET_leak_ms * 1000000 ≤ 2 ^ 40)]) = true := by
  decide +kernel

theorem test_witness_FaultAndPatinaRows :
    ok (let r2 := (up.setFlag (Adr.FLT_ESC 3) Fld.FLT_ESC_running true).setFld (Adr.FLT_ESC 3) Fld.FLT_ESC_pending 2
      let r1 := (up.setFlag (Adr.FLT_ESC 3) Fld.FLT_ESC_running true).setFld (Adr.FLT_ESC 3) Fld.FLT_ESC_pending 1
      let rst := { up with flt := { up.flt with restarting := [3] } }
      let st (n : Nat) := up.setFld Adr.FLT_STATE Fld.FLT_STATE_fault_state n
      let many : State := { st 3 with flt := { up.flt with recoveries := [2 ^ 44 - 2, 2 ^ 44 - 1, 2 ^ 44] }, now := 2 ^ 44 }
      let te := { up with flt := { up.flt with errTest := true } }
      let fl := { up with flt := { up.flt with failedCores := [4] } }
      [(eventClass 0).isNone, eventClass 0x300 == some .corrected, after (.faultEvent 3 0x300 0 0) up (fun t => t.fld Adr.FLT_CNT Fld.FLT_CNT_corr == 1 && t.nor.corrTotal == 1),
       r2.flag (Adr.FLT_ESC 3) Fld.FLT_ESC_running, r2.fld (Adr.FLT_ESC 3) Fld.FLT_ESC_pending == 2, r1.fld (Adr.FLT_ESC 3) Fld.FLT_ESC_pending != 2,
       after (.escalationExpiry 3) r1 (fun t => t.restarting 3), after (.escalationExpiry 3) up (fun t => t == up),
       after (.fltAckHandled 3) r1 (fun t => !t.flag (Adr.FLT_ESC 3) Fld.FLT_ESC_running),
       rst.restarting 3, after (.regionRunning 3 0 0) up (fun t => t == up), after (.regionRestartTimeout 3) rst (fun t => !t.powered 3),
       (st 2).faultState == 2, !(st 2).flag Adr.FLT_STATE Fld.FLT_STATE_recovering, !(st 2).flag Adr.FLT_STATE Fld.FLT_STATE_held, (st 2).flt.restarting.isEmpty,
       after .quietPeriodExpiry (st 2) (fun t => t == st 2), after .quietPeriodExpiry { st 2 with now := 2 ^ 44 } (fun t => t.counter 7 == 1 && t.faultState == 0),
       many.faultState == 3, decide (3 ≤ (many.flt.recoveries.filter (fun t => decide (many.now < t + 86400000000000))).length),
       after .quietPeriodExpiry many (fun t => t.flag Adr.FLT_STATE Fld.FLT_STATE_held),
       writable up 1 Adr.FLT_ERRTEST, decide (up.faultState < 2), after (.errTest 1 0) up (fun t => t.flt.errTest), after .errTestEnd te (fun t => !t.flt.errTest),
       after (.controlCoreFail 4) up (fun t => t.flt.failedCores == [4]), after (.controlCoreFail 4) fl (fun t => t == fl)]) = true := by
  decide +kernel

theorem test_witness_FaultAndPatinaRows_patina :
    ok (let e : PatEntry := { event := 5, severity := 2 }
      let q := { up with pat := { up.pat with queue := [e] } }
      let j := { up with pat := { up.pat with unjournalled := [3], store := [(0, { e with record := 3 })] } }
      let k := { up with nor := { up.nor with patLocked := true } }
      [patPlace [] 2 == some 0, after .patinaStore q (fun t => t.pat.queue.isEmpty && t.pat.store == [(0, { e with record := 1 })]), after .patinaStore up (fun t => t == up),
       after (.patinaJournalWrite true) j (fun t => t.pat.unjournalled.isEmpty && t.nor.patHigh == 3),
       after (.patinaJournalWrite false) j (fun t => t.flag Adr.PAT_STATUS Fld.PAT_STATUS_jfail),
       writable up 1 Adr.PAT_CTRL, after (.patinaLock 1) up (fun t => t.nor.patLocked), after (.patinaLock 1) k (fun t => t == k)]) = true := by
  decide +kernel

theorem test_witness_PowerRows :
    ok (let x32 := up.setFlag Adr.CLK_STATUS Fld.CLK_STATUS_xtal32_ok true
      let tb := { up with time := { tb := 65536000000000 } }.setFld Adr.TMB_STATUS Fld.TMB_STATUS_state 2
      let pl := { up with pln := { up.pln with pllRestarted := [2] } }
      let wk := { up.setReg Adr.PLN_WALM_LO 5 with time := { up.time with tb := 65536 * 5 } }
      let en := (up.setFlag Adr.PWR_STATE Fld.PWR_STATE_entering true).setFld Adr.PWR_STATE Fld.PWR_STATE_target 1
      let nr := { (en.setFld Adr.PWR_STATE Fld.PWR_STATE_target 3) with cmp := [cmpJob 0 [] none] }
      let ex := (up.setFlag Adr.PWR_STATE Fld.PWR_STATE_exiting true).setFld Adr.PWR_STATE Fld.PWR_STATE_target 0
      let p4 : State := { (up.setFld Adr.PWR_STATE Fld.PWR_STATE_ps 4) with pln := { up.pln with ps5Due := true }, host := { up.host with assocs := [] } }
      let w4 := p4.setFlag Adr.PLN_WAKECFG Fld.PLN_WAKECFG_wake_n_en true
      let e4 := ((en.setFld Adr.PWR_STATE Fld.PWR_STATE_target 4).setFlag (Adr.NET_STATUS 0) Fld.NET_STATUS_link true).setFlag (Adr.NET_STATUS 1)
        Fld.NET_STATUS_link true
      [!up.pln.porLow, after .xtal32Valid up (fun t => t.flag Adr.CLK_STATUS Fld.CLK_STATUS_xtal32_ok), !up.flag Adr.CLK_STATUS Fld.CLK_STATUS_xtal32_ok,
       !up.flag Adr.CLK_STATUS Fld.CLK_STATUS_osc50_ok, up.pln.bootDue.isNone, after (.xtal50Stable false) up (fun t => t.flag Adr.CLK_STATUS Fld.CLK_STATUS_osc50_ok),
       wk.wakeDue, wk.ps == 0, after (.wakeAlarmFire default) wk (fun t => t.wakeTime == 0 && t.flag Adr.PLN_WAKE Fld.PLN_WAKE_alarm),
       after .xtal32Stop x32 (fun t => !t.flag Adr.CLK_STATUS Fld.CLK_STATUS_xtal32_ok), tb.powered 2, tb.tbState == 2,
       after .rtcSet tb (fun t => t.pln.rtcBase == 32768), up.powered 3, !up.pln.pllRestarted.contains 2, pl.pln.pllRestarted.contains 2,
       after (.pllLockTimeout 2) pl (fun t => !t.powered 3), en.host.ctxs.isEmpty, !en.pln.exitDue, after (.powerEntryComplete 70000) en (fun t => t.ps == 1),
       after (.powerEntryComplete 7) e4 (fun t => t.ps == 4 && t.fld (Adr.NET_STATUS 0) Fld.NET_STATUS_mode_up == 4
         && !t.flag (Adr.NET_STATUS 1) Fld.NET_STATUS_link),
       !nr.entryReady 3, after (.powerEntryComplete 1) nr (fun t => t == nr), ex.phase != 2, after (.powerExitComplete 5) ex (fun t => t.ps == 0 && !t.flag Adr.PWR_STATE Fld.PWR_STATE_exiting),
       p4.ps == 4, !p4.psMoving, after .ps5PowerOff p4 (fun t => t.ps == 5 && !t.powered 3), w4.pln.wakeArmed, decide (2 ≤ w4.ps),
       after (.wakeNAssert default) up (fun t => t == up), after (.supplyOutOfLimits true false) up (fun t => t.fld Adr.PIN_SUPPLY Fld.PIN_SUPPLY_now == 1),
       up.powered (sensorRegion 3), after (.overtempFatal 3 1920) up (fun t => t.temps == up.temps.set 3 1920), (up.setTemps (List.replicate 8 400)).tempWarning == up.tempWarning]) = true := by
  decide +kernel

theorem test_witness_ResetAndFirmwareRows :
    ok (let lost := { up with pln := { up.pln with supplyLost := true } }
      let b : Boot := { testen := false, cold := false, slots := 1, keysOk := true, train0 := true, train1 := true, badPages := [], parked := 15 }
      let nr := (up.setFlag Adr.PLN_STATUS Fld.PLN_STATUS_ready false).setFlag Adr.SPN_STATUS Fld.SPN_STATUS_at_speed true
      let cold := { up with pln := { up.pln with coldHold := true } }
      let a : Activation := { assoc := 1, qid := 0, cid := 5, slot := 1, step := 5 }
      let act (v : Activation) : State := { up with activation := some v }
      let good : HeadCal := { surface := 9, width := 96, offset := 256, xcal := [-3, 384], bursts := [(2, 1500, 1400)] }
      [State.reset.pln.porLow, after (.porRelease b) State.reset (fun t => !t.pln.porLow && t.fld Adr.PLN_STATUS Fld.PLN_STATUS_step == 1), after (.porRelease b) up (fun t => t == up),
       !up.pln.supplyLost, after .pwrGoodFall up (fun t => t.pln.supplyLost), lost.pln.supplyLost,
       !up.isOwner 2, after (.deviceReset 2 0 true b) up (fun t => t == up), up.isOwner 1, writable up 1 Adr.PLN_RESET, getBits 0xA501 Fld.PLN_RESET_key == 0xA5 || getBits 0xA5000001 Fld.PLN_RESET_key == 0xA5,
       after (.deviceReset 1 0 false b) up (fun t => t == up),
       !nr.flag Adr.PLN_STATUS Fld.PLN_STATUS_ready, decide (5 ≤ nr.fld Adr.PLN_STATUS Fld.PLN_STATUS_step), nr.faultState != 3, nr.atSpeed, !nr.spinUpRefused,
       !up.media.lostSurfaces.contains 9, !badWidth good, !offCentre good, badWidth { good with width := 79 }, offCentre { good with xcal := [-3, 640] },
       (up.calibrateHead good).reg (Adr.BTN_WIDTH 1 1) == 0x60, (up.calibrateHead good).reg (Adr.SRV_XCAL 1 65) == 0x180,
       decide (256 < ({ good with offset := -257 } : HeadCal).offset.natAbs),
       nr.flt.restarting.isEmpty, !nr.flag Adr.FLT_STATE Fld.FLT_STATE_recovering, up.flag Adr.PLN_STATUS Fld.PLN_STATUS_ready, after (.deviceReady []) up (fun t => t == up),
       after (.norCounterIncrement 3 true) up (fun t => t.nor.counterNew.getLast? == some (counterRecord 0 3 0 0x7F)), after (.norCounterIncrement 0 true) up (fun t => t.nor.counters[0] == 1),
       after (.norCounterIncrement 3 false) up (fun t => t.nor.counterNew.getLast? == some (counterRecord 0 3 0 0xFF)), cold.pln.coldHold, stepBound 5 == 20,
       after (.activationStepDone 20) (act a) (fun t => t.activation == some { a with step := 6 }),
       after (.activationStepDone 21) (act a) (fun t => t.activation == some { a with retried := true }),
       after (.activationRetry true 20) (act { a with retried := true }) (fun t => t.activation == some { a with step := 6 }),
       after (.activationRetry false 20) (act { a with retried := true }) (fun t => t.activation == some { a with back := true })]) = true := by
  decide +kernel

/-! ## What WellFormed refuses -/

theorem test_ill_formed_terms_are_refused :
    ok (let b : Boot := { testen := false, cold := false, slots := 4, keysOk := true, train0 := true, train1 := true, badPages := [], parked := 15 }
      let w (i : Instr) : Bool := !i.wellFormed
      [w (.flush { adm with assoc := 1025 }), w (.flush { adm with qid := 65536 }), w (.flush { adm with cid := 65536 }), w (.flush { adm with mid := [] }), (Instr.flush adm).wellFormed,
       w (.porRelease b), w (.porRelease { b with slots := 3, parked := 16 }), w (.porRelease { b with slots := 3, badPages := [(2, 0)] }), (Instr.porRelease { b with slots := 3 }).wellFormed,
       w (.frameReceive 0 { tag := .vlan 4096, len := 64, fcsOk := true, payload := .other }), w (.eccUncorrectable 0 0 (.dataPath 1025 0 0)),
       w (.eccUncorrectable 0 0 (.dataPath 1 65536 0)), w (.eccUncorrectable 0 0 (.dataPath 1 0 65536)), w (.eccCorrected 0 68719476736),
       w (.plainRegisterWrite .pcie 1025 0 4 0), w (.plainRegisterWrite .pcie 1 4294967296 4 0), w (.plainRegisterWrite .pcie 1 0 0 0), w (.plainRegisterWrite .pcie 1 0 9 0),
       w (.lowWordRead .pcie 4294967296), w (.clearOnRead .pcie 4294967296), w (.regionAccessTimeout 7), w (.funcStop 1 15), w (.cfgCapture 1025 0),
       w (.rafterAccepted 0 [] [] 4096 0), w (.servoSample 0 { aI := 0, aQ := 0, bI := 0, bQ := 0, window := 3906251 } 0 0 0), w (.isnsCalDone []),
       w (.spindleStart 1 0 16), w (.positionSensingDone 4294967296), w (.deviceReady [{ surface := 0, width := 256, offset := 0, xcal := [], bursts := [] }]),
       w (.deviceReady [{ surface := 0, width := 9, offset := 0, xcal := [32768], bursts := [] }]), w (.deviceReady [{ surface := 0, width := 9, offset := 0, xcal := [], bursts := [(16, 0, 0)] }])]) = true := by
  decide +kernel

theorem test_ill_formed_terms_are_refused_too :
    ok (let m : Master := { ident := 18446744073709551616, key := [], utcOffset := 0, utcValid := false, leap61 := false, leap59 := false }
      let w (i : Instr) : Bool := !i.wellFormed
      let h : PtpHeader := { port := 0, domain := 0, transport := 0, vlan := 0 }
      [w (.ptpSync { h with port := 2 } 0 0 0 none), w (.ptpSync { h with domain := 256 } 0 0 0 none), w (.ptpSync { h with transport := 3 } 0 0 0 none),
       w (.ptpFollowUp { h with vlan := 4096 } 0 0 0), w (.ptpAnnounce h m), w (.ptpDelayResp h 0 65536 0), w (.frameReceive 0 { tag := .none, len := 64, fcsOk := true, payload := .arp 4294967296 }),
       w (.frameReceive 0 { tag := .none, len := 64, fcsOk := true, payload := .neighbour (2 ^ 128) }), w (.tcpConnect 0 0 false 65536), w (.ptpAnnounceTimeout 18446744073709551616),
       w (.courseOpenTimeout 32 0 0), w (.courseCloseDone 0 0 0 [68]), w (.scanSector 0 8 0 0 .failed), w (.sqTailDoorbell 65536 0 []), w (.sqTailDoorbell 0 65536 []),
       w (.sqTailDoorbell 0 0 [65536]), w (.cqHeadDoorbell 0 65536), w (.readNvmeMiDataStructure 256 0 default), w (.configurationGet 256 default),
       w (.miTunnelledAdmin 256 adm default), w (.capsuleReceive 0 65536 0 true true false), w (.faultEvent 0 2048 0 0), w (.launchRelease 1 0 65536)]) = true := by
  decide +kernel

theorem test_ill_formed_terms_are_refused_last :
    ok ([!(Instr.temperatureThresholdCrossed [1]).wellFormed, !(Instr.regionRunning 0 0 16).wellFormed]) = true := by
  decide +kernel

end Sys2Proof.Tests
end

section
/-! What a register read does: the latch of its path, the fields it clears, and the frame of a read whose register answers. -/

namespace Sys2Proof.Machine

open Sys2Proof

/-! ## The latches of the paths (R11) -/

@[simp] theorem Latches.get_set_same (l : Latches) (p : Path) (f : RegFile) : (l.set p f).get p = f := by
  cases p <;> rfl

theorem Latches.get_set_other (l : Latches) {p q : Path} (f : RegFile) (h : q ≠ p) : (l.set p f).get q = l.get q := by
  cases p <;> cases q <;> simp_all [Latches.get, Latches.set]

@[simp] theorem Latches.set_get (l : Latches) (p : Path) : l.set p (l.get p) = l := by
  cases p <;> rfl

@[simp] theorem State.reset_latches_find (p : Path) (u : Nat) : (State.reset.latches.get p).find u = none := by
  cases p <;> rfl

/-- What an address holds after g is stored at every address of a list: the value is g of the address, so the order of the list is free. -/
theorem RegFile.find_foldl_put (g : Nat → Word) (l : List Nat) (f : RegFile) (u : Nat) :
    (l.foldl (fun (f : RegFile) a => f.put a (g a)) f).find u = if u ∈ l then some (g u) else f.find u := by
  induction l generalizing f with
  | nil => rfl
  | cons a l ih =>
    rw [List.foldl_cons, ih]
    by_cases hu : u = a
    · subst hu
      simp
    · simp [hu, RegFile.find_put_other _ _ hu]

theorem State.latchRead_of_isUpper (s : State) (l : RegFile) {a : Nat} (h : isUpper a = true) :
    s.latchRead l a = ((l.find a).getD 0, l) := by
  simp [State.latchRead, h]

theorem State.latchRead_value_of_not_isUpper (s : State) (l : RegFile) {a : Nat} (h : isUpper a = false) :
    (s.latchRead l a).1 = s.readReg a := by
  simp [State.latchRead, h]

/-- After a low word's read its path's latch holds what its upper words read at that instant. -/
theorem State.latchRead_find_upperWord (s : State) (l : RegFile) {a u : Nat} (h : isUpper a = false) (hu : u ∈ upperWords a) :
    (s.latchRead l a).2.find u = some (s.readReg u) := by
  simp [State.latchRead, h, RegFile.find_foldl_put, hu]

/-! ## A read whose register answers (R9, R10) -/

/-- A read that clears fields changes nothing but registers (R10). -/
theorem State.clearRead_regs_only (s : State) (a : Nat) : s.clearRead a = { s with regs := (s.clearRead a).regs } := by
  unfold State.clearRead
  split
  · rfl
  · dsimp only
    split <;> rfl

/-- No access waits in a running region when none of its path waits. -/
theorem State.accessWaits_eq_false_of_running {s : State} {p : Path} {a r : Nat} (hr : regionOf a = some r) (hrun : s.restarting r = false)
    (hheld : ∀ h ∈ s.heldRegs, h.path ≠ p) : s.accessWaits p a = false := by
  simpa [State.accessWaits, hr, hrun] using hheld

/-- A read in a powered, running region, of a path with no access that waits: it returns the value and leaves the latch that latchRead says, and
beside these changes only registers it clears and the count of free values. -/
theorem State.performRead_of_running {s : State} {p : Path} {a r : Nat} (hr : regionOf a = some r) (hpow : s.powered r = true)
    (hrun : s.restarting r = false) (hheld : ∀ h ∈ s.heldRegs, h.path ≠ p) :
    ∃ regs fresh, s.performRead p a = { s with
      regs := regs, fresh := fresh
      readData := (s.latchRead (s.latches.get p) a).1
      latches := s.latches.set p (s.latchRead (s.latches.get p) a).2 } := by
  have hwait := State.accessWaits_eq_false_of_running hr hrun hheld
  by_cases hp : p = .snapshot
  · exact ⟨s.regs, s.fresh + b2n (isMeter a), by simp [State.performRead, hr, hpow, hrun, hp]⟩
  · have hread : s.performRead p a = State.clearRead { s with
        fresh := s.fresh + b2n (isMeter a)
        readData := (s.latchRead (s.latches.get p) a).1
        latches := s.latches.set p (s.latchRead (s.latches.get p) a).2 } a := by
      simp [State.performRead, hr, hpow, hrun, hp, hwait]
    exact ⟨_, _, hread.trans (State.clearRead_regs_only _ a)⟩

theorem State.readAt_of_aligned (s : State) (p : Path) {a : Nat} (h : a % 4 = 0) : s.readAt p a = s.performRead p a := by
  simp [State.readAt, h]

/-- Through BAR0 every byte of a register reads the whole register. -/
theorem State.readAt_pcie_whole (s : State) (a : Nat) : s.readAt .pcie a = s.readAt .pcie (a - a % 4) := by
  have h : (a - a % 4) % 4 = 0 := by omega
  simp [State.readAt, h]

theorem State.readAt_of_misaligned (s : State) {p : Path} {a : Nat} (hp : p ≠ .pcie) (h : a % 4 ≠ 0) : s.readAt p a = s := by
  simp [State.readAt, hp, h]

theorem exec_lowWordRead (p : Path) (a : Nat) (s : State) : exec (.lowWordRead p a) s = .next (s.readAt p a) := rfl

/-- A read whose register answers, as LOW_WORD_READ makes it. -/
theorem exec_lowWordRead_of_running {s : State} {p : Path} {a r : Nat} (hr : regionOf a = some r) (ha : a % 4 = 0)
    (hpow : s.powered r = true) (hrun : s.restarting r = false) (hheld : ∀ h ∈ s.heldRegs, h.path ≠ p) :
    ∃ regs fresh, exec (.lowWordRead p a) s = .next { s with
      regs := regs, fresh := fresh
      readData := (s.latchRead (s.latches.get p) a).1
      latches := s.latches.set p (s.latchRead (s.latches.get p) a).2 } := by
  obtain ⟨regs, fresh, hread⟩ := State.performRead_of_running hr hpow hrun hheld
  exact ⟨regs, fresh, by rw [exec_lowWordRead, State.readAt_of_aligned s p ha, hread]⟩

/-- Settles O42: a read that answers applies latchRead to the latch of its own path, and a narrow read is decided by readAt alone. -/
theorem latchedReads : Obligations.LatchedReads := by
  unfold Obligations.LatchedReads
  refine ⟨fun s p a r hr ha hpow hrun hheld => ?_, fun s p a ha => ⟨?_, fun hp => ?_⟩, State.reset_latches_find⟩
  · obtain ⟨regs, fresh, hexec⟩ := exec_lowWordRead_of_running hr ha hpow hrun hheld
    constructor
    · intro hlow
      refine ⟨_, hexec, s.latchRead_value_of_not_isUpper _ hlow, fun u hu => ?_, fun q hq => Latches.get_set_other _ _ hq, rfl, rfl, rfl⟩
      rw [Latches.get_set_same]
      exact s.latchRead_find_upperWord _ hlow hu
    · intro hup
      refine ⟨_, hexec, ?_⟩
      simp [s.latchRead_of_isUpper _ hup]
  · rw [exec_lowWordRead, exec_lowWordRead, State.readAt_pcie_whole]
  · rw [exec_lowWordRead, s.readAt_of_misaligned hp ha]

end Sys2Proof.Machine
end

section
/-! A bounded class-0 command past its bound (R220, R221): what CLASS0_BOUND_MISS counts before it records its event, and what it leaves. -/

namespace Sys2Proof.Machine

open Sys2Proof

/-- The miss counted in the register and in the telemetry of the Time region, before the event is recorded (R221). -/
def State.countBoundMiss (s : State) : State :=
  (s.countFld Adr.TMB_LAUNCH Fld.TMB_LAUNCH_c0_miss).modTime (fun t => { t with c0Miss := min (t.c0Miss + 1) (2 ^ 32 - 1) })

theorem State.countBoundMiss_c0_miss (s : State) :
    s.countBoundMiss.fld Adr.TMB_LAUNCH Fld.TMB_LAUNCH_c0_miss = min (s.fld Adr.TMB_LAUNCH Fld.TMB_LAUNCH_c0_miss + 1) 255 :=
  s.fld_countFld_same Adr.TMB_LAUNCH Fld.TMB_LAUNCH_c0_miss ⟨by decide, by decide⟩

@[simp] theorem State.countBoundMiss_host (s : State) : s.countBoundMiss.host = s.host := rfl

theorem State.countBoundMiss_regsBut (s : State) : s.RegsBut [Adr.TMB_LAUNCH] s.countBoundMiss :=
  ((State.RegsBut.refl _ s).countFld Fld.TMB_LAUNCH_c0_miss (List.mem_singleton_self _)).same rfl

theorem State.countBoundMiss_regs_time_only (s : State) :
    s.countBoundMiss = { s with regs := s.countBoundMiss.regs, time := s.countBoundMiss.time } := rfl

theorem not_eventReg_TMB_LAUNCH : ¬EventReg Adr.TMB_LAUNCH := by
  simp [EventReg, Adr.TMB_LAUNCH, Adr.ECC_MODE]

/-- CLASS0_BOUND_MISS of a bounded command whose bound has passed: the miss is counted and event 0x34B recorded (R221). -/
theorem exec_class0BoundMiss_of_missed {s : State} {o q c w : Nat} {x : Ctx} (hctx : s.ctx o q c = some x)
    (hbounded : s.bounded x w = true) (hpast : x.launch + x.boundNs < s.tbNs) :
    exec (.class0BoundMiss o q c w) s = .next (s.countBoundMiss.event 0x34B) := by
  change execClass0BoundMiss o q c w s = _
  simp [execClass0BoundMiss, State.countBoundMiss, hctx, hbounded, hpast]

/-- Settles O21: the miss is counted in TMB_LAUNCH.c0_miss, which the event does not touch, and the command's context stays as it was. -/
theorem missedBoundIsCounted : Obligations.MissedBoundIsCounted := by
  unfold Obligations.MissedBoundIsCounted
  intro s o q c w x hctx hbounded hpast
  have hevent := s.countBoundMiss.event_only 0x34B 0 0
  refine ⟨s.countBoundMiss, exec_class0BoundMiss_of_missed hctx hbounded hpast, ?_, ?_,
    s.countBoundMiss_regsBut, s.countBoundMiss_regs_time_only⟩
  · exact hevent.host.trans s.countBoundMiss_host
  · exact (hevent.fld _ not_eventReg_TMB_LAUNCH).trans s.countBoundMiss_c0_miss

end Sys2Proof.Machine
end

section
/-! What every command and every step keeps (R11's free values, the canonical forms): one row of the command table after another. -/

namespace Sys2Proof.Machine

open Sys2Proof

/-- Every command is answered with a next state that keeps the forms, the queue and the order of the free values, from every state that does. -/
theorem exec_goes {s0 s : State} (i : Instr) (h : Keeps s0 s) : Goes s0 (exec i s) :=
  match i with
  | .plainRegisterWrite .. => execPlainRegisterWrite_keeps _ _ _ _ _ h
  | .lowWordRead .. => execLowWordRead_keeps _ _ h
  | .clearOnRead .. => execClearOnRead_keeps _ _ h
  | .regionAccessTimeout .. => execRegionAccessTimeout_keeps _ h
  | .funcStop .. => execFuncStop_keeps _ _ h
  | .funcRestart .. => execFuncRestart_keeps _ _ h
  | .funcAbandon .. => execFuncAbandon_keeps _ _ h
  | .funcStopped .. => execFuncStopped_keeps _ h
  | .funcCommit .. => execFuncCommit_keeps _ h
  | .pauseBoundExpiry .. => execPauseBoundExpiry_keeps _ h
  | .stopLimitExpiry .. => execStopLimitExpiry_keeps _ h
  | .cfgStore .. => execCfgStore_keeps _ h
  | .cfgCapture .. => execCfgCapture_keeps _ _ h
  | .cfgRemove .. => execCfgRemove_keeps _ h
  | .cfgStoreDone .. => execCfgStoreDone_keeps _ h
  | .preampFault .. => execPreampFault_keeps _ h
  | .preampFaultClear .. => execPreampFaultClear_keeps _ h
  | .pfltPersistTimeout .. => execPfltPersistTimeout_keeps _ h
  | .pscFrameGo .. => execPscFrameGo_keeps _ _ _ h
  | .pscFrameDone .. => execPscFrameDone_keeps _ _ h
  | .clockAcquired .. => execClockAcquired_keeps _ h
  | .holdTimeout .. => execHoldTimeout_keeps _ h
  | .clockLostTimeout .. => execClockLostTimeout_keeps _ h
  | .rafterSyncCheck .. => execRafterSyncCheck_keeps _ _ h
  | .rafterAccepted .. => execRafterAccepted_keeps _ _ _ _ _ h
  | .burstPhaseCheck .. => execBurstPhaseCheck_keeps _ _ h
  | .rafterLost .. => execRafterLost_keeps _ _ h
  | .reacqCheck .. => execReacqCheck_keeps _ _ h
  | .servoSample .. => execServoSample_keeps _ _ _ _ _ h
  | .battenGainStep .. => execBattenGainStep_keeps _ h
  | .invalidWindowEnd .. => execInvalidWindowEnd_keeps _ h
  | .settled .. => execSettled_keeps _ h
  | .followingErrorTrip .. => execFollowingErrorTrip_keeps _ h
  | .oscillationTrip .. => execOscillationTrip_keeps _ h
  | .isnsMismatch .. => execIsnsMismatch_keeps _ h
  | .rvSensorDrop .. => execRvSensorDrop_keeps _ _ h
  | .seekRequest .. => execSeekRequest_keeps _ _ h
  | .seekHandover .. => execSeekHandover_keeps _ h
  | .reidentTimeout .. => execReidentTimeout_keeps _ h
  | .loopEngineFault .. => execLoopEngineFault_keeps _ h
  | .microword .. => execMicroword_keeps _ _ _ h
  | .sequencerAbortRequest .. => execSequencerAbortRequest_keeps _ h
  | .sequencerInterruptRequest .. => execSequencerInterruptRequest_keeps _ h
  | .waitLimitExpiry .. => execWaitLimitExpiry_keeps _ h
  | .abortPointMonitor .. => execAbortPointMonitor_keeps _ h
  | .leadFault .. => execLeadFault_keeps _ h
  | .followFault .. => execFollowFault_keeps _ h
  | .syncDecided .. => execSyncDecided_keeps _ _ _ h
  | .fragmentDone .. => execFragmentDone_keeps _ h
  | .partDone .. => execPartDone_keeps _ _ h
  | .sectorDecoded .. => execSectorDecoded_keeps _ _ _ _ h
  | .ldpcNoConvergence .. => execLdpcNoConvergence_keeps _ _ h
  | .pwmPeriod .. => execPwmPeriod_keeps _ _ _ h
  | .overcurrentCoast => execOvercurrentCoast_keeps h
  | .fwFloor => execFwFloor_keeps h
  | .vbusRead .. => execVbusRead_keeps _ h
  | .spindleEngineFault .. => execSpindleEngineFault_keeps _ h
  | .atSpeed => execAtSpeed_keeps h
  | .spindleStart .. => execSpindleStart_keeps _ _ _ h
  | .spindleStop .. => execSpindleStop_keeps _ _ h
  | .spindleCoast .. => execSpindleCoast_keeps _ _ h
  | .parkRetractWaitEnd .. => execParkRetractWaitEnd_keeps _ h
  | .rockPairDone .. => execRockPairDone_keeps _ h
  | .prestartSensingDone .. => execPrestartSensingDone_keeps _ _ h
  | .brakeHoldEnd => execBrakeHoldEnd_keeps h
  | .positionSensingDone .. => execPositionSensingDone_keeps _ h
  | .startHandover => execStartHandover_keeps h
  | .handoverTimeout => execHandoverTimeout_keeps h
  | .spindownBrakeChange => execSpindownBrakeChange_keeps h
  | .isnsCal .. => execIsnsCal_keeps _ _ h
  | .isnsCalDone .. => execIsnsCalDone_keeps _ h
  | .isnsGainWrite .. => execIsnsGainWrite_keeps _ _ h
  | .retractInputChange .. => execRetractInputChange_keeps _ _ h
  | .retractDiscrepancy => execRetractDiscrepancy_keeps h
  | .retractRearm => execRetractRearm_keeps h
  | .retractWaitTimeout .. => execRetractWaitTimeout_keeps _ _ _ h
  | .ptpAnnounce .. => execPtpAnnounce_keeps _ _ h
  | .ptpSync .. => execPtpSync_keeps _ _ _ _ _ h
  | .ptpFollowUp .. => execPtpFollowUp_keeps _ _ _ _ h
  | .ptpDelayResp .. => execPtpDelayResp_keeps _ _ _ _ h
  | .gerynMarker => execGerynMarker_keeps h
  | .gerynWord .. => execGerynWord_keeps _ h
  | .gerynMarkerMissing => execGerynMarkerMissing_keeps h
  | .holdoverExpiry => execHoldoverExpiry_keeps h
  | .glkClaim .. => execGlkClaim_keeps _ h
  | .glkRelease .. => execGlkRelease_keeps _ h
  | .dbgTrcClaim .. => execDbgTrcClaim_keeps _ _ h
  | .dbgTrcRelease .. => execDbgTrcRelease_keeps _ h
  | .phaseMeasurement .. => execPhaseMeasurement_keeps _ _ h
  | .phaseMeasurementTimeout => execPhaseMeasurementTimeout_keeps h
  | .approachRequest .. => execApproachRequest_keeps _ h
  | .approachEnd => execApproachEnd_keeps h
  | .launchRelease .. => execLaunchRelease_keeps _ _ _ h
  | .class0BoundMiss .. => execClass0BoundMiss_keeps _ _ _ _ h
  | .alarmClaim .. => execAlarmClaim_keeps _ _ _ h
  | .alarmRelease .. => execAlarmRelease_keeps _ _ h
  | .alarmFire .. => execAlarmFire_keeps _ h
  | .courseRecovery .. => execCourseRecovery_keeps _ _ h
  | .readRetry .. => execReadRetry_keeps _ _ h
  | .trussRecovery .. => execTrussRecovery_keeps _ _ h
  | .recoveryLimitExpiry .. => execRecoveryLimitExpiry_keeps _ _ _ h
  | .unavailReconstruct .. => execUnavailReconstruct_keeps _ _ _ h
  | .recoveredRewrite .. => execRecoveredRewrite_keeps _ _ h
  | .writeRetry .. => execWriteRetry_keeps _ _ h
  | .courseOpenTimeout .. => execCourseOpenTimeout_keeps _ _ _ h
  | .courseCloseDone .. => execCourseCloseDone_keeps _ _ _ _ h
  | .trailTimeout .. => execTrailTimeout_keeps _ h
  | .trussParityWritten .. => execTrussParityWritten_keeps _ h
  | .rebuildUnit => execRebuildUnit_keeps h
  | .scanSector .. => execScanSector_keeps _ _ _ _ _ h
  | .mouldWrite .. => execMouldWrite_keeps _ h
  | .mouldCommit .. => execMouldCommit_keeps _ h
  | .mouldWithdrawDone .. => execMouldWithdrawDone_keeps _ _ _ h
  | .cast .. => execCast_keeps _ h
  | .castDispatch => execCastDispatch_keeps h
  | .pourDone .. => execPourDone_keeps _ h
  | .castComplete .. => execCastComplete_keeps _ _ _ h
  | .castEngineFault .. => execCastEngineFault_keeps _ h
  | .stagingClaim .. => execStagingClaim_keeps _ _ h
  | .stagingRelease .. => execStagingRelease_keeps _ _ h
  | .move .. => execMove_keeps _ _ h
  | .loop .. => execLoop_keeps _ h
  | .wait .. => execWait_keeps _ h
  | .signal .. => execSignal_keeps _ h
  | .waitEnd .. => execWaitEnd_keeps _ h
  | .recipeWaitTimeout .. => execRecipeWaitTimeout_keeps _ h
  | .pacingResume .. => execPacingResume_keeps _ h
  | .programLineArrive .. => execProgramLineArrive_keeps _ _ h
  | .compressionJobStart => execCompressionJobStart_keeps h
  | .compressionJobDone .. => execCompressionJobDone_keeps _ h
  | .decompressError .. => execDecompressError_keeps _ h
  | .verifierMismatch .. => execVerifierMismatch_keeps _ h
  | .verifierDisable .. => execVerifierDisable_keeps _ h
  | .verifiedUnitWaitTimeout .. => execVerifiedUnitWaitTimeout_keeps _ _ _ h
  | .linkUp .. => execLinkUp_keeps _ h
  | .linkDown .. => execLinkDown_keeps _ h
  | .linkLossTimeout .. => execLinkLossTimeout_keeps _ h
  | .portFault .. => execPortFault_keeps _ h
  | .frameReceive .. => execFrameReceive_keeps _ _ h
  | .tcpConnect .. => execTcpConnect_keeps _ _ _ _ h
  | .connectionClose .. => execConnectionClose_keeps _ h
  | .icreq .. => execIcreq_keeps _ _ _ _ _ h
  | .capsuleReceive .. => execCapsuleReceive_keeps _ _ _ _ _ _ h
  | .h2cData .. => execH2cData_keeps _ _ _ _ h
  | .refusedConnectionTimeout .. => execRefusedConnectionTimeout_keeps _ h
  | .keepAliveExpiry .. => execKeepAliveExpiry_keeps _ h
  | .sqTailDoorbell .. => execSqTailDoorbell_keeps _ _ _ h
  | .controllerEnable .. => execControllerEnable_keeps _ h
  | .controllerDisable => execControllerDisable_keeps h
  | .pcieEnWrite .. => execPcieEnWrite_keeps _ _ h
  | .perstAssert => execPerstAssert_keeps h
  | .perstRise .. => execPerstRise_keeps _ h
  | .functionLevelReset .. => execFunctionLevelReset_keeps _ h
  | .readNvmeMiDataStructure .. => execReadNvmeMiDataStructure_keeps _ _ _ h
  | .subsystemHealthStatusPoll .. => execSubsystemHealthStatusPoll_keeps _ _ h
  | .controllerHealthStatusPoll .. => execControllerHealthStatusPoll_keeps _ _ h
  | .configurationGet .. => execConfigurationGet_keeps _ _ h
  | .configurationSet .. => execConfigurationSet_keeps _ _ _ h
  | .vpdRead .. => execVpdRead_keeps _ _ _ h
  | .miTunnelledAdmin .. => execMiTunnelledAdmin_keeps _ _ _ h
  | .egressShareRecompute => execEgressShareRecompute_keeps h
  | .commandFetch => execCommandFetch_keeps h
  | .leaseExpiry => execLeaseExpiry_keeps h
  | .successorWindowLapse => execSuccessorWindowLapse_keeps h
  | .rangeLockGrant .. => execRangeLockGrant_keeps _ _ _ h
  | .trailingBufferSpace .. => execTrailingBufferSpace_keeps _ _ _ h
  | .deleteIoSubmissionQueue .. => execDeleteIoSubmissionQueue_keeps _ h
  | .createIoSubmissionQueue .. => execCreateIoSubmissionQueue_keeps _ h
  | .getLogPage .. => execGetLogPage_keeps _ h
  | .deleteIoCompletionQueue .. => execDeleteIoCompletionQueue_keeps _ h
  | .createIoCompletionQueue .. => execCreateIoCompletionQueue_keeps _ h
  | .identify .. => execIdentify_keeps _ h
  | .abort .. => execAbort_keeps _ h
  | .setFeatures .. => execSetFeatures_keeps _ h
  | .getFeatures .. => execGetFeatures_keeps _ h
  | .asynchronousEventRequest .. => execAsynchronousEventRequest_keeps _ h
  | .namespaceManagement .. => execNamespaceManagement_keeps _ h
  | .namespaceDeleteDone .. => execNamespaceDeleteDone_keeps _ _ _ h
  | .firmwareCommit .. => execFirmwareCommit_keeps _ h
  | .firmwareImageDownload .. => execFirmwareImageDownload_keeps _ h
  | .namespaceAttachment .. => execNamespaceAttachment_keeps _ h
  | .keepAlive .. => execKeepAlive_keeps _ h
  | .fabricsConnect .. => execFabricsConnect_keeps _ h
  | .propertyGet .. => execPropertyGet_keeps _ h
  | .propertySet .. => execPropertySet_keeps _ h
  | .authenticationSend .. => execAuthenticationSend_keeps _ h
  | .authenticationReceive .. => execAuthenticationReceive_keeps _ h
  | .claimOwnership .. => execClaimOwnership_keeps _ h
  | .yieldOwnership .. => execYieldOwnership_keeps _ h
  | .loadContentKey .. => execLoadContentKey_keeps _ h
  | .loadCastProfile .. => execLoadCastProfile_keeps _ h
  | .loadRecipe .. => execLoadRecipe_keeps _ h
  | .readPatina .. => execReadPatina_keeps _ h
  | .clearPatina .. => execClearPatina_keeps _ h
  | .registerWrite .. => execRegisterWrite_keeps _ h
  | .registerRead .. => execRegisterRead_keeps _ h
  | .reconfigureFunction .. => execReconfigureFunction_keeps _ h
  | .constellationStatus .. => execConstellationStatus_keeps _ h
  | .flush .. => execFlush_keeps _ h
  | .write .. => execWrite_keeps _ h
  | .read .. => execRead_keeps _ h
  | .writeZeroes .. => execWriteZeroes_keeps _ h
  | .datasetManagement .. => execDatasetManagement_keeps _ h
  | .timedRead .. => execTimedRead_keeps _ h
  | .transform .. => execTransform_keeps _ h
  | .mediaWriteDone .. => execMediaWriteDone_keeps _ _ _ h
  | .eccCorrected .. => execEccCorrected_keeps _ _ h
  | .bucketLeak => execBucketLeak_keeps h
  | .targetedScrub .. => execTargetedScrub_keeps _ h
  | .eccUncorrectable .. => execEccUncorrectable_keeps _ _ _ h
  | .checkLineWriteback .. => execCheckLineWriteback_keeps _ _ h
  | .scrubGroup .. => execScrubGroup_keeps _ _ h
  | .dramChannelFail .. => execDramChannelFail_keeps _ h
  | .eccModeWrite .. => execEccModeWrite_keeps _ _ h
  | .eccInjArm .. => execEccInjArm_keeps _ _ h
  | .eccInject => execEccInject_keeps h
  | .pageRetire .. => execPageRetire_keeps _ _ _ h
  | .faultEvent .. => execFaultEvent_keeps _ _ _ _ h
  | .escalationExpiry .. => execEscalationExpiry_keeps _ h
  | .fltAckHandled .. => execFltAckHandled_keeps _ h
  | .fltAckRestart .. => execFltAckRestart_keeps _ h
  | .fltAckFatal .. => execFltAckFatal_keeps _ h
  | .regionRunning .. => execRegionRunning_keeps _ _ _ h
  | .regionRestartTimeout .. => execRegionRestartTimeout_keeps _ h
  | .quietPeriodExpiry => execQuietPeriodExpiry_keeps h
  | .errTest .. => execErrTest_keeps _ _ h
  | .errTestEnd => execErrTestEnd_keeps h
  | .controlCoreFail .. => execControlCoreFail_keeps _ h
  | .patinaStore => execPatinaStore_keeps h
  | .patinaJournalWrite .. => execPatinaJournalWrite_keeps _ h
  | .patinaLock .. => execPatinaLock_keeps _ h
  | .xtal32Valid => execXtal32Valid_keeps h
  | .xtal32Stop => execXtal32Stop_keeps h
  | .xtal32Timeout => execXtal32Timeout_keeps h
  | .rtcSet => execRtcSet_keeps h
  | .rtcSave => execRtcSave_keeps h
  | .pllLockTimeout .. => execPllLockTimeout_keeps _ h
  | .powerEntryComplete .. => execPowerEntryComplete_keeps _ h
  | .powerExitComplete .. => execPowerExitComplete_keeps _ h
  | .ps5PowerOff => execPs5PowerOff_keeps h
  | .wakeNAssert .. => execWakeNAssert_keeps _ h
  | .wakeAlarmFire .. => execWakeAlarmFire_keeps _ h
  | .porRelease .. => execPorRelease_keeps _ h
  | .deviceReady .. => execDeviceReady_keeps _ h
  | .pwrGoodFall => execPwrGoodFall_keeps h
  | .supplyResetRelease .. => execSupplyResetRelease_keeps _ h
  | .deviceReset .. => execDeviceReset_keeps _ _ _ _ h
  | .jtagReset => execJtagReset_keeps h
  | .norCounterIncrement .. => execNorCounterIncrement_keeps _ _ h
  | .activationStepDone .. => execActivationStepDone_keeps _ h
  | .activationRetry .. => execActivationRetry_keeps _ _ h
  | .activationEnd => execActivationEnd_keeps h
  | .supplyOutOfLimits .. => execSupplyOutOfLimits_keeps _ _ h
  | .overtempFatal .. => execOvertempFatal_keeps _ _ h
  | .coldStartHoldEnd .. => execColdStartHoldEnd_keeps _ h
  | .porAssert => execPorAssert_keeps h
  | .xtal50Stable .. => execXtal50Stable_keeps _ h
  | .wakeNRelease => execWakeNRelease_keeps h
  | .temperatureThresholdCrossed .. => execTemperatureThresholdCrossed_keeps _ h
  | .ptpAnnounceTimeout .. => execPtpAnnounceTimeout_keeps _ h
  | .tcpTimerExpiry .. => execTcpTimerExpiry_keeps _ _ h
  | .cqHeadDoorbell .. => execCqHeadDoorbell_keeps _ _ h
  | .actuatorReload .. => execActuatorReload_keeps _ _ h
  | .predictedRafterStart .. => execPredictedRafterStart_keeps _ h
  | .rafterPassed .. => execRafterPassed_keeps _ h
  | .sectorBoundary .. => execSectorBoundary_keeps _ h
  | .writeDataReady .. => execWriteDataReady_keeps _ h

theorem step_of_pending_cons {s : State} {c : Instr} {rest : List Instr} (h : s.pending = c :: rest) :
    step s = exec c { s with pending := rest } := by
  simp [step, h]

theorem step_of_pending_nil {s : State} (h : s.pending = []) : step s = .next s.idleClock := by
  simp [step, h]

/-- Settles O38: the front command keeps the forms by exec_goes, and a clock by idleClock_keeps. -/
theorem everyStepKeepsForms : Obligations.EveryStepKeepsForms := by
  unfold Obligations.EveryStepKeepsForms
  intro s t hwf hstep
  cases hp : s.pending with
  | nil =>
    rw [step_of_pending_nil hp] at hstep
    obtain rfl := Host.Outcome.next.inj hstep
    exact (State.idleClock_keeps (Keeps.refl s)).1 hwf
  | cons c rest =>
    rw [step_of_pending_cons hp] at hstep
    exact ((exec_goes c (Keeps.refl { s with pending := rest })).keeps hstep).1 hwf

/-- Settles O39: what exec_goes says of the front command, started with the rest of the queue. -/
theorem everyCommandAnswers : Obligations.EveryCommandAnswers := by
  unfold Obligations.EveryCommandAnswers
  intro c rest s hp
  obtain ⟨t, ht, -, hpending, hfresh⟩ := exec_goes c (Keeps.refl { s with pending := rest })
  exact ⟨t, (step_of_pending_cons hp).trans ht, hpending, hfresh⟩

/-- Settles O1: step takes the front command off the queue and performs it. -/
theorem frontCommandIsPerformed : Obligations.FrontCommandIsPerformed := by
  unfold Obligations.FrontCommandIsPerformed
  exact fun _ _ _ => step_of_pending_cons rfl

end Sys2Proof.Machine
end

section
/-! What a field, a flag or an actuator's slice reads as after each kind of store. The side conditions are decidable, so that a proof about named
registers can discharge them by decide. -/

namespace Sys2Proof.Machine

open Sys2Proof

/-! ## Fields and flags -/

@[simp] theorem State.fld_setFld_eq (s : State) (a : Nat) (f : Fld) (v : Nat) (h : f.lo ≤ f.hi ∧ f.hi < 32) :
    (s.setFld a f v).fld a f = v % 2 ^ f.width := s.fld_setFld_same a f v h

@[simp] theorem State.fld_setFld_apart (s : State) (a : Nat) (f g : Fld) (v : Nat) (hg : g.lo ≤ g.hi ∧ g.hi < 32)
    (h : g.hi < f.lo ∨ f.hi < g.lo) : (s.setFld a f v).fld a g = s.fld a g := s.fld_setFld_field a f g v hg h

@[simp] theorem State.fld_setFld_ne (s : State) {a b : Nat} (f g : Fld) (v : Nat) (h : b ≠ a) :
    (s.setFld a f v).fld b g = s.fld b g := s.fld_setFld_reg f g v h

@[simp] theorem State.fld_setFlag_apart (s : State) (a : Nat) (f g : Fld) (v : Bool) (hg : g.lo ≤ g.hi ∧ g.hi < 32)
    (h : g.hi < f.lo ∨ f.hi < g.lo) : (s.setFlag a f v).fld a g = s.fld a g := s.fld_setFld_field a f g _ hg h

@[simp] theorem State.fld_setFlag_ne (s : State) {a b : Nat} (f g : Fld) (v : Bool) (h : b ≠ a) :
    (s.setFlag a f v).fld b g = s.fld b g := s.fld_setFld_reg f g _ h

@[simp] theorem State.flag_setFlag_eq (s : State) (a : Nat) (f : Fld) (v : Bool) (h : f.lo ≤ f.hi ∧ f.hi < 32) :
    (s.setFlag a f v).flag a f = v := s.flag_setFlag_same a f v h

@[simp] theorem State.flag_setFlag_apart (s : State) (a : Nat) (f g : Fld) (v : Bool) (hg : g.lo ≤ g.hi ∧ g.hi < 32)
    (h : g.hi < f.lo ∨ f.hi < g.lo) : (s.setFlag a f v).flag a g = s.flag a g := by
  rw [State.flag, s.fld_setFlag_apart a f g v hg h, State.flag]

@[simp] theorem State.flag_setFlag_ne (s : State) {a b : Nat} (f g : Fld) (v : Bool) (h : b ≠ a) :
    (s.setFlag a f v).flag b g = s.flag b g := by
  rw [State.flag, s.fld_setFlag_ne f g v h, State.flag]

@[simp] theorem State.flag_setFld_apart (s : State) (a : Nat) (f g : Fld) (v : Nat) (hg : g.lo ≤ g.hi ∧ g.hi < 32)
    (h : g.hi < f.lo ∨ f.hi < g.lo) : (s.setFld a f v).flag a g = s.flag a g := by
  rw [State.flag, s.fld_setFld_apart a f g v hg h, State.flag]

@[simp] theorem State.flag_setFld_ne (s : State) {a b : Nat} (f g : Fld) (v : Nat) (h : b ≠ a) :
    (s.setFld a f v).flag b g = s.flag b g := by
  rw [State.flag, s.fld_setFld_ne f g v h, State.flag]

@[simp] theorem State.fld_countFld_eq (s : State) (a : Nat) (f : Fld) (h : f.lo ≤ f.hi ∧ f.hi < 32) :
    (s.countFld a f).fld a f = min (s.fld a f + 1) (2 ^ f.width - 1) := s.fld_countFld_same a f h

@[simp] theorem State.fld_countFld_apart (s : State) (a : Nat) (f g : Fld) (hg : g.lo ≤ g.hi ∧ g.hi < 32)
    (h : g.hi < f.lo ∨ f.hi < g.lo) : (s.countFld a f).fld a g = s.fld a g := s.fld_setFld_apart a f g _ hg h

@[simp] theorem State.fld_countFld_ne (s : State) {a b : Nat} (f g : Fld) (h : b ≠ a) : (s.countFld a f).fld b g = s.fld b g :=
  s.fld_setFld_reg f g _ h

@[simp] theorem State.flag_countFld_apart (s : State) (a : Nat) (f g : Fld) (hg : g.lo ≤ g.hi ∧ g.hi < 32)
    (h : g.hi < f.lo ∨ f.hi < g.lo) : (s.countFld a f).flag a g = s.flag a g := s.flag_setFld_apart a f g _ hg h

@[simp] theorem State.flag_countFld_ne (s : State) {a b : Nat} (f g : Fld) (h : b ≠ a) : (s.countFld a f).flag b g = s.flag b g :=
  s.flag_setFld_ne f g _ h

@[simp] theorem State.fld_setSFld_apart (s : State) (a : Nat) (f g : Fld) (v : Int) (hg : g.lo ≤ g.hi ∧ g.hi < 32)
    (h : g.hi < f.lo ∨ f.hi < g.lo) : (s.setSFld a f v).fld a g = s.fld a g := s.fld_setFld_apart a f g _ hg h

@[simp] theorem State.fld_setSFld_ne (s : State) {a b : Nat} (f g : Fld) (v : Int) (h : b ≠ a) :
    (s.setSFld a f v).fld b g = s.fld b g := s.fld_setFld_reg f g _ h

@[simp] theorem State.flag_setSFld_apart (s : State) (a : Nat) (f g : Fld) (v : Int) (hg : g.lo ≤ g.hi ∧ g.hi < 32)
    (h : g.hi < f.lo ∨ f.hi < g.lo) : (s.setSFld a f v).flag a g = s.flag a g := s.flag_setFld_apart a f g _ hg h

@[simp] theorem State.flag_setSFld_ne (s : State) {a b : Nat} (f g : Fld) (v : Int) (h : b ≠ a) :
    (s.setSFld a f v).flag b g = s.flag b g := s.flag_setFld_ne f g _ h

@[simp] theorem State.fld_setReg_same (s : State) (a : Nat) (v : Word) (g : Fld) : (s.setReg a v).fld a g = getBits v g := by
  rw [State.fld, State.reg_setReg_same]

@[simp] theorem State.fld_setReg_ne (s : State) {a b : Nat} (v : Word) (g : Fld) (h : b ≠ a) : (s.setReg a v).fld b g = s.fld b g := by
  rw [State.fld, s.reg_setReg_other v h, State.fld]

@[simp] theorem State.flag_setReg_same (s : State) (a : Nat) (v : Word) (g : Fld) : (s.setReg a v).flag a g = (getBits v g != 0) := by
  rw [State.flag, State.fld_setReg_same]

@[simp] theorem State.flag_setReg_ne (s : State) {a b : Nat} (v : Word) (g : Fld) (h : b ≠ a) : (s.setReg a v).flag b g = s.flag b g := by
  rw [State.flag, s.fld_setReg_ne v g h, State.flag]

/-- A field holds less than its width allows. -/
theorem State.fld_lt (s : State) (a : Nat) (f : Fld) : s.fld a f < 2 ^ f.width :=
  Nat.mod_lt _ (Nat.two_pow_pos _)

/-- Reading a value back: what fits is not cut. -/
theorem State.fld_setFld_of_lt (s : State) (a : Nat) (f : Fld) {v : Nat} (h : f.lo ≤ f.hi ∧ f.hi < 32) (hv : v < 2 ^ f.width) :
    (s.setFld a f v).fld a f = v := by
  rw [s.fld_setFld_eq a f v h, Nat.mod_eq_of_lt hv]

/-! ## Fields outside what an event may change -/

@[simp] theorem State.fld_event (s : State) (id d e : Nat) {a : Nat} (f : Fld)
    (h : ¬((0x5000000 ≤ a ∧ a < 0x5101000) ∨ a = Adr.ECC_MODE)) : (s.event id d e).fld a f = s.fld a f :=
  (s.event_only id d e).fld f h

@[simp] theorem State.flag_event (s : State) (id d e : Nat) {a : Nat} (f : Fld)
    (h : ¬((0x5000000 ≤ a ∧ a < 0x5101000) ∨ a = Adr.ECC_MODE)) : (s.event id d e).flag a f = s.flag a f :=
  (s.event_only id d e).flag f h

@[simp] theorem State.fld_actEvent (s : State) (n : Fin 4) (o d e : Nat) {a : Nat} (f : Fld)
    (h : ¬((0x5000000 ≤ a ∧ a < 0x5101000) ∨ a = Adr.ECC_MODE)) : (s.actEvent n o d e).fld a f = s.fld a f :=
  (s.actEvent_only n o d e).fld f h

@[simp] theorem State.flag_actEvent (s : State) (n : Fin 4) (o d e : Nat) {a : Nat} (f : Fld)
    (h : ¬((0x5000000 ≤ a ∧ a < 0x5101000) ∨ a = Adr.ECC_MODE)) : (s.actEvent n o d e).flag a f = s.flag a f :=
  (s.actEvent_only n o d e).flag f h

/-! ## Slices -/

@[simp] theorem State.act_modSeq_same (s : State) (a : Fin 4) (f : Sequencer → Sequencer) :
    (s.modSeq a f).act a = { s.act a with seq := f (s.act a).seq } := s.act_modAct_same a _

@[simp] theorem State.act_modBatten_same (s : State) (a : Fin 4) (f : Batten → Batten) :
    (s.modBatten a f).act a = { s.act a with batten := f (s.act a).batten } := s.act_modAct_same a _

@[simp] theorem State.act_modServo_same (s : State) (a : Fin 4) (f : Servo → Servo) :
    (s.modServo a f).act a = { s.act a with servo := f (s.act a).servo } := s.act_modAct_same a _

@[simp] theorem State.act_setSFld (s : State) (b : Nat) (f : Fld) (v : Int) (a : Fin 4) : (s.setSFld b f v).act a = s.act a := rfl

theorem State.ActsBut.refl (a : Fin 4) (s : State) : s.ActsBut a s := fun _ _ => rfl

theorem State.ActsBut.trans {a : Fin 4} {s t u : State} (h : s.ActsBut a t) (k : t.ActsBut a u) : s.ActsBut a u :=
  fun b hb => (k b hb).trans (h b hb)

/-- A change of anything but the slices. -/
theorem State.ActsBut.same {a : Fin 4} {s t u : State} (h : s.ActsBut a t) (e : u.acts = t.acts) : s.ActsBut a u :=
  fun b hb => by have := h b hb; simp only [State.act, e] at this ⊢; exact this

theorem State.ActsBut.setReg {a : Fin 4} {s t : State} (h : s.ActsBut a t) (r : Nat) (v : Word) : s.ActsBut a (t.setReg r v) :=
  h.same (t.setReg_acts r v)

theorem State.ActsBut.setFld {a : Fin 4} {s t : State} (h : s.ActsBut a t) (r : Nat) (f : Fld) (v : Nat) : s.ActsBut a (t.setFld r f v) :=
  h.same (t.setFld_acts r f v)

theorem State.ActsBut.setFlag {a : Fin 4} {s t : State} (h : s.ActsBut a t) (r : Nat) (f : Fld) (v : Bool) : s.ActsBut a (t.setFlag r f v) :=
  h.same (t.setFlag_acts r f v)

theorem State.ActsBut.setSFld {a : Fin 4} {s t : State} (h : s.ActsBut a t) (r : Nat) (f : Fld) (v : Int) : s.ActsBut a (t.setSFld r f v) :=
  h.same (t.setSFld_acts r f v)

theorem State.ActsBut.countFld {a : Fin 4} {s t : State} (h : s.ActsBut a t) (r : Nat) (f : Fld) : s.ActsBut a (t.countFld r f) :=
  h.same (t.countFld_acts r f)

theorem State.ActsBut.event {a : Fin 4} {s t : State} (h : s.ActsBut a t) (id d e : Nat) : s.ActsBut a (t.event id d e) :=
  h.same (t.event_acts id d e)

theorem State.ActsBut.actEvent {a : Fin 4} {s t : State} (h : s.ActsBut a t) (n : Fin 4) (o d e : Nat) :
    s.ActsBut a (t.actEvent n o d e) := h.same (t.actEvent_acts n o d e)

theorem State.ActsBut.modAct {a : Fin 4} {s t : State} (h : s.ActsBut a t) (f : Act → Act) : s.ActsBut a (t.modAct a f) :=
  fun _ hb => (t.act_modAct_other f hb).trans (h _ hb)

theorem State.ActsBut.modSeq {a : Fin 4} {s t : State} (h : s.ActsBut a t) (f : Sequencer → Sequencer) : s.ActsBut a (t.modSeq a f) :=
  h.modAct _

theorem State.ActsBut.modBatten {a : Fin 4} {s t : State} (h : s.ActsBut a t) (f : Batten → Batten) : s.ActsBut a (t.modBatten a f) :=
  h.modAct _

theorem State.ActsBut.modServo {a : Fin 4} {s t : State} (h : s.ActsBut a t) (f : Servo → Servo) : s.ActsBut a (t.modServo a f) :=
  h.modAct _

theorem State.ActsBut.ite {a : Fin 4} {s t u : State} {p : Prop} [Decidable p] (h : s.ActsBut a t) (k : s.ActsBut a u) :
    s.ActsBut a (if p then t else u) := by
  split
  · exact h
  · exact k

/-! ## Frames -/

theorem State.RegsBut.trans {l : List Nat} {s t u : State} (h : s.RegsBut l t) (k : t.RegsBut l u) : s.RegsBut l u :=
  fun a ha => (k a ha).trans (h a ha)

theorem State.RegsButEvents.trans {l : List Nat} {s t u : State} (h : s.RegsButEvents l t) (k : t.RegsButEvents l u) : s.RegsButEvents l u :=
  fun a ha he => (k a ha he).trans (h a ha he)

theorem State.RegsBut.mono {l m : List Nat} {s t : State} (h : s.RegsBut l t) (hlm : l ⊆ m) : s.RegsBut m t :=
  fun a ha => h a fun hl => ha (hlm hl)

theorem State.RegsButEvents.mono {l m : List Nat} {s t : State} (h : s.RegsButEvents l t) (hlm : l ⊆ m) : s.RegsButEvents m t :=
  fun a ha he => h a (fun hl => ha (hlm hl)) he

theorem State.RegsButEvents.event {l : List Nat} {s t : State} (h : s.RegsButEvents l t) (id d e : Nat) :
    s.RegsButEvents l (t.event id d e) := h.only (t.event_only id d e)

theorem State.RegsButEvents.actEvent {l : List Nat} {s t : State} (h : s.RegsButEvents l t) (n : Fin 4) (o d e : Nat) :
    s.RegsButEvents l (t.actEvent n o d e) := h.only (t.actEvent_only n o d e)

theorem State.regsBut_setFld (s : State) (a : Nat) (f : Fld) (v : Nat) : s.RegsBut [a] (s.setFld a f v) :=
  (State.RegsBut.refl _ s).setFld f v (List.mem_singleton_self a)

theorem State.regsBut_setFlag (s : State) (a : Nat) (f : Fld) (v : Bool) : s.RegsBut [a] (s.setFlag a f v) :=
  s.regsBut_setFld a f _

end Sys2Proof.Machine
end

section
/-! What the channel's error report changes (R102): its three registers, those of an event, the code posted to the sector in hand and the list of
erased sectors. -/

namespace Sys2Proof.Machine

open Sys2Proof

theorem State.RegsBut.fld {l : List Nat} {s t : State} (h : s.RegsBut l t) {a : Nat} (f : Fld) (ha : a ∉ l) : t.fld a f = s.fld a f := by
  rw [State.fld, h a ha, State.fld]

theorem State.RegsBut.flag {l : List Nat} {s t : State} (h : s.RegsBut l t) {a : Nat} (f : Fld) (ha : a ∉ l) : t.flag a f = s.flag a f := by
  rw [State.flag, h.fld f ha, State.flag]

theorem State.RegsButEvents.fld {l : List Nat} {s t : State} (h : s.RegsButEvents l t) {a : Nat} (f : Fld) (ha : a ∉ l)
    (he : ¬EventReg a) : t.fld a f = s.fld a f := by
  rw [State.fld, h a ha he, State.fld]

theorem State.RegsButEvents.flag {l : List Nat} {s t : State} (h : s.RegsButEvents l t) {a : Nat} (f : Fld) (ha : a ∉ l)
    (he : ¬EventReg a) : t.flag a f = s.flag a f := by
  rw [State.flag, h.fld f ha he, State.flag]

/-- The registers of actuator a in which the channel reports an error. -/
def errRegs (a : Fin 4) : List Nat := [Adr.CHN_ERR a, Adr.CHN_ERRLOC0 a, Adr.CHN_ERRLOC1 a]

/-! ## chanError -/

theorem State.chanError_regs (s : State) (a : Fin 4) (code wh : Nat) (b : Bool) (h t n : Nat) :
    s.RegsButEvents (errRegs a) (s.chanError a code wh b h t n) := by
  unfold State.chanError
  refine .actEvent ?_ _ _ _ _
  exact (((((State.RegsButEvents.refl _ s).setReg _ (by simp [errRegs])).setFld _ _ (by simp [errRegs])).setFld _ _ (by simp [errRegs])).setFld
    _ _ (by simp [errRegs])).setFld _ _ (by simp [errRegs])

theorem State.chanError_takeEvents (s : State) (a : Fin 4) (code wh : Nat) (b : Bool) (h t n : Nat) :
    s.chanError a code wh b h t n = s.takeEvents (s.chanError a code wh b h t n) := by
  unfold State.chanError
  rw [(State.actEvent_only _ _ _ _ _).takeEvents]
  rfl

@[simp] theorem State.chanError_acts (s : State) (a : Fin 4) (code wh : Nat) (b : Bool) (h t n : Nat) :
    (s.chanError a code wh b h t n).acts = s.acts := by simp [State.chanError]

@[simp] theorem State.chanError_media (s : State) (a : Fin 4) (code wh : Nat) (b : Bool) (h t n : Nat) :
    (s.chanError a code wh b h t n).media = s.media := by simp [State.chanError]

@[simp] theorem State.chanError_host (s : State) (a : Fin 4) (code wh : Nat) (b : Bool) (h t n : Nat) :
    (s.chanError a code wh b h t n).host = s.host := by simp [State.chanError]

@[simp] theorem State.chanError_now (s : State) (a : Fin 4) (code wh : Nat) (b : Bool) (h t n : Nat) :
    (s.chanError a code wh b h t n).now = s.now := by simp [State.chanError]

@[simp] theorem State.act_chanError (s : State) (a : Fin 4) (code wh : Nat) (b : Bool) (h t n : Nat) (c : Fin 4) :
    (s.chanError a code wh b h t n).act c = s.act c := by simp [State.act]

@[simp] theorem State.fld_chanError (s : State) (a : Fin 4) (code wh : Nat) (b : Bool) (h t n : Nat) {c : Nat} (f : Fld)
    (hc : c ∉ [Adr.CHN_ERR a, Adr.CHN_ERRLOC0 a, Adr.CHN_ERRLOC1 a])
    (he : ¬((0x5000000 ≤ c ∧ c < 0x5101000) ∨ c = Adr.ECC_MODE)) : (s.chanError a code wh b h t n).fld c f = s.fld c f :=
  (s.chanError_regs a code wh b h t n).fld f hc he

@[simp] theorem State.flag_chanError (s : State) (a : Fin 4) (code wh : Nat) (b : Bool) (h t n : Nat) {c : Nat} (f : Fld)
    (hc : c ∉ [Adr.CHN_ERR a, Adr.CHN_ERRLOC0 a, Adr.CHN_ERRLOC1 a])
    (he : ¬((0x5000000 ≤ c ∧ c < 0x5101000) ∨ c = Adr.ECC_MODE)) : (s.chanError a code wh b h t n).flag c f = s.flag c f :=
  (s.chanError_regs a code wh b h t n).flag f hc he

/-- The last code reported (R102). -/
theorem State.chanError_last_code (s : State) (a : Fin 4) {code : Nat} (wh : Nat) (b : Bool) (h t n : Nat) (hc : code < 8) :
    (s.chanError a code wh b h t n).fld (Adr.CHN_ERR a) Fld.CHN_ERR_last_code = code := by
  have hw : code % 2 ^ Fld.CHN_ERR_last_code.width = code := Nat.mod_eq_of_lt hc
  have hok : Fld.CHN_ERR_last_code.Ok := ⟨by decide, by decide⟩
  simp (disch := decide +revert) only [State.chanError, State.fld_actEvent, State.fld_setFld_ne, State.fld_setReg_same]
  rw [getBits_setBits_other _ _ _ _ hok (by decide), getBits_setBits_other _ _ _ _ hok (by decide), getBits_setBits_same _ _ _ hok, hw]

/-! ## erase -/

@[simp] theorem State.act_erase (s : State) (x : Nat) (a : Fin 4) : (s.erase x).act a = s.act a := by
  unfold State.erase
  split <;> rfl

@[simp] theorem State.fld_erase (s : State) (x c : Nat) (f : Fld) : (s.erase x).fld c f = s.fld c f := by
  unfold State.erase
  split <;> rfl

/-- Only the list of erased sectors changes. -/
theorem State.erase_only (s : State) (x : Nat) : s.erase x = { s with media := { s.media with erased := (s.erase x).media.erased } } := by
  unfold State.erase
  split <;> rfl

theorem State.mem_erased_erase (s : State) (x : Nat) : ∃ e ∈ (s.erase x).media.erased, e.media = x := by
  unfold State.erase
  split
  next h => simpa using h
  next => exact ⟨_, List.mem_append_right _ (List.mem_singleton_self _), rfl⟩

/-! ## sectorError -/

/-- What sectorError may change of state s: t is s but for registers, what an event changes, the codes of the entries of actuator a's list, and
the list of erased sectors. -/
structure SectorErrorOnly (s : State) (a : Fin 4) (t : State) : Prop where
  regs : s.RegsButEvents (errRegs a) t
  rest : t = { s.takeEvents t with acts := t.acts, media := { s.media with erased := t.media.erased } }
  acts : s.ActsBut a t
  slice : t.act a = { s.act a with seq := { (s.act a).seq with list := (t.act a).seq.list } }

theorem SectorErrorOnly.of_chanError (s : State) (a : Fin 4) (code wh : Nat) (b : Bool) (h t n : Nat) :
    SectorErrorOnly s a (s.chanError a code wh b h t n) where
  regs := s.chanError_regs a code wh b h t n
  rest := (s.chanError_takeEvents a code wh b h t n).trans (by rw [s.chanError_takeEvents]; rfl)
  acts := (State.ActsBut.refl a s).same (by simp)
  slice := by simp

theorem SectorErrorOnly.post {s t : State} {a : Fin 4} (h : SectorErrorOnly s a t) (i code now : Nat) :
    SectorErrorOnly s a (t.modSeq a (fun q => q.post i code now)) where
  regs := h.regs.modSeq a _
  rest := by
    conv => lhs; rw [h.rest]
    rfl
  acts := h.acts.modSeq _
  slice := by
    rw [State.act_modSeq_same, h.slice]
    rfl

theorem SectorErrorOnly.erase {s t : State} {a : Fin 4} (h : SectorErrorOnly s a t) (x : Nat) : SectorErrorOnly s a (t.erase x) where
  regs := h.regs.same (by rw [t.erase_only])
  rest := by
    obtain ⟨l, hl⟩ : ∃ l, t.erase x = { t with media := { t.media with erased := l } } := ⟨_, t.erase_only x⟩
    rw [hl]
    conv => lhs; rw [h.rest]
    rfl
  acts := h.acts.same (by rw [t.erase_only])
  slice := by simpa using h.slice

theorem State.sectorError_only (s : State) (a : Fin 4) (code wh : Nat) : SectorErrorOnly s a (s.sectorError a code wh) := by
  unfold State.sectorError
  dsimp only
  split
  · split
    · exact ((SectorErrorOnly.of_chanError s a _ _ _ _ _ _).post _ _ _).erase _
    · exact (SectorErrorOnly.of_chanError s a _ _ _ _ _ _).post _ _ _
  · exact .of_chanError s a _ _ _ _ _ _

@[simp] theorem State.fld_sectorError (s : State) (a : Fin 4) (code wh : Nat) {c : Nat} (f : Fld)
    (hc : c ∉ [Adr.CHN_ERR a, Adr.CHN_ERRLOC0 a, Adr.CHN_ERRLOC1 a])
    (he : ¬((0x5000000 ≤ c ∧ c < 0x5101000) ∨ c = Adr.ECC_MODE)) : (s.sectorError a code wh).fld c f = s.fld c f :=
  (s.sectorError_only a code wh).regs.fld f hc he

@[simp] theorem State.flag_sectorError (s : State) (a : Fin 4) (code wh : Nat) {c : Nat} (f : Fld)
    (hc : c ∉ [Adr.CHN_ERR a, Adr.CHN_ERRLOC0 a, Adr.CHN_ERRLOC1 a])
    (he : ¬((0x5000000 ≤ c ∧ c < 0x5101000) ∨ c = Adr.ECC_MODE)) : (s.sectorError a code wh).flag c f = s.flag c f :=
  (s.sectorError_only a code wh).regs.flag f hc he

@[simp] theorem State.sectorError_batten (s : State) (a : Fin 4) (code wh : Nat) :
    ((s.sectorError a code wh).act a).batten = (s.act a).batten := by
  rw [(s.sectorError_only a code wh).slice]

@[simp] theorem State.sectorError_host (s : State) (a : Fin 4) (code wh : Nat) : (s.sectorError a code wh).host = s.host := by
  rw [(s.sectorError_only a code wh).rest]
  rfl

@[simp] theorem State.sectorError_stopAtFragment (s : State) (a : Fin 4) (code wh : Nat) :
    ((s.sectorError a code wh).act a).seq.stopAtFragment = (s.act a).seq.stopAtFragment := by
  rw [(s.sectorError_only a code wh).slice]

end Sys2Proof.Machine
end

section
/-! The channel's clock (R93 to R97): the rows of CLOCK_ACQUIRED, HOLD_TIMEOUT, PREDICTED_RAFTER_START, BURST_PHASE_CHECK, RAFTER_SYNC_CHECK and
REACQ_CHECK. -/

namespace Sys2Proof.Machine

open Sys2Proof

@[simp] theorem State.clock_setClock_one (s : State) (a : Fin 4) : (s.setClock a 1).clock a = 1 := s.clock_setClock a 1

@[simp] theorem State.clock_setClock_zero (s : State) (a : Fin 4) : (s.setClock a 0).clock a = 0 := s.clock_setClock a 0

@[simp] theorem State.clock_setClock_two (s : State) (a : Fin 4) : (s.setClock a 2).clock a = 2 := s.clock_setClock a 2

theorem State.setClock_regsBut (s : State) (a : Fin 4) (c : Nat) : s.RegsBut [Adr.BTN_CLK a] (s.setClock a c) := s.regsBut_setFld _ _ _

@[simp] theorem State.act_setClock (s : State) (a : Fin 4) (c : Nat) (b : Fin 4) : (s.setClock a c).act b = s.act b := rfl

/-! ## What keeps the clock's state, and forbids the interval -/

@[simp] theorem State.clock_forbidInterval (s : State) (a : Fin 4) : (s.forbidInterval a).clock a = s.clock a := by
  simp (disch := (generalize a = b; decide +revert)) [State.clock, State.forbidInterval, State.modBatten]

@[simp] theorem State.clock_sectorError (s : State) (a : Fin 4) (code wh : Nat) : (s.sectorError a code wh).clock a = s.clock a := by
  simp (disch := (generalize a = b; decide +revert)) [State.clock]

@[simp] theorem State.wg_permit_forbidInterval (s : State) (a : Fin 4) :
    (s.forbidInterval a).flag (Adr.BTN_CLK a) Fld.BTN_CLK_wg_permit = false := by
  simp (disch := (generalize a = b; decide +revert)) [State.forbidInterval, State.modBatten]

@[simp] theorem State.act_forbidInterval (s : State) (a : Fin 4) :
    (s.forbidInterval a).act a = { s.act a with batten := { (s.act a).batten with noPermit := true } } := by
  simp [State.forbidInterval]

theorem State.ActsBut.forbidInterval {a : Fin 4} {s t : State} (h : s.ActsBut a t) : s.ActsBut a (t.forbidInterval a) :=
  (h.setFlag _ _ _).modBatten _

theorem State.RegsBut.forbidInterval {l : List Nat} {s t : State} (h : s.RegsBut l t) {a : Fin 4} (ha : Adr.BTN_CLK a ∈ l) :
    s.RegsBut l (t.forbidInterval a) := (h.setFlag _ _ ha).modBatten a _

theorem State.RegsBut.dropGate {l : List Nat} {s t : State} (h : s.RegsBut l t) {a : Fin 4} (ha : Adr.CHN_STATUS a ∈ l) :
    s.RegsBut l (t.dropGate a) := ((h.setFlag _ _ ha).setFlag _ _ ha).modAct a _

theorem State.ActsBut.dropGate {a : Fin 4} {s t : State} (h : s.ActsBut a t) : s.ActsBut a (t.dropGate a) :=
  ((h.setFlag _ _ _).setFlag _ _ _).modAct _

@[simp] theorem State.act_dropGate (s : State) (a : Fin 4) : (s.dropGate a).act a = { s.act a with gate := none } := by
  simp [State.dropGate]

/-! ## PREDICTED_RAFTER_START -/

/-- What the start of a predicted rafter sets before a zone change applies (R93 to R95). -/
def State.startRafter (s : State) (a : Fin 4) : State :=
  let s1 := if s.clock a = 1 ∨ s.clock a = 3 then (s.dropGate a).setClock a 2 else s.dropGate a
  (s1.setFlag (Adr.BTN_CLK a) Fld.BTN_CLK_wg_permit false).modBatten a (fun b =>
    { b with index := (b.index + 1) % 128, noPermit := false, accepted := false, zoneMove := none, cell := 0 })

theorem exec_predictedRafterStart_of_none {s : State} {a : Fin 4} (h : (s.act a).batten.zoneMove = none) :
    exec (.predictedRafterStart a) s = .next (s.startRafter a) := by
  change execPredictedRafterStart a s = _
  simp only [execPredictedRafterStart, h]
  rfl

theorem exec_predictedRafterStart_of_some {s : State} {a : Fin 4} {z : Nat} (h : (s.act a).batten.zoneMove = some z) :
    exec (.predictedRafterStart a) s = .next ((s.startRafter a).enterZone a z) := by
  change execPredictedRafterStart a s = _
  simp only [execPredictedRafterStart, h]
  rfl

theorem State.startRafter_clock (s : State) (a : Fin 4) :
    (s.startRafter a).clock a = if s.clock a = 1 ∨ s.clock a = 3 then 2 else s.clock a := by
  unfold State.startRafter
  split <;> simp -implicitDefEqProofs (disch := (generalize a = b; decide +revert)) [State.clock, State.setClock, State.modBatten, State.dropGate, Fld.width,
    Fld.BTN_CLK_state]

theorem State.startRafter_wg_pin (s : State) (a : Fin 4) :
    (s.startRafter a).flag (Adr.CHN_STATUS a) Fld.CHN_STATUS_wg_pin = false := by
  unfold State.startRafter
  split <;> simp -implicitDefEqProofs (disch := (generalize a = b; decide +revert)) [State.setClock, State.modBatten, State.dropGate]

theorem State.startRafter_wg_permit (s : State) (a : Fin 4) :
    (s.startRafter a).flag (Adr.BTN_CLK a) Fld.BTN_CLK_wg_permit = false := by
  simp (disch := (generalize a = b; decide +revert)) [State.startRafter, State.modBatten]

theorem State.startRafter_slice (s : State) (a : Fin 4) :
    (s.startRafter a).act a = { s.act a with
      gate := none
      batten := { (s.act a).batten with
        index := ((s.act a).batten.index + 1) % 128, noPermit := false, accepted := false, zoneMove := none, cell := 0 } } := by
  unfold State.startRafter
  split <;> simp -implicitDefEqProofs

theorem State.startRafter_actsBut (s : State) (a : Fin 4) : s.ActsBut a (s.startRafter a) := by
  have hgate := (State.ActsBut.refl a s).dropGate
  exact ((State.ActsBut.ite (hgate.setFld _ _ _) hgate).setFlag _ _ _).modBatten _

theorem State.startRafter_regsBut (s : State) (a : Fin 4) : s.RegsBut [Adr.BTN_CLK a, Adr.CHN_STATUS a] (s.startRafter a) := by
  have hgate := (State.RegsBut.refl [Adr.BTN_CLK a, Adr.CHN_STATUS a] s).dropGate (a := a) (by simp)
  exact ((State.RegsBut.ite (hgate.setClock 2 (by simp)) hgate).setFlag _ _ (by simp)).modBatten a _

theorem State.startRafter_of_locked {s : State} {a : Fin 4} (h : s.clock a = 1 ∨ s.clock a = 3) :
    s.startRafter a = ((((s.dropGate a).setClock a 2).setFlag (Adr.BTN_CLK a) Fld.BTN_CLK_wg_permit false).modBatten a (fun b =>
      { b with index := (b.index + 1) % 128, noPermit := false, accepted := false, zoneMove := none, cell := 0 })) := by
  simp only [State.startRafter, h, if_true]

theorem State.startRafter_of_unlocked {s : State} {a : Fin 4} (h : ¬(s.clock a = 1 ∨ s.clock a = 3)) :
    s.startRafter a = (((s.dropGate a).setFlag (Adr.BTN_CLK a) Fld.BTN_CLK_wg_permit false).modBatten a (fun b =>
      { b with index := (b.index + 1) % 128, noPermit := false, accepted := false, zoneMove := none, cell := 0 })) := by
  simp only [State.startRafter, h, if_false]

theorem State.startRafter_regs_acts_only (s : State) (a : Fin 4) :
    s.startRafter a = { s with regs := (s.startRafter a).regs, acts := (s.startRafter a).acts } := by
  by_cases h : s.clock a = 1 ∨ s.clock a = 3
  · rw [State.startRafter_of_locked h]
    rfl
  · rw [State.startRafter_of_unlocked h]
    rfl

/-- The zone entered is shown, in the width of its field (R98). -/
@[simp] theorem State.enterZone_zone (s : State) (a : Fin 4) (z : Nat) :
    (s.enterZone a z).fld (Adr.CHN_STATUS a) Fld.CHN_STATUS_zone = z % 2 ^ Fld.CHN_STATUS_zone.width := by
  unfold State.enterZone
  extract_lets s1 c clamped s2
  split <;> simp (disch := (generalize a = b; decide +revert)) [s2, s1]

@[simp] theorem State.act_enterZone (s : State) (a : Fin 4) (z : Nat) (b : Fin 4) : (s.enterZone a z).act b = s.act b := by
  unfold State.enterZone
  extract_lets s1 c clamped s2
  split <;> simp [s2, s1]

/-! ## BURST_PHASE_CHECK and RAFTER_SYNC_CHECK -/

theorem exec_burstPhaseCheck_of_small {s : State} {a : Fin 4} {err : Int}
    (herr : err.natAbs ≤ s.fld (Adr.BTN_CTRL a) Fld.BTN_CTRL_hold_err_max) (hacc : (s.act a).batten.accepted = true) :
    exec (.burstPhaseCheck a err) s = .next (((s.setSFld (Adr.BTN_CLK a) Fld.BTN_CLK_last_err err).setFlag (Adr.BTN_CLK a)
      Fld.BTN_CLK_wg_permit (!(s.act a).batten.noPermit)).modBatten a (fun b => { b with clockFix := err })) :=
  if_pos ⟨herr, hacc⟩

theorem exec_burstPhaseCheck_of_large {s : State} {a : Fin 4} {err : Int}
    (h : s.fld (Adr.BTN_CTRL a) Fld.BTN_CTRL_hold_err_max < err.natAbs ∨ (s.act a).batten.accepted = false) :
    exec (.burstPhaseCheck a err) s =
      .next (((s.setSFld (Adr.BTN_CLK a) Fld.BTN_CLK_last_err err).setClock a 0).forbidInterval a) := by
  refine if_neg fun ⟨herr, hacc⟩ => h.elim (fun hlt => by omega) fun hnot => ?_
  simp [hacc] at hnot

/-- The state in which a slip is reported: the count takes its due value, the clock is lost and the interval forbidden (R94). -/
def State.slipped (s : State) (a : Fin 4) : State :=
  (((s.modBatten a (fun b => { b with cell := s.cellsPerRev a / 25600 })).setFlag (Adr.BTN_CLK a) Fld.BTN_CLK_slip true).setClock a 0).forbidInterval a

theorem exec_rafterSyncCheck_of_slip {s : State} {a : Fin 4} {n : Nat} (h : n ≠ s.cellsPerRev a / 25600) :
    exec (.rafterSyncCheck a n) s = .next ((s.slipped a).sectorError a 5 2) := if_neg h

/-- The state in which REACQ_CHECK reports a large difference: the clock is lost, and a part that is written ends with its fragment (R96). -/
def State.reacqLost (s : State) (a : Fin 4) : State :=
  ((s.setClock a 0).forbidInterval a).modSeq a (fun q => { q with
    stopAtFragment := q.stopAtFragment || (q.running.elim false fun o => o.op == 4 && o.started) })

theorem exec_reacqCheck_of_large {s : State} {a : Fin 4} {d : Int} (h : s.fld (Adr.BTN_CTRL a) Fld.BTN_CTRL_hold_err_max < d.natAbs) :
    exec (.reacqCheck a d) s = .next ((s.reacqLost a).sectorError a 5 3) := by
  refine (if_pos h).trans ?_
  congr 3
  funext q
  cases q.running <;> rfl

theorem exec_reacqCheck_of_small {s : State} {a : Fin 4} {d : Int} (h : d.natAbs ≤ s.fld (Adr.BTN_CTRL a) Fld.BTN_CTRL_hold_err_max)
    (hclk : s.clock a = 2) : exec (.reacqCheck a d) s = .next (s.setClock a 1) :=
  (if_neg (Nat.not_lt.2 h)).trans (if_pos hclk)

/-- Settles O2: each row's state is named above with what it sets; the frames are those of the stores it makes. -/
theorem channelClockMoves : Obligations.ChannelClockMoves := by
  unfold Obligations.ChannelClockMoves
  intro a s
  refine ⟨fun hlost hdue => ?_, fun _ hwait => ?_, fun hhold => ?_, fun hnone => ?_, fun z hz => ?_, fun err herr hacc => ?_,
    fun err h => ?_, fun n hn => ?_, fun n hn => ?_, fun d hd hclk => ?_, fun d hd => ?_⟩
  · exact ⟨_, if_pos ⟨hlost, hdue⟩, s.clock_setClock a 1, rfl, s.setClock_regsBut a 1⟩
  · exact if_neg fun h => absurd h.2 (Nat.not_le.2 hwait)
  · exact ⟨_, if_pos hhold, s.clock_setClock a 0, rfl, s.setClock_regsBut a 0⟩
  · refine ⟨_, exec_predictedRafterStart_of_none hnone, s.startRafter_clock a, s.startRafter_wg_permit a, s.startRafter_wg_pin a, ?_, ?_, ?_, ?_, ?_,
      s.startRafter_actsBut a, s.startRafter_regs_acts_only a, s.startRafter_regsBut a⟩
    all_goals rw [s.startRafter_slice a]
  · refine ⟨_, exec_predictedRafterStart_of_some hz, State.enterZone_zone _ a z, ?_⟩
    rw [State.act_enterZone, s.startRafter_slice a]
  · refine ⟨_, exec_burstPhaseCheck_of_small herr hacc, ?_, ?_, by simp, (((State.ActsBut.refl a s).setSFld _ _ _).setFlag _ _ _).modBatten _, rfl, ?_⟩
    · simp (disch := (generalize a = b; decide +revert)) [State.modBatten]
    · simp (disch := (generalize a = b; decide +revert)) [State.clock, State.modBatten]
    · exact (((State.RegsBut.refl _ s).setSFld _ _ (by simp)).setFlag _ _ (by simp)).modBatten a _
  · refine ⟨_, exec_burstPhaseCheck_of_large h, by simp, by simp, by simp, (((State.ActsBut.refl a s).setSFld _ _ _).setFld _ _ _).forbidInterval, rfl, ?_⟩
    exact (((State.RegsBut.refl _ s).setSFld _ _ (by simp)).setClock 0 (by simp)).forbidInterval (by simp)
  · have hreport := (s.slipped a).sectorError_only a 5 2
    refine ⟨_, exec_rafterSyncCheck_of_slip hn, by simp [State.slipped], ?_, ?_, by simp [State.slipped], by simp [State.slipped], ?_⟩
    · simp (disch := (generalize a = b; decide +revert)) [State.slipped, State.setClock, State.forbidInterval, State.modBatten]
    · simp (disch := (generalize a = b; decide +revert)) [State.slipped]
    · refine State.RegsButEvents.trans (t := s.slipped a) ?_ (hreport.regs.mono (by simp [errRegs]))
      exact (((((State.RegsBut.refl _ s).modBatten a _).setFlag _ _ (by simp)).setClock 0 (by simp)).forbidInterval (by simp)).events
  · subst hn
    exact ⟨_, if_pos rfl, by simp, (State.ActsBut.refl a s).modBatten _, rfl⟩
  · exact ⟨_, exec_reacqCheck_of_small hd hclk, s.clock_setClock a 1, rfl, s.setClock_regsBut a 1⟩
  · refine ⟨_, exec_reacqCheck_of_large hd, ?_, by simp [State.reacqLost], fun o ho hop hstart => ?_⟩
    · simp (disch := (generalize a = b; decide +revert)) [State.reacqLost, State.clock, State.modSeq, State.setClock, State.forbidInterval, State.modBatten]
    · simp [State.reacqLost, ho, hop, hstart]

end Sys2Proof.Machine
end

section
/-! A step that stays within one actuator's slice: it changes some registers and that actuator, with or without events, and nothing else. The two
frames are closed under the stores and the shared operations of a slice, so that an operation's frame is read off its definition. -/

namespace Sys2Proof.Machine

open Sys2Proof

/-- From s to t only registers of a list and the slice of actuator a change. -/
structure SliceFrame (a : Fin 4) (l : List Nat) (s t : State) : Prop where
  regs : s.RegsBut l t
  acts : s.ActsBut a t
  rest : t = { s with regs := t.regs, acts := t.acts }

/-- From s to t only registers of a list, the slice of actuator a and what events change are changed. -/
structure SliceEvents (a : Fin 4) (l : List Nat) (s t : State) : Prop where
  regs : s.RegsButEvents l t
  acts : s.ActsBut a t
  rest : t = { s.takeEvents t with acts := t.acts }

namespace SliceFrame

variable {a : Fin 4} {l : List Nat} {s t u : State}

theorem refl (a : Fin 4) (l : List Nat) (s : State) : SliceFrame a l s s := ⟨.refl l s, .refl a s, rfl⟩

theorem trans (h : SliceFrame a l s t) (k : SliceFrame a l t u) : SliceFrame a l s u :=
  ⟨h.regs.trans k.regs, h.acts.trans k.acts, by
    conv => lhs; rw [k.rest, h.rest]⟩

theorem mono {m : List Nat} (h : SliceFrame a l s t) (hlm : l ⊆ m) : SliceFrame a m s t := ⟨h.regs.mono hlm, h.acts, h.rest⟩

theorem modAct (h : SliceFrame a l s t) (f : Act → Act) : SliceFrame a l s (t.modAct a f) :=
  ⟨h.regs.modAct a f, h.acts.modAct f, by
    conv => lhs; rw [h.rest]
    rfl⟩

theorem modSeq (h : SliceFrame a l s t) (f : Sequencer → Sequencer) : SliceFrame a l s (t.modSeq a f) := h.modAct _

theorem modBatten (h : SliceFrame a l s t) (f : Batten → Batten) : SliceFrame a l s (t.modBatten a f) := h.modAct _

theorem modServo (h : SliceFrame a l s t) (f : Servo → Servo) : SliceFrame a l s (t.modServo a f) := h.modAct _

theorem setReg (h : SliceFrame a l s t) {r : Nat} (v : Word) (hr : r ∈ l) : SliceFrame a l s (t.setReg r v) :=
  ⟨h.regs.setReg v hr, h.acts.setReg r v, by
    conv => lhs; rw [h.rest]
    rfl⟩

theorem setFld (h : SliceFrame a l s t) {r : Nat} (f : Fld) (v : Nat) (hr : r ∈ l) : SliceFrame a l s (t.setFld r f v) := h.setReg _ hr

theorem setFlag (h : SliceFrame a l s t) {r : Nat} (f : Fld) (v : Bool) (hr : r ∈ l) : SliceFrame a l s (t.setFlag r f v) := h.setReg _ hr

theorem setSFld (h : SliceFrame a l s t) {r : Nat} (f : Fld) (v : Int) (hr : r ∈ l) : SliceFrame a l s (t.setSFld r f v) := h.setReg _ hr

theorem countFld (h : SliceFrame a l s t) {r : Nat} (f : Fld) (hr : r ∈ l) : SliceFrame a l s (t.countFld r f) := h.setReg _ hr

theorem ite {p : Prop} [Decidable p] (h : SliceFrame a l s t) (k : SliceFrame a l s u) : SliceFrame a l s (if p then t else u) := by
  split
  · exact h
  · exact k

theorem media (h : SliceFrame a l s t) : t.media = s.media := by
  rw [h.rest]

theorem host (h : SliceFrame a l s t) : t.host = s.host := by
  rw [h.rest]

theorem now (h : SliceFrame a l s t) : t.now = s.now := by
  rw [h.rest]

theorem fld (h : SliceFrame a l s t) {r : Nat} (f : Fld) (hr : r ∉ l) : t.fld r f = s.fld r f := h.regs.fld f hr

theorem flag (h : SliceFrame a l s t) {r : Nat} (f : Fld) (hr : r ∉ l) : t.flag r f = s.flag r f := h.regs.flag f hr

theorem setClock (h : SliceFrame a l s t) (c : Nat) (hr : Adr.BTN_CLK a ∈ l) : SliceFrame a l s (t.setClock a c) := h.setFld _ _ hr

theorem forbidInterval (h : SliceFrame a l s t) (hr : Adr.BTN_CLK a ∈ l) : SliceFrame a l s (t.forbidInterval a) :=
  (h.setFlag _ _ hr).modBatten _

theorem dropGate (h : SliceFrame a l s t) (hr : Adr.CHN_STATUS a ∈ l) : SliceFrame a l s (t.dropGate a) :=
  ((h.setFlag _ _ hr).setFlag _ _ hr).modAct _

theorem latchCond (h : SliceFrame a l s t) (k : Nat) : SliceFrame a l s (t.latchCond a k) := h.modSeq _

theorem setMode (h : SliceFrame a l s t) (m : Nat) (hr : Adr.SRV_STATUS a ∈ l) : SliceFrame a l s (t.setMode a m) := h.setFld _ _ hr

theorem noPermit (h : SliceFrame a l s t) (hr : Adr.SRV_STATUS a ∈ l) : SliceFrame a l s (t.noPermit a) := h.setFlag _ _ hr

theorem unsettle (h : SliceFrame a l s t) (hr : Adr.SRV_STATUS a ∈ l) : SliceFrame a l s (t.unsettle a) := (h.setFlag _ _ hr).modServo _

theorem requestAbort (h : SliceFrame a l s t) (hr : Adr.FSQ_STATUS a ∈ l) : SliceFrame a l s (t.requestAbort a) := h.setFlag _ _ hr

theorem endMediaOps (h : SliceFrame a l s t) (hr : Adr.FSQ_STATUS a ∈ l) : SliceFrame a l s (t.endMediaOps a) := (h.requestAbort hr).modAct _

end SliceFrame

theorem SliceFrame.events {a : Fin 4} {l : List Nat} {s t : State} (h : SliceFrame a l s t) : SliceEvents a l s t :=
  ⟨h.regs.events, h.acts, by
    conv => lhs; rw [h.rest]
    conv => rhs; rw [h.rest]
    rfl⟩

namespace SliceEvents

variable {a : Fin 4} {l : List Nat} {s t u : State}

theorem refl (a : Fin 4) (l : List Nat) (s : State) : SliceEvents a l s s := (SliceFrame.refl a l s).events

theorem trans (h : SliceEvents a l s t) (k : SliceEvents a l t u) : SliceEvents a l s u :=
  ⟨h.regs.trans k.regs, h.acts.trans k.acts, by
    conv => lhs; rw [k.rest, h.rest]
    rfl⟩

theorem mono {m : List Nat} (h : SliceEvents a l s t) (hlm : l ⊆ m) : SliceEvents a m s t := ⟨h.regs.mono hlm, h.acts, h.rest⟩

/-- A step within the slice follows. -/
theorem frame (h : SliceEvents a l s t) (k : SliceFrame a l t u) : SliceEvents a l s u := h.trans k.events

theorem modAct (h : SliceEvents a l s t) (f : Act → Act) : SliceEvents a l s (t.modAct a f) := h.frame ((SliceFrame.refl a l t).modAct f)

theorem modSeq (h : SliceEvents a l s t) (f : Sequencer → Sequencer) : SliceEvents a l s (t.modSeq a f) := h.modAct _

theorem modBatten (h : SliceEvents a l s t) (f : Batten → Batten) : SliceEvents a l s (t.modBatten a f) := h.modAct _

theorem modServo (h : SliceEvents a l s t) (f : Servo → Servo) : SliceEvents a l s (t.modServo a f) := h.modAct _

theorem setReg (h : SliceEvents a l s t) {r : Nat} (v : Word) (hr : r ∈ l) : SliceEvents a l s (t.setReg r v) :=
  h.frame ((SliceFrame.refl a l t).setReg v hr)

theorem setFld (h : SliceEvents a l s t) {r : Nat} (f : Fld) (v : Nat) (hr : r ∈ l) : SliceEvents a l s (t.setFld r f v) := h.setReg _ hr

theorem setFlag (h : SliceEvents a l s t) {r : Nat} (f : Fld) (v : Bool) (hr : r ∈ l) : SliceEvents a l s (t.setFlag r f v) := h.setReg _ hr

theorem setSFld (h : SliceEvents a l s t) {r : Nat} (f : Fld) (v : Int) (hr : r ∈ l) : SliceEvents a l s (t.setSFld r f v) := h.setReg _ hr

theorem countFld (h : SliceEvents a l s t) {r : Nat} (f : Fld) (hr : r ∈ l) : SliceEvents a l s (t.countFld r f) := h.setReg _ hr

/-- A recorded event stays within every slice. -/
theorem only (h : SliceEvents a l s t) (k : EventOnly t u) (hacts : u.acts = t.acts) : SliceEvents a l s u :=
  ⟨h.regs.only k, h.acts.same hacts, by
    conv => lhs; rw [k.takeEvents, h.rest]
    rw [hacts]
    rfl⟩

theorem event (h : SliceEvents a l s t) (id d e : Nat) : SliceEvents a l s (t.event id d e) := h.only (t.event_only id d e) (t.event_acts id d e)

theorem actEvent (h : SliceEvents a l s t) (n : Fin 4) (o d e : Nat) : SliceEvents a l s (t.actEvent n o d e) :=
  h.only (t.actEvent_only n o d e) (t.actEvent_acts n o d e)

theorem ite {p : Prop} [Decidable p] (h : SliceEvents a l s t) (k : SliceEvents a l s u) : SliceEvents a l s (if p then t else u) := by
  split
  · exact h
  · exact k

theorem media (h : SliceEvents a l s t) : t.media = s.media := by
  rw [h.rest]
  rfl

theorem host (h : SliceEvents a l s t) : t.host = s.host := by
  rw [h.rest]
  rfl

theorem now (h : SliceEvents a l s t) : t.now = s.now := by
  rw [h.rest]
  rfl

theorem fld (h : SliceEvents a l s t) {r : Nat} (f : Fld) (hr : r ∉ l) (he : ¬((0x5000000 ≤ r ∧ r < 0x5101000) ∨ r = Adr.ECC_MODE)) :
    t.fld r f = s.fld r f := h.regs.fld f hr he

theorem flag (h : SliceEvents a l s t) {r : Nat} (f : Fld) (hr : r ∉ l) (he : ¬((0x5000000 ≤ r ∧ r < 0x5101000) ∨ r = Adr.ECC_MODE)) :
    t.flag r f = s.flag r f := h.regs.flag f hr he

theorem chanError (h : SliceEvents a l s t) (code wh : Nat) (b : Bool) (hd tr sec : Nat) (hl : errRegs a ⊆ l) :
    SliceEvents a l s (t.chanError a code wh b hd tr sec) := by
  have hmem : ∀ r ∈ errRegs a, r ∈ l := hl
  simp only [errRegs, List.mem_cons, List.not_mem_nil, or_false, forall_eq_or_imp, forall_eq] at hmem
  obtain ⟨herr, hloc0, hloc1⟩ := hmem
  unfold State.chanError
  exact (((((h.setReg _ herr).setFld _ _ hloc0).setFld _ _ hloc0).setFld _ _ hloc1).setFld _ _ hloc1).actEvent _ _ _ _

end SliceEvents

end Sys2Proof.Machine
end

section
/-! The loop's shared operations (R98 to R100, R134 to R149): the registers each may change, and what it leaves in the slice. -/

namespace Sys2Proof.Machine

open Sys2Proof

@[simp] theorem State.act_latchCond_batten (s : State) (a : Fin 4) (k : Nat) : ((s.latchCond a k).act a).batten = (s.act a).batten := by
  simp [State.latchCond]

/-! ## Zones, windows and the equaliser -/

@[simp] theorem State.acts_enterZone (s : State) (a : Fin 4) (z : Nat) : (s.enterZone a z).acts = s.acts := by
  unfold State.enterZone
  extract_lets s1 c clamped s2
  split <;> simp [s2, s1]

theorem State.enterZone_frame (s : State) (a : Fin 4) (z : Nat) : SliceEvents a [Adr.CHN_STATUS a] s (s.enterZone a z) := by
  have hset := (SliceEvents.refl a [Adr.CHN_STATUS a] s).setFld Fld.CHN_STATUS_zone z (r := Adr.CHN_STATUS a) (by simp)
  unfold State.enterZone
  exact .ite ((hset.setFlag _ _ (by simp)).actEvent _ _ _ _) (hset.setFlag _ _ (by simp))

theorem State.openWindow_frame (s : State) (a : Fin 4) (c n : Nat) :
    SliceFrame a [Adr.BTN_INVAL a, Adr.BTN_POS a] s (s.openWindow a c n) := by
  unfold State.openWindow
  exact ((((SliceFrame.refl _ _ s).modBatten _).countFld _ (by simp)).setFld _ _ (by simp)).setFld _ _ (by simp)

/-- What a window of cause c and n samples sets in the slice (R100). -/
def Batten.opened (b : Batten) (c n : Nat) : Batten :=
  let b1 := { b with order := c :: b.order.filter (· != c) }
  if c = 1 then { b1 with winHead := n } else if c = 2 then { b1 with winGain := n } else { b1 with winFilter := n }

@[simp] theorem State.act_openWindow (s : State) (a : Fin 4) (c n : Nat) :
    (s.openWindow a c n).act a = { s.act a with batten := (s.act a).batten.opened c n } := by
  simp [State.openWindow, Batten.opened]

/-- Opening a window leaves everything of the slice but the windows. -/
theorem Batten.opened_only (b : Batten) (c n : Nat) : b.opened c n = { b with
    order := (b.opened c n).order, winHead := (b.opened c n).winHead, winGain := (b.opened c n).winGain, winFilter := (b.opened c n).winFilter } := by
  unfold Batten.opened
  dsimp only
  split
  · rfl
  · split <;> rfl

@[simp] theorem Batten.opened_accepted (b : Batten) (c n : Nat) : (b.opened c n).accepted = b.accepted := by rw [b.opened_only]

@[simp] theorem Batten.opened_needRafters (b : Batten) (c n : Nat) : (b.opened c n).needRafters = b.needRafters := by rw [b.opened_only]

@[simp] theorem Batten.opened_needValid (b : Batten) (c n : Nat) : (b.opened c n).needValid = b.needValid := by rw [b.opened_only]

@[simp] theorem Batten.opened_needBoundary (b : Batten) (c n : Nat) : (b.opened c n).needBoundary = b.needBoundary := by rw [b.opened_only]

@[simp] theorem Batten.opened_gainSince (b : Batten) (c n : Nat) : (b.opened c n).gainSince = b.gainSince := by rw [b.opened_only]

theorem State.loadEqualiser_frame (s : State) (a : Fin 4) : SliceFrame a [] s (s.loadEqualiser a) := by
  unfold State.loadEqualiser
  exact (SliceFrame.refl a [] s).modAct _

@[simp] theorem State.loadEqualiser_batten (s : State) (a : Fin 4) : ((s.loadEqualiser a).act a).batten = (s.act a).batten := by
  simp [State.loadEqualiser]

@[simp] theorem State.loadEqualiser_servo (s : State) (a : Fin 4) : ((s.loadEqualiser a).act a).servo = (s.act a).servo := by
  simp [State.loadEqualiser]

/-! ## A move to a track -/

/-- The registers of actuator a that a move to a track may change (R98, R100). -/
def moveRegs (a : Fin 4) : List Nat := [Adr.SRV_TRACK a, Adr.BTN_CLK a, Adr.BTN_INVAL a, Adr.BTN_POS a, Adr.CHN_STATUS a]

theorem State.moveToTrack_frame (s : State) (a : Fin 4) (t : Nat) : SliceEvents a (moveRegs a) s (s.moveToTrack a t) := by
  have htrack : SliceFrame a (moveRegs a) s (s.setFld (Adr.SRV_TRACK a) Fld.SRV_TRACK_track t) :=
    (SliceFrame.refl a _ s).setFld _ _ (by simp [moveRegs])
  unfold State.moveToTrack
  dsimp only
  split
  · exact htrack.events
  · refine .ite (htrack.modBatten _).events (.ite (htrack.modBatten _).events ?_)
    have hclock := (htrack.setClock 0 (by simp [moveRegs])).modBatten (a := a)
    exact (((hclock _).trans ((State.openWindow_frame _ a 3 12).mono (by simp [moveRegs]))).trans
      ((State.loadEqualiser_frame _ a).mono (by simp))).events.trans ((State.enterZone_frame _ a _).mono (by simp [moveRegs]))

@[simp] theorem State.moveToTrack_servo (s : State) (a : Fin 4) (t : Nat) : ((s.moveToTrack a t).act a).servo = (s.act a).servo := by
  unfold State.moveToTrack
  dsimp only
  split
  · simp
  · split
    · simp
    · split <;> simp

@[simp] theorem State.moveToTrack_accepted (s : State) (a : Fin 4) (t : Nat) :
    ((s.moveToTrack a t).act a).batten.accepted = (s.act a).batten.accepted := by
  unfold State.moveToTrack
  dsimp only
  split
  · simp
  · split
    · simp
    · split <;> simp

/-! ## Following, seeking, re-identifying -/

theorem State.enterFollowing_frame (s : State) (a : Fin 4) (u m : Int) :
    SliceFrame a [Adr.SRV_STATUS a, Adr.MDI_SURF a] s (s.enterFollowing a u m) := by
  unfold State.enterFollowing
  exact (((((SliceFrame.refl a _ s).setMode 1 (by simp)).unsettle (by simp)).noPermit (by simp)).modServo _).setFld _ _ (by simp)

@[simp] theorem State.enterFollowing_batten (s : State) (a : Fin 4) (u m : Int) :
    ((s.enterFollowing a u m).act a).batten = (s.act a).batten := by
  simp -implicitDefEqProofs [State.enterFollowing, State.noPermit, State.unsettle, State.setMode]

theorem State.enterReident_frame (s : State) (a : Fin 4) :
    SliceFrame a [Adr.SRV_STATUS a, Adr.SRV_OUT a, Adr.SRV_STICKY a, Adr.MDI_SURF a] s (s.enterReident a) := by
  unfold State.enterReident
  exact (((((((SliceFrame.refl a _ s).setMode 3 (by simp)).noPermit (by simp)).unsettle (by simp)).modServo _).setFld _ _ (by simp)).setFlag _ _
    (by simp)).setFld _ _ (by simp)

@[simp] theorem State.enterReident_batten (s : State) (a : Fin 4) : ((s.enterReident a).act a).batten = (s.act a).batten := by
  simp -implicitDefEqProofs [State.enterReident, State.noPermit, State.unsettle, State.setMode]

@[simp] theorem State.enterReident_ended (s : State) (a : Fin 4) : ((s.enterReident a).act a).ended = (s.act a).ended := by
  simp -implicitDefEqProofs [State.enterReident, State.noPermit, State.unsettle, State.setMode]

@[simp] theorem State.enterReident_mode (s : State) (a : Fin 4) : (s.enterReident a).mode a = 3 := by
  simp -implicitDefEqProofs (disch := (generalize a = b; decide +revert)) [State.enterReident, State.noPermit, State.unsettle, State.setMode, State.mode,
    State.modServo, Fld.width, Fld.SRV_STATUS_mode]

theorem State.beginSeek_frame (s : State) (a : Fin 4) (n : Nat) :
    SliceFrame a [Adr.SRV_TARGET a, Adr.SRV_STATUS a, Adr.MDI_SURF a] s (s.beginSeek a n) := by
  have hself := SliceFrame.refl a [Adr.SRV_TARGET a, Adr.SRV_STATUS a, Adr.MDI_SURF a] s
  have htarget := hself.setFld Fld.SRV_TARGET_target n (r := Adr.SRV_TARGET a) (by simp)
  have hfollow : ∀ t : State, SliceFrame a [Adr.SRV_TARGET a, Adr.SRV_STATUS a, Adr.MDI_SURF a] t (t.enterFollowing a 0 0) :=
    fun t => (t.enterFollowing_frame a 0 0).mono (by simp)
  unfold State.beginSeek
  refine .ite (hself.modServo _) ?_
  dsimp only
  split
  · exact (((htarget.setMode 2 (by simp)).unsettle (by simp)).noPermit (by simp)).modServo _
  · exact .ite (htarget.trans (hfollow _)) htarget
  · exact .ite ((hself.modServo _).trans (hfollow _)) (hself.modServo _)

@[simp] theorem State.beginSeek_batten (s : State) (a : Fin 4) (n : Nat) : ((s.beginSeek a n).act a).batten = (s.act a).batten := by
  unfold State.beginSeek
  dsimp only
  split
  · simp
  · split
    · simp -implicitDefEqProofs [State.noPermit, State.unsettle, State.setMode]
    · split <;> simp
    · split <;> simp

/-! ## An accepted rafter -/

/-- The registers of actuator a that the loop may change at an accepted rafter (R134 to R137). -/
def loopRegs (a : Fin 4) : List Nat :=
  [Adr.SRV_TRACK a, Adr.BTN_CLK a, Adr.BTN_INVAL a, Adr.BTN_POS a, Adr.CHN_STATUS a, Adr.SRV_TARGET a, Adr.SRV_STATUS a, Adr.MDI_SURF a,
   Adr.SRV_OUT a, Adr.SRV_STICKY a, Adr.SRV_RAFCHK a, Adr.FSQ_STATUS a]

/-- From s to t the loop has acted on an accepted rafter: its registers and its slice may have changed, the rafter is still accepted. -/
structure LoopStep (a : Fin 4) (s t : State) : Prop where
  frame : SliceEvents a (loopRegs a) s t
  accepted : (t.act a).batten.accepted = (s.act a).batten.accepted

namespace LoopStep

variable {a : Fin 4} {s t : State}

theorem refl (a : Fin 4) (s : State) : LoopStep a s s := ⟨.refl a _ s, rfl⟩

theorem modServo (h : LoopStep a s t) (f : Servo → Servo) : LoopStep a s (t.modServo a f) :=
  ⟨h.frame.modServo f, by simpa using h.accepted⟩

theorem ended (h : LoopStep a s t) : LoopStep a s (t.modAct a (fun x => { x with ended := x.pfltHeld })) :=
  ⟨h.frame.modAct _, by simpa using h.accepted⟩

theorem countFld (h : LoopStep a s t) {r : Nat} (f : Fld) (hr : r ∈ loopRegs a) : LoopStep a s (t.countFld r f) :=
  ⟨h.frame.countFld f hr, by simpa using h.accepted⟩

theorem setFlag (h : LoopStep a s t) {r : Nat} (f : Fld) (v : Bool) (hr : r ∈ loopRegs a) : LoopStep a s (t.setFlag r f v) :=
  ⟨h.frame.setFlag f v hr, by simpa using h.accepted⟩

theorem actEvent (h : LoopStep a s t) (n : Fin 4) (o d e : Nat) : LoopStep a s (t.actEvent n o d e) :=
  ⟨h.frame.actEvent n o d e, by simpa [State.act] using h.accepted⟩

theorem moveToTrack (h : LoopStep a s t) (n : Nat) : LoopStep a s (t.moveToTrack a n) :=
  ⟨h.frame.trans ((t.moveToTrack_frame a n).mono (by simp [moveRegs, loopRegs])), by simpa using h.accepted⟩

theorem beginSeek (h : LoopStep a s t) (n : Nat) : LoopStep a s (t.beginSeek a n) :=
  ⟨h.frame.frame ((t.beginSeek_frame a n).mono (by simp [loopRegs])), by simpa using h.accepted⟩

theorem enterReident (h : LoopStep a s t) : LoopStep a s (t.enterReident a) :=
  ⟨h.frame.frame ((t.enterReident_frame a).mono (by simp [loopRegs])), by simpa using h.accepted⟩

theorem ite {p : Prop} [Decidable p] {u : State} (h : LoopStep a s t) (k : LoopStep a s u) : LoopStep a s (if p then t else u) := by
  split
  · exact h
  · exact k

end LoopStep

theorem State.followRafter_step (s : State) (a : Fin 4) (t : Nat) : LoopStep a s (s.followRafter a t) := by
  have hself := LoopStep.refl a s
  have hmis := hself.countFld Fld.SRV_RAFCHK_mismatch (r := Adr.SRV_RAFCHK a) (by simp [loopRegs])
  unfold State.followRafter
  dsimp only
  split
  · split
    · exact (hself.modServo _).moveToTrack t
    · exact (((hself.modServo _).moveToTrack t).countFld _ (by simp [loopRegs])).beginSeek _
  · split
    · exact hself.modServo _
    · split
      · exact hmis.modServo _
      · exact ((((((hmis.setFlag _ _ (by simp [loopRegs])).setFlag _ _ (by simp [loopRegs])).setFlag _ _ (by simp [loopRegs])).modServo _).moveToTrack
          t).actEvent _ _ _ _).beginSeek _

theorem State.seekRafter_step (s : State) (a : Fin 4) (k : Seek) (t : Nat) : LoopStep a s (s.seekRafter a k t) := by
  have hdis := ((LoopStep.refl a s).countFld Fld.SRV_RAFCHK_discard (r := Adr.SRV_RAFCHK a) (by simp [loopRegs])).modServo
    (fun x => { x with discards := (s.act a).servo.discards + 1 })
  unfold State.seekRafter
  exact .ite (.ite (hdis.actEvent _ _ _ _).enterReident hdis) ((LoopStep.refl a s).modServo _)

theorem State.reidentRafter_step (s : State) (a : Fin 4) (index t : Nat) : LoopStep a s (s.reidentRafter a index t) := by
  have hself := LoopStep.refl a s
  unfold State.reidentRafter
  split
  · split
    · exact (((hself.moveToTrack t).modServo _).ended).beginSeek _
    · exact hself.modServo _
  · exact hself.modServo _

theorem State.loopRafter_step (s : State) (a : Fin 4) (predicted index t : Nat) : LoopStep a s (s.loopRafter a predicted index t) := by
  have hself := LoopStep.refl a s
  unfold State.loopRafter
  refine .ite (s.reidentRafter_step a index t) (.ite (hself.countFld _ (by simp [loopRegs])) (.ite (s.followRafter_step a t) (.ite ?_ hself)))
  split
  · exact s.seekRafter_step a _ t
  · exact hself

/-- An unloaded loop does nothing with a rafter of the index it expects. -/
theorem State.loopRafter_of_unloaded {s : State} {a : Fin 4} (h : s.mode a = 0) (index t : Nat) : s.loopRafter a index index t = s := by
  simp [State.loopRafter, h]

end Sys2Proof.Machine
end

section
/-! Rafters that are accepted, that are not, and a clock that stays lost (R49, R54, R55, R93, R97). -/

namespace Sys2Proof.Machine

open Sys2Proof

/-! ## Ending the slice's operations -/

@[simp] theorem State.endMediaOps_ended (s : State) (a : Fin 4) : ((s.endMediaOps a).act a).ended = true := by
  simp [State.endMediaOps]

@[simp] theorem State.endMediaOps_batten (s : State) (a : Fin 4) : ((s.endMediaOps a).act a).batten = (s.act a).batten := by
  simp [State.endMediaOps, State.requestAbort]

@[simp] theorem State.endMediaOps_abort_pend (s : State) (a : Fin 4) :
    (s.endMediaOps a).flag (Adr.FSQ_STATUS a) Fld.FSQ_STATUS_abort_pend = true := by
  simp (disch := (generalize a = b; decide +revert)) [State.endMediaOps, State.requestAbort]

/-- The slice ends its operations under R97, with its event. -/
def State.rafterEnds (s : State) (a : Fin 4) : State := (s.endMediaOps a).actEvent a 0x08

theorem State.rafterEnds_frame (s : State) (a : Fin 4) : SliceEvents a [Adr.FSQ_STATUS a] s (s.rafterEnds a) :=
  ((SliceFrame.refl a [Adr.FSQ_STATUS a] s).endMediaOps (by simp)).events.actEvent _ _ _ _

theorem State.rafterFailure_eq (s : State) (a : Fin 4) :
    s.rafterFailure a = if s.mode a = 0 then s.rafterEnds a else (s.rafterEnds a).enterReident a := rfl

/-- The registers of actuator a that a rafter failure may change (R97, R137). -/
def failRegs (a : Fin 4) : List Nat := [Adr.FSQ_STATUS a, Adr.SRV_STATUS a, Adr.SRV_OUT a, Adr.SRV_STICKY a, Adr.MDI_SURF a]

theorem State.rafterFailure_frame (s : State) (a : Fin 4) : SliceEvents a (failRegs a) s (s.rafterFailure a) := by
  have hends : SliceEvents a (failRegs a) s (s.rafterEnds a) := (s.rafterEnds_frame a).mono (by simp [failRegs])
  rw [State.rafterFailure_eq]
  exact .ite hends (hends.frame (((s.rafterEnds a).enterReident_frame a).mono (by simp [failRegs])))

@[simp] theorem State.rafterFailure_ended (s : State) (a : Fin 4) : ((s.rafterFailure a).act a).ended = true := by
  have hends : ((s.rafterEnds a).act a).ended = true := by
    rw [State.rafterEnds, State.act, State.actEvent_acts]
    exact s.endMediaOps_ended a
  rw [State.rafterFailure_eq]
  split <;> simp [hends]

@[simp] theorem State.rafterFailure_batten (s : State) (a : Fin 4) : ((s.rafterFailure a).act a).batten = (s.act a).batten := by
  have hends : ((s.rafterEnds a).act a).batten = (s.act a).batten := by
    rw [State.rafterEnds, State.act, State.actEvent_acts]
    exact s.endMediaOps_batten a
  rw [State.rafterFailure_eq]
  split <;> simp [hends]

@[simp] theorem State.rafterFailure_abort_pend (s : State) (a : Fin 4) :
    (s.rafterFailure a).flag (Adr.FSQ_STATUS a) Fld.FSQ_STATUS_abort_pend = true := by
  have hends : (s.rafterEnds a).flag (Adr.FSQ_STATUS a) Fld.FSQ_STATUS_abort_pend = true := by
    rw [State.rafterEnds, State.flag_actEvent _ _ _ _ _ _ (by generalize a = b; decide +revert), State.endMediaOps_abort_pend]
  rw [State.rafterFailure_eq]
  split
  · exact hends
  · rw [((s.rafterEnds a).enterReident_frame a).flag _ (by generalize a = b; decide +revert), hends]

theorem State.rafterFailure_mode {s : State} {a : Fin 4} (h : s.mode a ≠ 0) : (s.rafterFailure a).mode a = 3 := by
  rw [State.rafterFailure_eq, if_neg h, State.enterReident_mode]

/-! ## A rafter that is not accepted -/

/-- The error reports of a rafter that is not accepted (R97): code 1 where its mark was not found, and code 2. -/
def State.rafterReported (s : State) (a : Fin 4) (sync : Bool) : State :=
  (if sync then s else s.chanError a 1 2 false (s.head a) (s.track a) 0).chanError a 2 3 false (s.head a) (s.track a) 0

/-- A rafter that is not accepted is reported and counted, and its interval is not write-permitted (R97). -/
def State.rafterMissed (s : State) (a : Fin 4) (sync : Bool) : State :=
  ((((s.rafterReported a sync).countFld (Adr.BTN_RFCNT a) Fld.BTN_RFCNT_lost_total).countFld (Adr.BTN_RFCNT a)
    Fld.BTN_RFCNT_consec).forbidInterval a).modBatten a (fun b => { b with accepted := false })

theorem State.rafterRejected_eq (s : State) (a : Fin 4) (sync : Bool) :
    s.rafterRejected a sync =
      if (s.rafterMissed a sync).fld (Adr.BTN_RFCNT a) Fld.BTN_RFCNT_consec = 3 then (s.rafterMissed a sync).rafterFailure a
      else s.rafterMissed a sync := by
  cases sync <;> rfl

theorem State.rafterReported_frame (s : State) (a : Fin 4) (sync : Bool) : SliceEvents a (errRegs a) s (s.rafterReported a sync) :=
  (SliceEvents.ite (.refl _ _ s) ((SliceEvents.refl _ _ s).chanError _ _ _ _ _ _ (by simp))).chanError _ _ _ _ _ _ (by simp)

/-- What a rafter that is not accepted leaves in the state that a failure starts from. -/
theorem State.rafterMissed_facts (s : State) (a : Fin 4) (sync : Bool) :
    ((s.rafterMissed a sync).act a).batten.accepted = false ∧ ((s.rafterMissed a sync).act a).batten.noPermit = true ∧
      (s.rafterMissed a sync).flag (Adr.BTN_CLK a) Fld.BTN_CLK_wg_permit = false ∧
      (s.rafterMissed a sync).fld (Adr.CHN_ERR a) Fld.CHN_ERR_last_code = 2 ∧
      (s.rafterMissed a sync).fld (Adr.BTN_RFCNT a) Fld.BTN_RFCNT_consec =
        min (s.fld (Adr.BTN_RFCNT a) Fld.BTN_RFCNT_consec + 1) (2 ^ Fld.BTN_RFCNT_consec.width - 1) ∧
      (s.rafterMissed a sync).fld (Adr.BTN_RFCNT a) Fld.BTN_RFCNT_lost_total =
        min (s.fld (Adr.BTN_RFCNT a) Fld.BTN_RFCNT_lost_total + 1) (2 ^ Fld.BTN_RFCNT_lost_total.width - 1) ∧
      (s.rafterMissed a sync).mode a = s.mode a := by
  have hcount : ∀ f : Fld, (s.rafterReported a sync).fld (Adr.BTN_RFCNT a) f = s.fld (Adr.BTN_RFCNT a) f := fun f =>
    (s.rafterReported_frame a sync).fld f (by generalize a = b; decide +revert) (by generalize a = b; decide +revert)
  have hmode : (s.rafterReported a sync).fld (Adr.SRV_STATUS a) Fld.SRV_STATUS_mode = s.fld (Adr.SRV_STATUS a) Fld.SRV_STATUS_mode :=
    (s.rafterReported_frame a sync).fld _ (by generalize a = b; decide +revert) (by generalize a = b; decide +revert)
  have hcode : (s.rafterReported a sync).fld (Adr.CHN_ERR a) Fld.CHN_ERR_last_code = 2 := State.chanError_last_code _ a _ _ _ _ _ (by decide)
  unfold State.rafterMissed
  refine ⟨by simp, by simp, ?_, ?_, ?_, ?_, ?_⟩
  all_goals simp -implicitDefEqProofs (disch := (generalize a = b; decide +revert)) [State.mode, State.forbidInterval, State.modBatten, hcount, hmode, hcode]

theorem State.rafterRejected_frame_missed (s : State) (a : Fin 4) (sync : Bool) :
    SliceEvents a (failRegs a) (s.rafterMissed a sync) (s.rafterRejected a sync) := by
  rw [State.rafterRejected_eq]
  exact .ite (State.rafterFailure_frame _ a) (.refl _ _ _)

theorem State.rafterRejected_batten (s : State) (a : Fin 4) (sync : Bool) :
    ((s.rafterRejected a sync).act a).batten = ((s.rafterMissed a sync).act a).batten := by
  rw [State.rafterRejected_eq]
  split <;> simp

/-- A rafter that is not accepted opens no interval for writing (R97). -/
theorem State.rafterRejected_forbids (s : State) (a : Fin 4) (sync : Bool) :
    ((s.rafterRejected a sync).act a).batten.accepted = false ∧ ((s.rafterRejected a sync).act a).batten.noPermit = true ∧
      (s.rafterRejected a sync).flag (Adr.BTN_CLK a) Fld.BTN_CLK_wg_permit = false := by
  obtain ⟨hacc, hperm, hwg, -⟩ := s.rafterMissed_facts a sync
  rw [s.rafterRejected_batten]
  exact ⟨hacc, hperm, by
    rw [(s.rafterRejected_frame_missed a sync).flag _ (by generalize a = b; decide +revert) (by generalize a = b; decide +revert), hwg]⟩

/-- The counts and the code of a rafter that is not accepted (R97, R102). -/
theorem State.rafterRejected_counts (s : State) (a : Fin 4) (sync : Bool) :
    (s.rafterRejected a sync).fld (Adr.CHN_ERR a) Fld.CHN_ERR_last_code = 2 ∧
      (s.rafterRejected a sync).fld (Adr.BTN_RFCNT a) Fld.BTN_RFCNT_consec =
        min (s.fld (Adr.BTN_RFCNT a) Fld.BTN_RFCNT_consec + 1) (2 ^ Fld.BTN_RFCNT_consec.width - 1) ∧
      (s.rafterRejected a sync).fld (Adr.BTN_RFCNT a) Fld.BTN_RFCNT_lost_total =
        min (s.fld (Adr.BTN_RFCNT a) Fld.BTN_RFCNT_lost_total + 1) (2 ^ Fld.BTN_RFCNT_lost_total.width - 1) := by
  obtain ⟨-, -, -, hcode, hconsec, htotal, -⟩ := s.rafterMissed_facts a sync
  have hframe := s.rafterRejected_frame_missed a sync
  rw [hframe.fld _ (by generalize a = b; decide +revert) (by generalize a = b; decide +revert),
    hframe.fld _ (by generalize a = b; decide +revert) (by generalize a = b; decide +revert),
    hframe.fld _ (by generalize a = b; decide +revert) (by generalize a = b; decide +revert)]
  exact ⟨hcode, hconsec, htotal⟩

/-- The third rafter in a row that is not accepted ends media operations (R97). -/
theorem State.rafterRejected_of_third {s : State} {a : Fin 4} (sync : Bool) (h : s.fld (Adr.BTN_RFCNT a) Fld.BTN_RFCNT_consec = 2) :
    s.rafterRejected a sync = (s.rafterMissed a sync).rafterFailure a := by
  obtain ⟨-, -, -, -, hconsec, -⟩ := s.rafterMissed_facts a sync
  rw [State.rafterRejected_eq, if_pos (hconsec.trans (by rw [h]; decide))]

/-! ## A rafter that is accepted -/

/-- What an accepted rafter sets before the loop acts on it (R54, R55, R89). -/
def State.rafterTaken (s : State) (a : Fin 4) (track index ba bb : Nat) : State :=
  ((((s.setFld (Adr.BTN_RAFTER a) Fld.BTN_RAFTER_track track).setFld (Adr.BTN_RAFTER a) Fld.BTN_RAFTER_index index).setFld (Adr.BTN_RFCNT a)
    Fld.BTN_RFCNT_consec 0).modBatten a (fun b => { b with
      accepted := true
      bursts := (b.bursts ++ [(ba, bb)]).drop (b.bursts.length - 7)
      needRafters := b.needRafters - 1
      index := if s.mode a = 3 then index else b.index })).latchCond a 2

theorem State.acceptRafter_eq (s : State) (a : Fin 4) (track index ba bb : Nat) :
    s.acceptRafter a track index ba bb = (s.rafterTaken a track index ba bb).loopRafter a (s.act a).batten.index index track := rfl

theorem State.rafterTaken_frame (s : State) (a : Fin 4) (track index ba bb : Nat) :
    SliceFrame a [Adr.BTN_RAFTER a, Adr.BTN_RFCNT a] s (s.rafterTaken a track index ba bb) :=
  (((((SliceFrame.refl a _ s).setFld _ _ (by simp)).setFld _ _ (by simp)).setFld _ _ (by simp)).modBatten _).latchCond _

theorem State.rafterTaken_facts (s : State) (a : Fin 4) (track index ba bb : Nat) :
    ((s.rafterTaken a track index ba bb).act a).batten.accepted = true ∧
      (s.rafterTaken a track index ba bb).fld (Adr.BTN_RAFTER a) Fld.BTN_RAFTER_track = track % 2 ^ Fld.BTN_RAFTER_track.width ∧
      (s.rafterTaken a track index ba bb).fld (Adr.BTN_RAFTER a) Fld.BTN_RAFTER_index = index % 2 ^ Fld.BTN_RAFTER_index.width ∧
      (s.rafterTaken a track index ba bb).fld (Adr.BTN_RFCNT a) Fld.BTN_RFCNT_consec = 0 := by
  unfold State.rafterTaken
  refine ⟨by simp, ?_, ?_, ?_⟩
  all_goals simp -implicitDefEqProofs (disch := (generalize a = b; decide +revert)) [State.latchCond, State.modSeq, State.modBatten]

/-- What an accepted rafter leaves: the loop keeps its track, index and acceptance. -/
theorem State.acceptRafter_facts (s : State) (a : Fin 4) (track index ba bb : Nat) :
    ((s.acceptRafter a track index ba bb).act a).batten.accepted = true ∧
      (s.acceptRafter a track index ba bb).fld (Adr.BTN_RAFTER a) Fld.BTN_RAFTER_track = track % 2 ^ Fld.BTN_RAFTER_track.width ∧
      (s.acceptRafter a track index ba bb).fld (Adr.BTN_RAFTER a) Fld.BTN_RAFTER_index = index % 2 ^ Fld.BTN_RAFTER_index.width ∧
      (s.acceptRafter a track index ba bb).fld (Adr.BTN_RFCNT a) Fld.BTN_RFCNT_consec = 0 := by
  obtain ⟨hacc, htrack, hindex, hconsec⟩ := s.rafterTaken_facts a track index ba bb
  have hloop := (s.rafterTaken a track index ba bb).loopRafter_step a (s.act a).batten.index index track
  have hkeep : ∀ (r : Nat) (f : Fld), r = Adr.BTN_RAFTER a ∨ r = Adr.BTN_RFCNT a →
      (s.acceptRafter a track index ba bb).fld r f = (s.rafterTaken a track index ba bb).fld r f := by
    rintro r f (rfl | rfl) <;> exact hloop.frame.fld f (by generalize a = b; decide +revert) (by generalize a = b; decide +revert)
  exact ⟨hloop.accepted.trans hacc, (hkeep _ _ (.inl rfl)).trans htrack, (hkeep _ _ (.inl rfl)).trans hindex,
    (hkeep _ _ (.inr rfl)).trans hconsec⟩

theorem exec_rafterAccepted_of_good {s : State} {a : Fin 4} {w : List Bool} {cells : List (Bool × Bool)} {bA bB tr k c : Nat}
    (hsync : s.rafterSynced a w = true) (hcells : rafterFields cells = some (tr, k, c)) (hc : c = (surfaceCheck (s.surface a) tr k).toNat) :
    exec (.rafterAccepted a w cells bA bB) s = .next (s.acceptRafter a tr k bA bB) := by
  change execRafterAccepted a w cells bA bB s = _
  simp only [execRafterAccepted, hcells, hsync, ← hc, and_self, if_true]

theorem exec_rafterAccepted_of_bad {s : State} {a : Fin 4} {w : List Bool} {cells : List (Bool × Bool)} {bA bB : Nat}
    (h : s.rafterSynced a w = true → ∀ tr k c : Nat, rafterFields cells = some (tr, k, c) → c ≠ (surfaceCheck (s.surface a) tr k).toNat) :
    exec (.rafterAccepted a w cells bA bB) s = .next (s.rafterRejected a (s.rafterSynced a w)) := by
  change execRafterAccepted a w cells bA bB s = _
  cases hcells : rafterFields cells with
  | none => simp only [execRafterAccepted, hcells]
  | some p =>
    obtain ⟨tr, k, c⟩ := p
    simp only [execRafterAccepted, hcells]
    exact if_neg fun ⟨hsync, hc⟩ => h hsync tr k c hcells hc

/-- Settles O3: a rafter that is not accepted is rafterMissed, then a failure where it is the third; an accepted one is rafterTaken, and
the loop keeps what that set. -/
theorem raftersAcceptedAndLost : Obligations.RaftersAcceptedAndLost := by
  unfold Obligations.RaftersAcceptedAndLost
  intro a s
  refine ⟨fun w => ?_, fun hclk => ?_, fun w cells bA bB tr k c hsync hcells hc => ?_, fun w cells bA bB hbad => ?_⟩
  · obtain ⟨hacc, hperm, hwg⟩ := s.rafterRejected_forbids a (s.rafterSynced a w)
    obtain ⟨hcode, hconsec, htotal⟩ := s.rafterRejected_counts a (s.rafterSynced a w)
    obtain ⟨-, -, -, -, -, -, hmode⟩ := s.rafterMissed_facts a (s.rafterSynced a w)
    refine ⟨_, rfl, hacc, hperm, hwg, hcode, hconsec, htotal, fun htwo => ?_⟩
    rw [State.rafterRejected_of_third _ htwo]
    exact ⟨by simp, by simp, fun hm => State.rafterFailure_mode (hmode ▸ hm)⟩
  · exact ⟨_, if_pos hclk, by simp, by simp, State.rafterFailure_mode, (s.rafterFailure_frame a).media, (s.rafterFailure_frame a).host⟩
  · obtain ⟨hacc, htrack, hindex, hconsec⟩ := s.acceptRafter_facts a tr k bA bB
    refine ⟨_, exec_rafterAccepted_of_good hsync hcells hc, hacc, htrack, hindex, hconsec, fun hmode hk => ?_⟩
    have hframe := s.rafterTaken_frame a tr k bA bB
    have hunloaded : (s.rafterTaken a tr k bA bB).mode a = 0 := (hframe.fld _ (by generalize a = b; decide +revert)).trans hmode
    rw [State.acceptRafter_eq, ← hk, State.loopRafter_of_unloaded hunloaded]
    exact ⟨hframe.acts, hframe.regs, hframe.rest⟩
  · exact ⟨_, exec_rafterAccepted_of_bad hbad, s.rafterRejected_forbids a _⟩

end Sys2Proof.Machine
end

section
/-! The preamplifier (R75 to R77, R245): its fault, the loss of an actuator, and its serial frames. -/

namespace Sys2Proof.Machine

open Sys2Proof

/-! ## A fault -/

/-- Only codes 1 and 5 make a sector erased (R226). -/
theorem State.sectorError_media (s : State) (a : Fin 4) {code : Nat} (wh : Nat) (h : ¬(code = 1 ∨ code = 5)) :
    (s.sectorError a code wh).media = s.media := by
  unfold State.sectorError
  dsimp only
  split
  · simp [h]
  · simp

@[simp] theorem State.sectorError_pfltHeld (s : State) (a : Fin 4) (code wh : Nat) :
    ((s.sectorError a code wh).act a).pfltHeld = (s.act a).pfltHeld := by
  rw [(s.sectorError_only a code wh).slice]

/-- The state in which a preamplifier fault is reported: write gate is dropped and the fault held (R77). -/
def State.preampHeld (s : State) (a : Fin 4) : State :=
  ((s.dropGate a).setFlag (Adr.CHN_STATUS a) Fld.CHN_STATUS_pflt true).modAct a (fun x => { x with pfltHeld := true })

/-- The slice after a preamplifier fault: nothing runs or is armed, and its operations have ended (R77). -/
def State.preampEnded (s : State) (a : Fin 4) : State :=
  ((((s.preampHeld a).sectorError a 7 3).setFlag (Adr.CHN_STATUS a) Fld.CHN_STATUS_reading false).modSeq a
    (fun q => { q with running := none, armed := none })).endMediaOps a

theorem exec_preampFault (s : State) (a : Fin 4) : exec (.preampFault a) s = .next (s.preampEnded a) := rfl

theorem State.preampEnded_flags (s : State) (a : Fin 4) :
    (s.preampEnded a).flag (Adr.CHN_STATUS a) Fld.CHN_STATUS_wg_pin = false ∧
      (s.preampEnded a).flag (Adr.CHN_STATUS a) Fld.CHN_STATUS_writing = false ∧
      (s.preampEnded a).flag (Adr.CHN_STATUS a) Fld.CHN_STATUS_reading = false ∧
      (s.preampEnded a).flag (Adr.CHN_STATUS a) Fld.CHN_STATUS_pflt = true := by
  unfold State.preampEnded State.preampHeld
  refine ⟨?_, ?_, ?_, ?_⟩
  all_goals simp -implicitDefEqProofs (disch := (generalize a = b; decide +revert)) [State.endMediaOps, State.requestAbort, State.modSeq, State.dropGate]

theorem State.preampEnded_slice (s : State) (a : Fin 4) :
    ((s.preampEnded a).act a).pfltHeld = true ∧ ((s.preampEnded a).act a).seq.running = none ∧ ((s.preampEnded a).act a).seq.armed = none := by
  unfold State.preampEnded State.preampHeld
  refine ⟨?_, ?_, ?_⟩
  all_goals simp -implicitDefEqProofs [State.endMediaOps, State.requestAbort]

theorem State.preampEnded_frame (s : State) (a : Fin 4) :
    (s.preampEnded a).media = s.media ∧ (s.preampEnded a).host = s.host := by
  have hheld : SliceFrame a [Adr.CHN_STATUS a] s (s.preampHeld a) :=
    (((SliceFrame.refl a _ s).dropGate (by simp)).setFlag _ _ (by simp)).modAct _
  have hend : SliceFrame a [Adr.CHN_STATUS a, Adr.FSQ_STATUS a] ((s.preampHeld a).sectorError a 7 3) (s.preampEnded a) :=
    (((SliceFrame.refl a _ _).setFlag _ _ (by simp)).modSeq _).endMediaOps (by simp)
  rw [hend.media, hend.host, State.sectorError_media _ a 3 (by decide), State.sectorError_host]
  exact ⟨hheld.media, hheld.host⟩

/-! ## A lost actuator -/

/-- Noting the trusses that a loss broke changes MDI_RBLEFT and what an event changes (R244). -/
theorem State.noteBroken_frame (a : Fin 4) (b s : State) : SliceEvents a [Adr.MDI_RBLEFT] s (State.noteBroken b s) := by
  have hsync : SliceFrame a [Adr.MDI_RBLEFT] s s.syncRebuild := by
    unfold State.syncRebuild
    exact (SliceFrame.refl a _ s).setFld _ _ (by simp)
  unfold State.noteBroken
  exact .ite hsync.events (hsync.events.event _ _ _)

@[simp] theorem State.syncRebuild_acts (s : State) : s.syncRebuild.acts = s.acts := s.setFld_acts _ _ _

@[simp] theorem State.noteBroken_acts (b s : State) : (State.noteBroken b s).acts = s.acts := by
  unfold State.noteBroken
  dsimp only
  split <;> simp

/-- The slice of an actuator that is lost: its operations have ended and it is unloaded (R245). -/
def State.lostSlice (s : State) (a : Fin 4) : State :=
  ((((s.endMediaOps a).unloaded a).modAct a (fun x => { x with lost := true })).setFld (Adr.MDI_SURF a) Fld.MDI_SURF_act_state 2).event 0x381

/-- The medium without an actuator: its surfaces are queued for rebuilding (R243, R245). -/
def State.dropActuator (s : State) (a : Fin 4) : State :=
  { s with media := { s.media with
      lostActs := s.media.lostActs ++ [a.val]
      rebuildQueue := s.media.rebuildQueue ++ (s.actSurfaces a).filter (fun x => !s.media.lostSurfaces.contains x) } }

theorem State.actuatorLost_of_present {s : State} {a : Fin 4} (h : s.media.lostActs.contains a.val = false) :
    s.actuatorLost a = State.noteBroken s ((s.dropActuator a).lostSlice a) := by
  rw [State.actuatorLost, if_neg (by simpa using h)]
  rfl

theorem SliceFrame.unloaded {a : Fin 4} {l : List Nat} {s t : State} (h : SliceFrame a l s t) (hr : Adr.SRV_STATUS a ∈ l) :
    SliceFrame a l s (t.unloaded a) := (((h.setMode 0 hr).noPermit hr).unsettle hr).modServo _

theorem State.lostSlice_frame (s : State) (a : Fin 4) :
    SliceEvents a [Adr.FSQ_STATUS a, Adr.SRV_STATUS a, Adr.MDI_SURF a] s (s.lostSlice a) :=
  (((((SliceFrame.refl a _ s).endMediaOps (by simp)).unloaded (by simp)).modAct _).setFld _ _ (by simp)).events.event _ _ _

@[simp] theorem State.mode_unloaded (s : State) (a : Fin 4) : (s.unloaded a).mode a = 0 := by
  simp -implicitDefEqProofs (disch := (generalize a = b; decide +revert)) [State.unloaded, State.noPermit, State.unsettle, State.setMode, State.mode,
    State.modServo]

theorem State.lostSlice_facts (s : State) (a : Fin 4) : ((s.lostSlice a).act a).lost = true ∧ (s.lostSlice a).mode a = 0 := by
  have hmode := (s.endMediaOps a).mode_unloaded a
  simp only [State.mode] at hmode
  unfold State.lostSlice
  refine ⟨?_, ?_⟩
  · simp -implicitDefEqProofs
  · simp -implicitDefEqProofs (disch := (generalize a = b; decide +revert)) [State.mode, hmode]

/-- What the loss of an actuator leaves (R245). -/
theorem State.actuatorLost_facts {s : State} {a : Fin 4} (h : s.media.lostActs.contains a.val = false) :
    ((s.actuatorLost a).act a).lost = true ∧ a.val ∈ (s.actuatorLost a).media.lostActs ∧ (s.actuatorLost a).mode a = 0 ∧
      (s.actuatorLost a).media.sectors = s.media.sectors := by
  rw [State.actuatorLost_of_present h]
  obtain ⟨hlost, hmode⟩ := (s.dropActuator a).lostSlice_facts a
  have hslice := (s.dropActuator a).lostSlice_frame a
  have hnote := State.noteBroken_frame a s ((s.dropActuator a).lostSlice a)
  refine ⟨?_, ?_, ?_, ?_⟩
  · rw [State.act, State.noteBroken_acts]
    exact hlost
  · rw [hnote.media, hslice.media]
    exact List.mem_append_right _ (List.mem_singleton_self _)
  · rw [State.mode, hnote.fld _ (by generalize a = b; decide +revert) (by generalize a = b; decide +revert)]
    exact hmode
  · rw [hnote.media, hslice.media]
    rfl

/-! ## Serial frames -/

theorem State.nextFrame_frame (s : State) (a : Fin 4) : SliceFrame a [] s (s.nextFrame a) := by
  unfold State.nextFrame
  exact (SliceFrame.refl a [] s).modAct _

@[simp] theorem State.nextFrame_preamp (s : State) (a : Fin 4) : ((s.nextFrame a).act a).preamp = (s.act a).preamp := by
  unfold State.nextFrame
  rw [State.act_modAct_same]
  split <;> rfl

@[simp] theorem State.nextFrame_batten (s : State) (a : Fin 4) : ((s.nextFrame a).act a).batten = (s.act a).batten := by
  unfold State.nextFrame
  rw [State.act_modAct_same]
  split <;> rfl

@[simp] theorem State.loadEqualiser_preamp (s : State) (a : Fin 4) : ((s.loadEqualiser a).act a).preamp = (s.act a).preamp := by
  simp [State.loadEqualiser]

/-- What a frame that the sequencer did not ask for stores: read data, or the register written (R75, R76). -/
def State.firmwareFrame (s : State) (a : Fin 4) (f : PscFrame) (d : Byte) : State :=
  let t := s.setFlag (Adr.CHN_PSC_ACC a) Fld.CHN_PSC_ACC_busy false
  if f.read then t.setFld (Adr.CHN_PSC_ACC a) Fld.CHN_PSC_ACC_rdata d.toNat
  else t.modAct a (fun x => { x with preamp := insertKey x.preamp f.addr f.data })

theorem exec_pscFrameDone_of_firmware {s : State} {a : Fin 4} {f : PscFrame} (d : Byte) (hf : (s.act a).psc = some f) (hh : f.head = none) :
    exec (.pscFrameDone a d) s = .next ((s.firmwareFrame a f d).nextFrame a) := by
  change execPscFrameDone a d s = _
  simp only [execPscFrameDone, hf, hh]
  rfl

theorem exec_pscFrameDone_of_head {s : State} {a : Fin 4} {f : PscFrame} {h : Nat} (d : Byte) (hf : (s.act a).psc = some f)
    (hh : f.head = some h) :
    exec (.pscFrameDone a d) s =
      .next (((s.modAct a (fun x => { x with preamp := insertKey x.preamp f.addr f.data })).headSwitch a h).nextFrame a) := by
  change execPscFrameDone a d s = _
  simp only [execPscFrameDone, hf, hh]

theorem State.firmwareFrame_frame (s : State) (a : Fin 4) (f : PscFrame) (d : Byte) :
    SliceFrame a [Adr.CHN_PSC_ACC a] s (s.firmwareFrame a f d) := by
  have hbusy := (SliceFrame.refl a [Adr.CHN_PSC_ACC a] s).setFlag Fld.CHN_PSC_ACC_busy false (r := Adr.CHN_PSC_ACC a) (by simp)
  exact .ite (hbusy.setFld _ _ (by simp)) (hbusy.modAct _)

theorem State.firmwareFrame_of_read (s : State) (a : Fin 4) {f : PscFrame} (d : Byte) (h : f.read = true) :
    s.firmwareFrame a f d = (s.setFlag (Adr.CHN_PSC_ACC a) Fld.CHN_PSC_ACC_busy false).setFld (Adr.CHN_PSC_ACC a) Fld.CHN_PSC_ACC_rdata d.toNat := by
  rw [State.firmwareFrame, if_pos h]

theorem State.firmwareFrame_of_write (s : State) (a : Fin 4) {f : PscFrame} (d : Byte) (h : f.read = false) :
    s.firmwareFrame a f d = (s.setFlag (Adr.CHN_PSC_ACC a) Fld.CHN_PSC_ACC_busy false).modAct a
      (fun x => { x with preamp := insertKey x.preamp f.addr f.data }) := by
  rw [State.firmwareFrame, if_neg (by simp [h])]

/-- What a head switch sets before the zone of the new head is entered: its head, a lost clock, and no interval, servo permit or demodulated track
yet (R76, R93, R99). -/
def State.headTaken (s : State) (a : Fin 4) (h : Nat) (band : Option Nat) : State :=
  ((((((s.setFld (Adr.CHN_STATUS a) Fld.CHN_STATUS_head h).setFld (Adr.SRV_TRACK a) Fld.SRV_TRACK_head h).setClock a 0).forbidInterval a).unsettle
    a).noPermit a).modAct a (fun x => { x with
      batten := { x.batten with bursts := [], needRafters := 2, needValid := true, needBoundary := true, zoneMove := none
                                hsUntil := s.now + 1000 * s.fld (Adr.CHN_CTRL a) Fld.CHN_CTRL_hs_settle
                                band := band.getD x.batten.band }
      rd0 := { x.rd0 with agc := .acquire }
      rd1 := { x.rd1 with agc := .acquire }
      servo := { x.servo with inBandSeen := false, firstAfterSwitch := s.mode a == 1, wrongTrack := none } })

/-- The zone that a head switch enters, where the new head has one at the track. -/
def State.enterZoneOf (s : State) (a : Fin 4) (z : Option Nat) : State := z.elim s (s.enterZone a)

theorem State.headSwitch_eq (s : State) (a : Fin 4) (h : Nat) :
    ∃ band z, s.headSwitch a h = (((s.headTaken a h band).enterZoneOf a z).openWindow a 1 48).loadEqualiser a := by
  unfold State.headSwitch
  extract_lets s1 s2 zb s3 s4
  rcases hzb : zb with _ | ⟨z, x⟩
  · refine ⟨none, none, ?_⟩
    simp only [s4, s3, hzb]
    rfl
  · refine ⟨some x.band, some z, ?_⟩
    simp only [s4, s3, hzb]
    rfl

@[simp] theorem State.act_enterZoneOf (s : State) (a : Fin 4) (z : Option Nat) (b : Fin 4) : (s.enterZoneOf a z).act b = s.act b := by
  cases z <;> simp [State.enterZoneOf]

theorem State.enterZoneOf_frame (s : State) (a : Fin 4) (z : Option Nat) : SliceEvents a [Adr.CHN_STATUS a] s (s.enterZoneOf a z) := by
  cases z with
  | none => exact .refl _ _ s
  | some z => exact s.enterZone_frame a z

/-- Entering a zone leaves the head selected. -/
@[simp] theorem State.head_enterZoneOf (s : State) (a : Fin 4) (z : Option Nat) :
    (s.enterZoneOf a z).fld (Adr.CHN_STATUS a) Fld.CHN_STATUS_head = s.fld (Adr.CHN_STATUS a) Fld.CHN_STATUS_head := by
  cases z with
  | none => rfl
  | some z =>
    simp only [State.enterZoneOf, Option.elim_some]
    unfold State.enterZone
    extract_lets s1 c clamped s2
    split <;> simp (disch := (generalize a = b; decide +revert)) [s2, s1]

/-- The head, clock and restrictions that a head switch sets, and the registers of the preamplifier, which it leaves (R76, R93, R99). -/
theorem State.headSwitch_facts (s : State) (a : Fin 4) (h : Nat) :
    ((s.headSwitch a h).act a).preamp = (s.act a).preamp ∧
      (s.headSwitch a h).fld (Adr.CHN_STATUS a) Fld.CHN_STATUS_head = h % 2 ^ Fld.CHN_STATUS_head.width ∧ (s.headSwitch a h).clock a = 0 ∧
      ((s.headSwitch a h).act a).batten.needRafters = 2 ∧ ((s.headSwitch a h).act a).batten.needValid = true ∧
      ((s.headSwitch a h).act a).batten.needBoundary = true := by
  obtain ⟨band, z, heq⟩ := s.headSwitch_eq a h
  have hend : ∀ t : State, SliceFrame a [Adr.BTN_INVAL a, Adr.BTN_POS a] t ((t.openWindow a 1 48).loadEqualiser a) := fun t =>
    (t.openWindow_frame a 1 48).trans ((State.loadEqualiser_frame _ a).mono (by simp))
  rw [heq]
  refine ⟨?_, ?_, ?_, by simp [State.headTaken], by simp [State.headTaken], by simp [State.headTaken]⟩
  · simp -implicitDefEqProofs [State.headTaken, State.noPermit, State.unsettle]
  · rw [(hend _).fld _ (by generalize a = b; decide +revert), State.head_enterZoneOf]
    simp -implicitDefEqProofs (disch := (generalize a = b; decide +revert)) [State.headTaken, State.noPermit, State.unsettle, State.forbidInterval,
      State.modBatten, State.modServo, State.setClock]
  · rw [State.clock, (hend _).fld _ (by generalize a = b; decide +revert),
      (State.enterZoneOf_frame _ a z).fld _ (by generalize a = b; decide +revert) (by generalize a = b; decide +revert)]
    simp -implicitDefEqProofs (disch := (generalize a = b; decide +revert)) [State.headTaken, State.noPermit, State.unsettle, State.forbidInterval,
      State.modBatten, State.modServo, State.setClock]

/-- Settles O4: a fault's frames are those of the slice; a frame of the sequencer is a head switch, any other a store in one register. -/
theorem preamplifierRows : Obligations.PreamplifierRows := by
  unfold Obligations.PreamplifierRows
  intro a s
  refine ⟨?_, ?_, fun hpflt hlost => ?_, fun f d hf hh hr => ?_, fun f d hf hh hw => ?_, fun f h d hf hh => ?_⟩
  · obtain ⟨hpin, hwriting, hreading, hpflt⟩ := s.preampEnded_flags a
    obtain ⟨hheld, hrun, harm⟩ := s.preampEnded_slice a
    obtain ⟨hmedia, hhost⟩ := s.preampEnded_frame a
    exact ⟨_, exec_preampFault s a, hpin, hwriting, hreading, hpflt, hheld, State.endMediaOps_ended _ a, State.endMediaOps_abort_pend _ a,
      hrun, harm, hmedia, hhost⟩
  · have hframe := ((SliceFrame.refl a [Adr.CHN_STATUS a] s).setFlag Fld.CHN_STATUS_pflt false (r := Adr.CHN_STATUS a) (by simp)).modAct
      (fun x => { x with pfltHeld := false, ended := if s.mode a = 3 ∨ x.lost then x.ended else false })
    refine ⟨_, rfl, ?_, by simp, fun hm hl => by simp [hm, hl], hframe.acts, hframe.regs, hframe.rest⟩
    simp (disch := (generalize a = b; decide +revert))
  · exact ⟨_, if_pos hpflt, State.actuatorLost_facts hlost⟩
  · have hframe := (s.firmwareFrame_frame a f d).trans ((State.nextFrame_frame _ a).mono (by simp))
    refine ⟨_, exec_pscFrameDone_of_firmware d hf hh, ?_, ?_, ?_, hframe.acts, hframe.regs, hframe.rest⟩
    · rw [(State.nextFrame_frame _ a).flag _ (by simp), s.firmwareFrame_of_read a d hr]
      simp (disch := (generalize a = b; decide +revert))
    · rw [(State.nextFrame_frame _ a).fld _ (by simp), s.firmwareFrame_of_read a d hr]
      rw [State.fld_setFld_eq _ _ _ _ (by decide)]
      exact Nat.mod_eq_of_lt d.isLt
    · rw [State.nextFrame_preamp, s.firmwareFrame_of_read a d hr]
      simp
  · have hframe := (s.firmwareFrame_frame a f d).trans ((State.nextFrame_frame _ a).mono (by simp))
    refine ⟨_, exec_pscFrameDone_of_firmware d hf hh, ?_, ?_, hframe.acts, hframe.regs, hframe.rest⟩
    · rw [(State.nextFrame_frame _ a).flag _ (by simp), s.firmwareFrame_of_write a d hw]
      simp (disch := (generalize a = b; decide +revert))
    · rw [State.nextFrame_preamp, s.firmwareFrame_of_write a d hw]
      simp
  · obtain ⟨hpre, hhead, hclk, hraft, hval, hbound⟩ :=
      (s.modAct a (fun x => { x with preamp := insertKey x.preamp f.addr f.data })).headSwitch_facts a h
    have hnext := State.nextFrame_frame ((s.modAct a (fun x => { x with preamp := insertKey x.preamp f.addr f.data })).headSwitch a h) a
    refine ⟨_, exec_pscFrameDone_of_head d hf hh, ?_, (hnext.fld _ (by simp)).trans hhead, (hnext.fld _ (by simp)).trans hclk, ?_, ?_, ?_⟩
    · rw [State.nextFrame_preamp, hpre, State.act_modAct_same]
    all_goals rw [State.nextFrame_batten]
    · exact hraft
    · exact hval
    · exact hbound

end Sys2Proof.Machine
end

section
/-! The events of a sector on the track (R66, R79, R86, R87, R101, R109, R110). -/

namespace Sys2Proof.Machine

open Sys2Proof

/-- From s to t only the slice of actuator a changes. -/
structure SliceOnly (a : Fin 4) (s t : State) : Prop where
  acts : s.ActsBut a t
  rest : t = { s with acts := t.acts }

namespace SliceOnly

variable {a : Fin 4} {s t u : State}

theorem refl (a : Fin 4) (s : State) : SliceOnly a s s := ⟨.refl a s, rfl⟩

theorem modAct (h : SliceOnly a s t) (f : Act → Act) : SliceOnly a s (t.modAct a f) :=
  ⟨h.acts.modAct f, by
    conv => lhs; rw [h.rest]
    rfl⟩

theorem modSeq (h : SliceOnly a s t) (f : Sequencer → Sequencer) : SliceOnly a s (t.modSeq a f) := h.modAct _

theorem modBatten (h : SliceOnly a s t) (f : Batten → Batten) : SliceOnly a s (t.modBatten a f) := h.modAct _

theorem modServo (h : SliceOnly a s t) (f : Servo → Servo) : SliceOnly a s (t.modServo a f) := h.modAct _

theorem latchCond (h : SliceOnly a s t) (k : Nat) : SliceOnly a s (t.latchCond a k) := h.modSeq _

theorem ite {p : Prop} [Decidable p] (h : SliceOnly a s t) (k : SliceOnly a s u) : SliceOnly a s (if p then t else u) := by
  split
  · exact h
  · exact k

end SliceOnly

@[simp] theorem State.act_latchCond (s : State) (a : Fin 4) (k : Nat) :
    (s.latchCond a k).act a = { s.act a with seq := { (s.act a).seq with latches := (s.act a).seq.latches ||| 2 ^ k } } := by
  simp [State.latchCond]

@[simp] theorem Sequencer.startSearch_latches (q : Sequencer) (op : Nat) : (q.startSearch op).latches = q.latches := rfl

/-- A search of the kind that is running starts. -/
theorem Sequencer.startSearch_running {q : Sequencer} {o : ChanOp} (h : q.running = some o) :
    (q.startSearch o.op).running = some { o with started := true } := by
  simp [Sequencer.startSearch, h]

/-! ## Boundaries -/

/-- The state after rafter cell 224 (R109, R110). -/
def State.rafterOver (s : State) (a : Fin 4) : State :=
  if s.mayAccess a then (s.latchCond a 3).modSeq a (fun q => q.startSearch 2) else s.latchCond a 3

theorem State.rafterOver_only (s : State) (a : Fin 4) : SliceOnly a s (s.rafterOver a) :=
  .ite (((SliceOnly.refl a s).latchCond 3).modSeq _) ((SliceOnly.refl a s).latchCond 3)

theorem State.rafterOver_latches (s : State) (a : Fin 4) : ((s.rafterOver a).act a).seq.latches = (s.act a).seq.latches ||| 8 := by
  unfold State.rafterOver
  split <;> simp

theorem State.rafterOver_running {s : State} {a : Fin 4} {o : ChanOp} (h : (s.act a).seq.running = some o) (hop : o.op = 2)
    (hacc : s.mayAccess a = true) : ((s.rafterOver a).act a).seq.running = some { o with started := true } := by
  have hrun : ((s.latchCond a 3).act a).seq.running = some o := by simpa using h
  rw [State.rafterOver, if_pos hacc, State.act_modSeq_same, ← hop]
  exact Sequencer.startSearch_running hrun

/-- The state in which a boundary is noted: the restriction of R99 that waits for one may end. -/
def State.boundaryNoted (s : State) (a : Fin 4) : State :=
  (s.latchCond a 5).modBatten a (fun b => { b with needBoundary := b.needBoundary && !(b.needRafters == 0 && !b.needValid) })

/-- The state after a sector boundary (R98, R99, R109, R110). -/
def State.boundaryOver (s : State) (a : Fin 4) : State :=
  if (s.boundaryNoted a).mayAccess a then (s.boundaryNoted a).modSeq a (fun q => q.startSearch 1) else s.boundaryNoted a

theorem State.boundaryOver_only (s : State) (a : Fin 4) : SliceOnly a s (s.boundaryOver a) := by
  have hnote : SliceOnly a s (s.boundaryNoted a) := ((SliceOnly.refl a s).latchCond 5).modBatten _
  exact .ite (hnote.modSeq _) hnote

theorem State.boundaryOver_latches (s : State) (a : Fin 4) : ((s.boundaryOver a).act a).seq.latches = (s.act a).seq.latches ||| 32 := by
  unfold State.boundaryOver
  split <;> simp [State.boundaryNoted]

theorem State.boundaryOver_needBoundary {s : State} {a : Fin 4} (hraft : (s.act a).batten.needRafters = 0)
    (hval : (s.act a).batten.needValid = false) : ((s.boundaryOver a).act a).batten.needBoundary = false := by
  unfold State.boundaryOver
  split <;> simp [State.boundaryNoted, hraft, hval]

/-! ## The end of a channel operation -/

/-- The channel drops its gate and its read gate. -/
def State.gatesDropped (s : State) (a : Fin 4) : State := (s.dropGate a).setFlag (Adr.CHN_STATUS a) Fld.CHN_STATUS_reading false

/-- With nothing armed the channel falls idle. -/
theorem State.endOp_of_unarmed {s : State} {a : Fin 4} (h : (s.act a).seq.armed = none) :
    s.endOp a = (s.gatesDropped a).modSeq a (fun q => { q with running := none, stopAtFragment := false }) := by
  simp only [State.endOp, h]
  rfl

theorem State.gatesDropped_frame (s : State) (a : Fin 4) : SliceFrame a [Adr.CHN_STATUS a] s (s.gatesDropped a) :=
  ((SliceFrame.refl a _ s).dropGate (by simp)).setFlag _ _ (by simp)

@[simp] theorem State.gatesDropped_seq (s : State) (a : Fin 4) : ((s.gatesDropped a).act a).seq = (s.act a).seq := by
  simp -implicitDefEqProofs [State.gatesDropped]

theorem State.gatesDropped_flags (s : State) (a : Fin 4) :
    (s.gatesDropped a).flag (Adr.CHN_STATUS a) Fld.CHN_STATUS_wg_pin = false ∧
      (s.gatesDropped a).flag (Adr.CHN_STATUS a) Fld.CHN_STATUS_writing = false := by
  unfold State.gatesDropped
  refine ⟨?_, ?_⟩
  all_goals simp -implicitDefEqProofs (disch := (generalize a = b; decide +revert)) [State.dropGate]

theorem State.endOp_frame_of_unarmed {s : State} {a : Fin 4} (h : (s.act a).seq.armed = none) :
    SliceFrame a [Adr.CHN_STATUS a] s (s.endOp a) := by
  rw [State.endOp_of_unarmed h]
  exact (s.gatesDropped_frame a).modSeq _

theorem State.endOp_seq_of_unarmed {s : State} {a : Fin 4} (h : (s.act a).seq.armed = none) :
    ((s.endOp a).act a).seq = { (s.act a).seq with running := none, stopAtFragment := false } := by
  rw [State.endOp_of_unarmed h, State.act_modSeq_same, State.gatesDropped_seq]

theorem State.endOp_flags_of_unarmed {s : State} {a : Fin 4} (h : (s.act a).seq.armed = none) :
    (s.endOp a).flag (Adr.CHN_STATUS a) Fld.CHN_STATUS_wg_pin = false ∧ (s.endOp a).flag (Adr.CHN_STATUS a) Fld.CHN_STATUS_writing = false := by
  rw [State.endOp_of_unarmed h]
  exact s.gatesDropped_flags a

theorem State.ActsBut.sectorError {a : Fin 4} {s t : State} (h : s.ActsBut a t) (code wh : Nat) : s.ActsBut a (t.sectorError a code wh) :=
  h.trans (t.sectorError_only a code wh).acts

theorem State.ActsBut.gateFragment {a : Fin 4} {s t : State} (h : s.ActsBut a t) : s.ActsBut a (t.gateFragment a) := by
  unfold State.gateFragment
  exact .ite (((h.setFlag _ _ _).setFlag _ _ _).modAct _)
    (.ite ((h.dropGate.modSeq _).sectorError _ _) (.ite ((h.dropGate.modSeq _).sectorError _ _) ((h.dropGate.modSeq _).sectorError _ _)))

theorem State.ActsBut.startOp {a : Fin 4} {s t : State} (h : s.ActsBut a t) (o : ChanOp) : s.ActsBut a (t.startOp a o) := by
  unfold State.startOp
  exact .ite (((h.modSeq _).setFlag _ _ _).modAct _) (.ite (h.modSeq _).gateFragment (h.modSeq _))

theorem State.ActsBut.endOp {a : Fin 4} {s t : State} (h : s.ActsBut a t) : s.ActsBut a (t.endOp a) := by
  have hdrop := h.dropGate.setFlag (Adr.CHN_STATUS a) Fld.CHN_STATUS_reading false
  unfold State.endOp
  dsimp only
  split
  · exact hdrop.modSeq _
  · exact (hdrop.modSeq _).startOp _

/-! ## Searches -/

/-- Both readers have acquired over the preamble of a search (R80, R81). -/
def State.acquired (s : State) (a : Fin 4) (o : ChanOp) (pre : List (Int × Int)) : State :=
  s.readers a Reader.acquire (pre.take (if o.op = 1 then 64 else 48))

theorem State.acquired_frame (s : State) (a : Fin 4) (o : ChanOp) (pre : List (Int × Int)) : SliceFrame a [] s (s.acquired a o pre) := by
  unfold State.acquired State.readers
  exact (SliceFrame.refl a [] s).modAct _

@[simp] theorem State.acquired_seq (s : State) (a : Fin 4) (o : ChanOp) (pre : List (Int × Int)) :
    ((s.acquired a o pre).act a).seq = (s.act a).seq := by
  simp [State.acquired, State.readers]

theorem exec_syncDecided_of_found {s : State} {a : Fin 4} {o : ChanOp} {w : List Bool} {k : Nat} (pre : List (Int × Int))
    (ho : (s.act a).seq.running = some o) (hop : o.op < 3) (hstart : o.started = true)
    (hmark : markIn (if o.op = 1 then sectorMark else resyncMark) w 4 = some k)
    (hwin : k ≤ 2 * s.fld (Adr.CHN_CTRL a) Fld.CHN_CTRL_sync_win)
    (htol : ((k : Int) - s.fld (Adr.CHN_CTRL a) Fld.CHN_CTRL_sync_win).natAbs ≤ s.fld (Adr.CHN_CTRL a) Fld.CHN_CTRL_sync_tol) :
    exec (.syncDecided a pre w) s = .next ((((s.acquired a o pre).endOp a).modSeq a
      (fun q => { q with syncFound := true, searchWhere := if o.op = 1 then 0 else 1 })).latchCond a 7) := by
  change execSyncDecided a pre w s = _
  simp only [execSyncDecided, ho, hmark]
  rw [if_neg (by simp [hstart]; omega)]
  simp only [Option.filter_some, hwin, htol, decide_true, if_true]
  rfl

theorem exec_syncDecided_of_missed {s : State} {a : Fin 4} {o : ChanOp} {w : List Bool} (pre : List (Int × Int))
    (ho : (s.act a).seq.running = some o) (hop : o.op < 3) (hstart : o.started = true)
    (hmark : markIn (if o.op = 1 then sectorMark else resyncMark) w 4 = none) :
    exec (.syncDecided a pre w) s = .next (((((s.acquired a o pre).sectorError a 1 (if o.op = 1 then 0 else 1)).endOp a).modSeq a
      (fun q => { q with syncFound := false, searchWhere := if o.op = 1 then 0 else 1 })).latchCond a 7) := by
  change execSyncDecided a pre w s = _
  simp only [execSyncDecided, ho, hmark]
  rw [if_neg (by simp [hstart]; omega)]
  rfl

/-! ## Fragments and parts -/

/-- The fragment in hand is counted (R66). -/
def State.fragmentCounted (s : State) (a : Fin 4) : State := s.modSeq a (fun q => { q with frag := min (q.frag + 1) 15 })

@[simp] theorem State.act_fragmentCounted (s : State) (a : Fin 4) :
    (s.fragmentCounted a).act a = { s.act a with seq := { (s.act a).seq with frag := min ((s.act a).seq.frag + 1) 15 } } := by
  simp [State.fragmentCounted]

theorem exec_fragmentDone_of_going {s : State} {a : Fin 4} {o : ChanOp} (ho : (s.act a).seq.running = some o) (hop : 2 < o.op) (hne : o.op ≠ 4)
    (hstart : o.started = true) (hstop : (s.act a).seq.stopAtFragment = false) :
    exec (.fragmentDone a) s = .next ((s.fragmentCounted a).latchCond a 9) := by
  change execFragmentDone a s = _
  simp only [execFragmentDone, ho]
  rw [if_neg (by simp [hstart]; omega), hstop, if_neg (by decide), if_pos hne]
  rfl

theorem exec_fragmentDone_of_stop {s : State} {a : Fin 4} {o : ChanOp} (ho : (s.act a).seq.running = some o) (hop : 2 < o.op)
    (hstart : o.started = true) (hstop : (s.act a).seq.stopAtFragment = true) :
    exec (.fragmentDone a) s =
      .next (((((s.fragmentCounted a).modSeq a (fun q => { q with armed := none })).endOp a).latchCond a 9).latchCond a 10) := by
  change execFragmentDone a s = _
  simp only [execFragmentDone, ho]
  rw [if_neg (by simp [hstart]; omega), hstop, if_pos rfl]
  rfl

/-- What the end of a part does to the channel before its operation ends: it reads the part's cells, or has written them (R66, R80 to R83, R88). -/
def State.partOver (s : State) (a : Fin 4) (o : ChanOp) (l : List (Int × Int)) : State :=
  if o.op = 3 then s.readCells a l
  else (s.runningEntry a).elim s fun e => s.modAct a (fun x => { x with
    wd := transitions (s.fld (Adr.CHN_WRCFG a) Fld.CHN_WRCFG_pc1) (s.fld (Adr.CHN_WRCFG a) Fld.CHN_WRCFG_pc2)
      (partPattern (s.entryCodeword e) o.part e.len1) })

theorem exec_partDone_of_running {s : State} {a : Fin 4} {o : ChanOp} (l : List (Int × Int)) (ho : (s.act a).seq.running = some o) (hop : 2 < o.op)
    (hstart : o.started = true) : exec (.partDone a l) s = .next (((s.partOver a o l).endOp a).latchCond a 10) := by
  change execPartDone a l s = _
  simp only [execPartDone, ho]
  rw [if_neg (by simp [hstart]; omega), State.partOver]
  cases s.runningEntry a <;> rfl

theorem State.readCells_frame (s : State) (a : Fin 4) (l : List (Int × Int)) : SliceFrame a [] s (s.readCells a l) := by
  unfold State.readCells State.readers
  exact .ite ((((SliceFrame.refl a [] s).modAct _).modAct _).modAct _) (((SliceFrame.refl a [] s).modAct _).modAct _)

theorem State.readCells_seq (s : State) (a : Fin 4) (l : List (Int × Int)) : ((s.readCells a l).act a).seq = (s.act a).seq := by
  unfold State.readCells State.readers
  dsimp only
  split <;> simp only [State.act_modAct_same]

theorem State.partOver_frame (s : State) (a : Fin 4) (o : ChanOp) (l : List (Int × Int)) : SliceFrame a [] s (s.partOver a o l) := by
  refine .ite (s.readCells_frame a l) ?_
  cases s.runningEntry a with
  | none => exact .refl a [] s
  | some e =>
    simp only [Option.elim_some]
    exact (SliceFrame.refl a [] s).modAct _

@[simp] theorem State.partOver_seq (s : State) (a : Fin 4) (o : ChanOp) (l : List (Int × Int)) :
    ((s.partOver a o l).act a).seq = (s.act a).seq := by
  unfold State.partOver
  split
  · exact s.readCells_seq a l
  · cases s.runningEntry a <;> simp

/-! ## Decoded sectors -/

theorem State.leaveDecoder_frame (s : State) (a : Fin 4) (x : Nat) : SliceFrame a [] s (s.leaveDecoder a x) :=
  (SliceFrame.refl a [] s).modAct _

theorem State.leaveDecoder_left (s : State) (a : Fin 4) (x : Nat) : ∀ q ∈ ((s.leaveDecoder a x).act a).decoder, q.media ≠ x := by
  simp [State.leaveDecoder]

/-- The decoder gives up sector x and counts its iterations (R87). -/
def State.decoderDone (s : State) (a : Fin 4) (x n : Nat) : State :=
  (s.leaveDecoder a x).countFld (Adr.CHN_DECSTAT a) (if n ≤ 1 then Fld.CHN_DECSTAT_first else Fld.CHN_DECSTAT_multi)

theorem State.decoderDone_frame (s : State) (a : Fin 4) (x n : Nat) : SliceFrame a [Adr.CHN_DECSTAT a] s (s.decoderDone a x n) :=
  ((s.leaveDecoder_frame a x).mono (by simp)).countFld _ (by simp)

theorem exec_sectorDecoded_of_good {s : State} {a : Fin 4} {x n phys seed kind : Nat} {rec : List Byte} {errors : List Nat} {p : DecPlace}
    (hp : s.decoding a x = some p) (hx : s.expectedAt x = some (phys, seed, kind)) (hrec : s.recordedAt phys = some rec) (hn : 0 < n)
    (hmax : n ≤ s.maxGlobal a) (hok : codeOk (decided rec errors) = true)
    (htag : tagMatches seed kind (((beBytes rec.length (decided rec errors)).drop s.lbaSize).take 16) = true) :
    exec (.sectorDecoded a x n errors) s =
      .next ((s.decoderDone a x n).deliver x (scramble seed ((beBytes rec.length (decided rec errors)).take s.lbaSize))) := by
  change execSectorDecoded a x n errors s = _
  simp only [execSectorDecoded, hp, hx, hrec]
  rw [if_neg (by simp [hok]; omega), if_pos htag]
  rfl

theorem exec_sectorDecoded_of_bad_tag {s : State} {a : Fin 4} {x n phys seed kind : Nat} {rec : List Byte} {errors : List Nat} {p : DecPlace}
    (hp : s.decoding a x = some p) (hx : s.expectedAt x = some (phys, seed, kind)) (hrec : s.recordedAt phys = some rec) (hn : 0 < n)
    (hmax : n ≤ s.maxGlobal a) (hok : codeOk (decided rec errors) = true)
    (htag : tagMatches seed kind (((beBytes rec.length (decided rec errors)).drop s.lbaSize).take 16) = false) :
    exec (.sectorDecoded a x n errors) s =
      .next (((s.decoderDone a x n).chanError a 4 3 false p.head p.track p.sector).erase x) := by
  change execSectorDecoded a x n errors s = _
  simp only [execSectorDecoded, hp, hx, hrec]
  rw [if_neg (by simp [hok]; omega), if_neg (by simp [htag])]
  rfl

theorem State.decoding_media {s : State} {a : Fin 4} {x : Nat} {p : DecPlace} (h : s.decoding a x = some p) : p.media = x := by
  unfold State.decoding at h
  split at h
  next q hq =>
    cases h
    simpa using List.find?_some hq
  next =>
    obtain ⟨e, -, rfl⟩ := Option.map_eq_some_iff.1 h
    rfl

theorem exec_ldpcNoConvergence {s : State} {a : Fin 4} {x : Nat} {p : DecPlace} (h : s.decoding a x = some p) :
    exec (.ldpcNoConvergence a x) s = .next (((s.leaveDecoder a x).chanError a 3 3 false p.head p.track p.sector).erase x) := by
  change execLdpcNoConvergence a x s = _
  simp only [execLdpcNoConvergence, h, State.noConvergence, State.decoding_media h]

/-- A sector reported by the decoder and erased: its code is the last one, and no data of it or of the medium changes. -/
theorem State.reportErased_facts (s : State) (a : Fin 4) {code : Nat} (p : DecPlace) (x : Nat) (hc : code < 8) :
    let t := (s.chanError a code 3 false p.head p.track p.sector).erase x
    t.fld (Adr.CHN_ERR a) Fld.CHN_ERR_last_code = code ∧ t.media.dram = s.media.dram ∧ (∃ e ∈ t.media.erased, e.media = x) ∧
      t.media.sectors = s.media.sectors ∧ t.acts = s.acts := by
  intro t
  have herase : t = _ := (s.chanError a code 3 false p.head p.track p.sector).erase_only x
  refine ⟨(State.fld_erase _ _ _ _).trans (s.chanError_last_code a 3 false _ _ _ hc), ?_, State.mem_erased_erase _ x, ?_, ?_⟩
  all_goals rw [herase]; simp

/-- Settles O5: each row is an equation above; its frame is that of the stores it makes. -/
theorem sectorEventRows : Obligations.SectorEventRows := by
  unfold Obligations.SectorEventRows
  intro a s
  refine ⟨?_, ?_, ?_, fun o pre w k ho hop hstart harm hmark hwin htol => ?_, fun o pre w ho hop hstart hmark => ?_,
    fun o ho hop hne hstart hstop => ?_, fun o ho hop hstart hstop => ?_, fun o l ho hop hstart harm => ?_,
    fun x n phys seed kind rec errors p hp hx hrec hn hmax hok => ⟨fun htag => ?_, fun htag => ?_⟩, fun x p hp => ?_⟩
  · exact ⟨s.rafterOver a, rfl, s.rafterOver_latches a, (s.rafterOver_only a).acts, fun o => State.rafterOver_running, (s.rafterOver_only a).rest⟩
  · exact ⟨s.boundaryOver a, rfl, s.boundaryOver_latches a, (s.boundaryOver_only a).acts, State.boundaryOver_needBoundary,
      (s.boundaryOver_only a).rest⟩
  · exact ⟨_, rfl, by simp, (State.ActsBut.refl a s).modSeq _, rfl⟩
  · have harmed : ((s.acquired a o pre).act a).seq.armed = none := by simpa using harm
    have hframe := ((((s.acquired_frame a o pre).mono (by simp)).trans (State.endOp_frame_of_unarmed harmed)).modSeq
      (fun q => { q with syncFound := true, searchWhere := if o.op = 1 then 0 else 1 })).latchCond 7
    exact ⟨_, exec_syncDecided_of_found pre ho hop hstart hmark hwin htol, by simp, by simp [State.endOp_seq_of_unarmed harmed],
      by simp [State.endOp_seq_of_unarmed harmed], hframe.acts, hframe.regs, hframe.rest⟩
  · exact ⟨_, exec_syncDecided_of_missed pre ho hop hstart hmark, by simp, by simp,
      (((s.acquired_frame a o pre).acts.sectorError _ _).endOp.modSeq _).modSeq _⟩
  · have honly := ((SliceOnly.refl a s).modSeq (fun q => { q with frag := min (q.frag + 1) 15 })).latchCond 9
    exact ⟨_, exec_fragmentDone_of_going ho hop hne hstart hstop, by simp, by simp,
      by simp [ho], honly.acts, honly.rest⟩
  · have harmed : (((s.fragmentCounted a).modSeq a (fun q => { q with armed := none })).act a).seq.armed = none := by simp
    have hcount : SliceFrame a [Adr.CHN_STATUS a] s ((s.fragmentCounted a).modSeq a (fun q => { q with armed := none })) :=
      ((SliceFrame.refl a _ s).modSeq _).modSeq _
    have hframe := ((hcount.trans (State.endOp_frame_of_unarmed harmed)).latchCond 9).latchCond 10
    refine ⟨_, exec_fragmentDone_of_stop ho hop hstart hstop, by simp [State.endOp_seq_of_unarmed harmed], by simp [State.endOp_seq_of_unarmed harmed],
      ?_, (State.endOp_flags_of_unarmed harmed).1, hframe.acts, hframe.regs, hframe.rest⟩
    simp [State.endOp_seq_of_unarmed harmed, Nat.or_assoc]
  · have harmed : ((s.partOver a o l).act a).seq.armed = none := by simpa using harm
    have hframe := (((s.partOver_frame a o l).mono (by simp)).trans (State.endOp_frame_of_unarmed harmed)).latchCond 10
    obtain ⟨hpin, hwriting⟩ := State.endOp_flags_of_unarmed harmed
    exact ⟨_, exec_partDone_of_running l ho hop hstart, by simp [State.endOp_seq_of_unarmed harmed], by simp [State.endOp_seq_of_unarmed harmed],
      hwriting, hpin, hframe.acts, hframe.regs, hframe.rest⟩
  · have hframe := s.decoderDone_frame a x n
    refine ⟨_, exec_sectorDecoded_of_good hp hx hrec hn hmax hok htag, lookupKey_insert_same _ _ _, ?_, s.leaveDecoder_left a x, ?_,
      hframe.acts, hframe.regs⟩
    · simp [State.deliver]
    · rw [State.deliver, hframe.media]
  · obtain ⟨hcode, hdram, herased, hsectors, hacts⟩ := (s.decoderDone a x n).reportErased_facts a p x (code := 4) (by decide)
    have hframe := s.decoderDone_frame a x n
    exact ⟨_, exec_sectorDecoded_of_bad_tag hp hx hrec hn hmax hok htag, hcode, hdram.trans (by rw [hframe.media]), herased,
      hsectors.trans (by rw [hframe.media]), hframe.acts.same hacts⟩
  · obtain ⟨hcode, hdram, herased, hsectors, hacts⟩ := (s.leaveDecoder a x).reportErased_facts a p x (code := 3) (by decide)
    refine ⟨_, exec_ldpcNoConvergence hp, herased, ?_, hcode, hdram, hsectors, (s.leaveDecoder_frame a x).acts.same hacts⟩
    rw [State.act, hacts]
    exact s.leaveDecoder_left a x

end Sys2Proof.Machine
end

section
/-! The formatter sequencers (R106 to R126): what the vectors, requests, waits and takeovers set. -/

namespace Sys2Proof.Machine

open Sys2Proof

/-! ## Events of a sequencer -/

theorem State.seqEvent_frame (s : State) (a : Fin 4) (k : Nat) : SliceEvents a [Adr.FSQ_ERR a] s (s.seqEvent a k) := by
  have hset := (SliceEvents.refl a [Adr.FSQ_ERR a] s).setReg (s.reg (Adr.FSQ_ERR a) ||| BitVec.ofNat 32 (2 ^ k)) (r := Adr.FSQ_ERR a) (by simp)
  unfold State.seqEvent
  exact (SliceEvents.ite (hset.setFld _ _ (by simp)) hset).actEvent _ _ _ _

@[simp] theorem State.seqEvent_acts (s : State) (a : Fin 4) (k : Nat) : (s.seqEvent a k).acts = s.acts := by
  unfold State.seqEvent
  dsimp only
  split <;> simp

@[simp] theorem State.act_seqEvent (s : State) (a : Fin 4) (k : Nat) (b : Fin 4) : (s.seqEvent a k).act b = s.act b := by simp [State.act]

@[simp] theorem State.seqEvent_now (s : State) (a : Fin 4) (k : Nat) : (s.seqEvent a k).now = s.now := (s.seqEvent_frame a k).now

@[simp] theorem State.seqEvent_media (s : State) (a : Fin 4) (k : Nat) : (s.seqEvent a k).media = s.media := (s.seqEvent_frame a k).media

@[simp] theorem State.fld_seqEvent (s : State) (a : Fin 4) (k : Nat) {r : Nat} (f : Fld) (hr : r ≠ Adr.FSQ_ERR a)
    (he : ¬((0x5000000 ≤ r ∧ r < 0x5101000) ∨ r = Adr.ECC_MODE)) : (s.seqEvent a k).fld r f = s.fld r f :=
  (s.seqEvent_frame a k).fld f (by simpa using hr) he

@[simp] theorem State.flag_seqEvent (s : State) (a : Fin 4) (k : Nat) {r : Nat} (f : Fld) (hr : r ≠ Adr.FSQ_ERR a)
    (he : ¬((0x5000000 ≤ r ∧ r < 0x5101000) ∨ r = Adr.ECC_MODE)) : (s.seqEvent a k).flag r f = s.flag r f :=
  (s.seqEvent_frame a k).flag f (by simpa using hr) he

/-! ## Match registers -/

/-- Predicates that agree on a list find the same in it. -/
theorem find?_of_agree {α : Type} {p q : α → Bool} {l : List α} (h : ∀ x ∈ l, p x = q x) : l.find? p = l.find? q := by
  induction l with
  | nil => rfl
  | cons x l ih => rw [List.find?_cons, List.find?_cons, h x (List.mem_cons_self ..), ih fun y hy => h y (List.mem_cons_of_mem _ hy)]

/-- A fetch address depends on the match registers alone. -/
theorem State.matched_congr {s t : State} {a : Fin 4} (h : ∀ m, m < 32 → t.reg (Adr.FSQ_MATCH a m) = s.reg (Adr.FSQ_MATCH a m)) (pc : Nat) :
    t.matched a pc = s.matched a pc := by
  have hfld : ∀ m, m < 32 → ∀ f, t.fld (Adr.FSQ_MATCH a m) f = s.fld (Adr.FSQ_MATCH a m) f := fun m hm f => by
    rw [State.fld, h m hm, State.fld]
  have hflag : ∀ m, m < 32 → ∀ f, t.flag (Adr.FSQ_MATCH a m) f = s.flag (Adr.FSQ_MATCH a m) f := fun m hm f => by
    rw [State.flag, hfld m hm, State.flag]
  have hfind : (List.range 32).find? (fun m => t.flag (Adr.FSQ_MATCH a m) Fld.FSQ_MATCH_en
        && t.fld (Adr.FSQ_MATCH a m) Fld.FSQ_MATCH_rom_addr == pc) =
      (List.range 32).find? (fun m => s.flag (Adr.FSQ_MATCH a m) Fld.FSQ_MATCH_en && s.fld (Adr.FSQ_MATCH a m) Fld.FSQ_MATCH_rom_addr == pc) :=
    find?_of_agree fun m hm => by rw [hflag m (List.mem_range.1 hm), hfld m (List.mem_range.1 hm)]
  unfold State.matched
  rw [hfind]
  split
  · rfl
  · split
    next m hm => exact hfld m (List.mem_range.1 (List.mem_of_find?_eq_some hm)) _
    next => rfl

/-- The registers of actuator a that the sequencers keep their own state in. -/
def seqRegs (a : Fin 4) : List Nat := [Adr.FSQ_STATUS a, Adr.FSQ_RESUME a, Adr.FSQ_CKPT a, Adr.FSQ_ERR a]

theorem match_not_mem_seqRegs (a : Fin 4) {m : Nat} (h : m < 32) :
    Adr.FSQ_MATCH a m ∉ seqRegs a ∧ ¬EventReg (Adr.FSQ_MATCH a m) := by
  have hall : ∀ (a : Fin 4) (m : Fin 32), Adr.FSQ_MATCH a m ∉ seqRegs a ∧ ¬((0x5000000 ≤ Adr.FSQ_MATCH a m ∧ Adr.FSQ_MATCH a m < 0x5101000) ∨
      Adr.FSQ_MATCH a m = Adr.ECC_MODE) := by decide
  exact hall a ⟨m, h⟩

theorem SliceEvents.matched {a : Fin 4} {s t : State} (h : SliceEvents a (seqRegs a) s t) (pc : Nat) : t.matched a pc = s.matched a pc :=
  State.matched_congr (fun _ hm => h.regs _ (match_not_mem_seqRegs a hm).1 (match_not_mem_seqRegs a hm).2) pc

/-! ## Vectors -/

/-- The address a vector is entered at: that of its patch, or of the idle loop after its ROM routine (log entry 155). -/
def State.vectorPc (s : State) (a : Fin 4) (vector : Nat) : Nat := if s.matched a vector = vector then 0 else vector

@[simp] theorem Sequencer.giveUp_pc (q : Sequencer) : q.giveUp.pc = 0 := rfl

@[simp] theorem Sequencer.giveUp_cntA (q : Sequencer) : q.giveUp.cntA = q.cntA := by
  unfold Sequencer.giveUp Sequencer.stopChannel Sequencer.returnAll Sequencer.failCurrent
  split <;> rfl

theorem State.enterVector_frame (s : State) (a : Fin 4) (v : Nat) : SliceFrame a [Adr.FSQ_STATUS a] s (s.enterVector a v) :=
  .ite (((SliceFrame.refl a _ s).setFlag _ _ (by simp)).modSeq _) (((SliceFrame.refl a _ s).setFlag _ _ (by simp)).modSeq _)

@[simp] theorem State.enterVector_pc (s : State) (a : Fin 4) (v : Nat) : ((s.enterVector a v).act a).seq.pc = s.vectorPc a v := by
  unfold State.enterVector State.vectorPc
  dsimp only
  split <;> simp

@[simp] theorem State.enterVector_cntA (s : State) (a : Fin 4) (v : Nat) : ((s.enterVector a v).act a).seq.cntA = (s.act a).seq.cntA := by
  unfold State.enterVector
  dsimp only
  split <;> simp

theorem State.enterVector_idle (s : State) (a : Fin 4) (v : Nat) :
    (s.enterVector a v).flag (Adr.FSQ_STATUS a) Fld.FSQ_STATUS_idle = decide (s.matched a v = v) := by
  by_cases h : s.matched a v = v
  · simp (disch := (generalize a = b; decide +revert)) [State.enterVector, State.modSeq, h]
  · simp (disch := (generalize a = b; decide +revert)) [State.enterVector, State.modSeq, h]

/-- Entering a vector leaves every other field of the status. -/
theorem State.fld_enterVector (s : State) (a : Fin 4) (v : Nat) {f : Fld} (hf : f.lo ≤ f.hi ∧ f.hi < 32)
    (h : f.hi < Fld.FSQ_STATUS_idle.lo ∨ Fld.FSQ_STATUS_idle.hi < f.lo) :
    (s.enterVector a v).fld (Adr.FSQ_STATUS a) f = s.fld (Adr.FSQ_STATUS a) f := by
  unfold State.enterVector
  split <;> exact s.fld_setFlag_apart _ _ _ _ hf h

theorem State.flag_enterVector (s : State) (a : Fin 4) (v : Nat) {f : Fld} (hf : f.lo ≤ f.hi ∧ f.hi < 32)
    (h : f.hi < Fld.FSQ_STATUS_idle.lo ∨ Fld.FSQ_STATUS_idle.hi < f.lo) :
    (s.enterVector a v).flag (Adr.FSQ_STATUS a) f = s.flag (Adr.FSQ_STATUS a) f := by
  rw [State.flag, s.fld_enterVector a v hf h, State.flag]

/-! ## Aborts and interrupts -/

theorem State.checkpoint_frame (s : State) (a : Fin 4) : SliceFrame a [Adr.FSQ_CKPT a] s (s.checkpoint a) := by
  unfold State.checkpoint
  exact ((SliceFrame.refl a _ s).setReg _ (by simp)).modSeq _

theorem State.saveResume_frame (s : State) (a : Fin 4) (cause addr : Nat) : SliceFrame a [Adr.FSQ_RESUME a] s (s.saveResume a cause addr) :=
  ((SliceFrame.refl a _ s).setFld _ _ (by simp)).setFld _ _ (by simp)

theorem State.saveResume_fields (s : State) (a : Fin 4) {cause : Nat} (addr : Nat) (hc : cause < 4) :
    (s.saveResume a cause addr).fld (Adr.FSQ_RESUME a) Fld.FSQ_RESUME_cause = cause ∧
      (s.saveResume a cause addr).fld (Adr.FSQ_RESUME a) Fld.FSQ_RESUME_addr = addr % 2 ^ Fld.FSQ_RESUME_addr.width := by
  have hw : cause % 2 ^ Fld.FSQ_RESUME_cause.width = cause := Nat.mod_eq_of_lt hc
  unfold State.saveResume
  refine ⟨?_, ?_⟩
  all_goals simp (disch := (generalize a = b; decide +revert)) [hw]

/-- A request is saved with its cause and the present address (R117). -/
def State.requestSaved (s : State) (a : Fin 4) (cause : Nat) : State := (s.checkpoint a).saveResume a cause (s.act a).seq.pc

theorem State.requestSaved_frame (s : State) (a : Fin 4) (cause : Nat) :
    SliceFrame a [Adr.FSQ_CKPT a, Adr.FSQ_RESUME a] s (s.requestSaved a cause) :=
  ((s.checkpoint_frame a).mono (by simp)).trans ((State.saveResume_frame _ a _ _).mono (by simp))

/-- The state in which an abort goes to its vector. -/
def State.abortSaved (s : State) (a : Fin 4) : State :=
  ((s.requestSaved a 2).setFlag (Adr.FSQ_STATUS a) Fld.FSQ_STATUS_abort_pend false).setFlag (Adr.FSQ_STATUS a) Fld.FSQ_STATUS_in_irq false

theorem State.takeAbort_eq (s : State) (a : Fin 4) : s.takeAbort a = (s.abortSaved a).enterVector a 0x18 := rfl

theorem State.abortSaved_frame (s : State) (a : Fin 4) : SliceFrame a (seqRegs a) s (s.abortSaved a) :=
  (((s.requestSaved_frame a 2).mono (by simp [seqRegs])).setFlag _ _ (by simp [seqRegs])).setFlag _ _ (by simp [seqRegs])

theorem State.takeAbort_frame (s : State) (a : Fin 4) : SliceFrame a (seqRegs a) s (s.takeAbort a) :=
  (s.abortSaved_frame a).trans ((State.enterVector_frame _ a _).mono (by simp [seqRegs]))

/-- An abort goes to its vector, with its cause and the address it was taken at (R117, R119). -/
theorem State.takeAbort_facts (s : State) (a : Fin 4) :
    ((s.takeAbort a).act a).seq.pc = s.vectorPc a 0x18 ∧
      (s.takeAbort a).flag (Adr.FSQ_STATUS a) Fld.FSQ_STATUS_idle = decide (s.matched a 0x18 = 0x18) ∧
      (s.takeAbort a).fld (Adr.FSQ_RESUME a) Fld.FSQ_RESUME_cause = 2 ∧
      (s.takeAbort a).fld (Adr.FSQ_RESUME a) Fld.FSQ_RESUME_addr = (s.act a).seq.pc % 2 ^ Fld.FSQ_RESUME_addr.width ∧
      (s.takeAbort a).flag (Adr.FSQ_STATUS a) Fld.FSQ_STATUS_abort_pend = false := by
  obtain ⟨hcause, haddr⟩ := (s.checkpoint a).saveResume_fields a (s.act a).seq.pc (cause := 2) (by decide)
  have hmatch := (s.abortSaved_frame a).events.matched 0x18
  have hresume : ∀ f, (s.takeAbort a).fld (Adr.FSQ_RESUME a) f = (s.requestSaved a 2).fld (Adr.FSQ_RESUME a) f := fun f => by
    rw [State.takeAbort_eq, (State.enterVector_frame _ a 0x18).fld f (by generalize a = b; decide +revert)]
    simp (disch := (generalize a = b; decide +revert)) [State.abortSaved]
  refine ⟨?_, ?_, (hresume _).trans hcause, (hresume _).trans haddr, ?_⟩
  · rw [State.takeAbort_eq, State.enterVector_pc, State.vectorPc, hmatch, State.vectorPc]
  · rw [State.takeAbort_eq, State.enterVector_idle, hmatch]
  · rw [State.takeAbort_eq, State.flag_enterVector _ a 0x18 (by decide) (by decide)]
    simp (disch := (generalize a = b; decide +revert)) [State.abortSaved]

/-- An interrupt whose vector a match register replaces runs its patch (R117, R120). -/
theorem State.takeInterrupt_of_patched {s : State} {a : Fin 4} (h : s.matched a 0x10 ≠ 0x10) :
    s.takeInterrupt a = ((((s.requestSaved a 1).setFlag (Adr.FSQ_STATUS a) Fld.FSQ_STATUS_irq_pend false).setFlag (Adr.FSQ_STATUS a)
      Fld.FSQ_STATUS_in_irq true).setFlag (Adr.FSQ_STATUS a) Fld.FSQ_STATUS_idle false).modSeq a (fun q => { q with pc := 0x10, waitSince := none }) :=
  if_neg h

theorem State.takeInterrupt_facts {s : State} {a : Fin 4} (h : s.matched a 0x10 ≠ 0x10) :
    ((s.takeInterrupt a).act a).seq.pc = 0x10 ∧ (s.takeInterrupt a).fld (Adr.FSQ_RESUME a) Fld.FSQ_RESUME_cause = 1 ∧
      (s.takeInterrupt a).flag (Adr.FSQ_STATUS a) Fld.FSQ_STATUS_in_irq = true ∧
      (s.takeInterrupt a).flag (Adr.FSQ_STATUS a) Fld.FSQ_STATUS_irq_pend = false ∧ s.ActsBut a (s.takeInterrupt a) := by
  obtain ⟨hcause, -⟩ := (s.checkpoint a).saveResume_fields a (s.act a).seq.pc (cause := 1) (by decide)
  rw [State.takeInterrupt_of_patched h]
  refine ⟨by simp -implicitDefEqProofs, ?_, ?_, ?_, ((((s.requestSaved_frame a 1).acts.setFlag _ _ _).setFlag _ _ _).setFlag _ _ _).modSeq _⟩
  · simp -implicitDefEqProofs (disch := (generalize a = b; decide +revert)) [State.modSeq]
    exact hcause
  all_goals simp -implicitDefEqProofs (disch := (generalize a = b; decide +revert)) [State.modSeq]

/-! ## One microword -/

/-- A patch word that was corrected is reported before the microword (R127). -/
def State.corrected (s : State) (a : Fin 4) (p : Bool) : State := if p then s.seqEvent a 7 else s

/-- The state in which a microword is performed: an abort point ends a cut part and is copied to the follow (R117, R118). -/
def State.pointed (s : State) (a : Fin 4) (n : Nano) : State := if n.abortPt = true then (s.endCut a).checkpoint a else s

/-- A microword that is fetched and not reserved: an abort, an interrupt, a wait, or its performance. -/
theorem exec_microword_of_fetch {s : State} {a : Fin 4} {p : Bool} {i next : Nat} {n : Nano} (cell : Nat)
    (hlead : (s.corrected a p).lead a = some i)
    (hfetch : (s.corrected a p).fetchMicro a ((s.corrected a p).act a).seq.pc = some (n, next)) (hres : n.reserved = false) (hseq : n.seq ≠ 3) :
    exec (.microword a cell p) s =
      (let u := s.corrected a p
      if n.abortPt = true ∧ u.condition a 22 = true then .next (u.takeAbort a)
      else if n.abortPt = true ∧ u.condition a 21 = true ∧ (!u.flag (Adr.FSQ_STATUS a) Fld.FSQ_STATUS_in_irq) = true then .next (u.takeInterrupt a)
      else if (n.waitEn = true ∧ (u.pointed a n).condition a n.waitSel ≠ n.waitPol) ∨ ((u.pointed a n).act a).seq.stalls n = true then
        .next ((u.pointed a n).modSeq a (fun q => { q with waitSince := q.waitSince.or (some u.now) }))
      else .next ((u.pointed a n).performMicro a n next cell)) := by
  change execMicroword a cell p s = _
  unfold execMicroword
  change (match (s.corrected a p).lead a with
    | none => _
    | some _ => _) = _
  simp only [hlead]
  change (match (s.corrected a p).fetchMicro a ((s.corrected a p).act a).seq.pc with
    | none => _
    | some (n, next) => _) = _
  simp only [hfetch]
  exact if_neg (by simp [hres, hseq])

theorem State.endCut_cases (s : State) (a : Fin 4) :
    s.endCut a = s ∨ s.endCut a = (((s.modSeq a (fun q => { q with armed := none })).endOp a).latchCond a 9).latchCond a 10 := by
  unfold State.endCut
  split
  · split
    · exact .inr rfl
    · exact .inl rfl
  · exact .inl rfl

@[simp] theorem State.endCut_pc (s : State) (a : Fin 4) : ((s.endCut a).act a).seq.pc = (s.act a).seq.pc := by
  rcases s.endCut_cases a with h | h
  · rw [h]
  · rw [h]
    simp [State.endOp_seq_of_unarmed]

@[simp] theorem State.pointed_pc (s : State) (a : Fin 4) (n : Nano) : ((s.pointed a n).act a).seq.pc = (s.act a).seq.pc := by
  unfold State.pointed
  split <;> simp [State.checkpoint]

@[simp] theorem State.corrected_pc (s : State) (a : Fin 4) (p : Bool) : ((s.corrected a p).act a).seq.pc = (s.act a).seq.pc := by
  unfold State.corrected
  split <;> simp

@[simp] theorem State.corrected_now (s : State) (a : Fin 4) (p : Bool) : (s.corrected a p).now = s.now := by
  unfold State.corrected
  split <;> simp

/-- A microword that waits stays where it is, and its wait began when it first waited (R109, R113). -/
theorem State.waiting_facts (s : State) (a : Fin 4) (p : Bool) (n : Nano) :
    let v := (s.corrected a p).pointed a n
    let t := v.modSeq a (fun q => { q with waitSince := q.waitSince.or (some (s.corrected a p).now) })
    (t.act a).seq.waitSince = (v.act a).seq.waitSince.or (some s.now) ∧ (t.act a).seq.pc = (s.act a).seq.pc ∧
      (t.act a).seq.running = (v.act a).seq.running := by
  intro v t
  simp [t, v]

/-! ## Takeover -/

/-- The state in which the follow, now the lead, goes to the takeover vector: that of the last abort point (R125). -/
def State.followTakes (s : State) (a : Fin 4) : State :=
  let k := (s.act a).seq.ckpt
  ((((s.setFld (Adr.FSQ_STATUS a) Fld.FSQ_STATUS_seq0 2).setFld (Adr.FSQ_STATUS a) Fld.FSQ_STATUS_seq1 0).saveResume a 3 k.addr).modSeq a (fun q =>
    { q with cntA := k.cntA, tgt := k.tgt, flags := k.flags, cur := k.cur, look := k.look, latches := k.latches
             syncFound := k.syncFound, list := k.list ++ q.list.drop k.list.length, part := k.part, frag := k.frag }.stopChannel)).setFlag
    (Adr.FSQ_STATUS a) Fld.FSQ_STATUS_in_irq false

theorem State.lead_of_seq0 {s : State} {a : Fin 4} (h : s.fld (Adr.FSQ_STATUS a) Fld.FSQ_STATUS_seq0 = 0) : s.lead a = some 0 := if_pos h

theorem State.leadFaulty_of_follow {s : State} {a : Fin 4} (h0 : s.fld (Adr.FSQ_STATUS a) Fld.FSQ_STATUS_seq0 = 0)
    (h1 : s.fld (Adr.FSQ_STATUS a) Fld.FSQ_STATUS_seq1 = 1) :
    s.leadFaulty a = ((s.followTakes a).enterVector a 0x20).seqEvent a 0 := by
  simp only [State.leadFaulty, State.lead_of_seq0 h0]
  exact if_pos h1

theorem State.leadFaulty_of_alone {s : State} {a : Fin 4} (h0 : s.fld (Adr.FSQ_STATUS a) Fld.FSQ_STATUS_seq0 = 0)
    (h1 : s.fld (Adr.FSQ_STATUS a) Fld.FSQ_STATUS_seq1 ≠ 1) :
    s.leadFaulty a = (((s.setFld (Adr.FSQ_STATUS a) Fld.FSQ_STATUS_seq0 2).endMediaOps a).seqEvent a 2).actuatorLost a := by
  simp only [State.leadFaulty, State.lead_of_seq0 h0]
  exact if_neg h1

theorem State.followTakes_frame (s : State) (a : Fin 4) : SliceFrame a (seqRegs a) s (s.followTakes a) := by
  have hfields := ((SliceFrame.refl a (seqRegs a) s).setFld Fld.FSQ_STATUS_seq0 2 (r := Adr.FSQ_STATUS a) (by simp [seqRegs])).setFld
    Fld.FSQ_STATUS_seq1 0 (r := Adr.FSQ_STATUS a) (by simp [seqRegs])
  unfold State.followTakes
  exact ((hfields.trans ((State.saveResume_frame _ a _ _).mono (by simp [seqRegs]))).modSeq _).setFlag _ _ (by simp [seqRegs])

/-- What a takeover by the follow leaves (R125). -/
theorem State.leadFaulty_facts {s : State} {a : Fin 4} (h0 : s.fld (Adr.FSQ_STATUS a) Fld.FSQ_STATUS_seq0 = 0)
    (h1 : s.fld (Adr.FSQ_STATUS a) Fld.FSQ_STATUS_seq1 = 1) :
    (s.leadFaulty a).fld (Adr.FSQ_STATUS a) Fld.FSQ_STATUS_seq0 = 2 ∧ (s.leadFaulty a).fld (Adr.FSQ_STATUS a) Fld.FSQ_STATUS_seq1 = 0 ∧
      ((s.leadFaulty a).act a).seq.pc = s.vectorPc a 0x20 ∧
      (s.leadFaulty a).flag (Adr.FSQ_STATUS a) Fld.FSQ_STATUS_idle = decide (s.matched a 0x20 = 0x20) ∧
      (s.leadFaulty a).fld (Adr.FSQ_RESUME a) Fld.FSQ_RESUME_cause = 3 ∧
      ((s.leadFaulty a).act a).seq.cntA = (s.act a).seq.ckpt.cntA ∧ s.ActsBut a (s.leadFaulty a) := by
  have hframe := s.followTakes_frame a
  have hmatch := hframe.events.matched 0x20
  have hstatus : ∀ f : Fld, f = Fld.FSQ_STATUS_seq0 ∨ f = Fld.FSQ_STATUS_seq1 →
      (s.leadFaulty a).fld (Adr.FSQ_STATUS a) f = (s.followTakes a).fld (Adr.FSQ_STATUS a) f := by
    rintro f (rfl | rfl)
    all_goals
      rw [State.leadFaulty_of_follow h0 h1, State.fld_seqEvent _ _ _ _ (by generalize a = b; decide +revert) (by generalize a = b; decide +revert),
        State.fld_enterVector _ a 0x20 (by decide) (by decide)]
  refine ⟨?_, ?_, ?_, ?_, ?_, ?_, ?_⟩
  · rw [hstatus _ (.inl rfl), State.followTakes]
    simp -implicitDefEqProofs (disch := (generalize a = b; decide +revert)) [State.modSeq, State.saveResume, Fld.width, Fld.FSQ_STATUS_seq0]
  · rw [hstatus _ (.inr rfl), State.followTakes]
    simp -implicitDefEqProofs (disch := (generalize a = b; decide +revert)) [State.modSeq, State.saveResume]
  · rw [State.leadFaulty_of_follow h0 h1, State.act_seqEvent, State.enterVector_pc, State.vectorPc, hmatch, State.vectorPc]
  · rw [State.leadFaulty_of_follow h0 h1, State.flag_seqEvent _ _ _ _ (by generalize a = b; decide +revert) (by generalize a = b; decide +revert),
      State.enterVector_idle, hmatch]
  · rw [State.leadFaulty_of_follow h0 h1, State.fld_seqEvent _ _ _ _ (by generalize a = b; decide +revert) (by generalize a = b; decide +revert),
      (State.enterVector_frame _ a 0x20).fld _ (by generalize a = b; decide +revert), State.followTakes]
    simp -implicitDefEqProofs (disch := (generalize a = b; decide +revert)) only [State.modSeq, State.fld_setFlag_ne, State.modAct_fld]
    exact (State.saveResume_fields _ a _ (cause := 3) (by decide)).1
  · rw [State.leadFaulty_of_follow h0 h1, State.act_seqEvent, State.enterVector_cntA]
    simp -implicitDefEqProofs [State.followTakes, Sequencer.stopChannel]
  · rw [State.leadFaulty_of_follow h0 h1]
    exact ((hframe.acts.trans (State.enterVector_frame _ a 0x20).acts)).trans (State.seqEvent_frame _ a 0).acts

/-- The loss of an actuator leaves the status of its sequencers. -/
theorem State.fld_actuatorLost_seq0 (s : State) (a : Fin 4) :
    (s.actuatorLost a).fld (Adr.FSQ_STATUS a) Fld.FSQ_STATUS_seq0 = s.fld (Adr.FSQ_STATUS a) Fld.FSQ_STATUS_seq0 := by
  by_cases h : s.media.lostActs.contains a.val = true
  · rw [State.actuatorLost, if_pos h]
  · rw [State.actuatorLost_of_present (by simpa using h),
      (State.noteBroken_frame a _ _).fld _ (by generalize a = b; decide +revert) (by generalize a = b; decide +revert)]
    simp -implicitDefEqProofs (disch := (generalize a = b; decide +revert)) [State.lostSlice, State.endMediaOps, State.unloaded, State.requestAbort,
      State.unsettle, State.noPermit, State.setMode, State.modServo]
    rfl

/-- Settles O6: the vectors, the saved request and the takeover are described above; each row is one of them. -/
theorem sequencerRows : Obligations.SequencerRows := by
  unfold Obligations.SequencerRows
  intro a s
  refine ⟨?_, fun cell i n next hlead hfetch hres hseq hpt h22 => ?_, fun cell i n next hlead hfetch hres hseq hpt h22 h21 hirq hm => ?_, ?_, ?_,
    fun w hw hdue => ?_, fun w hw hnot => ?_, fun h0 h1 => ⟨?_, ?_, fun hpend => ?_⟩, fun h0 h1 hlost => ?_, fun hab hirq => ?_⟩
  · intro p i cell n next u v hlead hfetch hres hseq hno
    have hexec := exec_microword_of_fetch (p := p) cell hlead hfetch hres hseq
    dsimp only at hexec
    rw [if_neg fun h => Bool.noConfusion ((hno h.1).1.symm.trans h.2), if_neg fun h => Bool.noConfusion ((hno h.1).2.symm.trans h.2.1)] at hexec
    exact ⟨fun hwait hstall => hexec.trans (if_neg fun h => h.elim (fun h => h.2 (hwait h.1)) fun h => Bool.noConfusion (hstall.symm.trans h)),
      fun hstay => ⟨_, hexec.trans (if_pos hstay), s.waiting_facts a p n⟩⟩
  · obtain ⟨hpc, -, hcause, haddr, hpend⟩ := s.takeAbort_facts a
    exact ⟨_, (exec_microword_of_fetch (p := false) cell hlead hfetch hres hseq).trans (if_pos ⟨hpt, h22⟩), hpc, hcause, haddr, hpend, (s.takeAbort_frame a).acts⟩
  · have hexec := (exec_microword_of_fetch (p := false) cell hlead hfetch hres hseq).trans
      ((if_neg fun h => Bool.noConfusion (h22.symm.trans h.2)).trans (if_pos ⟨hpt, h21, congrArg (!·) hirq⟩))
    exact ⟨_, hexec, State.takeInterrupt_facts hm⟩
  · exact ⟨_, rfl, s.flag_setFlag_eq _ _ _ (by decide), s.regsBut_setFlag _ _ _, rfl⟩
  · exact ⟨_, rfl, s.flag_setFlag_eq _ _ _ (by decide), s.regsBut_setFlag _ _ _, rfl⟩
  · obtain ⟨hpc, hidle, -, haddr, hpend⟩ := s.takeAbort_facts a
    have hexec : exec (.waitLimitExpiry a) s = .next ((s.takeAbort a).seqEvent a 5) := by
      change execWaitLimitExpiry a s = _
      simp only [execWaitLimitExpiry, hw, hdue, if_true]
    have hframe := ((s.takeAbort_frame a).events).trans ((State.seqEvent_frame (s.takeAbort a) a 5).mono (by simp [seqRegs]))
    refine ⟨_, hexec, by rw [State.act_seqEvent]; exact hpc, ?_, ?_, ?_, hframe.acts, hframe.regs⟩
    · rw [State.flag_seqEvent _ _ _ _ (by generalize a = b; decide +revert) (by generalize a = b; decide +revert), hidle]
    · rw [State.flag_seqEvent _ _ _ _ (by generalize a = b; decide +revert) (by generalize a = b; decide +revert), hpend]
    · rw [State.fld_seqEvent _ _ _ _ (by generalize a = b; decide +revert) (by generalize a = b; decide +revert), haddr]
  · change execWaitLimitExpiry a s = _
    simp only [execWaitLimitExpiry, hw]
    rw [if_neg (Nat.not_le.2 hnot)]
  · exact ⟨_, rfl, State.leadFaulty_facts h0 h1⟩
  · have hexec : exec (.followFault a) s = .next ((s.setFld (Adr.FSQ_STATUS a) Fld.FSQ_STATUS_seq1 2).seqEvent a 1) := by
      change execFollowFault a s = _
      simp only [execFollowFault, State.lead_of_seq0 h0]
      exact if_pos h1
    have hregs : s.RegsButEvents [Adr.FSQ_STATUS a, Adr.FSQ_ERR a] ((s.setFld (Adr.FSQ_STATUS a) Fld.FSQ_STATUS_seq1 2).seqEvent a 1) :=
      ((State.RegsButEvents.refl _ s).setFld _ _ (by simp)).trans ((State.seqEvent_frame _ a 1).regs.mono (by simp))
    refine ⟨_, hexec, ?_, ?_, by simp, hregs⟩
    all_goals simp (disch := (generalize a = b; decide +revert)) [h0, Fld.width, Fld.FSQ_STATUS_seq1]
  · have hkeep : ∀ f, (s.seqEvent a 4).fld (Adr.FSQ_STATUS a) f = s.fld (Adr.FSQ_STATUS a) f := fun f =>
      State.fld_seqEvent _ _ _ _ (by generalize a = b; decide +revert) (by generalize a = b; decide +revert)
    obtain ⟨hzero, hone, hpc, -⟩ := State.leadFaulty_facts ((hkeep _).trans h0) ((hkeep _).trans h1)
    refine ⟨_, if_pos (.inl hpend), hzero, hone, hpc.trans ?_⟩
    rw [State.vectorPc, ((s.seqEvent_frame a 4).mono (by simp [seqRegs])).matched]
  · have hgone : (((s.setFld (Adr.FSQ_STATUS a) Fld.FSQ_STATUS_seq0 2).endMediaOps a).seqEvent a 2).media.lostActs.contains a.val = false := by
      rw [State.seqEvent_media]
      exact hlost
    obtain ⟨hl, hmem, -⟩ := State.actuatorLost_facts hgone
    have hexec : exec (.leadFault a) s = .next ((((s.setFld (Adr.FSQ_STATUS a) Fld.FSQ_STATUS_seq0 2).endMediaOps a).seqEvent a 2).actuatorLost a) :=
      by
        change execLeadFault a s = _
        rw [execLeadFault, State.leadFaulty_of_alone h0 (by omega)]
    refine ⟨_, hexec, ?_, hl, hmem⟩
    rw [State.fld_actuatorLost_seq0]
    simp -implicitDefEqProofs (disch := (generalize a = b; decide +revert)) [State.endMediaOps, State.requestAbort, Fld.width, Fld.FSQ_STATUS_seq0]
  · exact if_neg (by simp [hab, hirq])

end Sys2Proof.Machine
end

section
/-! A servo sample (R90, R130, R158, R160): the sequence number and the host side through its stages, and the state mirror at its end. -/

namespace Sys2Proof.Machine

open Sys2Proof

/-- The power-IC port's step changes the port alone. -/
theorem State.picGo_only (s : State) : s.picGo = { s with pic := s.picGo.pic } := by
  unfold State.picGo
  dsimp only
  split
  · split <;> rfl
  · rfl

theorem State.picSend_only (s : State) (k : PicKind) (n cs addr data : Nat) :
    s.picSend k n cs addr data = { s with pic := (s.picSend k n cs addr data).pic } := State.picGo_only _

/-- From s to t a sample's stage keeps the demodulator's sequence number of actuator a and the host side. -/
structure SampleStage (a : Fin 4) (s t : State) : Prop where
  seq : t.fld (Adr.BTN_POS a) Fld.BTN_POS_seq = s.fld (Adr.BTN_POS a) Fld.BTN_POS_seq
  host : t.host = s.host

namespace SampleStage

theorem refl (a : Fin 4) (s : State) : SampleStage a s s := ⟨rfl, rfl⟩

theorem trans {a : Fin 4} {s t u : State} (h : SampleStage a s t) (k : SampleStage a t u) : SampleStage a s u := ⟨k.seq.trans h.seq, k.host.trans h.host⟩

theorem modAct {a : Fin 4} {s t : State} (h : SampleStage a s t) (b : Fin 4) (f : Act → Act) : SampleStage a s (t.modAct b f) := ⟨h.seq, h.host⟩

theorem modServo {a : Fin 4} {s t : State} (h : SampleStage a s t) (b : Fin 4) (f : Servo → Servo) : SampleStage a s (t.modServo b f) := h.modAct b _

theorem setFld {a : Fin 4} {s t : State} (h : SampleStage a s t) {r : Nat} (f : Fld) (v : Nat) (hr : Adr.BTN_POS a ≠ r) : SampleStage a s (t.setFld r f v) :=
  ⟨(t.fld_setFld_ne f _ v hr).trans h.seq, h.host⟩

theorem setFlag {a : Fin 4} {s t : State} (h : SampleStage a s t) {r : Nat} (f : Fld) (v : Bool) (hr : Adr.BTN_POS a ≠ r) : SampleStage a s (t.setFlag r f v) :=
  h.setFld f _ hr

theorem setSFld {a : Fin 4} {s t : State} (h : SampleStage a s t) {r : Nat} (f : Fld) (v : Int) (hr : Adr.BTN_POS a ≠ r) : SampleStage a s (t.setSFld r f v) :=
  h.setFld f _ hr

theorem countFld {a : Fin 4} {s t : State} (h : SampleStage a s t) {r : Nat} (f : Fld) (hr : Adr.BTN_POS a ≠ r) : SampleStage a s (t.countFld r f) := h.setFld f _ hr

theorem actEvent {a : Fin 4} {s t : State} (h : SampleStage a s t) (n : Fin 4) (o d e : Nat) : SampleStage a s (t.actEvent n o d e) :=
  ⟨(t.fld_actEvent n o d e _ (by generalize a = b; decide +revert)).trans h.seq, (t.actEvent_only n o d e).host.trans h.host⟩

theorem setClock {a : Fin 4} {s t : State} (h : SampleStage a s t) (c : Nat) : SampleStage a s (t.setClock a c) := h.setFld _ _ (by generalize a = b; decide +revert)

theorem ite {a : Fin 4} {s t u : State} {p : Prop} [Decidable p] (h : SampleStage a s t) (k : SampleStage a s u) : SampleStage a s (if p then t else u) := by
  split
  · exact h
  · exact k

theorem guardAt {a : Fin 4} {s t : State} (h : SampleStage a s t) (stage k : Nat) : SampleStage a s (t.guardAt a stage k) := by
  unfold State.guardAt
  exact ((SampleStage.ite h ((h.setFld _ _ (by generalize a = b; decide +revert)).setFld _ _ (by generalize a = b; decide +revert))).setFlag _ _
    (by generalize a = b; decide +revert)).actEvent _ _ _ _

theorem foldl_guardAt {a : Fin 4} {s : State} (stage : Nat) (l : List Nat) {t : State} (h : SampleStage a s t) :
    SampleStage a s (l.foldl (fun s k => s.guardAt a stage k) t) := by
  induction l generalizing t with
  | nil => exact h
  | cons k l ih => exact ih (h.guardAt stage k)

theorem stageFlags {a : Fin 4} {s t : State} (h : SampleStage a s t) (stage : Nat) (o : StageOut) : SampleStage a s (t.stageFlags a stage o) :=
  foldl_guardAt stage _ (SampleStage.ite (h.setFlag _ _ (by generalize a = b; decide +revert)) h)

theorem picSend {a : Fin 4} {s t : State} (h : SampleStage a s t) (k : PicKind) (n cs addr data : Nat) : SampleStage a s (t.picSend k n cs addr data) := by
  rw [t.picSend_only]
  exact ⟨h.seq, h.host⟩

theorem dropGate {a : Fin 4} {s t : State} (h : SampleStage a s t) : SampleStage a s (t.dropGate a) :=
  ((h.setFlag _ _ (by generalize a = b; decide +revert)).setFlag _ _ (by generalize a = b; decide +revert)).modAct _ _

theorem sectorError {a : Fin 4} {s t : State} (h : SampleStage a s t) (code wh : Nat) : SampleStage a s (t.sectorError a code wh) :=
  ⟨(t.fld_sectorError a code wh _ (by generalize a = b; decide +revert) (by generalize a = b; decide +revert)).trans h.seq, (t.sectorError_host a code wh).trans h.host⟩

end SampleStage

/-! ## Demodulation -/

theorem State.sampleEnds_only (s : State) : s.sampleEnds = { s with pic := s.sampleEnds.pic } := State.picGo_only _

/-- The position word of a sample counts its sequence number (R90). -/
theorem getBits_position_seq (w : Word) (seq cause oob valid ratio : Nat) :
    getBits (setBits (setBits (setBits (setBits (setBits w Fld.BTN_POS_seq seq) Fld.BTN_POS_cause cause) Fld.BTN_POS_oob oob) Fld.BTN_POS_valid valid)
      Fld.BTN_POS_ratio ratio) Fld.BTN_POS_seq = seq % 2 ^ Fld.BTN_POS_seq.width := by
  have hok : Fld.BTN_POS_seq.Ok := ⟨by decide, by decide⟩
  rw [getBits_setBits_other _ _ _ _ hok (by decide), getBits_setBits_other _ _ _ _ hok (by decide), getBits_setBits_other _ _ _ _ hok (by decide),
    getBits_setBits_other _ _ _ _ hok (by decide), getBits_setBits_same _ _ _ hok]

/-- Demodulation counts the sequence number and leaves the loop's mode (R90). -/
theorem State.demodulate_facts (s : State) (a : Fin 4) (i : Integrals) :
    (s.demodulate a i).2.fld (Adr.BTN_POS a) Fld.BTN_POS_seq = (s.fld (Adr.BTN_POS a) Fld.BTN_POS_seq + 1) % 2 ^ Fld.BTN_POS_seq.width ∧
      (s.demodulate a i).2.mode a = s.mode a ∧ (s.demodulate a i).2.host = s.host := by
  unfold State.demodulate
  extract_lets ampA ampB f n an bn den oob b valid ratio v w xcal oobPes raw pes g b1 s1 pos s2 amp s3 s4 p s5 s6 held s7
  have hseq2 : s2.fld (Adr.BTN_POS a) Fld.BTN_POS_seq = (s.fld (Adr.BTN_POS a) Fld.BTN_POS_seq + 1) % 2 ^ Fld.BTN_POS_seq.width := by
    rw [State.fld_setReg_same, getBits_position_seq]
    rfl
  have hstage : SampleStage a s2 s7 := by
    have h6 : SampleStage a s2 s6 := by
      refine SampleStage.setFlag ?_ _ _ (by generalize a = b; decide +revert)
      refine SampleStage.setSFld ?_ _ _ (by simp only [p]; generalize a = b; decide +revert)
      refine SampleStage.setFlag ?_ _ _ (by simp only [p]; generalize a = b; decide +revert)
      refine SampleStage.setFlag ?_ _ _ (by simp only [p]; generalize a = b; decide +revert)
      refine SampleStage.setFld ?_ _ _ (by generalize a = b; decide +revert)
      refine SampleStage.setFld ?_ _ _ (by simp only [amp]; generalize a = b; decide +revert)
      exact (SampleStage.refl a s2).setFld _ _ (by simp only [amp]; generalize a = b; decide +revert)
    exact .ite (h6.setClock 3) (.ite (h6.setClock 1) h6)
  have hmode6 : s6.fld (Adr.SRV_STATUS a) Fld.SRV_STATUS_mode = s.fld (Adr.SRV_STATUS a) Fld.SRV_STATUS_mode := by
    simp -implicitDefEqProofs (disch := (generalize a = b; decide +revert)) only [s6, s5, s4, s3, s2, s1, pos, amp, p, State.fld_setFlag_apart, State.fld_setFlag_ne,
      State.fld_setFld_ne, State.fld_setSFld_ne, State.fld_setReg_ne, State.modAct_fld]
  have hmode : s7.mode a = s.mode a := by
    refine Eq.trans ?_ hmode6
    simp only [s7]
    repeat' split
    all_goals simp (disch := (generalize a = b; decide +revert)) [State.mode, State.setClock]
  exact ⟨hstage.seq.trans hseq2, hmode, hstage.host⟩

/-! ## The stages after it -/

theorem State.checkIsns_stage (s : State) (a : Fin 4) (isns v : Int) : SampleStage a s (s.checkIsns a isns v) := by
  have hcode := (SampleStage.refl a s).setSFld Fld.SRV_ISNS_code isns (r := Adr.SRV_ISNS a) (by generalize a = b; decide +revert)
  unfold State.checkIsns
  exact .ite (hcode.modServo _ _) (hcode.modServo _ _)

theorem State.checkIsns_mode (s : State) (a : Fin 4) (isns v : Int) : (s.checkIsns a isns v).mode a = s.mode a := by
  unfold State.checkIsns
  dsimp only
  repeat' split
  all_goals simp (disch := (generalize a = b; decide +revert)) [State.mode, State.modServo]

theorem State.checkRv_stage (s : State) (a : Fin 4) (x y : Int) : SampleStage a s (s.checkRv a x y) := by
  unfold State.checkRv
  exact (SampleStage.refl a s).modServo _ _

theorem State.feedForward_stage (s : State) (a : Fin 4) (q : Nat) (x y : Int) : SampleStage a s (s.feedForward a q x y).2 := by
  unfold State.feedForward
  extract_lets v cfg rv xa cf ox oy g termX termY sum oa s1 s2
  have h1 : SampleStage a s s1 := .ite (((((SampleStage.refl a s).modServo _ _).stageFlags _ _)).stageFlags _ _) (.refl a s)
  exact .ite ((h1.modServo _ _).stageFlags _ _) h1

theorem State.runStages_stage (s : State) (a : Fin 4) (m : Sample) : SampleStage a s (s.runStages a m).2 := by
  unfold State.runStages
  extract_lets cfg nm nv cm cv im iv v mst lim on om um x vst ov s1 s2 st s3 s4
  have h1 : SampleStage a s s1 := (SampleStage.refl a s).modServo _ _
  have h2 : SampleStage a s s2 := (SampleStage.ite (h1.stageFlags _ _) h1).stageFlags _ _
  have h3 : SampleStage a s s3 :=
    .ite ((h2.setFlag _ _ (by simp only [st]; generalize a = b; decide +revert)).setFlag _ _ (by simp only [st]; generalize a = b; decide +revert)) h2
  exact .ite (h3.setFlag _ _ (by generalize a = b; decide +revert)) h3

theorem State.modeDemand_stage (s : State) (a : Fin 4) (m : Sample) : SampleStage a s (s.modeDemand a m).2 := by
  unfold State.modeDemand
  split
  · exact s.runStages_stage a m
  · split
    · split
      · dsimp only
        exact (SampleStage.refl a s).modServo _ _
      · exact .refl a s
    · exact .refl a s

theorem State.sendOutputs_stage (s : State) (a : Fin 4) (d f : Int) : SampleStage a s (s.sendOutputs a d f) := by
  unfold State.sendOutputs
  exact ((((SampleStage.refl a s).setSFld _ _ (by generalize a = b; decide +revert)).setSFld _ _ (by generalize a = b; decide +revert)).modServo _ _).picSend _ _ _ _ _

theorem State.sampleDemand_stage (s : State) (a : Fin 4) (m : Sample) (x y : Int) : SampleStage a s (s.sampleDemand a m x y) := by
  unfold State.sampleDemand
  extract_lets f g raw demand s2 s3 pub
  have hg : SampleStage a s g.2 := (s.feedForward_stage a _ x y).trans (State.modeDemand_stage _ a m)
  have h2 : SampleStage a s s2 := .ite hg (hg.setFlag _ _ (by generalize a = b; decide +revert))
  exact (h2.trans (State.sendOutputs_stage _ a _ _)).modServo _ _

theorem State.offTrack_stage (s : State) (a : Fin 4) : SampleStage a s (s.offTrack a) := by
  unfold State.offTrack
  extract_lets was writing s1 s2
  have h1 : SampleStage a s s1 :=
    (((((SampleStage.refl a s).setFlag _ _ (by generalize a = b; decide +revert)).setFlag _ _ (by generalize a = b; decide +revert)).modServo _ _).setFlag _ _
      (by generalize a = b; decide +revert)).modServo _ _
  have h2 : SampleStage a s s2 := .ite (h1.countFld _ (by generalize a = b; decide +revert)) h1
  exact .ite (h2.dropGate.sectorError _ _) h2

theorem State.supervise_stage (s : State) (a : Fin 4) (m : Sample) : SampleStage a s (s.supervise a m) := by
  have hself := SampleStage.refl a s
  unfold State.supervise
  dsimp only
  refine .ite hself (.ite ((SampleStage.ite hself (hself.modServo _ _)).modServo _ _) (.ite hself (hself.modServo _ _)))

theorem State.judgeSample_stage (s : State) (a : Fin 4) (m : Sample) : SampleStage a s (s.judgeSample a m) := by
  unfold State.judgeSample
  extract_lets inWin s1 s2
  have h1 : SampleStage a s s1 := .ite ((SampleStage.refl a s).modServo _ _) (.refl a s)
  have h2 : SampleStage a s s2 := .ite (h1.trans (State.offTrack_stage _ a)) h1
  exact h2.trans (State.supervise_stage _ a m)

/-! ## The whole sample -/

/-- The state of a sample after demodulation and the sensor checks. -/
def State.sampleTaken (s : State) (a : Fin 4) (x : Integrals) (isns rvx rvy : Int) : State :=
  ((s.sampleEnds.demodulate a x).2.checkIsns a isns (s.sfld (Adr.SRV_OUT a) Fld.SRV_OUT_vcm)).checkRv a rvx rvy

/-- The mirror equals the section states and the mode that stand (R160). -/
theorem State.writeMirror_mirror (s : State) (a : Fin 4) :
    ((s.writeMirror a).act a).servo.mirror = { vcm := ((s.writeMirror a).act a).servo.vcm, ma := ((s.writeMirror a).act a).servo.ma
                                               rv := ((s.writeMirror a).act a).servo.rv, xa := ((s.writeMirror a).act a).servo.xa
                                               mode := (s.writeMirror a).mode a } := by
  simp [State.writeMirror, State.mode, State.modServo]

theorem State.writeMirror_stage (s : State) (a : Fin 4) : SampleStage a s (s.writeMirror a) := (SampleStage.refl a s).modServo _ _

theorem State.sampleTaken_facts (s : State) (a : Fin 4) (x : Integrals) (isns rvx rvy : Int) :
    (s.sampleTaken a x isns rvx rvy).fld (Adr.BTN_POS a) Fld.BTN_POS_seq =
        (s.fld (Adr.BTN_POS a) Fld.BTN_POS_seq + 1) % 2 ^ Fld.BTN_POS_seq.width ∧
      (s.sampleTaken a x isns rvx rvy).mode a = s.mode a ∧ (s.sampleTaken a x isns rvx rvy).host = s.host := by
  obtain ⟨hseq, hmode, hhost⟩ := s.sampleEnds.demodulate_facts a x
  have hcheck : SampleStage a (s.sampleEnds.demodulate a x).2 (s.sampleTaken a x isns rvx rvy) :=
    (State.checkIsns_stage _ a _ _).trans (State.checkRv_stage _ a _ _)
  have hends := s.sampleEnds_only
  refine ⟨(hcheck.seq.trans hseq).trans (by rw [hends]; rfl), ?_, (hcheck.host.trans hhost).trans (by rw [hends])⟩
  refine ((State.checkIsns_mode (s.sampleEnds.demodulate a x).2 a isns (s.sfld (Adr.SRV_OUT a) Fld.SRV_OUT_vcm)).trans hmode).trans ?_
  rw [hends]
  rfl

/-- The end of a sample of an unloaded loop: it publishes no current (R158, R160). -/
def State.sampleUnloaded (s : State) (a : Fin 4) : State :=
  (s.modServo a (fun x => { x with predictedPrev := x.predicted, predicted := 0 })).writeMirror a

/-- The end of a sample of a loaded loop: its demand, what its position decides, and the permit (R142 to R160). -/
def State.sampleRun (s : State) (a : Fin 4) (m : Sample) (rvx rvy : Int) : State :=
  let t := (s.sampleDemand a m rvx rvy).judgeSample a m
  (t.setFlag (Adr.SRV_STATUS a) Fld.SRV_STATUS_wr_permit (t.permitFor a m)).writeMirror a

theorem exec_servoSample_of_unloaded {s : State} {a : Fin 4} {x : Integrals} {isns rvx rvy : Int} (h : (s.sampleTaken a x isns rvx rvy).mode a = 0) :
    exec (.servoSample a x isns rvx rvy) s = .next ((s.sampleTaken a x isns rvx rvy).sampleUnloaded a) := by
  change execServoSample a x isns rvx rvy s = _
  exact if_pos h

theorem exec_servoSample_of_loaded {s : State} {a : Fin 4} {x : Integrals} {isns rvx rvy : Int} (h : (s.sampleTaken a x isns rvx rvy).mode a ≠ 0) :
    exec (.servoSample a x isns rvx rvy) s =
      .next ((s.sampleTaken a x isns rvx rvy).sampleRun a (s.sampleEnds.demodulate a x).1 rvx rvy) := by
  change execServoSample a x isns rvx rvy s = _
  exact if_neg h

theorem State.sampleRun_stage (s : State) (a : Fin 4) (m : Sample) (rvx rvy : Int) : SampleStage a s (s.sampleRun a m rvx rvy) :=
  (((s.sampleDemand_stage a m rvx rvy).trans (State.judgeSample_stage _ a m)).setFlag _ _ (by generalize a = b; decide +revert)).trans
    (State.writeMirror_stage _ a)

theorem State.sampleUnloaded_stage (s : State) (a : Fin 4) : SampleStage a s (s.sampleUnloaded a) :=
  ((SampleStage.refl a s).modServo _ _).trans (State.writeMirror_stage _ a)

theorem State.sampleUnloaded_facts (s : State) (a : Fin 4) :
    (s.sampleUnloaded a).mode a = s.mode a ∧ ((s.sampleUnloaded a).act a).servo.predicted = 0 := by
  simp [State.sampleUnloaded, State.writeMirror, State.mode, State.modServo]

/-- Settles O7: every stage keeps the sequence number that demodulation counted, and the last one writes the mirror. -/
theorem sampleEndsWithMirror : Obligations.SampleEndsWithMirror := by
  unfold Obligations.SampleEndsWithMirror
  intro a s x isns rvx rvy
  obtain ⟨hseq, hmode, hhost⟩ := s.sampleTaken_facts a x isns rvx rvy
  by_cases hzero : (s.sampleTaken a x isns rvx rvy).mode a = 0
  · obtain ⟨hm, hpred⟩ := (s.sampleTaken a x isns rvx rvy).sampleUnloaded_facts a
    have hstage := (s.sampleTaken a x isns rvx rvy).sampleUnloaded_stage a
    exact ⟨_, exec_servoSample_of_unloaded hzero, State.writeMirror_mirror _ a, hstage.seq.trans hseq, fun _ => ⟨hm.trans hzero, hpred⟩,
      hstage.host.trans hhost⟩
  · have hstage := (s.sampleTaken a x isns rvx rvy).sampleRun_stage a (s.sampleEnds.demodulate a x).1 rvx rvy
    exact ⟨_, exec_servoSample_of_loaded hzero, State.writeMirror_mirror _ a, hstage.seq.trans hseq, fun h => absurd (hmode.trans h) hzero,
      hstage.host.trans hhost⟩

end Sys2Proof.Machine
end

section
/-! The batten gain and the settling of the loop (R91, R100, R149, R151), and the supervisors and sensor checks (R153 to R157). -/

namespace Sys2Proof.Machine

open Sys2Proof

/-! ## Gain and windows -/

/-- The gain code steps to v, and the window of a gain step opens (R91, R100). -/
def State.gainStepped (s : State) (a : Fin 4) (v : Nat) : State :=
  ((s.modBatten a (fun x => { x with gainRun := 0, gainSince := 0 })).setFld (Adr.BTN_INVAL a) Fld.BTN_INVAL_gain_code v).openWindow a 2 6

theorem exec_battenGainStep_of_due {s : State} {a : Fin 4} (hauto : s.flag (Adr.BTN_CTRL a) Fld.BTN_CTRL_gain_auto = true)
    (hrun : 16 ≤ (s.act a).batten.gainRun) (hsince : 16 ≤ (s.act a).batten.gainSince)
    (hup : (s.act a).batten.gainUp = true → s.fld (Adr.BTN_INVAL a) Fld.BTN_INVAL_gain_code < 31)
    (hdown : (s.act a).batten.gainUp = false → 0 < s.fld (Adr.BTN_INVAL a) Fld.BTN_INVAL_gain_code) :
    exec (.battenGainStep a) s = .next (s.gainStepped a (if (s.act a).batten.gainUp = true
      then s.fld (Adr.BTN_INVAL a) Fld.BTN_INVAL_gain_code + 1 else s.fld (Adr.BTN_INVAL a) Fld.BTN_INVAL_gain_code - 1)) := by
  refine if_neg ?_
  cases hg : (s.act a).batten.gainUp with
  | true =>
    have := hup hg
    simp [hauto]
    omega
  | false =>
    have := hdown hg
    simp [hauto]
    omega

theorem exec_battenGainStep_of_early {s : State} {a : Fin 4}
    (h : s.flag (Adr.BTN_CTRL a) Fld.BTN_CTRL_gain_auto = false ∨ (s.act a).batten.gainRun < 16 ∨ (s.act a).batten.gainSince < 16) :
    exec (.battenGainStep a) s = .next s := by
  refine if_pos ?_
  rcases h with h | h | h <;> simp [h]

theorem exec_battenGainStep_of_limit {s : State} {a : Fin 4}
    (h : s.fld (Adr.BTN_INVAL a) Fld.BTN_INVAL_gain_code = if (s.act a).batten.gainUp = true then 31 else 0) :
    exec (.battenGainStep a) s = .next s := by
  refine if_pos ?_
  cases hg : (s.act a).batten.gainUp <;> simp [h, hg]

theorem State.gainStepped_frame (s : State) (a : Fin 4) (v : Nat) :
    SliceFrame a [Adr.BTN_INVAL a, Adr.BTN_POS a] s (s.gainStepped a v) :=
  (((SliceFrame.refl a _ s).modBatten _).setFld _ _ (by simp)).trans (State.openWindow_frame _ a 2 6)

theorem State.openWindow_gain_code (s : State) (a : Fin 4) (c n : Nat) :
    (s.openWindow a c n).fld (Adr.BTN_INVAL a) Fld.BTN_INVAL_gain_code = s.fld (Adr.BTN_INVAL a) Fld.BTN_INVAL_gain_code := by
  simp -implicitDefEqProofs (disch := (generalize a = b; decide +revert)) [State.openWindow, State.modBatten]

theorem State.gainStepped_facts (s : State) (a : Fin 4) {v : Nat} (hv : v < 32) :
    (s.gainStepped a v).fld (Adr.BTN_INVAL a) Fld.BTN_INVAL_gain_code = v ∧ ((s.gainStepped a v).act a).batten.winGain = 6 ∧
      ((s.gainStepped a v).act a).batten.gainSince = 0 := by
  refine ⟨?_, by simp [State.gainStepped, Batten.opened], by simp [State.gainStepped]⟩
  rw [State.gainStepped, State.openWindow_gain_code, State.fld_setFld_of_lt _ _ _ (by decide) hv]

/-! ## Settling -/

/-- The loop is settled and its off-track inhibit ends (R149, R152). -/
def State.loopSettled (s : State) (a : Fin 4) : State :=
  (s.setFlag (Adr.SRV_STATUS a) Fld.SRV_STATUS_settled true).modServo a (fun x => { x with inhibit := false })

/-- The position that the last sample left. -/
def State.lastSample (s : State) (a : Fin 4) : Sample :=
  ⟨s.flag (Adr.SRV_PES a) Fld.SRV_PES_valid, s.flag (Adr.SRV_PES a) Fld.SRV_PES_oob, (s.act a).servo.lastValidPes⟩

theorem exec_settled_of_due {s : State} {a : Fin 4} (hmode : s.mode a = 1)
    (hrun : s.fld (Adr.SRV_SETTLE a) Fld.SRV_SETTLE_settle_cnt ≤ (s.act a).servo.settleRun) :
    exec (.settled a) s = .next ((s.loopSettled a).setFlag (Adr.SRV_STATUS a) Fld.SRV_STATUS_wr_permit
      ((s.loopSettled a).permitFor a (s.lastSample a))) := if_pos ⟨hmode, hrun⟩

/-- No servo permit while the function is stopped (R151). -/
theorem State.permitFor_of_stopped {s : State} {a : Fin 4} (m : Sample) (h : s.funcRunning (4 + a) = false) : s.permitFor a m = false := by
  simp [State.permitFor, h]

theorem State.funcRunning_loopSettled (s : State) (a : Fin 4) : (s.loopSettled a).funcRunning (4 + a) = s.funcRunning (4 + a) := by
  simp (disch := (generalize a = b; decide +revert)) [State.funcRunning, State.loopSettled, State.modServo]

/-- Settles O8: a gain step and the end of the windows are stores in BTN_INVAL and BTN_POS; settling is one in SRV_STATUS. -/
theorem gainWindowAndSettling : Obligations.GainWindowAndSettling := by
  unfold Obligations.GainWindowAndSettling
  intro a s
  refine ⟨fun hauto hrun hsince => ⟨fun hup hlt => ?_, fun hdown hpos => ?_, fun hlim => exec_battenGainStep_of_limit hlim⟩,
    exec_battenGainStep_of_early, ?_, fun hmode hrun => ?_⟩
  · have hexec := exec_battenGainStep_of_due hauto hrun hsince (fun _ => hlt) (fun h => by simp [hup] at h)
    rw [if_pos hup] at hexec
    obtain ⟨hcode, hwin, hzero⟩ := s.gainStepped_facts a (v := s.fld (Adr.BTN_INVAL a) Fld.BTN_INVAL_gain_code + 1) (by omega)
    have hframe := s.gainStepped_frame a (s.fld (Adr.BTN_INVAL a) Fld.BTN_INVAL_gain_code + 1)
    exact ⟨_, hexec, hcode, hwin, hzero, hframe.acts, hframe.regs, hframe.rest⟩
  · have hexec := exec_battenGainStep_of_due hauto hrun hsince (fun h => by simp [hdown] at h) (fun _ => hpos)
    rw [if_neg (by simp [hdown])] at hexec
    have hlt := s.fld_lt (Adr.BTN_INVAL a) Fld.BTN_INVAL_gain_code
    obtain ⟨hcode, hwin, hzero⟩ := s.gainStepped_facts a (v := s.fld (Adr.BTN_INVAL a) Fld.BTN_INVAL_gain_code - 1)
      (Nat.lt_of_le_of_lt (Nat.sub_le _ _) hlt)
    have hframe := s.gainStepped_frame a (s.fld (Adr.BTN_INVAL a) Fld.BTN_INVAL_gain_code - 1)
    exact ⟨_, hexec, hcode, hwin, hzero, hframe.acts, hframe.regs, hframe.rest⟩
  · have hframe := (((SliceFrame.refl a [Adr.BTN_INVAL a, Adr.BTN_POS a] s).modBatten
      (fun b => { b with winHead := 0, winGain := 0, winFilter := 0, order := [] })).setFld Fld.BTN_INVAL_remaining 0 (r := Adr.BTN_INVAL a)
        (by simp)).setFld Fld.BTN_POS_cause 0 (r := Adr.BTN_POS a) (by simp)
    refine ⟨_, rfl, by simp -implicitDefEqProofs, by simp -implicitDefEqProofs, by simp -implicitDefEqProofs, ?_, ?_, hframe.acts, hframe.regs,
      hframe.rest⟩
    all_goals simp -implicitDefEqProofs (disch := (generalize a = b; decide +revert))
  · have hframe := ((((SliceFrame.refl a [Adr.SRV_STATUS a] s).setFlag Fld.SRV_STATUS_settled true (r := Adr.SRV_STATUS a) (by simp)).modServo
      (fun x => { x with inhibit := false })).setFlag Fld.SRV_STATUS_wr_permit ((s.loopSettled a).permitFor a (s.lastSample a))
        (r := Adr.SRV_STATUS a) (by simp))
    refine ⟨_, exec_settled_of_due hmode hrun, ?_, ?_, fun hstop => ?_, hframe.acts, hframe.regs, hframe.rest⟩
    · simp -implicitDefEqProofs (disch := (generalize a = b; decide +revert)) [State.loopSettled, State.modServo]
    · simp -implicitDefEqProofs [State.loopSettled]
    · rw [State.flag_setFlag_eq _ _ _ _ (by decide)]
      exact State.permitFor_of_stopped _ ((s.funcRunning_loopSettled a).trans hstop)

/-! ## Supervisors -/

/-- A trip withdraws the loop's settling and permit and asks for an abort, and is counted (R155). -/
def State.tripped (s : State) (a : Fin 4) : State :=
  (((s.unsettle a).noPermit a).requestAbort a).countFld (Adr.SRV_CNT a) Fld.SRV_CNT_trips

/-- The instants of the trips of the last second, this one among them (R155). -/
def State.recentTrips (s : State) (a : Fin 4) : List Nat :=
  ((s.act a).servo.trips.filter (fun t => decide (s.now < t + 1000000000))) ++ [s.now]

theorem State.supervisorTrip_eq (s : State) (a : Fin 4) :
    s.supervisorTrip a =
      if 8 ≤ (s.recentTrips a).length then ((s.tripped a).modServo a (fun x => { x with trips := [] })).actEvent a 0x49
      else (s.tripped a).modServo a (fun x => { x with trips := s.recentTrips a }) := rfl

theorem State.tripped_frame (s : State) (a : Fin 4) :
    SliceFrame a [Adr.SRV_STATUS a, Adr.FSQ_STATUS a, Adr.SRV_CNT a] s (s.tripped a) :=
  ((((SliceFrame.refl a _ s).unsettle (by simp)).noPermit (by simp)).requestAbort (by simp)).countFld _ (by simp)

theorem State.supervisorTrip_frame (s : State) (a : Fin 4) :
    SliceEvents a [Adr.SRV_STATUS a, Adr.FSQ_STATUS a, Adr.SRV_CNT a] s (s.supervisorTrip a) := by
  rw [State.supervisorTrip_eq]
  exact .ite (((s.tripped_frame a).modServo _).events.actEvent _ _ _ _) ((s.tripped_frame a).modServo _).events

theorem State.tripped_flags (s : State) (a : Fin 4) :
    (s.tripped a).flag (Adr.SRV_STATUS a) Fld.SRV_STATUS_wr_permit = false ∧ (s.tripped a).flag (Adr.SRV_STATUS a) Fld.SRV_STATUS_settled = false ∧
      (s.tripped a).flag (Adr.FSQ_STATUS a) Fld.FSQ_STATUS_abort_pend = true := by
  unfold State.tripped State.unsettle State.noPermit State.requestAbort State.modServo
  refine ⟨?_, ?_, ?_⟩
  all_goals simp -implicitDefEqProofs (disch := (generalize a = b; decide +revert))

theorem State.supervisorTrip_flag (s : State) (a : Fin 4) {r : Nat} (f : Fld) (he : ¬((0x5000000 ≤ r ∧ r < 0x5101000) ∨ r = Adr.ECC_MODE)) :
    (s.supervisorTrip a).flag r f = (s.tripped a).flag r f := by
  rw [State.supervisorTrip_eq]
  split
  · rw [State.flag_actEvent _ _ _ _ _ _ he]
    simp -implicitDefEqProofs [State.modServo]
  · simp -implicitDefEqProofs [State.modServo]

/-- A trip leaves the loop's samples but for the list of trips and the settle count. -/
theorem State.supervisorTrip_counts (s : State) (a : Fin 4) :
    ((s.supervisorTrip a).act a).servo.feRun = (s.act a).servo.feRun ∧ ((s.supervisorTrip a).act a).servo.oscCount = (s.act a).servo.oscCount := by
  have htrip : ((s.tripped a).act a).servo = { (s.act a).servo with settleRun := 0 } := by
    simp -implicitDefEqProofs [State.tripped, State.unsettle, State.noPermit, State.requestAbort]
  rw [State.supervisorTrip_eq]
  split <;> simp [htrip]

/-- The registers of actuator a that a trip may change. -/
def tripRegs (a : Fin 4) : List Nat := [Adr.SRV_STICKY a, Adr.SRV_STATUS a, Adr.FSQ_STATUS a, Adr.SRV_CNT a]

/-- A supervisor that trips: its sticky bit, event n, and the trip. -/
def State.supervised (s : State) (a : Fin 4) (f : Fld) (n : Nat) : State :=
  ((s.setFlag (Adr.SRV_STICKY a) f true).actEvent a n).supervisorTrip a

theorem State.supervised_eq (s : State) (a : Fin 4) (f : Fld) (n : Nat) :
    s.supervised a f n = ((s.setFlag (Adr.SRV_STICKY a) f true).actEvent a n).supervisorTrip a := rfl

theorem State.supervised_frame (s : State) (a : Fin 4) (f : Fld) (n : Nat) : SliceEvents a (tripRegs a) s (s.supervised a f n) :=
  (((SliceFrame.refl a (tripRegs a) s).setFlag _ _ (by simp [tripRegs])).events.actEvent _ _ _ _).trans
    ((State.supervisorTrip_frame _ a).mono (by simp [tripRegs]))

theorem State.supervised_sticky (s : State) (a : Fin 4) {f : Fld} (n : Nat) (hf : f.lo ≤ f.hi ∧ f.hi < 32) :
    (s.supervised a f n).flag (Adr.SRV_STICKY a) f = true := by
  rw [State.supervised_eq, (State.supervisorTrip_frame _ a).flag f (by generalize a = b; decide +revert) (by generalize a = b; decide +revert),
    State.flag_actEvent _ _ _ _ _ _ (by generalize a = b; decide +revert), State.flag_setFlag_eq _ _ _ _ hf]

theorem SRV_STATUS_outside_events (a : Fin 4) :
    ¬((0x5000000 ≤ Adr.SRV_STATUS a ∧ Adr.SRV_STATUS a < 0x5101000) ∨ Adr.SRV_STATUS a = Adr.ECC_MODE) := by
  decide +revert

theorem FSQ_STATUS_outside_events (a : Fin 4) :
    ¬((0x5000000 ≤ Adr.FSQ_STATUS a ∧ Adr.FSQ_STATUS a < 0x5101000) ∨ Adr.FSQ_STATUS a = Adr.ECC_MODE) := by
  decide +revert

/-- The flags that a trip clears and sets. -/
theorem State.supervisorTrip_flags (s : State) (a : Fin 4) :
    (s.supervisorTrip a).flag (Adr.SRV_STATUS a) Fld.SRV_STATUS_wr_permit = false ∧
      (s.supervisorTrip a).flag (Adr.SRV_STATUS a) Fld.SRV_STATUS_settled = false ∧
      (s.supervisorTrip a).flag (Adr.FSQ_STATUS a) Fld.FSQ_STATUS_abort_pend = true := by
  obtain ⟨hperm, hset, habort⟩ := s.tripped_flags a
  have hperm' := s.supervisorTrip_flag a Fld.SRV_STATUS_wr_permit (SRV_STATUS_outside_events a)
  have hset' := s.supervisorTrip_flag a Fld.SRV_STATUS_settled (SRV_STATUS_outside_events a)
  have habort' := s.supervisorTrip_flag a Fld.FSQ_STATUS_abort_pend (FSQ_STATUS_outside_events a)
  exact ⟨hperm'.trans hperm, hset'.trans hset, habort'.trans habort⟩

theorem exec_followingErrorTrip_of_due {s : State} {a : Fin 4} (hmode : s.mode a = 1) (hsel : s.fld (Adr.SRV_LOOPCFG a) Fld.SRV_LOOPCFG_sup_sel ≠ 1)
    (hrun : s.fld (Adr.SRV_FELIM a) Fld.SRV_FELIM_fe_time ≤ (s.act a).servo.feRun) :
    exec (.followingErrorTrip a) s = .next ((s.modServo a (fun x => { x with feRun := 0 })).supervised a Fld.SRV_STICKY_fe_trip 0x40) :=
  if_pos ⟨hmode, hsel, hrun⟩

theorem exec_oscillationTrip_of_due {s : State} {a : Fin 4} (hmode : s.mode a = 1)
    (hsel : s.fld (Adr.SRV_LOOPCFG a) Fld.SRV_LOOPCFG_sup_sel = 1 ∨ s.fld (Adr.SRV_LOOPCFG a) Fld.SRV_LOOPCFG_sup_sel = 2)
    (hrun : s.fld (Adr.SRV_OSC a) Fld.SRV_OSC_osc_count ≤ (s.act a).servo.oscCount) :
    exec (.oscillationTrip a) s = .next ((s.modServo a (fun x => { x with oscCount := 0 })).supervised a Fld.SRV_STICKY_osc_trip 0x41) :=
  if_pos ⟨hmode, hsel, hrun⟩

theorem State.supervised_flags (s : State) (a : Fin 4) (f : Fld) (n : Nat) :
    (s.supervised a f n).flag (Adr.SRV_STATUS a) Fld.SRV_STATUS_wr_permit = false ∧
      (s.supervised a f n).flag (Adr.SRV_STATUS a) Fld.SRV_STATUS_settled = false ∧
      (s.supervised a f n).flag (Adr.FSQ_STATUS a) Fld.FSQ_STATUS_abort_pend = true := State.supervisorTrip_flags _ a

theorem State.supervised_counts (s : State) (a : Fin 4) (f : Fld) (n : Nat) :
    ((s.supervised a f n).act a).servo.feRun = (s.act a).servo.feRun ∧ ((s.supervised a f n).act a).servo.oscCount = (s.act a).servo.oscCount := by
  have h := ((s.setFlag (Adr.SRV_STICKY a) f true).actEvent a n).supervisorTrip_counts a
  rwa [State.act_actEvent, State.act_setFlag] at h

/-- Settles O9: a trip is the same for both supervisors; a sensor check is a store with its event. -/
theorem servoSupervisors : Obligations.ServoSupervisors := by
  unfold Obligations.ServoSupervisors
  intro a s
  refine ⟨fun hmode hsel hrun => ?_, fun hmode hsel hrun => ?_, fun hrun => ?_, fun hrun => ?_, fun hrun => ?_⟩
  · have hframe := ((SliceEvents.refl a (tripRegs a) s).modServo (fun x => { x with feRun := 0 })).trans
      (State.supervised_frame _ a Fld.SRV_STICKY_fe_trip 0x40)
    obtain ⟨hperm, hset, habort⟩ := (s.modServo a (fun x => { x with feRun := 0 })).supervised_flags a Fld.SRV_STICKY_fe_trip 0x40
    have hst := (s.modServo a (fun x => { x with feRun := 0 })).supervised_sticky a (f := Fld.SRV_STICKY_fe_trip) 0x40 (by decide)
    refine ⟨_, exec_followingErrorTrip_of_due hmode hsel hrun, hst, hperm, hset, habort, ?_, hframe.acts, hframe.regs⟩
    rw [(State.supervised_counts _ a _ _).1, State.act_modServo_same]
  · have hframe := ((SliceEvents.refl a (tripRegs a) s).modServo (fun x => { x with oscCount := 0 })).trans
      (State.supervised_frame _ a Fld.SRV_STICKY_osc_trip 0x41)
    obtain ⟨hperm, hset, habort⟩ := (s.modServo a (fun x => { x with oscCount := 0 })).supervised_flags a Fld.SRV_STICKY_osc_trip 0x41
    have hst := (s.modServo a (fun x => { x with oscCount := 0 })).supervised_sticky a (f := Fld.SRV_STICKY_osc_trip) 0x41 (by decide)
    refine ⟨_, exec_oscillationTrip_of_due hmode hsel hrun, hst, hperm, hset, habort, ?_, hframe.acts, hframe.regs⟩
    rw [(State.supervised_counts _ a _ _).2, State.act_modServo_same]
  · have hframe := (((((SliceFrame.refl a [Adr.SRV_STICKY a, Adr.SRV_STATUS a] s).noPermit (by simp)).setFlag Fld.SRV_STICKY_imismatch true
      (r := Adr.SRV_STICKY a) (by simp)).modServo (fun x => { x with imRun := 0 })).events.actEvent a 0x4A 0 0)
    refine ⟨_, if_pos hrun, ?_, ?_, by simp -implicitDefEqProofs, hframe.acts, hframe.regs⟩
    all_goals simp -implicitDefEqProofs (disch := (generalize a = b; decide +revert)) [State.modServo, State.noPermit]
  · have hframe := (((SliceFrame.refl a [Adr.SRV_STICKY a] s).modServo (fun x => { x with rvDropY := true, rvRunY := 0 })).setFlag
      Fld.SRV_STICKY_rv_fault true (r := Adr.SRV_STICKY a) (by simp)).events.actEvent a 0x48 0 0
    refine ⟨_, if_pos hrun, by simp, by simp, ?_, hframe.acts, hframe.regs⟩
    simp -implicitDefEqProofs (disch := (generalize a = b; decide +revert))
  · have hframe := (((SliceFrame.refl a [Adr.SRV_STICKY a] s).modServo (fun x => { x with rvDropX := true, rvRunX := 0 })).setFlag
      Fld.SRV_STICKY_rv_fault true (r := Adr.SRV_STICKY a) (by simp)).events.actEvent a 0x48 0 0
    refine ⟨_, if_pos hrun, by simp, by simp, ?_, hframe.acts, hframe.regs⟩
    simp -implicitDefEqProofs (disch := (generalize a = b; decide +revert))

end Sys2Proof.Machine
end

section
/-! Seeks, re-identification, reload and the loop engines (R137, R147 to R149, R161), and the power-IC frame of an unload (R181). -/

namespace Sys2Proof.Machine

open Sys2Proof

/-! ## Registers and the loop's own state -/

@[simp] theorem State.fld_modServo (s : State) (a : Fin 4) (g : Servo → Servo) (r : Nat) (f : Fld) : (s.modServo a g).fld r f = s.fld r f := rfl

@[simp] theorem State.flag_modServo (s : State) (a : Fin 4) (g : Servo → Servo) (r : Nat) (f : Fld) : (s.modServo a g).flag r f = s.flag r f := rfl

@[simp] theorem State.mode_modServo (s : State) (a : Fin 4) (g : Servo → Servo) (b : Fin 4) : (s.modServo a g).mode b = s.mode b := rfl

/-! ## The power-IC port -/

theorem mem_picQueue_self (l : List PicFrame) (f : PicFrame) : f ∈ picQueue l f := by
  induction l with
  | nil => simp [picQueue]
  | cons g r ih =>
    unfold picQueue
    split
    · simp
    · simp [ih]

/-- A frame that waits still waits after the port's step, or is the one in progress. -/
theorem State.picGo_waiting {s : State} {f : PicFrame} (h : f ∈ s.pic.waiting) : f ∈ s.picGo.pic.waiting ∨ s.picGo.pic.busy = some f := by
  unfold State.picGo
  dsimp only
  split
  next g r hb hw =>
    have hwait : s.pic.waiting = g :: r := by
      rw [← hw]
      split
      · split <;> rfl
      · rfl
    rw [hwait] at h
    split
    · rcases List.mem_cons.1 h with rfl | hr
      · exact .inr rfl
      · exact .inl hr
    · refine .inl ?_
      rw [← hw] at h
      exact h
  next =>
    refine .inl ?_
    split
    · split <;> exact h
    · exact h

/-- A frame that is sent waits or is in progress (R181). -/
theorem State.picSend_frame (s : State) (k : PicKind) (n cs addr data : Nat) :
    (⟨k, n, cs, addr % 256 * 65536 + data % 65536⟩ : PicFrame) ∈ (s.picSend k n cs addr data).pic.waiting ∨
      (s.picSend k n cs addr data).pic.busy = some ⟨k, n, cs, addr % 256 * 65536 + data % 65536⟩ :=
  State.picGo_waiting (mem_picQueue_self _ _)

/-- The unload frame of actuator a (R137, R162). -/
def State.unloadCall (s : State) (a : Fin 4) : PicFrame :=
  ⟨.retract, a, s.fld (Adr.SRV_IOCFG a) Fld.SRV_IOCFG_pic_cs, s.fld (Adr.SRV_IOCFG a) Fld.SRV_IOCFG_pic_unload % 256 * 65536 + 1⟩

theorem State.unloadCall_sent (s : State) (a : Fin 4) :
    s.unloadCall a ∈ (s.picFrame a 1).pic.waiting ∨ (s.picFrame a 1).pic.busy = some (s.unloadCall a) := s.picSend_frame .retract a _ _ 1

@[simp] theorem State.unloaded_pic (s : State) (a : Fin 4) : (s.unloaded a).pic = s.pic := rfl

@[simp] theorem State.noteBroken_pic (b s : State) : (State.noteBroken b s).pic = s.pic := by
  rw [(State.noteBroken_frame 0 b s).rest]
  rfl

@[simp] theorem State.actuatorLost_pic (s : State) (a : Fin 4) : (s.actuatorLost a).pic = s.pic := by
  by_cases h : s.media.lostActs.contains a.val = true
  · rw [State.actuatorLost, if_pos h]
  · rw [State.actuatorLost_of_present (by simpa using h), State.noteBroken_pic, ((s.dropActuator a).lostSlice_frame a).rest]
    rfl

@[simp] theorem State.noteBroken_act (b s : State) (n : Fin 4) : (State.noteBroken b s).act n = s.act n := by simp [State.act]

@[simp] theorem State.actuatorLost_reloads (s : State) (a : Fin 4) : ((s.actuatorLost a).act a).servo.reloads = (s.act a).servo.reloads := by
  by_cases h : s.media.lostActs.contains a.val = true
  · rw [State.actuatorLost, if_pos h]
  · rw [State.actuatorLost_of_present (by simpa using h), State.noteBroken_act]
    simp -implicitDefEqProofs [State.lostSlice, State.endMediaOps, State.unloaded, State.requestAbort, State.unsettle, State.noPermit, State.setMode]
    rfl

/-- An actuator that was unloaded stays so when it is lost. -/
theorem State.mode_actuatorLost {s : State} {a : Fin 4} (h : s.mode a = 0) : (s.actuatorLost a).mode a = 0 := by
  by_cases hl : s.media.lostActs.contains a.val = true
  · rw [State.actuatorLost, if_pos hl, h]
  · exact (State.actuatorLost_facts (by simpa using hl)).2.2.1

/-! ## Seeks -/

/-- A seek that starts: the loop seeks, not settled and without a permit, to the target shown (R147). -/
def State.seekStarted (s : State) (a : Fin 4) (n : Nat) (k : Seek) : State :=
  ((((s.setFld (Adr.SRV_TARGET a) Fld.SRV_TARGET_target n).setMode a 2).unsettle a).noPermit a).modServo a (fun x =>
    { x with seek := some k, heldSeek := none, failedSeek := none, discards := 0, predicted := seekCurrent k 0
             firstAfterSwitch := false, wrongTrack := none })

theorem State.beginSeek_of_stopped {s : State} {a : Fin 4} (n : Nat) (h : s.funcRunning (4 + a) = false) :
    s.beginSeek a n = s.modServo a (fun x => { x with heldSeek := some n }) := by
  rw [State.beginSeek, if_pos (by simp [h])]

theorem State.beginSeek_of_start {s : State} {a : Fin 4} {n : Nat} {k : Seek} (hrun : s.funcRunning (4 + a) = true) (hk : s.seekPlan a n = .start k) :
    s.beginSeek a n = s.seekStarted a n k := by
  rw [State.beginSeek, if_neg (by simp [hrun])]
  simp only [hk]
  rfl

theorem State.beginSeek_of_failed {s : State} {a : Fin 4} {n : Nat} (hrun : s.funcRunning (4 + a) = true) (hk : s.seekPlan a n = .failed)
    (hm : s.mode a ≠ 3) : s.beginSeek a n = s.modServo a (fun x => { x with failedSeek := some n }) := by
  rw [State.beginSeek, if_neg (by simp [hrun])]
  simp only [hk, hm, if_false]

theorem State.seekRequested_of_following {s : State} {a : Fin 4} (n : Nat) (h : s.mode a = 1) : s.seekRequested a n = s.beginSeek a n := by
  simp [State.seekRequested, h]

theorem State.seekStarted_frame (s : State) (a : Fin 4) (n : Nat) (k : Seek) :
    SliceFrame a [Adr.SRV_STATUS a, Adr.SRV_TARGET a] s (s.seekStarted a n k) :=
  (((((SliceFrame.refl a _ s).setFld _ _ (by simp)).setMode 2 (by simp)).unsettle (by simp)).noPermit (by simp)).modServo _

theorem State.seekStarted_facts (s : State) (a : Fin 4) (n : Nat) (k : Seek) :
    (s.seekStarted a n k).mode a = 2 ∧ ((s.seekStarted a n k).act a).servo.seek = some k ∧
      (s.seekStarted a n k).flag (Adr.SRV_STATUS a) Fld.SRV_STATUS_settled = false ∧
      (s.seekStarted a n k).flag (Adr.SRV_STATUS a) Fld.SRV_STATUS_wr_permit = false ∧
      (s.seekStarted a n k).fld (Adr.SRV_TARGET a) Fld.SRV_TARGET_target = n % 2 ^ Fld.SRV_TARGET_target.width := by
  unfold State.seekStarted State.noPermit State.unsettle State.setMode State.modServo
  refine ⟨?_, by simp -implicitDefEqProofs, ?_, ?_, ?_⟩
  all_goals simp -implicitDefEqProofs (disch := (generalize a = b; decide +revert)) [State.mode, Fld.width, Fld.SRV_STATUS_mode]

/-! ## The end of a seek -/

/-- The track that a seek goes to. -/
def Seek.target (k : Seek) : Nat := if k.neg then k.start - k.dist else k.start + k.dist

/-- A seek that is over: its target is the present track, and the loop follows there (R148, R149). -/
def State.handedOver (s : State) (a : Fin 4) (k : Seek) : State :=
  (s.moveToTrack a k.target).enterFollowing a (((s.moveToTrack a k.target).act a).servo.demand - ((s.moveToTrack a k.target).act a).servo.ff) 0

theorem exec_seekHandover_of_over {s : State} {a : Fin 4} {k : Seek} (hk : (s.act a).servo.seek = some k) (hover : k.over = true)
    (hheld : (s.act a).servo.heldSeek = none) : exec (.seekHandover a) s = .next (s.handedOver a k) := by
  have hheld' : ((s.moveToTrack a k.target).act a).servo.heldSeek = none := by rw [State.moveToTrack_servo, hheld]
  change execSeekHandover a s = _
  simp only [execSeekHandover, hk, hover, if_true]
  unfold Seek.target at hheld'
  simp only [hheld']
  rfl

theorem State.enterFollowing_facts (s : State) (a : Fin 4) (u m : Int) :
    (s.enterFollowing a u m).mode a = 1 ∧ ((s.enterFollowing a u m).act a).servo.seek = none ∧
      (s.enterFollowing a u m).fld (Adr.MDI_SURF a) Fld.MDI_SURF_act_state = 0 ∧
      (s.enterFollowing a u m).flag (Adr.SRV_STATUS a) Fld.SRV_STATUS_settled = false := by
  unfold State.enterFollowing State.noPermit State.unsettle State.setMode State.modServo
  refine ⟨?_, by simp -implicitDefEqProofs, ?_, ?_⟩
  all_goals simp -implicitDefEqProofs (disch := (generalize a = b; decide +revert)) [State.mode, Fld.width, Fld.SRV_STATUS_mode]

/-! ## Re-identification and reload -/

/-- The heads are unloaded after a re-identification that lasted, with its event (R137). -/
def State.reidentEnded (s : State) (a : Fin 4) : State := (s.unloadFrame a).actEvent a 0x45

theorem State.reidentEnded_frame (s : State) (a : Fin 4) :
    SliceEvents a [Adr.SRV_STATUS a] (s.picFrame a 1) (s.reidentEnded a) :=
  ((SliceFrame.refl a _ _).unloaded (by simp)).events.actEvent _ _ _ _

theorem State.picFrame_only (s : State) (a : Fin 4) (d : Nat) : s.picFrame a d = { s with pic := (s.picFrame a d).pic } := State.picSend_only _ _ _ _ _ _

theorem State.reidentEnded_only (s : State) (a : Fin 4) :
    s.ActsBut a (s.reidentEnded a) ∧ s.RegsButEvents [Adr.SRV_STATUS a] (s.reidentEnded a) ∧ (s.reidentEnded a).media = s.media := by
  have hframe := s.reidentEnded_frame a
  have hpic := s.picFrame_only a 1
  refine ⟨((State.ActsBut.refl a s).same (by rw [hpic])).trans hframe.acts, ?_, by rw [hframe.media, hpic]⟩
  exact State.RegsButEvents.trans (fun r _ _ => by rw [hpic]; rfl) hframe.regs

theorem State.reidentEnded_facts (s : State) (a : Fin 4) :
    (s.reidentEnded a).mode a = 0 ∧ (s.reidentEnded a).flag (Adr.SRV_STATUS a) Fld.SRV_STATUS_wr_permit = false ∧
      (s.reidentEnded a).pic = (s.picFrame a 1).pic ∧ ((s.reidentEnded a).act a).servo.reloads = (s.act a).servo.reloads := by
  have hmode := (s.picFrame a 1).mode_unloaded a
  have hpic := s.picFrame_only a 1
  have hact : (s.picFrame a 1).act a = s.act a := by
    rw [hpic]
    rfl
  refine ⟨?_, ?_, ?_, ?_⟩
  · rw [State.mode, State.reidentEnded, State.fld_actEvent _ _ _ _ _ _ (by generalize a = b; decide +revert)]
    exact hmode
  · rw [State.reidentEnded, State.flag_actEvent _ _ _ _ _ _ (by generalize a = b; decide +revert)]
    simp -implicitDefEqProofs (disch := (generalize a = b; decide +revert)) [State.unloadFrame, State.unloaded, State.noPermit, State.unsettle, State.setMode,
      State.modServo]
  · rw [(s.reidentEnded_frame a).rest]
    rfl
  · rw [State.reidentEnded, State.act_actEvent, ← hact]
    simp -implicitDefEqProofs [State.unloadFrame, State.unloaded, State.noPermit, State.unsettle, State.setMode]

/-- The reload that failed is counted (R137). -/
def State.reloadCounted (s : State) (a : Fin 4) : State :=
  s.modServo a (fun x => { x with reloads := (s.act a).servo.reloads + 1, reloading := false })

theorem State.reloadFailed_eq (s : State) (a : Fin 4) :
    s.reloadFailed a = if 3 ≤ (s.act a).servo.reloads + 1 then (s.reloadCounted a).actuatorLost a else s.reloadCounted a := rfl

theorem State.reloadFailed_reloads (s : State) (a : Fin 4) : ((s.reloadFailed a).act a).servo.reloads = (s.act a).servo.reloads + 1 := by
  rw [State.reloadFailed_eq]
  split <;> simp [State.reloadCounted]

theorem State.reloadFailed_pic (s : State) (a : Fin 4) : (s.reloadFailed a).pic = s.pic := by
  rw [State.reloadFailed_eq]
  split
  · rw [State.actuatorLost_pic]
    rfl
  · rfl

theorem State.mode_reloadFailed {s : State} {a : Fin 4} (h : s.mode a = 0) : (s.reloadFailed a).mode a = 0 := by
  have hcount : (s.reloadCounted a).mode a = 0 := h
  rw [State.reloadFailed_eq]
  split
  · exact State.mode_actuatorLost hcount
  · exact hcount

/-- A loss leaves a withdrawn servo permit withdrawn. -/
theorem State.wr_permit_actuatorLost {s : State} {a : Fin 4} (h : s.flag (Adr.SRV_STATUS a) Fld.SRV_STATUS_wr_permit = false) :
    (s.actuatorLost a).flag (Adr.SRV_STATUS a) Fld.SRV_STATUS_wr_permit = false := by
  by_cases hl : s.media.lostActs.contains a.val = true
  · rw [State.actuatorLost, if_pos hl, h]
  · rw [State.actuatorLost_of_present (by simpa using hl),
      (State.noteBroken_frame a _ _).flag _ (by generalize a = b; decide +revert) (by generalize a = b; decide +revert)]
    simp -implicitDefEqProofs (disch := (generalize a = b; decide +revert)) [State.lostSlice, State.unloaded, State.unsettle, State.noPermit, State.setMode,
      State.modServo]

theorem State.wr_permit_reloadFailed {s : State} {a : Fin 4} (h : s.flag (Adr.SRV_STATUS a) Fld.SRV_STATUS_wr_permit = false) :
    (s.reloadFailed a).flag (Adr.SRV_STATUS a) Fld.SRV_STATUS_wr_permit = false := by
  have hcount : (s.reloadCounted a).flag (Adr.SRV_STATUS a) Fld.SRV_STATUS_wr_permit = false := h
  rw [State.reloadFailed_eq]
  split
  · exact State.wr_permit_actuatorLost hcount
  · exact hcount

theorem exec_reidentTimeout_of_first {s : State} {a : Fin 4} (hm : s.mode a = 3) (hr : (s.act a).servo.reloading = false) :
    exec (.reidentTimeout a) s = .next (s.reidentEnded a) := by
  change execReidentTimeout a s = _
  rw [execReidentTimeout, if_pos hm]
  simp only [hr, Bool.false_eq_true, if_false]
  rfl

theorem exec_reidentTimeout_of_reload {s : State} {a : Fin 4} (hm : s.mode a = 3) (hr : (s.act a).servo.reloading = true) :
    exec (.reidentTimeout a) s = .next ((s.reidentEnded a).reloadFailed a) := by
  change execReidentTimeout a s = _
  rw [execReidentTimeout, if_pos hm]
  simp only [hr, if_true]
  rfl

theorem exec_actuatorReload_of_loaded {s : State} {a : Fin 4} (hm : s.mode a = 0) (hl : (s.act a).lost = false) (hmay : s.mayLoad = true) :
    exec (.actuatorReload a true) s = .next ((s.enterReident a).modServo a (fun x => { x with reloading := true })) :=
  (if_neg (by simp [hm, hl, hmay])).trans (if_pos rfl)

theorem exec_actuatorReload_of_failed {s : State} {a : Fin 4} (hm : s.mode a = 0) (hl : (s.act a).lost = false) (hmay : s.mayLoad = true) :
    exec (.actuatorReload a false) s = .next (s.reloadFailed a) :=
  (if_neg (by simp [hm, hl, hmay])).trans (if_neg (by decide))

theorem State.enterReident_fields (s : State) (a : Fin 4) :
    (s.enterReident a).flag (Adr.SRV_STICKY a) Fld.SRV_STICKY_reident = true ∧ (s.enterReident a).fld (Adr.MDI_SURF a) Fld.MDI_SURF_act_state = 1 := by
  unfold State.enterReident
  refine ⟨?_, ?_⟩
  all_goals simp -implicitDefEqProofs (disch := (generalize a = b; decide +revert)) [Fld.width, Fld.MDI_SURF_act_state]

/-! ## A faulty loop engine -/

/-- The state in which a loop engine's fault is met: its sample is counted (R161). -/
def State.faultSample (s : State) (a : Fin 4) : State :=
  s.setFld (Adr.BTN_POS a) Fld.BTN_POS_seq (s.fld (Adr.BTN_POS a) Fld.BTN_POS_seq + 1)

/-- What a standby engine takes from the state mirror (R161). -/
def Servo.fromMirror (x : Servo) : Servo :=
  { x with
    vcm := x.mirror.vcm, ma := x.mirror.ma, rv := x.mirror.rv, xa := x.mirror.xa
    seek := x.seek.map (fun q => { q with j := q.j + 1 })
    predictedPrev := x.predicted
    predicted := match x.seek with | some q => seekCurrent q (q.j + 1) | none => 0 }

/-- A standby engine of the pool serves actuator a (R161). -/
def State.standby (s : State) (a : Fin 4) (k : Nat) : State :=
  let s1 := (s.modSpn (fun p => { p with pool := p.pool.filter (· != k) })).modServo a Servo.fromMirror
  ((((s1.unsettle a).noPermit a).requestAbort a).setFlag (Adr.SRV_STATUS a) Fld.SRV_STATUS_on_standby true).setFld (Adr.SRV_STATUS a)
    Fld.SRV_STATUS_sb_id k

theorem State.loopFault_of_standby {s : State} {a : Fin 4} {k : Nat} (h : s.spn.pool[s.faultsBefore a]? = some k) :
    s.loopFault a = ((s.faultSample a).standby a k).actEvent a 0x46 := by
  have h' : (s.faultSample a).spn.pool[(s.faultSample a).faultsBefore a]? = some k := h
  unfold State.faultSample at h'
  simp only [State.loopFault, h']
  rfl

theorem State.loopFault_of_none {s : State} {a : Fin 4} (h : s.spn.pool[s.faultsBefore a]? = none) :
    s.loopFault a = (((s.faultSample a).unloadFrame a).actEvent a 0x47).actuatorLost a := by
  have h' : (s.faultSample a).spn.pool[(s.faultSample a).faultsBefore a]? = none := h
  unfold State.faultSample at h'
  simp only [State.loopFault, h']
  rfl

theorem State.standby_frame (s : State) (a : Fin 4) (k : Nat) :
    SliceFrame a [Adr.SRV_STATUS a, Adr.FSQ_STATUS a] (s.modSpn (fun p => { p with pool := p.pool.filter (· != k) })) (s.standby a k) :=
  ((((((SliceFrame.refl a _ _).modServo _).unsettle (by simp)).noPermit (by simp)).requestAbort (by simp)).setFlag _ _ (by simp)).setFld _ _ (by simp)

theorem State.standby_facts (s : State) (a : Fin 4) {k : Nat} (hk : k < 4) :
    (s.standby a k).spn.pool = s.spn.pool.filter (· != k) ∧ (s.standby a k).flag (Adr.SRV_STATUS a) Fld.SRV_STATUS_on_standby = true ∧
      (s.standby a k).fld (Adr.SRV_STATUS a) Fld.SRV_STATUS_sb_id = k ∧ ((s.standby a k).act a).servo.vcm = (s.act a).servo.mirror.vcm ∧
      ((s.standby a k).act a).servo.ma = (s.act a).servo.mirror.ma ∧
      (s.standby a k).flag (Adr.FSQ_STATUS a) Fld.FSQ_STATUS_abort_pend = true := by
  have hw : k % 2 ^ Fld.SRV_STATUS_sb_id.width = k := Nat.mod_eq_of_lt (show k < 8 by omega)
  have hact : (s.modSpn (fun p => { p with pool := p.pool.filter (· != k) })).act a = s.act a := rfl
  unfold State.standby State.requestAbort State.noPermit State.unsettle State.modServo
  refine ⟨rfl, ?_, ?_, ?_, ?_, ?_⟩
  · simp -implicitDefEqProofs (disch := (generalize a = b; decide +revert))
  · simp -implicitDefEqProofs (disch := (generalize a = b; decide +revert)) [hw]
  · simp -implicitDefEqProofs [Servo.fromMirror, hact]
  · simp -implicitDefEqProofs [Servo.fromMirror, hact]
  · simp -implicitDefEqProofs (disch := (generalize a = b; decide +revert))

/-- Settles O10: each row is one of the states named above, with the frames of its stores. -/
theorem seekAndLoopRows : Obligations.SeekAndLoopRows := by
  unfold Obligations.SeekAndLoopRows
  intro a s
  refine ⟨fun n h => ?_, fun n k hm hrun hk => ?_, fun n h => ?_, fun k hk hover hheld => ?_, fun hm => ?_, fun hm hl hmay hlt => ?_,
    fun hm hl hmay => ?_, fun k hk hlt => ?_, fun hnone hlost => ?_⟩
  · have hexec : exec (.seekRequest a n) s = .next (s.modServo a (fun x => { x with heldSeek := some n })) := by
      change execSeekRequest a n s = _
      rw [execSeekRequest]
      rcases h with h | h | ⟨h, hstop⟩
      · simp [State.seekRequested, h]
      · simp [State.seekRequested, h]
      · rw [State.seekRequested_of_following n h, State.beginSeek_of_stopped n hstop]
    exact ⟨_, hexec, by simp, (State.ActsBut.refl a s).modServo _, rfl⟩
  · have hexec : exec (.seekRequest a n) s = .next (s.seekStarted a n k) := by
      change execSeekRequest a n s = _
      rw [execSeekRequest, State.seekRequested_of_following n hm, State.beginSeek_of_start hrun hk]
    obtain ⟨hmode, hseek, hset, hperm, htarget⟩ := s.seekStarted_facts a n k
    exact ⟨_, hexec, hmode, hseek, hset, hperm, htarget, (s.seekStarted_frame a n k).acts, (s.seekStarted_frame a n k).regs⟩
  · have hexec : exec (.seekRequest a n) s = .next (s.modServo a (fun x => { x with failedSeek := some n })) := by
      change execSeekRequest a n s = _
      rw [execSeekRequest]
      rcases h with h | ⟨h, hrun, hk⟩
      · simp [State.seekRequested, h]
      · rw [State.seekRequested_of_following n h, State.beginSeek_of_failed hrun hk (by omega)]
    exact ⟨_, hexec, by simp, rfl, (State.ActsBut.refl a s).modServo _, rfl⟩
  · obtain ⟨hmode, hseek, hstate, hset⟩ := (s.moveToTrack a k.target).enterFollowing_facts a
      (((s.moveToTrack a k.target).act a).servo.demand - ((s.moveToTrack a k.target).act a).servo.ff) 0
    exact ⟨_, exec_seekHandover_of_over hk hover hheld, hmode, hseek, hstate, hset,
      (s.moveToTrack_frame a k.target).acts.trans (State.enterFollowing_frame _ a _ _).acts⟩
  · obtain ⟨hmode, hperm, hpic, hreloads⟩ := s.reidentEnded_facts a
    obtain ⟨hacts, hregs, hmedia⟩ := s.reidentEnded_only a
    have hsent := s.unloadCall_sent a
    cases hr : (s.act a).servo.reloading with
    | false =>
      refine ⟨_, exec_reidentTimeout_of_first hm hr, hmode, hperm, ⟨s.unloadCall a, ?_, rfl, rfl, rfl⟩, fun _ => ⟨hmedia, hacts, hregs⟩, fun h => by simp at h⟩
      rw [hpic]
      exact hsent
    | true =>
      refine ⟨_, exec_reidentTimeout_of_reload hm hr, State.mode_reloadFailed hmode, State.wr_permit_reloadFailed hperm, ⟨s.unloadCall a, ?_, rfl, rfl, rfl⟩,
        fun h => by simp at h, fun _ => ?_⟩
      · rw [State.reloadFailed_pic, hpic]
        exact hsent
      · rw [State.reloadFailed_reloads, hreloads]
  · have hcount : s.reloadFailed a = s.reloadCounted a := by
      rw [State.reloadFailed_eq, if_neg (by omega)]
    exact ⟨_, exec_actuatorReload_of_failed hm hl hmay, s.reloadFailed_reloads a, State.mode_reloadFailed hm, by
      rw [hcount]
      exact (State.ActsBut.refl a s).modServo _, by rw [hcount]; rfl⟩
  · obtain ⟨hst, hstate⟩ := s.enterReident_fields a
    have hframe := (s.enterReident_frame a).modServo (fun x => { x with reloading := true })
    refine ⟨_, exec_actuatorReload_of_loaded hm hl hmay, ?_, ?_, ?_, hframe.acts, hframe.regs⟩
    · rw [State.mode_modServo, s.enterReident_mode a]
    · rw [State.flag_modServo, hst]
    · rw [State.fld_modServo, hstate]
  · obtain ⟨hpool, hon, hid, hvcm, hma, habort⟩ := (s.faultSample a).standby_facts a hlt
    have hexec : exec (.loopEngineFault a) s = .next (((s.faultSample a).standby a k).actEvent a 0x46) := by
      change execLoopEngineFault a s = _
      rw [execLoopEngineFault, State.loopFault_of_standby hk]
    have hsample := (SliceFrame.refl a [Adr.SRV_STATUS a, Adr.FSQ_STATUS a, Adr.BTN_POS a] s).setFld Fld.BTN_POS_seq
      (s.fld (Adr.BTN_POS a) Fld.BTN_POS_seq + 1) (r := Adr.BTN_POS a) (by simp)
    have hstand := ((s.faultSample a).standby_frame a k).mono (m := [Adr.SRV_STATUS a, Adr.FSQ_STATUS a, Adr.BTN_POS a]) (by simp)
    refine ⟨_, hexec, ?_, ?_, ?_, ?_, ?_, ?_, ?_, ?_⟩
    · rw [(State.actEvent_only _ _ _ _ _).spn]
      exact hpool
    · rw [State.flag_actEvent _ _ _ _ _ _ (by generalize a = b; decide +revert), hon]
    · rw [State.fld_actEvent _ _ _ _ _ _ (by generalize a = b; decide +revert), hid]
    · rw [State.act_actEvent, hvcm]
      rfl
    · rw [State.act_actEvent, hma]
      rfl
    · rw [State.flag_actEvent _ _ _ _ _ _ (by generalize a = b; decide +revert), habort]
    · exact (hsample.acts.trans hstand.acts).actEvent _ _ _ _
    · exact (hsample.regs.trans hstand.regs).events.actEvent _ _ _ _
  · have hexec : exec (.loopEngineFault a) s = .next ((((s.faultSample a).unloadFrame a).actEvent a 0x47).actuatorLost a) := by
      change execLoopEngineFault a s = _
      rw [execLoopEngineFault, State.loopFault_of_none hnone]
    have hgone : (((s.faultSample a).unloadFrame a).actEvent a 0x47).media.lostActs.contains a.val = false := by
      rw [(State.actEvent_only _ _ _ _ _).media]
      unfold State.unloadFrame
      rw [State.picFrame_only]
      exact hlost
    obtain ⟨hl, -, hmode, -⟩ := State.actuatorLost_facts hgone
    exact ⟨_, hexec, hl, hmode⟩

end Sys2Proof.Machine
end

section
/-! The spindle's state and the phase loop (R177, R182 to R186, R212): the frame of their shared operations, and the spin-up. -/

namespace Sys2Proof.Machine

open Sys2Proof

/-- From s to t registers of a list, what events change, and the spindle and time blocks may have changed. -/
structure SpinFrame (l : List Nat) (s t : State) : Prop where
  regs : s.RegsButEvents l t
  rest : t = { s.takeEvents t with spn := t.spn, time := t.time }

namespace SpinFrame

theorem refl (l : List Nat) (s : State) : SpinFrame l s s := ⟨.refl l s, rfl⟩

theorem trans {l : List Nat} {s t u : State} (h : SpinFrame l s t) (k : SpinFrame l t u) : SpinFrame l s u :=
  ⟨h.regs.trans k.regs, by
    conv => lhs; rw [k.rest, h.rest]
    rfl⟩

theorem mono {l m : List Nat} {s t : State} (h : SpinFrame l s t) (hlm : l ⊆ m) : SpinFrame m s t := ⟨h.regs.mono hlm, h.rest⟩

theorem modSpn {l : List Nat} {s t : State} (h : SpinFrame l s t) (f : Spn → Spn) : SpinFrame l s (t.modSpn f) :=
  ⟨h.regs, by
    conv => lhs; rw [h.rest]
    rfl⟩

theorem modTime {l : List Nat} {s t : State} (h : SpinFrame l s t) (f : Time → Time) : SpinFrame l s (t.modTime f) :=
  ⟨h.regs, by
    conv => lhs; rw [h.rest]
    rfl⟩

theorem setReg {l : List Nat} {s t : State} (h : SpinFrame l s t) {r : Nat} (v : Word) (hr : r ∈ l) : SpinFrame l s (t.setReg r v) :=
  ⟨h.regs.setReg v hr, by
    conv => lhs; rw [h.rest]
    rfl⟩

theorem setFld {l : List Nat} {s t : State} (h : SpinFrame l s t) {r : Nat} (f : Fld) (v : Nat) (hr : r ∈ l) : SpinFrame l s (t.setFld r f v) :=
  h.setReg _ hr

theorem setFlag {l : List Nat} {s t : State} (h : SpinFrame l s t) {r : Nat} (f : Fld) (v : Bool) (hr : r ∈ l) : SpinFrame l s (t.setFlag r f v) :=
  h.setReg _ hr

theorem setSFld {l : List Nat} {s t : State} (h : SpinFrame l s t) {r : Nat} (f : Fld) (v : Int) (hr : r ∈ l) : SpinFrame l s (t.setSFld r f v) :=
  h.setReg _ hr

theorem only {l : List Nat} {s t u : State} (h : SpinFrame l s t) (k : EventOnly t u) : SpinFrame l s u := by
  have hspn := k.spn
  have htime := k.time
  refine ⟨h.regs.only k, ?_⟩
  conv => lhs; rw [k.takeEvents, h.rest]
  rw [hspn, htime]
  rfl

theorem event {l : List Nat} {s t : State} (h : SpinFrame l s t) (id d e : Nat) : SpinFrame l s (t.event id d e) := h.only (t.event_only id d e)

theorem ite {l : List Nat} {s t u : State} {p : Prop} [Decidable p] (h : SpinFrame l s t) (k : SpinFrame l s u) :
    SpinFrame l s (if p then t else u) := by
  split
  · exact h
  · exact k

theorem acts {l : List Nat} {s t : State} (h : SpinFrame l s t) : t.acts = s.acts := by
  rw [h.rest]
  rfl

theorem host {l : List Nat} {s t : State} (h : SpinFrame l s t) : t.host = s.host := by
  rw [h.rest]
  rfl

theorem media {l : List Nat} {s t : State} (h : SpinFrame l s t) : t.media = s.media := by
  rw [h.rest]
  rfl

theorem pln {l : List Nat} {s t : State} (h : SpinFrame l s t) : t.pln = s.pln := by
  rw [h.rest]
  rfl

theorem counters {l : List Nat} {s t : State} (h : SpinFrame l s t) : t.nor.counters = s.nor.counters := by
  rw [h.rest]
  rfl

theorem pic {l : List Nat} {s t : State} (h : SpinFrame l s t) : t.pic = s.pic := by
  rw [h.rest]
  rfl

theorem fld {l : List Nat} {s t : State} (h : SpinFrame l s t) {r : Nat} (f : Fld) (hr : r ∉ l)
    (he : ¬((0x5000000 ≤ r ∧ r < 0x5101000) ∨ r = Adr.ECC_MODE)) : t.fld r f = s.fld r f := h.regs.fld f hr he

theorem flag {l : List Nat} {s t : State} (h : SpinFrame l s t) {r : Nat} (f : Fld) (hr : r ∉ l)
    (he : ¬((0x5000000 ≤ r ∧ r < 0x5101000) ∨ r = Adr.ECC_MODE)) : t.flag r f = s.flag r f := h.regs.flag f hr he

end SpinFrame

/-! ## Small reads -/

@[simp] theorem State.fld_modSpn (s : State) (g : Spn → Spn) (r : Nat) (f : Fld) : (s.modSpn g).fld r f = s.fld r f := rfl

@[simp] theorem State.flag_modSpn (s : State) (g : Spn → Spn) (r : Nat) (f : Fld) : (s.modSpn g).flag r f = s.flag r f := rfl

@[simp] theorem State.fld_modTime (s : State) (g : Time → Time) (r : Nat) (f : Fld) : (s.modTime g).fld r f = s.fld r f := rfl

@[simp] theorem State.flag_modTime (s : State) (g : Time → Time) (r : Nat) (f : Fld) : (s.modTime g).flag r f = s.flag r f := rfl

@[simp] theorem State.spin_modSpn (s : State) (g : Spn → Spn) : (s.modSpn g).spin = s.spin := rfl

@[simp] theorem State.spin_event (s : State) (id d e : Nat) : (s.event id d e).spin = s.spin := s.fld_event id d e _ (by decide)

/-! ## The phase loop's check -/

theorem State.phaseCheck_frame (s : State) : SpinFrame [Adr.TMB_PLSTAT, Adr.SPN_ANGLE] s s.phaseCheck := by
  have hself := SpinFrame.refl [Adr.TMB_PLSTAT, Adr.SPN_ANGLE] s
  have hphase : ∀ n, SpinFrame [Adr.TMB_PLSTAT, Adr.SPN_ANGLE] s (s.setPhase n) := fun n => hself.setFld _ _ (by simp)
  have htrim : ∀ n t, SpinFrame [Adr.TMB_PLSTAT, Adr.SPN_ANGLE] s ((s.setPhase n).setTrim t) := fun n t => (hphase n).setSFld _ _ (by simp)
  unfold State.phaseCheck
  exact .ite (.ite hself ((htrim _ _).modTime _)) (.ite (hphase _) (.ite (.ite hself (((htrim _ _).modTime _).event _ _ _))
    (.ite ((hphase _).modTime _) (.ite hself ((hphase _).modTime _)))))

@[simp] theorem State.phaseCheck_spn (s : State) : s.phaseCheck.spn = s.spn := by
  unfold State.phaseCheck
  repeat' split
  all_goals simp [State.setPhase, State.setTrim]

@[simp] theorem State.spin_phaseCheck (s : State) : s.phaseCheck.spin = s.spin := s.phaseCheck_frame.fld _ (by decide) (by decide)

@[simp] theorem State.atSpeed_phaseCheck (s : State) : s.phaseCheck.atSpeed = s.atSpeed := s.phaseCheck_frame.flag _ (by decide) (by decide)

/-! ## The spindle's state -/

theorem State.markLegs_only (s : State) (t : Nat) : s.markLegs t = s.modSpn (fun p => { p with legs := (s.markLegs t).spn.legs }) := rfl

theorem State.setSpin_eq_running (s : State) : s.setSpin 6 = (s.markLegs s.countNow).setFld Adr.SPN_STATUS Fld.SPN_STATUS_state 6 := rfl

theorem State.setSpin_eq_other (s : State) {n : Nat} (h : n ≠ 6) :
    s.setSpin n = (((s.markLegs s.countNow).setFld Adr.SPN_STATUS Fld.SPN_STATUS_state n).setFlag Adr.SPN_STATUS Fld.SPN_STATUS_at_speed
      false).modSpn (fun p => { p with atRun := 0 }) := if_neg h

theorem State.setSpin_frame (s : State) (n : Nat) : SpinFrame [Adr.SPN_STATUS] s (s.setSpin n) := by
  have hset : SpinFrame [Adr.SPN_STATUS] s ((s.markLegs s.countNow).setFld Adr.SPN_STATUS Fld.SPN_STATUS_state n) :=
    ((SpinFrame.refl _ s).modSpn _).setFld _ _ (by simp)
  exact .ite hset ((hset.setFlag _ _ (by simp)).modSpn _)

theorem State.setSpin_regsBut (s : State) (n : Nat) : s.RegsBut [Adr.SPN_STATUS] (s.setSpin n) := by
  have hset : s.RegsBut [Adr.SPN_STATUS] ((s.markLegs s.countNow).setFld Adr.SPN_STATUS Fld.SPN_STATUS_state n) :=
    State.RegsBut.setFld (t := s.markLegs s.countNow) (.refl _ s) _ _ (by simp)
  exact .ite hset (State.RegsBut.setFlag hset _ _ (by simp))

theorem State.setSpin_regs_spn_only (s : State) (n : Nat) : s.setSpin n = { s with regs := (s.setSpin n).regs, spn := (s.setSpin n).spn } := by
  by_cases h : n = 6
  · subst h
    rfl
  · rw [s.setSpin_eq_other h]
    rfl

/-- Of the spindle block a change of state marks the legs and, outside running, restarts the count toward at_speed. -/
theorem State.setSpin_spn (s : State) (n : Nat) :
    (s.setSpin n).spn = { s.spn with legs := (s.setSpin n).spn.legs, atRun := (s.setSpin n).spn.atRun } := by
  by_cases h : n = 6
  · subst h
    rfl
  · rw [s.setSpin_eq_other h]
    rfl

@[simp] theorem State.spin_setSpin (s : State) (n : Nat) : (s.setSpin n).spin = n % 16 := by
  by_cases h : n = 6
  · subst h
    rw [State.setSpin_eq_running, State.spin, State.fld_setFld_eq _ _ _ _ (by decide)]
    rfl
  · rw [s.setSpin_eq_other h, State.spin, State.fld_modSpn, State.fld_setFlag_apart _ _ _ _ _ (by decide) (by decide),
      State.fld_setFld_eq _ _ _ _ (by decide)]
    rfl

/-! ## Spin-up -/

/-- The reference and the count of attempts with which the running state begins (R182, R185). -/
def Spn.running (p : Spn) (rpm : Nat) : Spn := { p with ref := rpm, attempts := 0, stopping := false }

theorem State.enterRunning_frame (s : State) (f : Spn → Spn) :
    SpinFrame [Adr.SPN_STATUS, Adr.TMB_PLSTAT, Adr.SPN_ANGLE] s (s.enterRunning f) :=
  ((((s.setSpin_frame 6).mono (by simp)).modSpn _).modTime _).trans ((State.phaseCheck_frame _).mono (by simp))

@[simp] theorem State.spin_enterRunning (s : State) (f : Spn → Spn) : (s.enterRunning f).spin = 6 := by
  rw [State.enterRunning, State.spin_phaseCheck, State.spin, State.fld_modTime, State.fld_modSpn]
  exact s.spin_setSpin 6

theorem State.enterRunning_spn (s : State) (f : Spn → Spn) :
    (s.enterRunning f).spn = (f (s.setSpin 6).spn).running (s.spdNow * 3000) := by
  rw [State.enterRunning, State.phaseCheck_spn, State.modTime_spn, State.modSpn_spn]
  rfl

/-- The registers that back-EMF sensing shows: its result, direction and speed (R182). -/
def State.sensed (s : State) (rpm : Int) : State :=
  ((((s.setFld Adr.SPN_PRESTART Fld.SPN_PRESTART_result (if 300 ≤ rpm then 1 else if 60 ≤ rpm.natAbs then 2 else 0)).setFlag Adr.SPN_PRESTART
    Fld.SPN_PRESTART_reverse (decide (rpm < 0))).setFld Adr.SPN_PRESTART Fld.SPN_PRESTART_rpm (min rpm.natAbs 32767)).setReg Adr.SPN_SPEED
    (BitVec.ofInt 32 (rpm * 65536)))

theorem State.sensed_frame (s : State) (rpm : Int) : SpinFrame [Adr.SPN_PRESTART, Adr.SPN_SPEED] s (s.sensed rpm) :=
  ((((SpinFrame.refl _ s).setFld _ _ (by simp)).setFlag _ _ (by simp)).setFld _ _ (by simp)).setReg _ (by simp)

theorem State.sensed_fields (s : State) (rpm : Int) :
    (s.sensed rpm).fld Adr.SPN_PRESTART Fld.SPN_PRESTART_result = (if 300 ≤ rpm then 1 else if 60 ≤ rpm.natAbs then 2 else 0) ∧
      (s.sensed rpm).flag Adr.SPN_PRESTART Fld.SPN_PRESTART_reverse = decide (rpm < 0) ∧
      (s.sensed rpm).fld Adr.SPN_PRESTART Fld.SPN_PRESTART_rpm = min rpm.natAbs 32767 := by
  have hres : (if 300 ≤ rpm then 1 else if 60 ≤ rpm.natAbs then 2 else 0) % 2 ^ Fld.SPN_PRESTART_result.width =
      (if 300 ≤ rpm then 1 else if 60 ≤ rpm.natAbs then 2 else 0) := by
    repeat' split
    all_goals rfl
  have hrpm : min rpm.natAbs 32767 % 2 ^ Fld.SPN_PRESTART_rpm.width = min rpm.natAbs 32767 :=
    Nat.mod_eq_of_lt (show min rpm.natAbs 32767 < 32768 by omega)
  unfold State.sensed
  refine ⟨?_, ?_, ?_⟩
  · simp -implicitDefEqProofs (disch := decide) only [State.fld_setReg_ne, State.fld_setFld_apart, State.fld_setFlag_apart,
      State.fld_setFld_eq, hres]
  · simp -implicitDefEqProofs (disch := decide) only [State.flag_setReg_ne, State.flag_setFld_apart, State.flag_setFlag_eq]
  · simp -implicitDefEqProofs (disch := decide) only [State.fld_setReg_ne, State.fld_setFld_eq, hrpm]

/-- The observer's state with which a spindle that already turns is taken over (R182). -/
def Spn.caught (p : Spn) (rpm : Int) (theta : Nat) : Spn :=
  { p with
    theta := theta % 2 ^ 32, wInt := divQ (rpm * 8388608) 10000, w := divQ (rpm * 8388608) 10000, integD := 0, integQ := 0, integS := 0, ia := 0
    ib := 0, iaPrev := 0, ibPrev := 0, id := 0, iq := 0, va := 0, vb := 0, vaOn := 0, vbOn := 0, idRef := 0, iqSpd := 0 }

theorem exec_prestartSensingDone_of_turning {s : State} {rpm : Int} (theta : Nat) (hs : s.spin = 2) (h : 300 ≤ rpm) :
    exec (.prestartSensingDone rpm theta) s = .next (((s.sensed rpm).enterRunning (fun p => p.caught rpm theta)).event 0x300) := by
  change execPrestartSensingDone rpm theta s = _
  rw [execPrestartSensingDone, if_neg (by simp [hs])]
  simp only [State.sensed, Spn.caught, h, if_true]

/-- A spindle that turns too slowly to be taken over is braked, with an event where it turns (R182). -/
def State.brakes (s : State) (rpm : Int) : State := if 60 ≤ rpm.natAbs then (s.setSpin 3).event 0x301 else s.setSpin 3

theorem exec_prestartSensingDone_of_slow {s : State} {rpm : Int} (theta : Nat) (hs : s.spin = 2) (h : rpm < 300) :
    exec (.prestartSensingDone rpm theta) s = .next ((s.sensed rpm).brakes rpm) := by
  have h' : ¬300 ≤ rpm := by omega
  change execPrestartSensingDone rpm theta s = _
  rw [execPrestartSensingDone, if_neg (by simp [hs])]
  by_cases hn : 60 ≤ rpm.natAbs
  · simp only [State.brakes, State.sensed, h', hn, if_true, if_false]
    rfl
  · simp only [State.brakes, State.sensed, h', hn, if_false]
    rfl

theorem State.brakes_frame (s : State) (rpm : Int) : SpinFrame [Adr.SPN_STATUS] s (s.brakes rpm) :=
  .ite ((s.setSpin_frame 3).event _ _ _) (s.setSpin_frame 3)

@[simp] theorem State.spin_brakes (s : State) (rpm : Int) : (s.brakes rpm).spin = 3 := by
  unfold State.brakes
  split <;> simp

end Sys2Proof.Machine
end

section
/-! The rows of the spin-up (R177, R182, R185) and what loading the heads leaves. -/

namespace Sys2Proof.Machine

open Sys2Proof

/-! ## NOR counters -/

theorem State.bump_only (s : State) (c : Nat) : s.bump c = { s with nor := { s.nor with counters := (s.bump c).nor.counters } } := by
  unfold State.bump
  split <;> rfl

@[simp] theorem State.fld_bump (s : State) (c r : Nat) (f : Fld) : (s.bump c).fld r f = s.fld r f := by
  rw [s.bump_only]
  rfl

@[simp] theorem State.flag_bump (s : State) (c r : Nat) (f : Fld) : (s.bump c).flag r f = s.flag r f := by
  rw [s.bump_only]
  rfl

theorem State.bump_counter_same (s : State) {c : Nat} (h : c < 9) : (s.bump c).nor.counters[c] = s.nor.counters[c] + 1 := by
  simp [State.bump, h]

theorem State.bump_counter_other (s : State) {c d : Nat} (h : d < 9) (hne : c ≠ d) : (s.bump c).nor.counters[d] = s.nor.counters[d] := by
  unfold State.bump
  split
  · simp [Vector.getElem_set_ne _ _ hne]
  · rfl

/-! ## Steps over the four actuators -/

/-- What every step keeps, the four together keep. -/
theorem State.forActs_induct {P : State → Prop} {f : State → Fin 4 → State} (hstep : ∀ s a, P s → P (f s a)) {s : State} (h : P s) :
    P (s.forActs f) := hstep _ _ (hstep _ _ (hstep _ _ (hstep _ _ h)))

/-- What each step brings about for its actuator and leaves for the others holds of all four after them. -/
theorem State.forActs_each {P : State → Fin 4 → Prop} {f : State → Fin 4 → State} (hself : ∀ s a, P (f s a) a)
    (hother : ∀ s a b, b ≠ a → P s b → P (f s a) b) (s : State) (b : Fin 4) : P (s.forActs f) b := by
  unfold State.forActs
  match b with
  | 0 => exact hother _ _ _ (by decide) (hother _ _ _ (by decide) (hother _ _ _ (by decide) (hself _ _)))
  | 1 => exact hother _ _ _ (by decide) (hother _ _ _ (by decide) (hself _ _))
  | 2 => exact hother _ _ _ (by decide) (hself _ _)
  | 3 => exact hself _ _

/-! ## Loading the heads -/

/-- What loading the heads keeps: the spindle's status, the retract pair, the host side, the power plane and the counter of spin-ups. -/
structure HeadsLoad (s t : State) : Prop where
  status : ∀ f, t.fld Adr.SPN_STATUS f = s.fld Adr.SPN_STATUS f
  retract : ∀ f, t.fld Adr.SPN_RETRACT f = s.fld Adr.SPN_RETRACT f
  host : t.host = s.host
  pln : t.pln = s.pln
  counter : t.nor.counters[2] = s.nor.counters[2]

namespace HeadsLoad

theorem refl (s : State) : HeadsLoad s s := ⟨fun _ => rfl, fun _ => rfl, rfl, rfl, rfl⟩

theorem trans {s t u : State} (h : HeadsLoad s t) (k : HeadsLoad t u) : HeadsLoad s u :=
  ⟨fun f => (k.status f).trans (h.status f), fun f => (k.retract f).trans (h.retract f), k.host.trans h.host, k.pln.trans h.pln,
    k.counter.trans h.counter⟩

theorem of_spinFrame {l : List Nat} {s t : State} (h : SpinFrame l s t) (hs : Adr.SPN_STATUS ∉ l) (hr : Adr.SPN_RETRACT ∉ l) : HeadsLoad s t :=
  ⟨fun f => h.fld f hs (by decide), fun f => h.fld f hr (by decide), h.host, h.pln, by rw [h.counters]⟩

theorem of_slice {a : Fin 4} {l : List Nat} {s t : State} (h : SliceFrame a l s t) (hs : Adr.SPN_STATUS ∉ l) (hr : Adr.SPN_RETRACT ∉ l) :
    HeadsLoad s t :=
  ⟨fun f => h.fld f hs, fun f => h.fld f hr, h.host, by rw [h.rest], by rw [h.rest]⟩

theorem bump {s t : State} (h : HeadsLoad s t) {c : Nat} (hc : c ≠ 2) : HeadsLoad s (t.bump c) :=
  ⟨fun f => (t.fld_bump c _ f).trans (h.status f), fun f => (t.fld_bump c _ f).trans (h.retract f), by rw [t.bump_only]; exact h.host,
    by rw [t.bump_only]; exact h.pln, (t.bump_counter_other (by decide) hc).trans h.counter⟩

end HeadsLoad

/-- The load of one actuator's heads, where they are present and not lost. -/
def State.loadHead (s : State) (a : Fin 4) : State :=
  if s.mode a != 0 || (s.act a).lost || (s.actSurfaces a).isEmpty || 3 ≤ (s.act a).servo.reloads then s
  else (s.enterReident a).bump (3 + a)

theorem State.loadHead_keeps (s : State) (a : Fin 4) : HeadsLoad s (s.loadHead a) := by
  unfold State.loadHead
  split
  · exact .refl s
  · exact (HeadsLoad.of_slice (s.enterReident_frame a) (by generalize a = b; decide +revert) (by generalize a = b; decide +revert)).bump (by omega)

theorem State.loadHeads_load (s : State) : HeadsLoad s s.loadHeads := by
  have hall : HeadsLoad s (s.forActs State.loadHead) :=
    State.forActs_induct (P := HeadsLoad s) (fun t a h => h.trans (t.loadHead_keeps a)) (.refl s)
  have hcheck : ∀ t : State, HeadsLoad t t.phaseCheck := fun t => .of_spinFrame t.phaseCheck_frame (by decide) (by decide)
  have hdue : ∀ t : State, HeadsLoad t (t.modTime (fun x => { x with loadDue := false })) := fun t => ⟨fun _ => rfl, fun _ => rfl, rfl, rfl, rfl⟩
  unfold State.loadHeads
  split
  · exact .refl s
  · dsimp only
    split
    · exact ((hall.trans (hdue _)).trans (hcheck _)).trans ⟨fun _ => rfl, fun _ => rfl, rfl, rfl, rfl⟩
    · exact hall

/-! ## The pre-start check -/

theorem State.parkReads_only (l : List (Fin 4)) (s : State) :
    ∃ p, l.foldl (fun (s : State) a => s.picParkRead a) s = { s with pic := p } := by
  induction l generalizing s with
  | nil => exact ⟨_, rfl⟩
  | cons a l ih =>
    obtain ⟨p, hp⟩ := ih (s.picParkRead a)
    refine ⟨p, hp.trans ?_⟩
    rw [State.picParkRead, State.picSend_only]

theorem State.parkNext_cases (s : State) : (∃ p, s.parkNext = { s with pic := p }) ∨ (s.spn.parking = [] ∧ s.parkNext = s.setSpin 2) := by
  unfold State.parkNext
  split
  next a r h => exact .inl ⟨_, s.picFrame_only a 2⟩
  next h => exact .inr ⟨h, rfl⟩

/-- The pre-start check leads to the park check or to sensing, and no start is retried any more (R182, R183). -/
theorem State.preStart_facts {s : State} (parked : Nat) (h : s.fld Adr.SPN_MOTOR Fld.SPN_MOTOR_pole_pairs ≠ 0) :
    ((s.preStart parked).spin = 1 ∨ (s.preStart parked).spin = 2) ∧ (s.preStart parked).spn.retrying = false := by
  rw [State.preStart, if_neg h]
  dsimp only
  obtain ⟨p, hp⟩ := State.parkReads_only ((List.finRange 4).filter (fun a => !(s.actSurfaces a).isEmpty)) (s.setSpin 1)
  rw [hp]
  have hone : ({ s.setSpin 1 with pic := p } : State).spin = 1 := s.spin_setSpin 1
  rcases State.parkNext_cases (({ s.setSpin 1 with pic := p } : State).modSpn (fun q => { q with
    parking := ((List.finRange 4).filter (fun a : Fin 4 => !(s.actSurfaces a).isEmpty)).filter (fun a => !bitOf parked a), rockPairs := 0
    stopping := false, retrying := false })) with ⟨q, hq⟩ | ⟨-, hq⟩
  · rw [hq]
    exact ⟨.inl hone, rfl⟩
  · rw [hq]
    refine ⟨.inr (State.spin_setSpin _ 2), ?_⟩
    rw [State.setSpin_spn]
    rfl

/-! ## Refusal -/

theorem State.spinRefused_frame (s : State) : SpinFrame [Adr.SPN_STATUS, Adr.SPN_PRESTART] s s.spinRefused :=
  (((s.setSpin_frame 0).mono (by simp)).setFld _ _ (by simp)).modSpn _

theorem State.spinRefused_facts (s : State) :
    s.spinRefused.spin = 0 ∧ s.spinRefused.fld Adr.SPN_PRESTART Fld.SPN_PRESTART_result = 3 ∧ s.spinRefused.spn.attempts = 0 ∧
      s.spinRefused.spn.parking = [] := by
  unfold State.spinRefused
  refine ⟨?_, ?_, rfl, rfl⟩
  · rw [State.spin_modSpn, State.spin, State.fld_setFld_ne _ _ _ _ (by decide)]
    exact s.spin_setSpin 0
  · rw [State.fld_modSpn, State.fld_setFld_eq _ _ _ _ (by decide)]
    rfl

/-! ## The rows -/

theorem exec_brakeHoldEnd_of_start {s : State} (hs : s.spin = 3) (hstop : s.spn.stopping = false) (hretry : s.spn.retrying = false) :
    exec .brakeHoldEnd s = .next ((s.setSpin 4).modSpn (fun p => { p with senseAt := s.now })) := by
  change execBrakeHoldEnd s = _
  simp only [execBrakeHoldEnd, hs, hstop, hretry, ne_eq, not_true_eq_false, if_false, Bool.false_eq_true]

theorem exec_brakeHoldEnd_of_retry {s : State} (hs : s.spin = 3) (hstop : s.spn.stopping = false) (hretry : s.spn.retrying = true) :
    exec .brakeHoldEnd s = .next (s.parkFree.2.preStart s.parkFree.1) := by
  change execBrakeHoldEnd s = _
  simp only [execBrakeHoldEnd, hs, hstop, hretry, ne_eq, not_true_eq_false, if_false, if_true, Bool.false_eq_true]

theorem exec_brakeHoldEnd_of_stop {s : State} (hs : s.spin = 3) (hstop : s.spn.stopping = true) (hheld : s.spn.startHeld = false) :
    exec .brakeHoldEnd s = .next ((s.setSpin 0).modSpn (fun p => { p with stopping := false, startHeld := false })) := by
  change execBrakeHoldEnd s = _
  simp only [execBrakeHoldEnd, hs, hstop, hheld, ne_eq, not_true_eq_false, if_false, if_true, Bool.false_eq_true]

theorem exec_handoverTimeout_of_last {s : State} (hs : s.spin = 5) (h : 2 ≤ s.spn.attempts) :
    exec .handoverTimeout s = .next ((s.event 0x305).spinRefused) := by
  change execHandoverTimeout s = _
  rw [execHandoverTimeout, if_neg (by simp [hs])]
  exact if_pos (by omega)

theorem exec_handoverTimeout_of_retry {s : State} (hs : s.spin = 5) (h : s.spn.attempts < 2) :
    exec .handoverTimeout s =
      .next (((s.setSpin 3).modSpn (fun p => { p with attempts := s.spn.attempts + 1, retrying := true, cmpNext := [0, 0, 0] })).event 0x305) := by
  change execHandoverTimeout s = _
  rw [execHandoverTimeout, if_neg (by simp [hs])]
  exact if_neg (by omega)

/-- The state that the heads load from at speed: the spin-up is counted and media commands are served (R177). -/
def State.atSpeedNow (s : State) : State :=
  ((({ s with pln := { s.pln with noMedia := false } } : State).setFlag Adr.SPN_STATUS Fld.SPN_STATUS_at_speed true).bump 2).phaseCheck

theorem State.atSpeedNow_facts (s : State) :
    s.atSpeedNow.atSpeed = true ∧ s.atSpeedNow.spin = s.spin ∧ s.atSpeedNow.pln.noMedia = false ∧
      s.atSpeedNow.nor.counters[2] = s.nor.counters[2] + 1 := by
  unfold State.atSpeedNow
  refine ⟨?_, ?_, ?_, ?_⟩
  · rw [State.atSpeed_phaseCheck, State.atSpeed, State.flag_bump, State.flag_setFlag_eq _ _ _ _ (by decide)]
  · rw [State.spin_phaseCheck, State.spin, State.fld_bump, State.fld_setFlag_apart _ _ _ _ _ (by decide) (by decide)]
    rfl
  · rw [(State.phaseCheck_frame _).pln, State.bump_only]
    rfl
  · have hcount := (State.phaseCheck_frame ((({ s with pln := { s.pln with noMedia := false } } : State).setFlag Adr.SPN_STATUS
      Fld.SPN_STATUS_at_speed true).bump 2)).counters
    simp only [hcount]
    exact State.bump_counter_same _ (by decide)

theorem exec_atSpeed_of_due {s : State} (hs : s.spin = 6) (hrun : 24000 ≤ s.spn.atRun) (hat : s.atSpeed = false) :
    exec .atSpeed s = .next s.atSpeedNow.loadHeads := if_pos ⟨hs, hrun, by simp [hat]⟩

/-- Settles O11: the states of the spin-up are those of setSpin, enterRunning, preStart and spinRefused, described above. -/
theorem spinUpRows : Obligations.SpinUpRows := by
  unfold Obligations.SpinUpRows
  intro s
  refine ⟨fun rpm theta hs h => ?_, fun rpm theta hs h => ?_, fun hs hstop hretry => ?_, fun hs hstop hretry hpole => ?_,
    fun hs hstop hheld => ?_, fun theta hs => ?_, fun hs hrun hspeed => ?_, fun hs h => ?_, fun hs h => ?_, fun hs hrun hat => ?_⟩
  · obtain ⟨hres, -, hrpm⟩ := s.sensed_fields rpm
    have hrun := ((s.sensed rpm).enterRunning_frame (fun p => p.caught rpm theta)).event 0x300 0 0
    refine ⟨_, exec_prestartSensingDone_of_turning theta hs h, by simp, ?_, ?_, ?_, hrun.acts.trans (s.sensed_frame rpm).acts⟩
    · rw [hrun.fld _ (by decide) (by decide), hres, if_pos h]
    · rw [hrun.fld _ (by decide) (by decide), hrpm]
    · rw [State.event_spn, State.enterRunning_spn]
      rfl
  · obtain ⟨hres, hrev, -⟩ := s.sensed_fields rpm
    have hbrake := (s.sensed rpm).brakes_frame rpm
    have hframe := ((s.sensed_frame rpm).mono (m := [Adr.SPN_PRESTART, Adr.SPN_SPEED, Adr.SPN_STATUS]) (by simp)).trans (hbrake.mono (by simp))
    refine ⟨_, exec_prestartSensingDone_of_slow theta hs h, by simp, ?_, ?_, hframe.acts, hframe.regs⟩
    · rw [hbrake.fld _ (by decide) (by decide), hres, if_neg (by omega)]
    · rw [hbrake.flag _ (by decide) (by decide), hrev]
  · refine ⟨_, exec_brakeHoldEnd_of_start hs hstop hretry, by simp, s.setSpin_regsBut 4, ?_⟩
    rw [s.setSpin_regs_spn_only 4]
    rfl
  · obtain ⟨hspin, hfree⟩ := State.preStart_facts (s := s.parkFree.2) s.parkFree.1 hpole
    exact ⟨_, exec_brakeHoldEnd_of_retry hs hstop hretry, hspin, hfree⟩
  · refine ⟨_, exec_brakeHoldEnd_of_stop hs hstop hheld, by simp, rfl, s.setSpin_regsBut 0, ?_⟩
    rw [s.setSpin_regs_spn_only 0]
    rfl
  · refine ⟨_, if_neg (by simp [hs]), by simp, rfl, rfl, s.setSpin_regsBut 5, ?_⟩
    rw [s.setSpin_regs_spn_only 5]
    rfl
  · refine ⟨_, if_pos ⟨hs, hrun, hspeed⟩, by simp, ?_, ?_, (s.enterRunning_frame _).acts⟩
    · rw [State.enterRunning_spn]
      rfl
    · rw [State.enterRunning_spn]
      rfl
  · obtain ⟨hspin, hres, hatt, -⟩ := (s.event 0x305).spinRefused_facts
    have hframe := ((SpinFrame.refl [Adr.SPN_STATUS, Adr.SPN_PRESTART] s).event 0x305 0 0).trans (State.spinRefused_frame _)
    exact ⟨_, exec_handoverTimeout_of_last hs h, hspin, hres, hatt, hframe.regs⟩
  · have hframe := ((s.setSpin_frame 3).modSpn (fun p => { p with attempts := s.spn.attempts + 1, retrying := true, cmpNext := [0, 0, 0] })).event
      0x305 0 0
    refine ⟨_, exec_handoverTimeout_of_retry hs h, by simp, ?_, ?_, ?_, hframe.acts, hframe.regs⟩
    all_goals rw [State.event_spn]; rfl
  · obtain ⟨hat', hspin, hpln, hcount⟩ := s.atSpeedNow_facts
    have hload := s.atSpeedNow.loadHeads_load
    refine ⟨_, exec_atSpeed_of_due hs hrun hat, ?_, (hload.status _).trans (hspin.trans hs), by rw [hload.pln, hpln], hload.counter.trans hcount⟩
    rw [State.atSpeed, State.flag, hload.status]
    exact hat'

end Sys2Proof.Machine
end

section
/-! The park check before spin-up (R183) and one PWM period (R166). -/

namespace Sys2Proof.Machine

open Sys2Proof

/-! ## Signed fields -/

theorem signed_zero (w : Nat) : signed w 0 = 0 := by
  unfold signed
  simp

theorem State.sfld_setSFld_zero (s : State) (a : Nat) (f : Fld) (h : f.lo ≤ f.hi ∧ f.hi < 32) : (s.setSFld a f 0).sfld a f = 0 := by
  have hzero : unsigned f.width 0 = 0 := by simp [unsigned]
  rw [State.sfld, State.setSFld, s.fld_setFld_eq a f _ h, hzero, Nat.zero_mod, signed_zero]

/-! ## Reading the park status -/

theorem State.picParkRead_only (s : State) (a : Fin 4) : s.picParkRead a = { s with pic := (s.picParkRead a).pic } := State.picSend_only _ _ _ _ _ _

theorem State.parkNext_of_nil {s : State} (h : s.spn.parking = []) : s.parkNext = s.setSpin 2 := by
  simp only [State.parkNext, h]

theorem State.parkNext_of_cons {s : State} {a : Fin 4} {r : List (Fin 4)} (h : s.spn.parking = a :: r) :
    s.parkNext = { s with pic := (s.picFrame a 2).pic } := by
  simp only [State.parkNext, h]
  exact s.picFrame_only a 2

/-- The park check goes on from spin 1: to sensing when no actuator is left. -/
theorem State.parkNext_facts {s : State} (h : s.spin = 1) :
    s.parkNext.spn.parking = s.spn.parking ∧ s.parkNext.spn.rockPairs = s.spn.rockPairs ∧
      s.parkNext.spin = (if s.spn.parking = [] then 2 else 1) ∧
      ∀ r f, r ≠ Adr.SPN_STATUS → ¬EventReg r → s.parkNext.fld r f = s.fld r f := by
  cases hp : s.spn.parking with
  | nil =>
    rw [State.parkNext_of_nil hp]
    refine ⟨?_, ?_, by simp, fun r f hr he => (s.setSpin_frame 2).fld f (by simpa using hr) he⟩
    all_goals rw [State.setSpin_spn]
    exact hp
  | cons a r =>
    rw [State.parkNext_of_cons hp]
    exact ⟨hp, rfl, (show s.spin = 1 from h).trans (if_neg (List.cons_ne_nil a r)).symm, fun _ _ _ _ => rfl⟩

/-- The actuator in hand is parked: it leaves the list, and the check goes on (R183). -/
theorem State.parkedNow_facts {s : State} {a : Fin 4} {r : List (Fin 4)} (id : Nat) (hp : s.spn.parking = a :: r) (h : s.spin = 1) :
    (s.parkedNow id).spn.parking = r ∧ (s.parkedNow id).spn.rockPairs = 0 ∧ (s.parkedNow id).spin = (if r = [] then 2 else 1) ∧
      ∀ x f, x ≠ Adr.SPN_STATUS → ¬EventReg x → (s.parkedNow id).fld x f = s.fld x f := by
  have hspn : ((s.modSpn (fun p => { p with parking := p.parking.tail, rockPairs := 0 })).event id).spn =
      { s.spn with parking := r, rockPairs := 0 } := by simp [hp]
  obtain ⟨hpark, hpairs, hspin, hfld⟩ := State.parkNext_facts
    (s := (s.modSpn (fun p => { p with parking := p.parking.tail, rockPairs := 0 })).event id) (by simpa using h)
  rw [hspn] at hpark hpairs hspin
  exact ⟨hpark, hpairs, hspin, fun x f hx he => (hfld x f hx he).trans (State.fld_event _ _ _ _ f he)⟩

/-- Rocking changes SRV_OUT of the actuator, the size of the rock and the port (R183). -/
theorem State.rock_only (s : State) (a : Fin 4) (mag : Nat) :
    s.RegsBut [Adr.SRV_OUT a] (s.rock a mag) ∧ ∃ m, (s.rock a mag).spn = { s.spn with rockMag := m } := by
  unfold State.rock
  extract_lets m d s1 fr
  rw [State.picFrame_only]
  exact ⟨fun r hr => (State.RegsBut.setFld (t := s.modSpn (fun p => { p with rockMag := m })) (.refl [Adr.SRV_OUT a] s)
    Fld.SRV_OUT_vcm _ (by simp)) r hr, m, rfl⟩

theorem State.rock_facts {s : State} {a : Fin 4} (mag : Nat) (h : s.spin = 1) :
    (s.rock a mag).spn.parking = s.spn.parking ∧ (s.rock a mag).spn.rockPairs = s.spn.rockPairs ∧ (s.rock a mag).spin = 1 := by
  obtain ⟨hregs, m, hspn⟩ := s.rock_only a mag
  rw [hspn, State.spin, hregs.fld _ (by generalize a = b; decide +revert)]
  exact ⟨rfl, rfl, h⟩

theorem exec_parkRetractWaitEnd_of_parked {s : State} {a : Fin 4} {r : List (Fin 4)} (hp : s.spn.parking = a :: r) (hs : s.spin = 1)
    (hz : s.spn.rockPairs = 0) : exec (.parkRetractWaitEnd true) s = .next ((s.picParkRead a).parkedNow 0x302) := by
  change execParkRetractWaitEnd true s = _
  simp only [execParkRetractWaitEnd, hp, hs, hz, ne_eq, not_true_eq_false, or_self, if_false, if_true]

theorem exec_parkRetractWaitEnd_of_stuck {s : State} {a : Fin 4} {r : List (Fin 4)} (hp : s.spn.parking = a :: r) (hs : s.spin = 1)
    (hz : s.spn.rockPairs = 0) : exec (.parkRetractWaitEnd false) s =
      .next (((s.picParkRead a).modSpn (fun p => { p with rockPairs := 1 })).rock a (s.fld Adr.SPN_ROCK Fld.SPN_ROCK_rock_i0)) := by
  change execParkRetractWaitEnd false s = _
  simp only [execParkRetractWaitEnd, hp, hs, hz, ne_eq, not_true_eq_false, or_self, if_false, Bool.false_eq_true]

/-- The park status is read after a pair, whose demand is over (R183). -/
def State.pairOver (s : State) (a : Fin 4) : State := (s.picParkRead a).setSFld (Adr.SRV_OUT a) Fld.SRV_OUT_vcm 0

theorem State.pairOver_facts (s : State) (a : Fin 4) :
    (s.pairOver a).spn = s.spn ∧ (s.pairOver a).spin = s.spin ∧ s.RegsBut [Adr.SRV_OUT a] (s.pairOver a) := by
  unfold State.pairOver
  rw [State.picParkRead_only]
  refine ⟨rfl, ?_, fun r hr => (State.RegsBut.setFld (.refl [Adr.SRV_OUT a] s) Fld.SRV_OUT_vcm _ (by simp)) r hr⟩
  exact State.fld_setSFld_ne _ _ _ _ (by generalize a = b; decide +revert)

theorem exec_rockPairDone_of_parked {s : State} {a : Fin 4} {r : List (Fin 4)} (hp : s.spn.parking = a :: r) (hs : s.spin = 1)
    (hz : s.spn.rockPairs ≠ 0) : exec (.rockPairDone true) s = .next ((s.pairOver a).parkedNow 0x303) := by
  change execRockPairDone true s = _
  simp only [execRockPairDone, hp, hs, hz, ne_eq, not_true_eq_false, or_self, if_false, if_true]
  rfl

theorem exec_rockPairDone_of_last {s : State} {a : Fin 4} {r : List (Fin 4)} (hp : s.spn.parking = a :: r) (hs : s.spin = 1)
    (hz : s.spn.rockPairs ≠ 0) (h : s.fld Adr.SPN_ROCK Fld.SPN_ROCK_rock_cycles ≤ s.spn.rockPairs) :
    exec (.rockPairDone false) s = .next (((s.pairOver a).event 0x304).spinRefused) := by
  change execRockPairDone false s = _
  simp only [execRockPairDone, hp, hs, hz, h, ne_eq, not_true_eq_false, or_self, if_false, if_true, Bool.false_eq_true]
  rfl

theorem exec_rockPairDone_of_more {s : State} {a : Fin 4} {r : List (Fin 4)} (hp : s.spn.parking = a :: r) (hs : s.spin = 1)
    (hz : s.spn.rockPairs ≠ 0) (h : s.spn.rockPairs < s.fld Adr.SPN_ROCK Fld.SPN_ROCK_rock_cycles) :
    exec (.rockPairDone false) s = .next (((s.pairOver a).modSpn (fun p => { p with rockPairs := p.rockPairs + 1 })).rock a
      (s.spn.rockMag + s.fld Adr.SPN_ROCK Fld.SPN_ROCK_rock_step)) := by
  change execRockPairDone false s = _
  simp only [execRockPairDone, hp, hs, hz, Nat.not_le.2 h, ne_eq, not_true_eq_false, or_self, if_false, Bool.false_eq_true]
  rfl

theorem State.picParkRead_facts (s : State) (a : Fin 4) :
    (s.picParkRead a).spn = s.spn ∧ (s.picParkRead a).spin = s.spin ∧ s.RegsBut [Adr.SRV_OUT a] (s.picParkRead a) := by
  rw [State.picParkRead_only]
  exact ⟨rfl, rfl, .refl _ s⟩

theorem srvOut_not_eventReg (a : Fin 4) : ¬EventReg (Adr.SRV_OUT a) := by
  have hall : ∀ n : Fin 4, ¬((0x5000000 ≤ Adr.SRV_OUT n ∧ Adr.SRV_OUT n < 0x5101000) ∨ Adr.SRV_OUT n = Adr.ECC_MODE) := by decide
  exact hall a

/-- Another rock of the actuator in hand leaves the check where it is, with the pairs counted (R183). -/
theorem State.rockAgain_facts {s t : State} {a : Fin 4} {r : List (Fin 4)} (n mag : Nat) (hp : s.spn.parking = a :: r) (hs : s.spin = 1)
    (hspn : t.spn = { s.spn with rockPairs := n }) (hspin : t.spin = s.spin) (hregs : s.RegsBut [Adr.SRV_OUT a] t) :
    (t.rock a mag).spn.parking = a :: r ∧ (t.rock a mag).spn.rockPairs = n ∧ (t.rock a mag).spin = 1 ∧
      s.RegsBut [Adr.SRV_OUT a] (t.rock a mag) := by
  obtain ⟨hpark, hpairs, hone⟩ := State.rock_facts (s := t) (a := a) mag (hspin.trans hs)
  refine ⟨?_, ?_, hone, hregs.trans (t.rock_only a mag).1⟩
  · rw [hpark, hspn]
    exact hp
  · rw [hpairs, hspn]

/-- Settles O12: a parked actuator leaves the list, one that stays is rocked, and the last pair refuses the spin-up. -/
theorem parkCheckRows : Obligations.ParkCheckRows := by
  unfold Obligations.ParkCheckRows
  intro s a r hp hs
  obtain ⟨hread, hreadSpin, hreadRegs⟩ := s.picParkRead_facts a
  obtain ⟨hover, hoverSpin, hoverRegs⟩ := s.pairOver_facts a
  have hreadPark : (s.picParkRead a).spn.parking = a :: r := by rw [hread, hp]
  have hoverPark : (s.pairOver a).spn.parking = a :: r := by rw [hover, hp]
  refine ⟨fun hz => ?_, fun hz => ?_, fun hz => ?_, fun hz hlt => ?_, fun hz hle => ?_⟩
  · obtain ⟨hpark, hpairs, hspin, -⟩ := State.parkedNow_facts 0x302 hreadPark (hreadSpin.trans hs)
    exact ⟨_, exec_parkRetractWaitEnd_of_parked hp hs hz, hpark, hpairs, hspin⟩
  · exact ⟨_, exec_parkRetractWaitEnd_of_stuck hp hs hz, State.rockAgain_facts 1 _ hp hs (by rw [State.modSpn_spn, hread])
      ((State.spin_modSpn _ _).trans hreadSpin) hreadRegs⟩
  · obtain ⟨hpark, hpairs, -, hfld⟩ := State.parkedNow_facts 0x303 hoverPark (hoverSpin.trans hs)
    refine ⟨_, exec_rockPairDone_of_parked hp hs hz, hpark, hpairs, ?_⟩
    rw [State.sfld, hfld _ _ (by generalize a = b; decide +revert) (srvOut_not_eventReg a)]
    exact State.sfld_setSFld_zero _ _ _ (by decide)
  · exact ⟨_, exec_rockPairDone_of_more hp hs hz hlt, State.rockAgain_facts (s.spn.rockPairs + 1) _ hp hs
      (by rw [State.modSpn_spn, hover]) ((State.spin_modSpn _ _).trans hoverSpin) hoverRegs⟩
  · obtain ⟨hspin, hres, -, hpark⟩ := ((s.pairOver a).event 0x304).spinRefused_facts
    exact ⟨_, exec_rockPairDone_of_last hp hs hz hle, hspin, hres, hpark⟩

/-! ## One PWM period -/

/-- From s to t the loops of a period keep its number and the compare values in force, and the host side. -/
structure PwmStage (s t : State) : Prop where
  period : t.spn.period = s.spn.period
  cmp : t.spn.cmp = s.spn.cmp
  host : t.host = s.host

namespace PwmStage

theorem refl (s : State) : PwmStage s s := ⟨rfl, rfl, rfl⟩

theorem trans {s t u : State} (h : PwmStage s t) (k : PwmStage t u) : PwmStage s u :=
  ⟨k.period.trans h.period, k.cmp.trans h.cmp, k.host.trans h.host⟩

/-- A change of the spindle block that keeps the period and the compare values. -/
theorem modSpn {s t : State} (h : PwmStage s t) (f : Spn → Spn) (hp : (f t.spn).period = t.spn.period) (hc : (f t.spn).cmp = t.spn.cmp) :
    PwmStage s (t.modSpn f) := ⟨hp.trans h.period, hc.trans h.cmp, h.host⟩

theorem modTime {s t : State} (h : PwmStage s t) (f : Time → Time) : PwmStage s (t.modTime f) := ⟨h.period, h.cmp, h.host⟩

theorem setReg {s t : State} (h : PwmStage s t) (r : Nat) (v : Word) : PwmStage s (t.setReg r v) := ⟨h.period, h.cmp, h.host⟩

theorem setFld {s t : State} (h : PwmStage s t) (r : Nat) (f : Fld) (v : Nat) : PwmStage s (t.setFld r f v) := h.setReg r _

theorem setFlag {s t : State} (h : PwmStage s t) (r : Nat) (f : Fld) (v : Bool) : PwmStage s (t.setFlag r f v) := h.setReg r _

theorem setSFld {s t : State} (h : PwmStage s t) (r : Nat) (f : Fld) (v : Int) : PwmStage s (t.setSFld r f v) := h.setReg r _

theorem event {s t : State} (h : PwmStage s t) (id d e : Nat) : PwmStage s (t.event id d e) :=
  ⟨by rw [State.event_spn]; exact h.period, by rw [State.event_spn]; exact h.cmp, (t.event_only id d e).host.trans h.host⟩

theorem phaseCheck {s t : State} (h : PwmStage s t) : PwmStage s t.phaseCheck :=
  ⟨by rw [State.phaseCheck_spn]; exact h.period, by rw [State.phaseCheck_spn]; exact h.cmp, t.phaseCheck_frame.host.trans h.host⟩

theorem ite {s t u : State} {p : Prop} [Decidable p] (h : PwmStage s t) (k : PwmStage s u) : PwmStage s (if p then t else u) := by
  split
  · exact h
  · exact k

end PwmStage

/-! ## Emergency retract -/

/-- An emergency retract of one slice: its gate falls, its channel operations end, its lead aborts and it is unloaded (R190). -/
def State.retractSlice (s : State) (a : Fin 4) : State :=
  ((((s.dropGate a).setFlag (Adr.CHN_STATUS a) Fld.CHN_STATUS_reading false).modSeq a Sequencer.cutOff).requestAbort a).unloaded a

theorem State.emergencyRetract_of_armed {s : State} (h : s.flag Adr.SPN_RETRACT Fld.SPN_RETRACT_retracted = false) :
    s.emergencyRetract = ((s.forActs State.retractSlice).forActs (fun s a => s.picFrame a 2)).bump 8 := by
  rw [State.emergencyRetract, if_neg (by simp [h])]
  rfl

theorem State.retractSlice_frame (s : State) (a : Fin 4) :
    SliceFrame a [Adr.CHN_STATUS a, Adr.FSQ_STATUS a, Adr.SRV_STATUS a] s (s.retractSlice a) :=
  (((((SliceFrame.refl a _ s).dropGate (by simp)).setFlag _ _ (by simp)).modSeq _).requestAbort (by simp)).unloaded (by simp)

theorem State.emergencyRetract_stage (s : State) : PwmStage s s.emergencyRetract := by
  cases h : s.flag Adr.SPN_RETRACT Fld.SPN_RETRACT_retracted with
  | true =>
    rw [State.emergencyRetract, if_pos h]
    exact .refl s
  | false =>
    rw [State.emergencyRetract_of_armed h]
    have hslices : PwmStage s (s.forActs State.retractSlice) := State.forActs_induct (P := PwmStage s) (fun t a ht => ht.trans (by
      have hframe := t.retractSlice_frame a
      exact ⟨by rw [hframe.rest], by rw [hframe.rest], hframe.host⟩)) (.refl s)
    have hpics : PwmStage s ((s.forActs State.retractSlice).forActs (fun s a => s.picFrame a 2)) :=
      State.forActs_induct (P := PwmStage s) (fun t a ht => ht.trans (by
        rw [t.picFrame_only]
        exact ⟨rfl, rfl, rfl⟩)) hslices
    rw [State.bump_only]
    exact ⟨hpics.period, hpics.cmp, hpics.host⟩

/-! ## The stages of a period -/

theorem State.overcurrent_stage (s : State) (u v w : Int) : PwmStage s (s.overcurrent u v w) := by
  unfold State.overcurrent
  exact .ite (((PwmStage.refl s).setFlag _ _ _).modSpn _ rfl rfl) (.refl s)

theorem State.observe_stage (s : State) (o : Loops) : PwmStage s (s.observe o) := by
  unfold State.observe
  exact (PwmStage.refl s).modSpn _ rfl rfl

theorem State.speedLoop_stage (s : State) (o : Loops) : PwmStage s (s.speedLoop o) := by
  unfold State.speedLoop
  extract_lets p goal acc ref s1 e cut q integ imax idMin floor
  exact ((((PwmStage.refl s).modSpn _ rfl rfl)).modSpn _ rfl rfl).modTime _

theorem State.countHandover_stage (s : State) : PwmStage s s.countHandover := by
  unfold State.countHandover
  exact (PwmStage.refl s).modSpn _ rfl rfl

theorem State.superviseSpeed_stage (s : State) : PwmStage s s.superviseSpeed := by
  unfold State.superviseSpeed
  exact .ite (((PwmStage.refl s).modSpn _ rfl rfl).setFlag _ _ _).phaseCheck ((PwmStage.refl s).modSpn _ rfl rfl)

theorem State.showLoops_stage (s : State) : PwmStage s s.showLoops :=
  (((((PwmStage.refl s).setReg _ _).setFld _ _ _).setSFld _ _ _).setSFld _ _ _).setFlag _ _ _

theorem State.flySpeed_stage (s : State) : PwmStage s s.flySpeed := by
  unfold State.flySpeed
  exact .ite (s.emergencyRetract_stage.event _ _ _).phaseCheck (.refl s)

theorem State.beginPeriod_facts (s : State) :
    s.beginPeriod.spn.period = s.spn.period + 1 ∧ s.beginPeriod.spn.cmp = s.spn.cmpNext ∧ s.beginPeriod.host = s.host := by
  unfold State.beginPeriod
  dsimp only
  split
  · rw [State.picSend_only]
    exact ⟨rfl, rfl, rfl⟩
  · exact ⟨rfl, rfl, rfl⟩

/-- The first stages of a period: the overcurrent check and the validity of its currents (R166, R169, R172). -/
def State.periodSampled (s : State) (u v w : Int) : State :=
  let t := s.beginPeriod.overcurrent u v w
  (t.modSpn (fun p => { p with winLeft := p.winLeft - 1 })).setFlag Adr.SPN_STATUS Fld.SPN_STATUS_isns_valid
    (if 0 < t.spn.winLeft then none else t.reconstruct u v w).isSome

theorem State.periodSampled_stage (s : State) (u v w : Int) : PwmStage s.beginPeriod (s.periodSampled u v w) :=
  ((State.overcurrent_stage _ u v w).modSpn _ rfl rfl).setFlag _ _ _

theorem execPwmPeriod_stage (s : State) (u v w : Int) : ∃ t, execPwmPeriod u v w s = .next t ∧ PwmStage (s.periodSampled u v w) t := by
  unfold execPwmPeriod
  extract_lets s0 s1 m s2 lim o low sc va vb idRef s3 s4 s5 s6
  have hself : PwmStage (s.periodSampled u v w) s2 := .refl _
  split
  · split
    · exact ⟨_, rfl, hself.modSpn _ rfl rfl⟩
    · exact ⟨_, rfl, hself⟩
  · split
    · have h3 : PwmStage (s.periodSampled u v w) s3 := (hself.modSpn _ rfl rfl).trans (State.observe_stage _ o)
      have h5 : PwmStage (s.periodSampled u v w) s5 := (h3.modSpn _ rfl rfl).setFld _ _ _
      have h6 : PwmStage (s.periodSampled u v w) s6 :=
        .ite (h5.trans s5.countHandover_stage) (.ite (h5.trans (s5.speedLoop_stage o)) h5)
      exact ⟨_, rfl, ((h6.trans s6.superviseSpeed_stage).trans (State.showLoops_stage _)).trans (State.flySpeed_stage _)⟩
    · exact ⟨_, rfl, hself⟩

/-- Settles O13: the period begins with its number and compare values, and no later stage changes them. -/
theorem pwmPeriodTakesEffect : Obligations.PwmPeriodTakesEffect := by
  unfold Obligations.PwmPeriodTakesEffect
  intro s u v w
  obtain ⟨hperiod, hcmp, hhost⟩ := s.beginPeriod_facts
  obtain ⟨t, hexec, hstage⟩ := execPwmPeriod_stage s u v w
  have hall := (s.periodSampled_stage u v w).trans hstage
  exact ⟨t, hexec, hall.period.trans hperiod, hall.cmp.trans hcmp, hall.host.trans hhost⟩

end Sys2Proof.Machine
end

section
/-! Emergency retract (R184, R190) and the spindle's protections and readings (R168, R171, R172, R178 to R180, R186). -/

namespace Sys2Proof.Machine

open Sys2Proof

/-! ## What an emergency retract does -/

theorem SpinFrame.mode {l : List Nat} {s t : State} (h : SpinFrame l s t) {a : Fin 4} (hl : Adr.SRV_STATUS a ∉ l) : t.mode a = s.mode a :=
  h.fld _ hl (SRV_STATUS_outside_events a)

/-- Where the time block is kept too, only the spindle block changes beside the registers. -/
theorem SpinFrame.spn_only {l : List Nat} {s t : State} (h : SpinFrame l s t) (ht : t.time = s.time) : t = { s.takeEvents t with spn := t.spn } := by
  conv => lhs; rw [h.rest, ht]
  rfl

/-- From s to t heads are retracted: what is kept is the spindle block, the host side, every register outside the slices, and an unloaded
actuator's mode. -/
structure RetractKeeps (s t : State) : Prop where
  spn : t.spn = s.spn
  host : t.host = s.host
  fld : ∀ r f, (∀ a : Fin 4, r ∉ [Adr.CHN_STATUS a, Adr.FSQ_STATUS a, Adr.SRV_STATUS a]) → t.fld r f = s.fld r f

namespace RetractKeeps

theorem refl (s : State) : RetractKeeps s s := ⟨rfl, rfl, fun _ _ _ => rfl⟩

theorem trans {s t u : State} (h : RetractKeeps s t) (k : RetractKeeps t u) : RetractKeeps s u :=
  ⟨k.spn.trans h.spn, k.host.trans h.host, fun r f hr => (k.fld r f hr).trans (h.fld r f hr)⟩

theorem slice (s : State) (a : Fin 4) : RetractKeeps s (s.retractSlice a) := by
  have hframe := s.retractSlice_frame a
  exact ⟨by rw [hframe.rest], hframe.host, fun r f hr => hframe.fld f (hr a)⟩

theorem picFrame (s : State) (a : Fin 4) : RetractKeeps s (s.picFrame a 2) := by
  rw [s.picFrame_only]
  exact ⟨rfl, rfl, fun _ _ _ => rfl⟩

theorem bump (s : State) (c : Nat) : RetractKeeps s (s.bump c) := by
  refine ⟨?_, ?_, fun r f _ => s.fld_bump c r f⟩
  all_goals rw [s.bump_only]

theorem spin {s t : State} (h : RetractKeeps s t) : t.spin = s.spin := h.fld _ _ (by decide)

theorem retractPair {s t : State} (h : RetractKeeps s t) (f : Fld) : t.fld Adr.SPN_RETRACT f = s.fld Adr.SPN_RETRACT f :=
  h.fld _ f (by decide)

end RetractKeeps

theorem State.emergencyRetract_kept (s : State) : RetractKeeps s s.emergencyRetract := by
  cases h : s.flag Adr.SPN_RETRACT Fld.SPN_RETRACT_retracted with
  | true =>
    rw [State.emergencyRetract, if_pos h]
    exact .refl s
  | false =>
    rw [State.emergencyRetract_of_armed h]
    have hslices : RetractKeeps s (s.forActs State.retractSlice) :=
      State.forActs_induct (P := RetractKeeps s) (fun t a ht => ht.trans (.slice t a)) (.refl s)
    exact (State.forActs_induct (P := RetractKeeps s) (fun t a ht => ht.trans (.picFrame t a)) hslices).trans (.bump _ 8)

theorem State.mode_retractSlice_self (s : State) (a : Fin 4) : (s.retractSlice a).mode a = 0 := State.mode_unloaded _ a

theorem State.mode_retractSlice_other (s : State) {a b : Fin 4} (h : b ≠ a) : (s.retractSlice a).mode b = s.mode b :=
  (s.retractSlice_frame a).fld _ (by revert h; generalize a = b; decide +revert)

/-- An emergency retract with the pair not retracted unloads every actuator and is counted (R190). -/
theorem State.emergencyRetract_unloads {s : State} (h : s.flag Adr.SPN_RETRACT Fld.SPN_RETRACT_retracted = false) :
    (∀ a : Fin 4, s.emergencyRetract.mode a = 0) ∧ s.emergencyRetract.nor.counters[8] = s.nor.counters[8] + 1 := by
  rw [State.emergencyRetract_of_armed h]
  have hcount : ((s.forActs State.retractSlice).forActs (fun s a => s.picFrame a 2)).nor.counters = s.nor.counters := by
    refine State.forActs_induct (P := fun t => t.nor.counters = s.nor.counters) (fun t a ht => ?_)
      (State.forActs_induct (P := fun t => t.nor.counters = s.nor.counters) (fun t a ht => ?_) rfl)
    · rw [t.picFrame_only]
      exact ht
    · rw [(t.retractSlice_frame a).rest]
      exact ht
  refine ⟨fun a => ?_, ?_⟩
  · rw [State.mode, State.fld_bump]
    refine State.forActs_induct (P := fun t => t.mode a = 0) (fun t b ht => ?_) ?_
    · rw [t.picFrame_only]
      exact ht
    · exact State.forActs_each (P := fun t b => t.mode b = 0) State.mode_retractSlice_self
        (fun t b c hc ht => (t.mode_retractSlice_other hc).trans ht) s a
  · rw [State.bump_counter_same _ (by decide), hcount]

/-! ## The rows -/

theorem exec_overcurrentCoast {s : State} (h : 8 ≤ s.spn.ocAt.length) : exec .overcurrentCoast s =
    .next (((((s.setSpin 8).modSpn (fun p => { p with ocAt := [] })).emergencyRetract).event 0x306).phaseCheck) := if_pos h

/-- A coast that retracts: the event and the check of the phase loop leave the retract as it is. -/
theorem State.coast_facts (s : State) (id : Nat) :
    ((s.emergencyRetract.event id).phaseCheck).spin = s.spin ∧ ((s.emergencyRetract.event id).phaseCheck).spn = s.spn ∧
      (s.flag Adr.SPN_RETRACT Fld.SPN_RETRACT_retracted = false → ∀ a : Fin 4, ((s.emergencyRetract.event id).phaseCheck).mode a = 0) := by
  have hkeeps := s.emergencyRetract_kept
  have hframe : SpinFrame [Adr.TMB_PLSTAT, Adr.SPN_ANGLE] s.emergencyRetract ((s.emergencyRetract.event id).phaseCheck) :=
    ((SpinFrame.refl _ _).event _ _ _).trans (State.phaseCheck_frame _)
  refine ⟨?_, ?_, fun h a => ?_⟩
  · rw [State.spin_phaseCheck, State.spin_event, hkeeps.spin]
  · rw [State.phaseCheck_spn, (State.event_only _ _ _ _).spn, hkeeps.spn]
  · rw [hframe.mode (by generalize a = b; decide +revert)]
    exact (State.emergencyRetract_unloads h).1 a

theorem State.retracted_setSpin (s : State) (n : Nat) :
    (s.setSpin n).flag Adr.SPN_RETRACT Fld.SPN_RETRACT_retracted = s.flag Adr.SPN_RETRACT Fld.SPN_RETRACT_retracted :=
  (s.setSpin_regsBut n).flag _ (by decide)

theorem overcurrentCoast_row {s : State} (h : 8 ≤ s.spn.ocAt.length) :
    ∃ t, exec .overcurrentCoast s = .next t ∧ t.spin = 8 ∧ t.spn.ocAt = [] ∧
      (s.flag Adr.SPN_RETRACT Fld.SPN_RETRACT_retracted = false → ∀ a : Fin 4, t.mode a = 0) := by
  obtain ⟨hspin, hspn, hmode⟩ := State.coast_facts ((s.setSpin 8).modSpn (fun p => { p with ocAt := [] })) 0x306
  refine ⟨_, exec_overcurrentCoast h, ?_, ?_, fun hr => hmode ?_⟩
  · rw [hspin, State.spin_modSpn, State.spin_setSpin]
  · rw [hspn]
    rfl
  · rw [State.flag_modSpn, s.retracted_setSpin, hr]

theorem fwFloor_row {s : State} (h : 16 ≤ s.spn.fwRun) (hs : s.spn.fwSaid = false) :
    ∃ t, exec .fwFloor s = .next t ∧ t.flag Adr.SPN_STICKY Fld.SPN_STICKY_fw_floor = true ∧
      t.spn.fwSaid = true ∧ s.RegsButEvents [Adr.SPN_STICKY] t ∧ t = { s.takeEvents t with spn := t.spn } := by
  have hframe : SpinFrame [Adr.SPN_STICKY] s
      (((s.setFlag Adr.SPN_STICKY Fld.SPN_STICKY_fw_floor true).modSpn (fun p => { p with fwSaid := true })).event 0x308) :=
    (((SpinFrame.refl _ s).setFlag _ _ (by simp)).modSpn _).event _ _ _
  refine ⟨_, if_pos ⟨h, by rw [hs]; rfl⟩, ?_, ?_, hframe.regs, hframe.spn_only (State.event_only _ _ _ _).time⟩
  · rw [State.flag_event _ _ _ _ _ (by decide), State.flag_modSpn, State.flag_setFlag_eq _ _ _ _ (by decide)]
  · rw [(State.event_only _ _ _ _).spn]
    rfl

/-- The V_bus read is done, its value stored and the constants formed from it, before V_bus low is looked at (R178, R180). -/
def State.vbusStored (s : State) (mv : Nat) : State :=
  ((({ s with pic := s.pic.vbusDone }).picGo.setFld Adr.SPN_VBUS Fld.SPN_VBUS_vbus (min mv 65535)).formConstants).modSpn
    (fun p => { p with vlow := decide (min mv 65535 < s.fld Adr.SPN_VLIM Fld.SPN_VLIM_vbus_low) })

theorem exec_vbusRead {s : State} (mv : Nat) (h : s.pic.vbusDue = true) : exec (.vbusRead mv) s =
    .next (if decide (min mv 65535 < s.fld Adr.SPN_VLIM Fld.SPN_VLIM_vbus_low) && !s.spn.vlow
      then ((s.vbusStored mv).setFlag Adr.SPN_STICKY Fld.SPN_STICKY_vbus_low true).event 0x309 else s.vbusStored mv) := by
  change execVbusRead mv s = _
  rw [execVbusRead, if_neg (by simp [h])]
  dsimp only
  rw [State.picGo_only]
  simp only [State.vbusStored]
  rw [State.picGo_only]
  rfl

theorem State.picGo_vbusDue (s : State) : s.picGo.pic.vbusDue = s.pic.vbusDue := by
  have hfinish : ∀ f : PicFrame, (if s.pic.until_ ≤ s.now then { s.pic with busy := none, sent := s.pic.sent ++ [f] } else s.pic).vbusDue =
      s.pic.vbusDue := fun f => by split <;> rfl
  unfold State.picGo
  dsimp only
  split
  · split
    · split <;> simp [hfinish]
    · split <;> simp [hfinish]
  · split <;> simp [hfinish]

theorem State.formConstants_frame (s : State) : SpinFrame [Adr.SPN_STICKY] s s.formConstants := by
  unfold State.formConstants
  exact .ite (((SpinFrame.refl _ s).modSpn _).setFlag _ _ (by simp)) ((SpinFrame.refl _ s).modSpn _)

theorem State.formConstants_time (s : State) : s.formConstants.time = s.time := by
  unfold State.formConstants
  extract_lets
  split
  · rw [State.setFlag_time, State.modSpn_time]
  · rw [State.modSpn_time]

/-- Where the frames of the read are taken off the port, the answer of the read is kept in the spindle block and two registers. -/
theorem State.vbusStored_facts (s : State) (mv : Nat) :
    SpinFrame [Adr.SPN_VBUS, Adr.SPN_STICKY] { s with pic := ({ s with pic := s.pic.vbusDone }).picGo.pic } (s.vbusStored mv) ∧
      (s.vbusStored mv).time = s.time ∧ (s.vbusStored mv).fld Adr.SPN_VBUS Fld.SPN_VBUS_vbus = min mv 65535 := by
  unfold State.vbusStored
  rw [State.picGo_only]
  have hset : SpinFrame [Adr.SPN_VBUS] { s with pic := ({ s with pic := s.pic.vbusDone }).picGo.pic }
      (({ s with pic := ({ s with pic := s.pic.vbusDone }).picGo.pic }).setFld Adr.SPN_VBUS Fld.SPN_VBUS_vbus (min mv 65535)) :=
    (SpinFrame.refl _ _).setFld _ _ (by simp)
  refine ⟨((hset.mono (by simp)).trans ((State.formConstants_frame _).mono (by simp))).modSpn _, ?_, ?_⟩
  · rw [State.modSpn_time, State.formConstants_time]
    rfl
  · rw [State.fld_modSpn, (State.formConstants_frame _).fld _ (by decide) (by decide), State.fld_setFld_eq _ _ _ _ (by decide)]
    exact Nat.mod_eq_of_lt (show min mv 65535 < 65536 by omega)

theorem vbusRead_row {s : State} (mv : Nat) (h : s.pic.vbusDue = true) :
    ∃ t, exec (.vbusRead mv) s = .next t ∧ t.pic.vbusDue = false ∧ t.fld Adr.SPN_VBUS Fld.SPN_VBUS_vbus = min mv 65535 ∧
      s.RegsButEvents [Adr.SPN_VBUS, Adr.SPN_STICKY] t ∧ t = { s.takeEvents t with spn := t.spn, pic := t.pic } := by
  obtain ⟨hframe, htime, hfld⟩ := s.vbusStored_facts mv
  have hdue : ({ s with pic := s.pic.vbusDone }).picGo.pic.vbusDue = false := State.picGo_vbusDue _
  have hpic : ∀ t : State, SpinFrame [Adr.SPN_VBUS, Adr.SPN_STICKY] { s with pic := ({ s with pic := s.pic.vbusDone }).picGo.pic } t →
      t.time = s.time → t.pic.vbusDue = false ∧ s.RegsButEvents [Adr.SPN_VBUS, Adr.SPN_STICKY] t ∧
        t = { s.takeEvents t with spn := t.spn, pic := t.pic } := by
    intro t ht htm
    refine ⟨by rw [ht.pic]; exact hdue, ht.regs, ?_⟩
    conv => lhs; rw [ht.rest, htm]
    rw [ht.pic]
    rfl
  rw [exec_vbusRead mv h]
  by_cases hlow : (decide (min mv 65535 < s.fld Adr.SPN_VLIM Fld.SPN_VLIM_vbus_low) && !s.spn.vlow) = true
  · rw [if_pos hlow]
    obtain ⟨h1, h2, h3⟩ := hpic _ ((hframe.setFlag (r := Adr.SPN_STICKY) Fld.SPN_STICKY_vbus_low true (by simp)).event 0x309 0 0)
      (((State.event_only _ _ _ _).time.trans (State.setFlag_time _ _ _ _)).trans htime)
    exact ⟨_, rfl, h1, by rw [State.fld_event _ _ _ _ _ (by decide), State.fld_setFlag_ne _ _ _ _ (by decide), hfld], h2, h3⟩
  · rw [if_neg hlow]
    obtain ⟨h1, h2, h3⟩ := hpic _ hframe htime
    exact ⟨_, rfl, h1, hfld, h2, h3⟩

/-- The offsets of the current sense with the averages of a calibration (R171). -/
def State.offsetsStored (s : State) (u v w : Int) : State :=
  ((s.setSFld Adr.SPN_IOFS Fld.SPN_IOFS_ofs_u u).setSFld Adr.SPN_IOFS Fld.SPN_IOFS_ofs_v v).setSFld Adr.SPN_IOFS Fld.SPN_IOFS_ofs_w w

theorem unsigned_mod (w : Nat) (i : Int) : unsigned w i % 2 ^ w = unsigned w i := by
  refine Nat.mod_eq_of_lt ?_
  unfold unsigned
  have hpow : (0 : Int) < 2 ^ w := Int.pow_pos (by decide)
  have hlt := Int.emod_lt_of_pos i hpow
  have hpos := Int.emod_nonneg i (Int.ne_of_gt hpow)
  rw [Int.toNat_lt hpos, Int.natCast_pow]
  exact hlt

theorem State.offsetsStored_fields (s : State) (u v w : Int) :
    (s.offsetsStored u v w).fld Adr.SPN_IOFS Fld.SPN_IOFS_ofs_u = unsigned 10 u ∧
      (s.offsetsStored u v w).fld Adr.SPN_IOFS Fld.SPN_IOFS_ofs_v = unsigned 10 v ∧
      (s.offsetsStored u v w).fld Adr.SPN_IOFS Fld.SPN_IOFS_ofs_w = unsigned 10 w := by
  unfold State.offsetsStored State.setSFld
  refine ⟨?_, ?_, ?_⟩
  · rw [State.fld_setFld_apart _ _ _ _ _ (by decide) (by decide), State.fld_setFld_apart _ _ _ _ _ (by decide) (by decide),
      State.fld_setFld_eq _ _ _ _ (by decide)]
    exact unsigned_mod 10 u
  · rw [State.fld_setFld_apart _ _ _ _ _ (by decide) (by decide), State.fld_setFld_eq _ _ _ _ (by decide)]
    exact unsigned_mod 10 v
  · rw [State.fld_setFld_eq _ _ _ _ (by decide)]
    exact unsigned_mod 10 w

theorem State.offsetsStored_regsBut (s : State) (u v w : Int) : s.RegsBut [Adr.SPN_IOFS] (s.offsetsStored u v w) :=
  (((State.RegsBut.refl _ s).setFld _ _ (by simp)).setFld _ _ (by simp)).setFld _ _ (by simp)

theorem exec_isnsCalDone {s : State} {l : List (Int × Int × Int)} (h : s.spn.calibrating = true) (hl : l.length = 64) :
    exec (.isnsCalDone l) s = .next ((s.offsetsStored (averageOf (l.map (fun p => p.1))) (averageOf (l.map (fun p => p.2.1)))
      (averageOf (l.map (fun p => p.2.2)))).modSpn (fun p => { p with calibrating := false })) := if_pos ⟨h, hl⟩

theorem exec_spindownBrakeChange {s : State} (h : s.spin = 7) :
    exec .spindownBrakeChange s = .next ((s.setSpin 3).modSpn (fun p => { p with cmpNext := [0, 0, 0] })) := if_pos h

/-- The lowest free standby takes the spindle over on the mirror of the period before (R168). -/
def State.spindleTakenOver (s : State) (k : Nat) (r : List Nat) : State :=
  (((s.modSpn (fun p => { p.load with pool := r, cmpNext := p.cmp })).setFlag Adr.SPN_STATUS Fld.SPN_STATUS_on_standby true).setFld Adr.SPN_STATUS
    Fld.SPN_STATUS_sb_id k).event 0x310

theorem exec_spindleEngineFault_of_standby {s : State} {k : Nat} {r : List Nat} (h : s.spn.pool = k :: r) :
    exec (.spindleEngineFault none) s = .next (s.spindleTakenOver k r) := by
  change (.next (s.spindleFaulty none) : Res) = _
  rw [State.spindleFaulty, if_neg (by simp [h])]
  simp only [State.spindleFault, h]
  rfl

theorem exec_spindleEngineFault_of_none {s : State} (h : s.spn.pool = []) (hf : s.flag Adr.FLT_STATE Fld.FLT_STATE_recovering = false) :
    exec (.spindleEngineFault none) s = .next (((s.setSpin 8).emergencyRetract.event 0x311).phaseCheck) := by
  change (.next (s.spindleFaulty none) : Res) = _
  rw [State.spindleFaulty, if_neg (by simp [hf])]
  simp only [State.spindleFault, h]

theorem exec_spindleEngineFault_of_free {s : State} {k : Fin 3} (h : k.val ∈ s.spn.pool) :
    exec (.spindleEngineFault (some k)) s = .next ((s.modSpn (fun p => { p with pool := p.pool.filter (fun x => x != k.val) })).event 0x312) := by
  change (.next (s.spindleFaulty (some k)) : Res) = _
  rw [State.spindleFaulty, if_neg (by simp)]
  simp only [State.spindleFault]
  rw [if_pos (by simpa using h)]

theorem State.spindleTakenOver_facts (s : State) {k : Nat} (r : List Nat) (hk : k < 4) :
    (s.spindleTakenOver k r).spn = { s.spn.load with pool := r, cmpNext := s.spn.cmp } ∧
      (s.spindleTakenOver k r).flag Adr.SPN_STATUS Fld.SPN_STATUS_on_standby = true ∧
      (s.spindleTakenOver k r).fld Adr.SPN_STATUS Fld.SPN_STATUS_sb_id = k ∧ s.RegsButEvents [Adr.SPN_STATUS] (s.spindleTakenOver k r) := by
  unfold State.spindleTakenOver
  refine ⟨(State.event_only _ _ _ _).spn, ?_, ?_, ?_⟩
  · rw [State.flag_event _ _ _ _ _ (by decide), State.flag_setFld_apart _ _ _ _ _ (by decide) (by decide), State.flag_setFlag_eq _ _ _ _ (by decide)]
  · rw [State.fld_event _ _ _ _ _ (by decide), State.fld_setFld_eq _ _ _ _ (by decide)]
    exact Nat.mod_eq_of_lt hk
  · exact (((((SpinFrame.refl _ s).modSpn _).setFlag _ _ (by simp)).setFld _ _ (by simp)).event _ _ _).regs

/-- Settles O14: each protection and reading of the spindle, row by row. -/
theorem spindleProtectionRows : Obligations.SpindleProtectionRows := by
  unfold Obligations.SpindleProtectionRows
  intro s
  refine ⟨overcurrentCoast_row, fwFloor_row, fun mv => vbusRead_row mv, fun l hc hl => ?_, fun hs => ?_, fun k r hp hk => ?_, fun hp hf => ?_,
    fun k hk => ?_⟩
  · obtain ⟨hu, hv, hw⟩ := s.offsetsStored_fields (averageOf (l.map (fun p => p.1))) (averageOf (l.map (fun p => p.2.1)))
      (averageOf (l.map (fun p => p.2.2)))
    exact ⟨_, exec_isnsCalDone hc hl, hu, hv, hw, rfl, s.offsetsStored_regsBut _ _ _, rfl⟩
  · refine ⟨_, exec_spindownBrakeChange hs, s.spin_setSpin 3, rfl, s.setSpin_regsBut 3, ?_⟩
    conv => lhs; rw [s.setSpin_regs_spn_only 3]
    rfl
  · obtain ⟨hspn, hon, hid, hregs⟩ := s.spindleTakenOver_facts r hk
    refine ⟨_, exec_spindleEngineFault_of_standby hp, ?_, hon, hid, ?_, ?_, ?_, ?_, hregs⟩
    all_goals rw [hspn]
    all_goals rfl
  · obtain ⟨hspin, -, hmode⟩ := State.coast_facts (s.setSpin 8) 0x311
    exact ⟨_, exec_spindleEngineFault_of_none hp hf, hspin.trans (s.spin_setSpin 8), fun hr => hmode ((s.retracted_setSpin 8).trans hr)⟩
  · have hframe : SpinFrame [] s ((s.modSpn (fun p => { p with pool := p.pool.filter (fun x => x != k.val) })).event 0x312) :=
      ((SpinFrame.refl _ s).modSpn _).event _ _ _
    refine ⟨_, exec_spindleEngineFault_of_free hk, ?_, hframe.regs, hframe.spn_only (State.event_only _ _ _ _).time⟩
    rw [(State.event_only _ _ _ _).spn]
    simp

end Sys2Proof.Machine
end

section
/-! Completions and waits (R350, R362, R398, R399): what the shared host operations change, and what they leave alone. -/

namespace Sys2Proof.Machine

open Sys2Proof

/-- h with the contexts, locks, completions and errors of k. -/
def HostState.work (h k : HostState) : HostState :=
  { h with
    ctxs := k.ctxs, ctxFullSeen := k.ctxFullSeen, locks := k.locks, lockFullSeen := k.lockFullSeen
    completions := k.completions, errors := k.errors, errorCount := k.errorCount }

/-- h with the locks of k. -/
def HostState.lockWork (h k : HostState) : HostState := { h with locks := k.locks, lockFullSeen := k.lockFullSeen }

theorem HostState.work_of_lockWork {h k : HostState} (e : k = h.lockWork k) : k = h.work k := by
  rw [e]
  rfl

/-- From s to t commands are completed or made to wait: of the host side only contexts, locks, completions and errors change, of the slices only
the entries of their lists, and of the rest only what events change. -/
structure HostWork (s t : State) : Prop where
  regs : s.RegsButEvents [] t
  rest : t = { s.takeEvents t with host := t.host, acts := t.acts }
  host : t.host = s.host.work t.host

namespace HostWork

theorem refl (s : State) : HostWork s s := ⟨.refl [] s, rfl, rfl⟩

theorem trans {s t u : State} (h : HostWork s t) (k : HostWork t u) : HostWork s u :=
  ⟨h.regs.trans k.regs, by
    conv => lhs; rw [k.rest, h.rest]
    rfl, k.host.trans (congrArg (fun j => j.work u.host) h.host)⟩

theorem only {s t u : State} (h : HostWork s t) (k : EventOnly t u) : HostWork s u := by
  have hhost := k.host
  have hacts := k.acts
  refine ⟨h.regs.only k, ?_, ?_⟩
  · conv => lhs; rw [k.takeEvents, h.rest]
    rw [hhost, hacts]
    rfl
  · rw [hhost]
    exact h.host

theorem event {s t : State} (h : HostWork s t) (id d e : Nat) : HostWork s (t.event id d e) := h.only (t.event_only id d e)

theorem ite {s t u : State} {p : Prop} [Decidable p] (h : HostWork s t) (k : HostWork s u) : HostWork s (if p then t else u) := by
  split
  · exact h
  · exact k

/-- A change of the host side among the fields of command handling. -/
theorem modHost {s t : State} (h : HostWork s t) (f : HostState → HostState) (hf : f t.host = t.host.work (f t.host)) : HostWork s (t.modHost f) := by
  refine ⟨h.regs, ?_, hf.trans (congrArg (fun j => j.work (f t.host)) h.host)⟩
  conv => lhs; rw [h.rest]
  rfl

theorem modSeq {s t : State} (h : HostWork s t) (a : Fin 4) (f : Sequencer → Sequencer) : HostWork s (t.modSeq a f) :=
  ⟨h.regs, by
    conv => lhs; rw [h.rest]
    rfl, h.host⟩

theorem media {s t : State} (h : HostWork s t) : t.media = s.media := by
  rw [h.rest]
  rfl

theorem own {s t : State} (h : HostWork s t) : t.own = s.own := by
  rw [h.rest]
  rfl

theorem fld {s t : State} (h : HostWork s t) {r : Nat} (f : Fld) (he : ¬((0x5000000 ≤ r ∧ r < 0x5101000) ∨ r = Adr.ECC_MODE)) :
    t.fld r f = s.fld r f := h.regs.fld f (by simp) he

theorem flag {s t : State} (h : HostWork s t) {r : Nat} (f : Fld) (he : ¬((0x5000000 ≤ r ∧ r < 0x5101000) ∨ r = Adr.ECC_MODE)) :
    t.flag r f = s.flag r f := h.regs.flag f (by simp) he

end HostWork

/-! ## Range locks -/

/-- From s to t the host side holds the same contexts, completions and errors. -/
structure LockWork (s t : State) : Prop where
  work : HostWork s t
  host : t.host = s.host.lockWork t.host
  acts : t.acts = s.acts

namespace LockWork

theorem refl (s : State) : LockWork s s := ⟨.refl s, rfl, rfl⟩

theorem trans {s t u : State} (h : LockWork s t) (k : LockWork t u) : LockWork s u :=
  ⟨h.work.trans k.work, k.host.trans (congrArg (fun j => j.lockWork u.host) h.host), k.acts.trans h.acts⟩

theorem event {s t : State} (h : LockWork s t) (id d e : Nat) : LockWork s (t.event id d e) :=
  ⟨h.work.event id d e, by rw [(t.event_only id d e).host]; exact h.host, (t.event_only id d e).acts.trans h.acts⟩

theorem modHost {s t : State} (h : LockWork s t) (f : HostState → HostState)
    (hf : f t.host = t.host.lockWork (f t.host)) : LockWork s (t.modHost f) :=
  ⟨h.work.modHost f (HostState.work_of_lockWork hf),
    hf.trans (congrArg (fun j => j.lockWork (f t.host)) h.host), h.acts⟩

theorem ite {s t u : State} {p : Prop} [Decidable p] (h : LockWork s t) (k : LockWork s u) : LockWork s (if p then t else u) := by
  split
  · exact h
  · exact k

end LockWork

theorem State.addLock_work (s : State) (a q c : Nat) (r : Nat × Nat × Nat × Bool) : LockWork s (s.addLock a q c r) := by
  unfold State.addLock
  exact .ite ((LockWork.refl s).modHost _ rfl) (.ite (.refl s) (((LockWork.refl s).modHost _ rfl).event _ _ _))

theorem State.fillLocks_work (s : State) : LockWork s s.fillLocks := by
  unfold State.fillLocks
  suffices hall : ∀ (l : List Ctx) (t : State), LockWork s t → LockWork s (l.foldl (fun s x =>
      if s.host.locks.length < 256 then
        match x.instr.bind lockOf with
        | some r => s.addLock x.assoc x.qid x.cid r
        | none => s
      else s) t) from hall _ s (.refl s)
  intro l
  induction l with
  | nil => exact fun t h => h
  | cons x l ih =>
    intro t h
    rw [List.foldl_cons]
    refine ih _ (.ite ?_ h)
    split
    · exact h.trans (t.addLock_work _ _ _ _)
    · exact h

theorem State.releaseLock_work (s : State) (a q c : Nat) : LockWork s (s.releaseLock a q c) := by
  unfold State.releaseLock
  exact (((LockWork.refl s).modHost _ rfl).trans (State.fillLocks_work _)).modHost _ rfl

/-! ## Sector lists -/

theorem State.dropList_only (s : State) (w : Bool) (a q c : Nat) : s.dropList w a q c = { s with acts := (s.dropList w a q c).acts } := by
  unfold State.dropList
  refine State.forActs_induct (P := fun t => t = { s with acts := t.acts }) (fun t n ht => ?_) rfl
  split
  · conv => lhs; rw [ht]
    rfl
  · exact ht

/-- With no entry of the command in a list, none goes. -/
theorem State.dropList_of_none {s : State} {w : Bool} {a q c : Nat} (h : ∀ n : Fin 4, (s.act n).seq.list.any (fun e => e.isOf w a q c) = false) :
    s.dropList w a q c = s := by
  unfold State.dropList
  refine State.forActs_induct (P := fun t => t = s) (fun t n ht => ?_) rfl
  rw [ht, if_neg (by rw [h n]; exact Bool.false_ne_true)]

theorem HostWork.dropList {s t : State} (h : HostWork s t) (w : Bool) (a q c : Nat) : HostWork s (t.dropList w a q c) := by
  obtain ⟨l, hl⟩ : ∃ l, t.dropList w a q c = { t with acts := l } := ⟨_, t.dropList_only w a q c⟩
  rw [hl]
  refine ⟨h.regs, ?_, h.host⟩
  conv => lhs; rw [h.rest]
  rfl

/-! ## Freed contexts and completions -/

/-- The context of a command is freed: the others stay, and nothing is completed (R350). -/
theorem State.dropCtx_facts (s : State) (a q c : Nat) :
    HostWork s (s.dropCtx a q c) ∧ (s.dropCtx a q c).host.ctxs = s.host.ctxs.filter (fun x => !x.is a q c) ∧
      (s.dropCtx a q c).host.completions = s.host.completions := by
  unfold State.dropCtx
  extract_lets s1
  have hlock := s1.releaseLock_work a q c
  have h1 : HostWork s s1 := (HostWork.refl s).modHost _ rfl
  refine ⟨(h1.trans hlock.work).dropList _ _ _ _, ?_, ?_⟩
  · rw [State.dropList_only]
    change (s1.releaseLock a q c).host.ctxs = _
    rw [hlock.host]
    rfl
  · rw [State.dropList_only]
    change (s1.releaseLock a q c).host.completions = _
    rw [hlock.host]
    rfl

/-- Over NVMe/TCP a completion joins those of its association (R340). -/
theorem State.post_of_tcp {s : State} {c : Completion} (h : c.assoc < 1024) :
    s.post c = s.modHost (fun h => { h with completions := h.completions ++ [c] }) := by
  rw [State.post, if_neg (by omega), if_pos (by omega)]

/-- The completion with which a command of association a ends. -/
def Ctx.completion (x : Ctx) (t : Status) (dw0 dw1 : Nat) (data : List Byte) : Completion :=
  { assoc := x.assoc, qid := x.qid, cid := x.cid, sct := t.sct, sc := t.sc, dnr := t.dnr, dw0 := dw0, dw1 := dw1, data := data }

theorem State.noteError_work (s : State) (q c : Nat) (t : Status) (lba n : Nat) : HostWork s (s.noteError q c t lba n) :=
  (HostWork.refl s).modHost _ rfl

/-- Over NVMe/TCP a command that completes leaves its completion and its context is freed (R362). -/
theorem State.complete_facts {s : State} {x : Ctx} (h : x.assoc < 1024) (t : Status) (dw0 dw1 : Nat) (data : List Byte) (lba n : Nat) :
    HostWork s (s.complete x t dw0 dw1 data lba n) ∧
      (s.complete x t dw0 dw1 data lba n).host.ctxs = s.host.ctxs.filter (fun y => !y.is x.assoc x.qid x.cid) ∧
      (s.complete x t dw0 dw1 data lba n).host.completions = s.host.completions ++ [x.completion t dw0 dw1 data] := by
  have hpost : s.post (x.completion t dw0 dw1 data) = s.modHost (fun h => { h with completions := h.completions ++ [x.completion t dw0 dw1 data] }) :=
    State.post_of_tcp h
  have h1 : HostWork s (s.modHost (fun h => { h with completions := h.completions ++ [x.completion t dw0 dw1 data] })) :=
    (HostWork.refl s).modHost _ rfl
  unfold State.complete
  extract_lets s1 s2
  have hs1 : s1 = s.modHost (fun h => { h with completions := h.completions ++ [x.completion t dw0 dw1 data] }) := hpost
  have h2 : HostWork s s2 ∧ s2.host.ctxs = s.host.ctxs ∧ s2.host.completions = s.host.completions ++ [x.completion t dw0 dw1 data] := by
    simp only [s2, hs1]
    split
    · exact ⟨h1, rfl, rfl⟩
    · exact ⟨h1.trans (State.noteError_work _ _ _ _ _ _), rfl, rfl⟩
  obtain ⟨hwork, hctxs, hcpl⟩ := h2
  obtain ⟨hd, hdc, hdp⟩ := s2.dropCtx_facts x.assoc x.qid x.cid
  exact ⟨hwork.trans hd, hdc.trans (by rw [hctxs]), hdp.trans hcpl⟩

/-- The context of a command carries its association, queue and identifier. -/
theorem State.ctx_key {s : State} {a q c : Nat} {x : Ctx} (h : s.ctx a q c = some x) : x.assoc = a ∧ x.qid = q ∧ x.cid = c ∧ x ∈ s.host.ctxs := by
  have hp := List.find?_some h
  simp only [Ctx.is, Bool.and_eq_true, beq_iff_eq] at hp
  exact ⟨hp.1.1, hp.1.2, hp.2, List.mem_of_find?_eq_some h⟩

end Sys2Proof.Machine
end

section
/-! The retract pair (R187, R188) and the spindle commands of the owner (R170, R171, R182, R186). -/

namespace Sys2Proof.Machine

open Sys2Proof

/-! ## A retract by the pair -/

/-- A retract by the pair unloads every actuator, is counted, and stays in force (R187). -/
theorem State.pairRetract_facts {s : State} (h : s.flag Adr.SPN_RETRACT Fld.SPN_RETRACT_retracted = false) :
    (∀ a : Fin 4, s.pairRetract.mode a = 0) ∧ s.pairRetract.nor.counters[8] = s.nor.counters[8] + 1 ∧ s.pairRetract.spn = s.spn ∧
      s.pairRetract.flag Adr.SPN_RETRACT Fld.SPN_RETRACT_retracted = true ∧ s.pairRetract.flag Adr.SPN_RETRACT Fld.SPN_RETRACT_armed = false ∧
      s.pairRetract.flag Adr.SPN_RETRACT Fld.SPN_RETRACT_a_asserted = s.flag Adr.SPN_RETRACT Fld.SPN_RETRACT_a_asserted ∧
      s.pairRetract.flag Adr.SPN_RETRACT Fld.SPN_RETRACT_b_asserted = s.flag Adr.SPN_RETRACT Fld.SPN_RETRACT_b_asserted := by
  obtain ⟨hmode, hcount⟩ := State.emergencyRetract_unloads h
  have hkeeps := s.emergencyRetract_kept
  have hflag : ∀ f, s.emergencyRetract.flag Adr.SPN_RETRACT f = s.flag Adr.SPN_RETRACT f := fun f => by
    rw [State.flag, State.flag, hkeeps.retractPair]
  unfold State.pairRetract
  refine ⟨fun a => ?_, hcount, hkeeps.spn, ?_, ?_, ?_, ?_⟩
  · rw [State.mode, State.fld_setFlag_ne _ _ _ _ (by generalize a = b; decide +revert), State.fld_setFlag_ne _ _ _ _ (by generalize a = b; decide +revert)]
    exact hmode a
  · simp -implicitDefEqProofs (disch := decide) only [State.flag_setFlag_apart, State.flag_setFlag_eq]
  · simp -implicitDefEqProofs (disch := decide) only [State.flag_setFlag_eq]
  · simp -implicitDefEqProofs (disch := decide) only [State.flag_setFlag_apart, hflag]
  · simp -implicitDefEqProofs (disch := decide) only [State.flag_setFlag_apart, hflag]

/-- The pair's inputs with both asserted. -/
def State.pairAsserted (s : State) : State :=
  ((s.setFlag Adr.SPN_RETRACT Fld.SPN_RETRACT_a_asserted true).setFlag Adr.SPN_RETRACT Fld.SPN_RETRACT_b_asserted true).modSpn
    (fun p => { p with pairReported := false })

theorem State.pairAsserted_facts (s : State) :
    s.pairAsserted.flag Adr.SPN_RETRACT Fld.SPN_RETRACT_a_asserted = true ∧ s.pairAsserted.flag Adr.SPN_RETRACT Fld.SPN_RETRACT_b_asserted = true ∧
      s.pairAsserted.flag Adr.SPN_RETRACT Fld.SPN_RETRACT_retracted = s.flag Adr.SPN_RETRACT Fld.SPN_RETRACT_retracted := by
  simp -implicitDefEqProofs (disch := decide) only [State.pairAsserted, State.flag_modSpn, State.flag_setFlag_apart, State.flag_setFlag_eq,
    and_self]

theorem exec_retractInputChange_of_both {s : State} (hps : s.ps < 4) (h : s.flag Adr.SPN_RETRACT Fld.SPN_RETRACT_retracted = false)
    (hnew : (s.flag Adr.SPN_RETRACT Fld.SPN_RETRACT_a_asserted && s.flag Adr.SPN_RETRACT Fld.SPN_RETRACT_b_asserted) = false) :
    exec (.retractInputChange true true) s = .next (s.pairAsserted.pairRetract.phaseCheck.event 0x30A) := by
  change execRetractInputChange true true s = _
  have hnot : ¬4 ≤ s.ps := by omega
  simp only [execRetractInputChange, hnot, hnew, h, if_false, Bool.and_self, if_true, Bool.false_eq_true]
  rfl

theorem exec_retractInputChange_of_deep {s : State} (hps : 4 ≤ s.ps) :
    exec (.retractInputChange true true) s = .next (s.pairAsserted.setFlag Adr.SPN_RETRACT Fld.SPN_RETRACT_armed false) := if_pos hps

/-- After a pair retract the check of the phase loop and the events leave its outcome. -/
theorem State.afterRetract {t u : State} {a : Fin 4} (h : SpinFrame [Adr.TMB_PLSTAT, Adr.SPN_ANGLE] t u) :
    u.mode a = t.mode a ∧ u.nor.counters = t.nor.counters ∧ ∀ f, u.flag Adr.SPN_RETRACT f = t.flag Adr.SPN_RETRACT f :=
  ⟨h.mode (by generalize a = b; decide +revert), h.counters, fun f => h.flag f (by decide) (by decide)⟩

theorem retractInputChange_row {s : State} (hps : s.ps < 4) (h : s.flag Adr.SPN_RETRACT Fld.SPN_RETRACT_retracted = false)
    (hnew : (s.flag Adr.SPN_RETRACT Fld.SPN_RETRACT_a_asserted && s.flag Adr.SPN_RETRACT Fld.SPN_RETRACT_b_asserted) = false) :
    ∃ t, exec (.retractInputChange true true) s = .next t ∧
      t.flag Adr.SPN_RETRACT Fld.SPN_RETRACT_retracted = true ∧ t.flag Adr.SPN_RETRACT Fld.SPN_RETRACT_armed = false ∧
      t.flag Adr.SPN_RETRACT Fld.SPN_RETRACT_a_asserted = true ∧ t.flag Adr.SPN_RETRACT Fld.SPN_RETRACT_b_asserted = true ∧
      (∀ a : Fin 4, t.mode a = 0) ∧ t.nor.counters[8] = s.nor.counters[8] + 1 := by
  obtain ⟨ha, hb, hr⟩ := s.pairAsserted_facts
  obtain ⟨hmode, hcount, -, hret, harm, hpa, hpb⟩ := State.pairRetract_facts (hr.trans h)
  have hframe : SpinFrame [Adr.TMB_PLSTAT, Adr.SPN_ANGLE] s.pairAsserted.pairRetract (s.pairAsserted.pairRetract.phaseCheck.event 0x30A) :=
    (State.phaseCheck_frame _).event _ _ _
  obtain ⟨-, hc, hflag⟩ := State.afterRetract (a := 0) hframe
  refine ⟨_, exec_retractInputChange_of_both hps h hnew, (hflag _).trans hret, (hflag _).trans harm, ((hflag _).trans hpa).trans ha,
    ((hflag _).trans hpb).trans hb, fun a => (State.afterRetract hframe).1.trans (hmode a), ?_⟩
  rw [hc]
  exact hcount

theorem retractDiscrepancy_row {s : State} (ha : s.flag Adr.SPN_RETRACT Fld.SPN_RETRACT_a_asserted = true)
    (hb : s.flag Adr.SPN_RETRACT Fld.SPN_RETRACT_b_asserted = false) (hp : s.spn.pairReported = false) (hps : s.ps < 4)
    (h : s.flag Adr.SPN_RETRACT Fld.SPN_RETRACT_retracted = false) :
    ∃ t, exec .retractDiscrepancy s = .next t ∧ t.flag Adr.SPN_RETRACT Fld.SPN_RETRACT_retracted = true ∧
      t.fld Adr.SPN_RETRACT Fld.SPN_RETRACT_named = 2 ∧ t.spn.pairReported = true ∧ ∀ a : Fin 4, t.mode a = 0 := by
  have hexec : exec .retractDiscrepancy s = .next (((s.pairRetract.phaseCheck.modSpn (fun p => { p with pairReported := true })).setFld
      Adr.SPN_RETRACT Fld.SPN_RETRACT_named 2).event 0x30C) := by
    change execRetractDiscrepancy s = _
    have hnot : ¬4 ≤ s.ps := by omega
    simp only [execRetractDiscrepancy, ha, hb, hp, h, hnot, decide_false, Bool.or_false, Bool.false_eq_true, if_false, Bool.not_true]
    rfl
  obtain ⟨hmode, -, -, hret, -⟩ := State.pairRetract_facts h
  have hframe : SpinFrame [Adr.TMB_PLSTAT, Adr.SPN_ANGLE] s.pairRetract (s.pairRetract.phaseCheck.modSpn (fun p => { p with pairReported := true })) :=
    (State.phaseCheck_frame _).modSpn _
  have hlast : SpinFrame [Adr.SPN_RETRACT] (s.pairRetract.phaseCheck.modSpn (fun p => { p with pairReported := true }))
      (((s.pairRetract.phaseCheck.modSpn (fun p => { p with pairReported := true })).setFld Adr.SPN_RETRACT Fld.SPN_RETRACT_named 2).event 0x30C) :=
    ((SpinFrame.refl _ _).setFld _ _ (by simp)).event _ _ _
  refine ⟨_, hexec, ?_, ?_, ?_, fun a => ?_⟩
  · rw [State.flag_event _ _ _ _ _ (by decide), State.flag_setFld_apart _ _ _ _ _ (by decide) (by decide)]
    exact ((State.afterRetract (a := 0) hframe).2.2 _).trans hret
  · rw [State.fld_event _ _ _ _ _ (by decide), State.fld_setFld_eq _ _ _ _ (by decide)]
    rfl
  · rw [(State.event_only _ _ _ _).spn]
    rfl
  · exact (hlast.mode (by generalize a = b; decide +revert)).trans ((State.afterRetract hframe).1.trans (hmode a))

theorem retractRearm_row {s : State} (hps : s.ps < 4) (harm : s.flag Adr.SPN_RETRACT Fld.SPN_RETRACT_armed = false)
    (ha : s.flag Adr.SPN_RETRACT Fld.SPN_RETRACT_a_asserted = false) (hb : s.flag Adr.SPN_RETRACT Fld.SPN_RETRACT_b_asserted = false) :
    ∃ u : State, exec .retractRearm s = .next u.settle ∧ u.flag Adr.SPN_RETRACT Fld.SPN_RETRACT_armed = true ∧
      u.flag Adr.SPN_RETRACT Fld.SPN_RETRACT_retracted = false ∧ u.host = s.host := by
  have hexec : exec .retractRearm s = .next ((((s.setFlag Adr.SPN_RETRACT Fld.SPN_RETRACT_retracted false).setFlag Adr.SPN_RETRACT
      Fld.SPN_RETRACT_armed true).event 0x30D).loadHeads).settle := by
    change execRetractRearm s = _
    have hnot : ¬4 ≤ s.ps := by omega
    simp only [execRetractRearm, harm, ha, hb, hnot, decide_false, Bool.or_false, Bool.false_eq_true, if_false]
  have hload := State.loadHeads_load (((s.setFlag Adr.SPN_RETRACT Fld.SPN_RETRACT_retracted false).setFlag Adr.SPN_RETRACT
    Fld.SPN_RETRACT_armed true).event 0x30D)
  refine ⟨_, hexec, ?_, ?_, hload.host.trans (State.event_only _ _ _ _).host⟩
  · rw [State.flag, hload.retract, ← State.flag]
    simp -implicitDefEqProofs (disch := decide) only [State.flag_event, State.flag_setFlag_eq]
  · rw [State.flag, hload.retract, ← State.flag]
    simp -implicitDefEqProofs (disch := decide) only [State.flag_event, State.flag_setFlag_apart, State.flag_setFlag_eq]

theorem retractWaitTimeout_row {s : State} {o q c : Nat} {x : Ctx} (hx : s.ctx o q c = some x) (ho : o < 1024) (hw : x.wait = .retract)
    (harm : s.flag Adr.SPN_RETRACT Fld.SPN_RETRACT_armed = false) : ∃ t, exec (.retractWaitTimeout o q c) s = .next t ∧
      t.host.completions = s.host.completions ++ [⟨o, q, c, 0, 0x82, false, 0, 0, []⟩] ∧ t.media.sectors = s.media.sectors := by
  have hexec : exec (.retractWaitTimeout o q c) s = .next ((s.dropWrite o q c).complete x .notReady) := by
    change execRetractWaitTimeout o q c s = _
    simp only [execRetractWaitTimeout, hx]
    rw [if_pos (by rw [harm, hw]; rfl)]
  obtain ⟨rfl, rfl, rfl, -⟩ := State.ctx_key hx
  obtain ⟨hwork, -, hcpl⟩ := State.complete_facts (s := s.dropWrite x.assoc x.qid x.cid) ho .notReady 0 0 [] 0 0
  refine ⟨_, hexec, hcpl.trans ?_, ?_⟩
  · rw [State.dropWrite, State.dropList_only]
    rfl
  · rw [hwork.media, State.dropWrite, State.dropList_only]
    rfl

/-- Settles O16: the retract pair, row by row. -/
theorem retractPairRows : Obligations.RetractPairRows := by
  unfold Obligations.RetractPairRows
  intro s
  refine ⟨retractInputChange_row, fun hps => ?_, retractDiscrepancy_row, retractRearm_row, fun o q c x => retractWaitTimeout_row⟩
  refine ⟨_, exec_retractInputChange_of_deep hps, State.flag_setFlag_eq _ _ _ _ (by decide), rfl, ?_, rfl⟩
  exact State.RegsBut.setFlag (t := s.pairAsserted) (((State.RegsBut.refl _ s).setFlag _ _ (by simp)).setFlag _ _ (by simp)) _ _ (by simp)

end Sys2Proof.Machine
end

section
/-! Register writes of the owner (R29 to R31), and the spindle commands among them (R170, R171, R182, R186). -/

namespace Sys2Proof.Machine

open Sys2Proof

/-! ## The gate of a register write -/

theorem State.accessWaits_of_free {s : State} {p : Path} {a r : Nat} (hheld : ∀ h ∈ s.heldRegs, h.path ≠ p) (hr : regionOf a = some r)
    (hrun : s.restarting r = false ∨ survivesRestart a = true) : s.accessWaits p a = false := by
  have hany : s.heldRegs.any (fun h => h.path == p) = false := by
    rw [List.any_eq_false]
    intro h hmem
    simpa using hheld h hmem
  rw [State.accessWaits, hany, Bool.false_or]
  simp only [hr]
  rcases hrun with h | h <;> simp [h]

/-- A register write that is performed has its effect (R30). -/
theorem State.ownerReg_of_writable {s : State} {o a : Nat} (v : Word) (f : State → State) (h : s.Writable o a) : s.ownerReg o a v f = f s := by
  obtain ⟨hown, hheld, r, hr, hp, hrun⟩ := h
  rw [State.ownerReg, if_neg (by simp [hown])]
  simp only [hr]
  rw [if_neg (by rw [State.accessWaits_of_free hheld hr hrun]; exact Bool.false_ne_true), if_neg (by simp [hp])]

/-! ## Commands of SPN_CMD -/

/-- A write of SPN_CMD before its command: the reference and gate_en are taken (R166, R193). -/
def State.spnCmdTaken (s : State) (v : Word) : State :=
  (((if v.getLsbD 2 = s.flag Adr.SPN_CMD Fld.SPN_CMD_gate_en then s else s.markLegs s.countNow).setFld Adr.SPN_CMD Fld.SPN_CMD_spd_ref
    (min (max (getBits v Fld.SPN_CMD_spd_ref) 5400) s.spdMax)).setFlag Adr.SPN_CMD Fld.SPN_CMD_gate_en (v.getLsbD 2)).phaseCheck

theorem State.spnCmdTaken_frame (s : State) (v : Word) : SpinFrame [Adr.SPN_CMD, Adr.TMB_PLSTAT, Adr.SPN_ANGLE] s (s.spnCmdTaken v) := by
  have hmark : SpinFrame [Adr.SPN_CMD, Adr.TMB_PLSTAT, Adr.SPN_ANGLE] s
      (if v.getLsbD 2 = s.flag Adr.SPN_CMD Fld.SPN_CMD_gate_en then s else s.markLegs s.countNow) := .ite (.refl _ s) (by
      rw [State.markLegs_only]
      exact (SpinFrame.refl _ s).modSpn _)
  exact ((hmark.setFld _ _ (by simp)).setFlag _ _ (by simp)).trans ((State.phaseCheck_frame _).mono (by simp))

theorem State.spnCmdTaken_facts (s : State) (v : Word) :
    (s.spnCmdTaken v).spin = s.spin ∧ (∀ a : Fin 4, (s.spnCmdTaken v).mode a = s.mode a) ∧
      (s.spnCmdTaken v).fld Adr.SPN_MOTOR Fld.SPN_MOTOR_pole_pairs = s.fld Adr.SPN_MOTOR Fld.SPN_MOTOR_pole_pairs :=
  have h := s.spnCmdTaken_frame v
  ⟨h.fld _ (by decide) (by decide), fun _ => h.mode (by decide +revert),
    h.fld _ (by decide) (by decide)⟩

theorem State.writeSpnCmd_of_cmd (s : State) (v : Word) {n : Nat} (hn : n < 4) (park : Option Nat) :
    s.writeSpnCmd (spnCmdWord v n) park = (s.spnCmdTaken (spnCmdWord v n)).spinCommand n park := by
  have hcmd : getBits (spnCmdWord v n) Fld.SPN_CMD_cmd = n := by
    rw [spnCmdWord, getBits_setBits_same _ _ _ ⟨by decide, by decide⟩]
    exact Nat.mod_eq_of_lt hn
  rw [State.writeSpnCmd, hcmd]
  rfl

theorem exec_spindleStart {s : State} {o : Nat} (v : Word) (p : Nat) (h : s.Writable o Adr.SPN_CMD) (hs : s.spin = 0) :
    exec (.spindleStart o v p) s = .next ((s.spnCmdTaken (spnCmdWord v 1)).preStart p) := by
  change (.next (s.ownerReg o Adr.SPN_CMD (spnCmdWord v 1) (fun s => s.writeSpnCmd (spnCmdWord v 1) (some p))) : Res) = _
  rw [State.ownerReg_of_writable _ _ h, State.writeSpnCmd_of_cmd s v (by decide), State.spinCommand, if_pos rfl,
    if_pos (.inl ((s.spnCmdTaken_facts _).1.trans hs))]

/-- The heads of every actuator are unloaded for a spin-down (R186). -/
def State.headsUnloaded (s : State) : State := s.forActs (fun s a => if s.mode a = 0 then s else s.unloadFrame a)

theorem State.unloadFrame_frame (s : State) (a : Fin 4) :
    SliceFrame a [Adr.SRV_STATUS a] { s with pic := (s.picFrame a 1).pic } (s.unloadFrame a) := by
  unfold State.unloadFrame
  rw [s.picFrame_only]
  exact (SliceFrame.refl a _ _).unloaded (by simp)

theorem State.mode_unloadFrame_other (s : State) {a b : Fin 4} (h : b ≠ a) : (s.unloadFrame a).mode b = s.mode b :=
  (s.unloadFrame_frame a).fld _ (by revert h; generalize a = b; decide +revert)

theorem State.mode_headsUnloaded (s : State) (a : Fin 4) : s.headsUnloaded.mode a = 0 := by
  refine State.forActs_each (P := fun t b => t.mode b = 0) (fun t b => ?_) (fun t b c hc ht => ?_) s a
  · split
    next h => exact h
    next => exact State.mode_unloaded _ b
  · split
    · exact ht
    · exact (t.mode_unloadFrame_other hc).trans ht

theorem exec_spindleStop {s : State} {o : Nat} (v : Word) (h : s.Writable o Adr.SPN_CMD) (hs : s.spin ≠ 0) :
    exec (.spindleStop o v) s = .next ((((s.spnCmdTaken (spnCmdWord v 2)).headsUnloaded.setSpin 7).modSpn (fun p => { p with
      stopping := true, startHeld := false, brakeCut := 0, ref := 0 })).phaseCheck) := by
  change (.next (s.ownerReg o Adr.SPN_CMD (spnCmdWord v 2) (fun s => s.writeSpnCmd (spnCmdWord v 2) none)) : Res) = _
  rw [State.ownerReg_of_writable _ _ h, State.writeSpnCmd_of_cmd s v (by decide), State.spinCommand, if_neg (by decide), if_pos rfl,
    if_neg (by rw [(s.spnCmdTaken_facts _).1]; exact hs)]
  rfl

theorem State.loaded_spnCmdTaken (s : State) (v : Word) : (s.spnCmdTaken v).loaded = s.loaded := by
  simp only [State.loaded, (s.spnCmdTaken_facts v).2.1]

theorem exec_spindleCoast_of_loaded {s : State} {o : Nat} (v : Word) (h : s.Writable o Adr.SPN_CMD) (hl : s.loaded = true) :
    exec (.spindleCoast o v) s = .next ((s.spnCmdTaken (spnCmdWord v 3)).setFlag Adr.SPN_STICKY Fld.SPN_STICKY_cmd_refused true) := by
  change (.next (s.ownerReg o Adr.SPN_CMD (spnCmdWord v 3) (fun s => s.writeSpnCmd (spnCmdWord v 3) none)) : Res) = _
  rw [State.ownerReg_of_writable _ _ h, State.writeSpnCmd_of_cmd s v (by decide), State.spinCommand, if_neg (by decide), if_neg (by decide), if_pos rfl,
    if_pos (by rw [s.loaded_spnCmdTaken, hl])]

theorem exec_spindleCoast_of_unloaded {s : State} {o : Nat} (v : Word) (h : s.Writable o Adr.SPN_CMD) (hl : s.loaded = false) :
    exec (.spindleCoast o v) s = .next ((((s.spnCmdTaken (spnCmdWord v 3)).setSpin 8).modSpn (fun p => { p with
      stopping := false, startHeld := false })).phaseCheck) := by
  change (.next (s.ownerReg o Adr.SPN_CMD (spnCmdWord v 3) (fun s => s.writeSpnCmd (spnCmdWord v 3) none)) : Res) = _
  rw [State.ownerReg_of_writable _ _ h, State.writeSpnCmd_of_cmd s v (by decide), State.spinCommand, if_neg (by decide), if_neg (by decide), if_pos rfl,
    if_neg (by rw [s.loaded_spnCmdTaken, hl]; exact Bool.false_ne_true)]

/-! ## The current sense -/

/-- A write of SPN_ISNSCFG before its calibration: the gain, with its window where it changes, and the scale (R170). -/
def State.isnsTaken (s : State) (v : Word) : State :=
  (if getBits v Fld.SPN_ISNSCFG_isns_gain = s.fld Adr.SPN_ISNSCFG Fld.SPN_ISNSCFG_isns_gain then s
    else (s.setFld Adr.SPN_ISNSCFG Fld.SPN_ISNSCFG_isns_gain (getBits v Fld.SPN_ISNSCFG_isns_gain)).modSpn (fun p => { p with winLeft := 4 })).setFld
    Adr.SPN_ISNSCFG Fld.SPN_ISNSCFG_isns_scale (getBits v Fld.SPN_ISNSCFG_isns_scale)

theorem State.isnsTaken_frame (s : State) (v : Word) : SpinFrame [Adr.SPN_ISNSCFG] s (s.isnsTaken v) := by
  unfold State.isnsTaken
  exact (SpinFrame.ite (.refl _ s) (((SpinFrame.refl _ s).setFld _ _ (by simp)).modSpn _)).setFld _ _ (by simp)

/-- A gain that changes is taken and opens a window of 4 invalid periods (R170). -/
theorem State.isnsTaken_of_change {s : State} {v : Word} (h : getBits v Fld.SPN_ISNSCFG_isns_gain ≠ s.fld Adr.SPN_ISNSCFG Fld.SPN_ISNSCFG_isns_gain) :
    (s.isnsTaken v).fld Adr.SPN_ISNSCFG Fld.SPN_ISNSCFG_isns_gain = getBits v Fld.SPN_ISNSCFG_isns_gain ∧ (s.isnsTaken v).spn.winLeft = 4 := by
  rw [State.isnsTaken, if_neg h]
  refine ⟨?_, rfl⟩
  rw [State.fld_setFld_apart _ _ _ _ _ (by decide) (by decide), State.fld_modSpn, State.fld_setFld_eq _ _ _ _ (by decide)]
  exact Nat.mod_mod _ _

theorem exec_isnsCal {s : State} {o : Nat} {rpm : Int} (h : s.Writable o Adr.SPN_ISNSCFG) (hg : s.flag Adr.SPN_CMD Fld.SPN_CMD_gate_en = false)
    (hs : s.spin = 0) (hr : rpm.natAbs < 60) : exec (.isnsCal o rpm) s =
      .next ((s.isnsTaken (s.reg Adr.SPN_ISNSCFG ||| 0x80000000)).modSpn (fun p => { p with calibrating := true })) := by
  have hframe := s.isnsTaken_frame (s.reg Adr.SPN_ISNSCFG ||| 0x80000000)
  have hgate := (hframe.flag Fld.SPN_CMD_gate_en (r := Adr.SPN_CMD) (by decide) (by decide)).trans hg
  have hspin : (s.isnsTaken (s.reg Adr.SPN_ISNSCFG ||| 0x80000000)).spin = 0 := (hframe.fld _ (by decide) (by decide)).trans hs
  have hbit : (s.reg Adr.SPN_ISNSCFG ||| 0x80000000).getLsbD 31 = true := by
    rw [BitVec.getLsbD_or]
    exact Bool.or_eq_true_iff.2 (.inr (by decide))
  change (.next (s.ownerReg o Adr.SPN_ISNSCFG _ (fun t => t.writeIsns _ (some rpm))) : Res) = _
  rw [State.ownerReg_of_writable _ _ h]
  unfold State.writeIsns
  extract_lets a g s1 s2 f r
  have h2 : s2 = s.isnsTaken (s.reg Adr.SPN_ISNSCFG ||| 0x80000000) := rfl
  rw [if_neg (by rw [hbit]; decide), if_neg (by rw [h2, hgate, hspin]; simp; omega)]
  rfl

theorem State.writeIsns_keeps_gain (s : State) (v : Word) : (s.writeIsns v none).fld Adr.SPN_ISNSCFG Fld.SPN_ISNSCFG_isns_gain =
    (s.isnsTaken v).fld Adr.SPN_ISNSCFG Fld.SPN_ISNSCFG_isns_gain ∧ (s.writeIsns v none).spn.winLeft = (s.isnsTaken v).spn.winLeft := by
  unfold State.writeIsns
  extract_lets a g s1 s2 f r
  have h2 : s2 = s.isnsTaken v := rfl
  rw [← h2]
  split
  · exact ⟨rfl, rfl⟩
  · split
    · exact ⟨State.fld_setFlag_ne f.2 _ _ _ (by decide), rfl⟩
    · exact ⟨rfl, rfl⟩

theorem exec_isnsGainWrite {s : State} {o : Nat} (g : Fin 4) (h : s.Writable o Adr.SPN_ISNSCFG) : exec (.isnsGainWrite o g) s =
    .next (s.writeIsns (setBits (s.reg Adr.SPN_ISNSCFG) Fld.SPN_ISNSCFG_isns_gain g) none) := by
  change (.next (s.ownerReg o Adr.SPN_ISNSCFG _ (fun t => t.writeIsns _ none)) : Res) = _
  rw [State.ownerReg_of_writable _ _ h]

/-- Settles O15: each spindle command of the owner, row by row. -/
theorem spindleCommandRows : Obligations.SpindleCommandRows := by
  unfold Obligations.SpindleCommandRows
  intro s o
  refine ⟨fun v p h hs hpp => ?_, fun v h hs => ?_, fun v h hl => ?_, fun v h hl => ?_, fun rpm h hg hs hr => ?_, fun g h hne => ?_⟩
  · have hpoles := (s.spnCmdTaken_facts (spnCmdWord v 1)).2.2
    exact ⟨_, exec_spindleStart v p h hs, (State.preStart_facts p (by rw [hpoles]; exact hpp)).1⟩
  · refine ⟨_, exec_spindleStop v h hs, ?_, ?_, fun a => ?_⟩
    · rw [State.spin_phaseCheck, State.spin_modSpn, State.spin_setSpin]
    · rw [State.phaseCheck_spn]
      rfl
    · have hframe : SpinFrame [Adr.SPN_STATUS, Adr.TMB_PLSTAT, Adr.SPN_ANGLE] (s.spnCmdTaken (spnCmdWord v 2)).headsUnloaded
          ((((s.spnCmdTaken (spnCmdWord v 2)).headsUnloaded.setSpin 7).modSpn (fun p => { p with
            stopping := true, startHeld := false, brakeCut := 0, ref := 0 })).phaseCheck) :=
        (((State.setSpin_frame _ 7).mono (by simp)).modSpn _).trans ((State.phaseCheck_frame _).mono (by simp))
      exact (hframe.mode (by generalize a = b; decide +revert)).trans (State.mode_headsUnloaded _ a)
  · refine ⟨_, exec_spindleCoast_of_loaded v h hl, State.flag_setFlag_eq _ _ _ _ (by decide), ?_⟩
    exact (State.fld_setFlag_ne _ _ _ _ (by decide)).trans (s.spnCmdTaken_facts _).1
  · refine ⟨_, exec_spindleCoast_of_unloaded v h hl, ?_⟩
    rw [State.spin_phaseCheck, State.spin_modSpn, State.spin_setSpin]
  · exact ⟨_, exec_isnsCal h hg hs hr, rfl⟩
  · have hgain : getBits (setBits (s.reg Adr.SPN_ISNSCFG) Fld.SPN_ISNSCFG_isns_gain g) Fld.SPN_ISNSCFG_isns_gain = g.val := by
      rw [getBits_setBits_same _ _ _ ⟨by decide, by decide⟩]
      exact Nat.mod_eq_of_lt g.isLt
    obtain ⟨hfld, hwin⟩ := s.writeIsns_keeps_gain (setBits (s.reg Adr.SPN_ISNSCFG) Fld.SPN_ISNSCFG_isns_gain g)
    obtain ⟨htaken, hopen⟩ := State.isnsTaken_of_change (s := s) (v := setBits (s.reg Adr.SPN_ISNSCFG) Fld.SPN_ISNSCFG_isns_gain g)
      (by rw [hgain]; exact hne)
    exact ⟨_, exec_isnsGainWrite g h, (hfld.trans htaken).trans hgain, hwin.trans hopen⟩

end Sys2Proof.Machine
end

section
/-! The Geryn link and the end of holdover (R197, R203 to R205). -/

namespace Sys2Proof.Machine

open Sys2Proof

/-- From s to t the time base moves on: the host side, GLK_STATUS, the Geryn seconds and markers are kept, and no edge comes to wait. -/
structure GerynKeeps (s t : State) : Prop where
  host : t.host = s.host
  status : ∀ f, t.fld Adr.GLK_STATUS f = s.fld Adr.GLK_STATUS f
  sec : t.time.gSec = s.time.gSec
  missing : t.time.gMissing = s.time.gMissing
  last : t.time.gLast = s.time.gLast
  edge : s.time.gEdge = none → t.time.gEdge = none

namespace GerynKeeps

theorem refl (s : State) : GerynKeeps s s := ⟨rfl, fun _ => rfl, rfl, rfl, rfl, id⟩

theorem trans {s t u : State} (h : GerynKeeps s t) (k : GerynKeeps t u) : GerynKeeps s u :=
  ⟨k.host.trans h.host, fun f => (k.status f).trans (h.status f), k.sec.trans h.sec, k.missing.trans h.missing, k.last.trans h.last,
    fun he => k.edge (h.edge he)⟩

theorem setFld {s t : State} (h : GerynKeeps s t) {r : Nat} (f : Fld) (v : Nat) (hr : Adr.GLK_STATUS ≠ r) : GerynKeeps s (t.setFld r f v) :=
  h.trans ⟨rfl, fun g => t.fld_setFld_reg f g v hr, rfl, rfl, rfl, id⟩

theorem setFlag {s t : State} (h : GerynKeeps s t) {r : Nat} (f : Fld) (v : Bool) (hr : Adr.GLK_STATUS ≠ r) : GerynKeeps s (t.setFlag r f v) :=
  h.setFld f _ hr

theorem setSFld {s t : State} (h : GerynKeeps s t) {r : Nat} (f : Fld) (v : Int) (hr : Adr.GLK_STATUS ≠ r) : GerynKeeps s (t.setSFld r f v) :=
  h.setFld f _ hr

/-- A change of the time block that leaves the Geryn seconds and markers. -/
theorem modTime {s t : State} (h : GerynKeeps s t) (f : Time → Time) (hsec : (f t.time).gSec = t.time.gSec) (hm : (f t.time).gMissing = t.time.gMissing)
    (hl : (f t.time).gLast = t.time.gLast) (he : t.time.gEdge = none → (f t.time).gEdge = none) : GerynKeeps s (t.modTime f) :=
  h.trans ⟨rfl, fun _ => rfl, hsec, hm, hl, he⟩

theorem only {s t u : State} (h : GerynKeeps s t) (k : EventOnly t u) : GerynKeeps s u :=
  h.trans ⟨k.host, fun f => k.fld f (show ¬((0x5000000 ≤ Adr.GLK_STATUS ∧ Adr.GLK_STATUS < 0x5101000) ∨ Adr.GLK_STATUS = Adr.ECC_MODE) by decide), by rw [k.time], by rw [k.time], by rw [k.time], fun he => by rw [k.time]; exact he⟩

theorem event {s t : State} (h : GerynKeeps s t) (id d e : Nat) : GerynKeeps s (t.event id d e) := h.only (t.event_only id d e)

theorem ite {s t u : State} {p : Prop} [Decidable p] (h : GerynKeeps s t) (k : GerynKeeps s u) : GerynKeeps s (if p then t else u) := by
  split
  · exact h
  · exact k

theorem phaseCheck {s t : State} (h : GerynKeeps s t) : GerynKeeps s t.phaseCheck := by
  have hphase : ∀ n, GerynKeeps s (t.setPhase n) := fun n => h.setFld _ _ (by decide)
  have htrim : ∀ n v, GerynKeeps s ((t.setPhase n).setTrim v) := fun n v => (hphase n).setSFld _ _ (by decide)
  unfold State.phaseCheck
  exact .ite (.ite h ((htrim _ _).modTime _ rfl rfl rfl id)) (.ite (hphase _) (.ite (.ite h (((htrim _ _).modTime _ rfl rfl rfl id).event _ _ _))
    (.ite ((hphase _).modTime _ rfl rfl rfl id) (.ite h ((hphase _).modTime _ rfl rfl rfl id)))))

theorem flag {s t : State} (h : GerynKeeps s t) (f : Fld) : t.flag Adr.GLK_STATUS f = s.flag Adr.GLK_STATUS f := by
  rw [State.flag, h.status, ← State.flag]

end GerynKeeps

theorem State.sourcesGone_keeps_geryn (s : State) : GerynKeeps s s.sourcesGone := by
  have hself := GerynKeeps.refl s
  unfold State.sourcesGone
  refine .ite ?_ (.ite ?_ hself)
  · exact ((hself.setFld _ _ (by decide)).modTime _ rfl rfl rfl id).event _ _ _
  · have hset : GerynKeeps s ((s.setTb s.time.acqFrom).modTime (fun t => { t.freeRun t.acqFrom with holdFrom := s.now, stepFirst := false })) :=
      (hself.setFld _ _ (by decide)).modTime _ rfl rfl rfl id
    exact .ite (hset.event _ _ _) hset

theorem State.sourcesChanged_keeps_geryn (s : State) : GerynKeeps s s.sourcesChanged := by
  have hset : ∀ n, GerynKeeps s (s.setFld Adr.TMB_STATUS Fld.TMB_STATUS_src_used n) := fun n => (GerynKeeps.refl s).setFld _ _ (by decide)
  unfold State.sourcesChanged
  exact .ite (hset _) (.ite ((hset _).trans (State.sourcesGone_keeps_geryn _)).phaseCheck
    (.ite (((hset _).setFld _ _ (by decide)).modTime _ rfl rfl rfl id).phaseCheck (hset _)))

theorem Time.stepBy_keeps (t : Time) (off : Int) : (t.stepBy off).gSec = t.gSec ∧ (t.stepBy off).gMissing = t.gMissing ∧
    (t.stepBy off).gLast = t.gLast ∧ (t.gEdge = none → (t.stepBy off).gEdge = none) :=
  ⟨rfl, rfl, rfl, fun h => by simp [Time.stepBy, h]⟩

theorem State.measure_keeps_geryn (s : State) (off : Int) : GerynKeeps s (s.measure off) := by
  have h0 : GerynKeeps s (s.setSFld Adr.TMB_OFFSET Fld.TMB_OFFSET_offset (nsSat off)) := (GerynKeeps.refl s).setSFld _ _ (by decide)
  unfold State.measure
  extract_lets s0 stepping r f s1
  have hfree : GerynKeeps s r.2 := GerynKeeps.trans h0 ⟨rfl, fun _ => rfl, rfl, rfl, rfl, id⟩
  have h1 : GerynKeeps s s1 := by
    obtain ⟨ha, hb, hc, hd⟩ := Time.stepBy_keeps s0.time off
    exact .ite (((h0.modTime _ ha hb hc hd).setFlag _ _ (by decide)).event _ _ _) (hfree.modTime _ rfl rfl rfl id)
  exact .ite h0 (.ite (.ite ((((h1.setFld _ _ (by decide)).modTime _ rfl rfl rfl id).event _ _ _).phaseCheck) (h1.modTime _ rfl rfl rfl id)) h1)

/-- The measurement of a marker uses its edge up. -/
theorem State.markerMeasured_facts (s : State) (hop : Nat) : GerynKeeps s (s.markerMeasured hop) ∧ (s.markerMeasured hop).time.gEdge = none := by
  unfold State.markerMeasured
  split
  next h => exact ⟨.refl s, h⟩
  next edge h =>
    extract_lets t l second
    have ht : GerynKeeps s t := (GerynKeeps.refl s).modTime _ rfl rfl rfl fun _ => rfl
    have hedge : t.time.gEdge = none := rfl
    have hmeas : ∀ u, GerynKeeps t u → ∀ v, GerynKeeps s (u.measure v) ∧ (u.measure v).time.gEdge = none := fun u hu v =>
      ⟨(ht.trans hu).trans (u.measure_keeps_geryn v), (u.measure_keeps_geryn v).edge (hu.edge hedge)⟩
    split
    · exact ⟨ht, hedge⟩
    · split
      · extract_lets ptp k n s1
        have h1 : GerynKeeps t s1 := (GerynKeeps.refl t).modTime _ rfl rfl rfl id
        exact hmeas _ (.ite (h1.event _ _ _) h1) _
      · exact hmeas t (.refl t) _
      · exact ⟨ht, hedge⟩

theorem State.markerMeasured_of_none {s : State} (hop : Nat) (h : s.time.gEdge = none) : s.markerMeasured hop = s := by
  simp only [State.markerMeasured, h]

/-! ## The rows -/

theorem execGerynMarker_row {s : State} (h : ∀ l : Nat, s.time.gLast = some l → l + 999990000 ≤ s.now ∧ s.now ≤ l + 1000010000) :
    ∃ t, exec .gerynMarker s = .next t ∧ t.flag Adr.GLK_STATUS Fld.GLK_STATUS_pps = true ∧ t.time.gMissing = 0 ∧ t.time.gLast = some s.now ∧
      t.time.gSec = s.time.gSec.map (fun n => n + 1) ∧ t.host = s.host := by
  have hrep : ∀ u : State, GerynKeeps u (if s.repeating then u.glkSend [] else u) := fun u =>
    .ite ((GerynKeeps.refl u).modTime _ rfl rfl rfl id) (.refl u)
  change ∃ t, execGerynMarker s = .next t ∧ _
  unfold execGerynMarker
  extract_lets fits s1
  have hfits : fits = true := by
    simp only [fits]
    split
    next l hl => simpa using h l hl
    next => rfl
  have h1 : GerynKeeps s1 (if s.repeating then s1.glkSend [] else s1).sourcesChanged := (hrep s1).trans (State.sourcesChanged_keeps_geryn _)
  refine ⟨_, if_neg (by rw [hfits]; decide), (h1.flag _).trans (State.flag_setFlag_eq s _ _ _ (by decide)), h1.missing, h1.last, h1.sec,
    h1.host⟩

/-- A missing marker is counted, and the host side is left alone (R204). -/
theorem State.markerMissing_facts (s : State) : s.markerMissing.time.gMissing = s.time.gMissing + 1 ∧ s.markerMissing.host = s.host := by
  unfold State.markerMissing
  extract_lets n s1
  split
  · have hk := State.sourcesChanged_keeps_geryn (((s1.setFlag Adr.GLK_STATUS Fld.GLK_STATUS_pps false).modTime (fun t => { t with
      gLast := none, gEdge := none })).event 0x346)
    have he := (((s1.setFlag Adr.GLK_STATUS Fld.GLK_STATUS_pps false).modTime (fun t => { t with gLast := none, gEdge := none })).event_only 0x346 0 0)
    refine ⟨?_, ?_⟩
    · rw [hk.missing, he.time]
      rfl
    · rw [hk.host, he.host]
      rfl
  · exact ⟨rfl, rfl⟩

theorem exec_gerynMarker_outside {s : State} {l : Nat} (hl : s.time.gLast = some l) (h : s.now < l + 999990000 ∨ l + 1000010000 < s.now) :
    exec .gerynMarker s = .next (s.markerMissing.modTime (fun t => { t with gLast := t.gLast.map (fun _ => s.now) })) := by
  change execGerynMarker s = _
  simp only [execGerynMarker, hl]
  refine if_pos ?_
  rw [Bool.not_eq_true', Bool.and_eq_false_iff, decide_eq_false_iff_not, decide_eq_false_iff_not]
  omega

/-- A word with a good check before its marker is measured (R203). -/
def State.wordTaken (s : State) (w : List Byte) : State :=
  let hop := (w.getD 10 0).toNat
  let s1 := ((s.setFlag Adr.GLK_STATUS Fld.GLK_STATUS_word_ok true).setFld Adr.GLK_STATUS Fld.GLK_STATUS_last_hop hop).modTime
    (fun t => { t with gSec := some (ofBe (slice w 1 6)) })
  let fl := (w.getD 9 0).toNat
  let s2 := if s.srcSelected.2 && !(s.srcSelected.1 && s.time.ptpOk) then
      s1.takeUtc (signed 16 (ofBe (slice w 7 2))) (bitOf fl 1) (bitOf fl 2) else s1
  if s.repeating ∧ hop < 15 then
    let body := patchBytes (w.take 11) 10 [BitVec.ofNat 8 (hop + 1)]
    s2.glkSend (body ++ beBytes 2 (gerynCheck body))
  else s2

theorem State.wordTaken_facts (s : State) (w : List Byte) (h : (w.getD 10 0).toNat < 16) :
    (s.wordTaken w).flag Adr.GLK_STATUS Fld.GLK_STATUS_word_ok = true ∧
      (s.wordTaken w).fld Adr.GLK_STATUS Fld.GLK_STATUS_last_hop = (w.getD 10 0).toNat ∧
      (s.wordTaken w).time.gSec = some (ofBe (slice w 1 6)) ∧ (s.wordTaken w).time.gEdge = s.time.gEdge ∧ (s.wordTaken w).host = s.host ∧
      s.RegsBut [Adr.GLK_STATUS, Adr.TMB_UTC] (s.wordTaken w) ∧
      s.wordTaken w = { s with regs := (s.wordTaken w).regs, time := (s.wordTaken w).time } := by
  unfold State.wordTaken
  extract_lets hop s1 fl s2 body
  have h1 : s1.flag Adr.GLK_STATUS Fld.GLK_STATUS_word_ok = true ∧ s1.fld Adr.GLK_STATUS Fld.GLK_STATUS_last_hop = hop ∧
      s.RegsBut [Adr.GLK_STATUS, Adr.TMB_UTC] s1 := by
    refine ⟨?_, ?_, ?_⟩
    · rw [State.flag_modTime, State.flag_setFld_apart _ _ _ _ _ (by decide) (by decide), State.flag_setFlag_eq _ _ _ _ (by decide)]
    · rw [State.fld_modTime, State.fld_setFld_eq _ _ _ _ (by decide)]
      exact Nat.mod_eq_of_lt (Nat.lt_of_lt_of_le h (by decide))
    · exact ((State.RegsBut.refl _ s).setFlag _ _ (by simp)).setFld _ _ (by simp)
  obtain ⟨hok, hhop, hregs⟩ := h1
  have h2 : GerynKeeps s1 s2 ∧ s.RegsBut [Adr.GLK_STATUS, Adr.TMB_UTC] s2 ∧ s2 = { s1 with regs := s2.regs } ∧ s2.time = s1.time := by
    simp only [s2]
    split
    · exact ⟨((((GerynKeeps.refl s1).setFlag _ _ (by decide)).setFlag _ _ (by decide)).setFlag _ _ (by decide)).setSFld _ _ (by decide),
        (((hregs.setFlag _ _ (by simp)).setFlag _ _ (by simp)).setFlag _ _ (by simp)).setFld _ _ (by simp), rfl, rfl⟩
    · exact ⟨.refl _, hregs, rfl, rfl⟩
  obtain ⟨hk, hregs2, honly, htime⟩ := h2
  have hall : ∀ u : State, GerynKeeps s2 u → s2.RegsBut [Adr.GLK_STATUS, Adr.TMB_UTC] u → u = { s2 with time := u.time } → u.time.gEdge = s2.time.gEdge →
      u.flag Adr.GLK_STATUS Fld.GLK_STATUS_word_ok = true ∧ u.fld Adr.GLK_STATUS Fld.GLK_STATUS_last_hop = hop ∧
        u.time.gSec = some (ofBe (slice w 1 6)) ∧ u.time.gEdge = s.time.gEdge ∧ u.host = s.host ∧ s.RegsBut [Adr.GLK_STATUS, Adr.TMB_UTC] u ∧
        u = { s with regs := u.regs, time := u.time } := fun u hu hr hu2 hedge => by
    have hboth := hk.trans hu
    refine ⟨(hboth.flag _).trans hok, (hboth.status _).trans hhop, hboth.sec, hedge.trans (by rw [htime]; rfl), hboth.host, hregs2.trans hr, ?_⟩
    conv => lhs; rw [hu2, honly]
    rw [hu2]
    rfl
  split
  · exact hall _ ((GerynKeeps.refl s2).modTime _ rfl rfl rfl id) (.refl _ s2) rfl rfl
  · exact hall _ (.refl s2) (.refl _ s2) rfl rfl

theorem exec_gerynWord_good {s : State} {l : List Byte} (hc : gerynCheck ((fitBytes l 13).take 11) = ofBe (slice (fitBytes l 13) 11 2))
    (ht : ((fitBytes l 13).getD 0 0).toNat = 1) (hh : ((fitBytes l 13).getD 10 0).toNat < 16) :
    exec (.gerynWord l) s = .next ((s.wordTaken (fitBytes l 13)).markerMeasured ((fitBytes l 13).getD 10 0).toNat) := by
  change execGerynWord l s = _
  unfold execGerynWord State.wordTaken
  extract_lets w hop st s1 fl s2 body
  rw [if_neg (by
    rintro (h | h | h)
    · exact h hc
    · exact h ht
    · exact absurd h (Nat.not_le.2 hh))]
  split <;> rfl

/-- A discarded word is noted, and counted (R203). -/
def State.wordDropped (s : State) : State :=
  (((s.setFlag Adr.GLK_STATUS Fld.GLK_STATUS_word_ok false).countFld Adr.GLK_STATUS Fld.GLK_STATUS_crc_err).modTime
    (fun t => { t with gerynErr := min (t.gerynErr + 1) (2 ^ 32 - 1) })).event 0x345

theorem State.wordDropped_facts (s : State) : s.wordDropped.flag Adr.GLK_STATUS Fld.GLK_STATUS_word_ok = false ∧
    s.wordDropped.time.gSec = s.time.gSec ∧ s.wordDropped.time.gEdge = s.time.gEdge ∧ s.RegsButEvents [Adr.GLK_STATUS] s.wordDropped ∧
    s.wordDropped = { s.takeEvents s.wordDropped with time := s.wordDropped.time } := by
  have hframe : SpinFrame [Adr.GLK_STATUS] s s.wordDropped :=
    (((((SpinFrame.refl _ s).setFlag _ _ (by simp)).setFld _ _ (by simp)).modTime _).event _ _ _)
  have hev := ((((s.setFlag Adr.GLK_STATUS Fld.GLK_STATUS_word_ok false).countFld Adr.GLK_STATUS Fld.GLK_STATUS_crc_err).modTime
    (fun t => { t with gerynErr := min (t.gerynErr + 1) (2 ^ 32 - 1) })).event_only 0x345 0 0)
  have htime : s.wordDropped.time = { s.time with gerynErr := min (s.time.gerynErr + 1) (2 ^ 32 - 1) } := hev.time
  have hspn : s.wordDropped.spn = s.spn := hev.spn
  refine ⟨?_, by rw [htime], by rw [htime], hframe.regs, ?_⟩
  · rw [State.wordDropped, State.flag_event _ _ _ _ _ (by decide), State.flag_modTime, State.countFld,
      State.flag_setFld_apart _ _ _ _ _ (by decide) (by decide), State.flag_setFlag_eq _ _ _ _ (by decide)]
  · conv => lhs; rw [hframe.rest, hspn]
    rfl

theorem exec_gerynWord_of_hop {s : State} {l : List Byte} (h : 16 ≤ ((fitBytes l 13).getD 10 0).toNat) :
    exec (.gerynWord l) s = .next (s.wordDropped.markerMeasured (s.fld Adr.GLK_STATUS Fld.GLK_STATUS_last_hop)) :=
  if_pos (.inr (.inr h))

theorem gerynMarkerMissing_lost {s : State} (h : s.time.gMissing = 1) (hp : s.flag Adr.GLK_STATUS Fld.GLK_STATUS_pps = true) :
    s.markerMissing.flag Adr.GLK_STATUS Fld.GLK_STATUS_pps = false ∧ s.markerMissing.time.gMissing = 2 ∧ s.markerMissing.host = s.host := by
  obtain ⟨hn, hhost⟩ := s.markerMissing_facts
  refine ⟨?_, by rw [hn, h], hhost⟩
  unfold State.markerMissing
  extract_lets n s1
  rw [if_pos ⟨by simp only [n, h], hp⟩, (State.sourcesChanged_keeps_geryn _).flag, State.flag_event _ _ _ _ _ (by decide), State.flag_modTime,
    State.flag_setFlag_eq _ _ _ _ (by decide)]

/-- The end of holdover (R197). -/
theorem holdoverExpiry_row {s : State} (h3 : s.tbState = 3)
    (ht : s.fld Adr.TMB_HOLD Fld.TMB_HOLD_holdover_max * 1000000000 ≤ s.holdTime) :
    ∃ t, exec .holdoverExpiry s = .next t ∧ t.tbState = 4 ∧ t.time.tb = s.time.tb ∧ t.host = s.host := by
  have hframe : ∀ u : State, SpinFrame [Adr.TMB_PLSTAT, Adr.SPN_ANGLE] u (u.event 0x342).phaseCheck := fun u =>
    ((SpinFrame.refl _ u).event _ _ _).trans (State.phaseCheck_frame _)
  refine ⟨_, if_pos ⟨h3, ht⟩, ?_, ?_, ?_⟩
  · rw [State.tbState, (hframe _).fld _ (by decide) (by decide), State.fld_modTime]
    exact State.fld_setFld_eq _ _ _ _ (by decide)
  · have htb : ∀ u : State, u.phaseCheck.time.tb = u.time.tb := fun u => by
      unfold State.phaseCheck
      repeat' split
      all_goals simp [State.setPhase, State.setTrim, Time.noApproach]
    rw [htb, (State.event_only _ _ _ _).time]
    rfl
  · exact (hframe _).host

/-- Settles O18: the Geryn link and the end of holdover, row by row. -/
theorem gerynRows : Obligations.GerynRows := by
  unfold Obligations.GerynRows
  intro s
  refine ⟨execGerynMarker_row, fun l hl h => ?_, fun l hgood => ?_, fun l h => ?_, fun h hp => ?_, fun h => ?_, holdoverExpiry_row, fun h => ?_⟩
  · obtain ⟨hn, hhost⟩ := s.markerMissing_facts
    exact ⟨_, exec_gerynMarker_outside hl h, hn, hhost⟩
  · obtain ⟨hc, ht, hh⟩ := hgood
    obtain ⟨hok, hhop, hsec, hedge, hhost, hregs, honly⟩ := s.wordTaken_facts (fitBytes l 13) hh
    obtain ⟨hk, hnone⟩ := (s.wordTaken (fitBytes l 13)).markerMeasured_facts ((fitBytes l 13).getD 10 0).toNat
    refine ⟨_, exec_gerynWord_good hc ht hh, (hk.flag _).trans hok, (hk.status _).trans hhop, hk.sec.trans hsec, hnone, hk.host.trans hhost,
      fun he => ?_⟩
    rw [State.markerMeasured_of_none _ (hedge.trans he)]
    exact ⟨hregs, honly⟩
  · obtain ⟨hok, hsec, hedge, hregs, honly⟩ := s.wordDropped_facts
    obtain ⟨hk, -⟩ := s.wordDropped.markerMeasured_facts (s.fld Adr.GLK_STATUS Fld.GLK_STATUS_last_hop)
    refine ⟨_, exec_gerynWord_of_hop h, (hk.flag _).trans hok, hk.sec.trans hsec, fun he => ?_⟩
    rw [State.markerMeasured_of_none _ (hedge.trans he)]
    exact ⟨hregs, honly⟩
  · exact ⟨_, rfl, gerynMarkerMissing_lost h hp⟩
  · refine ⟨_, rfl, by rw [(s.markerMissing_facts).1, h], ?_⟩
    have hnot : ¬(s.time.gMissing + 1 = 2 ∧ s.flag Adr.GLK_STATUS Fld.GLK_STATUS_pps) := fun hc => by omega
    have hsimple : s.markerMissing = s.modTime (fun t => { t with
        gMissing := s.time.gMissing + 1, gSec := t.gSec.map (fun k => k + 1), gLast := t.gLast.map (fun l => l + 1000000000) }) := if_neg hnot
    rw [hsimple]
    rfl
  · refine if_neg ?_
    rintro ⟨h3, ht⟩
    rcases h with h | h
    · exact h h3
    · omega

end Sys2Proof.Machine
end

section
/-! What a software write leaves of a register's fields (R10), the alarm comparators (R222), and the release of a launch (R217 to R219). -/

namespace Sys2Proof.Machine

open Sys2Proof

/-! ## Fields that a software write does not take -/

theorem setBits_getBits_self (w : Word) (f : Fld) : setBits w f (getBits w f) = w := by
  refine BitVec.eq_of_getLsbD_eq fun i hi => ?_
  rw [getLsbD_setBits, testBit_getBits]
  by_cases hin : f.lo ≤ i ∧ i - f.lo < f.width
  · rw [if_pos hin, Nat.add_sub_cancel' hin.1]
    simp [hi, hin.2]
  · rw [if_neg hin]
    simp [hi]

theorem clampWord_of_none {fs : List FieldRow} (h : ∀ f ∈ fs, f.clamp = .none) (w : Word) : clampWord fs w = w := by
  induction fs generalizing w with
  | nil => rfl
  | cons f r ih =>
    have hf : f.clamp = .none := h f (List.mem_cons_self ..)
    rw [clampWord, hf, Clamp.apply, setBits_getBits_self]
    exact ih (fun g hg => h g (List.mem_cons_of_mem _ hg)) w

/-- No field of the row reads otherwise than it is stored, and none that software writes shares a bit with g. -/
def keptByWrite (fs : List FieldRow) (g : Fld) : Bool :=
  fs.all (fun f => f.clamp == .none) && ((accMask fs (fun a => a == .rw) ||| accMask fs (fun a => a == .w1c) ||| accMask fs (fun a => a == .w1s)) &&& g.mask == 0)

theorem getBits_writeMerge_of_kept {fs : List FieldRow} {g : Fld} (hk : keptByWrite fs g = true) (old new : Word) :
    getBits (writeMerge fs old new) g = getBits old g := by
  simp only [keptByWrite, Bool.and_eq_true, List.all_eq_true, beq_iff_eq] at hk
  obtain ⟨hclamp, hmask⟩ := hk
  apply Nat.eq_of_testBit_eq
  intro i
  rw [testBit_getBits, testBit_getBits, writeMerge, clampWord_of_none hclamp]
  by_cases hi : i < g.width
  · by_cases h32 : g.lo + i < 32
    · have hbit := congrArg (fun w => w.getLsbD (g.lo + i)) hmask
      simp only [BitVec.getLsbD_and, BitVec.getLsbD_or, getLsbD_mask, BitVec.ofNat_eq_ofNat, BitVec.getLsbD_zero] at hbit
      simp only [Nat.add_sub_cancel_left, h32, hi, Nat.le_add_right, decide_true, Bool.and_true, Bool.or_eq_false_iff] at hbit
      obtain ⟨⟨hrw, hw1c⟩, hw1s⟩ := hbit
      simp only [BitVec.getLsbD_or, BitVec.getLsbD_and, BitVec.getLsbD_not, hrw, hw1c, hw1s, h32, decide_true, Bool.true_and, Bool.not_false,
        Bool.and_true, Bool.and_false, Bool.or_false]
    · rw [BitVec.getLsbD_of_ge _ _ (by omega), BitVec.getLsbD_of_ge _ _ (by omega)]
  · simp [hi]

/-- The row at an address keeps field g through a software write. -/
def rowKeeps (a : Nat) (g : Fld) : Bool := match rowAt a with | some (r, _) => keptByWrite r.fields g | none => true

theorem State.fld_plainWrite_of_kept (s : State) {a : Nat} {g : Fld} (v : Word) (h : rowKeeps a g = true) : (s.plainWrite a v).fld a g = s.fld a g := by
  unfold State.plainWrite
  unfold rowKeeps at h
  split
  next r x hr =>
    simp only [hr] at h
    rw [State.fld, State.reg_setReg_same, getBits_writeMerge_of_kept h, State.fld]
  next => rfl

theorem State.plainWrite_only (s : State) (a : Nat) (v : Word) : s.plainWrite a v = { s with regs := (s.plainWrite a v).regs } ∧
    s.RegsBut [a] (s.plainWrite a v) := by
  unfold State.plainWrite
  split
  · exact ⟨rfl, (State.RegsBut.refl _ s).setReg _ (by simp)⟩
  · exact ⟨rfl, .refl _ s⟩

/-! ## The alarm comparators -/

theorem holder_kept (k : Fin 8) : rowKeeps (Adr.TMB_ALM_CTL k) Fld.TMB_ALM_CTL_holder = true := by
  decide +revert

theorem exec_alarmClaim {s : State} {o : Nat} {k : Fin 8} (v : Word) (h : s.Writable o (Adr.TMB_ALM_CTL k)) :
    exec (.alarmClaim o k v) s = .next (s.writeAlarm k (setBits v Fld.TMB_ALM_CTL_claim 1)) := by
  change (.next (s.ownerReg o (Adr.TMB_ALM_CTL k) _ (fun s => s.writeAlarm k _)) : Res) = _
  rw [State.ownerReg_of_writable _ _ h]

/-- The claim bit is set and the holder is one after which the release bit does nothing: what a claim comes to (R222). -/
theorem State.writeAlarm_of_claim {s : State} {k : Nat} {v : Word} (hc : v.getLsbD 0 = true)
    (hn : (s.plainWrite (Adr.TMB_ALM_CTL k) v).fld (Adr.TMB_ALM_CTL k) Fld.TMB_ALM_CTL_holder ≠ 1) :
    s.writeAlarm k v = (if (s.plainWrite (Adr.TMB_ALM_CTL k) v).fld (Adr.TMB_ALM_CTL k) Fld.TMB_ALM_CTL_holder ≤ 1
      then (s.plainWrite (Adr.TMB_ALM_CTL k) v).setFld (Adr.TMB_ALM_CTL k) Fld.TMB_ALM_CTL_holder 1
      else ((s.plainWrite (Adr.TMB_ALM_CTL k) v).setFlag (Adr.TMB_ALM_CTL k) Fld.TMB_ALM_CTL_conflict true).event 0x34C) := by
  unfold State.writeAlarm
  extract_lets a s1 s2
  have h2 : s2 = s1 := if_neg fun h => hn h.2
  rw [if_neg (by rw [hc]; decide), h2]

theorem claim_bit (v : Word) : (setBits v Fld.TMB_ALM_CTL_claim 1).getLsbD 0 = true := by
  rw [getLsbD_setBits]
  simp [Fld.TMB_ALM_CTL_claim, Fld.width]

theorem alarmCtl_not_eventReg (k : Fin 8) :
    ¬((0x5000000 ≤ Adr.TMB_ALM_CTL k ∧ Adr.TMB_ALM_CTL k < 0x5101000) ∨ Adr.TMB_ALM_CTL k = Adr.ECC_MODE) := by
  decide +revert

theorem alarmClaim_free {s : State} {k : Fin 8} {o : Nat} (v : Word) (hw : s.Writable o (Adr.TMB_ALM_CTL k))
    (hh : s.fld (Adr.TMB_ALM_CTL k) Fld.TMB_ALM_CTL_holder = 0) :
    ∃ t, exec (.alarmClaim o k v) s = .next t ∧ t.fld (Adr.TMB_ALM_CTL k) Fld.TMB_ALM_CTL_holder = 1 ∧
      s.RegsBut [Adr.TMB_ALM_CTL k] t ∧ t = { s with regs := t.regs } := by
  have hkept := (s.fld_plainWrite_of_kept (setBits v Fld.TMB_ALM_CTL_claim 1) (holder_kept k)).trans hh
  obtain ⟨honly, hregs⟩ := s.plainWrite_only (Adr.TMB_ALM_CTL k) (setBits v Fld.TMB_ALM_CTL_claim 1)
  refine ⟨_, exec_alarmClaim v hw, ?_⟩
  rw [State.writeAlarm_of_claim (claim_bit v) (by rw [hkept]; decide), if_pos (by rw [hkept]; decide)]
  refine ⟨State.fld_setFld_eq _ _ _ _ (by decide), hregs.setFld _ _ (by simp), ?_⟩
  conv => lhs; rw [honly]
  rfl

theorem alarmClaim_refused {s : State} {k : Fin 8} {o : Nat} (v : Word) (hw : s.Writable o (Adr.TMB_ALM_CTL k))
    (hh : 2 ≤ s.fld (Adr.TMB_ALM_CTL k) Fld.TMB_ALM_CTL_holder) :
    ∃ t, exec (.alarmClaim o k v) s = .next t ∧ t.flag (Adr.TMB_ALM_CTL k) Fld.TMB_ALM_CTL_conflict = true ∧
      t.fld (Adr.TMB_ALM_CTL k) Fld.TMB_ALM_CTL_holder = s.fld (Adr.TMB_ALM_CTL k) Fld.TMB_ALM_CTL_holder ∧
      s.RegsButEvents [Adr.TMB_ALM_CTL k] t := by
  have hkept := s.fld_plainWrite_of_kept (setBits v Fld.TMB_ALM_CTL_claim 1) (holder_kept k)
  obtain ⟨-, hregs⟩ := s.plainWrite_only (Adr.TMB_ALM_CTL k) (setBits v Fld.TMB_ALM_CTL_claim 1)
  refine ⟨_, exec_alarmClaim v hw, ?_⟩
  rw [State.writeAlarm_of_claim (claim_bit v) (by rw [hkept]; omega), if_neg (by rw [hkept]; omega)]
  refine ⟨?_, ?_, ?_⟩
  · rw [State.flag_event _ _ _ _ _ (alarmCtl_not_eventReg k), State.flag_setFlag_eq _ _ _ _ (by decide)]
  · rw [State.fld_event _ _ _ _ _ (alarmCtl_not_eventReg k), State.fld_setFlag_apart _ _ _ _ _ (by decide) (by decide), hkept]
  · exact State.RegsButEvents.event (fun r hr _ => (hregs.setFlag Fld.TMB_ALM_CTL_conflict true (by simp)) r hr) _ _ _

/-- What the owner writes to release comparator k: irq as it stands, and release. -/
def releaseWord (w : Word) : Word := setBits (w &&& Fld.mask Fld.TMB_ALM_CTL_irq) Fld.TMB_ALM_CTL_release 1

theorem releaseWord_bits (w : Word) : (releaseWord w).getLsbD 1 = true ∧ (releaseWord w).getLsbD 0 = false := by
  unfold releaseWord
  simp only [getLsbD_setBits, BitVec.getLsbD_and, getLsbD_mask]
  simp [Fld.TMB_ALM_CTL_release, Fld.TMB_ALM_CTL_irq, Fld.width]

theorem alarmRelease_own {s : State} {k : Fin 8} {o : Nat} (hw : s.Writable o (Adr.TMB_ALM_CTL k))
    (hh : s.fld (Adr.TMB_ALM_CTL k) Fld.TMB_ALM_CTL_holder = 1) :
    ∃ t, exec (.alarmRelease o k) s = .next t ∧ t.fld (Adr.TMB_ALM_CTL k) Fld.TMB_ALM_CTL_holder = 0 ∧
      s.RegsBut [Adr.TMB_ALM_CTL k] t ∧ t = { s with regs := t.regs } := by
  have hkept := (s.fld_plainWrite_of_kept (releaseWord (s.reg (Adr.TMB_ALM_CTL k))) (holder_kept k)).trans hh
  obtain ⟨honly, hregs⟩ := s.plainWrite_only (Adr.TMB_ALM_CTL k) (releaseWord (s.reg (Adr.TMB_ALM_CTL k)))
  obtain ⟨hrel, hclaim⟩ := releaseWord_bits (s.reg (Adr.TMB_ALM_CTL k))
  have hexec : exec (.alarmRelease o k) s = .next ((s.plainWrite (Adr.TMB_ALM_CTL k) (releaseWord (s.reg (Adr.TMB_ALM_CTL k)))).setFld
      (Adr.TMB_ALM_CTL k) Fld.TMB_ALM_CTL_holder 0) := by
    change (.next (s.ownerReg o (Adr.TMB_ALM_CTL k) _ (fun s => s.writeAlarm k (releaseWord _))) : Res) = _
    rw [State.ownerReg_of_writable _ _ hw]
    unfold State.writeAlarm
    extract_lets a s1 s2
    have h2 : s2 = s1.setFld a Fld.TMB_ALM_CTL_holder 0 := if_pos ⟨hrel, hkept⟩
    rw [if_pos (by rw [hclaim]; decide), h2]
  refine ⟨_, hexec, State.fld_setFld_eq _ _ _ _ (by decide), hregs.setFld _ _ (by simp), ?_⟩
  conv => lhs; rw [honly]
  rfl

/-- Comparator k fires for the owner, before its interrupt (R222). -/
def State.alarmFired (s : State) (k : Fin 8) : State :=
  ((s.event (0x350 + k)).setFlag (Adr.TMB_ALM_CTL k) Fld.TMB_ALM_CTL_fired true).modTime (fun t => { t with spent := t.spent ++ [k.val] })

theorem exec_alarmFire {s : State} {k : Fin 8} (hh : s.fld (Adr.TMB_ALM_CTL k) Fld.TMB_ALM_CTL_holder = 1) (hp : s.powered 2 = true)
    (hr : s.restarting 2 = false) (ha : s.alarmReached k = true) (hi : s.fld (Adr.TMB_ALM_CTL k) Fld.TMB_ALM_CTL_irq = 2) :
    exec (.alarmFire k) s = .next ((s.alarmFired k).modHost (fun h => { h with irqs := h.irqs ++ [k.val] })) := by
  change execAlarmFire k s = _
  simp [execAlarmFire, hh, hp, hr, ha, hi, State.alarmFired]

theorem State.alarmFired_facts (s : State) (k : Fin 8) : (s.alarmFired k).host = s.host ∧
    (s.alarmFired k).flag (Adr.TMB_ALM_CTL k) Fld.TMB_ALM_CTL_fired = true ∧ s.RegsButEvents [Adr.TMB_ALM_CTL k] (s.alarmFired k) :=
  ⟨(s.event_only _ _ _).host, State.flag_setFlag_eq _ _ _ _ (by decide),
    State.RegsButEvents.setReg ((State.RegsButEvents.refl _ s).event _ _ _) _ (by simp)⟩

/-- Settles O23: the alarm comparators, row by row. -/
theorem alarmRows : Obligations.AlarmRows := by
  unfold Obligations.AlarmRows
  intro s k
  refine ⟨fun o v => alarmClaim_free v, fun o v => alarmClaim_refused v, fun o => alarmRelease_own, fun hh hp hr ha hi => ?_, fun h => ?_⟩
  · obtain ⟨hhost, hfired, hregs⟩ := s.alarmFired_facts k
    exact ⟨_, exec_alarmFire hh hp hr ha hi, hfired, by rw [← hhost]; rfl, by rw [← hhost]; rfl, hregs⟩
  · exact if_pos (h.elim .inl fun h => .inr (.inr (.inr (by rw [h]; rfl))))

/-! ## The release of a launch -/

/-- The context of a command, where it is in the list, is found by its order too. -/
theorem State.ctxOf_of_mem {s : State} {x : Ctx} (h : ∃ y ∈ s.host.ctxs, y.order = x.order) : ∃ y, s.ctxOf x = some y ∧ y.order = x.order := by
  obtain ⟨y, hmem, ho⟩ := h
  have hsome : (s.ctxOf x).isSome = true := by
    rw [State.ctxOf, List.find?_isSome]
    exact ⟨y, hmem, by simpa using ho⟩
  obtain ⟨z, hz⟩ := Option.isSome_iff_exists.1 hsome
  exact ⟨z, hz, by simpa using List.find?_some hz⟩

theorem State.instantOf_of_launch {s : State} {x : Ctx} {l : Nat} (h : x.wait = .launch l none) : s.instantOf x = some (l * 65536) := by
  simp only [State.instantOf, h]

/-- The context of a command whose launch instant has come, with that instant noted (R218). -/
theorem State.ctx_modCtx_same {s : State} {a q c : Nat} {x : Ctx} (f : Ctx → Ctx) (h : s.ctx a q c = some x) (hf : ∀ y, (f y).is a q c = y.is a q c) :
    (s.modCtx a q c f).ctx a q c = some (f x) := by
  have hx : x.is a q c = true := List.find?_some (p := fun y : Ctx => y.is a q c) h
  unfold State.ctx State.modCtx State.modHost
  dsimp only
  rw [List.find?_map]
  have hcomp : ((fun y : Ctx => y.is a q c) ∘ fun y : Ctx => if y.is a q c = true then f y else y) = fun y => y.is a q c := by
    funext y
    simp only [Function.comp]
    split
    · exact hf y
    · rfl
  rw [hcomp]
  rw [State.ctx] at h
  rw [h]
  simp [hx]

theorem exec_launchRelease {s : State} {o q c l : Nat} {x : Ctx} {i : Instr} (hx : s.ctx o q c = some x) (hi : x.instr = some i)
    (hw : x.wait = .launch l none) (ht : l * 65536 ≤ s.time.tb)
    (hfirst : ∀ y ∈ s.host.ctxs, s.isDue y = true → keyLess (s.launchRank y) (s.launchRank x) = false) (hr : s.restarting 2 = false)
    (hf : s.funcRunning 9 = true) (hlate : s.time.tb ≤ l * 65536 + 65536000) :
    exec (.launchRelease o q c) s = .next (s.release x i false).settle := by
  have hdue : s.isDue x = true := by simp [State.isDue, State.instantOf_of_launch hw, ht]
  have hbefore : s.host.ctxs.any (fun y => s.isDue y && keyLess (s.launchRank y) (s.launchRank x)) = false := by
    rw [List.any_eq_false]
    intro y hy
    cases hd : s.isDue y with
    | false => simp
    | true => simp [hfirst y hy hd]
  have hnot : decide (l * 65536 + 65536000 < s.time.tb) = false := by simpa using hlate
  change execLaunchRelease o q c s = _
  simp only [execLaunchRelease, hx, hi, hdue, hbefore, hr, hf, State.instantOf_of_launch hw, Option.getD_some, hnot, Bool.not_true, Bool.or_self,
    Bool.false_eq_true, if_false]

/-- Settles O22: the pending command that is due is performed from its own launch on. -/
theorem dueLaunchIsReleased : Obligations.DueLaunchIsReleased := by
  unfold Obligations.DueLaunchIsReleased
  intro s o q c l x i hx hi hw ht hfirst hr hf hps hmove hlate
  obtain ⟨rfl, rfl, rfl, hmem⟩ := State.ctx_key hx
  have hl : l * 65536 / 65536 = l := Nat.mul_div_cancel l (by decide)
  obtain ⟨y, hy, horder⟩ := State.ctxOf_of_mem (s := s.modCtx x.assoc x.qid x.cid (fun y => { y with launch := l })) (x := x)
    ⟨_, List.mem_map_of_mem hmem, by split <;> rfl⟩
  refine ⟨s.modCtx x.assoc x.qid x.cid (fun y => { y with launch := l }), y, ?_, horder, State.ctx_modCtx_same _ hx fun _ => rfl, rfl, rfl, rfl⟩
  rw [exec_launchRelease hx hi hw ht hfirst hr hf hlate]
  have hrel : s.release x i false = (s.modCtx x.assoc x.qid x.cid (fun y => { y with launch := l })).body y i true := by
    have hno : ¬(decide (2 ≤ s.ps) || s.psMoving) = true := by
      rw [hmove, Bool.or_false, decide_eq_true_eq]
      omega
    simp only [State.release, State.instantOf_of_launch hw, Option.getD_some, hl, Bool.false_eq_true, if_false]
    refine (if_neg hno).trans ?_
    rw [hy]
  rw [hrel]

end Sys2Proof.Machine
end

section
/-! The idle clock and the state after reset, and single register accesses (R9, R10, R31, R34). -/

namespace Sys2Proof.Machine

open Sys2Proof

/-! ## One idle clock and the reset state -/

/-- What a clock gives the time base: its increment, unless the Time region restarts (R195, R439). -/
def State.tickStep (s : State) : Nat := if s.restarting 2 then 0 else (131072 + s.time.freq).toNat

theorem State.tick_only (s : State) :
    s.tick = { s with now := s.now + 2, time := { s.time with tb := (s.time.tb + s.tickStep) % 2 ^ 80 }, pic := s.tick.pic } := State.picGo_only _

/-- Settles O36: one clock is a tick, and then the commands that may go on do. -/
theorem emptyQueuePassesOneClock : Obligations.EmptyQueuePassesOneClock := by
  unfold Obligations.EmptyQueuePassesOneClock
  intro s hs
  have htick := s.tick_only
  have htb : s.tick.time.tb = (s.time.tb + s.tickStep) % 2 ^ 80 := by
    rw [htick]
  have hnow : s.tick.now = s.now + 2 := by
    rw [htick]
  refine ⟨s.tick, step_of_pending_nil hs, hnow, fun h => ?_, fun h => ?_, ?_⟩
  · rw [htb, State.tickStep, h]
    rfl
  · rw [htb, State.tickStep, h]
    rfl
  · conv => lhs; rw [htick]
    rw [htb, hnow]

theorem State.reset_reg (a : Nat) : State.reset.reg a = resetWord a := rfl

theorem State.readReg_of_reserved {s : State} {a : Nat} (h : rowAt a = none) : s.readReg a = 0 := by
  simp only [State.readReg, h]

/-- Settles O37: nothing is listed after reset, so every register holds its reset value. -/
theorem resetState : Obligations.ResetState := by
  unfold Obligations.ResetState
  refine ⟨⟨rfl, rfl⟩, rfl, State.reset_reg, fun a => State.readReg_of_reserved, rfl, ?_, fun a => ⟨?_, ?_⟩⟩
  · decide
  · revert a
    decide
  · revert a
    decide

/-! ## Writes -/

/-- The effect of a write of an ordinary register: its function's shadow set, or its writable fields (R10, R34). -/
theorem State.performWrite_of_ordinary (s : State) {a : Nat} {r : RegRow} {x : List Nat} (v : Word) (hr : rowAt a = some (r, x)) (hn : r.name ∉ ownEffect) :
    s.performWrite a v = match rowFunc r x with | some k => s.writeConfig k a v | none => s.plainWrite a v := by
  unfold State.performWrite
  simp only [hr]
  split
  case h_27 => rfl
  all_goals
    rename_i h
    exact absurd (by rw [h]; decide) hn

theorem State.performWrite_of_reserved (s : State) {a : Nat} (v : Word) (h : rowAt a = none) : s.performWrite a v = s := by
  simp only [State.performWrite, h]

theorem exec_plainRegisterWrite {s : State} {p : Path} {o a : Nat} (v : Word) (hp : p ≠ .snapshot) (ha : a % 4 = 0) (hw : s.Writable o a) :
    exec (.plainRegisterWrite p o a 4 v) s = .next (s.performWrite a v) := by
  change execPlainRegisterWrite p o a 4 v s = _
  rw [execPlainRegisterWrite, if_neg (by simp [ha, hp]), State.ownerReg_of_writable _ _ hw]

theorem State.func_modFunc_same (s : State) {k : Nat} (f : FuncAux → FuncAux) (h : k < 15) : (s.modFunc k f).func k = f (s.func k) := by
  rw [State.modFunc, dif_pos h]
  simp [State.func, h]

theorem State.reg_modFunc (s : State) (k : Nat) (f : FuncAux → FuncAux) (a : Nat) : (s.modFunc k f).reg a = s.reg a := by
  unfold State.modFunc
  split <;> rfl

theorem State.modFunc_only (s : State) (k : Nat) (f : FuncAux → FuncAux) : s.modFunc k f = { s with funcs := (s.modFunc k f).funcs } := by
  unfold State.modFunc
  split <;> rfl

theorem RegFile.find_put_self (f : RegFile) (a : Nat) (v : Word) : (f.put a v).find a = some v := by
  simp

/-- A stopped function takes the value into its shadow set (R34). -/
theorem State.writeConfig_of_stopped {s : State} {k a : Nat} {r : RegRow} {x : List Nat} (v : Word) (hr : rowAt a = some (r, x)) (hk : k < 15)
    (h : s.fstate k = 1 ∨ s.fstate k = 2) : (s.writeConfig k a v).shadow k a = writeMerge r.fields (s.shadow k a) v ∧
      s.writeConfig k a v = { s with funcs := (s.writeConfig k a v).funcs } := by
  have heq : s.writeConfig k a v = s.modFunc k (fun f => { f with shadow := f.shadow.put a (writeMerge r.fields (s.shadow k a) v) }) := by
    rw [State.writeConfig, if_pos h]
    simp only [hr]
  rw [heq]
  refine ⟨?_, s.modFunc_only _ _⟩
  rw [State.shadow, s.func_modFunc_same _ hk]
  simp only [RegFile.find_put_self, Option.getD_some]

theorem State.writeConfig_of_running {s : State} {k a : Nat} (v : Word) (h : s.fstate k = 0 ∨ s.fstate k = 3) :
    s.writeConfig k a v = s.setFlag (Adr.FUNC_CTRL k) Fld.FUNC_CTRL_write_refused true := if_neg (by omega)

theorem State.plainWrite_of_row (s : State) {a : Nat} {r : RegRow} {x : List Nat} (v : Word) (hr : rowAt a = some (r, x)) :
    s.plainWrite a v = s.setReg a (writeMerge r.fields (s.reg a) v) := by
  simp only [State.plainWrite, hr]

/-- Settles O41: a register write, from its refused forms to the shadow set. -/
theorem plainRegisterWrites : Obligations.PlainRegisterWrites := by
  unfold Obligations.PlainRegisterWrites
  intro s p o a n v hp
  refine ⟨fun h => if_pos (h.elim .inl fun h => .inr (.inl h)), ?_⟩
  rintro rfl ha hw
  have hexec := exec_plainRegisterWrite v hp ha hw
  refine ⟨fun hr => hexec.trans (by rw [s.performWrite_of_reserved v hr]), fun r x hr hn => ?_⟩
  rw [s.performWrite_of_ordinary v hr hn] at hexec
  refine ⟨fun hf => ?_, fun k hf hk h => ?_, fun k hf h => ?_⟩
  · simp only [hf] at hexec
    rw [s.plainWrite_of_row v hr] at hexec
    exact ⟨_, hexec, s.reg_setReg_same _ _, (State.RegsBut.refl _ s).setReg _ (by simp), rfl⟩
  · simp only [hf] at hexec
    exact ⟨_, hexec, State.writeConfig_of_stopped v hr hk h⟩
  · simp only [hf] at hexec
    rw [State.writeConfig_of_running v h] at hexec
    exact ⟨_, hexec, State.flag_setFlag_eq _ _ _ _ (by decide), (State.RegsBut.refl _ s).setFlag _ _ (by simp), rfl⟩

/-! ## Reads -/

theorem exec_clearOnRead (p : Path) (a : Nat) (s : State) : exec (.clearOnRead p a) s = .next (s.readAt p a) := rfl

/-- The bits of the register's RC fields take their reset values (R10). -/
theorem State.clearRead_reg (s : State) {a : Nat} {w : RegRow} {x : List Nat} (h : rowAt a = some (w, x)) :
    (s.clearRead a).reg a = ((s.reg a &&& ~~~(accMask w.fields (fun y => y == .rc))) ||| (resetWord a &&& accMask w.fields (fun y => y == .rc))) ∧
      s.RegsBut [a] (s.clearRead a) := by
  simp only [State.clearRead, h]
  split
  next hm =>
    refine ⟨?_, .refl _ s⟩
    rw [hm]
    change s.reg a = (s.reg a &&& ~~~0#32) ||| (resetWord a &&& 0#32)
    rw [BitVec.and_zero, BitVec.or_zero, BitVec.not_zero, BitVec.and_allOnes]
  next => exact ⟨s.reg_setReg_same _ _, (State.RegsBut.refl _ s).setReg _ (by simp)⟩

theorem State.performRead_of_running_row {s : State} {p : Path} {a r : Nat} (hp : p ≠ .snapshot) (hr : regionOf a = some r) (hpow : s.powered r = true)
    (hrun : s.restarting r = false) (hheld : ∀ h ∈ s.heldRegs, h.path ≠ p) (hu : isUpper a = false) :
    s.performRead p a = State.clearRead { s with
      readData := s.readReg a, latches := s.latches.set p (s.latchRead (s.latches.get p) a).2, fresh := s.fresh + b2n (isMeter a) } a := by
  have hwait := State.accessWaits_of_free hheld hr (.inl hrun)
  simp only [State.performRead, hr, hwait, hpow, hrun, hp, Bool.false_eq_true, and_false, Bool.not_true, Bool.false_and, Bool.or_self, if_false,
    State.latchRead_value_of_not_isUpper _ _ hu]

theorem State.accessWaits_of_waiting {s : State} {p : Path} {a r : Nat} (hr : regionOf a = some r)
    (h : s.powered r = true ∧ s.restarting r = true ∧ survivesRestart a = false ∨ ∃ k ∈ s.heldRegs, k.path = p) : s.accessWaits p a = true := by
  rw [State.accessWaits, Bool.or_eq_true]
  rcases h with ⟨hp, hrs, hv⟩ | ⟨k, hk, hpath⟩
  · simp [hr, hp, hrs, hv]
  · exact .inl (List.any_eq_true.2 ⟨k, hk, by simpa using hpath⟩)

theorem State.accessWaits_of_off {s : State} {p : Path} {a r : Nat} (hr : regionOf a = some r) (hp : s.powered r = false)
    (hheld : ∀ h ∈ s.heldRegs, h.path ≠ p) : s.accessWaits p a = false := by
  rw [State.accessWaits, Bool.or_eq_false_iff]
  refine ⟨List.any_eq_false.2 fun h hh => by simpa using hheld h hh, ?_⟩
  simp [hr, hp]

/-- Settles O43: what a read clears, and when it waits or reads 0. -/
theorem readsThatClear : Obligations.ReadsThatClear := by
  unfold Obligations.ReadsThatClear
  refine ⟨fun s p a r hp hr ha => ⟨fun hpow hrun hheld hu w x hrow => ?_, fun h => ?_, fun hpow hheld => ?_⟩, fun s a _ => ?_⟩
  · obtain ⟨hreg, hregs⟩ := State.clearRead_reg { s with
      readData := s.readReg a, latches := s.latches.set p (s.latchRead (s.latches.get p) a).2, fresh := s.fresh + b2n (isMeter a) } hrow
    have hexec : exec (.clearOnRead p a) s = .next (s.performRead p a) := by
      rw [exec_clearOnRead, State.readAt_of_aligned _ _ ha]
    rw [State.performRead_of_running_row hp hr hpow hrun hheld hu] at hexec
    refine ⟨_, hexec, ?_, hreg, hregs, ?_, ?_⟩
    all_goals rw [State.clearRead_regs_only]
  · rw [exec_clearOnRead, State.readAt_of_aligned _ _ ha]
    simp only [State.performRead, hr]
    rw [if_pos ⟨hp, State.accessWaits_of_waiting hr h⟩]
  · rw [exec_clearOnRead, State.readAt_of_aligned _ _ ha]
    simp only [State.performRead, hr]
    rw [if_neg (by rw [State.accessWaits_of_off hr hpow hheld]; simp), if_pos (by simp [hpow]), if_neg hp]
  · rw [exec_clearOnRead, exec_clearOnRead, State.readAt_pcie_whole]

end Sys2Proof.Machine
end

section
/-! How an NVMe command that is the only one is performed (R350, R362, R363, R403): its checks, its completion, and its wait. -/

namespace Sys2Proof.Machine

open Sys2Proof

/-! ## A row is its run -/

theorem exec_of_nvmeRow (s : State) {c : Cmd} {i : Instr} (h : i ∈ nvmeRows c) : exec i s = .next (s.run i c) := by
  simp only [nvmeRows, List.mem_cons, List.not_mem_nil, or_false] at h
  rcases h with rfl | rfl | rfl | rfl | rfl | rfl | rfl | rfl | rfl | rfl | rfl | rfl | rfl | rfl | rfl | rfl | rfl | rfl | rfl | rfl | rfl | rfl |
    rfl | rfl | rfl | rfl | rfl | rfl | rfl | rfl | rfl | rfl | rfl | rfl | rfl | rfl | rfl | rfl | rfl | rfl
  all_goals rfl

theorem State.run_of_fetched {s : State} {c : Cmd} {x : Ctx} (i : Instr)
    (h : s.host.ctxs.find? (fun y => y.is c.assoc c.qid c.cid && y.wait == .fetched && y.instr.isNone) = some x) :
    s.run i c = ((s.taken x i c).perform { x with instr := some i } i).settle := by
  have htake : s.takeContext c.assoc c.qid c.cid = (s, some x) := by
    simp only [State.takeContext, h]
  simp only [State.run, htake, State.taken]

/-! ## The checks -/

/-- A command that passes its checks has its own effect (R363, R403). -/
theorem State.perform_of_ready {s : State} {x : Ctx} {i : Instr} (hbad : x.bad = false) (h : s.Ready x i) :
    s.perform { x with instr := some i } i = s.body { x with instr := some i } i false := by
  obtain ⟨hfatal, hop, hload, hauth, hready, hctl, hps, hns, hown, hfun⟩ := h
  unfold State.perform
  extract_lets auth
  have hauth' : ¬(s.flag Adr.HIF_CTRL Fld.HIF_CTRL_auth_req && !s.authed x.assoc && !auth) = true := by
    rcases hauth with h | h | h
    · simp [h]
    · simp [h]
    · obtain ⟨d, h | h⟩ := h <;> simp [auth, h]
  have hready' : ¬(!s.flag Adr.PLN_STATUS Fld.PLN_STATUS_ready && !s.onList i) = true := by
    rcases hready with h | h <;> simp [h]
  have hps' : ¬((decide (2 ≤ s.ps) || s.psMoving) && !s.onList i && !isPower i) = true := by
    rcases hps with ⟨h, k⟩ | h | h
    · have hlt : decide (2 ≤ s.ps) = false := by
        rw [decide_eq_false_iff_not]
        omega
      simp [hlt, k]
    · simp [h]
    · simp [h]
  have hown' : ¬(s.ownerOnly i && !x.permitted) = true := by
    cases ho : s.ownerOnly i with
    | false => simp
    | true => simp [hown ho]
  rw [if_neg (by rw [hbad]; decide), if_neg hfatal, if_neg (by rw [show badOpcode { x with instr := some i } i = badOpcode x i from rfl, hop]; decide),
    if_neg (by rw [hload]; decide), if_neg hauth', if_neg hready', if_neg (by rw [hctl]; decide), if_neg hps',
    if_neg (by rw [show s.badNs { x with instr := some i } i = s.badNs x i from rfl, hns]; decide), if_neg hown']
  split
  next k hk =>
    have hrun := hfun k hk
    rw [if_neg (by omega)]
  next => rfl

/-- Settles O46: a row is its run, and a command that passes its checks has its own effect. -/
theorem admittedCommandsArePerformed : Obligations.AdmittedCommandsArePerformed := by
  unfold Obligations.AdmittedCommandsArePerformed
  intro s c x i hi hx hbad hready
  rw [exec_of_nvmeRow s hi, State.run_of_fetched i hx, State.perform_of_ready hbad hready]

/-! ## One command alone -/

theorem State.host_only_trans {s t u : State} (h : t = { s with host := t.host }) (k : u = { t with host := u.host }) : u = { s with host := u.host } := by
  conv => lhs; rw [k, h]

/-- t holds the context of command c alone and no entry of it, and has completed what s has. -/
structure Alone (s t : State) (c : Cmd) : Prop where
  ctxs : ∃ y, t.host.ctxs = [y] ∧ y.assoc = c.assoc ∧ y.qid = c.qid ∧ y.cid = c.cid
  entries : ∀ a : Fin 4, (t.act a).seq.list.any (fun e => e.isOf false c.assoc c.qid c.cid) = false
  completions : t.host.completions = s.host.completions

/-- A change that leaves the host side and the slices leaves the command alone. -/
theorem Alone.of_eq {s t u : State} {c : Cmd} (h : Alone s t c) (hh : u.host = t.host) (ha : u.acts = t.acts) : Alone s u c := by
  obtain ⟨hc, he, hp⟩ := h
  refine ⟨by rw [hh]; exact hc, fun a => ?_, by rw [hh]; exact hp⟩
  rw [State.act, ha]
  exact he a

theorem Alone.event {s t : State} {c : Cmd} (h : Alone s t c) (id d e : Nat) : Alone s (t.event id d e) c :=
  h.of_eq (t.event_only id d e).host (t.event_only id d e).acts

/-- A change of the associations, or of other parts of the host side, leaves the command alone. -/
theorem Alone.modHost {s t : State} {c : Cmd} (h : Alone s t c) (f : HostState → HostState) (hc : (f t.host).ctxs = t.host.ctxs) (hp : (f t.host).completions = t.host.completions) : Alone s (t.modHost f) c := by
  obtain ⟨ac, ae, ap⟩ := h
  exact ⟨hc ▸ ac, ae, hp.trans ap⟩

theorem State.settle_of_nil {s : State} (h : s.host.ctxs = []) : s.settle = s := by
  rw [State.settle, h]
  rfl

/-- With one command that may not go on, none does. -/
theorem State.settle_of_waiting {s : State} {y : Ctx} (h : s.host.ctxs = [y]) (hw : s.mayGoOn y = false) : s.settle = s := by
  have hof : s.ctxOf y = some y := by
    rw [State.ctxOf, h]
    simp
  rw [State.settle, h]
  simp only [List.foldl_cons, List.foldl_nil, hof, hw, Bool.false_eq_true, if_false]

theorem State.fillLocks_of_nil {s : State} (h : s.host.ctxs = []) : s.fillLocks = s := by
  rw [State.fillLocks, HostState.lockQueue, h]
  rfl

theorem State.releaseLock_host {s : State} (h : s.host.ctxs = []) (a q c : Nat) :
    s.releaseLock a q c = { s with host := (s.releaseLock a q c).host } ∧ (s.releaseLock a q c).host.ctxs = [] ∧
      (s.releaseLock a q c).host.completions = s.host.completions := by
  rw [State.releaseLock, State.fillLocks_of_nil (by exact h)]
  exact ⟨rfl, h, rfl⟩

/-- Alone, a command that completes leaves no context, and only the host side changes (R350, R362). -/
theorem Alone.complete {s t : State} {c : Cmd} (h : Alone s t c) (hc : c.assoc < 1024) {x : Ctx} (ha : x.assoc = c.assoc) (hq : x.qid = c.qid)
    (hi : x.cid = c.cid) (r : Status) (dw0 dw1 : Nat) (data : List Byte) (lba n : Nat) :
    (t.complete x r dw0 dw1 data lba n).settle = t.complete x r dw0 dw1 data lba n ∧
      s.Answers (t.complete x r dw0 dw1 data lba n) c r dw0 dw1 data ∧
      t.complete x r dw0 dw1 data lba n = { t with host := (t.complete x r dw0 dw1 data lba n).host } := by
  obtain ⟨⟨y, hy, hya, hyq, hyi⟩, he, hp⟩ := h
  obtain ⟨-, hctxs, hcpl⟩ := State.complete_facts (s := t) (x := x) (by omega) r dw0 dw1 data lba n
  have hnil : (t.complete x r dw0 dw1 data lba n).host.ctxs = [] := by
    rw [hctxs, hy, ha, hq, hi]
    simp [Ctx.is, hya, hyq, hyi]
  refine ⟨State.settle_of_nil hnil, ⟨?_, hnil⟩, ?_⟩
  · rw [hcpl, hp, Ctx.completion, ha, hq, hi]
  · have hpost : t.post (x.completion r dw0 dw1 data) = t.modHost (fun h => { h with completions := h.completions ++ [x.completion r dw0 dw1 data] }) :=
      State.post_of_tcp (show x.assoc < 1024 by omega)
    unfold State.complete
    extract_lets s1 s2
    have h2 : s2 = { t with host := s2.host } ∧ s2.host.ctxs = [y] := by
      have h1 : s1 = t.modHost (fun h => { h with completions := h.completions ++ [x.completion r dw0 dw1 data] }) := hpost
      simp only [s2, h1]
      split
      · exact ⟨rfl, hy⟩
      · exact ⟨rfl, hy⟩
    obtain ⟨h2only, h2ctxs⟩ := h2
    unfold State.dropCtx
    extract_lets s3
    have h3 : s3 = { t with host := s3.host } := State.host_only_trans h2only rfl
    have h3ctxs : s3.host.ctxs = [] := by
      change s2.host.ctxs.filter (fun z => !z.is x.assoc x.qid x.cid) = []
      rw [h2ctxs, ha, hq, hi]
      simp [Ctx.is, hya, hyq, hyi]
    obtain ⟨hrel, -, -⟩ := State.releaseLock_host h3ctxs x.assoc x.qid x.cid
    have hacts : ∀ a : Fin 4, ((s3.releaseLock x.assoc x.qid x.cid).act a).seq.list.any (fun e => e.isOf false x.assoc x.qid x.cid) = false := fun a => by
      rw [hrel, h3, ha, hq, hi]
      exact he a
    rw [State.dropList_of_none hacts]
    exact State.host_only_trans h3 hrel

end Sys2Proof.Machine
end

section
/-! A command alone: how it is taken, turned away, and performed (R350, R363, R403). -/

namespace Sys2Proof.Machine

open Sys2Proof

/-! ## The command is taken -/

/-- h with its contexts, connections and sent packets replaced: what taking a command changes. -/
def HostState.taking (h k : HostState) : HostState := { h with ctxs := k.ctxs, conns := k.conns, sent := k.sent }

theorem State.sendConn_only (s : State) (k level : Nat) (o : NetOut) :
    s.sendConn k level o = { s with host := { s.host with sent := (s.sendConn k level o).host.sent } } := by
  unfold State.sendConn
  split <;> rfl

theorem State.askData_only (s : State) (x : Ctx) (i : Instr) (c : Cmd) :
    s.askData x i c = { s with host := { s.host with conns := (s.askData x i c).host.conns, sent := (s.askData x i c).host.sent } } := by
  unfold State.askData
  extract_lets out
  split
  · split
    · split
      · rfl
      · rw [State.sendConn_only]
        rfl
    · rfl
  · rfl

theorem State.taken_only (s : State) (x : Ctx) (i : Instr) (c : Cmd) : s.taken x i c = { s with host := s.host.taking (s.taken x i c).host } := by
  unfold State.taken
  rw [State.askData_only]
  rfl

theorem State.Only.taken_alone {s : State} {c : Cmd} {x : Ctx} (h : s.Only c x) (i : Instr) :
    Alone s (s.taken x i c) c ∧ (s.taken x i c).host.ctxs = [{ x with instr := some i }] := by
  obtain ⟨hentries, hctxs, -, ha, hq, hi, -, -, -⟩ := h
  have hnew : (s.taken x i c).host.ctxs = [{ x with instr := some i }] := by
    unfold State.taken
    rw [State.askData_only]
    change s.host.ctxs.map _ = _
    rw [hctxs]
    simp [Ctx.is]
  refine ⟨⟨⟨_, hnew, ha, hq, hi⟩, ?_, ?_⟩, hnew⟩
  all_goals rw [s.taken_only x i c]
  · exact hentries
  · rfl

theorem State.Only.fetched {s : State} {c : Cmd} {x : Ctx} (h : s.Only c x) :
    s.host.ctxs.find? (fun y => y.is c.assoc c.qid c.cid && y.wait == .fetched && y.instr.isNone) = some x := by
  obtain ⟨-, hctxs, -, ha, hq, hi, hnone, hwait, -⟩ := h
  rw [hctxs]
  simp [Ctx.is, ha, hq, hi, hnone, hwait]

theorem State.Only.not_bad {s : State} {c : Cmd} {x : Ctx} (h : s.Only c x) : x.bad = false := by
  obtain ⟨-, -, -, -, -, -, -, -, hbad⟩ := h
  exact hbad

/-- The key of the context is that of the command. -/
theorem State.Only.key {s : State} {c : Cmd} {x : Ctx} (h : s.Only c x) : x.assoc = c.assoc ∧ x.qid = c.qid ∧ x.cid = c.cid := by
  obtain ⟨-, -, -, ha, hq, hi, -⟩ := h
  exact ⟨ha, hq, hi⟩

/-- What the checks look at is not changed by taking the command. -/
theorem State.Ready.taken {s : State} {x : Ctx} {i : Instr} (c : Cmd) (h : s.Ready x i) : (s.taken x i c).Ready x i := by
  rw [s.taken_only x i c]
  exact h

theorem State.Only.exec {s : State} {c : Cmd} {x : Ctx} {i : Instr} (h : s.Only c x) (hi : i ∈ nvmeRows c) :
    exec i s = .next ((s.taken x i c).perform { x with instr := some i } i).settle := by
  rw [exec_of_nvmeRow s hi, State.run_of_fetched i h.fetched]

/-- A command alone that passes its checks has its own effect (R363). -/
theorem State.Only.exec_body {s : State} {c : Cmd} {x : Ctx} {i : Instr} (h : s.Only c x) (hi : i ∈ nvmeRows c) (hr : s.Ready x i) :
    Sys2Proof.Machine.exec i s = .next ((s.taken x i c).body { x with instr := some i } i false).settle := by
  rw [h.exec hi, State.perform_of_ready h.not_bad (hr.taken c)]

/-! ## A command alone is answered -/

/-- From s the one command c is answered in state t that it left: what was completed, and that beside t only the host side changes. -/
theorem Alone.answers {s t : State} {c : Cmd} {x : Ctx} (h : Alone s t c) (hc : c.assoc < 1024) (ha : x.assoc = c.assoc) (hq : x.qid = c.qid)
    (hi : x.cid = c.cid) (r : Status) (dw0 dw1 : Nat) (data : List Byte) (lba n : Nat) :
    ∃ u : State, (t.complete x r dw0 dw1 data lba n).settle = u ∧ s.Answers u c r dw0 dw1 data ∧ u = { t with host := u.host } := by
  obtain ⟨hsettle, hans, honly⟩ := h.complete hc ha hq hi r dw0 dw1 data lba n
  exact ⟨_, hsettle, hans, honly⟩

/-- A command alone that fails a check on the way is answered with its status. -/
theorem State.Only.turnedAway {s : State} {c : Cmd} {x : Ctx} {i : Instr} (h : s.Only c x) (hi : i ∈ nvmeRows c) (hc : c.assoc < 1024) (r : Status)
    (hp : (s.taken x i c).perform { x with instr := some i } i = (s.taken x i c).complete { x with instr := some i } r) :
    ∃ t, Sys2Proof.Machine.exec i s = .next t ∧ s.Answers t c r 0 0 [] ∧ t.regs = s.regs ∧ t.media = s.media := by
  obtain ⟨ha, hq, hid⟩ := h.key
  obtain ⟨u, hu, hans, honly⟩ := (h.taken_alone i).1.answers (x := { x with instr := some i }) hc ha hq hid r 0 0 [] 0 0
  refine ⟨u, ?_, hans, ?_, ?_⟩
  · rw [h.exec hi, hp, hu]
  all_goals
    rw [honly, s.taken_only x i c]

/-! ## Turned away -/

section
variable {s : State} {x : Ctx} {i : Instr}

theorem State.perform_of_badOpcode (hbad : x.bad = false) (hf : s.faultState ≠ 3) (hop : badOpcode x i = true) :
    s.perform { x with instr := some i } i = s.complete { x with instr := some i } .opcode := by
  unfold State.perform
  extract_lets auth
  rw [if_neg (by rw [hbad]; decide), if_neg hf, if_pos (show badOpcode { x with instr := some i } i = true from hop)]

/-- The checks up to the readiness of the device (R403). -/
theorem State.perform_of_notReady (hbad : x.bad = false) (hf : s.faultState ≠ 3) (hop : badOpcode x i = false) (hl : s.pln.loader = false)
    (hau : s.flag Adr.HIF_CTRL Fld.HIF_CTRL_auth_req = false) (hr : s.flag Adr.PLN_STATUS Fld.PLN_STATUS_ready = false) (ho : s.onList i = false) :
    s.perform { x with instr := some i } i = s.complete { x with instr := some i } .notReady := by
  unfold State.perform
  extract_lets auth
  rw [if_neg (by rw [hbad]; decide), if_neg hf, if_neg (by rw [show badOpcode { x with instr := some i } i = badOpcode x i from rfl, hop]; decide),
    if_neg (by rw [hl]; decide), if_neg (by simp [hau]), if_pos (by simp [hr, ho])]

/-- The checks of the namespace and of ownership, once the device serves the command (R363). -/
theorem State.perform_of_served (hbad : x.bad = false) (hf : s.faultState ≠ 3) (hop : badOpcode x i = false) (hl : s.pln.loader = false)
    (hau : s.flag Adr.HIF_CTRL Fld.HIF_CTRL_auth_req = false) (hr : s.flag Adr.PLN_STATUS Fld.PLN_STATUS_ready = true)
    (hc : s.restarting 6 = false) (hps : s.ps < 2) (hm : s.psMoving = false) :
    (s.badNs x i = true → s.perform { x with instr := some i } i = s.complete { x with instr := some i } .ns) ∧
      (s.badNs x i = false → s.ownerOnly i = true → x.permitted = false → ∃ t, (t = s ∨ t = s.event 0x640) ∧
        s.perform { x with instr := some i } i = t.complete { x with instr := some i } .notOwner) := by
  have hlt : decide (2 ≤ s.ps) = false := by
    rw [decide_eq_false_iff_not]
    omega
  unfold State.perform
  extract_lets auth
  rw [if_neg (by rw [hbad]; decide), if_neg hf, if_neg (by rw [show badOpcode { x with instr := some i } i = badOpcode x i from rfl, hop]; decide),
    if_neg (by rw [hl]; decide), if_neg (by simp [hau]), if_neg (by simp [hr]), if_neg (by simp [hc]), if_neg (by simp [hlt, hm])]
  refine ⟨fun h => if_pos h, fun h ho hp => ?_⟩
  rw [if_neg (by rw [show s.badNs { x with instr := some i } i = s.badNs x i from rfl, h]; decide), if_pos (by simp [ho, hp])]
  split
  · exact ⟨_, .inr rfl, rfl⟩
  · exact ⟨_, .inl rfl, rfl⟩

end

/-- A command of which the owner alone has the use leaves, beside its answer, at most an event. -/
theorem State.Only.notOwner {s : State} {c : Cmd} {x : Ctx} {i : Instr} (h : s.Only c x) (hi : i ∈ nvmeRows c) (hc : c.assoc < 1024)
    (hp : ∃ t, (t = s.taken x i c ∨ t = (s.taken x i c).event 0x640) ∧
      (s.taken x i c).perform { x with instr := some i } i = t.complete { x with instr := some i } .notOwner) :
    ∃ t, Sys2Proof.Machine.exec i s = .next t ∧ s.Answers t c .notOwner 0 0 [] ∧ s.RegsButEvents [] t ∧ t.media = s.media := by
  obtain ⟨ha, hq, hid⟩ := h.key
  obtain ⟨v, hv, hperf⟩ := hp
  have halone := (h.taken_alone i).1
  have hkeep : Alone s v c ∧ s.RegsButEvents [] v ∧ v.media = s.media := by
    have hself : s.RegsButEvents [] (s.taken x i c) ∧ (s.taken x i c).media = s.media := by
      rw [s.taken_only x i c]
      exact ⟨.refl _ s, rfl⟩
    obtain ⟨hregs, hmedia⟩ := hself
    rcases hv with rfl | rfl
    · exact ⟨halone, hregs, hmedia⟩
    · exact ⟨halone.event _ _ _, hregs.event _ _ _, (State.event_only _ _ _ _).media.trans hmedia⟩
  obtain ⟨hav, hregs, hmedia⟩ := hkeep
  obtain ⟨u, hu, hans, honly⟩ := hav.answers (x := { x with instr := some i }) hc ha hq hid .notOwner 0 0 [] 0 0
  refine ⟨u, ?_, hans, ?_, ?_⟩
  · rw [h.exec hi, hperf, hu]
  · rw [honly]
    exact hregs
  · rw [honly]
    exact hmedia

/-- Settles O47: each check turns the command away with its status. -/
theorem commandsTurnedAway : Obligations.CommandsTurnedAway := by
  unfold Obligations.CommandsTurnedAway
  intro s c x i hi h hc hf hl hau
  have hbad := h.not_bad
  have htaken := s.taken_only x i c
  have hf' : (s.taken x i c).faultState ≠ 3 := by
    rw [htaken]
    exact hf
  have hl' : (s.taken x i c).pln.loader = false := by
    rw [htaken]
    exact hl
  have hau' : (s.taken x i c).flag Adr.HIF_CTRL Fld.HIF_CTRL_auth_req = false := by
    rw [htaken]
    exact hau
  refine ⟨fun hop => h.turnedAway hi hc _ (State.perform_of_badOpcode hbad hf' hop), fun hop hr ho => ?_, fun hop hr hctl hps hm => ?_⟩
  · refine h.turnedAway hi hc _ (State.perform_of_notReady hbad hf' hop hl' hau' ?_ ?_)
    all_goals rw [htaken]
    · exact hr
    · exact ho
  · obtain ⟨hns, hown⟩ := State.perform_of_served (s := s.taken x i c) (x := x) (i := i) hbad hf' hop hl' hau' (by rw [htaken]; exact hr)
      (by rw [htaken]; exact hctl) (by rw [htaken]; exact hps) (by rw [htaken]; exact hm)
    exact ⟨fun hn => h.turnedAway hi hc _ (hns (by rw [htaken]; exact hn)), fun hn ho hp => h.notOwner hi hc (hown (by rw [htaken]; exact hn)
      (by rw [htaken]; exact ho) hp)⟩

end Sys2Proof.Machine
end

section
/-! What the admin commands that read or acknowledge answer (R364, R367, R372, R383, R385, R392, R393). -/

namespace Sys2Proof.Machine

open Sys2Proof

/-- A command alone whose effect is to change the device to v and complete. -/
theorem State.Only.answered {s v : State} {c : Cmd} {x : Ctx} {i : Instr} (h : s.Only c x) (hi : i ∈ nvmeRows c) (hc : c.assoc < 1024) (hr : s.Ready x i)
    (hv : Alone s v c) {r : Status} {dw0 dw1 : Nat} {data : List Byte} {lba n : Nat}
    (hb : (s.taken x i c).body { x with instr := some i } i false = v.complete { x with instr := some i } r dw0 dw1 data lba n) :
    ∃ t, Sys2Proof.Machine.exec i s = .next t ∧ s.Answers t c r dw0 dw1 data ∧ t = { v with host := t.host } := by
  obtain ⟨ha, hq, hid⟩ := h.key
  obtain ⟨u, hu, hans, honly⟩ := hv.answers (x := { x with instr := some i }) hc ha hq hid r dw0 dw1 data lba n
  exact ⟨u, by rw [h.exec_body hi hr, hb, hu], hans, honly⟩

/-- A command alone whose effect is to complete: beside its answer nothing changes. -/
theorem State.Only.answered_only {s : State} {c : Cmd} {x : Ctx} {i : Instr} (h : s.Only c x) (hi : i ∈ nvmeRows c) (hc : c.assoc < 1024)
    (hr : s.Ready x i) {r : Status} {dw0 dw1 : Nat} {data : List Byte} {lba n : Nat}
    (hb : (s.taken x i c).body { x with instr := some i } i false = (s.taken x i c).complete { x with instr := some i } r dw0 dw1 data lba n) :
    ∃ t, Sys2Proof.Machine.exec i s = .next t ∧ s.Answers t c r dw0 dw1 data ∧ t = { s with host := t.host } := by
  obtain ⟨t, ht, hans, honly⟩ := h.answered hi hc hr (h.taken_alone i).1 hb
  refine ⟨t, ht, hans, State.host_only_trans (t := s.taken x i c) ?_ honly⟩
  rw [s.taken_only x i c]

theorem State.assoc_taken (s : State) (x : Ctx) (i : Instr) (c : Cmd) (a : Nat) : (s.taken x i c).assoc a = s.assoc a := by
  rw [s.taken_only x i c]
  rfl

section
variable {s : State} {c : Cmd} {x : Ctx}

theorem identify_answer (h : s.Only c x) (hc : c.assoc < 1024) {d : List Byte} (hr : s.Ready x (.identify c)) (hd : s.identifyData c.assoc c = .ok d) :
    ∃ t, exec (.identify c) s = .next t ∧ s.Answers t c .ok 0 0 d ∧ t = { s with host := t.host } := by
  refine h.answered_only (by simp [nvmeRows]) hc hr (lba := 0) (n := 0) ?_
  have hdata : (s.taken x (.identify c) c).identifyData x.assoc c = .ok d := by
    rw [h.key.1, s.taken_only x (.identify c) c]
    exact hd
  change State.completeWith _ _ (State.identifyData _ x.assoc c) = _
  rw [hdata]
  rfl

theorem getLogPage_answer (h : s.Only c x) (hc : c.assoc < 1024) {d : List Byte} (hr : s.Ready x (.getLogPage c))
    (hd : (s.taken x (.getLogPage c) c).logData c = .ok d) :
    ∃ t, exec (.getLogPage c) s = .next t ∧ s.Answers t c .ok 0 0 d ∧ t = { s with host := t.host } := by
  refine h.answered_only (by simp [nvmeRows]) hc hr (lba := 0) (n := 0) ?_
  change State.completeWith _ _ (State.logData _ c) = _
  rw [hd]
  rfl

theorem getFeatures_answer (h : s.Only c x) (hc : c.assoc < 1024) {v : Nat} {d : List Byte} (hr : s.Ready x (.getFeatures c))
    (hd : s.featureData c.assoc c = .ok (v, d)) :
    ∃ t, exec (.getFeatures c) s = .next t ∧ s.Answers t c .ok v 0 d ∧ t = { s with host := t.host } := by
  refine h.answered_only (by simp [nvmeRows]) hc hr (lba := 0) (n := 0) ?_
  have hdata : (s.taken x (.getFeatures c) c).featureData x.assoc c = .ok (v, d) := by
    rw [h.key.1, s.taken_only x (.getFeatures c) c]
    exact hd
  change State.bodyGetFeatures _ _ c = _
  unfold State.bodyGetFeatures
  dsimp only
  rw [hdata]

/-- A request with a kept notice completes with it (R364). -/
theorem aer_answer (h : s.Only c x) (hc : c.assoc < 1024) {y : Assoc} (hr : s.Ready x (.asynchronousEventRequest c)) (hy : s.assoc c.assoc = some y)
    {n : Nat} {r : List Nat} (hn : y.aers = n :: r) :
    ∃ t, exec (.asynchronousEventRequest c) s = .next t ∧ s.Answers t c .ok n 0 [] ∧ t = { s with host := t.host } := by
  have hv : Alone s ((s.taken x (.asynchronousEventRequest c) c).modAssoc x.assoc (fun y => { y with aers := r })) c :=
    (h.taken_alone (.asynchronousEventRequest c)).1.modHost _ rfl rfl
  obtain ⟨t, ht, hans, honly⟩ := h.answered (by simp [nvmeRows]) hc hr hv (r := .ok) (dw0 := n) (dw1 := 0) (data := []) (lba := 0) (n := 0) (by
    have hassoc : (s.taken x (.asynchronousEventRequest c) c).assoc x.assoc = some y := by
      rw [State.assoc_taken, h.key.1, hy]
    change State.bodyAer _ _ = _
    simp only [State.bodyAer, hassoc, hn])
  refine ⟨t, ht, hans, State.host_only_trans (t := (s.taken x (.asynchronousEventRequest c) c).modAssoc x.assoc (fun y => { y with aers := r })) ?_ honly⟩
  rw [s.taken_only x _ c]
  rfl

/-- A request without one waits for a notice (R364). -/
theorem aer_waits (h : s.Only c x) {y : Assoc} (hr : s.Ready x (.asynchronousEventRequest c)) (hy : s.assoc c.assoc = some y) (hn : y.aers = []) :
    ∃ t, exec (.asynchronousEventRequest c) s = .next t ∧ s.Waits t c .asyncEvent ∧ t = { s with host := t.host } := by
  obtain ⟨halone, hctxs⟩ := h.taken_alone (.asynchronousEventRequest c)
  obtain ⟨ha, hq, hi⟩ := h.key
  have hwait : x.wait = .fetched := by
    obtain ⟨-, -, -, -, -, -, -, hw, -⟩ := h
    exact hw
  have hbody : (s.taken x (.asynchronousEventRequest c) c).body { x with instr := some (.asynchronousEventRequest c) } (.asynchronousEventRequest c) false =
      (s.taken x (.asynchronousEventRequest c) c).waitFor { x with instr := some (.asynchronousEventRequest c) } .asyncEvent := by
    have hassoc : (s.taken x (.asynchronousEventRequest c) c).assoc x.assoc = some y := by
      rw [State.assoc_taken, ha, hy]
    change State.bodyAer _ _ = _
    simp only [State.bodyAer, hassoc, hn, hctxs]
    refine if_neg ?_
    simp [hwait]
  have hnew : ((s.taken x (.asynchronousEventRequest c) c).waitFor { x with instr := some (.asynchronousEventRequest c) } .asyncEvent).host.ctxs =
      [{ x with
        instr := some (.asynchronousEventRequest c), wait := .asyncEvent, since := (s.taken x (.asynchronousEventRequest c) c).now
        delayed := x.delayed || Wait.asyncEvent.delays }] := by
    change (s.taken x (.asynchronousEventRequest c) c).host.ctxs.map _ = _
    rw [hctxs]
    simp [Ctx.is]
  refine ⟨_, ?_, ⟨?_, _, hnew, ha, hq, hi, rfl⟩, ?_⟩
  · rw [h.exec_body (by simp [nvmeRows]) hr, hbody, State.settle_of_waiting hnew rfl]
  · exact halone.completions
  · rw [s.taken_only x _ c]
    rfl

theorem constellationStatus_answer (h : s.Only c x) (hc : c.assoc < 1024) (hr : s.Ready x (.constellationStatus c)) (h10 : c.cdw10 = 0)
    (hz : restZero c = true) (hd : dataOk c 64 = true) : ∃ t, exec (.constellationStatus c) s = .next t ∧
      s.Answers t c .ok 0 0 (s.taken x (.constellationStatus c) c).constellation ∧ t = { s with host := t.host } := by
  refine h.answered_only (by simp [nvmeRows]) hc hr (lba := 0) (n := 0) ?_
  exact if_neg (by simp [h10, hz, hd])

theorem readPatina_answer (h : s.Only c x) (hc : c.assoc < 1024) (hr : s.Ready x (.readPatina c)) (h0 : 0 < c.cdw10.toNat) (h4 : c.cdw10.toNat ≤ 4096)
    (hs : c.cdw11.toNat < 4096) (hz : restZero12 c = true) (hd : dataOk c (c.cdw10.toNat * 256) = true) :
    ∃ t, exec (.readPatina c) s = .next t ∧ s.Answers t c .ok ((s.patSorted.drop c.cdw11.toNat).take c.cdw10.toNat).length s.nor.patCount
      (((s.patSorted.drop c.cdw11.toNat).take c.cdw10.toNat).flatMap (fun e => e.bytes)) ∧ t = { s with host := t.host } := by
  have hwait : x.wait = .fetched := by
    obtain ⟨-, -, -, -, -, -, -, hw, -⟩ := h
    exact hw
  refine h.answered_only (by simp [nvmeRows]) hc hr (lba := 0) (n := 0) ?_
  have hno : ¬(c.cdw10.toNat = 0 ∨ 4096 < c.cdw10.toNat ∨ 4096 ≤ c.cdw11.toNat ∨ (!restZero12 c) = true ∨ (!dataOk c (c.cdw10.toNat * 256)) = true) := by
    simp only [hz, hd, Bool.not_true, Bool.false_eq_true, or_false]
    omega
  have hpats : (s.taken x (.readPatina c) c).patSorted = s.patSorted := by
    rw [s.taken_only x _ c]
    rfl
  have hcount : (s.taken x (.readPatina c) c).nor = s.nor := by
    rw [s.taken_only x _ c]
  change State.bodyReadPatina _ _ c = _
  unfold State.bodyReadPatina
  extract_lets n start l
  rw [if_neg hno]
  simp only [l, hwait, if_true, hpats, hcount, n, start]

/-- In unlocked mode every entry goes, and nothing is recorded (R457). -/
theorem clearPatina_answer (h : s.Only c x) (hc : c.assoc < 1024) (hr : s.Ready x (.clearPatina c)) (hl : s.nor.patLocked = false) (h11 : c.cdw11 = 0)
    (hz : restZero12 c = true) (hd : dataOk c 0 = true) : ∃ t, exec (.clearPatina c) s = .next t ∧ s.Answers t c .ok 0 0 [] ∧
      t.pat.store = [] ∧ t.nor.patJournal = [] ∧ s.RegsBut [Adr.PAT_DROP] t ∧ t.media = s.media := by
  have hlock : (s.taken x (.clearPatina c) c).nor.patLocked = false := by
    rw [s.taken_only x _ c]
    exact hl
  have hclear : (s.taken x (.clearPatina c) c).clearPatina x.assoc = ({ s.taken x (.clearPatina c) c with
      pat := { (s.taken x (.clearPatina c) c).pat with store := [], unjournalled := [] }
      nor := { (s.taken x (.clearPatina c) c).nor with
        patJournal := [], patHigh := (s.taken x (.clearPatina c) c).nor.patCount } } : State).setReg Adr.PAT_DROP 0 := if_neg (by
    rw [hlock]
    exact Bool.false_ne_true)
  have hv : Alone s ((s.taken x (.clearPatina c) c).clearPatina x.assoc) c := by
    rw [hclear]
    exact (h.taken_alone (.clearPatina c)).1.of_eq rfl rfl
  obtain ⟨t, ht, hans, honly⟩ := h.answered (by simp [nvmeRows]) hc hr hv (r := .ok) (dw0 := 0) (dw1 := 0) (data := []) (lba := 0) (n := 0) (by
    change State.bodyClearPatina _ _ c = _
    unfold State.bodyClearPatina
    rw [if_neg (by simp [h11, hz, hd]), if_neg (by simp [hlock])])
  rw [hclear] at honly
  refine ⟨t, ht, hans, by rw [honly]; rfl, by rw [honly]; rfl, ?_, ?_⟩
  · rw [honly, s.taken_only x _ c]
    exact (State.RegsBut.refl _ s).setReg _ (by simp)
  · rw [honly, s.taken_only x _ c]
    rfl

end

/-- Settles O49: each admin command answers from its body. -/
theorem adminAnswers : Obligations.AdminAnswers := by
  unfold Obligations.AdminAnswers
  intro s c x h hc
  refine ⟨fun hr => h.answered_only (by simp [nvmeRows]) hc hr (lba := 0) (n := 0) rfl, fun hr => h.answered_only (by simp [nvmeRows]) hc hr (lba := 0) (n := 0) rfl,
    fun hr h0 => ?_, fun hr h1 => ?_, fun d hr hd => identify_answer h hc hr hd, fun d hr hd => getLogPage_answer h hc hr hd,
    fun v d hr hd => getFeatures_answer h hc hr hd, fun y hr hy => ⟨aer_waits h hr hy, fun n r hn => aer_answer h hc hr hy hn⟩,
    constellationStatus_answer h hc, readPatina_answer h hc, clearPatina_answer h hc⟩
  all_goals
    refine h.answered_only (by simp [nvmeRows]) hc hr (lba := 0) (n := 0) ?_
    have hspace : (lookupKey (s.taken x (.namespaceAttachment c) c).spaces c.nsid.toNat).isNone = false := by
      obtain ⟨-, -, -, -, -, -, -, hns, -⟩ := hr
      rw [s.taken_only x _ c]
      exact hns
    change State.bodyNsAttachment _ _ c = _
    rw [State.bodyNsAttachment, if_neg (by rw [hspace]; exact Bool.false_ne_true)]
  · rw [if_pos h0]
  · rw [if_neg (by omega)]

end Sys2Proof.Machine
end

section
/-! Claim and Yield Ownership (R354 to R356), and the Fabrics commands (R339, R340). -/

namespace Sys2Proof.Machine

open Sys2Proof

theorem HostWork.assoc {s t : State} (h : HostWork s t) (a : Nat) : t.assoc a = s.assoc a := by
  rw [State.assoc, h.host]
  rfl

/-- A command alone that completes leaves the associations as its body left them. -/
theorem State.Only.answered_assocs {s v : State} {c : Cmd} {x : Ctx} {i : Instr} (h : s.Only c x) (hi : i ∈ nvmeRows c) (hc : c.assoc < 1024)
    (hr : s.Ready x i) (hv : Alone s v c) {r : Status} {dw0 dw1 : Nat} {data : List Byte} {lba n : Nat}
    (hb : (s.taken x i c).body { x with instr := some i } i false = v.complete { x with instr := some i } r dw0 dw1 data lba n) :
    ∃ t, Sys2Proof.Machine.exec i s = .next t ∧ s.Answers t c r dw0 dw1 data ∧ t = { v with host := t.host } ∧ ∀ a, t.assoc a = v.assoc a := by
  obtain ⟨ha, hq, hid⟩ := h.key
  obtain ⟨hsettle, hans, honly⟩ := hv.complete (x := { x with instr := some i }) hc ha hq hid r dw0 dw1 data lba n
  obtain ⟨hwork, -, -⟩ := State.complete_facts (s := v) (x := { x with instr := some i }) (show x.assoc < 1024 by omega) r dw0 dw1 data lba n
  refine ⟨_, by rw [h.exec_body hi hr, hb, hsettle], hans, honly, hwork.assoc⟩

/-! ## Ownership that moves -/

/-- A step on every k of a list of which none does anything does nothing. -/
theorem foldl_of_fixed {α : Type} {f : State → α → State} {l : List α} {s : State} (h : ∀ k ∈ l, f s k = s) : l.foldl f s = s := by
  induction l with
  | nil => rfl
  | cons k l ih =>
    rw [List.foldl_cons, h k (List.mem_cons_self ..)]
    exact ih fun j hj => h j (List.mem_cons_of_mem _ hj)

theorem State.revertAll_of_none {s : State} (h : s.NoneStopped) : s.revertAll = s := by
  refine foldl_of_fixed fun k hk => ?_
  have hs := h k (List.mem_range.1 hk)
  exact if_neg (by omega)

/-- What every step of a list keeps, the list keeps. -/
theorem foldl_induct {α : Type} {P : State → Prop} {f : State → α → State} {l : List α} (hstep : ∀ t, ∀ k ∈ l, P t → P (f t k)) {s : State} (h : P s) :
    P (l.foldl f s) := by
  induction l generalizing s with
  | nil => exact h
  | cons k l ih => exact ih (fun t j hj => hstep t j (List.mem_cons_of_mem _ hj)) (hstep s k (List.mem_cons_self ..) h)

/-- From s to t only alarm comparators are released. -/
structure AlarmsFreed (s t : State) : Prop where
  rest : t = { s with regs := t.regs }
  regs : ∀ r, (∀ k < 8, r ≠ Adr.TMB_ALM_CTL k) → t.reg r = s.reg r

theorem AlarmsFreed.setHolder {s t : State} (h : AlarmsFreed s t) {k : Nat} (hk : k < 8) (v : Nat) :
    AlarmsFreed s (t.setFld (Adr.TMB_ALM_CTL k) Fld.TMB_ALM_CTL_holder v) := by
  refine ⟨?_, fun r hr => (t.reg_setFld_other _ _ (hr k hk)).trans (h.regs r hr)⟩
  conv => lhs; rw [h.rest]
  rfl

theorem State.releaseOwnerAlarms_freed (s : State) : AlarmsFreed s s.releaseOwnerAlarms := by
  refine foldl_induct (P := AlarmsFreed s) (fun t k hk ht => ?_) ⟨rfl, fun _ _ => rfl⟩
  split
  · exact ht.setHolder (List.mem_range.1 hk) _
  · exact ht

theorem AlarmsFreed.fld {s t : State} (h : AlarmsFreed s t) {r : Nat} (f : Fld) (hr : ∀ k < 8, r ≠ Adr.TMB_ALM_CTL k) : t.fld r f = s.fld r f := by
  rw [State.fld, h.regs r hr, State.fld]

theorem ownStatus_ne_alarm : ∀ k < 8, Adr.OWN_STATUS ≠ Adr.TMB_ALM_CTL k := by decide

theorem funcCtrl_ne_alarm {j : Nat} (hj : j < 15) : ∀ k < 8, Adr.FUNC_CTRL j ≠ Adr.TMB_ALM_CTL k := by
  intro k hk
  simp only [Adr.FUNC_CTRL, Adr.TMB_ALM_CTL]
  omega

theorem State.NoneStopped.congr {s t : State} (h : s.NoneStopped) (ht : ∀ k, k < 15 → t.fstate k = s.fstate k) : t.NoneStopped := fun k hk => by
  rw [ht k hk]
  exact h k hk

/-- With no function stopped a change of ownership releases the owner's comparators and nothing else (R357). -/
theorem State.ownershipMoved_freed {s : State} (h : s.NoneStopped) : AlarmsFreed s s.ownershipMoved := by
  have hfreed := s.releaseOwnerAlarms_freed
  rw [State.ownershipMoved, State.revertAll_of_none (h.congr fun k hk => hfreed.fld _ (funcCtrl_ne_alarm hk))]
  exact hfreed

/-! ## Claim and Yield -/

/-- A register outside the ownership block and the events keeps what it held through a change of ownership. -/
theorem funcCtrl_apart {k : Nat} (hk : k < 15) : Adr.FUNC_CTRL k ≠ Adr.OWN_STATUS ∧ Adr.FUNC_CTRL k ≠ Adr.OWN_CNT ∧
    ¬((0x5000000 ≤ Adr.FUNC_CTRL k ∧ Adr.FUNC_CTRL k < 0x5101000) ∨ Adr.FUNC_CTRL k = Adr.ECC_MODE) := by
  have hall : ∀ j < 15, Adr.FUNC_CTRL j ≠ Adr.OWN_STATUS ∧ Adr.FUNC_CTRL j ≠ Adr.OWN_CNT ∧
    ¬((0x5000000 ≤ Adr.FUNC_CTRL j ∧ Adr.FUNC_CTRL j < 0x5101000) ∨ Adr.FUNC_CTRL j = Adr.ECC_MODE) := by decide
  exact hall k hk

/-- A claim that is granted, before its completion (R354). -/
def State.claimGranted (s : State) (x : Ctx) : State :=
  ((((s.setOwner 1 x.assoc).leaseFrom x).ownCount Fld.OWN_CNT_claims).event 0x680).ownershipMoved

/-- From s to t ownership moves: what is kept is the host side, the slices and the medium. -/
structure OwnerMoves (s t : State) : Prop where
  host : t.host = s.host
  acts : t.acts = s.acts
  media : t.media = s.media

theorem OwnerMoves.of_freed {s t u : State} (h : OwnerMoves s t) (k : AlarmsFreed t u) : OwnerMoves s u := by
  refine ⟨Eq.trans ?_ h.host, Eq.trans ?_ h.acts, Eq.trans ?_ h.media⟩
  all_goals rw [k.rest]

theorem OwnerMoves.event {s t : State} (h : OwnerMoves s t) (id d e : Nat) : OwnerMoves s (t.event id d e) :=
  have k := t.event_only id d e
  ⟨k.host.trans h.host, k.acts.trans h.acts, k.media.trans h.media⟩

theorem OwnerMoves.setFld {s t : State} (h : OwnerMoves s t) (r : Nat) (f : Fld) (v : Nat) : OwnerMoves s (t.setFld r f v) :=
  ⟨(t.setFld_host r f v).trans h.host, (t.setFld_acts r f v).trans h.acts, (t.setFld_media r f v).trans h.media⟩

theorem OwnerMoves.leaseFrom {s t : State} (h : OwnerMoves s t) (x : Ctx) : OwnerMoves s (t.leaseFrom x) := by
  obtain ⟨o, ho⟩ : ∃ o, t.leaseFrom x = { t with own := o } := ⟨_, rfl⟩
  rw [ho]
  exact ⟨h.host, h.acts, h.media⟩

theorem State.fld_leaseFrom (s : State) (x : Ctx) (r : Nat) (f : Fld) : (s.leaseFrom x).fld r f = s.fld r f := by
  obtain ⟨o, ho⟩ : ∃ o, s.leaseFrom x = { s with own := o } := ⟨_, rfl⟩
  rw [ho]
  rfl

theorem State.claimGranted_facts {s : State} {x : Ctx} (h : s.NoneStopped) (hx : x.assoc < 1024) :
    OwnerMoves s (s.claimGranted x) ∧ (s.claimGranted x).ownState = 1 ∧ (s.claimGranted x).fld Adr.OWN_STATUS Fld.OWN_STATUS_owner = x.assoc := by
  have hmoved : AlarmsFreed ((((s.setOwner 1 x.assoc).leaseFrom x).ownCount Fld.OWN_CNT_claims).event 0x680) (s.claimGranted x) := by
    refine State.ownershipMoved_freed (h.congr fun k hk => ?_)
    obtain ⟨hs, hc, he⟩ := funcCtrl_apart hk
    rw [State.fstate, State.fld_event _ _ _ _ _ he, State.ownCount, State.countFld, State.fld_setFld_ne _ _ _ _ hc, State.fld_leaseFrom]
    exact (State.fld_setFld_ne _ _ _ _ hs).trans (State.fld_setFld_ne _ _ _ _ hs)
  refine ⟨(((((⟨rfl, rfl, rfl⟩ : OwnerMoves s s).setFld _ _ _).setFld _ _ _).leaseFrom x).setFld _ _ _).event _ _ _ |>.of_freed hmoved, ?_, ?_⟩
  · rw [State.ownState, hmoved.fld _ ownStatus_ne_alarm, State.fld_event _ _ _ _ _ (by decide), State.ownCount, State.countFld,
      State.fld_setFld_ne _ _ _ _ (by decide), State.fld_leaseFrom]
    exact (State.fld_setFld_apart _ _ _ _ _ (by decide) (by decide)).trans (State.fld_setFld_eq _ _ _ _ (by decide))
  · rw [hmoved.fld _ ownStatus_ne_alarm, State.fld_event _ _ _ _ _ (by decide), State.ownCount, State.countFld,
      State.fld_setFld_ne _ _ _ _ (by decide), State.fld_leaseFrom]
    exact (State.fld_setFld_eq _ _ _ _ (by decide)).trans (Nat.mod_eq_of_lt (Nat.lt_of_lt_of_le hx (by decide)))

theorem State.isOwner_of_ne {s : State} {a : Nat} (h : s.ownState ≠ 1) : s.isOwner a = false := by
  rw [State.isOwner, Bool.and_eq_false_iff]
  exact .inl (by simpa [State.ownState] using h)

theorem State.endOwn_of_vacant {s : State} (h : s.ownState = 0) : s.endOwn = s := by
  unfold State.endOwn
  rw [h]
  simp

theorem State.endOwn_of_running {s : State} (h : s.now < s.own.endsAt) : s.endOwn = s := by
  have hover : s.ownOver = false := by
    rw [State.ownOver, Bool.and_eq_false_iff, decide_eq_false_iff_not]
    exact .inr (by omega)
  exact if_pos (by rw [hover]; rfl)

/-- A claim of a vacant device by an authenticated association is granted (R354). -/
theorem State.bodyClaim_of_vacant {s : State} {x : Ctx} {c : Cmd} (h10 : c.cdw10 = 0) (hz : restZero c = true) (hd : dataOk c 0 = true)
    (ha : s.authed x.assoc = true) (ho : s.ownState = 0) :
    s.bodyClaim x c = (s.claimGranted x).complete x .ok (s.fld Adr.OWN_LEASE Fld.OWN_LEASE_lease_s) := by
  have hown : s.isOwner x.assoc = false := State.isOwner_of_ne (by omega)
  rw [State.bodyClaim, State.endOwn_of_vacant ho]
  unfold State.decideClaim
  extract_lets lease nqn refuse
  rw [if_neg (by simp [h10, hz, hd]), if_neg (by simp [ha]), if_neg (by simp [hown]), if_neg (by omega)]
  rfl

/-- A claim of a device that another holds is refused, and counted (R354). -/
theorem State.bodyClaim_of_held {s : State} {x : Ctx} {c : Cmd} (h10 : c.cdw10 = 0) (hz : restZero c = true) (hd : dataOk c 0 = true)
    (ha : s.authed x.assoc = true) (ho : s.ownState = 1) (hown : s.isOwner x.assoc = false) (hrun : s.now < s.own.endsAt) :
    s.bodyClaim x c = (s.ownCount Fld.OWN_CNT_refused).complete x (.vendor 0x81) := by
  rw [State.bodyClaim, State.endOwn_of_running hrun]
  unfold State.decideClaim
  extract_lets lease nqn refuse
  rw [if_neg (by simp [h10, hz, hd]), if_neg (by simp [ha]), if_neg (by simp [hown]), if_pos (.inl ho)]

/-- A yield by the owner without a successor leaves the device vacant, before its completion (R356). -/
def State.yielded (s : State) : State := (((s.event 0x681).ownCount Fld.OWN_CNT_yields).setOwner 0 0x7FF).ownershipMoved

theorem State.yielded_facts {s : State} (h : s.NoneStopped) : OwnerMoves s s.yielded ∧ s.yielded.ownState = 0 := by
  have hmoved : AlarmsFreed (((s.event 0x681).ownCount Fld.OWN_CNT_yields).setOwner 0 0x7FF) s.yielded := by
    refine State.ownershipMoved_freed (h.congr fun k hk => ?_)
    obtain ⟨hs, hc, he⟩ := funcCtrl_apart hk
    rw [State.fstate, State.setOwner, State.fld_setFld_ne _ _ _ _ hs, State.fld_setFld_ne _ _ _ _ hs, State.ownCount, State.countFld,
      State.fld_setFld_ne _ _ _ _ hc, State.fld_event _ _ _ _ _ he]
    rfl
  refine ⟨((((⟨rfl, rfl, rfl⟩ : OwnerMoves s s).event _ _ _).setFld _ _ _).setFld _ _ _).setFld _ _ _ |>.of_freed hmoved, ?_⟩
  rw [State.ownState, hmoved.fld _ ownStatus_ne_alarm]
  exact (State.fld_setFld_apart _ _ _ _ _ (by decide) (by decide)).trans (State.fld_setFld_eq _ _ _ _ (by decide))

theorem State.bodyYield_of_owner {s : State} {x : Ctx} {c : Cmd} (h10 : c.cdw10 = 0) (hz : restZero c = true) (hd : dataOk c 0 = true)
    (ho : s.isOwner x.assoc = true) : s.bodyYield x c = s.yielded.complete x .ok := by
  unfold State.bodyYield
  extract_lets succ nqn s1 s2 s3
  have hsucc : succ = false := by
    simp only [succ, h10]
    rfl
  have hs3 : s3 = s1.setOwner 0 0x7FF := if_neg (by simp [hsucc])
  rw [if_neg (by simp [h10, hz, hd, hsucc]), if_neg (by simp [ho]), hs3]
  rfl

theorem State.bodyYield_of_other {s : State} {x : Ctx} {c : Cmd} (h10 : c.cdw10 = 0) (hz : restZero c = true) (hd : dataOk c 0 = true)
    (ho : s.isOwner x.assoc = false) : s.bodyYield x c = s.complete x .ok := by
  unfold State.bodyYield
  extract_lets succ nqn s1 s2
  have hsucc : succ = false := by
    simp only [succ, h10]
    rfl
  rw [if_neg (by simp [h10, hz, hd, hsucc]), if_pos (by simp [ho])]

section
variable {s : State} {c : Cmd} {x : Ctx}

theorem claim_granted (h : s.Only c x) (hc : c.assoc < 1024) (h10 : c.cdw10 = 0) (hz : restZero c = true) (hd : dataOk c 0 = true) (hn : s.NoneStopped)
    (hr : s.Ready x (.claimOwnership c)) (ha : s.authed c.assoc = true) (ho : s.ownState = 0) : ∃ t, exec (.claimOwnership c) s = .next t ∧
      s.Answers t c .ok (s.fld Adr.OWN_LEASE Fld.OWN_LEASE_lease_s) 0 [] ∧ t.ownState = 1 ∧
      t.fld Adr.OWN_STATUS Fld.OWN_STATUS_owner = c.assoc ∧ t.media = s.media := by
  have htaken := s.taken_only x (.claimOwnership c) c
  obtain ⟨hkey, -, -⟩ := h.key
  obtain ⟨hmoves, hstate, howner⟩ := State.claimGranted_facts (s := s.taken x (.claimOwnership c) c)
    (x := { x with instr := some (.claimOwnership c) }) (by rw [htaken]; exact hn) (show x.assoc < 1024 by omega)
  have hbody : (s.taken x (.claimOwnership c) c).bodyClaim { x with instr := some (.claimOwnership c) } c = _ :=
    State.bodyClaim_of_vacant h10 hz hd (by rw [htaken, hkey]; exact ha) (by rw [htaken]; exact ho)
  obtain ⟨t, ht, hans, honly⟩ := h.answered (by simp [nvmeRows]) hc hr ((h.taken_alone (.claimOwnership c)).1.of_eq hmoves.host hmoves.acts) hbody
  have hlease : (s.taken x (.claimOwnership c) c).fld Adr.OWN_LEASE Fld.OWN_LEASE_lease_s = s.fld Adr.OWN_LEASE Fld.OWN_LEASE_lease_s := by
    rw [htaken]
    rfl
  rw [hlease] at hans
  refine ⟨t, ht, hans, ?_, ?_, ?_⟩
  · rw [honly]
    exact hstate
  · rw [honly]
    exact howner.trans hkey
  · rw [honly]
    refine hmoves.media.trans ?_
    rw [htaken]

theorem claim_refused (h : s.Only c x) (hc : c.assoc < 1024) (h10 : c.cdw10 = 0) (hz : restZero c = true) (hd : dataOk c 0 = true)
    (hr : s.Ready x (.claimOwnership c)) (ha : s.authed c.assoc = true) (ho : s.ownState = 1) (hown : s.isOwner c.assoc = false)
    (hrun : s.now < s.own.endsAt) : ∃ t, exec (.claimOwnership c) s = .next t ∧ s.Answers t c (.vendor 0x81) 0 0 [] ∧
      s.RegsBut [Adr.OWN_CNT] t ∧ t = { s with regs := t.regs, host := t.host } := by
  have htaken := s.taken_only x (.claimOwnership c) c
  obtain ⟨hkey, -, -⟩ := h.key
  have hbody : (s.taken x (.claimOwnership c) c).bodyClaim { x with instr := some (.claimOwnership c) } c = _ :=
    State.bodyClaim_of_held h10 hz hd (by rw [htaken, hkey]; exact ha) (by rw [htaken]; exact ho) (by rw [htaken, hkey]; exact hown)
      (by rw [htaken]; exact hrun)
  obtain ⟨t, ht, hans, honly⟩ := h.answered (by simp [nvmeRows]) hc hr ((h.taken_alone (.claimOwnership c)).1.of_eq (State.countFld_host _ _ _) (State.countFld_acts _ _ _)) hbody
  refine ⟨t, ht, hans, ?_, ?_⟩
  · rw [honly, htaken]
    exact (State.RegsBut.refl _ s).setFld _ _ (by simp)
  · conv => lhs; rw [honly, htaken]
    rw [honly, htaken]
    rfl

theorem yield_owner (h : s.Only c x) (hc : c.assoc < 1024) (h10 : c.cdw10 = 0) (hz : restZero c = true) (hd : dataOk c 0 = true) (hn : s.NoneStopped)
    (hr : s.Ready x (.yieldOwnership c)) (hown : s.isOwner c.assoc = true) :
    ∃ t, exec (.yieldOwnership c) s = .next t ∧ s.Answers t c .ok 0 0 [] ∧ t.ownState = 0 ∧ t.media = s.media := by
  have htaken := s.taken_only x (.yieldOwnership c) c
  obtain ⟨hkey, -, -⟩ := h.key
  obtain ⟨hmoves, hstate⟩ := State.yielded_facts (s := s.taken x (.yieldOwnership c) c) (by rw [htaken]; exact hn)
  have hbody : (s.taken x (.yieldOwnership c) c).bodyYield { x with instr := some (.yieldOwnership c) } c = _ :=
    State.bodyYield_of_owner h10 hz hd (by rw [htaken, hkey]; exact hown)
  obtain ⟨t, ht, hans, honly⟩ := h.answered (by simp [nvmeRows]) hc hr ((h.taken_alone (.yieldOwnership c)).1.of_eq hmoves.host hmoves.acts) hbody
  refine ⟨t, ht, hans, ?_, ?_⟩
  · rw [honly]
    exact hstate
  · rw [honly]
    refine hmoves.media.trans ?_
    rw [htaken]

theorem yield_other (h : s.Only c x) (hc : c.assoc < 1024) (h10 : c.cdw10 = 0) (hz : restZero c = true) (hd : dataOk c 0 = true)
    (hr : s.Ready x (.yieldOwnership c)) (hown : s.isOwner c.assoc = false) :
    ∃ t, exec (.yieldOwnership c) s = .next t ∧ s.Answers t c .ok 0 0 [] ∧ t = { s with host := t.host } :=
  h.answered_only (by simp [nvmeRows]) hc hr (lba := 0) (n := 0)
    (State.bodyYield_of_other h10 hz hd (by rw [s.taken_only x (.yieldOwnership c) c, h.key.1]; exact hown))

/-! ## Properties -/

theorem propertyGet_version (h : s.Only c x) (hc : c.assoc < 1024) (hr : s.Ready x (.propertyGet c)) (h11 : c.cdw11.toNat = 8) :
    ∃ t, exec (.propertyGet c) s = .next t ∧ s.Answers t c .ok 0x20000 0 [] ∧ t = { s with host := t.host } := by
  refine h.answered_only (by simp [nvmeRows]) hc hr (lba := 0) (n := 0) ?_
  change State.bodyPropertyGet _ _ c = _
  simp only [State.bodyPropertyGet, h11]

theorem propertyGet_cc (h : s.Only c x) (hc : c.assoc < 1024) {y : Assoc} (hy : s.assoc c.assoc = some y) (hr : s.Ready x (.propertyGet c))
    (h11 : c.cdw11.toNat = 0x14) :
    ∃ t, exec (.propertyGet c) s = .next t ∧ s.Answers t c .ok y.cc.toNat 0 [] ∧ t = { s with host := t.host } := by
  refine h.answered_only (by simp [nvmeRows]) hc hr (lba := 0) (n := 0) ?_
  have hassoc : (s.taken x (.propertyGet c) c).assoc x.assoc = some y := by
    rw [State.assoc_taken, h.key.1, hy]
  change State.bodyPropertyGet _ _ c = _
  simp only [State.bodyPropertyGet, h11, hassoc, Option.getD_some]

theorem lookupKey_map_same {α : Type} (l : List (Nat × α)) (a : Nat) (f : α → α) :
    lookupKey (l.map (fun p => if p.1 = a then (p.1, f p.2) else p)) a = (lookupKey l a).map f := by
  induction l with
  | nil => rfl
  | cons p l ih =>
    by_cases h : p.1 = a
    · simp [lookupKey, h]
    · have h' : ¬a = p.1 := fun e => h e.symm
      simp [lookupKey, h, h', ih]

theorem State.assoc_modAssoc_same (s : State) (a : Nat) (f : Assoc → Assoc) : (s.modAssoc a f).assoc a = (s.assoc a).map f := lookupKey_map_same _ _ _

theorem propertySet_cc (h : s.Only c x) (hc : c.assoc < 1024) {y : Assoc} (hy : s.assoc c.assoc = some y) (hr : s.Ready x (.propertySet c))
    (h11 : c.cdw11.toNat = 0x14) : ∃ t, exec (.propertySet c) s = .next t ∧ s.Answers t c .ok 0 0 [] ∧
      (∃ z, t.assoc c.assoc = some z ∧ z.cc = c.cdw12 ∧ z.auth = y.auth ∧ z.hostNqn = y.hostNqn) ∧ t = { s with host := t.host } := by
  obtain ⟨hkey, -, -⟩ := h.key
  have hv : Alone s ((s.taken x (.propertySet c) c).modAssoc x.assoc (fun y => { y with cc := c.cdw12, csts := cstsFor c.cdw12 y.csts })) c :=
    (h.taken_alone (.propertySet c)).1.modHost _ rfl rfl
  obtain ⟨t, ht, hans, honly, hassoc⟩ := h.answered_assocs (by simp [nvmeRows]) hc hr hv (r := .ok) (dw0 := 0) (dw1 := 0) (data := []) (lba := 0)
    (n := 0) (by
      change State.bodyPropertySet _ _ c = _
      simp only [State.bodyPropertySet, h11])
  refine ⟨t, ht, hans, ⟨{ y with cc := c.cdw12, csts := cstsFor c.cdw12 y.csts }, ?_, rfl, rfl, rfl⟩, State.host_only_trans ?_ honly⟩
  · rw [hassoc, ← hkey, State.assoc_modAssoc_same, State.assoc_taken, hkey, hy]
    rfl
  · rw [s.taken_only x _ c]
    rfl

/-! ## Authentication -/

/-- From s to t an association is authenticated: associations, free values and recorded events may change. -/
structure AuthWork (s t : State) : Prop where
  ctxs : t.host.ctxs = s.host.ctxs
  completions : t.host.completions = s.host.completions
  acts : t.acts = s.acts
  media : t.media = s.media
  regs : s.RegsButEvents [] t

theorem AuthWork.refl (s : State) : AuthWork s s := ⟨rfl, rfl, rfl, rfl, .refl [] s⟩

theorem AuthWork.modAssoc {s t : State} (h : AuthWork s t) (a : Nat) (f : Assoc → Assoc) : AuthWork s (t.modAssoc a f) :=
  ⟨h.ctxs, h.completions, h.acts, h.media, h.regs⟩

theorem AuthWork.event {s t : State} (h : AuthWork s t) (id d e : Nat) : AuthWork s (t.event id d e) := by
  have k := t.event_only id d e
  exact ⟨k.host ▸ h.ctxs, k.host ▸ h.completions, k.acts.trans h.acts, k.media.trans h.media, h.regs.event id d e⟩

theorem AuthWork.free {s t : State} (h : AuthWork s t) (n : Nat) : AuthWork s (t.free n).2 :=
  ⟨h.ctxs, h.completions, h.acts, h.media, h.regs⟩

theorem AuthWork.freeBytes {s t : State} (h : AuthWork s t) (n : Nat) : AuthWork s (t.freeBytes n).2 := by
  suffices hall : ∀ (l : List Nat) (q : List Byte × State), AuthWork s q.2 →
      AuthWork s (l.foldl (fun (q : List Byte × State) _ => let t := q.2.free (2 ^ 64); (q.1 ++ leBytes 8 t.1, t.2)) q).2 from hall _ _ h
  intro l
  induction l with
  | nil => exact fun _ hq => hq
  | cons _ l ih => exact fun q hq => ih _ (hq.free (2 ^ 64))

theorem AuthWork.setAuth {s t : State} (h : AuthWork s t) (a : Nat) (y : AuthState) : AuthWork s (t.setAuth a y) := h.modAssoc a _

theorem AuthWork.authFail {s t : State} (h : AuthWork s t) (a tid r : Nat) : AuthWork s (t.authFail a tid r) :=
  ((h.setAuth a _).modAssoc a _).event _ _ _

theorem AuthWork.authDone {s t : State} (h : AuthWork s t) (a : Nat) : AuthWork s (t.authDone a) := (h.setAuth a _).modAssoc a _

theorem AuthWork.authNegotiate {s t : State} (h : AuthWork s t) (a tid : Nat) (d : List Byte) : AuthWork s (t.authNegotiate a tid d) := by
  unfold State.authNegotiate
  extract_lets offers
  clear_value offers
  split
  · exact h.authFail a tid 2
  · split
    · exact h.authFail a tid 3
    · split
      · exact h.authFail a tid 4
      · exact h.authFail a tid 5
      · exact h.setAuth a _

theorem AuthWork.authReply {s t : State} (h : AuthWork s t) (a tid : Nat) (d : List Byte) : AuthWork s (t.authReply a tid d) := by
  unfold State.authReply
  split
  · extract_lets n dh shared
    split
    · exact h.authFail a tid 7
    · split
      · exact h.authFail a tid 6
      · split
        · exact h.authFail a tid 1
        · exact h.setAuth a _
  · exact h.authFail a tid 1
  · exact h.authFail a tid 7

theorem AuthWork.authMessage {s t : State} (h : AuthWork s t) (a : Nat) (d : List Byte) : AuthWork s (t.authMessage a d) := by
  unfold State.authMessage
  extract_lets tid kind id
  split
  · exact h.authNegotiate a tid d
  · split
    · exact h.authReply a tid d
    · split
      · exact h.authDone a
      · split
        · exact (h.authFail a tid 1).setAuth a .idle
        · exact h.authFail a tid 7

theorem AuthWork.authChallenge {s t : State} (h : AuthWork s t) (a : Nat) (u : AuthTr) : AuthWork s (t.authChallenge a u).2 :=
  (((h.freeBytes _).freeBytes 32).free _).setAuth a _

theorem AuthWork.authReturn {s t : State} (h : AuthWork s t) (a : Nat) : AuthWork s (t.authReturn a).2 := by
  unfold State.authReturn
  split
  · exact h.authChallenge a _
  · dsimp only
    split
    · exact h.setAuth a _
    · exact h.authDone a
  · exact h.setAuth a .idle
  · exact h.authFail a 0 7

theorem AuthWork.alone {s t u : State} {c : Cmd} (h : AuthWork t u) (k : Alone s t c) : Alone s u c := by
  obtain ⟨hctxs, hentries, hcompletions⟩ := k
  refine ⟨h.ctxs ▸ hctxs, fun a => ?_, h.completions.trans hcompletions⟩
  rw [State.act, h.acts]
  exact hentries a

/-- A command of authentication, whose body completes it after the attempt has gone on, answers (R339). -/
theorem auth_answers (h : s.Only c x) (hc : c.assoc < 1024) {i : Instr} (hi : i ∈ nvmeRows c) (hr : s.Ready x i) {v : State}
    (hv : AuthWork (s.taken x i c) v) {data : List Byte}
    (hb : (s.taken x i c).body { x with instr := some i } i false = v.complete { x with instr := some i } .ok 0 0 data 0 0) :
    ∃ t, exec i s = .next t ∧ s.Answers t c .ok 0 0 data ∧ s.RegsButEvents [] t ∧ t.media = s.media := by
  obtain ⟨t, ht, hans, honly⟩ := h.answered hi hc hr (hv.alone (h.taken_alone i).1) hb
  refine ⟨t, ht, hans, fun r hr he => ?_, ?_⟩
  · rw [honly]
    refine (hv.regs r hr he).trans ?_
    rw [s.taken_only x i c]
    rfl
  · rw [honly]
    refine hv.media.trans ?_
    rw [s.taken_only x i c]

theorem authSend_answers (h : s.Only c x) (hc : c.assoc < 1024) (hr : s.Ready x (.authenticationSend c)) :
    ∃ t, exec (.authenticationSend c) s = .next t ∧ s.Answers t c .ok 0 0 [] ∧ s.RegsButEvents [] t ∧ t.media = s.media :=
  auth_answers h hc (by simp [nvmeRows]) hr ((AuthWork.refl _).authMessage x.assoc c.data) rfl

theorem authReceive_answers (h : s.Only c x) (hc : c.assoc < 1024) (hr : s.Ready x (.authenticationReceive c)) :
    ∃ t, exec (.authenticationReceive c) s = .next t ∧
      s.Answers t c .ok 0 0 (fitBytes ((s.taken x (.authenticationReceive c) c).authReturn c.assoc).1 c.cdw11.toNat) ∧
      s.RegsButEvents [] t ∧ t.media = s.media := by
  obtain ⟨hkey, -, -⟩ := h.key
  rw [← hkey]
  exact auth_answers h hc (by simp [nvmeRows]) hr ((AuthWork.refl _).authReturn x.assoc) rfl

end

/-- Settles O50, row by row: ownership that moves leaves the host side, so that a command alone is answered from what its body leaves. -/
theorem ownershipAndFabricsRows : Obligations.OwnershipAndFabricsRows := by
  refine ⟨fun s c x h hc h10 hz hd hn => ⟨fun hr ha ho => claim_granted h hc h10 hz hd hn hr ha ho,
    fun hr ha ho hown hrun => claim_refused h hc h10 hz hd hr ha ho hown hrun, fun hr hown => yield_owner h hc h10 hz hd hn hr hown,
    fun hr hown => yield_other h hc h10 hz hd hr hown⟩, fun s c x y h hc hy => ⟨fun hr h11 => propertyGet_version h hc hr h11,
    fun hr h11 => propertyGet_cc h hc hy hr h11, fun hr h11 => propertySet_cc h hc hy hr h11, fun hr => authSend_answers h hc hr,
    fun hr => authReceive_answers h hc hr⟩⟩

end Sys2Proof.Machine
end

section
/-! Configuration records (R44): what begins, ends and refuses a store, a capture or a removal. -/

namespace Sys2Proof.Machine

open Sys2Proof

/-! ## Registers put back to their reset values -/

theorem RegFile.find_filter_of_kept {q : Nat → Bool} {a : Nat} (h : q a = true) (f : RegFile) : RegFile.find (f.filter (fun p => q p.1)) a = f.find a := by
  induction f with
  | nil => rfl
  | cons p r ih =>
    obtain ⟨b, w⟩ := p
    by_cases hb : a = b
    · subst hb
      simp [h, RegFile.find]
    · by_cases hq : q b = true
      · simpa [hq, RegFile.find, hb] using ih
      · simpa [hq, RegFile.find, hb] using ih

theorem State.reg_resetRegs_of_outside (s : State) {lo hi a : Nat} (h : a < lo ∨ hi ≤ a) : (s.resetRegs lo hi).reg a = s.reg a := by
  have hfind := RegFile.find_filter_of_kept (q := fun b => decide (b < lo) || decide (hi ≤ b)) (a := a) (by simpa using h) s.regs
  rw [State.reg, State.reg, ← hfind]
  rfl

theorem State.event_records (s : State) (id d e : Nat) : (s.event id d e).nor.records = s.nor.records :=
  congrArg (fun t => t.nor.records) (s.event_only id d e).takeEvents

theorem State.event_recSeq (s : State) (id d e : Nat) : (s.event id d e).nor.recSeq = s.nor.recSeq :=
  congrArg (fun t => t.nor.recSeq) (s.event_only id d e).takeEvents

/-! ## The start and the refusal of an operation -/

theorem State.cfgBegin_facts (s : State) (op : CfgOp) :
    (s.cfgBegin op).flag Adr.CFG_STATUS Fld.CFG_STATUS_busy = true ∧ (s.cfgBegin op).cfgOp = some op ∧
      s.RegsBut [Adr.CFG_STATUS] (s.cfgBegin op) ∧ s.cfgBegin op = { s with regs := (s.cfgBegin op).regs, cfgOp := (s.cfgBegin op).cfgOp } := by
  have hregs : s.RegsBut [Adr.CFG_STATUS] (s.setFlag Adr.CFG_STATUS Fld.CFG_STATUS_busy true) := s.regsBut_setFlag _ _ _
  exact ⟨s.flag_setFlag_eq _ _ true (by decide), rfl, hregs, rfl⟩

/-- The two fields of a refusal, before its event. -/
def State.cfgReason (s : State) (k : Nat) : State :=
  (s.setFlag Adr.CFG_STATUS Fld.CFG_STATUS_refused true).setFld Adr.CFG_STATUS Fld.CFG_STATUS_reason k

theorem State.cfgRefuse_eq (s : State) {k : Nat} (h : k ≠ 7) : s.cfgRefuse k = (s.cfgReason k).event 0x7E3 := if_neg h

/-- A refusal other than that of a busy store: its flag and its reason (R44). -/
theorem State.cfgRefuse_facts (s : State) {k : Nat} (h7 : k ≠ 7) (h8 : k < 8) :
    (s.cfgRefuse k).flag Adr.CFG_STATUS Fld.CFG_STATUS_refused = true ∧ (s.cfgRefuse k).fld Adr.CFG_STATUS Fld.CFG_STATUS_reason = k ∧
      (s.cfgRefuse k).cfgOp = s.cfgOp ∧ s.RegsButEvents [Adr.CFG_STATUS] (s.cfgRefuse k) ∧ s.cfgRefuse k = s.takeEvents (s.cfgRefuse k) := by
  rw [s.cfgRefuse_eq h7]
  have honly : s.cfgReason k = { s with regs := (s.cfgReason k).regs } := rfl
  have hregs : s.RegsBut [Adr.CFG_STATUS] (s.cfgReason k) := ((State.RegsBut.refl _ s).setFlag _ _ (by simp)).setFld _ _ (by simp)
  have hev := (s.cfgReason k).event_only 0x7E3 0 0
  refine ⟨?_, ?_, hev.cfgOp, State.RegsButEvents.event (fun a ha _ => hregs a ha) _ _ _, ?_⟩
  · rw [State.flag_event _ _ _ _ _ (by decide)]
    exact (State.flag_setFld_apart _ _ _ _ _ (by decide) (by decide)).trans (s.flag_setFlag_eq _ _ _ (by decide))
  · rw [State.fld_event _ _ _ _ _ (by decide)]
    exact State.fld_setFld_of_lt _ _ _ (by decide) h8
  · conv => lhs; rw [hev.takeEvents, honly]
    rfl

/-- An operation in progress ends, before what it stored is entered: its flag and its place are free. -/
def State.cfgFreed (s : State) : State := { s.setFlag Adr.CFG_STATUS Fld.CFG_STATUS_busy false with cfgOp := none }

/-- The records are written, and their count follows: s with NOR n. -/
def State.cfgCounted (s : State) (n : Nor) : State :=
  State.setFld { s with nor := n } Adr.CFG_STATUS Fld.CFG_STATUS_records n.records.length

theorem State.cfgFreed_busy (s : State) : s.cfgFreed.flag Adr.CFG_STATUS Fld.CFG_STATUS_busy = false := s.flag_setFlag_eq _ _ _ (by decide)

theorem State.cfgFreed_regs (s : State) : s.RegsBut [Adr.CFG_STATUS] s.cfgFreed := s.regsBut_setFlag _ _ _

theorem State.cfgCounted_busy (s : State) (n : Nor) :
    (s.cfgCounted n).flag Adr.CFG_STATUS Fld.CFG_STATUS_busy = s.flag Adr.CFG_STATUS Fld.CFG_STATUS_busy :=
  State.flag_setFld_apart _ _ _ _ _ (by decide) (by decide)

theorem State.cfgCounted_regs (s : State) (n : Nor) : s.RegsBut [Adr.CFG_STATUS] (s.cfgCounted n) :=
  State.regsBut_setFld { s with nor := n } _ _ _

theorem State.cfgDone_remove {s : State} {n k : Nat} (h : s.cfgOp = some (.remove n k)) :
    s.cfgDone true = (s.cfgFreed.cfgCounted { s.nor with records := s.nor.records.filter (fun x => !(x.kind == n && x.key == k)) }).event 0x7E2 := by
  unfold State.cfgDone
  rw [h]
  rfl

theorem State.cfgDone_store {s : State} {r : CfgRec} (h : s.cfgOp = some (.store r)) :
    s.cfgDone true = ((s.cfgFreed.resetRegs (Adr.CFG_WIN 0) (Adr.CFG_WIN 0 + 4096)).cfgCounted { s.nor with
      records := putRecord s.nor.records { r with seq := s.nor.recSeq + 1 }, recSeq := s.nor.recSeq + 1 }).event 0x7E2 := by
  unfold State.cfgDone
  rw [h]
  rfl

theorem State.cfgDone_failed {s : State} {op : CfgOp} (h : s.cfgOp = some op) : s.cfgDone false = s.cfgFreed.cfgRefuse 5 := by
  unfold State.cfgDone
  rw [h]
  rfl

/-! ## The commands of CFG_CMD -/

theorem State.cfgCommand_store {s : State} {r : CfgRec} (hb : s.flag Adr.CFG_STATUS Fld.CFG_STATUS_busy = false) (hw : windowRecord s.window = .ok r)
    (hf : s.nor.full r = false) : s.cfgCommand (cfgWord 1 0) = s.cfgBegin (.store r) := by
  unfold State.cfgCommand
  extract_lets cmd
  have hcmd : cmd = 1 := by decide
  rw [if_neg (by omega), if_neg (by simp [hb]), if_pos hcmd]
  simp only [hw, hf]
  rfl

theorem State.cfgCommand_store_refused {s : State} {k : Nat} (hb : s.flag Adr.CFG_STATUS Fld.CFG_STATUS_busy = false)
    (hw : windowRecord s.window = .error k) : s.cfgCommand (cfgWord 1 0) = s.cfgRefuse k := by
  unfold State.cfgCommand
  extract_lets cmd
  have hcmd : cmd = 1 := by decide
  rw [if_neg (by omega), if_neg (by simp [hb]), if_pos hcmd]
  simp only [hw]

/-- The pairs of the RW registers of function k. -/
def State.funcBody (s : State) (k : Nat) : List Byte := (funcRegs k).flatMap (fun a => leBytes 4 a ++ leBytes 4 (s.reg a).toNat)

theorem cfgWord_capture {k : Nat} (hk : k < 15) : getBits (cfgWord 2 k) Fld.CFG_CMD_cmd = 2 ∧ getBits (cfgWord 2 k) Fld.CFG_CMD_func = k := by
  have hall : ∀ j < 15, getBits (cfgWord 2 j) Fld.CFG_CMD_cmd = 2 ∧ getBits (cfgWord 2 j) Fld.CFG_CMD_func = j := by decide
  exact hall k hk

theorem State.cfgCommand_capture {s : State} {k : Nat} (hb : s.flag Adr.CFG_STATUS Fld.CFG_STATUS_busy = false) (hk : k < 15)
    (hl : (s.funcBody k).length ≤ 4080) (hf : s.nor.full (CfgRec.make 1 k (s.funcBody k)) = false) :
    s.cfgCommand (cfgWord 2 k) = s.cfgBegin (.store (CfgRec.make 1 k (s.funcBody k))) := by
  obtain ⟨hcmd, hfunc⟩ := cfgWord_capture hk
  unfold State.cfgCommand
  rw [hcmd, hfunc]
  extract_lets cmd func body r
  rw [if_neg (by omega), if_neg (by simp [hb]), if_neg (by omega), if_pos rfl, if_neg (by omega)]
  exact (if_neg (Nat.not_lt.2 hl)).trans (if_neg (fun h => Bool.false_ne_true (hf.symm.trans h)))

theorem State.cfgCommand_remove {s : State} (hb : s.flag Adr.CFG_STATUS Fld.CFG_STATUS_busy = false) :
    s.cfgCommand (cfgWord 3 0) = s.cfgBegin (.remove (s.fld Adr.CFG_KIND Fld.CFG_KIND_kind) (s.fld Adr.CFG_KEY Fld.CFG_KEY_key)) := by
  unfold State.cfgCommand
  extract_lets cmd
  have hcmd : cmd = 3 := by decide
  rw [if_neg (by omega), if_neg (by simp [hb]), if_neg (by omega), if_neg (by omega)]

theorem exec_cfgStore {s : State} {o : Nat} (h : s.Writable o Adr.CFG_CMD) : exec (.cfgStore o) s = .next (s.cfgCommand (cfgWord 1 0)) :=
  congrArg Host.Outcome.next (s.ownerReg_of_writable _ _ h)

theorem exec_cfgCapture {s : State} {o : Nat} (h : s.Writable o Adr.CFG_CMD) (k : Nat) :
    exec (.cfgCapture o k) s = .next (s.cfgCommand (cfgWord 2 k)) := congrArg Host.Outcome.next (s.ownerReg_of_writable _ _ h)

theorem exec_cfgRemove {s : State} {o : Nat} (h : s.Writable o Adr.CFG_CMD) : exec (.cfgRemove o) s = .next (s.cfgCommand (cfgWord 3 0)) :=
  congrArg Host.Outcome.next (s.ownerReg_of_writable _ _ h)

theorem exec_cfgStoreDone (b : Bool) (s : State) : exec (.cfgStoreDone b) s = .next (s.cfgDone b) := rfl

/-! ## The end of an operation -/

theorem cfgRemoved {s : State} {n k : Nat} (h : s.cfgOp = some (.remove n k)) : ∃ t, exec (.cfgStoreDone true) s = .next t ∧ t.cfgOp = none ∧
    t.flag Adr.CFG_STATUS Fld.CFG_STATUS_busy = false ∧ t.nor.records = s.nor.records.filter (fun x => !(x.kind == n && x.key == k)) ∧
    s.RegsButEvents [Adr.CFG_STATUS] t := by
  refine ⟨_, congrArg Host.Outcome.next (State.cfgDone_remove h), ?_, ?_, ?_, State.RegsButEvents.event (fun a ha _ => ?_) _ _ _⟩
  · rw [State.event_cfgOp]
    rfl
  · rw [State.flag_event _ _ _ _ _ (by decide), State.cfgCounted_busy, State.cfgFreed_busy]
  · rw [State.event_records]
    rfl
  · exact (s.cfgFreed_regs.trans (State.cfgCounted_regs _ _)) a ha

theorem cfgStored {s : State} {r : CfgRec} (h : s.cfgOp = some (.store r)) : ∃ t, exec (.cfgStoreDone true) s = .next t ∧ t.cfgOp = none ∧
    t.flag Adr.CFG_STATUS Fld.CFG_STATUS_busy = false ∧ t.nor.records = putRecord s.nor.records { r with seq := s.nor.recSeq + 1 } ∧
    t.nor.recSeq = s.nor.recSeq + 1 := by
  refine ⟨_, congrArg Host.Outcome.next (State.cfgDone_store h), ?_, ?_, ?_, ?_⟩
  · rw [State.event_cfgOp]
    rfl
  · rw [State.flag_event _ _ _ _ _ (by decide), State.cfgCounted_busy, State.flag, State.fld, State.reg_resetRegs_of_outside _ (by decide)]
    exact s.cfgFreed_busy
  · rw [State.event_records]
    rfl
  · rw [State.event_recSeq]
    rfl

theorem cfgFailed {s : State} {op : CfgOp} (h : s.cfgOp = some op) : ∃ t, exec (.cfgStoreDone false) s = .next t ∧ t.cfgOp = none ∧
    t.flag Adr.CFG_STATUS Fld.CFG_STATUS_refused = true ∧ t.fld Adr.CFG_STATUS Fld.CFG_STATUS_reason = 5 ∧
    t.nor.records = s.nor.records ∧ s.RegsButEvents [Adr.CFG_STATUS] t := by
  obtain ⟨hrefused, hreason, hop, hregs, -⟩ := s.cfgFreed.cfgRefuse_facts (k := 5) (by omega) (by omega)
  refine ⟨_, congrArg Host.Outcome.next (State.cfgDone_failed h), hop, hrefused, hreason, ?_, fun a ha he => ?_⟩
  · rw [State.cfgRefuse_eq _ (by omega), State.event_records]
    rfl
  · exact (hregs a ha he).trans (s.cfgFreed_regs a ha)

/-- Settles O45: each command by what it begins or refuses, and the end of an operation by what it enters. -/
theorem configurationRecordRows : Obligations.ConfigurationRecordRows := by
  unfold Obligations.ConfigurationRecordRows
  intro s
  refine ⟨fun o ho hb => ⟨fun r hw hf => ?_, fun k hw h7 h8 => ?_, fun k hk => ?_, ?_⟩, fun n k h => cfgRemoved h, fun r h => cfgStored h,
    fun op h => cfgFailed h, fun h b => ?_⟩
  · exact ⟨_, (exec_cfgStore ho).trans (by rw [State.cfgCommand_store hb hw hf]), s.cfgBegin_facts _⟩
  · exact ⟨_, (exec_cfgStore ho).trans (by rw [State.cfgCommand_store_refused hb hw]), s.cfgRefuse_facts h7 h8⟩
  · intro b hl hf
    obtain ⟨hbusy, hop, -, honly⟩ := s.cfgBegin_facts (.store (CfgRec.make 1 k b))
    exact ⟨_, (exec_cfgCapture ho k).trans (congrArg Host.Outcome.next (State.cfgCommand_capture hb hk hl hf)), hbusy, hop, honly⟩
  · obtain ⟨hbusy, hop, -, honly⟩ := s.cfgBegin_facts (.remove (s.fld Adr.CFG_KIND Fld.CFG_KIND_kind) (s.fld Adr.CFG_KEY Fld.CFG_KEY_key))
    exact ⟨_, (exec_cfgRemove ho).trans (by rw [State.cfgCommand_remove hb]), hbusy, hop, honly⟩
  · rw [exec_cfgStoreDone, State.cfgDone, h]

end Sys2Proof.Machine
end

section
/-! An association that has ended stays ended (R340), through the change of ownership and the reverts it brings (R357). -/

namespace Sys2Proof.Machine

open Sys2Proof

theorem lookupKey_erase_same {α : Type} (l : List (Nat × α)) (k : Nat) : lookupKey (eraseKey l k) k = none := by
  induction l with
  | nil => rfl
  | cons p l ih =>
    by_cases h : p.1 = k
    · rw [eraseKey, List.filter_cons_of_neg (by simp [h])]
      exact ih
    · rw [eraseKey, List.filter_cons_of_pos (by simp [h])]
      exact (if_neg h).trans ih

theorem lookupKey_map_none {α : Type} {l : List (Nat × α)} {a : Nat} (b : Nat) (f : α → α) (h : lookupKey l a = none) :
    lookupKey (l.map (fun p => if p.1 = b then (p.1, f p.2) else p)) a = none := by
  induction l with
  | nil => rfl
  | cons p l ih =>
    by_cases hp : p.1 = a
    · rw [lookupKey, if_pos hp] at h
      exact absurd h (by simp)
    · rw [lookupKey, if_neg hp] at h
      have hk : (if p.1 = b then (p.1, f p.2) else p).1 = p.1 := by split <;> rfl
      rw [List.map_cons, lookupKey, if_neg (by rw [hk]; exact hp)]
      exact ih h

/-- There is no association a. -/
def State.Lacks (a : Nat) (s : State) : Prop := s.assoc a = none

namespace State.Lacks

variable {a : Nat} {s t : State}

theorem of_host (h : s.Lacks a) (hh : t.host = s.host) : t.Lacks a := by
  rw [State.Lacks, State.assoc, hh]
  exact h

theorem work (h : s.Lacks a) (k : HostWork s t) : t.Lacks a := (k.assoc a).trans h

theorem event (h : s.Lacks a) (id d e : Nat) : (s.event id d e).Lacks a := h.of_host (State.event_host s id d e)

theorem ite {p : Prop} [Decidable p] (h : s.Lacks a) (k : t.Lacks a) : (if p then s else t).Lacks a := by
  split
  · exact h
  · exact k

theorem modAssoc (h : s.Lacks a) (b : Nat) (f : Assoc → Assoc) : (s.modAssoc b f).Lacks a := lookupKey_map_none b f h

theorem modQueue (h : s.Lacks a) (q : Nat) (f : Queue → Queue) : (s.modQueue q f).Lacks a := h

theorem post (h : s.Lacks a) (c : Completion) : (s.post c).Lacks a := by
  unfold State.post
  refine .ite h (.ite h ?_)
  split
  next k _ =>
    have hmod := h.modAssoc 1024 (fun x => { x with cqs := x.cqs.map (fun d => if d.id = k.id then { d with tail := (d.tail + 1) % d.size } else d) })
    exact .ite h hmod
  next => exact h

theorem complete (h : s.Lacks a) (x : Ctx) (t : Status) (d e : Nat) (data : List Byte) (lba n : Nat) : (s.complete x t d e data lba n).Lacks a := by
  unfold State.complete
  extract_lets s1 s2
  have h1 : s1.Lacks a := h.post _
  have h2 : s2.Lacks a := .ite h1 h1
  exact h2.work (s2.dropCtx_facts x.assoc x.qid x.cid).1

theorem endReconf (h : s.Lacks a) (k : Nat) (l : List Nat) (t : Status) : (s.endReconf k l t).Lacks a := by
  refine foldl_induct (P := State.Lacks a) (fun u x _ hu => ?_) h
  split
  · exact .ite (hu.complete x t _ 0 [] 0 0) hu
  · exact hu

theorem endLoads (h : s.Lacks a) (k : Nat) (t : Status) : (s.endLoads k t).Lacks a :=
  foldl_induct (P := State.Lacks a) (fun _ x _ hu => .ite (hu.complete x t 0 0 [] 0 0) hu) h

theorem beginSeek (h : s.Lacks a) (b : Fin 4) (n : Nat) : (s.beginSeek b n).Lacks a := by
  unfold State.beginSeek
  extract_lets s0 s1 s2
  refine .ite h ?_
  split
  · exact h
  · exact .ite (State.Lacks.of_host (s := s0) h (s0.enterFollowing_frame b 0 0).host) h
  · exact .ite (State.Lacks.of_host (s := s2) h (s2.enterFollowing_frame b 0 0).host) h

theorem timeRestarted (h : s.Lacks a) : s.timeRestarted.Lacks a := by
  unfold State.timeRestarted
  extract_lets was s1
  have hport : s.ptpPort.Lacks a := .ite h h
  have h1 : s1.Lacks a := hport
  exact (h1.of_host s1.sourcesChanged_keeps_geryn.host).of_host (State.phaseCheck_frame _).host

theorem moverRelease (h : s.Lacks a) : s.moverRelease.Lacks a := by
  unfold State.moverRelease
  extract_lets s1
  have h1 : s1.Lacks a := by
    refine foldl_induct (P := State.Lacks a) (fun u k _ hu => ?_) h
    split
    · exact hu
    · exact hu
  exact h1

theorem moverClaim (h : s.Lacks a) : s.moverClaim.Lacks a := by
  unfold State.moverClaim
  extract_lets c n
  have hc : ((s.setFlag c Fld.TMB_ALM_CTL_conflict true).event 0x34C).Lacks a :=
    State.Lacks.event (s := s.setFlag c Fld.TMB_ALM_CTL_conflict true) h 0x34C 0 0
  refine .ite h (State.Lacks.event ?_ 0x423 0 0)
  exact hc

theorem unpin (n : Nat) (h : s.Lacks a) : (s.unpin n).Lacks a := by
  induction n generalizing s with
  | zero => exact h
  | succ n ih =>
    unfold State.unpin
    refine .ite h ?_
    split
    · exact h
    · exact ih (of_host h rfl)

theorem committed_kept (h : s.Lacks a) (k : Nat) : (s.committed k true).Lacks a := by
  unfold State.committed
  refine .ite h (.ite ?_ (.ite h (.ite ?_ (.ite ?_ (.ite ?_ h)))))
  · extract_lets b s1
    have h1 : s1.Lacks a := h
    split
    · exact .ite (State.Lacks.beginSeek (s := s1.modServo b _) h1 b _) h1
    · exact h1
  · exact h.timeRestarted.of_host (State.phaseCheck_frame _).host
  · exact h.moverRelease.moverClaim
  · extract_lets s1
    exact State.Lacks.unpin (s := s1) _ h

theorem revertNow (h : s.Lacks a) (k e : Nat) : (s.revertNow k e).Lacks a := by
  unfold State.revertNow
  extract_lets before s1 s2 s3 loads s4 s5
  have h1 : s1.Lacks a := by
    refine of_host h ?_
    simp only [s1]
    rw [State.modFunc_only]
    rfl
  have h2 : s2.Lacks a := .ite h1 (h1.committed_kept k)
  have h5 : s5.Lacks a := (((h2.event e 0 0).endReconf k [1] .stopped).endReconf k [2, 3] _).endLoads k .stopped
  exact .ite (h5.event _ _ _) h5

theorem revertAll (h : s.Lacks a) : s.revertAll.Lacks a :=
  foldl_induct (P := State.Lacks a) (fun _ k _ hu => .ite (hu.revertNow k 0x7E1) hu) h

theorem ownershipMoved (h : s.Lacks a) : s.ownershipMoved.Lacks a :=
  (h.of_host (by rw [s.releaseOwnerAlarms_freed.rest])).revertAll

theorem vacate (h : s.Lacks a) (e : Nat) : (s.vacate e).Lacks a :=
  (State.Lacks.event (s := s.setOwner 0 0x7FF) h e 0 0).ownershipMoved

end State.Lacks

/-- An association that ends is there no more (R340). -/
theorem State.endAssoc_lacks (s : State) (a : Nat) : (s.endAssoc a).Lacks a := by
  unfold State.endAssoc
  split
  next h => exact Option.isNone_iff_eq_none.1 h
  next =>
    extract_lets jobs s1 own s2 s3 s4
    have h3 : s3.Lacks a := lookupKey_erase_same _ _
    clear_value s3
    have h4 : s4.Lacks a := foldl_induct (P := State.Lacks a) (fun u k _ hu => State.Lacks.modQueue hu _ _) h3
    exact .ite (h4.vacate 0x683) h4

end Sys2Proof.Machine
end

section
/-! The rows that are one register write of the owner (R30, R31), with the staging claim (R286), PCIe enable (R342) and a firmware frame (R76). -/

namespace Sys2Proof.Machine

open Sys2Proof

/-! ## An owner's write, by condition -/

/-- Every row of the list is the owner's write of its register. -/
theorem exec_ownerRow {s : State} {w : WriteArgs} (ha : w.addr % 4 = 0) (hp : w.path ≠ .snapshot) :
    ∀ r ∈ s.ownerRows w, exec r.cmd s = .next (s.ownerReg w.assoc r.addr r.value r.effect) := by
  unfold State.ownerRows
  extract_lets psc cal gain trc claim freed stage unstage
  have hplain : exec (.plainRegisterWrite w.path w.assoc w.addr 4 w.value) s =
      .next (s.ownerReg w.assoc w.addr w.value fun t => t.performWrite w.addr w.value) :=
    if_neg (by simp [ha, hp])
  simp only [List.forall_mem_cons]
  exact ⟨hplain, rfl, rfl, rfl, rfl, rfl, rfl, rfl, rfl, rfl, rfl, rfl, rfl, rfl, rfl, rfl, rfl, rfl, rfl, rfl, rfl, rfl, rfl, rfl, rfl, rfl, rfl,
    fun _ h => absurd h List.not_mem_nil⟩

section
variable {s : State} {o a : Nat} (v : Word) (f : State → State)

theorem State.ownerReg_of_other (h : s.isOwner o = false) : s.ownerReg o a v f = s.event 0x640 := by
  rw [State.ownerReg, h]
  rfl

theorem State.ownerReg_of_off {r : Nat} (h : s.isOwner o = true) (hr : regionOf a = some r) (hp : s.powered r = false)
    (hheld : ∀ k ∈ s.heldRegs, k.path ≠ pathOf o) : s.ownerReg o a v f = s.event 0x0E0 := by
  rw [State.ownerReg, if_neg (by simp [h])]
  simp only [hr]
  rw [if_neg (by rw [State.accessWaits_of_off hr hp hheld]; exact Bool.false_ne_true), if_pos (by simp [hp])]

theorem State.ownerReg_of_waiting {r : Nat} (h : s.isOwner o = true) (hr : regionOf a = some r)
    (hw : s.powered r = true ∧ s.restarting r = true ∧ survivesRestart a = false ∨ ∃ k ∈ s.heldRegs, k.path = pathOf o) :
    s.ownerReg o a v f = { s with heldRegs := s.heldRegs ++ [⟨pathOf o, o, a, v, true⟩] } := by
  rw [State.ownerReg, if_neg (by simp [h])]
  simp only [hr]
  rw [if_pos (State.accessWaits_of_waiting hr hw)]

end

/-! ## Fields that a software write takes -/

/-- No field of the row reads otherwise than it is stored, and every bit of g is written by software and by it alone. -/
def takenByWrite (fs : List FieldRow) (g : Fld) : Bool :=
  fs.all (fun f => f.clamp == .none) && (accMask fs (fun a => a == .rw) &&& g.mask == g.mask) && (accMask fs (fun a => a == .w1c) &&& g.mask == 0) &&
    (accMask fs (fun a => a == .w1s) &&& g.mask == 0)

theorem getBits_writeMerge_of_taken {fs : List FieldRow} {g : Fld} (hk : takenByWrite fs g = true) (old new : Word) :
    getBits (writeMerge fs old new) g = getBits new g := by
  simp only [takenByWrite, Bool.and_eq_true, List.all_eq_true, beq_iff_eq] at hk
  obtain ⟨⟨⟨hclamp, hmask⟩, hclear⟩, hset⟩ := hk
  apply Nat.eq_of_testBit_eq
  intro i
  rw [testBit_getBits, testBit_getBits, writeMerge, clampWord_of_none hclamp]
  by_cases hi : i < g.width
  · by_cases h32 : g.lo + i < 32
    · have hrw := congrArg (fun w => w.getLsbD (g.lo + i)) hmask
      have hw1c := congrArg (fun w => w.getLsbD (g.lo + i)) hclear
      have hw1s := congrArg (fun w => w.getLsbD (g.lo + i)) hset
      simp only [BitVec.getLsbD_and, getLsbD_mask, BitVec.ofNat_eq_ofNat, BitVec.getLsbD_zero, Nat.add_sub_cancel_left, h32, hi, Nat.le_add_right,
        decide_true, Bool.and_true] at hrw hw1c hw1s
      simp only [BitVec.getLsbD_or, BitVec.getLsbD_and, BitVec.getLsbD_not, hrw, hw1c, hw1s, h32, decide_true, Bool.true_and, Bool.not_true,
        Bool.not_false, Bool.and_true, Bool.and_false, Bool.or_false, Bool.false_or]
    · rw [BitVec.getLsbD_of_ge _ _ (by omega), BitVec.getLsbD_of_ge _ _ (by omega)]
  · simp [hi]

/-- The row at an address takes field g from a software write. -/
def rowTakes (a : Nat) (g : Fld) : Bool := match rowAt a with | some (r, _) => takenByWrite r.fields g | none => false

theorem State.fld_plainWrite_of_taken (s : State) {a : Nat} {g : Fld} (v : Word) (h : rowTakes a g = true) : (s.plainWrite a v).fld a g = getBits v g := by
  unfold State.plainWrite
  unfold rowTakes at h
  split
  next r x hr =>
    simp only [hr] at h
    rw [State.fld, State.reg_setReg_same, getBits_writeMerge_of_taken h]
  next hr =>
    simp only [hr] at h
    exact absurd h Bool.false_ne_true

/-! ## The staging claim (R286) -/

/-- From s to t only the Cast block and the two registers of the staging claim change; the size of the staging space is kept. -/
structure StageFrame (s t : State) : Prop where
  regs : s.RegsBut [Adr.CST_STGCLAIM, Adr.CMP_STATUS] t
  rest : t = { s with regs := t.regs, cast := t.cast }

namespace StageFrame

variable {s t : State}

theorem refl (s : State) : StageFrame s s := ⟨.refl _ s, rfl⟩

theorem setFld (h : StageFrame s t) {r : Nat} (f : Fld) (v : Nat) (hr : r ∈ [Adr.CST_STGCLAIM, Adr.CMP_STATUS]) : StageFrame s (t.setFld r f v) := by
  refine ⟨h.regs.setFld f v hr, ?_⟩
  conv => lhs; rw [h.rest]
  rfl

theorem setFlag (h : StageFrame s t) {r : Nat} (f : Fld) (v : Bool) (hr : r ∈ [Adr.CST_STGCLAIM, Adr.CMP_STATUS]) : StageFrame s (t.setFlag r f v) :=
  h.setFld f _ hr

theorem modCast (h : StageFrame s t) (f : CastState → CastState) : StageFrame s (t.modCast f) := by
  refine ⟨h.regs, ?_⟩
  conv => lhs; rw [h.rest]
  rfl

theorem ite {u : State} {p : Prop} [Decidable p] (h : StageFrame s t) (k : StageFrame s u) : StageFrame s (if p then t else u) := by
  split
  · exact h
  · exact k

theorem stagingRelease (h : StageFrame s t) : StageFrame s t.stagingRelease :=
  ((h.modCast _).setFlag _ _ (by simp)).setFlag _ _ (by simp)

end StageFrame

theorem State.stagingClaim_of_free {s : State} {n : Nat} (hc : s.cast.claim = none) (hn : 256 + n ≤ s.fld Adr.CST_STAGE Fld.CST_STAGE_size_mib) :
    s.stagingClaim n = (s.modCast (fun k => { k with claim := some n })).setFlag Adr.CST_STGCLAIM Fld.CST_STGCLAIM_held true :=
  if_neg (by simp [hc]; omega)

/-- What a write of CST_STGCLAIM does before its claim: req_mib, the W1C bit and a release. -/
def State.stageWritten (s : State) (v : Word) : State :=
  let s1 := s.setFld Adr.CST_STGCLAIM Fld.CST_STGCLAIM_req_mib (getBits v Fld.CST_STGCLAIM_req_mib)
  let s2 := if getBits v Fld.CST_STGCLAIM_conflict = 1 then s1.setFlag Adr.CST_STGCLAIM Fld.CST_STGCLAIM_conflict false else s1
  if getBits v Fld.CST_STGCLAIM_release = 1 then s2.stagingRelease else s2

theorem State.writeStgclaim_eq (s : State) (v : Word) : s.writeStgclaim v =
    if getBits v Fld.CST_STGCLAIM_claim = 1 then (s.stageWritten v).stagingClaim (getBits v Fld.CST_STGCLAIM_req_mib) else s.stageWritten v := rfl

theorem State.stageWritten_frame (s : State) (v : Word) : StageFrame s (s.stageWritten v) := by
  unfold State.stageWritten
  extract_lets s1 s2
  have h1 : StageFrame s s1 := (StageFrame.refl s).setFld _ _ (by simp)
  have h2 : StageFrame s s2 := .ite (h1.setFlag _ _ (by simp)) h1
  exact .ite h2.stagingRelease h2

theorem State.stageWritten_claim {s : State} (v : Word) (h : s.cast.claim = none) : (s.stageWritten v).cast.claim = none := by
  unfold State.stageWritten
  extract_lets s1 s2
  have h2 : s2.cast = s.cast := by
    simp only [s2, s1]
    split <;> rfl
  split
  · rfl
  · rw [h2, h]

theorem stagingClaim_taken {s : State} {o : Nat} {v : Word} (h : s.Writable o Adr.CST_STGCLAIM) (hc : s.cast.claim = none)
    (hn : 256 + getBits v Fld.CST_STGCLAIM_req_mib ≤ s.fld Adr.CST_STAGE Fld.CST_STAGE_size_mib) : ∃ t, exec (.stagingClaim o v) s = .next t ∧
      t.cast.claim = some (getBits v Fld.CST_STGCLAIM_req_mib) ∧ t.flag Adr.CST_STGCLAIM Fld.CST_STGCLAIM_held = true ∧
      s.RegsBut [Adr.CST_STGCLAIM, Adr.CMP_STATUS] t ∧ t = { s with regs := t.regs, cast := t.cast } := by
  have hexec : exec (.stagingClaim o v) s = .next (s.writeStgclaim (setBits v Fld.CST_STGCLAIM_claim 1)) :=
    congrArg Host.Outcome.next (s.ownerReg_of_writable _ _ h)
  have hclaim : getBits (setBits v Fld.CST_STGCLAIM_claim 1) Fld.CST_STGCLAIM_claim = 1 := getBits_setBits_same _ _ _ ⟨by decide, by decide⟩
  have hreq : getBits (setBits v Fld.CST_STGCLAIM_claim 1) Fld.CST_STGCLAIM_req_mib = getBits v Fld.CST_STGCLAIM_req_mib :=
    getBits_setBits_other _ _ _ _ ⟨by decide, by decide⟩ (by decide)
  have hframe := s.stageWritten_frame (setBits v Fld.CST_STGCLAIM_claim 1)
  have hsize := hframe.regs.fld (a := Adr.CST_STAGE) Fld.CST_STAGE_size_mib (by decide)
  rw [State.writeStgclaim_eq, if_pos hclaim, hreq, State.stagingClaim_of_free (s.stageWritten_claim _ hc) (by rw [hsize]; exact hn)] at hexec
  have hdone := (hframe.modCast (fun k => { k with claim := some (getBits v Fld.CST_STGCLAIM_req_mib) })).setFlag (r := Adr.CST_STGCLAIM)
    Fld.CST_STGCLAIM_held true (by simp)
  exact ⟨_, hexec, rfl, State.flag_setFlag_eq _ _ _ _ (by decide), hdone.regs, hdone.rest⟩

theorem stagingRelease_done {s : State} {o : Nat} (v : Word) (h : s.Writable o Adr.CST_STGCLAIM) : ∃ t, exec (.stagingRelease o v) s = .next t ∧
    t.cast.claim = none ∧ t.flag Adr.CST_STGCLAIM Fld.CST_STGCLAIM_held = false ∧ s.RegsBut [Adr.CST_STGCLAIM, Adr.CMP_STATUS] t ∧
    t = { s with regs := t.regs, cast := t.cast } := by
  have hexec : exec (.stagingRelease o v) s =
      .next (s.writeStgclaim (setBits (setBits v Fld.CST_STGCLAIM_claim 0) Fld.CST_STGCLAIM_release 1)) :=
    congrArg Host.Outcome.next (s.ownerReg_of_writable _ _ h)
  have hclaim : getBits (setBits (setBits v Fld.CST_STGCLAIM_claim 0) Fld.CST_STGCLAIM_release 1) Fld.CST_STGCLAIM_claim = 0 :=
    (getBits_setBits_other _ _ _ _ ⟨by decide, by decide⟩ (by decide)).trans (getBits_setBits_same _ _ _ ⟨by decide, by decide⟩)
  have hrel : getBits (setBits (setBits v Fld.CST_STGCLAIM_claim 0) Fld.CST_STGCLAIM_release 1) Fld.CST_STGCLAIM_release = 1 :=
    getBits_setBits_same _ _ _ ⟨by decide, by decide⟩
  rw [State.writeStgclaim_eq, if_neg (by omega)] at hexec
  have hframe := s.stageWritten_frame (setBits (setBits v Fld.CST_STGCLAIM_claim 0) Fld.CST_STGCLAIM_release 1)
  refine ⟨_, hexec, ?_, ?_, hframe.regs, hframe.rest⟩
  all_goals
    unfold State.stageWritten
    rw [if_pos hrel]
  · rfl
  · exact (State.flag_setFlag_ne _ _ _ _ (by decide)).trans (State.flag_setFlag_eq _ _ _ _ (by decide))

/-! ## PCIe enable (R342) -/

theorem exec_pcieEnWrite {s : State} {o : Nat} (v : Word) (h : s.Writable o Adr.HIF_CTRL) : exec (.pcieEnWrite o v) s = .next (s.writeHifCtrl v) :=
  congrArg Host.Outcome.next (s.ownerReg_of_writable _ _ h)

theorem pcieEn_set {s : State} {o : Nat} {v : Word} (h : s.Writable o Adr.HIF_CTRL) (hv : v.getLsbD 0 = true) :
    ∃ t, exec (.pcieEnWrite o v) s = .next t ∧ t.flag Adr.HIF_CTRL Fld.HIF_CTRL_pcie_en = true ∧ s.RegsBut [Adr.HIF_CTRL] t ∧
      t = { s with regs := t.regs } := by
  obtain ⟨honly, hregs⟩ := s.plainWrite_only Adr.HIF_CTRL v
  have heq : s.writeHifCtrl v = s.plainWrite Adr.HIF_CTRL v := if_pos hv
  refine ⟨_, (exec_pcieEnWrite v h).trans (by rw [heq]), ?_, hregs, honly⟩
  have hbit : getBits v Fld.HIF_CTRL_pcie_en ≠ 0 := by
    intro h0
    have hb := testBit_getBits v Fld.HIF_CTRL_pcie_en 0
    rw [h0, Nat.zero_testBit] at hb
    exact absurd (hb.trans ((Bool.true_and _).trans hv)) Bool.false_ne_true
  rw [State.flag, State.fld_plainWrite_of_taken _ _ (by decide)]
  simpa using hbit

theorem pcieEn_clear {s : State} {o : Nat} {v : Word} (h : s.Writable o Adr.HIF_CTRL) (hv : v.getLsbD 0 = false) :
    ∃ t, exec (.pcieEnWrite o v) s = .next t ∧ t.assoc 1024 = none ∧ t.host.pcieEnabled = false := by
  have heq : s.writeHifCtrl v = ((s.plainWrite Adr.HIF_CTRL v).endAssoc 1024).modHost (fun h => { h with pcieEnabled := false }) :=
    if_neg (by rw [hv]; exact Bool.false_ne_true)
  exact ⟨_, (exec_pcieEnWrite v h).trans (congrArg Host.Outcome.next heq), State.endAssoc_lacks _ 1024, rfl⟩

/-! ## A firmware frame (R76) -/

theorem pscAcc_rows (a : Fin 4) : rowTakes (Adr.CHN_PSC_ACC a) Fld.CHN_PSC_ACC_addr = true ∧ rowKeeps (Adr.CHN_PSC_ACC a) Fld.CHN_PSC_ACC_busy = true ∧
    Adr.CHN_PSC_CFG a ≠ Adr.CHN_PSC_ACC a := by
  decide +revert

theorem State.startFirmwareFrame_facts {s : State} {a : Fin 4} (f : PscFrame) (h : (s.act a).psc = none) :
    (s.startFirmwareFrame a f).flag (Adr.CHN_PSC_ACC a) Fld.CHN_PSC_ACC_busy = true ∧ ((s.startFirmwareFrame a f).act a).psc = some f ∧
      SliceFrame a [Adr.CHN_PSC_ACC a] s (s.startFirmwareFrame a f) := by
  have hnone : ((s.setFlag (Adr.CHN_PSC_ACC a) Fld.CHN_PSC_ACC_busy true).act a).psc.isNone = true := by
    rw [show ((s.setFlag (Adr.CHN_PSC_ACC a) Fld.CHN_PSC_ACC_busy true).act a).psc = none from h]
    rfl
  unfold State.startFirmwareFrame
  extract_lets s1
  refine ⟨s.flag_setFlag_eq _ _ true (by decide), ?_,
    ((SliceFrame.refl a [Adr.CHN_PSC_ACC a] s).setFlag (r := Adr.CHN_PSC_ACC a) Fld.CHN_PSC_ACC_busy true (by simp)).modAct _⟩
  rw [State.act_modAct_same, if_pos hnone]

theorem State.writePscAcc_of_go {s : State} {a : Fin 4} {v : Word} (hgo : getBits v Fld.CHN_PSC_ACC_go = 1)
    (hb : s.flag (Adr.CHN_PSC_ACC a) Fld.CHN_PSC_ACC_busy = false)
    (hne : getBits v Fld.CHN_PSC_ACC_addr ≠ s.fld (Adr.CHN_PSC_CFG a) Fld.CHN_PSC_CFG_head_addr) :
    ∃ f : PscFrame, s.writePscAcc a v = (s.plainWrite (Adr.CHN_PSC_ACC a) v).startFirmwareFrame a f ∧ f.head = none ∧
      f.addr = getBits v Fld.CHN_PSC_ACC_addr := by
  obtain ⟨htaken, -, hapart⟩ := pscAcc_rows a
  obtain ⟨-, hregs⟩ := s.plainWrite_only (Adr.CHN_PSC_ACC a) v
  have haddr := s.fld_plainWrite_of_taken v htaken
  have hhead := hregs.fld (a := Adr.CHN_PSC_CFG a) Fld.CHN_PSC_CFG_head_addr (by simpa using hapart)
  refine ⟨(s.plainWrite (Adr.CHN_PSC_ACC a) v).pscFrame a none ((s.plainWrite (Adr.CHN_PSC_ACC a) v).flag (Adr.CHN_PSC_ACC a) Fld.CHN_PSC_ACC_rw)
    ((s.plainWrite (Adr.CHN_PSC_ACC a) v).fld (Adr.CHN_PSC_ACC a) Fld.CHN_PSC_ACC_addr)
    ((s.plainWrite (Adr.CHN_PSC_ACC a) v).fld (Adr.CHN_PSC_ACC a) Fld.CHN_PSC_ACC_wdata), ?_, rfl, haddr⟩
  unfold State.writePscAcc
  extract_lets adr busy s1
  have hs1 : s1 = s.plainWrite (Adr.CHN_PSC_ACC a) v := rfl
  have hbusy : busy = false := hb
  rw [hs1, if_neg (by omega), hbusy, haddr, hhead, if_neg (by simpa using hne), ← haddr]

theorem pscFrame_started {s : State} {o : Nat} {a : Fin 4} {v : Word} (h : s.Writable o (Adr.CHN_PSC_ACC a))
    (hb : s.flag (Adr.CHN_PSC_ACC a) Fld.CHN_PSC_ACC_busy = false) (hpsc : (s.act a).psc = none)
    (hne : getBits v Fld.CHN_PSC_ACC_addr ≠ s.fld (Adr.CHN_PSC_CFG a) Fld.CHN_PSC_CFG_head_addr) : ∃ t, exec (.pscFrameGo o a v) s = .next t ∧
      t.flag (Adr.CHN_PSC_ACC a) Fld.CHN_PSC_ACC_busy = true ∧ (∃ f, (t.act a).psc = some f ∧ f.head = none ∧
        f.addr = getBits v Fld.CHN_PSC_ACC_addr) ∧ s.RegsBut [Adr.CHN_PSC_ACC a] t ∧ s.ActsBut a t ∧
      t = { s with regs := t.regs, acts := t.acts } := by
  have hexec : exec (.pscFrameGo o a v) s = .next (s.writePscAcc a (setBits v Fld.CHN_PSC_ACC_go 1)) :=
    congrArg Host.Outcome.next (s.ownerReg_of_writable _ _ h)
  have hgo : getBits (setBits v Fld.CHN_PSC_ACC_go 1) Fld.CHN_PSC_ACC_go = 1 := getBits_setBits_same _ _ _ ⟨by decide, by decide⟩
  have haddr : getBits (setBits v Fld.CHN_PSC_ACC_go 1) Fld.CHN_PSC_ACC_addr = getBits v Fld.CHN_PSC_ACC_addr :=
    getBits_setBits_other _ _ _ _ ⟨by decide, by decide⟩ (by decide)
  obtain ⟨f, hwrite, hhead, hf⟩ := State.writePscAcc_of_go hgo hb (by rw [haddr]; exact hne)
  obtain ⟨honly, hregs⟩ := s.plainWrite_only (Adr.CHN_PSC_ACC a) (setBits v Fld.CHN_PSC_ACC_go 1)
  have hsame : (s.plainWrite (Adr.CHN_PSC_ACC a) (setBits v Fld.CHN_PSC_ACC_go 1)).acts = s.acts := by
    rw [honly]
  have hplain : SliceFrame a [Adr.CHN_PSC_ACC a] s (s.plainWrite (Adr.CHN_PSC_ACC a) (setBits v Fld.CHN_PSC_ACC_go 1)) := by
    refine ⟨hregs, fun b _ => ?_, ?_⟩
    · rw [State.act, hsame, State.act]
    · rw [hsame]
      exact honly
  have hacts : ((s.plainWrite (Adr.CHN_PSC_ACC a) (setBits v Fld.CHN_PSC_ACC_go 1)).act a).psc = none := by
    rw [State.act, hsame]
    exact hpsc
  obtain ⟨hbusy, hact, hframe⟩ := State.startFirmwareFrame_facts f hacts
  have hall := hplain.trans hframe
  exact ⟨_, hexec.trans (by rw [hwrite]), hbusy, ⟨f, hact, hhead, hf.trans haddr⟩, hall.regs, hall.acts, hall.rest⟩

/-- Settles O40: every row is the owner's write of its register, and that write by condition. -/
theorem ownerWriteRows : Obligations.OwnerWriteRows := by
  unfold Obligations.OwnerWriteRows
  refine ⟨fun s w ha hp r hr => ?_, fun s o v => ⟨fun h hc hn => stagingClaim_taken h hc hn, fun h => stagingRelease_done v h,
    fun h hv => pcieEn_set h hv, fun h hv => pcieEn_clear h hv, fun a h hb hpsc hne => pscFrame_started h hb hpsc hne⟩⟩
  have hexec := exec_ownerRow ha hp r hr
  refine ⟨fun h => ?_, fun h x hx => ⟨fun hpow hheld => ?_, fun hw => ?_⟩, fun h => ?_, ?_, ?_⟩
  · rw [hexec, State.ownerReg_of_other _ _ h]
  · rw [hexec, State.ownerReg_of_off _ _ h hx hpow hheld]
  · rw [hexec, State.ownerReg_of_waiting _ _ h hx hw]
  · rw [hexec, State.ownerReg_of_writable _ _ h]
  · exact ⟨(State.RegsButEvents.refl [] s).event _ _ _, (s.event_only _ _ _).takeEvents⟩
  · exact ⟨(State.RegsButEvents.refl [] s).event _ _ _, (s.event_only _ _ _).takeEvents⟩

end Sys2Proof.Machine
end

section
/-! The life of a function (R34 to R37), and the end of the wait for a region (R31). -/

namespace Sys2Proof.Machine

open Sys2Proof

/-! ## What a step leaves of a function -/

/-- From s to t function k keeps its control register, the functions what they hold, and the medium all. -/
structure FuncKept (k : Nat) (s t : State) : Prop where
  ctrl : ∀ f, t.fld (Adr.FUNC_CTRL k) f = s.fld (Adr.FUNC_CTRL k) f
  funcs : t.funcs = s.funcs
  media : t.media = s.media

namespace FuncKept

variable {k : Nat} {s t u : State}

theorem refl (k : Nat) (s : State) : FuncKept k s s := ⟨fun _ => rfl, rfl, rfl⟩

theorem trans (h : FuncKept k s t) (g : FuncKept k t u) : FuncKept k s u :=
  ⟨fun f => (g.ctrl f).trans (h.ctrl f), g.funcs.trans h.funcs, g.media.trans h.media⟩

theorem setFld (h : FuncKept k s t) {r : Nat} (f : Fld) (v : Nat) (hr : Adr.FUNC_CTRL k ≠ r) : FuncKept k s (t.setFld r f v) :=
  h.trans ⟨fun g => t.fld_setFld_ne f g v hr, rfl, rfl⟩

theorem setFlag (h : FuncKept k s t) {r : Nat} (f : Fld) (v : Bool) (hr : Adr.FUNC_CTRL k ≠ r) : FuncKept k s (t.setFlag r f v) := h.setFld f _ hr

theorem modTime (h : FuncKept k s t) (f : Time → Time) : FuncKept k s (t.modTime f) := h.trans ⟨fun _ => rfl, rfl, rfl⟩

theorem modHost (h : FuncKept k s t) (f : HostState → HostState) : FuncKept k s (t.modHost f) := h.trans ⟨fun _ => rfl, rfl, rfl⟩

theorem only (hk : k < 15) (h : FuncKept k s t) (e : EventOnly t u) : FuncKept k s u :=
  h.trans ⟨fun f => e.fld f (funcCtrl_apart hk).2.2, e.funcs, e.media⟩

theorem event (hk : k < 15) (h : FuncKept k s t) (id d e : Nat) : FuncKept k s (t.event id d e) := h.only hk (t.event_only id d e)

theorem ite {p : Prop} [Decidable p] (h : FuncKept k s t) (g : FuncKept k s u) : FuncKept k s (if p then t else u) := by
  split
  · exact h
  · exact g

theorem slice {a : Fin 4} {l : List Nat} (h : FuncKept k s t) (e : SliceFrame a l t u) (hl : Adr.FUNC_CTRL k ∉ l) : FuncKept k s u :=
  h.trans ⟨fun f => e.fld f hl, by rw [e.rest], e.media⟩

theorem spin {l : List Nat} (hk : k < 15) (h : FuncKept k s t) (e : SpinFrame l t u) (hl : Adr.FUNC_CTRL k ∉ l) : FuncKept k s u :=
  h.trans ⟨fun f => e.regs.fld f hl (funcCtrl_apart hk).2.2, by rw [e.rest]; rfl, e.media⟩

theorem work (hk : k < 15) (h : FuncKept k s t) (e : HostWork t u) : FuncKept k s u :=
  h.trans ⟨fun f => e.regs.fld f List.not_mem_nil (funcCtrl_apart hk).2.2, by rw [e.rest]; rfl, e.media⟩

theorem post (h : FuncKept k s t) (c : Completion) : FuncKept k s (t.post c) := by
  unfold State.post
  refine .ite h (.ite (h.modHost _) ?_)
  split
  · exact .ite (h.modHost _) ((h.modHost _).modHost _)
  · exact h.modHost _

theorem complete (hk : k < 15) (h : FuncKept k s t) (x : Ctx) (r : Status) (d e : Nat) (data : List Byte) (lba n : Nat) :
    FuncKept k s (t.complete x r d e data lba n) := by
  unfold State.complete
  extract_lets s1 s2
  have h1 : FuncKept k s s1 := h.post _
  have h2 : FuncKept k s s2 := .ite h1 (h1.modHost _)
  exact h2.work hk (s2.dropCtx_facts x.assoc x.qid x.cid).1

theorem endReconf (hk : k < 15) (h : FuncKept k s t) (j : Nat) (l : List Nat) (r : Status) : FuncKept k s (t.endReconf j l r) := by
  refine foldl_induct (P := FuncKept k s) (fun u x _ hu => ?_) h
  split
  · exact .ite (hu.complete hk x r _ 0 [] 0 0) hu
  · exact hu

theorem fstate (h : FuncKept k s t) : t.fstate k = s.fstate k := h.ctrl _

theorem func (h : FuncKept k s t) (j : Nat) : t.func j = s.func j := by rw [State.func, h.funcs, State.func]

end FuncKept

/-- The registers that stops, restarts and aborts write, other than those of the functions. -/
theorem funcCtrl_ne {k : Nat} (hk : k < 15) : Adr.FUNC_CTRL k ∉ [Adr.TMB_STATUS, Adr.TMB_PLSTAT, Adr.SPN_ANGLE, Adr.SPN_STICKY, Adr.L2C_STATUS] := by
  have hall : ∀ j < 15, Adr.FUNC_CTRL j ∉ [Adr.TMB_STATUS, Adr.TMB_PLSTAT, Adr.SPN_ANGLE, Adr.SPN_STICKY, Adr.L2C_STATUS] := by decide
  exact hall k hk

theorem funcCtrl_ne_slice {k : Nat} (hk : k < 15) (a : Fin 4) :
    Adr.FUNC_CTRL k ∉ [Adr.SRV_STATUS a, Adr.FSQ_STATUS a, Adr.FSQ_PATCH a, Adr.ZT_STATUS a, Adr.NET_STATUS a, Adr.FSQ_ERR a] := by
  have hall : ∀ j < 15, ∀ b : Fin 4, Adr.FUNC_CTRL j ∉ [Adr.SRV_STATUS b, Adr.FSQ_STATUS b, Adr.FSQ_PATCH b, Adr.ZT_STATUS b, Adr.NET_STATUS b, Adr.FSQ_ERR b] := by
    decide
  exact hall k hk a

theorem funcCtrl_ne_of_mem {k r : Nat} (hk : k < 15) (hr : r ∈ [Adr.TMB_STATUS, Adr.TMB_PLSTAT, Adr.SPN_ANGLE, Adr.SPN_STICKY, Adr.L2C_STATUS]) :
    Adr.FUNC_CTRL k ≠ r := fun h => funcCtrl_ne hk (h ▸ hr)

theorem funcCtrl_ne_of_mem_slice {k r : Nat} (hk : k < 15) (a : Fin 4)
    (hr : r ∈ [Adr.SRV_STATUS a, Adr.FSQ_STATUS a, Adr.FSQ_PATCH a, Adr.ZT_STATUS a, Adr.NET_STATUS a, Adr.FSQ_ERR a]) : Adr.FUNC_CTRL k ≠ r :=
  fun h => funcCtrl_ne_slice hk a (h ▸ hr)

/-! ## Stops (R36) -/

/-- The registers of the time base and the phase loop that the loss of a source may change. -/
def timeRegs : List Nat := [Adr.TMB_STATUS, Adr.TMB_PLSTAT, Adr.SPN_ANGLE]

namespace SpinFrame

variable {s t : State}

theorem check (h : SpinFrame timeRegs s t) : SpinFrame timeRegs s t.phaseCheck :=
  h.trans (t.phaseCheck_frame.mono (by simp [timeRegs]))

theorem enterHoldover (h : SpinFrame timeRegs s t) : SpinFrame timeRegs s t.enterHoldover :=
  ((h.setFld _ _ (by simp [timeRegs])).modTime _).event _ _ _

theorem sourcesGone (h : SpinFrame timeRegs s t) : SpinFrame timeRegs s t.sourcesGone := by
  have hset : SpinFrame timeRegs s (t.setTb t.time.acqFrom) := h.setFld (r := Adr.TMB_STATUS) _ _ (by simp [timeRegs])
  unfold State.sourcesGone
  extract_lets s1
  have h1 : SpinFrame timeRegs s s1 := hset.modTime _
  exact .ite h.enterHoldover (.ite (.ite (h1.event _ _ _) h1) h)

theorem sourcesChanged (h : SpinFrame timeRegs s t) : SpinFrame timeRegs s t.sourcesChanged := by
  unfold State.sourcesChanged
  extract_lets used s1
  have h1 : SpinFrame timeRegs s s1 := h.setFld _ _ (by simp [timeRegs])
  have hacq : SpinFrame timeRegs s s1.enterAcquiring := by
    unfold State.enterAcquiring
    exact (h1.setFld (r := Adr.TMB_STATUS) _ _ (by simp [timeRegs])).modTime _
  exact .ite h1 (.ite h1.sourcesGone.check (.ite hacq.check h1))

theorem timeStopped (h : SpinFrame timeRegs s t) : SpinFrame timeRegs s t.timeStopped := by
  unfold State.timeStopped
  extract_lets was from_ s1 s2
  have h1 : SpinFrame timeRegs s s1 := h.modTime _
  have h2 : SpinFrame timeRegs s s2 := .ite h1.enterHoldover (.ite h1 (((h1.setFld _ _ (by simp [timeRegs])).modTime _).event _ _ _))
  exact h2.check

theorem ptpLinkDown (h : SpinFrame timeRegs s t) (p : Nat) : SpinFrame timeRegs s (t.ptpLinkDown p) := by
  unfold State.ptpLinkDown
  refine .ite h ?_
  extract_lets s1
  have h1 : SpinFrame timeRegs s s1 := (h.modTime _).sourcesChanged
  exact .ite ((h1.setFld _ _ (by simp [timeRegs])).event _ _ _) h1

end SpinFrame

/-- A link that goes: s with the port's status and its link cleared, before the events and what the time base loses with it. -/
def State.linkCleared (s : State) (p : Nat) : State :=
  ((s.setFlag (Adr.NET_STATUS p) Fld.NET_STATUS_link false).setFlag (Adr.NET_STATUS p) Fld.NET_STATUS_an_done false).modHost
    (fun h => { h with linkDownAt := eraseKey h.linkDownAt p, links := eraseKey h.links p })

theorem State.linkGone_frame (s : State) (p : Nat) : SpinFrame timeRegs (s.linkCleared p) (s.linkGone p) :=
  .ite (((SpinFrame.refl _ _).event _ _ _).ptpLinkDown p) (.refl _ _)

theorem funcCtrl_ne_time {k : Nat} (hk : k < 15) : Adr.FUNC_CTRL k ∉ timeRegs := fun h =>
  funcCtrl_ne hk (by
    simp only [timeRegs, List.mem_cons, List.not_mem_nil, or_false] at h ⊢
    rcases h with h | h | h
    · exact .inl h
    · exact .inr (.inl h)
    · exact .inr (.inr (.inl h)))

namespace FuncKept

variable {k : Nat} {s t : State}

theorem check (hk : k < 15) (h : FuncKept k s t) : FuncKept k s t.phaseCheck := h.spin hk (SpinFrame.refl _ t).check (funcCtrl_ne_time hk)

theorem timeStopped (hk : k < 15) (h : FuncKept k s t) : FuncKept k s t.timeStopped := h.spin hk (SpinFrame.refl _ t).timeStopped (funcCtrl_ne_time hk)

theorem linkGone (hk : k < 15) (h : FuncKept k s t) {p : Nat} (hp : p < 2) : FuncKept k s (t.linkGone p) := by
  have hne : Adr.FUNC_CTRL k ≠ Adr.NET_STATUS p := funcCtrl_ne_of_mem_slice hk ⟨p, by omega⟩ (by simp)
  have h1 : FuncKept k s (t.linkCleared p) := ((h.setFlag _ _ hne).setFlag _ _ hne).modHost _
  exact h1.spin hk (t.linkGone_frame p) (funcCtrl_ne_time hk)

end FuncKept

theorem State.fstate_setFstate (s : State) {k v : Nat} (hv : v < 4) : (s.setFstate k v).fstate k = v :=
  State.fld_setFld_of_lt _ _ _ (by decide) hv

/-- A function that reaches stopped: its state, and what every function holds, the medium with it. -/
theorem State.enterStopped_facts (s : State) {k : Nat} (hk : k < 15) :
    (s.enterStopped k).fstate k = 2 ∧ (s.enterStopped k).funcs = s.funcs ∧ (s.enterStopped k).media = s.media := by
  suffices h : FuncKept k (s.setFstate k 2) (s.enterStopped k) from
    ⟨h.fstate.trans (s.fstate_setFstate (by omega)), h.funcs, h.media⟩
  have h1 := FuncKept.refl k (s.setFstate k 2)
  unfold State.enterStopped
  extract_lets s1 s2
  have hslice : FuncKept k s1 ((s1.noPermit (actOf k)).unsettle (actOf k)) :=
    h1.slice (((SliceFrame.refl (actOf k) [Adr.SRV_STATUS (actOf k)] s1).noPermit (by simp)).unsettle (by simp))
      (fun hm => funcCtrl_ne_slice hk (actOf k) (by simp only [List.mem_cons, List.not_mem_nil, or_false] at hm; simp [hm]))
  have h2 : FuncKept k s1 s2 := by
    simp only [s2]
    split
    · exact hslice
    · split
      · exact h1.check hk
      · split
        · exact h1.timeStopped hk
        · split
          · exact h1.linkGone hk (by omega)
          · exact h1
  exact h2.endReconf hk k [1] .ok

/-- Function k is stopping: the shadow set is empty. -/
theorem State.stopBegun_facts (s : State) {k : Nat} (hk : k < 15) :
    ((s.setFstate k 1).modFunc k (fun f => { f with shadow := [], since := s.now, abandon := false })).fstate k = 1 ∧
      (((s.setFstate k 1).modFunc k (fun f => { f with shadow := [], since := s.now, abandon := false })).func k).shadow = [] ∧
      ((s.setFstate k 1).modFunc k (fun f => { f with shadow := [], since := s.now, abandon := false })).media = s.media := by
  refine ⟨?_, ?_, ?_⟩
  · rw [State.fstate, State.fld, State.reg_modFunc]
    exact s.fstate_setFstate (by omega)
  · rw [State.func_modFunc_same _ _ hk]
  · rw [State.modFunc_only]
    rfl

theorem State.beginStop_facts (s : State) {k : Nat} (hk : k < 15) :
    (s.beginStop k).fstate k = (if k = 10 ∨ k = 11 ∨ k = 14 then 2 else 1) ∧ ((s.beginStop k).func k).shadow = [] ∧ (s.beginStop k).media = s.media := by
  obtain ⟨hstate, hshadow, hmedia⟩ := s.stopBegun_facts hk
  unfold State.beginStop
  extract_lets s1 s2
  have h2 : FuncKept k s1 s2 := .ite ((FuncKept.refl k s1).setFlag _ _ (funcCtrl_ne_of_mem_slice hk (actOf k) (by simp))) (.refl k s1)
  have hfunc : (s2.func k).shadow = [] := by
    rw [h2.func]
    exact hshadow
  split
  · obtain ⟨he, hf, hm⟩ := s2.enterStopped_facts hk
    refine ⟨he, ?_, hm.trans (h2.media.trans hmedia)⟩
    rw [State.func, hf]
    exact hfunc
  · exact ⟨h2.fstate.trans hstate, hfunc, h2.media.trans hmedia⟩

/-! ## Restarts and abandons (R37) -/

theorem FuncKept.seqEvent {k : Nat} {s t : State} (hk : k < 15) (h : FuncKept k s t) (a : Fin 4) (n : Nat) : FuncKept k s (t.seqEvent a n) := by
  have hne : Adr.FUNC_CTRL k ≠ Adr.FSQ_ERR a := funcCtrl_ne_of_mem_slice hk a (by simp)
  have e := t.seqEvent_frame a n
  exact h.trans ⟨fun f => e.fld f (by rw [List.mem_singleton]; exact hne) (funcCtrl_apart hk).2.2, by rw [e.rest]; rfl, e.media⟩

theorem State.checkFormat_kept (s : State) (a : Fin 4) {k : Nat} (hk : k < 15) :
    FuncKept k s (s.checkFormat a).2 ∧ (s.checkFormat a).2.host = s.host := by
  have h := FuncKept.refl k s
  have hpatch := fun v : Bool => h.setFlag Fld.FSQ_PATCH_crc_fail v (funcCtrl_ne_of_mem_slice hk a (r := Adr.FSQ_PATCH a) (by simp))
  unfold State.checkFormat
  extract_lets rd
  split
  · dsimp only
    have hzone : ∀ w, FuncKept k s (s.setReg (Adr.ZT_STATUS a) w) := fun w =>
      h.trans ⟨fun f => s.fld_setReg_ne w f (funcCtrl_ne_of_mem_slice hk a (by simp)), rfl, rfl⟩
    exact ⟨(hzone _).only hk (State.actEvent_only _ _ _ _ _), (State.actEvent_only _ _ _ _ _).host⟩
  · split
    · exact ⟨hpatch false, rfl⟩
    · exact ⟨(hpatch true).seqEvent hk a 3, (s.setFlag _ _ true).seqEvent_frame a 3 |>.host⟩

/-- The checks of a restart leave the function's state, what the functions hold, the medium and the host side. -/
theorem State.restartCheck_kept (s : State) {k : Nat} (hk : k < 15) :
    FuncKept k s (s.restartCheck k).2 ∧ (s.restartCheck k).2.host = s.host := by
  have h := FuncKept.refl k s
  unfold State.restartCheck
  split
  · exact s.checkFormat_kept _ hk
  split
  · split
    · dsimp only
      exact ⟨(h.setFlag (r := Adr.SPN_STICKY) _ _ (funcCtrl_ne_of_mem hk (by simp))).event hk _ _ _, State.event_host _ _ _ _⟩
    · exact ⟨h, rfl⟩
  split
  · extract_lets m
    split
    · exact ⟨h.setFlag (r := Adr.TMB_STATUS) _ _ (funcCtrl_ne_of_mem hk (by simp)), rfl⟩
    · exact ⟨h, rfl⟩
  split
  · exact ⟨h, rfl⟩
  split
  · split
    · dsimp only
      exact ⟨((h.setFlag (r := Adr.L2C_STATUS) _ _ (funcCtrl_ne_of_mem hk (by simp))).setFld (r := Adr.L2C_STATUS) _ _ (funcCtrl_ne_of_mem hk (by simp))).event hk _ _ _,
        State.event_host _ _ _ _⟩
    · exact ⟨h.setFld (r := Adr.L2C_STATUS) _ _ (funcCtrl_ne_of_mem hk (by simp)), rfl⟩
  · exact ⟨h, rfl⟩

theorem State.beginRestart_of_passed {s : State} {k : Nat} (h : (s.restartCheck k).1 = true) :
    (s.beginRestart k).2 = ((s.restartCheck k).2.setFstate k 3).modFunc k (fun f => { f with abandon := false }) :=
  congrArg Prod.snd (if_pos h)

theorem State.beginRestart_of_refused {s : State} {k : Nat} (h : (s.restartCheck k).1 = false) :
    (s.beginRestart k).2 = (s.restartCheck k).2.endReconf k [2] .field :=
  congrArg Prod.snd (if_neg (by rw [h]; exact Bool.false_ne_true))

theorem State.restart_passed {s : State} {k : Nat} (hk : k < 15) (h : (s.restartCheck k).1 = true) :
    (s.beginRestart k).2.fstate k = 3 ∧ (s.beginRestart k).2.media = s.media ∧ (s.beginRestart k).2.host = s.host := by
  obtain ⟨hkept, hhost⟩ := s.restartCheck_kept hk
  rw [State.beginRestart_of_passed h]
  refine ⟨?_, ?_, ?_⟩
  · rw [State.fstate, State.fld, State.reg_modFunc]
    exact State.fstate_setFstate _ (by omega)
  · rw [State.modFunc_only]
    exact hkept.media
  · rw [State.modFunc_only]
    exact hhost

theorem State.restart_refused {s : State} {k : Nat} (hk : k < 15) (hs : s.fstate k = 2) (h : (s.restartCheck k).1 = false) :
    (s.beginRestart k).2.fstate k = 2 ∧ (s.beginRestart k).2.media = s.media := by
  have hkept := (s.restartCheck_kept hk).1.endReconf hk k [2] .field
  rw [State.beginRestart_of_refused h]
  exact ⟨hkept.fstate.trans hs, hkept.media⟩

theorem State.beginAbandon_facts (s : State) {k : Nat} (hk : k < 15) : (s.beginAbandon k).fstate k = 3 ∧ ((s.beginAbandon k).func k).abandon = true ∧
    ((s.beginAbandon k).func k).shadow = [] ∧ s.RegsBut [Adr.FUNC_CTRL k] (s.beginAbandon k) ∧
    s.beginAbandon k = { s with regs := (s.beginAbandon k).regs, funcs := (s.beginAbandon k).funcs } := by
  unfold State.beginAbandon
  refine ⟨?_, ?_, ?_, fun r hr => ?_, ?_⟩
  · rw [State.fstate, State.fld, State.reg_modFunc]
    exact s.fstate_setFstate (by omega)
  · rw [State.func_modFunc_same _ _ hk]
  · rw [State.func_modFunc_same _ _ hk]
  · rw [State.reg_modFunc]
    exact (s.regsBut_setFld _ _ _) r hr
  · conv => lhs; rw [State.modFunc_only]
    rw [State.modFunc_only]
    rfl

/-! ## The owner's requests -/

section
variable {s : State} {o k : Nat}

theorem exec_funcStop (hk : k < 15) (h : s.Writable o (Adr.FUNC_CTRL k)) (hs : s.fstate k = 0) : exec (.funcStop o k) s = .next (s.beginStop k) := by
  refine congrArg Host.Outcome.next ((s.ownerReg_of_writable _ _ h).trans ((if_pos hk).trans ?_))
  exact if_pos hs

theorem exec_funcRestart (hk : k < 15) (h : s.Writable o (Adr.FUNC_CTRL k)) (hs : s.fstate k = 2) (hl : (s.func k).byLoad = false) :
    exec (.funcRestart o k) s = .next (s.beginRestart k).2 := by
  refine congrArg Host.Outcome.next ((s.ownerReg_of_writable _ _ h).trans ((if_pos hk).trans ?_))
  exact if_pos ⟨hs, by rw [hl]; rfl⟩

theorem exec_funcAbandon (hk : k < 15) (h : s.Writable o (Adr.FUNC_CTRL k)) (hs : s.fstate k = 2) (hl : (s.func k).byLoad = false) :
    exec (.funcAbandon o k) s = .next (s.beginAbandon k) := by
  refine congrArg Host.Outcome.next ((s.ownerReg_of_writable _ _ h).trans ((if_pos hk).trans ?_))
  exact if_pos ⟨hs, by rw [hl]; rfl⟩

/-! ## The rows of a function that go on by themselves -/

/-- With no request held, a function that reaches stopped performs none. -/
theorem State.performHeld_of_none (h : (s.func k).held = []) : s.performHeld k = s.modFunc k (fun f => { f with held := [] }) := by
  unfold State.performHeld
  rw [h]
  rfl

theorem funcStopped_facts (hk : k < 15) (hs : s.fstate k = 1) (hh : (s.func k).held = []) :
    ∃ u : State, exec (.funcStopped k) s = .next u.settle ∧ u.fstate k = 2 := by
  obtain ⟨hstate, hfuncs, -⟩ := s.enterStopped_facts hk
  have hheld : ((s.enterStopped k).func k).held = [] := by
    rw [State.func, hfuncs]
    exact hh
  refine ⟨(s.enterStopped k).performHeld k, if_pos ⟨hk, hs⟩, ?_⟩
  rw [State.performHeld_of_none hheld, State.fstate, State.fld, State.reg_modFunc]
  exact hstate

theorem exec_funcCommit (hk : k < 15) (hs : s.fstate k = 3) :
    exec (.funcCommit k) s = .next (if k = 12 ∨ k = 13 then (s.commitFunc k).portUp (k - 12) else s.commitFunc k).settle := if_pos ⟨hk, hs⟩

/-- s with the active set taken from the shadow set, unless the function was abandoned. -/
def State.shadowTaken (s : State) (k : Nat) : State :=
  if (s.func k).abandon then s else { s with regs := s.regs.putAll (s.func k).shadow }

/-- The state of the Cast function at its commit when no command waits. -/
theorem State.commitFunc_idle (hc : s.host.ctxs = []) (hh : (s.func 10).held = []) :
    s.commitFunc 10 = ((s.shadowTaken 10).setFstate 10 0).modFunc 10 (fun g => { g with shadow := [], abandon := false, byLoad := false, held := [] }) := by
  have htaken : (s.shadowTaken 10).host = s.host := by
    unfold State.shadowTaken
    split <;> rfl
  have hctxs : (((s.shadowTaken 10).setFstate 10 0).modFunc 10
      (fun g => { g with shadow := [], abandon := false, byLoad := false, held := [] })).host.ctxs = [] := by
    rw [State.modFunc_only]
    exact (congrArg HostState.ctxs htaken).trans hc
  unfold State.commitFunc
  extract_lets f s1 s2 s3 s3' s4 s5
  have hs2 : s2 = ((s.shadowTaken 10).setFstate 10 0).modFunc 10 (fun g => { g with shadow := [], abandon := false, byLoad := false, held := [] }) := rfl
  have hs3 : s3 = s2 := by
    simp only [s3]
    rw [hs2, hctxs]
    rfl
  have hs4 : s4 = s2 := hs3
  have hs5 : s5 = s2 := by
    have hloads : s2.endLoads 10 .ok = s2 := by
      unfold State.endLoads
      rw [hs2, hctxs]
      rfl
    have hreconf : s2.endReconf 10 [2, 3] .ok = s2 := by
      unfold State.endReconf
      rw [hs2, hctxs]
      rfl
    simp only [s5]
    rw [hs4, hloads, hreconf]
  rw [if_neg (by rw [show f.held = [] from hh]; exact Bool.false_ne_true), hs5, hs2]

theorem funcCommit_cast (hs : s.fstate 10 = 3) (hc : s.host.ctxs = []) (hh : (s.func 10).held = []) :
    ∃ t, exec (.funcCommit 10) s = .next t ∧ t.fstate 10 = 0 ∧ (t.func 10).shadow = [] := by
  have hidle := State.commitFunc_idle hc hh
  have hctxs : (s.commitFunc 10).host.ctxs = [] := by
    rw [hidle, State.modFunc_only]
    unfold State.shadowTaken
    split <;> exact hc
  refine ⟨_, exec_funcCommit (by omega) hs, ?_⟩
  rw [if_neg (by omega), State.settle_of_nil hctxs, hidle]
  refine ⟨?_, ?_⟩
  · rw [State.fstate, State.fld, State.reg_modFunc]
    exact State.fstate_setFstate _ (by omega)
  · rw [State.func_modFunc_same _ _ (by omega)]

/-! ## Bounds and limits (R35) -/

theorem pauseBound_expired (hk : k < 15) (hs : s.fstate k ≠ 0)
    (h : ∃ x ∈ s.host.ctxs, s.waitsFor k x = true ∧ max x.since (s.func k).since + pauseBound k ≤ s.now) :
    ∃ u : State, exec (.pauseBoundExpiry k) s = .next u.settle ∧ u.flag (Adr.FUNC_CTRL k) Fld.FUNC_CTRL_pause_exceeded = true := by
  obtain ⟨x, hx, hwait, hbound⟩ := h
  have hne : (s.host.ctxs.filter (fun x => s.waitsFor k x && decide (max x.since (s.func k).since + pauseBound k ≤ s.now))).isEmpty = false := by
    rw [List.isEmpty_eq_false_iff_exists_mem]
    exact ⟨x, List.mem_filter.2 ⟨hx, by simp [hwait, hbound]⟩⟩
  refine ⟨_, (if_pos ⟨hk, hs⟩).trans (if_neg (by rw [hne]; exact Bool.false_ne_true)), State.flag_setFlag_eq _ _ _ true (by decide)⟩

theorem pauseBound_running (h : ∀ x ∈ s.host.ctxs, s.waitsFor k x = true → s.now < max x.since (s.func k).since + pauseBound k) :
    exec (.pauseBoundExpiry k) s = .next s := by
  have hnone : (s.host.ctxs.filter (fun x => s.waitsFor k x && decide (max x.since (s.func k).since + pauseBound k ≤ s.now))).isEmpty = true := by
    rw [List.isEmpty_iff, List.filter_eq_nil_iff]
    intro x hx hp
    obtain ⟨hwait, hbound⟩ := Bool.and_eq_true_iff.1 hp
    exact absurd (h x hx hwait) (Nat.not_lt.2 (of_decide_eq_true hbound))
  by_cases hs : k < 15 ∧ s.fstate k ≠ 0
  · exact (if_pos hs).trans (if_pos hnone)
  · exact if_neg hs

theorem exec_stopLimitExpiry (hk : k < 15) (hs : s.fstate k = 2) (h : (s.func k).since + stopLimit k ≤ s.now) :
    exec (.stopLimitExpiry k) s = .next (s.revertNow k 0x7E0).settle := if_pos ⟨hk, hs, h⟩

theorem exec_stopLimitExpiry_running (h : s.now < (s.func k).since + stopLimit k) : exec (.stopLimitExpiry k) s = .next s :=
  if_neg fun hn => absurd h (Nat.not_lt.2 hn.2.2)

/-- The Cast function runs on its previous active settings, with its event: s after a revert when no command waits. -/
def State.castReverted (s : State) (e : Nat) : State :=
  (((s.setFstate 10 0).setFlag (Adr.FUNC_CTRL 10) Fld.FUNC_CTRL_revert_seen true).modFunc 10
    (fun f => { f with shadow := [], held := [], abandon := false, byLoad := false })).event e

theorem State.castReverted_ctxs (hc : s.host.ctxs = []) (e : Nat) : (s.castReverted e).host.ctxs = [] := by
  rw [State.castReverted, State.event_host, State.modFunc_only]
  exact hc

theorem State.revertNow_idle (hc : s.host.ctxs = []) (e : Nat) : s.revertNow 10 e = s.castReverted e := by
  have hctxs := State.castReverted_ctxs hc e
  unfold State.revertNow
  extract_lets before s1 s2 s3 loads s4 s5
  have hs3 : s3 = s.castReverted e := rfl
  have hs4 : s4 = s3 := by
    simp only [s4, State.endReconf]
    rw [hs3, hctxs, List.foldl_nil, hctxs, List.foldl_nil]
  have hs5 : s5 = s3 := by
    simp only [s5]
    rw [hs4, State.endLoads, hs3, hctxs, List.foldl_nil]
  have hloads : loads = false := by
    simp only [loads]
    rw [hs3, hctxs]
    rfl
  rw [hloads, if_neg Bool.false_ne_true, hs5, hs3]

theorem stopLimit_cast (hs : s.fstate 10 = 2) (hl : (s.func 10).since + stopLimit 10 ≤ s.now) (hc : s.host.ctxs = []) :
    ∃ t, exec (.stopLimitExpiry 10) s = .next t ∧ t.fstate 10 = 0 ∧ t.flag (Adr.FUNC_CTRL 10) Fld.FUNC_CTRL_revert_seen = true ∧
      s.RegsButEvents [Adr.FUNC_CTRL 10] t := by
  have hexec := exec_stopLimitExpiry (by omega) hs hl
  rw [State.revertNow_idle hc, State.settle_of_nil (State.castReverted_ctxs hc _)] at hexec
  refine ⟨_, hexec, ?_, ?_, State.RegsButEvents.event (fun r hr _ => ?_) _ _ _⟩
  · rw [State.fstate, State.castReverted, State.fld_event _ _ _ _ _ (by decide), State.fld, State.reg_modFunc]
    exact (State.fld_setFlag_apart _ _ _ _ _ (by decide) (by decide)).trans (s.fstate_setFstate (by omega))
  · rw [State.castReverted, State.flag_event _ _ _ _ _ (by decide), State.flag, State.fld, State.reg_modFunc]
    exact State.flag_setFlag_eq _ _ _ true (by decide)
  · rw [State.reg_modFunc]
    exact (((State.RegsBut.refl _ s).setFld _ _ (by simp)).setFlag _ _ (by simp)) r hr

end

/-! ## A region that does not come back (R31) -/

/-- From s to t accesses end: only events, and the value read, and no access waits. -/
structure AccessesEnd (s t : State) : Prop where
  held : t.heldRegs = []
  regs : s.RegsButEvents [] t
  media : t.media = s.media
  host : t.host = s.host

theorem State.endHeldRegs_ends {s : State} {r : Nat} (h : ∀ k ∈ s.heldRegs, regionOf k.addr = some r) : AccessesEnd s (s.endHeldRegs r) := by
  refine foldl_induct (P := AccessesEnd s) (fun t k hk ht => ?_) ⟨rfl, .refl [] s, rfl, rfl⟩
  rw [if_pos (h k hk)]
  obtain ⟨hheld, hregs, hmedia, hhost⟩ := ht
  have hread : AccessesEnd s (if k.write then t else { t with readData := 0 }) := by
    split <;> exact ⟨hheld, hregs, hmedia, hhost⟩
  have e := State.event_only (if k.write then t else { t with readData := 0 }) 0x0E0 0 0
  exact ⟨e.heldRegs.trans hread.held, hread.regs.event _ _ _, e.media.trans hread.media, e.host.trans hread.host⟩

theorem regionAccess_ended {s : State} {r : Nat} (hr : s.restarting r = true) (hc : s.host.ctxs = []) (h : ∀ k ∈ s.heldRegs, regionOf k.addr = some r) :
    ∃ t, exec (.regionAccessTimeout r) s = .next t ∧ t.heldRegs = [] ∧ s.RegsButEvents [] t ∧ t.media = s.media := by
  have hend := State.endHeldRegs_ends h
  have hctxs : (s.endHeldRegs r).host.ctxs = [] := by rw [hend.host, hc]
  have hwaits : (s.endHeldRegs r).endRegionWaits r = s.endHeldRegs r := by
    unfold State.endRegionWaits
    rw [hctxs]
    rfl
  refine ⟨s.endHeldRegs r, (if_pos hr).trans ?_, hend.held, hend.regs, hend.media⟩
  rw [hwaits, State.settle_of_nil hctxs]

/-- Settles O44: each row by what it leaves of its function, and the bounds by when they have run out. -/
theorem functionRows : Obligations.FunctionRows := by
  unfold Obligations.FunctionRows
  intro s o k hk
  refine ⟨fun hw => ⟨fun hs => ⟨_, exec_funcStop hk hw hs, s.beginStop_facts hk⟩, fun hs hl => ⟨fun hp => ⟨_, exec_funcRestart hk hw hs hl, State.restart_passed hk hp⟩,
    fun hp => ⟨_, exec_funcRestart hk hw hs hl, State.restart_refused hk hs hp⟩, ⟨_, exec_funcAbandon hk hw hs hl, s.beginAbandon_facts hk⟩⟩⟩,
    fun hs hh => funcStopped_facts hk hs hh, fun hs => exec_funcCommit hk hs, fun hs hc hh => funcCommit_cast hs hc hh,
    fun hs h => pauseBound_expired hk hs h, fun h => pauseBound_running h, fun hs hl => exec_stopLimitExpiry hk hs hl,
    fun _ hl => exec_stopLimitExpiry_running hl, fun hs hl hc => stopLimit_cast hs hl hc, fun r hr hc h => regionAccess_ended hr hc h⟩

end Sys2Proof.Machine
end

section
/-! Register Write, Register Read and Reconfigure Function (R2, R31, R384). -/

namespace Sys2Proof.Machine

open Sys2Proof

/-! ## A command alone that waits -/

/-- The context x from the instant on at which it waits for w. -/
def Ctx.waiting (x : Ctx) (now : Nat) (w : Wait) : Ctx :=
  { x with
    wait := w, since := now, delayed := x.delayed || w.delays
    recovFrom := if w = .recovery then x.recovFrom.or (some now) else x.recovFrom }

theorem State.waitFor_ctxs {s : State} {x : Ctx} (h : s.host.ctxs = [x]) (w : Wait) : (s.waitFor x w).host.ctxs = [x.waiting s.now w] := by
  change s.host.ctxs.map _ = _
  rw [h]
  simp [Ctx.is, Ctx.waiting]

/-- A command alone whose effect leaves the host side as its wait for w does, and that may not go on, waits. -/
theorem State.Only.waits {s u : State} {c : Cmd} {x : Ctx} {i : Instr} {w : Wait} (h : s.Only c x) (hi : i ∈ nvmeRows c) (hr : s.Ready x i)
    (hb : (s.taken x i c).body { x with instr := some i } i false = u)
    (hu : u.host = ((s.taken x i c).waitFor { x with instr := some i } w).host) (hgo : u.mayGoOn (Ctx.waiting { x with instr := some i } s.now w) = false) :
    Sys2Proof.Machine.exec i s = .next u ∧ s.Waits u c w := by
  obtain ⟨halone, hctxs⟩ := h.taken_alone i
  obtain ⟨ha, hq, hid⟩ := h.key
  have hnow : (s.taken x i c).now = s.now := by rw [s.taken_only x i c]
  have hnew : u.host.ctxs = [Ctx.waiting { x with instr := some i } s.now w] := by
    rw [hu, State.waitFor_ctxs hctxs, hnow]
  refine ⟨?_, ?_, _, hnew, ha, hq, hid, rfl⟩
  · rw [h.exec_body hi hr, hb, State.settle_of_waiting hnew hgo]
  · rw [hu]
    exact halone.completions

/-! ## Register Write -/

theorem eraseDups_length_of_short {l : List Nat} (h : l.length ≤ 1) : l.eraseDups.length < 2 := by
  match l with
  | [] => decide
  | [a] => simp [List.eraseDups_cons]
  | _ :: _ :: _ => simp at h

theorem gatherFuncs_single (p : RegPair) : gatherFuncs [p] = [p] := by
  unfold gatherFuncs
  extract_lets f sorted plain
  have hf : (f.filterMap funcCmd).length ≤ 1 := Nat.le_trans (List.length_filterMap_le ..) (List.length_filter_le ..)
  exact if_pos (eraseDups_length_of_short (Nat.le_trans (Nat.le_of_eq (List.length_map _)) hf))

section
variable {s : State} {c : Cmd} {x : Ctx} {p : RegPair} {g : Nat}

theorem State.bodyRegisterWrite_of_pair (hz : restZero12 c = true) (h10 : c.cdw10 = 1) (h11 : c.cdw11 = 0) (hd : dataOk c 8 = true)
    (hp : pairsOf c = [p]) (ha : p.addr % 4 = 0) (hlt : p.addr < 0x8000000) : s.bodyRegisterWrite x c = s.writePairs x [p] := by
  unfold State.bodyRegisterWrite
  extract_lets n
  have hn : n = 1 := by
    simp only [n, h10]
    rfl
  rw [if_neg, hp, gatherFuncs_single]
  simp [hn, h11, hz, hd, hp, ha]
  omega

/-- An earlier access of the register commands makes this one wait (R29). -/
theorem State.regBefore_of_held (h : ∃ k ∈ s.heldRegs, k.path = .regCmd) : s.regBefore x = true := by
  obtain ⟨k, hk, hpath⟩ := h
  exact Bool.or_eq_true_iff.2 (.inl (List.any_eq_true.2 ⟨k, hk, by rw [hpath]; rfl⟩))

theorem State.regWaits_of_free {y : Ctx} (hctxs : s.host.ctxs = [y]) (hy : y.order = x.order) (hrun : s.restarting g = false)
    (hheld : ∀ k ∈ s.heldRegs, k.path ≠ .regCmd) (a : Nat) : s.regWaits x g a = false := by
  have hbefore : s.regBefore x = false := by
    rw [State.regBefore, Bool.or_eq_false_iff, hctxs]
    exact ⟨List.any_eq_false.2 fun k hk => by simpa using hheld k hk, by simp [hy]⟩
  rw [State.regWaits, hbefore, hrun]
  simp

/-- The one pair of a Register Write, in a region that runs, is written at once. -/
theorem State.writePairs_single (hg : regionOf p.addr = some g) (hw : s.regWaits x g p.addr = false) (hpow : s.powered g = true)
    (hof : (s.performWrite p.addr p.value).ctxOf x = some x) : s.writePairs x [p] = (s.performWrite p.addr p.value).complete x .ok := by
  unfold State.writePairs
  simp only [hg, hw, hpow, hof, Bool.false_eq_true, if_false, Bool.not_true]
  rw [State.writePairs]

theorem State.ctxOf_of_single (h : s.host.ctxs = [x]) : s.ctxOf x = some x := by
  rw [State.ctxOf, h]
  simp

theorem registerWrite_waits (h : s.Only c x) (hz : restZero12 c = true) (hr : s.Ready x (.registerWrite c)) (h10 : c.cdw10 = 1) (h11 : c.cdw11 = 0)
    (hd : dataOk c 8 = true) (hp : pairsOf c = [p]) (ha : p.addr % 4 = 0) (hlt : p.addr < 0x8000000) (hg : regionOf p.addr = some g)
    (hheld : ∃ k ∈ s.heldRegs, k.path = .regCmd) :
    ∃ t, exec (.registerWrite c) s = .next t ∧ s.Waits t c (.region g [p] []) ∧ t = { s with host := t.host } := by
  have htaken := s.taken_only x (.registerWrite c) c
  have hbefore : ∀ y, (s.taken x (.registerWrite c) c).regBefore y = true := fun y => by
    rw [htaken]
    exact State.regBefore_of_held hheld
  have hwait : ∀ y, (s.taken x (.registerWrite c) c).regWaits y g p.addr = true := fun y => by
    rw [State.regWaits, hbefore, Bool.or_true]
  have hbody : (s.taken x (.registerWrite c) c).body { x with instr := some (.registerWrite c) } (.registerWrite c) false =
      (s.taken x (.registerWrite c) c).waitFor { x with instr := some (.registerWrite c) } (.region g [p] []) := by
    refine (State.bodyRegisterWrite_of_pair hz h10 h11 hd hp ha hlt).trans ?_
    unfold State.writePairs
    simp only [hg, hwait, if_true]
  obtain ⟨hexec, hwaits⟩ := h.waits (by simp [nvmeRows]) hr hbody rfl (by
    have hlater : ∀ y, ((s.taken x (.registerWrite c) c).waitFor { x with instr := some (.registerWrite c) } (.region g [p] [])).regBefore y = true :=
      fun y => by
        rw [htaken]
        exact State.regBefore_of_held hheld
    rw [State.mayGoOn]
    simp only [Ctx.waiting, hlater, Bool.not_true, Bool.and_false])
  refine ⟨_, hexec, hwaits, ?_⟩
  rw [htaken]
  rfl

/-- The write of one pair, whose effect v on the device leaves the host side and the slices, is acknowledged. -/
theorem registerWrite_done (h : s.Only c x) (hc : c.assoc < 1024) (hz : restZero12 c = true) (hr : s.Ready x (.registerWrite c)) (h10 : c.cdw10 = 1)
    (h11 : c.cdw11 = 0) (hd : dataOk c 8 = true) (hp : pairsOf c = [p]) (ha : p.addr % 4 = 0) (hlt : p.addr < 0x8000000)
    (hg : regionOf p.addr = some g) (hpow : s.powered g = true) (hheld : ∀ k ∈ s.heldRegs, k.path ≠ .regCmd) (hrun : s.restarting g = false)
    (hhost : ((s.taken x (.registerWrite c) c).performWrite p.addr p.value).host = (s.taken x (.registerWrite c) c).host)
    (hacts : ((s.taken x (.registerWrite c) c).performWrite p.addr p.value).acts = (s.taken x (.registerWrite c) c).acts) :
    ∃ t, exec (.registerWrite c) s = .next t ∧ s.Answers t c .ok 0 0 [] ∧
      t = { (s.taken x (.registerWrite c) c).performWrite p.addr p.value with host := t.host } := by
  obtain ⟨halone, hctxs⟩ := h.taken_alone (.registerWrite c)
  have htaken := s.taken_only x (.registerWrite c) c
  have hfree : (s.taken x (.registerWrite c) c).regWaits { x with instr := some (.registerWrite c) } g p.addr = false :=
    State.regWaits_of_free hctxs rfl (by rw [htaken]; exact hrun) (by rw [htaken]; exact hheld) _
  refine h.answered (by simp [nvmeRows]) hc hr (halone.of_eq hhost hacts) (lba := 0) (n := 0) ?_
  exact (State.bodyRegisterWrite_of_pair hz h10 h11 hd hp ha hlt).trans
    (State.writePairs_single hg hfree (by rw [htaken]; exact hpow) (State.ctxOf_of_single (by rw [hhost, hctxs])))

theorem registerWrite_reserved (h : s.Only c x) (hc : c.assoc < 1024) (hz : restZero12 c = true) (hr : s.Ready x (.registerWrite c)) (h10 : c.cdw10 = 1)
    (h11 : c.cdw11 = 0) (hd : dataOk c 8 = true) (hp : pairsOf c = [p]) (ha : p.addr % 4 = 0) (hlt : p.addr < 0x8000000)
    (hg : regionOf p.addr = some g) (hpow : s.powered g = true) (hheld : ∀ k ∈ s.heldRegs, k.path ≠ .regCmd) (hrun : s.restarting g = false)
    (hrow : rowAt p.addr = none) : ∃ t, exec (.registerWrite c) s = .next t ∧ s.Answers t c .ok 0 0 [] ∧ t = { s with host := t.host } := by
  have heq := (s.taken x (.registerWrite c) c).performWrite_of_reserved p.value hrow
  obtain ⟨t, ht, hans, honly⟩ := registerWrite_done h hc hz hr h10 h11 hd hp ha hlt hg hpow hheld hrun (by rw [heq]) (by rw [heq])
  rw [heq] at honly
  refine ⟨t, ht, hans, State.host_only_trans ?_ honly⟩
  rw [s.taken_only x _ c]

theorem registerWrite_plain (h : s.Only c x) (hc : c.assoc < 1024) (hz : restZero12 c = true) (hr : s.Ready x (.registerWrite c)) (h10 : c.cdw10 = 1)
    (h11 : c.cdw11 = 0) (hd : dataOk c 8 = true) (hp : pairsOf c = [p]) (ha : p.addr % 4 = 0) (hlt : p.addr < 0x8000000)
    (hg : regionOf p.addr = some g) (hpow : s.powered g = true) {r : RegRow} {n : List Nat} (hheld : ∀ k ∈ s.heldRegs, k.path ≠ .regCmd)
    (hrun : s.restarting g = false) (hrow : rowAt p.addr = some (r, n)) (hn : r.name ∉ ownEffect) (hf : rowFunc r n = none) :
    ∃ t, exec (.registerWrite c) s = .next t ∧ s.Answers t c .ok 0 0 [] ∧ t.reg p.addr = writeMerge r.fields (s.reg p.addr) p.value ∧
      s.RegsBut [p.addr] t ∧ t.media = s.media := by
  have htaken := s.taken_only x (.registerWrite c) c
  have heq : (s.taken x (.registerWrite c) c).performWrite p.addr p.value =
      (s.taken x (.registerWrite c) c).setReg p.addr (writeMerge r.fields (s.reg p.addr) p.value) := by
    rw [State.performWrite_of_ordinary _ _ hrow hn, hf]
    change State.plainWrite _ _ _ = _
    rw [State.plainWrite_of_row _ _ hrow]
    congr 2
  obtain ⟨t, ht, hans, honly⟩ := registerWrite_done h hc hz hr h10 h11 hd hp ha hlt hg hpow hheld hrun (by rw [heq]; rfl) (by rw [heq]; rfl)
  rw [heq] at honly
  refine ⟨t, ht, hans, ?_, fun b hb => ?_, ?_⟩
  · rw [honly]
    exact State.reg_setReg_same _ _ _
  · rw [honly]
    refine (State.reg_setReg_other _ _ (by simpa using hb)).trans ?_
    rw [htaken]
    rfl
  · rw [honly]
    change (s.taken x (.registerWrite c) c).media = s.media
    rw [htaken]

/-! ## Register Read -/

theorem State.bodyRegisterRead_of_word (hz : restZero12 c = true) (h11 : c.cdw11 = 1) (ha : c.cdw10.toNat % 4 = 0)
    (hlt : c.cdw10.toNat + 4 ≤ 0x8000000) (hd : dataOk c 4 = true) : s.bodyRegisterRead x c = s.readWords x [⟨c.cdw10.toNat, 0⟩] [] := by
  unfold State.bodyRegisterRead
  extract_lets a n
  have hn : n = 1 := by
    simp only [n, h11]
    rfl
  rw [if_neg]
  · rw [hn]
    rfl
  · simp [hn, hz, hd, a, ha]
    omega

/-- A read of a register whose region runs, and which no earlier access holds up, gives its value and changes registers and latches alone. -/
theorem State.performRead_running {a : Nat} (hg : regionOf a = some g) (hpow : s.powered g = true) (hrun : s.restarting g = false)
    (hheld : ∀ k ∈ s.heldRegs, k.path ≠ .regCmd) (hu : isUpper a = false) :
    (s.performRead .regCmd a).readData = s.readReg a ∧ (s.performRead .regCmd a).host = s.host ∧ (s.performRead .regCmd a).acts = s.acts ∧
      (s.performRead .regCmd a).media = s.media := by
  rw [State.performRead_of_running_row (by decide) hg hpow hrun hheld hu, State.clearRead_regs_only]
  exact ⟨rfl, rfl, rfl, rfl⟩

theorem registerRead_done (h : s.Only c x) (hc : c.assoc < 1024) (hz : restZero12 c = true) (hr : s.Ready x (.registerRead c)) (h11 : c.cdw11 = 1)
    (ha : c.cdw10.toNat % 4 = 0) (hlt : c.cdw10.toNat + 4 ≤ 0x8000000) (hd : dataOk c 4 = true) (hg : regionOf c.cdw10.toNat = some g)
    (hpow : s.powered g = true) (hrun : s.restarting g = false) (hu : isUpper c.cdw10.toNat = false)
    (hheld : ∀ k ∈ s.heldRegs, k.path ≠ .regCmd) : ∃ t, exec (.registerRead c) s = .next t ∧
      s.Answers t c .ok 0 0 (leBytes 4 ((s.taken x (.registerRead c) c).readReg c.cdw10.toNat).toNat) ∧
      (rowAt c.cdw10.toNat = none → s.Answers t c .ok 0 0 (leBytes 4 0)) ∧ t.media = s.media := by
  obtain ⟨halone, hctxs⟩ := h.taken_alone (.registerRead c)
  have htaken := s.taken_only x (.registerRead c) c
  have hrun' : (s.taken x (.registerRead c) c).restarting g = false := by
    rw [htaken]
    exact hrun
  have hheld' : ∀ k ∈ (s.taken x (.registerRead c) c).heldRegs, k.path ≠ .regCmd := by
    rw [htaken]
    exact hheld
  obtain ⟨hdata, hhost, hacts, hmedia⟩ := State.performRead_running hg (show (s.taken x (.registerRead c) c).powered g = true by rw [htaken]; exact hpow)
    hrun' hheld' hu
  have hfree : (s.taken x (.registerRead c) c).regWaits { x with instr := some (.registerRead c) } g c.cdw10.toNat = false :=
    State.regWaits_of_free hctxs rfl hrun' hheld' _
  obtain ⟨t, ht, hans, honly⟩ := h.answered (by simp [nvmeRows]) hc hr (halone.of_eq hhost hacts) (r := .ok) (dw0 := 0) (dw1 := 0)
    (data := leBytes 4 ((s.taken x (.registerRead c) c).readReg c.cdw10.toNat).toNat) (lba := 0) (n := 0) (by
      refine (State.bodyRegisterRead_of_word hz h11 ha hlt hd).trans ?_
      unfold State.readWords
      simp only [hg, hfree, Bool.false_eq_true, if_false]
      rw [State.readWords, hdata]
      simp)
  refine ⟨t, ht, hans, fun hrow => ?_, ?_⟩
  · rw [State.readReg_of_reserved hrow] at hans
    exact hans
  · rw [honly]
    refine hmedia.trans ?_
    rw [htaken]

/-! ## Reconfigure Function (R384) -/

theorem State.bodyReconfigure_of_valid {k : Nat} (hz : restZero12 c = true) (h11 : c.cdw11 = 0) (hd : dataOk c 0 = true)
    (h74 : bitsOf c.cdw10.toNat 7 4 = 0) (h31 : bitsOf c.cdw10.toNat 31 10 = 0) (hk : c.cdw10.toNat % 16 = k) (hlt : k < 15)
    (hs : s.fstate k = 0) (ha : bitsOf c.cdw10.toNat 9 8 ≠ 0) : s.bodyReconfigure x c =
      if 1 < bitsOf c.cdw10.toNat 9 8 then s.complete x .ok (s.reconfDw0 k)
      else (s.waitFor x (.reconf k (bitsOf c.cdw10.toNat 9 8))).funcRequest k (bitsOf c.cdw10.toNat 9 8) := by
  unfold State.bodyReconfigure
  rw [hk]
  extract_lets j a st
  rw [if_neg (by simp [j, a, h74, h31, hz, h11, hd, ha]; omega)]
  by_cases h1 : 1 < bitsOf c.cdw10.toNat 9 8
  · rw [if_pos h1]
    exact if_pos (.inr ⟨by omega, .inl hs⟩)
  · rw [if_neg h1]
    refine if_neg fun hn => hn.elim (fun hn => ?_) (fun hn => ?_)
    · exact absurd (hn.2.1.symm.trans hs) (by decide)
    · exact hn.1 (by omega)

theorem reconfigure_done {k : Nat} (h : s.Only c x) (hc : c.assoc < 1024) (hz : restZero12 c = true) (hr : s.Ready x (.reconfigureFunction c))
    (h11 : c.cdw11 = 0) (hd : dataOk c 0 = true) (h74 : bitsOf c.cdw10.toNat 7 4 = 0) (h31 : bitsOf c.cdw10.toNat 31 10 = 0)
    (hk : c.cdw10.toNat % 16 = k) (hlt : k < 15) (hs : s.fstate k = 0) (ha : 1 < bitsOf c.cdw10.toNat 9 8) :
    ∃ t, exec (.reconfigureFunction c) s = .next t ∧ s.Answers t c .ok 0 0 [] ∧ t = { s with host := t.host } := by
  have hs' : (s.taken x (.reconfigureFunction c) c).fstate k = 0 := by
    rw [s.taken_only x _ c]
    exact hs
  refine h.answered_only (by simp [nvmeRows]) hc hr (lba := 0) (n := 0) ?_
  refine (State.bodyReconfigure_of_valid hz h11 hd h74 h31 hk hlt hs' (by omega)).trans ?_
  rw [if_pos ha, State.reconfDw0, hs', Nat.zero_mul]

/-- The stop of a function that drains. -/
theorem State.beginStop_draining (s : State) {k : Nat} (h10 : k ≠ 10) (h11 : k ≠ 11) (h14 : k ≠ 14) :
    (s.beginStop k).host = s.host ∧ (s.beginStop k).media = s.media := by
  unfold State.beginStop
  extract_lets s1 s2
  have h1 : s1.host = s.host ∧ s1.media = s.media := by
    simp only [s1]
    rw [State.modFunc_only]
    exact ⟨rfl, rfl⟩
  have h2 : s2.host = s1.host ∧ s2.media = s1.media := by
    simp only [s2]
    split <;> exact ⟨rfl, rfl⟩
  rw [if_neg (by omega)]
  exact ⟨h2.1.trans h1.1, h2.2.trans h1.2⟩

theorem reconfigure_stops {k : Nat} (h : s.Only c x) (hz : restZero12 c = true) (hr : s.Ready x (.reconfigureFunction c)) (h11 : c.cdw11 = 0)
    (hd : dataOk c 0 = true) (h74 : bitsOf c.cdw10.toNat 7 4 = 0) (h31 : bitsOf c.cdw10.toNat 31 10 = 0) (hk : c.cdw10.toNat % 16 = k)
    (hlt : k < 15) (hs : s.fstate k = 0) (ha : bitsOf c.cdw10.toNat 9 8 = 1) (h10 : k ≠ 10) (hk11 : k ≠ 11) (h14 : k ≠ 14) :
    ∃ t, exec (.reconfigureFunction c) s = .next t ∧ s.Waits t c (.reconf k 1) ∧ t.fstate k = 1 ∧ t.media = s.media := by
  have htaken := s.taken_only x (.reconfigureFunction c) c
  have hs' : (s.taken x (.reconfigureFunction c) c).fstate k = 0 := by
    rw [htaken]
    exact hs
  have hbody : (s.taken x (.reconfigureFunction c) c).body { x with instr := some (.reconfigureFunction c) } (.reconfigureFunction c) false =
      ((s.taken x (.reconfigureFunction c) c).waitFor { x with instr := some (.reconfigureFunction c) } (.reconf k 1)).beginStop k := by
    refine (State.bodyReconfigure_of_valid hz h11 hd h74 h31 hk hlt hs' (by omega)).trans ?_
    rw [if_neg (by omega), ha]
    exact if_pos hs'
  obtain ⟨hhost, hmedia⟩ := State.beginStop_draining
    ((s.taken x (.reconfigureFunction c) c).waitFor { x with instr := some (.reconfigureFunction c) } (.reconf k 1)) h10 hk11 h14
  obtain ⟨hexec, hwaits⟩ := h.waits (by simp [nvmeRows]) hr hbody hhost rfl
  refine ⟨_, hexec, hwaits, ?_, hmedia.trans ?_⟩
  · rw [(State.beginStop_facts _ hlt).1, if_neg (by omega)]
  · change (s.taken x (.reconfigureFunction c) c).media = s.media
    rw [htaken]

end

/-- Settles O51: one pair written, one word read, and a function reconfigured. -/
theorem registerCommandRows : Obligations.RegisterCommandRows := by
  unfold Obligations.RegisterCommandRows
  intro s c x h hc hz
  refine ⟨fun p g hr h10 h11 hd hp ha hlt hg hpow => ⟨fun hheld => registerWrite_waits h hz hr h10 h11 hd hp ha hlt hg hheld,
    fun hheld hrun hrow => registerWrite_reserved h hc hz hr h10 h11 hd hp ha hlt hg hpow hheld hrun hrow,
    fun r n hheld hrun hrow hn hf => registerWrite_plain h hc hz hr h10 h11 hd hp ha hlt hg hpow hheld hrun hrow hn hf⟩,
    fun g hr h11 ha hlt hd hg hpow hrun hu hheld => registerRead_done h hc hz hr h11 ha hlt hd hg hpow hrun hu hheld,
    fun k hr h11 hd h74 h31 hk hlt hs => ⟨fun ha h10 hk11 h14 => reconfigure_stops h hz hr h11 hd h74 h31 hk hlt hs ha h10 hk11 h14,
      fun ha => reconfigure_done h hc hz hr h11 hd h74 h31 hk hlt hs ha⟩⟩

end Sys2Proof.Machine
end

section
/-! Set Features and Namespace Management (R352, R368 to R371, R392). -/

namespace Sys2Proof.Machine

open Sys2Proof

theorem State.Only.wait_fetched {s : State} {c : Cmd} {x : Ctx} (h : s.Only c x) : x.wait = .fetched := by
  obtain ⟨-, -, -, -, -, -, -, hw, -⟩ := h
  exact hw

section
variable {s : State} {c : Cmd} {x : Ctx}

/-- A Set Features that changes the command's association and completes. -/
theorem setFeatures_assoc (h : s.Only c x) (hc : c.assoc < 1024) {y : Assoc} (hy : s.assoc c.assoc = some y) (hr : s.Ready x (.setFeatures c))
    (f : Assoc → Assoc) (hb : (s.taken x (.setFeatures c) c).bodySetFeatures { x with instr := some (.setFeatures c) } c =
      ((s.taken x (.setFeatures c) c).modAssoc x.assoc f).complete { x with instr := some (.setFeatures c) } .ok) :
    ∃ t, exec (.setFeatures c) s = .next t ∧ s.Answers t c .ok 0 0 [] ∧ t.assoc c.assoc = some (f y) ∧ t = { s with host := t.host } := by
  obtain ⟨hkey, -, -⟩ := h.key
  have hv : Alone s ((s.taken x (.setFeatures c) c).modAssoc x.assoc f) c := (h.taken_alone (.setFeatures c)).1.modHost _ rfl rfl
  obtain ⟨t, ht, hans, honly, hassoc⟩ := h.answered_assocs (by simp [nvmeRows]) hc hr hv hb
  refine ⟨t, ht, hans, ?_, State.host_only_trans ?_ honly⟩
  · rw [hassoc, ← hkey, State.assoc_modAssoc_same, State.assoc_taken, hkey, hy]
    rfl
  · rw [s.taken_only x _ c]
    rfl

theorem setFeatures_aec (h : s.Only c x) (hc : c.assoc < 1024) {y : Assoc} (hy : s.assoc c.assoc = some y) (hr : s.Ready x (.setFeatures c))
    (hf : c.cdw10.toNat % 256 = 0x0B) : ∃ t, exec (.setFeatures c) s = .next t ∧ s.Answers t c .ok 0 0 [] ∧
      (∃ z, t.assoc c.assoc = some z ∧ z = { y with aec := c.cdw11 }) ∧ t = { s with host := t.host } := by
  obtain ⟨t, ht, hans, hassoc, honly⟩ := setFeatures_assoc h hc hy hr (fun y => { y with aec := c.cdw11 }) (by
    simp only [State.bodySetFeatures, hf])
  exact ⟨t, ht, hans, ⟨_, hassoc, rfl⟩, honly⟩

theorem setFeatures_kato (h : s.Only c x) (hc : c.assoc < 1024) {y : Assoc} (hy : s.assoc c.assoc = some y) (hr : s.Ready x (.setFeatures c))
    (hf : c.cdw10.toNat % 256 = 0x0F) : ∃ t, exec (.setFeatures c) s = .next t ∧ s.Answers t c .ok 0 0 [] ∧
      (∃ z, t.assoc c.assoc = some z ∧ z.kato = c.cdw11.toNat) ∧ t = { s with host := t.host } := by
  obtain ⟨t, ht, hans, hassoc, honly⟩ := setFeatures_assoc h hc hy hr
    (fun y => { y with kato := c.cdw11.toNat, katoFrom := (s.taken x (.setFeatures c) c).now }) (by simp only [State.bodySetFeatures, hf])
  exact ⟨t, ht, hans, ⟨_, hassoc, rfl⟩, honly⟩

/-- The lease length is taken, and a lease that runs is measured anew from the command (R355). -/
theorem State.setLease_facts (s : State) (x : Ctx) {n : Nat} (hn : n < 4096) {t : State}
    (ht : t = if (s.setFld Adr.OWN_LEASE Fld.OWN_LEASE_lease_s n).isOwner x.assoc then (s.setFld Adr.OWN_LEASE Fld.OWN_LEASE_lease_s n).leaseFrom x
      else s.setFld Adr.OWN_LEASE Fld.OWN_LEASE_lease_s n) :
    t.fld Adr.OWN_LEASE Fld.OWN_LEASE_lease_s = n ∧ s.RegsBut [Adr.OWN_LEASE] t ∧ OwnerMoves s t := by
  have hset : OwnerMoves s (s.setFld Adr.OWN_LEASE Fld.OWN_LEASE_lease_s n) := OwnerMoves.setFld ⟨rfl, rfl, rfl⟩ _ _ _
  have hlease : (s.setFld Adr.OWN_LEASE Fld.OWN_LEASE_lease_s n).fld Adr.OWN_LEASE Fld.OWN_LEASE_lease_s = n :=
    State.fld_setFld_of_lt _ _ _ (by decide) (Nat.lt_of_lt_of_le hn (by decide))
  have hregs : s.RegsBut [Adr.OWN_LEASE] (s.setFld Adr.OWN_LEASE Fld.OWN_LEASE_lease_s n) := s.regsBut_setFld _ _ _
  obtain ⟨o, ho⟩ : ∃ o, (s.setFld Adr.OWN_LEASE Fld.OWN_LEASE_lease_s n).leaseFrom x =
      { s.setFld Adr.OWN_LEASE Fld.OWN_LEASE_lease_s n with own := o } := ⟨_, rfl⟩
  split at ht
  · refine ⟨?_, ?_, ?_⟩
    · rw [ht, State.fld_leaseFrom, hlease]
    · rw [ht, ho]
      exact hregs
    · rw [ht]
      exact hset.leaseFrom x
  · rw [ht]
    exact ⟨hlease, hregs, hset⟩

theorem setFeatures_lease (h : s.Only c x) (hc : c.assoc < 1024) (hr : s.Ready x (.setFeatures c)) (hf : c.cdw10.toNat % 256 = 0xC2)
    (h0 : 0 < c.cdw11.toNat % 4096) (hmax : c.cdw11.toNat % 4096 ≤ 3600) : ∃ t, exec (.setFeatures c) s = .next t ∧ s.Answers t c .ok 0 0 [] ∧
      t.fld Adr.OWN_LEASE Fld.OWN_LEASE_lease_s = c.cdw11.toNat % 4096 ∧ s.RegsBut [Adr.OWN_LEASE] t ∧ t.media = s.media := by
  have htaken := s.taken_only x (.setFeatures c) c
  obtain ⟨v, hv⟩ : ∃ v : State, v = if ((s.taken x (.setFeatures c) c).setFld Adr.OWN_LEASE Fld.OWN_LEASE_lease_s (c.cdw11.toNat % 4096)).isOwner x.assoc
      then ((s.taken x (.setFeatures c) c).setFld Adr.OWN_LEASE Fld.OWN_LEASE_lease_s (c.cdw11.toNat % 4096)).leaseFrom
        { x with instr := some (.setFeatures c) }
      else (s.taken x (.setFeatures c) c).setFld Adr.OWN_LEASE Fld.OWN_LEASE_lease_s (c.cdw11.toNat % 4096) := ⟨_, rfl⟩
  obtain ⟨hlease, hregs, hmoves⟩ := (s.taken x (.setFeatures c) c).setLease_facts { x with instr := some (.setFeatures c) }
    (Nat.mod_lt _ (by omega)) hv
  obtain ⟨t, ht, hans, honly⟩ := h.answered (by simp [nvmeRows]) hc hr ((h.taken_alone (.setFeatures c)).1.of_eq hmoves.host hmoves.acts)
    (r := .ok) (dw0 := 0) (dw1 := 0) (data := []) (lba := 0) (n := 0) (by
      change State.bodySetFeatures _ _ c = _
      simp only [State.bodySetFeatures, hf]
      rw [if_neg (by omega), hv])
  refine ⟨t, ht, hans, ?_, fun a ha => ?_, ?_⟩
  · rw [honly]
    exact hlease
  · rw [honly]
    refine (hregs a ha).trans ?_
    rw [htaken]
    rfl
  · rw [honly]
    refine hmoves.media.trans ?_
    rw [htaken]

/-- The patina is locked, whether it was or not (R456). -/
theorem State.lockPatina_facts (s : State) : s.lockPatina.nor.patLocked = true ∧ OwnerMoves s s.lockPatina := by
  unfold State.lockPatina
  split
  next hl => exact ⟨hl, rfl, rfl, rfl⟩
  next =>
    have e := State.event_only { s with nor := { s.nor with patLocked := true } } 0x7A1 0 0
    exact ⟨congrArg (fun t => t.nor.patLocked) e.takeEvents, e.host, e.acts, e.media⟩

theorem setFeatures_patinaLock (h : s.Only c x) (hc : c.assoc < 1024) (hr : s.Ready x (.setFeatures c)) (hf : c.cdw10.toNat % 256 = 0xC3)
    (hl : c.cdw11.toNat % 2 = 1) : ∃ t, exec (.setFeatures c) s = .next t ∧ s.Answers t c .ok 0 0 [] ∧ t.nor.patLocked = true ∧ t.media = s.media := by
  obtain ⟨hlocked, hmoves⟩ := (s.taken x (.setFeatures c) c).lockPatina_facts
  obtain ⟨t, ht, hans, honly⟩ := h.answered (by simp [nvmeRows]) hc hr ((h.taken_alone (.setFeatures c)).1.of_eq hmoves.host hmoves.acts)
    (r := .ok) (dw0 := 0) (dw1 := 0) (data := []) (lba := 0) (n := 0) (by
      change State.bodySetFeatures _ _ c = _
      simp only [State.bodySetFeatures, hf]
      exact if_pos (by simp [bitOf, hl]))
  refine ⟨t, ht, hans, ?_, ?_⟩
  · rw [honly]
    exact hlocked
  · rw [honly]
    refine hmoves.media.trans ?_
    rw [s.taken_only x _ c]

theorem setFeatures_unknown (h : s.Only c x) (hc : c.assoc < 1024) (hr : s.Ready x (.setFeatures c)) (hf : c.cdw10.toNat % 256 = 0x03) :
    ∃ t, exec (.setFeatures c) s = .next t ∧ s.Answers t c .field 0 0 [] ∧ t = { s with host := t.host } := by
  refine h.answered_only (by simp [nvmeRows]) hc hr (lba := 0) (n := 0) ?_
  change State.bodySetFeatures _ _ c = _
  simp only [State.bodySetFeatures, hf]

/-! ## Namespaces -/

/-- The trusses of the layout. -/
def State.trussMax (s : State) : Nat := match s.media.layout with | some l => l.tmax | none => 0

/-- The namespaces whose identifiers are taken, those of deletes under way among them. -/
def State.nsidsUsed (s : State) : List Nat := (s.spaces ++ s.deleting.flatMap (fun e => e.spaces)).map (fun p => p.1)

/-- The trusses that a namespace of the size in d takes. -/
def nsTrusses (d : List Byte) : Nat := (leAt d 0 8 + 511) / 512

/-- The mould namespace of n trusses that a create makes. -/
def State.newMouldSpace (s : State) (n : Nat) : Namespace := { mould := true, nsze := 512 * n, trusses := lowestFree s.heldTrusses 0 s.trussMax n }

/-- s with a namespace entered. -/
def State.withSpace (s : State) (id : Nat) (sp : Namespace) : State := { s with spaces := insertKey s.spaces id sp }

/-- A create of a mould namespace that fits is entered under the first free identifier (R368 to R370). -/
theorem State.createNamespace_of_fit {id : Nat} (h0 : leAt (fitBytes c.data 4096) 0 8 ≠ 0)
    (h8 : leAt (fitBytes c.data 4096) 8 8 = leAt (fitBytes c.data 4096) 0 8) (hk : leAt (fitBytes c.data 4096) 3840 1 = 1)
    (hid : firstFrom 1 64 (fun k => !s.nsidsUsed.contains k) = some id)
    (hn : nsTrusses (fitBytes c.data 4096) ≤ s.trussMax)
    (hl : (lowestFree s.heldTrusses 0 s.trussMax (nsTrusses (fitBytes c.data 4096))).length =
      nsTrusses (fitBytes c.data 4096)) :
    s.createNamespace x c = ((s.withSpace id (s.newMouldSpace (nsTrusses (fitBytes c.data 4096)))).event 0x621).complete x .ok id := by
  unfold State.createNamespace
  extract_lets d nsze kind flbas used n tmax ts
  have hts : ts = lowestFree s.heldTrusses 0 s.trussMax (nsTrusses (fitBytes c.data 4096)) := if_neg (Nat.not_lt.2 hn)
  have hkind : kind = 1 := hk
  have hused : firstFrom 1 64 (fun k => !used.contains k) = some id := hid
  rw [if_neg (by simp [nsze, d, h0, h8, hkind])]
  simp only [hused]
  rw [hts, if_neg (by rw [hl]; exact Nat.lt_irrefl _), hkind]
  rfl

theorem createNamespace_done (h : s.Only c x) (hc : c.assoc < 1024) (hr : s.Ready x (.namespaceManagement c)) (h10 : c.cdw10.toNat % 16 = 0) {id : Nat}
    (h0 : leAt (fitBytes c.data 4096) 0 8 ≠ 0) (h8 : leAt (fitBytes c.data 4096) 8 8 = leAt (fitBytes c.data 4096) 0 8)
    (hk : leAt (fitBytes c.data 4096) 3840 1 = 1) (hid : firstFrom 1 64 (fun k => !s.nsidsUsed.contains k) = some id)
    (hn : nsTrusses (fitBytes c.data 4096) ≤ s.trussMax)
    (hl : (lowestFree s.heldTrusses 0 s.trussMax (nsTrusses (fitBytes c.data 4096))).length =
      nsTrusses (fitBytes c.data 4096)) :
    ∃ t, exec (.namespaceManagement c) s = .next t ∧ s.Answers t c .ok id 0 [] ∧ lookupKey t.spaces id = some (s.newMouldSpace (nsTrusses (fitBytes c.data 4096))) ∧
      s.RegsButEvents [] t ∧ t.media = s.media := by
  have htaken := s.taken_only x (.namespaceManagement c) c
  have hcreate := State.createNamespace_of_fit (s := s.taken x (.namespaceManagement c) c) (x := { x with instr := some (.namespaceManagement c) })
    h0 h8 hk (by rw [htaken]; exact hid) (by rw [htaken]; exact hn) (by rw [htaken]; exact hl)
  have e := State.event_only ((s.taken x (.namespaceManagement c) c).withSpace id
    ((s.taken x (.namespaceManagement c) c).newMouldSpace (nsTrusses (fitBytes c.data 4096)))) 0x621 0 0
  obtain ⟨t, ht, hans, honly⟩ := h.answered (by simp [nvmeRows]) hc hr ((h.taken_alone (.namespaceManagement c)).1.of_eq e.host e.acts)
    (r := .ok) (dw0 := id) (dw1 := 0) (data := []) (lba := 0) (n := 0) (by
      change State.bodyNsManagement _ _ c = _
      simp only [State.bodyNsManagement, h10]
      exact hcreate)
  refine ⟨t, ht, hans, ?_, fun a ha he => ?_, ?_⟩
  · rw [honly]
    change lookupKey (State.event _ _).spaces id = _
    rw [e.spaces]
    refine (lookupKey_insert_same _ _ _).trans ?_
    rw [htaken]
    rfl
  · rw [honly]
    refine (e.reg he).trans ?_
    rw [htaken]
    rfl
  · rw [honly]
    refine e.media.trans ?_
    change (s.taken x (.namespaceManagement c) c).media = s.media
    rw [htaken]

/-- From s to t the units of namespaces that go become clean: the host side, the slices and the namespaces stay. -/
structure UnitsCleaned (s t : State) : Prop where
  host : t.host = s.host
  acts : t.acts = s.acts
  spaces : t.spaces = s.spaces

namespace UnitsCleaned

variable {t u : State}

theorem trans (h : UnitsCleaned s t) (k : UnitsCleaned t u) : UnitsCleaned s u := ⟨k.host.trans h.host, k.acts.trans h.acts, k.spaces.trans h.spaces⟩

theorem event (h : UnitsCleaned s t) (id d e : Nat) : UnitsCleaned s (t.event id d e) :=
  have k := t.event_only id d e
  h.trans ⟨k.host, k.acts, k.spaces⟩

theorem modMedia (h : UnitsCleaned s t) (f : Media → Media) : UnitsCleaned s (t.modMedia f) := h.trans ⟨rfl, rfl, rfl⟩

theorem modCast (h : UnitsCleaned s t) (f : CastState → CastState) : UnitsCleaned s (t.modCast f) := h.trans ⟨rfl, rfl, rfl⟩

theorem ite {p : Prop} [Decidable p] (h : UnitsCleaned s t) (k : UnitsCleaned s u) : UnitsCleaned s (if p then t else u) := by
  split
  · exact h
  · exact k

theorem nowTrails (h : UnitsCleaned s t) (l : List Trail) : UnitsCleaned s (t.nowTrails l) := .ite ((h.modMedia _).event _ _ _) (h.modMedia _)

theorem deallocUnit (h : UnitsCleaned s t) (ns : Nat) (sp : Namespace) (n : Nat) : UnitsCleaned s (t.deallocUnit ns sp n) := by
  unfold State.deallocUnit
  refine .ite h ?_
  extract_lets tr s1 broken s2 s3
  have h1 : UnitsCleaned s s1 := h.trans ⟨rfl, rfl, rfl⟩
  have h2 : UnitsCleaned s s2 := .ite h1 (h1.nowTrails _)
  have h3 : UnitsCleaned s s3 := h2.modMedia _
  clear_value s3
  split
  · exact h3.modMedia _
  · exact h3

end UnitsCleaned

/-- The delete of a command alone: it is entered, no command waits on its namespaces, and it is over at once (R371). -/
def Ctx.deleting (x : Ctx) (gone : List (Nat × Namespace)) : Deleting :=
  { assoc := x.assoc, qid := x.qid, cid := x.cid, order := x.order, spaces := gone }

/-- s with the namespaces of a list gone, before their units are clean. -/
def State.spacesGone (s : State) (gone : List (Nat × Namespace)) (d : Deleting) : State :=
  { s with spaces := s.spaces.filter (fun p => !gone.any (fun g => g.1 == p.1)), deleting := s.deleting ++ [d] }

/-- The units of the namespaces of a delete become clean, with an event for each namespace. -/
def State.cleanSpaces (s : State) (d : Deleting) : State :=
  d.spaces.foldl (fun s p =>
    let us := s.media.units.filter (fun u => p.2.trusses.contains (u / 9) && u % 9 != 8)
    let s1 := us.foldl (fun (s : State) u => s.deallocUnit p.1 p.2 u) s
    (s1.modCast (fun k => { k with moulds := k.moulds.filter (fun m => m.ns != p.1) })).event 0x622) s

theorem UnitsCleaned.cleanSpaces (s : State) (d : Deleting) : UnitsCleaned s (s.cleanSpaces d) := by
  refine foldl_induct (P := UnitsCleaned s) (fun t p _ ht => ?_) ⟨rfl, rfl, rfl⟩
  have hunits := foldl_induct (P := UnitsCleaned s) (l := t.media.units.filter (fun u => p.2.trusses.contains (u / 9) && u % 9 != 8))
    (f := fun (s : State) u => s.deallocUnit p.1 p.2 u) (fun _ u _ hv => hv.deallocUnit p.1 p.2 u) ht
  extract_lets us s1
  have h1 : UnitsCleaned s s1 := hunits
  exact (h1.modCast _).event _ _ _

/-- The delete of one namespace by a command alone. -/
theorem State.deleteNamespace_alone {y : Ctx} (hctxs : s.host.ctxs = [y]) (hwait : y.wait = .fetched) (hn : c.nsid ≠ 0xFFFFFFFF) {sp : Namespace}
    (hsp : lookupKey s.spaces c.nsid.toNat = some sp) : ∃ (gone : List (Nat × Namespace)) (v : State), s.deleteNamespace y c = v.complete y .ok ∧ v.host = s.host ∧ v.acts = s.acts ∧
      v.spaces = s.spaces.filter (fun p => !gone.any (fun g => g.1 == p.1)) ∧
      (∀ p ∈ s.spaces, p.1 = c.nsid.toNat → p ∈ gone) := by
  have hmem : ∀ {l : List (Nat × Namespace)}, lookupKey l c.nsid.toNat = some sp → ∃ p ∈ l, p.1 = c.nsid.toNat := by
    intro l
    induction l with
    | nil => exact fun h => absurd h (by simp [lookupKey])
    | cons p l ih =>
      intro h
      by_cases hp : p.1 = c.nsid.toNat
      · exact ⟨p, List.mem_cons_self .., hp⟩
      · obtain ⟨q, hq, hqn⟩ := ih (by rwa [lookupKey, if_neg hp] at h)
        exact ⟨q, List.mem_cons_of_mem _ hq, hqn⟩
  have hgone : ∀ p ∈ s.spaces, p.1 = c.nsid.toNat → p ∈ s.spaces.filter (fun p => decide (c.nsid = 0xFFFFFFFF ∨ p.1 = c.nsid.toNat)) :=
    fun p hp hpn => List.mem_filter.2 ⟨hp, by simp [hpn]⟩
  obtain ⟨q, hq, hqn⟩ := hmem hsp
  unfold State.deleteNamespace
  extract_lets all gone d s1 hit s2
  have hne : gone.isEmpty = false := List.isEmpty_eq_false_iff_exists_mem.2 ⟨q, hgone q hq hqn⟩
  have hs2 : s2 = s.spacesGone gone d := by
    have hnone : s1.host.ctxs.filter hit = [] := by
      change s.host.ctxs.filter hit = []
      rw [hctxs]
      simp [hit, hwait]
    simp only [s2, hnone]
    rfl
  have hs2ctxs : s2.host.ctxs = [y] := by
    rw [hs2]
    exact hctxs
  have hbusy : s2.nsBusy d = false := by
    rw [State.nsBusy, hs2ctxs]
    simp [d]
  have hclean := UnitsCleaned.cleanSpaces s2 d
  have hfind : (s2.cleanSpaces d).host.ctxs.find? (fun z => z.order == d.order) = some y := by
    rw [hclean.host, hs2ctxs]
    simp [d]
  rw [if_neg (by rw [hne]; exact fun h => Bool.false_ne_true h.1), hbusy, if_neg Bool.false_ne_true]
  refine ⟨gone, { s2.cleanSpaces d with deleting := (s2.cleanSpaces d).deleting.filter (fun e => e.order != d.order) }, ?_, ?_, ?_, ?_, hgone⟩
  · unfold State.finishDelete
    extract_lets t1 t2
    have ht2 : t2.host.ctxs.find? (fun z => z.order == d.order) = some y := hfind
    simp only [ht2]
    rfl
  · exact hclean.host.trans (by rw [hs2]; rfl)
  · exact hclean.acts.trans (by rw [hs2]; rfl)
  · exact hclean.spaces.trans (by rw [hs2]; rfl)

theorem lookupKey_filter_none {α : Type} {l : List (Nat × α)} {k : Nat} {q : Nat × α → Bool} (h : ∀ p ∈ l, p.1 = k → q p = false) :
    lookupKey (l.filter q) k = none := by
  induction l with
  | nil => rfl
  | cons p l ih =>
    have ih' := ih fun r hr => h r (List.mem_cons_of_mem _ hr)
    by_cases hp : q p = true
    · rw [List.filter_cons_of_pos hp, lookupKey, if_neg fun hk => by rw [h p (List.mem_cons_self ..) hk] at hp; exact Bool.false_ne_true hp]
      exact ih'
    · rw [List.filter_cons_of_neg hp]
      exact ih'

theorem deleteNamespace_done (h : s.Only c x) (hc : c.assoc < 1024) (hr : s.Ready x (.namespaceManagement c)) (h10 : c.cdw10.toNat % 16 = 1)
    (hn : c.nsid ≠ 0xFFFFFFFF) {sp : Namespace} (hsp : lookupKey s.spaces c.nsid.toNat = some sp) :
    ∃ t, exec (.namespaceManagement c) s = .next t ∧ s.Answers t c .ok 0 0 [] ∧ lookupKey t.spaces c.nsid.toNat = none := by
  obtain ⟨halone, hctxs⟩ := h.taken_alone (.namespaceManagement c)
  obtain ⟨gone, v, hdel, hhost, hacts, hspaces, hgone⟩ := State.deleteNamespace_alone (s := s.taken x (.namespaceManagement c) c) (c := c) hctxs
    h.wait_fetched hn (by rw [s.taken_only x _ c]; exact hsp)
  obtain ⟨t, ht, hans, honly⟩ := h.answered (by simp [nvmeRows]) hc hr (halone.of_eq hhost hacts) (r := .ok) (dw0 := 0) (dw1 := 0) (data := [])
    (lba := 0) (n := 0) (by
      change State.bodyNsManagement _ _ c = _
      simp only [State.bodyNsManagement, h10]
      exact hdel)
  refine ⟨t, ht, hans, ?_⟩
  rw [honly]
  change lookupKey v.spaces c.nsid.toNat = none
  rw [hspaces]
  exact lookupKey_filter_none fun p hp hpn => by
    rw [List.any_eq_true.2 ⟨p, hgone p hp hpn, by simp⟩]
    rfl

end

/-- Settles O52: each feature set by what it leaves, and namespaces created and deleted. -/
theorem featureAndNamespaceRows : Obligations.FeatureAndNamespaceRows := by
  unfold Obligations.FeatureAndNamespaceRows
  intro s c x y h hc hy
  refine ⟨fun hr => ⟨fun hf => setFeatures_aec h hc hy hr hf, fun hf => setFeatures_kato h hc hy hr hf,
    fun hf h0 hmax => setFeatures_lease h hc hr hf h0 hmax, fun hf hl => setFeatures_patinaLock h hc hr hf hl,
    fun hf => setFeatures_unknown h hc hr hf⟩, ?_, fun sp hr h10 hn hsp => deleteNamespace_done h hc hr h10 hn hsp⟩
  intro hr h10 id d n ts h0 h8 hk hid hn hl
  exact createNamespace_done h hc hr h10 h0 h8 hk hid hn hl

end Sys2Proof.Machine
end

section
/-! Loads of keys, profiles and recipes, and the firmware commands (R263, R267, R268, R380 to R382, R486, R487). -/

namespace Sys2Proof.Machine

open Sys2Proof

section
variable {s : State} {c : Cmd} {x : Ctx}

/-! ## Removal of keys -/

/-- The fields of a Load Content Key that are checked before its operation, for the removal of one slot. -/
def keyRemovalOk (c : Cmd) : Prop :=
  c.cdw10 = 0 ∧ restZero c = true ∧ c.prp = false ∧ c.len = 64 ∧ leAt (fitBytes c.data 64) 1 1 = 0 ∧ leAt (fitBytes c.data 64) 12 4 = 0 ∧
    leAt (fitBytes c.data 64) 56 8 = 0 ∧ leAt (fitBytes c.data 64) 0 1 = 2 ∧ leAt (fitBytes c.data 64) 2 2 < 4096

theorem State.bodyLoadContentKey_of_removal {k : List Byte} (h : keyRemovalOk c) (hk : s.kek x.assoc = some k) :
    s.bodyLoadContentKey x c = (s.setKeys (s.nor.keys.filter (fun p => p.1 != leAt (fitBytes c.data 64) 2 2))).complete x .ok
      (s.nor.keys.length - (s.nor.keys.filter (fun p => p.1 != leAt (fitBytes c.data 64) 2 2)).length) := by
  obtain ⟨h10, hz, hp, hl, h1, h12, h56, hop, hslot⟩ := h
  unfold State.bodyLoadContentKey
  extract_lets d op slot fields kid l
  have hfields : fields = true := by
    simp [fields, h10, hz, hp, hl, d, h1, h12, h56, op, hop, slot, hslot]
  have hne : slot ≠ 0xFFFF := fun hs => by
    have : slot < 4096 := hslot
    omega
  simp only [hfields, if_true, hk]
  rw [if_pos (show op = 2 from hop)]
  have hlist : l = s.nor.keys.filter (fun p => p.1 != slot) := List.filter_congr fun p _ => by rw [if_neg hne]
  rw [hlist]

theorem loadContentKey_removed {k : List Byte} (h : s.Only c x) (hc : c.assoc < 1024) (hr : s.Ready x (.loadContentKey c)) (hok : keyRemovalOk c)
    (hk : s.kek c.assoc = some k) : ∃ t, exec (.loadContentKey c) s = .next t ∧
      t.nor.keys = s.nor.keys.filter (fun p => p.1 != leAt (fitBytes c.data 64) 2 2) ∧
      s.Answers t c .ok (s.nor.keys.length - t.nor.keys.length) 0 [] ∧ t.regs = s.regs ∧ t.media = s.media := by
  have htaken := s.taken_only x (.loadContentKey c) c
  have hkek : (s.taken x (.loadContentKey c) c).kek x.assoc = some k := by
    rw [h.key.1, htaken]
    exact hk
  have hkeys : (s.taken x (.loadContentKey c) c).nor.keys = s.nor.keys := by rw [htaken]
  have hbody := State.bodyLoadContentKey_of_removal (s := s.taken x (.loadContentKey c) c) (x := { x with instr := some (.loadContentKey c) }) hok hkek
  rw [hkeys] at hbody
  obtain ⟨t, ht, hans, honly⟩ := h.answered (by simp [nvmeRows]) hc hr ((h.taken_alone (.loadContentKey c)).1.of_eq
    (u := (s.taken x (.loadContentKey c) c).setKeys (s.nor.keys.filter (fun p => p.1 != leAt (fitBytes c.data 64) 2 2))) rfl rfl) hbody
  have hnew : t.nor.keys = s.nor.keys.filter (fun p => p.1 != leAt (fitBytes c.data 64) 2 2) := by
    rw [honly]
    rfl
  refine ⟨t, ht, hnew, ?_, ?_, ?_⟩
  · rw [hnew]
    exact hans
  · rw [honly]
    change (s.taken x (.loadContentKey c) c).regs = _
    rw [htaken]
  · rw [honly]
    change (s.taken x (.loadContentKey c) c).media = _
    rw [htaken]

/-! ## Loads through a stopped function (R382) -/

/-- s with function k stopped for a load, its shadow set empty, and on its way to its commit. -/
def State.loadBegun (s : State) (k : Nat) : State :=
  ((s.modFunc k (fun f => { f with shadow := [], since := s.now, abandon := false, byLoad := true })).setFstate k 2).setFstate k 3

/-- A load of the Cast or the mover function, whose commands do not wait, goes on to its commit when the entry passes. -/
theorem State.loadVia_begins {k : Nat} (hk : k = 10 ∨ k = 11) (hctxs : s.host.ctxs = [x]) (hwait : x.wait = .fetched) (hs : s.fstate k = 0)
    (check : State → Option (Nat × State)) (hcheck : check s = none) :
    s.loadVia x k (fun s => s) check = (s.loadBegun k).waitFor x (.load k) := by
  have hnone : s.host.ctxs.any (fun y => y.wait == .load k) = false := by
    rw [hctxs]
    simp [hwait]
  have henter : ∀ t : State, t.host.ctxs = [x] → t.enterStopped k = t.setFstate k 2 := by
    intro t ht
    unfold State.enterStopped
    extract_lets s1 s2
    have hs2 : s2 = t.setFstate k 2 := by
      simp only [s2]
      rw [if_neg (by omega), if_neg (by omega), if_neg (by omega), if_neg (by omega)]
    have hctx2 : s2.host.ctxs = [x] := by
      rw [hs2]
      exact ht
    rw [State.endReconf, hctx2]
    simp only [List.foldl_cons, List.foldl_nil, hwait]
    exact hs2
  unfold State.loadVia
  rw [if_neg (by rw [hnone]; exact Bool.false_ne_true), if_neg (by omega), if_neg (by omega), hcheck]
  simp only
  rw [henter _ (by rw [State.modFunc_only]; exact hctxs)]
  rfl

theorem State.loadBegun_facts (s : State) {k : Nat} (hk : k < 15) : (s.loadBegun k).fstate k = 3 ∧ s.RegsBut [Adr.FUNC_CTRL k] (s.loadBegun k) ∧
    s.loadBegun k = { s with regs := (s.loadBegun k).regs, funcs := (s.loadBegun k).funcs } := by
  unfold State.loadBegun
  refine ⟨State.fstate_setFstate _ (by omega), fun a ha => ?_, ?_⟩
  · have hset := ((State.RegsBut.refl [Adr.FUNC_CTRL k] (s.modFunc k (fun f => { f with shadow := [], since := s.now, abandon := false, byLoad := true }))).setFld
      (a := Adr.FUNC_CTRL k) Fld.FUNC_CTRL_state 2 (by simp)).setFld (a := Adr.FUNC_CTRL k) Fld.FUNC_CTRL_state 3 (by simp)
    exact (hset a ha).trans (s.reg_modFunc _ _ _)
  · conv => lhs; rw [State.modFunc_only]
    rw [State.modFunc_only]
    rfl

/-- A load whose command is alone waits for the commit of its function. -/
theorem load_waits {i : Instr} {k : Nat} (h : s.Only c x) (hi : i ∈ nvmeRows c) (hr : s.Ready x i) (hk : k < 15)
    (hb : (s.taken x i c).body { x with instr := some i } i false = ((s.taken x i c).loadBegun k).waitFor { x with instr := some i } (.load k)) :
    ∃ t, exec i s = .next t ∧ s.Waits t c (.load k) ∧ t.fstate k = 3 ∧ s.RegsBut [Adr.FUNC_CTRL k] t ∧
      t = { s with regs := t.regs, funcs := t.funcs, host := t.host } := by
  obtain ⟨hstate, hregs, honly⟩ := (s.taken x i c).loadBegun_facts hk
  have htaken := s.taken_only x i c
  obtain ⟨hexec, hwaits⟩ := h.waits (u := ((s.taken x i c).loadBegun k).waitFor { x with instr := some i } (.load k)) hi hr hb
    (by rw [honly]; rfl) rfl
  refine ⟨_, hexec, hwaits, hstate, fun a ha => (hregs a ha).trans ?_, ?_⟩
  · rw [htaken]
    rfl
  · obtain ⟨r, f, hbegun⟩ : ∃ r f, (s.taken x i c).loadBegun k = { s.taken x i c with regs := r, funcs := f } := ⟨_, _, honly⟩
    rw [hbegun, htaken]
    rfl

theorem loadCastProfile_waits (h : s.Only c x) (hr : s.Ready x (.loadCastProfile c)) (h7 : bitsOf c.cdw10.toNat 7 6 = 0)
    (h31 : bitsOf c.cdw10.toNat 31 9 = 0) (hz : restZero c = true) (hp : c.prp = false) (hrem : bitOf c.cdw10.toNat 8 = true → c.len = 0)
    (hadd : bitOf c.cdw10.toNat 8 = false → c.len = 64 + profLe c.data 6 2 ∧ s.profileOk (fitBytes c.data c.len) = true) (hs : s.fstate 10 = 0) :
    ∃ t, exec (.loadCastProfile c) s = .next t ∧ s.Waits t c (.load 10) ∧ t.fstate 10 = 3 ∧ s.RegsBut [Adr.FUNC_CTRL 10] t ∧
      t = { s with regs := t.regs, funcs := t.funcs, host := t.host } := by
  have htaken := s.taken_only x (.loadCastProfile c) c
  refine load_waits h (by simp [nvmeRows]) hr (by omega) ?_
  change State.bodyLoadCastProfile _ _ c = _
  unfold State.bodyLoadCastProfile
  extract_lets w remove
  rw [if_neg]
  · refine State.loadVia_begins (.inl rfl) (h.taken_alone _).2 h.wait_fetched (by rw [htaken]; exact hs) _ (if_pos ?_)
    rcases hw : remove with _ | _
    · rw [Bool.false_or, htaken]
      exact (hadd hw).2
    · rfl
  · rcases hw : remove with _ | _
    · simp [w, h7, h31, hz, hp, (hadd hw).1]
    · simp [w, h7, h31, hz, hp, hrem hw]

theorem loadRecipe_waits (h : s.Only c x) (hr : s.Ready x (.loadRecipe c)) (h7 : bitsOf c.cdw10.toNat 7 2 = 0) (h31 : bitsOf c.cdw10.toNat 31 16 = 0)
    (hz : restZero c = true) (hp : c.prp = false) (hrem : bitOf c.cdw10.toNat 0 = true → c.len = 0 ∧ s.recipe (c.cdw10.toNat / 256 % 256) = none)
    (hadd : bitOf c.cdw10.toNat 0 = false → c.data.length = c.len ∧ s.recipeCheck (bitOf c.cdw10.toNat 1) c.data = none) (hs : s.fstate 11 = 0) :
    ∃ t, exec (.loadRecipe c) s = .next t ∧ s.Waits t c (.load 11) ∧ t.fstate 11 = 3 ∧ s.RegsBut [Adr.FUNC_CTRL 11] t ∧
      t = { s with regs := t.regs, funcs := t.funcs, host := t.host } := by
  have htaken := s.taken_only x (.loadRecipe c) c
  refine load_waits h (by simp [nvmeRows]) hr (by omega) ?_
  change State.bodyLoadRecipe _ _ c = _
  unfold State.bodyLoadRecipe
  extract_lets w remove
  rw [if_neg]
  · refine State.loadVia_begins (.inr rfl) (h.taken_alone _).2 h.wait_fetched (by rw [htaken]; exact hs) _ ?_
    rcases hw : remove with _ | _
    · have hcheck : (s.taken x (.loadRecipe c) c).recipeCheck (bitOf w 1) c.data = none := by
        rw [htaken]
        exact (hadd hw).2
      simp [hcheck, (hadd hw).1]
    · have hgone : (s.taken x (.loadRecipe c) c).recipe (w / 256 % 256) = none := by
        rw [htaken]
        exact (hrem hw).2
      simp [hgone]
  · rcases hw : remove with _ | _
    · simp [w, h7, h31, hz, hp]
    · simp [w, h7, h31, hz, hp, (hrem hw).1]

/-! ## Firmware (R486, R487) -/

/-- From s to t only registers change. -/
def State.RegsOnly (s t : State) : Prop := t = { s with regs := t.regs }

theorem State.RegsOnly.setReg {t : State} (h : s.RegsOnly t) (r : Nat) (v : Word) : s.RegsOnly (t.setReg r v) := by
  rw [State.RegsOnly]
  conv => lhs; rw [h]
  rfl

theorem State.RegsOnly.setFld {t : State} (h : s.RegsOnly t) (r : Nat) (f : Fld) (v : Nat) : s.RegsOnly (t.setFld r f v) := h.setReg _ _

theorem State.syncSlots_only (s : State) : s.syncSlots = { s with regs := s.syncSlots.regs } := by
  change s.RegsOnly s.syncSlots
  have h : s.RegsOnly s := rfl
  unfold State.syncSlots
  extract_lets f n act s1 s2 rev
  have h2 : s.RegsOnly s2 := (((h.setFld _ _ _).setFld _ _ _).setFld _ _ _).setFld _ _ _
  exact (((h2.setReg _ _).setReg _ _).setReg _ _).setReg _ _

theorem length_fitBytes (l : List Byte) (n : Nat) : (fitBytes l n).length = n := by
  simp only [fitBytes, slice, List.length_append, List.length_take, List.length_drop, List.length_replicate]
  omega

theorem Nor.slot_modify_same {l : List Slot} {k : Nat} (h : k < l.length) (f : Slot → Slot) : (l.modify k f).getD k {} = f (l.getD k {}) := by
  simp [List.getD_eq_getElem?_getD, List.getElem?_modify, h]

theorem Nor.slot_modify_other {l : List Slot} {j k : Nat} (h : j ≠ k) (f : Slot → Slot) : (l.modify k f).getD j {} = l.getD j {} := by
  simp [List.getD_eq_getElem?_getD, List.getElem?_modify, h.symm]

theorem State.spareSlot_lt (s : State) : s.spareSlot < 2 := by
  unfold State.spareSlot
  split <;> decide

/-- The first part of an image goes to the spare slot, with whether its blocks pass their checks, and the slot's boot mark goes. -/
def State.downloaded (s : State) (im : List Byte) (ok : Bool) : State :=
  let s1 := (s.modSlot s.spareSlot (fun _ => { state := 1, image := im, crcBad := !ok })).setFld Adr.FWU_DL Fld.FWU_DL_received im.length
  State.syncSlots { s1 with nor := { s1.nor with bootMark := if s1.nor.bootMark = some s.spareSlot then none else s1.nor.bootMark } }

theorem State.downloaded_facts (s : State) (im : List Byte) : OwnerMoves s (s.downloaded im true) ∧
    (s.downloaded im true).nor.slots = s.nor.slots.modify s.spareSlot (fun _ => { state := 1, image := im, crcBad := false }) := by
  unfold State.downloaded
  extract_lets s1
  rw [State.syncSlots_only]
  exact ⟨⟨rfl, rfl, rfl⟩, rfl⟩

theorem State.bodyFwDownload_of_first {n : Nat} (hn : n = 4 * (c.cdw10.toNat + 1)) (ha : s.activation = none) (h11 : c.cdw11 = 0) (hmax : n ≤ 50331648)
    (hok : blocksOk (fitBytes c.data n) 0 (n / 65536) = true) : s.bodyFwDownload x c = (s.downloaded (fitBytes c.data n) true).complete x .ok := by
  subst hn
  unfold State.bodyFwDownload
  extract_lets m off k old im ok s1 base s2
  have hoff : off = 0 := by
    simp only [off, h11]
    rfl
  have him : im = fitBytes c.data (4 * (c.cdw10.toNat + 1)) := by
    simp only [im, hoff]
    rfl
  have hokay : ok = true := by
    simp only [ok, him, hoff, length_fitBytes]
    exact hok
  rw [if_neg (by rw [ha]; exact Bool.false_ne_true), if_neg (by simp [hoff, m]; omega), if_pos hokay]
  have hs2 : s2 = s.downloaded im ok := rfl
  rw [hs2, hokay, him]

theorem firmwareDownload_done (h : s.Only c x) (hc : c.assoc < 1024) {n : Nat} (hn : n = 4 * (c.cdw10.toNat + 1)) (hr : s.Ready x (.firmwareImageDownload c))
    (ha : s.activation = none) (h11 : c.cdw11 = 0) (hmax : n ≤ 50331648) (hl : s.nor.slots.length = 2)
    (hok : blocksOk (fitBytes c.data n) 0 (n / 65536) = true) : ∃ t, exec (.firmwareImageDownload c) s = .next t ∧ s.Answers t c .ok 0 0 [] ∧
      (t.nor.slot s.spareSlot).image = fitBytes c.data n ∧ (t.nor.slot s.spareSlot).state = 1 ∧
      t.nor.slot (1 - s.spareSlot) = s.nor.slot (1 - s.spareSlot) ∧ t.media = s.media := by
  have htaken := s.taken_only x (.firmwareImageDownload c) c
  obtain ⟨hmoves, hslots⟩ := (s.taken x (.firmwareImageDownload c) c).downloaded_facts (fitBytes c.data n)
  obtain ⟨t, ht, hans, honly⟩ := h.answered (by simp [nvmeRows]) hc hr ((h.taken_alone (.firmwareImageDownload c)).1.of_eq hmoves.host hmoves.acts)
    (lba := 0) (n := 0) (State.bodyFwDownload_of_first hn (by rw [htaken]; exact ha) h11 hmax hok)
  have hspare : (s.taken x (.firmwareImageDownload c) c).spareSlot = s.spareSlot := by
    rw [htaken]
    rfl
  have hnor : (s.taken x (.firmwareImageDownload c) c).nor = s.nor := by rw [htaken]
  have hnew : t.nor.slots = s.nor.slots.modify s.spareSlot (fun _ => { state := 1, image := fitBytes c.data n, crcBad := false }) := by
    rw [honly]
    refine hslots.trans ?_
    rw [hspare, hnor]
  have hlt := s.spareSlot_lt
  have hsame : t.nor.slot s.spareSlot = { state := 1, image := fitBytes c.data n, crcBad := false } := by
    rw [Nor.slot, hnew, Nor.slot_modify_same (by omega)]
  refine ⟨t, ht, hans, by rw [hsame], by rw [hsame], ?_, ?_⟩
  · rw [Nor.slot, hnew, Nor.slot_modify_other (by omega)]
    rfl
  · rw [honly]
    refine hmoves.media.trans ?_
    rw [htaken]

theorem State.commitBefore_of_single (h : s.host.ctxs = [x]) : s.commitBefore x = false := by
  rw [State.commitBefore, h]
  simp

/-- s with a boot mark (R487). -/
def State.bootMarked (s : State) (m : Option Nat) : State := State.syncSlots { s with nor := { s.nor with bootMark := m } }

theorem State.bodyFwCommit_of_mark {k : Nat} (hctxs : s.host.ctxs = [x]) (hk : s.fsSlot c = some k) (hca : bitsOf c.cdw10.toNat 5 3 = 2)
    (hst : (s.nor.slot k).state = 2) : s.bodyFwCommit x c = (s.bootMarked (some k)).complete x .ok := by
  unfold State.bodyFwCommit
  extract_lets ca
  rw [if_neg (show ¬4 ≤ ca by simp only [ca]; omega), s.commitBefore_of_single hctxs, if_neg Bool.false_ne_true]
  simp only [hk]
  rw [if_pos (show ca = 2 from hca), if_neg (by omega), if_pos hst]
  rfl

/-- A commit whose image fails a check: the check is noted and the slot emptied (R488). -/
def State.commitFailed (s : State) (k n : Nat) : State :=
  (((s.noteCheck (s.nor.slot k).image n).modSlot k (fun _ => {})).syncSlots).event 0x7C2 (k + 1)

theorem State.bodyFwCommit_of_failed {k n : Nat} (hctxs : s.host.ctxs = [x]) (hk : s.fsSlot c = some k) (hca : bitsOf c.cdw10.toNat 5 3 = 0)
    (hst : (s.nor.slot k).state < 3) (hn : (s.nor.slot k).check = some n) : s.bodyFwCommit x c = (s.commitFailed k n).complete x ⟨1, 7⟩ n := by
  unfold State.bodyFwCommit
  extract_lets ca
  rw [if_neg (show ¬4 ≤ ca by simp only [ca]; omega), s.commitBefore_of_single hctxs, if_neg Bool.false_ne_true]
  simp only [hk]
  rw [if_neg (show ¬ca = 2 by simp only [ca]; omega), if_neg (by omega)]
  simp only [hn]
  rfl

theorem firmwareCommit_marked (h : s.Only c x) (hc : c.assoc < 1024) {k : Nat} (hr : s.Ready x (.firmwareCommit c)) (hk : s.fsSlot c = some k)
    (hca : bitsOf c.cdw10.toNat 5 3 = 2) (hst : (s.nor.slot k).state = 2) : ∃ t, exec (.firmwareCommit c) s = .next t ∧ s.Answers t c .ok 0 0 [] ∧
      t.nor.bootMark = some k ∧ t.nor.slots = s.nor.slots ∧ t.media = s.media := by
  have htaken := s.taken_only x (.firmwareCommit c) c
  obtain ⟨halone, hctxs⟩ := h.taken_alone (.firmwareCommit c)
  have hsync : (s.taken x (.firmwareCommit c) c).bootMarked (some k) = { s.taken x (.firmwareCommit c) c with
      nor := { (s.taken x (.firmwareCommit c) c).nor with bootMark := some k }, regs := ((s.taken x (.firmwareCommit c) c).bootMarked (some k)).regs } := by
    unfold State.bootMarked
    conv => lhs; rw [State.syncSlots_only]
  obtain ⟨t, ht, hans, honly⟩ := h.answered (by simp [nvmeRows]) hc hr (halone.of_eq (by rw [hsync]) (by rw [hsync])) (lba := 0) (n := 0)
    (State.bodyFwCommit_of_mark hctxs (by rw [htaken]; exact hk) hca (by rw [htaken]; exact hst))
  rw [hsync] at honly
  refine ⟨t, ht, hans, ?_, ?_, ?_⟩
  · rw [honly]
  · rw [honly]
    change (s.taken x (.firmwareCommit c) c).nor.slots = _
    rw [htaken]
  · rw [honly]
    change (s.taken x (.firmwareCommit c) c).media = _
    rw [htaken]

theorem State.event_bootMark (s : State) (id d e : Nat) : (s.event id d e).nor.bootMark = s.nor.bootMark :=
  congrArg (fun t => t.nor.bootMark) (s.event_only id d e).takeEvents

theorem State.commitFailed_facts (s : State) (k n : Nat) : OwnerMoves s (s.commitFailed k n) ∧ (s.commitFailed k n).nor.bootMark = s.nor.bootMark := by
  unfold State.commitFailed
  refine ⟨OwnerMoves.event ?_ _ _ _, (State.event_bootMark _ _ _ _).trans ?_⟩
  all_goals rw [State.syncSlots_only]
  · exact ⟨rfl, rfl, rfl⟩
  · rfl

theorem firmwareCommit_failed (h : s.Only c x) (hc : c.assoc < 1024) {k n : Nat} (hr : s.Ready x (.firmwareCommit c)) (hk : s.fsSlot c = some k)
    (hca : bitsOf c.cdw10.toNat 5 3 = 0) (hst : (s.nor.slot k).state < 3) (hn : (s.nor.slot k).check = some n) :
    ∃ t, exec (.firmwareCommit c) s = .next t ∧ s.Answers t c ⟨1, 7⟩ n 0 [] ∧ t.nor.bootMark = s.nor.bootMark ∧ t.media = s.media := by
  have htaken := s.taken_only x (.firmwareCommit c) c
  obtain ⟨halone, hctxs⟩ := h.taken_alone (.firmwareCommit c)
  obtain ⟨hmoves, hmark⟩ := (s.taken x (.firmwareCommit c) c).commitFailed_facts k n
  obtain ⟨t, ht, hans, honly⟩ := h.answered (by simp [nvmeRows]) hc hr (halone.of_eq hmoves.host hmoves.acts) (lba := 0) (n := 0)
    (State.bodyFwCommit_of_failed hctxs (by rw [htaken]; exact hk) hca (by rw [htaken]; exact hst) (by rw [htaken]; exact hn))
  refine ⟨t, ht, hans, ?_, ?_⟩
  · rw [honly]
    refine hmark.trans ?_
    rw [htaken]
  · rw [honly]
    refine hmoves.media.trans ?_
    rw [htaken]

end

/-- Settles O53: each load and each firmware command by what its body leaves. -/
theorem loadCommandRows : Obligations.LoadCommandRows := by
  unfold Obligations.LoadCommandRows
  intro s c x h hc
  refine ⟨?_, ?_, ?_, ?_, fun k hr hk => ⟨fun hca hst => firmwareCommit_marked h hc hr hk hca hst,
    fun n hca hst hn => firmwareCommit_failed h hc hr hk hca hst hn⟩⟩
  · intro d k hr h10 hz hp hl h1 h12 h56 hop hslot hk
    exact loadContentKey_removed h hc hr ⟨h10, hz, hp, hl, h1, h12, h56, hop, hslot⟩ hk
  · intro r hr h7 h31 hz hp hrem hadd hs
    exact loadCastProfile_waits h hr h7 h31 hz hp hrem hadd hs
  · intro r hr h7 h31 hz hp hrem hadd hs
    exact loadRecipe_waits h hr h7 h31 hz hp hrem hadd hs
  · intro n hr ha h11 hmax hl hok
    exact firmwareDownload_done h hc rfl hr ha h11 hmax hl hok

end Sys2Proof.Machine
end

section
/-! Creation and deletion of I/O queues on the PCIe path (R341, R364). -/

namespace Sys2Proof.Machine

open Sys2Proof

theorem lookupKey_erase_other {α : Type} (l : List (Nat × α)) {j k : Nat} (h : j ≠ k) : lookupKey (eraseKey l k) j = lookupKey l j := by
  induction l with
  | nil => rfl
  | cons p l ih =>
    by_cases hp : p.1 = k
    · rw [eraseKey, List.filter_cons_of_neg (by simp [hp]), lookupKey, if_neg (by omega)]
      exact ih
    · rw [eraseKey, List.filter_cons_of_pos (by simp [hp]), lookupKey, lookupKey]
      split
      · rfl
      · exact ih

/-! ## A completion on a PCIe queue with room (R341) -/

/-- The association after a completion on queue k: its tail goes on. -/
def Assoc.posted (y : Assoc) (k : Cq) : Assoc :=
  { y with cqs := y.cqs.map (fun d => if d.id = k.id then { d with tail := (d.tail + 1) % d.size } else d) }

theorem State.post_of_pcie {s : State} {z : Assoc} {k : Cq} {d : Completion} (ha : d.assoc = 1024) (hz : s.assoc 1024 = some z)
    (hk : z.cqOf d.qid = some k) (hroom : (k.tail + 1) % k.size ≠ k.head) (hheld : s.host.heldCpl = []) :
    s.post d = (s.modAssoc 1024 (fun y => y.posted k)).modHost
      (fun h => { h with completions := h.completions ++ [d], msix := h.msix ++ k.vector.toList }) := by
  unfold State.post
  rw [if_neg (by omega), if_neg (not_not_intro ha), hz]
  simp only [Option.bind_some, hk]
  rw [if_neg (by rw [hheld]; simpa using hroom)]
  rfl

/-- Alone, a PCIe command whose completion queue has room is answered (R341, R350). -/
theorem Alone.completeOk_pcie {s t : State} {c : Cmd} (h : Alone s t c) (hc : c.assoc = 1024) {x : Ctx} (ha : x.assoc = c.assoc) (hq : x.qid = c.qid)
    (hi : x.cid = c.cid) {z : Assoc} {k : Cq} (hz : t.assoc 1024 = some z) (hk : z.cqOf c.qid = some k) (hroom : (k.tail + 1) % k.size ≠ k.head)
    (hheld : t.host.heldCpl = []) :
    ∃ u : State, (t.complete x .ok).settle = u ∧ s.Answers u c .ok 0 0 [] ∧ u = { t with host := u.host } ∧ u.assoc 1024 = some (z.posted k) ∧
      u.host.capsules = t.host.capsules := by
  obtain ⟨⟨y, hy, hya, hyq, hyi⟩, he, hp⟩ := h
  have hpost : t.post (x.completion .ok 0 0 []) = (t.modAssoc 1024 (fun y => y.posted k)).modHost
      (fun h => { h with completions := h.completions ++ [x.completion .ok 0 0 []], msix := h.msix ++ k.vector.toList }) :=
    State.post_of_pcie (ha.trans hc) hz (by rw [← hq] at hk; exact hk) hroom hheld
  have hcomplete : t.complete x .ok = ((t.modAssoc 1024 (fun y => y.posted k)).modHost
      (fun h => { h with completions := h.completions ++ [x.completion .ok 0 0 []], msix := h.msix ++ k.vector.toList })).dropCtx x.assoc x.qid x.cid := by
    rw [← hpost]
    rfl
  generalize hv : (t.modAssoc 1024 (fun y => y.posted k)).modHost
      (fun h => { h with completions := h.completions ++ [x.completion .ok 0 0 []], msix := h.msix ++ k.vector.toList }) = v at hcomplete
  have honly : v = { t with host := v.host } := by
    rw [← hv]
    rfl
  have hvctxs : v.host.ctxs = [y] := by
    rw [← hv]
    exact hy
  have hvassoc : v.assoc 1024 = some (z.posted k) := by
    rw [← hv]
    exact (State.assoc_modAssoc_same t 1024 (fun y => y.posted k)).trans (by rw [hz, Option.map_some])
  obtain ⟨hwork, hctxs, hcpl⟩ := v.dropCtx_facts x.assoc x.qid x.cid
  have hnil : (v.dropCtx x.assoc x.qid x.cid).host.ctxs = [] := by
    rw [hctxs, hvctxs, ha, hq, hi]
    simp [Ctx.is, hya, hyq, hyi]
  refine ⟨v.dropCtx x.assoc x.qid x.cid, ?_, ⟨?_, hnil⟩, ?_, (hwork.assoc 1024).trans hvassoc, ?_⟩
  · rw [hcomplete, State.settle_of_nil hnil]
  · rw [hcpl, ← hv]
    change t.host.completions ++ _ = _
    rw [hp, Ctx.completion, ha, hq, hi]
  · unfold State.dropCtx
    extract_lets s3
    have h3 : s3 = { t with host := s3.host } := State.host_only_trans honly rfl
    have h3ctxs : s3.host.ctxs = [] := by
      change v.host.ctxs.filter (fun z => !z.is x.assoc x.qid x.cid) = []
      rw [hvctxs, ha, hq, hi]
      simp [Ctx.is, hya, hyq, hyi]
    obtain ⟨hrel, -, -⟩ := State.releaseLock_host h3ctxs x.assoc x.qid x.cid
    have hacts : ∀ a : Fin 4, ((s3.releaseLock x.assoc x.qid x.cid).act a).seq.list.any (fun e => e.isOf false x.assoc x.qid x.cid) = false := fun a => by
      rw [hrel, h3, ha, hq, hi]
      exact he a
    rw [State.dropList_of_none hacts]
    exact State.host_only_trans h3 hrel
  · rw [hwork.host, ← hv]
    rfl

/-! ## The queue commands -/

section
variable {s : State} {c : Cmd} {x : Ctx} {y : Assoc} {k : Cq}

/-- A queue command on the admin queue changes association 1,024 by f, whose admin completion queue stays, and is answered. -/
theorem queueCommand_done {i : Instr} (h : s.Only c x) (hi : i ∈ nvmeRows c) (hr : s.Ready x i) (hc : c.assoc = 1024) (hq : c.qid = 0)
    (hy : s.assoc 1024 = some y) (hroom : (k.tail + 1) % k.size ≠ k.head) (hheld : s.host.heldCpl = []) (g : HostState → HostState)
    (hg : ∀ h : HostState, g h = { h with capsules := (g h).capsules }) (f : Assoc → Assoc) (hk : (f y).cqOf 0 = some k)
    (hb : (s.taken x i c).body { x with instr := some i } i false = (((s.taken x i c).modHost g).modAssoc x.assoc f).complete { x with instr := some i } .ok) :
    ∃ t, exec i s = .next t ∧ s.Answers t c .ok 0 0 [] ∧ t.assoc 1024 = some ((f y).posted k) ∧
      t.host.capsules = (g (s.taken x i c).host).capsules ∧ t = { s with host := t.host } := by
  obtain ⟨ha, hqx, hid⟩ := h.key
  have htaken := s.taken_only x i c
  have halone : Alone s (((s.taken x i c).modHost g).modAssoc x.assoc f) c := by
    refine ((h.taken_alone i).1.modHost g ?_ ?_).modHost _ rfl rfl
    all_goals rw [hg]
  have hassoc : (((s.taken x i c).modHost g).modAssoc x.assoc f).assoc 1024 = some (f y) := by
    rw [ha, hc, State.assoc_modAssoc_same]
    have hold : ((s.taken x i c).modHost g).assoc 1024 = some y := by
      change lookupKey (g (s.taken x i c).host).assocs 1024 = some y
      rw [hg]
      exact (State.assoc_taken s x i c 1024).trans hy
    rw [hold]
    rfl
  have hfree : (((s.taken x i c).modHost g).modAssoc x.assoc f).host.heldCpl = [] := by
    change (g (s.taken x i c).host).heldCpl = []
    rw [hg, htaken]
    exact hheld
  obtain ⟨t, ht, hans, honly, hnew, hcaps⟩ := halone.completeOk_pcie hc (x := { x with instr := some i }) ha hqx hid hassoc (by rw [hq]; exact hk) hroom hfree
  refine ⟨t, by rw [h.exec_body hi hr, hb, ht], hans, hnew, hcaps, State.host_only_trans ?_ honly⟩
  rw [htaken]
  rfl

theorem Assoc.cqOf_admin (hs : lookupKey y.sqs 0 = none) : y.cqOf 0 = y.cqs.find? (fun d => d.id == 0) := by
  rw [Assoc.cqOf, hs]

theorem Assoc.any_posted (y : Assoc) (k : Cq) (q : Nat) : (y.posted k).cqs.any (fun d => d.id == q) = y.cqs.any (fun d => d.id == q) := by
  rw [Assoc.posted, List.any_map]
  congr 1
  funext d
  simp only [Function.comp]
  split <;> rfl

theorem createCq_done (h : s.Only c x) (hc : c.assoc = 1024) (hq : c.qid = 0) (hy : s.assoc 1024 = some y) (hs : lookupKey y.sqs 0 = none)
    (hk : y.cqs.find? (fun d => d.id == 0) = some k) (hroom : (k.tail + 1) % k.size ≠ k.head) (hheld : s.host.heldCpl = [])
    (h0 : 0 < c.cdw10.toNat % 65536) (hr : s.Ready x (.createIoCompletionQueue c)) (h64 : c.cdw10.toNat % 65536 ≤ 64)
    (hn : 2 ≤ c.cdw10.toNat / 65536 + 1) (hmax : c.cdw10.toNat / 65536 + 1 ≤ 1024)
    (hnew : y.cqs.any (fun d => d.id == c.cdw10.toNat % 65536) = false) (hiv : bitOf c.cdw11.toNat 1 = false) :
    ∃ t, exec (.createIoCompletionQueue c) s = .next t ∧ s.Answers t c .ok 0 0 [] ∧ (∃ z, t.assoc 1024 = some z ∧ z.sqs = y.sqs ∧
      z.cqs.any (fun d => d.id == c.cdw10.toNat % 65536 && d.size == c.cdw10.toNat / 65536 + 1) = true) ∧ t = { s with host := t.host } := by
  have hassoc : (s.taken x (.createIoCompletionQueue c) c).assoc x.assoc = some y := by
    rw [State.assoc_taken, h.key.1, hc, hy]
  obtain ⟨t, ht, hans, hz, -, honly⟩ := queueCommand_done h (by simp [nvmeRows]) hr hc hq hy hroom hheld (fun h => h) (fun _ => rfl)
    (fun y => { y with cqs := y.cqs ++ [{ id := c.cdw10.toNat % 65536, size := c.cdw10.toNat / 65536 + 1, vector := none }] })
    (by rw [Assoc.cqOf_admin (by exact hs), List.find?_append, hk]; rfl) (by
      change State.bodyCreateCq _ _ c = _
      unfold State.bodyCreateCq
      extract_lets q n iv y' k'
      have hy' : y' = y := by
        simp only [y', hassoc]
        rfl
      have hk' : k' = { id := c.cdw10.toNat % 65536, size := c.cdw10.toNat / 65536 + 1, vector := none } := by
        simp only [k', hiv]
        rfl
      rw [hy', hk', if_neg (by simp only [q, hnew, Bool.false_eq_true, or_false]; omega), if_neg (by omega), if_neg (by rw [hiv]; simp)]
      rfl)
  refine ⟨t, ht, hans, ⟨_, hz, rfl, ?_⟩, honly⟩
  rw [Assoc.posted, List.any_map, List.any_append, Bool.or_eq_true]
  refine .inr ?_
  simp only [List.any_cons, List.any_nil, Bool.or_false, Function.comp]
  split <;> simp

theorem createSq_done (h : s.Only c x) (hc : c.assoc = 1024) (hq : c.qid = 0) (hy : s.assoc 1024 = some y) (hs : lookupKey y.sqs 0 = none)
    (hk : y.cqs.find? (fun d => d.id == 0) = some k) (hroom : (k.tail + 1) % k.size ≠ k.head) (hheld : s.host.heldCpl = [])
    (h0 : 0 < c.cdw10.toNat % 65536) (hr : s.Ready x (.createIoSubmissionQueue c)) (h64 : c.cdw10.toNat % 65536 ≤ 64)
    (hn : 2 ≤ c.cdw10.toNat / 65536 + 1) (hmax : c.cdw10.toNat / 65536 + 1 ≤ 1024) (hcq : 0 < c.cdw11.toNat / 65536)
    (hany : y.cqs.any (fun d => d.id == c.cdw11.toNat / 65536) = true) (hnew : lookupKey y.sqs (c.cdw10.toNat % 65536) = none) :
    ∃ t, exec (.createIoSubmissionQueue c) s = .next t ∧ s.Answers t c .ok 0 0 [] ∧ (∃ z, t.assoc 1024 = some z ∧
      lookupKey z.sqs (c.cdw10.toNat % 65536) = some (c.cdw11.toNat / 65536) ∧ lookupKey z.classes (c.cdw10.toNat % 65536) = some 2) ∧
      t = { s with host := t.host } := by
  have hassoc : (s.taken x (.createIoSubmissionQueue c) c).assoc x.assoc = some y := by
    rw [State.assoc_taken, h.key.1, hc, hy]
  obtain ⟨t, ht, hans, hz, -, honly⟩ := queueCommand_done h (by simp [nvmeRows]) hr hc hq hy hroom hheld (fun h => h) (fun _ => rfl)
    (fun y => { y with
      sqs := insertKey y.sqs (c.cdw10.toNat % 65536) (c.cdw11.toNat / 65536), classes := insertKey y.classes (c.cdw10.toNat % 65536) 2 })
    (by rw [Assoc.cqOf_admin (by rw [lookupKey_insert_other _ _ (by omega)]; exact hs)]; exact hk) (by
      change State.bodyCreateSq _ _ c = _
      unfold State.bodyCreateSq
      extract_lets q n k' y'
      have hy' : y' = y := by
        simp only [y', hassoc]
        rfl
      rw [hy', if_neg (by simp only [k', hany, Bool.not_true, Bool.false_eq_true, or_false]; omega),
        if_neg (by simp only [q, hnew, Option.isSome_none, Bool.false_eq_true, or_false]; omega), if_neg (by omega)]
      rfl)
  exact ⟨t, ht, hans, ⟨_, hz, lookupKey_insert_same _ _ _, lookupKey_insert_same _ _ _⟩, honly⟩

theorem deleteSq_done (h : s.Only c x) (hc : c.assoc = 1024) (hq : c.qid = 0) (hy : s.assoc 1024 = some y) (hs : lookupKey y.sqs 0 = none)
    (hk : y.cqs.find? (fun d => d.id == 0) = some k) (hroom : (k.tail + 1) % k.size ≠ k.head) (hheld : s.host.heldCpl = [])
    (h0 : 0 < c.cdw10.toNat % 65536) (hr : s.Ready x (.deleteIoSubmissionQueue c)) (hold : (lookupKey y.sqs (c.cdw10.toNat % 65536)).isSome = true) :
    ∃ t, exec (.deleteIoSubmissionQueue c) s = .next t ∧ s.Answers t c .ok 0 0 [] ∧
      (∃ z, t.assoc 1024 = some z ∧ lookupKey z.sqs (c.cdw10.toNat % 65536) = none) ∧
      t.host.capsules = s.host.capsules.filter (fun d => !(d.assoc == 1024 && d.qid == c.cdw10.toNat % 65536)) ∧ t = { s with host := t.host } := by
  have hassoc : (s.taken x (.deleteIoSubmissionQueue c) c).assoc x.assoc = some y := by
    rw [State.assoc_taken, h.key.1, hc, hy]
  obtain ⟨t, ht, hans, hz, hcaps, honly⟩ := queueCommand_done h (by simp [nvmeRows]) hr hc hq hy hroom hheld
    (fun h => { h with capsules := h.capsules.filter (fun d => !(d.assoc == x.assoc && d.qid == c.cdw10.toNat % 65536)) }) (fun _ => rfl)
    (fun y => { y with sqs := eraseKey y.sqs (c.cdw10.toNat % 65536), classes := eraseKey y.classes (c.cdw10.toNat % 65536) })
    (by rw [Assoc.cqOf_admin (by rw [lookupKey_erase_other _ (by omega)]; exact hs)]; exact hk) (by
      change State.bodyDeleteSq _ _ c = _
      unfold State.bodyDeleteSq
      extract_lets q y'
      have hy' : y' = y := by
        simp only [y', hassoc]
        rfl
      rw [hy', if_neg (by
        rw [← Option.not_isSome]
        simp only [q, hold, Bool.not_true, Bool.false_eq_true, or_false]
        omega)])
  refine ⟨t, ht, hans, ⟨_, hz, lookupKey_erase_same _ _⟩, ?_, honly⟩
  rw [hcaps, h.key.1, hc, s.taken_only x _ c]
  rfl

theorem deleteCq_done (h : s.Only c x) (hc : c.assoc = 1024) (hq : c.qid = 0) (hy : s.assoc 1024 = some y) (hs : lookupKey y.sqs 0 = none)
    (hk : y.cqs.find? (fun d => d.id == 0) = some k) (hroom : (k.tail + 1) % k.size ≠ k.head) (hheld : s.host.heldCpl = [])
    (h0 : 0 < c.cdw10.toNat % 65536) (hr : s.Ready x (.deleteIoCompletionQueue c)) (hold : y.cqs.any (fun d => d.id == c.cdw10.toNat % 65536) = true)
    (hfree : y.sqs.any (fun p => p.2 == c.cdw10.toNat % 65536) = false) :
    ∃ t, exec (.deleteIoCompletionQueue c) s = .next t ∧ s.Answers t c .ok 0 0 [] ∧
      (∃ z, t.assoc 1024 = some z ∧ z.cqs.any (fun d => d.id == c.cdw10.toNat % 65536) = false) ∧ t = { s with host := t.host } := by
  have hassoc : (s.taken x (.deleteIoCompletionQueue c) c).assoc x.assoc = some y := by
    rw [State.assoc_taken, h.key.1, hc, hy]
  have hfind : (y.cqs.filter (fun d => d.id != c.cdw10.toNat % 65536)).find? (fun d => d.id == 0) = some k := by
    rw [List.find?_filter, ← hk]
    congr 1
    funext d
    by_cases hd : d.id = 0
    · simp [hd, Nat.ne_of_lt h0]
    · simp [hd]
  obtain ⟨t, ht, hans, hz, -, honly⟩ := queueCommand_done h (by simp [nvmeRows]) hr hc hq hy hroom hheld (fun h => h) (fun _ => rfl)
    (fun y => { y with cqs := y.cqs.filter (fun d => d.id != c.cdw10.toNat % 65536) }) (by rw [Assoc.cqOf_admin (by exact hs)]; exact hfind) (by
      change State.bodyDeleteCq _ _ c = _
      unfold State.bodyDeleteCq
      extract_lets q y'
      have hy' : y' = y := by
        simp only [y', hassoc]
        rfl
      rw [hy', if_neg (by simp only [q, hold, Bool.not_true, Bool.false_eq_true, or_false]; omega), if_neg (by rw [hfree]; exact Bool.false_ne_true)]
      rfl)
  refine ⟨t, ht, hans, ⟨_, hz, ?_⟩, honly⟩
  rw [Assoc.any_posted, List.any_eq_false]
  intro d hd
  simpa using (List.mem_filter.1 hd).2

end

/-- Settles O54: each queue command by what it leaves of association 1,024. -/
theorem pcieQueueRows : Obligations.PcieQueueRows := by
  unfold Obligations.PcieQueueRows
  intro s c x y k h hc hq hy hs hk hroom hheld q n h0
  exact ⟨fun hr h64 hn hmax hnew hiv => createCq_done h hc hq hy hs hk hroom hheld h0 hr h64 hn hmax hnew hiv,
    fun hr h64 hn hmax hcq hany hnew => createSq_done h hc hq hy hs hk hroom hheld h0 hr h64 hn hmax hcq hany hnew,
    fun hr hold => deleteSq_done h hc hq hy hs hk hroom hheld h0 hr hold,
    fun hr hold hfree => deleteCq_done h hc hq hy hs hk hroom hheld h0 hr hold hfree⟩

end Sys2Proof.Machine
end

section
/-! The PCIe side (R341, R342, R350) and the management interface (R343). -/

namespace Sys2Proof.Machine

open Sys2Proof

/-! ## Resets of function 0 (R341, R342) -/

/-- A reset of function 0 ends association 1,024. -/
theorem State.resetFunction0_lacks (s : State) : s.resetFunction0.Lacks 1024 := s.endAssoc_lacks 1024

theorem exec_perstRise {s : State} (h : s.ps ≠ 5) (b : Boot) : exec (.perstRise b) s = .next (s.resetFunction0.modHost (fun h => { h with perstLow := false })) :=
  congrArg Host.Outcome.next (if_neg fun k => h k.1)

theorem controllerEnable_enables {s : State} (n : Nat) (hp : s.powered 4 = true) (he : s.flag Adr.HIF_CTRL Fld.HIF_CTRL_pcie_en = true)
    (hs : 4 ≤ s.fld Adr.PLN_STATUS Fld.PLN_STATUS_step) (hl : s.host.perstLow = false) (ha : s.assoc 1024 = none) :
    ∃ t, exec (.controllerEnable n) s = .next t ∧ (t.assoc 1024).isSome = true ∧ t.host.pcieEnabled = true ∧ t = { s with host := t.host } := by
  have hexec : exec (.controllerEnable n) s = .next (s.modHost (fun h => { h with
      assocs := insertKey h.assocs 1024 { auth := true, cqs := [{ id := 0, size := n + 1, vector := some 0 }], cc := 1, csts := 1, katoFrom := s.now }
      pcieEnabled := true })) := by
    change execControllerEnable n s = _
    unfold execControllerEnable
    extract_lets ok x
    exact if_neg (by simp [ok, hp, he, hs, hl, ha])
  exact ⟨_, hexec, congrArg Option.isSome (lookupKey_insert_same s.host.assocs 1024 _), rfl, rfl⟩

/-! ## Doorbells (R341, R350) -/

theorem State.renewLease_only (s : State) : s.renewLease = { s with own := s.renewLease.own } := rfl

theorem State.arrive_facts (s : State) (a q c cells : Nat) (bad : Bool) : (s.arrive a q c cells bad).host.doorbells = s.host.doorbells ∧
    (∃ z, (s.arrive a q c cells bad).host.capsules = s.host.capsules ++ [z] ∧ z.assoc = a ∧ z.qid = q ∧ z.cid = c ∧ z.permitted = (s.isOwner a && !s.ownOver)) ∧
    (s.arrive a q c cells bad).regs = s.regs := by
  unfold State.arrive
  extract_lets k s1
  have honly : s1 = { s with own := s1.own } := by
    by_cases hr : q = 0 ∧ k.permitted
    · simp only [s1, if_pos hr]
      exact s.renewLease_only
    · simp only [s1, if_neg hr]
  clear_value s1
  rw [honly]
  exact ⟨rfl, ⟨k, rfl, rfl, rfl, rfl, rfl⟩, rfl⟩

theorem sqTailDoorbell_arrives {s : State} {y : Assoc} (tail cid : Nat) (hy : s.assoc 1024 = some y) :
    ∃ t, exec (.sqTailDoorbell 0 tail [cid]) s = .next t ∧ lookupKey t.host.doorbells 0 = some tail ∧
      (∃ z, t.host.capsules = s.host.capsules ++ [z] ∧ z.assoc = 1024 ∧ z.qid = 0 ∧ z.cid = cid) ∧ t.regs = s.regs := by
  obtain ⟨hbells, ⟨z, hz, hza, hzq, hzc, -⟩, hregs⟩ :=
    (s.modHost (fun h => { h with doorbells := insertKey h.doorbells 0 tail })).arrive_facts 1024 0 cid 0 false
  have hexec : exec (.sqTailDoorbell 0 tail [cid]) s =
      .next ((s.modHost (fun h => { h with doorbells := insertKey h.doorbells 0 tail })).arrive 1024 0 cid 0 false) := by
    change execSqTailDoorbell 0 tail [cid] s = _
    unfold execSqTailDoorbell
    rw [hy]
    exact if_neg fun h => h.1 rfl
  exact ⟨_, hexec, (congrArg (lookupKey · 0) hbells).trans (lookupKey_insert_same _ _ _), ⟨z, hz, hza, hzq, hzc⟩, hregs⟩

theorem State.postHeld_of_none {s : State} (h : s.host.heldCpl = []) : s.postHeld = s.modHost (fun h => { h with heldCpl := [] }) := by
  rw [State.postHeld, h]
  rfl

/-- Settles O33: the resets by endAssoc_lacks, the doorbells by what an arrival leaves. -/
theorem pcieRows : Obligations.PcieRows := by
  unfold Obligations.PcieRows
  intro s
  refine ⟨fun n hp he hs hl ha => controllerEnable_enables n hp he hs hl ha, ⟨_, rfl, s.resetFunction0_lacks, rfl⟩,
    ⟨_, rfl, s.resetFunction0_lacks, rfl⟩, fun b h => ⟨_, exec_perstRise h b, s.resetFunction0_lacks, rfl⟩,
    ⟨_, rfl, s.resetFunction0_lacks, rfl⟩, rfl, fun y tail cid hy => sqTailDoorbell_arrives tail cid hy, fun q h hheld => ?_⟩
  exact ⟨_, congrArg Host.Outcome.next (State.postHeld_of_none hheld), rfl, rfl, rfl⟩

/-! ## The management interface (R343) -/

/-- Outside PS4 and PS5 a message is answered and wakes nothing. -/
theorem State.miAnswer_of_awake {s : State} (h : s.ps < 4) (status : Nat) (d : List Byte) (b : Boot) :
    s.miAnswer status d b = { s with mi := { s.mi with status := status, response := d } } :=
  if_neg (by rintro ⟨h4 | h5, -⟩ <;> omega)

/-- The settings the interface takes: one of the two frequencies, or a transmission unit from 64 to 250. -/
theorem configurationSet_freq {s : State} (h : s.ps < 4) {v : Nat} (hv : v = 1 ∨ v = 2) (b : Boot) :
    exec (.configurationSet 1 v b) s = .next { s with mi := { s.mi with freq := v, status := 0, response := [] } } := by
  refine congrArg Host.Outcome.next ((if_pos ⟨rfl, hv⟩).trans ?_)
  exact State.miAnswer_of_awake (s := { s with mi := { s.mi with freq := v } }) h 0 [] b

theorem configurationSet_unit {s : State} (h : s.ps < 4) {v : Nat} (hlo : 64 ≤ v) (hhi : v ≤ 250) (b : Boot) :
    exec (.configurationSet 3 v b) s = .next { s with mi := { s.mi with unit := v, status := 0, response := [] } } := by
  refine congrArg Host.Outcome.next ((if_neg (by simp)).trans ((if_pos ⟨rfl, hlo, hhi⟩).trans ?_))
  exact State.miAnswer_of_awake (s := { s with mi := { s.mi with unit := v } }) h 0 [] b

theorem configurationSet_refused {s : State} (h : s.ps < 4) {v : Nat} (hv : 2 < v) (b : Boot) :
    exec (.configurationSet 1 v b) s = .next { s with mi := { s.mi with status := 4, response := [] } } := by
  refine congrArg Host.Outcome.next ((if_neg (by omega)).trans ((if_neg (by omega)).trans ?_))
  exact State.miAnswer_of_awake h 4 [] b

theorem length_slice (l : List Byte) (off n : Nat) : (slice l off n).length = n := by
  rw [slice]
  simp only [List.length_append, List.length_replicate, List.length_take, List.length_drop]
  omega

theorem vpdRead_answers {s : State} (h : s.ps < 4) {f n : Nat} (hn : f + n ≤ 256) (b : Boot) :
    exec (.vpdRead f n b) s = .next { s with mi := { s.mi with status := 0, response := slice (fitBytes (Config.unstated 0x112 0) 256) f n } } :=
  congrArg Host.Outcome.next ((if_neg (by omega)).trans (State.miAnswer_of_awake h 0 _ b))

theorem miTunnelledAdmin_logPage {s : State} (h : s.ps < 4) {c : Cmd} {d : List Byte} (hd : s.logData c = .ok d) (b : Boot) :
    exec (.miTunnelledAdmin 0x02 c b) s = .next { s with mi := { s.mi with status := 0, response := d } } := by
  change execMiTunnelledAdmin 0x02 c b s = _
  rw [execMiTunnelledAdmin, hd, ← State.miAnswer_of_awake h 0 d b]

/-- A poll of the subsystem's health withdraws the alert. -/
theorem subsystemHealthStatusPoll_answers {s : State} (h : s.ps < 4) (x : Bool) (b : Boot) : ∃ d, exec (.subsystemHealthStatusPoll x b) s =
    .next { s with mi := { s.mi with changed := false, alert := false, status := 0, response := d } } :=
  ⟨_, congrArg Host.Outcome.next (State.miAnswer_of_awake (s := { s with mi := { s.mi with changed := false, alert := false } }) h 0 _ b)⟩

/-- Settles O34: every message by what miAnswer does in a device that is awake. -/
theorem managementRows : Obligations.ManagementRows := by
  unfold Obligations.ManagementRows
  intro s b h
  have answer : ∀ (k : Nat) (d : List Byte), s.miAnswer k d b = { s with mi := { s.mi with status := k, response := d } } := fun k d =>
    State.miAnswer_of_awake h k d b
  refine ⟨fun d w => ⟨_, congrArg Host.Outcome.next (answer 0 _), rfl, rfl⟩, fun x => ?_,
    fun n => ⟨_, congrArg Host.Outcome.next (answer 0 _), rfl, rfl⟩, ⟨_, congrArg Host.Outcome.next (answer 0 _), rfl, rfl, rfl⟩,
    ⟨_, congrArg Host.Outcome.next (answer 0 _), rfl, rfl, rfl⟩, fun v hv => ⟨_, configurationSet_freq h hv b, rfl, rfl, rfl⟩,
    fun v hlo hhi => ⟨_, configurationSet_unit h hlo hhi b, rfl, rfl, rfl⟩, fun v hv => ⟨_, configurationSet_refused h hv b, rfl, rfl⟩,
    fun f n hn => ⟨_, vpdRead_answers h hn b, rfl, length_slice _ _ _, rfl⟩, fun c d hd => ⟨_, miTunnelledAdmin_logPage h hd b, rfl, rfl, rfl⟩⟩
  obtain ⟨d, hd⟩ := subsystemHealthStatusPoll_answers h x b
  exact ⟨_, hd, rfl, rfl, rfl, rfl⟩

end Sys2Proof.Machine
end

section
/-! TCP and NVMe/TCP connections (R334 to R340). -/

namespace Sys2Proof.Machine

open Sys2Proof

/-! ## Connections -/

section
variable {s : State} {k : Nat} {c : Conn}

theorem State.sendConn_of_open (h : lookupKey s.host.conns k = some c) (level : Nat) (o : NetOut) : s.sendConn k level o = s.sendOn c.port c.iface level o := by
  rw [State.sendConn, h]

/-- A connection without an association just closes. -/
theorem State.closeConn_of_free (h : lookupKey s.host.conns k = some c) (hc : c.assoc = none) :
    s.closeConn k = s.modHost (fun h => { h with conns := eraseKey h.conns k }) := by
  rw [State.closeConn, h]
  dsimp only
  rw [hc]

theorem State.lookup_modConn (h : lookupKey s.host.conns k = some c) (f : Conn → Conn) : lookupKey (s.modConn k f).host.conns k = some (f c) :=
  (lookupKey_map_same s.host.conns k f).trans (by rw [h, Option.map_some])

/-- What a changed connection sends carries its port's tag. -/
theorem State.sendConn_modConn (h : lookupKey s.host.conns k = some c) {f : Conn → Conn} (hp : (f c).port = c.port) (hi : (f c).iface = c.iface) (o : NetOut) :
    (s.modConn k f).sendConn k 0 o = (s.modConn k f).sendOn c.port c.iface 0 o := by
  rw [State.sendConn_of_open (State.lookup_modConn h f), hp, hi]

theorem connectionClose_free (h : lookupKey s.host.conns k = some c) (hc : c.assoc = none) :
    ∃ t, exec (.connectionClose k) s = .next t ∧ lookupKey t.host.conns k = none ∧ t = { s with host := t.host } :=
  ⟨_, congrArg Host.Outcome.next (State.closeConn_of_free h hc), lookupKey_erase_same _ _, rfl⟩

/-! ## The ICReq (R337) -/

theorem icreq_answered (h : lookupKey s.host.conns k = some c) (hi : c.icDone = false) (hd dd : Bool) :
    ∃ t, exec (.icreq k 0 0 hd dd) s = .next t ∧ t.host.sent = s.host.sent ++ [⟨.icResp k (icRespBytes hd dd), s.tagOf c.port c.iface 0⟩] ∧
      t = { s with host := t.host } := by
  have hexec : exec (.icreq k 0 0 hd dd) s = .next ((s.modConn k (fun c => { c with icDone := true, hdgst := hd, ddgst := dd })).sendConn k 0
      (.icResp k (icRespBytes hd dd))) := by
    change execIcreq k 0 0 hd dd s = _
    unfold execIcreq
    rw [h]
    dsimp only
    rw [hi, if_neg Bool.false_ne_true, if_neg (not_not_intro rfl), if_neg (not_not_intro rfl)]
  rw [State.sendConn_modConn h rfl rfl] at hexec
  exact ⟨_, hexec, rfl, rfl⟩

/-- Another version than 0 is a protocol error, which closes the connection. -/
theorem icreq_refused (h : lookupKey s.host.conns k = some c) (hi : c.icDone = false) {v : Nat} (hv : v ≠ 0) (hc : c.assoc = none) (n : Nat) (hd dd : Bool) :
    ∃ t, exec (.icreq k v n hd dd) s = .next t ∧ t.host.sent = s.host.sent ++ [⟨.termReq k 6 8, s.tagOf c.port c.iface 0⟩] ∧
      lookupKey t.host.conns k = none := by
  have hexec : exec (.icreq k v n hd dd) s = .next ((s.sendConn k 0 (.termReq k 6 8)).closeConn k) := by
    change execIcreq k v n hd dd s = _
    unfold execIcreq
    rw [h]
    dsimp only
    rw [hi, if_neg Bool.false_ne_true, if_pos hv]
  rw [State.sendConn_of_open h, State.closeConn_of_free (s := s.sendOn c.port c.iface 0 (.termReq k 6 8)) h hc] at hexec
  exact ⟨_, hexec, rfl, lookupKey_erase_same _ _⟩

/-! ## Timers (R334, R336) -/

theorem tcpTimer_persist (h : lookupKey s.host.conns k = some c) : exec (.tcpTimerExpiry k 1) s = .next (s.sendConn k 0 (.windowProbe k)) := by
  change execTcpTimerExpiry k 1 s = _
  unfold execTcpTimerExpiry
  rw [h]
  rfl

theorem tcpTimer_retransmit (h : lookupKey s.host.conns k = some c) :
    ∃ t, exec (.tcpTimerExpiry k 0) s = .next t ∧ t.host.sent = s.host.sent ++ [⟨.retransmit k, s.tagOf c.port c.iface 0⟩] ∧
      t = { s with host := t.host } := by
  have hexec : exec (.tcpTimerExpiry k 0) s = .next ((s.modConn k (fun c => { c with rto := 2 * c.rto, ssthresh := max (c.cwnd / 2) 2, cwnd := 1 })).sendConn
      k 0 (.retransmit k)) := by
    change execTcpTimerExpiry k 0 s = _
    unfold execTcpTimerExpiry
    rw [h]
    rfl
  rw [State.sendConn_modConn h rfl rfl] at hexec
  exact ⟨_, hexec, rfl, rfl⟩

theorem refusedTimeout_closes (h : lookupKey s.host.conns k = some c) (hr : c.refused = true) (hc : c.assoc = none) :
    ∃ t, exec (.refusedConnectionTimeout k) s = .next t ∧ lookupKey t.host.conns k = none ∧ t = { s with host := t.host } := by
  have hexec : exec (.refusedConnectionTimeout k) s = .next (s.closeConn k) := by
    change execRefusedConnectionTimeout k s = _
    unfold execRefusedConnectionTimeout
    rw [h]
    dsimp only
    rw [if_pos hr]
  rw [State.closeConn_of_free h hc] at hexec
  exact ⟨_, hexec, lookupKey_erase_same _ _, rfl⟩

end

/-! ## Opening (R334, R335) -/

section
variable {s : State} {p : Fin 2} {i : Fin 4}

theorem tcpConnect_opens (hl : s.flag (Adr.NET_STATUS p) Fld.NET_STATUS_link = true) (he : s.flag (Adr.NET_IF0 p i) Fld.NET_IF0_en = true) (v6 : Bool) :
    ∃ t, exec (.tcpConnect p i v6 4420) s = .next t ∧
      lookupKey t.host.conns s.host.nextConn = some { port := p, iface := i, mss := s.mss p v6, localPort := 4420 } ∧
      t.host.nextConn = s.host.nextConn + 1 ∧ t = { s with host := t.host } := by
  have hexec : exec (.tcpConnect p i v6 4420) s = .next ((s.modHost (fun h => { h with nextConn := s.host.nextConn + 1 })).modHost (fun h => { h with
      conns := insertKey h.conns s.host.nextConn { port := p, iface := i, mss := s.mss p v6, localPort := 4420 } })) := by
    change execTcpConnect p i v6 4420 s = _
    unfold execTcpConnect
    extract_lets k s1 disc
    rw [if_neg (by simp [hl, he]), if_neg (by omega)]
  exact ⟨_, hexec, lookupKey_insert_same _ _ _, rfl, rfl⟩

/-- A discovery connection past the sixteenth is reset. -/
theorem tcpConnect_reset (hl : s.flag (Adr.NET_STATUS p) Fld.NET_STATUS_link = true) (he : s.flag (Adr.NET_IF0 p i) Fld.NET_IF0_en = true) (v6 : Bool)
    (hn : 16 ≤ (s.host.conns.filter (fun c => c.2.localPort == 8009)).length) :
    ∃ t, exec (.tcpConnect p i v6 8009) s = .next t ∧ t.host.conns = s.host.conns ∧
      t.host.sent = s.host.sent ++ [⟨.tcpReset p s.host.nextConn, s.tagOf p i 0⟩] := by
  have hexec : exec (.tcpConnect p i v6 8009) s =
      .next ((s.modHost (fun h => { h with nextConn := s.host.nextConn + 1 })).sendOn p i 0 (.tcpReset p s.host.nextConn)) := by
    change execTcpConnect p i v6 8009 s = _
    unfold execTcpConnect
    extract_lets k s1 disc
    rw [if_neg (by simp [hl, he]), if_pos (.inr ⟨rfl, hn⟩)]
  exact ⟨_, hexec, rfl, rfl⟩

end

/-! ## The keep-alive timer (R340) -/

theorem keepAlive_expiry {s : State} {a : Nat} {y : Assoc} (h : s.assoc a = some y) :
    exec (.keepAliveExpiry a) s = .next (if y.kato ≠ 0 ∧ y.katoFrom + y.kato * 1000000 ≤ s.now then (s.event 0x609).endAssoc a else s) := by
  change execKeepAliveExpiry a s = _
  unfold execKeepAliveExpiry
  rw [h]

/-- Settles O31: each row by what it leaves of its connection. -/
theorem connectionRows : Obligations.ConnectionRows := by
  unfold Obligations.ConnectionRows
  intro s
  refine ⟨fun p i v6 hl he => ⟨tcpConnect_opens hl he v6, tcpConnect_reset hl he v6⟩, fun k c h => ⟨connectionClose_free h,
    fun hd dd hi => icreq_answered h hi hd dd, fun v n x y hi hv hc => icreq_refused h hi hv hc n x y, tcpTimer_persist h, tcpTimer_retransmit h,
    refusedTimeout_closes h⟩, fun a y h => ⟨fun hk hd => ?_, fun hk => ?_⟩⟩
  · rw [keepAlive_expiry h, if_pos ⟨hk, hd⟩]
  · rw [keepAlive_expiry h, if_neg]
    rintro ⟨hne, hd⟩
    omega

end Sys2Proof.Machine
end

section
/-! ECC and the DRAM channels (R408, R410, R411, R420 to R428). -/

namespace Sys2Proof.Machine

open Sys2Proof

/-! ## A read through the L2 (R413 to R417) -/

/-- From s to t only the L2's counters and the DRAM's own state change, and no queued scrub. -/
structure CacheWork (s t : State) : Prop where
  regs : s.RegsBut [Adr.L2C_HIT, Adr.L2C_MISS, Adr.L2C_PF] t
  rest : t = { s with regs := t.regs, dram := t.dram }
  scrubs : t.dram.scrubs = s.dram.scrubs

namespace CacheWork

variable {s t u : State}

theorem refl (s : State) : CacheWork s s := ⟨.refl _ s, rfl, rfl⟩

theorem countFld (h : CacheWork s t) {r : Nat} (f : Fld) (hr : r ∈ [Adr.L2C_HIT, Adr.L2C_MISS, Adr.L2C_PF]) : CacheWork s (t.countFld r f) := by
  refine ⟨h.regs.setFld f _ hr, ?_, h.scrubs⟩
  conv => lhs; rw [h.rest]
  rfl

theorem modDram (h : CacheWork s t) (f : Dram → Dram) (hf : (f t.dram).scrubs = t.dram.scrubs) : CacheWork s (t.modDram f) := by
  refine ⟨h.regs, ?_, hf.trans h.scrubs⟩
  conv => lhs; rw [h.rest]
  rfl

theorem ite {p : Prop} [Decidable p] (h : CacheWork s t) (k : CacheWork s u) : CacheWork s (if p then t else u) := by
  split
  · exact h
  · exact k

theorem evict (h : CacheWork s t) (x : L2Line) : CacheWork s (t.evict x) := by
  unfold State.evict State.dramWrite
  exact .modDram (.ite (h.modDram _ rfl) h) _ rfl

theorem l2Fill (h : CacheWork s t) (d : Nat) (dirty ahead : Bool) : CacheWork s (t.l2Fill d dirty ahead) := by
  unfold State.l2Fill
  refine .modDram ?_ _ rfl
  split
  · exact h.evict _
  · exact h

theorem prefetchNext (h : CacheWork s t) (d : Nat) : CacheWork s (t.prefetchNext d) := .ite ((h.countFld _ (by simp)).l2Fill _ _ _) h

theorem l2Hit (h : CacheWork s t) (d : Nat) (dirties : Bool) : CacheWork s (t.l2Hit d dirties) := by
  unfold State.l2Hit
  have h1 : CacheWork s (t.countFld Adr.L2C_HIT Fld.L2C_HIT_hits) := h.countFld _ (by simp)
  dsimp only
  split
  · exact h1
  · exact .modDram (.ite (h1.countFld _ (by simp)) h1) _ rfl

theorem l2Read (h : CacheWork s t) (d : Nat) : CacheWork s (t.l2Read d) := by
  have h1 : CacheWork s (t.countFld Adr.L2C_MISS Fld.L2C_MISS_misses) := h.countFld _ (by simp)
  exact .ite (h.l2Hit d false) (prefetchNext (.ite h1 (h1.l2Fill _ _ _)) d)

end CacheWork

/-! ## The leaky bucket of a memory (R422) -/

section
variable {s : State} {i : Nat}

theorem State.bucketAdd_of_room (h : s.level i + 1 ≤ s.fld Adr.ECC_BUCKET Fld.ECC_BUCKET_threshold) :
    s.bucketAdd i = s.setFld (Adr.ECC_LVL i) Fld.ECC_LVL_level (s.level i + 1) := if_pos h

/-- A bucket over its threshold empties, is latched, and tells of it. -/
def State.overflowed (s : State) (i : Nat) : State :=
  let s1 := s.setFld (Adr.ECC_LVL i) Fld.ECC_LVL_level 0
  if s1.flag Adr.ECC_IRQ Fld.ECC_IRQ_latched then s1.setFlag Adr.ECC_IRQ Fld.ECC_IRQ_overflow true
  else (s1.setFlag Adr.ECC_IRQ Fld.ECC_IRQ_latched true).setFld Adr.ECC_IRQ Fld.ECC_IRQ_instance i

theorem State.bucketAdd_of_full (h : s.fld Adr.ECC_BUCKET Fld.ECC_BUCKET_threshold < s.level i + 1) :
    s.bucketAdd i = (s.overflowed i).eventIn (instBlock i) 0x6C1 := if_neg (by omega)

theorem instBlock_lt (h : i < 101) : instBlock i < 38 := by
  unfold instBlock
  repeat' split
  all_goals omega

theorem eccLvl_ne (h : i < 128) : Adr.ECC_IRQ ≠ Adr.ECC_LVL i ∧ Adr.ECC_CNT ≠ Adr.ECC_LVL i ∧ Adr.ECC_MODE ≠ Adr.ECC_LVL i ∧ Adr.ECC_BUCKET ≠ Adr.ECC_LVL i ∧
    ¬((0x5000000 ≤ Adr.ECC_LVL i ∧ Adr.ECC_LVL i < 0x5101000) ∨ Adr.ECC_LVL i = Adr.ECC_MODE) := by
  simp only [Adr.ECC_IRQ, Adr.ECC_CNT, Adr.ECC_MODE, Adr.ECC_BUCKET, Adr.ECC_LVL]
  omega

theorem State.overflowed_facts (h : i < 101) : (s.overflowed i).level i = 0 ∧ (s.overflowed i).flag Adr.ECC_IRQ Fld.ECC_IRQ_latched = true ∧
    s.RegsBut [Adr.ECC_LVL i, Adr.ECC_IRQ] (s.overflowed i) ∧ s.overflowed i = { s with regs := (s.overflowed i).regs } := by
  obtain ⟨hirq, -, -, -, -⟩ := eccLvl_ne (i := i) (by omega)
  have hlvl : (s.setFld (Adr.ECC_LVL i) Fld.ECC_LVL_level 0).fld (Adr.ECC_LVL i) Fld.ECC_LVL_level = 0 := by
    rw [State.fld_setFld_eq _ _ _ _ (by decide), Nat.zero_mod]
  unfold State.overflowed State.level
  extract_lets s1
  have h1 : s.RegsBut [Adr.ECC_LVL i, Adr.ECC_IRQ] s1 := (State.RegsBut.refl _ s).setFld _ _ (by simp)
  split
  case isTrue hl =>
    exact ⟨by rw [State.fld_setFlag_ne _ _ _ _ hirq.symm]; exact hlvl, by rw [State.flag_setFlag_apart _ _ _ _ _ (by decide) (by decide)]; exact hl,
      h1.setFlag _ _ (by simp), rfl⟩
  case isFalse hl =>
    refine ⟨?_, ?_, (h1.setFlag _ _ (by simp)).setFld _ _ (by simp), rfl⟩
    · rw [State.fld_setFld_ne _ _ _ _ hirq.symm, State.fld_setFlag_ne _ _ _ _ hirq.symm]
      exact hlvl
    · rw [State.flag_setFld_apart _ _ _ _ _ (by decide) (by decide), State.flag_setFlag_eq _ _ _ _ (by decide)]

theorem EventOnly.takeEvents_of_regs {t u : State} (h : EventOnly t u) (k : t = { s with regs := t.regs }) : u = s.takeEvents u := by
  refine h.takeEvents.trans ?_
  rw [k]
  rfl

theorem State.bucketAdd_regs (h : i < 101) : s.RegsButEvents [Adr.ECC_LVL i, Adr.ECC_IRQ] (s.bucketAdd i) ∧ s.bucketAdd i = s.takeEvents (s.bucketAdd i) := by
  rcases Nat.lt_or_ge (s.fld Adr.ECC_BUCKET Fld.ECC_BUCKET_threshold) (s.level i + 1) with hf | hr
  · obtain ⟨-, -, hregs, honly⟩ := State.overflowed_facts (s := s) h
    have hev := (s.overflowed i).eventIn_only 0x6C1 0 0 (instBlock_lt h)
    rw [State.bucketAdd_of_full hf]
    exact ⟨fun a ha he => (hev.2 a he).trans (hregs a ha), hev.takeEvents_of_regs honly⟩
  · rw [State.bucketAdd_of_room hr]
    exact ⟨fun a ha _ => State.regsBut_setFld s _ _ _ a fun k => ha (List.mem_cons.2 (.inl (List.mem_singleton.1 k))), rfl⟩

theorem State.recurred_of_away (h : 2 ≤ i) (n : Nat) : s.recurred i n = s := if_neg (by omega)

theorem State.recurred_only (s : State) (i n : Nat) : ∃ l, s.recurred i n = { s with dram := { s.dram with retireDue := l } } := by
  unfold State.recurred State.retireSoon
  repeat' split
  all_goals exact ⟨_, rfl⟩

end

/-! ## Corrected words (R420 to R422) -/

section
variable {s : State}

/-- What a corrected word of a memory outside the sequencers does in normal mode, u being s with it counted and, of DRAM, read through the L2. -/
theorem exec_eccCorrected {i : Fin 128} (hi : i.val < 97) (n : Nat) :
    exec (.eccCorrected i n) s = .next (let u := if i.val < 2 then (s.countFld Adr.ECC_CNT Fld.ECC_CNT_corr).l2Read n else s.countFld Adr.ECC_CNT Fld.ECC_CNT_corr
      if u.eccMode ≠ 0 then u else ((u.bucketAdd i).modDram (fun d => { d with scrubs := d.scrubs ++ [(i.val, n)] })).recurred i n) := by
  change execEccCorrected i n s = _
  unfold execEccCorrected
  extract_lets j s1 s2 u
  have hu : s2 = u := if_neg (by omega)
  rw [if_neg (by simp [instValid]; omega), hu]
  split <;> rfl

/-- s with a corrected word counted and its group read through the L2. -/
theorem eccRead_facts (i : Fin 128) {t : State} (h : CacheWork (s.countFld Adr.ECC_CNT Fld.ECC_CNT_corr) t) :
    t.eccMode = s.eccMode ∧ t.level i = s.level i ∧ t.fld Adr.ECC_BUCKET Fld.ECC_BUCKET_threshold = s.fld Adr.ECC_BUCKET Fld.ECC_BUCKET_threshold ∧
    t.fld Adr.ECC_CNT Fld.ECC_CNT_corr = min (s.fld Adr.ECC_CNT Fld.ECC_CNT_corr + 1) (2 ^ Fld.ECC_CNT_corr.width - 1) := by
  obtain ⟨hirq, hcnt, hmode, hbkt, -⟩ := eccLvl_ne i.isLt
  have hlvl : Adr.ECC_LVL i ∉ [Adr.L2C_HIT, Adr.L2C_MISS, Adr.L2C_PF] := by
    simp only [Adr.ECC_LVL, Adr.L2C_HIT, Adr.L2C_MISS, Adr.L2C_PF, List.mem_cons, List.not_mem_nil, or_false, not_or]
    omega
  refine ⟨?_, ?_, ?_, ?_⟩
  · rw [State.eccMode, h.regs.fld _ (by decide), State.fld_countFld_ne _ _ _ (by decide)]
    rfl
  · rw [State.level, h.regs.fld _ hlvl, State.fld_countFld_ne _ _ _ hcnt.symm]
    rfl
  · rw [h.regs.fld _ (by decide), State.fld_countFld_ne _ _ _ (by decide)]
  · rw [h.regs.fld _ (by decide), State.fld_countFld_eq _ _ _ (by decide)]

end

end Sys2Proof.Machine
end

section
/-! Corrected and uncorrectable words, scrubs, injection and retirement (R408, R411, R420 to R428). -/

namespace Sys2Proof.Machine

open Sys2Proof

/-! ## A corrected word in normal mode (R421, R422) -/

section
variable {s : State} {i : Fin 128}

/-- In normal mode the word enters the bucket, and its rewrite is queued. -/
theorem exec_eccCorrected_normal (hi : i.val < 97) (n : Nat) (hm : s.eccMode = 0) {u : State} (hu : CacheWork (s.countFld Adr.ECC_CNT Fld.ECC_CNT_corr) u)
    (h : (if i.val < 2 then (s.countFld Adr.ECC_CNT Fld.ECC_CNT_corr).l2Read n else s.countFld Adr.ECC_CNT Fld.ECC_CNT_corr) = u) :
    exec (.eccCorrected i n) s = .next (((u.bucketAdd i).modDram (fun d => { d with scrubs := d.scrubs ++ [(i.val, n)] })).recurred i n) := by
  obtain ⟨hmode, -, -, -⟩ := eccRead_facts i hu
  rw [exec_eccCorrected hi, h]
  exact congrArg Host.Outcome.next (if_neg (not_not_intro (hmode.trans hm)))

/-- With room in the bucket, its level and the count go up by 1. -/
theorem eccCorrected_room (hi : i.val < 97) (n : Nat) (hm : s.eccMode = 0) (hroom : s.level i + 1 ≤ s.fld Adr.ECC_BUCKET Fld.ECC_BUCKET_threshold)
    {u : State} (hu : CacheWork (s.countFld Adr.ECC_CNT Fld.ECC_CNT_corr) u)
    (h : (if i.val < 2 then (s.countFld Adr.ECC_CNT Fld.ECC_CNT_corr).l2Read n else s.countFld Adr.ECC_CNT Fld.ECC_CNT_corr) = u) :
    ∃ t, exec (.eccCorrected i n) s = .next (t.recurred i n) ∧ t.level i = s.level i + 1 ∧
      t.fld Adr.ECC_CNT Fld.ECC_CNT_corr = min (s.fld Adr.ECC_CNT Fld.ECC_CNT_corr + 1) (2 ^ Fld.ECC_CNT_corr.width - 1) ∧
      t.dram = { u.dram with scrubs := s.dram.scrubs ++ [(i.val, n)] } ∧ u.RegsBut [Adr.ECC_LVL i] t ∧ t = { s with regs := t.regs, dram := t.dram } := by
  obtain ⟨-, hlvl, hbkt, hcnt⟩ := eccRead_facts i hu
  obtain ⟨-, hne, -, -, -⟩ := eccLvl_ne i.isLt
  have hlt := s.fld_lt Adr.ECC_BUCKET Fld.ECC_BUCKET_threshold
  refine ⟨_, exec_eccCorrected_normal hi n hm hu h, ?_⟩
  rw [State.bucketAdd_of_room (by rw [hlvl, hbkt]; exact hroom)]
  refine ⟨?_, ?_, ?_, State.regsBut_setFld u _ _ _, ?_⟩
  · rw [hlvl]
    exact State.fld_setFld_of_lt u _ _ (by decide) (Nat.lt_of_le_of_lt hroom hlt)
  · exact (State.fld_setFld_ne u _ _ _ hne).trans hcnt
  · exact congrArg (fun l => { u.dram with scrubs := l ++ [(i.val, n)] }) hu.scrubs
  · have hrest := hu.rest
    generalize hr : u.regs = r at hrest
    generalize hd : u.dram = d at hrest
    subst hrest
    rfl

theorem eccCorrected_away (h2 : 2 ≤ i.val) (hi : i.val < 97) (n : Nat) (hm : s.eccMode = 0)
    (hroom : s.level i + 1 ≤ s.fld Adr.ECC_BUCKET Fld.ECC_BUCKET_threshold) :
    ∃ t, exec (.eccCorrected i n) s = .next t ∧ t.level i = s.level i + 1 ∧
      t.fld Adr.ECC_CNT Fld.ECC_CNT_corr = min (s.fld Adr.ECC_CNT Fld.ECC_CNT_corr + 1) (2 ^ Fld.ECC_CNT_corr.width - 1) ∧
      t.dram = { s.dram with scrubs := s.dram.scrubs ++ [(i.val, n)] } ∧ s.RegsBut [Adr.ECC_CNT, Adr.ECC_LVL i] t ∧
      t = { s with regs := t.regs, dram := t.dram } := by
  obtain ⟨t, ht, hlvl, hcnt, hdram, hregs, honly⟩ := eccCorrected_room hi n hm hroom (.refl _) (if_neg (by omega))
  rw [State.recurred_of_away h2] at ht
  refine ⟨t, ht, hlvl, hcnt, hdram, ?_, honly⟩
  exact (State.RegsBut.mono (State.regsBut_setFld s _ _ _) (by simp)).trans (hregs.mono (by simp))

theorem eccCorrected_dram (h2 : i.val < 2) (n : Nat) (hm : s.eccMode = 0) (hroom : s.level i + 1 ≤ s.fld Adr.ECC_BUCKET Fld.ECC_BUCKET_threshold) :
    ∃ t, exec (.eccCorrected i n) s = .next t ∧ t.level i = s.level i + 1 ∧
      t.fld Adr.ECC_CNT Fld.ECC_CNT_corr = min (s.fld Adr.ECC_CNT Fld.ECC_CNT_corr + 1) (2 ^ Fld.ECC_CNT_corr.width - 1) ∧
      t.dram.scrubs = s.dram.scrubs ++ [(i.val, n)] ∧ s.RegsBut [Adr.ECC_CNT, Adr.ECC_LVL i, Adr.L2C_HIT, Adr.L2C_MISS, Adr.L2C_PF] t ∧
      t = { s with regs := t.regs, dram := t.dram } := by
  have hu := (CacheWork.refl (s.countFld Adr.ECC_CNT Fld.ECC_CNT_corr)).l2Read n
  obtain ⟨t, ht, hlvl, hcnt, hdram, hregs, honly⟩ := eccCorrected_room (by omega) n hm hroom hu (if_pos h2)
  obtain ⟨l, hl⟩ := t.recurred_only i n
  rw [hl] at ht
  refine ⟨_, ht, hlvl, hcnt, congrArg Dram.scrubs hdram, ?_, ?_⟩
  · exact ((State.RegsBut.mono (State.regsBut_setFld s _ _ _) (by simp)).trans (hu.regs.mono (by simp))).trans (hregs.mono (by simp))
  · conv => lhs; rw [honly]

/-- A bucket over its threshold: whatever memory the word is of, the bucket empties and is latched. -/
theorem eccCorrected_full (hi : i.val < 97) (n : Nat) (hm : s.eccMode = 0) (hfull : s.fld Adr.ECC_BUCKET Fld.ECC_BUCKET_threshold < s.level i + 1) :
    ∃ t, exec (.eccCorrected i n) s = .next t ∧ t.level i = 0 ∧ t.flag Adr.ECC_IRQ Fld.ECC_IRQ_latched = true ∧
      t.dram.scrubs = s.dram.scrubs ++ [(i.val, n)] ∧
      s.RegsButEvents [Adr.ECC_CNT, Adr.ECC_LVL i, Adr.ECC_IRQ, Adr.L2C_HIT, Adr.L2C_MISS, Adr.L2C_PF] t := by
  have hu : ∃ u, (if i.val < 2 then (s.countFld Adr.ECC_CNT Fld.ECC_CNT_corr).l2Read n else s.countFld Adr.ECC_CNT Fld.ECC_CNT_corr) = u ∧
      CacheWork (s.countFld Adr.ECC_CNT Fld.ECC_CNT_corr) u := ⟨_, rfl, .ite ((CacheWork.refl _).l2Read n) (.refl _)⟩
  obtain ⟨u, hu, hwork⟩ := hu
  obtain ⟨-, hlvl, hbkt, -⟩ := eccRead_facts i hwork
  obtain ⟨-, -, -, -, hev⟩ := eccLvl_ne i.isLt
  have hexec := exec_eccCorrected_normal hi n hm hwork hu
  rw [State.bucketAdd_of_full (by rw [hlvl, hbkt]; exact hfull)] at hexec
  obtain ⟨hzero, hlatched, hregs, honly⟩ := State.overflowed_facts (s := u) (i := i.val) (by omega)
  have honev := (u.overflowed i).eventIn_only 0x6C1 0 0 (instBlock_lt (i := i.val) (by omega))
  have hdram : ((u.overflowed i).eventIn (instBlock i) 0x6C1).dram = u.dram := by
    rw [honev.takeEvents_of_regs honly]
    rfl
  generalize (u.overflowed i).eventIn (instBlock i) 0x6C1 = w at honev hexec hdram
  obtain ⟨l, hl⟩ := (w.modDram (fun d => { d with scrubs := d.scrubs ++ [(i.val, n)] })).recurred_only i n
  rw [hl] at hexec
  refine ⟨_, hexec, ?_, ?_, ?_, fun a ha he => ?_⟩
  · exact (congrArg (getBits · Fld.ECC_LVL_level) (honev.2 _ hev)).trans hzero
  · exact (congrArg (fun z => getBits z Fld.ECC_IRQ_latched != 0) (honev.2 _ (by unfold EventReg; decide))).trans hlatched
  · change w.dram.scrubs ++ _ = _
    rw [hdram, hwork.scrubs]
    rfl
  · simp only [List.mem_cons, List.not_mem_nil, or_false, not_or] at ha
    obtain ⟨hc, hl, hq, h1, h2, h3⟩ := ha
    calc w.reg a = (u.overflowed i).reg a := honev.2 a he
      _ = u.reg a := hregs a (by simp [hl, hq])
      _ = (s.countFld Adr.ECC_CNT Fld.ECC_CNT_corr).reg a := hwork.regs a (by simp [h1, h2, h3])
      _ = s.reg a := State.regsBut_setFld s _ _ _ a (by simp [hc])

/-- A corrected word of a sequencer's store is an event of its actuator too. -/
theorem eccCorrected_sequencer (h97 : 97 ≤ i.val) (hi : i.val < 101) (n : Nat) : ∃ t, exec (.eccCorrected i n) s = .next t ∧
    t.fld Adr.ECC_CNT Fld.ECC_CNT_corr = min (s.fld Adr.ECC_CNT Fld.ECC_CNT_corr + 1) (2 ^ Fld.ECC_CNT_corr.width - 1) ∧
    s.RegsButEvents [Adr.ECC_CNT, Adr.ECC_LVL i, Adr.ECC_IRQ, Adr.FSQ_ERR (i.val - 97)] t ∧ t.media = s.media ∧ t.host = s.host := by
  have hact : (actOf (i.val - 97)).val = i.val - 97 := Nat.mod_eq_of_lt (by omega)
  have hframe := (s.countFld Adr.ECC_CNT Fld.ECC_CNT_corr).seqEvent_frame (actOf (i.val - 97)) 7
  rw [hact] at hframe
  generalize hu : (s.countFld Adr.ECC_CNT Fld.ECC_CNT_corr).seqEvent (actOf (i.val - 97)) 7 = u at hframe
  obtain ⟨hbucket, honly⟩ := u.bucketAdd_regs hi
  have hexec : exec (.eccCorrected i n) s =
      .next (if u.eccMode ≠ 0 then u else (u.bucketAdd i).modDram (fun d => { d with scrubs := d.scrubs ++ [(i.val, n)] })) := by
    change execEccCorrected i n s = _
    unfold execEccCorrected
    extract_lets j s1 s2
    have h2 : s2 = u := (if_pos h97).trans hu
    rw [if_neg (by simp [instValid]; omega), h2, State.recurred_of_away (by omega)]
    split <;> rfl
  obtain ⟨-, hne, -, -, -⟩ := eccLvl_ne i.isLt
  have hcntne : Adr.ECC_CNT ∉ [Adr.ECC_LVL i, Adr.ECC_IRQ] := by
    simp only [List.mem_cons, List.not_mem_nil, or_false, not_or]
    exact ⟨hne, by decide⟩
  have hcntfsq : Adr.ECC_CNT ∉ [Adr.FSQ_ERR (i.val - 97)] := by
    simp only [Adr.ECC_CNT, Adr.FSQ_ERR, List.mem_singleton]
    omega
  have hcnt : u.fld Adr.ECC_CNT Fld.ECC_CNT_corr = min (s.fld Adr.ECC_CNT Fld.ECC_CNT_corr + 1) (2 ^ Fld.ECC_CNT_corr.width - 1) := by
    rw [hframe.fld _ hcntfsq (by decide), State.fld_countFld_eq _ _ _ (by decide)]
  have hregs : s.RegsButEvents [Adr.ECC_CNT, Adr.ECC_LVL i, Adr.ECC_IRQ, Adr.FSQ_ERR (i.val - 97)] u := fun a ha he => by
    simp only [List.mem_cons, List.not_mem_nil, or_false, not_or] at ha
    exact (hframe.regs a (by simp [ha.2.2.2]) he).trans (State.regsBut_setFld s _ _ _ a (by simp [ha.1]))
  refine ⟨_, hexec, ?_⟩
  split
  · exact ⟨hcnt, hregs, hframe.media, hframe.host⟩
  · refine ⟨(hbucket.fld _ hcntne (by unfold EventReg; decide)).trans hcnt, hregs.trans (hbucket.mono (by simp)), ?_, ?_⟩
    · change (u.bucketAdd i).media = s.media
      rw [honly]
      exact hframe.media
    · change (u.bucketAdd i).host = s.host
      rw [honly]
      exact hframe.host

end

/-! ## The leak of the buckets (R422) -/

/-- One bucket leaks. -/
def State.leaked (s : State) (i : Nat) : State := if s.level i = 0 then s else s.setFld (Adr.ECC_LVL i) Fld.ECC_LVL_level (s.level i - 1)

theorem State.leaked_facts (s : State) (i : Nat) : (s.leaked i).level i = s.level i - 1 ∧ s.RegsBut [Adr.ECC_LVL i] (s.leaked i) ∧
    s.leaked i = { s with regs := (s.leaked i).regs } := by
  unfold State.leaked
  split
  case isTrue h => exact ⟨by omega, .refl _ s, rfl⟩
  case isFalse h =>
    have hlt : s.level i < _ := s.fld_lt (Adr.ECC_LVL i) Fld.ECC_LVL_level
    exact ⟨State.fld_setFld_of_lt s _ _ (by decide) (by omega), State.regsBut_setFld s _ _ _, rfl⟩

theorem eccLvl_inj {i j : Nat} (h : i ≠ j) : Adr.ECC_LVL i ∉ [Adr.ECC_LVL j] := by
  simp only [Adr.ECC_LVL, List.mem_singleton]
  omega

/-- After the first n buckets have leaked, each of them is down by 1 and the others hold what they held. -/
theorem State.leaked_first (s : State) (n : Nat) : let t := (List.range n).foldl State.leaked s
    (∀ i, t.level i = if i < n then s.level i - 1 else s.level i) ∧ s.RegsBut ((List.range n).map Adr.ECC_LVL) t ∧ t = { s with regs := t.regs } := by
  induction n with
  | zero => exact ⟨fun i => rfl, .refl _ s, rfl⟩
  | succ n ih =>
    rw [List.range_succ, List.foldl_append]
    dsimp only [List.foldl_cons, List.foldl_nil]
    generalize (List.range n).foldl State.leaked s = t at ih
    obtain ⟨hlvl, hregs, honly⟩ := ih
    obtain ⟨hsame, hother, hrest⟩ := t.leaked_facts n
    refine ⟨fun i => ?_, ?_, ?_⟩
    · rcases Nat.lt_trichotomy i n with h | rfl | h
      · exact ((hother.fld _ (eccLvl_inj (by omega))).trans (hlvl i)).trans (by rw [if_pos h, if_pos (by omega)])
      · rw [hsame, hlvl, if_neg (Nat.lt_irrefl i), if_pos (by omega)]
      · exact ((hother.fld _ (eccLvl_inj (by omega))).trans (hlvl i)).trans (by rw [if_neg (by omega), if_neg (by omega)])
    · rw [List.map_append]
      exact (hregs.mono (by simp)).trans (hother.mono (by simp))
    · exact hrest.trans (by rw [honly])

theorem bucketLeak_due {s : State} (h : s.dram.leakAt + s.fld Adr.ECC_BUCKET Fld.ECC_BUCKET_leak_ms * 1000000 ≤ s.now) :
    ∃ t, exec .bucketLeak s = .next t ∧ (∀ i : Nat, i < 101 → t.level i = s.level i - 1) ∧ s.RegsBut ((List.range 101).map Adr.ECC_LVL) t ∧
      t = { s with regs := t.regs, dram := { s.dram with leakAt := s.now } } := by
  obtain ⟨hlvl, hregs, honly⟩ := (s.modDram (fun d => { d with leakAt := s.now })).leaked_first 101
  exact ⟨_, if_neg (Nat.not_lt.2 h), fun i hi => (hlvl i).trans (if_pos hi), hregs, honly⟩

/-! ## Scrubs (R411, R421, R426) -/

theorem targetedScrub_rewritten {s : State} {i n : Nat} {r : List (Nat × Nat)} (h : s.dram.scrubs = (i, n) :: r) :
    exec (.targetedScrub true) s = .next { s with dram := { s.dram with scrubs := r, bad := s.dram.bad.filter (fun p => p != (i, n)) } } := by
  change execTargetedScrub true s = _
  unfold execTargetedScrub
  rw [h]
  rfl

theorem targetedScrub_dram {s : State} {i n : Nat} {r : List (Nat × Nat)} (h : s.dram.scrubs = (i, n) :: r) (hi : i < 4) :
    exec (.targetedScrub false) s = .next { s with dram := { s.dram with
      scrubs := r, bad := s.dram.bad.filter (fun p => !inGroup (groupOf n).1 (groupOf n).2 p)
      rewrote := s.dram.rewrote.filter (fun p => !(p.1 == i && p.2.1 == n)) ++ [(i, n, s.now)] } } := by
  change execTargetedScrub false s = _
  unfold execTargetedScrub
  rw [h]
  dsimp only
  rw [if_neg Bool.false_ne_true, if_pos hi]
  rfl

theorem targetedScrub_away {s : State} {i n : Nat} {r : List (Nat × Nat)} (h : s.dram.scrubs = (i, n) :: r) (hi : 4 ≤ i) :
    exec (.targetedScrub false) s = .next { s with dram := { s.dram with scrubs := r } } := by
  change execTargetedScrub false s = _
  unfold execTargetedScrub
  rw [h]
  dsimp only
  rw [if_neg Bool.false_ne_true, if_neg (by omega)]
  rfl

theorem scrubGroup_moves {s : State} (ch : Fin 2) (g : Nat) (hm : s.eccMode = 0) (he : s.flag Adr.ECC_SCRUB Fld.ECC_SCRUB_en = true) :
    ∃ t, exec (.scrubGroup ch g) s = .next t ∧ t.dram = { s.dram with bad := s.dram.bad.filter (fun p => !inGroup ch g p) } ∧
      s.RegsBut [Adr.ECC_SCRUBPOS] t ∧ t = { s with regs := t.regs, dram := t.dram } := by
  have hexec : exec (.scrubGroup ch g) s = execScrubGroup ch g s := rfl
  rw [hexec]
  unfold execScrubGroup
  extract_lets single total s1 done r
  have h1 : s.RegsBut [Adr.ECC_SCRUBPOS] s1 := .refl _ s
  rw [if_neg (by simp [hm, he])]
  split
  · exact ⟨_, rfl, rfl, (h1.setFld _ _ (by simp [r])).setFld _ _ (by simp [r]), rfl⟩
  · exact ⟨_, rfl, rfl, h1.setFld _ _ (by simp [r]), rfl⟩

end Sys2Proof.Machine
end

section
/-! Uncorrectable words, a channel that fails, injection and retirement (R411, R420, R423 to R428). -/

namespace Sys2Proof.Machine

open Sys2Proof

/-! ## Uncorrectable words (R423, R424) -/

/-- s with an uncorrectable word counted and latched. -/
def State.latchedWord (s : State) (i n : Nat) : State :=
  ((s.countFld Adr.ECC_CNT Fld.ECC_CNT_uncorr).setReg Adr.ECC_UE_LO (BitVec.ofNat 32 n)).setReg Adr.ECC_UE_HI
    (setBits (setBits 0 Fld.ECC_UE_HI_instance i) Fld.ECC_UE_HI_addr_hi (n / 2 ^ 32))

/-- s with an uncorrectable word also due for retirement: a word of DRAM that is not poisoned (R428). -/
def State.latchedDue (s : State) (i n : Nat) : State :=
  if i < 2 ∧ !(s.latchedWord i n).dram.poison.contains (i, n) then (s.latchedWord i n).retireSoon n else s.latchedWord i n

section
variable {s : State} {i : Fin 128}

theorem State.latchedWord_facts (s : State) {i : Nat} (hi : i < 128) (n : Nat) : (s.latchedWord i n).reg Adr.ECC_UE_LO = BitVec.ofNat 32 n ∧
    (s.latchedWord i n).fld Adr.ECC_UE_HI Fld.ECC_UE_HI_instance = i ∧
    (s.latchedWord i n).fld Adr.ECC_CNT Fld.ECC_CNT_uncorr = min (s.fld Adr.ECC_CNT Fld.ECC_CNT_uncorr + 1) (2 ^ Fld.ECC_CNT_uncorr.width - 1) ∧
    s.RegsBut [Adr.ECC_CNT, Adr.ECC_UE_LO, Adr.ECC_UE_HI] (s.latchedWord i n) ∧ s.latchedWord i n = { s with regs := (s.latchedWord i n).regs } := by
  unfold State.latchedWord
  refine ⟨?_, ?_, ?_, ?_, rfl⟩
  · rw [State.reg_setReg_other _ _ (by decide), State.reg_setReg_same]
  · rw [State.fld_setReg_same, getBits_setBits_other _ _ _ _ ⟨by decide, by decide⟩ (by decide), getBits_setBits_same _ _ _ ⟨by decide, by decide⟩]
    exact Nat.mod_eq_of_lt (by change i < 128; exact hi)
  · rw [State.fld_setReg_ne _ _ _ (by decide), State.fld_setReg_ne _ _ _ (by decide), State.fld_countFld_eq _ _ _ (by decide)]
  · exact (((State.RegsBut.refl _ s).setFld _ _ (by simp)).setReg _ (by simp)).setReg _ (by simp)

/-- A word that the background used is counted, latched and recorded, and nobody gets a bus error. -/
theorem exec_eccUncorrectable (hi : i.val < 101) (n : Nat) : exec (.eccUncorrectable i n .background) s =
    .next (let u := (s.latchedDue i n).eventIn (instBlock i) (if i.val < 4 then 0x6C2 else 0x6C3)
      if i.val < 4 then u.channelError (i.val % 2) else u).settle := by
  change execEccUncorrectable i n .background s = _
  unfold execEccUncorrectable
  extract_lets j s1 s2 s3 s4
  rw [if_neg (by simp [instValid]; omega)]
  rfl

theorem eccUncorrectable_away (h4 : 4 ≤ i.val) (hi : i.val < 101) (n : Nat) : ∃ u : State, exec (.eccUncorrectable i n .background) s = .next u.settle ∧
    u.reg Adr.ECC_UE_LO = BitVec.ofNat 32 n ∧ u.fld Adr.ECC_UE_HI Fld.ECC_UE_HI_instance = i.val ∧
    u.fld Adr.ECC_CNT Fld.ECC_CNT_uncorr = min (s.fld Adr.ECC_CNT Fld.ECC_CNT_uncorr + 1) (2 ^ Fld.ECC_CNT_uncorr.width - 1) ∧
    s.RegsButEvents [Adr.ECC_CNT, Adr.ECC_UE_LO, Adr.ECC_UE_HI] u ∧ u = s.takeEvents u := by
  obtain ⟨hlo, hhi, hcnt, hregs, honly⟩ := s.latchedWord_facts i.isLt n
  have hexec := exec_eccUncorrectable (s := s) hi n
  rw [State.latchedDue, if_neg (by omega)] at hexec
  rw [if_neg (by omega), if_neg (by omega)] at hexec
  have hev := (s.latchedWord i n).eventIn_only 0x6C3 0 0 (instBlock_lt hi)
  generalize (s.latchedWord i n).eventIn (instBlock i) 0x6C3 = u at hexec hev
  refine ⟨u, hexec, (hev.2 _ (by unfold EventReg; decide)).trans hlo, ?_, ?_, fun a ha he => (hev.2 a he).trans (hregs a ha), hev.takeEvents_of_regs honly⟩
  · exact (congrArg (getBits · _) (hev.2 _ (by unfold EventReg; decide))).trans hhi
  · exact (congrArg (getBits · _) (hev.2 _ (by unfold EventReg; decide))).trans hcnt

theorem State.retireSoon_due (s : State) (n : Nat) : ∃ l, s.retireSoon n = { s with dram := { s.dram with retireDue := l } } ∧ pageOf n ∈ l := by
  unfold State.retireSoon
  split
  case isTrue h => exact ⟨_, rfl, List.contains_iff_mem.1 h⟩
  case isFalse h => exact ⟨_, rfl, by simp⟩

/-- The first uncorrectable error of a channel is noted, and the page of a word that is not poisoned is due. -/
theorem eccUncorrectable_dram (h4 : i.val < 4) (n : Nat) (h0 : s.dram.errAt = []) : ∃ u : State, exec (.eccUncorrectable i n .background) s = .next u.settle ∧
    u.reg Adr.ECC_UE_LO = BitVec.ofNat 32 n ∧ u.dram.errAt = [(i.val % 2, s.now)] ∧ u.dram.poison = s.dram.poison ∧
    (i.val < 2 → (i.val, n) ∉ s.dram.poison → pageOf n ∈ u.dram.retireDue) ∧ s.RegsButEvents [Adr.ECC_CNT, Adr.ECC_UE_LO, Adr.ECC_UE_HI] u := by
  obtain ⟨hlo, -, -, hregs, honly⟩ := s.latchedWord_facts i.isLt n
  have hdue : ∃ l, s.latchedDue i n = { s with regs := (s.latchedWord i n).regs, dram := { s.dram with retireDue := l } } ∧
      (i.val < 2 → (i.val, n) ∉ s.dram.poison → pageOf n ∈ l) := by
    obtain ⟨l, hl, hmem⟩ := (s.latchedWord i n).retireSoon_due n
    unfold State.latchedDue
    split
    case isTrue h =>
      refine ⟨l, hl.trans ?_, fun _ _ => hmem⟩
      generalize (s.latchedWord i n).regs = r at honly ⊢
      rw [honly]
    case isFalse h =>
      refine ⟨s.dram.retireDue, honly, fun h2 hp => absurd ⟨h2, ?_⟩ h⟩
      rw [honly]
      simpa using hp
  obtain ⟨l, hl, hmem⟩ := hdue
  have hexec := exec_eccUncorrectable (s := s) (i := i) (by omega) n
  rw [hl] at hexec
  dsimp only at hexec
  rw [if_pos h4, if_pos h4] at hexec
  generalize hw : ({ s with regs := (s.latchedWord i n).regs, dram := { s.dram with retireDue := l } } : State) = w at hexec
  have hwreg : ∀ a, w.reg a = (s.latchedWord i n).reg a := fun a => by
    rw [← hw]
    rfl
  have hev := w.eventIn_only 0x6C2 0 0 (instBlock_lt (i := i.val) (by omega))
  have hvdram : (w.eventIn (instBlock i) 0x6C2).dram = { s.dram with retireDue := l } := by
    rw [hev.takeEvents, ← hw]
    rfl
  have hvnow : (w.eventIn (instBlock i) 0x6C2).now = s.now := by
    rw [hev.takeEvents, ← hw]
    rfl
  generalize w.eventIn (instBlock i) 0x6C2 = v at hexec hev hvdram hvnow
  have hfirst : v.channelError (i.val % 2) = v.modDram (fun d => { d with errAt := [(i.val % 2, s.now)] }) := by
    unfold State.channelError
    extract_lets k s1
    have hk : k = [(i.val % 2, s.now)] := by
      simp only [k, hvdram, hvnow, h0]
      rfl
    rw [if_neg (by rw [hk]; simp)]
    simp only [s1, hk]
  rw [hfirst] at hexec
  refine ⟨_, hexec, ?_, rfl, ?_, fun h2 hp => ?_, fun a ha he => ?_⟩
  · exact (hev.2 _ (by unfold EventReg; decide)).trans ((hwreg _).trans hlo)
  · change v.dram.poison = _
    rw [hvdram]
  · change pageOf n ∈ v.dram.retireDue
    rw [hvdram]
    exact hmem h2 hp
  · exact (hev.2 a he).trans ((hwreg a).trans (hregs a ha))

end

/-! ## A channel fails (R411) -/

/-- The registers that show what the Casts hold. -/
def castRegs : List Nat := [Adr.MVR_STORE, Adr.MVR_PIN, Adr.MVR_STATUS, Adr.CST_ERR]

/-- From s to t commands and Casts end or start again: the medium holds what it held, and of the registers only those of the Casts and of events
change. -/
def EndWork (s t : State) : Prop := t.media = s.media ∧ s.RegsButEvents castRegs t

namespace EndWork

variable {s t u : State}

theorem refl (s : State) : EndWork s s := ⟨rfl, .refl _ s⟩

theorem trans (h : EndWork s t) (k : EndWork t u) : EndWork s u := ⟨k.1.trans h.1, h.2.trans k.2⟩

theorem modHost (h : EndWork s t) (f : HostState → HostState) : EndWork s (t.modHost f) := h

theorem setFld (h : EndWork s t) {r : Nat} (f : Fld) (v : Nat) (hr : r ∈ castRegs) : EndWork s (t.setFld r f v) := ⟨h.1, h.2.setFld f v hr⟩

theorem setFlag (h : EndWork s t) {r : Nat} (f : Fld) (v : Bool) (hr : r ∈ castRegs) : EndWork s (t.setFlag r f v) := h.setFld f _ hr

theorem event (h : EndWork s t) (id d e : Nat) : EndWork s (t.event id d e) :=
  ⟨by
    rw [State.event_media]
    exact h.1, h.2.event _ _ _⟩

theorem work (h : EndWork s t) (k : HostWork t u) : EndWork s u := ⟨k.media.trans h.1, h.2.trans (k.regs.mono (List.nil_subset _))⟩

theorem post (h : EndWork s t) (c : Completion) : EndWork s (t.post c) := by
  unfold State.post
  split
  · exact h
  · split
    · exact h
    · split
      · split <;> exact h
      · exact h

theorem complete (h : EndWork s t) (x : Ctx) (r : Status) (d e : Nat) (data : List Byte) (lba n : Nat) : EndWork s (t.complete x r d e data lba n) := by
  unfold State.complete
  extract_lets s1 s2
  have h1 : EndWork s s1 := h.post _
  have h2 : EndWork s s2 := by
    by_cases hr : r = .ok
    · simp only [s2, if_pos hr]
      exact h1
    · simp only [s2, if_neg hr]
      exact h1
  exact h2.work (s2.dropCtx_facts x.assoc x.qid x.cid).1

theorem syncStore (h : EndWork s t) : EndWork s t.syncStore :=
  ((h.setFld _ _ (by simp [castRegs])).setFld _ _ (by simp [castRegs])).setFld _ _ (by simp [castRegs])

theorem dropJob (h : EndWork s t) (a q c : Nat) : EndWork s (t.dropJob a q c) := by
  unfold State.dropJob State.dropKept
  extract_lets s1 n s2
  refine syncStore ?_
  exact h

theorem rerun (h : EndWork s t) (x : Ctx) : EndWork s (t.rerun x) := by
  have h1 := h.work (t.releaseLock_work x.assoc x.qid x.cid).work
  exact h1

theorem castFail (h : EndWork s t) (j : CastJob) (r : Status) : EndWork s (t.castFail j r) := by
  unfold State.castFail
  extract_lets n s1 s2
  have h1 : EndWork s s1 := h.dropJob _ _ _
  have h2 : EndWork s s2 := by
    simp only [s2]
    split
    · exact (h1.event 0x403 0 0).setFlag _ _ (by simp [castRegs])
    · exact h1
  split
  · exact h2.complete _ _ _ _ _ _ _
  · exact h2

theorem discardData (h : EndWork s t) (x : Ctx) : EndWork s (t.discardData x) := by
  unfold State.discardData
  split
  · split
    · exact (h.dropJob _ _ _).rerun x
    · exact h.castFail _ _
  · split
    · exact h.rerun x
    · exact h

end EndWork

/-- The flag of a channel's failure. -/
def failFld (ch : Nat) : Fld := if ch = 0 then Fld.MEM_STATUS_ch0_failed else Fld.MEM_STATUS_ch1_failed

/-- A trained channel that fails while the other works: its DRAM content goes, and the Memory region restarts with one channel. -/
theorem dramChannelFail_single {s : State} {ch : Fin 2} (hf : s.flag Adr.MEM_STATUS (failFld ch) = false)
    (ht : s.flag Adr.MEM_STATUS Fld.MEM_STATUS_trained = true) (hs : s.flag Adr.MEM_STATUS Fld.MEM_STATUS_single = false) :
    ∃ u : State, exec (.dramChannelFail ch) s = .next (u.restartRegion 5).settle ∧ u.media.dram = [] ∧ u.flag Adr.MEM_STATUS (failFld ch) = true ∧
      u.flag Adr.MEM_STATUS Fld.MEM_STATUS_single = true ∧ u.media.sectors = s.media.sectors := by
  have hexec : exec (.dramChannelFail ch) s = .next (s.channelFail ch).settle := by
    change execDramChannelFail ch s = _
    unfold execDramChannelFail
    extract_lets failed
    have hfailed : failed = false := by
      refine Eq.trans ?_ hf
      simp only [failed, failFld, Fin.val_eq_zero_iff]
    exact if_neg (by rw [hfailed, ht]; decide)
  have hbits : (failFld ch).lo ≤ (failFld ch).hi ∧ (failFld ch).hi < 32 := by
    generalize ch = k
    decide +revert
  have hapart : ((failFld ch).hi < Fld.MEM_STATUS_single.lo ∨ Fld.MEM_STATUS_single.hi < (failFld ch).lo) := by
    generalize ch = k
    decide +revert
  have hchan : s.channelFail ch = (((((s.setFlag Adr.MEM_STATUS (failFld ch) true).setFlag Adr.MEM_STATUS Fld.MEM_STATUS_single true).eventAt 31 0x6C8 0 0).host.ctxs.foldl
      (fun s x => s.discardData x) (((s.setFlag Adr.MEM_STATUS (failFld ch) true).setFlag Adr.MEM_STATUS Fld.MEM_STATUS_single true).eventAt 31 0x6C8 0 0)).modMedia
      (fun m => { m with dram := [] })).restartRegion 5 := by
    unfold State.channelFail
    extract_lets r s1 s2 s3
    exact if_neg (by rw [hs]; exact Bool.false_ne_true)
  generalize hw : (s.setFlag Adr.MEM_STATUS (failFld ch) true).setFlag Adr.MEM_STATUS Fld.MEM_STATUS_single true = w at hchan
  have hev := w.eventAt_only (b := 31) 0x6C8 0 0 (by decide)
  have hkept : EndWork w (w.eventAt 31 0x6C8 0 0) := ⟨hev.media, (State.RegsButEvents.refl _ w).only hev⟩
  generalize w.eventAt 31 0x6C8 0 0 = v at hchan hkept
  have hall : EndWork w (v.host.ctxs.foldl (fun s x => s.discardData x) v) := foldl_induct (fun t x _ h => h.discardData x) hkept
  generalize v.host.ctxs.foldl (fun s x => s.discardData x) v = z at hchan hall
  have hflag : ∀ f, z.flag Adr.MEM_STATUS f = w.flag Adr.MEM_STATUS f := fun f => hall.2.flag f (by decide) (by unfold EventReg; decide)
  refine ⟨z.modMedia (fun m => { m with dram := [] }), by rw [hexec, hchan], rfl, (hflag _).trans ?_, (hflag _).trans ?_, ?_⟩
  · rw [← hw, State.flag_setFlag_apart _ _ _ _ _ hbits hapart, State.flag_setFlag_eq _ _ _ _ hbits]
  · rw [← hw, State.flag_setFlag_eq _ _ _ _ (by decide)]
  · change z.media.sectors = _
    rw [hall.1, ← hw]
    rfl

end Sys2Proof.Machine
end

section
/-! The modes of ECC, injection and the retirement of pages (R420, R425, R427, R428). -/

namespace Sys2Proof.Machine

open Sys2Proof

/-! ## Modes and injection (R420, R427) -/

section
variable {s : State} {o : Nat} {v : Word}

theorem exec_eccModeWrite (h : s.Writable o Adr.ECC_MODE) : exec (.eccModeWrite o v) s = .next (s.writeEccMode v) :=
  congrArg Host.Outcome.next (State.ownerReg_of_writable v (fun s => s.writeEccMode v) h)

theorem eccMode_test (h : s.Writable o Adr.ECC_MODE) (hm : s.eccMode = 0) (hv : getBits v Fld.ECC_MODE_mode = 2) :
    ∃ t, exec (.eccModeWrite o v) s = .next t ∧ t.eccMode = 2 ∧ s.RegsBut [Adr.ECC_MODE] t ∧ t = { s with regs := t.regs } := by
  have hw : s.writeEccMode v = s.setEccMode 2 := if_pos ⟨hm, hv⟩
  exact ⟨_, (exec_eccModeWrite h).trans (congrArg Host.Outcome.next hw), State.fld_setFld_of_lt s _ _ (by decide) (by decide), State.regsBut_setFld s _ _ _, rfl⟩

/-- Leaving test mode disarms an injection. -/
theorem eccMode_normal (h : s.Writable o Adr.ECC_MODE) (hm : s.eccMode = 2) (hv : getBits v Fld.ECC_MODE_mode = 0) :
    ∃ t, exec (.eccModeWrite o v) s = .next t ∧ t.eccMode = 0 ∧ t.flag Adr.ECC_INJ Fld.ECC_INJ_armed = false ∧
      s.RegsBut [Adr.ECC_MODE, Adr.ECC_INJ] t ∧ t.dram = s.dram := by
  have hw : s.writeEccMode v = (s.setEccMode 0).setFlag Adr.ECC_INJ Fld.ECC_INJ_armed false := by
    unfold State.writeEccMode
    extract_lets m
    rw [if_neg (by rw [hm]; omega), if_pos ⟨hm, hv⟩]
  refine ⟨_, (exec_eccModeWrite h).trans (congrArg Host.Outcome.next hw), ?_, State.flag_setFlag_eq _ _ _ _ (by decide), ?_, rfl⟩
  · rw [State.eccMode, State.fld_setFlag_ne _ _ _ _ (by decide), State.setEccMode, State.fld_setFld_eq _ _ _ _ (by decide)]
    rfl
  · exact (State.RegsBut.mono (State.regsBut_setFld s _ _ _) (by simp)).setFlag _ _ (by simp)

theorem eccInj_armed (h : s.Writable o Adr.ECC_INJ) (hm : s.eccMode = 2) :
    ∃ t, exec (.eccInjArm o v) s = .next t ∧ t.flag Adr.ECC_INJ Fld.ECC_INJ_armed = true ∧ s.RegsBut [Adr.ECC_INJ] t ∧ t = { s with regs := t.regs } := by
  obtain ⟨honly, hregs⟩ := s.plainWrite_only Adr.ECC_INJ (v ||| 0x80000000)
  have hmode : (s.plainWrite Adr.ECC_INJ (v ||| 0x80000000)).eccMode = 2 := (hregs.fld _ (by decide)).trans hm
  have hw : s.writeEccInj (v ||| 0x80000000) = (s.plainWrite Adr.ECC_INJ (v ||| 0x80000000)).setFlag Adr.ECC_INJ Fld.ECC_INJ_armed true :=
    if_pos ⟨by simp, hmode⟩
  refine ⟨_, (congrArg Host.Outcome.next (State.ownerReg_of_writable _ (fun s => s.writeEccInj (v ||| 0x80000000)) h)).trans (congrArg Host.Outcome.next hw),
    State.flag_setFlag_eq _ _ _ _ (by decide), hregs.setFlag _ _ (by simp), ?_⟩
  conv => lhs; rw [honly]
  rfl

/-- The check byte of the armed word is stored with bits inverted: as poison for kind 2, else as a bad copy. -/
theorem eccInject_covers (hm : s.eccMode = 2) (ha : s.flag Adr.ECC_INJ Fld.ECC_INJ_armed = true) :
    let d := (s.reg Adr.ECC_INJADDR_LO).toNat + 2 ^ 32 * s.fld Adr.ECC_INJADDR_HI Fld.ECC_INJADDR_HI_addr_hi
    ∃ t, exec .eccInject s = .next t ∧ t.flag Adr.ECC_INJ Fld.ECC_INJ_armed = false ∧
      (s.fld Adr.ECC_INJ Fld.ECC_INJ_kind = 2 → t.dram.poison = s.dram.poison.filter (· != ((groupOf d).1, d)) ++ [((groupOf d).1, d)]) ∧
      (s.fld Adr.ECC_INJ Fld.ECC_INJ_kind ≠ 2 → t.dram.bad = s.dram.bad.filter (· != ((groupOf d).1, d)) ++ [((groupOf d).1, d)]) ∧
      s.RegsButEvents [Adr.ECC_INJ] t ∧ t.media = s.media := by
  intro d
  have hexec : exec .eccInject s = execEccInject s := rfl
  rw [hexec]
  unfold execEccInject
  rw [if_neg (by simp [hm, ha])]
  extract_lets g s1 s2
  have hev := s2.event_only 0x6CE 0 0
  have hdram : (s2.event 0x6CE).dram = s2.dram := by
    rw [hev.takeEvents]
    rfl
  have hbad : s1.dram.bad = s.dram.bad.filter (· != ((groupOf d).1, d)) := by
    change s.dram.bad.filter (fun p => !([d].any fun d => p == ((groupOf d).1, d))) = _
    simp [bne]
  have hpoison : s1.dram.poison = s.dram.poison.filter (· != ((groupOf d).1, d)) := by
    change s.dram.poison.filter (fun p => !([d].any fun d => p == ((groupOf d).1, d))) = _
    simp [bne]
  refine ⟨_, rfl, ?_, fun h => ?_, fun h => ?_, fun a ha he => (hev.2 a he).trans (State.regsBut_setFlag s _ _ _ a ha), ?_⟩
  · rw [State.flag_event _ _ _ _ _ (by decide)]
    exact State.flag_setFlag_eq s _ _ _ (by decide)
  · rw [hdram]
    exact (if_pos h).trans (by rw [hpoison])
  · rw [hdram]
    exact (if_neg h).trans (by rw [hbad])
  · rw [hev.takeEvents]
    rfl

end

/-! ## The retirement of a page (R425, R428) -/

theorem State.syncMemory_only (s : State) : s.syncMemory = { s with regs := s.syncMemory.regs } := rfl

/-- s without a page among those due for retirement. -/
def State.retireTaken (s : State) (ch page : Nat) : State := s.modDram (fun d => { d with retireDue := d.retireDue.filter (fun p => p != (ch, page)) })

section
variable {s : State} {ch : Fin 2} {page : Nat}

theorem pageRetire_moves (l : List Nat) (hd : s.dram.retireDue.contains (ch.val, page) = true) (hl : s.sparesLeft ch ≠ 0) :
    ∃ t, exec (.pageRetire ch page l) s = .next t ∧
      t.nor.retired = s.nor.retired ++ [{ chan := ch, page := page, spare := 1024 - s.sparesLeft ch, at_ := s.tbNs }] ∧
      (∀ d ∈ l, (ch.val, d) ∈ t.dram.poison) ∧ t.media = s.media := by
  have hexec : exec (.pageRetire ch page l) s = execPageRetire ch page l s := rfl
  rw [hexec]
  unfold execPageRetire
  extract_lets s1 k here
  have hl1 : s1.sparesLeft ch ≠ 0 := hl
  rw [if_neg (by rw [hd]; exact Bool.false_ne_true), if_neg hl1]
  have hretire : s1.retirePage ch page = (({ s1 with nor := { s1.nor with
      retired := s1.nor.retired ++ [{ chan := ch, page := page, spare := 1024 - s1.sparesLeft ch, at_ := s1.tbNs }] } } : State).syncMemory).event 0x6C4 := if_neg hl
  rw [hretire, State.syncMemory_only]
  generalize (State.syncMemory _).regs = r
  generalize hw : ({ s1 with
    regs := r, nor := { s1.nor with
      retired := s1.nor.retired ++ [{ chan := ch, page := page, spare := 1024 - s1.sparesLeft ch, at_ := s1.tbNs }] } } : State) = w
  have hev := (w.event_only 0x6C4 0 0).takeEvents
  generalize w.event 0x6C4 = z at hev
  refine ⟨_, rfl, ?_, fun d hdl => ?_, ?_⟩
  · change z.nor.retired = _
    rw [hev, ← hw]
    rfl
  · by_cases hp : z.dram.poison.contains (ch.val, d) = true
    · exact List.mem_append_left _ (List.contains_iff_mem.1 hp)
    · refine List.mem_append_right _ (List.mem_filter.2 ⟨List.mem_map.2 ⟨d, hdl, rfl⟩, ?_⟩)
      simpa using hp
  · change z.media = _
    rw [hev, ← hw]
    rfl

/-- Without a spare no page moves. -/
theorem pageRetire_none (l : List Nat) (hd : s.dram.retireDue.contains (ch.val, page) = true) (hl : s.sparesLeft ch = 0) :
    ∃ t, exec (.pageRetire ch page l) s = .next t ∧ t.nor.retired = s.nor.retired ∧ s.RegsButEvents [] t ∧ t.dram.poison = s.dram.poison := by
  have hexec : exec (.pageRetire ch page l) s = execPageRetire ch page l s := rfl
  rw [hexec]
  unfold execPageRetire
  extract_lets s1 k here
  have hl1 : s1.sparesLeft ch = 0 := hl
  rw [if_neg (by rw [hd]; exact Bool.false_ne_true), if_pos hl1]
  have hretire : s1.retirePage ch page = if s1.dram.noSpare.contains ch.val then s1
      else ({ s1 with dram := { s1.dram with noSpare := s1.dram.noSpare ++ [ch.val] } } : State).event 0x6C5 := if_pos hl
  rw [hretire]
  refine ⟨_, rfl, ?_⟩
  split
  · exact ⟨rfl, .refl _ s, rfl⟩
  · have hev := ({ s1 with dram := { s1.dram with noSpare := s1.dram.noSpare ++ [ch.val] } } : State).event_only 0x6C5 0 0
    generalize ({ s1 with dram := { s1.dram with noSpare := s1.dram.noSpare ++ [ch.val] } } : State).event 0x6C5 = z at hev
    refine ⟨?_, fun a _ he => hev.2 a he, ?_⟩
    · rw [hev.takeEvents]
      rfl
    · rw [hev.takeEvents]
      rfl

end

/-- Settles O57: each row by the lemma of what it counts, latches or moves. -/
theorem eccRows : Obligations.EccRows := by
  unfold Obligations.EccRows
  intro s
  refine ⟨fun i n h2 hi hm hr => eccCorrected_away h2 hi n hm hr, fun i n h2 hm hr => eccCorrected_dram h2 n hm hr,
    fun i n hi hm hf => eccCorrected_full hi n hm hf, fun i n h97 hi => eccCorrected_sequencer h97 hi n, bucketLeak_due, fun h => if_pos h,
    fun i n r h => ⟨⟨_, targetedScrub_rewritten h, rfl⟩, fun hi => ⟨_, targetedScrub_dram h hi, rfl⟩, fun hi => ⟨_, targetedScrub_away h hi, rfl⟩⟩,
    fun i n h4 hi => eccUncorrectable_away h4 hi n, fun i n h4 h0 => eccUncorrectable_dram h4 n h0, fun _ _ => rfl,
    fun ch g hm he => scrubGroup_moves ch g hm he, fun ch hf ht hs => dramChannelFail_single hf ht hs, fun o v h hm hv => eccMode_test h hm hv,
    fun o v h hm hv => eccMode_normal h hm hv, fun o v h hm => eccInj_armed h hm, eccInject_covers,
    fun ch page l hd hl => pageRetire_moves l hd hl, fun ch page l hd hl => pageRetire_none l hd hl⟩

end Sys2Proof.Machine
end

section
/-! Fault events, escalation, region restarts and the patina (R433 to R457). -/

namespace Sys2Proof.Machine

open Sys2Proof

/-! ## Corrected events (R396, R433, R451) -/

/-- A corrected event is counted and offered to the patina, and nothing latches it. -/
theorem State.eventIn_of_corrected {id : Nat} (h : eventClass id = some .corrected) (s : State) (b d e : Nat) :
    s.eventIn b id d e = s.noteEvent id .corrected d e 0 := by
  unfold State.eventIn State.eventAt
  rw [h]

theorem State.patCapture_facts (s : State) (e : PatEntry) : s.RegsBut [Adr.PAT_DROP] (s.patCapture e) ∧ (s.patCapture e).nor = s.nor := by
  unfold State.patCapture
  split
  · dsimp only
    split
    · exact ⟨.refl _ s, rfl⟩
    · exact ⟨.refl _ s, rfl⟩
  · exact ⟨State.regsBut_setFld s _ _ _, rfl⟩

theorem State.noteEvent_corrected (s : State) (id d e : Nat) :
    (s.noteEvent id .corrected d e 0).fld Adr.FLT_CNT Fld.FLT_CNT_corr = min (s.fld Adr.FLT_CNT Fld.FLT_CNT_corr + 1) (2 ^ Fld.FLT_CNT_corr.width - 1) ∧
    (s.noteEvent id .corrected d e 0).nor.corrTotal = s.nor.corrTotal + 1 ∧ s.RegsBut [Adr.FLT_CNT, Adr.PAT_DROP] (s.noteEvent id .corrected d e 0) := by
  have hcnt : (s.countFld Adr.FLT_CNT Fld.FLT_CNT_corr).fld Adr.FLT_CNT Fld.FLT_CNT_corr = min (s.fld Adr.FLT_CNT Fld.FLT_CNT_corr + 1) (2 ^ Fld.FLT_CNT_corr.width - 1) :=
    State.fld_countFld_eq _ _ _ (by decide)
  have hregs : s.RegsBut [Adr.FLT_CNT, Adr.PAT_DROP] (s.countFld Adr.FLT_CNT Fld.FLT_CNT_corr) := (State.RegsBut.refl _ s).setFld _ _ (by simp)
  unfold State.noteEvent
  extract_lets f s0 n s1 ent
  have h1 : s1.regs = (s.countFld Adr.FLT_CNT Fld.FLT_CNT_corr).regs := rfl
  have hn : s1.nor.corrTotal = s.nor.corrTotal + 1 := rfl
  clear_value s1
  have h1reg : ∀ a, s1.reg a = (s.countFld Adr.FLT_CNT Fld.FLT_CNT_corr).reg a := fun a => by
    rw [State.reg, h1, State.reg]
  split
  · obtain ⟨hp, hpn⟩ := State.patCapture_facts { s1 with latches := { s1.latches with snapshot := ent.2 } } ent.1
    generalize State.patCapture _ ent.1 = z at hp hpn
    refine ⟨?_, (congrArg Nor.corrTotal hpn).trans hn, fun a ha => ?_⟩
    · exact (congrArg (getBits · _) ((hp _ (by decide)).trans (h1reg _))).trans hcnt
    · exact ((hp a (fun k => ha (List.mem_cons_of_mem _ k))).trans (h1reg a)).trans (hregs a ha)
  · exact ⟨(congrArg (getBits · _) (h1reg _)).trans hcnt, hn, fun a ha => (h1reg a).trans (hregs a ha)⟩

theorem faultEvent_unknown (s : State) (b : Fin 38) {id : Nat} (d e : Nat) (h : eventClass id = none) : exec (.faultEvent b id d e) s = .next s := by
  change execFaultEvent b id d e s = _
  unfold execFaultEvent
  rw [h]

theorem faultEvent_corrected (s : State) (b : Fin 38) {id : Nat} (d e : Nat) (hid : id < 0x780 ∨ 0x7C0 ≤ id) (h : eventClass id = some .corrected) :
    ∃ t, exec (.faultEvent b id d e) s = .next t ∧
      t.fld Adr.FLT_CNT Fld.FLT_CNT_corr = min (s.fld Adr.FLT_CNT Fld.FLT_CNT_corr + 1) (2 ^ Fld.FLT_CNT_corr.width - 1) ∧
      t.nor.corrTotal = s.nor.corrTotal + 1 ∧ s.RegsButEvents [] t ∧ t = s.takeEvents t := by
  have hexec : exec (.faultEvent b id d e) s = .next (s.eventIn b id d e) := by
    change execFaultEvent b id d e s = _
    unfold execFaultEvent
    rw [h]
    dsimp only
    rw [if_neg (by omega), if_neg (by simp)]
  have hev := s.eventIn_only id d e b.isLt
  obtain ⟨hcnt, htotal, -⟩ := s.noteEvent_corrected id d e
  rw [← State.eventIn_of_corrected h s b d e] at hcnt htotal
  exact ⟨_, hexec, hcnt, htotal, fun a _ ha => hev.2 a ha, hev.takeEvents⟩

/-! ## Escalation timers (R436 to R438) -/

section
variable {s : State}

theorem exec_escalationExpiry {r : Fin 7} (h : s.flag (Adr.FLT_ESC r) Fld.FLT_ESC_running = true)
    (hd : ∀ t, lookupKey s.flt.escAt r = some t → t ≤ s.now + 100000) :
    exec (.escalationExpiry r) s = .next (if s.fld (Adr.FLT_ESC r) Fld.FLT_ESC_pending = 2 then ((s.stopTimer r).haltPower).fatalActions
      else ((s.stopTimer r).haltPower).escalateRestart r).settle := by
  change execEscalationExpiry r s = _
  unfold execEscalationExpiry
  extract_lets e due s1
  have hdue : due = true := by
    simp only [due]
    split
    next t ht => exact decide_eq_true (hd t ht)
    next => rfl
  rw [if_neg (by rw [h, hdue]; decide)]

theorem exec_escalationExpiry_stopped {r : Fin 7} (h : s.flag (Adr.FLT_ESC r) Fld.FLT_ESC_running = false) : exec (.escalationExpiry r) s = .next s := by
  change execEscalationExpiry r s = _
  unfold execEscalationExpiry
  extract_lets e due s1
  exact if_pos (by rw [h]; rfl)

/-- From s to t only a region's timer, the fault state and the mode of ECC change. -/
structure TimerWork (r : Nat) (s t : State) : Prop where
  regs : s.RegsBut [Adr.FLT_ESC r, Adr.FLT_STATE, Adr.ECC_MODE] t
  rest : t = { s with regs := t.regs, flt := t.flt }
  timer : t.reg (Adr.FLT_ESC r) = s.reg (Adr.FLT_ESC r)
  escAt : t.flt.escAt = s.flt.escAt

theorem TimerWork.refl (r : Nat) (s : State) : TimerWork r s s := ⟨.refl _ s, rfl, rfl, rfl⟩

theorem TimerWork.setFld {r : Nat} {t : State} (h : TimerWork r s t) {a : Nat} (f : Fld) (v : Nat) (ha : a ∈ [Adr.FLT_STATE, Adr.ECC_MODE])
    (hr : Adr.FLT_ESC r ≠ a) : TimerWork r s (t.setFld a f v) := by
  refine ⟨h.regs.setFld f v (List.mem_cons_of_mem _ ha), ?_, (State.reg_setReg_other _ _ hr).trans h.timer, h.escAt⟩
  conv => lhs; rw [h.rest]
  rfl

theorem TimerWork.ite {r : Nat} {t u : State} {p : Prop} [Decidable p] (h : TimerWork r s t) (k : TimerWork r s u) : TimerWork r s (if p then t else u) := by
  split
  · exact h
  · exact k

theorem fltEsc_ne {r : Nat} (h : r < 7) : Adr.FLT_ESC r ≠ Adr.FLT_STATE ∧ Adr.FLT_ESC r ≠ Adr.ECC_MODE := by
  simp only [Adr.FLT_ESC, Adr.FLT_STATE, Adr.ECC_MODE]
  omega

/-- The timer of a region cleared. -/
def State.timerCleared (s : State) (r : Nat) : State :=
  { (s.setFlag (Adr.FLT_ESC r) Fld.FLT_ESC_running false).setFld (Adr.FLT_ESC r) Fld.FLT_ESC_pending 0 with
    flt := { s.flt with escAt := eraseKey s.flt.escAt r } }

theorem State.handled_work (s : State) {r : Nat} (h : r < 7) : TimerWork r (s.timerCleared r) (s.stopTimer r).leaveRecoveryMode := by
  obtain ⟨hst, hecc⟩ := fltEsc_ne h
  have hstop : TimerWork r (s.timerCleared r) (s.stopTimer r) := .ite ((TimerWork.refl _ _).setFld _ _ (by simp) hst) (.refl _ _)
  exact .ite (hstop.setFld _ _ (by simp) hecc) hstop

theorem fltAckHandled_stops {r : Fin 8} (h : r.val < 7) : ∃ t, exec (.fltAckHandled r) s = .next t ∧ t.flag (Adr.FLT_ESC r) Fld.FLT_ESC_running = false ∧
    t.fld (Adr.FLT_ESC r) Fld.FLT_ESC_pending = 0 ∧ lookupKey t.flt.escAt r = none ∧ s.RegsBut [Adr.FLT_ESC r, Adr.FLT_STATE, Adr.ECC_MODE] t ∧
    t = { s with regs := t.regs, flt := t.flt } := by
  have hwork := s.handled_work h
  generalize ht : (s.stopTimer r.val).leaveRecoveryMode = t at hwork
  have hexec : exec (.fltAckHandled r) s = .next t := (if_pos h).trans (congrArg Host.Outcome.next ht)
  have hregs : s.RegsBut [Adr.FLT_ESC r, Adr.FLT_STATE, Adr.ECC_MODE] (s.timerCleared r) := ((State.RegsBut.refl _ s).setFlag _ _ (by simp)).setFld _ _ (by simp)
  refine ⟨t, hexec, ?_, ?_, ?_, hregs.trans hwork.regs, ?_⟩
  · refine (congrArg (fun w => getBits w _ != 0) hwork.timer).trans ?_
    exact (State.flag_setFld_apart _ _ _ _ _ (by decide) (by decide)).trans (State.flag_setFlag_eq _ _ _ _ (by decide))
  · refine (congrArg (getBits · _) hwork.timer).trans ?_
    exact State.fld_setFld_eq _ _ _ _ (by decide)
  · exact (congrArg (lookupKey · _) hwork.escAt).trans (lookupKey_erase_same _ _)
  · conv => lhs; rw [hwork.rest]
    rfl

end

/-! ## A region runs again, or does not in time (R31, R439) -/

section
variable {s : State}

/-- s with the restart of region r over. -/
def State.restartOver (s : State) (r : Nat) : State :=
  { s with flt := { s.flt with restarting := s.flt.restarting.filter (fun k => k != r), quietFrom := s.now } }

/-- s with region r powered and its restart over. -/
def State.regionBack (s : State) (r : Nat) : State :=
  ((((s.restartOver r).setFlag (Adr.FLT_RST r) Fld.FLT_RST_restarting false).powerRegions
    ((s.restartOver r).fld Adr.PWR_REGION Fld.PWR_REGION_powered ||| 2 ^ r))).event 0x781

/-- After a restart the next one begins, or the recovery restart goes on. -/
def State.nextRestart (v : State) (k : Nat) : State :=
  match v.flt.queued with
  | q :: l => { v with flt := { v.flt with queued := l } }.startRestart q
  | [] => if v.flag Adr.FLT_STATE Fld.FLT_STATE_recovering then v.recoverMedia k else v

theorem State.nextRestart_settle (v : State) (k : Nat) : (match v.flt.queued with
    | q :: l => .next ({ v with flt := { v.flt with queued := l } }.startRestart q).settle
    | [] => .next (if v.flag Adr.FLT_STATE Fld.FLT_STATE_recovering then v.recoverMedia k else v).settle : Res) = .next (v.nextRestart k).settle := by
  unfold State.nextRestart
  generalize v.flt.queued = l
  cases l with
  | nil => rfl
  | cons q l => rfl

theorem exec_regionRunning {r : Fin 7} (p k : Nat) (h : s.restarting r = true) :
    exec (.regionRunning r p k) s = .next (((s.regionBack r).runRegion r p k).performHeldRegs.backToPs0.nextRestart k).settle := by
  change execRegionRunning r p k s = _
  unfold execRegionRunning
  rw [if_neg (by rw [h]; decide)]
  exact State.nextRestart_settle _ k

theorem fltRst_ne {r : Nat} (h : r < 7) : Adr.FLT_RST r ∉ [Adr.FLT_CNT, Adr.PAT_DROP] ∧ Adr.FLT_RST r ≠ Adr.PWR_REGION ∧ Adr.FLT_RST r ≠ Adr.CLK_STATUS := by
  simp only [Adr.FLT_RST, Adr.FLT_CNT, Adr.PAT_DROP, Adr.PWR_REGION, Adr.CLK_STATUS, List.mem_cons, List.not_mem_nil, or_false, not_or]
  omega

theorem State.powered_powerRegions (s : State) (m r : Nat) (h : r < 7) : (s.powerRegions m).powered r = m.testBit r := by
  change Nat.testBit (((s.setFld Adr.PWR_REGION Fld.PWR_REGION_powered m).setFld Adr.CLK_STATUS Fld.CLK_STATUS_locked (m / 2)).fld Adr.PWR_REGION
    Fld.PWR_REGION_powered) r = _
  rw [State.fld_setFld_ne _ _ _ _ (by decide), State.fld_setFld_eq _ _ _ _ (by decide)]
  exact (Nat.testBit_mod_two_pow _ 7 _).trans (by rw [decide_eq_true h, Bool.true_and])

theorem regionBack_facts (s : State) {r : Nat} (h : r < 7) : (s.regionBack r).restarting r = false ∧
    (s.regionBack r).flag (Adr.FLT_RST r) Fld.FLT_RST_restarting = false ∧ (s.regionBack r).powered r = true ∧ (s.regionBack r).media = s.media := by
  obtain ⟨hcnt, hpwr, hclk⟩ := fltRst_ne h
  have hcls : eventClass 0x781 = some .corrected := by decide
  unfold State.regionBack
  generalize hw : ((s.restartOver r).setFlag (Adr.FLT_RST r) Fld.FLT_RST_restarting false).powerRegions
    ((s.restartOver r).fld Adr.PWR_REGION Fld.PWR_REGION_powered ||| 2 ^ r) = w
  have hev := w.event_only 0x781 0 0
  have hnote : w.RegsBut [Adr.FLT_CNT, Adr.PAT_DROP] (w.event 0x781) := by
    rw [State.event, State.eventIn_of_corrected hcls]
    exact (w.noteEvent_corrected 0x781 0 0).2.2
  refine ⟨?_, ?_, ?_, ?_⟩
  · rw [State.restarting, hev.takeEvents, ← hw]
    change (s.flt.restarting.filter (fun k => k != r)).contains r = false
    simp
  · rw [hnote.flag _ hcnt, ← hw]
    exact (State.flag_setFld_ne _ _ _ _ hclk).trans ((State.flag_setFld_ne _ _ _ _ hpwr).trans (State.flag_setFlag_eq _ _ _ _ (by decide)))
  · rw [State.powered, hev.fld _ (by unfold EventReg; decide), ← hw]
    refine (State.powered_powerRegions _ _ r h).trans ?_
    rw [Nat.testBit_or, Nat.testBit_two_pow_self, Bool.or_true]
  · rw [hev.media, ← hw]
    rfl

/-- s with region r off, its restart having failed. -/
def State.regionLost (s : State) (r : Nat) : State :=
  let s1 := { s with flt := { s.flt with restarting := s.flt.restarting.filter (fun k => k != r), queued := [] } }
  let on := s1.fld Adr.PWR_REGION Fld.PWR_REGION_powered
  ((s1.setFlag (Adr.FLT_RST r) Fld.FLT_RST_restarting false).powerRegions (on - on / 2 ^ r % 2 * 2 ^ r)).noteEvent 0x782 .fatal 0 0 0

theorem exec_regionRestartTimeout {r : Fin 7} (h : s.restarting r = true) :
    exec (.regionRestartTimeout r) s = .next (((s.regionLost r).fatalActions.endHeldRegs r).endRegionWaits r).settle := by
  change execRegionRestartTimeout r s = _
  unfold execRegionRestartTimeout
  extract_lets j s1 on s2
  rw [if_neg (by rw [h]; decide)]
  rfl

/-- A number without bit r has it clear. -/
theorem testBit_without (n r : Nat) : (n - n / 2 ^ r % 2 * 2 ^ r).testBit r = false := by
  rw [Nat.testBit_eq_decide_div_mod_eq]
  have hpos : 0 < 2 ^ r := Nat.two_pow_pos r
  rcases Nat.mod_two_eq_zero_or_one (n / 2 ^ r) with h | h
  · rw [h, Nat.zero_mul, Nat.sub_zero, h]
    rfl
  · rw [h, Nat.one_mul]
    have hsub : (n - 2 ^ r) / 2 ^ r = n / 2 ^ r - 1 := by
      have := Nat.sub_mul_div n (2 ^ r) 1
      simpa using this
    rw [hsub]
    exact decide_eq_false (by omega)

theorem regionLost_facts (s : State) {r : Nat} (h : r < 7) : (s.regionLost r).restarting r = false ∧ (s.regionLost r).powered r = false ∧
    (s.regionLost r).flt.queued = [] ∧ (s.regionLost r).media = s.media ∧ (s.regionLost r).host = s.host := by
  unfold State.regionLost
  extract_lets f s1 on
  generalize hw : (s1.setFlag (Adr.FLT_RST r) Fld.FLT_RST_restarting false).powerRegions (on - on / 2 ^ r % 2 * 2 ^ r) = w
  have hev := w.noteEvent_only 0x782 .fatal 0 0 0
  refine ⟨?_, ?_, ?_, ?_, ?_⟩
  · rw [State.restarting, hev.takeEvents, ← hw]
    change (s.flt.restarting.filter (fun k => k != r)).contains r = false
    simp
  · rw [State.powered, hev.fld _ (by unfold EventReg; decide), ← hw]
    exact (State.powered_powerRegions _ _ r h).trans (testBit_without on r)
  · rw [hev.takeEvents, ← hw]
    rfl
  · rw [hev.media, ← hw]
    rfl
  · rw [hev.host, ← hw]
    rfl

end

end Sys2Proof.Machine
end

section
/-! The quiet period, the ERR pair, control cores and the patina (R443 to R457). -/

namespace Sys2Proof.Machine

open Sys2Proof

/-! ## The quiet period (R443 to R446) -/

section
variable {s : State}

theorem quietPeriod_running (h : s.now < s.flt.quietFrom + s.fld Adr.FLT_CTRL Fld.FLT_CTRL_quiet_s * 1000000000) : exec .quietPeriodExpiry s = .next s :=
  if_pos (.inr (.inr (.inr (.inr h))))

/-- Once the quiet period is over with nothing left to restart. -/
theorem exec_quietPeriod (h2 : 2 ≤ s.faultState) (hq : s.flt.quietFrom + s.fld Adr.FLT_CTRL Fld.FLT_CTRL_quiet_s * 1000000000 ≤ s.now)
    (hr : s.flt.restarting = []) (hrec : s.flag Adr.FLT_STATE Fld.FLT_STATE_recovering = false) (hh : s.flag Adr.FLT_STATE Fld.FLT_STATE_held = false) :
    ¬(s.faultState < 2 ∨ !s.flt.restarting.isEmpty ∨ s.flag Adr.FLT_STATE Fld.FLT_STATE_recovering ∨ s.flag Adr.FLT_STATE Fld.FLT_STATE_held
      ∨ s.now < s.flt.quietFrom + s.fld Adr.FLT_CTRL Fld.FLT_CTRL_quiet_s * 1000000000) := by
  rw [hr, hrec, hh]
  simp only [List.isEmpty_nil, Bool.not_true, Bool.false_eq_true, false_or]
  omega

theorem State.bump_counter (s : State) : (s.bump 7).counter 7 = s.counter 7 + 1 := by
  have h := s.bump_counter_same (c := 7) (by decide)
  simpa [State.counter] using h

theorem State.leaveFault_facts (s : State) : s.leaveFault.counter 7 = s.counter 7 + 1 ∧ s.leaveFault.flt.errFault = false ∧
    s.leaveFault.media = s.media ∧ s.leaveFault.host = s.host := by
  unfold State.leaveFault
  extract_lets s1
  have hev := (s1.bump 7).event_only 0x784 0 0
  have hcnt : ((s1.bump 7).event 0x784).counter 7 = s.counter 7 + 1 := by
    rw [State.counter, hev.takeEvents]
    exact s1.bump_counter
  have hbump := s1.bump_only 7
  have herr : ((s1.bump 7).event 0x784).flt.errFault = false := by
    rw [hev.takeEvents, hbump]
    rfl
  have hmedia : ((s1.bump 7).event 0x784).media = s.media := by
    rw [hev.media, hbump]
    rfl
  have hhost : ((s1.bump 7).event 0x784).host = s.host := by
    rw [hev.host, hbump]
    rfl
  generalize (s1.bump 7).event 0x784 = z at hcnt herr hmedia hhost
  unfold State.leaveRecoveryMode
  split
  · exact ⟨hcnt, herr, hmedia, hhost⟩
  · exact ⟨hcnt, herr, hmedia, hhost⟩

theorem quietPeriod_ends (hf : s.faultState = 2) (hq : s.flt.quietFrom + s.fld Adr.FLT_CTRL Fld.FLT_CTRL_quiet_s * 1000000000 ≤ s.now)
    (hr : s.flt.restarting = []) (hrec : s.flag Adr.FLT_STATE Fld.FLT_STATE_recovering = false) (hh : s.flag Adr.FLT_STATE Fld.FLT_STATE_held = false) :
    ∃ u : State, exec .quietPeriodExpiry s = .next u.settle ∧ u.counter 7 = s.counter 7 + 1 ∧ u.flt.errFault = false ∧ u.media = s.media ∧ u.host = s.host := by
  have hexec : exec .quietPeriodExpiry s = .next s.leaveFault.settle := (if_neg (exec_quietPeriod (by omega) hq hr hrec hh)).trans (if_pos hf)
  exact ⟨_, hexec, s.leaveFault_facts⟩

theorem EventOnly.setState {t : State} (h : EventOnly s t) (f : Fld) (v : Bool) : EventOnly s (t.setFlag Adr.FLT_STATE f v) := h.setFlag f v (.inl (by decide))

theorem quietPeriod_held (hf : s.faultState = 3) (hq : s.flt.quietFrom + s.fld Adr.FLT_CTRL Fld.FLT_CTRL_quiet_s * 1000000000 ≤ s.now)
    (hr : s.flt.restarting = []) (hrec : s.flag Adr.FLT_STATE Fld.FLT_STATE_recovering = false) (hh : s.flag Adr.FLT_STATE Fld.FLT_STATE_held = false)
    (h3 : 3 ≤ (s.flt.recoveries.filter (fun t => decide (s.now < t + 86400000000000))).length) :
    ∃ t, exec .quietPeriodExpiry s = .next t ∧ t.flag Adr.FLT_STATE Fld.FLT_STATE_held = true ∧ s.RegsButEvents [] t ∧ t = s.takeEvents t := by
  have hexec : exec .quietPeriodExpiry s = .next ((s.event 0x786).setFlag Adr.FLT_STATE Fld.FLT_STATE_held true) :=
    (if_neg (exec_quietPeriod (by omega) hq hr hrec hh)).trans ((if_neg (by omega)).trans (if_pos h3))
  have hev := (s.event_only 0x786 0 0).setState Fld.FLT_STATE_held true
  exact ⟨_, hexec, State.flag_setFlag_eq _ _ _ _ (by decide), fun a _ ha => hev.2 a ha, hev.takeEvents⟩

/-! ## The ERR pair and control cores (R449, R450) -/

theorem errTest_begins {o : Nat} {v : Word} (h : s.Writable o Adr.FLT_ERRTEST) (hf : s.faultState < 2) (ht : s.flt.errTest = false) :
    ∃ t, exec (.errTest o v) s = .next t ∧ t.flt.errTest = true ∧ t.flag Adr.FLT_ERRTEST Fld.FLT_ERRTEST_busy = true ∧ s.RegsBut [Adr.FLT_ERRTEST] t ∧
      t = { s with regs := t.regs, flt := t.flt } := by
  have hbit : (v ||| 1).getLsbD 0 = true := by simp
  have hw : s.writeErrTest (v ||| 1) = ({ s with flt := { s.flt with errTest := true } }).setFlag Adr.FLT_ERRTEST Fld.FLT_ERRTEST_busy true :=
    if_pos ⟨hbit, hf, by rw [ht]; rfl⟩
  have hexec : exec (.errTest o v) s = .next (s.writeErrTest (v ||| 1)) :=
    congrArg Host.Outcome.next (State.ownerReg_of_writable (v ||| 1) (fun s => s.writeErrTest (v ||| 1)) h)
  exact ⟨_, hexec.trans (congrArg Host.Outcome.next hw), rfl, State.flag_setFlag_eq _ _ _ _ (by decide), State.regsBut_setFlag s _ _ _, rfl⟩

theorem errTest_ends (h : s.flt.errTest = true) : ∃ t, exec .errTestEnd s = .next t ∧ t.flt.errTest = false ∧ s.RegsButEvents [] t ∧ t.media = s.media := by
  have hexec : exec .errTestEnd s = .next (({ s with flt := { s.flt with errTest := false } }.setFlag Adr.FLT_ERRTEST Fld.FLT_ERRTEST_busy false).event 0x787) :=
    if_pos h
  generalize hw : ({ s with flt := { s.flt with errTest := false } } : State).setFlag Adr.FLT_ERRTEST Fld.FLT_ERRTEST_busy false = w at hexec
  have hev := w.event_only 0x787 0 0
  refine ⟨_, hexec, ?_, fun a _ ha => (hev.2 a ha).trans ?_, ?_⟩
  · rw [hev.takeEvents, ← hw]
    rfl
  · rw [← hw]
    refine State.regsBut_setFlag s Adr.FLT_ERRTEST Fld.FLT_ERRTEST_busy false a ?_
    rintro (_ | ⟨_, ⟨⟩⟩)
    exact ha (.inl (by decide))
  · rw [hev.media, ← hw]
    rfl

theorem controlCoreFail_moves {c : Fin 16} (h : s.flt.failedCores.contains c.val = false) (h12 : s.flt.failedCores.length ≠ 12) :
    ∃ t, exec (.controlCoreFail c) s = .next t ∧ t.flt.failedCores = s.flt.failedCores ++ [c.val] ∧ s.RegsButEvents [] t ∧ t.media = s.media ∧
      t.host = s.host := by
  generalize hw : ({ s with flt := { s.flt with failedCores := s.flt.failedCores ++ [c.val] } } : State) = w
  have hreg : ∀ a, w.reg a = s.reg a := fun a => by rw [← hw, State.reg, State.reg]
  have hev := w.eventIn_only (b := 34 + c.val / 4) 0x788 0 0 (by omega)
  have hcores : (w.eventIn (34 + c.val / 4) 0x788).flt.failedCores = s.flt.failedCores ++ [c.val] := by
    rw [hev.takeEvents, ← hw]
    rfl
  have hexec : exec (.controlCoreFail c) s = .next (w.eventIn (34 + c.val / 4) 0x788) := by
    have hlost : (w.eventIn (34 + c.val / 4) 0x788).healthyCores ≠ 3 := by
      rw [State.healthyCores, hcores, List.length_append, List.length_singleton]
      omega
    refine (if_neg (by rw [h]; exact Bool.false_ne_true)).trans ?_
    rw [hw]
    exact if_neg hlost
  refine ⟨_, hexec, hcores, fun a _ ha => (hev.2 a ha).trans (hreg a), ?_, ?_⟩
  · rw [hev.media, ← hw]
  · rw [hev.host, ← hw]

end

/-! ## The patina (R452 to R457) -/

section
variable {s : State}

theorem patinaStore_takes {e : PatEntry} {r : List PatEntry} {k : Nat} (hq : s.pat.queue = e :: r) (hk : patPlace s.pat.store e.severity = some k) :
    ∃ t, exec .patinaStore s = .next t ∧ t.pat.queue = r ∧ t.pat.store = insertKey s.pat.store k { e with record := (s.nor.patCount + 1) % 2 ^ 32 } ∧
      t.nor.patCount = (s.nor.patCount + 1) % 2 ^ 32 ∧ t = { s with nor := t.nor, pat := t.pat } := by
  refine ⟨s.patStore, rfl, ?_⟩
  unfold State.patStore
  rw [hq]
  dsimp only
  rw [hk]
  exact ⟨rfl, rfl, rfl, rfl⟩

theorem patinaStore_empty (hq : s.pat.queue = []) : exec .patinaStore s = .next s := by
  refine congrArg Host.Outcome.next ?_
  unfold State.patStore
  rw [hq]

theorem patinaJournal_written {n : Nat} {r : List Nat} (h : s.pat.unjournalled = n :: r) : ∃ t, exec (.patinaJournalWrite true) s = .next t ∧
    t.pat.unjournalled = r ∧ t.nor.patHigh = n ∧ t.pat.store = s.pat.store ∧ t = { s with nor := t.nor, pat := t.pat } := by
  refine ⟨s.patJournal true, rfl, ?_⟩
  unfold State.patJournal
  rw [h]
  dsimp only
  rw [if_pos rfl]
  split <;> exact ⟨rfl, rfl, rfl, rfl⟩

theorem patinaJournal_failed {n : Nat} {r : List Nat} (h : s.pat.unjournalled = n :: r) : ∃ u : State, exec (.patinaJournalWrite false) s = .next (u.event 0x7A3) ∧
    u.pat.unjournalled = [] ∧ u.flag Adr.PAT_STATUS Fld.PAT_STATUS_jfail = true ∧ s.RegsBut [Adr.PAT_STATUS] u ∧ u = { s with regs := u.regs, pat := u.pat } := by
  refine ⟨({ s with pat := { s.pat with unjournalled := [] } }).setFlag Adr.PAT_STATUS Fld.PAT_STATUS_jfail true, ?_, rfl,
    State.flag_setFlag_eq _ _ _ _ (by decide), State.regsBut_setFlag s _ _ _, rfl⟩
  change Host.Outcome.next (s.patJournal false) = _
  unfold State.patJournal
  rw [h]
  dsimp only
  rw [if_neg Bool.false_ne_true]

theorem exec_patinaLock {o : Nat} (h : s.Writable o Adr.PAT_CTRL) : exec (.patinaLock o) s = .next s.lockPatina :=
  congrArg Host.Outcome.next (State.ownerReg_of_writable 1 (fun s => s.lockPatina) h)

theorem patinaLock_locks {o : Nat} (h : s.Writable o Adr.PAT_CTRL) (hl : s.nor.patLocked = false) :
    ∃ t, exec (.patinaLock o) s = .next t ∧ t.nor.patLocked = true ∧ s.RegsButEvents [] t ∧ t.media = s.media := by
  obtain ⟨hlocked, hmoves⟩ := s.lockPatina_facts
  refine ⟨_, exec_patinaLock h, hlocked, ?_, hmoves.media⟩
  have hw : s.lockPatina = ({ s with nor := { s.nor with patLocked := true } } : State).event 0x7A1 := if_neg (by rw [hl]; exact Bool.false_ne_true)
  rw [hw]
  exact fun a _ ha => (State.event_only _ 0x7A1 0 0).2 a ha

end

/-- Settles O58: each row by the lemma of what it counts, stops, restarts or stores. -/
theorem faultAndPatinaRows : Obligations.FaultAndPatinaRows := by
  unfold Obligations.FaultAndPatinaRows
  refine ⟨fun s => ⟨fun b id d e h => faultEvent_unknown s b d e h, fun b id d e hid h => faultEvent_corrected s b d e hid h, fun r h hd => ⟨fun hp => ?_, fun hp => ?_⟩,
    fun r h => exec_escalationExpiry_stopped h, fun r h => ⟨fltAckHandled_stops h, if_pos h, if_pos h⟩, fun r p k h => ?_, fun r p k h => ?_, fun r h => ?_,
    quietPeriod_running, fun hf hq hr hrec hh => quietPeriod_ends hf hq hr hrec hh, fun hf hq hr hrec hh h3 => quietPeriod_held hf hq hr hrec hh h3,
    fun o v h hf ht => errTest_begins h hf ht, errTest_ends, fun c h h12 => controlCoreFail_moves h h12, fun c h => if_pos h⟩,
    fun s => ⟨fun e r k hq hk => patinaStore_takes hq hk, patinaStore_empty, fun n r h => ⟨patinaJournal_written h, patinaJournal_failed h⟩,
    fun o h => ⟨patinaLock_locks h, fun hl => (exec_patinaLock h).trans (congrArg Host.Outcome.next (if_pos hl))⟩⟩⟩
  · rw [exec_escalationExpiry h hd, if_pos hp]
  · rw [exec_escalationExpiry h hd, if_neg hp]
  · exact ⟨s.regionBack r, exec_regionRunning p k h, regionBack_facts s r.isLt⟩
  · exact if_pos (by rw [h]; rfl)
  · exact ⟨s.regionLost r, exec_regionRestartTimeout h, regionLost_facts s r.isLt⟩

end Sys2Proof.Machine
end

section
/-! Clocks, the RTC, power states, wake-up and temperatures (R464, R465, R468 to R473, R508, R517, R518). -/

namespace Sys2Proof.Machine

open Sys2Proof

/-! ## Crystals, the RTC and PLLs (R462 to R465) -/

section
variable {s : State}

theorem xtal32Valid_runs (hp : s.pln.porLow = false) : ∃ t, exec .xtal32Valid s = .next t ∧ t.flag Adr.CLK_STATUS Fld.CLK_STATUS_xtal32_ok = true ∧
    t.flag Adr.PLN_STATUS Fld.PLN_STATUS_rc_mode = false ∧ s.RegsBut [Adr.CLK_STATUS, Adr.PLN_STATUS] t ∧ t = { s with regs := t.regs } := by
  refine ⟨_, if_neg (by rw [hp]; exact Bool.false_ne_true), ?_, State.flag_setFlag_eq _ _ _ _ (by decide), ?_, rfl⟩
  · rw [State.flag_setFlag_ne _ _ _ _ (by decide), State.flag_setFlag_eq _ _ _ _ (by decide)]
  · exact ((State.RegsBut.refl _ s).setFlag _ _ (by simp)).setFlag _ _ (by simp)

theorem xtal32Stop_changes (h : s.flag Adr.CLK_STATUS Fld.CLK_STATUS_xtal32_ok = true) : ∃ t, exec .xtal32Stop s = .next t ∧
    t.flag Adr.CLK_STATUS Fld.CLK_STATUS_xtal32_ok = false ∧ t.flag Adr.PLN_STATUS Fld.PLN_STATUS_rc_mode = true ∧
    s.RegsButEvents [Adr.CLK_STATUS, Adr.PLN_STATUS] t ∧ t = s.takeEvents t := by
  have hexec : exec .xtal32Stop s = .next (((s.setFlag Adr.CLK_STATUS Fld.CLK_STATUS_xtal32_ok false).setFlag Adr.PLN_STATUS Fld.PLN_STATUS_rc_mode
      true).event 0x004) := if_neg (by rw [h]; decide)
  have hev := ((s.setFlag Adr.CLK_STATUS Fld.CLK_STATUS_xtal32_ok false).setFlag Adr.PLN_STATUS Fld.PLN_STATUS_rc_mode true).event_only 0x004 0 0
  refine ⟨_, hexec, ?_, ?_, ?_, hev.takeEvents_of_regs rfl⟩
  · rw [State.flag_event _ _ _ _ _ (by decide), State.flag_setFlag_ne _ _ _ _ (by decide), State.flag_setFlag_eq _ _ _ _ (by decide)]
  · rw [State.flag_event _ _ _ _ _ (by decide), State.flag_setFlag_eq _ _ _ _ (by decide)]
  · exact (((State.RegsButEvents.refl _ s).setFlag _ _ (by simp)).setFlag _ _ (by simp)).event _ _ _

theorem xtal50Stable_runs (hp : s.pln.porLow = false) (ho : s.flag Adr.CLK_STATUS Fld.CLK_STATUS_osc50_ok = false) (h5 : s.ps ≠ 5) (hb : s.pln.bootDue = none) :
    ∃ t, exec (.xtal50Stable false) s = .next t ∧ t.flag Adr.CLK_STATUS Fld.CLK_STATUS_osc50_ok = true ∧ s.RegsBut [Adr.CLK_STATUS] t ∧
      t = { s with regs := t.regs } := by
  refine ⟨s.setFlag Adr.CLK_STATUS Fld.CLK_STATUS_osc50_ok true, ?_, State.flag_setFlag_eq _ _ _ _ (by decide), State.regsBut_setFlag s _ _ _, rfl⟩
  change execXtal50Stable false s = _
  unfold execXtal50Stable
  rw [if_neg (by simp [hp, ho, h5])]
  extract_lets s1
  have h1 : s1.pln.bootDue = none := hb
  rw [h1]
  rfl

theorem rtcSet_takes (hp : s.powered 2 = true) (ht : s.tbState = 2 ∨ s.tbState = 3) : ∃ t, exec .rtcSet s = .next t ∧
    t.pln = { s.pln with rtcBase := s.tbNs / 1000000000 * 32768, rtcAt := s.now } ∧ t.flag Adr.PLN_STATUS Fld.PLN_STATUS_rtc_valid = true ∧
    s.RegsBut [Adr.PLN_STATUS] t ∧ t = { s with regs := t.regs, pln := t.pln } :=
  ⟨_, if_pos ⟨hp, ht⟩, rfl, State.flag_setFlag_eq _ _ _ _ (by decide), State.regsBut_setFlag s _ _ _, rfl⟩

theorem pllLockTimeout_first {k : Fin 6} (hp : s.powered (k.val + 1) = true) (hk : s.pln.pllRestarted.contains k.val = false) :
    exec (.pllLockTimeout k) s = .next { s with pln := { s.pln with pllRestarted := s.pln.pllRestarted ++ [k.val] } } := by
  change execPllLockTimeout k s = _
  unfold execPllLockTimeout
  extract_lets r
  rw [if_neg (by rw [hp]; decide), if_pos (by rw [hk]; decide)]
  rfl

/-- The second time a PLL does not lock its region stays off. -/
theorem pllLockTimeout_second {k : Fin 6} (hp : s.powered (k.val + 1) = true) (hk : s.pln.pllRestarted.contains k.val = true) :
    ∃ t, exec (.pllLockTimeout k) s = .next t ∧ t.powered (k.val + 1) = false ∧ s.RegsButEvents [Adr.CLK_STATUS, Adr.PWR_REGION] t ∧ t.media = s.media := by
  generalize hw : (s.setFld Adr.CLK_STATUS Fld.CLK_STATUS_lock_fail (s.fld Adr.CLK_STATUS Fld.CLK_STATUS_lock_fail ||| 2 ^ k.val)).powerRegions
    (s.fld Adr.PWR_REGION Fld.PWR_REGION_powered - 2 ^ (k.val + 1)) = w
  have hexec : exec (.pllLockTimeout k) s = .next (w.eventIn (firstBlock (k.val + 1)) 0x006) := by
    change execPllLockTimeout k s = _
    unfold execPllLockTimeout
    extract_lets r c s1
    rw [if_neg (by rw [hp]; decide), if_neg (by rw [hk]; decide)]
    exact congrArg (fun u => Host.Outcome.next (State.eventIn u (firstBlock (k.val + 1)) 0x006)) hw
  have hblock : firstBlock (k.val + 1) < 38 := by
    generalize k = n
    decide +revert
  have hev := w.eventIn_only 0x006 0 0 hblock
  have hbit : s.fld Adr.PWR_REGION Fld.PWR_REGION_powered / 2 ^ (k.val + 1) % 2 = 1 := by
    have h1 : (s.fld Adr.PWR_REGION Fld.PWR_REGION_powered).testBit (k.val + 1) = true := hp
    rw [Nat.testBit_eq_decide_div_mod_eq] at h1
    exact of_decide_eq_true h1
  refine ⟨_, hexec, ?_, fun a ha he => (hev.2 a he).trans ?_, ?_⟩
  · rw [State.powered, hev.fld _ (by unfold EventReg; decide), ← hw]
    refine (State.powered_powerRegions _ _ (k.val + 1) (by omega)).trans ?_
    have hclear := testBit_without (s.fld Adr.PWR_REGION Fld.PWR_REGION_powered) (k.val + 1)
    rwa [hbit, Nat.one_mul] at hclear
  · rw [← hw]
    exact (((State.RegsBut.refl [Adr.CLK_STATUS, Adr.PWR_REGION] s).setFld _ _ (by simp)).setFld _ _ (by simp)).setFld _ _ (by simp) a ha
  · rw [hev.media, ← hw]
    rfl

/-! ## The wake alarm (R473) -/

theorem State.wakeRelease_freed (s : State) : AlarmsFreed s s.wakeRelease := by
  refine foldl_induct (P := AlarmsFreed s) (fun t k hk ht => ?_) ⟨rfl, fun _ _ => rfl⟩
  split
  · exact ht.setHolder (List.mem_range.1 hk) _
  · exact ht

theorem wakeAlarmFire_awake {b : Boot} (hp : s.pln.porLow = false) (hd : s.wakeDue = true) (h0 : s.ps = 0) : ∃ t, exec (.wakeAlarmFire b) s = .next t ∧
    t.wakeTime = 0 ∧ t.flag Adr.PLN_WAKE Fld.PLN_WAKE_alarm = true ∧ t.media = s.media ∧ t.host = s.host := by
  generalize hw : (s.setReg Adr.PLN_WALM_LO 0).setReg Adr.PLN_WALM_HI 0 = w
  have hfree := w.wakeRelease_freed
  have halarm : s.alarmWake = w.wakeRelease.setFlag Adr.PLN_WAKE Fld.PLN_WAKE_alarm true := by
    unfold State.alarmWake
    rw [hw]
    exact if_pos (.inl h0)
  have hexec : exec (.wakeAlarmFire b) s = .next (w.wakeRelease.setFlag Adr.PLN_WAKE Fld.PLN_WAKE_alarm true) := by
    rw [← halarm]
    exact (if_neg (by rw [hd, hp]; decide)).trans (if_neg (by omega))
  have hzero : ∀ r ∈ [Adr.PLN_WALM_LO, Adr.PLN_WALM_HI], (w.wakeRelease.setFlag Adr.PLN_WAKE Fld.PLN_WAKE_alarm true).reg r = 0 := by
    intro r hr
    have hne : r ≠ Adr.PLN_WAKE ∧ ∀ k < 8, r ≠ Adr.TMB_ALM_CTL k := by
      simp only [List.mem_cons, List.not_mem_nil, or_false] at hr
      rcases hr with rfl | rfl <;> decide
    refine (State.reg_setReg_other _ _ hne.1).trans ((hfree.regs r hne.2).trans ?_)
    rw [← hw]
    simp only [List.mem_cons, List.not_mem_nil, or_false] at hr
    rcases hr with rfl | rfl
    · rw [State.reg_setReg_other _ _ (by decide), State.reg_setReg_same]
    · rw [State.reg_setReg_same]
  refine ⟨_, hexec, ?_, State.flag_setFlag_eq _ _ _ _ (by decide), ?_, ?_⟩
  · rw [State.wakeTime, hzero _ (by simp), hzero _ (by simp)]
    rfl
  · change w.wakeRelease.media = s.media
    rw [hfree.rest, ← hw]
    rfl
  · change w.wakeRelease.host = s.host
    rw [hfree.rest, ← hw]
    rfl

/-! ## Ports in a change of power state (R331, R467) -/

/-- From s to t a port and the time base change, and neither the medium nor a command does. -/
structure PortWork (p : Nat) (s t : State) : Prop where
  regs : s.RegsButEvents (Adr.NET_STATUS p :: timeRegs) t
  media : t.media = s.media
  ctxs : t.host.ctxs = s.host.ctxs

theorem PortWork.of_frame {p : Nat} {t u : State} (h : PortWork p s t) (k : SpinFrame timeRegs t u) : PortWork p s u := by
  refine ⟨h.regs.trans (k.regs.mono (List.subset_cons_self _ _)), ?_, ?_⟩
  · rw [k.rest]
    exact h.media
  · rw [k.rest]
    exact h.ctxs

/-- A link that goes down: s with the port's status and its link cleared and the time noted, before the events and what the time base loses. -/
def State.downCleared (s : State) (p : Nat) : State :=
  ((s.setFlag (Adr.NET_STATUS p) Fld.NET_STATUS_link false).setFlag (Adr.NET_STATUS p) Fld.NET_STATUS_an_done false).modHost
    (fun h => { h with linkDownAt := insertKey h.linkDownAt p s.now, links := eraseKey h.links p })

theorem State.portDown_of_up {p : Nat} (h : s.flag (Adr.NET_STATUS p) Fld.NET_STATUS_link = true) :
    s.portDown p = ((s.downCleared p).event 0x603).ptpLinkDown p := if_neg (by rw [h]; decide)

theorem State.portDown_frame {p : Nat} (h : s.flag (Adr.NET_STATUS p) Fld.NET_STATUS_link = true) : SpinFrame timeRegs (s.downCleared p) (s.portDown p) := by
  rw [State.portDown_of_up h]
  exact ((SpinFrame.refl _ _).event _ _ _).ptpLinkDown p

theorem State.portDown_work (s : State) (p : Nat) : PortWork p s (s.portDown p) := by
  cases h : s.flag (Adr.NET_STATUS p) Fld.NET_STATUS_link with
  | false =>
    have hsame : s.portDown p = s := if_pos (by rw [h]; rfl)
    rw [hsame]
    exact ⟨.refl _ s, rfl, rfl⟩
  | true =>
    have hclear : PortWork p s (s.downCleared p) := ⟨((State.RegsButEvents.refl _ s).setFlag _ _ (by simp)).setFlag _ _ (by simp), rfl, rfl⟩
    exact hclear.of_frame (State.portDown_frame h)

theorem State.portsBack_work (s : State) : PortWork 0 s s.portsBack := by
  have hself : PortWork 0 s s := ⟨.refl _ s, rfl, rfl⟩
  unfold State.portsBack
  split
  · unfold State.retune
    split
    · exact hself
    · exact ⟨(State.RegsButEvents.refl _ s).setFld _ _ (by simp), rfl, rfl⟩
  · split
    · exact s.portDown_work 0
    · have hclear : PortWork 0 s (s.linkCleared 0) := ⟨((State.RegsButEvents.refl _ s).setFlag _ _ (by simp)).setFlag _ _ (by simp), rfl, rfl⟩
      exact hclear.of_frame (s.linkGone_frame 0)

/-! ## Power states (R467 to R473) -/

theorem State.powerDone_of_idle (h : s.host.ctxs = []) : s.powerDone = s := by
  rw [State.powerDone, h]
  rfl

/-- s as PS1 has it, at the end of its entry. -/
def State.ps1Entered (s : State) (d : Nat) : State :=
  ((((s.setFlag Adr.PWR_STATE Fld.PWR_STATE_entering false).setFld Adr.PWR_STATE Fld.PWR_STATE_ps 1).powerRegions (psRegions 1)).setFld Adr.PWR_LAT
    Fld.PWR_LAT_entry_ds (min d 65535))

theorem exec_powerEntry_ps1 {d : Nat} (he : s.flag Adr.PWR_STATE Fld.PWR_STATE_entering = true) (ht : s.fld Adr.PWR_STATE Fld.PWR_STATE_target = 1) :
    exec (.powerEntryComplete d) s = .next (let u := (((s.ps1Entered d).event 0x010 1).phaseCheck.powerDone).modPln (fun p => { p with ps5Due := false })
      if u.pln.exitDue then u.startExit else u).settle := by
  change execPowerEntryComplete d s = _
  unfold execPowerEntryComplete
  extract_lets r t
  have h1 : t = 1 := ht
  clear_value t
  subst h1
  exact (if_neg (by rw [he]; simp [State.entryReady])).trans rfl

theorem powerEntry_ps1 (d : Nat) (he : s.flag Adr.PWR_STATE Fld.PWR_STATE_entering = true) (ht : s.fld Adr.PWR_STATE Fld.PWR_STATE_target = 1)
    (hx : s.pln.exitDue = false) (hc : s.host.ctxs = []) : ∃ t, exec (.powerEntryComplete d) s = .next t ∧ t.ps = 1 ∧
      t.psMoving = s.flag Adr.PWR_STATE Fld.PWR_STATE_exiting ∧ t.fld Adr.PWR_LAT Fld.PWR_LAT_entry_ds = min d 65535 ∧ t.media = s.media := by
  have hexec := exec_powerEntry_ps1 (d := d) he ht
  have hframe : SpinFrame [Adr.TMB_PLSTAT, Adr.SPN_ANGLE] (s.ps1Entered d) ((s.ps1Entered d).event 0x010 1).phaseCheck :=
    ((SpinFrame.refl _ _).event 0x010 1 0).trans (State.phaseCheck_frame _)
  generalize ((s.ps1Entered d).event 0x010 1).phaseCheck = z at hexec hframe
  have hzctxs : z.host.ctxs = [] := by
    rw [hframe.rest]
    exact hc
  have hzexit : z.pln.exitDue = false := by
    rw [hframe.rest]
    exact hx
  have hzmedia : z.media = s.media := by
    rw [hframe.rest]
    rfl
  rw [State.powerDone_of_idle hzctxs] at hexec
  have hstay : (z.modPln (fun p => { p with ps5Due := false })).pln.exitDue = false := hzexit
  dsimp only at hexec
  rw [hstay, if_neg Bool.false_ne_true, State.settle_of_nil (s := z.modPln _) hzctxs] at hexec
  have hflag : ∀ f, z.flag Adr.PWR_STATE f = (s.ps1Entered d).flag Adr.PWR_STATE f := fun f => hframe.regs.flag f (by decide) (by unfold EventReg; decide)
  refine ⟨_, hexec, ?_, ?_, ?_, hzmedia⟩
  · refine (hframe.regs.fld _ (by decide) (by unfold EventReg; decide)).trans ?_
    refine (State.fld_setFld_ne _ _ _ _ (by decide)).trans ((State.fld_setFld_ne _ _ _ _ (by decide)).trans ((State.fld_setFld_ne _ _ _ _ (by decide)).trans ?_))
    exact State.fld_setFld_of_lt _ _ _ (by decide) (by decide)
  · have hentering : z.flag Adr.PWR_STATE Fld.PWR_STATE_entering = false := by
      refine (hflag _).trans ?_
      refine (State.flag_setFld_ne _ _ _ _ (by decide)).trans ((State.flag_setFld_ne _ _ _ _ (by decide)).trans ((State.flag_setFld_ne _ _ _ _ (by decide)).trans ?_))
      exact (State.flag_setFld_apart _ _ _ _ _ (by decide) (by decide)).trans (State.flag_setFlag_eq _ _ _ _ (by decide))
    have hexiting : z.flag Adr.PWR_STATE Fld.PWR_STATE_exiting = s.flag Adr.PWR_STATE Fld.PWR_STATE_exiting := by
      refine (hflag _).trans ?_
      refine (State.flag_setFld_ne _ _ _ _ (by decide)).trans ((State.flag_setFld_ne _ _ _ _ (by decide)).trans ((State.flag_setFld_ne _ _ _ _ (by decide)).trans ?_))
      exact (State.flag_setFld_apart _ _ _ _ _ (by decide) (by decide)).trans (State.flag_setFlag_apart _ _ _ _ _ (by decide) (by decide))
    change (z.flag _ _ || z.flag _ _) = _
    rw [hentering, hexiting, Bool.false_or]
  · refine (hframe.regs.fld _ (by decide) (by unfold EventReg; decide)).trans ?_
    exact State.fld_setFld_of_lt _ _ _ (by decide) (by change min d 65535 < 65536; omega)

/-- s as the end of an exit leaves it, before its event. -/
def State.exited (s : State) (d : Nat) : State :=
  ((s.setFlag Adr.PWR_STATE Fld.PWR_STATE_exiting false).setFld Adr.PWR_STATE Fld.PWR_STATE_ps (s.fld Adr.PWR_STATE Fld.PWR_STATE_target)).setFld Adr.PWR_LAT
    Fld.PWR_LAT_exit_ds (min d 65535)

theorem powerExit_reached (d : Nat) (he : s.flag Adr.PWR_STATE Fld.PWR_STATE_exiting = true) (hph : s.phase ≠ 2) (ha : s.time.approachDue = false)
    (hc : s.host.ctxs = []) : ∃ t, exec (.powerExitComplete d) s = .next t ∧ t.ps = s.fld Adr.PWR_STATE Fld.PWR_STATE_target ∧
      t.flag Adr.PWR_STATE Fld.PWR_STATE_exiting = false ∧ t.fld Adr.PWR_LAT Fld.PWR_LAT_exit_ds = min d 65535 ∧
      (s.ps ≠ 4 → s.RegsButEvents [Adr.PWR_STATE, Adr.PWR_LAT] t) ∧ t.media = s.media := by
  generalize hw : (if s.ps = 4 then (s.exited d).portsBack else s.exited d) = w
  have hexec : exec (.powerExitComplete d) s = .next (((w.event 0x010 (s.fld Adr.PWR_STATE Fld.PWR_STATE_target)).powerDone).settle) := by
    rw [← hw]
    exact if_neg (by rw [he, ha]; simp [hph])
  have hwork : PortWork 0 (s.exited d) w := by
    rw [← hw]
    split
    · exact State.portsBack_work _
    · exact ⟨.refl _ _, rfl, rfl⟩
  have hev := w.event_only 0x010 (s.fld Adr.PWR_STATE Fld.PWR_STATE_target) 0
  have hctxs : (w.event 0x010 (s.fld Adr.PWR_STATE Fld.PWR_STATE_target)).host.ctxs = [] := by
    rw [hev.host, hwork.ctxs]
    exact hc
  rw [State.powerDone_of_idle hctxs, State.settle_of_nil hctxs] at hexec
  have hlt := s.fld_lt Adr.PWR_STATE Fld.PWR_STATE_target
  refine ⟨_, hexec, ?_, ?_, ?_, fun h4 => ?_, hev.media.trans hwork.media⟩
  · refine (hev.fld _ (by unfold EventReg; decide)).trans ((hwork.regs.fld _ (by decide) (by unfold EventReg; decide)).trans ?_)
    refine (State.fld_setFld_ne _ _ _ _ (by decide)).trans ?_
    exact State.fld_setFld_of_lt _ _ _ (by decide) hlt
  · refine (hev.flag _ (by unfold EventReg; decide)).trans ((hwork.regs.flag _ (by decide) (by unfold EventReg; decide)).trans ?_)
    refine (State.flag_setFld_ne _ _ _ _ (by decide)).trans ?_
    exact (State.flag_setFld_apart _ _ _ _ _ (by decide) (by decide)).trans (State.flag_setFlag_eq _ _ _ _ (by decide))
  · refine (hev.fld _ (by unfold EventReg; decide)).trans ((hwork.regs.fld _ (by decide) (by unfold EventReg; decide)).trans ?_)
    exact State.fld_setFld_of_lt _ _ _ (by decide) (by change min d 65535 < 65536; omega)
  · have hsame : w = s.exited d := by rw [← hw, if_neg h4]
    rw [hsame]
    exact ((((State.RegsButEvents.refl _ s).setFlag _ _ (by simp)).setFld _ _ (by simp)).setFld _ _ (by simp)).event _ _ _

/-! ### PS5 (R463, R471) -/

theorem State.RegsOnly.nor {t : State} (h : s.RegsOnly t) : t.nor = s.nor := congrArg (fun u => u.nor) h

theorem State.RegsOnly.media {t : State} (h : s.RegsOnly t) : t.media = s.media := congrArg (fun u => u.media) h

theorem State.resetRegions_facts (s : State) : s.resetRegions.fld Adr.PWR_REGION Fld.PWR_REGION_powered = 1 ∧ s.resetRegions.nor = s.resetFields.nor ∧
    s.resetRegions.media = s.resetFields.media := by
  unfold State.resetRegions
  generalize s.resetFields = w
  extract_lets pins s1 s2 s3 s4 s5 s6
  have h1 : w.RegsOnly w := rfl
  have h2 : w.RegsOnly s2 := foldl_induct (fun t k _ ht => ht.setFld _ _ _) h1
  have h3 : w.RegsOnly s3 := foldl_induct (fun t k _ ht => ht.setFld _ _ _) h2
  have h4 : w.RegsOnly s4 := ((h3.setFld _ _ _).setReg _ _).setFld _ _ _
  have hpow : s4.fld Adr.PWR_REGION Fld.PWR_REGION_powered = 1 := by
    refine (State.fld_setFld_ne _ _ _ _ (by decide)).trans ((State.fld_setReg_ne _ _ _ (by decide)).trans ?_)
    exact State.fld_setFld_of_lt _ _ _ (by decide) (by decide)
  clear_value s4
  have h5 : w.RegsOnly s5 := (((h4.setFld _ _ _).setFld _ _ _).setFld _ _ _).setFld _ _ _
  have h5pow : s5.fld Adr.PWR_REGION Fld.PWR_REGION_powered = 1 := by
    refine (State.fld_setFld_ne _ _ _ _ (by decide)).trans ((State.fld_setFld_ne _ _ _ _ (by decide)).trans ((State.fld_setFld_ne _ _ _ _ (by decide)).trans
      ((State.fld_setFld_ne _ _ _ _ (by decide)).trans hpow)))
  clear_value s5
  have h6 : w.RegsOnly s6 := (h5.setFld _ _ _).setFld _ _ _
  have h6pow : s6.fld Adr.PWR_REGION Fld.PWR_REGION_powered = 1 :=
    (State.fld_setFld_ne _ _ _ _ (by decide)).trans ((State.fld_setFld_ne _ _ _ _ (by decide)).trans h5pow)
  clear_value s6
  exact ⟨(State.modPln_fld _ _ _ _).trans h6pow, (State.modPln_nor _ _).trans h6.nor, (State.modPln_media _ _).trans h6.media⟩

theorem State.resetFields_rtc (s : State) : s.resetFields.nor.rtc = s.nor.rtc := rfl

theorem State.resetFields_sectors (s : State) : s.resetFields.media.sectors = s.media.sectors := rfl

theorem State.saveRtc_rtc (s : State) : s.saveRtc.nor.rtc = s.rtc := rfl

theorem ps5_off (h4 : s.ps = 4) (hd : s.pln.ps5Due = true) (hm : s.psMoving = false) (ha : s.host.assocs = []) : ∃ t, exec .ps5PowerOff s = .next t ∧ t.ps = 5 ∧
    t.nor.rtc = s.rtc ∧ t.flag Adr.CLK_STATUS Fld.CLK_STATUS_osc50_ok = false ∧ (∀ r : Nat, 0 < r → r < 7 → t.powered r = false) ∧
    t.media.sectors = s.media.sectors := by
  have hev := s.event_only 0x010 5 0
  have hrtc : (s.event 0x010 5).rtc = s.rtc := by
    rw [State.rtc, hev.pln, hev.now, State.rtc]
  have hmedia := hev.media
  generalize hz : s.event 0x010 5 = z at hrtc hmedia
  obtain ⟨hpow, hnor, hsectors⟩ := z.saveRtc.resetRegions_facts
  have hnor2 : z.saveRtc.resetRegions.nor.rtc = s.rtc := by
    rw [hnor, State.resetFields_rtc, State.saveRtc_rtc, hrtc]
  have hsec2 : z.saveRtc.resetRegions.media.sectors = s.media.sectors := by
    rw [hsectors, State.resetFields_sectors, ← hmedia]
    rfl
  have hexec : exec .ps5PowerOff s = .next (((z.saveRtc.resetRegions.setFld Adr.PWR_STATE Fld.PWR_STATE_ps 5).setFld Adr.PWR_STATE Fld.PWR_STATE_target
      5).setFlag Adr.CLK_STATUS Fld.CLK_STATUS_osc50_ok false) := by
    change execPs5PowerOff s = _
    unfold execPs5PowerOff
    rw [if_neg (by rw [h4, hd, hm]; decide), ha, hz]
    rfl
  generalize z.saveRtc.resetRegions = u at hexec hpow hnor2 hsec2
  refine ⟨_, hexec, ?_, ?_, State.flag_setFlag_eq _ _ _ _ (by decide), fun r h0 h7 => ?_, ?_⟩
  · refine (State.fld_setFlag_ne _ _ _ _ (by decide)).trans ((State.fld_setFld_apart _ _ _ _ _ (by decide) (by decide)).trans ?_)
    exact State.fld_setFld_of_lt _ _ _ (by decide) (by decide)
  · rw [State.setFlag_nor, State.setFld_nor, State.setFld_nor, hnor2]
  · have h1 : (((u.setFld Adr.PWR_STATE Fld.PWR_STATE_ps 5).setFld Adr.PWR_STATE Fld.PWR_STATE_target 5).setFlag Adr.CLK_STATUS Fld.CLK_STATUS_osc50_ok
        false).fld Adr.PWR_REGION Fld.PWR_REGION_powered = 1 :=
      (State.fld_setFlag_ne _ _ _ _ (by decide)).trans ((State.fld_setFld_ne _ _ _ _ (by decide)).trans ((State.fld_setFld_ne _ _ _ _ (by decide)).trans hpow))
    rw [State.powered, h1]
    exact Bool.eq_false_iff.2 fun hbit => absurd (Nat.testBit_one_eq_true_iff_self_eq_zero.1 hbit) (by omega)
  · rw [State.setFlag_media, State.setFld_media, State.setFld_media, hsec2]

/-! ## Wake-up, supplies and temperatures (R472, R508, R517, R518) -/

theorem wakeN_wakes {b : Boot} (h2 : 2 ≤ s.ps) (ha : s.pln.wakeArmed = true) (he : s.flag Adr.PLN_WAKECFG Fld.PLN_WAKECFG_wake_n_en = true) :
    exec (.wakeNAssert b) s = .next ({ s with pln := { s.pln with wakeArmed := false } }.wakeEvent Fld.PLN_WAKE_wake_n b) :=
  if_neg (by rw [ha, he]; simp; omega)

theorem wakeN_ignored {b : Boot} (h : s.ps < 2 ∨ s.pln.wakeArmed = false) : exec (.wakeNAssert b) s = .next s :=
  if_pos (h.imp_right fun k => .inl (by rw [k]; rfl))

theorem supply_outOfLimits {core sram : Bool} (h : core = true ∨ sram = true) : ∃ u : State, exec (.supplyOutOfLimits core sram) s = .next (u.fatalEvent 0 0x0F2) ∧
    u.fld Adr.PIN_SUPPLY Fld.PIN_SUPPLY_now = b2n core + 2 * b2n sram ∧ s.RegsBut [Adr.PIN_SUPPLY] u ∧ u = { s with regs := u.regs } := by
  have hne : b2n core + 2 * b2n sram ≠ 0 := by
    revert h
    cases core <;> cases sram <;> decide
  have hlt : b2n core + 2 * b2n sram < 2 ^ Fld.PIN_SUPPLY_now.width := by
    cases core <;> cases sram <;> decide
  refine ⟨_, congrArg Host.Outcome.next (if_neg hne), ?_, ((State.RegsBut.refl _ s).setFld _ _ (by simp)).setFld _ _ (by simp), rfl⟩
  exact (State.fld_setFld_apart _ _ _ _ _ (by decide) (by decide)).trans (State.fld_setFld_of_lt _ _ _ (by decide) hlt)

end

/-- Settles O59: each row by its condition on the state and what it sets. -/
theorem powerRows : Obligations.PowerRows := by
  unfold Obligations.PowerRows
  intro s
  refine ⟨fun hp => ⟨xtal32Valid_runs hp, fun hx => if_neg (by rw [hp, hx]; decide), ⟨_, congrArg Host.Outcome.next (if_neg (by rw [hp]; decide)), rfl, rfl⟩,
    fun ho h5 hb => xtal50Stable_runs hp ho h5 hb, fun b hd h0 => wakeAlarmFire_awake hp hd h0⟩, xtal32Stop_changes, rtcSet_takes,
    fun k hp => ⟨pllLockTimeout_first hp, pllLockTimeout_second hp⟩, fun d he ht hx hc => powerEntry_ps1 d he ht hx hc,
    fun d he hr => if_pos (by rw [he, hr]; rfl), fun d he hph ha hc => powerExit_reached d he hph ha hc, fun h4 hd hm ha => ps5_off h4 hd hm ha,
    fun b h2 ha he => wakeN_wakes h2 ha he, fun b h => wakeN_ignored h, rfl, fun core sram h => supply_outOfLimits h, fun k d hlo hhi hp => ?_, fun l h => if_pos h⟩
  exact if_neg (by rw [hp]; simp; omega)

end Sys2Proof.Machine
end

section
/-! Commands that wait, and what lets them go on (R260, R346, R350, R351, R355, R356, R371, R398, R409). -/

namespace Sys2Proof.Machine

open Sys2Proof

/-! ## The fetch (R350) -/

theorem State.fetch_facts (s : State) (k : Capsule) :
    (∃ x, (s.fetch k).host.ctxs = s.host.ctxs ++ [x] ∧ x.assoc = k.assoc ∧ x.qid = k.qid ∧ x.cid = k.cid ∧ x.permitted = k.permitted ∧ x.wait = .fetched) ∧
      (∀ j ∈ (s.fetch k).host.capsules, j.order ≠ k.order) ∧ (s.fetch k).media = s.media := by
  unfold State.fetch
  extract_lets x s0 s1
  have h0 : s0.host.ctxs = s.host.ctxs ∧ s0.media = s.media := by
    simp only [s0]
    split <;> exact ⟨rfl, rfl⟩
  have hctxs : s1.host.ctxs = s.host.ctxs ++ [x] := congrArg (· ++ [x]) h0.1
  have hcaps : ∀ j ∈ s1.host.capsules, j.order ≠ k.order := fun j hj => by simpa using (List.mem_filter.mp hj).2
  have hmedia : s1.media = s.media := h0.2
  clear_value s1
  split
  · rw [(State.event_only _ _ _ _).host, State.event_media]
    exact ⟨⟨x, hctxs, rfl, rfl, rfl, rfl, rfl⟩, hcaps, hmedia⟩
  · exact ⟨⟨x, hctxs, rfl, rfl, rfl, rfl, rfl⟩, hcaps, hmedia⟩

theorem commandFetch_fetches {s : State} {k : Capsule} (h : s.nextCapsule = some k) : exec .commandFetch s = .next (s.fetch k) := by
  change execCommandFetch s = _
  rw [execCommandFetch, h]

/-! ## Ownership that has run out (R353, R355) -/

theorem State.vacate_facts (s : State) (e : Nat) : ((s.setOwner 0 0x7FF).event e).ownState = 0 ∧
    ((s.setOwner 0 0x7FF).event e).fld Adr.OWN_STATUS Fld.OWN_STATUS_owner = 0x7FF ∧
    s.RegsButEvents [Adr.OWN_STATUS] ((s.setOwner 0 0x7FF).event e) ∧
    EventOnly { s with regs := (s.setOwner 0 0x7FF).regs } ((s.setOwner 0 0x7FF).event e) := by
  refine ⟨?_, ?_, ?_, State.event_only _ _ _ _⟩
  · rw [State.ownState, State.fld_event _ _ _ _ _ (by decide), State.setOwner, State.fld_setFld_apart _ _ _ _ _ (by decide) (by decide),
      State.fld_setFld_eq _ _ _ _ (by decide)]
    rfl
  · rw [State.fld_event _ _ _ _ _ (by decide), State.setOwner, State.fld_setFld_of_lt _ _ _ (by decide) (by decide)]
  · exact (((State.RegsButEvents.refl _ s).setFld _ _ (by simp)).setFld _ _ (by simp)).event _ _ _

theorem State.ownOver_of_ended {s : State} (hs : s.ownState ≠ 0) (h : s.own.endsAt ≤ s.now) : s.ownOver = true := by
  simp [State.ownOver, State.ownState] at hs ⊢
  exact ⟨hs, h⟩

theorem leaseExpiry_vacates {s : State} (hs : s.ownState = 1) (h : s.own.endsAt ≤ s.now) : ∃ u : State, exec .leaseExpiry s = .next u.ownershipMoved ∧
    u.ownState = 0 ∧ u.fld Adr.OWN_STATUS Fld.OWN_STATUS_owner = 0x7FF ∧
    u.fld Adr.OWN_CNT Fld.OWN_CNT_expiries = min (s.fld Adr.OWN_CNT Fld.OWN_CNT_expiries + 1) (2 ^ Fld.OWN_CNT_expiries.width - 1) ∧
    s.RegsButEvents [Adr.OWN_STATUS, Adr.OWN_CNT] u ∧ u = s.takeEvents u := by
  obtain ⟨hst, howner, hregs, hev⟩ := (s.countFld Adr.OWN_CNT Fld.OWN_CNT_expiries).vacate_facts 0x682
  have hexec : exec .leaseExpiry s = .next ((s.countFld Adr.OWN_CNT Fld.OWN_CNT_expiries).vacate 0x682) := by
    change execLeaseExpiry s = _
    rw [execLeaseExpiry, if_pos hs, State.endOwn, State.ownOver_of_ended (by omega) h, if_neg (by decide), if_pos hs]
  refine ⟨_, hexec, hst, howner, ?_, ?_, hev.takeEvents_of_regs rfl⟩
  · rw [hregs.fld _ (by decide) (by unfold EventReg; decide), State.fld_countFld_eq _ _ _ (by decide)]
  · exact State.RegsButEvents.trans ((State.RegsButEvents.refl _ s).setFld _ _ (by simp)) (hregs.mono (by simp))

theorem successorWindowLapse_vacates {s : State} (hs : s.ownState = 2) (h : s.own.endsAt ≤ s.now) : ∃ u : State,
    exec .successorWindowLapse s = .next u.ownershipMoved ∧ u.ownState = 0 ∧ u.fld Adr.OWN_STATUS Fld.OWN_STATUS_owner = 0x7FF ∧
    s.RegsButEvents [Adr.OWN_STATUS] u ∧ u = s.takeEvents u := by
  obtain ⟨hst, howner, hregs, hev⟩ := s.vacate_facts 0x684
  have hexec : exec .successorWindowLapse s = .next (s.vacate 0x684) := by
    change execSuccessorWindowLapse s = _
    rw [execSuccessorWindowLapse, if_pos hs, State.endOwn, State.ownOver_of_ended (by omega) h, if_neg (by decide), if_neg (by omega), if_pos hs]
  exact ⟨_, hexec, hst, howner, hregs, hev.takeEvents_of_regs rfl⟩

theorem ownership_runs {s : State} (h : s.now < s.own.endsAt) : exec .leaseExpiry s = .next s ∧ exec .successorWindowLapse s = .next s := by
  have hkeep (p : Prop) [Decidable p] : (if p then s.endOwn else s) = s := by rw [State.endOwn_of_running h, ite_self]
  exact ⟨congrArg Host.Outcome.next (hkeep _), congrArg Host.Outcome.next (hkeep _)⟩

/-! ## What a waiting command waits for -/

/-- The grant of the range lock of one command (R409). -/
def HostState.grant (h : HostState) (o q c : Nat) : HostState :=
  { h with locks := h.locks.map (fun j => if j.assoc = o ∧ j.qid = q ∧ j.cid = c then { j with granted := true } else j) }

theorem HostState.lockAt_grant {h : HostState} {o q c : Nat} {k : Lock} (hk : h.lockAt o q c = some k) :
    (h.grant o q c).lockAt o q c = some { k with granted := true } := by
  have hkey : (k.assoc = o ∧ k.qid = q) ∧ k.cid = c := by simpa using List.find?_some hk
  have hpred : ((fun k : Lock => k.assoc == o && k.qid == q && k.cid == c) ∘
      fun j : Lock => if j.assoc = o ∧ j.qid = q ∧ j.cid = c then { j with granted := true } else j) =
        fun k : Lock => k.assoc == o && k.qid == q && k.cid == c := by
    funext j
    by_cases hj : j.assoc = o ∧ j.qid = q ∧ j.cid = c <;> simp [hj]
  rw [HostState.lockAt, HostState.grant, List.find?_map, hpred]
  rw [HostState.lockAt] at hk
  rw [hk, Option.map_some, if_pos ⟨hkey.1.1, hkey.1.2, hkey.2⟩]

theorem rangeLockGrant_goes_on {s : State} {o q c : Nat} {x : Ctx} {k : Lock} {i : Instr} (hx : s.ctx o q c = some x) (hk : s.host.lockAt o q c = some k)
    (hi : x.instr = some i) (hw : x.wait = .lock) (hf : s.host.lockFree k = true) :
    exec (.rangeLockGrant o q c) s = .next ((s.modHost (fun h => h.grant o q c)).body x i x.isLaunched).settle := by
  change execRangeLockGrant o q c s = _
  unfold execRangeLockGrant
  rw [hx, hk]
  dsimp only
  rw [hi]
  exact if_pos ⟨hw, hf⟩

theorem trailingBufferSpace_goes_on {s : State} {o q c : Nat} {x : Ctx} {i : Instr} (hx : s.ctx o q c = some x) (hi : x.instr = some i)
    (hw : x.wait = .trailing) : exec (.trailingBufferSpace o q c) s = .next ((s.body x i x.isLaunched).keepSince x) := by
  change execTrailingBufferSpace o q c s = _
  unfold execTrailingBufferSpace
  rw [hx]
  dsimp only
  rw [hi, hw]

theorem namespaceDeleteDone_finishes {s : State} {o q c : Nat} {d : Deleting}
    (hd : s.deleting.find? (fun d => d.assoc == o && d.qid == q && d.cid == c) = some d) (hb : s.nsBusy d = false) :
    exec (.namespaceDeleteDone o q c) s = .next (s.finishDelete d) := by
  change execNamespaceDeleteDone o q c s = _
  unfold execNamespaceDeleteDone
  rw [hd]
  exact congrArg Host.Outcome.next (if_neg (by rw [hb]; decide))

theorem mouldWithdrawDone_answers {s : State} {o q c n id : Nat} {x : Ctx} (hx : s.ctx o q c = some x) (ho : o < 1024) (hw : x.wait = .withdraw)
    (hm : x.instr.bind mouldOf = some (n, id)) (hs : s.castSees (s.mouldOr n id) x.order = false) : ∃ u : State,
    exec (.mouldWithdrawDone o q c) s = .next u.settle ∧ u.host.completions = s.host.completions ++ [⟨o, q, c, 0, 0, false, 0, 0, []⟩] ∧
      u.media = s.media := by
  obtain ⟨ha, hq, hc, -⟩ := State.ctx_key hx
  have hdone : s.withdrawDone o q c = s.finishWithdraw x (s.mouldOr n id) := by
    unfold State.withdrawDone
    rw [hx]
    dsimp only
    rw [hw, hm]
    exact if_neg (by rw [hs]; decide)
  obtain ⟨hwork, -, hcpl⟩ := State.complete_facts (s := s.putMould { s.mouldOr n id with committed := none, withdrawn := none }) (x := x)
    (by omega) .ok 0 0 [] 0 0
  refine ⟨s.finishWithdraw x (s.mouldOr n id), congrArg (fun t : State => Host.Outcome.next t.settle) hdone, ?_, hwork.media⟩
  rw [State.finishWithdraw, hcpl, Ctx.completion, ha, hq, hc]
  rfl

/-! ## The obligation -/

/-- Settles O35: the fetch makes a context of the next capsule; the share lies between its bounds; ownership that has run out becomes VACANT;
and each wait that ends goes on with the command's own effect. -/
theorem waitingCommandRows : Obligations.WaitingCommandRows := by
  intro s
  refine ⟨?_, ?_, leaseExpiry_vacates, successorWindowLapse_vacates, ownership_runs, ?_, ?_, ?_, ?_⟩
  · intro k hk
    exact ⟨_, commandFetch_fetches hk, s.fetch_facts k⟩
  · exact ⟨_, rfl, Nat.le_max_right _ _, by dsimp only [State.modHost]; omega, rfl⟩
  · intro o q c x k i hx hk hi hw hf
    exact ⟨_, rangeLockGrant_goes_on hx hk hi hw hf, HostState.lockAt_grant hk, rfl⟩
  · intro o q c x i hx hi hw
    exact trailingBufferSpace_goes_on hx hi hw
  · intro o q c d hd hb
    exact namespaceDeleteDone_finishes hd hb
  · intro o q c n id x hx ho hw hm hs
    exact mouldWithdrawDone_answers hx ho hw hm hs

end Sys2Proof.Machine
end

section
/-! The Ethernet ports: links, port faults and frames (R20, R332 to R334, R340). -/

namespace Sys2Proof.Machine

open Sys2Proof

theorem netStatus_not_eventReg (p : Fin 2) : ¬EventReg (Adr.NET_STATUS p) := by
  unfold EventReg
  decide +revert

section
variable {p : Fin 2} {s : State}

/-! ## Links (R332, R340) -/

theorem exec_linkUp (hf : s.fstate (12 + p) = 0) : exec (.linkUp p) s = .next (s.portUp p) := by
  change Host.Outcome.next _ = _
  rw [if_neg (by rw [hf]; decide)]

theorem State.portUp_facts (hu : s.portUsable p = true) : (s.portUp p).flag (Adr.NET_STATUS p) Fld.NET_STATUS_link = true ∧
    s.RegsButEvents [Adr.NET_STATUS p] (s.portUp p) ∧ (s.portUp p).host.assocs = s.host.assocs ∧ (s.portUp p).media = s.media := by
  unfold State.portUp
  rw [if_neg (by rw [hu]; decide)]
  extract_lets st mode s1
  have hlink : s1.flag st Fld.NET_STATUS_link = true := by
    simp only [s1]
    rw [State.flag_setFld_apart _ _ _ _ _ (by decide) (by decide), State.flag_setFld_apart _ _ _ _ _ (by decide) (by decide),
      State.flag_setFlag_eq _ _ _ _ (by decide)]
  have hregs : s.RegsButEvents [st] s1 := (((State.RegsButEvents.refl _ s).setFlag _ _ (by simp)).setFld _ _ (by simp)).setFld _ _ (by simp)
  have hassocs : s1.host.assocs = s.host.assocs := rfl
  have hmedia : s1.media = s.media := rfl
  clear_value s1
  refine ⟨?_, ?_, ?_, ?_⟩
  · rw [State.flag_event _ _ _ _ _ (netStatus_not_eventReg p)]
    exact hlink
  · refine State.RegsButEvents.event ?_ _ _ _
    exact hregs
  · rw [(State.event_only _ _ _ _).host]
    exact hassocs
  · rw [State.event_media]
    exact hmedia

theorem State.portDown_assocs (s : State) (p : Nat) : (s.portDown p).host.assocs = s.host.assocs := by
  cases h : s.flag (Adr.NET_STATUS p) Fld.NET_STATUS_link with
  | false =>
    have hsame : s.portDown p = s := if_pos (by rw [h]; rfl)
    rw [hsame]
  | true =>
    rw [(State.portDown_frame h).rest]
    rfl

theorem State.flag_portDown_link (s : State) (p : Fin 2) : (s.portDown p).flag (Adr.NET_STATUS p) Fld.NET_STATUS_link = false := by
  cases h : s.flag (Adr.NET_STATUS p) Fld.NET_STATUS_link with
  | false =>
    have hsame : s.portDown p = s := if_pos (by rw [h]; rfl)
    rw [hsame, h]
  | true =>
    rw [(State.portDown_frame h).regs.flag _ (by generalize p = b; decide +revert) (netStatus_not_eventReg p)]
    exact (State.flag_setFlag_apart _ _ _ _ _ (by decide) (by decide)).trans (State.flag_setFlag_eq _ _ _ _ (by decide))

theorem State.linkDownAt_portDown (h : s.flag (Adr.NET_STATUS p) Fld.NET_STATUS_link = true) : lookupKey (s.portDown p).host.linkDownAt p = some s.now := by
  rw [(State.portDown_frame h).rest]
  exact lookupKey_insert_same _ _ _

theorem linkLossTimeout_of_down {t0 : Nat} (hl : s.flag (Adr.NET_STATUS p) Fld.NET_STATUS_link = false) (hr : s.funcRunning (12 + p) = true)
    (ht : lookupKey s.host.linkDownAt p = some t0) :
    exec (.linkLossTimeout p) s = .next (if t0 + 2000000000 ≤ s.now then s.endPort p (some 0x60A) else s) := by
  change execLinkLossTimeout p s = _
  unfold execLinkLossTimeout
  rw [ht, hl, hr]
  simp

/-! ## A port that fails (R20) -/

theorem State.endPort_of_free {e : Option Nat} {p : Nat} (h : ∀ x ∈ s.host.assocs, x.1 = 1024 ∨ x.2.port ≠ p) : s.endPort p e = s := by
  have hnil : s.host.assocs.filter (fun x => x.1 != 1024 && x.2.port == p) = [] := by
    rw [List.filter_eq_nil_iff]
    intro x hx
    rcases h x hx with h | h <;> simp [h]
  rw [State.endPort, hnil]
  rfl

theorem portFault_fails (h : ∀ x ∈ s.host.assocs, x.1 = 1024 ∨ x.2.port ≠ p) : ∃ t, exec (.portFault p) s = .next t ∧
    t.flag (Adr.NET_STATUS p) Fld.NET_STATUS_failed = true ∧ t.flag (Adr.NET_STATUS p) Fld.NET_STATUS_link = false ∧
    t.host.assocs = s.host.assocs := by
  have hev := ((s.portDown p).setFlag (Adr.NET_STATUS p) Fld.NET_STATUS_failed true).eventIn_only (b := 26 + p) 0x605 0 0 (by omega)
  have hfree : ∀ x ∈ (((s.portDown p).setFlag (Adr.NET_STATUS p) Fld.NET_STATUS_failed true).eventIn (26 + p) 0x605).host.assocs, x.1 = 1024 ∨ x.2.port ≠ p := by
    rw [hev.host]
    change ∀ x ∈ (s.portDown p).host.assocs, _
    rw [State.portDown_assocs]
    exact h
  refine ⟨_, congrArg Host.Outcome.next (State.endPort_of_free hfree), ?_, ?_, ?_⟩
  · rw [hev.flag _ (netStatus_not_eventReg p), State.flag_setFlag_eq _ _ _ _ (by decide)]
  · rw [hev.flag _ (netStatus_not_eventReg p), State.flag_setFlag_apart _ _ _ _ _ (by decide) (by decide), State.flag_portDown_link]
  · rw [hev.host]
    exact State.portDown_assocs s p

/-! ## Frames (R333, R334) -/

theorem frameReceive_arp {f : Frame} {i ip : Nat} (hl : s.flag (Adr.NET_STATUS p) Fld.NET_STATUS_link = true) (hok : f.fcsOk = true) (ht : f.tag = .vlan 0)
    (hlen : f.len ≤ s.fld (Adr.NET_CFG p) Fld.NET_CFG_mtu + 22) (hi : s.ifaceOf p 0 = some i) (hp : f.payload = .arp ip)
    (hip : s.holdsIp p i false ip = true) : exec (.frameReceive p f) s = .next (s.sendOn p i 0 (.arpReply p i ip)) := by
  change Host.Outcome.next (s.receive p f) = _
  unfold State.receive
  rw [ht, hl, hok, hp]
  dsimp only
  rw [hi, if_neg (by decide), if_neg (by decide), if_neg (by decide), if_neg (by omega)]
  exact congrArg Host.Outcome.next (if_pos hip)

theorem frameReceive_damaged {f : Frame} (hl : s.flag (Adr.NET_STATUS p) Fld.NET_STATUS_link = true) (hok : f.fcsOk = false) :
    exec (.frameReceive p f) s = .next (s.countFld (Adr.NET_CNT0 p) Fld.NET_CNT0_fcs_err) := by
  change Host.Outcome.next (s.receive p f) = _
  unfold State.receive
  dsimp only
  rw [hl, hok, if_neg (by decide), if_pos (by decide)]

end

/-! ## The obligation -/

/-- Settles O30: a link that comes up or goes down changes its own status, a failed port keeps the associations of the others, and a frame is
answered or counted. -/
theorem portRows : Obligations.PortRows := by
  intro p s
  refine ⟨?_, ?_, ?_, portFault_fails, ?_, ?_⟩
  · intro hu hf
    exact ⟨_, exec_linkUp hf, State.portUp_facts hu⟩
  · intro hl
    exact ⟨_, rfl, s.flag_portDown_link p, State.linkDownAt_portDown hl, s.portDown_assocs p, (s.portDown_work p).media⟩
  · intro t0 hl hr ht
    rw [linkLossTimeout_of_down hl hr ht]
    exact ⟨fun h => by rw [if_pos h], fun h => by rw [if_neg (by omega)]⟩
  · intro f i ip hl hok ht hlen hi hp hip
    exact ⟨_, frameReceive_arp hl hok ht hlen hi hp hip, rfl, rfl⟩
  · intro f hl hok
    exact ⟨_, frameReceive_damaged hl hok, State.fld_countFld_eq _ _ _ (by decide), State.regsBut_setFld _ _ _ _, rfl⟩

end Sys2Proof.Machine
end

section
/-! Capsules and data over NVMe/TCP, and Connect (R338, R348, R350, R477). -/

namespace Sys2Proof.Machine

open Sys2Proof

/-- The capsule that arrives with its permission. -/
def State.arrival (s : State) (a q c cells : Nat) (bad : Bool) : Capsule :=
  { assoc := a, qid := q, cid := c, arrival := s.tbNs, permitted := s.isOwner a && !s.ownOver, order := s.host.seq, bad := bad, cells := cells }

theorem State.arrive_arrival (s : State) (a q c cells : Nat) (bad : Bool) :
    (s.arrive a q c cells bad).host.capsules = s.host.capsules ++ [s.arrival a q c cells bad] ∧ (s.arrive a q c cells bad).host.seq = s.host.seq + 1 ∧
      (s.arrive a q c cells bad).regs = s.regs ∧ (s.arrive a q c cells bad).media = s.media := by
  unfold State.arrive
  extract_lets k s1
  have honly : s1 = { s with own := s1.own } := by
    by_cases hr : q = 0 ∧ k.permitted
    · simp only [s1, if_pos hr]
      exact s.renewLease_only
    · simp only [s1, if_neg hr]
  clear_value s1
  rw [honly]
  exact ⟨rfl, rfl, rfl, rfl⟩

theorem firstFrom_lt {i n k : Nat} {p : Nat → Bool} (h : firstFrom i n p = some k) : k < i + n := by
  induction n generalizing i with
  | zero => simp [firstFrom] at h
  | succ m ih =>
    rw [firstFrom] at h
    split at h
    · rw [Option.some_inj] at h
      omega
    · have := ih h
      omega

section
variable {s : State} {k a : Nat} {c : Conn}

theorem capsuleReceive_arrives (hc : lookupKey s.host.conns k = some c) (cid n : Nat) (b : Bool) (ha : c.assoc = some a) (hh : c.hdgst = false)
    (hd : c.ddgst = false) (hq : s.queueFull (commandQueue a c.qid) = false) : exec (.capsuleReceive k cid n true b false) s =
      .next ((s.modQueue (commandQueue a c.qid) (fun j => { j with openCells := j.openCells + cellsOf n })).arrive a c.qid cid (cellsOf n) false) := by
  change execCapsuleReceive k cid n true b false s = _
  unfold execCapsuleReceive
  rw [hc]
  dsimp only
  rw [ha]
  dsimp only
  rw [hh, hd, if_neg (by decide), hq, if_neg (by decide)]
  rfl

theorem h2cData_taken (hc : lookupKey s.host.conns k = some c) (cid : Nat) :
    exec (.h2cData k cid true true) s = .next (s.modConn k (fun c => { c with r2t := c.r2t.filter (· != cid) })) := by
  change execH2cData k cid true true s = _
  unfold execH2cData
  rw [hc]
  dsimp only
  rw [if_neg (by simp), if_pos (by rfl)]

theorem fabricsConnect_admits {d : Cmd} {n : Nat} (hc : lookupKey s.host.conns k = some c) (hk : d.assoc = k) (he : c.established = true)
    (hi : c.icDone = true) (ha : c.assoc = none) (hr : c.refused = false) (hp : s.powered 4 = true) (hl : c.localPort = 4420)
    (hq : d.cdw10.toNat / 65536 = 0) (hid : leAt (fitBytes d.data 1024) 16 2 = 0xFFFF) (hn : firstFrom 0 1024 (fun a => (s.assoc a).isNone) = some n) :
    ∃ t, exec (.fabricsConnect d) s = .next t ∧ (t.assoc n).isSome = true ∧
      (∃ z ∈ t.host.completions, z.assoc = n ∧ z.qid = 0 ∧ z.cid = d.cid ∧ z.sct = 0 ∧ z.sc = 0) ∧ t.media = s.media := by
  have hexec : exec (.fabricsConnect d) s = .next (s.bodyConnect k c d) := by
    change execFabricsConnect d s = _
    unfold execFabricsConnect
    rw [hk, hc]
    dsimp only
    rw [he, hi, ha, hr, hp]
    rfl
  rw [hexec]
  unfold State.bodyConnect
  extract_lets qid body cntlid
  rw [if_neg (by rw [hl]; decide), if_pos hq, if_pos hid, hn]
  have hlt : n < 1024 := by
    have := firstFrom_lt hn
    omega
  dsimp only
  rw [State.post_of_tcp hlt]
  refine ⟨_, rfl, congrArg Option.isSome (lookupKey_insert_same s.host.assocs n _), ⟨_, List.mem_append_right _ (List.mem_singleton_self _), ?_⟩, rfl⟩
  exact ⟨rfl, rfl, rfl, rfl, rfl⟩

end

/-- Settles O32: a capsule joins the arrivals with the permission of its arrival, data takes its request to transfer away, and a Connect on
the first free controller makes the association and answers it. -/
theorem capsuleRows : Obligations.CapsuleRows := by
  intro s k a c hc
  refine ⟨?_, ?_, ?_⟩
  · intro cid n b ha hh hd hq
    obtain ⟨hcaps, hseq, hregs, hmedia⟩ :=
      (s.modQueue (commandQueue a c.qid) (fun j => { j with openCells := j.openCells + cellsOf n })).arrive_arrival a c.qid cid (cellsOf n) false
    exact ⟨_, capsuleReceive_arrives hc cid n b ha hh hd hq, ⟨_, hcaps, rfl, rfl, rfl, rfl, rfl, rfl⟩, hseq, hregs, hmedia⟩
  · intro cid
    exact ⟨_, h2cData_taken hc cid, rfl, rfl, rfl⟩
  · intro d n hk he hi ha hr hp hl hq hid hn
    exact fabricsConnect_admits hc hk he hi ha hr hp hl hq hid hn

end Sys2Proof.Machine
end

section
/-! A Cast on its engines: dispatch, the end of a pour, completion, engine fault (R284, R285, R303). -/

namespace Sys2Proof.Machine

open Sys2Proof

/-! ## What the movement of a Cast's data changes -/

/-- From s to t Casts move their data: only the Casts and the packets of the host queues change. -/
def State.CastWork (s t : State) : Prop := t = { s with cast := t.cast, host := { s.host with queues := t.host.queues } }

namespace State.CastWork

variable {s t u : State}

theorem refl (s : State) : s.CastWork s := rfl

theorem trans (h : s.CastWork t) (k : t.CastWork u) : s.CastWork u := by
  unfold State.CastWork at h k ⊢
  conv => lhs; rw [k, h]

theorem modCast (h : s.CastWork t) (f : CastState → CastState) : s.CastWork (t.modCast f) := by
  unfold State.CastWork at h ⊢
  conv => lhs; rw [h]
  rfl

theorem modQueue (h : s.CastWork t) (q : Nat) (f : Queue → Queue) : s.CastWork (t.modQueue q f) := by
  unfold State.CastWork at h ⊢
  conv => lhs; rw [h]
  rfl

theorem regs (h : s.CastWork t) : t.regs = s.regs := by
  rw [h]

theorem completions (h : s.CastWork t) : t.host.completions = s.host.completions := by
  rw [h]

theorem modJob (h : s.CastWork t) (a q c : Nat) (f : CastJob → CastJob) : s.CastWork (t.modJob a q c f) := h.modCast _

theorem setRun (h : s.CastWork t) (c : Nat) (r : Run) : s.CastWork (t.setRun c r) := h.modCast _

theorem syncOpen (h : s.CastWork t) (a : Nat) : s.CastWork (t.syncOpen a) := by
  unfold State.syncOpen
  exact h.modQueue _ _

theorem linkPacket (h : s.CastWork t) (c : Nat) (r : Run) (n : Nat) : s.CastWork (t.linkPacket c r n) := by
  unfold State.linkPacket
  extract_lets bytes cls p s1 s2
  split
  · exact h
  · exact (((h.modQueue _ _).modJob _ _ _ _).setRun _ _).syncOpen _

end State.CastWork

theorem State.sendStaged_work (s : State) (j : CastJob) : s.CastWork (s.sendStaged j) ∧ (s.sendStaged j).cast.runs = s.cast.runs := by
  unfold State.sendStaged
  extract_lets hi out limit lens t
  have hfold : s.CastWork t.1 ∧ t.1.cast.runs = s.cast.runs := by
    refine List.foldlRecOn (motive := fun p : State × Nat => s.CastWork p.1 ∧ p.1.cast.runs = s.cast.runs) lens _ ⟨.refl s, rfl⟩ ?_
    intro p hp n _
    dsimp only
    split
    · refine ⟨?_, hp.2⟩
      dsimp only
      exact State.CastWork.modQueue hp.1 _ _
    · exact hp
  exact ⟨hfold.1.modJob _ _ _ _, hfold.2⟩

theorem State.dropJob_facts (s : State) (a q c : Nat) :
    (s.dropJob a q c).cast.jobs = s.cast.jobs.filter (fun j => !(j.assoc == a && j.qid == q && j.cid == c)) ∧
      (s.dropJob a q c).host.completions = s.host.completions ∧ (s.dropJob a q c).host.ctxs = s.host.ctxs ∧ (s.dropJob a q c).media = s.media :=
  ⟨rfl, rfl, rfl, rfl⟩

/-! ## The rows -/

section
variable {s : State}

theorem castDispatch_pours {e k : Nat} {j : CastJob} {y : Status × Nat} {p : Pour} (he : s.freeEngine = some e)
    (hj : s.pickCast false s.castQueue = some (j, .error y)) (hd : j.dispatched = true) (hk : j.pours.findIdx? (fun p => !p.running && !p.done) = some k)
    (hp : j.pours[k]? = some p) : ∃ t, exec .castDispatch s = .next t ∧
      (∃ r, lookupKey t.cast.runs e = some r ∧ r.assoc = j.assoc ∧ r.qid = j.qid ∧ r.cid = j.cid ∧ r.pour = k) ∧ t = { s with cast := t.cast } := by
  have hexec : exec .castDispatch s = .next (s.startPour j e k) := by
    change execCastDispatch s = _
    unfold execCastDispatch
    rw [he, hj]
    dsimp only
    rw [if_pos hd, hk]
  rw [hexec]
  unfold State.startPour
  rw [hp]
  dsimp only
  refine ⟨_, rfl, ⟨_, lookupKey_insert_same _ _ _, ?_⟩, rfl⟩
  split <;> exact ⟨rfl, rfl, rfl, rfl⟩

theorem castDispatch_plans {e : Nat} {j : CastJob} {p : CastPlan} (he : s.freeEngine = some e) (hj : s.pickCast false s.castQueue = some (j, .ok p))
    (hd : j.dispatched = false) : exec .castDispatch s = .next (s.dispatchPlan j e p) := by
  change execCastDispatch s = _
  unfold execCastDispatch
  rw [he, hj]
  dsimp only
  rw [if_neg (by rw [hd]; decide)]

theorem pourDone_frees {c : Fin 128} {r : Run} {j : CastJob} (hr : lookupKey s.cast.runs c.val = some r) (ho : r.oc = r.count) (hb : r.buf = [])
    (hj : s.job r.assoc r.qid r.cid = some j) : ∃ t, exec (.pourDone c) s = .next t ∧ lookupKey t.cast.runs c.val = none ∧
      s.RegsBut [Adr.CST_BCNT (c.val / 8)] t ∧ t.host.completions = s.host.completions := by
  change ∃ t, execPourDone c s = .next t ∧ _
  unfold execPourDone
  rw [hr]
  dsimp -zeta only
  rw [if_neg (by simp [ho, hb]), hj]
  dsimp -zeta only
  extract_lets s1 s2 s3 s4
  have h1 : s.CastWork s1 := by
    simp only [s1]
    split
    · exact .refl s
    · exact (State.CastWork.refl s).linkPacket _ _ _
  have h3 : s.CastWork s3 := (h1.modCast _).modJob _ _ _ _
  have hnone : lookupKey s3.cast.runs c.val = none := lookupKey_erase_same _ _
  clear_value s3
  have h4 : s.CastWork s4 ∧ s4.cast.runs = s3.cast.runs := by
    simp only [s4]
    split
    · split
      · exact ⟨h3.trans (s3.sendStaged_work _).1, (s3.sendStaged_work _).2⟩
      · exact ⟨h3, rfl⟩
    · exact ⟨h3, rfl⟩
  clear_value s4
  obtain ⟨hwork, hruns⟩ := h4
  refine ⟨_, rfl, (congrArg (lookupKey · c.val) hruns).trans hnone, ?_, hwork.completions⟩
  intro a ha
  refine (State.regsBut_setFld s4 _ _ _ a ha).trans ?_
  rw [State.reg, State.reg, hwork.regs]

theorem castComplete_completes {o q c : Nat} {j : CastJob} {x : Ctx} (hj : s.job o q c = some j) (ho : o < 1024) (hd : j.dispatched = true)
    (hs : j.stopped = false) (hp : j.pours.any (fun p => !p.done) = false) (hx : s.ctx o q c = some x) : ∃ t,
    exec (.castComplete o q c) s = .next t ∧
      t.host.completions = s.host.completions ++ [⟨o, q, c, 0, 0, false, (if s.leftClear j then 2 ^ 30 else 0) + j.total, 0, j.bytes⟩] ∧
      (∀ k ∈ t.cast.jobs, ¬(k.assoc = o ∧ k.qid = q ∧ k.cid = c)) ∧ t.media = s.media := by
  obtain ⟨hjobs, hcpl, hctxs, hmedia⟩ := s.dropJob_facts o q c
  obtain ⟨hxa, hxq, hxc, -⟩ := State.ctx_key hx
  have hexec : exec (.castComplete o q c) s =
      .next ((s.dropJob o q c).complete x .ok ((if s.leftClear j then 2 ^ 30 else 0) + j.total) 0 j.bytes) := by
    change execCastComplete o q c s = _
    unfold execCastComplete
    rw [hj]
    dsimp only
    rw [if_neg (by simp [hd, hs, hp]), State.ctx, hctxs]
    change Host.Outcome.next (match s.ctx o q c with | some x => _ | none => _) = _
    rw [hx]
  obtain ⟨hwork, -, hdone⟩ := State.complete_facts (s := s.dropJob o q c) (x := x) (by omega) .ok ((if s.leftClear j then 2 ^ 30 else 0) + j.total)
    0 j.bytes 0 0
  refine ⟨_, hexec, ?_, ?_, hwork.media.trans hmedia⟩
  · rw [hdone, hcpl, Ctx.completion, hxa, hxq, hxc]
    rfl
  · have hcast : ((s.dropJob o q c).complete x .ok ((if s.leftClear j then 2 ^ 30 else 0) + j.total) 0 j.bytes).cast = (s.dropJob o q c).cast := by
      rw [hwork.rest]
      rfl
    rw [hcast, hjobs]
    rintro k hk ⟨ha, hq, hc⟩
    have hleft := (List.mem_filter.mp hk).2
    simp [ha, hq, hc] at hleft

/-- s with engine e out of service: it is failed and no reserve any more. -/
def State.engineFailed (s : State) (e : Nat) : State :=
  let s1 := s.modCast (fun k => { k with failedEngines := k.failedEngines ++ [e], reserves := k.reserves.filter (· != e) })
  if s.cast.reserves.contains e then s1 else s1.modCast (fun k => { k with reserves := k.reserves.drop 1 })

theorem State.engineFailed_facts (s : State) (e : Nat) : (s.engineFailed e).cast.failedEngines = s.cast.failedEngines ++ [e] ∧
    e ∉ (s.engineFailed e).cast.reserves ∧ (s.engineFailed e).cast.runs = s.cast.runs ∧ s.engineFailed e = { s with cast := (s.engineFailed e).cast } := by
  have hout : e ∉ s.cast.reserves.filter (· != e) := by simp
  unfold State.engineFailed
  extract_lets s1
  split
  · exact ⟨rfl, hout, rfl, rfl⟩
  · exact ⟨rfl, fun h => hout (List.mem_of_mem_drop h), rfl, rfl⟩

theorem castEngineFault_idle {e : Fin 128} (hf : s.cast.failedEngines.contains e.val = false) (hr : lookupKey s.cast.runs e.val = none) :
    ∃ t, exec (.castEngineFault e) s = .next t ∧ t.cast.failedEngines = s.cast.failedEngines ++ [e.val] ∧
      t.flag Adr.CST_ERR Fld.CST_ERR_engine_fault = true ∧ e.val ∉ t.cast.reserves ∧ s.RegsButEvents [Adr.CST_ERR] t ∧
      t = { s.takeEvents t with cast := t.cast } := by
  obtain ⟨hfailed, hres, hruns, honly⟩ := s.engineFailed_facts e.val
  have hexec : ∃ n, exec (.castEngineFault e) s = .next (((s.engineFailed e.val).event n).cstErr Fld.CST_ERR_engine_fault) := by
    change ∃ n, execCastEngineFault e s = _
    unfold execCastEngineFault
    rw [if_neg (by rw [hf]; decide)]
    extract_lets s1 spare inReserve s2 s3
    have h2 : s2 = s.engineFailed e.val := rfl
    have hnone : lookupKey s3.cast.runs e.val = none := by
      simp only [s3]
      rw [h2]
      change lookupKey ((s.engineFailed e.val).event _).cast.runs e.val = none
      rw [(State.event_only _ _ _ _).cast, hruns]
      exact hr
    rw [hnone]
    exact ⟨_, rfl⟩
  obtain ⟨n, hexec⟩ := hexec
  have hev := (s.engineFailed e.val).event_only n 0 0
  generalize s.engineFailed e.val = w at *
  have hcast : ((w.event n).cstErr Fld.CST_ERR_engine_fault).cast = w.cast := hev.cast
  refine ⟨_, hexec, ?_, State.flag_setFlag_eq _ _ _ _ (by decide), ?_, ?_, ?_⟩
  · rw [hcast, hfailed]
  · rw [hcast]
    exact hres
  · refine State.RegsButEvents.setFlag ?_ _ _ (by simp)
    refine State.RegsButEvents.event ?_ _ _ _
    rw [honly]
    exact .refl _ s
  · have htake : w.event n = { s.takeEvents (w.event n) with cast := w.cast } :=
      hev.takeEvents.trans (congrArg (fun v : State => v.takeEvents (w.event n)) honly)
    rw [hcast]
    unfold State.cstErr
    conv => lhs; rw [htake]
    rfl

end

/-- Settles O27: a dispatched Cast's next pour takes the free engine, an engine whose pour is over is free, a completion carries the length and
the bytes, and a failed engine goes out of service. -/
theorem castEngineRows : Obligations.CastEngineRows := by
  intro s
  refine ⟨?_, ?_, ?_, ?_, ?_⟩
  · intro e j y k p he hj hd hk hp
    exact castDispatch_pours he hj hd hk hp
  · intro e j p he hj hd
    exact castDispatch_plans he hj hd
  · intro c r j hr ho hb hj
    exact pourDone_frees hr ho hb hj
  · intro o q c j x hj ho hd hs hp hx
    exact castComplete_completes hj ho hd hs hp hx
  · intro e hf hr
    exact castEngineFault_idle hf hr

end Sys2Proof.Machine
end

section
/-! The recipe instructions as the engine of a channel meets them, and the ends of a wait (R296 to R301, R311). -/

namespace Sys2Proof.Machine

open Sys2Proof

section
variable {s : State} {c : Fin 128} {r : Run} {j : CastJob} {x : Recipe} {v : CastView}

theorem State.onInstr_of_present {op : Nat} (h : s.Present c.val op r j x v) (f : CastJob → CastView → Run → State) :
    s.onInstr c.val op f = f j v r := by
  obtain ⟨hr, hst, he, hoc, hj, hx, hv, hl, hop⟩ := h
  unfold State.onInstr
  rw [hr]
  dsimp only
  rw [if_neg (by simp [hst, he, hoc]), hj]
  dsimp only
  rw [hx, hv]
  dsimp only
  rw [hl, Bool.not_true, Bool.and_false, if_neg (by decide), if_pos hop]

theorem exec_move_of_present (h : s.Present c.val 1 r j x v) : exec (.move c false) s =
    .next (match v.stepMove r false (imgWord v.image r.pc 0) (imgWord v.image r.pc 1) (imgWord v.image r.pc 2) [] with
      | .error k => s.recipeFault j c.val k r.pc
      | .ok t => s.afterInstr c.val j t.1) := by
  have hon := State.onInstr_of_present h
  obtain ⟨hr, hst, he, hoc, hj, hx, hv, hl, hop⟩ := h
  change execMove c false s = _
  unfold execMove
  rw [hr]
  dsimp only
  rw [hj]
  dsimp only
  rw [if_neg (by simp), if_neg (by simp [hx])]
  exact congrArg Host.Outcome.next (hon _)

/-- The wait that a wait instruction for an event flag begins. -/
def eventWait (v : CastView) (r : Run) (now : Nat) : ChanWait :=
  { kind := 1, arg := imgWord v.image r.pc 1 % 16, consume := bitsOf (imgWord v.image r.pc 0) 24 24 == 1, since := now }

theorem exec_wait_of_event (h : s.Present c.val 3 r j x v) (hk : bitsOf (imgWord v.image r.pc 0) 27 26 = 1)
    (hf : bitOf j.evf (imgWord v.image r.pc 1 % 16) = false) :
    exec (.wait c) s = .next (s.setRun c.val { r with wait := some (eventWait v r s.now), state := 3 }) := by
  have hover : s.waitOver j (eventWait v r s.now) = false := by
    simp [State.waitOver, eventWait, hf]
  change Host.Outcome.next _ = _
  rw [State.onInstr_of_present h]
  dsimp only
  rw [hk, if_neg (by omega)]
  change Host.Outcome.next (if s.waitOver j (eventWait v r s.now) then _ else _) = _
  rw [hover, if_neg (by decide)]
  rfl

theorem exec_signal_of_event (h : s.Present c.val 4 r j x v) (hset : bitsOf (imgWord v.image r.pc 0) 27 27 = 1)
    (hirq : bitsOf (imgWord v.image r.pc 0) 26 26 = 0) (hout : bitsOf (imgWord v.image r.pc 0) 25 25 = 0) :
    exec (.signal c) s = .next ((s.modJob j.assoc j.qid j.cid (fun k => { k with evf := k.evf ||| 2 ^ (imgWord v.image r.pc 1 % 16) })).afterInstr c.val
      j (advance r []).1) := by
  have hrun : lookupKey s.cast.runs c.val = some r := h.1
  change Host.Outcome.next _ = _
  rw [State.onInstr_of_present h]
  dsimp only
  rw [hset, hirq, hout, if_pos rfl, if_neg (by decide), if_pos rfl]
  change Host.Outcome.next ((State.modJob _ _ _ _ _).afterInstr c.val j (advance ((lookupKey s.cast.runs c.val).getD r) []).1) = _
  rw [hrun]
  rfl

/-! ## Waits -/

/-- The fault is latched, by this event or an earlier one. -/
theorem State.recipeFault_latches (s : State) (j : CastJob) (c k n : Nat) :
    (s.recipeFault j c k n).flag Adr.MVR_FAULT Fld.MVR_FAULT_latched = true := by
  unfold State.recipeFault
  extract_lets a s1
  have h1 : s1.flag Adr.MVR_FAULT Fld.MVR_FAULT_latched = true := by
    simp only [s1]
    split
    · rename_i hl
      exact (State.flag_setFlag_apart _ _ _ _ _ (by decide) (by decide)).trans hl
    · rw [State.flag_setFld_apart _ _ _ _ _ (by decide) (by decide), State.flag_setFld_apart _ _ _ _ _ (by decide) (by decide),
        State.flag_setFld_apart _ _ _ _ _ (by decide) (by decide), State.flag_setFlag_eq _ _ _ _ (by decide)]
  have hend := (EndWork.refl ((s1.countFld Adr.MVR_CNT Fld.MVR_CNT_faults).event 0x420)).castFail j (.vendor 0x8A)
  rw [hend.2.flag _ (by decide) (by unfold EventReg; decide), State.flag_event _ _ _ _ _ (by decide), State.flag_countFld_ne _ _ _ (by decide), h1]

theorem exec_waitEnd_of_over {w : ChanWait} (hr : lookupKey s.cast.runs c.val = some r) (hj : s.job r.assoc r.qid r.cid = some j)
    (hw : r.wait = some w) (hst : r.state = 3) (ho : s.waitOver j w = true) : exec (.waitEnd c) s = .next (s.endWait c.val j r w) := by
  change execWaitEnd c s = _
  unfold execWaitEnd
  rw [hr]
  dsimp only
  rw [hj, hw]
  exact if_pos ⟨hst, ho⟩

theorem exec_recipeWaitTimeout {w : ChanWait} (hr : lookupKey s.cast.runs c.val = some r) (hj : s.job r.assoc r.qid r.cid = some j)
    (hw : r.wait = some w) (hst : r.state = 3) : exec (.recipeWaitTimeout c) s =
      if w.kind ≠ 0 ∧ w.since + max (s.fld Adr.MVR_CTRL Fld.MVR_CTRL_wait_ms) 1 * 1000000 ≤ s.now then .next (s.recipeFault j c.val 8 r.pc)
      else .next s := by
  change execRecipeWaitTimeout c s = _
  unfold execRecipeWaitTimeout
  rw [hr]
  dsimp only
  rw [hj, hw]
  dsimp only
  simp only [hst, true_and]

theorem exec_programLineArrive (hr : lookupKey s.cast.runs c.val = some r) (hst : r.state = 4) :
    exec (.programLineArrive c true) s = .next (s.setRun c.val { r with lines := (r.pc / 8 :: r.lines).take 4, state := 1 }) := by
  change execProgramLineArrive c true s = _
  unfold execProgramLineArrive
  rw [hr]
  dsimp only
  rw [if_neg (by omega), if_pos rfl]

theorem exec_pacingResume (hr : lookupKey s.cast.runs c.val = some r) (hst : r.state = 2)
    (hfill : (s.drain r.assoc s.loEff (s.queue (egressOf r.assoc)).packets.length).fill r.assoc ≤
      (s.drain r.assoc s.loEff (s.queue (egressOf r.assoc)).packets.length).loEff) : exec (.pacingResume c) s =
      .next (((s.drain r.assoc s.loEff (s.queue (egressOf r.assoc)).packets.length).setRun c.val { r with state := 1 }).pump c.val) := by
  change execPacingResume c s = _
  unfold execPacingResume
  rw [hr]
  dsimp only
  rw [if_neg (by omega), if_pos hfill]

end

/-- Settles O28: the engine that meets an instruction performs it and goes on or faults, a wait that is over goes on, one that lasts its limit
faults, and a line or room in the queue lets the channel run again. -/
theorem recipeInstructionRows : Obligations.RecipeInstructionRows := by
  intro s c r j x v
  refine ⟨?_, ?_, ?_, ?_, exec_signal_of_event, ?_, ?_, exec_pacingResume⟩
  · intro h u hu
    rw [exec_move_of_present h, hu]
  · intro h k hk
    rw [exec_move_of_present h, hk]
  · intro h u hu
    change Host.Outcome.next _ = _
    rw [State.onInstr_of_present h, hu]
  · intro h hk hf
    exact ⟨_, exec_wait_of_event h hk hf, ⟨_, _, lookupKey_insert_same _ _ _, rfl, rfl, rfl, rfl⟩, rfl⟩
  · intro w hr hj hw hst
    rw [exec_recipeWaitTimeout hr hj hw hst]
    refine ⟨exec_waitEnd_of_over hr hj hw hst, fun hk hover => ?_, fun h => if_neg ?_⟩
    · exact ⟨_, if_pos ⟨hk, hover⟩, rfl, s.recipeFault_latches j c.val 8 r.pc⟩
    · omega
  · intro hr hst
    exact ⟨_, exec_programLineArrive hr hst, lookupKey_insert_same _ _ _, rfl⟩

end Sys2Proof.Machine
end

section
/-! Compression jobs: start, end, error, verification and rerun (R319 to R326). -/

namespace Sys2Proof.Machine

open Sys2Proof

/-! ## The states of the units -/

/-- Writing v over digit u of a number of four base-4 digits. -/
theorem digit_write {w u v : Nat} (hu : u < 4) (hv : v < 4) (hw : w < 256) :
    w - w / 4 ^ u % 4 * 4 ^ u + v * 4 ^ u < 256 ∧ (w - w / 4 ^ u % 4 * 4 ^ u + v * 4 ^ u) / 4 ^ u % 4 = v ∧
      ∀ k < 4, k ≠ u → (w - w / 4 ^ u % 4 * 4 ^ u + v * 4 ^ u) / 4 ^ k % 4 = w / 4 ^ k % 4 := by
  refine ⟨?_, ?_, fun k hk hne => ?_⟩
  · obtain rfl | rfl | rfl | rfl : u = 0 ∨ u = 1 ∨ u = 2 ∨ u = 3 := by omega
    all_goals omega
  · obtain rfl | rfl | rfl | rfl : u = 0 ∨ u = 1 ∨ u = 2 ∨ u = 3 := by omega
    all_goals omega
  · obtain rfl | rfl | rfl | rfl : u = 0 ∨ u = 1 ∨ u = 2 ∨ u = 3 := by omega
    all_goals
      obtain rfl | rfl | rfl | rfl : k = 0 ∨ k = 1 ∨ k = 2 ∨ k = 3 := by omega
      all_goals omega

theorem State.unitState_setUnitState (s : State) {u v : Nat} (hu : u < 4) (hv : v < 4) :
    (s.setUnitState u v).unitState u = v ∧ ∀ k < 4, k ≠ u → (s.setUnitState u v).unitState k = s.unitState k := by
  obtain ⟨hlt, hsame, hother⟩ := digit_write (w := s.fld Adr.CMP_STATUS Fld.CMP_STATUS_unit_state) hu hv (s.fld_lt _ _)
  have hfld : (s.setUnitState u v).fld Adr.CMP_STATUS Fld.CMP_STATUS_unit_state = _ := State.fld_setFld_of_lt s _ _ (by decide) hlt
  refine ⟨?_, fun k hk hne => ?_⟩
  · rw [State.unitState, hfld, hsame]
  · rw [State.unitState, hfld, hother k hk hne, State.unitState]

/-! ## The rows -/

section
variable {s : State}

theorem compressionJobStart_starts {j : CmpJob} {u : Nat} (hl : (s.cmp.filter (fun j => j.unit.isSome)).length < s.jobLimit)
    (hj : s.jobOrder.find? (fun j => (s.unitFor j).isSome || (j.compresses && !s.canCompress) || s.noRerun j) = some j) (hu : s.unitFor j = some u) :
    exec .compressionJobStart s = .next (s.modCmp j (fun k => { k with unit := some u })) := by
  change execCompressionJobStart s = _
  unfold execCompressionJobStart
  rw [if_neg (by omega), hj]
  dsimp only
  rw [hu]

variable {u : Fin 4} {j : CmpJob} (hj : s.jobOn u.val = some j)
include hj

theorem compressionJobDone_compresses (hc : j.compresses = true) : exec (.compressionJobDone u) s = .next (s.compressed u.val j).settle := by
  change execCompressionJobDone u s = _
  unfold execCompressionJobDone
  rw [hj]
  exact if_pos hc

theorem compressionJobDone_decompresses {out : List Byte} (hc : j.compresses = false) (hd : decompress j.op j.input j.space = .done out) :
    exec (.compressionJobDone u) s =
      .next ((s.countFld Adr.CMP_CNT0 Fld.CMP_CNT0_decomp_jobs).jobOutput j out (out.length % 2 ^ 25) 0).settle := by
  change execCompressionJobDone u s = _
  unfold execCompressionJobDone
  rw [hj]
  dsimp only
  rw [if_neg (by rw [hc]; decide), hd]

theorem decompressError_ends {k n : Nat} (hc : j.compresses = false) (hd : decompress j.op j.input j.space = .failed k n) :
    ∃ w : State, exec (.decompressError u) s = .next (w.endJob j (.vendor k) (n % 2 ^ 25)).settle ∧
      w.fld Adr.CMP_ERR Fld.CMP_ERR_in_ofs = n % 2 ^ 25 ∧ s.RegsButEvents [Adr.CMP_ERR, Adr.CMP_CNT1] w ∧ w = s.takeEvents w := by
  have hexec : exec (.decompressError u) s = .next ((((s.setFld Adr.CMP_ERR Fld.CMP_ERR_in_ofs n).countFld Adr.CMP_CNT1
      Fld.CMP_CNT1_derr).event 0x443).endJob j (.vendor k) (n % 2 ^ 25)).settle := by
    change execDecompressError u s = _
    unfold execDecompressError
    rw [hj]
    dsimp only
    rw [if_neg (by rw [hc]; decide), hd]
  refine ⟨_, hexec, ?_, ?_, (State.event_only _ _ _ _).takeEvents_of_regs rfl⟩
  · rw [State.fld_event _ _ _ _ _ (by decide), State.fld_countFld_ne _ _ _ (by decide), State.fld_setFld_eq _ _ _ _ (by decide)]
    rfl
  · refine State.RegsButEvents.event ?_ _ _ _
    exact ((State.RegsButEvents.refl _ s).setFld _ _ (by simp)).setFld _ _ (by simp)

theorem verifierMismatch_reruns (hc : j.compresses = true) (hu : s.unitState u.val = 0) (hm : j.mismatched = []) :
    ∃ t, exec (.verifierMismatch u) s = .next t ∧
      t.cmp = s.cmp.map (fun k => if k.is j.assoc j.qid j.cid then { k with unit := none, mismatched := [u.val] } else k) ∧
      t.fld Adr.CMP_CNT1 Fld.CMP_CNT1_vmis = min (s.fld Adr.CMP_CNT1 Fld.CMP_CNT1_vmis + 1) (2 ^ 16 - 1) ∧
      s.RegsButEvents [Adr.CMP_CNT1] t ∧ t = { s.takeEvents t with cmp := t.cmp } := by
  have hexec : exec (.verifierMismatch u) s = .next (((s.countFld Adr.CMP_CNT1 Fld.CMP_CNT1_vmis).modCmp j
      (fun k => { k with unit := none, mismatched := [u.val] })).event 0x440) := by
    change execVerifierMismatch u s = _
    unfold execVerifierMismatch
    rw [hj]
    dsimp only
    rw [if_neg (by simp [hc, hu]), hm]
  have hev := ((s.countFld Adr.CMP_CNT1 Fld.CMP_CNT1_vmis).modCmp j (fun k => { k with unit := none, mismatched := [u.val] })).event_only 0x440 0 0
  refine ⟨_, hexec, ?_, ?_, ?_, ?_⟩
  · rw [hev.cmp]
    rfl
  · rw [State.fld_event _ _ _ _ _ (by decide)]
    exact State.fld_countFld_eq s _ _ (by decide)
  · refine State.RegsButEvents.event ?_ _ _ _
    exact State.regsBut_setFld s _ _ _ |>.events
  · rw [hev.cmp]
    conv => lhs; rw [hev.takeEvents]
    rfl

end

theorem verifierDisable_disables {s : State} {u : Fin 4} (h : s.unitState u.val = 0) : ∃ t, exec (.verifierDisable u) s = .next t ∧
    t.unitState u.val = 1 ∧ (∀ w : Fin 4, w ≠ u → t.unitState w.val = s.unitState w.val) ∧ s.RegsButEvents [Adr.CMP_STATUS] t ∧ t = s.takeEvents t := by
  obtain ⟨hsame, hother⟩ := s.unitState_setUnitState u.isLt (v := 1) (by decide)
  have hunit (k : Nat) : ((s.setUnitState u.val 1).event 0x442).unitState k = (s.setUnitState u.val 1).unitState k := by
    rw [State.unitState, State.fld_event _ _ _ _ _ (by decide), State.unitState]
  refine ⟨_, if_pos h, (hunit _).trans hsame, fun w hw => (hunit _).trans (hother _ w.isLt (Fin.val_ne_of_ne hw)), ?_,
    (State.event_only _ _ _ _).takeEvents_of_regs rfl⟩
  exact State.RegsButEvents.event ((State.RegsButEvents.refl _ s).setFld _ _ (by simp)) _ _ _

/-- The jobs of a command that waits for a verified unit may go unverified (R326). -/
theorem mem_mayUnverified {l : List CmpJob} {o q c : Nat} {k : CmpJob}
    (h : k ∈ l.map (fun j => if j.is o q c && j.compresses && j.unit.isNone then { j with mayUnverified := true } else j)) (hi : k.is o q c = true)
    (hc : k.compresses = true) (hu : k.unit = none) : k.mayUnverified = true := by
  obtain ⟨j, -, rfl⟩ := List.mem_map.mp h
  by_cases hj : (j.is o q c && j.compresses && j.unit.isNone) = true
  · rw [if_pos hj]
  · rw [if_neg hj] at hi hc hu
    exact absurd (by simp [hi, hc, hu]) hj

/-- Settles O29: a job starts on the free unit, ends with its output or its first error, runs again after a mismatch, and may go unverified; a
verifier that fails is disabled. -/
theorem compressionRows : Obligations.CompressionRows := by
  intro s
  refine ⟨?_, ?_, fun u h => verifierDisable_disables h, ?_⟩
  · intro j u hl hj hu
    exact ⟨_, compressionJobStart_starts hl hj hu, rfl, rfl⟩
  · intro u j hj
    refine ⟨compressionJobDone_compresses hj, fun out hc hd => ?_, fun k n => decompressError_ends hj, verifierMismatch_reruns hj⟩
    exact ⟨_, compressionJobDone_decompresses hj hc hd, State.fld_countFld_eq _ _ _ (by decide), State.regsBut_setFld _ _ _ _, rfl⟩
  · intro o q c
    exact ⟨_, rfl, fun k hk => mem_mayUnverified hk, rfl⟩

end Sys2Proof.Machine
end

section
/-! Mould Write, Mould Commit and Cast at their acceptance (R255, R259, R270, R387 to R389). -/

namespace Sys2Proof.Machine

open Sys2Proof

theorem bitsOf_of_small {w n hi lo : Nat} (h : w / 2 ^ n = 0) (hle : n ≤ lo) : bitsOf w hi lo = 0 := by
  have hlt : w < 2 ^ lo := Nat.lt_of_lt_of_le (Nat.lt_of_div_eq_zero (Nat.two_pow_pos n) h) (Nat.pow_le_pow_right (by decide) hle)
  rw [bitsOf, Nat.div_eq_of_lt hlt, Nat.zero_mod]

/-- With one command, none of the same mould was fetched before. -/
theorem State.mouldBusy_of_single {s : State} {y x : Ctx} {i : Instr} (h : s.host.ctxs = [y]) (ho : y.order = x.order) : s.mouldBusy x i = false := by
  rw [State.mouldBusy, h]
  simp [ho]

/-- The mould a command names. -/
def State.mouldNamed (s : State) (c : Cmd) : Mould := s.mouldOr c.nsid.toNat (c.cdw10.toNat % 65536)

/-- The mould a Mould Write names, with the bytes it brings. -/
def State.mouldWritten (s : State) (c : Cmd) : Mould :=
  (s.mouldNamed c).writePart (c.cdw10.toNat / 65536 % 4) (c.cdw12.toNat + c.cdw13.toNat * 2 ^ 32) (fitBytes c.data c.len)

/-! ## Mould Write (R255, R387) -/

/-- Mould Write with bytes as they are: its fields are set within their limits, and the others are 0. -/
structure PlainMouldWrite (c : Cmd) : Prop where
  part : bitsOf c.cdw10.toNat 19 18 = 0
  op : c.cdw10.toNat / 2 ^ 20 = 0
  cdw11 : c.cdw11 = 0
  cdw14 : c.cdw14 = 0
  mid : ofLe (slice c.mid 0 16) = 0
  prp : c.prp = false
  pos : 0 < c.len
  most : c.len ≤ 8388608
  fits : c.cdw12.toNat + c.cdw13.toNat * 2 ^ 32 + c.len ≤ partMax (c.cdw10.toNat / 65536 % 4)

section
variable {s : State} {c : Cmd} {x : Ctx}

theorem State.bodyMouldWrite_of_plain {i : Instr} {y : Ctx} {sp : Namespace} (hctxs : s.host.ctxs = [y]) (ho : y.order = x.order)
    (hsp : s.mouldSpace x c.nsid.toNat = some sp) (hf : PlainMouldWrite c) (hm : (s.mouldNamed c).isCommitted = false)
    (hroom : (s.mouldUse c.nsid.toNat - (if (s.mould c.nsid.toNat (c.cdw10.toNat % 65536)).isSome then (s.mouldNamed c).blocks else 0)) +
      (s.mouldWritten c).blocks ≤ sp.nsze) : s.bodyMouldWrite x i c = (s.putMould (s.mouldWritten c)).complete x .ok c.len := by
  have hop : c.cdw10.toNat / 2 ^ 20 % 16 = 0 := by rw [hf.op]
  have hlen : (fitBytes c.data c.len).length % 2 ^ 25 = c.len := by
    rw [length_fitBytes]
    exact Nat.mod_eq_of_lt (Nat.lt_of_le_of_lt hf.most (by decide))
  unfold State.bodyMouldWrite
  rw [hsp]
  dsimp only
  rw [hop, if_neg (by simpa [hf.part, bitsOf_of_small hf.op, hf.cdw11, hf.cdw14, hf.mid, hf.prp, hf.pos, hf.most] using hf.fits),
    State.mouldBusy_of_single hctxs ho, if_neg (by decide), if_neg (by rw [State.mouldNamed] at hm; rw [hm]; decide), if_pos rfl]
  unfold State.writeMould
  extract_lets ns id m part off m1 used
  have hcommit : m.isCommitted = false := hm
  have hfits : ¬sp.nsze < used + m1.blocks := Nat.not_lt.mpr hroom
  rw [hcommit, if_neg (by decide), if_neg hfits, hlen]
  rfl

theorem mouldWrite_done (h : s.Only c x) (hc : c.assoc < 1024) {sp : Namespace} (hr : s.Ready x (.mouldWrite c))
    (hsp : s.mouldSpace x c.nsid.toNat = some sp) (hf : PlainMouldWrite c) (hm : (s.mouldNamed c).isCommitted = false)
    (hroom : (s.mouldUse c.nsid.toNat - (if (s.mould c.nsid.toNat (c.cdw10.toNat % 65536)).isSome then (s.mouldNamed c).blocks else 0)) +
      (s.mouldWritten c).blocks ≤ sp.nsze) : ∃ t, exec (.mouldWrite c) s = .next t ∧ s.Answers t c .ok c.len 0 [] ∧
      t.cast = (s.putMould (s.mouldWritten c)).cast ∧ t.regs = s.regs ∧ t.media = s.media := by
  obtain ⟨halone, hctxs⟩ := h.taken_alone (.mouldWrite c)
  have htaken := s.taken_only x (.mouldWrite c) c
  have hv : Alone s ((s.taken x (.mouldWrite c) c).putMould ((s.taken x (.mouldWrite c) c).mouldWritten c)) c := halone.of_eq rfl rfl
  obtain ⟨t, ht, hans, honly⟩ := h.answered (by simp [nvmeRows]) hc hr hv (r := .ok) (dw0 := c.len) (dw1 := 0) (data := []) (lba := 0) (n := 0)
    (State.bodyMouldWrite_of_plain hctxs rfl (by rw [htaken]; exact hsp) hf (by rw [htaken]; exact hm) (by rw [htaken]; exact hroom))
  refine ⟨t, ht, hans, ?_, ?_, ?_⟩
  all_goals
    rw [honly, htaken]
    rfl

/-! ## Mould Commit (R259, R388) -/

/-- Mould Commit of operation 0, its other fields 0. -/
structure PlainMouldCommit (c : Cmd) : Prop where
  high : c.cdw10.toNat / 65536 = 0
  cdw11 : c.cdw11 = 0
  cdw12 : c.cdw12 = 0
  cdw13 : c.cdw13 = 0
  cdw14 : c.cdw14 = 0
  cdw15 : c.cdw15 = 0
  mid : ofLe (slice c.mid 0 16) = 0

theorem State.mouldSpace_of_ready (h : s.Ready x (.mouldCommit c)) : ∃ sp, s.mouldSpace x c.nsid.toNat = some sp := by
  obtain ⟨-, -, -, -, -, -, -, hns, -⟩ := h
  have hsome : (s.mouldSpace x c.nsid.toNat).isNone = false := hns
  exact Option.isSome_iff_exists.mp (by simpa using hsome)

/-- What a commit of the mould comes to. -/
theorem State.bodyMouldCommit_of_plain {i : Instr} {y : Ctx} {sp : Namespace} (hctxs : s.host.ctxs = [y]) (ho : y.order = x.order)
    (hsp : s.mouldSpace x c.nsid.toNat = some sp) (hf : PlainMouldCommit c) :
    ((s.mouldNamed c).isCommitted = true → s.bodyMouldCommit x i c = s.complete x .ok) ∧
      ((s.mouldNamed c).isCommitted = false → (s.mouldNamed c).check = none →
        s.bodyMouldCommit x i c = (s.putMould { s.mouldNamed c with committed := some s.host.seq, withdrawn := none }).complete x .ok) ∧
      (∀ n, (s.mouldNamed c).isCommitted = false → (s.mouldNamed c).check = some n →
        s.bodyMouldCommit x i c = ((s.event 0x407).cstErr Fld.CST_ERR_commit_refused).complete x .field n) := by
  have h11 : c.cdw11.toNat = 0 := by
    rw [hf.cdw11]
    rfl
  unfold State.bodyMouldCommit
  rw [hsp]
  dsimp only
  rw [if_neg (by simp [hf.high, hf.cdw11, hf.cdw12, hf.cdw13, hf.cdw14, hf.cdw15, hf.mid]), State.mouldBusy_of_single hctxs ho, if_neg (by decide),
    if_pos h11]
  change (_ → (if (s.mouldNamed c).isCommitted = true then _ else _) = _) ∧ (_ → _ → (if (s.mouldNamed c).isCommitted = true then _ else _) = _) ∧
    (∀ n, _ → _ → (if (s.mouldNamed c).isCommitted = true then _ else _) = _)
  refine ⟨fun hm => if_pos hm, fun hm hk => ?_, fun n hm hk => ?_⟩
  · rw [if_neg (by rw [hm]; decide)]
    change (match (s.mouldNamed c).check with | some k => _ | none => _) = _
    rw [hk]
    rfl
  · rw [if_neg (by rw [hm]; decide)]
    change (match (s.mouldNamed c).check with | some k => _ | none => _) = _
    rw [hk]

theorem mouldCommit_answers (h : s.Only c x) (hc : c.assoc < 1024) (hr : s.Ready x (.mouldCommit c)) (hf : PlainMouldCommit c) :
    ((s.mouldNamed c).isCommitted = true → ∃ t, exec (.mouldCommit c) s = .next t ∧ s.Answers t c .ok 0 0 [] ∧ t = { s with host := t.host }) ∧
      ((s.mouldNamed c).isCommitted = false → (s.mouldNamed c).check = none → ∃ t, exec (.mouldCommit c) s = .next t ∧ s.Answers t c .ok 0 0 [] ∧
        t.cast = (s.putMould { s.mouldNamed c with committed := some s.host.seq, withdrawn := none }).cast ∧ t.regs = s.regs ∧ t.media = s.media) ∧
      (∀ n, (s.mouldNamed c).isCommitted = false → (s.mouldNamed c).check = some n → ∃ t, exec (.mouldCommit c) s = .next t ∧
        s.Answers t c .field n 0 [] ∧ t.flag Adr.CST_ERR Fld.CST_ERR_commit_refused = true ∧ t.cast = s.cast ∧ s.RegsButEvents [Adr.CST_ERR] t ∧
        t.media = s.media) := by
  obtain ⟨halone, hctxs⟩ := h.taken_alone (.mouldCommit c)
  have htaken := s.taken_only x (.mouldCommit c) c
  obtain ⟨sp, hsp⟩ := State.mouldSpace_of_ready (hr.taken c)
  have hmould : (s.taken x (.mouldCommit c) c).mouldNamed c = s.mouldNamed c := by
    rw [htaken]
    rfl
  obtain ⟨hdone, hcommits, hrefused⟩ := State.bodyMouldCommit_of_plain (x := { x with instr := some (.mouldCommit c) }) (i := .mouldCommit c)
    hctxs rfl hsp hf
  rw [hmould] at hdone hcommits hrefused
  refine ⟨fun hm => ?_, fun hm hk => ?_, fun n hm hk => ?_⟩
  · exact h.answered_only (by simp [nvmeRows]) hc hr (lba := 0) (n := 0) (hdone hm)
  · obtain ⟨t, ht, hans, honly⟩ := h.answered (by simp [nvmeRows]) hc hr (v := (s.taken x (.mouldCommit c) c).putMould _) (halone.of_eq rfl rfl)
      (r := .ok) (dw0 := 0) (dw1 := 0) (data := []) (lba := 0) (n := 0) (hcommits hm hk)
    refine ⟨t, ht, hans, ?_, ?_, ?_⟩
    all_goals
      rw [honly, htaken]
      rfl
  · have hev := (s.taken x (.mouldCommit c) c).event_only 0x407 0 0
    obtain ⟨t, ht, hans, honly⟩ := h.answered (by simp [nvmeRows]) hc hr (v := ((s.taken x (.mouldCommit c) c).event 0x407).cstErr
      Fld.CST_ERR_commit_refused) ((halone.event _ _ _).of_eq rfl rfl) (r := .field) (dw0 := n) (dw1 := 0) (data := []) (lba := 0) (n := 0)
      (hrefused n hm hk)
    refine ⟨t, ht, hans, ?_, ?_, ?_, ?_⟩
    · rw [honly]
      exact State.flag_setFlag_eq _ _ _ _ (by decide)
    · rw [honly]
      refine hev.cast.trans ?_
      rw [htaken]
    · have hkeep : s.RegsButEvents [Adr.CST_ERR] (s.taken x (.mouldCommit c) c) := by
        rw [htaken]
        exact .refl _ s
      rw [honly]
      exact (hkeep.event _ _ _).setFlag _ _ (by simp)
    · rw [honly]
      refine hev.media.trans ?_
      rw [htaken]

/-! ## Cast (R270, R389) -/

/-- A command alone whose effect makes it wait. -/
theorem State.Only.waits_in {u : State} {i : Instr} {w : Wait} {y : Ctx} (h : s.Only c x) (hi : i ∈ nvmeRows c) (hr : s.Ready x i)
    (hb : (s.taken x i c).body { x with instr := some i } i false = u) (hctxs : u.host.ctxs = [y]) (hcpl : u.host.completions = s.host.completions)
    (hkey : y.assoc = x.assoc ∧ y.qid = x.qid ∧ y.cid = x.cid) (hw : y.wait = w) (hgo : u.mayGoOn y = false) :
    Sys2Proof.Machine.exec i s = .next u ∧ s.Waits u c w := by
  obtain ⟨ha, hq, hid⟩ := h.key
  exact ⟨by rw [h.exec_body hi hr, hb, State.settle_of_waiting hctxs hgo], hcpl, y, hctxs, hkey.1.trans ha, hkey.2.1.trans hq, hkey.2.2.trans hid, hw⟩

/-- A launch is noted in the context alone. -/
theorem State.noteLaunch_only {y : Ctx} (h : s.host.ctxs = [y]) (hkey : y.assoc = x.assoc ∧ y.qid = x.qid ∧ y.cid = x.cid) :
    ∃ z, s.noteLaunch x = { s with host := { s.host with ctxs := [z] } } ∧ z.assoc = x.assoc ∧ z.qid = x.qid ∧ z.cid = x.cid := by
  obtain ⟨ha, hq, hid⟩ := hkey
  unfold State.noteLaunch
  split
  · refine ⟨y, ?_, ha, hq, hid⟩
    rw [← h]
  · extract_lets others crowd staged
    refine ⟨{ y with launched := true, staged := staged, delayed := y.delayed || crowd }, ?_, ha, hq, hid⟩
    have hmap : s.host.ctxs.map (fun y => if y.is x.assoc x.qid x.cid then
        { y with launched := true, staged := staged, delayed := y.delayed || crowd } else y) =
          [{ y with launched := true, staged := staged, delayed := y.delayed || crowd }] := by
      rw [h]
      simp [Ctx.is, ha, hq, hid]
    exact congrArg (fun l => { s with host := { s.host with ctxs := l } }) hmap

/-- The job of a Cast that joins the dispatch queue, launched at l. -/
def Ctx.castJob (x : Ctx) (c : Cmd) (l : Nat) : CastJob :=
  { assoc := x.assoc, qid := x.qid, cid := x.cid, order := x.order, cls := x.cls, launch := l, cmd := c }

theorem State.castCheck_host (s : State) (h : HostState) (c : Cmd) (o : Nat) : ({ s with host := h } : State).castCheck c o = s.castCheck c o := rfl

/-- An immediate Cast whose functions run and whose checks hold joins the dispatch queue. -/
theorem State.bodyCast_queues {y : Ctx} {p : CastPlan} (hctxs : s.host.ctxs = [y]) (hkey : y.assoc = x.assoc ∧ y.qid = x.qid ∧ y.cid = x.cid)
    (hl : castLt c = false) (h10 : s.funcRunning 10 = true) (h11 : s.funcRunning 11 = true) (hcheck : s.castCheck c x.order = .ok p) :
    ∃ (l : Nat) (z : Ctx), s.bodyCast x c = { s with
        host := { s.host with ctxs := [z.waiting s.now .castQueue] }, cast := { s.cast with jobs := s.cast.jobs ++ [x.castJob c l] } } ∧
      z.assoc = x.assoc ∧ z.qid = x.qid ∧ z.cid = x.cid := by
  obtain ⟨z, hnote, hza, hzq, hzi⟩ := State.noteLaunch_only hctxs hkey
  unfold State.bodyCast
  rw [if_neg (by simp [hl])]
  unfold State.bodyCastLaunched
  extract_lets v
  have hv : v = { s with host := { s.host with ctxs := [z] } } := hnote
  clear_value v
  subst hv
  have hrun (k : Nat) : ({ s with host := { s.host with ctxs := [z] } } : State).funcRunning k = s.funcRunning k := rfl
  rw [hrun, h10, hrun, h11, if_neg (by decide), if_neg (by decide), State.castCheck_host, hcheck]
  have hctx : ({ s with host := { s.host with ctxs := [z] } } : State).ctx x.assoc x.qid x.cid = some z := by
    simp [State.ctx, Ctx.is, hza, hzq, hzi]
  refine ⟨z.launch, z, ?_, hza, hzq, hzi⟩
  change State.waitFor (State.modCast _ (fun k => { k with jobs := k.jobs ++ [x.castJob c (match State.ctx _ _ _ _ with
    | some y => y.launch
    | none => x.arrival)] })) x .castQueue = _
  rw [hctx]
  have hmap : [z].map (fun y => if y.is x.assoc x.qid x.cid then y.waiting s.now .castQueue else y) = [z.waiting s.now .castQueue] := by
    simp [Ctx.is, hza, hzq, hzi]
  rw [← hmap]
  rfl

/-- Before its launch a Cast is checked for its launch time. -/
theorem State.body_cast (s : State) (x : Ctx) (c : Cmd) : s.body x (.cast c) false = s.bodyCast x c := by
  unfold State.body
  exact if_neg (by decide)

theorem cast_queued (h : s.Only c x) {p : CastPlan} (hr : s.Ready x (.cast c)) (hl : castLt c = false) (h10 : s.funcRunning 10 = true)
    (h11 : s.funcRunning 11 = true) (hcheck : (s.taken x (.cast c) c).castCheck c x.order = .ok p) : ∃ t, exec (.cast c) s = .next t ∧
      s.Waits t c .castQueue ∧ (∃ j, t.cast.jobs = s.cast.jobs ++ [j] ∧ j.assoc = c.assoc ∧ j.qid = c.qid ∧ j.cid = c.cid ∧ j.order = x.order ∧
        j.cmd = c ∧ j.dispatched = false) ∧ t.regs = s.regs ∧ t.media = s.media := by
  obtain ⟨halone, hctxs⟩ := h.taken_alone (.cast c)
  obtain ⟨ha, hq, hid⟩ := h.key
  have htaken := s.taken_only x (.cast c) c
  have hfunc (k : Nat) : (s.taken x (.cast c) c).funcRunning k = s.funcRunning k := by
    rw [htaken]
    rfl
  obtain ⟨l, z, hbody, hza, hzq, hzi⟩ := State.bodyCast_queues (x := { x with instr := some (.cast c) }) hctxs ⟨rfl, rfl, rfl⟩ hl
    ((hfunc 10).trans h10) ((hfunc 11).trans h11) hcheck
  obtain ⟨hexec, hwaits⟩ := h.waits_in (w := .castQueue) (i := .cast c) (by simp [nvmeRows]) hr
    ((State.body_cast _ _ _).trans hbody) rfl halone.completions ⟨hza, hzq, hzi⟩ rfl rfl
  refine ⟨_, hexec, hwaits, ⟨Ctx.castJob { x with instr := some (.cast c) } c l, ?_, ha, hq, hid, rfl, rfl, rfl⟩, ?_, ?_⟩
  all_goals
    rw [htaken]

end

/-- Settles O56: a Mould Write puts its bytes into its mould, a Mould Commit commits it or is refused by its check, and a Cast joins the dispatch
queue. -/
theorem mouldAndCastRows : Obligations.MouldAndCastRows := by
  intro s c x h hc
  refine ⟨?_, ?_, fun p hr hl h10 h11 hcheck => cast_queued h hr hl h10 h11 hcheck⟩
  · intro sp hr hsp hpart hop h11 h14 hmid hprp hpos hmost off m1 hmax hm hroom
    exact mouldWrite_done h hc hr hsp ⟨hpart, hop, h11, h14, hmid, hprp, hpos, hmost, hmax⟩ hm hroom
  · intro hr hhigh h11 h12 h13 h14 h15 hmid
    exact mouldCommit_answers h hc hr ⟨hhigh, h11, h12, h13, h14, h15, hmid⟩

end Sys2Proof.Machine
end

section
/-! Reads and writes of LBAs at their acceptance (R23, R374 to R377, R390, R391, R398). -/

namespace Sys2Proof.Machine

open Sys2Proof

section
variable {s v : State} {c : Cmd} {x y : Ctx} {i : Instr} {r : Nat × Nat × Nat × Bool}

/-! ## Range locks of a command alone (R398) -/

/-- The lock request r of a command, granted. -/
def grantedLock (x : Ctx) (r : Nat × Nat × Nat × Bool) : Lock :=
  { ns := r.1, lo := r.2.1, hi := r.2.2.1, excl := r.2.2.2, assoc := x.assoc, qid := x.qid, cid := x.cid, granted := true }

/-- The first request is granted. -/
theorem State.addLock_of_none (h : v.host.locks = []) : v.addLock x.assoc x.qid x.cid r = v.modHost (fun h => { h with locks := [grantedLock x r] }) := by
  unfold State.addLock
  rw [if_pos (by rw [h]; decide)]
  extract_lets k
  have hlocks : v.host.locks ++ [{ k with granted := v.host.locks.all (fun e => !e.conflicts k) }] = [grantedLock x r] := by
    rw [h]
    rfl
  exact congrArg (fun l => v.modHost (fun h => { h with locks := l })) hlocks

theorem State.withLock_of_none (h : v.host.locks = []) (hi : lockOf i = some r) (f : State → State) :
    v.withLock x i f = f (v.addLock x.assoc x.qid x.cid r) := by
  have hlock : (v.addLock x.assoc x.qid x.cid r).host.lockAt x.assoc x.qid x.cid = some (grantedLock x r) := by
    rw [State.addLock_of_none h]
    simp [HostState.lockAt, grantedLock]
  unfold State.withLock
  rw [hi]
  dsimp only
  rw [if_pos (by simp [HostState.lockAt, h]), hlock]
  rfl

/-- The request of a command alone leaves it alone. -/
theorem State.addLock_alone (h : v.host.locks = []) (ha : Alone s v c) : Alone s (v.addLock x.assoc x.qid x.cid r) c := by
  rw [State.addLock_of_none h]
  exact ha.modHost _ rfl rfl

theorem State.Only.taken_locks (h : s.Only c x) (i : Instr) : (s.taken x i c).host.locks = [] := by
  obtain ⟨-, -, hlocks, -⟩ := h
  rw [s.taken_only x i c]
  exact hlocks

/-! ## Reads (R374, R390) -/

theorem State.rwCheck_of_ok {sp : Namespace} {b : Bool} (hsp : v.lbaSpace x c.nsid.toNat = some sp) (hb : b = true) (hn : nlbOf c ≤ v.maxBlocks)
    (hr : slbaOf c + nlbOf c ≤ sp.nsze) : v.rwCheck x c b = .ok sp := by
  unfold State.rwCheck
  rw [hsp]
  dsimp only
  rw [if_neg (by simp [hb, hn]), if_neg (by omega)]

/-- A read of which every LBA is at hand completes with the bytes. -/
theorem State.reading_of_data {sp : Namespace} {n : Nat} {l : List Nat} {bs : List (List Byte)} {k : List (List Byte) → State → State}
    (h : v.readLbas sp n l = (⟨none, [], none, bs⟩, v)) : v.reading x sp n l k = k bs.reverse v := by
  unfold State.reading
  rw [h]

/-- A launch and a request leave the command alone. -/
theorem State.Only.locked_alone (h : s.Only c x) (i : Instr) (r : Nat × Nat × Nat × Bool) :
    Alone s (s.locked x i c r) c ∧ s.locked x i c r = { s with host := (s.locked x i c r).host } := by
  obtain ⟨⟨hone, hentries, hcpl⟩, hctxs⟩ := h.taken_alone i
  obtain ⟨ha, hq, hid⟩ := h.key
  obtain ⟨z, hnote, hza, hzq, hzi⟩ := State.noteLaunch_only (x := { x with instr := some i }) hctxs ⟨rfl, rfl, rfl⟩
  have hlocks := h.taken_locks i
  have hlaunch : Alone s ((s.taken x i c).noteLaunch { x with instr := some i }) c := by
    rw [hnote]
    exact ⟨⟨z, rfl, hza.trans ha, hzq.trans hq, hzi.trans hid⟩, hentries, hcpl⟩
  have hfree : ((s.taken x i c).noteLaunch { x with instr := some i }).host.locks = [] := by
    rw [hnote]
    exact hlocks
  refine ⟨State.addLock_alone hfree hlaunch, ?_⟩
  unfold State.locked
  rw [State.addLock_of_none hfree, hnote, s.taken_only x i c]
  rfl

/-- What the checks of a read or write look at. -/
theorem State.taken_space (s : State) (x : Ctx) (i : Instr) (c : Cmd) (n : Nat) :
    (s.taken x i c).lbaSpace { x with instr := some i } n = s.lbaSpace x n ∧ (s.taken x i c).maxBlocks = s.maxBlocks := by
  rw [s.taken_only x i c]
  exact ⟨rfl, rfl⟩

theorem State.noteLaunch_locks (hctxs : v.host.ctxs = [y]) (hkey : y.assoc = x.assoc ∧ y.qid = x.qid ∧ y.cid = x.cid) (h : v.host.locks = []) :
    (v.noteLaunch x).host.locks = [] := by
  obtain ⟨z, hnote, -⟩ := State.noteLaunch_only hctxs hkey
  rw [hnote]
  exact h

theorem read_answers {sp : Namespace} (h : s.Only c x) (hc : c.assoc < 1024) (hsp : s.lbaSpace x c.nsid.toNat = some sp)
    (hrange : slbaOf c + nlbOf c ≤ sp.nsze) (hmax : nlbOf c ≤ s.maxBlocks) {bs : List (List Byte)} (hr : s.Ready x (.read c))
    (hf : plainCdw12 c.cdw12 = true)
    (hd : (s.locked x (.read c) c (c.nsid.toNat, slbaOf c, slbaOf c + nlbOf c - 1, false)).readLbas sp c.nsid.toNat (lbaRun (slbaOf c) (nlbOf c)) =
      (⟨none, [], none, bs⟩, s.locked x (.read c) c (c.nsid.toNat, slbaOf c, slbaOf c + nlbOf c - 1, false))) :
    ∃ t, exec (.read c) s = .next t ∧ s.Answers t c .ok 0 0 bs.reverse.flatten ∧ t = { s with host := t.host } := by
  obtain ⟨halone, honly⟩ := h.locked_alone (.read c) (c.nsid.toNat, slbaOf c, slbaOf c + nlbOf c - 1, false)
  obtain ⟨hspace, hblocks⟩ := s.taken_space x (.read c) c c.nsid.toNat
  obtain ⟨t, ht, hans, ho⟩ := h.answered (by simp [nvmeRows]) hc hr halone (r := .ok) (dw0 := 0) (dw1 := 0) (data := bs.reverse.flatten)
    (lba := 0) (n := 0) (by
      change State.bodyRead _ _ _ c = _
      unfold State.bodyRead
      rw [State.rwCheck_of_ok (hspace.trans hsp) hf (Nat.le_trans hmax (Nat.le_of_eq hblocks.symm)) hrange]
      dsimp only
      rw [State.withLock_of_none (State.noteLaunch_locks (h.taken_alone (.read c)).2 ⟨rfl, rfl, rfl⟩ (h.taken_locks (.read c))) rfl]
      exact State.reading_of_data hd)
  exact ⟨t, ht, hans, State.host_only_trans honly ho⟩

/-- Before its launch a Timed Read is checked for its launch time. -/
theorem State.body_timedRead (s : State) (x : Ctx) (c : Cmd) : s.body x (.timedRead c) false = s.bodyTimedRead x (.timedRead c) c := by
  unfold State.body
  exact if_neg (by decide)

theorem timedRead_answers {sp : Namespace} (h : s.Only c x) (hc : c.assoc < 1024) (hsp : s.lbaSpace x c.nsid.toNat = some sp)
    (hrange : slbaOf c + nlbOf c ≤ sp.nsze) (hmax : nlbOf c ≤ s.maxBlocks) {bs : List (List Byte)} (hr : s.Ready x (.timedRead c))
    (hf : timedFields c = true) (hl : timedL c = 0) (hangle : timedAngle c = none)
    (hd : (s.locked x (.timedRead c) c (c.nsid.toNat, slbaOf c, slbaOf c + nlbOf c - 1, false)).readLbas sp c.nsid.toNat
        (lbaRun (slbaOf c) (nlbOf c)) =
      (⟨none, [], none, bs⟩, s.locked x (.timedRead c) c (c.nsid.toNat, slbaOf c, slbaOf c + nlbOf c - 1, false))) :
    ∃ t, exec (.timedRead c) s = .next t ∧ s.Answers t c .ok 0 0 bs.reverse.flatten ∧ t = { s with host := t.host } := by
  obtain ⟨halone, honly⟩ := h.locked_alone (.timedRead c) (c.nsid.toNat, slbaOf c, slbaOf c + nlbOf c - 1, false)
  obtain ⟨hspace, hblocks⟩ := s.taken_space x (.timedRead c) c c.nsid.toNat
  obtain ⟨t, ht, hans, ho⟩ := h.answered (by simp [nvmeRows]) hc hr halone (r := .ok) (dw0 := 0) (dw1 := 0) (data := bs.reverse.flatten)
    (lba := 0) (n := 0) (by
      rw [State.body_timedRead]
      unfold State.bodyTimedRead
      dsimp only
      rw [if_pos hl, State.rwCheck_of_ok (hspace.trans hsp) hf (Nat.le_trans hmax (Nat.le_of_eq hblocks.symm)) hrange]
      dsimp only
      rw [if_pos ⟨hl, by rw [hangle]; rfl⟩]
      unfold State.bodyTimedLaunched
      rw [hspace.trans hsp]
      dsimp only
      rw [State.withLock_of_none (State.noteLaunch_locks (h.taken_alone (.timedRead c)).2 ⟨rfl, rfl, rfl⟩ (h.taken_locks (.timedRead c))) rfl]
      exact State.reading_of_data hd)
  exact ⟨t, ht, hans, State.host_only_trans honly ho⟩

/-- A command that waits leaves beside its context what it found. -/
theorem State.waits_only (h : s.Only c x) (hi : i ∈ nvmeRows c) (hr : s.Ready x i) {w : Wait} {f : Ctx → Ctx}
    (hf : ∀ y, (f y).assoc = y.assoc ∧ (f y).qid = y.qid ∧ (f y).cid = y.cid)
    (hb : (s.taken x i c).body { x with instr := some i } i false =
      ((s.taken x i c).modCtx x.assoc x.qid x.cid f).waitFor { x with instr := some i } w)
    (hgo : ∀ (u : State) (y : Ctx), y.wait = w → u.mayGoOn y = false) : ∃ t, exec i s = .next t ∧ s.Waits t c w ∧ t = { s with host := t.host } := by
  obtain ⟨⟨-, -, hcpl⟩, hctxs⟩ := h.taken_alone i
  obtain ⟨hfa, hfq, hfi⟩ := hf { x with instr := some i }
  have hmod : ((s.taken x i c).modCtx x.assoc x.qid x.cid f).host.ctxs = [f { x with instr := some i }] := by
    change (s.taken x i c).host.ctxs.map _ = _
    rw [hctxs]
    simp [Ctx.is]
  have hnew : (((s.taken x i c).modCtx x.assoc x.qid x.cid f).waitFor { x with instr := some i } w).host.ctxs =
      [(f { x with instr := some i }).waiting (s.taken x i c).now w] := by
    change ((s.taken x i c).modCtx x.assoc x.qid x.cid f).host.ctxs.map _ = _
    rw [hmod]
    simp [Ctx.is, Ctx.waiting, hfa, hfq, hfi]
  obtain ⟨hexec, hwaits⟩ := h.waits_in hi hr hb hnew hcpl ⟨hfa, hfq, hfi⟩ rfl (hgo _ _ rfl)
  refine ⟨_, hexec, hwaits, ?_⟩
  rw [s.taken_only x i c]
  rfl

theorem launchCheck_of_window {l arrival : Nat} (h : arrival ≤ l) (k : l ≤ arrival + 60000000000) : launchCheck l arrival = none := by
  rw [launchCheck, if_neg (by omega), if_neg (by omega)]

theorem timedRead_waits {sp : Namespace} (h : s.Only c x) (hsp : s.lbaSpace x c.nsid.toNat = some sp)
    (hrange : slbaOf c + nlbOf c ≤ sp.nsze) (hmax : nlbOf c ≤ s.maxBlocks) (hr : s.Ready x (.timedRead c)) (hf : timedFields c = true)
    (hlo : x.arrival ≤ timedL c) (hpos : 0 < timedL c) (hhi : timedL c ≤ x.arrival + 60000000000) (hlate : s.tbNs < timedL c) :
    ∃ t, exec (.timedRead c) s = .next t ∧ s.Waits t c (.launch (timedL c) (timedAngle c)) ∧ t = { s with host := t.host } := by
  obtain ⟨hspace, hblocks⟩ := s.taken_space x (.timedRead c) c c.nsid.toNat
  have hns : (s.taken x (.timedRead c) c).tbNs = s.tbNs := by
    rw [s.taken_only x _ c]
    rfl
  refine State.waits_only h (by simp [nvmeRows]) hr (f := fun y => { y with launch := timedL c }) (fun y => ⟨rfl, rfl, rfl⟩) ?_ (fun u y hy => by
    rw [State.mayGoOn, hy])
  rw [State.body_timedRead]
  unfold State.bodyTimedRead
  dsimp only
  rw [if_neg (by omega), launchCheck_of_window hlo hhi]
  dsimp only
  rw [State.rwCheck_of_ok (hspace.trans hsp) hf (Nat.le_trans hmax (Nat.le_of_eq hblocks.symm)) hrange]
  dsimp only
  rw [if_neg (by omega), if_neg (by omega)]
  unfold State.launchAt
  rw [if_neg (by simp [hns, Nat.not_le.mpr hlate])]

/-! ## Writes (R23, R374 to R376) -/

/-- The pending write of a command. -/
def Ctx.pending (x : Ctx) (n : Nat) (l : List Nat) (d : List Byte) : PendWrite :=
  { assoc := x.assoc, qid := x.qid, cid := x.cid, ns := n, lbas := l, data := d, todo := List.range l.length }

/-- Nothing holds a write of LBAs back. -/
structure State.MayWrite (s : State) (sp : Namespace) (l : List Nat) (d : List Byte) : Prop where
  there : ∀ k ∈ l, ∀ m, sp.mediaOf k = some m → s.lostAt m = false
  media : s.pln.noMedia = false
  runs : s.stoppedFor (l.filterMap sp.mediaOf) = none
  armed : s.flag Adr.SPN_RETRACT Fld.SPN_RETRACT_armed = true
  room : d.isEmpty = true ∨ s.trailRoom l.length = true

/-- Whatever way it is asked of every LBA of a list, none lies in a lost extent. -/
theorem none_lost {sp : Namespace} {l : List Nat} {p : Nat → Bool} (hp : ∀ k m, sp.mediaOf k = some m → p k = !s.lostAt m) (h : l.all p = true) :
    ∀ k ∈ l, ∀ m, sp.mediaOf k = some m → s.lostAt m = false := by
  intro k hk m hm
  have := List.all_eq_true.mp h k hk
  rw [hp k m hm] at this
  simpa using this

/-- A list of which no LBA lies in a lost extent has none found there. -/
theorem find_none_lost {sp : Namespace} {l : List Nat} {q : Nat → Bool} (hq : ∀ k, sp.mediaOf k = none → q k = false)
    (hq' : ∀ k m, sp.mediaOf k = some m → q k = s.lostAt m) (h : ∀ k ∈ l, ∀ m, sp.mediaOf k = some m → s.lostAt m = false) : l.find? q = none := by
  rw [List.find?_eq_none]
  intro k hk
  cases hm : sp.mediaOf k with
  | none => simp [hq k hm]
  | some m => simp [hq' k m hm, h k hk m hm]

/-- The write pends, and its command waits for the medium. -/
theorem State.beginWrite_adds {sp : Namespace} {n : Nat} {l : List Nat} {d : List Byte} (h : v.MayWrite sp l d) (hctxs : v.host.ctxs = [y])
    (hkey : y.assoc = x.assoc ∧ y.qid = x.qid ∧ y.cid = x.cid) : (v.beginWrite x sp n l l d [] 0 0).host.ctxs = [y.waiting v.now .mediaWrite] ∧
      (v.beginWrite x sp n l l d [] 0 0).host.completions = v.host.completions ∧
      (v.beginWrite x sp n l l d [] 0 0).media = { v.media with writes := v.media.writes ++ [x.pending n l d] } ∧
      (v.beginWrite x sp n l l d [] 0 0).regs = v.regs := by
  obtain ⟨hthere, hmedia, hruns, harmed, hroom⟩ := h
  obtain ⟨ha, hq, hid⟩ := hkey
  have hadd : v.beginWrite x sp n l l d [] 0 0 = v.addWrite x sp n l d [] 0 0 := by
    unfold State.beginWrite
    rw [find_none_lost (fun k hk => by simp only [hk]) (fun k m hm => by simp only [hm]) hthere]
    dsimp only
    rw [if_neg (by simp [hmedia]), hruns]
    dsimp only
    rw [if_neg (by simp [harmed]), if_neg (by rcases hroom with h | h <;> simp [h])]
  rw [hadd]
  unfold State.addWrite
  extract_lets w es s1 s2
  have h2 : s2 = { s1 with acts := s2.acts } := by
    refine State.forActs_induct (P := fun u => u = { s1 with acts := u.acts }) (fun u a hu => ?_) rfl
    conv => lhs; rw [hu]
    rfl
  have hwait : (s2.waitFor x .mediaWrite).host.ctxs = [y.waiting v.now .mediaWrite] := by
    change s2.host.ctxs.map _ = _
    rw [h2]
    change v.host.ctxs.map _ = _
    rw [hctxs]
    simp [Ctx.is, Ctx.waiting, ha, hq, hid]
    rfl
  clear_value s2
  refine ⟨hwait, ?_, ?_, ?_⟩
  all_goals
    rw [h2]
    rfl

/-- A command that takes its lock and begins a write waits for the medium. -/
theorem write_waits {sp : Namespace} {n : Nat} {l : List Nat} {d : List Byte} (h : s.Only c x) (hi : i ∈ nvmeRows c) (hr : s.Ready x i)
    (hlock : lockOf i = some r) (hw : s.MayWrite sp l d)
    (hb : (s.taken x i c).body { x with instr := some i } i false = (s.taken x i c).withLock { x with instr := some i } i
      (fun t => t.beginWrite { x with instr := some i } sp n l l d [] 0 0)) : ∃ t, exec i s = .next t ∧ s.Waits t c .mediaWrite ∧
      t.media = { s.media with writes := s.media.writes ++ [x.pending n l d] } ∧ t.regs = s.regs := by
  obtain ⟨⟨-, -, hcpl⟩, hctxs⟩ := h.taken_alone i
  have hlocks := h.taken_locks i
  rw [State.withLock_of_none hlocks hlock, State.addLock_of_none hlocks] at hb
  have hmay : ((s.taken x i c).modHost (fun h => { h with locks := [grantedLock { x with instr := some i } r] })).MayWrite sp l d := by
    obtain ⟨hthere, hmedia, hruns, harmed, hroom⟩ := hw
    rw [s.taken_only x i c]
    exact ⟨hthere, hmedia, hruns, harmed, hroom⟩
  obtain ⟨hnew, hc, hm, hg⟩ := State.beginWrite_adds (x := { x with instr := some i }) (n := n) hmay hctxs ⟨rfl, rfl, rfl⟩
  obtain ⟨hexec, hwaits⟩ := h.waits_in (w := .mediaWrite) hi hr hb hnew (hc.trans hcpl) ⟨rfl, rfl, rfl⟩ rfl rfl
  refine ⟨_, hexec, hwaits, hm.trans ?_, hg.trans ?_⟩
  · rw [s.taken_only x i c]
    rfl
  · rw [s.taken_only x i c]
    rfl

theorem write_pends {sp : Namespace} (h : s.Only c x) (hsp : s.lbaSpace x c.nsid.toNat = some sp) (hrange : slbaOf c + nlbOf c ≤ sp.nsze)
    (hmax : nlbOf c ≤ s.maxBlocks) (hr : s.Ready x (.write c)) (hf : plainCdw12 c.cdw12 = true)
    (hw : s.MayWrite sp (lbaRun (slbaOf c) (nlbOf c)) (fitBytes c.data ((lbaRun (slbaOf c) (nlbOf c)).length * s.lbaSize))) :
    ∃ t, exec (.write c) s = .next t ∧ s.Waits t c .mediaWrite ∧ t.media = { s.media with writes := s.media.writes ++
      [x.pending c.nsid.toNat (lbaRun (slbaOf c) (nlbOf c)) (fitBytes c.data ((lbaRun (slbaOf c) (nlbOf c)).length * s.lbaSize))] } ∧
      t.regs = s.regs := by
  obtain ⟨hspace, hblocks⟩ := s.taken_space x (.write c) c c.nsid.toNat
  have hlocks := h.taken_locks (.write c)
  refine write_waits h (by simp [nvmeRows]) hr (r := (c.nsid.toNat, slbaOf c, slbaOf c + nlbOf c - 1, true)) rfl hw ?_
  have hsize : ((s.taken x (.write c) c).addLock x.assoc x.qid x.cid (c.nsid.toNat, slbaOf c, slbaOf c + nlbOf c - 1, true)).lbaSize = s.lbaSize := by
    rw [State.addLock_of_none hlocks, s.taken_only x _ c]
    rfl
  change State.bodyWrite _ _ _ c = _
  unfold State.bodyWrite
  rw [State.rwCheck_of_ok (hspace.trans hsp) hf (Nat.le_trans hmax (Nat.le_of_eq hblocks.symm)) hrange]
  dsimp only
  rw [State.withLock_of_none hlocks rfl, State.withLock_of_none hlocks rfl]
  dsimp only
  rw [hsize]

theorem writeZeroes_pends {sp : Namespace} (h : s.Only c x) (hsp : s.lbaSpace x c.nsid.toNat = some sp) (hrange : slbaOf c + nlbOf c ≤ sp.nsze)
    (hr : s.Ready x (.writeZeroes c)) (hz : bitOf c.cdw12.toNat 25 = false) (hw : s.MayWrite sp (lbaRun (slbaOf c) (nlbOf c)) []) :
    ∃ t, exec (.writeZeroes c) s = .next t ∧ s.Waits t c .mediaWrite ∧ t.media = { s.media with writes := s.media.writes ++
      [x.pending c.nsid.toNat (lbaRun (slbaOf c) (nlbOf c)) []] } ∧ t.regs = s.regs := by
  obtain ⟨hspace, -⟩ := s.taken_space x (.writeZeroes c) c c.nsid.toNat
  refine write_waits h (by simp [nvmeRows]) hr (r := (c.nsid.toNat, slbaOf c, slbaOf c + nlbOf c - 1, true)) rfl hw ?_
  change State.bodyWriteZeroes _ _ _ c = _
  unfold State.bodyWriteZeroes
  rw [hspace.trans hsp]
  dsimp only
  rw [if_neg (by omega), hz]
  rfl

theorem datasetManagement_answers {sp : Namespace} (h : s.Only c x) (hc : c.assoc < 1024) (hsp : s.lbaSpace x c.nsid.toNat = some sp)
    (hr : s.Ready x (.datasetManagement c)) (hranges : ((rangesOf c).filter (fun p => p.2 != 0)).any (fun p => decide (sp.nsze < p.1 + p.2)) = false)
    (hbit : bitOf c.cdw11.toNat 2 = false) :
    ∃ t, exec (.datasetManagement c) s = .next t ∧ s.Answers t c .ok 0 0 [] ∧ t = { s with host := t.host } := by
  obtain ⟨hspace, -⟩ := s.taken_space x (.datasetManagement c) c c.nsid.toNat
  refine h.answered_only (by simp [nvmeRows]) hc hr (lba := 0) (n := 0) ?_
  change State.bodyDatasetManagement _ _ _ c = _
  unfold State.bodyDatasetManagement
  rw [hspace.trans hsp]
  dsimp only
  rw [hranges, if_neg (by decide), hbit, if_pos (by decide)]

/-! ## Transform of direction 0 (R326, R391) -/

/-- The job of a Transform of direction 0. -/
def Ctx.xfJob (x : Ctx) (c : Cmd) : CmpJob :=
  { assoc := x.assoc, qid := x.qid, cid := x.cid, cls := x.cls, op := xfOp c, level := xfLevel c, input := fitBytes c.data c.len
    space := min (xfBlocks c * 4096) 16777216 }

theorem transform_queues {sp : Namespace} (h : s.Only c x) (hsp : s.lbaSpace x c.nsid.toNat = some sp) (hr : s.Ready x (.transform c))
    (hf : xfFields c = true) (hdir : xfDir c = false) (hrange : xfSlba c + xfBlocks c ≤ sp.nsze)
    (hlost : ∀ k ∈ lbaRun (xfSlba c) (xfBlocks c), ∀ m, sp.mediaOf k = some m → s.lostAt m = false) :
    ∃ t, exec (.transform c) s = .next t ∧ s.Waits t c .job ∧ t.cmp = s.cmp ++ [x.xfJob c] ∧ t.media = s.media ∧ t.regs = s.regs := by
  obtain ⟨⟨-, -, hcpl⟩, hctxs⟩ := h.taken_alone (.transform c)
  obtain ⟨hspace, -⟩ := s.taken_space x (.transform c) c c.nsid.toNat
  have htaken := s.taken_only x (.transform c) c
  have hlocks := h.taken_locks (.transform c)
  have hbody : (s.taken x (.transform c) c).body { x with instr := some (.transform c) } (.transform c) false =
      ((s.taken x (.transform c) c).modHost (fun h => { h with locks := [grantedLock { x with instr := some (.transform c) }
        (c.nsid.toNat, xfSlba c, xfSlba c + xfBlocks c - 1, !bitOf c.cdw10.toNat 8)] })).queueJob { x with instr := some (.transform c) }
          (xfOp c) (xfLevel c) (fitBytes c.data c.len) (min (xfBlocks c * 4096) 16777216) := by
    change State.bodyTransform _ _ _ c = _
    unfold State.bodyTransform
    rw [hspace.trans hsp]
    dsimp only
    rw [if_neg (by simp [hf]), if_neg (by omega), State.withLock_of_none hlocks rfl, State.addLock_of_none hlocks]
    rw [if_neg (by simp [hdir])]
    rw [find_none_lost (s := s) (fun k hk => by simp only [hk]) (fun k m hm => by
      simp only [hm]
      rw [htaken]
      rfl) hlost]
  obtain ⟨hexec, hwaits⟩ := h.waits_in (w := .job) (y := Ctx.waiting { x with instr := some (.transform c) } (s.taken x (.transform c) c).now .job)
    (by simp [nvmeRows]) hr hbody (by
      change (s.taken x (.transform c) c).host.ctxs.map _ = _
      rw [hctxs]
      simp [Ctx.is, Ctx.waiting]) hcpl ⟨rfl, rfl, rfl⟩ rfl rfl
  refine ⟨_, hexec, hwaits, ?_, ?_, ?_⟩
  all_goals
    rw [htaken]
    rfl

end

end Sys2Proof.Machine
end

section
/-! What a pass records on the medium, and what is only noted of it (R62, R63, R235, R237). -/

namespace Sys2Proof.Machine

open Sys2Proof

/-- From s to t nothing is recorded: the stored sectors, the write sequence number and the places of the sectors stay, and so does the host side. -/
structure MarksOnly (s t : State) : Prop where
  sectors : t.media.sectors = s.media.sectors
  wsn : t.media.wsn = s.media.wsn
  layout : t.media.layout = s.media.layout
  moved : t.media.moved = s.media.moved
  rebuilt : t.media.rebuilt = s.media.rebuilt
  host : t.host = s.host

namespace MarksOnly

variable {s t u : State}

theorem refl (s : State) : MarksOnly s s := ⟨rfl, rfl, rfl, rfl, rfl, rfl⟩

theorem trans (h : MarksOnly s t) (k : MarksOnly t u) : MarksOnly s u :=
  ⟨k.sectors.trans h.sectors, k.wsn.trans h.wsn, k.layout.trans h.layout, k.moved.trans h.moved, k.rebuilt.trans h.rebuilt, k.host.trans h.host⟩

theorem of_media (hm : t.media = s.media) (hh : t.host = s.host) : MarksOnly s t :=
  ⟨by rw [hm], by rw [hm], by rw [hm], by rw [hm], by rw [hm], hh⟩

theorem only (h : MarksOnly s t) (k : EventOnly t u) : MarksOnly s u := h.trans (of_media k.media k.host)

theorem event (h : MarksOnly s t) (id d e : Nat) : MarksOnly s (t.event id d e) := h.only (t.event_only id d e)

theorem actEvent (h : MarksOnly s t) (a : Fin 4) (o d e : Nat) : MarksOnly s (t.actEvent a o d e) := h.only (t.actEvent_only a o d e)

theorem ite {p : Prop} [Decidable p] (h : MarksOnly s t) (k : MarksOnly s u) : MarksOnly s (if p then t else u) := by
  split
  · exact h
  · exact k

/-- A change of the other parts of the media block. -/
theorem modMedia (h : MarksOnly s t) (f : Media → Media) (hs : (f t.media).sectors = t.media.sectors) (hw : (f t.media).wsn = t.media.wsn)
    (hl : (f t.media).layout = t.media.layout) (hm : (f t.media).moved = t.media.moved) (hr : (f t.media).rebuilt = t.media.rebuilt) :
    MarksOnly s (t.modMedia f) := h.trans ⟨hs, hw, hl, hm, hr, rfl⟩

theorem nowTrails (h : MarksOnly s t) (l : List Trail) : MarksOnly s (t.nowTrails l) := by
  have h1 : MarksOnly s (t.modMedia (fun m => { m with trailing := l })) := h.modMedia _ rfl rfl rfl rfl rfl
  unfold State.nowTrails
  exact .ite (h1.event _ _ _) h1

theorem noteCourse (h : MarksOnly s t) (x : Nat) : MarksOnly s (t.noteCourse x) := by
  unfold State.noteCourse
  split
  · exact h.modMedia _ rfl rfl rfl rfl rfl
  · exact h

theorem noteWritten (h : MarksOnly s t) (x : Nat) : MarksOnly s (t.noteWritten x) := by
  unfold State.noteWritten
  extract_lets n i missing broken s1
  have h1 : MarksOnly s s1 := by
    simp only [s1]
    split
    · exact h
    · exact (h.nowTrails _).modMedia _ rfl rfl rfl rfl rfl
  exact .ite (h1.noteCourse _) (h1.noteCourse _)

theorem forget (h : MarksOnly s t) (x : Nat) : MarksOnly s (t.forget x) := h.trans ⟨rfl, rfl, rfl, rfl, rfl, rfl⟩

theorem unclean (h : MarksOnly s t) (x : Nat) : MarksOnly s (t.unclean x) := h.trans ⟨rfl, rfl, rfl, rfl, rfl, rfl⟩

/-- The places and the size of the sectors are those of before. -/
theorem locate (h : MarksOnly s t) (x : Nat) : t.locate x = s.locate x := by
  unfold State.locate
  rw [h.layout, h.moved, h.rebuilt]

theorem lbaSize (h : MarksOnly s t) : t.lbaSize = s.lbaSize := by
  unfold State.lbaSize State.metaSize
  rw [h.layout]

end MarksOnly

/-! ## Recording a sector (R62) -/

theorem State.recordSector_eq {s : State} {x : Nat} {p : Locus} (h : s.locate x = some p) (d : List Byte) :
    s.recordSector x d = s.recordAt p.phys (scramble x (fitBytes d s.lbaSize)) x (kindOf x) 0 := by
  unfold State.recordSector
  rw [h]

/-- What is recorded stays while the rest is only noted. -/
theorem State.holds_of_record {s t : State} {x : Nat} {p : Locus} {d : List Byte} (h : s.locate x = some p) (hm : MarksOnly (s.recordSector x d) t) :
    t.Holds p.phys x d ∧ t.media.wsn = s.media.wsn ∧ s.SectorsBut [p.phys] t ∧ t.host = s.host := by
  rw [State.recordSector_eq h] at hm
  have hsize : t.lbaSize = s.lbaSize := hm.lbaSize
  have hwsn : t.media.wsn = s.media.wsn := hm.wsn
  refine ⟨?_, hwsn, fun k hk => ?_, hm.host⟩
  · unfold State.Holds
    rw [hsize, hwsn, hm.sectors]
    exact lookupKey_insert_same _ _ _
  · rw [hm.sectors]
    exact lookupKey_insert_other _ _ (by simpa using hk)

theorem fitBytes_of_length {l : List Byte} {n : Nat} (h : l.length = n) : fitBytes l n = l := by
  simp [fitBytes, slice, ← h]

/-- Bytes that are cut or filled to the size of a sector are recorded as the bytes they came from. -/
theorem State.Holds.of_fit {t : State} {p x : Nat} {d : List Byte} (h : t.Holds p x (fitBytes d t.lbaSize)) : t.Holds p x d := by
  unfold State.Holds at h ⊢
  rw [fitBytes_of_length (length_fitBytes _ _)] at h
  exact h

end Sys2Proof.Machine
end

section
/-! A pending write reaches the medium (R23, R235 to R238, R242, R375). -/

namespace Sys2Proof.Machine

open Sys2Proof

section
variable {s u : State} {o q c : Nat} {w : PendWrite} {x : Ctx} {sp : Namespace}

/-! ## The write ends with its last sector (R23) -/

/-- The LBAs of a write that has ended are unrecovered no more. -/
theorem State.clearUnrec_fold (s : State) (n : Nat) (l : List Nat) :
    l.foldl (fun (s : State) k => s.clearUnrec n k) s = { s with media := { s.media with unrec := (l.foldl (fun (s : State) k => s.clearUnrec n k) s).media.unrec } } := by
  refine foldl_induct (P := fun t => t = { s with media := { s.media with unrec := t.media.unrec } }) (fun t k _ ht => ?_) rfl
  conv => lhs; rw [ht]
  rfl

/-- What is left of the pending writes when those of a command are over. -/
def Media.writesBut (m : Media) (o q c : Nat) : List PendWrite := m.writes.filter (fun w => !(w.assoc == o && w.qid == q && w.cid == c))

theorem State.dropWrite_only (s : State) (o q c : Nat) :
    s.dropWrite o q c = { s with media := { s.media with writes := s.media.writesBut o q c }, acts := (s.dropWrite o q c).acts } := by
  unfold State.dropWrite
  rw [State.dropList_only]
  rfl

/-- A pass that leaves nothing of the write completes its command: the state after the pass, in which the write's LBAs are cleared and the write is
forgotten. -/
theorem mediaWriteDone_ends (ho : o < 1024) (hx : s.ctx o q c = some x)
    (hw : s.media.writes.find? (fun w => w.assoc == o && w.qid == q && w.cid == c) = some w) (hsp : s.spaceFor x.order w.ns = some sp)
    (hd : w.dealloc = []) (hrest : s.writePass.writeRest w sp w.todo = ([], u)) (hu : u.ctx o q c = some x) :
    ∃ t, exec (.mediaWriteDone o q c) s = .next t ∧
      t.host.completions = u.host.completions ++ [⟨o, q, c, 0, 0, false, w.dw0, w.dw1, []⟩] ∧ t.media.sectors = u.media.sectors ∧
      t.media.writes = u.media.writesBut o q c ∧ t.media.layout = u.media.layout ∧ (w.todo ≠ [] → t.media.wsn = u.media.wsn) := by
  obtain ⟨hxa, hxq, hxc, -⟩ := State.ctx_key hx
  have hexec : ∃ v : State, exec (.mediaWriteDone o q c) s = .next ((v.dropWrite o q c).complete x .ok w.dw0 w.dw1) ∧
      v.host = u.host ∧ v.media.sectors = u.media.sectors ∧ v.media.writes = u.media.writes ∧ v.media.layout = u.media.layout ∧
      (w.todo ≠ [] → v.media.wsn = u.media.wsn) := by
    change ∃ v : State, execMediaWriteDone o q c s = _ ∧ _
    unfold execMediaWriteDone
    rw [hw]
    dsimp -zeta only
    rw [hx]
    extract_lets order
    rw [show s.spaceFor order w.ns = some sp from hsp]
    dsimp -zeta only
    rw [hrest]
    extract_lets t s1 s2 s3
    have h1 : s1.host = u.host ∧ s1.media.sectors = u.media.sectors ∧ s1.media.writes = u.media.writes ∧ s1.media.layout = u.media.layout ∧
        (w.todo ≠ [] → s1.media.wsn = u.media.wsn) := by
      simp only [s1]
      split
      · rename_i he
        exact ⟨rfl, rfl, rfl, rfl, fun h => absurd he.symm h⟩
      · exact ⟨rfl, rfl, rfl, rfl, fun _ => rfl⟩
    clear_value s1
    have h2 := s1.clearUnrec_fold w.ns w.lbas
    have hs3 : s3 = s2.dropWrite o q c := by
      simp only [s3]
      rw [hd]
      rfl
    have hs2 : s2 = { s1 with media := { s1.media with unrec := s2.media.unrec } } := h2
    clear_value s2 s3
    obtain ⟨hh, hsec, hwr, hlay, hwsn⟩ := h1
    have hctx : s3.ctx o q c = some x := by
      rw [hs3, State.dropWrite_only, hs2, ← hu]
      change s1.host.ctxs.find? _ = u.host.ctxs.find? _
      rw [hh]
    have hnone : ¬((!t.1.isEmpty) = true) := by
      simp only [t]
      decide
    rw [if_neg hnone, hctx, hs3]
    refine ⟨s2, rfl, ?_, ?_, ?_, ?_, fun h => ?_⟩
    · rw [hs2]
      exact hh
    · rw [hs2]
      exact hsec
    · rw [hs2]
      exact hwr
    · rw [hs2]
      exact hlay
    · rw [hs2]
      exact hwsn h
  obtain ⟨v, hexec, hh, hsec, hwr, hlay, hwsn⟩ := hexec
  obtain ⟨hwork, -, hcpl⟩ := State.complete_facts (s := v.dropWrite o q c) (x := x) (by omega) .ok w.dw0 w.dw1 [] 0 0
  have hdrop := v.dropWrite_only o q c
  have hmedia := hwork.media
  refine ⟨_, hexec, ?_, ?_, ?_, ?_, fun h => ?_⟩
  · rw [hcpl, hdrop, ← hh, Ctx.completion, hxa, hxq, hxc]
    rfl
  · rw [hmedia, hdrop]
    exact hsec
  · rw [hmedia, hdrop]
    change v.media.writesBut o q c = _
    unfold Media.writesBut
    rw [hwr]
  · rw [hmedia, hdrop]
    exact hlay
  · rw [hmedia, hdrop]
    exact hwsn h

/-- A pass that leaves some of the write, and not all, holds it. -/
theorem mediaWriteDone_holds {l : List Nat} (hx : s.ctx o q c = some x)
    (hw : s.media.writes.find? (fun w => w.assoc == o && w.qid == q && w.cid == c) = some w) (hsp : s.spaceFor x.order w.ns = some sp)
    (hrest : s.writePass.writeRest w sp w.todo = (l, u)) (hl : l ≠ []) (hne : l ≠ w.todo) :
    exec (.mediaWriteDone o q c) s = .next (u.modMedia (fun m => { m with
      writes := m.writes.map (fun v => if v.assoc = o ∧ v.qid = q ∧ v.cid = c then { v with todo := l, held := true } else v) })) := by
  change execMediaWriteDone o q c s = _
  unfold execMediaWriteDone
  rw [hw]
  dsimp -zeta only
  rw [hx]
  extract_lets order
  rw [show s.spaceFor order w.ns = some sp from hsp]
  dsimp -zeta only
  rw [hrest]
  dsimp only
  rw [if_neg hne, if_pos (by simpa using hl)]

/-! ## One sector that nothing holds (R235, R375) -/

/-- The sector of an LBA may be written now: its unit is on the medium and not missing, its surface may be written, and neither its truss, a
rebuild, its course nor a cut holds it. -/
structure State.MayPut (s : State) (w : PendWrite) (y : Nat) : Prop where
  unit : s.media.units.contains (y / 64) = true
  there : s.missingAt y = false
  place : s.mayPlace (8 * s.actAt y) = true
  trail : s.newTrail y = false
  lock : s.media.rebuildLock ≠ some (y / 576)
  room : s.roomFor [y] = true
  whole : s.cutAt w.assoc w.qid w.cid y = false

theorem State.writeOne_puts {k lba y : Nat} (hl : w.lbas[k]? = some lba) (hm : sp.mediaOf lba = some y) (h : s.MayPut w y) :
    s.writeOne w sp k = (true, (s.putSector y (s.writeData w.data k)).unclean y) := by
  obtain ⟨hunit, hthere, hplace, htrail, hlock, hroom, hwhole⟩ := h
  have hat : s.writtenAt y = y := if_neg (by rw [hthere]; decide)
  have hunits : s.unitSectors y = [y] := if_pos (by rw [hunit]; rfl)
  unfold State.writeOne
  rw [hl, Option.bind_some, hm, Option.map_some]
  dsimp only
  rw [hat, hunits, hplace, htrail, List.map_singleton, hat, hroom, hwhole, if_neg (by decide), if_neg (by simp), if_neg hlock, if_neg (by decide),
    if_neg (by decide), List.foldl_cons, List.foldl_nil, if_pos rfl]

/-- The sector holds the data under the next write sequence number. -/
theorem State.putSector_holds {y : Nat} {p : Locus} (hp : s.locate y = some p) (hm : s.missingAt y = false) (d : List Byte) :
    ((s.putSector y d).unclean y).Holds p.phys y d ∧ ((s.putSector y d).unclean y).media.wsn = s.media.wsn ∧
      s.SectorsBut [p.phys] ((s.putSector y d).unclean y) ∧ ((s.putSector y d).unclean y).host = s.host := by
  have hat : s.writtenAt y = y := if_neg (by rw [hm]; decide)
  have hfield : s.fieldFor y d = fitBytes d s.lbaSize := if_neg (by rw [hm]; decide)
  have hmarks : MarksOnly (s.recordSector y (fitBytes d s.lbaSize)) ((s.putSector y d).unclean y) := by
    unfold State.putSector
    rw [hat, hfield]
    exact ((((MarksOnly.refl (s.recordSector y (fitBytes d s.lbaSize))).forget y).noteWritten y).modMedia _ rfl rfl rfl rfl rfl).unclean y
  obtain ⟨hholds, hrest⟩ := State.holds_of_record hp hmarks
  have hsize : ((s.putSector y d).unclean y).lbaSize = s.lbaSize := by
    have h := hmarks.lbaSize
    rw [State.recordSector_eq hp] at h
    exact h
  refine ⟨State.Holds.of_fit ?_, hrest⟩
  rw [hsize]
  exact hholds

theorem mediaWriteDone_puts (ho : o < 1024) (hx : s.ctx o q c = some x)
    (hw : s.media.writes.find? (fun w => w.assoc == o && w.qid == q && w.cid == c) = some w) (hsp : s.spaceFor x.order w.ns = some sp)
    (hd : w.dealloc = []) {k lba y : Nat} {p : Locus} (htodo : w.todo = [k]) (hl : w.lbas[k]? = some lba) (hm : sp.mediaOf lba = some y)
    (hp : s.locate y = some p) (h : s.MayPut w y) : ∃ t, exec (.mediaWriteDone o q c) s = .next t ∧ t.Holds p.phys y (s.writeData w.data k) ∧
      t.media.wsn = s.media.wsn + 1 ∧ s.SectorsBut [p.phys] t ∧
      t.host.completions = s.host.completions ++ [⟨o, q, c, 0, 0, false, w.dw0, w.dw1, []⟩] := by
  obtain ⟨hunit, hthere, hplace, htrail, hlock, hroom, hwhole⟩ := h
  have hmay : s.writePass.MayPut w y := ⟨hunit, hthere, hplace, htrail, hlock, hroom, hwhole⟩
  obtain ⟨hholds, hwsn, hbut, hhost⟩ := State.putSector_holds (s := s.writePass) (p := p) hp hthere (s.writeData w.data k)
  have hone : s.writePass.writeOne w sp k = (true, (s.writePass.putSector y (s.writeData w.data k)).unclean y) := State.writeOne_puts hl hm hmay
  generalize (s.writePass.putSector y (s.writeData w.data k)).unclean y = u at *
  have hrest : s.writePass.writeRest w sp w.todo = ([], u) := by
    rw [htodo, State.writeRest, hone]
    rfl
  have hctx : u.ctx o q c = some x := by
    rw [State.ctx, hhost]
    exact hx
  obtain ⟨t, ht, hcpl, hsec, -, hlay, hnum⟩ := mediaWriteDone_ends ho hx hw hsp hd hrest hctx
  have hnum := hnum (by rw [htodo]; exact List.cons_ne_nil _ _)
  refine ⟨t, ht, ?_, hnum.trans hwsn, fun j hj => ?_, ?_⟩
  · have hsize : t.lbaSize = u.lbaSize := by
      unfold State.lbaSize State.metaSize
      rw [hlay]
    unfold State.Holds at hholds ⊢
    rw [hsec, hnum, hsize]
    exact hholds
  · rw [hsec]
    exact hbut j hj
  · rw [hcpl, hhost]
    rfl

end

/-- Settles O55: a read returns its sectors, a write pends until the medium has it; a pass that writes its last sector completes it, and one that
leaves a sector holds it. -/
theorem readWriteRows : Obligations.ReadWriteRows := by
  constructor
  · intro s c x sp h hc hsp l
    refine ⟨fun hrange hmax => ⟨?_, ?_, ?_, ?_⟩, ?_, ?_, ?_⟩
    · intro bs hr hf hd
      exact read_answers h hc hsp hrange hmax hr hf hd
    · intro bs hr hf hl hangle hd
      exact timedRead_answers h hc hsp hrange hmax hr hf hl hangle hd
    · intro hr hf hlo hpos hhi hlate
      exact timedRead_waits h hsp hrange hmax hr hf hlo hpos hhi hlate
    · intro hr hf hall hmedia hruns harmed hroom
      obtain ⟨ha, hq, hid⟩ := h.key
      have hw := write_pends h hsp hrange hmax hr hf ⟨none_lost (fun k m hm => by simp only [hm]) hall, hmedia, hruns, harmed, .inr hroom⟩
      rw [Ctx.pending, ha, hq, hid] at hw
      exact hw
    · intro hrange hr hz hall hmedia hruns harmed
      obtain ⟨ha, hq, hid⟩ := h.key
      have hw := writeZeroes_pends h hsp hrange hr hz ⟨none_lost (fun k m hm => by simp only [hm]) hall, hmedia, hruns, harmed, .inl rfl⟩
      rw [Ctx.pending, ha, hq, hid] at hw
      exact hw
    · intro hr hranges hbit
      exact datasetManagement_answers h hc hsp hr hranges hbit
    · intro hr hf hdir hrange hall
      obtain ⟨ha, hq, hid⟩ := h.key
      obtain ⟨t, ht, hwaits, hcmp, hmedia, hregs⟩ := transform_queues h hsp hr hf hdir hrange (none_lost (fun k m hm => by simp only [hm]) hall)
      exact ⟨t, ht, hwaits, ⟨x.xfJob c, hcmp, ha, hq, hid, rfl, rfl, rfl, rfl⟩, hmedia, hregs⟩
  · intro s o q c w x sp ho hx hw hsp hd
    refine ⟨fun l u hrest hu => ⟨fun hl => ?_, fun hl hne => ?_⟩, ?_⟩
    · rw [hl] at hrest
      obtain ⟨t, ht, hcpl, hsec, hwr, -⟩ := mediaWriteDone_ends ho hx hw hsp hd hrest hu
      exact ⟨t, ht, hcpl, hsec, hwr⟩
    · exact ⟨_, mediaWriteDone_holds hx hw hsp hrest hl hne, rfl, rfl, rfl⟩
    · intro k lba y p htodo hl hm hp hunit hthere hplace htrail hlock hroom hwhole
      have hkey : (w.assoc = o ∧ w.qid = q) ∧ w.cid = c := by simpa using List.find?_some hw
      refine mediaWriteDone_puts ho hx hw hsp hd htodo hl hm hp ⟨hunit, hthere, hplace, htrail, hlock, hroom, ?_⟩
      rw [hkey.1.1, hkey.1.2, hkey.2]
      exact hwhole

end Sys2Proof.Machine
end

section
/-! What the layers of recovery deliver (R226 to R229, R233). -/

namespace Sys2Proof.Machine

open Sys2Proof

/-- An event of class corrected stores to the event count and to the count of dropped patina entries. -/
theorem State.noteEvent_reg {s : State} {a : Nat} (hcnt : a ≠ Adr.FLT_CNT) (hdrop : a ≠ Adr.PAT_DROP) (id : Nat) (c : EvClass) (d e fl : Nat) :
    (s.noteEvent id c d e fl).reg a = s.reg a := by
  have hcapture (t : State) (p : PatEntry) : (t.patCapture p).reg a = t.reg a := by
    unfold State.patCapture
    split
    · extract_lets u
      split <;> rfl
    · exact State.reg_setFld_other _ _ _ hdrop
  have hcount (f : Fld) : (s.countFld Adr.FLT_CNT f).reg a = s.reg a := State.reg_setFld_other _ _ _ hcnt
  unfold State.noteEvent
  extract_lets f s0 n s1 ent lat
  split
  · exact (hcapture _ _).trans (hcount f)
  · exact hcount f

theorem State.actEvent_corrected {s : State} {a off : Nat} (h : eventClass (actEventBase a + off) = some .corrected) {r : Nat} (hcnt : r ≠ Adr.FLT_CNT)
    (hdrop : r ≠ Adr.PAT_DROP) (d e : Nat) : (s.actEvent a off d e).reg r = s.reg r := by
  unfold State.actEvent State.eventIn State.eventAt
  rw [h]
  exact State.noteEvent_reg hcnt hdrop _ _ _ _ _

/-! ## Delivery -/

/-- Recovery leaves what it reads: nothing is recorded on the medium, the layout's units and the retry steps stay, and no sector is erased anew. -/
structure State.Recovers (s t : State) : Prop where
  marks : MarksOnly s t
  units : t.media.units = s.media.units
  steps : ∀ a r, r < 8 → t.reg (Adr.MDI_RSTEP a r) = s.reg (Adr.MDI_RSTEP a r)
  erased : ∀ e ∈ t.media.erased, e ∈ s.media.erased

/-- Sector x is in DRAM with data d and is erased no more (R226). -/
def State.Delivered (t : State) (x : Nat) (d : List Byte) : Prop := lookupKey t.media.dram x = some d ∧ ∀ e ∈ t.media.erased, e.media ≠ x

namespace State.Recovers

variable {s t u : State}

theorem refl (s : State) : s.Recovers s := ⟨.refl s, rfl, fun _ _ _ => rfl, fun _ h => h⟩

theorem trans (h : s.Recovers t) (k : t.Recovers u) : s.Recovers u :=
  ⟨h.marks.trans k.marks, k.units.trans h.units, fun a r hr => (k.steps a r hr).trans (h.steps a r hr), fun e he => h.erased e (k.erased e he)⟩

/-- What the media block and the registers do not hold does not matter. -/
theorem of_same (hm : t.media = s.media) (hh : t.host = s.host) (hr : t.regs = s.regs) : s.Recovers t :=
  ⟨.of_media hm hh, by rw [hm], fun _ _ _ => by unfold State.reg; rw [hr], fun e he => by rwa [hm] at he⟩

theorem retryLimit (h : s.Recovers t) (x : Nat) {r : Nat} (hr : r < 8) : t.retryLimit x r = s.retryLimit x r := by
  unfold State.retryLimit
  rw [h.marks.locate]
  cases s.locate x with
  | none => rfl
  | some p =>
    dsimp only
    unfold State.fld
    rw [h.steps _ r hr]

theorem readable (h : s.Recovers t) (x : Nat) : t.readable x = s.readable x := by
  unfold State.readable State.expectedAt State.recordedAt
  rw [h.marks.locate, h.marks.lbaSize, h.marks.sectors]

theorem restOfTruss (h : s.Recovers t) (n j i : Nat) : t.restOfTruss n j i = s.restOfTruss n j i := by
  unfold State.restOfTruss State.onMedium State.fieldAt State.recordedAt
  simp only [h.marks.lbaSize, h.marks.locate, h.units, h.marks.sectors]

end State.Recovers

theorem State.deliver_recovers (s : State) (x : Nat) (d : List Byte) : s.Recovers (s.deliver x d) :=
  ⟨⟨rfl, rfl, rfl, rfl, rfl, rfl⟩, rfl, fun _ _ _ => rfl, fun _ he => (List.mem_filter.mp he).1⟩

theorem State.deliver_delivered (s : State) (x : Nat) (d : List Byte) : (s.deliver x d).Delivered x d := by
  refine ⟨lookupKey_insert_same _ _ _, fun e he => ?_⟩
  simpa using (List.mem_filter.mp he).2

/-- Another sector's delivery leaves a delivered one so, and so does a delivery of the same data. -/
theorem State.Delivered.deliver {t : State} {x y : Nat} {d d' : List Byte} (h : t.Delivered x d) (hd : x = y → d' = d) : (t.deliver y d').Delivered x d := by
  refine ⟨?_, fun e he => h.2 e (List.mem_filter.mp he).1⟩
  by_cases hxy : x = y
  · rw [hxy, ← hd hxy]
    exact lookupKey_insert_same _ _ _
  · exact (lookupKey_insert_other _ _ hxy).trans h.1

/-- Deliveries one after the other: each step delivers what is due of its sector, and leaves what is due of the others. -/
theorem foldl_delivers {s : State} {step : State → Nat → State} {due : Nat → List Byte → Prop} {l : List Nat}
    (hstep : ∀ t y, s.Recovers t → s.Recovers (step t y) ∧ (∀ d, due y d → (step t y).Delivered y d) ∧
      ∀ z d, due z d → t.Delivered z d → (step t y).Delivered z d) {t : State} (ht : s.Recovers t) :
    s.Recovers (l.foldl step t) ∧ ∀ y ∈ l, ∀ d, due y d → (l.foldl step t).Delivered y d := by
  induction l generalizing t with
  | nil => exact ⟨ht, fun _ h => absurd h List.not_mem_nil⟩
  | cons y l ih =>
    obtain ⟨hrec, hdue, -⟩ := hstep t y ht
    obtain ⟨hall, hl⟩ := ih hrec
    refine ⟨hall, fun z hz d hd => ?_⟩
    rcases List.mem_cons.mp hz with rfl | hz
    · exact (foldl_induct (P := fun u => s.Recovers u ∧ u.Delivered z d)
        (fun u k _ hu => ⟨(hstep u k hu.1).1, (hstep u k hu.1).2.2 z d hd hu.2⟩) ⟨hrec, hdue d hd⟩).2
    · exact hl z hz d hd

/-! ## Layers 2 and 3 (R227, R228) -/

/-- A recovery is a delivery, with its counts and its event (R233). -/
theorem State.recovered_delivers (s : State) (x : Nat) (course : Bool) (d : List Byte) :
    s.Recovers (s.recovered x course d) ∧ ∀ z e, (s.recovered x course d).Delivered z e ↔ (s.deliver x d).Delivered z e := by
  have hclass (a : Fin 4) : eventClass (actEventBase a + if course then 0x71 else 0x70) = some .corrected := by
    decide +revert
  unfold State.recovered
  extract_lets a s1
  have hact : ∃ b : Fin 4, a = b := by
    simp only [a]
    split
    · exact ⟨_, rfl⟩
    · exact ⟨0, rfl⟩
  obtain ⟨b, hb⟩ := hact
  have h1 : s1.media.erased = (s.deliver x d).media.erased ∧ s1.media.dram = (s.deliver x d).media.dram ∧ s.Recovers s1 := by
    simp only [s1]
    cases course
    all_goals exact ⟨rfl, rfl, ⟨⟨rfl, rfl, rfl, rfl, rfl, rfl⟩, rfl, fun _ _ _ => rfl, fun _ he => (List.mem_filter.mp he).1⟩⟩
  rw [hb]
  clear_value s1 a
  obtain ⟨herased, hdram, hrec⟩ := h1
  have hevent := (s1.countFld (Adr.MDI_CNT0 b) (if course then Fld.MDI_CNT0_course_ok else Fld.MDI_CNT0_retry_ok)).actEvent_only b
    (if course then 0x71 else 0x70) 0 0
  refine ⟨hrec.trans ⟨.of_media hevent.media hevent.host, by rw [hevent.media]; rfl, fun k r hr => ?_, fun e he => ?_⟩, fun z e => ?_⟩
  · rw [State.actEvent_corrected (hclass b) (by simp only [Adr.MDI_RSTEP, Adr.FLT_CNT]; omega) (by simp only [Adr.MDI_RSTEP, Adr.PAT_DROP]; omega)]
    exact State.reg_setFld_other _ _ _ (by simp only [Adr.MDI_RSTEP, Adr.MDI_CNT0]; omega)
  · rw [hevent.media] at he
    exact he
  · unfold State.Delivered
    rw [hevent.media]
    change _ = _ ∧ (∀ e ∈ s1.media.erased, _) ↔ _
    rw [herased, ← hdram]
    rfl

/-- Layer 2 delivers what it rebuilds of each erased sector of the course (R227). -/
theorem courseLayer_delivers (s : State) (l : List Nat) (f : Nat → List Byte) :
    s.Recovers (l.foldl (fun (t : State) y => t.recovered y true (f y)) s) ∧
      ∀ y ∈ l, (l.foldl (fun (t : State) y => t.recovered y true (f y)) s).Delivered y (f y) := by
  have h := foldl_delivers (s := s) (step := fun (t : State) y => t.recovered y true (f y)) (due := fun y d => d = f y) (l := l) (fun t y ht => ?_) (.refl s)
  · exact ⟨h.1, fun y hy => h.2 y hy _ rfl⟩
  · obtain ⟨hrec, hiff⟩ := t.recovered_delivers y true (f y)
    refine ⟨ht.trans hrec, fun d hd => ?_, fun z d hd hz => ?_⟩
    · rw [hiff, hd]
      exact t.deliver_delivered _ _
    · rw [hiff]
      exact hz.deliver (fun h => by rw [hd, h])

/-- What retry step r delivers of a sector: its data, where the decoder converged within the step's iterations (R228). -/
def State.RetryDue (s : State) (r : Nat) (found : List (Nat × Nat)) (y : Nat) (d : List Byte) : Prop :=
  ∃ n, lookupKey found y = some n ∧ 1 ≤ n ∧ n ≤ s.retryLimit y r ∧ s.readable y = some d

theorem State.retried_delivers {s t : State} {r : Nat} (hr : r < 8) (found : List (Nat × Nat)) (y : Nat) (ht : s.Recovers t) :
    s.Recovers (t.retried r found y) ∧ (∀ d, s.RetryDue r found y d → (t.retried r found y).Delivered y d) ∧
      ∀ z d, s.RetryDue r found z d → t.Delivered z d → (t.retried r found y).Delivered z d := by
  unfold State.retried
  rw [ht.readable, ht.retryLimit y hr]
  split
  case h_1 n d hn hd =>
    split
    case isTrue h =>
      refine ⟨ht.trans (t.recovered_delivers _ _ _).1, fun d' hdue => ?_, fun z d' hdue hz => ?_⟩
      · obtain ⟨-, -, -, -, hread⟩ := hdue
        obtain rfl : d = d' := Option.some.inj (hd.symm.trans hread)
        rw [(t.recovered_delivers _ _ _).2]
        exact t.deliver_delivered _ _
      · obtain ⟨-, -, -, -, hread⟩ := hdue
        rw [(t.recovered_delivers _ _ _).2]
        refine hz.deliver (fun hzy => ?_)
        rw [hzy] at hread
        exact Option.some.inj (hd.symm.trans hread)
    case isFalse h =>
      refine ⟨ht, fun d' hdue => ?_, fun _ _ _ hz => hz⟩
      obtain ⟨m, hm, hlo, hhi, -⟩ := hdue
      obtain rfl : n = m := Option.some.inj (hn.symm.trans hm)
      exact absurd ⟨hlo, hhi⟩ h
  case h_2 hnone =>
    refine ⟨ht, fun d' hdue => ?_, fun _ _ _ hz => hz⟩
    obtain ⟨m, hm, -, -, hd⟩ := hdue
    exact absurd hd (hnone m d' hm)

theorem State.retryAdapt_recovers (s : State) (x r : Nat) : s.Recovers (s.retryAdapt x r) := by
  unfold State.retryAdapt
  split
  · dsimp only
    split
    · exact .of_same rfl rfl rfl
    · exact .refl s
  · exact .refl s

end Sys2Proof.Machine
end

section
/-! The layers of recovery of an erased sector (R226 to R229). -/

namespace Sys2Proof.Machine

open Sys2Proof

section
variable {s : State} {x : Nat} {e : Erased}

theorem State.courseLayer_of_applies {k : Nat × Nat × Nat} {lost : List Nat} (hk : s.courseOf x = some k) (ha : s.courseApplies x = true)
    (hl : (s.lostPositions x lost).length ≤ 4) : s.courseLayer x lost =
      (true, (s.erasedWith x).foldl (fun (t : State) y => t.recovered y true (s.rebuiltFrom k (s.lostPositions x lost) y)) s) := by
  unfold State.courseLayer
  rw [hk]
  exact if_pos (by simp [ha, hl])

theorem State.courseLayer_of_not {lost : List Nat} (h : s.courseApplies x = false ∨ 4 < (s.lostPositions x lost).length) :
    s.courseLayer x lost = (false, s) := by
  unfold State.courseLayer
  dsimp only
  split
  · refine if_neg ?_
    rw [Bool.and_eq_true, decide_eq_true_iff]
    rintro ⟨ha, hl⟩
    rcases h with h | h
    · rw [h] at ha
      exact absurd ha (by decide)
    · omega
  · rfl

/-- Course recovery takes a sector at layer 2 that may be recovered (R227). -/
theorem exec_courseRecovery (he : s.media.erasedAt x = some e) (hr : s.recoverable x = true) (h2 : e.layer = 2) (lost : List Nat) :
    exec (.courseRecovery x lost) s = .next (if (s.courseLayer x lost).1 then (s.courseLayer x lost).2.settle else s.afterCourse x) := by
  change execCourseRecovery x lost s = _
  unfold execCourseRecovery
  rw [he]
  exact if_neg (by simp [h2, hr])

theorem courseRecovery_delivers (he : s.media.erasedAt x = some e) (hr : s.recoverable x = true) (h2 : e.layer = 2) {k : Nat × Nat × Nat} {lost : List Nat}
    (hk : s.courseOf x = some k) (ha : s.courseApplies x = true) (hl : (s.lostPositions x lost).length ≤ 4) :
    ∃ u : State, exec (.courseRecovery x lost) s = .next u.settle ∧ s.Recovers u ∧
      ∀ y ∈ s.erasedWith x, u.Delivered y (s.rebuiltFrom k (s.lostPositions x lost) y) := by
  refine ⟨_, ?_, courseLayer_delivers s (s.erasedWith x) (s.rebuiltFrom k (s.lostPositions x lost))⟩
  rw [exec_courseRecovery he hr h2, State.courseLayer_of_applies hk ha hl]
  rfl

theorem State.retryMax_le (s : State) (x : Nat) : s.retryMax x ≤ 8 := by
  unfold State.retryMax
  split
  · exact Nat.min_le_right _ _
  · exact Nat.zero_le _

theorem State.retryStep_media (s : State) (r : Nat) (e : Erased) : (s.retryStep r e).media = e.media ∧ (s.retryStep r e).layer = 2 := by
  unfold State.retryStep
  split <;> exact ⟨rfl, rfl⟩

/-- A retry delivers what its step reads, and sends the rest of the course back to layer 2 (R228). -/
theorem readRetry_delivers (he : s.media.erasedAt x = some e) (hr : s.recoverable x = true) (h3 : e.layer = 3) (hmax : e.retry < s.retryMax x)
    (found : List (Nat × Nat)) :
    ∃ u : State, exec (.readRetry x found) s = .next u.settle ∧ (∀ d ∈ u.media.erased, d.media ∈ s.erasedWith x → d.layer = 2) ∧
      (∀ y ∈ s.erasedWith x, ∀ d, s.RetryDue e.retry found y d → u.Delivered y d) ∧ u.media.sectors = s.media.sectors ∧ u.host = s.host := by
  have hlt : e.retry < 8 := Nat.lt_of_lt_of_le hmax (s.retryMax_le x)
  obtain ⟨hrec, hall⟩ := foldl_delivers (s := s) (step := fun (t : State) y => t.retried e.retry found y) (due := s.RetryDue e.retry found)
    (l := s.erasedWith x) (fun t y ht => State.retried_delivers hlt found y ht) (s.retryAdapt_recovers x e.retry)
  refine ⟨((s.erasedWith x).foldl (fun (t : State) y => t.retried e.retry found y) (s.retryAdapt x e.retry)).modMedia (fun m => { m with
    erased := m.erased.map (fun d => if (s.erasedWith x).contains d.media then s.retryStep e.retry d else d) }), ?_, fun d hd hx => ?_, fun y hy d hdue => ?_,
    hrec.marks.sectors, hrec.marks.host⟩
  · change execReadRetry x found s = _
    unfold execReadRetry
    rw [he]
    exact if_neg (by simp [h3, hr, hmax])
  · obtain ⟨z, -, rfl⟩ := List.mem_map.mp hd
    by_cases hz : (s.erasedWith x).contains z.media = true
    · rw [if_pos hz]
      exact (s.retryStep_media _ _).2
    · rw [if_neg hz] at hx
      exact absurd (by simpa using hx) hz
  · obtain ⟨hdram, hgone⟩ := hall y hy d hdue
    refine ⟨hdram, fun z hz => ?_⟩
    obtain ⟨v, hv, rfl⟩ := List.mem_map.mp hz
    have hmedia : (if (s.erasedWith x).contains v.media then s.retryStep e.retry v else v).media = v.media := by
      split
      · exact (s.retryStep_media _ _).1
      · rfl
    rw [hmedia]
    exact hgone v hv

/-- Layer 4 takes a sector whose helpers serve, or that it does not apply to (R229). -/
theorem exec_trussRecovery (he : s.media.erasedAt x = some e) (hr : s.recoverable x = true) (h4 : e.layer = 4)
    (hup : ¬(s.trussApplies x = true ∧ (s.helperDown x).isSome = true)) :
    exec (.trussRecovery x true) s = .next (if s.trussApplies x then (s.trussDelivered x).settle else (s.unrecovered x).settle) := by
  change execTrussRecovery x true s = _
  unfold execTrussRecovery
  rw [he]
  dsimp only
  rw [if_neg (by simpa [h4, hr] using hup), Bool.and_true, apply_ite Host.Outcome.next]

theorem State.trussDelivered_media (s : State) (x : Nat) : (s.trussDelivered x).media =
    { (s.delivered x (s.restOfTruss (x / 576) (x % 576 / 64) (x % 64))).media with byTruss := s.media.byTruss + 1 } :=
  (State.event_only _ 0x380 0 0).media

theorem State.trussDelivered_host (s : State) (x : Nat) : (s.trussDelivered x).host = s.host := (State.event_only _ 0x380 0 0).host

end

/-- Settles O24: layers 2 and 3 deliver one erased sector after another, and neither reads what a delivery changes. -/
theorem recoveryLayers : Obligations.RecoveryLayers := by
  intro s x e he hr
  refine ⟨fun lost k h2 hk ha hl => ?_, fun lost h2 hno => ?_, fun found h3 hmax => ?_, fun h4 ha hup => ?_, fun h4 ha hdown => ?_, fun h4 ha => ?_⟩
  · obtain ⟨u, hu, hrec, hall⟩ := courseRecovery_delivers he hr h2 hk ha hl
    exact ⟨u, hu, fun d hd hx => (hall _ hx).2 d hd rfl, fun y hy => (hall y hy).1, hrec.marks.sectors, hrec.marks.host⟩
  · rw [exec_courseRecovery he hr h2, State.courseLayer_of_not hno]
    rfl
  · obtain ⟨u, hu, hlayer, hall, hsec, hhost⟩ := readRetry_delivers he hr h3 hmax found
    exact ⟨u, hu, hlayer, fun y hy n d hn hlo hhi hread => hall y hy d ⟨n, hn, hlo, hhi, hread⟩, hsec, hhost⟩
  · have hmedia := s.trussDelivered_media x
    obtain ⟨hdram, hgone⟩ := s.deliver_delivered x (s.restOfTruss (x / 576) (x % 576 / 64) (x % 64))
    refine ⟨s.trussDelivered x, ?_, fun d hd => ?_, ?_, ?_, ?_, s.trussDelivered_host x⟩
    · rw [exec_trussRecovery he hr h4 (by simp [hup]), if_pos ha]
    · rw [hmedia] at hd
      exact hgone d hd
    · rw [hmedia]
      exact hdram
    · rw [hmedia]
    · rw [hmedia]
      rfl
  · change execTrussRecovery x true s = _
    unfold execTrussRecovery
    rw [he]
    exact if_pos (.inr (.inr ⟨ha, hdown⟩))
  · rw [exec_trussRecovery he hr h4 (by simp [ha]), if_neg (by simp [ha])]

end Sys2Proof.Machine
end

section
/-! The ends of a recovery: its limit, the reads of an actuator out of service, the rewrite and the write retry (R230, R231, R233, R234). -/

namespace Sys2Proof.Machine

open Sys2Proof

section
variable {s : State} {o q c : Nat} {x : Ctx} {i : Instr}

/-! ## The recovery limit (R230) -/

theorem recoveryLimitExpiry_waits {t0 : Nat} (hx : s.ctx o q c = some x) (hi : x.instr = some i) (hw : x.wait = .recovery) (hf : x.recovFrom = some t0)
    (h : s.now < t0 + s.recoveryLimit x) : exec (.recoveryLimitExpiry o q c) s = .next s := by
  change execRecoveryLimitExpiry o q c s = _
  unfold execRecoveryLimitExpiry
  rw [hx]
  dsimp only
  rw [hi, hw, hf]
  exact if_pos h

theorem recoveryLimitExpiry_ends {t0 : Nat} (hx : s.ctx o q c = some x) (ho : o < 1024) (hi : x.instr = some i) (hw : x.wait = .recovery)
    (hf : x.recovFrom = some t0) (h : t0 + s.recoveryLimit x ≤ s.now) : ∃ t, exec (.recoveryLimitExpiry o q c) s = .next t ∧
      (∃ d ∈ t.host.completions, d.assoc = o ∧ d.qid = q ∧ d.cid = c ∧ d.sct = (s.limitStatus x i).1.sct ∧ d.sc = (s.limitStatus x i).1.sc) ∧
      t.media = s.media := by
  obtain ⟨hxa, hxq, hxc, -⟩ := State.ctx_key hx
  obtain ⟨hwork, -, hcpl⟩ := State.complete_facts (s := s.event 0x389) (x := x) (by omega) (s.limitStatus x i).1 0 0 [] (s.limitStatus x i).2.1
    (s.limitStatus x i).2.2
  refine ⟨_, ?_, ⟨x.completion (s.limitStatus x i).1 0 0 [], ?_, hxa, hxq, hxc, rfl, rfl⟩, hwork.media.trans (s.event_media 0x389 0 0)⟩
  · change execRecoveryLimitExpiry o q c s = _
    unfold execRecoveryLimitExpiry
    rw [hx]
    dsimp only
    rw [hi, hw, hf]
    exact if_neg (by omega)
  · rw [hcpl]
    exact List.mem_append_right _ (List.mem_singleton_self _)

/-! ## Reads of an actuator out of service (R231) -/

/-- The sectors of a read that layer 4 can rebuild while their actuator does not serve. -/
def State.rebuildable (s : State) (i : Instr) (sp : Namespace) : List Nat :=
  ((readRange i).filterMap sp.mediaOf).filter (fun m => s.media.units.contains (m / 64) && !s.actServes (s.actAt m) &&
    !s.missingAt m && (lookupKey s.media.dram m).isNone && s.trussApplies m && (s.helperDown m).isNone)

/-- Each sector of a list is delivered as the rest of its truss gives it; none of them reads what a delivery changes. -/
theorem rebuilt_delivers (s : State) (l : List Nat) :
    s.Recovers (l.foldl (fun (t : State) m => t.deliver m (t.restOfTruss (m / 576) (m % 576 / 64) (m % 64))) s) ∧
      ∀ m ∈ l, (l.foldl (fun (t : State) m => t.deliver m (t.restOfTruss (m / 576) (m % 576 / 64) (m % 64))) s).Delivered m
        (s.restOfTruss (m / 576) (m % 576 / 64) (m % 64)) := by
  have h := foldl_delivers (s := s) (l := l) (step := fun (t : State) m => t.deliver m (t.restOfTruss (m / 576) (m % 576 / 64) (m % 64)))
    (due := fun m d => d = s.restOfTruss (m / 576) (m % 576 / 64) (m % 64)) (fun t y ht => ?_) (.refl s)
  · exact ⟨h.1, fun m hm => h.2 m hm _ rfl⟩
  · refine ⟨ht.trans (t.deliver_recovers _ _), fun d hd => ?_, fun z d hd hz => hz.deliver (fun hzy => ?_)⟩
    · rw [hd, ← ht.restOfTruss]
      exact t.deliver_delivered _ _
    · rw [hd, ht.restOfTruss, hzy]

theorem unavailReconstruct_delivers {n : Nat} {sp : Namespace} (hx : s.ctx o q c = some x) (hi : x.instr = some i) (hw : x.wait.forActuator = true)
    (hrec : s.flag Adr.MDI_UNAV Fld.MDI_UNAV_recon_unav = true) (hn : nsidOf i = some n) (hsp : s.lbaSpace x n = some sp)
    (hlate : x.since + max (s.fld Adr.MDI_UNAV Fld.MDI_UNAV_unavail_ms) 1 * 1000000 ≤ s.now) (hok : s.rebuildable i sp ≠ []) :
    ∃ u : State, exec (.unavailReconstruct o q c) s = .next ((u.body x i x.isLaunched).keepSince x).settle ∧
      (∀ m ∈ s.rebuildable i sp, lookupKey u.media.dram m = some (s.restOfTruss (m / 576) (m % 576 / 64) (m % 64))) ∧
      u.media.sectors = s.media.sectors ∧ u.host = s.host := by
  obtain ⟨hkept, hall⟩ := rebuilt_delivers s (s.rebuildable i sp)
  refine ⟨((s.rebuildable i sp).foldl (fun (t : State) m => t.deliver m (t.restOfTruss (m / 576) (m % 576 / 64) (m % 64))) s).event 0x38A, ?_, fun m hm => ?_, ?_, ?_⟩
  · change execUnavailReconstruct o q c s = _
    unfold execUnavailReconstruct
    rw [hx]
    dsimp only
    rw [hi]
    dsimp only
    rw [if_neg (by simpa [hw, hrec] using hlate), hn, Option.bind_some, hsp]
    exact if_neg (fun h => hok (List.isEmpty_iff.mp h))
  · rw [State.event_media]
    exact (hall m hm).1
  · rw [State.event_media]
    exact hkept.marks.sectors
  · exact (State.event_only _ 0x38A 0 0).host.trans hkept.marks.host

end

/-! ## A pass that rewrites a sector (R63, R233) -/

section
variable {s : State} {x : Nat} {p : Locus} {d : List Byte}

/-- From s to t nothing changes but the stored sectors and the open courses. -/
def State.Recorded (s t : State) : Prop := ∃ sec co, t = { s with media := { s.media with sectors := sec, courses := co } }

theorem State.Recorded.refl (s : State) : s.Recorded s := ⟨s.media.sectors, s.media.courses, rfl⟩

theorem State.Recorded.trans {s t u : State} (h : s.Recorded t) (k : t.Recorded u) : s.Recorded u := by
  obtain ⟨sec, co, rfl⟩ := h
  obtain ⟨sec', co', rfl⟩ := k
  exact ⟨sec', co', rfl⟩

theorem State.recordSector_recorded (s : State) (x : Nat) (d : List Byte) : s.Recorded (s.recordSector x d) := by
  unfold State.recordSector
  split
  · exact .refl s
  · exact ⟨_, s.media.courses, rfl⟩

theorem State.noteCourse_recorded (s : State) (x : Nat) : s.Recorded (s.noteCourse x) := by
  unfold State.noteCourse
  split
  · exact ⟨s.media.sectors, _, rfl⟩
  · exact .refl s

theorem State.rewriteAt_recorded (s : State) (x : Nat) (d : List Byte) : s.writePass.Recorded (s.rewriteAt x d) :=
  (s.writePass.recordSector_recorded x d).trans (State.noteCourse_recorded _ x)

theorem State.rewriteAt_holds (hp : s.locate x = some p) (d : List Byte) : (s.rewriteAt x d).Holds p.phys x d ∧
    (s.rewriteAt x d).media.wsn = s.media.wsn + 1 ∧ s.SectorsBut [p.phys] (s.rewriteAt x d) := by
  obtain ⟨hholds, hwsn, hbut, -⟩ := State.holds_of_record (s := s.writePass) (p := p) (d := d) hp ((MarksOnly.refl _).noteCourse x)
  exact ⟨hholds, hwsn, hbut⟩

theorem State.Holds.congr_media {t v : State} {k y : Nat} {d : List Byte} (h : t.Holds k y d) (hm : v.media = t.media) : v.Holds k y d := by
  unfold State.Holds State.lbaSize State.metaSize at *
  rw [hm]
  exact h

theorem State.Recorded.locate {s t : State} (h : s.Recorded t) (y : Nat) : t.locate y = s.locate y := by
  obtain ⟨sec, co, rfl⟩ := h
  rfl

theorem State.rewriteAt_locate (s : State) (x y : Nat) (d : List Byte) : (s.rewriteAt x d).locate y = s.locate y :=
  (s.rewriteAt_recorded x d).locate y

/-! ## Reallocation (R239, R240) -/

/-- A spare place is a place of a zone. -/
theorem State.sparePlace_zone {y home z n : Nat} (h : s.sparePlace y home = some (z, n)) : ∃ zn, (s.surfZones y)[z]? = some zn := by
  obtain ⟨k, -, hk⟩ := List.exists_of_findSome?_eq_some h
  obtain ⟨m, hm, heq⟩ := Option.map_eq_some_iff.mp hk
  obtain ⟨rfl, -⟩ := Prod.mk.inj heq
  unfold State.freeIn at hm
  split at hm
  · rename_i zn hzn
    exact ⟨zn, hzn⟩
  · exact absurd hm (by simp)

/-- The state in which sector x has moved to position n of zone z of a surface. -/
def State.movedTo (s : State) (x surface z n : Nat) : State := s.modMedia (fun m => { m with
  moved := m.moved.filter (fun r => r.media != x) ++ [⟨x, surface, z, n⟩], reallocated := m.reallocated + 1 })

theorem State.reallocate_cases {p : Locus} (hp : s.locate x = some p) :
    (∃ z n zn, (s.surfZones p.surface)[z]? = some zn ∧ s.reallocate x = (true,
      (((s.movedTo x p.surface z n).countFld (Adr.MDI_CNT1 (surfaceAct p.surface)) Fld.MDI_CNT1_realloc).syncSpare p.surface).actEvent
        (surfaceAct p.surface) 0x72)) ∨
    ∃ v, s.reallocate x = (false, (s.setFld (Adr.MDI_SURF (surfaceAct p.surface)) Fld.MDI_SURF_spare_out v).actEvent (surfaceAct p.surface) 0x75 p.surface) := by
  unfold State.reallocate
  rw [hp]
  dsimp -zeta only
  extract_lets a home place r
  have hzone {z n : Nat} (h : place = some (z, n)) : ∃ zn, (s.surfZones p.surface)[z]? = some zn := by
    simp only [place] at h
    split at h
    · exact State.sparePlace_zone h
    · exact absurd h (by simp)
  clear_value place
  cases place with
  | none => exact .inr ⟨_, rfl⟩
  | some b =>
    obtain ⟨zn, hzn⟩ := hzone rfl
    exact .inl ⟨b.1, b.2, zn, hzn, rfl⟩

/-- A sector that has moved is found at its new place. -/
theorem State.movedTo_locate {y z n : Nat} {zn : Zone} (hz : (s.surfZones y)[z]? = some zn) : ∃ q, (s.movedTo x y z n).locate x = some q := by
  have hfind : (s.movedTo x y z n).media.moved.find? (fun m => m.media == x) = some ⟨x, y, z, n⟩ := by
    simp only [State.movedTo, State.modMedia]
    rw [List.find?_append, List.find?_eq_none.mpr (fun r hr => by simpa using (List.mem_filter.mp hr).2)]
    simp
  have hlayout : (s.movedTo x y z n).media.layout = s.media.layout := rfl
  unfold State.locate
  rw [hfind, hlayout]
  unfold State.surfZones at hz
  cases hl : s.media.layout with
  | none =>
    rw [hl] at hz
    exact absurd hz (by simp)
  | some l =>
    rw [hl] at hz
    dsimp only at hz ⊢
    rw [hz]
    exact ⟨_, rfl⟩

end

end Sys2Proof.Machine
end

section
/-! The rewrite of a recovered sector and the retry of a cut one (R233, R234). -/

namespace Sys2Proof.Machine

open Sys2Proof

section
variable {s : State} {x : Nat} {p : Locus} {d : List Byte}

/-! ## The rewrite of a recovered sector (R233) -/

/-- The state in which the rewrite of sector x has begun: it waits no more. -/
def State.rewriteTaken (s : State) (x : Nat) : State := s.modMedia (fun m => { m with rewrites := eraseKey m.rewrites x })

/-- A rewrite whose surface is there and may be written, and for whose course there is room. -/
theorem exec_recoveredRewrite (hp : s.locate x = some p) (hd : lookupKey s.media.rewrites x = some d) (hgone : s.media.surfaceGone p.surface = false)
    (hplace : s.mayPlace p.surface = true) (hroom : s.roomFor [x] = true) (back : Option Nat) :
    exec (.recoveredRewrite x back) s = .next
      (if !(back.elim true (fun n => decide (s.fld (Adr.MDI_RCTL (p.surface / 8)) Fld.MDI_RCTL_weak_iter < n))) then (s.rewriteTaken x).rewriteAt x d
      else if (((s.rewriteTaken x).rewriteAt x d).reallocate x).1 then (((s.rewriteTaken x).rewriteAt x d).reallocate x).2.rewriteAt x d
      else (((s.rewriteTaken x).rewriteAt x d).reallocate x).2) := by
  change execRecoveredRewrite x back s = _
  unfold execRecoveredRewrite
  rw [hp, hd]
  dsimp only
  rw [if_neg (by simp [hgone]), if_neg (by simp [hplace]), if_neg (by simp [hroom])]
  cases back <;> rfl

/-- A sector that reads back well stays where it was rewritten. -/
theorem recoveredRewrite_stays {n : Nat} (hp : s.locate x = some p) (hd : lookupKey s.media.rewrites x = some d)
    (hgone : s.media.surfaceGone p.surface = false) (hplace : s.mayPlace p.surface = true) (hroom : s.roomFor [x] = true)
    (hn : n ≤ s.fld (Adr.MDI_RCTL (p.surface / 8)) Fld.MDI_RCTL_weak_iter) : ∃ t, exec (.recoveredRewrite x (some n)) s = .next t ∧
      t.Holds p.phys x d ∧ lookupKey t.media.rewrites x = none ∧ t.media.wsn = s.media.wsn + 1 ∧ s.SectorsBut [p.phys] t ∧
      t = { s with media := t.media } := by
  obtain ⟨hholds, hwsn, hbut⟩ := State.rewriteAt_holds (s := s.rewriteTaken x) hp d
  obtain ⟨sec, co, honly⟩ := (s.rewriteTaken x).rewriteAt_recorded x d
  refine ⟨(s.rewriteTaken x).rewriteAt x d, ?_, hholds, ?_, hwsn, hbut, ?_⟩
  · rw [exec_recoveredRewrite hp hd hgone hplace hroom]
    exact congrArg Host.Outcome.next (if_pos (by simpa using hn))
  · rw [honly]
    exact lookupKey_erase_same _ _
  · rw [honly]
    rfl

/-- A sector that does not read back well moves, and is rewritten at its new place; where it cannot move it stays as it was rewritten. -/
theorem recoveredRewrite_moves (hp : s.locate x = some p) (hd : lookupKey s.media.rewrites x = some d) (hgone : s.media.surfaceGone p.surface = false)
    (hplace : s.mayPlace p.surface = true) (hroom : s.roomFor [x] = true) : ∃ t, exec (.recoveredRewrite x none) s = .next t ∧
      lookupKey t.media.rewrites x = none ∧ t.host = s.host ∧
      (t.media.reallocated = s.media.reallocated ∧ t.Holds p.phys x d ∨
        t.media.reallocated = s.media.reallocated + 1 ∧ ∃ q, t.locate x = some q ∧ t.Holds q.phys x d) := by
  obtain ⟨hholds, -, -⟩ := State.rewriteAt_holds (s := s.rewriteTaken x) hp d
  have hloc : ((s.rewriteTaken x).rewriteAt x d).locate x = some p := (State.rewriteAt_locate _ x x d).trans hp
  have htaken : ((s.rewriteTaken x).rewriteAt x d).host = s.host ∧ lookupKey ((s.rewriteTaken x).rewriteAt x d).media.rewrites x = none ∧
      ((s.rewriteTaken x).rewriteAt x d).media.reallocated = s.media.reallocated := by
    obtain ⟨sec, co, honly⟩ := (s.rewriteTaken x).rewriteAt_recorded x d
    rw [honly]
    exact ⟨rfl, lookupKey_erase_same _ _, rfl⟩
  have hexec := exec_recoveredRewrite hp hd hgone hplace hroom none
  rw [Option.elim_none, if_neg (by decide)] at hexec
  generalize (s.rewriteTaken x).rewriteAt x d = u at *
  obtain ⟨hhost, hrew, hcount⟩ := htaken
  rcases State.reallocate_cases hloc with ⟨z, n, zn, hz, hmove⟩ | ⟨v, hstay⟩
  · rw [hmove, if_pos rfl] at hexec
    have hevent := (((u.movedTo x p.surface z n).countFld (Adr.MDI_CNT1 (surfaceAct p.surface)) Fld.MDI_CNT1_realloc).syncSpare
      p.surface).actEvent_only (surfaceAct p.surface) 0x72 0 0
    have hmarks : MarksOnly (u.movedTo x p.surface z n) (((((u.movedTo x p.surface z n).countFld (Adr.MDI_CNT1 (surfaceAct p.surface))
      Fld.MDI_CNT1_realloc).syncSpare p.surface).actEvent (surfaceAct p.surface) 0x72)) := .of_media hevent.media hevent.host
    have hmedia : (((((u.movedTo x p.surface z n).countFld (Adr.MDI_CNT1 (surfaceAct p.surface))
      Fld.MDI_CNT1_realloc).syncSpare p.surface).actEvent (surfaceAct p.surface) 0x72)).media = (u.movedTo x p.surface z n).media := hevent.media
    obtain ⟨q, hq⟩ := State.movedTo_locate (s := u) (x := x) (n := n) hz
    generalize (((u.movedTo x p.surface z n).countFld (Adr.MDI_CNT1 (surfaceAct p.surface)) Fld.MDI_CNT1_realloc).syncSpare p.surface).actEvent
      (surfaceAct p.surface) 0x72 = v at *
    have hvq : v.locate x = some q := (hmarks.locate x).trans hq
    obtain ⟨sec, co, honly⟩ := v.rewriteAt_recorded x d
    refine ⟨_, hexec, ?_, ?_, .inr ⟨?_, q, (v.rewriteAt_locate x x d).trans hvq, (State.rewriteAt_holds hvq d).1⟩⟩
    · rw [honly]
      change lookupKey v.media.rewrites x = none
      rw [hmedia]
      exact hrew
    · rw [honly]
      exact hmarks.host.trans hhost
    · rw [honly]
      change v.media.reallocated = _
      rw [hmedia, ← hcount]
      rfl
  · rw [hstay, if_neg (by simp)] at hexec
    have hmedia := ((u.setFld (Adr.MDI_SURF (surfaceAct p.surface)) Fld.MDI_SURF_spare_out v).actEvent_only (surfaceAct p.surface) 0x75 p.surface 0).media
    have hh := ((u.setFld (Adr.MDI_SURF (surfaceAct p.surface)) Fld.MDI_SURF_spare_out v).actEvent_only (surfaceAct p.surface) 0x75 p.surface 0).host
    refine ⟨_, hexec, ?_, hh.trans hhost, .inl ⟨?_, ?_⟩⟩
    · rw [hmedia]
      exact hrew
    · rw [hmedia]
      exact hcount
    · exact hholds.congr_media hmedia

/-! ## The retry of a cut write (R234) -/

theorem State.cutEntry_media {a : Fin 4} {e : Entry} (h : s.cutEntry x = some (a, e)) : e.media = x := by
  obtain ⟨b, -, hb⟩ := List.exists_of_findSome?_eq_some h
  obtain ⟨f, hf, heq⟩ := Option.map_eq_some_iff.mp hb
  obtain ⟨-, rfl⟩ := Prod.mk.inj heq
  have hkey := List.find?_some hf
  simp only [Bool.and_eq_true, beq_iff_eq] at hkey
  exact hkey.2

theorem writeRetry_writes {a : Fin 4} {e : Entry} (hcut : s.cutEntry x = some (a, e)) (hp : s.locate x = some p) (hplace : s.mayPlace (8 * a) = true)
    (hroom : s.roomFor [x] = true) (hmost : (lookupKey s.media.tries x).getD 0 < s.fld (Adr.MDI_RCTL a) Fld.MDI_RCTL_wr_retry) :
    ∃ t, exec (.writeRetry x true) s = .next t ∧ t.Holds p.phys x e.data ∧ t.media.tries = eraseKey s.media.tries x ∧
      s.SectorsBut [p.phys] t ∧ t.regs = s.regs ∧ s.ActsBut a t := by
  obtain ⟨hholds, -, hbut⟩ := State.rewriteAt_holds hp e.data
  obtain ⟨sec, co, honly⟩ := s.rewriteAt_recorded x e.data
  refine ⟨(s.rewriteAt x e.data).cutOver a x, ?_, hholds, ?_, hbut, ?_, fun b hb => ?_⟩
  · change execWriteRetry x true s = _
    unfold execWriteRetry
    rw [hcut]
    dsimp only
    rw [if_neg (by simp [hplace]), if_neg (by simp [hroom]), if_pos (by simpa using hmost), State.cutWritten, State.cutEntry_media hcut]
  · rw [honly]
    rfl
  · rw [honly]
    rfl
  · have hacts : (s.rewriteAt x e.data).acts = s.acts := by
      rw [honly]
      rfl
    exact ((((State.ActsBut.refl a s).same hacts).modSeq _).same (State.modMedia_acts _ _)) b hb

theorem writeRetry_counts {a : Fin 4} {e : Entry} (hcut : s.cutEntry x = some (a, e)) (hplace : s.mayPlace (8 * a) = true)
    (hroom : s.roomFor [x] = true) (hmost : (lookupKey s.media.tries x).getD 0 + 1 < s.fld (Adr.MDI_RCTL a) Fld.MDI_RCTL_wr_retry) :
    exec (.writeRetry x false) s =
      .next (s.modMedia (fun m => { m with tries := insertKey m.tries x ((lookupKey s.media.tries x).getD 0 + 1) })) := by
  change execWriteRetry x false s = _
  unfold execWriteRetry
  rw [hcut]
  dsimp only
  rw [if_neg (by simp [hplace]), if_neg (by simp [hroom]), if_neg (by simp), if_pos hmost]

end

/-- Settles O25: a read is served without a look at what the deliveries before it changed, and a rewritten sector holds its data at the place it
has then. -/
theorem recoveryEndRows : Obligations.RecoveryEndRows := by
  intro s
  refine ⟨fun o q c t0 x i hx ho hi hw hf => ⟨recoveryLimitExpiry_waits hx hi hw hf, recoveryLimitExpiry_ends hx ho hi hw hf⟩,
    fun o q c n x i sp hx hi hw hrec hn hsp hlate => ?_, fun x n p d hp hd hgone hplace hroom => ⟨?_, ?_⟩, fun x a e p hcut hp hplace hroom hmost => ?_,
    fun x a e hcut hplace hroom hmost => ?_⟩
  · intro ok hok
    exact unavailReconstruct_delivers hx hi hw hrec hn hsp hlate hok
  · exact recoveredRewrite_stays hp hd hgone hplace hroom
  · exact recoveredRewrite_moves hp hd hgone hplace hroom
  · exact writeRetry_writes hcut hp hplace hroom hmost
  · exact ⟨_, writeRetry_counts hcut hplace hroom hmost, rfl, rfl⟩

end Sys2Proof.Machine
end

section
/-! Courses that close and trailing trusses that get their parity (R68, R235 to R238). -/

namespace Sys2Proof.Machine

open Sys2Proof

section
variable {s : State} {f tr k : Nat} {c : OpenCourse}

/-! ## Courses (R235) -/

theorem courseOpenTimeout_closes (hc : s.media.openCourse (f, tr, k) = some c) (hopen : c.closing = false) (hold : c.since + 2000000000 ≤ s.now) :
    exec (.courseOpenTimeout f tr k) s = .next (s.modMedia (fun m => { m with
      timerCloses := m.timerCloses + 1, courses := m.courses.map (fun d => if d = c then { d with closing := true } else d) })) := by
  change execCourseOpenTimeout f tr k s = _
  unfold execCourseOpenTimeout
  rw [hc]
  refine if_neg ?_
  rw [hopen]
  rintro (h | h)
  · exact absurd h (by decide)
  · omega

theorem State.recordAt_recorded (s : State) (p : Nat) (field : List Byte) (seed kind index : Nat) : s.Recorded (s.recordAt p field seed kind index) :=
  ⟨_, s.media.courses, rfl⟩

/-- Sectors recorded one after the other at places of their own. -/
theorem foldl_recordAt {place : Nat → Nat} (hplace : ∀ i j, place i = place j → i = j) (field : Nat → List Byte) (kind : Nat) {l : List Nat} (t : State) :
    t.Recorded (l.foldl (fun (u : State) i => u.recordAt (place i) (field i) (place i) kind i) t) ∧
      t.SectorsBut (l.map place) (l.foldl (fun (u : State) i => u.recordAt (place i) (field i) (place i) kind i) t) ∧
      ∀ i ∈ l, lookupKey (l.foldl (fun (u : State) i => u.recordAt (place i) (field i) (place i) kind i) t).media.sectors (place i) =
        some (codeword (field i) (tagBytes (place i) t.media.wsn kind i)) := by
  induction l generalizing t with
  | nil => exact ⟨.refl t, fun _ _ => rfl, fun _ h => absurd h List.not_mem_nil⟩
  | cons n l ih =>
    obtain ⟨hrec, hbut, hall⟩ := ih (t.recordAt (place n) (field n) (place n) kind n)
    refine ⟨(t.recordAt_recorded ..).trans hrec, fun p hp => ?_, fun i hi => ?_⟩
    · rw [List.map_cons, List.mem_cons, not_or] at hp
      exact (hbut p hp.2).trans (lookupKey_insert_other _ _ hp.1)
    · by_cases hl : i ∈ l
      · exact hall i hl
      · obtain rfl : i = n := (List.mem_cons.mp hi).resolve_right hl
        refine (hbut (place i) (fun h => ?_)).trans (lookupKey_insert_same _ _ _)
        obtain ⟨j, hj, heq⟩ := List.mem_map.mp h
        exact hl (hplace _ _ heq ▸ hj)

theorem coursePhys_inj (q : Nat × Nat × Nat) (i j : Nat) (h : coursePhys q (60 + i) = coursePhys q (60 + j)) : i = j := by
  unfold coursePhys physOf at h
  omega

/-- The trailing buffer holds no sector of the medium. -/
theorem State.trimBuffer_kept (s : State) : s.trimBuffer.media.sectors = s.media.sectors ∧ s.trimBuffer.media.wsn = s.media.wsn ∧
    s.trimBuffer.media.courses = s.media.courses := ⟨rfl, rfl, rfl⟩

theorem exec_courseCloseDone (hc : s.media.openCourse (f, tr, k) = some c) (hclosing : c.closing = true) (hplace : s.mayPlace f = true) :
    exec (.courseCloseDone f tr k []) s = .next (((s.writeCourseParity (f, tr, k)).modMedia (fun m => { m with
      courses := m.courses.filter (fun d => !(d.surface == f && d.track == tr && d.course == k))
      owedCourses := m.owedCourses.filter (fun q => q != (f, tr, k))
      writes := m.writes.map (fun w => { w with held := false }) })).trimBuffer) := by
  change execCourseCloseDone f tr k [] s = _
  unfold execCourseCloseDone
  rw [hc]
  exact if_neg (by simp [hclosing, hplace])

/-- A closing course gets its four parity sectors and is open no more. -/
theorem courseCloseDone_writes (hc : s.media.openCourse (f, tr, k) = some c) (hclosing : c.closing = true) (hplace : s.mayPlace f = true) :
    ∃ t, exec (.courseCloseDone f tr k []) s = .next t ∧ (∀ d ∈ t.media.courses, ¬(d.surface = f ∧ d.track = tr ∧ d.course = k)) ∧
      (∀ i < 4, lookupKey t.media.sectors (coursePhys (f, tr, k) (60 + i)) =
        some (codeword (courseParityField ((s.courseFields (f, tr, k)).take 60) s.lbaSize i)
          (tagBytes (coursePhys (f, tr, k) (60 + i)) t.media.wsn 3 i))) ∧
      s.SectorsBut ((List.range 4).map (fun i => coursePhys (f, tr, k) (60 + i))) t ∧ t = { s with media := t.media } := by
  obtain ⟨⟨sec, co, honly⟩, hbut, hall⟩ := foldl_recordAt (coursePhys_inj (f, tr, k))
    (fun i => courseParityField ((s.courseFields (f, tr, k)).take 60) s.lbaSize i) 3 (l := List.range 4) s.writePass
  have hparity : (List.range 4).foldl (fun (u : State) i => u.recordAt (coursePhys (f, tr, k) (60 + i))
      (courseParityField ((s.courseFields (f, tr, k)).take 60) s.lbaSize i) (coursePhys (f, tr, k) (60 + i)) 3 i) s.writePass =
      s.writeCourseParity (f, tr, k) := rfl
  rw [hparity] at honly hbut hall
  have hexec := exec_courseCloseDone hc hclosing hplace
  generalize s.writeCourseParity (f, tr, k) = u at *
  have hwsn : u.media.wsn = s.writePass.media.wsn := by rw [honly]
  refine ⟨_, hexec, ?_⟩
  obtain ⟨hsec, hnum, hcourses⟩ := State.trimBuffer_kept (u.modMedia (fun m => { m with
    courses := m.courses.filter (fun d => !(d.surface == f && d.track == tr && d.course == k))
    owedCourses := m.owedCourses.filter (fun q => q != (f, tr, k))
    writes := m.writes.map (fun w => { w with held := false }) }))
  rw [State.modMedia_media] at hsec hnum hcourses
  refine ⟨fun d hd => ?_, fun i hi => ?_, fun p hp => ?_, ?_⟩
  · rw [hcourses] at hd
    rintro ⟨hf, ht, hk⟩
    have hleft := (List.mem_filter.mp hd).2
    simp [hf, ht, hk] at hleft
  · rw [hsec, hnum, hwsn]
    exact hall i (List.mem_range.mpr hi)
  · rw [hsec]
    exact hbut p hp
  · rw [honly]
    rfl

/-! ## Trailing trusses (R237) -/

theorem trailTimeout_signals {n : Nat} (h : s.media.trailing.any (fun r => r.truss == n && s.trailOver r) = true) :
    exec (.trailTimeout n) s = .next (s.event 0x387) := if_pos h

/-- The parity of a position all of whose units can be had is that of its data sectors. -/
theorem State.writeParityAt_of_present {n i : Nat} (hi : i < 64) (h : ∀ j < 9, s.missingAt (n * 576 + j * 64 + i) = false) : s.writeParityAt n i =
    (s.recordSector (n * 576 + 512 + i) (((List.range 8).map (fun j => n * 576 + j * 64 + i)).foldl
      (fun acc x => xorBytes acc (s.onMedium x)) (List.replicate s.lbaSize 0))).noteCourse (n * 576 + 512 + i) := by
  have hfrom : s.parityFrom n i = (List.range 8).map (fun j => n * 576 + j * 64 + i) := by
    unfold State.parityFrom
    rw [List.filter_eq_self]
    intro x hx
    obtain ⟨j, hj, rfl⟩ := List.mem_map.mp hx
    rw [h j (by have := List.mem_range.mp hj; omega)]
    simp
  have hgone : ((List.range 8).filter (fun j => !((List.range 8).map (fun j => n * 576 + j * 64 + i)).contains (n * 576 + j * 64 + i) &&
      !s.media.isClean n j)) = [] := by
    rw [List.filter_eq_nil_iff]
    intro j hj
    have hmem : ((List.range 8).map (fun j => n * 576 + j * 64 + i)).contains (n * 576 + j * 64 + i) = true :=
      List.contains_iff_mem.mpr (List.mem_map.mpr ⟨j, hj, rfl⟩)
    rw [hmem]
    simp
  unfold State.writeParityAt
  dsimp only
  rw [hfrom, hgone, List.map_nil, List.foldl_nil, if_neg (by rw [h 8 (by omega)]; decide)]

theorem trussParityWritten_writes {n i : Nat} {r : Trail} {p : Locus} (hr : s.media.trailing.find? (fun r => r.truss == n) = some r) (hstale : r.stale = [i])
    (hi : i < 64) (hturn : s.parityTurn r = true) (hroom : s.roomFor [n * 576 + 512 + i] = true) (hp : s.locate (n * 576 + 512 + i) = some p)
    (hthere : ∀ j < 9, s.missingAt (n * 576 + j * 64 + i) = false) : ∃ t, exec (.trussParityWritten n) s = .next t ∧
      t.media.trailing = s.media.trailing.filter (fun r => r.truss != n) ∧
      t.Holds p.phys (n * 576 + 512 + i) (((List.range 8).map (fun j => n * 576 + j * 64 + i)).foldl
        (fun acc x => xorBytes acc (s.onMedium x)) (List.replicate s.lbaSize 0)) ∧
      s.SectorsBut [p.phys] t ∧ t = { s with media := t.media } := by
  have hwrite := State.writeParityAt_of_present (s := s.writePass) hi hthere
  have hdata : ((List.range 8).map (fun j => n * 576 + j * 64 + i)).foldl (fun acc x => xorBytes acc (s.writePass.onMedium x))
      (List.replicate s.writePass.lbaSize 0) = ((List.range 8).map (fun j => n * 576 + j * 64 + i)).foldl
      (fun acc x => xorBytes acc (s.onMedium x)) (List.replicate s.lbaSize 0) := rfl
  rw [hdata] at hwrite
  generalize ((List.range 8).map (fun j => n * 576 + j * 64 + i)).foldl (fun acc x => xorBytes acc (s.onMedium x)) (List.replicate s.lbaSize 0) = d at *
  have hwritten : s.writePass.writeParityAt n i = s.rewriteAt (n * 576 + 512 + i) d := hwrite
  have hexec : exec (.trussParityWritten n) s = .next (((s.rewriteAt (n * 576 + 512 + i) d).modMedia (fun m => { m with
      trailing := (s.rewriteAt (n * 576 + 512 + i) d).media.trailing.filter (fun r => r.truss != n)
      recomputed := if m.owedTrusses.contains n then m.recomputed + 1 else m.recomputed
      owedTrusses := m.owedTrusses.filter (fun t => t != n)
      writes := if decide (((s.rewriteAt (n * 576 + 512 + i) d).media.trailing.filter (fun r => r.truss != n)).length <
          s.fld Adr.MDI_TRAIL Fld.MDI_TRAIL_trail_max) then m.writes.map (fun w => { w with held := false }) else m.writes })).trimBuffer) := by
    change execTrussParityWritten n s = _
    unfold execTrussParityWritten
    rw [hr]
    dsimp only
    rw [if_neg (by simp [hturn]), hstale, List.map_singleton, if_neg (by simp [hroom]), List.foldl_cons, List.foldl_nil, hwritten]
  obtain ⟨hholds, -, hbut⟩ := State.rewriteAt_holds hp d
  obtain ⟨sec, co, honly⟩ := s.rewriteAt_recorded (n * 576 + 512 + i) d
  generalize s.rewriteAt (n * 576 + 512 + i) d = u at *
  refine ⟨_, hexec, ?_, hholds, hbut, ?_⟩
  · change u.media.trailing.filter _ = _
    rw [honly]
    rfl
  · rw [honly]
    rfl

end

end Sys2Proof.Machine
end

section
/-! The rebuild of a surface and the background scan (R243, R249, R250). -/

namespace Sys2Proof.Machine

open Sys2Proof

/-! ## Sectors recorded one after the other (R62) -/

/-- One sector of a list is recorded, and its course noted. -/
def State.recordNoted (data : Nat → List Byte) (s : State) (x : Nat) : State := (s.recordSector x (data x)).noteCourse x

section
variable {s : State} {data : Nat → List Byte}

theorem State.recordNoted_recorded (s : State) (x : Nat) : s.Recorded (s.recordNoted data x) :=
  (s.recordSector_recorded x _).trans (State.noteCourse_recorded _ x)

/-- The places of the sectors of a list. -/
def State.placesOf (s : State) (l : List Nat) : List Nat := l.filterMap (fun x => (s.locate x).map Locus.phys)

theorem State.recordNoted_but (s : State) (x : Nat) : s.SectorsBut (s.placesOf [x]) (s.recordNoted data x) := by
  intro k hk
  have hnote : (s.recordNoted data x).media.sectors = (s.recordSector x (data x)).media.sectors := ((MarksOnly.refl _).noteCourse x).sectors
  rw [hnote]
  unfold State.recordSector
  cases h : s.locate x with
  | none => rfl
  | some p =>
    refine lookupKey_insert_other _ _ (fun hkp => hk ?_)
    simp [State.placesOf, h, hkp]

theorem foldl_recordNoted (l : List Nat) (s : State) : s.Recorded (l.foldl (State.recordNoted data) s) ∧
    s.SectorsBut (s.placesOf l) (l.foldl (State.recordNoted data) s) := by
  induction l generalizing s with
  | nil => exact ⟨.refl s, fun _ _ => rfl⟩
  | cons x l ih =>
    have hstep := s.recordNoted_recorded (data := data) x
    obtain ⟨hrec, hbut⟩ := ih (s.recordNoted data x)
    have hplaces : (s.recordNoted data x).placesOf l = s.placesOf l := by
      simp only [State.placesOf, hstep.locate]
    rw [hplaces] at hbut
    refine ⟨hstep.trans hrec, fun k hk => ?_⟩
    have hcons : s.placesOf (x :: l) = s.placesOf [x] ++ s.placesOf l := List.filterMap_append (l := [x])
    rw [hcons, List.mem_append, not_or] at hk
    exact (hbut k hk.2).trans (s.recordNoted_but x k hk.1)

/-- A sector holds its data in the end where none of those after it lies at its place. -/
theorem foldl_recordNoted_holds {l₁ l₂ : List Nat} {x : Nat} {q : Locus} (hq : s.locate x = some q)
    (hafter : ∀ z ∈ l₂, ∀ p, s.locate z = some p → p.phys ≠ q.phys) :
    ((l₁ ++ x :: l₂).foldl (State.recordNoted data) s).Holds q.phys x (data x) := by
  rw [List.foldl_append, List.foldl_cons]
  have hbefore := (foldl_recordNoted (data := data) l₁ s).1
  generalize l₁.foldl (State.recordNoted data) s = u at *
  have hstep := u.recordNoted_recorded (data := data) x
  obtain ⟨hholds, -⟩ := State.holds_of_record (d := data x) ((hbefore.locate x).trans hq) ((MarksOnly.refl _).noteCourse x)
  change (u.recordNoted data x).Holds q.phys x (data x) at hholds
  obtain ⟨hrec, hbut⟩ := foldl_recordNoted (data := data) l₂ (u.recordNoted data x)
  have hkept := hbut q.phys (fun h => by
    obtain ⟨z, hz, hp⟩ := List.mem_filterMap.mp h
    obtain ⟨p, hp, heq⟩ := Option.map_eq_some_iff.mp hp
    exact hafter z hz p (by rw [← hbefore.locate, ← hstep.locate]; exact hp) heq)
  generalize l₂.foldl (State.recordNoted data) (u.recordNoted data x) = w at *
  obtain ⟨sec, co, honly⟩ := hrec
  unfold State.Holds at hholds ⊢
  rw [hkept, hholds, honly]
  rfl

end

/-! ## The rebuild (R243) -/

section
variable {s : State} {x n j y z m : Nat} {r : List Nat} {l : Layout}

theorem length_eraseDups_le {α : Type} [BEq α] (l : List α) : l.eraseDups.length ≤ l.length := by
  induction h : l.length using Nat.strongRecOn generalizing l with
  | ind n ih =>
    cases l with
    | nil => simp
    | cons a l =>
      have hlen := List.length_filter_le (fun b => !b == a) l
      rw [List.length_cons] at h
      rw [List.eraseDups_cons, List.length_cons]
      have := ih _ (by omega) (l.filter (fun b => !b == a)) rfl
      omega

/-- A list opens no more courses than it has sectors. -/
theorem State.roomFor_of_length {xs : List Nat} (h : s.media.courses.length + xs.length ≤ 256) : s.roomFor xs = true := by
  have h1 := length_eraseDups_le ((xs.filterMap s.courseOf).filter (fun k => (s.media.openCourse k).isNone))
  have h2 := List.length_filter_le (fun k => (s.media.openCourse k).isNone) (xs.filterMap s.courseOf)
  have h3 := List.length_filterMap_le s.courseOf xs
  unfold State.roomFor
  rw [decide_eq_true_iff]
  omega

/-- The sectors of unit j of truss n. -/
def unitRun (n j : Nat) : List Nat := (List.range 64).map (fun i => n * 576 + j * 64 + i)

theorem unitRun_split {i : Nat} (h : i < 64) (n j : Nat) :
    unitRun n j = (List.range i).map (fun i => n * 576 + j * 64 + i) ++ (n * 576 + j * 64 + i) ::
      (List.range (63 - i)).map (fun k => n * 576 + j * 64 + (i + (k + 1))) := by
  have hrange : List.range 64 = List.range i ++ i :: (List.range (63 - i)).map (fun k => i + (k + 1)) := by
    rw [show 64 = i + ((63 - i) + 1) by omega, List.range_add, List.range_succ_eq_map, List.map_cons, List.map_map]
    rfl
  rw [unitRun, hrange, List.map_append, List.map_cons, List.map_map]
  rfl

/-- The state in which the unit has its new place. -/
def State.unitPlaced (s : State) (n j y z m : Nat) : State := s.modMedia (fun k => { k with
  rebuilt := k.rebuilt.filter (fun r => !(r.truss == n && r.unit == j)) ++ [⟨n, j, y, z, m⟩]
  rebuildNext := n + 1, rebuildLock := none })

theorem rebuildUnit_ends (hq : s.media.rebuildQueue = x :: r) (hl : s.media.layout = some l)
    (hen : s.flag Adr.MDI_REBUILD Fld.MDI_REBUILD_rb_en = true) (hloss : s.media.afterLoss = false)
    (hsurf : s.fld Adr.MDI_REBUILD Fld.MDI_REBUILD_surface = x) (hnext : s.nextRebuild l x s.media.rebuildNext = none) :
    exec .rebuildUnit s = .next ((((s.modMedia (fun m => { m with rebuildQueue := r, rebuildNext := 0, rebuildLock := none })).setFld Adr.MDI_REBUILD
      Fld.MDI_REBUILD_surface 0xFF).syncRebuild).event 0x383) := by
  change execRebuildUnit s = _
  unfold execRebuildUnit
  rw [hq, hl]
  dsimp -zeta only
  rw [if_neg (by simp [hen, hloss])]
  extract_lets s0 s1
  have hs0 : s0 = s := if_pos hsurf
  have hs1 : s1 = s.modMedia (fun m => { m with rebuildQueue := r, rebuildNext := 0, rebuildLock := none }) := by
    simp only [s1]
    rw [hs0]
  rw [hs0, hnext, hs1]

theorem exec_rebuildUnit (hq : s.media.rebuildQueue = x :: r) (hl : s.media.layout = some l)
    (hen : s.flag Adr.MDI_REBUILD Fld.MDI_REBUILD_rb_en = true) (hloss : s.media.afterLoss = false)
    (hsurf : s.fld Adr.MDI_REBUILD Fld.MDI_REBUILD_surface = x) (hnext : s.nextRebuild l x s.media.rebuildNext = some n)
    (hunit : s.media.toRebuild l x n = some j) (hy : s.rebuildTarget l n = some y) (hrun : s.spareRun y = some (z, m))
    (htrail : s.media.trailing.any (fun r => r.truss == n) = false) (hplace : s.mayPlace y = true) (hup : s.helpersUp l n j = true)
    (hroom : s.media.courses.length ≤ 192) (hclean : s.media.isClean n j = false) :
    exec .rebuildUnit s = .next ((((unitRun n j).foldl (State.recordNoted (fun x => s.restOfTruss n j (x % 64)))
      (s.unitPlaced n j y z m).writePass).syncSpare y).syncRebuild) := by
  have hroom' : (s.unitPlaced n j y z m).roomFor (unitRun n j) = true := by
    refine State.roomFor_of_length ?_
    rw [unitRun, List.length_map, List.length_range]
    exact Nat.add_le_add_right hroom 64
  change execRebuildUnit s = _
  unfold execRebuildUnit
  rw [hq, hl]
  dsimp -zeta only
  rw [if_neg (by simp [hen, hloss])]
  extract_lets s0
  have hs0 : s0 = s := if_pos hsurf
  rw [hs0, hnext]
  dsimp -zeta only
  rw [hunit, hy]
  dsimp -zeta only
  rw [hrun]
  dsimp -zeta only
  rw [htrail, if_neg (by decide), if_neg (by simp [hplace, hup])]
  extract_lets u xs
  rw [show u.roomFor xs = true from hroom', if_neg (by decide), hclean]
  rfl

end

end Sys2Proof.Machine
end

section
/-! What the rebuild and the scan leave, and the rows of media integrity (R68, R69, R235 to R238, R243, R249, R250). -/

namespace Sys2Proof.Machine

open Sys2Proof

section
variable {s : State} {x n j y z m : Nat} {r : List Nat} {l : Layout}

/-! ## The rebuild's registers (R243) -/

theorem State.syncSpare_regs (s : State) (y : Nat) : s.RegsBut [Adr.MDI_SPARE (y / 8) (y % 8)] (s.syncSpare y) ∧ (s.syncSpare y).media = s.media :=
  ⟨(s.regsBut_setFld _ _ _).trans (State.regsBut_setFld _ _ _ _), rfl⟩

theorem State.syncRebuild_regs (s : State) : s.RegsBut [Adr.MDI_RBLEFT] s.syncRebuild ∧ s.syncRebuild.media = s.media :=
  ⟨s.regsBut_setFld _ _ _, rfl⟩

/-- With no surface waiting nothing is left to rebuild. -/
theorem State.syncRebuild_of_nil (h : s.media.rebuildQueue = []) : s.syncRebuild.reg Adr.MDI_RBLEFT = 0 := by
  have hsync : s.syncRebuild = s.setFld Adr.MDI_RBLEFT Fld.MDI_RBLEFT_units 0 := by
    unfold State.syncRebuild
    rw [h]
    cases s.media.layout <;> rfl
  have hfld : s.syncRebuild.fld Adr.MDI_RBLEFT Fld.MDI_RBLEFT_units = 0 := by
    rw [hsync, State.fld_setFld_eq _ _ _ _ (by decide)]
    rfl
  have hlt := (s.syncRebuild.reg Adr.MDI_RBLEFT).isLt
  have hwhole : (s.syncRebuild.reg Adr.MDI_RBLEFT).toNat % 2 ^ 32 = 0 := hfld
  rw [Nat.mod_eq_of_lt hlt] at hwhole
  exact BitVec.eq_of_toNat_eq hwhole

theorem rebuildUnit_end_facts (hq : s.media.rebuildQueue = x :: r) (hl : s.media.layout = some l)
    (hen : s.flag Adr.MDI_REBUILD Fld.MDI_REBUILD_rb_en = true) (hloss : s.media.afterLoss = false)
    (hsurf : s.fld Adr.MDI_REBUILD Fld.MDI_REBUILD_surface = x) (hnext : s.nextRebuild l x s.media.rebuildNext = none) :
    ∃ t, exec .rebuildUnit s = .next t ∧ t.media.rebuildQueue = r ∧
      t.fld Adr.MDI_REBUILD Fld.MDI_REBUILD_surface = 0xFF ∧ (r = [] → t.reg Adr.MDI_RBLEFT = 0) ∧ t.media.sectors = s.media.sectors ∧
      s.RegsButEvents [Adr.MDI_REBUILD, Adr.MDI_RBLEFT] t := by
  have hexec := rebuildUnit_ends hq hl hen hloss hsurf hnext
  have hrebuild : ¬EventReg Adr.MDI_REBUILD := by unfold EventReg; decide
  have hleft : ¬EventReg Adr.MDI_RBLEFT := by unfold EventReg; decide
  have hu : ∃ u, u = (s.modMedia (fun m => { m with rebuildQueue := r, rebuildNext := 0, rebuildLock := none })).setFld Adr.MDI_REBUILD
    Fld.MDI_REBUILD_surface 0xFF := ⟨_, rfl⟩
  obtain ⟨u, hu⟩ := hu
  rw [← hu] at hexec
  have hregs : s.RegsBut [Adr.MDI_REBUILD] u := by
    rw [hu]
    exact (s.modMedia _).regsBut_setFld Adr.MDI_REBUILD _ _
  have hsurface : u.fld Adr.MDI_REBUILD Fld.MDI_REBUILD_surface = 0xFF := by
    rw [hu, State.fld_setFld_eq _ _ _ _ (by decide)]
    rfl
  have hqueue : u.media.rebuildQueue = r ∧ u.media.sectors = s.media.sectors := by
    rw [hu]
    exact ⟨rfl, rfl⟩
  clear hu
  obtain ⟨hsync, hmedia⟩ := u.syncRebuild_regs
  have hevent := u.syncRebuild.event_only 0x383 0 0
  refine ⟨_, hexec, ?_, ?_, fun hr => ?_, ?_, fun a ha hne => ?_⟩
  · rw [hevent.media, hmedia]
    exact hqueue.1
  · rw [hevent.fld _ hrebuild]
    unfold State.fld at hsurface ⊢
    rw [hsync _ (by decide)]
    exact hsurface
  · rw [hevent.reg hleft]
    exact State.syncRebuild_of_nil (hqueue.1.trans hr)
  · rw [hevent.media, hmedia]
    exact hqueue.2
  · simp only [List.mem_cons, List.not_mem_nil, or_false, not_or] at ha
    rw [hevent.reg hne, hsync a (by simpa using ha.2), hregs a (by simpa using ha.1)]

/-- The rebuild of a unit records its sectors at their new places, each as the rest of its truss gives it. -/
theorem rebuildUnit_writes (hq : s.media.rebuildQueue = x :: r) (hl : s.media.layout = some l)
    (hen : s.flag Adr.MDI_REBUILD Fld.MDI_REBUILD_rb_en = true) (hloss : s.media.afterLoss = false)
    (hsurf : s.fld Adr.MDI_REBUILD Fld.MDI_REBUILD_surface = x) (hnext : s.nextRebuild l x s.media.rebuildNext = some n)
    (hunit : s.media.toRebuild l x n = some j) (hy : s.rebuildTarget l n = some y) (hrun : s.spareRun y = some (z, m))
    (htrail : s.media.trailing.any (fun r => r.truss == n) = false) (hplace : s.mayPlace y = true) (hup : s.helpersUp l n j = true)
    (hroom : s.media.courses.length ≤ 192) (hclean : s.media.isClean n j = false) :
    ∃ t, exec .rebuildUnit s = .next t ∧ t.media.rebuildNext = n + 1 ∧ ⟨n, j, y, z, m⟩ ∈ t.media.rebuilt ∧
      (∀ i q, i < 64 → t.locate (n * 576 + j * 64 + i) = some q →
        (∀ k p, i < k → k < 64 → t.locate (n * 576 + j * 64 + k) = some p → p.phys ≠ q.phys) →
        t.Holds q.phys (n * 576 + j * 64 + i) (s.restOfTruss n j i)) ∧
      s.SectorsBut ((List.range 64).filterMap (fun i => (t.locate (n * 576 + j * 64 + i)).map Locus.phys)) t ∧
      s.RegsBut [Adr.MDI_SPARE (y / 8) (y % 8), Adr.MDI_RBLEFT] t := by
  have hexec := exec_rebuildUnit hq hl hen hloss hsurf hnext hunit hy hrun htrail hplace hup hroom hclean
  obtain ⟨hrec, hbut⟩ := foldl_recordNoted (data := fun x => s.restOfTruss n j (x % 64)) (unitRun n j) (s.unitPlaced n j y z m).writePass
  have hholds (i : Nat) (q : Locus) (hi : i < 64) (hloc : (s.unitPlaced n j y z m).writePass.locate (n * 576 + j * 64 + i) = some q)
      (hafter : ∀ k p, i < k → k < 64 → (s.unitPlaced n j y z m).writePass.locate (n * 576 + j * 64 + k) = some p → p.phys ≠ q.phys) :
      ((unitRun n j).foldl (State.recordNoted (fun x => s.restOfTruss n j (x % 64))) (s.unitPlaced n j y z m).writePass).Holds q.phys
        (n * 576 + j * 64 + i) (s.restOfTruss n j i) := by
    have hmod : (n * 576 + j * 64 + i) % 64 = i := by omega
    have h := foldl_recordNoted_holds (data := fun x => s.restOfTruss n j (x % 64)) (l₁ := (List.range i).map (fun i => n * 576 + j * 64 + i))
      (l₂ := (List.range (63 - i)).map (fun k => n * 576 + j * 64 + (i + (k + 1)))) hloc (fun w hw p hp => by
        obtain ⟨k, hk, rfl⟩ := List.mem_map.mp hw
        have := List.mem_range.mp hk
        exact hafter (i + (k + 1)) p (by omega) (by omega) hp)
    rw [← unitRun_split hi, hmod] at h
    exact h
  have hplaces : (s.unitPlaced n j y z m).writePass.placesOf (unitRun n j) = (List.range 64).filterMap
      (fun i => ((s.unitPlaced n j y z m).writePass.locate (n * 576 + j * 64 + i)).map Locus.phys) := List.filterMap_map ..
  rw [hplaces] at hbut
  have hstart : (s.unitPlaced n j y z m).writePass.regs = s.regs ∧ (s.unitPlaced n j y z m).writePass.media.sectors = s.media.sectors ∧
      (s.unitPlaced n j y z m).writePass.media.rebuildNext = n + 1 ∧ ⟨n, j, y, z, m⟩ ∈ (s.unitPlaced n j y z m).writePass.media.rebuilt :=
    ⟨rfl, rfl, rfl, List.mem_append_right _ (List.mem_singleton_self _)⟩
  generalize (s.unitPlaced n j y z m).writePass = u at *
  generalize (unitRun n j).foldl (State.recordNoted (fun x => s.restOfTruss n j (x % 64))) u = w at *
  obtain ⟨hregs, hsec, hcount, hmem⟩ := hstart
  obtain ⟨hspare, hmedia₁⟩ := w.syncSpare_regs y
  obtain ⟨hleft, hmedia₂⟩ := (w.syncSpare y).syncRebuild_regs
  have hmedia := hmedia₂.trans hmedia₁
  generalize (w.syncSpare y).syncRebuild = t at *
  have hloc (k : Nat) : t.locate k = u.locate k := by
    rw [← hrec.locate k]
    unfold State.locate
    rw [hmedia]
  refine ⟨t, hexec, ?_, ?_, fun i q hi hq hafter => ?_, ?_, fun a ha => ?_⟩
  · obtain ⟨sec, co, rfl⟩ := hrec
    rw [hmedia]
    exact hcount
  · obtain ⟨sec, co, rfl⟩ := hrec
    rw [hmedia]
    exact hmem
  · simp only [hloc] at hq hafter
    exact (hholds i q hi hq hafter).congr_media hmedia
  · simp only [hloc]
    intro k hk
    rw [hmedia, hbut k hk, hsec]
  · simp only [List.mem_cons, List.not_mem_nil, or_false, not_or] at ha
    rw [hleft a (by simpa using ha.2), hspare a (by simpa using ha.1)]
    obtain ⟨sec, co, rfl⟩ := hrec
    unfold State.reg
    rw [← hregs]

end

end Sys2Proof.Machine
end

section
/-! The background scan, and the rows of media integrity (R68, R69, R235 to R238, R243, R249, R250). -/

namespace Sys2Proof.Machine

open Sys2Proof

/-- The registers are not part of the media block. -/
theorem State.RegsBut.modMedia {l : List Nat} {s t : State} (h : s.RegsBut l t) (g : Media → Media) : s.RegsBut l (t.modMedia g) := h

section
variable {s : State} {a : Fin 4} {h tr k : Nat}

/-- The scan has come to a track: its place, and its progress in thousandths (R249). -/
def State.scanAt (s : State) (a : Fin 4) (h tr p : Nat) : State :=
  ((s.setFld (Adr.MDI_SCANPOS a) Fld.MDI_SCANPOS_head h).setFld (Adr.MDI_SCANPOS a) Fld.MDI_SCANPOS_track tr).setFld
    (Adr.MDI_SCANSTAT a) Fld.MDI_SCANSTAT_progress p

theorem State.scanAt_facts (s : State) (a : Fin 4) (h tr p : Nat) :
    (s.scanAt a h tr p).fld (Adr.MDI_SCANPOS a) Fld.MDI_SCANPOS_head = h % 2 ^ Fld.MDI_SCANPOS_head.width ∧
      (s.scanAt a h tr p).fld (Adr.MDI_SCANPOS a) Fld.MDI_SCANPOS_track = tr % 2 ^ Fld.MDI_SCANPOS_track.width ∧
      (s.scanAt a h tr p).fld (Adr.MDI_SCANSTAT a) Fld.MDI_SCANSTAT_passes = s.fld (Adr.MDI_SCANSTAT a) Fld.MDI_SCANSTAT_passes ∧
      s.RegsBut [Adr.MDI_SCANPOS a, Adr.MDI_SCANSTAT a] (s.scanAt a h tr p) ∧ s.scanAt a h tr p = { s with regs := (s.scanAt a h tr p).regs } := by
  have hne : Adr.MDI_SCANPOS a ≠ Adr.MDI_SCANSTAT a := by simp [Adr.MDI_SCANPOS, Adr.MDI_SCANSTAT]
  refine ⟨?_, ?_, ?_, ?_, rfl⟩
  · rw [State.scanAt, State.fld_setFld_ne _ _ _ _ hne, State.fld_setFld_apart _ _ _ _ _ (by decide) (by decide), State.fld_setFld_eq _ _ _ _ (by decide)]
  · rw [State.scanAt, State.fld_setFld_ne _ _ _ _ hne, State.fld_setFld_eq _ _ _ _ (by decide)]
  · rw [State.scanAt, State.fld_setFld_apart _ _ _ _ _ (by decide) (by decide), State.fld_setFld_ne _ _ _ _ hne.symm, State.fld_setFld_ne _ _ _ _ hne.symm]
  · exact (((State.RegsBut.refl _ s).setFld _ _ (by simp)).setFld _ _ (by simp)).setFld _ _ (by simp)

/-- A scan that may read brings its place and progress up to date, whatever it finds. -/
theorem scanSector_decoded {n : Nat} (hmay : s.mayScan a = true) (hsurf : s.scansSurface (8 * a + h) = true)
    (hn : n ≤ s.fld (Adr.MDI_RCTL a) Fld.MDI_RCTL_weak_iter) : ∃ p, exec (.scanSector a h tr k (.decoded n)) s = .next (s.scanAt a h tr p) := by
  change ∃ p, execScanSector a h tr k (.decoded n) s = .next (s.scanAt a h tr p)
  unfold execScanSector
  rw [hmay, hsurf, if_neg (by decide)]
  extract_lets surf zs count total before s1
  dsimp only
  rw [if_pos hn]
  exact ⟨_, rfl⟩

theorem scanSector_passEnd (hmay : s.mayScan a = true) (hsurf : s.scansSurface (8 * a + h) = true) :
    ∃ p, exec (.scanSector a h tr k .passEnd) s = .next ((((s.scanAt a h tr p).countFld (Adr.MDI_SCANSTAT a) Fld.MDI_SCANSTAT_passes).setFld
      (Adr.MDI_SCANSTAT a) Fld.MDI_SCANSTAT_progress 0).modMedia (fun m => { m with scanPasses := m.scanPasses.set a (m.scanPasses[a] + 1) })) := by
  change ∃ p, execScanSector a h tr k .passEnd s = _
  unfold execScanSector
  rw [hmay, hsurf, if_neg (by decide)]
  exact ⟨_, rfl⟩

theorem scanSector_decoded_facts {n : Nat} (hmay : s.mayScan a = true) (hsurf : s.scansSurface (8 * a + h) = true) (hh : h < 8)
    (hn : n ≤ s.fld (Adr.MDI_RCTL a) Fld.MDI_RCTL_weak_iter) : ∃ t, exec (.scanSector a h tr k (.decoded n)) s = .next t ∧
      t.fld (Adr.MDI_SCANPOS a) Fld.MDI_SCANPOS_head = h ∧
      t.fld (Adr.MDI_SCANPOS a) Fld.MDI_SCANPOS_track = tr % 2 ^ Fld.MDI_SCANPOS_track.width ∧
      s.RegsBut [Adr.MDI_SCANPOS a, Adr.MDI_SCANSTAT a] t ∧ t = { s with regs := t.regs } := by
  obtain ⟨p, hp⟩ := scanSector_decoded (tr := tr) (k := k) hmay hsurf hn
  obtain ⟨hhead, htrack, -, hregs, honly⟩ := s.scanAt_facts a h tr p
  have hwidth : 2 ^ Fld.MDI_SCANPOS_head.width = 8 := by decide
  rw [hwidth, Nat.mod_eq_of_lt hh] at hhead
  exact ⟨_, hp, hhead, htrack, hregs, honly⟩

theorem scanSector_passEnd_facts (hmay : s.mayScan a = true) (hsurf : s.scansSurface (8 * a + h) = true) :
    ∃ t, exec (.scanSector a h tr k .passEnd) s = .next t ∧ t.media.scanPasses = s.media.scanPasses.set a (s.media.scanPasses[a] + 1) ∧
      t.fld (Adr.MDI_SCANSTAT a) Fld.MDI_SCANSTAT_passes =
        min (s.fld (Adr.MDI_SCANSTAT a) Fld.MDI_SCANSTAT_passes + 1) (2 ^ Fld.MDI_SCANSTAT_passes.width - 1) ∧
      t.fld (Adr.MDI_SCANSTAT a) Fld.MDI_SCANSTAT_progress = 0 ∧ t.media.sectors = s.media.sectors ∧
      s.RegsBut [Adr.MDI_SCANPOS a, Adr.MDI_SCANSTAT a] t := by
  obtain ⟨p, hp⟩ := scanSector_passEnd (tr := tr) (k := k) hmay hsurf
  obtain ⟨-, -, hpasses, hregs, honly⟩ := s.scanAt_facts a h tr p
  have hmedia : (((s.scanAt a h tr p).countFld (Adr.MDI_SCANSTAT a) Fld.MDI_SCANSTAT_passes).setFld (Adr.MDI_SCANSTAT a)
      Fld.MDI_SCANSTAT_progress 0).media = s.media := by
    rw [honly]
    rfl
  have hcount := (s.scanAt a h tr p).fld_countFld_eq (Adr.MDI_SCANSTAT a) Fld.MDI_SCANSTAT_passes (by decide)
  rw [hpasses, ← ((s.scanAt a h tr p).countFld (Adr.MDI_SCANSTAT a) Fld.MDI_SCANSTAT_passes).fld_setFld_apart (Adr.MDI_SCANSTAT a)
    Fld.MDI_SCANSTAT_progress Fld.MDI_SCANSTAT_passes 0 (by decide) (by decide)] at hcount
  have hprogress := ((s.scanAt a h tr p).countFld (Adr.MDI_SCANSTAT a) Fld.MDI_SCANSTAT_passes).fld_setFld_eq (Adr.MDI_SCANSTAT a)
    Fld.MDI_SCANSTAT_progress 0 (by decide)
  rw [Nat.zero_mod] at hprogress
  have hkept : s.RegsBut [Adr.MDI_SCANPOS a, Adr.MDI_SCANSTAT a] (((s.scanAt a h tr p).countFld (Adr.MDI_SCANSTAT a)
      Fld.MDI_SCANSTAT_passes).setFld (Adr.MDI_SCANSTAT a) Fld.MDI_SCANSTAT_progress 0) := (hregs.setFld _ _ (by simp)).setFld _ _ (by simp)
  generalize ((s.scanAt a h tr p).countFld (Adr.MDI_SCANSTAT a) Fld.MDI_SCANSTAT_passes).setFld (Adr.MDI_SCANSTAT a)
    Fld.MDI_SCANSTAT_progress 0 = u at *
  refine ⟨_, hp, ?_, ?_, ?_, ?_, hkept.modMedia _⟩
  · rw [State.modMedia_media, hmedia]
  · rw [State.modMedia_fld, hcount]
  · rw [State.modMedia_fld, hprogress]
  · rw [State.modMedia_media, hmedia]

end

/-- Settles O26: each of these records sectors one after the other, and notes the rest. -/
theorem integrityRows : Obligations.IntegrityRows := by
  intro s
  refine ⟨fun f tr k c hc hopen hold => ⟨_, courseOpenTimeout_closes hc hopen hold, rfl, rfl, rfl⟩,
    fun f tr k c hc hclosing hplace => courseCloseDone_writes hc hclosing hplace, fun n hn => ?_,
    fun n i r p hr hstale hi hturn hroom hp hthere => trussParityWritten_writes hr hstale hi hturn hroom hp hthere,
    fun x r l hq hl hen hloss hsurf => ⟨rebuildUnit_end_facts hq hl hen hloss hsurf, fun n j y z m hnext hunit hy hrun htrail hplace hup hroom hclean =>
      rebuildUnit_writes hq hl hen hloss hsurf hnext hunit hy hrun htrail hplace hup hroom hclean⟩,
    fun a h tr k n hmay hsurf hh => ⟨scanSector_decoded_facts hmay hsurf hh, scanSector_passEnd_facts hmay hsurf⟩⟩
  have hevent := s.event_only 0x387 0 0
  exact ⟨_, trailTimeout_signals hn, rfl, fun a _ ha => hevent.reg ha, hevent.takeEvents⟩

end Sys2Proof.Machine
end
